-- ==== Sys2Proof/Word.lean ====
section
/-!
DEFINITION. Word.lean: the byte of the wire and of the blobs. Everything else the device computes with is an
integer or an exact rational (R6, R219), so this file is small.
-/

namespace Sys2Proof

/-- One octet of a message, a blob or a string (R5, Table 13-2). -/
abbrev Byte := BitVec 8

end Sys2Proof
end

