-- ==== Sys2Proof/Syntax.lean ====
section
/-!
DEFINITION. Syntax.lean: the commands of the block, one constructor of `Instr` per row of the command table, with
what the outside world brings in each: the bytes of a message or frame, a level of a pin, a sensed quantity, the
outcome of a check that silicon makes. What the device knows by itself (its time, its registers) is no operand.
-/

namespace Sys2Proof

/-- Where a CDL message comes from (Table 13-8): the transport, the source address (0 on CAN FD), the UDP source
port or the CAN FD node number, and whether the frame was marked service (R370). -/
structure Peer where
  transport : Nat := 0
  addr : Nat := 0
  port : Nat := 0
  service : Bool := false
  deriving DecidableEq, Repr

/-- A CDL request that passed check 1 of R406: the header fields that vary (Table 13-6), its payload and its tag. -/
structure CdlMsg where
  peer : Peer
  session : Nat
  sequence : Nat
  status : Nat := 0
  payload : List Byte
  tag : List Byte
  deriving DecidableEq, Repr

/-- A value of a dictionary entry (Table 00-4): every integer type, BOOL, Q31, TIME, DB and INC40 by its integer;
COEF by mantissa and shift; POS by its three axes; STRING and BLOB by their octets. -/
inductive Value where
  | num (n : Int)
  | coef (m s : Int)
  | pos (x y z : Int)
  | bytes (b : List Byte)
  deriving DecidableEq, Repr

/-- A write of one entry that carries no message of its own in the table: the session and role it is made with
(R397, R401) and the value. -/
structure EntryWrite where
  session : Nat
  role : Nat
  value : Value
  deriving DecidableEq, Repr

/-- Outcome of the checks of the dawn sequence (R437, R438): which firmware banks verify, whether the SRAM
self-test passed, the lanes whose checksum failed, and the duration in ms. -/
structure DawnResult where
  bankA : Bool
  bankB : Bool
  sram : Bool
  badLanes : List (Fin 16)
  dawnMs : Nat
  deriving DecidableEq, Repr

/-- What the verification of a firmware image found (R480, R481): whether it passed every check of the device's own
making, and the versions the image carries. -/
structure ImageInfo where
  ok : Bool
  version : Nat
  security : Nat
  lane : Nat
  loop : Nat
  trim : Nat
  deriving DecidableEq, Repr

/-- What the converters sense at one loop tick (R214, R215): output voltage in 2^-20 V and output current in
2^-24 A per channel on the low-latency path, bus voltage in 2^-20 V per group; the same voltage and current on the linear-phase
path, whose delay is compensated (R250, R314); the number of executions the engine completes before the
tick ends (R212); the slots whose check code the scan at this tick finds wrong (R231). -/
structure LoopSense where
  vOut : List Int
  iOut : List Int
  vbus : List Int
  capacity : Nat
  badCheck : List (Fin 64)
  vLin : List Int
  iLin : List Int
  deriving DecidableEq, Repr

/-- What the sensors give at a block boundary: the mean bus current of the block per group in A (R296), and the strobe's
error against the MTB instant in ns (R53). -/
structure BlockSense where
  ibus : List Rat
  phaseErr : Int
  deriving DecidableEq, Repr

/-- What the pins bring between two sample strobes: the data bits that each master input port reads at `SDI` during
the frame that ends now, one per `BCLK` period from the active `FSYNC` edge on, its tail in the next frame included
(R335, R339). -/
structure StrobeSense where
  sdi : List (List Bool)
  deriving DecidableEq, Repr

/-- One subframe of a received AES3 frame (R355-R357): the 24 bits of time slots 4-27 (slot 27 the most significant),
the V and C bits, and whether its parity and its biphase coding are right. -/
structure AesSub where
  word : Nat
  v : Bool
  c : Bool
  parityOk : Bool
  codeOk : Bool
  deriving DecidableEq, Repr

/-- A received AES3 frame: whether it began with preamble Z, and its two subframes. -/
structure AesFrame where
  z : Bool
  a : AesSub
  b : AesSub
  deriving DecidableEq, Repr

/-- What the converters have read of one channel during an analysis beside the sense paths: the largest deviation of a released
terminal from VBUS/2 in mV (R325, R326). -/
structure ChanResult where
  leak : Nat := 0
  deriving DecidableEq, Repr

/-- The commands of the block: one constructor per row of the table; the mnemonic and rule stand with each. -/
inductive Instr where
  /-- POWER_ON_RESET (R437). A power-on reset, when VCORE rises from below 0.30 V, puts the device in BOOT with every output released. -/
  | powerOnReset
  /-- RESET_N_LOW (R442). A low level on RESET_N that lasts at least 10 µs stops the modulators and enters BOOT. -/
  | resetNLow (lowNs : Nat)
  /-- RESET_N_RISE (R437). The rise of RESET_N latches the straps and starts the dawn sequence in mask ROM. -/
  | resetNRise (unitId : Fin 64) (bootsel xref : Bool)
  /-- DAWN_DONE (R437). Completion of the dawn sequence (bank check, SRAM self-test, lane checksum, restore of P values) enters SAFE, or the device stays in BOOT under R438. -/
  | dawnDone (x : DawnResult)
  /-- START_MODE_APPLY (R439). At the first block boundary in SAFE, START_MODE is acted on as if it had been written to MODE_REQUEST. -/
  | startModeApply
  /-- RECOVERY_LOADER_IMAGE (R486). An XMODEM-1K image received over the service UART is written to bank A and verified, and on success the dawn sequence starts from bank A. -/
  | recoveryLoaderImage (x : ImageInfo)
  /-- REFERENCE_TICK (R46). Each 98.304 MHz reference tick adds INC to every time base counter. -/
  | referenceTick
  /-- SAMPLE_STROBE (R53). A sample strobe from the synthesizer drives the sample instants, master ports, AOUT, slips and the chain gate ramps. -/
  | sampleStrobe (x : StrobeSense)
  /-- LOOP_TICK (R207). A 96 kHz loop-engine tick executes the slots that are due and runs the flowstone learners. -/
  | loopTick (x : LoopSense)
  /-- CARRIER_PERIOD (R275). Each carrier period updates the bus estimate, computes the modulation index and places the edges of each bridge. -/
  | carrierPeriod (g : Fin 4) (vk : Int) (peaks : List (Int × Int))
  /-- BLOCK_BOUNDARY (R77). A block boundary runs, in order, the actions, the timed commits and the writes due there, and hands complete blocks to the dispatcher. -/
  | blockBoundary (x : BlockSense)
  /-- DEFERRED_WRITE_APPLY (R395). Writes waiting for a block boundary take effect there, the last accepted value of each entry winning. -/
  | deferredWriteApply
  /-- COMMIT_APPLY (R417). A pending commit is tested again at its boundary and applied atomically and persisted, or discarded. -/
  | commitApply
  /-- MODE_REQUEST (R431). A write of MODE_REQUEST requests SAFE, STANDBY, RUN or MEASURE for the next block boundary. -/
  | modeRequest (w : EntryWrite)
  /-- MODE_CHANGE_APPLY (R432). A requested mode transition takes place at its block boundary and starts the stops and starts it causes. -/
  | modeChangeApply
  /-- SETUP_COMPLETE (R433). The setup that leaves SAFE ends, and the device enters STANDBY or MEASURE. -/
  | setupComplete
  /-- RUN_ENTRY_ON_LOCK (R435). A waiting RUN request enters RUN at the first block boundary at which the lock condition holds. -/
  | runEntryOnLock
  /-- HOLDOVER_ENTRY (R445). Lock state HOLDOVER held for 3 s takes the device from RUN to HOLDOVER. -/
  | holdoverEntry
  /-- HOLDOVER_RETURN (R446). The source returns and the device goes back from HOLDOVER to RUN. -/
  | holdoverReturn
  /-- HOLDOVER_EXPIRED (R447). HOLDOVER_ELAPSED reaching HOLDOVER_MAX takes the device to STANDBY. -/
  | holdoverExpired
  /-- HELLO (R408). A HELLO request creates a pending session and returns nonce_d. -/
  | hello (m : CdlMsg)
  /-- AUTH (R408). An AUTH request opens a pending session or fails it. -/
  | auth (m : CdlMsg)
  /-- MALFORMED_MESSAGE (R406). A CDL message with a bad length, version, reserved byte or flag is discarded and counted. -/
  | malformedMessage (transport : Nat) (bytes : List Byte)
  /-- UNKNOWN_OPCODE (R406). A request with an unknown opcode, or with the EVENT opcode, is answered with status RANGE. -/
  | unknownOpcode (op : Nat) (m : CdlMsg)
  /-- READ (R398). A READ returns the value of one entry in force at acceptance. -/
  | read (m : CdlMsg)
  /-- READM (R398). A READM returns up to 64 entries with a status per item. -/
  | readm (m : CdlMsg)
  /-- WRITE (R397). A WRITE of one entry is tested in the order of R397 and takes effect as its Effect column gives. -/
  | write (m : CdlMsg)
  /-- WRITEM (R412). A WRITEM writes up to 64 entries, each tested independently. -/
  | writem (m : CdlMsg)
  /-- BLOCK_READ (R413). A BLOCK_READ returns one segment of a blob. -/
  | blockRead (m : CdlMsg)
  /-- BLOCK_WRITE (R414). A BLOCK_WRITE segment opens, extends or completes a blob transfer. -/
  | blockWrite (m : CdlMsg)
  /-- STAGE (R415). A STAGE adds items to the session's open transaction. -/
  | stage (m : CdlMsg)
  /-- COMMIT (R416). A COMMIT tests the transaction in full and makes it pending for its boundary. -/
  | commit (m : CdlMsg)
  /-- ABORT (R418). An ABORT discards the open transaction or cancels the pending commit. -/
  | abort (m : CdlMsg)
  /-- CLAIM (R421). A CLAIM gives the session exclusive writing of one area. -/
  | claim (m : CdlMsg)
  /-- RELEASE (R422). A RELEASE ends a claim, or ends the session for area 0x00. -/
  | release (m : CdlMsg)
  /-- SUBSCRIBE (R426). A SUBSCRIBE adds event code ranges to the session. -/
  | subscribe (m : CdlMsg)
  /-- UNSUBSCRIBE (R426). An UNSUBSCRIBE removes event code ranges from the session. -/
  | unsubscribe (m : CdlMsg)
  /-- POLL (R424). A POLL returns the state of a handle, or records from the event ring for handle 0. -/
  | poll (m : CdlMsg)
  /-- CANCEL (R424). A CANCEL ends a running long operation at its next safe point. -/
  | cancel (m : CdlMsg)
  /-- EVENT_SEND (R427). Ring records are sent in an EVENT message within 10 ms, led by EVT_LOST after an overwrite. -/
  | eventSend (n : Nat)
  /-- IMPEDANCE (R323). EXEC 0x0910 starts an impedance sweep on the masked channels. -/
  | impedance (m : CdlMsg)
  /-- IDENTIFY (R324). EXEC 0x0911 measures the impedance and fits the driver model. -/
  | identify (m : CdlMsg)
  /-- LOADCHECK (R325). EXEC 0x0912 starts a load classification, in MEASURE or in RUN. -/
  | loadcheck (m : CdlMsg)
  /-- RESPONSE (R327). EXEC 0x0913 measures an acoustic impulse response through a microphone slot. -/
  | response (m : CdlMsg)
  /-- LOOP_FRF (R328). EXEC 0x0914 measures the loop response and the margins of a closed slot. -/
  | loopFrf (m : CdlMsg)
  /-- ANALYSIS_END (R321). An analysis ends with OK, FAILED, FENCED, CANCELLED or TIMEOUT and raises EVT_DONE. -/
  | analysisEnd (h : Nat) (data : List ChanResult)
  /-- LOADCHECK_SWEEP_START (R329). Silence held for LC_SILENCE starts the RUN load-check sweep at a block boundary. -/
  | loadcheckSweepStart (h : Nat)
  /-- LOADCHECK_TIMEOUT (R329). No completed sweep within LC_WAIT ends the check with status TIMEOUT. -/
  | loadcheckTimeout (h : Nat)
  /-- PREPARE_REMOVAL (R454). EXEC 0x0110 requests SAFE with reason REMOVAL to prepare the card for removal. -/
  | prepareRemoval (m : CdlMsg)
  /-- REMOVAL_COMPLETE (R454). With every bridge released the gates drop, state is flushed and the operation completes. -/
  | removalComplete
  /-- RESTORE_DEFAULTS (R400). EXEC 0x0B30 is accepted in SAFE from an ENGINEER session. -/
  | restoreDefaults (m : CdlMsg)
  /-- RESTORE_DEFAULTS_APPLY (R400). At the next boundary every P entry except the role keys returns to its default and is stored. -/
  | restoreDefaultsApply
  /-- CALIBRATE (R467). EXEC 0x0B31 calibrates the sense paths of the masked channels. -/
  | calibrate (m : CdlMsg)
  /-- CALIBRATION_START (R465). A channel due for automatic calibration begins its calibration at a block boundary. -/
  | calibrationStart (c : Fin 16)
  /-- CALIBRATION_DONE (R466). The 20 ms measurement of the internal references ends, and the result is accepted, rejected or abandoned. -/
  | calibrationDone (c : Fin 16) (vOffset vGain iOffset iGain : Int)
  /-- UPDATE_LOAD (R481). EXEC 0x0B20 starts erasing the idle bank for a new image. -/
  | updateLoad (m : CdlMsg)
  /-- UPDATE_ERASE_DONE (R481). The erase of the idle bank ends and the image segments are accepted. -/
  | updateEraseDone
  /-- UPDATE_VERIFY_DONE (R481). Verification of the loaded bank ends with OK or FAILED. -/
  | updateVerifyDone (x : ImageInfo)
  /-- UPDATE_LOAD_TIMEOUT (R481). No image segment for 60 s ends UPDATE_LOAD with TIMEOUT. -/
  | updateLoadTimeout
  /-- UPDATE_ACTIVATE (R482). EXEC 0x0B21 arms the activation of a verified image at a boundary. -/
  | updateActivate (m : CdlMsg)
  /-- UPDATE_ACTIVATION_BOUNDARY (R482). At the activation boundary the operation completes and the device enters ACTIVATING. -/
  | updateActivationBoundary
  /-- UPDATE_MGMT_RESTART (R482). 20 ms after the boundary the management processor restarts from the new bank and probation begins. -/
  | updateMgmtRestart
  /-- TRIM_APPLY (R484). A pending power-die trim applies once the group is released or NOT_READY. -/
  | trimApply (g : Fin 4)
  /-- PROBATION_END (R485). 600 s of probation with no roll-back make the new bank the recorded bank. -/
  | probationEnd
  /-- UPDATE_ROLLBACK (R485). A watchdog restart or a failed rotation during probation rolls the update back. -/
  | updateRollback
  /-- UPDATE_ABORT (R485). A write of UPDATE_ABORT discards a verified or armed image, or rolls back during probation. -/
  | updateAbort (w : EntryWrite)
  /-- REGISTER_WRITE (R395). A write of an entry that has no behaviour of its own takes effect as its Effect column gives. -/
  | registerWrite (index sub : Nat) (ty : Nat) (w : EntryWrite)
  /-- SNAP_REQ (R60). A write of 1 latches all five time bases. -/
  | snapReq (w : EntryWrite)
  /-- TOD_SET (R66). A write of TOD_SET sets the time for the next anchoring, or re-anchors under FREE. -/
  | todSet (w : EntryWrite)
  /-- INC_WRITE (R51). A write of the MTB INC under FREE applies from the next reference tick to the MTB and the synthesizer. -/
  | incWrite (w : EntryWrite)
  /-- REF_DOMAIN_WRITE (R73). A write of REF_DOMAIN requests a hand-over to another DTB. -/
  | refDomainWrite (w : EntryWrite)
  /-- HANDOVER (R73). At the next boundary the hand-over offset is latched and slewed or re-anchored. -/
  | handover
  /-- DOMAIN_NUMBER_WRITE (R71). A write of DOMAIN_NUMBER changes the followed domain and clears a DTB fence. -/
  | domainNumberWrite (d : Fin 4) (w : EntryWrite)
  /-- ACT_STATE_WRITE (R74). A write of ACT_STATE arms, disarms or idles a scheduled action after the checks of R76. -/
  | actStateWrite (a : Fin 64) (w : EntryWrite)
  /-- ACTION_WRITE (R76). A due WRITE action writes its target entry with the role of the arming session. -/
  | actionWrite (a : Fin 64)
  /-- ACTION_COMMIT (R420). A due COMMIT action commits the named session's open transaction. -/
  | actionCommit (a : Fin 64)
  /-- ACTION_MODE (R74). A due MODE action requests a mode change. -/
  | actionMode (a : Fin 64)
  /-- ACTION_START (R79). A due START action starts a start group. -/
  | actionStart (a : Fin 64)
  /-- ACTION_GPIO (R499). A due GPIO action drives a GPIO output at a sample instant. -/
  | actionGpio (a : Fin 64)
  /-- SG_STATE_WRITE (R80). A write of SG_STATE arms or disarms a start group. -/
  | sgStateWrite (g : Fin 8) (w : EntryWrite)
  /-- SG_GO (R79). A write of SG_GO starts an armed start group at a time. -/
  | sgGo (g : Fin 8) (w : EntryWrite)
  /-- GPIO_INPUT_EDGE (R79). A selected GPIO input edge is captured against the MTB and fixes a start sample 4 sample periods later. -/
  | gpioInputEdge (pin : Fin 8) (rising : Bool)
  /-- START_SAMPLE (R78). At the start sample all armed members of the group begin together. -/
  | startSample (g : Fin 8)
  /-- PTP_EVENT_STROBE (R58). A PTP event frame strobe latches the MTB and all DTBs on one reference tick. -/
  | ptpEventStrobe (m : Fin 2) (rx : Bool)
  /-- SYNC_MEASUREMENT (R61). A Sync yields an offset measurement that is filtered, rejected as an outlier or confirmed as a step. -/
  | syncMeasurement (d : Fin 4) (m : Fin 2) (t1 : Nat) (logInterval : Int)
  /-- ANNOUNCE_RECEIVE (R517). A new grandmaster identity of a DTB updates GM_IDENTITY and raises GM_CHANGED. -/
  | announceReceive (d : Fin 4) (gm : Nat)
  /-- DELAY_REQ_SEND (R383). The device sends a Delay_Req or Pdelay message in the transport of the master's Sync. -/
  | delayReqSend (d : Fin 4)
  /-- SYNC_TIMEOUT (R62). 3 Sync intervals with no measurement mark the reference missing and enter lock state HOLDOVER. -/
  | syncTimeout (d : Fin 4)
  /-- REF_EDGE_MISSING (R56). WCLK_IN silent for 2 periods, or PPS_IN for 1.5 s, marks the reference missing. -/
  | refEdgeMissing
  /-- WCLK_IN_EDGE (R56). A WCLK_IN edge is latched against the MTB for the servo. -/
  | wclkInEdge (ppm : Int)
  /-- PPS_IN_EDGE (R56). A PPS_IN edge is latched against the MTB for the servo. -/
  | ppsInEdge
  /-- FREQUENCY_ESTIMATE_DONE (R61). After 8 Sync intervals in ACQUIRE the frequency estimate ends and the phase is removed. -/
  | frequencyEstimateDone (tb : Fin 5)
  /-- LOCK_WINDOW_ELAPSED (R62). |OFFSET| below 1 µs over a whole 8 s window moves ACQUIRE to LOCKED. -/
  | lockWindowElapsed (tb : Fin 5)
  /-- SLEW_COMPLETE (R63). SLEW_REMAINING reaches 0 and the phase term ends. -/
  | slewComplete
  /-- ANCHOR_BOUNDARY (R64). After the last channel mutes, EPOCH_OFFSET changes, jitter buffers empty and passed actions are handled. -/
  | anchorBoundary
  /-- ANCHOR_PERIOD_END (R64). The anchor period ends on the new grid, and streams are placed afresh. -/
  | anchorPeriodEnd
  /-- REANCHOR_FADE_IN (R64). Muted channels fade in from the boundary at the anchor time plus L. -/
  | reanchorFadeIn
  /-- FIRST_ANCHORING (R65). The first anchoring after dawn, or after an FS_SELECT change, sets EPOCH_OFFSET with the outputs released. -/
  | firstAnchoring
  /-- DTB_PORT_FAILOVER (R71). With PTP_PORT 2 a DTB moves between N0 and N1 as Sync is lost and returns. -/
  | dtbPortFailover (d : Fin 4) (n0Delivers : Bool)
  /-- DTB_FENCE (R72). An out-of-range INC need held for 16 s fences a DTB. -/
  | dtbFence (d : Fin 4)
  /-- STREAM_PACKET (R100). A received RTP packet for a subscription is checked, classified and placed by timestamp. -/
  | streamPacket (i : Fin 128) (udp : List Byte) (checksumOk : Bool)
  /-- STREAM_FENCE_RETRY (R111). FENCE_RETRY seconds after a fence, the subscription is cleared to WAITING. -/
  | streamFenceRetry (i : Fin 128)
  /-- STREAM_FENCE_CLEAR (R111). A controller clear returns a fenced subscription to WAITING. -/
  | streamFenceClear (i : Fin 128) (w : EntryWrite)
  /-- STREAM_COUNTER_CLEAR (R112). A write of CLEAR clears the stream counters of a subscription. -/
  | streamCounterClear (i : Fin 128) (w : EntryWrite)
  /-- STREAM_LOST (R108). LOSS_BLOCKS play blocks without a received sample move a subscription to LOST. -/
  | streamLost (i : Fin 128)
  /-- PATH_DOWN (R104). A path of a pair that delivers nothing for LOSS_BLOCKS becomes DOWN. -/
  | pathDown (i : Fin 128)
  /-- METADATA_APPLY (R118). A pending metadata record applies at its output sample and sets the new gain and delay targets. -/
  | metadataApply (o : Fin 512)
  /-- META_TIMEOUT (R121). No record for META_TIMEOUT mutes the object and enters TIMED_OUT. -/
  | metaTimeout (o : Fin 512)
  /-- OBJECT_FENCE_CLEAR (R148). A controller clear returns a fenced object to NO_META. -/
  | objectFenceClear (o : Fin 512) (w : EntryWrite)
  /-- TASK_FINISH (R192). A lane task finishes, and its slack is recorded. -/
  | taskFinish (l : Fin 16) (t : Fin 64)
  /-- RENDER_CUT (R193). At the render cut, unfinished render tasks are dropped and concealed. -/
  | renderCut
  /-- LANE_SELF_TEST (R200). A lane self-test completes, and a checksum mismatch fences the lane. -/
  | laneSelfTest (l : Fin 16) (pass : Bool) (speed : Nat)
  /-- LANE_STALL (R201). 4 block periods without a finished task fence the lane with cause 3. -/
  | laneStall (l : Fin 16)
  /-- LANE_MIGRATION_DONE (R202). The former lantern lane runs the fenced lane's tasks from play block j + 2. -/
  | laneMigrationDone
  /-- LANTERN_REPLACE (R203). The device re-places the tasks and names a new lantern lane, or runs without one. -/
  | lanternReplace
  /-- LANE_FENCE_CLEAR (R204). A clear runs 16 self-tests, and the lane becomes healthy when they pass. -/
  | laneFenceClear (l : Fin 16) (w : EntryWrite)
  /-- MICROCODE_ROTATION_STEP (R205). The lantern lane loads new microcode and takes over the next lane's tasks, or the rotation fails and rolls back. -/
  | microcodeRotationStep (ok : Bool)
  /-- THROTTLE_RISE (R197). A droop sensor reading below a threshold raises the throttle level within 1 µs. -/
  | throttleRise (sensor mv : Nat)
  /-- THROTTLE_FALL (R198). 10 ms above the threshold plus 10 mV lowers the throttle by one level. -/
  | throttleFall
  /-- ZERO_CROSSING (R362). A zero or a sign change of the watched signal applies a waiting change at that sample. -/
  | zeroCrossing (key : Nat)
  /-- ZC_WAIT_TIMEOUT (R362). No crossing within ZC_TIMEOUT applies the change as a 32-sample ramp. -/
  | zcWaitTimeout (key : Nat)
  /-- FALLBACK_ENGAGE (R178). A network lost for FALLBACK_DELAY, or entry into HOLDOVER, starts the switch to the fallback source. -/
  | fallbackEngage (c : Fin 16)
  /-- FALLBACK_RELEASE (R179). Network sources receiving for 2 s outside HOLDOVER start the return to the network. -/
  | fallbackRelease (c : Fin 16)
  /-- FALLBACK_CROSSFADE_END (R180). A fallback crossfade completes, and the opposite switch is judged afresh. -/
  | fallbackCrossfadeEnd (c : Fin 16)
  /-- CEILING_PINNED (R171). An applied gain pinned for 10 s raises CEILING_PINNED. -/
  | ceilingPinned (c : Fin 16)
  /-- FIR_CROSSFADE_END (R165). The FIR bank crossfade ends and FIR_SWITCHED is raised. -/
  | firCrossfadeEnd (c : Fin 16)
  /-- STATE_REQ_WRITE (R223). A write of STATE_REQ opens or closes a slot at its next execution after the boundary. -/
  | stateReqWrite (n : Fin 64) (w : EntryWrite)
  /-- MAN_WRITE (R224). A write of MAN sets the manual output target of an open slot. -/
  | manWrite (n : Fin 64) (w : EntryWrite)
  /-- FOLLOWING_ERROR_TRIP (R229). The supervisor count reaching FE_TIME trips the slot as FE_ACTION gives. -/
  | followingErrorTrip (n : Fin 64)
  /-- SLOT_FENCE_CLEAR (R233). A clear verifies the slot's check code and returns the slot to OPEN. -/
  | slotFenceClear (n : Fin 64) (w : EntryWrite)
  /-- FL_ENABLE_WRITE (R239). A write of FL_ENABLE starts a learner in LEARNING or SEARCH, or disables it. -/
  | flEnableWrite (g : Fin 4) (w : EntryWrite)
  /-- FL_CLEAR (R240). A write of FL_CLEAR fades the correction and restarts the learner. -/
  | flClear (g : Fin 4) (w : EntryWrite)
  /-- FL_TRACKER_LOCK (R238). The ripple tracker locks and a searching learner enters LEARNING. -/
  | flTrackerLock (g : Fin 4) (period : Nat)
  /-- FL_TRACKER_LOSS (R238). The ripple tracker loses lock and the learner enters SEARCH. -/
  | flTrackerLoss (g : Fin 4)
  /-- FL_HOLD_WINDOW_END (R239). A quiet window of one period or 20 ms returns a learner from HOLD to LEARNING. -/
  | flHoldWindowEnd (g : Fin 4)
  /-- FL_FADE_DONE (R240). After 1,920 ticks the correction reaches 0 and the buffer is cleared. -/
  | flFadeDone (g : Fin 4)
  /-- LEARNER_FENCE_CLEAR (R241). A clear lifts a learner fence as if FL_ENABLE 1 had taken effect. -/
  | learnerFenceClear (g : Fin 4) (w : EntryWrite)
  /-- PILOT_WINDOW_END (R250). Each one-second pilot window is demodulated and accepted, correcting the observer, or rejected.
  `k`: the window [k s, k + 1 s). -/
  | pilotWindowEnd (c : Fin 16) (k : Nat)
  /-- OBSERVER_STORE (R254). The observer state is written to the ferroelectric store every 10 s. -/
  | observerStore
  /-- OBSERVER_COOL_ON_LOCK (R254). At the first LOCKED after dawn, the stored observer is cooled by the elapsed time. -/
  | observerCoolOnLock
  /-- THERMAL_HARD (R263). A coil above the hard limit for 2 s releases and fences the channel. -/
  | thermalHard (c : Fin 16)
  /-- THERMAL_RESUMED (R264). A coil below the resume margin clears the thermal fence and the channel starts. -/
  | thermalResumed (c : Fin 16)
  /-- DRIFT_WINDOW_END (R268). Each 10 s window fits the resonance, reports FS_TRACKED and may raise SUSPENSION_CHANGE.
  The window [a s, b s). -/
  | driftWindowEnd (c : Fin 16) (a b : Nat)
  /-- CH_EN_WRITE (R283). A write of CH_EN starts or stops a channel. -/
  | chEnWrite (c : Fin 16) (w : EntryWrite)
  /-- START_SEQUENCE (R280). A channel begins the precharge, loop ramp and chain ramp from RELEASED at a block boundary. -/
  | startSequence (c : Fin 16) (ronA ronB : Int)
  /-- ORDERLY_STOP (R281). An orderly stop waits for a zero crossing, ramps down the gates and releases the bridge. -/
  | orderlyStop (c : Fin 16)
  /-- FAST_STOP (R282). A fast stop ramps down without a zero-crossing wait and releases within 48 samples plus one carrier period. -/
  | fastStop (c : Fin 16)
  /-- SHORT_DECLARED (R287). 32 consecutive, or more than 64 per ms, limited periods release the bridge and fence it with cause SHORT. -/
  | shortDeclared (c : Fin 16)
  /-- SHORT_PROBE (R288). The probe timer starts a 22 ms load probe of a short-fenced channel. -/
  | shortProbe (c : Fin 16)
  /-- PROBE_DONE (R288). A probe ends, and it passes and restarts the channel or fails and is counted. `n`: the
  probes that have failed before it. -/
  | probeDone (c : Fin 16) (n : Nat)
  /-- DC_FAULT (R290). |DC_MEAN| above 2.0 V for 50 ms releases and fences the channel with cause DC. -/
  | dcFault (c : Fin 16)
  /-- CHANNEL_FENCE_CLEAR (R298). A controller clear removes the clearable fence causes of a channel. -/
  | channelFenceClear (c : Fin 16) (w : EntryWrite)
  /-- BUS_OVERVOLTAGE (R291). VBUS above 66 V releases all four bridges of the group. -/
  | busOvervoltage (g : Fin 4) (mv : Nat)
  /-- BUS_OV_REARM (R291). VBUS below 62 V re-arms the comparator and the group returns to NORMAL. -/
  | busOvRearm (g : Fin 4) (mv : Nat)
  /-- BUS_UNDERVOLTAGE_MUTE (R292). A block mean below 22.0 V mutes the group. -/
  | busUndervoltageMute (g : Fin 4)
  /-- BUS_UV_RESTORE (R292). 100 ms at or above 23.0 V return the group to NORMAL. -/
  | busUvRestore (g : Fin 4)
  /-- STARVATION (R293). 4 µs without edge commands release the bridges of a power die. -/
  | starvation (g : Fin 4)
  /-- STARVATION_RECOVERY (R293). 1 ms of continuous edge commands returns the group to NORMAL. -/
  | starvationRecovery (g : Fin 4)
  /-- VAUX_UVLO (R294). VAUX below 9.8 V releases the power die's bridges. -/
  | vauxUvlo (g : Fin 4) (mv : Nat)
  /-- VAUX_RECOVER (R294). VAUX above 10.5 V re-enables the gate drivers, and the group returns to NORMAL 10 ms later. -/
  | vauxRecover (g : Fin 4) (mv : Nat)
  /-- VCORE_STALL_RESUME (R441). VCORE returning from a stall resumes the logic from the retained state. -/
  | vcoreStallResume (mv : Nat)
  /-- MUTE_N_LOW (R444). A filtered low on MUTE_N brings every playing channel's chain gate to 0. -/
  | muteNLow
  /-- MUTE_N_HIGH (R444). A filtered high on MUTE_N restores each muted channel through a zero-crossing wait and chain ramp. -/
  | muteNHigh
  /-- ENGAGE_N_HIGH (R452). A filtered high on ENGAGE_N fast-stops every channel and withdraws the groups. -/
  | engageNHigh
  /-- WITHDRAWAL_GATES_OFF (R452). Once every bridge is released, every HS_GATE is pulled low and the groups become NOT_READY. -/
  | withdrawalGatesOff
  /-- HOTSWAP_RAMP_START (R449). ENGAGE_N low for 100 ms in SAFE or later starts each group's staggered bus ramp. -/
  | hotswapRampStart (g : Fin 4)
  /-- HOTSWAP_POWER_GOOD (R450). A fully enhanced gate with VBUS in range reports power-good and ends NOT_READY. -/
  | hotswapPowerGood (g : Fin 4) (mv : Nat)
  /-- HOTSWAP_FAULT (R451). A current limit held for 20 ms turns the gate off, and the third fault latches it. -/
  | hotswapFault (g : Fin 4)
  /-- HOTSWAP_RETRY (R451). 2 s after a fault the ramp is retried. -/
  | hotswapRetry (g : Fin 4)
  /-- HS_CLEAR (R477). A clear resets a group's hot-swap fault count and allows a ramp. -/
  | hsClear (w : EntryWrite)
  /-- MEAS_CHANNELS_WRITE (R305). Setting or clearing a bit of MEAS_CHANNELS starts or stops that channel in MEASURE. -/
  | measChannelsWrite (w : EntryWrite)
  /-- G_STATE_WRITE (R310). A write of G_STATE starts, arms or stops a generator. -/
  | gStateWrite (g : Fin 4) (w : EntryWrite)
  /-- G_LEVEL_WRITE (R311). A level write ramps a running generator over G_FADE samples. -/
  | gLevelWrite (g : Fin 4) (w : EntryWrite)
  /-- GENERATOR_START (R310). A generator begins injecting at its block boundary or start sample. -/
  | generatorStart (g : Fin 4)
  /-- GENERATOR_END (R310). A generator reaches the end of G_DURATION and falls to IDLE. -/
  | generatorEnd (g : Fin 4)
  /-- C_STATE_WRITE (R317). A write of C_STATE arms a capture and allocates its memory, or frees it. -/
  | cStateWrite (k : Fin 8) (w : EntryWrite)
  /-- CAPTURE_TRIGGER (R318). The trigger condition of an armed capture is met at a sample. -/
  | captureTrigger (k : Fin 8)
  /-- CAPTURE_DONE (R318). A capture has recorded C_LENGTH samples and becomes DONE. -/
  | captureDone (k : Fin 8)
  /-- RES_FREE (R320). A write of RES_FREE returns a result object to FREE. -/
  | resFree (r : Fin 64) (w : EntryWrite)
  /-- TDM_FRAME (R340). A slave port frame is timestamped, counted and written into its FIFO. `bits` are its bits from its active edge on, with
  those of the next frame's first SLOT_OFFSET periods, which carry its tail (R335, log 199). -/
  | tdmFrame (p : Fin 4) (count bclkHz : Nat) (bits : List Bool)
  /-- PORT_NO_CLOCK (R341). 2 frame periods without an FSYNC edge send a slave port to NO_CLOCK. -/
  | portNoClock (p : Fin 4)
  /-- PORT_ACQUIRED (R341). 100 ms of good frames and a FIFO fill of 4 take a unit from ACQUIRE to RUNNING. -/
  | portAcquired (u : Fin 6)
  /-- RATE_MISMATCH_RECOVER (R343). A rate within ±450 ppm for 1 s returns a unit to ACQUIRE. -/
  | rateMismatchRecover (u : Fin 6)
  /-- FORMAT_ERROR_RECOVER (R340). 100 ms without a format fault returns a port to ACQUIRE. -/
  | formatErrorRecover (p : Fin 4)
  /-- PAUSE_AT_WRITE (R351). A write of PAUSE_AT sets a port's pending pause. -/
  | pauseAtWrite (p : Fin 4) (w : EntryWrite)
  /-- RESUME_AT_WRITE (R351). A write of RESUME_AT sets a port's pending resume. -/
  | resumeAtWrite (p : Fin 4) (w : EntryWrite)
  /-- PAUSE_EFFECTIVE (R352). At its frame a pause mutes every enabled slot through zero-crossing waits. -/
  | pauseEffective (p : Fin 4)
  /-- RESUME_EFFECTIVE (R352). At its frame a resume unmutes every enabled slot. -/
  | resumeEffective (p : Fin 4)
  /-- PORT_FENCE_CLEAR (R361). A clear returns a fenced unit to ACQUIRE, or to RUNNING for a master, at the next boundary. -/
  | portFenceClear (u : Fin 6) (w : EntryWrite)
  /-- AES3_FRAME (R357). A received AES3 frame's subframes are decoded, checked for validity and written to the FIFO. -/
  | aes3Frame (a : Fin 2) (f : AesFrame)
  /-- AES3_CS_BLOCK_END (R356). At the end of a channel-status block the bytes are CRCC-checked and copied. -/
  | aes3CsBlockEnd (a : Fin 2)
  /-- AES3_NO_SIGNAL (R354). 2 frame periods without a valid preamble send a receiver to NO_SIGNAL. -/
  | aes3NoSignal (a : Fin 2)
  /-- LINK_CHANGE (R366). A MAC link goes up, down or is refused. -/
  | linkChange (m : Fin 2) (speed : Nat) (full : Bool)
  /-- FRAME_RECEIVE (R369). A received Ethernet frame is checked, VLAN-handled, filtered and routed to the stream engine or the ring. -/
  | frameReceive (m : Fin 2) (bytes : List Byte) (fcsOk : Bool)
  /-- TX_FIFO_ENTER (R372). A waiting frame enters the transmit FIFO by priority when it fits, and is sent. -/
  | txFifoEnter (m : Fin 2)
  /-- MONITOR_DROP (R375). A monitor packet not in the FIFO one block period after queueing is discarded. -/
  | monitorDrop (k : Fin 8)
  /-- IGMP_QUERY (R380). An IGMP query is answered for the groups in use. -/
  | igmpQuery (m : Fin 2) (version group : Nat)
  /-- IGMP_REPORT_REPEAT (R380). An unsolicited report is sent again 1 s after a join or leave. -/
  | igmpReportRepeat (m : Fin 2)
  /-- ARP_PACKET (R381). An ARP request or reply is answered and cached. -/
  | arpPacket (m : Fin 2) (op sip smac tip : Nat)
  /-- ARP_CACHE_EXPIRY (R381). An ARP cache entry expires after 300 s. -/
  | arpCacheExpiry (m : Fin 2)
  /-- ICMP_ECHO (R381). An echo request is answered, at most 10 per second per MAC. -/
  | icmpEcho (m : Fin 2) (src : Nat) (body : List Byte)
  /-- DHCP_MESSAGE (R382). A DHCP reply gives or renews a lease that replaces the address at the next boundary. -/
  | dhcpMessage (m : Fin 2) (type addr prefixLen leaseS : Nat)
  /-- DHCP_FALLBACK_TIMEOUT (R382). No lease DHCP_FALLBACK seconds after link-up takes a link-local address. -/
  | dhcpFallbackTimeout (m : Fin 2)
  /-- DHCP_RETRY (R382). Every 60 s on link-local, the device asks again for a lease. -/
  | dhcpRetry (m : Fin 2)
  /-- ADDRESS_CONFLICT (R382). A detected address conflict is defended once, or a new link-local address is taken. -/
  | addressConflict (m : Fin 2) (addr : Nat)
  /-- CAN_FRAME_RECEIVE (R388). A CAN FD request segment is reassembled into a CDL request or discarded. -/
  | canFrameReceive (id : Nat) (fd ext : Bool) (data : List Byte)
  /-- CAN_REASM_TIMEOUT (R388). 100 ms without a segment discards the request being assembled. -/
  | canReasmTimeout
  /-- CAN_FRAME_SEND (R387). A segment of a response or event message is sent on CAN FD. -/
  | canFrameSend
  /-- CAN_STATE_CHANGE (R389). The controller's bus state changes, including recovery from bus-off after 128 × 11 recessive bits. -/
  | canStateChange (new tec rec : Nat)
  /-- SESSION_TIMEOUT (R410). A session idle for SESSION_TIMEOUT ends. -/
  | sessionTimeout (n : Nat)
  /-- PENDING_SESSION_EXPIRY (R408). A pending session without a valid AUTH within 5 s is freed. -/
  | pendingSessionExpiry (n : Nat)
  /-- LOCKOUT_EXPIRY (R409). A peer lockout ends after 60 s. -/
  | lockoutExpiry
  /-- LOCKOUT_CLEAR (R477). A class 9 clear lifts every peer lockout. -/
  | lockoutClear (session role : Nat)
  /-- BLOCK_TRANSFER_TIMEOUT (R414). A transfer with no segment for 10 s is discarded. -/
  | blockTransferTimeout (n : Nat)
  /-- HANDLE_RECORD_EXPIRY (R423). A handle record is discarded 60 s after completion. -/
  | handleRecordExpiry (h : Nat)
  /-- KEY_WRITE (R402). A masked 32-byte BLOCK_WRITE sets a role key. -/
  | keyWrite (m : CdlMsg)
  /-- KEY_CLEAR (R402). A write of KEY_CLEAR removes a role's key. -/
  | keyClear (w : EntryWrite)
  /-- RELEASE_AREA_WRITE (R422). A write of RELEASE_AREA ends another session's claim of an area. -/
  | releaseAreaWrite (w : EntryWrite)
  /-- DTB_FENCE_CLEAR (R72). A controller clear lifts a DTB fence. -/
  | dtbFenceClear (d : Fin 4) (session role : Nat)
  /-- WATCHDOG_EXPIRY (R458). The management watchdog expires and restarts the management processor alone. -/
  | watchdogExpiry
  /-- MGMT_RETURN (R459). On return from an absence, latched happenings are raised and state is rebuilt from the hardware. -/
  | mgmtReturn
  /-- ABSENCE_GUARD (R460). A 10 s absence fast-stops every channel and pulls RESET_N low. -/
  | absenceGuard
  /-- STATE_DIVERGE (R461). A divergence held for 100 ms is rewritten and reported with outcome 0. -/
  | stateDiverge (k : Nat)
  /-- STATE_DIVERGE_RECHECK (R461). A divergence still standing 100 ms after the rewrite is reported with outcome 1. -/
  | stateDivergeRecheck (k : Nat) (still : Bool)
  /-- SENSOR_READ (R464). Every 1 ms the die sensors are read and faults are raised or cleared. -/
  | sensorRead (t : List Int) (mv : List Nat)
  /-- FAN_WINDOW (R469). Each 1 s tach window measures fan speed and detects a stall or recovery. -/
  | fanWindow (pulses : List Nat)
  /-- LOG_WRITE (R471). A raised event is written as a log record and sent on the UART. -/
  | logWrite
  /-- LIFETIME_STORE (R473). The lifetime counters are stored every 60 s. -/
  | lifetimeStore
  /-- ENGAGE_N_LOW (R452). A filtered low on ENGAGE_N updates PIN_STATE, starts the 100 ms count toward the group ramps and ends a removal hold after a high. -/
  | engageNLow
  /-- XREF_ARRIVAL (R437). XREF appearing while the dawn sequence waits for it lets the sequence continue, with the 300 ms bound counted from its arrival. -/
  | xrefArrival
  /-- DELAY_RESP_RECEIVE (R71). A Delay_Resp (or the peer-delay answer) completes a delay exchange and updates the DTB's mean path delay PATH_DELAY used by the servo. -/
  | delayRespReceive (d : Fin 4) (ns : Nat)
  /-- SLACK_WINDOW_END (R192). At the end of each SLACK_WINDOW the minimum slacks and TEST_INTERVAL are published and a new window begins. -/
  | slackWindowEnd
  /-- POWER_GOOD_LOST (R450). A group whose gate or VBUSg leaves the power-good conditions stops reporting power-good and returns to NOT_READY, holding its learner. -/
  | powerGoodLost (g : Fin 4)
  deriving DecidableEq, Repr

end Sys2Proof
end

