-- ==== Sys2Proof/WellFormed.lean ====
section
/-!
DEFINITION. WellFormed.lean: which commands the outside world can bring: operands within the widths of the wire and
the numbers of units and sensors that the manual gives. A meaning is total: it does not rely on this check.
-/

namespace Sys2Proof

/-- Whether a value of an entry fits its encoding (Table 13-2). -/
def Value.wf : Value → Bool
  | .num n => decide (-2 ^ 63 ≤ n ∧ n < 2 ^ 64)
  | .coef m s => decide (-2 ^ 31 ≤ m ∧ m < 2 ^ 31 ∧ 0 ≤ s ∧ s < 256)
  | .pos x y z => [x, y, z].all fun a => decide (-2 ^ 31 ≤ a ∧ a < 2 ^ 31)
  | .bytes b => decide (b.length < 2 ^ 32)

/-- Whether a message comes from a peer that exists (Table 13-8). -/
def Peer.wf (p : Peer) : Bool := decide (p.transport ≤ 2 ∧ p.addr < 2 ^ 32 ∧ p.port < 2 ^ 16)

/-- Whether a message fits its header and its medium (R404, Table 13-6). -/
def CdlMsg.wf (m : CdlMsg) : Bool :=
  m.peer.wf && decide (m.session < 2 ^ 16 ∧ m.sequence < 2 ^ 32 ∧ m.status < 256 ∧ m.tag.length = 16
    ∧ m.payload.length ≤ if m.peer.transport = 2 then 2016 else 1440)

/-- Whether a write carries a session number, a role (Table 13-5) and a value that exist. -/
def EntryWrite.wf (w : EntryWrite) : Bool := decide (w.session < 2 ^ 16 ∧ w.role ≤ 3) && w.value.wf

/-- Whether an image's versions fit their entries (R480). -/
def ImageInfo.wf (x : ImageInfo) : Bool :=
  decide (x.version < 2 ^ 32 ∧ x.security < 2 ^ 32 ∧ x.lane < 2 ^ 32 ∧ x.loop < 2 ^ 32 ∧ x.trim < 2 ^ 32)

/-- Whether a loop tick brings 16 channels and four groups (R13). -/
def LoopSense.wf (x : LoopSense) : Bool := x.vOut.length == 16 && x.iOut.length == 16 && x.vbus.length == 4
  && x.vLin.length == 16 && x.iLin.length == 16

/-- Whether a block boundary brings four groups (R13). -/
def BlockSense.wf (x : BlockSense) : Bool := x.ibus.length == 4

/-- Whether a frame's words have 24 bits (R355). -/
def AesFrame.wf (f : AesFrame) : Bool := decide (f.a.word < 2 ^ 24 ∧ f.b.word < 2 ^ 24)

/-- Whether a result fits 16 bits (Table 15-4). -/
def inS16 (n : Int) : Bool := decide (-32768 ≤ n ∧ n ≤ 32767)

/-- Whether a command can come from outside. -/
def Instr.wf : Instr → Bool
  | .powerOnReset => true
  | .resetNLow _ => true
  | .resetNRise _ _ _ => true
  | .dawnDone _ => true
  | .startModeApply => true
  | .recoveryLoaderImage x => x.wf
  | .referenceTick => true
  | .sampleStrobe x => x.sdi.length == 4
  | .loopTick x => x.wf
  | .carrierPeriod _ _ peaks => peaks.length == 4
  | .blockBoundary x => x.wf
  | .deferredWriteApply => true
  | .commitApply => true
  | .modeRequest w => w.wf
  | .modeChangeApply => true
  | .setupComplete => true
  | .runEntryOnLock => true
  | .holdoverEntry => true
  | .holdoverReturn => true
  | .holdoverExpired => true
  | .hello m => m.wf
  | .auth m => m.wf
  | .malformedMessage transport bytes => decide (transport ≤ 2 ∧ bytes.length ≤ 2048)
  | .unknownOpcode op m => decide (op < 256) && m.wf
  | .read m => m.wf
  | .readm m => m.wf
  | .write m => m.wf
  | .writem m => m.wf
  | .blockRead m => m.wf
  | .blockWrite m => m.wf
  | .stage m => m.wf
  | .commit m => m.wf
  | .abort m => m.wf
  | .claim m => m.wf
  | .release m => m.wf
  | .subscribe m => m.wf
  | .unsubscribe m => m.wf
  | .poll m => m.wf
  | .cancel m => m.wf
  | .eventSend n => decide (n < 2 ^ 16)
  | .impedance m => m.wf
  | .identify m => m.wf
  | .loadcheck m => m.wf
  | .response m => m.wf
  | .loopFrf m => m.wf
  | .analysisEnd _ data => data.length ≤ 16 && data.all fun m => decide (m.leak ≤ 32767)
  | .loadcheckSweepStart _ => true
  | .loadcheckTimeout _ => true
  | .prepareRemoval m => m.wf
  | .removalComplete => true
  | .restoreDefaults m => m.wf
  | .restoreDefaultsApply => true
  | .calibrate m => m.wf
  | .calibrationStart _ => true
  | .calibrationDone _ vo vg io ig => inS16 vo && inS16 vg && inS16 io && inS16 ig
  | .updateLoad m => m.wf
  | .updateEraseDone => true
  | .updateVerifyDone x => x.wf
  | .updateLoadTimeout => true
  | .updateActivate m => m.wf
  | .updateActivationBoundary => true
  | .updateMgmtRestart => true
  | .trimApply _ => true
  | .probationEnd => true
  | .updateRollback => true
  | .updateAbort w => w.wf
  | .registerWrite index sub ty w => decide (index < 0x10000 ∧ sub < 256 ∧ ty < 256) && w.wf
  | .snapReq w => w.wf
  | .todSet w => w.wf
  | .incWrite w => w.wf
  | .refDomainWrite w => w.wf
  | .handover => true
  | .domainNumberWrite _ w => w.wf
  | .actStateWrite _ w => w.wf
  | .actionWrite _ => true
  | .actionCommit _ => true
  | .actionMode _ => true
  | .actionStart _ => true
  | .actionGpio _ => true
  | .sgStateWrite _ w => w.wf
  | .sgGo _ w => w.wf
  | .gpioInputEdge _ _ => true
  | .startSample _ => true
  | .ptpEventStrobe _ _ => true
  | .syncMeasurement _ _ t1 li => decide (t1 < 2 ^ 64 ∧ -128 ≤ li ∧ li ≤ 127)
  | .announceReceive _ gm => decide (gm < 2 ^ 64)
  | .delayReqSend _ => true
  | .syncTimeout _ => true
  | .refEdgeMissing => true
  | .wclkInEdge _ => true
  | .ppsInEdge => true
  | .frequencyEstimateDone _ => true
  | .lockWindowElapsed _ => true
  | .slewComplete => true
  | .anchorBoundary => true
  | .anchorPeriodEnd => true
  | .reanchorFadeIn => true
  | .firstAnchoring => true
  | .dtbPortFailover _ _ => true
  | .dtbFence _ => true
  | .streamPacket _ udp _ => decide (udp.length ≤ 1480)
  | .streamFenceRetry _ => true
  | .streamFenceClear _ w => w.wf
  | .streamCounterClear _ w => w.wf
  | .streamLost _ => true
  | .pathDown _ => true
  | .metadataApply _ => true
  | .metaTimeout _ => true
  | .objectFenceClear _ w => w.wf
  | .taskFinish _ _ => true
  | .renderCut => true
  | .laneSelfTest _ _ speed => decide (speed < 2 ^ 32)
  | .laneStall _ => true
  | .laneMigrationDone => true
  | .lanternReplace => true
  | .laneFenceClear _ w => w.wf
  | .microcodeRotationStep _ => true
  | .throttleRise sensor _ => decide (sensor < 16)
  | .throttleFall => true
  | .zeroCrossing _ => true
  | .zcWaitTimeout _ => true
  | .fallbackEngage _ => true
  | .fallbackRelease _ => true
  | .fallbackCrossfadeEnd _ => true
  | .ceilingPinned _ => true
  | .firCrossfadeEnd _ => true
  | .stateReqWrite _ w => w.wf
  | .manWrite _ w => w.wf
  | .followingErrorTrip _ => true
  | .slotFenceClear _ w => w.wf
  | .flEnableWrite _ w => w.wf
  | .flClear _ w => w.wf
  | .flTrackerLock _ _ => true
  | .flTrackerLoss _ => true
  | .flHoldWindowEnd _ => true
  | .flFadeDone _ => true
  | .learnerFenceClear _ w => w.wf
  | .pilotWindowEnd _ _ => true
  | .observerStore => true
  | .observerCoolOnLock => true
  | .thermalHard _ => true
  | .thermalResumed _ => true
  | .driftWindowEnd _ _ _ => true
  | .chEnWrite _ w => w.wf
  | .startSequence _ a b => decide (0 ≤ a ∧ 0 ≤ b)
  | .orderlyStop _ => true
  | .fastStop _ => true
  | .shortDeclared _ => true
  | .shortProbe _ => true
  | .probeDone _ _ => true
  | .dcFault _ => true
  | .channelFenceClear _ w => w.wf
  | .busOvervoltage _ _ => true
  | .busOvRearm _ _ => true
  | .busUndervoltageMute _ => true
  | .busUvRestore _ => true
  | .starvation _ => true
  | .starvationRecovery _ => true
  | .vauxUvlo _ _ => true
  | .vauxRecover _ _ => true
  | .vcoreStallResume _ => true
  | .muteNLow => true
  | .muteNHigh => true
  | .engageNHigh => true
  | .withdrawalGatesOff => true
  | .hotswapRampStart _ => true
  | .hotswapPowerGood _ _ => true
  | .hotswapFault _ => true
  | .hotswapRetry _ => true
  | .hsClear w => w.wf
  | .measChannelsWrite w => w.wf
  | .gStateWrite _ w => w.wf
  | .gLevelWrite _ w => w.wf
  | .generatorStart _ => true
  | .generatorEnd _ => true
  | .cStateWrite _ w => w.wf
  | .captureTrigger _ => true
  | .captureDone _ => true
  | .resFree _ w => w.wf
  | .tdmFrame _ count _ bits => decide (bits.length ≤ count + 32)
  | .portNoClock _ => true
  | .portAcquired _ => true
  | .rateMismatchRecover _ => true
  | .formatErrorRecover _ => true
  | .pauseAtWrite _ w => w.wf
  | .resumeAtWrite _ w => w.wf
  | .pauseEffective _ => true
  | .resumeEffective _ => true
  | .portFenceClear _ w => w.wf
  | .aes3Frame _ f => f.wf
  | .aes3CsBlockEnd _ => true
  | .aes3NoSignal _ => true
  | .linkChange _ speed _ => decide (speed ≤ 1000)
  | .frameReceive _ _ _ => true
  | .txFifoEnter _ => true
  | .monitorDrop _ => true
  | .igmpQuery _ version group => decide (version ≤ 3 ∧ group < 2 ^ 32)
  | .igmpReportRepeat _ => true
  | .arpPacket _ op sip smac tip => decide (op < 2 ^ 16 ∧ sip < 2 ^ 32 ∧ smac < 2 ^ 48 ∧ tip < 2 ^ 32)
  | .arpCacheExpiry _ => true
  | .icmpEcho _ src body => decide (src < 2 ^ 32 ∧ body.length ≤ 1480)
  | .dhcpMessage _ type addr plen lease => decide (type < 256 ∧ addr < 2 ^ 32 ∧ plen ≤ 32 ∧ lease < 2 ^ 32)
  | .dhcpFallbackTimeout _ => true
  | .dhcpRetry _ => true
  | .addressConflict _ addr => decide (addr < 2 ^ 32)
  | .canFrameReceive id _ ext data => decide (id < (if ext then 2 ^ 29 else 2 ^ 11) ∧ data.length ≤ 64)
  | .canReasmTimeout => true
  | .canFrameSend => true
  | .canStateChange new _ _ => decide (new ≤ 3)
  | .sessionTimeout n => decide (n < 2 ^ 16)
  | .pendingSessionExpiry n => decide (n < 2 ^ 16)
  | .lockoutExpiry => true
  | .lockoutClear session role => decide (session < 2 ^ 16 ∧ role ≤ 3)
  | .blockTransferTimeout n => decide (n < 2 ^ 16)
  | .handleRecordExpiry _ => true
  | .keyWrite m => m.wf
  | .keyClear w => w.wf
  | .releaseAreaWrite w => w.wf
  | .dtbFenceClear _ session role => decide (session < 2 ^ 16 ∧ role ≤ 3)
  | .watchdogExpiry => true
  | .mgmtReturn => true
  | .absenceGuard => true
  | .stateDiverge _ => true
  | .stateDivergeRecheck _ _ => true
  | .sensorRead t mv => t.length == 12 && mv.length == 5
  | .fanWindow pulses => pulses.length == 4
  | .logWrite => true
  | .lifetimeStore => true
  | .engageNLow => true
  | .xrefArrival => true
  | .delayRespReceive _ _ => true
  | .slackWindowEnd => true
  | .powerGoodLost _ => true

end Sys2Proof
end

