-- ==== Sys2Proof/Machine/State.lean ====
section
/-!
DEFINITION. Machine/State.lean: everything the block holds, as plain data. `State.dict` is the one home of every
dictionary entry (a sparse table of entry values, Table 13-1); `State.store` is the ferroelectric store (R399);
`Units` holds what the manual gives the machine beside its entries; `State.pending` is the queue of commands.
The defaults of the fields are their values at reset.
-/

namespace Sys2Proof.Machine

/-- A sparse table by number in one canonical form: keys strictly rising, no pair equal to the default of its key. -/
abbrev Tbl (α : Type) := List (Nat × α)

/-- The six modes of Table 00-3 (R2). -/
inductive Mode where
  | boot | safe | standby | run | measure | holdover
  deriving DecidableEq, Repr

/-- A linear ramp between two values (R125, R279, R362): `pos` of `len` steps are done. -/
structure Ramp where
  /-- Value in force before the ramp (R125). -/
  g0 : Int := 0
  /-- Target value (R125). -/
  g1 : Int := 0
  /-- Steps of the ramp; 0 = at rest on the target (R125). -/
  len : Nat := 0
  /-- Steps already taken (R125). -/
  pos : Nat := 0
  deriving DecidableEq, Repr

/-- A gate of the modulator input (R279): it runs linearly from `v0` to `v1` over `len` steps, `pos` of them done. -/
structure Gate where
  /-- Value before the ramp (R279). -/
  v0 : Rat := 0
  /-- Target value (R279). -/
  v1 : Rat := 0
  /-- Steps of the ramp; 0 = at rest on the target (R279). -/
  len : Nat := 0
  /-- Steps already taken (R279). -/
  pos : Nat := 0
  deriving DecidableEq, Repr

/-- One object metadata record (Table 03-4). -/
structure MetaRec where
  /-- X, S16 cm (R90). -/
  x : Int := 0
  /-- Y, S16 cm (R90). -/
  y : Int := 0
  /-- Z, S16 cm (R90). -/
  z : Int := 0
  /-- GAIN, S16 0.01 dB (R90). -/
  gain : Int := 0
  /-- SPREAD, U8 degrees (R90). -/
  spread : Nat := 0
  /-- FLAGS, U8 (R90). -/
  flags : Nat := 0
  /-- RAMP, U16 samples (R90). -/
  ramp : Nat := 0
  /-- AIR, U8 preset (R90). -/
  air : Nat := 0
  /-- Output sample p_a (R118). -/
  due : Nat := 0
  deriving DecidableEq, Repr

/-- An event as raised (Table 13-14, R425): its code, time, argument bytes, the session that caused it and the session it is private to. -/
structure EventRec where
  /-- Event code, U16 (R425). -/
  code : Nat := 0
  /-- EVT_TIME, presented media time in ns, U64 (R425). -/
  time : Nat := 0
  /-- EVT_ARGS, at most 24 bytes (R425). -/
  args : List Byte := []
  /-- Session that caused the event; 0 = the device (R471). -/
  source : Nat := 0
  /-- Whether time was anchored when it was raised (R471). -/
  anchored : Bool := false
  deriving DecidableEq, Repr

/-- A time base: DTB0-DTB3 are 0-3, the MTB is 4 (R46, R81). -/
structure TimeBase where
  /-- 96-bit counter, NS over FRAC (R46). -/
  count : BitVec 96 := 0
  /-- Frequency term of the servo, INC LSB (R61). -/
  freqTerm : Int := 0
  /-- Prediction for the next measurement, ns (R61). -/
  pred : Int := 0
  /-- Deviations of the present run of outliers, newest first (R61). -/
  outliers : List Int := []
  /-- Sync intervals left of the frequency estimate (R61). -/
  estLeft : Nat := 8
  /-- MTB ns at which the present 8 s lock window began (R62). -/
  windowStart : Option Nat := none
  /-- LogMessageInterval of the last Sync; none = none heard yet (R62). -/
  syncLog : Option Int := none
  /-- MTB ns of the last Sync measurement (R62). -/
  lastSync : Option Nat := none
  /-- MTB ns since which an out-of-range INC is needed (R72). -/
  outSince : Option Nat := none
  /-- The DTB is fenced (R72). -/
  fenced : Bool := false
  /-- PTP_PORT 2: the DTB uses N1 (R71). -/
  onN1 : Bool := false
  /-- The frequency estimate of ACQUIRE runs (R61). -/
  estimating : Bool := false
  /-- The next measurement is handled as a step (change of port) (R71). -/
  stepNext : Bool := false
  /-- MTB ns since which the DTB waits for its master: its enabling, or the clear of its fence (R62). -/
  since : Nat := 0
  /-- The last Sync: its time at the master, and the DTB's time at its SFD (R59). -/
  sync : Option (Int × Int) := none
  /-- The DTB's time at the SFD of its Delay_Req or Pdelay_Req that waits for the answer (R59). -/
  request : Option Int := none
  /-- The master's Sync arrived over Ethernet, not over UDP (R383). -/
  ethernet : Bool := false
  deriving DecidableEq, Repr

/-- A frame of a jitter buffer whose presence bit is set (R99). -/
structure BufFrame where
  /-- Sample index (R93). -/
  idx : Int := 0
  /-- MTB ns at which the secondary's packet that wrote it arrived; none = the subscription's own (R103). -/
  rival : Option Nat := none
  /-- One word per channel or object, left-justified; 0 where the packet that wrote it carries none (R99, R113). -/
  words : List Int := []
  deriving DecidableEq, Repr

/-- What a VALID packet of a pair's secondary found, so that it can become DUPLICATE when the primary's copy of the same reference
tick writes its frames (R101, R103, log 180). -/
structure Undo where
  /-- MTB ns of its arrival (R103). -/
  tick : Nat := 0
  /-- LAST_SCENE_SEQ (R112). -/
  scene : Int := 0
  /-- SSRC (R519). -/
  ssrc : Int := 0
  /-- SSRC of the subscription so far (R519). -/
  seen : Option Nat := none
  /-- SSRC_CHANGES (R519). -/
  changes : Int := 0
  /-- The primary's comparisons of layouts (R37). -/
  layouts : List (Nat × Nat × Nat) := []
  /-- The primary's object slots: pending records, META_LATE and META_OVERFLOW (R119, R120). -/
  objs : List (Nat × List (Nat × MetaRec) × Int × Int) := []
  deriving DecidableEq, Repr

/-- Hidden state of a subscription S0-S127. -/
structure Stream where
  /-- Jitter buffer: the frames whose presence bit is set, by sample index (R99). -/
  frames : List BufFrame := []
  /-- MTB ns of the malformed packets of the last second (R110). -/
  malTimes : List Nat := []
  /-- Consecutive play blocks with no received sample (R108). -/
  emptyBlocks : Nat := 0
  /-- Frames present since the last missing one, up to B (R106). -/
  present : Nat := 0
  /-- The next block cut off fades the samples to zero (R109). -/
  fadeOut : Bool := false
  /-- The block cut off last carries that fade (R157). -/
  fading : Bool := false
  /-- Last frame of the play block before (R348). -/
  tail : List Int := []
  /-- MTB ns of the fence (R111). -/
  fencedAt : Option Nat := none
  /-- SSRC of the subscription so far (R519). -/
  ssrcSeen : Option Nat := none
  /-- MTB ns of the last VALID or DUPLICATE packet of this path (R104). -/
  pathLast : Option Nat := none
  /-- First sample index and MTB ns of the packets of the last second (R104). -/
  arrivals : List (Int × Nat) := []
  /-- PATH_SKEW has been raised and PATH_DIFF has not fallen below 4 ms (R104). -/
  skewed : Bool := false
  /-- Least margin of the present second (Table 03-10). -/
  margin : Option Int := none
  /-- The present second of presented media time (Table 03-10). -/
  marginSec : Nat := 0
  /-- Object packets still to be compared: application instant, first output sample, layout ID, by instant (R37). -/
  layouts : List (Nat × Nat × Nat) := []
  /-- Boundary, as an output sample, at which the strict-layout mute of its objects ends (R39). -/
  unmuteAt : Option Nat := none
  /-- What its last VALID packet found, where it is a pair's secondary (R101, R103). -/
  undo : Option Undo := none
  /-- Samples of the play block, one list per frame (R106). -/
  blkNow : List (List Int) := []
  /-- Samples of the block cut off last, which plays next (R106). -/
  blkNext : List (List Int) := []
  deriving DecidableEq, Repr

/-- What happens to an object within the play block in work, so that the block can be rendered anew (R40, R44): a record applies, or
the object is cleared (R118, R148). -/
structure Took where
  /-- First output sample that it concerns (R118). -/
  sample : Nat := 0
  /-- Output sample of the record's application (R121). -/
  apply : Nat := 0
  /-- The record; none = the object is cleared (R148). -/
  record : Option MetaRec := none
  /-- DIRECT_SPEAKER as it stood (R150). -/
  direct : Nat := 0xFFFF
  /-- The slot was in NO_META (R141). -/
  first : Bool := false
  deriving DecidableEq, Repr

/-- Hidden state of an object slot O0-O511. -/
structure Obj where
  /-- Subscription that carries the slot (R84). -/
  sub : Option Nat := none
  /-- Subscription and room object ID taken at the next boundary (R124). -/
  next : Option (Option (Nat × Nat)) := none
  /-- Record in force (R121). -/
  record : Option MetaRec := none
  /-- At most four pending records by output sample (R120). -/
  pend : List (Nat × MetaRec) := []
  /-- Combined gain per own channel, units of 2^-27 (R125). -/
  gains : List (Nat × Ramp) := []
  /-- Object mute multiplier, units of 2^-27 (R127). -/
  mute : Ramp := { g0 := 134217728, g1 := 134217728 }
  /-- Direction in force (R129). -/
  dir : Option (Rat × Rat × Rat) := none
  /-- Delay target, 2^-16 sample (R141). -/
  delayTarget : Nat := 0
  /-- Delay in force, 2^-16 sample (DELAY_NOW) (R141). -/
  delay : Nat := 0
  /-- Delay line, newest first, 24-bit samples (R114). -/
  line : List Int := []
  /-- Air-absorption filter state y (R143). -/
  air : Int := 0
  /-- Air-absorption coefficient a of the block (R143). -/
  airA : Rat := 1
  /-- Muted by a layout mismatch under STRICT_LAYOUT (R39). -/
  strict : Bool := false
  /-- A mute condition other than the metadata flag held at the last block boundary (R127). -/
  cond : Bool := false
  /-- DIRECT_SPEAKER as the record in force found it (R150). -/
  direct : Nat := 0xFFFF
  /-- Place of the object in its subscription's frames (R84). -/
  place : Nat := 0
  /-- Samples left of the fade-out before the slot changes object (R124). -/
  fadeLeft : Nat := 0
  /-- Block boundary, as an output sample, of the commit that changes the slot's object (R124). -/
  fadeFrom : Nat := 0
  /-- Records applied and clears within the play block in work, oldest first (R40, R44). -/
  took : List Took := []
  /-- Output sample at which the last record applied (R121). -/
  lastApply : Option Nat := none
  deriving DecidableEq, Repr

/-- The objects as they stood at a sample of the play block in work, and the changes due at its boundary with which it has been
rendered from there on (R40, R44). -/
structure RSnap where
  /-- Output sample (R184). -/
  sample : Nat := 0
  /-- The object slots before that sample was rendered (R44). -/
  objs : Tbl Obj := []
  /-- Entries that the changes due at the block's boundary bring (R40). -/
  items : List (Nat × Value) := []
  deriving DecidableEq, Repr

/-- Hidden state of a render group (32 object slots). -/
structure RGroup where
  /-- The group was dropped at the render cut for the next play block (R193). -/
  dropNext : Bool := false
  /-- The group does not contribute to the play block (R193). -/
  dropNow : Bool := false
  /-- The play block fades in over 16 samples (R193). -/
  fadeNow : Bool := false
  /-- Its share of each channel's bus at the last sample of the block before, units of 2^-58 (R193). -/
  last : List Int := []
  /-- Its shares that the chains have not taken yet, oldest first; none = all zero (R145, R184). -/
  shares : List (List Int) := []
  deriving DecidableEq, Repr

/-- The configuration with which a channel's chain processes a play block: what stood at the boundary after which it is
processed (R162, R165, R168, R174, R184). -/
structure ChainCfg where
  /-- Play block it serves (R184). -/
  block : Nat := 0
  /-- Biquad sections in use with B0, B1, B2, A1, A2 (R159). -/
  sections : List (Nat × List Value) := []
  /-- Taps, shift and coefficients of bank A (R163). -/
  bankA : Nat × Nat × List Byte := (0, 0, [])
  /-- Taps, shift and coefficients of bank B (R163). -/
  bankB : Nat × Nat × List Byte := (0, 0, [])
  /-- Bank in use, or faded in: 0 = A, 1 = B (R165). -/
  firNew : Nat := 0
  /-- A FIR crossfade runs (R165). -/
  firFades : Bool := false
  /-- Delay of stage 5, samples (R167). -/
  delay : Nat := 0
  /-- EXC_SPLIT, Hz (R169). -/
  split : Int := 200
  /-- Limiter level T, 2^-31 (R174). -/
  level : Rat := 0
  /-- LIM_RELEASE, ms (R174). -/
  release : Nat := 50
  /-- Parameters of the velocity model; none = no driver model (R257). -/
  vel : Option (List Rat) := none
  deriving DecidableEq, Repr

/-- What the sense path gives over a pilot window in progress, or over the one that has ended (R250): sums of V_OUT and I_OUT
times cosine and sine. -/
structure PilotSum where
  /-- Whole second of presented media time of the window (R250). -/
  sec : Nat := 0
  /-- The pilot was enabled at a tick of the window (R249). -/
  on : Bool := false
  /-- The window must be rejected: a tick without the pilot, a re-anchor, a clip (R250). -/
  bad : Bool := false
  /-- V_OUT at 3 Hz, V (R250). -/
  v : Rat × Rat := (0, 0)
  /-- I_OUT at 3 Hz, A (R250). -/
  i : Rat × Rat := (0, 0)
  /-- I_OUT at 2, 4, 5 and 6 Hz, A: the rest of the band of 1.5-6 Hz (R250, log 169). -/
  rest : List (Rat × Rat) := []
  deriving DecidableEq, Repr

/-- The least-squares fit of a drift window in progress, or of the one that has ended (R268): sums over its ticks. -/
structure DriftSum where
  /-- Ten-second window of presented media time (R268). -/
  win : Nat := 0
  /-- The bridge was not playing at a tick of the window (R268). -/
  bad : Bool := false
  /-- Sum of v_est squared (R268). -/
  vv : Rat := 0
  /-- Sum of v_est times x_est (R268). -/
  vx : Rat := 0
  /-- Sum of x_est squared (R268). -/
  xx : Rat := 0
  /-- Sum of v_est times the left side of the equation (R268). -/
  vy : Rat := 0
  /-- Sum of x_est times the left side of the equation (R268). -/
  xy : Rat := 0
  /-- Sum of the squares of the stage 8 output below EXC_SPLIT, full scale 1 (R268). -/
  low : Rat := 0
  /-- Ticks of the sums (R268). -/
  n : Nat := 0
  deriving DecidableEq, Repr

/-- What one run of a channel's model task works on: what stood at its block boundary (R252, R256). -/
structure ModelRun where
  /-- Media time of the boundary (R196). -/
  deadline : Nat := 0
  /-- P, W (R252). -/
  power : Rat := 0
  /-- Parameters of the driver model and the sample rate (R256). -/
  params : List Rat := []
  /-- X_est, m (R255). -/
  x : Rat := 0
  /-- V_est, 2^-24 m/s (R255). -/
  v : Int := 0
  /-- Sample of x_est of greatest magnitude of the block played, 2^-28 m (R256). -/
  xMax : Int := 0
  /-- With PREDICT_EN 1 the drive of the play block that begins, V (R256). -/
  drive : Option (List Rat) := none
  deriving DecidableEq, Repr

/-- Hidden state of an output channel CH0-CH15: chain, power stage, cone control, calibration. -/
structure Chan where
  /-- Biquad states x1, x2, y1, y2 by section; missing = 0 (R160). -/
  bq : List (Nat × Int × Int × Int × Int) := []
  /-- FIR input history, newest first (R163). -/
  firHist : List Int := []
  /-- Alignment delay line, newest first (R167). -/
  line : List Int := []
  /-- Read point being faded out, samples (R168). -/
  oldDelay : Nat := 0
  /-- Samples left of the delay crossfade (R168). -/
  delayFade : Nat := 0
  /-- Length of the FIR crossfade in progress (R165). -/
  firLen : Nat := 0
  /-- Gain changes that ramp after a timeout: entry, old value, samples done (R362). -/
  ramps : List (Nat × Value × Nat) := []
  /-- Sources that fade in: 0-3 direct, 4 fallback; old kind, unit, index; whether the old one fades out; samples done (R363). -/
  srcFade : List (Nat × (Nat × Nat × Nat) × Bool × Nat) := []
  /-- Applied gain g (R171). -/
  gNow : Rat := 1
  /-- The limiter has acted in the present block (R174). -/
  limHit : Bool := false
  /-- Renderer bus of the last working samples, newest first (R145). -/
  bus : List Int := []
  /-- Stage 1 output of the last working samples, newest first (R156). -/
  s1 : List Int := []
  /-- Stage 8 output of the output sample of this instant (R174). -/
  s8 : Int := 0
  /-- Stage 8 output of the output sample before (R362). -/
  s8Prev : Int := 0
  /-- Last output sample that stages 1 to 7 have processed (R152). -/
  worked : Option Nat := none
  /-- Configuration of the play block in work (R184). -/
  cfg : Option ChainCfg := none
  /-- Watched signals of that sample: direct sources 0-3, fallback source, bus, stage 1 output, stage 6 input, network sum, fallback sum (R154). -/
  seen : List Rat := []
  /-- Terminal voltage at the last sample instants, newest first (R348). -/
  vHist : List Int := []
  /-- Terminal current at the last sample instants, newest first (R348). -/
  iHist : List Int := []
  /-- Last sample of the play block before (R194). -/
  s8Last : Int := 0
  /-- Velocity reference of the output sample of this instant, 2^-24 m/s (R173). -/
  vref : Int := 0
  /-- Velocity reference inside the limiter's look-ahead, oldest first, m/s (R173). -/
  vLine : List Rat := []
  /-- State of the reference-model section (R257). -/
  velSt : List Rat := []
  /-- Rate-limited broadband ceiling c_b (R169). -/
  ceilB : Rat := 1
  /-- State of the EXC_SPLIT low-pass (R169). -/
  split : List Rat := []
  /-- Limiter gain g (R174). -/
  limG : Rat := 1
  /-- Limiter look-ahead, oldest first: the sample, its t as fixed when it entered, LIM_RELEASE in ms (R174). -/
  limX : List (Int × Rat × Nat) := []
  /-- MTB ns since which the gain is pinned (R171). -/
  pinSince : Option Nat := none
  /-- CEILING_PINNED raised and not yet re-armed (R171). -/
  pinTold : Bool := false
  /-- MTB ns since which the gain is not pinned (R171). -/
  freeSince : Option Nat := none
  /-- MTB ns since which the network is lost (R178). -/
  lostSince : Option Nat := none
  /-- MTB ns since which every network source receives (R179). -/
  recvSince : Option Nat := none
  /-- Samples left of the fallback crossfade (R178). -/
  fbLeft : Nat := 0
  /-- Length of the fallback crossfade (R178). -/
  fbLen : Nat := 0
  /-- Cause of the fallback (R178). -/
  fbCause : Nat := 0
  /-- Consecutive misses (R195). -/
  misses : Nat := 0
  /-- The play block was not delivered and is concealed (R194). -/
  missNow : Bool := false
  /-- DEADLINE_MISSED raised since the last deadline met (R195). -/
  missTold : Bool := false
  /-- The next block fades in over 16 samples (R194). -/
  missFade : Bool := false
  /-- Chain gate G_c (R279). -/
  gc : Gate := {}
  /-- Loop gate G_l (R279). -/
  gl : Gate := {}
  /-- Ticks since the precharge of a start or a probe began; a start counts up to 8 (R280, R288). -/
  seqPos : Nat := 0
  /-- A start sequence has begun and is not complete (R280). -/
  starting : Bool := false
  /-- The bridge releases at the next carrier valley (R281). -/
  releaseDue : Bool := false
  /-- The chain ramp down has ended and the loop ramp is due at the next sample (R281). -/
  settled : Bool := false
  /-- The chain ramp down under way is that of a hold, after which the channel stays IDLE (R292, R444). -/
  holding : Bool := false
  /-- The power die has released the bridge after a short and holds it latched (R287). -/
  dieOff : Bool := false
  /-- A short has been declared and is handled at the next block boundary (Table 09-7). -/
  shortDue : Bool := false
  /-- A start is deferred until RELEASED (R284). -/
  startDue : Bool := false
  /-- The stop in progress is a fast stop (R282). -/
  fast : Bool := false
  /-- Step of the restart gain ramp, none = 0 dB (R288). -/
  restart : Option Nat := none
  /-- Consecutive limited periods (R287). -/
  limitRun : Nat := 0
  /-- Consecutive unlimited periods (R286). -/
  freeRun : Nat := 0
  /-- MTB ns of the limited periods of the last ms (R287). -/
  limitTimes : List Nat := []
  /-- MTB ns at which the next probe is due (R288). -/
  probeAt : Option Nat := none
  /-- A probe runs (R288). -/
  probing : Bool := false
  /-- The probe that is due waits for a block boundary (R288, R298). -/
  probeWaits : Bool := false
  /-- Sums over the sine of a probe: V_OUT and I_OUT times cosine and sine of 50 Hz (R288). -/
  probeSum : Rat × Rat × Rat × Rat := (0, 0, 0, 0)
  /-- State of the 2 Hz low-pass (R290). -/
  dcSt : List Rat := []
  /-- MTB ns since which the DC threshold is exceeded (R290). -/
  dcSince : Option Nat := none
  /-- Edge steps of the carrier period after the group's valley: A rise, A fall, B rise, B fall (R273). -/
  pwm : Int × Int × Int × Int := (0, 0, 0, 0)
  /-- Legs A and B are held low by the current limit until their next rising edge (R285). -/
  tripped : Bool × Bool := (false, false)
  /-- Noise shaper state (R278). -/
  shaper : List Rat := []
  /-- Modulator input at the last tick, Q31 (R279). -/
  xMod : Int := 0
  /-- G_c held down by UV_MUTED (R292). -/
  uvHeld : Bool := false
  /-- G_c held down by MUTE_N (R444). -/
  pinHeld : Bool := false
  /-- Muted by a re-anchor (R64). -/
  anchorMuted : Bool := false
  /-- The on-resistance test has run since dawn (R474). -/
  ronDone : Bool := false
  /-- Coil node, degC (DESIGN CHOICE: T_AMB default, log 10) (R252). -/
  tCoil : Rat := 25
  /-- Magnet node, degC (R252). -/
  tMag : Rat := 25
  /-- I_prev, A (R255). -/
  iPrev : Rat := 0
  /-- Current in Le2, A (R255). -/
  iLe2 : Rat := 0
  /-- Voltage of the Le2 branch, V (R255). -/
  vLe2 : Rat := 0
  /-- X_est, m (R255). -/
  xEst : Rat := 0
  /-- V_est, 2^-24 m/s (R255). -/
  vEst : Int := 0
  /-- Sample of x_est of greatest magnitude of the block played, 2^-28 m (R256). -/
  xMax : Int := 0
  /-- V_OUT of the last tick, 2^-20 V (R215). -/
  vSense : Int := 0
  /-- I_OUT of the last tick, 2^-24 A (R215). -/
  iSense : Int := 0
  /-- V_OUT of the last tick on the linear-phase path, 2^-20 V (R250, R314). -/
  vLin : Int := 0
  /-- I_OUT of the last tick on the linear-phase path, 2^-24 A (R250, R314). -/
  iLin : Int := 0
  /-- That current less the filter's, A (R301). -/
  aLin : Rat := 0
  /-- What the analysis of the channel has recorded of its present sweep, newest first: voltage and current (R323), or microphone
  and sweep (R327). -/
  trace : List (Rat × Rat) := []
  /-- MTB ns of the last model publication (R216). -/
  published : Option Nat := none
  /-- The model task has not finished (R196). -/
  modelLate : Bool := false
  /-- What the runs of the model task that go on late work on, oldest first (R196). -/
  lateRuns : List ModelRun := []
  /-- Consecutive rejected pilot windows (R251). -/
  rejects : Nat := 0
  /-- MTB ns since which T_COIL_EST is above the hard limit (R263). -/
  hotSince : Option Nat := none
  /-- MTB ns since which c_thermal rests at 1.0 (R262). -/
  thRest : Option Nat := some 0
  /-- MTB ns since which c_exc rests at 1.0 (R262). -/
  exRest : Option Nat := some 0
  /-- Counted windows above (+) or back below (-) the drift limit (R269). -/
  driftRun : Int := 0
  /-- SUSPENSION_CHANGE raised and not armed again (R269). -/
  driftTold : Bool := false
  /-- MTB ns since which stage 8 is below -70 dBFS (R329). -/
  quietSince : Option Nat := none
  /-- State of the modulator's interpolator (R275). -/
  interp : List Rat := []
  /-- Mean of i_out^2 of the last block, A^2 (R252). -/
  i2 : Rat := 0
  /-- Block means of V_OUT x I_OUT of the last 100 ms, W (R306). -/
  powers : List Rat := []
  /-- 0 = none, 1 = ramp down, 2 = measuring, 3 = ramp back (R466), 4 = waiting for a zero crossing, 5 = G_c falling, 6 = the wait and
  chain ramp of step 3 (R467). -/
  calPhase : Nat := 0
  /-- The channel is due for calibration (R465). -/
  calDue : Bool := false
  /-- The calibration that runs belongs to CALIBRATE (R467). -/
  calForced : Bool := false
  /-- Calibration in force: V offset uV, V gain ppm, I offset uA, I gain ppm (R468). -/
  calVals : Int × Int × Int × Int := (0, 0, 0, 0)
  /-- Presented ns of the last calibration (R465). -/
  calAt : Option Nat := none
  /-- T_STAGE at the last calibration (R465). -/
  calTemp : Int := 0
  /-- On-resistance of legs A, B as measured last, 0.01 mΩ (R474). -/
  ron : Int × Int := (0, 0)
  /-- State of the interpolator of the chain output to fL (R175). -/
  up : List Rat := []
  /-- State of the interpolator of the velocity reference to fL (R175). -/
  upV : List Rat := []
  /-- Stage 8 output at the last tick (R175). -/
  s8L : Int := 0
  /-- Velocity reference at the last tick, pilot included, 2^-24 m/s (R249). -/
  vrefL : Int := 0
  /-- State of the reference model driven by the pilot (R249). -/
  pilotSt : List Rat := []
  /-- PILOT_LEVEL in use since the last whole second, uV (R249). -/
  pilotLevel : Nat := 3000
  /-- The pilot window in progress (R250). -/
  pilot : PilotSum := {}
  /-- The pilot window that has ended and is not yet judged (R250). -/
  pilotDone : Option PilotSum := none
  /-- MODEL_STATE has been VALID since reset (R248). -/
  everValid : Bool := false
  /-- The observer runs on its stored state with P = 0 until the first LOCKED (R254). -/
  obsHeld : Bool := false
  /-- Presented ns of the instant at which the state that is held was stored (R254). -/
  obsFrom : Nat := 0
  /-- The drift window in progress (R268). -/
  drift : DriftSum := {}
  /-- The drift window that has ended and is not yet judged (R268). -/
  driftDone : Option DriftSum := none
  /-- State of the low-pass at EXC_SPLIT of the drift window (R268). -/
  driftSt : List Rat := []
  /-- Sum of i_out^2 over the ticks of the present block, A^2 (R252). -/
  iSq : Rat := 0
  /-- Sum of V_OUT x I_OUT over the ticks of the present block, W (R306). -/
  vi : Rat := 0
  /-- Ticks of those sums (R252, R306). -/
  ticks : Nat := 0
  /-- Mean of V_OUT x I_OUT over the last block, W (R306). -/
  power : Rat := 0
  /-- Energy delivered and not yet counted, Wh (R473). -/
  energy : Rat := 0
  /-- Presented ns and T_STAGE of a calibration since the last accepted one whose result was rejected (R465, R468). -/
  calTried : Option (Nat × Int) := none
  /-- MTB ns at which step 2 of the calibration began (R466). -/
  calStart : Option Nat := none
  deriving DecidableEq, Repr

/-- Hidden state of a power group PG0-PG3. -/
structure Group where
  /-- No power-good (R295). -/
  notReady : Bool := true
  /-- UV_MUTED applies (R292). -/
  uv : Bool := false
  /-- OV_RELEASED applies (R291). -/
  ov : Bool := false
  /-- STARVED applies (R293). -/
  starved : Bool := false
  /-- UVLO applies (R294). -/
  uvlo : Bool := false
  /-- MTB ns since which the block mean is at or above 23.0 V (R292). -/
  uvOk : Option Nat := none
  /-- MTB ns of the re-enabling of the gate drivers (R294). -/
  vauxOk : Option Nat := none
  /-- Last block mean of VBUS, V (R292). -/
  vMean : Rat := 0
  /-- Vbus_pred at the last block boundary, 2^-20 V (R174, R237, R276). -/
  vFilt : Int := 0
  /-- Sum of VBUS over the ticks of the present block, 2^-20 V (R292). -/
  vSum : Int := 0
  /-- Ticks of that sum (R292). -/
  vTicks : Nat := 0
  /-- V_est of the last carrier period, V (R275). -/
  vEst : Rat := 0
  /-- States that end at the next block boundary: bit 0 OV, bit 1 STARVED, bit 2 UVLO (R295). -/
  back : Nat := 0
  /-- V_k, 2^-20 V (R276). -/
  vNow : Int := 0
  /-- Vbus_pred with FF_PREDICT 1, 2^-20 V (R276). -/
  vPred : Int := 0
  /-- VBUS of the last tick, 2^-20 V (R215). -/
  vbus : Int := 0
  /-- I_avg, A (R296). -/
  iAvg : Rat := 0
  /-- C_bus (R296). -/
  cBus : Rat := 1
  /-- MTB ns at which the ramp is due or began (R449). -/
  hsAt : Option Nat := none
  /-- MTB ns of the retry (R451). -/
  hsRetryAt : Option Nat := none
  /-- VAUX has risen above 10.5 V at the power die and has not fallen below 9.8 V since (R294, R440). -/
  vauxUp : Bool := false
  /-- HS_GATE raised (R450). -/
  gate : Bool := false
  /-- Trim version waiting for the power die (R484). -/
  trim : Option Nat := none
  /-- Trim set that the power die has taken since the dawn sequence, if another than TRIM_VER (R484, R485). -/
  trimVer : Option Nat := none
  /-- Thermal cycle: last valley, peak reached, rise not yet 40 K (R473). -/
  cycle : Int × Int × Bool := (2147483647, 0, true)
  deriving DecidableEq, Repr

/-- Hidden state of a loop slot LS0-LS63 (the variables of R220). -/
structure Slot where
  /-- Ramped set-point sp (R220). -/
  sp : Int := 0
  /-- Pv_prev (R220). -/
  pvPrev : Int := 0
  /-- Tgt_prev (R220). -/
  tgtPrev : Int := 0
  /-- E of the last execution (R220). -/
  e : Int := 0
  /-- U_a, the output before the last (R217). -/
  uPrev : Int := 0
  /-- T_b, the tick of the last execution (R217). -/
  tLast : Nat := 0
  /-- The last execution was in CLOSED (R220). -/
  closedBefore : Bool := false
  /-- Supervisor count (R229). -/
  count : Nat := 0
  /-- STATE_REQ in force and awaiting an execution (R223). -/
  reqWait : Option Nat := none
  /-- MAN in force and awaiting an execution (R224). -/
  manWait : Option Int := none
  /-- The check code fails its verification (R231). -/
  checkBad : Bool := false
  /-- Generator sample at the set-point (R227). -/
  inj : Int := 0
  /-- Generator sample at the output (R227). -/
  injOut : Int := 0
  /-- Output u before the injection of R227 (R220). -/
  uBase : Int := 0
  /-- U_pid of the last execution (R220, R328). -/
  upid : Int := 0
  /-- The slot has delivered an output since the engine started (R210, R213). -/
  ran : Bool := false
  deriving DecidableEq, Repr

/-- Hidden state of a flowstone learner FL0-FL3. -/
structure Learner where
  /-- Ripple phase (R237). -/
  theta : Rat := 0
  /-- Correction values by point; missing = 0 (R237). -/
  c : List (Nat × Int) := []
  /-- Point of the last tick (R237). -/
  iLast : Option Nat := none
  /-- Ticks left of the fade; 1920 = not fading (R240). -/
  fade : Nat := 1920
  /-- Factor of the correction at which the fade began (R240). -/
  fadeFrom : Rat := 1
  /-- The correction fades to 0 (R240). -/
  fading : Bool := false
  /-- FL_CLEAR: the learner restarts when the fade ends (R240). -/
  again : Bool := false
  /-- Tick since which the hold condition is absent (R239). -/
  quiet : Option Nat := none
  /-- State that a change falling due at the coming tick leads to (R239). -/
  due : Option Nat := none
  /-- Tick of the last change of state (R239). -/
  changedAt : Option Nat := none
  /-- Correction delivered at the last tick, 2^-20 V (R237). -/
  corr : Int := 0
  /-- Sum of the squares of vbus - vbus_filt over the present second (Table 07-12). -/
  accIn : Int := 0
  /-- Sum of the squares of r over the present second (Table 07-12). -/
  accOut : Int := 0
  /-- Ticks of those sums (Table 07-12). -/
  accN : Nat := 0
  deriving DecidableEq, Repr

/-- Hidden state of a lane L0-L15. -/
structure Lane where
  /-- Tasks placed on the lane: 0-15 render, 16-31 channel, 32-47 preparation, 48-63 model (R188). -/
  tasks : List Nat := []
  /-- Tasks issued on the lane for the present block period, which run to their end on it (R185). -/
  work : List Nat := []
  /-- Of a fenced lane: tasks that its placement gives it and that still run on their old lanes (R191). -/
  incoming : List Nat := []
  /-- Block periods with a task ready and none finished (R201). -/
  idleBlocks : Nat := 0
  /-- Self-tests passed of the 16 that clear the fence (R204). -/
  clearTests : Option Nat := none
  /-- MTB ns of the last self-test (R200). -/
  lastTest : Option Nat := none
  /-- Ms, longest interval between two self-tests in the window (R200). -/
  longest : Nat := 0
  /-- Fenced lane whose tasks it loads (R202). -/
  migrateFrom : Option Nat := none
  /-- Least class A slack of the window, ns (R192). -/
  slackA : Option Int := none
  /-- Least render slack of the window, ns (R192). -/
  slackR : Option Int := none
  /-- Least class B slack of the window, ns (R192). -/
  slackB : Option Int := none
  /-- The lane runs the new microcode (R205). -/
  newUcode : Bool := false
  /-- Ns after the period start of the last class A or B task of the present block (R192). -/
  finish : Nat := 0
  /-- Block boundaries since the fence of the lane it migrates (R202). -/
  migBlocks : Nat := 0
  /-- A task has finished on it in the present block period (R201). -/
  active : Bool := false
  deriving DecidableEq, Repr

/-- A pending commit (R416). -/
structure Commit where
  /-- Boundary, presented ns (R416). -/
  time : Nat := 0
  /-- STRICT (R416). -/
  strict : Bool := false
  /-- Accepted LATE, or passed by an anchoring or an absence (R416, R419). -/
  late : Bool := false
  /-- Passed by an anchoring or an absence: its boundary is the first after it (R419). -/
  passed : Bool := false
  /-- The request asked for no time: the next boundary (R12). -/
  untimed : Bool := false
  /-- Items in staging order (R415). -/
  items : List (Nat × Value) := []
  /-- Role with which it executes (R410). -/
  role : Nat := 0
  deriving DecidableEq, Repr

/-- An open BLOCK_WRITE transfer (R414). -/
structure Transfer where
  /-- Entry (R414). -/
  key : Nat := 0
  /-- Total (R414). -/
  total : Nat := 0
  /-- Bytes received (R414). -/
  data : List Byte := []
  /-- MTB ns of the last segment (R414). -/
  lastAt : Nat := 0
  deriving DecidableEq, Repr

/-- A CDL session (R408-R428). -/
structure Session where
  /-- Role 0-3 (R401). -/
  role : Nat := 0
  /-- Peer it is bound to (R406). -/
  peer : Peer := {}
  /-- Open, else pending (R408). -/
  isOpen : Bool := false
  /-- Nonce_c (R405). -/
  nonceC : List Byte := []
  /-- Nonce_d (R405). -/
  nonceD : List Byte := []
  /-- Sequence of the last accepted request (R407). -/
  sLast : Nat := 0
  /-- Opcode of the last accepted request (R407). -/
  lastOp : Nat := 0
  /-- Payload of the last accepted request (R407). -/
  lastReq : List Byte := []
  /-- Status of the cached response (R407). -/
  cacheStatus : Nat := 0
  /-- Payload of the cached response (R407). -/
  cacheBody : List Byte := []
  /-- MTB ns of the last accepted request, or of HELLO (R410). -/
  lastAt : Nat := 0
  /-- Open transaction (R415). -/
  txn : Option (List (Nat × Value)) := none
  /-- Pending commit of COMMIT (R416). -/
  commit : Option Commit := none
  /-- Transactions of their own awaiting the boundary (R396). -/
  ownCommits : List Commit := []
  /-- Open block transfer (R414). -/
  xfer : Option Transfer := none
  /-- Areas claimed (R421). -/
  claims : List Nat := []
  /-- Subscribed event ranges (R426). -/
  ranges : List (Nat × Nat) := []
  /-- Newest 256 records by EVT_SEQ, oldest first (R428). -/
  ring : List (Nat × EventRec) := []
  /-- Next EVT_SEQ (R426). -/
  nextSeq : Nat := 1
  /-- First EVT_SEQ not yet sent (R427). -/
  sentSeq : Nat := 1
  /-- Records overwritten before they were sent, not yet reported (R428). -/
  lost : Nat := 0
  /-- EVT_LOST_TOTAL (Table 13-15). -/
  lostTotal : Nat := 0
  /-- LAST_COMMIT_STATUS (Table 13-10). -/
  commitStatus : Nat := 0
  /-- LAST_COMMIT_AT (Table 13-10). -/
  commitAt : Nat := 0
  /-- LAST_COMMIT_ENTRY (Table 13-10). -/
  commitEntry : Nat := 0
  /-- Session key K_s (R405). -/
  key : List Byte := []
  /-- The session has ended, and only its accepted commits stay (R410). -/
  ended : Bool := false
  deriving DecidableEq, Repr

/-- A long operation (R423). -/
structure Handle where
  /-- Operation code (R423). -/
  op : Nat := 0
  /-- Issuing session (R423). -/
  session : Nat := 0
  /-- DONE (R424). -/
  finished : Bool := false
  /-- Final status (R424). -/
  status : Nat := 0
  /-- Result index (R424). -/
  result : Nat := 0
  /-- Percent (R424). -/
  progress : Nat := 0
  /-- MTB ns of completion (R423). -/
  doneAt : Nat := 0
  /-- Channel mask (R319). -/
  chans : Nat := 0
  /-- Slot of LOOP_FRF (R319). -/
  slot : Nat := 255
  /-- Generator taken (R320). -/
  gen : Option Nat := none
  /-- MTB ns of acceptance (R329). -/
  startAt : Nat := 0
  /-- A LOADCHECK under the rules of RUN: it was accepted there (R329). -/
  inRun : Bool := false
  /-- The sweep of a LOADCHECK runs (R326, R329). -/
  sweeping : Bool := false
  /-- Channels of the sweep of a LOADCHECK (R329). -/
  live : Nat := 0
  /-- Channels whose sweep is complete (R329). -/
  swept : Nat := 0
  /-- A result was rejected (R467). -/
  failed : Bool := false
  /-- Parameters of 0x9000 latched at acceptance (R319). -/
  params : List Int := []
  /-- Status with which the operation is to end (R321). -/
  ending : Option Nat := none
  /-- MTB ns at which that was asked for (R11, R321). -/
  endingAt : Nat := 0
  /-- Step of a LOADCHECK in MEASURE: 0 before the stop, 1 terminals, 2 stopping, 3 restart and sweep (R326); the channel that a
  RESPONSE has come to (R319). -/
  part : Nat := 0
  /-- MTB ns since which every bridge is released for the terminal test (R326). -/
  since : Option Nat := none
  /-- VBUS of the power groups when the released terminals were read, mV (R325, R326). -/
  vbus : List Nat := []
  /-- Channels of which a sweep was discarded (R329). -/
  repeated : Nat := 0
  /-- What a LOOP_FRF has recorded at each execution, newest first: upid and the output after injection (R328). -/
  trace : List (Rat × Rat) := []
  deriving DecidableEq, Repr

/-- Hidden state of a generator G0-G3. -/
structure Gen where
  /-- Armed for its start group (R310). -/
  sg : Bool := false
  /-- It injects (R310). -/
  begun : Bool := false
  /-- MTB ns at which it began, or nothing (R318). -/
  first : Option Nat := none
  /-- Samples of the fade-in done (R310). -/
  rise : Nat := 0
  /-- Samples of the fade-out done, none = not falling (R310). -/
  fall : Option Nat := none
  /-- Level in 0.01 dB (R311). -/
  level : Ramp := { g0 := -2000, g1 := -2000 }
  /-- PRBS31 state (R309). -/
  prbs : Nat := 1
  /-- Pink filter state (R309). -/
  filt : List Rat := []
  /-- Last sample (R313). -/
  out : Int := 0
  /-- The last channel-input samples, newest first (R348). -/
  line : List Int := []
  /-- Handle of the analysis that holds it (R320). -/
  owner : Option Nat := none
  /-- Injection point in use (R313). -/
  point : Nat := 0
  /-- Channel mask or slot in use (R313). -/
  target : Nat := 0
  /-- Waveform in use: kind, frequencies in mHz, duration and fade in samples (R309). -/
  form : List Int := []
  /-- Amplitude of an analysis in units of 2^31; none = G_LEVEL (R322). -/
  amp : Option Rat := none
  /-- Peak of an analysis at the terminals, mV; 0 = none (R322). -/
  mv : Nat := 0
  /-- Samples of the fade-out (R310). -/
  fallLen : Nat := 0
  deriving DecidableEq, Repr

/-- Hidden state of a capture C0-C7. -/
structure Cap where
  /-- Pre-trigger ring, newest first (R318). -/
  pre : List Int := []
  /-- Post-trigger samples, newest first (R318). -/
  data : List Int := []
  /-- Sample before the present (R318). -/
  prev : Option Int := none
  /-- MTB ns of the arming (R318). -/
  armedAt : Nat := 0
  /-- Presented ns of the latest sample (R318). -/
  latest : Nat := 0
  /-- The latest sample meets the trigger (R318). -/
  meets : Bool := false
  /-- Parameters taken at the arming: source, rate, format, length, pre-trigger length, trigger, argument, time, level (R318). -/
  form : List Int := []
  deriving DecidableEq, Repr

/-- Hidden state of a port unit: T0-T3 are 0-3, receivers A0, A1 are 4, 5 (Table 11-12). -/
structure Port where
  /-- 8-frame FIFO, oldest first: edge (or write) time in presented ns, slot samples (R342). -/
  fifo : List (Nat × List Int) := []
  /-- Frame taken last (R342). -/
  last : List Int := []
  /-- Frames delivered at the last sample instants, newest first (R348). -/
  hist : List (List Int) := []
  /-- Slot signals of the last two frames before the slot gains, newest first (R352). -/
  raw : List (List Int) := []
  /-- Signals of the output slots for the last two output samples, newest first (R349). -/
  sig : List (List Int) := []
  /-- Delivered frame that is repeated while it ramps to zero (R341). -/
  hold : List Int := []
  /-- Samples of the ramp to zero done (R341). -/
  rampOut : Nat := 32
  /-- Samples of the fade-in done (R341). -/
  rampIn : Nat := 32
  /-- MTB ns of the frame edges of the last 100 ms, newest first (R343). -/
  edges : List Nat := []
  /-- MTB ns of the first edge since the clock came (R343). -/
  clockAt : Option Nat := none
  /-- The present second: its number, first edge, last edge, edges (R343). -/
  sec : Nat × Nat × Nat × Nat := (0, 0, 0, 0)
  /-- MTB ns of the last change of state or restart (Tables 11-1, 11-4). -/
  sinceAt : Nat := 0
  /-- Presented ns of the start sample from which on frames carry data (R350). -/
  startAt : Nat := 0
  /-- Signals of the frame that a slave output sends, ahead of mask and gains (R346). -/
  sent : List Int := []
  /-- Consecutive faulty frames (R340). -/
  badRun : Nat := 0
  /-- MTB ns since which frames are good (Table 11-1). -/
  goodSince : Option Nat := none
  /-- MTB ns since which the rate is within 450 ppm (R343). -/
  rateOk : Option Nat := none
  /-- MTB ns of the entries into fault states of the last 60 s (R360). -/
  faultAt : List Nat := []
  /-- Pending pause, presented ns (R351). -/
  pauseAt : Option Nat := none
  /-- Pending resume, presented ns (R351). -/
  resumeAt : Option Nat := none
  /-- Repeats (true) and drops of the last second, with their MTB ns (R342). -/
  slips : List (Nat × Bool) := []
  /-- Committed mask awaiting its first frame, and the commit's instant (R346). -/
  maskWait : Option (Nat × Nat) := none
  /-- Mask of the frames that an input still delivers, and the edge of the first frame under MASK_ACTIVE (R346). -/
  maskOld : Option (Nat × Nat) := none
  /-- Frame edge and gain of a pause or resume whose waits begin at the frame's sample (R352). -/
  muteDue : Option (Nat × Int) := none
  /-- MTB ns at which the last pause or resume took effect, and its gain (R353). -/
  turned : Option (Nat × Int) := none
  /-- Slot gains other than full, in 1/32 (R347). -/
  slotGain : List (Nat × Ramp) := []
  /-- Output slots whose signal fades in: slot, old map word of a crossfade, ramp in 1/32 (R349). -/
  mapFade : List (Nat × Nat × Ramp) := []
  /-- Slot data of the output frame sent last; none = high-impedance (R345). -/
  outFrame : List (Option Int) := []
  /-- Slot data of the output frame before it (R335). -/
  outPrev : List (Option Int) := []
  /-- The output FIFO has reached fill 4 (R342). -/
  outGo : Bool := false
  /-- Input delay of the last frame taken, ns (R344). -/
  inDelay : Nat := 0
  /-- Output delay of the last frame sent, ns (R344). -/
  outDelay : Nat := 0
  /-- A fence clear awaits the next boundary, with its cause (R361). -/
  clearDue : Option Nat := none
  /-- Channel-status bits of the present block (R356). -/
  csBits : List Bool × List Bool := ([], [])
  /-- MTB ns of the failing blocks of the last second (R356). -/
  crccFails : List Nat := []
  /-- Consecutive samples that were not good, per subframe (R357). -/
  held : Nat × Nat := (0, 0)
  /-- Sample delivered last, per subframe (R357). -/
  vals : Int × Int := (0, 0)
  /-- Samples of the fade-in after a zero done, per subframe (R357). -/
  vfade : Nat × Nat := (32, 32)
  deriving DecidableEq, Repr

/-- A frame waiting to be sent or received: kind code, priority, length and its bytes. -/
structure Frame where
  /-- 0 = CDL, 1 = PTP, 2 = monitor, 3 = ARP, 4 = ICMP, 5 = IGMP, 6 = DHCP (R372). -/
  kind : Nat := 0
  /-- 0 = PTP, 1 = monitor, 2 = other (R372). -/
  prio : Nat := 2
  /-- Bytes with FCS (R372). -/
  len : Nat := 64
  /-- Destination IPv4 address (R372). -/
  dest : Nat := 0
  /-- Destination UDP port (R372). -/
  port : Nat := 0
  /-- Source UDP port where it is stated, 47815 for CDL, otherwise 0 (R382). -/
  sport : Nat := 0
  /-- Tagged with SVC_VID when it entered the FIFO (R371). -/
  tagged : Bool := false
  /-- Monitor stream, or session (R375). -/
  unit : Nat := 0
  /-- MTB ns of queueing (R375). -/
  queuedAt : Nat := 0
  /-- Payload bytes (R372). -/
  body : List Byte := []
  /-- MTB ns at which its last byte has left the FIFO (R372). -/
  doneAt : Nat := 0
  /-- Tag it is sent with: VID and PCP (R370). -/
  vlan : Option (Nat × Nat) := none
  /-- IPv4 address whose MAC address it needs before it is sent; 0 = none (R381). -/
  hop : Nat := 0
  /-- Over Ethernet with EtherType 0x88F7, `dest` being a MAC address (R383). -/
  ethernet : Bool := false
  /-- Its strobe has come (R58, R383). -/
  strobed : Bool := false
  deriving DecidableEq, Repr

/-- Hidden state of a MAC N0, N1. -/
structure Mac where
  /-- Frames waiting for the FIFO, in order of queueing (R372). -/
  waiting : List Frame := []
  /-- Transmit FIFO, oldest first (R372). -/
  fifo : List Frame := []
  /-- Frames on the wire, newest first (the model's record of what was sent) (R372). -/
  sent : List Frame := []
  /-- Receive buffers free (R377). -/
  free : Nat := 256
  /-- Receive ring: buffers used, service mark and bytes of each frame, oldest first (R370, R377). -/
  ring : List (Nat × Bool × List Byte) := []
  /-- ARP cache: IPv4 address, MAC address, MTB ns (R381). -/
  arp : List (Nat × Nat × Nat) := []
  /-- Multicast groups joined (R380). -/
  groups : List Nat := []
  /-- Sources from which each group is joined: group and source, 0 = any (R83, R380). -/
  memb : List (Nat × Nat) := []
  /-- Changes of membership whose report is repeated, and when: group, source, MTB ns (R380). -/
  reports : List ((Nat × Nat) × Nat) := []
  /-- MTB ns of the echo replies of the last second (R381). -/
  icmp : List Nat := []
  /-- MTB ns of link-up (R382). -/
  upAt : Option Nat := none
  /-- Lease waiting for the next boundary: address, prefix (R382). -/
  lease : Option (Nat × Nat) := none
  /-- MTB ns of the next request for a lease (R382). -/
  retryAt : Option Nat := none
  /-- Bytes sent not yet counted in TX_BYTES (R384). -/
  txRest : Nat := 0
  /-- Packets handed to the stream engine and not yet taken, oldest first: subscription, MTB ns of arrival, UDP payload (R97, R376). -/
  engine : List (Nat × Nat × List Byte) := []
  /-- MTB ns at which an IGMPv1 querier was last heard (R380). -/
  querier1 : Option Nat := none
  /-- MTB ns at which a general query of an IGMPv2 querier was last heard (R380). -/
  querier2 : Option Nat := none
  /-- CDL datagrams in the ring that the processor has yet to take, oldest first: source address and port, message (R382, R404). -/
  cdl : List (Nat × Nat × List Byte) := []
  /-- MTB ns of the last defence of the address (R382). -/
  defended : Option Nat := none
  /-- The lease in force: MTB ns of its grant, its length in s, renewal asked for (R382). -/
  leaseT : Option (Nat × Nat × Bool) := none
  /-- MTB ns at which the FIFO has sent what it holds (R372). -/
  wireFree : Nat := 0
  /-- What the last received PTP event frame latched: presented media time and DTB0-DTB3 (R58, R59). -/
  rxStamp : List Nat := []
  /-- Event messages that have not yet passed the MAC, oldest first: d = Delay_Req or Pdelay_Req of DTB d, 4 + d = Pdelay_Resp (R58, R383). -/
  ptpOut : List Nat := []
  /-- Addresses asked for by ARP and not yet known, with the MTB ns of the last request (R381). -/
  asked : List (Nat × Nat) := []
  /-- MTB ns at which the address in force is announced for the second time (R381). -/
  announceAt : Option Nat := none
  deriving DecidableEq, Repr

/-- Hidden state of a monitor stream M0-M7. -/
structure Mon where
  /-- Sequence number of the next packet (R374). -/
  seq : Nat := 0
  /-- Values of its channels at the last output samples, newest first (R373). -/
  line : List (List Int) := []
  /-- The sample of the boundary from which on it is sent (R373, log 223). -/
  since : Option Nat := none
  deriving DecidableEq, Repr

/-- A frame that the CAN FD controller has sent. -/
structure CanFrame where
  /-- 11-bit identifier (R386). -/
  id : Nat := 0
  /-- BRS: the data phase runs at CAN_DATA_RATE (R385). -/
  brs : Bool := false
  /-- Sent with transmitter delay compensation (R385). -/
  tdc : Bool := false
  /-- Data bytes (R387). -/
  data : List Byte := []
  deriving DecidableEq, Repr

/-- Hidden state of the CAN FD controller. -/
structure Can where
  /-- Request being assembled (R388). -/
  reasm : Option (List Byte) := none
  /-- Next segment number (R388). -/
  nextSeg : Nat := 0
  /-- MTB ns of the last segment (R388). -/
  reasmAt : Nat := 0
  /-- Requests assembled and not yet taken (R388). -/
  assembled : List (List Byte) := []
  /-- Messages to send: identifier, next segment, bytes left (R387). -/
  txq : List (Nat × Nat × List Byte) := []
  /-- Frames on the bus, newest first (the model's record) (R387). -/
  sent : List CanFrame := []
  deriving DecidableEq, Repr

/-- A write that waits for its boundary (R395). -/
structure Waiting where
  /-- Entry (R395). -/
  key : Nat := 0
  /-- Value (R395). -/
  value : Value := .num 0
  /-- Role of the writer (R401). -/
  role : Nat := 0
  /-- Session of the writer (R421). -/
  session : Nat := 0
  deriving DecidableEq, Repr

/-- A change that waits for a zero crossing (R362). -/
structure ZcWait where
  /-- Entry or function that waits (R154). -/
  key : Nat := 0
  /-- Value waiting (R155). -/
  value : Value := .num 0
  /-- Sample s0 at which the wait started (R362). -/
  start : Nat := 0
  /-- N_T of the wait, samples (R364). -/
  limit : Nat := 0
  /-- Sample of the block boundary at which it was begun; none = between boundaries (R364). -/
  begun : Option Nat := none
  /-- The most that its rule allows, samples (R467). -/
  most : Option Nat := none
  deriving DecidableEq, Repr

/-- The state of anchoring (R64-R69). -/
structure Anchor where
  /-- 0 = none, 1 = channels muting, 2 = anchor period, 3 = fade-in awaited (R64). -/
  phase : Nat := 0
  /-- Offset to be applied, ns (R64). -/
  offset : Int := 0
  /-- Offset applied at the anchor boundary, ns (R67). -/
  applied : Int := 0
  /-- Second step, waiting for the anchor period to end (R68). -/
  second : Option Int := none
  /-- Time written to TOD_SET for the next anchoring (R66). -/
  todSet : Option Nat := none
  /-- TOD_SET under FREE awaits the boundary (R66). -/
  todNow : Bool := false
  /-- The first anchoring since dawn has taken place (R65). -/
  anchored : Bool := false
  /-- FS_SELECT has changed and awaits its anchoring (R57). -/
  fsChanged : Bool := false
  /-- New media time of the anchor boundary (R64). -/
  newTime : Nat := 0
  /-- Offset still to be slewed, 2^-32 ns (R63). -/
  slewLsb : Int := 0
  /-- The phase term is in INC (R63). -/
  slewing : Bool := false
  /-- The phase term as it stands in INC, 2^-32 ns per tick (R63). -/
  slewAdd : Int := 0
  /-- MTB ns of the last loss of the source, while it is missing (R70). -/
  lossAt : Option Nat := none
  /-- MTB ns of the last WCLK_IN edge (R56). -/
  wclkLast : Option Nat := none
  /-- MTB ns of the last PPS_IN edge (R56). -/
  ppsLast : Option Nat := none
  deriving DecidableEq, Repr

/-- Hidden state of a scheduled action A0-A63. -/
structure ActExt where
  /-- Role of the arming session (R76). -/
  role : Nat := 0
  /-- Arming session (R76). -/
  session : Nat := 0
  /-- The action is past and executes late (R75). -/
  past : Bool := false
  deriving DecidableEq, Repr

/-- Hidden state of a start group 0-7. -/
structure SgExt where
  /-- Start sample fixed and not yet reached (R80). -/
  fixed : Option Nat := none
  /-- Time of an SG_GO that awaits its start (R79). -/
  go : Option Nat := none
  deriving DecidableEq, Repr

/-- A run of a task that missed its deadline and goes on (R194, R196). -/
structure LateRun where
  /-- The task (R196). -/
  task : Nat := 0
  /-- The lane that it runs on to its end (R185). -/
  lane : Nat := 0
  /-- The deadline that it missed, presented ns (R192). -/
  deadline : Nat := 0
  deriving DecidableEq, Repr

/-- Hidden state of the dispatcher, throttle and microcode rotation. -/
structure Disp where
  /-- 0 = no rotation, 1 = rotating to the new microcode, 2 = rotating back (R205). -/
  fsm : Nat := 0
  /-- Microcode version to be installed (R205). -/
  newVer : Nat := 0
  /-- Microcode version to go back to (R205). -/
  oldVer : Nat := 0
  /-- Lane whose step failed (R205). -/
  failLane : Nat := 0
  /-- MTB ns of the last THROTTLE_CHANGED (R198). -/
  thrEvt : Option Nat := none
  /-- Level at the start of the 100 ms combination (R198). -/
  thrFrom : Nat := 0
  /-- Highest level of the combination (R198). -/
  thrPeak : Nat := 0
  /-- MTB ns since which every sensor is 10 mV above the threshold (R198). -/
  thrOk : Option Nat := none
  /-- MTB ns of the last level change (R198). -/
  thrSince : Nat := 0
  /-- MTB ns at which the slack window began (R192). -/
  windowAt : Nat := 0
  /-- Least render slack of the window (R192). -/
  slackRender : Option Int := none
  /-- Least channel slack of the window (R192). -/
  slackA : Option Int := none
  /-- Least class B slack of the window (R192). -/
  slackB : Option Int := none
  /-- Tasks finished in the present block period (R185). -/
  done : List Nat := []
  /-- Render groups dropped at the cut of the present block period (R193). -/
  dropped : List Nat := []
  /-- Sample of the block boundary whose period was issued last (R184, R192). -/
  period : Nat := 0
  /-- The tasks of the present block period were issued (R153, R184). -/
  issued : Bool := false
  /-- Tasks that change lane, with the sample of the block boundary at which they do (R191). -/
  moving : Option (Nat × List (Nat × List Nat)) := none
  /-- A lane has become healthy, and the lantern role is to be given anew (R204). -/
  reassign : Bool := false
  /-- No lantern lane remains (R203). -/
  noLantern : Bool := false
  /-- Runs of tasks that missed their deadline, oldest first (R196). -/
  late : List LateRun := []
  /-- A combined THROTTLE_CHANGED awaits the end of its 100 ms (R198). -/
  thrOpen : Bool := false
  /-- Ms of the slack window in progress (R192). -/
  window : Nat := 1000
  /-- Sample of the block boundary whose changes were made last (R77, R80). -/
  blockAt : Option Nat := none
  /-- The slots have not yet taken the states of their STATE_REQ since the engine started (R213). -/
  engineNew : Bool := true
  /-- Executions skipped within the last second, with their MTB ns (R212). -/
  skips : List (Nat × Nat) := []
  deriving DecidableEq, Repr

/-- Hidden state of the management processor, updates, long upkeep. -/
structure Mgmt where
  /-- MTB ns at which the present absence began (R457). -/
  absentAt : Option Nat := none
  /-- Cause of the absence (R458). -/
  cause : Nat := 0
  /-- Happenings latched, oldest first (R459). -/
  latched : List EventRec := []
  /-- Happenings that could not be latched (R459). -/
  overflow : Nat := 0
  /-- The absence guard has acted (R460). -/
  guarded : Bool := false
  /-- The management firmware runs (R391). -/
  served : Bool := false
  /-- Session whose request for a mode is in force, 0 = the device (R431, R471). -/
  modeBy : Nat := 0
  /-- Session whose operation brought the update under way, 0 = the device (R471, R485). -/
  updBy : Nat := 0
  /-- MTB ns of the last return from an absence (R462). -/
  returnedAt : Option Nat := none
  /-- Mode request awaiting the boundary, with its reason (R431). -/
  waitMode : Option (Nat × Nat) := none
  /-- Target and reason of the setup in progress (R433). -/
  setupTo : Option (Nat × Nat) := none
  /-- MTB ns of the boundary at which the setup in progress began (R433). -/
  setupAt : Option Nat := none
  /-- START_MODE as the dawn sequence found it (R439). -/
  startTo : Nat := 1
  /-- RON_LIMIT as the dawn sequence found it (R474). -/
  ronLimit : Int := 300
  /-- A request for RUN awaits lock, with its reason (R435). -/
  runWait : Option Nat := none
  /-- START_MODE has been acted on (R439). -/
  startDone : Bool := false
  /-- Handle of PREPARE_REMOVAL in progress (R454). -/
  removal : Option Nat := none
  /-- A planned removal holds the groups off (R455). -/
  removed : Bool := false
  /-- Handle of RESTORE_DEFAULTS awaiting the boundary (R400). -/
  restoreDue : Option Nat := none
  /-- LOCKED has been reached since dawn (R254). -/
  lockedSince : Bool := false
  /-- MTB ns since which LOCK_STATE is HOLDOVER (R445). -/
  holdSince : Option Nat := none
  /-- Handle of UPDATE_LOAD (R481). -/
  loadHandle : Option Nat := none
  /-- Image length of UPDATE_LOAD (R481). -/
  loadLen : Nat := 0
  /-- The erase has ended (R481). -/
  loadErased : Bool := false
  /-- Image bytes received (R481). -/
  loadGot : Nat := 0
  /-- MTB ns of the last segment (R481). -/
  loadAt : Nat := 0
  /-- Handle of UPDATE_ACTIVATE (R482). -/
  actHandle : Option Nat := none
  /-- UPDATE_ACTIVATE was accepted LATE (R482). -/
  actLate : Bool := false
  /-- MTB ns of the activation boundary (R482). -/
  boundAt : Nat := 0
  /-- MTB ns at which probation began (R485). -/
  probAt : Nat := 0
  /-- Management, loop and lane versions of the old bank (R485). -/
  oldVers : Nat × Nat × Nat := (0, 0, 0)
  /-- The last update was rolled back (R470). -/
  rolled : Bool := false
  /-- Divergences: entry, MTB ns since, already rewritten (R461). -/
  diverge : List (Nat × Nat × Bool) := []
  /-- Failed AUTH per peer, with MTB ns (R409). -/
  fails : List (Peer × Nat) := []
  /-- Locked peers, with the MTB ns at which the lockout ends (R409). -/
  lockouts : List (Peer × Nat) := []
  /-- Handle counter (R423). -/
  handleCtr : Nat := 0
  /-- Last session number assigned (R408). -/
  sessCtr : Nat := 0
  /-- WEAR_WARNING raised (R479). -/
  wearTold : Bool := false
  /-- RON_DRIFT raised since dawn (R474). -/
  ronTold : Bool := false
  /-- Faulted sensors and the MTB ns since which each reads in range (R464). -/
  faultSince : List (Nat × Nat) := []
  /-- Power dies whose sensors differ by more than 15 K, and since when (R464). -/
  diffSince : List (Nat × Nat) := []
  /-- Fans below FAN_MIN_RPM at duty 0.3 or above, and since when (R469). -/
  fanLow : List (Nat × Nat) := []
  /-- Stalled fans at or above FAN_MIN_RPM, and since when (R469). -/
  fanOk : List (Nat × Nat) := []
  /-- Fans whose duty has been below 0.3 within the present 1 s window (R469). -/
  fanSlow : Nat := 0
  /-- MTB ns of the last lifetime store (R473). -/
  lifeAt : Nat := 0
  /-- Sum and count of LT_TJ_MEAN samples (R473). -/
  tjSum : Int × Nat := (0, 0)
  /-- MTB ns of the last store of the observers (R254). -/
  obsAt : Nat := 0
  /-- MTB ns at which SAFE was entered after the dawn sequence (R449). -/
  safeAt : Option Nat := none
  /-- MTB ns at which a planned removal ended to hold the groups off (R455). -/
  hsFreeAt : Nat := 0
  /-- The present absence rolls the update back (R485). -/
  rollDue : Bool := false
  /-- Ns not yet counted of LT_ON_MIN, LT_RUN_MIN, LT_TJ_HOT_MIN (R473). -/
  lifeNs : Nat × Nat × Nat := (0, 0, 0)
  /-- MTB ns of the last sample of LT_TJ_MEAN (R473). -/
  secAt : Nat := 0
  /-- Divergences reported with outcome 1 and not yet resolved (R461). -/
  divergedOpen : List Nat := []
  /-- Status of the last microcode rotation, until it is acted on (R485). -/
  rotated : Option Nat := none
  /-- The absence guard awaits the release of every bridge (R460). -/
  stopAll : Bool := false
  /-- Ms of the absence before the reset of the absence guard (R460). -/
  absentMs : Nat := 0
  /-- Bytes written to the coefficient store since its last sector erasure (R479). -/
  norBytes : Nat := 0
  deriving DecidableEq, Repr

/-- Pins and supplies. -/
structure Pins where
  /-- RESET_N level (R442). -/
  resetN : Bool := false
  /-- ENGAGE_N, filtered (pull-up, R498) (R443). -/
  engageN : Bool := true
  /-- MUTE_N, filtered (pull-up, R498) (R443). -/
  muteN : Bool := true
  /-- BOOTSEL as latched (R437). -/
  bootsel : Bool := false
  /-- MTB ns since which ENGAGE_N is low (R449). -/
  engageLow : Option Nat := none
  /-- A withdrawal runs (R452). -/
  withdrawing : Bool := false
  /-- ENGAGE_LOST raised and ENGAGE_RESTORED not yet (R452). -/
  wasLost : Bool := false
  /-- Driven GPIO levels; missing = high-impedance (R499). -/
  gpio : List (Nat × Bool) := []
  /-- Levels of the GPIO inputs as their last edges left them; the pull-downs hold them low (R498, R499). -/
  gpioIn : Nat := 0
  /-- FAULT_N driven low (R498). -/
  faultLow : Bool := true
  /-- MTB ns at which RESET_N rose, or the power-on reset ended (R367). -/
  resetUp : Option Nat := none
  /-- WCLK_OUT runs (R54). -/
  wclkOut : Bool := false
  /-- MTB ns of the last rise of WCLK_OUT and of MCLKO at a sample instant (R54). -/
  clockRise : Nat := 0
  /-- MCLKO as it runs: 0 = low, 1 = 24.576 MHz, 2 = 12.288 MHz (R54). -/
  mclko : Nat := 0
  /-- PPS_OUT high since (MTB ns) (R54). -/
  ppsHigh : Option Nat := none
  /-- Last AES3 frame sent: two subframes (R358). -/
  aout : List Int := []
  /-- V bits of the last AES3 frame (R358). -/
  aoutV : Bool × Bool := (true, true)
  /-- Channel status of the block under way (R359). -/
  aoutCs : List Byte := []
  /-- AOUT_CS for the next block: as it stood at the last sample instant (R359). -/
  aoutNext : List Byte := List.replicate 24 0
  /-- The last AES3 frame began with preamble Z (R358). -/
  aoutZ : Bool := false
  /-- C bit of the last AES3 frame (R359). -/
  aoutC : Bool := false
  /-- CAN_TX recessive (R385). -/
  canTxRecessive : Bool := true
  /-- XREF is present (R437). -/
  xref : Bool := false
  /-- MTB ns at which the dawn sequence began (R437). -/
  dawnAt : Option Nat := none
  /-- The dawn sequence waits for XREF (R437). -/
  dawnWait : Bool := false
  /-- RESET_CAUSE of the next dawn sequence (R442). -/
  cause : Nat := 0
  /-- BOOT with the recovery loader (R438). -/
  recovery : Bool := false
  /-- CAN_STB high (R385). -/
  canStb : Bool := true
  /-- The line the service UART sent last (R472). -/
  uart : List Byte := []
  /-- MTB ns since which the device drives RESET_N low (R460). -/
  resetDrive : Option Nat := none
  /-- MTB ns of the last rise of ENGAGE_N (R452). -/
  engageHigh : Option Nat := none
  /-- The dawn sequence runs from bank A after a recovery (R486). -/
  fromA : Bool := false
  /-- VIO33 is present (R440). -/
  vio33 : Bool := true
  /-- VIO18 is present (R440). -/
  vio18 : Bool := true
  deriving DecidableEq, Repr

/-- The content of a firmware bank (R480): image version (0 = empty or invalid), security version, and the versions of its lane microcode, loop-engine microcode and analog trim. -/
structure Image where
  /-- Image version (R480). -/
  version : Nat := 0
  /-- Security version (R480). -/
  security : Nat := 0
  /-- Lane microcode version (R480). -/
  lane : Nat := 0
  /-- Loop-engine microcode version (R480). -/
  loop : Nat := 0
  /-- Trim version (R480). -/
  trim : Nat := 0
  deriving DecidableEq, Repr

/-- A log record (Table 15-6). -/
structure LogRec where
  /-- LOG_TIME (R471). -/
  time : Nat := 0
  /-- LOG_SEQ (R471). -/
  seq : Nat := 0
  /-- LOG_CODE (R471). -/
  code : Nat := 0
  /-- LOG_SOURCE (R471). -/
  source : Nat := 0
  /-- LOG_ARGS, 16 bytes (R471). -/
  args : List Byte := []
  deriving DecidableEq, Repr

/-- What the manual gives the machine beside the dictionary entries: one table per kind of unit, and the shared
parts. -/
structure Units where
  /-- Domain time bases DTB0-DTB3 (R46). -/
  tbases : Tbl TimeBase := []
  /-- Subscriptions S0-S127 (R82). -/
  streams : Tbl Stream := []
  /-- Object slots O0-O511 (R114). -/
  objs : Tbl Obj := []
  /-- Render groups 0-15 (R193). -/
  rgroups : Tbl RGroup := []
  /-- What the play block in work can be rendered anew from (R40, R44). -/
  rsnap : RSnap := {}
  /-- Output channels CH0-CH15 (R13). -/
  chans : Tbl Chan := []
  /-- Power groups PG0-PG3 (R13). -/
  groups : Tbl Group := []
  /-- Loop slots LS0-LS63 (R207). -/
  slots : Tbl Slot := []
  /-- Flowstone learners FL0-FL3 (R237). -/
  learners : Tbl Learner := []
  /-- Lanes L0-L15 (R181). -/
  lanes : Tbl Lane := []
  /-- Sessions by number; none = free (R408). -/
  sessions : Tbl (Option Session) := []
  /-- Long operations by handle; none = no record (R423). -/
  handles : Tbl (Option Handle) := []
  /-- Generators G0-G3 (R309). -/
  gens : Tbl Gen := []
  /-- Captures C0-C7 (R317). -/
  caps : Tbl Cap := []
  /-- Ports T0-T3 (0-3) and receivers A0, A1 (4, 5) (R340). -/
  ports : Tbl Port := []
  /-- MACs N0, N1 (R366). -/
  macs : Tbl Mac := []
  /-- Scheduled actions A0-A63 (R74). -/
  acts : Tbl ActExt := []
  /-- Start groups 0-7 (R78). -/
  sgs : Tbl SgExt := []
  /-- Monitor streams M0-M7 (R373). -/
  mons : Tbl Mon := []
  /-- The CAN FD controller (R387). -/
  can : Can := {}
  /-- Anchoring (R64). -/
  anchor : Anchor := {}
  /-- Dispatcher, throttle, rotation (R185). -/
  disp : Disp := {}
  /-- Management processor (R457). -/
  mgmt : Mgmt := {}
  /-- Pins (R497). -/
  pins : Pins := {}
  /-- Writes waiting for their boundary, in order of acceptance (R395). -/
  waiting : List Waiting := []
  /-- Changes waiting for a zero crossing (R362). -/
  zc : List ZcWait := []
  /-- Events raised and not yet written to the log (R471). -/
  logQueue : List EventRec := []
  /-- Log records by LOG_SEQ modulo 32,768 (R471). -/
  log : Tbl (Option LogRec) := []
  /-- Code, scope and MTB ns of the last raising of each once-per-second event (R514). -/
  lastRaised : List (Nat × Nat × Nat) := []
  /-- Stored observer per channel: coil node, magnet node, presented ns (R254). -/
  obsStore : Tbl (Option (Rat × Rat × Nat)) := []
  /-- Status and effect TIME of the last write that carried no message (the model's record) (R412). -/
  answer : Nat × Nat := (0, 0)
  /-- The MODEL'S OWN counter of free values drawn (log 1). -/
  free : Nat := 0
  /-- Firmware banks A and B of the NOR flash (R478). -/
  banks : Image × Image := ({}, {})
  deriving DecidableEq, Repr

/-- The block. -/
structure State where
  /-- The mode (R2); `0x1002 MODE_CURRENT` is the view of it. -/
  mode : Mode := .boot
  /-- The MTB counter, NS over FRAC, 96 bits (R46, Table 02-1). -/
  mtb : BitVec 96 := 0
  /-- Every dictionary entry, by index × 256 + subindex; an unlisted entry holds its default (R391, R399). -/
  dict : Tbl Value := []
  /-- The ferroelectric store: the stored values of P entries, and their absence (R399). -/
  store : Tbl (Option Value) := []
  /-- The rest of the machine. -/
  units : Units := {}
  /-- The commands that wait, first in, first out (the model's own queue). -/
  pending : List Instr := []
  deriving DecidableEq, Repr

/-- Why a step stops. -/
inductive Fault where
  /-- Raised by `VCORE_STALL_RESUME` alone, where VCORE fell below the retention voltage: the state is then
  undefined (Table 14-3). Safe: the model stops where the hardware goes on in an unknown state. -/
  | stateUndefined
  deriving DecidableEq, Repr

/-- Why a command has no meaning. -/
inductive Refusal where
  /-- Raised by the dispatcher alone, for a command that has no meaning yet, with its mnemonic. Safe: the model
  stops where the hardware goes on. -/
  | notModelled (mnemonic : String)
  deriving DecidableEq, Repr

/-- The block right after a power-on reset (R437): mode BOOT, every counter 0, every entry at its default, nothing
stored, nothing waiting. -/
def State.reset : State := {}

end Sys2Proof.Machine
end

