-- ==== Sys2Proof/Machine/Effect.lean ====
section
/-!
DEFINITION. Machine/Effect.lean: the types in which the meanings are written. A meaning answers a list of effects on
the state (a `Phase`); `Machine/Ops.lean` says what each effect does. No effect touches the queue of commands, the
MTB counter or an entry's type: what holds of every effect holds of every meaning.
-/

namespace Sys2Proof.Machine

/-- The data types of Table 00-4 (R6). -/
inductive Ty where
  | bool | u8 | u16 | u32 | u64 | s8 | s16 | s32 | s64 | q31 | coef | time | db | pos | str | blob | inc40
  deriving DecidableEq, Repr

/-- The access codes of Table 13-3. -/
inductive Acc where
  | const | ro | rw | wo | rws | rwo
  deriving DecidableEq, Repr

/-- The instant at which a write takes effect (R395): none for what cannot be written; acceptance; the next block
boundary (`timed` where its effect TIME is that boundary under R412, else 0); the commit; or an instant of the
owning chapter, the value standing in the entry from acceptance. -/
inductive When where
  | none | acc | block (timed : Bool) | commit | later
  deriving DecidableEq, Repr

/-- One row of a dictionary table. -/
structure Row where
  base : Nat
  n : Nat
  sub : Nat
  cnt : Nat
  stride : Nat
  ty : Ty
  acc : Acc
  p : Bool
  dflt : Value
  rng : List (Int × Int)
  eff : When
  deriving DecidableEq, Repr

/-- One effect on the state. -/
inductive Effect where
  /-- The entry takes the value, narrowed to its type. -/
  | reg (k : Nat) (v : Value)
  /-- The entry rises by `n`, wrapping at its width. -/
  | bump (k : Nat) (n : Int)
  /-- Bits of the entry are set. -/
  | orBits (k : Nat) (m : Nat)
  /-- Bits of the entry are cleared. -/
  | andNot (k : Nat) (m : Nat)
  /-- The ferroelectric store takes the value of an entry, or forgets it (R399). -/
  | save (k : Nat) (v : Option Value)
  /-- The mode changes (R2). -/
  | mode (m : Mode)
  /-- The machine beside its entries changes. -/
  | unit (f : Units → Units)
  /-- An event is raised (R425): code, argument bytes, the session that caused it (0 = the device), and the scope
  of an event that is raised at most once per second (R514). -/
  | raise (code : Nat) (args : List Byte) (session : Nat) (scope : Option Nat)

/-- What a meaning does at a state. -/
abbrev Phase := State → List Effect

end Sys2Proof.Machine
end

