-- ==== Sys2Proof/Machine/Operands.lean ====
section
/-!
DEFINITION. Machine/Operands.lean: the forms in which values travel and are held: little-endian fields (R5), the
wire encodings of the data types (Table 13-2, R393, R394), their widths and full ranges (Table 00-4, R6-R8).
-/

namespace Sys2Proof.Machine

/-- `n` bytes of an integer, least significant first (R5); negative numbers in two's complement. -/
def le (n : Nat) (x : Int) : List Byte :=
  (List.range n).map fun i => BitVec.ofNat 8 ((x / (256 : Int) ^ i) % 256).toNat

/-- `n` bytes of an integer, most significant first (R5: RTP, UOP and audio). -/
def be (n : Nat) (x : Int) : List Byte := (le n x).reverse

/-- The unsigned number in little-endian bytes. -/
def ofLe : List Byte → Nat
  | [] => 0
  | b :: t => b.toNat + 256 * ofLe t

/-- The unsigned number in big-endian bytes. -/
def ofBe (b : List Byte) : Nat := ofLe b.reverse

/-- Two's complement reading of a `w`-bit number. -/
def signed (w : Nat) (n : Int) : Int := Int.bmod n (2 ^ w)

/-- `n` bytes at offset `o`; shorter when the bytes run out. -/
def slice (b : List Byte) (o n : Nat) : List Byte := (b.drop o).take n

/-- Little-endian unsigned field of `n` bytes at offset `o`. -/
def leAt (b : List Byte) (o n : Nat) : Nat := ofLe (slice b o n)

/-- Big-endian unsigned field of `n` bytes at offset `o`. -/
def beAt (b : List Byte) (o n : Nat) : Nat := ofBe (slice b o n)

/-- Bits [hi:lo] of a number (R3). -/
def bits (n hi lo : Nat) : Nat := (n / 2 ^ lo) % 2 ^ (hi + 1 - lo)

/-- The number whose set bits are those of the list. -/
def mask (l : List Nat) : Nat := l.foldl (fun a i => a ||| 2 ^ i) 0

/-- The set bits of a number below `n`. -/
def ones (n m : Nat) : List Nat := (List.range n).filter fun i => m.testBit i

/-- Number of bits of the integer types, and whether they are signed (Table 00-4). BOOL, COEF, POS, STRING and BLOB
are not in it. -/
def Ty.int : Ty → Option (Nat × Bool)
  | .u8 => some (8, false) | .u16 => some (16, false) | .u32 => some (32, false) | .u64 => some (64, false)
  | .s8 => some (8, true) | .s16 => some (16, true) | .s32 => some (32, true) | .s64 => some (64, true)
  | .q31 => some (32, true) | .time => some (64, false) | .db => some (16, true) | .inc40 => some (40, false)
  | _ => none

/-- Whether a number lies in an integer type. -/
def intOk (w : Nat) (s : Bool) (n : Int) : Bool :=
  if s then decide (-(2 ^ (w - 1) : Int) ≤ n ∧ n < 2 ^ (w - 1)) else decide (0 ≤ n ∧ n < 2 ^ w)

/-- Whether a value is one of the type, within its full range (R6, R7, Table 00-4). -/
def Ty.ok (t : Ty) (v : Value) : Bool :=
  match t, v with
  | .bool, .num n => n = 0 || n = 1
  | .coef, .coef m s => intOk 32 true m && decide (0 ≤ s ∧ s ≤ 62)
  | .pos, .pos x y z => intOk 32 true x && intOk 32 true y && intOk 32 true z
  | .str, .bytes b => decide (b.length ≤ 64)
  | .blob, .bytes b => decide (b.length ≤ 16777216)
  | t, .num n => match t.int with
    | some (w, s) => intOk w s n
    | none => false
  | _, _ => false

/-- The value narrowed to the type: integers wrap at its width (a wrapping counter is so written); a value of
another shape leaves the present one. -/
def Ty.norm (t : Ty) (old v : Value) : Value :=
  match t, v with
  | .bool, .num n => .num (if n = 0 then 0 else 1)
  | .coef, .coef m s => .coef (signed 32 m) (if 0 ≤ s ∧ s ≤ 62 then s else 62)
  | .pos, .pos x y z => .pos (signed 32 x) (signed 32 y) (signed 32 z)
  | .str, .bytes b => .bytes (b.take 64)
  | .blob, .bytes b => .bytes (b.take 16777216)
  | t, .num n => match t.int with
    | some (w, true) => .num (signed w n)
    | some (w, false) => .num (n % 2 ^ w)
    | none => old
  | _, _ => old

/-- The code of a type on the wire (Table 00-4). -/
def Ty.code : Ty → Nat
  | .bool => 0x01 | .u8 => 0x02 | .u16 => 0x03 | .u32 => 0x04 | .u64 => 0x05
  | .s8 => 0x06 | .s16 => 0x07 | .s32 => 0x08 | .s64 => 0x09 | .q31 => 0x0A | .coef => 0x0B
  | .time => 0x0C | .db => 0x0D | .pos => 0x0E | .str => 0x0F | .blob => 0x10 | .inc40 => 0x11

/-- The type with a code, if Table 13-2 defines one. -/
def Ty.ofCode (c : Nat) : Option Ty :=
  [Ty.bool, .u8, .u16, .u32, .u64, .s8, .s16, .s32, .s64, .q31, .coef, .time, .db, .pos, .str, .blob, .inc40].find?
    fun t => t.code == c

/-- Bytes of a value on the wire, but for STRING (Table 13-2). -/
def Ty.wireLen : Ty → Nat
  | .bool | .u8 | .s8 => 1
  | .u16 | .s16 | .db => 2
  | .u32 | .s32 | .q31 | .blob => 4
  | .u64 | .s64 | .time => 8
  | .coef | .inc40 => 5
  | .pos => 12
  | .str => 1

/-- The value of a type at the head of wire bytes, and the bytes after it; none when the bytes run out. A BLOB in an
item stands for its length alone (Table 13-2). -/
def Ty.parse (t : Ty) (b : List Byte) : Option (Value × List Byte) :=
  match t with
  | .str =>
    let n := leAt b 0 1
    if b.length < 1 + n || b.length = 0 then none else some (.bytes (slice b 1 n), b.drop (1 + n))
  | .coef => if b.length < 5 then none else some (.coef (signed 32 (leAt b 0 4)) (leAt b 4 1), b.drop 5)
  | .pos =>
    if b.length < 12 then none
    else some (.pos (signed 32 (leAt b 0 4)) (signed 32 (leAt b 4 4)) (signed 32 (leAt b 8 4)), b.drop 12)
  | t =>
    if b.length < t.wireLen then none
    else
      let n : Int := ofLe (b.take t.wireLen)
      let v : Int := match t.int with
        | some (w, true) => signed w n
        | _ => n
      some (.num v, b.drop t.wireLen)

/-- Whether bytes are UTF-8 (R394): `need` continuation bytes are due. Overlong and surrogate forms are refused. -/
def utf8From : Nat → Nat → Nat → List Byte → Bool
  | 0, _, _, [] => true
  | _, _, _, [] => false
  | 0, _, _, b :: t =>
    let n := b.toNat
    if n < 0x80 then utf8From 0 0x80 0xBF t
    else if 0xC2 ≤ n ∧ n ≤ 0xDF then utf8From 1 0x80 0xBF t
    else if n = 0xE0 then utf8From 2 0xA0 0xBF t
    else if n = 0xED then utf8From 2 0x80 0x9F t
    else if 0xE1 ≤ n ∧ n ≤ 0xEF then utf8From 2 0x80 0xBF t
    else if n = 0xF0 then utf8From 3 0x90 0xBF t
    else if n = 0xF4 then utf8From 3 0x80 0x8F t
    else if 0xF1 ≤ n ∧ n ≤ 0xF3 then utf8From 3 0x80 0xBF t
    else false
  | k + 1, lo, hi, b :: t =>
    if lo ≤ b.toNat ∧ b.toNat ≤ hi then utf8From k 0x80 0xBF t else false

end Sys2Proof.Machine

namespace Sys2Proof

open Machine

/-- A value on the wire (Table 13-2); a BLOB travels as its length. -/
def Value.wire (t : Ty) : Value → List Byte
  | .num n => le t.wireLen n
  | .coef m s => le 4 m ++ le 1 s
  | .pos x y z => le 4 x ++ le 4 y ++ le 4 z
  | .bytes b => if t = .str then le 1 b.length ++ b else le 4 b.length

/-- The number of a numeric value; 0 for the other shapes. -/
def Value.int : Value → Int
  | .num n => n
  | _ => 0

/-- The octets of a STRING or BLOB value. -/
def Value.octets : Value → List Byte
  | .bytes b => b
  | _ => []

/-- The exact number of a COEF, m × 2^-s (Table 00-4). -/
def Value.rat : Value → Rat
  | .coef m s => (m : Rat) / 2 ^ s.toNat
  | .num n => n
  | _ => 0

/-- Bytes of a staged value (R415): its wire form, or the total of a blob. -/
def Value.cost (t : Ty) (v : Value) : Nat :=
  if t = .blob then v.octets.length else (v.wire t).length

end Sys2Proof
end

