-- ==== Sys2Proof/Machine/Sha256.lean ====
section
/-!
DEFINITION. Machine/Sha256.lean: the hash and the message authentication code that the tags and keys of the protocol use
(R402, R405): SHA-256 of FIPS 180-4 and HMAC of RFC 2104. A word is a number below 2^32, a hash value a list of eight words.
-/

namespace Sys2Proof.Machine

/-- The `n` words of a number, the most significant first. -/
def wordsOf (n x : Nat) : List Nat := (List.range n).map fun i => x / 2 ^ (32 * (n - 1 - i)) % 2 ^ 32

/-- The hash value before the first block. -/
def hashStart : List Nat := wordsOf 8 0x6a09e667bb67ae853c6ef372a54ff53a510e527f9b05688c1f83d9ab5be0cd19

/-- The constants of the rounds, eight in a row. -/
def roundConstants : List Nat := List.flatten [
  wordsOf 8 0x428a2f9871374491b5c0fbcfe9b5dba53956c25b59f111f1923f82a4ab1c5ed5,
  wordsOf 8 0xd807aa9812835b01243185be550c7dc372be5d7480deb1fe9bdc06a7c19bf174,
  wordsOf 8 0xe49b69c1efbe47860fc19dc6240ca1cc2de92c6f4a7484aa5cb0a9dc76f988da,
  wordsOf 8 0x983e5152a831c66db00327c8bf597fc7c6e00bf3d5a7914706ca635114292967,
  wordsOf 8 0x27b70a852e1b21384d2c6dfc53380d13650a7354766a0abb81c2c92e92722c85,
  wordsOf 8 0xa2bfe8a1a81a664bc24b8b70c76c51a3d192e819d6990624f40e3585106aa070,
  wordsOf 8 0x19a4c1161e376c082748774c34b0bcb5391c0cb34ed8aa4a5b9cca4f682e6ff3,
  wordsOf 8 0x748f82ee78a5636f84c878148cc7020890befffaa4506cebbef9a3f7c67178f2]

/-- The exclusive or of a word's rotations to the right. -/
def rotations (x : Nat) : List Nat → Nat
  | [] => 0
  | n :: l => (x / 2 ^ n + x % 2 ^ n * 2 ^ (32 - n)) ^^^ rotations x l

/-- The message words of the rounds, from the last 16, oldest first; `n` are still to come. -/
def schedule : Nat → List Nat → List Nat
  | 0, _ => []
  | _ + 1, [] => []
  | n + 1, x :: l =>
    let early := l.getD 0 0
    let recent := l.getD 13 0
    let new := x + (rotations early [7, 18] ^^^ early / 2 ^ 3) + l.getD 8 0 + (rotations recent [17, 19] ^^^ recent / 2 ^ 10)
    x :: schedule n (l ++ [new % 2 ^ 32])

/-- One round; `kw` is the sum of its constant and its message word. Two words are new, the others move down. -/
def hashRound (v : List Nat) (kw : Nat) : List Nat :=
  match v with
  | [a, b, c, d, e, f, g, h] =>
    let either := (e &&& f) + ((2 ^ 32 - 1 - e) &&& g)
    let most := (a &&& (b ||| c)) ||| (b &&& c)
    let t := h + rotations e [6, 11, 25] + either + kw
    [(t + rotations a [2, 13, 22] + most) % 2 ^ 32, a, b, c, (d + t) % 2 ^ 32, e, f, g]
  | _ => v

/-- The hash value after one more block of 16 words. -/
def hashBlock (v block : List Nat) : List Nat :=
  let r := (List.zipWith (· + ·) roundConstants (schedule 64 block)).foldl hashRound v
  List.zipWith (fun x y => (x + y) % 2 ^ 32) v r

/-- The words of a message with its padding: a bit 1, zeros, and its length in bits, 64 bytes to the block. -/
def paddedWords (b : List Byte) : List Nat :=
  let n := (b.length + 9 + 63) / 64
  let p := b ++ 0x80 :: (List.replicate (64 * n - b.length - 9) 0 ++ be 8 (8 * b.length : Nat))
  (List.range (16 * n)).map fun i => beAt p (4 * i) 4

/-- SHA-256 (FIPS 180-4). -/
def sha256 (b : List Byte) : List Byte :=
  let w := paddedWords b
  ((List.range (w.length / 16)).foldl (fun v i => hashBlock v ((w.drop (16 * i)).take 16)) hashStart).flatMap fun x => be 4 x

/-- HMAC-SHA-256 of a message under a key of at most 64 bytes (RFC 2104). -/
def hmac (key msg : List Byte) : List Byte :=
  let pad := fun (x : Byte) => (key ++ List.replicate (64 - key.length) 0).map fun k => k ^^^ x
  sha256 (pad 0x5C ++ sha256 (pad 0x36 ++ msg))

end Sys2Proof.Machine
end

