-- ==== Sys2Proof/Config.lean ====
section
/-!
DEFINITION. Config.lean: what the manual leaves to the device. Every constant here but 2π is opaque: nothing in Lean can
evaluate it, so a statement about it holds whatever its value. The log entries named say where each one enters.
-/

namespace Sys2Proof

/-- A value the manual leaves undefined, random or unstated: the n-th one drawn (log 1). `Units.free` counts them. -/
opaque Config.freeValue : Nat → Int

/-- The bytes of the n-th random nonce (R408, log 1). -/
opaque Config.freeByte : Nat → Nat → Byte

/-- The factory value of an entry whose default column says Factory, by its key (log 2). -/
opaque Config.factory : Nat → Int

/-- Real functions that the manual applies without stating how closely the device computes them (log 3). -/
inductive Config.Fn where
  /-- square root of x -/
  | sqrt
  /-- 10 to the power x -/
  | pow10
  /-- x to the power y -/
  | pow
  /-- e to the power x -/
  | exp
  /-- e to the power −2π x -/
  | decay
  /-- sine of x degrees -/
  | sin
  /-- cosine of x degrees -/
  | cos
  /-- hyperbolic tangent of x -/
  | tanh
  /-- logarithm of x to the base 10 -/
  | log10
  /-- argument in degrees of the complex number with imaginary part x and real part y -/
  | atan2
  deriving DecidableEq, Repr

/-- The device's value of a real function at exact arguments (log 3). -/
opaque Config.real : Config.Fn → Rat → Rat → Rat

/-- Whether the device rounds an exact result up to the next integer, where the manual does not state the rounding; the
first argument names the entry or quantity (log 4). -/
opaque Config.roundsUp : Nat → Rat → Bool

/-- 2π, to 60 places (log 3). -/
def Config.twoPi : Rat :=
  6283185307179586476925286766559005768394338798750211641949889 / 1000000000000000000000000000000000000000000000000000000000000

/-- Filters whose realisation the manual does not give (log 5). -/
inductive Config.Filter where
  /-- the pink-noise filter of R309 -/
  | pink
  /-- the noise shaper of R278 -/
  | shaper
  /-- the 2 Hz low-pass of R290 -/
  | dcMean
  /-- the EXC_SPLIT low-pass of R169 and R268 -/
  | split
  /-- the interpolators of R175 and R275 -/
  | interp
  /-- the driver of R256: excursion in m and velocity in m/s, driven by volts -/
  | driver
  deriving DecidableEq, Repr

/-- The way in which the dead time's compensation moves an edge, by its sign: earlier, not, or later (R273 states the 4 ns and the
sign of the sensed current, not which way each edge moves): the sign of the current, and the edge 0-3 as A rise, A fall, B rise,
B fall (log 167). -/
opaque Config.deadWay : Int → Nat → Int

/-- One step of such a filter: parameters, state, input; the head of the answer is the output and the rest is the
new state (log 5). -/
opaque Config.filterStep : Config.Filter → List Rat → List Rat → Rat → List Rat

/-- The servo's frequency term after a measurement, from its bandwidth, the term before and the offset (R61, R62: a
proportional-integral loop whose coefficients the manual does not give; log 6). INC LSB above nominal. -/
opaque Config.servoFreq : Nat → Int → Int → Int

/-- The increment the servo would write, in INC LSB above nominal, before the limits of R50 (log 6). -/
opaque Config.servoInc : Nat → Int → Int → Int

/-- The filtered offset after a measurement (Table 02-8, log 6). -/
opaque Config.servoFilter : Nat → Int → Int → Int

/-- The servo's prediction of the next measured offset (R61, log 6). -/
opaque Config.servoPredict : Nat → Int → Int → Int

/-- The factor that brings the peak of a sum of sines of unit amplitude, at these frequencies and with Schroeder phases,
to 1 (R309, log 3). -/
opaque Config.crest : List Nat → Rat

/-- The longest list of candidate triangles over the 2,048 cells of R187, whose shape the manual does not give, from
the octets of the layout (log 8). -/
opaque Config.cells : List Byte → Nat

/-- Byte `i` of the data that an analysis has recorded when it ends within a sweep (R321): what is recorded until then is not
stated (log 172). Operation, channels, channels swept, the instant. -/
opaque Config.recorded : List Nat → Nat → BitVec 8

/-- The cross-spectrum S_yx (real and imaginary part) and S_xx averaged over the 1/24-octave band centred on a frequency (R322),
from a rate, the frequency and the pairs (y, x) recorded at it, newest first; how it is estimated is not stated (log 172). -/
opaque Config.cross : Rat → Rat → List (Rat × Rat) → Rat × Rat × Rat

/-- The weighted least-squares fit of R324 to impedance points in Ω: its parameter `i` of RE, LE, LE2, RE2, FS, QES, QMS in the
units of Table 08-1; the weights are not stated (log 172). -/
opaque Config.fit : List (Rat × Rat) → Nat → Int

/-- Sample `i` of the impulse response that the deconvolution of R327 gives, from the rate, the block length, the channel's
delay in samples, RESP_POINT and the port's input delay in ns (R344), and the recorded pairs (microphone, sweep), newest first; sample 0 is the instant at which the excitation
leaves the terminals, the port's input delay removed (log 172). -/
opaque Config.impulse : List Rat → List (Rat × Rat) → Nat → Rat

/-- The octets of a sent message whose form IEEE 1588 or RFC 2131 gives, from its kind and what it says (log 50). -/
opaque Config.octets : Nat → List Byte → List Byte

/-- The on-resistance of leg 0 or 1 of a channel at final test, in 0.01 mΩ at 25 °C (R474): a value of the unit (log 2). -/
opaque Config.ronFinal : Nat → Nat → BitVec 16

/-- The inactive level of BCLK (R350, R360), which is not stated (log 198). -/
opaque Config.bclkIdle : Bool

/-- Where between two neighbouring points a loop gain crosses its level (R328): how it is interpolated is not stated (log 195). -/
opaque Config.between : Rat → Rat → Rat

end Sys2Proof
end

