-- ==== Sys2Proof/Machine/Dict.lean ====
section
/-!
DEFINITION. Machine/Dict.lean: the rows of the object dictionary, area by area (Table 13-1), as the dictionary tables
of the manual give them: first index, number of indices, first subindex, number and stride of subindices, type,
access, P, default, range, effect. `[]` as a range is the full range of the type.
-/

namespace Sys2Proof.Machine

/-- Rows of Table 14-6 in area 0x10. -/
def Dict.rows_10_14_6 : List Row := [
  ⟨0x1000, 1, 0, 1, 1, .u8, .const, false, .num 6, [], .none⟩,  -- ident.count
  ⟨0x1000, 1, 1, 1, 1, .str, .const, false, .bytes [0x43, 0x65, 0x62, 0x65, 0x6f, 0x64, 0x20, 0x4d, 0x69, 0x63, 0x72, 0x6f, 0x73, 0x79, 0x73, 0x74, 0x65, 0x6d, 0x73], [], .none⟩,  -- ident.VENDOR
  ⟨0x1000, 1, 2, 1, 1, .str, .const, false, .bytes [0x55, 0x41, 0x34, 0x38, 0x31, 0x36], [], .none⟩,  -- ident.PRODUCT
  ⟨0x1000, 1, 3, 1, 1, .str, .const, false, .bytes [0x55, 0x41, 0x34, 0x38, 0x31, 0x36, 0x2d, 0x4c, 0x47], [], .none⟩,  -- ident.ORDER_CODE
  ⟨0x1000, 1, 4, 1, 1, .u16, .const, false, .num 0, [], .none⟩,  -- ident.SILICON_REV
  ⟨0x1000, 1, 5, 1, 1, .u64, .const, false, .num 0, [], .none⟩,  -- ident.SERIAL
  ⟨0x1000, 1, 6, 1, 1, .time, .const, false, .num 0, [], .none⟩]  -- ident.MFG_TIME

/-- Rows of Table 14-7 in area 0x10. -/
def Dict.rows_10_14_7 : List Row := [
  ⟨0x1001, 1, 0, 1, 1, .u8, .rw, false, .num 0, [(1, 4)], .block true⟩,  -- mode.MODE_REQUEST
  ⟨0x1002, 1, 0, 1, 1, .u8, .ro, false, .num 0, [], .none⟩,  -- mode.MODE_CURRENT
  ⟨0x1004, 1, 0, 1, 1, .u8, .rw, true, .num 1, [(1, 3)], .later⟩,  -- mode.START_MODE
  ⟨0x1005, 1, 0, 1, 1, .u8, .ro, false, .num 0, [], .none⟩,  -- mode.PIN_STATE
  ⟨0x1010, 1, 0, 1, 1, .u8, .ro, false, .num 0, [], .none⟩]  -- mode.UNIT_ID

/-- Rows of Table 14-8 in area 0x10. -/
def Dict.rows_10_14_8 : List Row := [
  ⟨0x1003, 1, 0, 1, 1, .u8, .const, false, .num 7, [], .none⟩,  -- rsn.count
  ⟨0x1003, 1, 1, 1, 1, .u8, .ro, false, .num 0, [], .none⟩,  -- rsn.REASON
  ⟨0x1003, 1, 2, 1, 1, .u8, .ro, false, .num 0, [], .none⟩,  -- rsn.PREV_MODE
  ⟨0x1003, 1, 3, 1, 1, .time, .ro, false, .num 0, [], .none⟩,  -- rsn.CHANGED_AT
  ⟨0x1003, 1, 4, 1, 1, .u8, .ro, false, .num 0, [], .none⟩,  -- rsn.WAIT_STATE
  ⟨0x1003, 1, 5, 1, 1, .u32, .ro, false, .num 0, [], .none⟩,  -- rsn.MODE_CHANGES
  ⟨0x1003, 1, 6, 1, 1, .u16, .ro, false, .num 0, [], .none⟩,  -- rsn.DAWN_MS
  ⟨0x1003, 1, 7, 1, 1, .u8, .ro, false, .num 0, [], .none⟩]  -- rsn.RESET_CAUSE

/-- Rows of Table 14-9 in area 0x10. -/
def Dict.rows_10_14_9 : List Row := [
  ⟨0x1009, 1, 0, 1, 1, .u8, .const, false, .num 7, [], .none⟩,  -- fw.count
  ⟨0x1009, 1, 1, 1, 1, .u32, .ro, false, .num 0, [], .none⟩,  -- fw.MGMT_VER
  ⟨0x1009, 1, 2, 1, 1, .u32, .ro, false, .num 0, [], .none⟩,  -- fw.LANE_UCODE_VER
  ⟨0x1009, 1, 3, 1, 1, .u32, .ro, false, .num 0, [], .none⟩,  -- fw.LOOP_UCODE_VER
  ⟨0x1009, 1, 4, 1, 1, .u32, .ro, false, .num 0, [], .none⟩,  -- fw.TRIM_VER
  ⟨0x1009, 1, 5, 1, 1, .u32, .const, false, .num 0, [], .none⟩,  -- fw.ROM_VER
  ⟨0x1009, 1, 6, 1, 1, .u8, .ro, false, .num 0, [], .none⟩,  -- fw.BOOT_BANK
  ⟨0x1009, 1, 7, 1, 1, .bool, .ro, false, .num 0, [], .none⟩]  -- fw.BOOT_FALLBACK

/-- Rows of Table 13-5 in area 0x11. -/
def Dict.rows_11_13_5 : List Row := [
  ⟨0x1110, 1, 0, 1, 1, .u8, .const, false, .num 6, [], .none⟩,  -- key.count
  ⟨0x1110, 1, 1, 1, 1, .blob, .wo, true, .bytes [], [(32, 32)], .acc⟩,  -- key.KEY_MONITOR
  ⟨0x1110, 1, 2, 1, 1, .blob, .wo, true, .bytes [], [(32, 32)], .acc⟩,  -- key.KEY_OPERATOR
  ⟨0x1110, 1, 3, 1, 1, .blob, .wo, true, .bytes [], [(32, 32)], .acc⟩,  -- key.KEY_ENGINEER
  ⟨0x1110, 1, 4, 1, 1, .blob, .wo, true, .bytes [], [(32, 32)], .acc⟩,  -- key.KEY_SERVICE
  ⟨0x1110, 1, 5, 1, 1, .u8, .ro, false, .num 0, [], .none⟩,  -- key.KEY_SET
  ⟨0x1110, 1, 6, 1, 1, .u8, .wo, false, .num 0, [(0, 3)], .acc⟩]  -- key.KEY_CLEAR

/-- Rows of Table 13-7 in area 0x11. -/
def Dict.rows_11_13_7 : List Row := [
  ⟨0x1100, 1, 0, 1, 1, .u8, .const, false, .num 8, [], .none⟩,  -- ses.count
  ⟨0x1100, 1, 1, 1, 1, .u8, .const, false, .num 32, [], .none⟩,  -- ses.SESSION_MAX
  ⟨0x1100, 1, 2, 1, 1, .u16, .rw, true, .num 30, [(5, 3600)], .block true⟩,  -- ses.SESSION_TIMEOUT
  ⟨0x1100, 1, 3, 1, 1, .u8, .ro, false, .num 0, [], .none⟩,  -- ses.SESSIONS_OPEN
  ⟨0x1100, 1, 4, 1, 1, .u16, .ro, false, .num 0, [], .none⟩,  -- ses.OWN_SESSION
  ⟨0x1100, 1, 5, 1, 1, .blob, .ro, false, .bytes [], [], .none⟩,  -- ses.SESSION_TABLE
  ⟨0x1100, 1, 6, 1, 1, .u32, .ro, false, .num 0, [], .none⟩,  -- ses.AUTH_FAILURES
  ⟨0x1100, 1, 7, 1, 1, .u32, .ro, false, .num 0, [], .none⟩,  -- ses.REPLAYS
  ⟨0x1100, 1, 8, 1, 1, .u32, .ro, false, .num 0, [], .none⟩]  -- ses.MALFORMED_MSGS

/-- Rows of Table 13-10 in area 0x11. -/
def Dict.rows_11_13_10 : List Row := [
  ⟨0x1140, 1, 0, 1, 1, .u8, .const, false, .num 7, [], .none⟩,  -- stg.count
  ⟨0x1140, 1, 1, 1, 1, .u32, .const, false, .num 65536, [], .none⟩,  -- stg.STAGE_LIMIT
  ⟨0x1140, 1, 2, 1, 1, .u32, .ro, false, .num 0, [], .none⟩,  -- stg.STAGE_BYTES
  ⟨0x1140, 1, 3, 1, 1, .u16, .ro, false, .num 0, [], .none⟩,  -- stg.STAGE_ITEMS
  ⟨0x1140, 1, 4, 1, 1, .time, .ro, false, .num 0, [], .none⟩,  -- stg.PENDING_TIME
  ⟨0x1140, 1, 5, 1, 1, .u8, .ro, false, .num 0, [], .none⟩,  -- stg.LAST_COMMIT_STATUS
  ⟨0x1140, 1, 6, 1, 1, .time, .ro, false, .num 0, [], .none⟩,  -- stg.LAST_COMMIT_AT
  ⟨0x1140, 1, 7, 1, 1, .u32, .ro, false, .num 0, [], .none⟩]  -- stg.LAST_COMMIT_ENTRY

/-- Rows of Table 13-11 in area 0x11. -/
def Dict.rows_11_13_11 : List Row := [
  ⟨0x1150, 1, 0, 1, 1, .u8, .const, false, .num 4, [], .none⟩,  -- area.count
  ⟨0x1150, 1, 1, 1, 1, .u8, .const, false, .num 16, [], .none⟩,  -- area.CLAIM_LIMIT
  ⟨0x1150, 1, 2, 1, 1, .blob, .ro, false, .bytes [], [], .none⟩,  -- area.CLAIM_TABLE
  ⟨0x1150, 1, 3, 1, 1, .u8, .wo, false, .num 0, [(16, 160)], .acc⟩,  -- area.RELEASE_AREA
  ⟨0x1150, 1, 4, 1, 1, .u32, .ro, false, .num 0, [], .none⟩]  -- area.CLAIM_REFUSALS

/-- Rows of Table 13-12 in area 0x11. -/
def Dict.rows_11_13_12 : List Row := [
  ⟨0x1120, 1, 0, 1, 1, .u8, .const, false, .num 5, [], .none⟩,  -- hnd.count
  ⟨0x1120, 1, 1, 1, 1, .u8, .const, false, .num 64, [], .none⟩,  -- hnd.HANDLE_LIMIT
  ⟨0x1120, 1, 2, 1, 1, .u16, .const, false, .num 60, [], .none⟩,  -- hnd.HANDLE_KEEP
  ⟨0x1120, 1, 3, 1, 1, .u8, .ro, false, .num 0, [], .none⟩,  -- hnd.HANDLES_IN_FLIGHT
  ⟨0x1120, 1, 4, 1, 1, .u16, .ro, false, .num 0, [], .none⟩,  -- hnd.LAST_HANDLE
  ⟨0x1120, 1, 5, 1, 1, .blob, .ro, false, .bytes [], [], .none⟩]  -- hnd.HANDLE_TABLE

/-- Rows of Table 13-15 in area 0x11. -/
def Dict.rows_11_13_15 : List Row := [
  ⟨0x1130, 1, 0, 1, 1, .u8, .const, false, .num 5, [], .none⟩,  -- evt.count
  ⟨0x1130, 1, 1, 1, 1, .u16, .const, false, .num 256, [], .none⟩,  -- evt.RING_SIZE
  ⟨0x1130, 1, 2, 1, 1, .blob, .ro, false, .bytes [], [], .none⟩,  -- evt.SUB_RANGES
  ⟨0x1130, 1, 3, 1, 1, .u32, .ro, false, .num 1, [], .none⟩,  -- evt.EVT_NEXT_SEQ
  ⟨0x1130, 1, 4, 1, 1, .u32, .ro, false, .num 0, [], .none⟩,  -- evt.EVT_LOST_TOTAL
  ⟨0x1130, 1, 5, 1, 1, .u32, .ro, false, .num 0, [], .none⟩]  -- evt.EVT_RAISED

/-- Rows of Table 15-3 in area 0x12. -/
def Dict.rows_12_15_3 : List Row := [
  ⟨0x1200, 1, 0, 1, 1, .u8, .const, false, .num 19, [], .none⟩,  -- sens.count
  ⟨0x1200, 1, 1, 12, 1, .s32, .ro, false, .num 0, [], .none⟩,  -- sens.T_DIE
  ⟨0x1200, 1, 13, 1, 1, .u16, .ro, false, .num 0, [], .none⟩,  -- sens.VAUX_NOW
  ⟨0x1200, 1, 14, 1, 1, .u16, .ro, false, .num 0, [], .none⟩,  -- sens.VIO33_NOW
  ⟨0x1200, 1, 15, 1, 1, .u16, .ro, false, .num 0, [], .none⟩,  -- sens.VIO18_NOW
  ⟨0x1200, 1, 16, 1, 1, .u16, .ro, false, .num 0, [], .none⟩,  -- sens.VANA_NOW
  ⟨0x1200, 1, 17, 1, 1, .u16, .ro, false, .num 0, [], .none⟩,  -- sens.VCORE_NOW
  ⟨0x1200, 1, 18, 1, 1, .u16, .ro, false, .num 0, [], .none⟩,  -- sens.SENSOR_FAULTS
  ⟨0x1200, 1, 19, 1, 1, .s32, .rw, false, .num 0, [(0, 0)], .acc⟩]  -- sens.T_DIE_PEAK

/-- Rows of Table 15-4 in area 0x12. -/
def Dict.rows_12_15_4 : List Row := [
  ⟨0x1201, 1, 0, 1, 1, .u8, .const, false, .num 7, [], .none⟩,  -- cal.count
  ⟨0x1201, 1, 1, 1, 1, .bool, .rw, true, .num 1, [(0, 1)], .block true⟩,  -- cal.CAL_AUTO
  ⟨0x1201, 1, 2, 1, 1, .u16, .rw, true, .num 24, [(1, 720)], .block true⟩,  -- cal.CAL_INTERVAL
  ⟨0x1201, 1, 3, 1, 1, .u16, .rw, true, .num 1000, [(200, 5000)], .block true⟩,  -- cal.CAL_TEMP_STEP
  ⟨0x1201, 1, 4, 1, 1, .blob, .ro, false, .bytes [], [], .none⟩,  -- cal.CAL_TABLE
  ⟨0x1201, 1, 5, 1, 1, .u32, .ro, false, .num 0, [], .none⟩,  -- cal.CAL_COUNT
  ⟨0x1201, 1, 6, 1, 1, .u32, .ro, false, .num 0, [], .none⟩,  -- cal.CAL_ABANDONED
  ⟨0x1201, 1, 7, 1, 1, .u32, .ro, false, .num 0, [], .none⟩]  -- cal.CAL_REJECTED

/-- Rows of Table 15-5 in area 0x12. -/
def Dict.rows_12_15_5 : List Row := [
  ⟨0x1250, 1, 0, 1, 1, .u8, .const, false, .num 13, [], .none⟩,  -- fan.count
  ⟨0x1250, 1, 1, 1, 1, .u8, .rw, true, .num 15, [], .block true⟩,  -- fan.FAN_PRESENT
  ⟨0x1250, 1, 2, 1, 1, .u8, .rw, true, .num 2, [(1, 4)], .block true⟩,  -- fan.FAN_PULSES
  ⟨0x1250, 1, 3, 1, 1, .u16, .rw, true, .num 500, [(100, 10000)], .block true⟩,  -- fan.FAN_MIN_RPM
  ⟨0x1250, 1, 4, 4, 1, .q31, .ro, false, .num 2147483647, [], .none⟩,  -- fan.FAN_DUTY: 100 % in BOOT (R213)
  ⟨0x1250, 1, 8, 4, 1, .u16, .ro, false, .num 0, [], .none⟩,  -- fan.FAN_RPM
  ⟨0x1250, 1, 12, 1, 1, .u8, .ro, false, .num 0, [], .none⟩,  -- fan.FAN_STALLED
  ⟨0x1250, 1, 13, 1, 1, .u32, .ro, false, .num 0, [], .none⟩]  -- fan.FAN_STALLS

/-- Rows of Table 15-7 in area 0x12. -/
def Dict.rows_12_15_7 : List Row := [
  ⟨0x1210, 1, 0, 1, 1, .u8, .const, false, .num 4, [], .none⟩,  -- log.count
  ⟨0x1210, 1, 1, 1, 1, .blob, .ro, false, .bytes [], [], .none⟩,  -- log.LOG_DATA
  ⟨0x1210, 1, 2, 1, 1, .u32, .ro, false, .num 0, [], .none⟩,  -- log.LOG_NEXT_SEQ
  ⟨0x1210, 1, 3, 1, 1, .u32, .ro, false, .num 1, [], .none⟩,  -- log.LOG_OLDEST_SEQ
  ⟨0x1210, 1, 4, 1, 1, .u32, .ro, false, .num 0, [], .none⟩]  -- log.LOG_FLUSHED

/-- Rows of Table 15-8 in area 0x12. -/
def Dict.rows_12_15_8 : List Row := [
  ⟨0x1220, 1, 0, 1, 1, .u8, .const, false, .num 32, [], .none⟩,  -- life.count
  ⟨0x1220, 1, 1, 1, 1, .u32, .ro, false, .num 0, [], .none⟩,  -- life.LT_ON_MIN
  ⟨0x1220, 1, 2, 1, 1, .u32, .ro, false, .num 0, [], .none⟩,  -- life.LT_RUN_MIN
  ⟨0x1220, 1, 3, 1, 1, .u32, .ro, false, .num 0, [], .none⟩,  -- life.LT_DAWNS
  ⟨0x1220, 1, 4, 16, 1, .u32, .ro, false, .num 0, [], .none⟩,  -- life.LT_ENERGY_CH
  ⟨0x1220, 1, 20, 4, 1, .u32, .ro, false, .num 0, [], .none⟩,  -- life.LT_TCYCLES_PG
  ⟨0x1220, 1, 24, 1, 1, .s32, .ro, false, .num 0, [], .none⟩,  -- life.LT_TJ_MEAN
  ⟨0x1220, 1, 25, 1, 1, .u32, .ro, false, .num 0, [], .none⟩,  -- life.LT_TJ_HOT_MIN
  ⟨0x1220, 1, 26, 1, 1, .u32, .ro, false, .num 0, [], .none⟩,  -- life.LT_CH_FENCES
  ⟨0x1220, 1, 27, 1, 1, .u32, .ro, false, .num 0, [], .none⟩,  -- life.LT_SHORTS
  ⟨0x1220, 1, 28, 1, 1, .u32, .ro, false, .num 0, [], .none⟩,  -- life.LT_BUS_OV
  ⟨0x1220, 1, 29, 1, 1, .u32, .ro, false, .num 0, [], .none⟩,  -- life.LT_UVLO
  ⟨0x1220, 1, 30, 1, 1, .blob, .ro, false, .bytes [], [], .none⟩,  -- life.RON_TABLE
  ⟨0x1220, 1, 31, 1, 1, .u16, .ro, false, .num 0, [], .none⟩,  -- life.RON_DRIFT_MAX
  ⟨0x1220, 1, 32, 1, 1, .u16, .rw, true, .num 300, [(50, 1000)], .later⟩]  -- life.RON_LIMIT

/-- Rows of Table 15-10 in area 0x12. -/
def Dict.rows_12_15_10 : List Row := [
  ⟨0x1240, 1, 0, 1, 1, .u8, .const, false, .num 15, [], .none⟩,  -- fence.count
  ⟨0x1240, 1, 1, 1, 1, .u16, .ro, false, .num 0, [], .none⟩,  -- fence.FENCE_TOTAL
  ⟨0x1240, 1, 2, 1, 1, .u16, .ro, false, .num 0, [], .none⟩,  -- fence.FENCED_CHANNELS
  ⟨0x1240, 1, 3, 1, 1, .u16, .ro, false, .num 0, [], .none⟩,  -- fence.FENCED_LANES
  ⟨0x1240, 1, 4, 1, 1, .u64, .ro, false, .num 0, [], .none⟩,  -- fence.FENCED_SLOTS
  ⟨0x1240, 1, 5, 1, 1, .u16, .ro, false, .num 0, [], .none⟩,  -- fence.FENCED_UNITS
  ⟨0x1240, 1, 6, 1, 1, .u64, .ro, false, .num 0, [], .none⟩,  -- fence.FENCED_STREAMS_LO
  ⟨0x1240, 1, 7, 1, 1, .u64, .ro, false, .num 0, [], .none⟩,  -- fence.FENCED_STREAMS_HI
  ⟨0x1240, 1, 8, 1, 1, .u8, .ro, false, .num 0, [], .none⟩,  -- fence.LOCKED_PEERS
  ⟨0x1240, 1, 9, 1, 1, .u8, .ro, false, .num 0, [], .none⟩,  -- fence.HS_LATCHED
  ⟨0x1240, 1, 10, 1, 1, .u32, .wo, false, .num 0, [], .acc⟩,  -- fence.FENCE_CLEAR_CMD
  ⟨0x1240, 1, 11, 1, 1, .u16, .rw, true, .num 507, [], .block true⟩,  -- fence.FAULT_MASK
  ⟨0x1240, 1, 12, 1, 1, .u16, .ro, false, .num 0, [], .none⟩,  -- fence.FAULT_NOW
  ⟨0x1240, 1, 13, 1, 1, .u32, .ro, false, .num 0, [], .none⟩,  -- fence.CLEARS
  ⟨0x1240, 1, 14, 1, 1, .u32, .ro, false, .num 0, [], .none⟩,  -- fence.DIVERGENCES
  ⟨0x1240, 1, 15, 1, 1, .u16, .ro, false, .num 0, [], .none⟩]  -- fence.DIVERGE_OPEN

/-- Rows of Table 15-11 in area 0x12. -/
def Dict.rows_12_15_11 : List Row := [
  ⟨0x1260, 1, 0, 1, 1, .u8, .const, false, .num 14, [], .none⟩,  -- hs.count
  ⟨0x1260, 1, 1, 4, 1, .u8, .ro, false, .num 0, [], .none⟩,  -- hs.HS_STATE_PG
  ⟨0x1260, 1, 5, 4, 1, .u8, .ro, false, .num 0, [], .none⟩,  -- hs.HS_FAULTS_PG
  ⟨0x1260, 1, 9, 4, 1, .u16, .ro, false, .num 0, [], .none⟩,  -- hs.HS_RAMP_PG
  ⟨0x1260, 1, 13, 1, 1, .u32, .ro, false, .num 0, [], .none⟩,  -- hs.HS_FAULT_TOTAL
  ⟨0x1260, 1, 14, 1, 1, .u8, .wo, false, .num 0, [], .acc⟩]  -- hs.HS_CLEAR

/-- Rows of Table 15-12 in area 0x12. -/
def Dict.rows_12_15_12 : List Row := [
  ⟨0x1270, 1, 0, 1, 1, .u8, .const, false, .num 3, [], .none⟩,  -- stor.count
  ⟨0x1270, 1, 1, 1, 1, .u16, .ro, false, .num 0, [], .none⟩,  -- stor.NOR_WEAR
  ⟨0x1270, 1, 2, 1, 1, .u32, .ro, false, .num 0, [], .none⟩,  -- stor.NOR_ERASES
  ⟨0x1270, 1, 3, 1, 1, .u16, .rw, true, .num 900, [(500, 1000)], .block true⟩]  -- stor.WEAR_WARN

/-- Rows of Table 15-13 in area 0x12. -/
def Dict.rows_12_15_13 : List Row := [
  ⟨0x1230, 1, 0, 1, 1, .u8, .const, false, .num 12, [], .none⟩,  -- upd.count
  ⟨0x1230, 1, 1, 1, 1, .u8, .ro, false, .num 0, [], .none⟩,  -- upd.ACTIVE_BANK
  ⟨0x1230, 1, 2, 1, 1, .u8, .ro, false, .num 0, [], .none⟩,  -- upd.RECORDED_BANK
  ⟨0x1230, 1, 3, 1, 1, .u32, .ro, false, .num 0, [], .none⟩,  -- upd.BANK_A_VER
  ⟨0x1230, 1, 4, 1, 1, .u32, .ro, false, .num 0, [], .none⟩,  -- upd.BANK_B_VER
  ⟨0x1230, 1, 5, 1, 1, .u16, .ro, false, .num 0, [], .none⟩,  -- upd.SEC_VERSION
  ⟨0x1230, 1, 6, 1, 1, .u8, .ro, false, .num 0, [], .none⟩,  -- upd.UPDATE_STATE
  ⟨0x1230, 1, 7, 1, 1, .u8, .ro, false, .num 0, [], .none⟩,  -- upd.UPDATE_PROGRESS
  ⟨0x1230, 1, 8, 1, 1, .time, .ro, false, .num 0, [], .none⟩,  -- upd.UPDATE_AT
  ⟨0x1230, 1, 9, 1, 1, .u32, .ro, false, .num 0, [], .none⟩,  -- upd.PROBATION_LEFT
  ⟨0x1230, 1, 10, 1, 1, .blob, .wo, false, .bytes [], [(0, 12582912)], .later⟩,  -- upd.UPDATE_IMAGE
  ⟨0x1230, 1, 11, 1, 1, .u8, .ro, false, .num 0, [], .none⟩,  -- upd.TRIM_PENDING
  ⟨0x1230, 1, 12, 1, 1, .bool, .wo, false, .num 0, [(0, 1)], .acc⟩]  -- upd.UPDATE_ABORT

/-- Rows of Table 03-5 in area 0x20. -/
def Dict.rows_20_03_5 : List Row := [
  ⟨0x2050, 1, 0, 1, 1, .u8, .const, false, .num 6, [], .none⟩,  -- eng.count
  ⟨0x2050, 1, 1, 1, 1, .u32, .rws, true, .num 2000000, [(500000, 20000000)], .commit⟩,  -- eng.LINK_OFFSET
  ⟨0x2050, 1, 2, 1, 1, .u16, .ro, false, .num 96, [], .none⟩,  -- eng.LINK_OFFSET_SAMPLES
  ⟨0x2050, 1, 3, 1, 1, .u16, .rw, true, .num 50, [(1, 10000)], .block true⟩,  -- eng.MALFORMED_LIMIT
  ⟨0x2050, 1, 4, 1, 1, .u16, .rw, true, .num 10, [(0, 3600)], .block true⟩,  -- eng.FENCE_RETRY
  ⟨0x2050, 1, 5, 1, 1, .u8, .rw, true, .num 4, [(1, 255)], .block true⟩,  -- eng.LOSS_BLOCKS
  ⟨0x2050, 1, 6, 1, 1, .u16, .ro, false, .num 0, [], .none⟩]  -- eng.TOTAL_CHANNELS

/-- Rows of Table 12-1 in area 0x20. -/
def Dict.rows_20_12_1 : List Row := [
  ⟨0x2000, 2, 0, 1, 1, .u8, .const, false, .num 9, [], .none⟩,  -- mac.count
  ⟨0x2000, 2, 1, 1, 1, .bool, .rw, true, .num 1, [(0, 1)], .block true⟩,  -- mac.MAC_EN
  ⟨0x2000, 2, 2, 1, 1, .u8, .rw, true, .num 0, [(0, 1)], .block true⟩,  -- mac.INTERFACE
  ⟨0x2000, 2, 3, 1, 1, .u8, .rw, true, .num 0, [(0, 31)], .block true⟩,  -- mac.PHY_ADDR
  ⟨0x2000, 2, 4, 1, 1, .u64, .ro, false, .num 0, [], .none⟩,  -- mac.MAC_ADDR
  ⟨0x2000, 2, 5, 1, 1, .u8, .ro, false, .num 0, [], .none⟩,  -- mac.LINK_STATE
  ⟨0x2000, 2, 6, 1, 1, .s16, .rw, true, .num 0, [(0, 2000)], .later⟩,  -- mac.PHY_LAT_RX
  ⟨0x2000, 2, 7, 1, 1, .s16, .rw, true, .num 0, [(-2000, 0)], .later⟩,  -- mac.PHY_LAT_TX
  ⟨0x2000, 2, 8, 1, 1, .u32, .ro, false, .num 0, [], .none⟩,  -- mac.LINK_CHANGES
  ⟨0x2000, 2, 9, 1, 1, .time, .ro, false, .num 0, [], .none⟩]  -- mac.LINK_SINCE

/-- Rows of Table 12-3 in area 0x20. -/
def Dict.rows_20_12_3 : List Row := [
  ⟨0x2020, 1, 0, 1, 1, .u8, .const, false, .num 3, [], .none⟩,  -- svc.count
  ⟨0x2020, 1, 1, 1, 1, .u16, .rw, true, .num 4042, [(1, 4094)], .block true⟩,  -- svc.SVC_VID
  ⟨0x2020, 1, 2, 1, 1, .u8, .rw, true, .num 6, [(0, 7)], .block true⟩,  -- svc.SVC_PCP
  ⟨0x2020, 1, 3, 1, 1, .bool, .ro, false, .num 1, [], .none⟩]  -- svc.SVC_ACTIVE

/-- Rows of Table 12-4 in area 0x20. -/
def Dict.rows_20_12_4 : List Row := [
  ⟨0x2060, 8, 0, 1, 1, .u8, .const, false, .num 12, [], .none⟩,  -- mon.count
  ⟨0x2060, 8, 1, 1, 1, .bool, .rws, true, .num 0, [(0, 1)], .commit⟩,  -- mon.MON_EN
  ⟨0x2060, 8, 2, 1, 1, .u8, .rws, true, .num 0, [(0, 2)], .commit⟩,  -- mon.MON_PORT
  ⟨0x2060, 8, 3, 1, 1, .u32, .rws, true, .num 0, [], .commit⟩,  -- mon.MON_DEST_ADDR
  ⟨0x2060, 8, 4, 1, 1, .u16, .rws, true, .num 5004, [(1, 65535)], .commit⟩,  -- mon.MON_DEST_PORT
  ⟨0x2060, 8, 5, 1, 1, .u8, .rws, true, .num 97, [(96, 127)], .commit⟩,  -- mon.MON_PAYLOAD_TYPE
  ⟨0x2060, 8, 6, 1, 1, .u8, .rws, true, .num 2, [(1, 16)], .commit⟩,  -- mon.MON_CHANNELS
  ⟨0x2060, 8, 7, 1, 1, .u8, .rws, true, .num 1, [(0, 3)], .commit⟩,  -- mon.MON_PTIME
  ⟨0x2060, 8, 8, 1, 1, .u32, .rws, true, .num 0, [], .commit⟩,  -- mon.MON_RTP_OFFSET
  ⟨0x2060, 8, 9, 1, 1, .u32, .rws, true, .num 0, [], .commit⟩,  -- mon.MON_SSRC
  ⟨0x2060, 8, 10, 1, 1, .blob, .rws, true, .bytes [], [(0, 64)], .commit⟩,  -- mon.MON_MAP
  ⟨0x2060, 8, 11, 1, 1, .u32, .ro, false, .num 0, [], .none⟩,  -- mon.MON_PACKETS
  ⟨0x2060, 8, 12, 1, 1, .u32, .ro, false, .num 0, [], .none⟩]  -- mon.MON_DROPS

/-- Rows of Table 12-5 in area 0x20. -/
def Dict.rows_20_12_5 : List Row := [
  ⟨0x2040, 1, 0, 1, 1, .u8, .const, false, .num 6, [], .none⟩,  -- mc.count
  ⟨0x2040, 1, 1, 1, 1, .u16, .ro, false, .num 0, [], .none⟩,  -- mc.EXACT_USED
  ⟨0x2040, 1, 2, 1, 1, .u16, .ro, false, .num 0, [], .none⟩,  -- mc.HASH_BINS_USED
  ⟨0x2040, 1, 3, 1, 1, .u16, .ro, false, .num 0, [], .none⟩,  -- mc.GROUPS
  ⟨0x2040, 1, 4, 1, 1, .u32, .ro, false, .num 0, [], .none⟩,  -- mc.HASH_REJECTS
  ⟨0x2040, 1, 5, 1, 1, .u8, .ro, false, .num 3, [], .none⟩,  -- mc.IGMP_MODE_N0
  ⟨0x2040, 1, 6, 1, 1, .u8, .ro, false, .num 3, [], .none⟩]  -- mc.IGMP_MODE_N1

/-- Rows of Table 12-7 in area 0x20. -/
def Dict.rows_20_12_7 : List Row := [
  ⟨0x2010, 1, 0, 1, 1, .u8, .const, false, .num 16, [], .none⟩,  -- ip.count
  ⟨0x2010, 1, 1, 2, 1, .u8, .rw, true, .num 1, [(0, 2)], .block true⟩,  -- ip.IP_MODE_N
  ⟨0x2010, 1, 3, 2, 1, .u32, .rw, true, .num 0, [], .block true⟩,  -- ip.STATIC_ADDR_N
  ⟨0x2010, 1, 5, 2, 1, .u8, .rw, true, .num 24, [(1, 30)], .block true⟩,  -- ip.STATIC_PREFIX_N
  ⟨0x2010, 1, 7, 2, 1, .u32, .rw, true, .num 0, [], .block true⟩,  -- ip.GATEWAY_N
  ⟨0x2010, 1, 9, 2, 1, .u32, .ro, false, .num 0, [], .none⟩,  -- ip.ADDR_NOW_N
  ⟨0x2010, 1, 11, 2, 1, .u8, .ro, false, .num 0, [], .none⟩,  -- ip.PREFIX_NOW_N
  ⟨0x2010, 1, 13, 2, 1, .u8, .ro, false, .num 0, [], .none⟩,  -- ip.ADDR_SOURCE_N
  ⟨0x2010, 1, 15, 1, 1, .u16, .rw, true, .num 10, [(2, 300)], .block true⟩,  -- ip.DHCP_FALLBACK
  ⟨0x2010, 1, 16, 1, 1, .u32, .ro, false, .num 0, [], .none⟩]  -- ip.ADDR_CONFLICTS

/-- Rows of Table 12-8 in area 0x20. -/
def Dict.rows_20_12_8 : List Row := [
  ⟨0x2030, 2, 0, 1, 1, .u8, .const, false, .num 15, [], .none⟩,  -- net.count
  ⟨0x2030, 2, 1, 1, 1, .u32, .ro, false, .num 0, [], .none⟩,  -- net.RX_FRAMES
  ⟨0x2030, 2, 2, 1, 1, .u32, .ro, false, .num 0, [], .none⟩,  -- net.RX_FCS_ERR
  ⟨0x2030, 2, 3, 1, 1, .u32, .ro, false, .num 0, [], .none⟩,  -- net.RX_RUNT
  ⟨0x2030, 2, 4, 1, 1, .u32, .ro, false, .num 0, [], .none⟩,  -- net.RX_OVERSIZE
  ⟨0x2030, 2, 5, 1, 1, .u32, .ro, false, .num 0, [], .none⟩,  -- net.RX_CONTROL
  ⟨0x2030, 2, 6, 1, 1, .u32, .ro, false, .num 0, [], .none⟩,  -- net.RX_VLAN_DROP
  ⟨0x2030, 2, 7, 1, 1, .u32, .ro, false, .num 0, [], .none⟩,  -- net.RX_FILTERED
  ⟨0x2030, 2, 8, 1, 1, .u32, .ro, false, .num 0, [], .none⟩,  -- net.RX_NOBUF
  ⟨0x2030, 2, 9, 1, 1, .u32, .ro, false, .num 0, [], .none⟩,  -- net.RX_NOBUF_TRUNC
  ⟨0x2030, 2, 10, 1, 1, .u32, .ro, false, .num 0, [], .none⟩,  -- net.RX_FRAGMENTS
  ⟨0x2030, 2, 11, 1, 1, .u32, .ro, false, .num 0, [], .none⟩,  -- net.RX_PTP_EVENT
  ⟨0x2030, 2, 12, 1, 1, .u32, .ro, false, .num 0, [], .none⟩,  -- net.TX_FRAMES
  ⟨0x2030, 2, 13, 1, 1, .u32, .ro, false, .num 0, [], .none⟩,  -- net.TX_PTP_EVENT
  ⟨0x2030, 2, 14, 1, 1, .u32, .ro, false, .num 0, [], .none⟩,  -- net.TX_BYTES
  ⟨0x2030, 2, 15, 1, 1, .bool, .wo, false, .num 0, [(0, 1)], .acc⟩]  -- net.NET_CLEAR

/-- Rows of Table 12-9 in area 0x20. -/
def Dict.rows_20_12_9 : List Row := [
  ⟨0x2080, 1, 0, 1, 1, .u8, .const, false, .num 13, [], .none⟩,  -- can.count
  ⟨0x2080, 1, 1, 1, 1, .bool, .rw, true, .num 0, [(0, 1)], .block true⟩,  -- can.CAN_EN
  ⟨0x2080, 1, 2, 1, 1, .u32, .rw, true, .num 500000, [(125000, 125000), (250000, 250000), (500000, 500000), (1000000, 1000000)], .block true⟩,  -- can.CAN_NOM_RATE
  ⟨0x2080, 1, 3, 1, 1, .u32, .rw, true, .num 2000000, [(1000000, 1000000), (2000000, 2000000), (4000000, 4000000), (5000000, 5000000)], .block true⟩,  -- can.CAN_DATA_RATE
  ⟨0x2080, 1, 4, 1, 1, .u8, .rw, true, .num 80, [(60, 90)], .block true⟩,  -- can.CAN_NOM_SP
  ⟨0x2080, 1, 5, 1, 1, .u8, .rw, true, .num 75, [(60, 90)], .block true⟩,  -- can.CAN_DATA_SP
  ⟨0x2080, 1, 6, 1, 1, .u8, .ro, false, .num 0, [], .none⟩,  -- can.CAN_NODE
  ⟨0x2080, 1, 7, 1, 1, .u8, .ro, false, .num 0, [], .none⟩,  -- can.CAN_STATE
  ⟨0x2080, 1, 8, 1, 1, .u8, .ro, false, .num 0, [], .none⟩,  -- can.CAN_TEC
  ⟨0x2080, 1, 9, 1, 1, .u8, .ro, false, .num 0, [], .none⟩,  -- can.CAN_REC
  ⟨0x2080, 1, 10, 1, 1, .u32, .ro, false, .num 0, [], .none⟩,  -- can.BUS_OFF_COUNT
  ⟨0x2080, 1, 11, 1, 1, .u32, .ro, false, .num 0, [], .none⟩,  -- can.REASM_DISCARDS
  ⟨0x2080, 1, 12, 1, 1, .u32, .ro, false, .num 0, [], .none⟩,  -- can.CAN_RX_MSGS
  ⟨0x2080, 1, 13, 1, 1, .u32, .ro, false, .num 0, [], .none⟩]  -- can.CAN_TX_MSGS

/-- Rows of Table 03-1 in area 0x21. -/
def Dict.rows_21_03_1 : List Row := [
  ⟨0x2100, 128, 0, 1, 1, .u8, .const, false, .num 14, [], .none⟩,  -- sub.count
  ⟨0x2100, 128, 1, 1, 1, .bool, .rws, true, .num 0, [(0, 1)], .commit⟩,  -- sub.ENABLE
  ⟨0x2100, 128, 2, 1, 1, .u8, .rws, true, .num 0, [(0, 1)], .commit⟩,  -- sub.KIND
  ⟨0x2100, 128, 3, 1, 1, .u8, .rws, true, .num 0, [(0, 1)], .commit⟩,  -- sub.ENCODING
  ⟨0x2100, 128, 4, 1, 1, .u32, .rws, true, .num 0, [], .commit⟩,  -- sub.DEST_ADDR
  ⟨0x2100, 128, 5, 1, 1, .u16, .rws, true, .num 5004, [(1, 65535)], .commit⟩,  -- sub.DEST_PORT
  ⟨0x2100, 128, 6, 1, 1, .u32, .rws, true, .num 0, [], .commit⟩,  -- sub.SOURCE_ADDR
  ⟨0x2100, 128, 7, 1, 1, .u8, .rws, true, .num 0, [(0, 1)], .commit⟩,  -- sub.PORT
  ⟨0x2100, 128, 8, 1, 1, .u8, .rws, true, .num 255, [(0, 127), (255, 255)], .commit⟩,  -- sub.PAIR
  ⟨0x2100, 128, 9, 1, 1, .u8, .rws, true, .num 96, [(96, 127)], .commit⟩,  -- sub.PAYLOAD_TYPE
  ⟨0x2100, 128, 10, 1, 1, .u8, .rws, true, .num 2, [(1, 64)], .commit⟩,  -- sub.CHANNELS
  ⟨0x2100, 128, 11, 1, 1, .u8, .rws, true, .num 0, [(0, 3)], .commit⟩,  -- sub.PTIME
  ⟨0x2100, 128, 12, 1, 1, .u32, .rws, true, .num 0, [], .commit⟩,  -- sub.RTP_OFFSET
  ⟨0x2100, 128, 13, 1, 1, .u16, .rws, true, .num 0, [(0, 4095)], .commit⟩,  -- sub.OBJ_FIRST
  ⟨0x2100, 128, 14, 1, 1, .u16, .rws, true, .num 32, [(1, 512)], .commit⟩]  -- sub.OBJ_COUNT

/-- Rows of Table 03-10 in area 0x21. -/
def Dict.rows_21_03_10 : List Row := [
  ⟨0x2180, 128, 0, 1, 1, .u8, .const, false, .num 20, [], .none⟩,  -- st.count
  ⟨0x2180, 128, 1, 1, 1, .u8, .ro, false, .num 0, [], .none⟩,  -- st.STREAM_STATE
  ⟨0x2180, 128, 2, 1, 1, .u32, .ro, false, .num 0, [], .none⟩,  -- st.RX_PACKETS
  ⟨0x2180, 128, 3, 1, 1, .u32, .ro, false, .num 0, [], .none⟩,  -- st.VALID
  ⟨0x2180, 128, 4, 1, 1, .u32, .ro, false, .num 0, [], .none⟩,  -- st.EARLY
  ⟨0x2180, 128, 5, 1, 1, .u32, .ro, false, .num 0, [], .none⟩,  -- st.LATE
  ⟨0x2180, 128, 6, 1, 1, .u32, .ro, false, .num 0, [], .none⟩,  -- st.DUPLICATE
  ⟨0x2180, 128, 7, 1, 1, .u32, .ro, false, .num 0, [], .none⟩,  -- st.MALFORMED
  ⟨0x2180, 128, 8, 1, 1, .u32, .ro, false, .num 0, [], .none⟩,  -- st.LATE_SAMPLES
  ⟨0x2180, 128, 9, 1, 1, .u32, .ro, false, .num 0, [], .none⟩,  -- st.MISSING_SAMPLES
  ⟨0x2180, 128, 10, 1, 1, .s32, .ro, false, .num 0, [], .none⟩,  -- st.MIN_MARGIN
  ⟨0x2180, 128, 11, 1, 1, .u8, .ro, false, .num 0, [], .none⟩,  -- st.PATH_STATE
  ⟨0x2180, 128, 12, 1, 1, .s32, .ro, false, .num 0, [], .none⟩,  -- st.PATH_DIFF
  ⟨0x2180, 128, 13, 1, 1, .u32, .ro, false, .num 0, [], .none⟩,  -- st.SSRC
  ⟨0x2180, 128, 14, 1, 1, .u32, .ro, false, .num 0, [], .none⟩,  -- st.SSRC_CHANGES
  ⟨0x2180, 128, 15, 1, 1, .u8, .ro, false, .num 0, [], .none⟩,  -- st.LAST_MALFORMED
  ⟨0x2180, 128, 16, 1, 1, .u32, .ro, false, .num 0, [], .none⟩,  -- st.FENCE_COUNT
  ⟨0x2180, 128, 17, 1, 1, .u32, .ro, false, .num 0, [], .none⟩,  -- st.FOREIGN_OBJ_PKTS
  ⟨0x2180, 128, 18, 1, 1, .u16, .ro, false, .num 0, [], .none⟩,  -- st.LAST_SCENE_SEQ
  ⟨0x2180, 128, 19, 1, 1, .bool, .wo, false, .num 0, [(0, 1)], .acc⟩,  -- st.CLEAR
  ⟨0x2180, 128, 20, 1, 1, .bool, .wo, false, .num 0, [(0, 1)], .acc⟩]  -- st.FENCE_CLEAR

/-- Rows of Table 02-3 in area 0x30. -/
def Dict.rows_30_02_3 : List Row := [
  ⟨0x3010, 1, 0, 1, 1, .u8, .const, false, .num 6, [], .none⟩,  -- ref.count
  ⟨0x3010, 1, 1, 1, 1, .u8, .rw, true, .num 1, [(0, 3)], .block true⟩,  -- ref.REF_SOURCE
  ⟨0x3010, 1, 2, 1, 1, .u8, .rw, true, .num 0, [(0, 3)], .block true⟩,  -- ref.REF_DOMAIN
  ⟨0x3010, 1, 3, 1, 1, .time, .wo, false, .num 0, [], .later⟩,  -- ref.TOD_SET
  ⟨0x3010, 1, 4, 1, 1, .bool, .rw, true, .num 0, [(0, 1)], .block true⟩,  -- ref.WCLK_OUT_EN
  ⟨0x3010, 1, 5, 1, 1, .bool, .rw, true, .num 0, [(0, 1)], .block true⟩,  -- ref.PPS_OUT_EN
  ⟨0x3010, 1, 6, 1, 1, .u8, .rw, true, .num 0, [(0, 2)], .block true⟩]  -- ref.MCLKO_SEL

/-- Rows of Table 02-4 in area 0x30. -/
def Dict.rows_30_02_4 : List Row := [
  ⟨0x3000, 1, 0, 1, 1, .u8, .const, false, .num 11, [], .none⟩,  -- mtb.count
  ⟨0x3000, 1, 1, 1, 1, .time, .ro, false, .num 0, [], .none⟩,  -- mtb.MEDIA_TIME
  ⟨0x3000, 1, 2, 1, 1, .u64, .ro, false, .num 0, [], .none⟩,  -- mtb.MTB_COUNT
  ⟨0x3000, 1, 3, 1, 1, .u32, .ro, false, .num 0, [], .none⟩,  -- mtb.MTB_FRAC
  ⟨0x3000, 1, 4, 1, 1, .s64, .ro, false, .num 0, [], .none⟩,  -- mtb.EPOCH_OFFSET
  ⟨0x3000, 1, 5, 1, 1, .inc40, .rwo, false, .num 43690666667, [(43668821334, 43712512000)], .later⟩,  -- mtb.INC
  ⟨0x3000, 1, 6, 1, 1, .inc40, .const, false, .num 43690666667, [], .none⟩,  -- mtb.INC_NOM
  ⟨0x3000, 1, 7, 1, 1, .s32, .ro, false, .num 0, [], .none⟩,  -- mtb.FREQ_ADJ
  ⟨0x3000, 1, 8, 1, 1, .u8, .rws, true, .num 0, [(0, 1)], .commit⟩,  -- mtb.FS_SELECT
  ⟨0x3000, 1, 9, 1, 1, .u64, .ro, false, .num 0, [], .none⟩,  -- mtb.SAMPLE_INDEX
  ⟨0x3000, 1, 10, 1, 1, .s16, .ro, false, .num 0, [], .none⟩,  -- mtb.SAMPLE_PHASE_ERR
  ⟨0x3000, 1, 11, 1, 1, .u32, .ro, false, .num 0, [], .none⟩]  -- mtb.REANCHOR_COUNT

/-- Rows of Table 02-6 in area 0x30. -/
def Dict.rows_30_02_6 : List Row := [
  ⟨0x3020, 1, 0, 1, 1, .u8, .const, false, .num 7, [], .none⟩,  -- snap.count
  ⟨0x3020, 1, 1, 1, 1, .bool, .wo, false, .num 0, [(0, 1)], .acc⟩,  -- snap.SNAP_REQ
  ⟨0x3020, 1, 2, 1, 1, .time, .ro, false, .num 0, [], .none⟩,  -- snap.SNAP_MTB
  ⟨0x3020, 1, 3, 4, 1, .time, .ro, false, .num 0, [], .none⟩,  -- snap.SNAP_DTB
  ⟨0x3020, 1, 7, 1, 1, .u32, .ro, false, .num 0, [], .none⟩]  -- snap.SNAP_COUNT

/-- Rows of Table 02-8 in area 0x30. -/
def Dict.rows_30_02_8 : List Row := [
  ⟨0x3011, 1, 0, 1, 1, .u8, .const, false, .num 8, [], .none⟩,  -- servo.count
  ⟨0x3011, 1, 1, 1, 1, .u16, .rw, true, .num 100, [(10, 1000)], .later⟩,  -- servo.SERVO_BW
  ⟨0x3011, 1, 2, 1, 1, .u32, .rw, true, .num 2000, [(200, 1000000)], .later⟩,  -- servo.OUTLIER_LIMIT
  ⟨0x3011, 1, 3, 1, 1, .u8, .rw, true, .num 3, [(2, 16)], .later⟩,  -- servo.STEP_CONFIRM
  ⟨0x3011, 1, 4, 1, 1, .u16, .rw, true, .num 100, [(0, 500)], .later⟩,  -- servo.SNAP_COMP
  ⟨0x3011, 1, 5, 1, 1, .s64, .ro, false, .num 0, [], .none⟩,  -- servo.OFFSET
  ⟨0x3011, 1, 6, 1, 1, .s64, .ro, false, .num 0, [], .none⟩,  -- servo.SLEW_REMAINING
  ⟨0x3011, 1, 7, 1, 1, .u32, .ro, false, .num 0, [], .none⟩,  -- servo.OUTLIER_COUNT
  ⟨0x3011, 1, 8, 1, 1, .time, .ro, false, .num 0, [], .none⟩]  -- servo.LAST_MEASURE

/-- Rows of Table 02-9 in area 0x30. -/
def Dict.rows_30_02_9 : List Row := [
  ⟨0x3012, 1, 0, 1, 1, .u8, .const, false, .num 4, [], .none⟩,  -- lock.count
  ⟨0x3012, 1, 1, 1, 1, .u8, .ro, false, .num 0, [], .none⟩,  -- lock.LOCK_STATE
  ⟨0x3012, 1, 2, 1, 1, .time, .ro, false, .num 0, [], .none⟩,  -- lock.LOCK_SINCE
  ⟨0x3012, 1, 3, 1, 1, .u32, .ro, false, .num 0, [], .none⟩,  -- lock.LOCK_LOSS_COUNT
  ⟨0x3012, 1, 4, 1, 1, .u8, .ro, false, .num 1, [], .none⟩]  -- lock.SOURCE_STATE

/-- Rows of Table 02-12 in area 0x30. -/
def Dict.rows_30_02_12 : List Row := [
  ⟨0x3030, 1, 0, 1, 1, .u8, .const, false, .num 5, [], .none⟩,  -- hold.count
  ⟨0x3030, 1, 1, 1, 1, .u16, .rw, true, .num 60, [(0, 3600)], .block true⟩,  -- hold.HOLDOVER_MAX
  ⟨0x3030, 1, 2, 1, 1, .u32, .ro, false, .num 0, [], .none⟩,  -- hold.HOLDOVER_ELAPSED
  ⟨0x3030, 1, 3, 1, 1, .inc40, .ro, false, .num 43690666667, [], .none⟩,  -- hold.INC_HELD
  ⟨0x3030, 1, 4, 1, 1, .time, .ro, false, .num 0, [], .none⟩,  -- hold.LOSS_TIME
  ⟨0x3030, 1, 5, 1, 1, .u32, .ro, false, .num 0, [], .none⟩]  -- hold.HOLDOVER_COUNT

/-- Rows of Table 02-13 in area 0x30. -/
def Dict.rows_30_02_13 : List Row := [
  ⟨0x3001, 4, 0, 1, 1, .u8, .const, false, .num 11, [], .none⟩,  -- dtb.count
  ⟨0x3001, 4, 1, 1, 1, .u8, .rw, true, .num 0, [(0, 127), (255, 255)], .block true⟩,  -- dtb.DOMAIN_NUMBER
  ⟨0x3001, 4, 2, 1, 1, .u8, .rw, true, .num 0, [(0, 2)], .block true⟩,  -- dtb.PROFILE
  ⟨0x3001, 4, 3, 1, 1, .u8, .rw, true, .num 0, [(0, 1)], .block true⟩,  -- dtb.DELAY_MECH
  ⟨0x3001, 4, 4, 1, 1, .u8, .rw, true, .num 0, [(0, 2)], .block true⟩,  -- dtb.PTP_PORT
  ⟨0x3001, 4, 5, 1, 1, .time, .ro, false, .num 0, [], .none⟩,  -- dtb.DOMAIN_TIME
  ⟨0x3001, 4, 6, 1, 1, .inc40, .ro, false, .num 43690666667, [], .none⟩,  -- dtb.DTB_INC
  ⟨0x3001, 4, 7, 1, 1, .s64, .ro, false, .num 0, [], .none⟩,  -- dtb.DTB_OFFSET
  ⟨0x3001, 4, 8, 1, 1, .u32, .ro, false, .num 0, [], .none⟩,  -- dtb.PATH_DELAY
  ⟨0x3001, 4, 9, 1, 1, .u64, .ro, false, .num 0, [], .none⟩,  -- dtb.GM_IDENTITY
  ⟨0x3001, 4, 10, 1, 1, .u8, .ro, false, .num 0, [], .none⟩,  -- dtb.DOMAIN_LOCK
  ⟨0x3001, 4, 11, 1, 1, .u32, .ro, false, .num 0, [], .none⟩]  -- dtb.STEP_COUNT

/-- Rows of Table 02-15 in area 0x31. -/
def Dict.rows_31_02_15 : List Row := [
  ⟨0x3100, 64, 0, 1, 1, .u8, .const, false, .num 10, [], .none⟩,  -- act.count
  ⟨0x3100, 64, 1, 1, 1, .u8, .rw, false, .num 0, [(0, 5)], .block true⟩,  -- act.ACT_KIND
  ⟨0x3100, 64, 2, 1, 1, .time, .rw, false, .num 0, [], .block true⟩,  -- act.ACT_TIME
  ⟨0x3100, 64, 3, 1, 1, .bool, .rw, false, .num 0, [(0, 1)], .block true⟩,  -- act.ACT_STRICT
  ⟨0x3100, 64, 4, 1, 1, .u16, .rw, false, .num 0, [], .block true⟩,  -- act.ACT_TARGET
  ⟨0x3100, 64, 5, 1, 1, .u8, .rw, false, .num 0, [], .block true⟩,  -- act.ACT_SUB
  ⟨0x3100, 64, 6, 1, 1, .u64, .rw, false, .num 0, [], .block true⟩,  -- act.ACT_VALUE
  ⟨0x3100, 64, 7, 1, 1, .u8, .rw, false, .num 0, [(0, 1)], .block true⟩,  -- act.ACT_STATE
  ⟨0x3100, 64, 8, 1, 1, .u8, .ro, false, .num 0, [], .none⟩,  -- act.ACT_STATUS
  ⟨0x3100, 64, 9, 1, 1, .time, .ro, false, .num 0, [], .none⟩,  -- act.ACT_EXEC_TIME
  ⟨0x3100, 64, 10, 1, 1, .u64, .ro, false, .num 0, [], .none⟩]  -- act.ACT_LATENESS

/-- Rows of Table 02-17 in area 0x31. -/
def Dict.rows_31_02_17 : List Row := [
  ⟨0x3140, 8, 0, 1, 1, .u8, .const, false, .num 8, [], .none⟩,  -- sg.count
  ⟨0x3140, 8, 1, 1, 1, .u8, .rw, false, .num 0, [(0, 1)], .block true⟩,  -- sg.SG_STATE
  ⟨0x3140, 8, 2, 1, 1, .u8, .rw, false, .num 0, [(0, 1)], .block true⟩,  -- sg.SG_TRIGGER
  ⟨0x3140, 8, 3, 1, 1, .u8, .rw, false, .num 0, [(0, 7)], .block true⟩,  -- sg.SG_GPIO
  ⟨0x3140, 8, 4, 1, 1, .u8, .rw, false, .num 0, [(0, 1)], .block true⟩,  -- sg.SG_EDGE
  ⟨0x3140, 8, 5, 1, 1, .time, .wo, false, .num 0, [], .block true⟩,  -- sg.SG_GO
  ⟨0x3140, 8, 6, 1, 1, .time, .ro, false, .num 0, [], .none⟩,  -- sg.SG_START_TIME
  ⟨0x3140, 8, 7, 1, 1, .u64, .ro, false, .num 0, [], .none⟩,  -- sg.SG_START_SAMPLE
  ⟨0x3140, 8, 8, 1, 1, .u16, .ro, false, .num 0, [], .none⟩]  -- sg.SG_MEMBERS

/-- Rows of Table 11-6 in area 0x40. -/
def Dict.rows_40_11_6 : List Row := [
  ⟨0x4000, 4, 0, 1, 1, .u8, .const, false, .num 23, [], .none⟩,  -- tdm.count
  ⟨0x4000, 4, 1, 1, 1, .bool, .rws, true, .num 0, [(0, 1)], .commit⟩,  -- tdm.PORT_EN
  ⟨0x4000, 4, 2, 1, 1, .u8, .rws, true, .num 0, [(0, 1)], .commit⟩,  -- tdm.DIR
  ⟨0x4000, 4, 3, 1, 1, .u8, .rws, true, .num 0, [(0, 1)], .commit⟩,  -- tdm.ROLE
  ⟨0x4000, 4, 4, 1, 1, .u8, .rws, true, .num 8, [(1, 32)], .commit⟩,  -- tdm.SLOTS
  ⟨0x4000, 4, 5, 1, 1, .u8, .rws, true, .num 32, [(16, 16), (24, 24), (32, 32)], .commit⟩,  -- tdm.SLOT_WIDTH
  ⟨0x4000, 4, 6, 1, 1, .u8, .rws, true, .num 24, [(16, 16), (24, 24)], .commit⟩,  -- tdm.DATA_BITS
  ⟨0x4000, 4, 7, 1, 1, .u8, .rws, true, .num 0, [(0, 1)], .commit⟩,  -- tdm.JUSTIFY
  ⟨0x4000, 4, 8, 1, 1, .u8, .rws, true, .num 1, [(0, 31)], .commit⟩,  -- tdm.SLOT_OFFSET
  ⟨0x4000, 4, 9, 1, 1, .u8, .rws, true, .num 0, [(0, 1)], .commit⟩,  -- tdm.FSYNC_WIDTH
  ⟨0x4000, 4, 10, 1, 1, .u8, .rws, true, .num 0, [(0, 1)], .commit⟩,  -- tdm.FSYNC_POL
  ⟨0x4000, 4, 11, 1, 1, .u8, .rws, true, .num 0, [(0, 1)], .commit⟩,  -- tdm.BCLK_EDGE
  ⟨0x4000, 4, 12, 1, 1, .u8, .rw, true, .num 0, [(0, 1)], .block true⟩,  -- tdm.OUT_IDLE
  ⟨0x4000, 4, 13, 1, 1, .u8, .rws, true, .num 255, [(0, 7), (255, 255)], .commit⟩,  -- tdm.PORT_SG
  ⟨0x4000, 4, 14, 1, 1, .u8, .ro, false, .num 0, [], .none⟩,  -- tdm.PORT_STATE
  ⟨0x4000, 4, 15, 1, 1, .time, .wo, false, .num 0, [], .acc⟩,  -- tdm.PAUSE_AT
  ⟨0x4000, 4, 16, 1, 1, .time, .wo, false, .num 0, [], .acc⟩,  -- tdm.RESUME_AT
  ⟨0x4000, 4, 17, 1, 1, .u32, .ro, false, .num 0, [], .none⟩,  -- tdm.BCLK_HZ
  ⟨0x4000, 4, 18, 1, 1, .s32, .ro, false, .num 0, [], .none⟩,  -- tdm.RATE_PPM
  ⟨0x4000, 4, 19, 1, 1, .u32, .ro, false, .num 0, [], .none⟩,  -- tdm.IN_DELAY
  ⟨0x4000, 4, 20, 1, 1, .u32, .ro, false, .num 0, [], .none⟩,  -- tdm.OUT_DELAY
  ⟨0x4000, 4, 21, 1, 1, .u8, .ro, false, .num 0, [], .none⟩,  -- tdm.FIFO_FILL
  ⟨0x4000, 4, 22, 1, 1, .u32, .ro, false, .num 0, [], .none⟩,  -- tdm.FORMAT_ERRORS
  ⟨0x4000, 4, 23, 1, 1, .u8, .ro, false, .num 0, [], .none⟩]  -- tdm.FENCE_CAUSE

/-- Rows of Table 11-7 in area 0x40. -/
def Dict.rows_40_11_7 : List Row := [
  ⟨0x4010, 4, 0, 1, 1, .u8, .const, false, .num 36, [], .none⟩,  -- tmap.count
  ⟨0x4010, 4, 1, 1, 1, .u32, .rws, true, .num 255, [], .commit⟩,  -- tmap.SLOT_MASK
  ⟨0x4010, 4, 2, 32, 1, .u32, .rws, true, .num 0, [], .commit⟩,  -- tmap.SLOT_MAP
  ⟨0x4010, 4, 34, 1, 1, .u32, .ro, false, .num 255, [], .none⟩,  -- tmap.MASK_ACTIVE
  ⟨0x4010, 4, 35, 1, 1, .time, .ro, false, .num 0, [], .none⟩,  -- tmap.MASK_FRAME
  ⟨0x4010, 4, 36, 1, 1, .bool, .wo, false, .num 0, [(0, 1)], .acc⟩]  -- tmap.FENCE_CLEAR

/-- Rows of Table 11-8 in area 0x40. -/
def Dict.rows_40_11_8 : List Row := [
  ⟨0x4020, 2, 0, 1, 1, .u8, .const, false, .num 17, [], .none⟩,  -- aes.count
  ⟨0x4020, 2, 1, 1, 1, .bool, .rw, true, .num 0, [(0, 1)], .block true⟩,  -- aes.AES_EN
  ⟨0x4020, 2, 2, 1, 1, .u8, .rw, true, .num 1, [(0, 2)], .block true⟩,  -- aes.VALIDITY_POLICY
  ⟨0x4020, 2, 3, 1, 1, .u8, .rw, true, .num 0, [(0, 2)], .block true⟩,  -- aes.WORD_LEN
  ⟨0x4020, 2, 4, 1, 1, .u8, .ro, false, .num 0, [], .none⟩,  -- aes.RX_STATE
  ⟨0x4020, 2, 5, 1, 1, .s32, .ro, false, .num 0, [], .none⟩,  -- aes.RATE_PPM
  ⟨0x4020, 2, 6, 1, 1, .bool, .ro, false, .num 0, [], .none⟩,  -- aes.CONSUMER
  ⟨0x4020, 2, 7, 1, 1, .blob, .ro, false, .bytes (List.replicate 24 0), [], .none⟩,  -- aes.CS_SUB0
  ⟨0x4020, 2, 8, 1, 1, .blob, .ro, false, .bytes (List.replicate 24 0), [], .none⟩,  -- aes.CS_SUB1
  ⟨0x4020, 2, 9, 1, 1, .u32, .ro, false, .num 0, [], .none⟩,  -- aes.CS_CHANGES
  ⟨0x4020, 2, 10, 1, 1, .u32, .ro, false, .num 0, [], .none⟩,  -- aes.PARITY_ERRORS
  ⟨0x4020, 2, 11, 1, 1, .u32, .ro, false, .num 0, [], .none⟩,  -- aes.CODE_ERRORS
  ⟨0x4020, 2, 12, 1, 1, .u32, .ro, false, .num 0, [], .none⟩,  -- aes.CRCC_ERRORS
  ⟨0x4020, 2, 13, 1, 1, .u32, .ro, false, .num 0, [], .none⟩,  -- aes.INVALID_SAMPLES
  ⟨0x4020, 2, 14, 1, 1, .u32, .ro, false, .num 0, [], .none⟩,  -- aes.IN_DELAY
  ⟨0x4020, 2, 15, 1, 1, .u8, .ro, false, .num 0, [], .none⟩,  -- aes.FIFO_FILL
  ⟨0x4020, 2, 16, 1, 1, .u8, .ro, false, .num 0, [], .none⟩,  -- aes.FENCE_CAUSE
  ⟨0x4020, 2, 17, 1, 1, .bool, .wo, false, .num 0, [(0, 1)], .acc⟩]  -- aes.FENCE_CLEAR

/-- Rows of Table 11-9 in area 0x40. -/
def Dict.rows_40_11_9 : List Row := [
  ⟨0x4022, 1, 0, 1, 1, .u8, .const, false, .num 6, [], .none⟩,  -- aout.count
  ⟨0x4022, 1, 1, 1, 1, .bool, .rw, true, .num 0, [(0, 1)], .block true⟩,  -- aout.AOUT_EN
  ⟨0x4022, 1, 2, 1, 1, .u32, .rw, true, .num 0, [], .block true⟩,  -- aout.AOUT_MAP0
  ⟨0x4022, 1, 3, 1, 1, .u32, .rw, true, .num 0, [], .block true⟩,  -- aout.AOUT_MAP1
  ⟨0x4022, 1, 4, 1, 1, .u8, .rw, true, .num 0, [(0, 1)], .later⟩,  -- aout.AOUT_CS_MODE
  ⟨0x4022, 1, 5, 1, 1, .blob, .rw, true, .bytes (List.replicate 24 0), [(24, 24)], .block false⟩,  -- aout.AOUT_CS
  ⟨0x4022, 1, 6, 1, 1, .u8, .ro, false, .num 0, [], .none⟩]  -- aout.AOUT_STATE

/-- Rows of Table 11-10 in area 0x40. -/
def Dict.rows_40_11_10 : List Row := [
  ⟨0x4030, 1, 0, 1, 1, .u8, .const, false, .num 13, [], .none⟩,  -- slip.count
  ⟨0x4030, 1, 1, 4, 1, .u32, .ro, false, .num 0, [], .none⟩,  -- slip.SLIP_REPEAT_T
  ⟨0x4030, 1, 5, 4, 1, .u32, .ro, false, .num 0, [], .none⟩,  -- slip.SLIP_DROP_T
  ⟨0x4030, 1, 9, 2, 1, .u32, .ro, false, .num 0, [], .none⟩,  -- slip.SLIP_REPEAT_A
  ⟨0x4030, 1, 11, 2, 1, .u32, .ro, false, .num 0, [], .none⟩,  -- slip.SLIP_DROP_A
  ⟨0x4030, 1, 13, 1, 1, .bool, .wo, false, .num 0, [(0, 1)], .acc⟩]  -- slip.SLIP_CLEAR

/-- Rows of Table 11-11 in area 0x40. -/
def Dict.rows_40_11_11 : List Row := [
  ⟨0x4040, 1, 0, 1, 1, .u8, .const, false, .num 5, [], .none⟩,  -- zc.count
  ⟨0x4040, 1, 1, 1, 1, .u16, .rw, true, .num 20, [(0, 500)], .block false⟩,  -- zc.ZC_TIMEOUT
  ⟨0x4040, 1, 2, 1, 1, .u32, .ro, false, .num 0, [], .none⟩,  -- zc.ZC_WAITS
  ⟨0x4040, 1, 3, 1, 1, .u32, .ro, false, .num 0, [], .none⟩,  -- zc.ZC_TIMEOUTS
  ⟨0x4040, 1, 4, 1, 1, .u32, .ro, false, .num 0, [], .none⟩,  -- zc.ZC_LONGEST
  ⟨0x4040, 1, 5, 1, 1, .bool, .wo, false, .num 0, [(0, 1)], .acc⟩]  -- zc.ZC_CLEAR

/-- Rows of Table 01-3 in area 0x50. -/
def Dict.rows_50_01_3 : List Row := [
  ⟨0x5010, 1, 0, 1, 1, .u8, .const, false, .num 12, [], .none⟩,  -- lay.count
  ⟨0x5010, 1, 1, 1, 1, .u32, .rws, true, .num 0, [], .commit⟩,  -- lay.LAYOUT_ID
  ⟨0x5010, 1, 2, 1, 1, .u32, .rws, true, .num 0, [], .commit⟩,  -- lay.LAYOUT_CRC_EXPECTED
  ⟨0x5010, 1, 3, 1, 1, .u32, .ro, false, .num 0, [], .none⟩,  -- lay.LAYOUT_CRC
  ⟨0x5010, 1, 4, 1, 1, .u16, .rws, true, .num 0, [(0, 1024)], .commit⟩,  -- lay.SPEAKER_COUNT
  ⟨0x5010, 1, 5, 1, 1, .u16, .rws, true, .num 0, [(0, 2048)], .commit⟩,  -- lay.TRIANGLE_COUNT
  ⟨0x5010, 1, 6, 1, 1, .u16, .rws, true, .num 0, [(0, 256)], .commit⟩,  -- lay.VIRTUAL_COUNT
  ⟨0x5010, 1, 7, 1, 1, .pos, .rws, true, .pos 0 0 0, [(-19660800, 19660800)], .commit⟩,  -- lay.LISTEN_REF
  ⟨0x5010, 1, 8, 1, 1, .bool, .rw, true, .num 0, [(0, 1)], .block true⟩,  -- lay.STRICT_LAYOUT
  ⟨0x5010, 1, 9, 1, 1, .u8, .ro, false, .num 0, [], .none⟩,  -- lay.LAYOUT_STATE
  ⟨0x5010, 1, 10, 1, 1, .u8, .ro, false, .num 0, [], .none⟩,  -- lay.LAYOUT_ERROR
  ⟨0x5010, 1, 11, 1, 1, .u16, .ro, false, .num 0, [], .none⟩,  -- lay.LAYOUT_ERROR_REC
  ⟨0x5010, 1, 12, 1, 1, .u32, .ro, false, .num 0, [], .none⟩,  -- lay.MISMATCH_COUNT
  ⟨0x5011, 1, 0, 1, 1, .blob, .rws, true, .bytes [], [(0, 24576)], .commit⟩,  -- lay.SPEAKERS
  ⟨0x5012, 1, 0, 1, 1, .blob, .rws, true, .bytes [], [(0, 16384)], .commit⟩,  -- lay.TRIANGLES
  ⟨0x5013, 1, 0, 1, 1, .blob, .rws, true, .bytes [], [(0, 9216)], .commit⟩]  -- lay.VIRTUAL_DOWNMIX

/-- Rows of Table 01-5 in area 0x50. -/
def Dict.rows_50_01_5 : List Row := [
  ⟨0x5020, 1, 0, 1, 1, .u8, .const, false, .num 16, [], .none⟩,  -- omap.count
  ⟨0x5020, 1, 1, 16, 1, .u16, .rws, true, .num 65535, [(0, 1023), (65535, 65535)], .commit⟩]  -- omap.MAP_CH

/-- Rows of Table 04-4 in area 0x50. -/
def Dict.rows_50_04_4 : List Row := [
  ⟨0x5000, 1, 0, 1, 1, .u8, .const, false, .num 12, [], .none⟩,  -- ren.count
  ⟨0x5000, 1, 1, 1, 1, .u32, .rw, true, .num 2000, [(100, 100000)], .block true⟩,  -- ren.R_REF
  ⟨0x5000, 1, 2, 1, 1, .u16, .rw, true, .num 256, [(0, 512)], .block true⟩,  -- ren.ATT_EXP
  ⟨0x5000, 1, 3, 1, 1, .u32, .rw, true, .num 343000, [(300000, 400000)], .block true⟩,  -- ren.SOUND_SPEED
  ⟨0x5000, 1, 4, 1, 1, .bool, .rw, true, .num 1, [(0, 1)], .block true⟩,  -- ren.DELAY_ENABLE
  ⟨0x5000, 1, 5, 1, 1, .u16, .rw, true, .num 0, [(0, 0), (10, 60000)], .block true⟩,  -- ren.META_TIMEOUT
  ⟨0x5000, 1, 6, 1, 1, .db, .rw, true, .num 0, [(-6000, 1200), (-32768, -32768)], .block true⟩,  -- ren.SUB_SEND_GAIN
  ⟨0x5000, 1, 7, 1, 1, .db, .rw, true, .num 1000, [(-6000, 1200), (-32768, -32768)], .block true⟩,  -- ren.LFE_GAIN
  ⟨0x5000, 1, 8, 1, 1, .u16, .rw, false, .num 0, [], .acc⟩,  -- ren.BUS_CLIP
  ⟨0x5000, 1, 9, 1, 1, .u16, .ro, false, .num 0, [], .none⟩,  -- ren.OBJECTS_ACTIVE
  ⟨0x5000, 1, 10, 1, 1, .u32, .ro, false, .num 0, [], .none⟩,  -- ren.META_LATE_TOTAL
  ⟨0x5000, 1, 11, 1, 1, .u32, .ro, false, .num 0, [], .none⟩,  -- ren.OUT_OF_HULL_TOTAL
  ⟨0x5000, 1, 12, 1, 1, .u16, .ro, false, .num 0, [], .none⟩]  -- ren.FENCED_OBJECTS

/-- Rows of Table 04-5 in area 0x58. -/
def Dict.rows_58_04_5 : List Row := [
  ⟨0x5800, 512, 0, 1, 1, .u8, .const, false, .num 15, [], .none⟩,  -- obj.count
  ⟨0x5800, 512, 1, 1, 1, .u16, .ro, false, .num 65535, [], .none⟩,  -- obj.OBJ_ID
  ⟨0x5800, 512, 2, 1, 1, .u8, .ro, false, .num 0, [], .none⟩,  -- obj.OBJ_STATE
  ⟨0x5800, 512, 3, 1, 1, .u8, .ro, false, .num 0, [], .none⟩,  -- obj.OBJ_STATUS
  ⟨0x5800, 512, 4, 1, 1, .u8, .rw, true, .num 255, [], .block true⟩,  -- obj.SUB_GROUP
  ⟨0x5800, 512, 5, 1, 1, .u16, .rw, true, .num 65535, [], .later⟩,  -- obj.DIRECT_SPEAKER
  ⟨0x5800, 512, 6, 1, 1, .db, .rw, true, .num 0, [(-6000, 1200), (-32768, -32768)], .block true⟩,  -- obj.TRIM
  ⟨0x5800, 512, 7, 1, 1, .pos, .ro, false, .pos 0 0 0, [], .none⟩,  -- obj.POSITION
  ⟨0x5800, 512, 8, 1, 1, .db, .ro, false, .num 0, [], .none⟩,  -- obj.META_GAIN
  ⟨0x5800, 512, 9, 1, 1, .u8, .ro, false, .num 0, [], .none⟩,  -- obj.META_SPREAD
  ⟨0x5800, 512, 10, 1, 1, .u8, .ro, false, .num 0, [], .none⟩,  -- obj.META_FLAGS
  ⟨0x5800, 512, 11, 1, 1, .time, .ro, false, .num 0, [], .none⟩,  -- obj.META_TIME
  ⟨0x5800, 512, 12, 1, 1, .u32, .ro, false, .num 0, [], .none⟩,  -- obj.DELAY_NOW
  ⟨0x5800, 512, 13, 1, 1, .u32, .ro, false, .num 0, [], .none⟩,  -- obj.META_LATE
  ⟨0x5800, 512, 14, 1, 1, .u32, .ro, false, .num 0, [], .none⟩,  -- obj.META_OVERFLOW
  ⟨0x5800, 512, 15, 1, 1, .bool, .wo, false, .num 0, [(0, 1)], .acc⟩]  -- obj.FENCE_CLEAR

/-- Rows of Table 04-5 in area 0x59. -/
def Dict.rows_59_04_5 : List Row := [
  ⟨0x5800, 512, 0, 1, 1, .u8, .const, false, .num 15, [], .none⟩,  -- obj.count
  ⟨0x5800, 512, 1, 1, 1, .u16, .ro, false, .num 65535, [], .none⟩,  -- obj.OBJ_ID
  ⟨0x5800, 512, 2, 1, 1, .u8, .ro, false, .num 0, [], .none⟩,  -- obj.OBJ_STATE
  ⟨0x5800, 512, 3, 1, 1, .u8, .ro, false, .num 0, [], .none⟩,  -- obj.OBJ_STATUS
  ⟨0x5800, 512, 4, 1, 1, .u8, .rw, true, .num 255, [], .block true⟩,  -- obj.SUB_GROUP
  ⟨0x5800, 512, 5, 1, 1, .u16, .rw, true, .num 65535, [], .later⟩,  -- obj.DIRECT_SPEAKER
  ⟨0x5800, 512, 6, 1, 1, .db, .rw, true, .num 0, [(-6000, 1200), (-32768, -32768)], .block true⟩,  -- obj.TRIM
  ⟨0x5800, 512, 7, 1, 1, .pos, .ro, false, .pos 0 0 0, [], .none⟩,  -- obj.POSITION
  ⟨0x5800, 512, 8, 1, 1, .db, .ro, false, .num 0, [], .none⟩,  -- obj.META_GAIN
  ⟨0x5800, 512, 9, 1, 1, .u8, .ro, false, .num 0, [], .none⟩,  -- obj.META_SPREAD
  ⟨0x5800, 512, 10, 1, 1, .u8, .ro, false, .num 0, [], .none⟩,  -- obj.META_FLAGS
  ⟨0x5800, 512, 11, 1, 1, .time, .ro, false, .num 0, [], .none⟩,  -- obj.META_TIME
  ⟨0x5800, 512, 12, 1, 1, .u32, .ro, false, .num 0, [], .none⟩,  -- obj.DELAY_NOW
  ⟨0x5800, 512, 13, 1, 1, .u32, .ro, false, .num 0, [], .none⟩,  -- obj.META_LATE
  ⟨0x5800, 512, 14, 1, 1, .u32, .ro, false, .num 0, [], .none⟩,  -- obj.META_OVERFLOW
  ⟨0x5800, 512, 15, 1, 1, .bool, .wo, false, .num 0, [(0, 1)], .acc⟩]  -- obj.FENCE_CLEAR

/-- Rows of Table 05-5 in area 0x60. -/
def Dict.rows_60_05_5 : List Row := [
  ⟨0x6000, 16, 0, 1, 1, .u8, .const, false, .num 27, [], .none⟩,  -- cin.count
  ⟨0x6000, 16, 1, 1, 1, .bool, .rw, true, .num 1, [(0, 1)], .block true⟩,  -- cin.RENDER_EN
  ⟨0x6000, 16, 2, 4, 1, .u8, .rw, true, .num 0, [(0, 3)], .block true⟩,  -- cin.DIR_KIND
  ⟨0x6000, 16, 6, 4, 1, .u8, .rw, true, .num 0, [(0, 127)], .block true⟩,  -- cin.DIR_UNIT
  ⟨0x6000, 16, 10, 4, 1, .u8, .rw, true, .num 0, [(0, 63)], .block true⟩,  -- cin.DIR_INDEX
  ⟨0x6000, 16, 14, 4, 1, .db, .rw, true, .num 0, [(-6000, 1200), (-32768, -32768)], .block true⟩,  -- cin.DIR_GAIN
  ⟨0x6000, 16, 18, 1, 1, .u8, .rw, true, .num 0, [(0, 0), (2, 3)], .block true⟩,  -- cin.FB_KIND
  ⟨0x6000, 16, 19, 1, 1, .u8, .rw, true, .num 0, [(0, 3)], .block true⟩,  -- cin.FB_UNIT
  ⟨0x6000, 16, 20, 1, 1, .u8, .rw, true, .num 0, [(0, 31)], .block true⟩,  -- cin.FB_INDEX
  ⟨0x6000, 16, 21, 1, 1, .db, .rw, true, .num 0, [(-6000, 1200), (-32768, -32768)], .block true⟩,  -- cin.FB_GAIN
  ⟨0x6000, 16, 22, 1, 1, .u16, .rw, true, .num 500, [(10, 10000)], .block true⟩,  -- cin.FALLBACK_DELAY
  ⟨0x6000, 16, 23, 1, 1, .u8, .ro, false, .num 0, [], .none⟩,  -- cin.FB_STATE
  ⟨0x6000, 16, 24, 1, 1, .db, .rw, true, .num 0, [(-6000, 1200), (-32768, -32768)], .block true⟩,  -- cin.TRIM
  ⟨0x6000, 16, 25, 1, 1, .bool, .rw, true, .num 0, [(0, 1)], .block true⟩,  -- cin.POLARITY
  ⟨0x6000, 16, 26, 1, 1, .u8, .ro, false, .num 0, [], .none⟩,  -- cin.NET_STATE
  ⟨0x6000, 16, 27, 1, 1, .u32, .ro, false, .num 0, [], .none⟩]  -- cin.FB_SWITCHES

/-- Rows of Table 05-6 in area 0x61. -/
def Dict.rows_61_05_6 : List Row := [
  ⟨0x6100, 16, 0, 1, 1, .u8, .const, false, .num 161, [], .none⟩,  -- bq.count
  ⟨0x6100, 16, 1, 1, 1, .u32, .rws, true, .num 4294967295, [], .commit⟩,  -- bq.BQ_BYPASS
  ⟨0x6100, 16, 2, 32, 5, .coef, .rws, true, .coef 1073741824 30, [(24, 40)], .commit⟩,  -- bq.BQ_B0
  ⟨0x6100, 16, 3, 32, 5, .coef, .rws, true, .coef 0 31, [(24, 40)], .commit⟩,  -- bq.BQ_B1
  ⟨0x6100, 16, 4, 32, 5, .coef, .rws, true, .coef 0 31, [(24, 40)], .commit⟩,  -- bq.BQ_B2
  ⟨0x6100, 16, 5, 32, 5, .coef, .rws, true, .coef 0 31, [(24, 40)], .commit⟩,  -- bq.BQ_A1
  ⟨0x6100, 16, 6, 32, 5, .coef, .rws, true, .coef 0 31, [(24, 40)], .commit⟩]  -- bq.BQ_A2

/-- Rows of Table 05-7 in area 0x62. -/
def Dict.rows_62_05_7 : List Row := [
  ⟨0x6200, 16, 0, 1, 1, .u8, .const, false, .num 10, [], .none⟩,  -- fir.count
  ⟨0x6200, 16, 1, 1, 1, .u8, .rws, true, .num 0, [(0, 1)], .commit⟩,  -- fir.FIR_ACTIVE
  ⟨0x6200, 16, 2, 1, 1, .u8, .rws, true, .num 8, [(1, 64)], .commit⟩,  -- fir.FIR_XFADE
  ⟨0x6200, 16, 3, 1, 1, .u16, .rws, true, .num 0, [(0, 8192)], .commit⟩,  -- fir.FIR_TAPS_A
  ⟨0x6200, 16, 4, 1, 1, .u16, .rws, true, .num 0, [(0, 8192)], .commit⟩,  -- fir.FIR_TAPS_B
  ⟨0x6200, 16, 5, 1, 1, .u8, .rws, true, .num 0, [(0, 6)], .commit⟩,  -- fir.FIR_SHIFT_A
  ⟨0x6200, 16, 6, 1, 1, .u8, .rws, true, .num 0, [(0, 6)], .commit⟩,  -- fir.FIR_SHIFT_B
  ⟨0x6200, 16, 7, 1, 1, .blob, .rws, true, .bytes [], [(0, 32768)], .commit⟩,  -- fir.FIR_COEF_A
  ⟨0x6200, 16, 8, 1, 1, .blob, .rws, true, .bytes [], [(0, 32768)], .commit⟩,  -- fir.FIR_COEF_B
  ⟨0x6200, 16, 9, 1, 1, .u8, .ro, false, .num 0, [], .none⟩,  -- fir.FIR_STATE
  ⟨0x6200, 16, 10, 1, 1, .u16, .ro, false, .num 0, [], .none⟩]  -- fir.FIR_XFADE_LEFT

/-- Rows of Table 05-8 in area 0x63. -/
def Dict.rows_63_05_8 : List Row := [
  ⟨0x6300, 16, 0, 1, 1, .u8, .const, false, .num 8, [], .none⟩,  -- dly.count
  ⟨0x6300, 16, 1, 1, 1, .u32, .rw, true, .num 0, [(0, 50000000)], .block true⟩,  -- dly.ALIGN_DELAY
  ⟨0x6300, 16, 2, 1, 1, .u32, .ro, false, .num 0, [], .none⟩,  -- dly.DELAY_TOTAL
  ⟨0x6300, 16, 3, 1, 1, .u16, .ro, false, .num 0, [], .none⟩,  -- dly.DELAY_SAMPLES
  ⟨0x6300, 16, 4, 1, 1, .db, .rw, true, .num (-10), [(-4000, 0)], .block true⟩,  -- dly.LIM_THRESHOLD
  ⟨0x6300, 16, 5, 1, 1, .u16, .rw, true, .num 50, [(5, 1000)], .block true⟩,  -- dly.LIM_RELEASE
  ⟨0x6300, 16, 6, 1, 1, .bool, .rw, true, .num 1, [(0, 1)], .block true⟩,  -- dly.LIM_BUS_TRACK
  ⟨0x6300, 16, 7, 1, 1, .db, .ro, false, .num 0, [], .none⟩,  -- dly.LIM_GR
  ⟨0x6300, 16, 8, 1, 1, .u32, .ro, false, .num 0, [], .none⟩]  -- dly.LIM_BLOCKS

/-- Rows of Table 05-9 in area 0x64. -/
def Dict.rows_64_05_9 : List Row := [
  ⟨0x6400, 16, 0, 1, 1, .u8, .const, false, .num 14, [], .none⟩,  -- gn.count
  ⟨0x6400, 16, 1, 1, 1, .db, .rw, true, .num 0, [(-10000, 0), (-32768, -32768)], .block true⟩,  -- gn.GAIN
  ⟨0x6400, 16, 2, 1, 1, .bool, .rw, false, .num 0, [(0, 1)], .block true⟩,  -- gn.MUTE
  ⟨0x6400, 16, 3, 1, 1, .u16, .rws, true, .num 40000, [(5000, 60000)], .commit⟩,  -- gn.V_FS
  ⟨0x6400, 16, 4, 1, 1, .u16, .rws, true, .num 200, [(40, 500)], .commit⟩,  -- gn.EXC_SPLIT
  ⟨0x6400, 16, 5, 1, 1, .q31, .ro, false, .num 2147483647, [], .none⟩,  -- gn.C_THERMAL
  ⟨0x6400, 16, 6, 1, 1, .q31, .ro, false, .num 2147483647, [], .none⟩,  -- gn.C_STAGE
  ⟨0x6400, 16, 7, 1, 1, .q31, .ro, false, .num 2147483647, [], .none⟩,  -- gn.C_BUS
  ⟨0x6400, 16, 8, 1, 1, .q31, .ro, false, .num 2147483647, [], .none⟩,  -- gn.C_EXC
  ⟨0x6400, 16, 9, 1, 1, .q31, .ro, false, .num 2147483647, [], .none⟩,  -- gn.CEIL_NOW
  ⟨0x6400, 16, 10, 1, 1, .q31, .ro, false, .num 2147483647, [], .none⟩,  -- gn.G_APPLIED
  ⟨0x6400, 16, 11, 1, 1, .u8, .ro, false, .num 0, [], .none⟩,  -- gn.PINNED_BY
  ⟨0x6400, 16, 12, 1, 1, .u32, .ro, false, .num 0, [], .none⟩,  -- gn.PINNED_TIME
  ⟨0x6400, 16, 13, 1, 1, .u16, .rw, false, .num 0, [], .acc⟩,  -- gn.CLIP_FLAGS
  ⟨0x6400, 16, 14, 1, 1, .u8, .ro, false, .num 0, [], .none⟩]  -- gn.SRC_INVALID

/-- Rows of Table 07-7 in area 0x70. -/
def Dict.rows_70_07_7 : List Row := [
  ⟨0x7000, 1, 0, 1, 1, .u8, .const, false, .num 11, [], .none⟩,  -- loop.count
  ⟨0x7000, 1, 1, 1, 1, .u8, .const, false, .num 40, [], .none⟩,  -- loop.EXEC_LIMIT
  ⟨0x7000, 1, 2, 1, 1, .u8, .ro, false, .num 19, [], .none⟩,  -- loop.EXEC_PEAK
  ⟨0x7000, 1, 3, 1, 1, .u32, .ro, false, .num 73800, [], .none⟩,  -- loop.EXEC_PER_CYCLE
  ⟨0x7000, 1, 4, 1, 1, .u64, .ro, false, .num 0, [], .none⟩,  -- loop.TICK_INDEX
  ⟨0x7000, 1, 5, 1, 1, .u32, .ro, false, .num 0, [], .none⟩,  -- loop.OVERRUNS
  ⟨0x7000, 1, 6, 1, 1, .u32, .ro, false, .num 0, [], .none⟩,  -- loop.SKIPPED
  ⟨0x7000, 1, 7, 1, 1, .u64, .ro, false, .num 0, [], .none⟩,  -- loop.CLOSED_MAP
  ⟨0x7000, 1, 8, 1, 1, .u64, .ro, false, .num 0, [], .none⟩,  -- loop.TRIPPED_MAP
  ⟨0x7000, 1, 9, 1, 1, .u64, .ro, false, .num 0, [], .none⟩,  -- loop.FENCED_MAP
  ⟨0x7000, 1, 10, 1, 1, .u64, .ro, false, .num 0, [], .none⟩,  -- loop.FLAGS_MAP
  ⟨0x7000, 1, 11, 1, 1, .u32, .ro, false, .num 0, [], .none⟩]  -- loop.ENGINE_VER

/-- Rows of Table 07-8 in area 0x71. -/
def Dict.rows_71_07_8_a : List Row := [
  ⟨0x7100, 64, 0, 1, 1, .u8, .const, false, .num 41, [], .none⟩,  -- ls.count
  ⟨0x7100, 64, 1, 1, 1, .bool, .rws, true, .num 0, [(0, 1)], .commit⟩,  -- ls.SLOT_EN
  ⟨0x7100, 64, 2, 1, 1, .u8, .rw, true, .num 0, [(0, 1)], .block false⟩,  -- ls.STATE_REQ
  ⟨0x7100, 64, 3, 1, 1, .u8, .ro, false, .num 0, [], .none⟩,  -- ls.SLOT_STATE
  ⟨0x7100, 64, 4, 1, 1, .u8, .rws, true, .num 0, [(0, 12)], .commit⟩,  -- ls.RATE_K
  ⟨0x7100, 64, 5, 1, 1, .u16, .rws, true, .num 0, [(0, 4095)], .commit⟩,  -- ls.PHASE
  ⟨0x7100, 64, 6, 1, 1, .u16, .rws, true, .num 0, [], .commit⟩,  -- ls.SP_SRC
  ⟨0x7100, 64, 7, 1, 1, .u16, .rws, true, .num 0, [], .commit⟩,  -- ls.SP_GAIN_SRC
  ⟨0x7100, 64, 8, 1, 1, .u16, .rws, true, .num 0, [], .commit⟩,  -- ls.PV_SRC
  ⟨0x7100, 64, 9, 1, 1, .u16, .rws, true, .num 0, [], .commit⟩,  -- ls.FF_SRC
  ⟨0x7100, 64, 10, 1, 1, .u8, .rws, true, .num 0, [(0, 1)], .commit⟩,  -- ls.SP_INTERP
  ⟨0x7100, 64, 11, 1, 1, .s32, .rw, true, .num 0, [], .block true⟩,  -- ls.SP_TARGET
  ⟨0x7100, 64, 12, 1, 1, .u32, .rwo, true, .num 0, [], .block true⟩,  -- ls.RAMP
  ⟨0x7100, 64, 13, 1, 1, .coef, .rwo, true, .coef 0 31, [(0, 62)], .block true⟩,  -- ls.KP
  ⟨0x7100, 64, 14, 1, 1, .coef, .rwo, true, .coef 0 31, [(0, 62)], .block true⟩,  -- ls.KI
  ⟨0x7100, 64, 15, 1, 1, .coef, .rwo, true, .coef 0 31, [(0, 62)], .block true⟩,  -- ls.AD
  ⟨0x7100, 64, 16, 1, 1, .coef, .rwo, true, .coef 0 31, [(0, 62)], .block true⟩,  -- ls.BD
  ⟨0x7100, 64, 17, 1, 1, .coef, .rwo, true, .coef 0 31, [(0, 62)], .block true⟩,  -- ls.KFF
  ⟨0x7100, 64, 18, 1, 1, .s32, .rwo, true, .num (-2147483648), [], .block true⟩,  -- ls.EMIN
  ⟨0x7100, 64, 19, 1, 1, .s32, .rwo, true, .num 0, [], .block true⟩,  -- ls.EMAX
  ⟨0x7100, 64, 20, 1, 1, .s32, .rwo, true, .num 0, [], .block true⟩,  -- ls.IMIN
  ⟨0x7100, 64, 21, 1, 1, .s32, .rwo, true, .num 0, [], .block true⟩,  -- ls.IMAX
  ⟨0x7100, 64, 22, 1, 1, .s32, .rwo, true, .num 0, [], .block true⟩,  -- ls.UMIN
  ⟨0x7100, 64, 23, 1, 1, .s32, .rwo, true, .num 0, [], .block true⟩]  -- ls.UMAX

/-- Rows of Table 07-8 in area 0x71. -/
def Dict.rows_71_07_8_b : List Row := [
  ⟨0x7100, 64, 24, 1, 1, .s32, .rw, true, .num 0, [], .block false⟩,  -- ls.MAN
  ⟨0x7100, 64, 25, 1, 1, .u32, .rw, true, .num 0, [], .block true⟩,  -- ls.MAN_RATE
  ⟨0x7100, 64, 26, 1, 1, .bool, .rw, true, .num 1, [(0, 1)], .block true⟩,  -- ls.MAN_HOLD
  ⟨0x7100, 64, 27, 1, 1, .u32, .rwo, true, .num 0, [], .block true⟩,  -- ls.FE_LIMIT
  ⟨0x7100, 64, 28, 1, 1, .u16, .rwo, true, .num 0, [], .block true⟩,  -- ls.FE_TIME
  ⟨0x7100, 64, 29, 1, 1, .u8, .rwo, true, .num 0, [(0, 3)], .block true⟩,  -- ls.FE_ACTION
  ⟨0x7100, 64, 30, 1, 1, .bool, .rwo, true, .num 0, [(0, 1)], .block true⟩,  -- ls.RISE_GATE
  ⟨0x7100, 64, 31, 1, 1, .u8, .rwo, true, .num 0, [(0, 15), (255, 255)], .block true⟩,  -- ls.OWNER_CH
  ⟨0x7100, 64, 32, 1, 1, .u16, .rw, false, .num 0, [], .acc⟩,  -- ls.FLAGS
  ⟨0x7100, 64, 33, 1, 1, .u8, .ro, false, .num 0, [], .none⟩,  -- ls.STATUS
  ⟨0x7100, 64, 34, 1, 1, .s32, .ro, false, .num 0, [], .none⟩,  -- ls.SP_NOW
  ⟨0x7100, 64, 35, 1, 1, .s32, .ro, false, .num 0, [], .none⟩,  -- ls.PV_NOW
  ⟨0x7100, 64, 36, 1, 1, .s32, .ro, false, .num 0, [], .none⟩,  -- ls.I_NOW
  ⟨0x7100, 64, 37, 1, 1, .s32, .ro, false, .num 0, [], .none⟩,  -- ls.D_NOW
  ⟨0x7100, 64, 38, 1, 1, .s32, .ro, false, .num 0, [], .none⟩,  -- ls.U_NOW
  ⟨0x7100, 64, 39, 1, 1, .u32, .ro, false, .num 0, [], .none⟩,  -- ls.FE_TRIPS
  ⟨0x7100, 64, 40, 1, 1, .u8, .ro, false, .num 0, [], .none⟩,  -- ls.FENCE_CAUSE
  ⟨0x7100, 64, 41, 1, 1, .bool, .wo, false, .num 0, [(0, 1)], .acc⟩]  -- ls.FENCE_CLEAR

/-- Rows of Table 07-12 in area 0x72. -/
def Dict.rows_72_07_12 : List Row := [
  ⟨0x7200, 4, 0, 1, 1, .u8, .const, false, .num 18, [], .none⟩,  -- fl.count
  ⟨0x7200, 4, 1, 1, 1, .bool, .rw, true, .num 1, [(0, 1)], .block true⟩,  -- fl.FL_ENABLE
  ⟨0x7200, 4, 2, 1, 1, .u8, .ro, false, .num 0, [], .none⟩,  -- fl.FL_STATE
  ⟨0x7200, 4, 3, 1, 1, .u8, .rwo, true, .num 0, [(0, 1)], .block true⟩,  -- fl.FL_MODE
  ⟨0x7200, 4, 4, 1, 1, .u32, .rwo, true, .num 10000000, [(1000000, 21333333)], .block true⟩,  -- fl.FL_PERIOD
  ⟨0x7200, 4, 5, 1, 1, .u16, .rwo, true, .num 720, [(16, 2048)], .block true⟩,  -- fl.FL_POINTS
  ⟨0x7200, 4, 6, 1, 1, .coef, .rwo, true, .coef 1073741824 32, [(0, 62)], .block true⟩,  -- fl.FL_L
  ⟨0x7200, 4, 7, 1, 1, .coef, .rwo, true, .coef 2146959360 31, [(0, 62)], .block true⟩,  -- fl.FL_Q
  ⟨0x7200, 4, 8, 1, 1, .u8, .rwo, true, .num 8, [(0, 255)], .block true⟩,  -- fl.FL_LEAD
  ⟨0x7200, 4, 9, 1, 1, .u16, .rwo, true, .num 1000, [(50, 10000)], .block true⟩,  -- fl.FL_STEP_LIMIT
  ⟨0x7200, 4, 10, 1, 1, .u16, .rwo, true, .num 3000, [(100, 10000)], .block true⟩,  -- fl.FL_CORR_MAX
  ⟨0x7200, 4, 11, 1, 1, .u32, .ro, false, .num 0, [], .none⟩,  -- fl.FL_FREQ
  ⟨0x7200, 4, 12, 1, 1, .u32, .ro, false, .num 0, [], .none⟩,  -- fl.FL_PERIOD_NOW
  ⟨0x7200, 4, 13, 1, 1, .u32, .ro, false, .num 0, [], .none⟩,  -- fl.RIPPLE_IN
  ⟨0x7200, 4, 14, 1, 1, .u32, .ro, false, .num 0, [], .none⟩,  -- fl.RIPPLE_OUT
  ⟨0x7200, 4, 15, 1, 1, .u32, .ro, false, .num 0, [], .none⟩,  -- fl.CORR_PEAK
  ⟨0x7200, 4, 16, 1, 1, .u32, .ro, false, .num 0, [], .none⟩,  -- fl.FL_HOLDS
  ⟨0x7200, 4, 17, 1, 1, .bool, .wo, false, .num 0, [(0, 1)], .acc⟩,  -- fl.FL_CLEAR
  ⟨0x7200, 4, 18, 1, 1, .bool, .wo, false, .num 0, [(0, 1)], .acc⟩]  -- fl.FENCE_CLEAR

/-- Rows of Table 09-10 in area 0x80. -/
def Dict.rows_80_09_10 : List Row := [
  ⟨0x8000, 16, 0, 1, 1, .u8, .const, false, .num 12, [], .none⟩,  -- pw.count
  ⟨0x8000, 16, 1, 1, 1, .bool, .rw, true, .num 1, [(0, 1)], .block true⟩,  -- pw.CH_EN
  ⟨0x8000, 16, 2, 1, 1, .u8, .ro, false, .num 0, [], .none⟩,  -- pw.OUT_STATE
  ⟨0x8000, 16, 3, 1, 1, .u8, .ro, false, .num 0, [], .none⟩,  -- pw.SEQ_PHASE
  ⟨0x8000, 16, 4, 1, 1, .u8, .rws, true, .num 0, [(0, 15)], .commit⟩,  -- pw.STAGGER
  ⟨0x8000, 16, 5, 1, 1, .u8, .rw, true, .num 49, [(0, 63)], .block false⟩,  -- pw.I_LIM_CODE
  ⟨0x8000, 16, 6, 1, 1, .u16, .ro, false, .num 18000, [], .none⟩,  -- pw.I_LIM
  ⟨0x8000, 16, 7, 1, 1, .bool, .rws, true, .num 1, [(0, 1)], .commit⟩,  -- pw.FF_PREDICT
  ⟨0x8000, 16, 8, 1, 1, .u8, .rws, true, .num 0, [(0, 1)], .commit⟩,  -- pw.OUT_FILTER
  ⟨0x8000, 16, 9, 1, 1, .u16, .ro, false, .num 9700, [], .none⟩,  -- pw.M_MAX
  ⟨0x8000, 16, 10, 1, 1, .db, .ro, false, .num 0, [], .none⟩,  -- pw.RESTART_GAIN
  ⟨0x8000, 16, 11, 1, 1, .u32, .ro, false, .num 0, [], .none⟩,  -- pw.LIMITED_PERIODS
  ⟨0x8000, 16, 12, 1, 1, .u32, .ro, false, .num 0, [], .none⟩]  -- pw.STARTS

/-- Rows of Table 08-2 in area 0x81. -/
def Dict.rows_81_08_2 : List Row := [
  ⟨0x8100, 16, 0, 1, 1, .u8, .const, false, .num 23, [], .none⟩,  -- drv.count
  ⟨0x8100, 16, 1, 1, 1, .u8, .ro, false, .num 0, [], .none⟩,  -- drv.MODEL_STATE
  ⟨0x8100, 16, 2, 1, 1, .u32, .rws, true, .num 0, [(0, 0), (1000000, 64000000)], .commit⟩,  -- drv.RE_REF
  ⟨0x8100, 16, 3, 1, 1, .s16, .rws, true, .num 2500, [(-4000, 15000)], .commit⟩,  -- drv.T_REF
  ⟨0x8100, 16, 4, 1, 1, .u32, .rws, true, .num 0, [(0, 10000000)], .commit⟩,  -- drv.LE
  ⟨0x8100, 16, 5, 1, 1, .u32, .rws, true, .num 0, [(0, 10000000)], .commit⟩,  -- drv.LE2
  ⟨0x8100, 16, 6, 1, 1, .u32, .rws, true, .num 0, [(0, 100000)], .commit⟩,  -- drv.RE2
  ⟨0x8100, 16, 7, 1, 1, .u32, .rws, true, .num 0, [(0, 0), (10000, 1000000)], .commit⟩,  -- drv.FS
  ⟨0x8100, 16, 8, 1, 1, .u16, .rws, true, .num 0, [(50, 5000)], .commit⟩,  -- drv.QTS
  ⟨0x8100, 16, 9, 1, 1, .u16, .rws, true, .num 0, [(50, 5000)], .commit⟩,  -- drv.QES
  ⟨0x8100, 16, 10, 1, 1, .u16, .rws, true, .num 0, [(100, 50000)], .commit⟩,  -- drv.QMS
  ⟨0x8100, 16, 11, 1, 1, .u8, .rws, true, .num 0, [(0, 1)], .commit⟩,  -- drv.BL_MMS_SEL
  ⟨0x8100, 16, 12, 1, 1, .u32, .rws, true, .num 0, [(100, 100000)], .commit⟩,  -- drv.BL
  ⟨0x8100, 16, 13, 1, 1, .u32, .rws, true, .num 0, [(100, 10000000)], .commit⟩,  -- drv.MMS
  ⟨0x8100, 16, 14, 1, 1, .u32, .ro, false, .num 0, [], .none⟩,  -- drv.BL_USED
  ⟨0x8100, 16, 15, 1, 1, .u32, .ro, false, .num 0, [], .none⟩,  -- drv.MMS_USED
  ⟨0x8100, 16, 16, 1, 1, .u32, .rws, true, .num 0, [(0, 0), (10000, 1000000)], .commit⟩,  -- drv.FS_TARGET
  ⟨0x8100, 16, 17, 1, 1, .u16, .rws, true, .num 0, [(0, 0), (300, 2000)], .commit⟩,  -- drv.Q_TARGET
  ⟨0x8100, 16, 18, 1, 1, .u32, .ro, false, .num 0, [], .none⟩,  -- drv.RE_NOW
  ⟨0x8100, 16, 19, 1, 1, .u32, .ro, false, .num 0, [], .none⟩,  -- drv.FS_TRACKED
  ⟨0x8100, 16, 20, 1, 1, .s16, .ro, false, .num 0, [], .none⟩,  -- drv.FS_DRIFT
  ⟨0x8100, 16, 21, 1, 1, .u16, .rw, true, .num 150, [(50, 500)], .block true⟩,  -- drv.DRIFT_LIMIT
  ⟨0x8100, 16, 22, 1, 1, .db, .rw, true, .num (-3000), [(-6000, -1000)], .block true⟩,  -- drv.TRACK_LEVEL
  ⟨0x8100, 16, 23, 1, 1, .u8, .ro, false, .num 0, [], .none⟩]  -- drv.PROTECTION

/-- Rows of Table 08-3 in area 0x82. -/
def Dict.rows_82_08_3 : List Row := [
  ⟨0x8200, 16, 0, 1, 1, .u8, .const, false, .num 21, [], .none⟩,  -- thm.count
  ⟨0x8200, 16, 1, 1, 1, .s32, .ro, false, .num 0, [], .none⟩,  -- thm.T_COIL_EST
  ⟨0x8200, 16, 2, 1, 1, .s32, .ro, false, .num 0, [], .none⟩,  -- thm.T_MAG_EST
  ⟨0x8200, 16, 3, 1, 1, .s32, .ro, false, .num 0, [], .none⟩,  -- thm.T_COIL_MEAS
  ⟨0x8200, 16, 4, 1, 1, .s16, .rw, true, .num 12000, [(4000, 25000)], .block true⟩,  -- thm.T_LIMIT
  ⟨0x8200, 16, 5, 1, 1, .u16, .rw, true, .num 1500, [(500, 5000)], .block true⟩,  -- thm.T_HARD_OFFSET
  ⟨0x8200, 16, 6, 1, 1, .u16, .rw, true, .num 2000, [(500, 10000)], .block true⟩,  -- thm.T_RESUME_MARGIN
  ⟨0x8200, 16, 7, 1, 1, .s16, .rw, true, .num 2500, [(-4000, 8500)], .block true⟩,  -- thm.T_AMB
  ⟨0x8200, 16, 8, 1, 1, .u16, .rws, true, .num 0, [(100, 50000)], .commit⟩,  -- thm.RTH_VC
  ⟨0x8200, 16, 9, 1, 1, .u16, .rws, true, .num 0, [(100, 60000)], .commit⟩,  -- thm.TAU_VC
  ⟨0x8200, 16, 10, 1, 1, .u16, .rws, true, .num 0, [(100, 50000)], .commit⟩,  -- thm.RTH_M
  ⟨0x8200, 16, 11, 1, 1, .u16, .rws, true, .num 0, [(10, 20000)], .commit⟩,  -- thm.TAU_M
  ⟨0x8200, 16, 12, 1, 1, .u16, .rw, true, .num 3277, [(0, 32768)], .later⟩,  -- thm.OBS_GAIN
  ⟨0x8200, 16, 13, 1, 1, .bool, .rw, true, .num 1, [(0, 1)], .block true⟩,  -- thm.PILOT_EN
  ⟨0x8200, 16, 14, 1, 1, .u16, .rw, true, .num 3000, [(500, 20000)], .later⟩,  -- thm.PILOT_LEVEL
  ⟨0x8200, 16, 15, 1, 1, .u8, .ro, false, .num 0, [], .none⟩,  -- thm.PILOT_STATE
  ⟨0x8200, 16, 16, 1, 1, .u32, .ro, false, .num 0, [], .none⟩,  -- thm.PILOT_RESULTS
  ⟨0x8200, 16, 17, 1, 1, .u32, .ro, false, .num 0, [], .none⟩,  -- thm.PILOT_REJECTS
  ⟨0x8200, 16, 18, 1, 1, .u16, .ro, false, .num 0, [], .none⟩,  -- thm.T_HARD_TIME
  ⟨0x8200, 16, 19, 1, 1, .u32, .ro, false, .num 0, [], .none⟩,  -- thm.THERMAL_FENCES
  ⟨0x8200, 16, 20, 1, 1, .s32, .rw, false, .num 0, [(0, 0)], .acc⟩,  -- thm.T_COIL_PEAK
  ⟨0x8200, 16, 21, 1, 1, .time, .ro, false, .num 0, [], .none⟩]  -- thm.OBS_SAVED

/-- Rows of Table 08-4 in area 0x83. -/
def Dict.rows_83_08_4 : List Row := [
  ⟨0x8300, 16, 0, 1, 1, .u8, .const, false, .num 8, [], .none⟩,  -- exc.count
  ⟨0x8300, 16, 1, 1, 1, .u32, .rw, true, .num 0, [(0, 0), (500, 50000)], .block true⟩,  -- exc.X_LIMIT
  ⟨0x8300, 16, 2, 1, 1, .u16, .rws, true, .num 2000, [(500, 20000)], .commit⟩,  -- exc.X_LEAK
  ⟨0x8300, 16, 3, 1, 1, .bool, .rw, true, .num 1, [(0, 1)], .block true⟩,  -- exc.PREDICT_EN
  ⟨0x8300, 16, 4, 1, 1, .s32, .ro, false, .num 0, [], .none⟩,  -- exc.V_EST
  ⟨0x8300, 16, 5, 1, 1, .s32, .ro, false, .num 0, [], .none⟩,  -- exc.X_EST
  ⟨0x8300, 16, 6, 1, 1, .s32, .ro, false, .num 0, [], .none⟩,  -- exc.X_PUBLISHED
  ⟨0x8300, 16, 7, 1, 1, .u32, .rw, false, .num 0, [(0, 0)], .acc⟩,  -- exc.X_PEAK
  ⟨0x8300, 16, 8, 1, 1, .u32, .ro, false, .num 0, [], .none⟩]  -- exc.X_OVER_BLOCKS

/-- Rows of Table 09-11 in area 0x84. -/
def Dict.rows_84_09_11 : List Row := [
  ⟨0x8400, 16, 0, 1, 1, .u8, .const, false, .num 11, [], .none⟩,  -- prot.count
  ⟨0x8400, 16, 1, 1, 1, .u8, .ro, false, .num 0, [], .none⟩,  -- prot.FENCE_CAUSE
  ⟨0x8400, 16, 2, 1, 1, .bool, .wo, false, .num 0, [(0, 1)], .acc⟩,  -- prot.FENCE_CLEAR
  ⟨0x8400, 16, 3, 1, 1, .u32, .ro, false, .num 0, [], .none⟩,  -- prot.SHORT_COUNT
  ⟨0x8400, 16, 4, 1, 1, .u8, .ro, false, .num 0, [], .none⟩,  -- prot.PROBE_FAILS
  ⟨0x8400, 16, 5, 1, 1, .u32, .ro, false, .num 0, [], .none⟩,  -- prot.PROBE_Z
  ⟨0x8400, 16, 6, 1, 1, .time, .ro, false, .num 0, [], .none⟩,  -- prot.PROBE_NEXT
  ⟨0x8400, 16, 7, 1, 1, .s32, .ro, false, .num 0, [], .none⟩,  -- prot.DC_MEAN
  ⟨0x8400, 16, 8, 1, 1, .u32, .ro, false, .num 0, [], .none⟩,  -- prot.DC_TRIPS
  ⟨0x8400, 16, 9, 1, 1, .time, .ro, false, .num 0, [], .none⟩,  -- prot.LAST_FENCE
  ⟨0x8400, 16, 10, 1, 1, .u32, .ro, false, .num 0, [], .none⟩,  -- prot.FENCE_COUNT
  ⟨0x8400, 16, 11, 1, 1, .u16, .rw, false, .num 0, [(0, 0)], .acc⟩]  -- prot.I_PEAK_SEEN

/-- Rows of Table 09-12 in area 0x88. -/
def Dict.rows_88_09_12 : List Row := [
  ⟨0x8800, 4, 0, 1, 1, .u8, .const, false, .num 15, [], .none⟩,  -- pg.count
  ⟨0x8800, 4, 1, 1, 1, .u8, .rws, true, .num 1, [(0, 2)], .commit⟩,  -- pg.FSW_SEL
  ⟨0x8800, 4, 2, 1, 1, .u8, .ro, false, .num 0, [], .none⟩,  -- pg.GROUP_STATE
  ⟨0x8800, 4, 3, 1, 1, .u32, .ro, false, .num 0, [], .none⟩,  -- pg.VBUS_NOW
  ⟨0x8800, 4, 4, 1, 1, .u32, .ro, false, .num 0, [], .none⟩,  -- pg.VBUS_EST
  ⟨0x8800, 4, 5, 1, 1, .u32, .ro, false, .num 0, [], .none⟩,  -- pg.IBUS_BLK
  ⟨0x8800, 4, 6, 1, 1, .u32, .ro, false, .num 0, [], .none⟩,  -- pg.IBUS_AVG
  ⟨0x8800, 4, 7, 1, 1, .u16, .rw, true, .num 12000, [(1000, 12000)], .block true⟩,  -- pg.I_CONT
  ⟨0x8800, 4, 8, 1, 1, .u16, .rw, true, .num 25000, [(2000, 25000)], .block true⟩,  -- pg.I_PEAK
  ⟨0x8800, 4, 9, 1, 1, .db, .rw, true, .num (-1204), [(-2000, -100)], .block true⟩,  -- pg.C_BUS_MIN
  ⟨0x8800, 4, 10, 1, 1, .q31, .ro, false, .num 2147483647, [], .none⟩,  -- pg.C_BUS
  ⟨0x8800, 4, 11, 1, 1, .u32, .ro, false, .num 0, [], .none⟩,  -- pg.OV_COUNT
  ⟨0x8800, 4, 12, 1, 1, .u32, .ro, false, .num 0, [], .none⟩,  -- pg.UV_COUNT
  ⟨0x8800, 4, 13, 1, 1, .u32, .ro, false, .num 0, [], .none⟩,  -- pg.STARVE_COUNT
  ⟨0x8800, 4, 14, 1, 1, .u32, .ro, false, .num 0, [], .none⟩,  -- pg.UVLO_COUNT
  ⟨0x8800, 4, 15, 1, 1, .u16, .ro, false, .num 768, [], .none⟩]  -- pg.FSW_NOW

/-- Rows of Table 10-8 in area 0x90. -/
def Dict.rows_90_10_8 : List Row := [
  ⟨0x9000, 1, 0, 1, 1, .u8, .const, false, .num 31, [], .none⟩,  -- meas.count
  ⟨0x9000, 1, 1, 1, 1, .u16, .rw, false, .num 0, [], .block true⟩,  -- meas.MEAS_CHANNELS
  ⟨0x9000, 1, 2, 1, 1, .u32, .rw, true, .num 10000, [(100, 75000)], .block true⟩,  -- meas.MEAS_P_MAX
  ⟨0x9000, 1, 3, 1, 1, .u16, .rw, true, .num 2000, [(100, 20000)], .later⟩,  -- meas.MEAS_LEVEL
  ⟨0x9000, 1, 4, 1, 1, .u16, .rw, true, .num 4000, [(500, 30000)], .later⟩,  -- meas.MEAS_SWEEP
  ⟨0x9000, 1, 5, 1, 1, .bool, .rw, true, .num 1, [(0, 1)], .later⟩,  -- meas.LC_RUN_EN
  ⟨0x9000, 1, 6, 1, 1, .u16, .rw, true, .num 2000, [(500, 60000)], .later⟩,  -- meas.LC_SILENCE
  ⟨0x9000, 1, 7, 1, 1, .u16, .rw, true, .num 600, [(10, 3600)], .later⟩,  -- meas.LC_WAIT
  ⟨0x9000, 1, 8, 1, 1, .s16, .rw, true, .num 2500, [(-4000, 8500)], .later⟩,  -- meas.IDENT_T
  ⟨0x9000, 1, 9, 1, 1, .u16, .rw, true, .num 0, [], .later⟩,  -- meas.RESP_MIC
  ⟨0x9000, 1, 10, 1, 1, .u8, .rw, true, .num 0, [(0, 1)], .later⟩,  -- meas.RESP_POINT
  ⟨0x9000, 1, 11, 1, 1, .u32, .rw, true, .num 16384, [(1024, 65536)], .later⟩,  -- meas.IR_LEN
  ⟨0x9000, 1, 12, 1, 1, .u32, .rw, true, .num 8388608, [], .later⟩,  -- meas.FRF_AMPL
  ⟨0x9000, 1, 13, 1, 1, .u32, .ro, false, .num 1048576, [], .none⟩,  -- meas.CAP_FREE
  ⟨0x9000, 1, 14, 1, 1, .u32, .ro, false, .num 0, [], .none⟩,  -- meas.CAP_TRIPS
  ⟨0x9000, 1, 15, 1, 1, .u8, .ro, false, .num 0, [], .none⟩,  -- meas.ANALYSES_ACTIVE
  ⟨0x9000, 1, 16, 16, 1, .u16, .rw, true, .num 0, [], .later⟩]  -- meas.Z_NOM_CH

/-- Rows of Table 10-9 in area 0x90. -/
def Dict.rows_90_10_9 : List Row := [
  ⟨0x9010, 4, 0, 1, 1, .u8, .const, false, .num 16, [], .none⟩,  -- gen.count
  ⟨0x9010, 4, 1, 1, 1, .u8, .rw, false, .num 0, [(0, 2)], .block true⟩,  -- gen.G_STATE
  ⟨0x9010, 4, 2, 1, 1, .u8, .rw, false, .num 0, [(0, 5)], .later⟩,  -- gen.G_WAVE
  ⟨0x9010, 4, 3, 1, 1, .u8, .rw, false, .num 0, [(0, 3)], .later⟩,  -- gen.G_POINT
  ⟨0x9010, 4, 4, 1, 1, .u16, .rw, false, .num 0, [], .later⟩,  -- gen.G_TARGET
  ⟨0x9010, 4, 5, 1, 1, .db, .rw, false, .num (-2000), [(-12000, 0)], .later⟩,  -- gen.G_LEVEL
  ⟨0x9010, 4, 6, 1, 1, .u32, .rw, false, .num 1000000, [(1000, 40000000)], .later⟩,  -- gen.G_FREQ
  ⟨0x9010, 4, 7, 1, 1, .u32, .rw, false, .num 20000000, [(1000, 40000000)], .later⟩,  -- gen.G_FREQ2
  ⟨0x9010, 4, 8, 1, 1, .u32, .rw, false, .num 0, [(0, 600000)], .later⟩,  -- gen.G_DURATION
  ⟨0x9010, 4, 9, 1, 1, .u16, .rw, false, .num 480, [(32, 65535)], .later⟩,  -- gen.G_FADE
  ⟨0x9010, 4, 10, 1, 1, .u8, .rw, false, .num 1, [(1, 64)], .later⟩,  -- gen.G_TONES
  ⟨0x9010, 4, 11, 1, 1, .blob, .rw, false, .bytes [], [(0, 256)], .later⟩,  -- gen.G_TONE_FREQS
  ⟨0x9010, 4, 12, 1, 1, .blob, .rw, false, .bytes [], [(0, 1048576)], .later⟩,  -- gen.G_ARB
  ⟨0x9010, 4, 13, 1, 1, .bool, .rw, false, .num 0, [(0, 1)], .later⟩,  -- gen.G_ARB_LOOP
  ⟨0x9010, 4, 14, 1, 1, .u32, .rw, false, .num 1, [(1, 2147483646)], .later⟩,  -- gen.G_SEED
  ⟨0x9010, 4, 15, 1, 1, .u8, .rw, false, .num 255, [(0, 7), (255, 255)], .later⟩,  -- gen.G_SG
  ⟨0x9010, 4, 16, 1, 1, .u64, .ro, false, .num 0, [], .none⟩]  -- gen.G_SAMPLES

/-- Rows of Table 10-10 in area 0x90. -/
def Dict.rows_90_10_10 : List Row := [
  ⟨0x9020, 8, 0, 1, 1, .u8, .const, false, .num 14, [], .none⟩,  -- cap.count
  ⟨0x9020, 8, 1, 1, 1, .u8, .rw, false, .num 0, [(0, 1)], .block true⟩,  -- cap.C_STATE
  ⟨0x9020, 8, 2, 1, 1, .u16, .rw, false, .num 256, [], .later⟩,  -- cap.C_SOURCE
  ⟨0x9020, 8, 3, 1, 1, .u8, .rw, false, .num 255, [(0, 12), (255, 255)], .later⟩,  -- cap.C_RATE
  ⟨0x9020, 8, 4, 1, 1, .u8, .rw, false, .num 1, [(0, 1)], .later⟩,  -- cap.C_FORMAT
  ⟨0x9020, 8, 5, 1, 1, .u32, .rw, false, .num 48000, [(16, 349525)], .later⟩,  -- cap.C_LENGTH
  ⟨0x9020, 8, 6, 1, 1, .u32, .rw, false, .num 0, [(0, 349525)], .later⟩,  -- cap.C_PRE
  ⟨0x9020, 8, 7, 1, 1, .u8, .rw, false, .num 0, [(0, 6)], .later⟩,  -- cap.C_TRIGGER
  ⟨0x9020, 8, 8, 1, 1, .u8, .rw, false, .num 0, [(0, 7)], .later⟩,  -- cap.C_TRIG_ARG
  ⟨0x9020, 8, 9, 1, 1, .time, .rw, false, .num 0, [], .later⟩,  -- cap.C_TRIG_TIME
  ⟨0x9020, 8, 10, 1, 1, .s32, .rw, false, .num 0, [], .later⟩,  -- cap.C_LEVEL
  ⟨0x9020, 8, 11, 1, 1, .time, .ro, false, .num 0, [], .none⟩,  -- cap.C_TRIG_AT
  ⟨0x9020, 8, 12, 1, 1, .u32, .ro, false, .num 0, [], .none⟩,  -- cap.C_PRE_VALID
  ⟨0x9020, 8, 13, 1, 1, .blob, .ro, false, .bytes [], [], .none⟩,  -- cap.C_DATA
  ⟨0x9020, 8, 14, 1, 1, .u32, .ro, false, .num 0, [], .none⟩]  -- cap.C_BYTES

/-- Rows of Table 10-11 in area 0x91. -/
def Dict.rows_91_10_11 : List Row := [
  ⟨0x9100, 64, 0, 1, 1, .u8, .const, false, .num 12, [], .none⟩,  -- res.count
  ⟨0x9100, 64, 1, 1, 1, .u8, .ro, false, .num 0, [], .none⟩,  -- res.RES_STATE
  ⟨0x9100, 64, 2, 1, 1, .u16, .ro, false, .num 0, [], .none⟩,  -- res.RES_KIND
  ⟨0x9100, 64, 3, 1, 1, .u16, .ro, false, .num 0, [], .none⟩,  -- res.RES_HANDLE
  ⟨0x9100, 64, 4, 1, 1, .u16, .ro, false, .num 0, [], .none⟩,  -- res.RES_CHANNELS
  ⟨0x9100, 64, 5, 1, 1, .u8, .ro, false, .num 255, [], .none⟩,  -- res.RES_SLOT
  ⟨0x9100, 64, 6, 1, 1, .time, .ro, false, .num 0, [], .none⟩,  -- res.RES_START
  ⟨0x9100, 64, 7, 1, 1, .time, .ro, false, .num 0, [], .none⟩,  -- res.RES_END
  ⟨0x9100, 64, 8, 1, 1, .u8, .ro, false, .num 0, [], .none⟩,  -- res.RES_STATUS
  ⟨0x9100, 64, 9, 1, 1, .u16, .ro, false, .num 0, [], .none⟩,  -- res.RES_POINTS
  ⟨0x9100, 64, 10, 1, 1, .blob, .ro, false, .bytes [], [], .none⟩,  -- res.RES_DATA
  ⟨0x9100, 64, 11, 1, 1, .bool, .rw, false, .num 0, [(0, 1)], .acc⟩,  -- res.RES_HOLD
  ⟨0x9100, 64, 12, 1, 1, .bool, .wo, false, .num 0, [(0, 1)], .acc⟩]  -- res.RES_FREE

/-- Rows of Table 06-9 in area 0xA0. -/
def Dict.rows_a0_06_9 : List Row := [
  ⟨0xa000, 1, 0, 1, 1, .u8, .const, false, .num 12, [], .none⟩,  -- disp.count
  ⟨0xa000, 1, 1, 1, 1, .u64, .ro, false, .num 0, [], .none⟩,  -- disp.BLOCK_COUNT
  ⟨0xa000, 1, 2, 1, 1, .u32, .ro, false, .num 0, [], .none⟩,  -- disp.DEADLINE_MISSES
  ⟨0xa000, 1, 3, 1, 1, .u32, .ro, false, .num 0, [], .none⟩,  -- disp.RENDER_DROPS
  ⟨0xa000, 1, 4, 1, 1, .u32, .ro, false, .num 0, [], .none⟩,  -- disp.PREP_LATE
  ⟨0xa000, 1, 5, 1, 1, .u32, .ro, false, .num 0, [], .none⟩,  -- disp.MODEL_LATE
  ⟨0xa000, 1, 6, 1, 1, .s32, .ro, false, .num 0, [], .none⟩,  -- disp.MIN_SLACK_RENDER
  ⟨0xa000, 1, 7, 1, 1, .s32, .ro, false, .num 0, [], .none⟩,  -- disp.MIN_SLACK_A
  ⟨0xa000, 1, 8, 1, 1, .s32, .ro, false, .num 0, [], .none⟩,  -- disp.MIN_SLACK_B
  ⟨0xa000, 1, 9, 1, 1, .u16, .rw, true, .num 1000, [(100, 60000)], .later⟩,  -- disp.SLACK_WINDOW
  ⟨0xa000, 1, 10, 1, 1, .u16, .rw, false, .num 0, [], .acc⟩,  -- disp.MISS_MAP
  ⟨0xa000, 1, 11, 1, 1, .u16, .ro, false, .num 1000, [], .none⟩,  -- disp.TEST_INTERVAL
  ⟨0xa000, 1, 12, 1, 1, .u8, .ro, false, .num 15, [], .none⟩]  -- disp.LANTERN

/-- Rows of Table 06-10 in area 0xA0. -/
def Dict.rows_a0_06_10 : List Row := [
  ⟨0xa010, 16, 0, 1, 1, .u8, .const, false, .num 12, [], .none⟩,  -- lane.count
  ⟨0xa010, 16, 1, 1, 1, .u8, .ro, false, .num 0, [], .none⟩,  -- lane.LANE_STATE
  ⟨0xa010, 16, 2, 1, 1, .u32, .ro, false, .num 0, [], .none⟩,  -- lane.PLACED_COST
  ⟨0xa010, 16, 3, 1, 1, .u32, .ro, false, .num 0, [], .none⟩,  -- lane.RENDER_COST
  ⟨0xa010, 16, 4, 1, 1, .s32, .ro, false, .num 0, [], .none⟩,  -- lane.LANE_MIN_SLACK_A
  ⟨0xa010, 16, 5, 1, 1, .s32, .ro, false, .num 0, [], .none⟩,  -- lane.LANE_MIN_SLACK_B
  ⟨0xa010, 16, 6, 1, 1, .u32, .ro, false, .num 0, [], .none⟩,  -- lane.LAST_FINISH
  ⟨0xa010, 16, 7, 1, 1, .u32, .ro, false, .num 0, [], .none⟩,  -- lane.TESTS_PASSED
  ⟨0xa010, 16, 8, 1, 1, .u32, .ro, false, .num 0, [], .none⟩,  -- lane.TEST_FAILS
  ⟨0xa010, 16, 9, 1, 1, .u32, .ro, false, .num 0, [], .none⟩,  -- lane.MICROCODE_VER
  ⟨0xa010, 16, 10, 1, 1, .u8, .ro, false, .num 0, [], .none⟩,  -- lane.FENCE_CAUSE
  ⟨0xa010, 16, 11, 1, 1, .bool, .wo, false, .num 0, [(0, 1)], .acc⟩,  -- lane.FENCE_CLEAR
  ⟨0xa010, 16, 12, 1, 1, .u16, .ro, false, .num 0, [], .none⟩]  -- lane.SPEED_EST

/-- Rows of Table 06-11 in area 0xA0. -/
def Dict.rows_a0_06_11 : List Row := [
  ⟨0xa020, 1, 0, 1, 1, .u8, .const, false, .num 10, [], .none⟩,  -- thr.count
  ⟨0xa020, 1, 1, 1, 1, .u16, .rw, true, .num 680, [(680, 720)], .block true⟩,  -- thr.THROTTLE_THR
  ⟨0xa020, 1, 2, 1, 1, .u8, .ro, false, .num 0, [], .none⟩,  -- thr.THROTTLE_LEVEL
  ⟨0xa020, 1, 3, 1, 1, .u8, .rw, false, .num 0, [(0, 0)], .acc⟩,  -- thr.LEVEL_MAX
  ⟨0xa020, 1, 4, 4, 1, .u32, .ro, false, .num 0, [], .none⟩,  -- thr.TIME_L
  ⟨0xa020, 1, 8, 1, 1, .u16, .ro, false, .num 0, [], .none⟩,  -- thr.VCORE_MIN
  ⟨0xa020, 1, 9, 1, 1, .u8, .ro, false, .num 0, [], .none⟩,  -- thr.LOW_SENSOR
  ⟨0xa020, 1, 10, 1, 1, .u32, .ro, false, .num 0, [], .none⟩]  -- thr.THROTTLE_ENTRIES

/-- Rows of Table 06-12 in area 0xA0. -/
def Dict.rows_a0_06_12 : List Row := [
  ⟨0xa030, 1, 0, 1, 1, .u8, .const, false, .num 21, [], .none⟩,  -- cost.count
  ⟨0xa030, 1, 1, 1, 1, .u32, .const, false, .num 280000, [], .none⟩,  -- cost.CAP_LANE
  ⟨0xa030, 1, 2, 1, 1, .u8, .const, false, .num 85, [], .none⟩,  -- cost.ADMIT_PCT
  ⟨0xa030, 1, 3, 1, 1, .u32, .const, false, .num 238000, [], .none⟩,  -- cost.LANE_LIMIT
  ⟨0xa030, 1, 4, 1, 1, .u32, .const, false, .num 119000, [], .none⟩,  -- cost.RENDER_LIMIT
  ⟨0xa030, 1, 5, 1, 1, .u16, .const, false, .num 10, [], .none⟩,  -- cost.K_OBJ_SAMPLE
  ⟨0xa030, 1, 6, 1, 1, .u16, .const, false, .num 1, [], .none⟩,  -- cost.K_DEST_SAMPLE
  ⟨0xa030, 1, 7, 1, 1, .u16, .const, false, .num 40, [], .none⟩,  -- cost.K_PREP_OBJ
  ⟨0xa030, 1, 8, 1, 1, .u16, .const, false, .num 20, [], .none⟩,  -- cost.K_PREP_DIR
  ⟨0xa030, 1, 9, 1, 1, .u16, .const, false, .num 9, [], .none⟩,  -- cost.K_TRI
  ⟨0xa030, 1, 10, 1, 1, .u16, .const, false, .num 47, [], .none⟩,  -- cost.K_CH_SAMPLE
  ⟨0xa030, 1, 11, 1, 1, .u16, .const, false, .num 5, [], .none⟩,  -- cost.K_BQ_SAMPLE
  ⟨0xa030, 1, 12, 1, 1, .u16, .ro, false, .num 768, [], .none⟩,  -- cost.K_FFT
  ⟨0xa030, 1, 13, 1, 1, .u16, .ro, false, .num 132, [], .none⟩,  -- cost.K_PART
  ⟨0xa030, 1, 14, 1, 1, .u16, .const, false, .num 600, [], .none⟩,  -- cost.K_MODEL
  ⟨0xa030, 1, 15, 1, 1, .u16, .ro, false, .num 0, [], .none⟩,  -- cost.TRI_CANDIDATES
  ⟨0xa030, 1, 16, 1, 1, .u8, .ro, false, .num 15, [], .none⟩,  -- cost.LANES_IN_SERVICE
  ⟨0xa030, 1, 17, 1, 1, .u32, .ro, false, .num 0, [], .none⟩,  -- cost.COST_TOTAL
  ⟨0xa030, 1, 18, 1, 1, .u32, .ro, false, .num 0, [], .none⟩,  -- cost.RENDER_PEAK
  ⟨0xa030, 1, 19, 1, 1, .u32, .ro, false, .num 0, [], .none⟩,  -- cost.LANE_PEAK
  ⟨0xa030, 1, 20, 1, 1, .u32, .ro, false, .num 0, [], .none⟩,  -- cost.LAST_REFUSED
  ⟨0xa030, 1, 21, 1, 1, .u32, .ro, false, .num 0, [], .none⟩]  -- cost.REFUSALS

/-- The rows of one area (R392): the upper byte of the index. -/
def Dict.area (a : Nat) : List Row :=
  match a with
  | 0x10 => Dict.rows_10_14_6 ++ Dict.rows_10_14_7 ++ Dict.rows_10_14_8 ++ Dict.rows_10_14_9
  | 0x11 => Dict.rows_11_13_5 ++ Dict.rows_11_13_7 ++ Dict.rows_11_13_10 ++ Dict.rows_11_13_11 ++ Dict.rows_11_13_12 ++ Dict.rows_11_13_15
  | 0x12 => Dict.rows_12_15_3 ++ Dict.rows_12_15_4 ++ Dict.rows_12_15_5 ++ Dict.rows_12_15_7 ++ Dict.rows_12_15_8 ++ Dict.rows_12_15_10 ++ Dict.rows_12_15_11 ++ Dict.rows_12_15_12 ++ Dict.rows_12_15_13
  | 0x20 => Dict.rows_20_03_5 ++ Dict.rows_20_12_1 ++ Dict.rows_20_12_3 ++ Dict.rows_20_12_4 ++ Dict.rows_20_12_5 ++ Dict.rows_20_12_7 ++ Dict.rows_20_12_8 ++ Dict.rows_20_12_9
  | 0x21 => Dict.rows_21_03_1 ++ Dict.rows_21_03_10
  | 0x30 => Dict.rows_30_02_3 ++ Dict.rows_30_02_4 ++ Dict.rows_30_02_6 ++ Dict.rows_30_02_8 ++ Dict.rows_30_02_9 ++ Dict.rows_30_02_12 ++ Dict.rows_30_02_13
  | 0x31 => Dict.rows_31_02_15 ++ Dict.rows_31_02_17
  | 0x40 => Dict.rows_40_11_6 ++ Dict.rows_40_11_7 ++ Dict.rows_40_11_8 ++ Dict.rows_40_11_9 ++ Dict.rows_40_11_10 ++ Dict.rows_40_11_11
  | 0x50 => Dict.rows_50_01_3 ++ Dict.rows_50_01_5 ++ Dict.rows_50_04_4
  | 0x58 => Dict.rows_58_04_5
  | 0x59 => Dict.rows_59_04_5
  | 0x60 => Dict.rows_60_05_5
  | 0x61 => Dict.rows_61_05_6
  | 0x62 => Dict.rows_62_05_7
  | 0x63 => Dict.rows_63_05_8
  | 0x64 => Dict.rows_64_05_9
  | 0x70 => Dict.rows_70_07_7
  | 0x71 => Dict.rows_71_07_8_a ++ Dict.rows_71_07_8_b
  | 0x72 => Dict.rows_72_07_12
  | 0x80 => Dict.rows_80_09_10
  | 0x81 => Dict.rows_81_08_2
  | 0x82 => Dict.rows_82_08_3
  | 0x83 => Dict.rows_83_08_4
  | 0x84 => Dict.rows_84_09_11
  | 0x88 => Dict.rows_88_09_12
  | 0x90 => Dict.rows_90_10_8 ++ Dict.rows_90_10_9 ++ Dict.rows_90_10_10
  | 0x91 => Dict.rows_91_10_11
  | 0xa0 => Dict.rows_a0_06_9 ++ Dict.rows_a0_06_10 ++ Dict.rows_a0_06_11 ++ Dict.rows_a0_06_12
  | _ => []

end Sys2Proof.Machine
end

