-- ==== Sys2Proof/Machine/Flags.lean ====
section
/-!
DEFINITION. Machine/Flags.lean: the status codes of the protocol (Table 13-17) and the arithmetic of the sticky bits
and counters: bits that writing 1 clears (RW1C, Table 13-3), counters that stop at their top, peaks.
-/

namespace Sys2Proof.Machine

/-- The status codes (Table 13-17). -/
def St.ok : Nat := 0x00
def St.accepted : Nat := 0x01
def St.late : Nat := 0x02
def St.noEntry : Nat := 0x10
def St.noSubindex : Nat := 0x11
def St.typeMismatch : Nat := 0x12
def St.range : Nat := 0x13
def St.readOnly : Nat := 0x14
def St.writeOnly : Nat := 0x15
def St.accessRole : Nat := 0x16
def St.areaOwned : Nat := 0x17
def St.loopClosed : Nat := 0x18
def St.mode : Nat := 0x19
def St.timePassed : Nat := 0x1A
def St.admission : Nat := 0x1B
def St.busy : Nat := 0x1C
def St.stageFull : Nat := 0x1D
def St.conflict : Nat := 0x1E
def St.auth : Nat := 0x20
def St.replay : Nat := 0x21
def St.fenced : Nat := 0x30
def St.cancelled : Nat := 0x31
def St.timeout : Nat := 0x32
def St.failed : Nat := 0x33
def St.internal : Nat := 0x3F

/-- The field after a write of RW1C bits: bits written 1 are cleared (Table 13-3). -/
def clearBits (old w : Nat) : Nat := old - (old &&& w)

/-- A count that stays at its top (saturating counters are named so where they occur). -/
def satAdd (w : Nat) (a b : Nat) : Nat := min (a + b) (2 ^ w - 1)

/-- The code of a mode (Table 00-3). -/
def Mode.code : Mode → Nat
  | .boot => 0 | .safe => 1 | .standby => 2 | .run => 3 | .measure => 4 | .holdover => 5

/-- The mode with a code. -/
def Mode.ofCode : Nat → Mode
  | 0 => .boot | 1 => .safe | 2 => .standby | 3 => .run | 4 => .measure | _ => .holdover

end Sys2Proof.Machine
end

