-- ==== Sys2Proof/Machine/Keys.lean ====
section
/-!
DEFINITION. Machine/Keys.lean: the names of the dictionary entries. The key of an entry is its index × 256 plus its
subindex (R391); `i` is the unit of a numbered index, `j` the place in a run of subindices. Written from the
dictionary tables of the manual, one group per table.
-/

namespace Sys2Proof.Machine

/-! Table 01-3 -/

/-- Table 01-3, `0x5010:01 LAYOUT_ID`, U32 RWS P. -/
def Key.lay.LAYOUT_ID : Nat := 0x5010 * 256 + 1
/-- Table 01-3, `0x5010:02 LAYOUT_CRC_EXPECTED`, U32 RWS P. -/
def Key.lay.LAYOUT_CRC_EXPECTED : Nat := 0x5010 * 256 + 2
/-- Table 01-3, `0x5010:03 LAYOUT_CRC`, U32 RO. -/
def Key.lay.LAYOUT_CRC : Nat := 0x5010 * 256 + 3
/-- Table 01-3, `0x5010:04 SPEAKER_COUNT`, U16 RWS P. -/
def Key.lay.SPEAKER_COUNT : Nat := 0x5010 * 256 + 4
/-- Table 01-3, `0x5010:05 TRIANGLE_COUNT`, U16 RWS P. -/
def Key.lay.TRIANGLE_COUNT : Nat := 0x5010 * 256 + 5
/-- Table 01-3, `0x5010:06 VIRTUAL_COUNT`, U16 RWS P. -/
def Key.lay.VIRTUAL_COUNT : Nat := 0x5010 * 256 + 6
/-- Table 01-3, `0x5010:07 LISTEN_REF`, POS RWS P. -/
def Key.lay.LISTEN_REF : Nat := 0x5010 * 256 + 7
/-- Table 01-3, `0x5010:08 STRICT_LAYOUT`, BOOL RW P. -/
def Key.lay.STRICT_LAYOUT : Nat := 0x5010 * 256 + 8
/-- Table 01-3, `0x5010:09 LAYOUT_STATE`, U8 RO. -/
def Key.lay.LAYOUT_STATE : Nat := 0x5010 * 256 + 9
/-- Table 01-3, `0x5010:0A LAYOUT_ERROR`, U8 RO. -/
def Key.lay.LAYOUT_ERROR : Nat := 0x5010 * 256 + 10
/-- Table 01-3, `0x5010:0B LAYOUT_ERROR_REC`, U16 RO. -/
def Key.lay.LAYOUT_ERROR_REC : Nat := 0x5010 * 256 + 11
/-- Table 01-3, `0x5010:0C MISMATCH_COUNT`, U32 RO. -/
def Key.lay.MISMATCH_COUNT : Nat := 0x5010 * 256 + 12
/-- Table 01-3, `0x5011:00 SPEAKERS`, BLOB RWS P. -/
def Key.lay.SPEAKERS : Nat := 0x5011 * 256 + 0
/-- Table 01-3, `0x5012:00 TRIANGLES`, BLOB RWS P. -/
def Key.lay.TRIANGLES : Nat := 0x5012 * 256 + 0
/-- Table 01-3, `0x5013:00 VIRTUAL_DOWNMIX`, BLOB RWS P. -/
def Key.lay.VIRTUAL_DOWNMIX : Nat := 0x5013 * 256 + 0

/-! Table 01-5 -/

/-- Table 01-5, `0x5020:01 MAP_CH`, U16 RWS P. -/
def Key.omap.MAP_CH (j : Nat) : Nat := 0x5020 * 256 + (1 + j)

/-! Table 02-3 -/

/-- Table 02-3, `0x3010:01 REF_SOURCE`, U8 RW P. -/
def Key.ref.REF_SOURCE : Nat := 0x3010 * 256 + 1
/-- Table 02-3, `0x3010:02 REF_DOMAIN`, U8 RW P. -/
def Key.ref.REF_DOMAIN : Nat := 0x3010 * 256 + 2
/-- Table 02-3, `0x3010:03 TOD_SET`, TIME WO. -/
def Key.ref.TOD_SET : Nat := 0x3010 * 256 + 3
/-- Table 02-3, `0x3010:04 WCLK_OUT_EN`, BOOL RW P. -/
def Key.ref.WCLK_OUT_EN : Nat := 0x3010 * 256 + 4
/-- Table 02-3, `0x3010:05 PPS_OUT_EN`, BOOL RW P. -/
def Key.ref.PPS_OUT_EN : Nat := 0x3010 * 256 + 5
/-- Table 02-3, `0x3010:06 MCLKO_SEL`, U8 RW P. -/
def Key.ref.MCLKO_SEL : Nat := 0x3010 * 256 + 6

/-! Table 02-4 -/

/-- Table 02-4, `0x3000:01 MEDIA_TIME`, TIME RO. -/
def Key.mtb.MEDIA_TIME : Nat := 0x3000 * 256 + 1
/-- Table 02-4, `0x3000:02 MTB_COUNT`, U64 RO. -/
def Key.mtb.MTB_COUNT : Nat := 0x3000 * 256 + 2
/-- Table 02-4, `0x3000:03 MTB_FRAC`, U32 RO. -/
def Key.mtb.MTB_FRAC : Nat := 0x3000 * 256 + 3
/-- Table 02-4, `0x3000:04 EPOCH_OFFSET`, S64 RO. -/
def Key.mtb.EPOCH_OFFSET : Nat := 0x3000 * 256 + 4
/-- Table 02-4, `0x3000:05 INC`, INC40 RWO. -/
def Key.mtb.INC : Nat := 0x3000 * 256 + 5
/-- Table 02-4, `0x3000:06 INC_NOM`, INC40 CONST. -/
def Key.mtb.INC_NOM : Nat := 0x3000 * 256 + 6
/-- Table 02-4, `0x3000:07 FREQ_ADJ`, S32 RO. -/
def Key.mtb.FREQ_ADJ : Nat := 0x3000 * 256 + 7
/-- Table 02-4, `0x3000:08 FS_SELECT`, U8 RWS P. -/
def Key.mtb.FS_SELECT : Nat := 0x3000 * 256 + 8
/-- Table 02-4, `0x3000:09 SAMPLE_INDEX`, U64 RO. -/
def Key.mtb.SAMPLE_INDEX : Nat := 0x3000 * 256 + 9
/-- Table 02-4, `0x3000:0A SAMPLE_PHASE_ERR`, S16 RO. -/
def Key.mtb.SAMPLE_PHASE_ERR : Nat := 0x3000 * 256 + 10
/-- Table 02-4, `0x3000:0B REANCHOR_COUNT`, U32 RO. -/
def Key.mtb.REANCHOR_COUNT : Nat := 0x3000 * 256 + 11

/-! Table 02-6 -/

/-- Table 02-6, `0x3020:01 SNAP_REQ`, BOOL WO. -/
def Key.snap.SNAP_REQ : Nat := 0x3020 * 256 + 1
/-- Table 02-6, `0x3020:02 SNAP_MTB`, TIME RO. -/
def Key.snap.SNAP_MTB : Nat := 0x3020 * 256 + 2
/-- Table 02-6, `0x3020:03 SNAP_DTB`, TIME RO. -/
def Key.snap.SNAP_DTB (j : Nat) : Nat := 0x3020 * 256 + (3 + j)
/-- Table 02-6, `0x3020:07 SNAP_COUNT`, U32 RO. -/
def Key.snap.SNAP_COUNT : Nat := 0x3020 * 256 + 7

/-! Table 02-8 -/

/-- Table 02-8, `0x3011:01 SERVO_BW`, U16 RW P. -/
def Key.servo.SERVO_BW : Nat := 0x3011 * 256 + 1
/-- Table 02-8, `0x3011:02 OUTLIER_LIMIT`, U32 RW P. -/
def Key.servo.OUTLIER_LIMIT : Nat := 0x3011 * 256 + 2
/-- Table 02-8, `0x3011:03 STEP_CONFIRM`, U8 RW P. -/
def Key.servo.STEP_CONFIRM : Nat := 0x3011 * 256 + 3
/-- Table 02-8, `0x3011:04 SNAP_COMP`, U16 RW P. -/
def Key.servo.SNAP_COMP : Nat := 0x3011 * 256 + 4
/-- Table 02-8, `0x3011:05 OFFSET`, S64 RO. -/
def Key.servo.OFFSET : Nat := 0x3011 * 256 + 5
/-- Table 02-8, `0x3011:06 SLEW_REMAINING`, S64 RO. -/
def Key.servo.SLEW_REMAINING : Nat := 0x3011 * 256 + 6
/-- Table 02-8, `0x3011:07 OUTLIER_COUNT`, U32 RO. -/
def Key.servo.OUTLIER_COUNT : Nat := 0x3011 * 256 + 7
/-- Table 02-8, `0x3011:08 LAST_MEASURE`, TIME RO. -/
def Key.servo.LAST_MEASURE : Nat := 0x3011 * 256 + 8

/-! Table 02-9 -/

/-- Table 02-9, `0x3012:01 LOCK_STATE`, U8 RO. -/
def Key.lock.LOCK_STATE : Nat := 0x3012 * 256 + 1
/-- Table 02-9, `0x3012:02 LOCK_SINCE`, TIME RO. -/
def Key.lock.LOCK_SINCE : Nat := 0x3012 * 256 + 2
/-- Table 02-9, `0x3012:03 LOCK_LOSS_COUNT`, U32 RO. -/
def Key.lock.LOCK_LOSS_COUNT : Nat := 0x3012 * 256 + 3
/-- Table 02-9, `0x3012:04 SOURCE_STATE`, U8 RO. -/
def Key.lock.SOURCE_STATE : Nat := 0x3012 * 256 + 4

/-! Table 02-12 -/

/-- Table 02-12, `0x3030:01 HOLDOVER_MAX`, U16 RW P. -/
def Key.hold.HOLDOVER_MAX : Nat := 0x3030 * 256 + 1
/-- Table 02-12, `0x3030:02 HOLDOVER_ELAPSED`, U32 RO. -/
def Key.hold.HOLDOVER_ELAPSED : Nat := 0x3030 * 256 + 2
/-- Table 02-12, `0x3030:03 INC_HELD`, INC40 RO. -/
def Key.hold.INC_HELD : Nat := 0x3030 * 256 + 3
/-- Table 02-12, `0x3030:04 LOSS_TIME`, TIME RO. -/
def Key.hold.LOSS_TIME : Nat := 0x3030 * 256 + 4
/-- Table 02-12, `0x3030:05 HOLDOVER_COUNT`, U32 RO. -/
def Key.hold.HOLDOVER_COUNT : Nat := 0x3030 * 256 + 5

/-! Table 02-13 -/

/-- Table 02-13, `0x3001+n:01 DOMAIN_NUMBER`, U8 RW P. -/
def Key.dtb.DOMAIN_NUMBER (i : Nat) : Nat := (0x3001 + i) * 256 + 1
/-- Table 02-13, `0x3001+n:02 PROFILE`, U8 RW P. -/
def Key.dtb.PROFILE (i : Nat) : Nat := (0x3001 + i) * 256 + 2
/-- Table 02-13, `0x3001+n:03 DELAY_MECH`, U8 RW P. -/
def Key.dtb.DELAY_MECH (i : Nat) : Nat := (0x3001 + i) * 256 + 3
/-- Table 02-13, `0x3001+n:04 PTP_PORT`, U8 RW P. -/
def Key.dtb.PTP_PORT (i : Nat) : Nat := (0x3001 + i) * 256 + 4
/-- Table 02-13, `0x3001+n:05 DOMAIN_TIME`, TIME RO. -/
def Key.dtb.DOMAIN_TIME (i : Nat) : Nat := (0x3001 + i) * 256 + 5
/-- Table 02-13, `0x3001+n:06 DTB_INC`, INC40 RO. -/
def Key.dtb.DTB_INC (i : Nat) : Nat := (0x3001 + i) * 256 + 6
/-- Table 02-13, `0x3001+n:07 DTB_OFFSET`, S64 RO. -/
def Key.dtb.DTB_OFFSET (i : Nat) : Nat := (0x3001 + i) * 256 + 7
/-- Table 02-13, `0x3001+n:08 PATH_DELAY`, U32 RO. -/
def Key.dtb.PATH_DELAY (i : Nat) : Nat := (0x3001 + i) * 256 + 8
/-- Table 02-13, `0x3001+n:09 GM_IDENTITY`, U64 RO. -/
def Key.dtb.GM_IDENTITY (i : Nat) : Nat := (0x3001 + i) * 256 + 9
/-- Table 02-13, `0x3001+n:0A DOMAIN_LOCK`, U8 RO. -/
def Key.dtb.DOMAIN_LOCK (i : Nat) : Nat := (0x3001 + i) * 256 + 10
/-- Table 02-13, `0x3001+n:0B STEP_COUNT`, U32 RO. -/
def Key.dtb.STEP_COUNT (i : Nat) : Nat := (0x3001 + i) * 256 + 11

/-! Table 02-15 -/

/-- Table 02-15, `0x3100+n:01 ACT_KIND`, U8 RW. -/
def Key.act.ACT_KIND (i : Nat) : Nat := (0x3100 + i) * 256 + 1
/-- Table 02-15, `0x3100+n:02 ACT_TIME`, TIME RW. -/
def Key.act.ACT_TIME (i : Nat) : Nat := (0x3100 + i) * 256 + 2
/-- Table 02-15, `0x3100+n:03 ACT_STRICT`, BOOL RW. -/
def Key.act.ACT_STRICT (i : Nat) : Nat := (0x3100 + i) * 256 + 3
/-- Table 02-15, `0x3100+n:04 ACT_TARGET`, U16 RW. -/
def Key.act.ACT_TARGET (i : Nat) : Nat := (0x3100 + i) * 256 + 4
/-- Table 02-15, `0x3100+n:05 ACT_SUB`, U8 RW. -/
def Key.act.ACT_SUB (i : Nat) : Nat := (0x3100 + i) * 256 + 5
/-- Table 02-15, `0x3100+n:06 ACT_VALUE`, U64 RW. -/
def Key.act.ACT_VALUE (i : Nat) : Nat := (0x3100 + i) * 256 + 6
/-- Table 02-15, `0x3100+n:07 ACT_STATE`, U8 RW. -/
def Key.act.ACT_STATE (i : Nat) : Nat := (0x3100 + i) * 256 + 7
/-- Table 02-15, `0x3100+n:08 ACT_STATUS`, U8 RO. -/
def Key.act.ACT_STATUS (i : Nat) : Nat := (0x3100 + i) * 256 + 8
/-- Table 02-15, `0x3100+n:09 ACT_EXEC_TIME`, TIME RO. -/
def Key.act.ACT_EXEC_TIME (i : Nat) : Nat := (0x3100 + i) * 256 + 9
/-- Table 02-15, `0x3100+n:0A ACT_LATENESS`, U64 RO. -/
def Key.act.ACT_LATENESS (i : Nat) : Nat := (0x3100 + i) * 256 + 10

/-! Table 02-17 -/

/-- Table 02-17, `0x3140+n:01 SG_STATE`, U8 RW. -/
def Key.sg.SG_STATE (i : Nat) : Nat := (0x3140 + i) * 256 + 1
/-- Table 02-17, `0x3140+n:02 SG_TRIGGER`, U8 RW. -/
def Key.sg.SG_TRIGGER (i : Nat) : Nat := (0x3140 + i) * 256 + 2
/-- Table 02-17, `0x3140+n:03 SG_GPIO`, U8 RW. -/
def Key.sg.SG_GPIO (i : Nat) : Nat := (0x3140 + i) * 256 + 3
/-- Table 02-17, `0x3140+n:04 SG_EDGE`, U8 RW. -/
def Key.sg.SG_EDGE (i : Nat) : Nat := (0x3140 + i) * 256 + 4
/-- Table 02-17, `0x3140+n:05 SG_GO`, TIME WO. -/
def Key.sg.SG_GO (i : Nat) : Nat := (0x3140 + i) * 256 + 5
/-- Table 02-17, `0x3140+n:06 SG_START_TIME`, TIME RO. -/
def Key.sg.SG_START_TIME (i : Nat) : Nat := (0x3140 + i) * 256 + 6
/-- Table 02-17, `0x3140+n:07 SG_START_SAMPLE`, U64 RO. -/
def Key.sg.SG_START_SAMPLE (i : Nat) : Nat := (0x3140 + i) * 256 + 7
/-- Table 02-17, `0x3140+n:08 SG_MEMBERS`, U16 RO. -/
def Key.sg.SG_MEMBERS (i : Nat) : Nat := (0x3140 + i) * 256 + 8

/-! Table 03-1 -/

/-- Table 03-1, `0x2100+n:01 ENABLE`, BOOL RWS P. -/
def Key.sub.ENABLE (i : Nat) : Nat := (0x2100 + i) * 256 + 1
/-- Table 03-1, `0x2100+n:02 KIND`, U8 RWS P. -/
def Key.sub.KIND (i : Nat) : Nat := (0x2100 + i) * 256 + 2
/-- Table 03-1, `0x2100+n:03 ENCODING`, U8 RWS P. -/
def Key.sub.ENCODING (i : Nat) : Nat := (0x2100 + i) * 256 + 3
/-- Table 03-1, `0x2100+n:04 DEST_ADDR`, U32 RWS P. -/
def Key.sub.DEST_ADDR (i : Nat) : Nat := (0x2100 + i) * 256 + 4
/-- Table 03-1, `0x2100+n:05 DEST_PORT`, U16 RWS P. -/
def Key.sub.DEST_PORT (i : Nat) : Nat := (0x2100 + i) * 256 + 5
/-- Table 03-1, `0x2100+n:06 SOURCE_ADDR`, U32 RWS P. -/
def Key.sub.SOURCE_ADDR (i : Nat) : Nat := (0x2100 + i) * 256 + 6
/-- Table 03-1, `0x2100+n:07 PORT`, U8 RWS P. -/
def Key.sub.PORT (i : Nat) : Nat := (0x2100 + i) * 256 + 7
/-- Table 03-1, `0x2100+n:08 PAIR`, U8 RWS P. -/
def Key.sub.PAIR (i : Nat) : Nat := (0x2100 + i) * 256 + 8
/-- Table 03-1, `0x2100+n:09 PAYLOAD_TYPE`, U8 RWS P. -/
def Key.sub.PAYLOAD_TYPE (i : Nat) : Nat := (0x2100 + i) * 256 + 9
/-- Table 03-1, `0x2100+n:0A CHANNELS`, U8 RWS P. -/
def Key.sub.CHANNELS (i : Nat) : Nat := (0x2100 + i) * 256 + 10
/-- Table 03-1, `0x2100+n:0B PTIME`, U8 RWS P. -/
def Key.sub.PTIME (i : Nat) : Nat := (0x2100 + i) * 256 + 11
/-- Table 03-1, `0x2100+n:0C RTP_OFFSET`, U32 RWS P. -/
def Key.sub.RTP_OFFSET (i : Nat) : Nat := (0x2100 + i) * 256 + 12
/-- Table 03-1, `0x2100+n:0D OBJ_FIRST`, U16 RWS P. -/
def Key.sub.OBJ_FIRST (i : Nat) : Nat := (0x2100 + i) * 256 + 13
/-- Table 03-1, `0x2100+n:0E OBJ_COUNT`, U16 RWS P. -/
def Key.sub.OBJ_COUNT (i : Nat) : Nat := (0x2100 + i) * 256 + 14

/-! Table 03-5 -/

/-- Table 03-5, `0x2050:01 LINK_OFFSET`, U32 RWS P. -/
def Key.eng.LINK_OFFSET : Nat := 0x2050 * 256 + 1
/-- Table 03-5, `0x2050:02 LINK_OFFSET_SAMPLES`, U16 RO. -/
def Key.eng.LINK_OFFSET_SAMPLES : Nat := 0x2050 * 256 + 2
/-- Table 03-5, `0x2050:03 MALFORMED_LIMIT`, U16 RW P. -/
def Key.eng.MALFORMED_LIMIT : Nat := 0x2050 * 256 + 3
/-- Table 03-5, `0x2050:04 FENCE_RETRY`, U16 RW P. -/
def Key.eng.FENCE_RETRY : Nat := 0x2050 * 256 + 4
/-- Table 03-5, `0x2050:05 LOSS_BLOCKS`, U8 RW P. -/
def Key.eng.LOSS_BLOCKS : Nat := 0x2050 * 256 + 5
/-- Table 03-5, `0x2050:06 TOTAL_CHANNELS`, U16 RO. -/
def Key.eng.TOTAL_CHANNELS : Nat := 0x2050 * 256 + 6

/-! Table 03-10 -/

/-- Table 03-10, `0x2180+n:01 STREAM_STATE`, U8 RO. -/
def Key.st.STREAM_STATE (i : Nat) : Nat := (0x2180 + i) * 256 + 1
/-- Table 03-10, `0x2180+n:02 RX_PACKETS`, U32 RO. -/
def Key.st.RX_PACKETS (i : Nat) : Nat := (0x2180 + i) * 256 + 2
/-- Table 03-10, `0x2180+n:03 VALID`, U32 RO. -/
def Key.st.VALID (i : Nat) : Nat := (0x2180 + i) * 256 + 3
/-- Table 03-10, `0x2180+n:04 EARLY`, U32 RO. -/
def Key.st.EARLY (i : Nat) : Nat := (0x2180 + i) * 256 + 4
/-- Table 03-10, `0x2180+n:05 LATE`, U32 RO. -/
def Key.st.LATE (i : Nat) : Nat := (0x2180 + i) * 256 + 5
/-- Table 03-10, `0x2180+n:06 DUPLICATE`, U32 RO. -/
def Key.st.DUPLICATE (i : Nat) : Nat := (0x2180 + i) * 256 + 6
/-- Table 03-10, `0x2180+n:07 MALFORMED`, U32 RO. -/
def Key.st.MALFORMED (i : Nat) : Nat := (0x2180 + i) * 256 + 7
/-- Table 03-10, `0x2180+n:08 LATE_SAMPLES`, U32 RO. -/
def Key.st.LATE_SAMPLES (i : Nat) : Nat := (0x2180 + i) * 256 + 8
/-- Table 03-10, `0x2180+n:09 MISSING_SAMPLES`, U32 RO. -/
def Key.st.MISSING_SAMPLES (i : Nat) : Nat := (0x2180 + i) * 256 + 9
/-- Table 03-10, `0x2180+n:0A MIN_MARGIN`, S32 RO. -/
def Key.st.MIN_MARGIN (i : Nat) : Nat := (0x2180 + i) * 256 + 10
/-- Table 03-10, `0x2180+n:0B PATH_STATE`, U8 RO. -/
def Key.st.PATH_STATE (i : Nat) : Nat := (0x2180 + i) * 256 + 11
/-- Table 03-10, `0x2180+n:0C PATH_DIFF`, S32 RO. -/
def Key.st.PATH_DIFF (i : Nat) : Nat := (0x2180 + i) * 256 + 12
/-- Table 03-10, `0x2180+n:0D SSRC`, U32 RO. -/
def Key.st.SSRC (i : Nat) : Nat := (0x2180 + i) * 256 + 13
/-- Table 03-10, `0x2180+n:0E SSRC_CHANGES`, U32 RO. -/
def Key.st.SSRC_CHANGES (i : Nat) : Nat := (0x2180 + i) * 256 + 14
/-- Table 03-10, `0x2180+n:0F LAST_MALFORMED`, U8 RO. -/
def Key.st.LAST_MALFORMED (i : Nat) : Nat := (0x2180 + i) * 256 + 15
/-- Table 03-10, `0x2180+n:10 FENCE_COUNT`, U32 RO. -/
def Key.st.FENCE_COUNT (i : Nat) : Nat := (0x2180 + i) * 256 + 16
/-- Table 03-10, `0x2180+n:11 FOREIGN_OBJ_PKTS`, U32 RO. -/
def Key.st.FOREIGN_OBJ_PKTS (i : Nat) : Nat := (0x2180 + i) * 256 + 17
/-- Table 03-10, `0x2180+n:12 LAST_SCENE_SEQ`, U16 RO. -/
def Key.st.LAST_SCENE_SEQ (i : Nat) : Nat := (0x2180 + i) * 256 + 18
/-- Table 03-10, `0x2180+n:13 CLEAR`, BOOL WO. -/
def Key.st.CLEAR (i : Nat) : Nat := (0x2180 + i) * 256 + 19
/-- Table 03-10, `0x2180+n:14 FENCE_CLEAR`, BOOL WO. -/
def Key.st.FENCE_CLEAR (i : Nat) : Nat := (0x2180 + i) * 256 + 20

/-! Table 04-4 -/

/-- Table 04-4, `0x5000:01 R_REF`, U32 RW P. -/
def Key.ren.R_REF : Nat := 0x5000 * 256 + 1
/-- Table 04-4, `0x5000:02 ATT_EXP`, U16 RW P. -/
def Key.ren.ATT_EXP : Nat := 0x5000 * 256 + 2
/-- Table 04-4, `0x5000:03 SOUND_SPEED`, U32 RW P. -/
def Key.ren.SOUND_SPEED : Nat := 0x5000 * 256 + 3
/-- Table 04-4, `0x5000:04 DELAY_ENABLE`, BOOL RW P. -/
def Key.ren.DELAY_ENABLE : Nat := 0x5000 * 256 + 4
/-- Table 04-4, `0x5000:05 META_TIMEOUT`, U16 RW P. -/
def Key.ren.META_TIMEOUT : Nat := 0x5000 * 256 + 5
/-- Table 04-4, `0x5000:06 SUB_SEND_GAIN`, DB RW P. -/
def Key.ren.SUB_SEND_GAIN : Nat := 0x5000 * 256 + 6
/-- Table 04-4, `0x5000:07 LFE_GAIN`, DB RW P. -/
def Key.ren.LFE_GAIN : Nat := 0x5000 * 256 + 7
/-- Table 04-4, `0x5000:08 BUS_CLIP`, U16 RW. -/
def Key.ren.BUS_CLIP : Nat := 0x5000 * 256 + 8
/-- Table 04-4, `0x5000:09 OBJECTS_ACTIVE`, U16 RO. -/
def Key.ren.OBJECTS_ACTIVE : Nat := 0x5000 * 256 + 9
/-- Table 04-4, `0x5000:0A META_LATE_TOTAL`, U32 RO. -/
def Key.ren.META_LATE_TOTAL : Nat := 0x5000 * 256 + 10
/-- Table 04-4, `0x5000:0B OUT_OF_HULL_TOTAL`, U32 RO. -/
def Key.ren.OUT_OF_HULL_TOTAL : Nat := 0x5000 * 256 + 11
/-- Table 04-4, `0x5000:0C FENCED_OBJECTS`, U16 RO. -/
def Key.ren.FENCED_OBJECTS : Nat := 0x5000 * 256 + 12

/-! Table 04-5 -/

/-- Table 04-5, `0x5800+n:01 OBJ_ID`, U16 RO. -/
def Key.obj.OBJ_ID (i : Nat) : Nat := (0x5800 + i) * 256 + 1
/-- Table 04-5, `0x5800+n:02 OBJ_STATE`, U8 RO. -/
def Key.obj.OBJ_STATE (i : Nat) : Nat := (0x5800 + i) * 256 + 2
/-- Table 04-5, `0x5800+n:03 OBJ_STATUS`, U8 RO. -/
def Key.obj.OBJ_STATUS (i : Nat) : Nat := (0x5800 + i) * 256 + 3
/-- Table 04-5, `0x5800+n:04 SUB_GROUP`, U8 RW P. -/
def Key.obj.SUB_GROUP (i : Nat) : Nat := (0x5800 + i) * 256 + 4
/-- Table 04-5, `0x5800+n:05 DIRECT_SPEAKER`, U16 RW P. -/
def Key.obj.DIRECT_SPEAKER (i : Nat) : Nat := (0x5800 + i) * 256 + 5
/-- Table 04-5, `0x5800+n:06 TRIM`, DB RW P. -/
def Key.obj.TRIM (i : Nat) : Nat := (0x5800 + i) * 256 + 6
/-- Table 04-5, `0x5800+n:07 POSITION`, POS RO. -/
def Key.obj.POSITION (i : Nat) : Nat := (0x5800 + i) * 256 + 7
/-- Table 04-5, `0x5800+n:08 META_GAIN`, DB RO. -/
def Key.obj.META_GAIN (i : Nat) : Nat := (0x5800 + i) * 256 + 8
/-- Table 04-5, `0x5800+n:09 META_SPREAD`, U8 RO. -/
def Key.obj.META_SPREAD (i : Nat) : Nat := (0x5800 + i) * 256 + 9
/-- Table 04-5, `0x5800+n:0A META_FLAGS`, U8 RO. -/
def Key.obj.META_FLAGS (i : Nat) : Nat := (0x5800 + i) * 256 + 10
/-- Table 04-5, `0x5800+n:0B META_TIME`, TIME RO. -/
def Key.obj.META_TIME (i : Nat) : Nat := (0x5800 + i) * 256 + 11
/-- Table 04-5, `0x5800+n:0C DELAY_NOW`, U32 RO. -/
def Key.obj.DELAY_NOW (i : Nat) : Nat := (0x5800 + i) * 256 + 12
/-- Table 04-5, `0x5800+n:0D META_LATE`, U32 RO. -/
def Key.obj.META_LATE (i : Nat) : Nat := (0x5800 + i) * 256 + 13
/-- Table 04-5, `0x5800+n:0E META_OVERFLOW`, U32 RO. -/
def Key.obj.META_OVERFLOW (i : Nat) : Nat := (0x5800 + i) * 256 + 14
/-- Table 04-5, `0x5800+n:0F FENCE_CLEAR`, BOOL WO. -/
def Key.obj.FENCE_CLEAR (i : Nat) : Nat := (0x5800 + i) * 256 + 15

/-! Table 05-5 -/

/-- Table 05-5, `0x6000+n:01 RENDER_EN`, BOOL RW P. -/
def Key.cin.RENDER_EN (i : Nat) : Nat := (0x6000 + i) * 256 + 1
/-- Table 05-5, `0x6000+n:02 DIR_KIND`, U8 RW P. -/
def Key.cin.DIR_KIND (i j : Nat) : Nat := (0x6000 + i) * 256 + (2 + j)
/-- Table 05-5, `0x6000+n:06 DIR_UNIT`, U8 RW P. -/
def Key.cin.DIR_UNIT (i j : Nat) : Nat := (0x6000 + i) * 256 + (6 + j)
/-- Table 05-5, `0x6000+n:0A DIR_INDEX`, U8 RW P. -/
def Key.cin.DIR_INDEX (i j : Nat) : Nat := (0x6000 + i) * 256 + (10 + j)
/-- Table 05-5, `0x6000+n:0E DIR_GAIN`, DB RW P. -/
def Key.cin.DIR_GAIN (i j : Nat) : Nat := (0x6000 + i) * 256 + (14 + j)
/-- Table 05-5, `0x6000+n:12 FB_KIND`, U8 RW P. -/
def Key.cin.FB_KIND (i : Nat) : Nat := (0x6000 + i) * 256 + 18
/-- Table 05-5, `0x6000+n:13 FB_UNIT`, U8 RW P. -/
def Key.cin.FB_UNIT (i : Nat) : Nat := (0x6000 + i) * 256 + 19
/-- Table 05-5, `0x6000+n:14 FB_INDEX`, U8 RW P. -/
def Key.cin.FB_INDEX (i : Nat) : Nat := (0x6000 + i) * 256 + 20
/-- Table 05-5, `0x6000+n:15 FB_GAIN`, DB RW P. -/
def Key.cin.FB_GAIN (i : Nat) : Nat := (0x6000 + i) * 256 + 21
/-- Table 05-5, `0x6000+n:16 FALLBACK_DELAY`, U16 RW P. -/
def Key.cin.FALLBACK_DELAY (i : Nat) : Nat := (0x6000 + i) * 256 + 22
/-- Table 05-5, `0x6000+n:17 FB_STATE`, U8 RO. -/
def Key.cin.FB_STATE (i : Nat) : Nat := (0x6000 + i) * 256 + 23
/-- Table 05-5, `0x6000+n:18 TRIM`, DB RW P. -/
def Key.cin.TRIM (i : Nat) : Nat := (0x6000 + i) * 256 + 24
/-- Table 05-5, `0x6000+n:19 POLARITY`, BOOL RW P. -/
def Key.cin.POLARITY (i : Nat) : Nat := (0x6000 + i) * 256 + 25
/-- Table 05-5, `0x6000+n:1A NET_STATE`, U8 RO. -/
def Key.cin.NET_STATE (i : Nat) : Nat := (0x6000 + i) * 256 + 26
/-- Table 05-5, `0x6000+n:1B FB_SWITCHES`, U32 RO. -/
def Key.cin.FB_SWITCHES (i : Nat) : Nat := (0x6000 + i) * 256 + 27

/-! Table 05-6 -/

/-- Table 05-6, `0x6100+n:01 BQ_BYPASS`, U32 RWS P. -/
def Key.bq.BQ_BYPASS (i : Nat) : Nat := (0x6100 + i) * 256 + 1
/-- Table 05-6, `0x6100+n:02 BQ_B0`, COEF RWS P. -/
def Key.bq.BQ_B0 (i j : Nat) : Nat := (0x6100 + i) * 256 + (2 + 5 * j)
/-- Table 05-6, `0x6100+n:03 BQ_B1`, COEF RWS P. -/
def Key.bq.BQ_B1 (i j : Nat) : Nat := (0x6100 + i) * 256 + (3 + 5 * j)
/-- Table 05-6, `0x6100+n:04 BQ_B2`, COEF RWS P. -/
def Key.bq.BQ_B2 (i j : Nat) : Nat := (0x6100 + i) * 256 + (4 + 5 * j)
/-- Table 05-6, `0x6100+n:05 BQ_A1`, COEF RWS P. -/
def Key.bq.BQ_A1 (i j : Nat) : Nat := (0x6100 + i) * 256 + (5 + 5 * j)
/-- Table 05-6, `0x6100+n:06 BQ_A2`, COEF RWS P. -/
def Key.bq.BQ_A2 (i j : Nat) : Nat := (0x6100 + i) * 256 + (6 + 5 * j)

/-! Table 05-7 -/

/-- Table 05-7, `0x6200+n:01 FIR_ACTIVE`, U8 RWS P. -/
def Key.fir.FIR_ACTIVE (i : Nat) : Nat := (0x6200 + i) * 256 + 1
/-- Table 05-7, `0x6200+n:02 FIR_XFADE`, U8 RWS P. -/
def Key.fir.FIR_XFADE (i : Nat) : Nat := (0x6200 + i) * 256 + 2
/-- Table 05-7, `0x6200+n:03 FIR_TAPS_A`, U16 RWS P. -/
def Key.fir.FIR_TAPS_A (i : Nat) : Nat := (0x6200 + i) * 256 + 3
/-- Table 05-7, `0x6200+n:04 FIR_TAPS_B`, U16 RWS P. -/
def Key.fir.FIR_TAPS_B (i : Nat) : Nat := (0x6200 + i) * 256 + 4
/-- Table 05-7, `0x6200+n:05 FIR_SHIFT_A`, U8 RWS P. -/
def Key.fir.FIR_SHIFT_A (i : Nat) : Nat := (0x6200 + i) * 256 + 5
/-- Table 05-7, `0x6200+n:06 FIR_SHIFT_B`, U8 RWS P. -/
def Key.fir.FIR_SHIFT_B (i : Nat) : Nat := (0x6200 + i) * 256 + 6
/-- Table 05-7, `0x6200+n:07 FIR_COEF_A`, BLOB RWS P. -/
def Key.fir.FIR_COEF_A (i : Nat) : Nat := (0x6200 + i) * 256 + 7
/-- Table 05-7, `0x6200+n:08 FIR_COEF_B`, BLOB RWS P. -/
def Key.fir.FIR_COEF_B (i : Nat) : Nat := (0x6200 + i) * 256 + 8
/-- Table 05-7, `0x6200+n:09 FIR_STATE`, U8 RO. -/
def Key.fir.FIR_STATE (i : Nat) : Nat := (0x6200 + i) * 256 + 9
/-- Table 05-7, `0x6200+n:0A FIR_XFADE_LEFT`, U16 RO. -/
def Key.fir.FIR_XFADE_LEFT (i : Nat) : Nat := (0x6200 + i) * 256 + 10

/-! Table 05-8 -/

/-- Table 05-8, `0x6300+n:01 ALIGN_DELAY`, U32 RW P. -/
def Key.dly.ALIGN_DELAY (i : Nat) : Nat := (0x6300 + i) * 256 + 1
/-- Table 05-8, `0x6300+n:02 DELAY_TOTAL`, U32 RO. -/
def Key.dly.DELAY_TOTAL (i : Nat) : Nat := (0x6300 + i) * 256 + 2
/-- Table 05-8, `0x6300+n:03 DELAY_SAMPLES`, U16 RO. -/
def Key.dly.DELAY_SAMPLES (i : Nat) : Nat := (0x6300 + i) * 256 + 3
/-- Table 05-8, `0x6300+n:04 LIM_THRESHOLD`, DB RW P. -/
def Key.dly.LIM_THRESHOLD (i : Nat) : Nat := (0x6300 + i) * 256 + 4
/-- Table 05-8, `0x6300+n:05 LIM_RELEASE`, U16 RW P. -/
def Key.dly.LIM_RELEASE (i : Nat) : Nat := (0x6300 + i) * 256 + 5
/-- Table 05-8, `0x6300+n:06 LIM_BUS_TRACK`, BOOL RW P. -/
def Key.dly.LIM_BUS_TRACK (i : Nat) : Nat := (0x6300 + i) * 256 + 6
/-- Table 05-8, `0x6300+n:07 LIM_GR`, DB RO. -/
def Key.dly.LIM_GR (i : Nat) : Nat := (0x6300 + i) * 256 + 7
/-- Table 05-8, `0x6300+n:08 LIM_BLOCKS`, U32 RO. -/
def Key.dly.LIM_BLOCKS (i : Nat) : Nat := (0x6300 + i) * 256 + 8

/-! Table 05-9 -/

/-- Table 05-9, `0x6400+n:01 GAIN`, DB RW P. -/
def Key.gn.GAIN (i : Nat) : Nat := (0x6400 + i) * 256 + 1
/-- Table 05-9, `0x6400+n:02 MUTE`, BOOL RW. -/
def Key.gn.MUTE (i : Nat) : Nat := (0x6400 + i) * 256 + 2
/-- Table 05-9, `0x6400+n:03 V_FS`, U16 RWS P. -/
def Key.gn.V_FS (i : Nat) : Nat := (0x6400 + i) * 256 + 3
/-- Table 05-9, `0x6400+n:04 EXC_SPLIT`, U16 RWS P. -/
def Key.gn.EXC_SPLIT (i : Nat) : Nat := (0x6400 + i) * 256 + 4
/-- Table 05-9, `0x6400+n:05 C_THERMAL`, Q31 RO. -/
def Key.gn.C_THERMAL (i : Nat) : Nat := (0x6400 + i) * 256 + 5
/-- Table 05-9, `0x6400+n:06 C_STAGE`, Q31 RO. -/
def Key.gn.C_STAGE (i : Nat) : Nat := (0x6400 + i) * 256 + 6
/-- Table 05-9, `0x6400+n:07 C_BUS`, Q31 RO. -/
def Key.gn.C_BUS (i : Nat) : Nat := (0x6400 + i) * 256 + 7
/-- Table 05-9, `0x6400+n:08 C_EXC`, Q31 RO. -/
def Key.gn.C_EXC (i : Nat) : Nat := (0x6400 + i) * 256 + 8
/-- Table 05-9, `0x6400+n:09 CEIL_NOW`, Q31 RO. -/
def Key.gn.CEIL_NOW (i : Nat) : Nat := (0x6400 + i) * 256 + 9
/-- Table 05-9, `0x6400+n:0A G_APPLIED`, Q31 RO. -/
def Key.gn.G_APPLIED (i : Nat) : Nat := (0x6400 + i) * 256 + 10
/-- Table 05-9, `0x6400+n:0B PINNED_BY`, U8 RO. -/
def Key.gn.PINNED_BY (i : Nat) : Nat := (0x6400 + i) * 256 + 11
/-- Table 05-9, `0x6400+n:0C PINNED_TIME`, U32 RO. -/
def Key.gn.PINNED_TIME (i : Nat) : Nat := (0x6400 + i) * 256 + 12
/-- Table 05-9, `0x6400+n:0D CLIP_FLAGS`, U16 RW. -/
def Key.gn.CLIP_FLAGS (i : Nat) : Nat := (0x6400 + i) * 256 + 13
/-- Table 05-9, `0x6400+n:0E SRC_INVALID`, U8 RO. -/
def Key.gn.SRC_INVALID (i : Nat) : Nat := (0x6400 + i) * 256 + 14

/-! Table 06-9 -/

/-- Table 06-9, `0xA000:01 BLOCK_COUNT`, U64 RO. -/
def Key.disp.BLOCK_COUNT : Nat := 0xa000 * 256 + 1
/-- Table 06-9, `0xA000:02 DEADLINE_MISSES`, U32 RO. -/
def Key.disp.DEADLINE_MISSES : Nat := 0xa000 * 256 + 2
/-- Table 06-9, `0xA000:03 RENDER_DROPS`, U32 RO. -/
def Key.disp.RENDER_DROPS : Nat := 0xa000 * 256 + 3
/-- Table 06-9, `0xA000:04 PREP_LATE`, U32 RO. -/
def Key.disp.PREP_LATE : Nat := 0xa000 * 256 + 4
/-- Table 06-9, `0xA000:05 MODEL_LATE`, U32 RO. -/
def Key.disp.MODEL_LATE : Nat := 0xa000 * 256 + 5
/-- Table 06-9, `0xA000:06 MIN_SLACK_RENDER`, S32 RO. -/
def Key.disp.MIN_SLACK_RENDER : Nat := 0xa000 * 256 + 6
/-- Table 06-9, `0xA000:07 MIN_SLACK_A`, S32 RO. -/
def Key.disp.MIN_SLACK_A : Nat := 0xa000 * 256 + 7
/-- Table 06-9, `0xA000:08 MIN_SLACK_B`, S32 RO. -/
def Key.disp.MIN_SLACK_B : Nat := 0xa000 * 256 + 8
/-- Table 06-9, `0xA000:09 SLACK_WINDOW`, U16 RW P. -/
def Key.disp.SLACK_WINDOW : Nat := 0xa000 * 256 + 9
/-- Table 06-9, `0xA000:0A MISS_MAP`, U16 RW. -/
def Key.disp.MISS_MAP : Nat := 0xa000 * 256 + 10
/-- Table 06-9, `0xA000:0B TEST_INTERVAL`, U16 RO. -/
def Key.disp.TEST_INTERVAL : Nat := 0xa000 * 256 + 11
/-- Table 06-9, `0xA000:0C LANTERN`, U8 RO. -/
def Key.disp.LANTERN : Nat := 0xa000 * 256 + 12

/-! Table 06-10 -/

/-- Table 06-10, `0xA010+n:01 LANE_STATE`, U8 RO. -/
def Key.lane.LANE_STATE (i : Nat) : Nat := (0xa010 + i) * 256 + 1
/-- Table 06-10, `0xA010+n:02 PLACED_COST`, U32 RO. -/
def Key.lane.PLACED_COST (i : Nat) : Nat := (0xa010 + i) * 256 + 2
/-- Table 06-10, `0xA010+n:03 RENDER_COST`, U32 RO. -/
def Key.lane.RENDER_COST (i : Nat) : Nat := (0xa010 + i) * 256 + 3
/-- Table 06-10, `0xA010+n:04 LANE_MIN_SLACK_A`, S32 RO. -/
def Key.lane.LANE_MIN_SLACK_A (i : Nat) : Nat := (0xa010 + i) * 256 + 4
/-- Table 06-10, `0xA010+n:05 LANE_MIN_SLACK_B`, S32 RO. -/
def Key.lane.LANE_MIN_SLACK_B (i : Nat) : Nat := (0xa010 + i) * 256 + 5
/-- Table 06-10, `0xA010+n:06 LAST_FINISH`, U32 RO. -/
def Key.lane.LAST_FINISH (i : Nat) : Nat := (0xa010 + i) * 256 + 6
/-- Table 06-10, `0xA010+n:07 TESTS_PASSED`, U32 RO. -/
def Key.lane.TESTS_PASSED (i : Nat) : Nat := (0xa010 + i) * 256 + 7
/-- Table 06-10, `0xA010+n:08 TEST_FAILS`, U32 RO. -/
def Key.lane.TEST_FAILS (i : Nat) : Nat := (0xa010 + i) * 256 + 8
/-- Table 06-10, `0xA010+n:09 MICROCODE_VER`, U32 RO. -/
def Key.lane.MICROCODE_VER (i : Nat) : Nat := (0xa010 + i) * 256 + 9
/-- Table 06-10, `0xA010+n:0A FENCE_CAUSE`, U8 RO. -/
def Key.lane.FENCE_CAUSE (i : Nat) : Nat := (0xa010 + i) * 256 + 10
/-- Table 06-10, `0xA010+n:0B FENCE_CLEAR`, BOOL WO. -/
def Key.lane.FENCE_CLEAR (i : Nat) : Nat := (0xa010 + i) * 256 + 11
/-- Table 06-10, `0xA010+n:0C SPEED_EST`, U16 RO. -/
def Key.lane.SPEED_EST (i : Nat) : Nat := (0xa010 + i) * 256 + 12

/-! Table 06-11 -/

/-- Table 06-11, `0xA020:01 THROTTLE_THR`, U16 RW P. -/
def Key.thr.THROTTLE_THR : Nat := 0xa020 * 256 + 1
/-- Table 06-11, `0xA020:02 THROTTLE_LEVEL`, U8 RO. -/
def Key.thr.THROTTLE_LEVEL : Nat := 0xa020 * 256 + 2
/-- Table 06-11, `0xA020:03 LEVEL_MAX`, U8 RW. -/
def Key.thr.LEVEL_MAX : Nat := 0xa020 * 256 + 3
/-- Table 06-11, `0xA020:04 TIME_L`, U32 RO. -/
def Key.thr.TIME_L (j : Nat) : Nat := 0xa020 * 256 + (4 + j)
/-- Table 06-11, `0xA020:08 VCORE_MIN`, U16 RO. -/
def Key.thr.VCORE_MIN : Nat := 0xa020 * 256 + 8
/-- Table 06-11, `0xA020:09 LOW_SENSOR`, U8 RO. -/
def Key.thr.LOW_SENSOR : Nat := 0xa020 * 256 + 9
/-- Table 06-11, `0xA020:0A THROTTLE_ENTRIES`, U32 RO. -/
def Key.thr.THROTTLE_ENTRIES : Nat := 0xa020 * 256 + 10

/-! Table 06-12 -/

/-- Table 06-12, `0xA030:01 CAP_LANE`, U32 CONST. -/
def Key.cost.CAP_LANE : Nat := 0xa030 * 256 + 1
/-- Table 06-12, `0xA030:02 ADMIT_PCT`, U8 CONST. -/
def Key.cost.ADMIT_PCT : Nat := 0xa030 * 256 + 2
/-- Table 06-12, `0xA030:03 LANE_LIMIT`, U32 CONST. -/
def Key.cost.LANE_LIMIT : Nat := 0xa030 * 256 + 3
/-- Table 06-12, `0xA030:04 RENDER_LIMIT`, U32 CONST. -/
def Key.cost.RENDER_LIMIT : Nat := 0xa030 * 256 + 4
/-- Table 06-12, `0xA030:05 K_OBJ_SAMPLE`, U16 CONST. -/
def Key.cost.K_OBJ_SAMPLE : Nat := 0xa030 * 256 + 5
/-- Table 06-12, `0xA030:06 K_DEST_SAMPLE`, U16 CONST. -/
def Key.cost.K_DEST_SAMPLE : Nat := 0xa030 * 256 + 6
/-- Table 06-12, `0xA030:07 K_PREP_OBJ`, U16 CONST. -/
def Key.cost.K_PREP_OBJ : Nat := 0xa030 * 256 + 7
/-- Table 06-12, `0xA030:08 K_PREP_DIR`, U16 CONST. -/
def Key.cost.K_PREP_DIR : Nat := 0xa030 * 256 + 8
/-- Table 06-12, `0xA030:09 K_TRI`, U16 CONST. -/
def Key.cost.K_TRI : Nat := 0xa030 * 256 + 9
/-- Table 06-12, `0xA030:0A K_CH_SAMPLE`, U16 CONST. -/
def Key.cost.K_CH_SAMPLE : Nat := 0xa030 * 256 + 10
/-- Table 06-12, `0xA030:0B K_BQ_SAMPLE`, U16 CONST. -/
def Key.cost.K_BQ_SAMPLE : Nat := 0xa030 * 256 + 11
/-- Table 06-12, `0xA030:0C K_FFT`, U16 RO. -/
def Key.cost.K_FFT : Nat := 0xa030 * 256 + 12
/-- Table 06-12, `0xA030:0D K_PART`, U16 RO. -/
def Key.cost.K_PART : Nat := 0xa030 * 256 + 13
/-- Table 06-12, `0xA030:0E K_MODEL`, U16 CONST. -/
def Key.cost.K_MODEL : Nat := 0xa030 * 256 + 14
/-- Table 06-12, `0xA030:0F TRI_CANDIDATES`, U16 RO. -/
def Key.cost.TRI_CANDIDATES : Nat := 0xa030 * 256 + 15
/-- Table 06-12, `0xA030:10 LANES_IN_SERVICE`, U8 RO. -/
def Key.cost.LANES_IN_SERVICE : Nat := 0xa030 * 256 + 16
/-- Table 06-12, `0xA030:11 COST_TOTAL`, U32 RO. -/
def Key.cost.COST_TOTAL : Nat := 0xa030 * 256 + 17
/-- Table 06-12, `0xA030:12 RENDER_PEAK`, U32 RO. -/
def Key.cost.RENDER_PEAK : Nat := 0xa030 * 256 + 18
/-- Table 06-12, `0xA030:13 LANE_PEAK`, U32 RO. -/
def Key.cost.LANE_PEAK : Nat := 0xa030 * 256 + 19
/-- Table 06-12, `0xA030:14 LAST_REFUSED`, U32 RO. -/
def Key.cost.LAST_REFUSED : Nat := 0xa030 * 256 + 20
/-- Table 06-12, `0xA030:15 REFUSALS`, U32 RO. -/
def Key.cost.REFUSALS : Nat := 0xa030 * 256 + 21

/-! Table 07-7 -/

/-- Table 07-7, `0x7000:01 EXEC_LIMIT`, U8 CONST. -/
def Key.loop.EXEC_LIMIT : Nat := 0x7000 * 256 + 1
/-- Table 07-7, `0x7000:02 EXEC_PEAK`, U8 RO. -/
def Key.loop.EXEC_PEAK : Nat := 0x7000 * 256 + 2
/-- Table 07-7, `0x7000:03 EXEC_PER_CYCLE`, U32 RO. -/
def Key.loop.EXEC_PER_CYCLE : Nat := 0x7000 * 256 + 3
/-- Table 07-7, `0x7000:04 TICK_INDEX`, U64 RO. -/
def Key.loop.TICK_INDEX : Nat := 0x7000 * 256 + 4
/-- Table 07-7, `0x7000:05 OVERRUNS`, U32 RO. -/
def Key.loop.OVERRUNS : Nat := 0x7000 * 256 + 5
/-- Table 07-7, `0x7000:06 SKIPPED`, U32 RO. -/
def Key.loop.SKIPPED : Nat := 0x7000 * 256 + 6
/-- Table 07-7, `0x7000:07 CLOSED_MAP`, U64 RO. -/
def Key.loop.CLOSED_MAP : Nat := 0x7000 * 256 + 7
/-- Table 07-7, `0x7000:08 TRIPPED_MAP`, U64 RO. -/
def Key.loop.TRIPPED_MAP : Nat := 0x7000 * 256 + 8
/-- Table 07-7, `0x7000:09 FENCED_MAP`, U64 RO. -/
def Key.loop.FENCED_MAP : Nat := 0x7000 * 256 + 9
/-- Table 07-7, `0x7000:0A FLAGS_MAP`, U64 RO. -/
def Key.loop.FLAGS_MAP : Nat := 0x7000 * 256 + 10
/-- Table 07-7, `0x7000:0B ENGINE_VER`, U32 RO. -/
def Key.loop.ENGINE_VER : Nat := 0x7000 * 256 + 11

/-! Table 07-8 -/

/-- Table 07-8, `0x7100+n:01 SLOT_EN`, BOOL RWS P. -/
def Key.ls.SLOT_EN (i : Nat) : Nat := (0x7100 + i) * 256 + 1
/-- Table 07-8, `0x7100+n:02 STATE_REQ`, U8 RW P. -/
def Key.ls.STATE_REQ (i : Nat) : Nat := (0x7100 + i) * 256 + 2
/-- Table 07-8, `0x7100+n:03 SLOT_STATE`, U8 RO. -/
def Key.ls.SLOT_STATE (i : Nat) : Nat := (0x7100 + i) * 256 + 3
/-- Table 07-8, `0x7100+n:04 RATE_K`, U8 RWS P. -/
def Key.ls.RATE_K (i : Nat) : Nat := (0x7100 + i) * 256 + 4
/-- Table 07-8, `0x7100+n:05 PHASE`, U16 RWS P. -/
def Key.ls.PHASE (i : Nat) : Nat := (0x7100 + i) * 256 + 5
/-- Table 07-8, `0x7100+n:06 SP_SRC`, U16 RWS P. -/
def Key.ls.SP_SRC (i : Nat) : Nat := (0x7100 + i) * 256 + 6
/-- Table 07-8, `0x7100+n:07 SP_GAIN_SRC`, U16 RWS P. -/
def Key.ls.SP_GAIN_SRC (i : Nat) : Nat := (0x7100 + i) * 256 + 7
/-- Table 07-8, `0x7100+n:08 PV_SRC`, U16 RWS P. -/
def Key.ls.PV_SRC (i : Nat) : Nat := (0x7100 + i) * 256 + 8
/-- Table 07-8, `0x7100+n:09 FF_SRC`, U16 RWS P. -/
def Key.ls.FF_SRC (i : Nat) : Nat := (0x7100 + i) * 256 + 9
/-- Table 07-8, `0x7100+n:0A SP_INTERP`, U8 RWS P. -/
def Key.ls.SP_INTERP (i : Nat) : Nat := (0x7100 + i) * 256 + 10
/-- Table 07-8, `0x7100+n:0B SP_TARGET`, S32 RW P. -/
def Key.ls.SP_TARGET (i : Nat) : Nat := (0x7100 + i) * 256 + 11
/-- Table 07-8, `0x7100+n:0C RAMP`, U32 RWO P. -/
def Key.ls.RAMP (i : Nat) : Nat := (0x7100 + i) * 256 + 12
/-- Table 07-8, `0x7100+n:0D KP`, COEF RWO P. -/
def Key.ls.KP (i : Nat) : Nat := (0x7100 + i) * 256 + 13
/-- Table 07-8, `0x7100+n:0E KI`, COEF RWO P. -/
def Key.ls.KI (i : Nat) : Nat := (0x7100 + i) * 256 + 14
/-- Table 07-8, `0x7100+n:0F AD`, COEF RWO P. -/
def Key.ls.AD (i : Nat) : Nat := (0x7100 + i) * 256 + 15
/-- Table 07-8, `0x7100+n:10 BD`, COEF RWO P. -/
def Key.ls.BD (i : Nat) : Nat := (0x7100 + i) * 256 + 16
/-- Table 07-8, `0x7100+n:11 KFF`, COEF RWO P. -/
def Key.ls.KFF (i : Nat) : Nat := (0x7100 + i) * 256 + 17
/-- Table 07-8, `0x7100+n:12 EMIN`, S32 RWO P. -/
def Key.ls.EMIN (i : Nat) : Nat := (0x7100 + i) * 256 + 18
/-- Table 07-8, `0x7100+n:13 EMAX`, S32 RWO P. -/
def Key.ls.EMAX (i : Nat) : Nat := (0x7100 + i) * 256 + 19
/-- Table 07-8, `0x7100+n:14 IMIN`, S32 RWO P. -/
def Key.ls.IMIN (i : Nat) : Nat := (0x7100 + i) * 256 + 20
/-- Table 07-8, `0x7100+n:15 IMAX`, S32 RWO P. -/
def Key.ls.IMAX (i : Nat) : Nat := (0x7100 + i) * 256 + 21
/-- Table 07-8, `0x7100+n:16 UMIN`, S32 RWO P. -/
def Key.ls.UMIN (i : Nat) : Nat := (0x7100 + i) * 256 + 22
/-- Table 07-8, `0x7100+n:17 UMAX`, S32 RWO P. -/
def Key.ls.UMAX (i : Nat) : Nat := (0x7100 + i) * 256 + 23
/-- Table 07-8, `0x7100+n:18 MAN`, S32 RW P. -/
def Key.ls.MAN (i : Nat) : Nat := (0x7100 + i) * 256 + 24
/-- Table 07-8, `0x7100+n:19 MAN_RATE`, U32 RW P. -/
def Key.ls.MAN_RATE (i : Nat) : Nat := (0x7100 + i) * 256 + 25
/-- Table 07-8, `0x7100+n:1A MAN_HOLD`, BOOL RW P. -/
def Key.ls.MAN_HOLD (i : Nat) : Nat := (0x7100 + i) * 256 + 26
/-- Table 07-8, `0x7100+n:1B FE_LIMIT`, U32 RWO P. -/
def Key.ls.FE_LIMIT (i : Nat) : Nat := (0x7100 + i) * 256 + 27
/-- Table 07-8, `0x7100+n:1C FE_TIME`, U16 RWO P. -/
def Key.ls.FE_TIME (i : Nat) : Nat := (0x7100 + i) * 256 + 28
/-- Table 07-8, `0x7100+n:1D FE_ACTION`, U8 RWO P. -/
def Key.ls.FE_ACTION (i : Nat) : Nat := (0x7100 + i) * 256 + 29
/-- Table 07-8, `0x7100+n:1E RISE_GATE`, BOOL RWO P. -/
def Key.ls.RISE_GATE (i : Nat) : Nat := (0x7100 + i) * 256 + 30
/-- Table 07-8, `0x7100+n:1F OWNER_CH`, U8 RWO P. -/
def Key.ls.OWNER_CH (i : Nat) : Nat := (0x7100 + i) * 256 + 31
/-- Table 07-8, `0x7100+n:20 FLAGS`, U16 RW. -/
def Key.ls.FLAGS (i : Nat) : Nat := (0x7100 + i) * 256 + 32
/-- Table 07-8, `0x7100+n:21 STATUS`, U8 RO. -/
def Key.ls.STATUS (i : Nat) : Nat := (0x7100 + i) * 256 + 33
/-- Table 07-8, `0x7100+n:22 SP_NOW`, S32 RO. -/
def Key.ls.SP_NOW (i : Nat) : Nat := (0x7100 + i) * 256 + 34
/-- Table 07-8, `0x7100+n:23 PV_NOW`, S32 RO. -/
def Key.ls.PV_NOW (i : Nat) : Nat := (0x7100 + i) * 256 + 35
/-- Table 07-8, `0x7100+n:24 I_NOW`, S32 RO. -/
def Key.ls.I_NOW (i : Nat) : Nat := (0x7100 + i) * 256 + 36
/-- Table 07-8, `0x7100+n:25 D_NOW`, S32 RO. -/
def Key.ls.D_NOW (i : Nat) : Nat := (0x7100 + i) * 256 + 37
/-- Table 07-8, `0x7100+n:26 U_NOW`, S32 RO. -/
def Key.ls.U_NOW (i : Nat) : Nat := (0x7100 + i) * 256 + 38
/-- Table 07-8, `0x7100+n:27 FE_TRIPS`, U32 RO. -/
def Key.ls.FE_TRIPS (i : Nat) : Nat := (0x7100 + i) * 256 + 39
/-- Table 07-8, `0x7100+n:28 FENCE_CAUSE`, U8 RO. -/
def Key.ls.FENCE_CAUSE (i : Nat) : Nat := (0x7100 + i) * 256 + 40
/-- Table 07-8, `0x7100+n:29 FENCE_CLEAR`, BOOL WO. -/
def Key.ls.FENCE_CLEAR (i : Nat) : Nat := (0x7100 + i) * 256 + 41

/-! Table 07-12 -/

/-- Table 07-12, `0x7200+n:01 FL_ENABLE`, BOOL RW P. -/
def Key.fl.FL_ENABLE (i : Nat) : Nat := (0x7200 + i) * 256 + 1
/-- Table 07-12, `0x7200+n:02 FL_STATE`, U8 RO. -/
def Key.fl.FL_STATE (i : Nat) : Nat := (0x7200 + i) * 256 + 2
/-- Table 07-12, `0x7200+n:03 FL_MODE`, U8 RWO P. -/
def Key.fl.FL_MODE (i : Nat) : Nat := (0x7200 + i) * 256 + 3
/-- Table 07-12, `0x7200+n:04 FL_PERIOD`, U32 RWO P. -/
def Key.fl.FL_PERIOD (i : Nat) : Nat := (0x7200 + i) * 256 + 4
/-- Table 07-12, `0x7200+n:05 FL_POINTS`, U16 RWO P. -/
def Key.fl.FL_POINTS (i : Nat) : Nat := (0x7200 + i) * 256 + 5
/-- Table 07-12, `0x7200+n:06 FL_L`, COEF RWO P. -/
def Key.fl.FL_L (i : Nat) : Nat := (0x7200 + i) * 256 + 6
/-- Table 07-12, `0x7200+n:07 FL_Q`, COEF RWO P. -/
def Key.fl.FL_Q (i : Nat) : Nat := (0x7200 + i) * 256 + 7
/-- Table 07-12, `0x7200+n:08 FL_LEAD`, U8 RWO P. -/
def Key.fl.FL_LEAD (i : Nat) : Nat := (0x7200 + i) * 256 + 8
/-- Table 07-12, `0x7200+n:09 FL_STEP_LIMIT`, U16 RWO P. -/
def Key.fl.FL_STEP_LIMIT (i : Nat) : Nat := (0x7200 + i) * 256 + 9
/-- Table 07-12, `0x7200+n:0A FL_CORR_MAX`, U16 RWO P. -/
def Key.fl.FL_CORR_MAX (i : Nat) : Nat := (0x7200 + i) * 256 + 10
/-- Table 07-12, `0x7200+n:0B FL_FREQ`, U32 RO. -/
def Key.fl.FL_FREQ (i : Nat) : Nat := (0x7200 + i) * 256 + 11
/-- Table 07-12, `0x7200+n:0C FL_PERIOD_NOW`, U32 RO. -/
def Key.fl.FL_PERIOD_NOW (i : Nat) : Nat := (0x7200 + i) * 256 + 12
/-- Table 07-12, `0x7200+n:0D RIPPLE_IN`, U32 RO. -/
def Key.fl.RIPPLE_IN (i : Nat) : Nat := (0x7200 + i) * 256 + 13
/-- Table 07-12, `0x7200+n:0E RIPPLE_OUT`, U32 RO. -/
def Key.fl.RIPPLE_OUT (i : Nat) : Nat := (0x7200 + i) * 256 + 14
/-- Table 07-12, `0x7200+n:0F CORR_PEAK`, U32 RO. -/
def Key.fl.CORR_PEAK (i : Nat) : Nat := (0x7200 + i) * 256 + 15
/-- Table 07-12, `0x7200+n:10 FL_HOLDS`, U32 RO. -/
def Key.fl.FL_HOLDS (i : Nat) : Nat := (0x7200 + i) * 256 + 16
/-- Table 07-12, `0x7200+n:11 FL_CLEAR`, BOOL WO. -/
def Key.fl.FL_CLEAR (i : Nat) : Nat := (0x7200 + i) * 256 + 17
/-- Table 07-12, `0x7200+n:12 FENCE_CLEAR`, BOOL WO. -/
def Key.fl.FENCE_CLEAR (i : Nat) : Nat := (0x7200 + i) * 256 + 18

/-! Table 08-2 -/

/-- Table 08-2, `0x8100+n:01 MODEL_STATE`, U8 RO. -/
def Key.drv.MODEL_STATE (i : Nat) : Nat := (0x8100 + i) * 256 + 1
/-- Table 08-2, `0x8100+n:02 RE_REF`, U32 RWS P. -/
def Key.drv.RE_REF (i : Nat) : Nat := (0x8100 + i) * 256 + 2
/-- Table 08-2, `0x8100+n:03 T_REF`, S16 RWS P. -/
def Key.drv.T_REF (i : Nat) : Nat := (0x8100 + i) * 256 + 3
/-- Table 08-2, `0x8100+n:04 LE`, U32 RWS P. -/
def Key.drv.LE (i : Nat) : Nat := (0x8100 + i) * 256 + 4
/-- Table 08-2, `0x8100+n:05 LE2`, U32 RWS P. -/
def Key.drv.LE2 (i : Nat) : Nat := (0x8100 + i) * 256 + 5
/-- Table 08-2, `0x8100+n:06 RE2`, U32 RWS P. -/
def Key.drv.RE2 (i : Nat) : Nat := (0x8100 + i) * 256 + 6
/-- Table 08-2, `0x8100+n:07 FS`, U32 RWS P. -/
def Key.drv.FS (i : Nat) : Nat := (0x8100 + i) * 256 + 7
/-- Table 08-2, `0x8100+n:08 QTS`, U16 RWS P. -/
def Key.drv.QTS (i : Nat) : Nat := (0x8100 + i) * 256 + 8
/-- Table 08-2, `0x8100+n:09 QES`, U16 RWS P. -/
def Key.drv.QES (i : Nat) : Nat := (0x8100 + i) * 256 + 9
/-- Table 08-2, `0x8100+n:0A QMS`, U16 RWS P. -/
def Key.drv.QMS (i : Nat) : Nat := (0x8100 + i) * 256 + 10
/-- Table 08-2, `0x8100+n:0B BL_MMS_SEL`, U8 RWS P. -/
def Key.drv.BL_MMS_SEL (i : Nat) : Nat := (0x8100 + i) * 256 + 11
/-- Table 08-2, `0x8100+n:0C BL`, U32 RWS P. -/
def Key.drv.BL (i : Nat) : Nat := (0x8100 + i) * 256 + 12
/-- Table 08-2, `0x8100+n:0D MMS`, U32 RWS P. -/
def Key.drv.MMS (i : Nat) : Nat := (0x8100 + i) * 256 + 13
/-- Table 08-2, `0x8100+n:0E BL_USED`, U32 RO. -/
def Key.drv.BL_USED (i : Nat) : Nat := (0x8100 + i) * 256 + 14
/-- Table 08-2, `0x8100+n:0F MMS_USED`, U32 RO. -/
def Key.drv.MMS_USED (i : Nat) : Nat := (0x8100 + i) * 256 + 15
/-- Table 08-2, `0x8100+n:10 FS_TARGET`, U32 RWS P. -/
def Key.drv.FS_TARGET (i : Nat) : Nat := (0x8100 + i) * 256 + 16
/-- Table 08-2, `0x8100+n:11 Q_TARGET`, U16 RWS P. -/
def Key.drv.Q_TARGET (i : Nat) : Nat := (0x8100 + i) * 256 + 17
/-- Table 08-2, `0x8100+n:12 RE_NOW`, U32 RO. -/
def Key.drv.RE_NOW (i : Nat) : Nat := (0x8100 + i) * 256 + 18
/-- Table 08-2, `0x8100+n:13 FS_TRACKED`, U32 RO. -/
def Key.drv.FS_TRACKED (i : Nat) : Nat := (0x8100 + i) * 256 + 19
/-- Table 08-2, `0x8100+n:14 FS_DRIFT`, S16 RO. -/
def Key.drv.FS_DRIFT (i : Nat) : Nat := (0x8100 + i) * 256 + 20
/-- Table 08-2, `0x8100+n:15 DRIFT_LIMIT`, U16 RW P. -/
def Key.drv.DRIFT_LIMIT (i : Nat) : Nat := (0x8100 + i) * 256 + 21
/-- Table 08-2, `0x8100+n:16 TRACK_LEVEL`, DB RW P. -/
def Key.drv.TRACK_LEVEL (i : Nat) : Nat := (0x8100 + i) * 256 + 22
/-- Table 08-2, `0x8100+n:17 PROTECTION`, U8 RO. -/
def Key.drv.PROTECTION (i : Nat) : Nat := (0x8100 + i) * 256 + 23

/-! Table 08-3 -/

/-- Table 08-3, `0x8200+n:01 T_COIL_EST`, S32 RO. -/
def Key.thm.T_COIL_EST (i : Nat) : Nat := (0x8200 + i) * 256 + 1
/-- Table 08-3, `0x8200+n:02 T_MAG_EST`, S32 RO. -/
def Key.thm.T_MAG_EST (i : Nat) : Nat := (0x8200 + i) * 256 + 2
/-- Table 08-3, `0x8200+n:03 T_COIL_MEAS`, S32 RO. -/
def Key.thm.T_COIL_MEAS (i : Nat) : Nat := (0x8200 + i) * 256 + 3
/-- Table 08-3, `0x8200+n:04 T_LIMIT`, S16 RW P. -/
def Key.thm.T_LIMIT (i : Nat) : Nat := (0x8200 + i) * 256 + 4
/-- Table 08-3, `0x8200+n:05 T_HARD_OFFSET`, U16 RW P. -/
def Key.thm.T_HARD_OFFSET (i : Nat) : Nat := (0x8200 + i) * 256 + 5
/-- Table 08-3, `0x8200+n:06 T_RESUME_MARGIN`, U16 RW P. -/
def Key.thm.T_RESUME_MARGIN (i : Nat) : Nat := (0x8200 + i) * 256 + 6
/-- Table 08-3, `0x8200+n:07 T_AMB`, S16 RW P. -/
def Key.thm.T_AMB (i : Nat) : Nat := (0x8200 + i) * 256 + 7
/-- Table 08-3, `0x8200+n:08 RTH_VC`, U16 RWS P. -/
def Key.thm.RTH_VC (i : Nat) : Nat := (0x8200 + i) * 256 + 8
/-- Table 08-3, `0x8200+n:09 TAU_VC`, U16 RWS P. -/
def Key.thm.TAU_VC (i : Nat) : Nat := (0x8200 + i) * 256 + 9
/-- Table 08-3, `0x8200+n:0A RTH_M`, U16 RWS P. -/
def Key.thm.RTH_M (i : Nat) : Nat := (0x8200 + i) * 256 + 10
/-- Table 08-3, `0x8200+n:0B TAU_M`, U16 RWS P. -/
def Key.thm.TAU_M (i : Nat) : Nat := (0x8200 + i) * 256 + 11
/-- Table 08-3, `0x8200+n:0C OBS_GAIN`, U16 RW P. -/
def Key.thm.OBS_GAIN (i : Nat) : Nat := (0x8200 + i) * 256 + 12
/-- Table 08-3, `0x8200+n:0D PILOT_EN`, BOOL RW P. -/
def Key.thm.PILOT_EN (i : Nat) : Nat := (0x8200 + i) * 256 + 13
/-- Table 08-3, `0x8200+n:0E PILOT_LEVEL`, U16 RW P. -/
def Key.thm.PILOT_LEVEL (i : Nat) : Nat := (0x8200 + i) * 256 + 14
/-- Table 08-3, `0x8200+n:0F PILOT_STATE`, U8 RO. -/
def Key.thm.PILOT_STATE (i : Nat) : Nat := (0x8200 + i) * 256 + 15
/-- Table 08-3, `0x8200+n:10 PILOT_RESULTS`, U32 RO. -/
def Key.thm.PILOT_RESULTS (i : Nat) : Nat := (0x8200 + i) * 256 + 16
/-- Table 08-3, `0x8200+n:11 PILOT_REJECTS`, U32 RO. -/
def Key.thm.PILOT_REJECTS (i : Nat) : Nat := (0x8200 + i) * 256 + 17
/-- Table 08-3, `0x8200+n:12 T_HARD_TIME`, U16 RO. -/
def Key.thm.T_HARD_TIME (i : Nat) : Nat := (0x8200 + i) * 256 + 18
/-- Table 08-3, `0x8200+n:13 THERMAL_FENCES`, U32 RO. -/
def Key.thm.THERMAL_FENCES (i : Nat) : Nat := (0x8200 + i) * 256 + 19
/-- Table 08-3, `0x8200+n:14 T_COIL_PEAK`, S32 RW. -/
def Key.thm.T_COIL_PEAK (i : Nat) : Nat := (0x8200 + i) * 256 + 20
/-- Table 08-3, `0x8200+n:15 OBS_SAVED`, TIME RO. -/
def Key.thm.OBS_SAVED (i : Nat) : Nat := (0x8200 + i) * 256 + 21

/-! Table 08-4 -/

/-- Table 08-4, `0x8300+n:01 X_LIMIT`, U32 RW P. -/
def Key.exc.X_LIMIT (i : Nat) : Nat := (0x8300 + i) * 256 + 1
/-- Table 08-4, `0x8300+n:02 X_LEAK`, U16 RWS P. -/
def Key.exc.X_LEAK (i : Nat) : Nat := (0x8300 + i) * 256 + 2
/-- Table 08-4, `0x8300+n:03 PREDICT_EN`, BOOL RW P. -/
def Key.exc.PREDICT_EN (i : Nat) : Nat := (0x8300 + i) * 256 + 3
/-- Table 08-4, `0x8300+n:04 V_EST`, S32 RO. -/
def Key.exc.V_EST (i : Nat) : Nat := (0x8300 + i) * 256 + 4
/-- Table 08-4, `0x8300+n:05 X_EST`, S32 RO. -/
def Key.exc.X_EST (i : Nat) : Nat := (0x8300 + i) * 256 + 5
/-- Table 08-4, `0x8300+n:06 X_PUBLISHED`, S32 RO. -/
def Key.exc.X_PUBLISHED (i : Nat) : Nat := (0x8300 + i) * 256 + 6
/-- Table 08-4, `0x8300+n:07 X_PEAK`, U32 RW. -/
def Key.exc.X_PEAK (i : Nat) : Nat := (0x8300 + i) * 256 + 7
/-- Table 08-4, `0x8300+n:08 X_OVER_BLOCKS`, U32 RO. -/
def Key.exc.X_OVER_BLOCKS (i : Nat) : Nat := (0x8300 + i) * 256 + 8

/-! Table 09-10 -/

/-- Table 09-10, `0x8000+n:01 CH_EN`, BOOL RW P. -/
def Key.pw.CH_EN (i : Nat) : Nat := (0x8000 + i) * 256 + 1
/-- Table 09-10, `0x8000+n:02 OUT_STATE`, U8 RO. -/
def Key.pw.OUT_STATE (i : Nat) : Nat := (0x8000 + i) * 256 + 2
/-- Table 09-10, `0x8000+n:03 SEQ_PHASE`, U8 RO. -/
def Key.pw.SEQ_PHASE (i : Nat) : Nat := (0x8000 + i) * 256 + 3
/-- Table 09-10, `0x8000+n:04 STAGGER`, U8 RWS P. -/
def Key.pw.STAGGER (i : Nat) : Nat := (0x8000 + i) * 256 + 4
/-- Table 09-10, `0x8000+n:05 I_LIM_CODE`, U8 RW P. -/
def Key.pw.I_LIM_CODE (i : Nat) : Nat := (0x8000 + i) * 256 + 5
/-- Table 09-10, `0x8000+n:06 I_LIM`, U16 RO. -/
def Key.pw.I_LIM (i : Nat) : Nat := (0x8000 + i) * 256 + 6
/-- Table 09-10, `0x8000+n:07 FF_PREDICT`, BOOL RWS P. -/
def Key.pw.FF_PREDICT (i : Nat) : Nat := (0x8000 + i) * 256 + 7
/-- Table 09-10, `0x8000+n:08 OUT_FILTER`, U8 RWS P. -/
def Key.pw.OUT_FILTER (i : Nat) : Nat := (0x8000 + i) * 256 + 8
/-- Table 09-10, `0x8000+n:09 M_MAX`, U16 RO. -/
def Key.pw.M_MAX (i : Nat) : Nat := (0x8000 + i) * 256 + 9
/-- Table 09-10, `0x8000+n:0A RESTART_GAIN`, DB RO. -/
def Key.pw.RESTART_GAIN (i : Nat) : Nat := (0x8000 + i) * 256 + 10
/-- Table 09-10, `0x8000+n:0B LIMITED_PERIODS`, U32 RO. -/
def Key.pw.LIMITED_PERIODS (i : Nat) : Nat := (0x8000 + i) * 256 + 11
/-- Table 09-10, `0x8000+n:0C STARTS`, U32 RO. -/
def Key.pw.STARTS (i : Nat) : Nat := (0x8000 + i) * 256 + 12

/-! Table 09-11 -/

/-- Table 09-11, `0x8400+n:01 FENCE_CAUSE`, U8 RO. -/
def Key.prot.FENCE_CAUSE (i : Nat) : Nat := (0x8400 + i) * 256 + 1
/-- Table 09-11, `0x8400+n:02 FENCE_CLEAR`, BOOL WO. -/
def Key.prot.FENCE_CLEAR (i : Nat) : Nat := (0x8400 + i) * 256 + 2
/-- Table 09-11, `0x8400+n:03 SHORT_COUNT`, U32 RO. -/
def Key.prot.SHORT_COUNT (i : Nat) : Nat := (0x8400 + i) * 256 + 3
/-- Table 09-11, `0x8400+n:04 PROBE_FAILS`, U8 RO. -/
def Key.prot.PROBE_FAILS (i : Nat) : Nat := (0x8400 + i) * 256 + 4
/-- Table 09-11, `0x8400+n:05 PROBE_Z`, U32 RO. -/
def Key.prot.PROBE_Z (i : Nat) : Nat := (0x8400 + i) * 256 + 5
/-- Table 09-11, `0x8400+n:06 PROBE_NEXT`, TIME RO. -/
def Key.prot.PROBE_NEXT (i : Nat) : Nat := (0x8400 + i) * 256 + 6
/-- Table 09-11, `0x8400+n:07 DC_MEAN`, S32 RO. -/
def Key.prot.DC_MEAN (i : Nat) : Nat := (0x8400 + i) * 256 + 7
/-- Table 09-11, `0x8400+n:08 DC_TRIPS`, U32 RO. -/
def Key.prot.DC_TRIPS (i : Nat) : Nat := (0x8400 + i) * 256 + 8
/-- Table 09-11, `0x8400+n:09 LAST_FENCE`, TIME RO. -/
def Key.prot.LAST_FENCE (i : Nat) : Nat := (0x8400 + i) * 256 + 9
/-- Table 09-11, `0x8400+n:0A FENCE_COUNT`, U32 RO. -/
def Key.prot.FENCE_COUNT (i : Nat) : Nat := (0x8400 + i) * 256 + 10
/-- Table 09-11, `0x8400+n:0B I_PEAK_SEEN`, U16 RW. -/
def Key.prot.I_PEAK_SEEN (i : Nat) : Nat := (0x8400 + i) * 256 + 11

/-! Table 09-12 -/

/-- Table 09-12, `0x8800+n:01 FSW_SEL`, U8 RWS P. -/
def Key.pg.FSW_SEL (i : Nat) : Nat := (0x8800 + i) * 256 + 1
/-- Table 09-12, `0x8800+n:02 GROUP_STATE`, U8 RO. -/
def Key.pg.GROUP_STATE (i : Nat) : Nat := (0x8800 + i) * 256 + 2
/-- Table 09-12, `0x8800+n:03 VBUS_NOW`, U32 RO. -/
def Key.pg.VBUS_NOW (i : Nat) : Nat := (0x8800 + i) * 256 + 3
/-- Table 09-12, `0x8800+n:04 VBUS_EST`, U32 RO. -/
def Key.pg.VBUS_EST (i : Nat) : Nat := (0x8800 + i) * 256 + 4
/-- Table 09-12, `0x8800+n:05 IBUS_BLK`, U32 RO. -/
def Key.pg.IBUS_BLK (i : Nat) : Nat := (0x8800 + i) * 256 + 5
/-- Table 09-12, `0x8800+n:06 IBUS_AVG`, U32 RO. -/
def Key.pg.IBUS_AVG (i : Nat) : Nat := (0x8800 + i) * 256 + 6
/-- Table 09-12, `0x8800+n:07 I_CONT`, U16 RW P. -/
def Key.pg.I_CONT (i : Nat) : Nat := (0x8800 + i) * 256 + 7
/-- Table 09-12, `0x8800+n:08 I_PEAK`, U16 RW P. -/
def Key.pg.I_PEAK (i : Nat) : Nat := (0x8800 + i) * 256 + 8
/-- Table 09-12, `0x8800+n:09 C_BUS_MIN`, DB RW P. -/
def Key.pg.C_BUS_MIN (i : Nat) : Nat := (0x8800 + i) * 256 + 9
/-- Table 09-12, `0x8800+n:0A C_BUS`, Q31 RO. -/
def Key.pg.C_BUS (i : Nat) : Nat := (0x8800 + i) * 256 + 10
/-- Table 09-12, `0x8800+n:0B OV_COUNT`, U32 RO. -/
def Key.pg.OV_COUNT (i : Nat) : Nat := (0x8800 + i) * 256 + 11
/-- Table 09-12, `0x8800+n:0C UV_COUNT`, U32 RO. -/
def Key.pg.UV_COUNT (i : Nat) : Nat := (0x8800 + i) * 256 + 12
/-- Table 09-12, `0x8800+n:0D STARVE_COUNT`, U32 RO. -/
def Key.pg.STARVE_COUNT (i : Nat) : Nat := (0x8800 + i) * 256 + 13
/-- Table 09-12, `0x8800+n:0E UVLO_COUNT`, U32 RO. -/
def Key.pg.UVLO_COUNT (i : Nat) : Nat := (0x8800 + i) * 256 + 14
/-- Table 09-12, `0x8800+n:0F FSW_NOW`, U16 RO. -/
def Key.pg.FSW_NOW (i : Nat) : Nat := (0x8800 + i) * 256 + 15

/-! Table 10-8 -/

/-- Table 10-8, `0x9000:01 MEAS_CHANNELS`, U16 RW. -/
def Key.meas.MEAS_CHANNELS : Nat := 0x9000 * 256 + 1
/-- Table 10-8, `0x9000:02 MEAS_P_MAX`, U32 RW P. -/
def Key.meas.MEAS_P_MAX : Nat := 0x9000 * 256 + 2
/-- Table 10-8, `0x9000:03 MEAS_LEVEL`, U16 RW P. -/
def Key.meas.MEAS_LEVEL : Nat := 0x9000 * 256 + 3
/-- Table 10-8, `0x9000:04 MEAS_SWEEP`, U16 RW P. -/
def Key.meas.MEAS_SWEEP : Nat := 0x9000 * 256 + 4
/-- Table 10-8, `0x9000:05 LC_RUN_EN`, BOOL RW P. -/
def Key.meas.LC_RUN_EN : Nat := 0x9000 * 256 + 5
/-- Table 10-8, `0x9000:06 LC_SILENCE`, U16 RW P. -/
def Key.meas.LC_SILENCE : Nat := 0x9000 * 256 + 6
/-- Table 10-8, `0x9000:07 LC_WAIT`, U16 RW P. -/
def Key.meas.LC_WAIT : Nat := 0x9000 * 256 + 7
/-- Table 10-8, `0x9000:08 IDENT_T`, S16 RW P. -/
def Key.meas.IDENT_T : Nat := 0x9000 * 256 + 8
/-- Table 10-8, `0x9000:09 RESP_MIC`, U16 RW P. -/
def Key.meas.RESP_MIC : Nat := 0x9000 * 256 + 9
/-- Table 10-8, `0x9000:0A RESP_POINT`, U8 RW P. -/
def Key.meas.RESP_POINT : Nat := 0x9000 * 256 + 10
/-- Table 10-8, `0x9000:0B IR_LEN`, U32 RW P. -/
def Key.meas.IR_LEN : Nat := 0x9000 * 256 + 11
/-- Table 10-8, `0x9000:0C FRF_AMPL`, U32 RW P. -/
def Key.meas.FRF_AMPL : Nat := 0x9000 * 256 + 12
/-- Table 10-8, `0x9000:0D CAP_FREE`, U32 RO. -/
def Key.meas.CAP_FREE : Nat := 0x9000 * 256 + 13
/-- Table 10-8, `0x9000:0E CAP_TRIPS`, U32 RO. -/
def Key.meas.CAP_TRIPS : Nat := 0x9000 * 256 + 14
/-- Table 10-8, `0x9000:0F ANALYSES_ACTIVE`, U8 RO. -/
def Key.meas.ANALYSES_ACTIVE : Nat := 0x9000 * 256 + 15
/-- Table 10-8, `0x9000:10 Z_NOM_CH`, U16 RW P. -/
def Key.meas.Z_NOM_CH (j : Nat) : Nat := 0x9000 * 256 + (16 + j)

/-! Table 10-9 -/

/-- Table 10-9, `0x9010+n:01 G_STATE`, U8 RW. -/
def Key.gen.G_STATE (i : Nat) : Nat := (0x9010 + i) * 256 + 1
/-- Table 10-9, `0x9010+n:02 G_WAVE`, U8 RW. -/
def Key.gen.G_WAVE (i : Nat) : Nat := (0x9010 + i) * 256 + 2
/-- Table 10-9, `0x9010+n:03 G_POINT`, U8 RW. -/
def Key.gen.G_POINT (i : Nat) : Nat := (0x9010 + i) * 256 + 3
/-- Table 10-9, `0x9010+n:04 G_TARGET`, U16 RW. -/
def Key.gen.G_TARGET (i : Nat) : Nat := (0x9010 + i) * 256 + 4
/-- Table 10-9, `0x9010+n:05 G_LEVEL`, DB RW. -/
def Key.gen.G_LEVEL (i : Nat) : Nat := (0x9010 + i) * 256 + 5
/-- Table 10-9, `0x9010+n:06 G_FREQ`, U32 RW. -/
def Key.gen.G_FREQ (i : Nat) : Nat := (0x9010 + i) * 256 + 6
/-- Table 10-9, `0x9010+n:07 G_FREQ2`, U32 RW. -/
def Key.gen.G_FREQ2 (i : Nat) : Nat := (0x9010 + i) * 256 + 7
/-- Table 10-9, `0x9010+n:08 G_DURATION`, U32 RW. -/
def Key.gen.G_DURATION (i : Nat) : Nat := (0x9010 + i) * 256 + 8
/-- Table 10-9, `0x9010+n:09 G_FADE`, U16 RW. -/
def Key.gen.G_FADE (i : Nat) : Nat := (0x9010 + i) * 256 + 9
/-- Table 10-9, `0x9010+n:0A G_TONES`, U8 RW. -/
def Key.gen.G_TONES (i : Nat) : Nat := (0x9010 + i) * 256 + 10
/-- Table 10-9, `0x9010+n:0B G_TONE_FREQS`, BLOB RW. -/
def Key.gen.G_TONE_FREQS (i : Nat) : Nat := (0x9010 + i) * 256 + 11
/-- Table 10-9, `0x9010+n:0C G_ARB`, BLOB RW. -/
def Key.gen.G_ARB (i : Nat) : Nat := (0x9010 + i) * 256 + 12
/-- Table 10-9, `0x9010+n:0D G_ARB_LOOP`, BOOL RW. -/
def Key.gen.G_ARB_LOOP (i : Nat) : Nat := (0x9010 + i) * 256 + 13
/-- Table 10-9, `0x9010+n:0E G_SEED`, U32 RW. -/
def Key.gen.G_SEED (i : Nat) : Nat := (0x9010 + i) * 256 + 14
/-- Table 10-9, `0x9010+n:0F G_SG`, U8 RW. -/
def Key.gen.G_SG (i : Nat) : Nat := (0x9010 + i) * 256 + 15
/-- Table 10-9, `0x9010+n:10 G_SAMPLES`, U64 RO. -/
def Key.gen.G_SAMPLES (i : Nat) : Nat := (0x9010 + i) * 256 + 16

/-! Table 10-10 -/

/-- Table 10-10, `0x9020+n:01 C_STATE`, U8 RW. -/
def Key.cap.C_STATE (i : Nat) : Nat := (0x9020 + i) * 256 + 1
/-- Table 10-10, `0x9020+n:02 C_SOURCE`, U16 RW. -/
def Key.cap.C_SOURCE (i : Nat) : Nat := (0x9020 + i) * 256 + 2
/-- Table 10-10, `0x9020+n:03 C_RATE`, U8 RW. -/
def Key.cap.C_RATE (i : Nat) : Nat := (0x9020 + i) * 256 + 3
/-- Table 10-10, `0x9020+n:04 C_FORMAT`, U8 RW. -/
def Key.cap.C_FORMAT (i : Nat) : Nat := (0x9020 + i) * 256 + 4
/-- Table 10-10, `0x9020+n:05 C_LENGTH`, U32 RW. -/
def Key.cap.C_LENGTH (i : Nat) : Nat := (0x9020 + i) * 256 + 5
/-- Table 10-10, `0x9020+n:06 C_PRE`, U32 RW. -/
def Key.cap.C_PRE (i : Nat) : Nat := (0x9020 + i) * 256 + 6
/-- Table 10-10, `0x9020+n:07 C_TRIGGER`, U8 RW. -/
def Key.cap.C_TRIGGER (i : Nat) : Nat := (0x9020 + i) * 256 + 7
/-- Table 10-10, `0x9020+n:08 C_TRIG_ARG`, U8 RW. -/
def Key.cap.C_TRIG_ARG (i : Nat) : Nat := (0x9020 + i) * 256 + 8
/-- Table 10-10, `0x9020+n:09 C_TRIG_TIME`, TIME RW. -/
def Key.cap.C_TRIG_TIME (i : Nat) : Nat := (0x9020 + i) * 256 + 9
/-- Table 10-10, `0x9020+n:0A C_LEVEL`, S32 RW. -/
def Key.cap.C_LEVEL (i : Nat) : Nat := (0x9020 + i) * 256 + 10
/-- Table 10-10, `0x9020+n:0B C_TRIG_AT`, TIME RO. -/
def Key.cap.C_TRIG_AT (i : Nat) : Nat := (0x9020 + i) * 256 + 11
/-- Table 10-10, `0x9020+n:0C C_PRE_VALID`, U32 RO. -/
def Key.cap.C_PRE_VALID (i : Nat) : Nat := (0x9020 + i) * 256 + 12
/-- Table 10-10, `0x9020+n:0D C_DATA`, BLOB RO. -/
def Key.cap.C_DATA (i : Nat) : Nat := (0x9020 + i) * 256 + 13
/-- Table 10-10, `0x9020+n:0E C_BYTES`, U32 RO. -/
def Key.cap.C_BYTES (i : Nat) : Nat := (0x9020 + i) * 256 + 14

/-! Table 10-11 -/

/-- Table 10-11, `0x9100+n:01 RES_STATE`, U8 RO. -/
def Key.res.RES_STATE (i : Nat) : Nat := (0x9100 + i) * 256 + 1
/-- Table 10-11, `0x9100+n:02 RES_KIND`, U16 RO. -/
def Key.res.RES_KIND (i : Nat) : Nat := (0x9100 + i) * 256 + 2
/-- Table 10-11, `0x9100+n:03 RES_HANDLE`, U16 RO. -/
def Key.res.RES_HANDLE (i : Nat) : Nat := (0x9100 + i) * 256 + 3
/-- Table 10-11, `0x9100+n:04 RES_CHANNELS`, U16 RO. -/
def Key.res.RES_CHANNELS (i : Nat) : Nat := (0x9100 + i) * 256 + 4
/-- Table 10-11, `0x9100+n:05 RES_SLOT`, U8 RO. -/
def Key.res.RES_SLOT (i : Nat) : Nat := (0x9100 + i) * 256 + 5
/-- Table 10-11, `0x9100+n:06 RES_START`, TIME RO. -/
def Key.res.RES_START (i : Nat) : Nat := (0x9100 + i) * 256 + 6
/-- Table 10-11, `0x9100+n:07 RES_END`, TIME RO. -/
def Key.res.RES_END (i : Nat) : Nat := (0x9100 + i) * 256 + 7
/-- Table 10-11, `0x9100+n:08 RES_STATUS`, U8 RO. -/
def Key.res.RES_STATUS (i : Nat) : Nat := (0x9100 + i) * 256 + 8
/-- Table 10-11, `0x9100+n:09 RES_POINTS`, U16 RO. -/
def Key.res.RES_POINTS (i : Nat) : Nat := (0x9100 + i) * 256 + 9
/-- Table 10-11, `0x9100+n:0A RES_DATA`, BLOB RO. -/
def Key.res.RES_DATA (i : Nat) : Nat := (0x9100 + i) * 256 + 10
/-- Table 10-11, `0x9100+n:0B RES_HOLD`, BOOL RW. -/
def Key.res.RES_HOLD (i : Nat) : Nat := (0x9100 + i) * 256 + 11
/-- Table 10-11, `0x9100+n:0C RES_FREE`, BOOL WO. -/
def Key.res.RES_FREE (i : Nat) : Nat := (0x9100 + i) * 256 + 12

/-! Table 11-6 -/

/-- Table 11-6, `0x4000+n:01 PORT_EN`, BOOL RWS P. -/
def Key.tdm.PORT_EN (i : Nat) : Nat := (0x4000 + i) * 256 + 1
/-- Table 11-6, `0x4000+n:02 DIR`, U8 RWS P. -/
def Key.tdm.DIR (i : Nat) : Nat := (0x4000 + i) * 256 + 2
/-- Table 11-6, `0x4000+n:03 ROLE`, U8 RWS P. -/
def Key.tdm.ROLE (i : Nat) : Nat := (0x4000 + i) * 256 + 3
/-- Table 11-6, `0x4000+n:04 SLOTS`, U8 RWS P. -/
def Key.tdm.SLOTS (i : Nat) : Nat := (0x4000 + i) * 256 + 4
/-- Table 11-6, `0x4000+n:05 SLOT_WIDTH`, U8 RWS P. -/
def Key.tdm.SLOT_WIDTH (i : Nat) : Nat := (0x4000 + i) * 256 + 5
/-- Table 11-6, `0x4000+n:06 DATA_BITS`, U8 RWS P. -/
def Key.tdm.DATA_BITS (i : Nat) : Nat := (0x4000 + i) * 256 + 6
/-- Table 11-6, `0x4000+n:07 JUSTIFY`, U8 RWS P. -/
def Key.tdm.JUSTIFY (i : Nat) : Nat := (0x4000 + i) * 256 + 7
/-- Table 11-6, `0x4000+n:08 SLOT_OFFSET`, U8 RWS P. -/
def Key.tdm.SLOT_OFFSET (i : Nat) : Nat := (0x4000 + i) * 256 + 8
/-- Table 11-6, `0x4000+n:09 FSYNC_WIDTH`, U8 RWS P. -/
def Key.tdm.FSYNC_WIDTH (i : Nat) : Nat := (0x4000 + i) * 256 + 9
/-- Table 11-6, `0x4000+n:0A FSYNC_POL`, U8 RWS P. -/
def Key.tdm.FSYNC_POL (i : Nat) : Nat := (0x4000 + i) * 256 + 10
/-- Table 11-6, `0x4000+n:0B BCLK_EDGE`, U8 RWS P. -/
def Key.tdm.BCLK_EDGE (i : Nat) : Nat := (0x4000 + i) * 256 + 11
/-- Table 11-6, `0x4000+n:0C OUT_IDLE`, U8 RW P. -/
def Key.tdm.OUT_IDLE (i : Nat) : Nat := (0x4000 + i) * 256 + 12
/-- Table 11-6, `0x4000+n:0D PORT_SG`, U8 RWS P. -/
def Key.tdm.PORT_SG (i : Nat) : Nat := (0x4000 + i) * 256 + 13
/-- Table 11-6, `0x4000+n:0E PORT_STATE`, U8 RO. -/
def Key.tdm.PORT_STATE (i : Nat) : Nat := (0x4000 + i) * 256 + 14
/-- Table 11-6, `0x4000+n:0F PAUSE_AT`, TIME WO. -/
def Key.tdm.PAUSE_AT (i : Nat) : Nat := (0x4000 + i) * 256 + 15
/-- Table 11-6, `0x4000+n:10 RESUME_AT`, TIME WO. -/
def Key.tdm.RESUME_AT (i : Nat) : Nat := (0x4000 + i) * 256 + 16
/-- Table 11-6, `0x4000+n:11 BCLK_HZ`, U32 RO. -/
def Key.tdm.BCLK_HZ (i : Nat) : Nat := (0x4000 + i) * 256 + 17
/-- Table 11-6, `0x4000+n:12 RATE_PPM`, S32 RO. -/
def Key.tdm.RATE_PPM (i : Nat) : Nat := (0x4000 + i) * 256 + 18
/-- Table 11-6, `0x4000+n:13 IN_DELAY`, U32 RO. -/
def Key.tdm.IN_DELAY (i : Nat) : Nat := (0x4000 + i) * 256 + 19
/-- Table 11-6, `0x4000+n:14 OUT_DELAY`, U32 RO. -/
def Key.tdm.OUT_DELAY (i : Nat) : Nat := (0x4000 + i) * 256 + 20
/-- Table 11-6, `0x4000+n:15 FIFO_FILL`, U8 RO. -/
def Key.tdm.FIFO_FILL (i : Nat) : Nat := (0x4000 + i) * 256 + 21
/-- Table 11-6, `0x4000+n:16 FORMAT_ERRORS`, U32 RO. -/
def Key.tdm.FORMAT_ERRORS (i : Nat) : Nat := (0x4000 + i) * 256 + 22
/-- Table 11-6, `0x4000+n:17 FENCE_CAUSE`, U8 RO. -/
def Key.tdm.FENCE_CAUSE (i : Nat) : Nat := (0x4000 + i) * 256 + 23

/-! Table 11-7 -/

/-- Table 11-7, `0x4010+n:01 SLOT_MASK`, U32 RWS P. -/
def Key.tmap.SLOT_MASK (i : Nat) : Nat := (0x4010 + i) * 256 + 1
/-- Table 11-7, `0x4010+n:02 SLOT_MAP`, U32 RWS P. -/
def Key.tmap.SLOT_MAP (i j : Nat) : Nat := (0x4010 + i) * 256 + (2 + j)
/-- Table 11-7, `0x4010+n:22 MASK_ACTIVE`, U32 RO. -/
def Key.tmap.MASK_ACTIVE (i : Nat) : Nat := (0x4010 + i) * 256 + 34
/-- Table 11-7, `0x4010+n:23 MASK_FRAME`, TIME RO. -/
def Key.tmap.MASK_FRAME (i : Nat) : Nat := (0x4010 + i) * 256 + 35
/-- Table 11-7, `0x4010+n:24 FENCE_CLEAR`, BOOL WO. -/
def Key.tmap.FENCE_CLEAR (i : Nat) : Nat := (0x4010 + i) * 256 + 36

/-! Table 11-8 -/

/-- Table 11-8, `0x4020+n:01 AES_EN`, BOOL RW P. -/
def Key.aes.AES_EN (i : Nat) : Nat := (0x4020 + i) * 256 + 1
/-- Table 11-8, `0x4020+n:02 VALIDITY_POLICY`, U8 RW P. -/
def Key.aes.VALIDITY_POLICY (i : Nat) : Nat := (0x4020 + i) * 256 + 2
/-- Table 11-8, `0x4020+n:03 WORD_LEN`, U8 RW P. -/
def Key.aes.WORD_LEN (i : Nat) : Nat := (0x4020 + i) * 256 + 3
/-- Table 11-8, `0x4020+n:04 RX_STATE`, U8 RO. -/
def Key.aes.RX_STATE (i : Nat) : Nat := (0x4020 + i) * 256 + 4
/-- Table 11-8, `0x4020+n:05 RATE_PPM`, S32 RO. -/
def Key.aes.RATE_PPM (i : Nat) : Nat := (0x4020 + i) * 256 + 5
/-- Table 11-8, `0x4020+n:06 CONSUMER`, BOOL RO. -/
def Key.aes.CONSUMER (i : Nat) : Nat := (0x4020 + i) * 256 + 6
/-- Table 11-8, `0x4020+n:07 CS_SUB0`, BLOB RO. -/
def Key.aes.CS_SUB0 (i : Nat) : Nat := (0x4020 + i) * 256 + 7
/-- Table 11-8, `0x4020+n:08 CS_SUB1`, BLOB RO. -/
def Key.aes.CS_SUB1 (i : Nat) : Nat := (0x4020 + i) * 256 + 8
/-- Table 11-8, `0x4020+n:09 CS_CHANGES`, U32 RO. -/
def Key.aes.CS_CHANGES (i : Nat) : Nat := (0x4020 + i) * 256 + 9
/-- Table 11-8, `0x4020+n:0A PARITY_ERRORS`, U32 RO. -/
def Key.aes.PARITY_ERRORS (i : Nat) : Nat := (0x4020 + i) * 256 + 10
/-- Table 11-8, `0x4020+n:0B CODE_ERRORS`, U32 RO. -/
def Key.aes.CODE_ERRORS (i : Nat) : Nat := (0x4020 + i) * 256 + 11
/-- Table 11-8, `0x4020+n:0C CRCC_ERRORS`, U32 RO. -/
def Key.aes.CRCC_ERRORS (i : Nat) : Nat := (0x4020 + i) * 256 + 12
/-- Table 11-8, `0x4020+n:0D INVALID_SAMPLES`, U32 RO. -/
def Key.aes.INVALID_SAMPLES (i : Nat) : Nat := (0x4020 + i) * 256 + 13
/-- Table 11-8, `0x4020+n:0E IN_DELAY`, U32 RO. -/
def Key.aes.IN_DELAY (i : Nat) : Nat := (0x4020 + i) * 256 + 14
/-- Table 11-8, `0x4020+n:0F FIFO_FILL`, U8 RO. -/
def Key.aes.FIFO_FILL (i : Nat) : Nat := (0x4020 + i) * 256 + 15
/-- Table 11-8, `0x4020+n:10 FENCE_CAUSE`, U8 RO. -/
def Key.aes.FENCE_CAUSE (i : Nat) : Nat := (0x4020 + i) * 256 + 16
/-- Table 11-8, `0x4020+n:11 FENCE_CLEAR`, BOOL WO. -/
def Key.aes.FENCE_CLEAR (i : Nat) : Nat := (0x4020 + i) * 256 + 17

/-! Table 11-9 -/

/-- Table 11-9, `0x4022:01 AOUT_EN`, BOOL RW P. -/
def Key.aout.AOUT_EN : Nat := 0x4022 * 256 + 1
/-- Table 11-9, `0x4022:02 AOUT_MAP0`, U32 RW P. -/
def Key.aout.AOUT_MAP0 : Nat := 0x4022 * 256 + 2
/-- Table 11-9, `0x4022:03 AOUT_MAP1`, U32 RW P. -/
def Key.aout.AOUT_MAP1 : Nat := 0x4022 * 256 + 3
/-- Table 11-9, `0x4022:04 AOUT_CS_MODE`, U8 RW P. -/
def Key.aout.AOUT_CS_MODE : Nat := 0x4022 * 256 + 4
/-- Table 11-9, `0x4022:05 AOUT_CS`, BLOB RW P. -/
def Key.aout.AOUT_CS : Nat := 0x4022 * 256 + 5
/-- Table 11-9, `0x4022:06 AOUT_STATE`, U8 RO. -/
def Key.aout.AOUT_STATE : Nat := 0x4022 * 256 + 6

/-! Table 11-10 -/

/-- Table 11-10, `0x4030:01 SLIP_REPEAT_T`, U32 RO. -/
def Key.slip.SLIP_REPEAT_T (j : Nat) : Nat := 0x4030 * 256 + (1 + j)
/-- Table 11-10, `0x4030:05 SLIP_DROP_T`, U32 RO. -/
def Key.slip.SLIP_DROP_T (j : Nat) : Nat := 0x4030 * 256 + (5 + j)
/-- Table 11-10, `0x4030:09 SLIP_REPEAT_A`, U32 RO. -/
def Key.slip.SLIP_REPEAT_A (j : Nat) : Nat := 0x4030 * 256 + (9 + j)
/-- Table 11-10, `0x4030:0B SLIP_DROP_A`, U32 RO. -/
def Key.slip.SLIP_DROP_A (j : Nat) : Nat := 0x4030 * 256 + (11 + j)
/-- Table 11-10, `0x4030:0D SLIP_CLEAR`, BOOL WO. -/
def Key.slip.SLIP_CLEAR : Nat := 0x4030 * 256 + 13

/-! Table 11-11 -/

/-- Table 11-11, `0x4040:01 ZC_TIMEOUT`, U16 RW P. -/
def Key.zc.ZC_TIMEOUT : Nat := 0x4040 * 256 + 1
/-- Table 11-11, `0x4040:02 ZC_WAITS`, U32 RO. -/
def Key.zc.ZC_WAITS : Nat := 0x4040 * 256 + 2
/-- Table 11-11, `0x4040:03 ZC_TIMEOUTS`, U32 RO. -/
def Key.zc.ZC_TIMEOUTS : Nat := 0x4040 * 256 + 3
/-- Table 11-11, `0x4040:04 ZC_LONGEST`, U32 RO. -/
def Key.zc.ZC_LONGEST : Nat := 0x4040 * 256 + 4
/-- Table 11-11, `0x4040:05 ZC_CLEAR`, BOOL WO. -/
def Key.zc.ZC_CLEAR : Nat := 0x4040 * 256 + 5

/-! Table 12-1 -/

/-- Table 12-1, `0x2000+n:01 MAC_EN`, BOOL RW P. -/
def Key.mac.MAC_EN (i : Nat) : Nat := (0x2000 + i) * 256 + 1
/-- Table 12-1, `0x2000+n:02 INTERFACE`, U8 RW P. -/
def Key.mac.INTERFACE (i : Nat) : Nat := (0x2000 + i) * 256 + 2
/-- Table 12-1, `0x2000+n:03 PHY_ADDR`, U8 RW P. -/
def Key.mac.PHY_ADDR (i : Nat) : Nat := (0x2000 + i) * 256 + 3
/-- Table 12-1, `0x2000+n:04 MAC_ADDR`, U64 RO. -/
def Key.mac.MAC_ADDR (i : Nat) : Nat := (0x2000 + i) * 256 + 4
/-- Table 12-1, `0x2000+n:05 LINK_STATE`, U8 RO. -/
def Key.mac.LINK_STATE (i : Nat) : Nat := (0x2000 + i) * 256 + 5
/-- Table 12-1, `0x2000+n:06 PHY_LAT_RX`, S16 RW P. -/
def Key.mac.PHY_LAT_RX (i : Nat) : Nat := (0x2000 + i) * 256 + 6
/-- Table 12-1, `0x2000+n:07 PHY_LAT_TX`, S16 RW P. -/
def Key.mac.PHY_LAT_TX (i : Nat) : Nat := (0x2000 + i) * 256 + 7
/-- Table 12-1, `0x2000+n:08 LINK_CHANGES`, U32 RO. -/
def Key.mac.LINK_CHANGES (i : Nat) : Nat := (0x2000 + i) * 256 + 8
/-- Table 12-1, `0x2000+n:09 LINK_SINCE`, TIME RO. -/
def Key.mac.LINK_SINCE (i : Nat) : Nat := (0x2000 + i) * 256 + 9

/-! Table 12-3 -/

/-- Table 12-3, `0x2020:01 SVC_VID`, U16 RW P. -/
def Key.svc.SVC_VID : Nat := 0x2020 * 256 + 1
/-- Table 12-3, `0x2020:02 SVC_PCP`, U8 RW P. -/
def Key.svc.SVC_PCP : Nat := 0x2020 * 256 + 2
/-- Table 12-3, `0x2020:03 SVC_ACTIVE`, BOOL RO. -/
def Key.svc.SVC_ACTIVE : Nat := 0x2020 * 256 + 3

/-! Table 12-4 -/

/-- Table 12-4, `0x2060+n:01 MON_EN`, BOOL RWS P. -/
def Key.mon.MON_EN (i : Nat) : Nat := (0x2060 + i) * 256 + 1
/-- Table 12-4, `0x2060+n:02 MON_PORT`, U8 RWS P. -/
def Key.mon.MON_PORT (i : Nat) : Nat := (0x2060 + i) * 256 + 2
/-- Table 12-4, `0x2060+n:03 MON_DEST_ADDR`, U32 RWS P. -/
def Key.mon.MON_DEST_ADDR (i : Nat) : Nat := (0x2060 + i) * 256 + 3
/-- Table 12-4, `0x2060+n:04 MON_DEST_PORT`, U16 RWS P. -/
def Key.mon.MON_DEST_PORT (i : Nat) : Nat := (0x2060 + i) * 256 + 4
/-- Table 12-4, `0x2060+n:05 MON_PAYLOAD_TYPE`, U8 RWS P. -/
def Key.mon.MON_PAYLOAD_TYPE (i : Nat) : Nat := (0x2060 + i) * 256 + 5
/-- Table 12-4, `0x2060+n:06 MON_CHANNELS`, U8 RWS P. -/
def Key.mon.MON_CHANNELS (i : Nat) : Nat := (0x2060 + i) * 256 + 6
/-- Table 12-4, `0x2060+n:07 MON_PTIME`, U8 RWS P. -/
def Key.mon.MON_PTIME (i : Nat) : Nat := (0x2060 + i) * 256 + 7
/-- Table 12-4, `0x2060+n:08 MON_RTP_OFFSET`, U32 RWS P. -/
def Key.mon.MON_RTP_OFFSET (i : Nat) : Nat := (0x2060 + i) * 256 + 8
/-- Table 12-4, `0x2060+n:09 MON_SSRC`, U32 RWS P. -/
def Key.mon.MON_SSRC (i : Nat) : Nat := (0x2060 + i) * 256 + 9
/-- Table 12-4, `0x2060+n:0A MON_MAP`, BLOB RWS P. -/
def Key.mon.MON_MAP (i : Nat) : Nat := (0x2060 + i) * 256 + 10
/-- Table 12-4, `0x2060+n:0B MON_PACKETS`, U32 RO. -/
def Key.mon.MON_PACKETS (i : Nat) : Nat := (0x2060 + i) * 256 + 11
/-- Table 12-4, `0x2060+n:0C MON_DROPS`, U32 RO. -/
def Key.mon.MON_DROPS (i : Nat) : Nat := (0x2060 + i) * 256 + 12

/-! Table 12-5 -/

/-- Table 12-5, `0x2040:01 EXACT_USED`, U16 RO. -/
def Key.mc.EXACT_USED : Nat := 0x2040 * 256 + 1
/-- Table 12-5, `0x2040:02 HASH_BINS_USED`, U16 RO. -/
def Key.mc.HASH_BINS_USED : Nat := 0x2040 * 256 + 2
/-- Table 12-5, `0x2040:03 GROUPS`, U16 RO. -/
def Key.mc.GROUPS : Nat := 0x2040 * 256 + 3
/-- Table 12-5, `0x2040:04 HASH_REJECTS`, U32 RO. -/
def Key.mc.HASH_REJECTS : Nat := 0x2040 * 256 + 4
/-- Table 12-5, `0x2040:05 IGMP_MODE_N0`, U8 RO. -/
def Key.mc.IGMP_MODE_N0 : Nat := 0x2040 * 256 + 5
/-- Table 12-5, `0x2040:06 IGMP_MODE_N1`, U8 RO. -/
def Key.mc.IGMP_MODE_N1 : Nat := 0x2040 * 256 + 6

/-! Table 12-7 -/

/-- Table 12-7, `0x2010:01 IP_MODE_N`, U8 RW P. -/
def Key.ip.IP_MODE_N (j : Nat) : Nat := 0x2010 * 256 + (1 + j)
/-- Table 12-7, `0x2010:03 STATIC_ADDR_N`, U32 RW P. -/
def Key.ip.STATIC_ADDR_N (j : Nat) : Nat := 0x2010 * 256 + (3 + j)
/-- Table 12-7, `0x2010:05 STATIC_PREFIX_N`, U8 RW P. -/
def Key.ip.STATIC_PREFIX_N (j : Nat) : Nat := 0x2010 * 256 + (5 + j)
/-- Table 12-7, `0x2010:07 GATEWAY_N`, U32 RW P. -/
def Key.ip.GATEWAY_N (j : Nat) : Nat := 0x2010 * 256 + (7 + j)
/-- Table 12-7, `0x2010:09 ADDR_NOW_N`, U32 RO. -/
def Key.ip.ADDR_NOW_N (j : Nat) : Nat := 0x2010 * 256 + (9 + j)
/-- Table 12-7, `0x2010:0B PREFIX_NOW_N`, U8 RO. -/
def Key.ip.PREFIX_NOW_N (j : Nat) : Nat := 0x2010 * 256 + (11 + j)
/-- Table 12-7, `0x2010:0D ADDR_SOURCE_N`, U8 RO. -/
def Key.ip.ADDR_SOURCE_N (j : Nat) : Nat := 0x2010 * 256 + (13 + j)
/-- Table 12-7, `0x2010:0F DHCP_FALLBACK`, U16 RW P. -/
def Key.ip.DHCP_FALLBACK : Nat := 0x2010 * 256 + 15
/-- Table 12-7, `0x2010:10 ADDR_CONFLICTS`, U32 RO. -/
def Key.ip.ADDR_CONFLICTS : Nat := 0x2010 * 256 + 16

/-! Table 12-8 -/

/-- Table 12-8, `0x2030+n:01 RX_FRAMES`, U32 RO. -/
def Key.net.RX_FRAMES (i : Nat) : Nat := (0x2030 + i) * 256 + 1
/-- Table 12-8, `0x2030+n:02 RX_FCS_ERR`, U32 RO. -/
def Key.net.RX_FCS_ERR (i : Nat) : Nat := (0x2030 + i) * 256 + 2
/-- Table 12-8, `0x2030+n:03 RX_RUNT`, U32 RO. -/
def Key.net.RX_RUNT (i : Nat) : Nat := (0x2030 + i) * 256 + 3
/-- Table 12-8, `0x2030+n:04 RX_OVERSIZE`, U32 RO. -/
def Key.net.RX_OVERSIZE (i : Nat) : Nat := (0x2030 + i) * 256 + 4
/-- Table 12-8, `0x2030+n:05 RX_CONTROL`, U32 RO. -/
def Key.net.RX_CONTROL (i : Nat) : Nat := (0x2030 + i) * 256 + 5
/-- Table 12-8, `0x2030+n:06 RX_VLAN_DROP`, U32 RO. -/
def Key.net.RX_VLAN_DROP (i : Nat) : Nat := (0x2030 + i) * 256 + 6
/-- Table 12-8, `0x2030+n:07 RX_FILTERED`, U32 RO. -/
def Key.net.RX_FILTERED (i : Nat) : Nat := (0x2030 + i) * 256 + 7
/-- Table 12-8, `0x2030+n:08 RX_NOBUF`, U32 RO. -/
def Key.net.RX_NOBUF (i : Nat) : Nat := (0x2030 + i) * 256 + 8
/-- Table 12-8, `0x2030+n:09 RX_NOBUF_TRUNC`, U32 RO. -/
def Key.net.RX_NOBUF_TRUNC (i : Nat) : Nat := (0x2030 + i) * 256 + 9
/-- Table 12-8, `0x2030+n:0A RX_FRAGMENTS`, U32 RO. -/
def Key.net.RX_FRAGMENTS (i : Nat) : Nat := (0x2030 + i) * 256 + 10
/-- Table 12-8, `0x2030+n:0B RX_PTP_EVENT`, U32 RO. -/
def Key.net.RX_PTP_EVENT (i : Nat) : Nat := (0x2030 + i) * 256 + 11
/-- Table 12-8, `0x2030+n:0C TX_FRAMES`, U32 RO. -/
def Key.net.TX_FRAMES (i : Nat) : Nat := (0x2030 + i) * 256 + 12
/-- Table 12-8, `0x2030+n:0D TX_PTP_EVENT`, U32 RO. -/
def Key.net.TX_PTP_EVENT (i : Nat) : Nat := (0x2030 + i) * 256 + 13
/-- Table 12-8, `0x2030+n:0E TX_BYTES`, U32 RO. -/
def Key.net.TX_BYTES (i : Nat) : Nat := (0x2030 + i) * 256 + 14
/-- Table 12-8, `0x2030+n:0F NET_CLEAR`, BOOL WO. -/
def Key.net.NET_CLEAR (i : Nat) : Nat := (0x2030 + i) * 256 + 15

/-! Table 12-9 -/

/-- Table 12-9, `0x2080:01 CAN_EN`, BOOL RW P. -/
def Key.can.CAN_EN : Nat := 0x2080 * 256 + 1
/-- Table 12-9, `0x2080:02 CAN_NOM_RATE`, U32 RW P. -/
def Key.can.CAN_NOM_RATE : Nat := 0x2080 * 256 + 2
/-- Table 12-9, `0x2080:03 CAN_DATA_RATE`, U32 RW P. -/
def Key.can.CAN_DATA_RATE : Nat := 0x2080 * 256 + 3
/-- Table 12-9, `0x2080:04 CAN_NOM_SP`, U8 RW P. -/
def Key.can.CAN_NOM_SP : Nat := 0x2080 * 256 + 4
/-- Table 12-9, `0x2080:05 CAN_DATA_SP`, U8 RW P. -/
def Key.can.CAN_DATA_SP : Nat := 0x2080 * 256 + 5
/-- Table 12-9, `0x2080:06 CAN_NODE`, U8 RO. -/
def Key.can.CAN_NODE : Nat := 0x2080 * 256 + 6
/-- Table 12-9, `0x2080:07 CAN_STATE`, U8 RO. -/
def Key.can.CAN_STATE : Nat := 0x2080 * 256 + 7
/-- Table 12-9, `0x2080:08 CAN_TEC`, U8 RO. -/
def Key.can.CAN_TEC : Nat := 0x2080 * 256 + 8
/-- Table 12-9, `0x2080:09 CAN_REC`, U8 RO. -/
def Key.can.CAN_REC : Nat := 0x2080 * 256 + 9
/-- Table 12-9, `0x2080:0A BUS_OFF_COUNT`, U32 RO. -/
def Key.can.BUS_OFF_COUNT : Nat := 0x2080 * 256 + 10
/-- Table 12-9, `0x2080:0B REASM_DISCARDS`, U32 RO. -/
def Key.can.REASM_DISCARDS : Nat := 0x2080 * 256 + 11
/-- Table 12-9, `0x2080:0C CAN_RX_MSGS`, U32 RO. -/
def Key.can.CAN_RX_MSGS : Nat := 0x2080 * 256 + 12
/-- Table 12-9, `0x2080:0D CAN_TX_MSGS`, U32 RO. -/
def Key.can.CAN_TX_MSGS : Nat := 0x2080 * 256 + 13

/-! Table 13-5 -/

/-- Table 13-5, `0x1110:01 KEY_MONITOR`, BLOB WO P. -/
def Key.key.KEY_MONITOR : Nat := 0x1110 * 256 + 1
/-- Table 13-5, `0x1110:02 KEY_OPERATOR`, BLOB WO P. -/
def Key.key.KEY_OPERATOR : Nat := 0x1110 * 256 + 2
/-- Table 13-5, `0x1110:03 KEY_ENGINEER`, BLOB WO P. -/
def Key.key.KEY_ENGINEER : Nat := 0x1110 * 256 + 3
/-- Table 13-5, `0x1110:04 KEY_SERVICE`, BLOB WO P. -/
def Key.key.KEY_SERVICE : Nat := 0x1110 * 256 + 4
/-- Table 13-5, `0x1110:05 KEY_SET`, U8 RO. -/
def Key.key.KEY_SET : Nat := 0x1110 * 256 + 5
/-- Table 13-5, `0x1110:06 KEY_CLEAR`, U8 WO. -/
def Key.key.KEY_CLEAR : Nat := 0x1110 * 256 + 6

/-! Table 13-7 -/

/-- Table 13-7, `0x1100:01 SESSION_MAX`, U8 CONST. -/
def Key.ses.SESSION_MAX : Nat := 0x1100 * 256 + 1
/-- Table 13-7, `0x1100:02 SESSION_TIMEOUT`, U16 RW P. -/
def Key.ses.SESSION_TIMEOUT : Nat := 0x1100 * 256 + 2
/-- Table 13-7, `0x1100:03 SESSIONS_OPEN`, U8 RO. -/
def Key.ses.SESSIONS_OPEN : Nat := 0x1100 * 256 + 3
/-- Table 13-7, `0x1100:04 OWN_SESSION`, U16 RO. -/
def Key.ses.OWN_SESSION : Nat := 0x1100 * 256 + 4
/-- Table 13-7, `0x1100:05 SESSION_TABLE`, BLOB RO. -/
def Key.ses.SESSION_TABLE : Nat := 0x1100 * 256 + 5
/-- Table 13-7, `0x1100:06 AUTH_FAILURES`, U32 RO. -/
def Key.ses.AUTH_FAILURES : Nat := 0x1100 * 256 + 6
/-- Table 13-7, `0x1100:07 REPLAYS`, U32 RO. -/
def Key.ses.REPLAYS : Nat := 0x1100 * 256 + 7
/-- Table 13-7, `0x1100:08 MALFORMED_MSGS`, U32 RO. -/
def Key.ses.MALFORMED_MSGS : Nat := 0x1100 * 256 + 8

/-! Table 13-10 -/

/-- Table 13-10, `0x1140:01 STAGE_LIMIT`, U32 CONST. -/
def Key.stg.STAGE_LIMIT : Nat := 0x1140 * 256 + 1
/-- Table 13-10, `0x1140:02 STAGE_BYTES`, U32 RO. -/
def Key.stg.STAGE_BYTES : Nat := 0x1140 * 256 + 2
/-- Table 13-10, `0x1140:03 STAGE_ITEMS`, U16 RO. -/
def Key.stg.STAGE_ITEMS : Nat := 0x1140 * 256 + 3
/-- Table 13-10, `0x1140:04 PENDING_TIME`, TIME RO. -/
def Key.stg.PENDING_TIME : Nat := 0x1140 * 256 + 4
/-- Table 13-10, `0x1140:05 LAST_COMMIT_STATUS`, U8 RO. -/
def Key.stg.LAST_COMMIT_STATUS : Nat := 0x1140 * 256 + 5
/-- Table 13-10, `0x1140:06 LAST_COMMIT_AT`, TIME RO. -/
def Key.stg.LAST_COMMIT_AT : Nat := 0x1140 * 256 + 6
/-- Table 13-10, `0x1140:07 LAST_COMMIT_ENTRY`, U32 RO. -/
def Key.stg.LAST_COMMIT_ENTRY : Nat := 0x1140 * 256 + 7

/-! Table 13-11 -/

/-- Table 13-11, `0x1150:01 CLAIM_LIMIT`, U8 CONST. -/
def Key.area.CLAIM_LIMIT : Nat := 0x1150 * 256 + 1
/-- Table 13-11, `0x1150:02 CLAIM_TABLE`, BLOB RO. -/
def Key.area.CLAIM_TABLE : Nat := 0x1150 * 256 + 2
/-- Table 13-11, `0x1150:03 RELEASE_AREA`, U8 WO. -/
def Key.area.RELEASE_AREA : Nat := 0x1150 * 256 + 3
/-- Table 13-11, `0x1150:04 CLAIM_REFUSALS`, U32 RO. -/
def Key.area.CLAIM_REFUSALS : Nat := 0x1150 * 256 + 4

/-! Table 13-12 -/

/-- Table 13-12, `0x1120:01 HANDLE_LIMIT`, U8 CONST. -/
def Key.hnd.HANDLE_LIMIT : Nat := 0x1120 * 256 + 1
/-- Table 13-12, `0x1120:02 HANDLE_KEEP`, U16 CONST. -/
def Key.hnd.HANDLE_KEEP : Nat := 0x1120 * 256 + 2
/-- Table 13-12, `0x1120:03 HANDLES_IN_FLIGHT`, U8 RO. -/
def Key.hnd.HANDLES_IN_FLIGHT : Nat := 0x1120 * 256 + 3
/-- Table 13-12, `0x1120:04 LAST_HANDLE`, U16 RO. -/
def Key.hnd.LAST_HANDLE : Nat := 0x1120 * 256 + 4
/-- Table 13-12, `0x1120:05 HANDLE_TABLE`, BLOB RO. -/
def Key.hnd.HANDLE_TABLE : Nat := 0x1120 * 256 + 5

/-! Table 13-15 -/

/-- Table 13-15, `0x1130:01 RING_SIZE`, U16 CONST. -/
def Key.evt.RING_SIZE : Nat := 0x1130 * 256 + 1
/-- Table 13-15, `0x1130:02 SUB_RANGES`, BLOB RO. -/
def Key.evt.SUB_RANGES : Nat := 0x1130 * 256 + 2
/-- Table 13-15, `0x1130:03 EVT_NEXT_SEQ`, U32 RO. -/
def Key.evt.EVT_NEXT_SEQ : Nat := 0x1130 * 256 + 3
/-- Table 13-15, `0x1130:04 EVT_LOST_TOTAL`, U32 RO. -/
def Key.evt.EVT_LOST_TOTAL : Nat := 0x1130 * 256 + 4
/-- Table 13-15, `0x1130:05 EVT_RAISED`, U32 RO. -/
def Key.evt.EVT_RAISED : Nat := 0x1130 * 256 + 5

/-! Table 14-6 -/

/-- Table 14-6, `0x1000:01 VENDOR`, STRING CONST. -/
def Key.ident.VENDOR : Nat := 0x1000 * 256 + 1
/-- Table 14-6, `0x1000:02 PRODUCT`, STRING CONST. -/
def Key.ident.PRODUCT : Nat := 0x1000 * 256 + 2
/-- Table 14-6, `0x1000:03 ORDER_CODE`, STRING CONST. -/
def Key.ident.ORDER_CODE : Nat := 0x1000 * 256 + 3
/-- Table 14-6, `0x1000:04 SILICON_REV`, U16 CONST. -/
def Key.ident.SILICON_REV : Nat := 0x1000 * 256 + 4
/-- Table 14-6, `0x1000:05 SERIAL`, U64 CONST. -/
def Key.ident.SERIAL : Nat := 0x1000 * 256 + 5
/-- Table 14-6, `0x1000:06 MFG_TIME`, TIME CONST. -/
def Key.ident.MFG_TIME : Nat := 0x1000 * 256 + 6

/-! Table 14-7 -/

/-- Table 14-7, `0x1001:00 MODE_REQUEST`, U8 RW. -/
def Key.mode.MODE_REQUEST : Nat := 0x1001 * 256 + 0
/-- Table 14-7, `0x1002:00 MODE_CURRENT`, U8 RO. -/
def Key.mode.MODE_CURRENT : Nat := 0x1002 * 256 + 0
/-- Table 14-7, `0x1004:00 START_MODE`, U8 RW P. -/
def Key.mode.START_MODE : Nat := 0x1004 * 256 + 0
/-- Table 14-7, `0x1005:00 PIN_STATE`, U8 RO. -/
def Key.mode.PIN_STATE : Nat := 0x1005 * 256 + 0
/-- Table 14-7, `0x1010:00 UNIT_ID`, U8 RO. -/
def Key.mode.UNIT_ID : Nat := 0x1010 * 256 + 0

/-! Table 14-8 -/

/-- Table 14-8, `0x1003:01 REASON`, U8 RO. -/
def Key.rsn.REASON : Nat := 0x1003 * 256 + 1
/-- Table 14-8, `0x1003:02 PREV_MODE`, U8 RO. -/
def Key.rsn.PREV_MODE : Nat := 0x1003 * 256 + 2
/-- Table 14-8, `0x1003:03 CHANGED_AT`, TIME RO. -/
def Key.rsn.CHANGED_AT : Nat := 0x1003 * 256 + 3
/-- Table 14-8, `0x1003:04 WAIT_STATE`, U8 RO. -/
def Key.rsn.WAIT_STATE : Nat := 0x1003 * 256 + 4
/-- Table 14-8, `0x1003:05 MODE_CHANGES`, U32 RO. -/
def Key.rsn.MODE_CHANGES : Nat := 0x1003 * 256 + 5
/-- Table 14-8, `0x1003:06 DAWN_MS`, U16 RO. -/
def Key.rsn.DAWN_MS : Nat := 0x1003 * 256 + 6
/-- Table 14-8, `0x1003:07 RESET_CAUSE`, U8 RO. -/
def Key.rsn.RESET_CAUSE : Nat := 0x1003 * 256 + 7

/-! Table 14-9 -/

/-- Table 14-9, `0x1009:01 MGMT_VER`, U32 RO. -/
def Key.fw.MGMT_VER : Nat := 0x1009 * 256 + 1
/-- Table 14-9, `0x1009:02 LANE_UCODE_VER`, U32 RO. -/
def Key.fw.LANE_UCODE_VER : Nat := 0x1009 * 256 + 2
/-- Table 14-9, `0x1009:03 LOOP_UCODE_VER`, U32 RO. -/
def Key.fw.LOOP_UCODE_VER : Nat := 0x1009 * 256 + 3
/-- Table 14-9, `0x1009:04 TRIM_VER`, U32 RO. -/
def Key.fw.TRIM_VER : Nat := 0x1009 * 256 + 4
/-- Table 14-9, `0x1009:05 ROM_VER`, U32 CONST. -/
def Key.fw.ROM_VER : Nat := 0x1009 * 256 + 5
/-- Table 14-9, `0x1009:06 BOOT_BANK`, U8 RO. -/
def Key.fw.BOOT_BANK : Nat := 0x1009 * 256 + 6
/-- Table 14-9, `0x1009:07 BOOT_FALLBACK`, BOOL RO. -/
def Key.fw.BOOT_FALLBACK : Nat := 0x1009 * 256 + 7

/-! Table 15-3 -/

/-- Table 15-3, `0x1200:01 T_DIE`, S32 RO. -/
def Key.sens.T_DIE (j : Nat) : Nat := 0x1200 * 256 + (1 + j)
/-- Table 15-3, `0x1200:0D VAUX_NOW`, U16 RO. -/
def Key.sens.VAUX_NOW : Nat := 0x1200 * 256 + 13
/-- Table 15-3, `0x1200:0E VIO33_NOW`, U16 RO. -/
def Key.sens.VIO33_NOW : Nat := 0x1200 * 256 + 14
/-- Table 15-3, `0x1200:0F VIO18_NOW`, U16 RO. -/
def Key.sens.VIO18_NOW : Nat := 0x1200 * 256 + 15
/-- Table 15-3, `0x1200:10 VANA_NOW`, U16 RO. -/
def Key.sens.VANA_NOW : Nat := 0x1200 * 256 + 16
/-- Table 15-3, `0x1200:11 VCORE_NOW`, U16 RO. -/
def Key.sens.VCORE_NOW : Nat := 0x1200 * 256 + 17
/-- Table 15-3, `0x1200:12 SENSOR_FAULTS`, U16 RO. -/
def Key.sens.SENSOR_FAULTS : Nat := 0x1200 * 256 + 18
/-- Table 15-3, `0x1200:13 T_DIE_PEAK`, S32 RW. -/
def Key.sens.T_DIE_PEAK : Nat := 0x1200 * 256 + 19

/-! Table 15-4 -/

/-- Table 15-4, `0x1201:01 CAL_AUTO`, BOOL RW P. -/
def Key.cal.CAL_AUTO : Nat := 0x1201 * 256 + 1
/-- Table 15-4, `0x1201:02 CAL_INTERVAL`, U16 RW P. -/
def Key.cal.CAL_INTERVAL : Nat := 0x1201 * 256 + 2
/-- Table 15-4, `0x1201:03 CAL_TEMP_STEP`, U16 RW P. -/
def Key.cal.CAL_TEMP_STEP : Nat := 0x1201 * 256 + 3
/-- Table 15-4, `0x1201:04 CAL_TABLE`, BLOB RO. -/
def Key.cal.CAL_TABLE : Nat := 0x1201 * 256 + 4
/-- Table 15-4, `0x1201:05 CAL_COUNT`, U32 RO. -/
def Key.cal.CAL_COUNT : Nat := 0x1201 * 256 + 5
/-- Table 15-4, `0x1201:06 CAL_ABANDONED`, U32 RO. -/
def Key.cal.CAL_ABANDONED : Nat := 0x1201 * 256 + 6
/-- Table 15-4, `0x1201:07 CAL_REJECTED`, U32 RO. -/
def Key.cal.CAL_REJECTED : Nat := 0x1201 * 256 + 7

/-! Table 15-5 -/

/-- Table 15-5, `0x1250:01 FAN_PRESENT`, U8 RW P. -/
def Key.fan.FAN_PRESENT : Nat := 0x1250 * 256 + 1
/-- Table 15-5, `0x1250:02 FAN_PULSES`, U8 RW P. -/
def Key.fan.FAN_PULSES : Nat := 0x1250 * 256 + 2
/-- Table 15-5, `0x1250:03 FAN_MIN_RPM`, U16 RW P. -/
def Key.fan.FAN_MIN_RPM : Nat := 0x1250 * 256 + 3
/-- Table 15-5, `0x1250:04 FAN_DUTY`, Q31 RO. -/
def Key.fan.FAN_DUTY (j : Nat) : Nat := 0x1250 * 256 + (4 + j)
/-- Table 15-5, `0x1250:08 FAN_RPM`, U16 RO. -/
def Key.fan.FAN_RPM (j : Nat) : Nat := 0x1250 * 256 + (8 + j)
/-- Table 15-5, `0x1250:0C FAN_STALLED`, U8 RO. -/
def Key.fan.FAN_STALLED : Nat := 0x1250 * 256 + 12
/-- Table 15-5, `0x1250:0D FAN_STALLS`, U32 RO. -/
def Key.fan.FAN_STALLS : Nat := 0x1250 * 256 + 13

/-! Table 15-7 -/

/-- Table 15-7, `0x1210:01 LOG_DATA`, BLOB RO. -/
def Key.log.LOG_DATA : Nat := 0x1210 * 256 + 1
/-- Table 15-7, `0x1210:02 LOG_NEXT_SEQ`, U32 RO. -/
def Key.log.LOG_NEXT_SEQ : Nat := 0x1210 * 256 + 2
/-- Table 15-7, `0x1210:03 LOG_OLDEST_SEQ`, U32 RO. -/
def Key.log.LOG_OLDEST_SEQ : Nat := 0x1210 * 256 + 3
/-- Table 15-7, `0x1210:04 LOG_FLUSHED`, U32 RO. -/
def Key.log.LOG_FLUSHED : Nat := 0x1210 * 256 + 4

/-! Table 15-8 -/

/-- Table 15-8, `0x1220:01 LT_ON_MIN`, U32 RO. -/
def Key.life.LT_ON_MIN : Nat := 0x1220 * 256 + 1
/-- Table 15-8, `0x1220:02 LT_RUN_MIN`, U32 RO. -/
def Key.life.LT_RUN_MIN : Nat := 0x1220 * 256 + 2
/-- Table 15-8, `0x1220:03 LT_DAWNS`, U32 RO. -/
def Key.life.LT_DAWNS : Nat := 0x1220 * 256 + 3
/-- Table 15-8, `0x1220:04 LT_ENERGY_CH`, U32 RO. -/
def Key.life.LT_ENERGY_CH (j : Nat) : Nat := 0x1220 * 256 + (4 + j)
/-- Table 15-8, `0x1220:14 LT_TCYCLES_PG`, U32 RO. -/
def Key.life.LT_TCYCLES_PG (j : Nat) : Nat := 0x1220 * 256 + (20 + j)
/-- Table 15-8, `0x1220:18 LT_TJ_MEAN`, S32 RO. -/
def Key.life.LT_TJ_MEAN : Nat := 0x1220 * 256 + 24
/-- Table 15-8, `0x1220:19 LT_TJ_HOT_MIN`, U32 RO. -/
def Key.life.LT_TJ_HOT_MIN : Nat := 0x1220 * 256 + 25
/-- Table 15-8, `0x1220:1A LT_CH_FENCES`, U32 RO. -/
def Key.life.LT_CH_FENCES : Nat := 0x1220 * 256 + 26
/-- Table 15-8, `0x1220:1B LT_SHORTS`, U32 RO. -/
def Key.life.LT_SHORTS : Nat := 0x1220 * 256 + 27
/-- Table 15-8, `0x1220:1C LT_BUS_OV`, U32 RO. -/
def Key.life.LT_BUS_OV : Nat := 0x1220 * 256 + 28
/-- Table 15-8, `0x1220:1D LT_UVLO`, U32 RO. -/
def Key.life.LT_UVLO : Nat := 0x1220 * 256 + 29
/-- Table 15-8, `0x1220:1E RON_TABLE`, BLOB RO. -/
def Key.life.RON_TABLE : Nat := 0x1220 * 256 + 30
/-- Table 15-8, `0x1220:1F RON_DRIFT_MAX`, U16 RO. -/
def Key.life.RON_DRIFT_MAX : Nat := 0x1220 * 256 + 31
/-- Table 15-8, `0x1220:20 RON_LIMIT`, U16 RW P. -/
def Key.life.RON_LIMIT : Nat := 0x1220 * 256 + 32

/-! Table 15-10 -/

/-- Table 15-10, `0x1240:01 FENCE_TOTAL`, U16 RO. -/
def Key.fence.FENCE_TOTAL : Nat := 0x1240 * 256 + 1
/-- Table 15-10, `0x1240:02 FENCED_CHANNELS`, U16 RO. -/
def Key.fence.FENCED_CHANNELS : Nat := 0x1240 * 256 + 2
/-- Table 15-10, `0x1240:03 FENCED_LANES`, U16 RO. -/
def Key.fence.FENCED_LANES : Nat := 0x1240 * 256 + 3
/-- Table 15-10, `0x1240:04 FENCED_SLOTS`, U64 RO. -/
def Key.fence.FENCED_SLOTS : Nat := 0x1240 * 256 + 4
/-- Table 15-10, `0x1240:05 FENCED_UNITS`, U16 RO. -/
def Key.fence.FENCED_UNITS : Nat := 0x1240 * 256 + 5
/-- Table 15-10, `0x1240:06 FENCED_STREAMS_LO`, U64 RO. -/
def Key.fence.FENCED_STREAMS_LO : Nat := 0x1240 * 256 + 6
/-- Table 15-10, `0x1240:07 FENCED_STREAMS_HI`, U64 RO. -/
def Key.fence.FENCED_STREAMS_HI : Nat := 0x1240 * 256 + 7
/-- Table 15-10, `0x1240:08 LOCKED_PEERS`, U8 RO. -/
def Key.fence.LOCKED_PEERS : Nat := 0x1240 * 256 + 8
/-- Table 15-10, `0x1240:09 HS_LATCHED`, U8 RO. -/
def Key.fence.HS_LATCHED : Nat := 0x1240 * 256 + 9
/-- Table 15-10, `0x1240:0A FENCE_CLEAR_CMD`, U32 WO. -/
def Key.fence.FENCE_CLEAR_CMD : Nat := 0x1240 * 256 + 10
/-- Table 15-10, `0x1240:0B FAULT_MASK`, U16 RW P. -/
def Key.fence.FAULT_MASK : Nat := 0x1240 * 256 + 11
/-- Table 15-10, `0x1240:0C FAULT_NOW`, U16 RO. -/
def Key.fence.FAULT_NOW : Nat := 0x1240 * 256 + 12
/-- Table 15-10, `0x1240:0D CLEARS`, U32 RO. -/
def Key.fence.CLEARS : Nat := 0x1240 * 256 + 13
/-- Table 15-10, `0x1240:0E DIVERGENCES`, U32 RO. -/
def Key.fence.DIVERGENCES : Nat := 0x1240 * 256 + 14
/-- Table 15-10, `0x1240:0F DIVERGE_OPEN`, U16 RO. -/
def Key.fence.DIVERGE_OPEN : Nat := 0x1240 * 256 + 15

/-! Table 15-11 -/

/-- Table 15-11, `0x1260:01 HS_STATE_PG`, U8 RO. -/
def Key.hs.HS_STATE_PG (j : Nat) : Nat := 0x1260 * 256 + (1 + j)
/-- Table 15-11, `0x1260:05 HS_FAULTS_PG`, U8 RO. -/
def Key.hs.HS_FAULTS_PG (j : Nat) : Nat := 0x1260 * 256 + (5 + j)
/-- Table 15-11, `0x1260:09 HS_RAMP_PG`, U16 RO. -/
def Key.hs.HS_RAMP_PG (j : Nat) : Nat := 0x1260 * 256 + (9 + j)
/-- Table 15-11, `0x1260:0D HS_FAULT_TOTAL`, U32 RO. -/
def Key.hs.HS_FAULT_TOTAL : Nat := 0x1260 * 256 + 13
/-- Table 15-11, `0x1260:0E HS_CLEAR`, U8 WO. -/
def Key.hs.HS_CLEAR : Nat := 0x1260 * 256 + 14

/-! Table 15-12 -/

/-- Table 15-12, `0x1270:01 NOR_WEAR`, U16 RO. -/
def Key.stor.NOR_WEAR : Nat := 0x1270 * 256 + 1
/-- Table 15-12, `0x1270:02 NOR_ERASES`, U32 RO. -/
def Key.stor.NOR_ERASES : Nat := 0x1270 * 256 + 2
/-- Table 15-12, `0x1270:03 WEAR_WARN`, U16 RW P. -/
def Key.stor.WEAR_WARN : Nat := 0x1270 * 256 + 3

/-! Table 15-13 -/

/-- Table 15-13, `0x1230:01 ACTIVE_BANK`, U8 RO. -/
def Key.upd.ACTIVE_BANK : Nat := 0x1230 * 256 + 1
/-- Table 15-13, `0x1230:02 RECORDED_BANK`, U8 RO. -/
def Key.upd.RECORDED_BANK : Nat := 0x1230 * 256 + 2
/-- Table 15-13, `0x1230:03 BANK_A_VER`, U32 RO. -/
def Key.upd.BANK_A_VER : Nat := 0x1230 * 256 + 3
/-- Table 15-13, `0x1230:04 BANK_B_VER`, U32 RO. -/
def Key.upd.BANK_B_VER : Nat := 0x1230 * 256 + 4
/-- Table 15-13, `0x1230:05 SEC_VERSION`, U16 RO. -/
def Key.upd.SEC_VERSION : Nat := 0x1230 * 256 + 5
/-- Table 15-13, `0x1230:06 UPDATE_STATE`, U8 RO. -/
def Key.upd.UPDATE_STATE : Nat := 0x1230 * 256 + 6
/-- Table 15-13, `0x1230:07 UPDATE_PROGRESS`, U8 RO. -/
def Key.upd.UPDATE_PROGRESS : Nat := 0x1230 * 256 + 7
/-- Table 15-13, `0x1230:08 UPDATE_AT`, TIME RO. -/
def Key.upd.UPDATE_AT : Nat := 0x1230 * 256 + 8
/-- Table 15-13, `0x1230:09 PROBATION_LEFT`, U32 RO. -/
def Key.upd.PROBATION_LEFT : Nat := 0x1230 * 256 + 9
/-- Table 15-13, `0x1230:0A UPDATE_IMAGE`, BLOB WO. -/
def Key.upd.UPDATE_IMAGE : Nat := 0x1230 * 256 + 10
/-- Table 15-13, `0x1230:0B TRIM_PENDING`, U8 RO. -/
def Key.upd.TRIM_PENDING : Nat := 0x1230 * 256 + 11
/-- Table 15-13, `0x1230:0C UPDATE_ABORT`, BOOL WO. -/
def Key.upd.UPDATE_ABORT : Nat := 0x1230 * 256 + 12

end Sys2Proof.Machine
end

