-- ==== Sys2Proof/Machine/Defaults.lean ====
section
/-!
DEFINITION. Machine/Defaults.lean: defaults that depend on the unit: the loop slots by role (R236, Tables 07-1 and
07-9), the domain numbers, the staggers and PHY addresses, the factory values; and the look-up of rows and defaults.
-/

namespace Sys2Proof.Machine

/-- Default of entry `sub` of loop slot `n` (Tables 07-1, 07-9); none where the dictionary row gives it. -/
def slotDflt (n sub : Nat) : Option Value :=
  let damp := n < 16
  let exc := 16 ≤ n ∧ n < 32
  let therm := 32 ≤ n ∧ n < 48
  let stage := 48 ≤ n ∧ n < 52
  let fan := 52 ≤ n ∧ n < 56
  let free := 56 ≤ n
  let c := n % 16
  let g := if stage then n - 48 else n - 52
  let umin : Int := if damp then -0x10000000 else if exc ∨ stage then 0x0CCCCCCD else if therm then 0x20000000
    else if fan then 0x1999999A else -2147483648
  let umax : Int := if damp then 0x10000000 else 2147483647
  let man : Int := if exc ∨ therm ∨ stage then 2147483647 else if fan then 0x4CCCCCCD else 0
  match sub with
  | 1 => some (.num (if free then 0 else 1))
  | 2 => some (.num (if stage ∨ fan then 1 else 0))
  | 4 => some (.num (if exc then 3 else if therm then 10 else if stage ∨ fan then 12 else 0))
  | 5 => some (.num (if exc then c % 8 else if therm then 64 * c else if stage then 1024 * g + 32
      else if fan then 1024 * g + 544 else 0))
  | 6 => some (.num (if damp then 0x0900 + c else if exc then 0x0F00 + c else if therm then 0x0E00 + c else 0))
  | 7 => some (.num (if damp then 0x0D10 + c else 0))
  | 8 => some (.num (if damp then 0x0300 + c else if exc then 0x8400 + c else if therm then 0x0500 + c
      else if stage ∨ fan then 0x0600 + g else 0))
  | 10 => some (.num (if damp then 1 else 0))
  | 11 => some (.num (if stage then 7208960 else if fan then 5570560 else 0))
  | 13 => some (if stage then .coef 0x40000000 18 else if fan then .coef (-0x66666666) 19 else .coef 0 31)
  | 14 => some (if stage then .coef 0x40000000 24 else if fan then .coef (-0x40000000) 27 else .coef 0 31)
  | 19 => some (.num (if stage ∨ fan then 131072 else 2147483647))
  | 20 => some (.num umin)
  | 21 => some (.num umax)
  | 22 => some (.num umin)
  | 23 => some (.num umax)
  | 24 => some (.num man)
  | 25 => some (.num (if damp then 0x01000000 else 0))
  | 29 => some (.num (if damp then 2 else 3))
  | 30 => some (.num (if exc ∨ therm then 1 else 0))
  | 31 => some (.num (if damp ∨ exc ∨ therm then c else 0xFF))
  | _ => none

/-- Whether the dictionary row covers a subindex. -/
def Row.hasSub (r : Row) (sub : Nat) : Bool :=
  decide (r.sub ≤ sub) && (sub - r.sub) % r.stride == 0 && decide ((sub - r.sub) / r.stride < r.cnt)

/-- Whether the dictionary row covers an index. -/
def Row.hasIndex (r : Row) (index : Nat) : Bool :=
  decide (r.base ≤ index ∧ index < r.base + r.n)

/-- The row of an entry, if the entry exists (R391, R392). -/
def Dict.row (k : Nat) : Option Row :=
  (Dict.area (k / 65536)).find? fun r => r.hasIndex (k / 256) && r.hasSub (k % 256)

/-- Whether an index exists (R391). -/
def Dict.hasIndex (index : Nat) : Bool :=
  (Dict.area (index / 256)).any fun r => r.hasIndex index

/-- Entries whose default is a factory value (Tables 14-6, 14-9). -/
def Dict.isFactory (k : Nat) : Bool :=
  k == Key.ident.SILICON_REV || k == Key.ident.SERIAL
    || k == Key.ident.MFG_TIME || k == Key.fw.ROM_VER

/-- Defaults that depend on the unit; none where the dictionary row gives the default. -/
def Dict.unitDflt (k : Nat) : Option Value :=
  let i := k / 256
  if 0x7100 ≤ i ∧ i < 0x7140 then slotDflt (i - 0x7100) (k % 256)
  else if k = Key.dtb.DOMAIN_NUMBER 0 then some (.num 127)
  else if k % 256 = 1 ∧ 0x3002 ≤ i ∧ i ≤ 0x3004 then some (.num 0xFF)
  else if k % 256 = 4 ∧ 0x8000 ≤ i ∧ i < 0x8010 then some (.num (i - 0x8000 : Nat))
  else if k = Key.mac.PHY_ADDR 1 then some (.num 1)
  else none

/-- The default of an entry (R399); an absent entry has none and reads 0. The MAC addresses are a factory value of 48 bits and
the one above it (Table 12-1). -/
def Dict.dflt (k : Nat) : Value :=
  match Dict.row k with
  | none => .num 0
  | some r =>
    if k = Key.mac.MAC_ADDR 0 ∨ k = Key.mac.MAC_ADDR 1 then
      .num ((Config.factory (Key.mac.MAC_ADDR 0) + (if k = Key.mac.MAC_ADDR 1 then 1 else 0)) % 2 ^ 48)
    else if Dict.isFactory k then r.ty.norm (.num 0) (.num (Config.factory k))
    else match Dict.unitDflt k with
      | some v => v
      | none => r.dflt

end Sys2Proof.Machine
end

