-- ==== Sys2Proof/Machine/Events.lean ====
section
/-!
DEFINITION. Machine/Events.lean: the event codes, by the names the event tables of the manual give them, with their
arguments (R425).
-/

namespace Sys2Proof.Machine

/-- Table 02-18: arguments Time base (0–3 = DTB0–DTB3, 4 = MTB), old state, new state. -/
def Ev.LOCK_STATE_CHANGED : Nat := 0x0301
/-- Table 02-18: arguments Source code. -/
def Ev.SOURCE_LOST : Nat := 0x0302
/-- Table 02-18: arguments Source code, offset in ns. -/
def Ev.SOURCE_RESTORED : Nat := 0x0303
/-- Table 02-18: arguments Offset in ns. -/
def Ev.SLEW_START : Nat := 0x0304
/-- Table 02-18: arguments Offset in ns. -/
def Ev.REANCHOR_START : Nat := 0x0305
/-- Table 02-18: arguments Offset applied in ns, new EPOCH_OFFSET. -/
def Ev.REANCHOR_DONE : Nat := 0x0306
/-- Table 02-18: arguments DTB number, new GM_IDENTITY. -/
def Ev.GM_CHANGED : Nat := 0x0307
/-- Table 02-18: arguments Action number, lateness in ns. -/
def Ev.ACTION_LATE : Nat := 0x0308
/-- Table 02-18: arguments Action number, status. -/
def Ev.ACTION_FAILED : Nat := 0x0309
/-- Table 02-18: arguments Group, start sample, members. -/
def Ev.START_GROUP_STARTED : Nat := 0x030A
/-- Table 02-18: arguments DTB number. -/
def Ev.DOMAIN_FENCED : Nat := 0x030B
/-- Table 03-11: arguments Subscription, old state, new state. -/
def Ev.STREAM_STATE_CHANGED : Nat := 0x0201
/-- Table 03-11: arguments Subscription, malformed code. -/
def Ev.STREAM_FENCED : Nat := 0x0202
/-- Table 03-11: arguments Subscription, cause (0 = retry, 1 = controller, 2 = disabled). -/
def Ev.STREAM_UNFENCED : Nat := 0x0203
/-- Table 03-11: arguments Subscription. -/
def Ev.PATH_DOWN : Nat := 0x0204
/-- Table 03-11: arguments Subscription. -/
def Ev.PATH_UP : Nat := 0x0205
/-- Table 03-11: arguments Primary subscription, PATH_DIFF in ns. -/
def Ev.PATH_SKEW : Nat := 0x0206
/-- Table 03-11: arguments Subscription, new SSRC. -/
def Ev.SSRC_CHANGED : Nat := 0x0207
/-- Table 04-6: arguments Slot, cause. -/
def Ev.OBJECT_FENCED : Nat := 0x0501
/-- Table 04-6: arguments Slot, cause. -/
def Ev.OBJECT_UNFENCED : Nat := 0x0502
/-- Table 04-6: arguments Slot, lateness in samples. -/
def Ev.META_LATE : Nat := 0x0503
/-- Table 04-6: arguments Slot. -/
def Ev.OUT_OF_HULL : Nat := 0x0504
/-- Table 04-6: arguments Slot. -/
def Ev.META_TIMEOUT : Nat := 0x0505
/-- Table 04-6: arguments Channel. -/
def Ev.RENDER_CLIP : Nat := 0x0506
/-- Table 04-6: arguments Slot. -/
def Ev.META_OVERFLOW : Nat := 0x0507
/-- Table 04-6: arguments Subscription, layout ID (R38). -/
def Ev.LAYOUT_MISMATCH : Nat := 0x0510
/-- Table 05-10: arguments Channel, cause. -/
def Ev.FALLBACK_ENGAGED : Nat := 0x0601
/-- Table 05-10: arguments Channel. -/
def Ev.FALLBACK_RELEASED : Nat := 0x0602
/-- Table 05-10: arguments Channel, PINNED_BY, g. -/
def Ev.CEILING_PINNED : Nat := 0x0603
/-- Table 05-10: arguments Channel, CLIP_FLAGS bit. -/
def Ev.CHAIN_CLIP : Nat := 0x0604
/-- Table 05-10: arguments Channel, new bank, raised at the end of the crossfade. -/
def Ev.FIR_SWITCHED : Nat := 0x0605
/-- Table 06-13: arguments Channel, consecutive misses. -/
def Ev.DEADLINE_MISSED : Nat := 0x0A01
/-- Table 06-13: arguments Render group. -/
def Ev.RENDER_DROPPED : Nat := 0x0A02
/-- Table 06-13: arguments Old level, new level. -/
def Ev.THROTTLE_CHANGED : Nat := 0x0A03
/-- Table 06-13: arguments Lane, cause. -/
def Ev.LANE_FENCED : Nat := 0x0A04
/-- Table 06-13: arguments Fenced lane, receiving lane. -/
def Ev.LANE_MIGRATED : Nat := 0x0A05
/-- Table 06-13: arguments New lantern lane; 0xFF = none. -/
def Ev.LANTERN_CHANGED : Nat := 0x0A06
/-- Table 06-13: arguments Status, lane. -/
def Ev.MICROCODE_ROTATED : Nat := 0x0A08
/-- Table 06-13: arguments Session, largest lane figure, limit exceeded (0 = LANE_LIMIT, 1 = RENDER_LIMIT). -/
def Ev.ADMISSION_REFUSED : Nat := 0x0A09
/-- Table 07-13: arguments Slot, old state, new state, cause (0 = request, 1 = supervisor, 2 = fence, 3 = clear). -/
def Ev.SLOT_STATE_CHANGED : Nat := 0x0701
/-- Table 07-13: arguments Slot, FE_ACTION. -/
def Ev.FOLLOWING_ERROR : Nat := 0x0702
/-- Table 07-13: arguments Slot, cause. -/
def Ev.SLOT_FENCED : Nat := 0x0703
/-- Table 07-13: arguments Slot, cause (0 = entry, 1 = controller). -/
def Ev.SLOT_UNFENCED : Nat := 0x0704
/-- Table 07-13: arguments Executions skipped in the last second. -/
def Ev.ENGINE_OVERRUN : Nat := 0x0705
/-- Table 07-13: arguments Learner, old state, new state. -/
def Ev.FL_STATE_CHANGED : Nat := 0x0706
/-- Table 07-13: arguments Learner, point, value. -/
def Ev.FL_FENCED : Nat := 0x0707
/-- Table 07-13: arguments Learner, cause. -/
def Ev.FL_UNFENCED : Nat := 0x0708
/-- Table 08-5: arguments Channel, T_COIL_EST. -/
def Ev.THERMAL_FOLDBACK : Nat := 0x0820
/-- Table 08-5: arguments Channel, T_COIL_EST. -/
def Ev.THERMAL_HARD : Nat := 0x0821
/-- Table 08-5: arguments Channel, T_COIL_EST. -/
def Ev.THERMAL_RESUMED : Nat := 0x0822
/-- Table 08-5: arguments Channel, published excursion. -/
def Ev.EXCURSION_LIMITING : Nat := 0x0823
/-- Table 08-5: arguments Channel, FS_TRACKED. -/
def Ev.SUSPENSION_CHANGE : Nat := 0x0824
/-- Table 08-5: arguments Channel. -/
def Ev.PILOT_DISTURBED : Nat := 0x0825
/-- Table 08-5: arguments Channel, new state. -/
def Ev.MODEL_STATE_CHANGED : Nat := 0x0826
/-- Table 09-13: arguments Channel, FENCE_CAUSE. -/
def Ev.CHANNEL_FENCED : Nat := 0x0801
/-- Table 09-13: arguments Channel, cause (0 = probe, 1 = controller, 2 = thermal resume). -/
def Ev.CHANNEL_UNFENCED : Nat := 0x0802
/-- Table 09-13: arguments Channel. -/
def Ev.CURRENT_LIMIT : Nat := 0x0803
/-- Table 09-13: arguments Channel. -/
def Ev.SHORT : Nat := 0x0804
/-- Table 09-13: arguments Channel, |Z| in mΩ, pass (1) or fail (0), PROBE_FAILS. -/
def Ev.PROBE_RESULT : Nat := 0x0805
/-- Table 09-13: arguments Channel, DC_MEAN. -/
def Ev.DC_FAULT : Nat := 0x0806
/-- Table 09-13: arguments Group, VBUS in mV. -/
def Ev.BUS_OV : Nat := 0x0807
/-- Table 09-13: arguments Group. -/
def Ev.BUS_OV_CLEARED : Nat := 0x0808
/-- Table 09-13: arguments Group, VBUS in mV. -/
def Ev.BUS_UV_MUTE : Nat := 0x0809
/-- Table 09-13: arguments Group. -/
def Ev.BUS_UV_CLEARED : Nat := 0x080A
/-- Table 09-13: arguments Group. -/
def Ev.STARVATION : Nat := 0x080B
/-- Table 09-13: arguments Group. -/
def Ev.VAUX_UVLO : Nat := 0x080C
/-- Table 09-13: arguments Channel, old state, new state. -/
def Ev.OUT_STATE_CHANGED : Nat := 0x080D
/-- Table 10-12: arguments Channel, mean power in mW. -/
def Ev.MEAS_POWER_CAP : Nat := 0x0901
/-- Table 10-12: arguments Capture. -/
def Ev.CAPTURE_DONE : Nat := 0x0902
/-- Table 10-12: arguments Generator, new state. -/
def Ev.GENERATOR_STATE : Nat := 0x0903
/-- Table 10-12: arguments Channel, class. -/
def Ev.LOAD_CLASS : Nat := 0x0904
/-- Table 10-12: arguments Result index. -/
def Ev.RESULT_REUSED : Nat := 0x0905
/-- Table 11-12: arguments Unit, old state, new state. -/
def Ev.PORT_STATE_CHANGED : Nat := 0x0401
/-- Table 11-12: arguments Unit, rate error in 0.001 ppm. -/
def Ev.RATE_MISMATCH : Nat := 0x0402
/-- Table 11-12: arguments Unit, repeats and drops in the last second. -/
def Ev.PORT_SLIP : Nat := 0x0403
/-- Table 11-12: arguments Unit, cause. -/
def Ev.PORT_FENCED : Nat := 0x0404
/-- Table 11-12: arguments Unit, cause (0 = entry, 1 = controller). -/
def Ev.PORT_UNFENCED : Nat := 0x0405
/-- Table 11-12: arguments Receiver, subframe. -/
def Ev.AES_CS_CHANGED : Nat := 0x0407
/-- Table 11-12: arguments Receiver, failing blocks in the last second. -/
def Ev.AES_CRCC : Nat := 0x0408
/-- Table 12-10: arguments MAC, new LINK_STATE. -/
def Ev.LINK_CHANGED : Nat := 0x0210
/-- Table 12-10: arguments MAC, address, ADDR_SOURCE. -/
def Ev.ADDRESS_CHANGED : Nat := 0x0211
/-- Table 12-10: arguments MAC, address. -/
def Ev.ADDRESS_CONFLICT : Nat := 0x0212
/-- Table 12-10: arguments MAC. -/
def Ev.RX_RING_EXHAUSTED : Nat := 0x0213
/-- Table 12-10: arguments Old state, new state. -/
def Ev.CAN_STATE_CHANGED : Nat := 0x0214
/-- Table 12-10: arguments Monitor stream. -/
def Ev.MONITOR_DROPPED : Nat := 0x0215
/-- Table 13-16: arguments Handle, status, result index. -/
def Ev.EVT_DONE : Nat := 0x0B01
/-- Table 13-16: arguments Records lost, U32. -/
def Ev.EVT_LOST : Nat := 0x0B02
/-- Table 13-16: arguments Session, status, index, subindex. -/
def Ev.COMMIT_DONE : Nat := 0x0B03
/-- Table 13-16: arguments Session, role. -/
def Ev.SESSION_OPENED : Nat := 0x0B04
/-- Table 13-16: arguments Session, cause. -/
def Ev.SESSION_CLOSED : Nat := 0x0B05
/-- Table 13-16: arguments Peer address U32. -/
def Ev.AUTH_FAILED : Nat := 0x0B06
/-- Table 13-16: arguments Area, session. -/
def Ev.AREA_CLAIMED : Nat := 0x0B07
/-- Table 13-16: arguments Area, session. -/
def Ev.AREA_RELEASED : Nat := 0x0B08
/-- Table 14-10: arguments Old mode, new mode, reason. -/
def Ev.MODE_CHANGED : Nat := 0x0101
/-- Table 14-10: arguments HOLDOVER_ELAPSED in ms, U32. -/
def Ev.HOLDOVER_EXPIRED : Nat := 0x0102
/-- Table 14-10: arguments none. -/
def Ev.ENGAGE_LOST : Nat := 0x0103
/-- Table 14-10: arguments none. -/
def Ev.ENGAGE_RESTORED : Nat := 0x0104
/-- Table 14-10: arguments Failed bank, bank loaded. -/
def Ev.BANK_FALLBACK : Nat := 0x0105
/-- Table 14-10: arguments RESET_CAUSE, DAWN_MS, lanes fenced at dawn. -/
def Ev.DAWN_DONE : Nat := 0x0106
/-- Table 14-10: arguments Group, consecutive faults. -/
def Ev.HOTSWAP_FAULT : Nat := 0x080E
/-- Table 14-10: arguments Group, VBUS in mV. -/
def Ev.HOTSWAP_POWER_GOOD : Nat := 0x080F
/-- Table 15-16: arguments Cause (0 = watchdog, 1 = update, 2 = roll-back, 3 = absence guard), absence in ms U32. -/
def Ev.MGMT_RESTARTED : Nat := 0x0B10
/-- Table 15-16: arguments Index, subindex, outcome. -/
def Ev.STATE_DIVERGE : Nat := 0x0B11
/-- Table 15-16: arguments Class, instance, status. -/
def Ev.FENCE_CLEARED : Nat := 0x0B12
/-- Table 15-16: arguments Sensor, cause. -/
def Ev.SENSOR_FAULT : Nat := 0x0B13
/-- Table 15-16: arguments Fan, rpm. -/
def Ev.FAN_STALL : Nat := 0x0B14
/-- Table 15-16: arguments Fan. -/
def Ev.FAN_RECOVERED : Nat := 0x0B15
/-- Table 15-16: arguments New state, bank. -/
def Ev.UPDATE_STATE : Nat := 0x0B16
/-- Table 15-16: arguments Channel, outcome. -/
def Ev.CALIBRATED : Nat := 0x0B17
/-- Table 15-16: arguments Channel, leg, rise in 0.1 %. -/
def Ev.RON_DRIFT : Nat := 0x0B18
/-- Table 15-16: arguments NOR_WEAR. -/
def Ev.WEAR_WARNING : Nat := 0x0B19
/-- Table 15-16: arguments Happenings not latched, U32. -/
def Ev.ABSENCE_OVERFLOW : Nat := 0x0B1A

end Sys2Proof.Machine
end

