-- ==== Sys2Proof/Machine/Ops.lean ====
section
/-!
DEFINITION. Machine/Ops.lean: the named operations on the state: sparse tables, dictionary entries, the units, time
(R9, R12, R46, R47), events (R425-R428, R514), and what each effect does. Every meaning is a list of effects, run
here.
-/

namespace Sys2Proof.Machine

/-! ### Sparse tables -/

/-- What a table holds under a key; `d` gives the default of each key. -/
def Tbl.get {α : Type} (d : Nat → α) : Tbl α → Nat → α
  | [], k => d k
  | (j, v) :: t, k => if j = k then v else Tbl.get d t k

/-- The table without what it holds under `k`. -/
def Tbl.drop {α : Type} (t : Tbl α) (k : Nat) : Tbl α := t.filter fun p => p.1 != k

/-- The table with a pair before the first larger key. -/
def Tbl.put {α : Type} : Tbl α → Nat → α → Tbl α
  | [], k, v => [(k, v)]
  | (j, w) :: t, k, v => if k < j then (k, v) :: (j, w) :: t else (j, w) :: Tbl.put t k v

/-- The table with `v` under `k`; what a table in canonical form becomes is in canonical form. -/
def Tbl.set {α : Type} [DecidableEq α] (d : Nat → α) (t : Tbl α) (k : Nat) (v : α) : Tbl α :=
  if v = d k then t.drop k else (t.drop k).put k v

/-- Whether every key of a table is above `b`, the keys rise strictly and no pair holds its default. -/
def Tbl.wfFrom {α : Type} [DecidableEq α] (d : Nat → α) : Nat → Tbl α → Bool
  | _, [] => true
  | b, (j, v) :: t => decide (b ≤ j) && decide (v ≠ d j) && Tbl.wfFrom d (j + 1) t

/-- The canonical form of a table. -/
def Tbl.wf {α : Type} [DecidableEq α] (d : Nat → α) (t : Tbl α) : Bool := Tbl.wfFrom d 0 t

/-- A table of units whose default is one value. -/
def Tbl.at {α : Type} (d : α) (t : Tbl α) (k : Nat) : α := Tbl.get (fun _ => d) t k

/-- The table with one unit changed. -/
def Tbl.upd {α : Type} [DecidableEq α] (d : α) (t : Tbl α) (k : Nat) (f : α → α) : Tbl α :=
  Tbl.set (fun _ => d) t k (f (Tbl.at d t k))

/-! ### Entries -/

/-- The value that an entry holds. -/
def State.get (s : State) (k : Nat) : Value := Tbl.get Dict.dflt s.dict k

/-- The number that an entry holds. -/
def State.num (s : State) (k : Nat) : Int := (s.get k).int

/-- The number that an unsigned entry holds. -/
def State.nat (s : State) (k : Nat) : Nat := (s.get k).int.toNat

/-- Whether a BOOL entry, or a mask, is not 0. -/
def State.flag (s : State) (k : Nat) : Bool := s.num k != 0

/-- The octets that a BLOB entry holds. -/
def State.blob (s : State) (k : Nat) : List Byte := (s.get k).octets

/-- The exact number that a COEF entry holds. -/
def State.rat (s : State) (k : Nat) : Rat := (s.get k).rat

/-- The state with an entry at a value narrowed to its type; CONST and absent entries do not change. -/
def State.set (s : State) (k : Nat) (v : Value) : State :=
  match Dict.row k with
  | none => s
  | some r =>
    if r.acc = .const then s
    else { s with dict := Tbl.set Dict.dflt s.dict k (r.ty.norm (s.get k) v) }

/-! ### Units -/

def State.tbase (s : State) (i : Nat) : TimeBase := Tbl.at {} s.units.tbases i
def State.stream (s : State) (i : Nat) : Stream := Tbl.at {} s.units.streams i
def State.obj (s : State) (i : Nat) : Obj := Tbl.at {} s.units.objs i
def State.rgroup (s : State) (i : Nat) : RGroup := Tbl.at {} s.units.rgroups i
def State.chan (s : State) (i : Nat) : Chan := Tbl.at {} s.units.chans i
def State.group (s : State) (i : Nat) : Group := Tbl.at {} s.units.groups i
def State.slot (s : State) (i : Nat) : Slot := Tbl.at {} s.units.slots i
def State.learner (s : State) (i : Nat) : Learner := Tbl.at {} s.units.learners i
def State.lane (s : State) (i : Nat) : Lane := Tbl.at {} s.units.lanes i
def State.session (s : State) (i : Nat) : Option Session := Tbl.at none s.units.sessions i
def State.handle (s : State) (i : Nat) : Option Handle := Tbl.at none s.units.handles i
def State.gen (s : State) (i : Nat) : Gen := Tbl.at {} s.units.gens i
def State.cap (s : State) (i : Nat) : Cap := Tbl.at {} s.units.caps i
def State.port (s : State) (i : Nat) : Port := Tbl.at {} s.units.ports i
def State.mac (s : State) (i : Nat) : Mac := Tbl.at {} s.units.macs i
def State.act (s : State) (i : Nat) : ActExt := Tbl.at {} s.units.acts i
def State.sg (s : State) (i : Nat) : SgExt := Tbl.at {} s.units.sgs i

/-- The n-th free value from the present one on (log 1). -/
def State.free (s : State) (n : Nat) : Int := Config.freeValue (s.units.free + n)

/-! ### Time -/

/-- Whole ns of the MTB counter (Table 02-1). -/
def State.mtbNs (s : State) : Nat := s.mtb.toNat / 2 ^ 32

/-- Presented media time in ns (R47). -/
def State.now (s : State) : Nat := (((s.mtbNs : Int) + s.num Key.mtb.EPOCH_OFFSET) % 2 ^ 64).toNat

/-- The sample rate fs in Hz (Table 02-4). -/
def State.fs (s : State) : Nat := if s.num Key.mtb.FS_SELECT = 1 then 96000 else 48000

/-- The block length B in samples (Table 00-6). -/
def State.B (s : State) : Nat := if s.num Key.mtb.FS_SELECT = 1 then 64 else 32

/-- The media time of sample n, rounded to ns (R9). -/
def sampleTime (fs n : Nat) : Nat := (n * 1000000000 + fs / 2) / fs

/-- The sample nearest to a media time (R53). -/
def nearestSample (fs t : Nat) : Nat := (t * fs + 500000000) / 1000000000

/-- The first multiple of `q` samples whose media time, n × 10^9 / fs exactly, is at or after `t` (R9, R12). -/
def firstFrom (fs q t : Nat) : Nat := (t * fs + (q * 1000000000 - 1)) / (q * 1000000000) * q

/-- The first multiple of `q` samples whose media time lies after `t` (R10, R12). -/
def firstAfter (fs q t : Nat) : Nat := (t * fs / (q * 1000000000) + 1) * q

/-- The tick at the present instant (R207): the one nearest to it. -/
def State.tickNow (s : State) : Nat := nearestSample 96000 s.now

/-- The sample that is played at the present instant (R53). -/
def State.sampleNow (s : State) : Nat := nearestSample s.fs s.now

/-- Whether the strobe of the present sample instant has run. -/
def State.strobed (s : State) : Bool := s.nat Key.mtb.SAMPLE_INDEX == s.sampleNow

/-- Whether the loop-engine tick of the present instant has run. -/
def State.ticked (s : State) : Bool := s.nat Key.loop.TICK_INDEX == s.tickNow

/-- Samples by which a channel's chain runs ahead of the sample that plays: the limiter's look-ahead less one (R174,
log 26). -/
def State.lead (s : State) : Nat := if s.fs = 96000 then 31 else 15

/-- The output sample on which the renderer works at this instant: play block j is rendered in the block period before
its boundary (R184, log 26). -/
def State.workSample (s : State) : Nat := s.sampleNow + s.B

/-- The link offset in samples, halves rounded up (R94). -/
def State.nL (s : State) : Nat := (2 * s.nat Key.eng.LINK_OFFSET * s.fs + 1000000000) / 2000000000

/-- The index of the latest sample instant (SAMPLE_INDEX) (R93). -/
def State.sampleIndex (s : State) : Nat := s.now * s.fs / 1000000000

/-- The presented media time of an instant of the MTB that has passed (R47, R97). -/
def State.presented (s : State) (mtb : Nat) : Nat := s.now - (s.mtbNs - mtb)

/-- The sample of the block boundary at the present instant: the multiple of B nearest to it (R9). -/
def State.blockSample (s : State) : Nat := (s.sampleNow + s.B / 2) / s.B * s.B

/-- The media time of the block boundary at the present instant. -/
def State.blockTime (s : State) : Nat := sampleTime s.fs s.blockSample

/-- Whether the present instant is a block boundary, within the 20 ns of the strobe's phase (R9, R53). -/
def State.atBoundary (s : State) : Bool := decide (((s.now : Int) - s.blockTime).natAbs ≤ 20)

/-- The media time of the first block boundary at or after `t` (R12). -/
def State.boundaryFrom (s : State) (t : Nat) : Nat := sampleTime s.fs (firstFrom s.fs s.B t)

/-- The media time of the next block boundary (R12). -/
def State.nextBoundary (s : State) : Nat := s.boundaryFrom s.now

/-- Whether `d` ns have passed since the MTB instant `t` (windows are half-open, R10). -/
def State.passed (s : State) (t : Option Nat) (d : Nat) : Bool :=
  match t with
  | none => false
  | some t => decide (t + d ≤ s.mtbNs)

/-- Whether a supervised wait of `d` ns that began at the MTB instant `t` has ended by its timeout: its instant has
passed, since an arrival at the instant itself wins (R11). -/
def State.expired (s : State) (t d : Nat) : Bool := decide (t + d < s.mtbNs)

/-! ### Events -/

/-- Events that reach only the session they concern (R426): EVT_DONE and COMMIT_DONE. -/
def isPrivate (code : Nat) : Bool := code == 0x0B01 || code == 0x0B03

/-- Whether a session receives an event into its ring (R426). -/
def Session.wants (x : Session) (n : Nat) (e : EventRec) : Bool :=
  x.isOpen && (if isPrivate e.code then e.source == n else x.ranges.any fun r => decide (r.1 ≤ e.code ∧ e.code ≤ r.2))

/-- The session with one more record in its ring of 256 (R426, R428). -/
def Session.record (x : Session) (e : EventRec) : Session :=
  let ring := x.ring ++ [(x.nextSeq, e)]
  let excess := ring.length - 256
  let dropped := (ring.take excess).filter fun r => decide (x.sentSeq ≤ r.1)
  { x with
    ring := ring.drop excess
    nextSeq := (x.nextSeq + 1) % 2 ^ 32
    lost := x.lost + dropped.length
    lostTotal := (x.lostTotal + dropped.length) % 2 ^ 32
    sentSeq := if dropped.isEmpty then x.sentSeq else x.sentSeq + dropped.length }

/-- Every session's ring after an event. -/
def recordAll (t : Tbl (Option Session)) (e : EventRec) : Tbl (Option Session) :=
  t.map fun p => (p.1, p.2.map fun x => if x.wants p.1 e then x.record e else x)

/-- The present instant's event (R425): arguments fill 24 bytes. -/
def State.eventOf (s : State) (code : Nat) (args : List Byte) (session : Nat) : EventRec :=
  { code := code, time := s.now, args := (args ++ List.replicate 24 0).take 24, source := session,
    anchored := s.units.anchor.anchored }

/-- An event raised while the management processor serves: counted, recorded, queued for the log (R426, R471). -/
def State.deliver (s : State) (e : EventRec) : State :=
  let s := s.set Key.evt.EVT_RAISED (.num (s.num Key.evt.EVT_RAISED + 1))
  { s with units := { s.units with sessions := recordAll s.units.sessions e, logQueue := s.units.logQueue ++ [e] } }

/-- An event raised; during an absence of the management processor it is latched, at most 128 (R459). -/
def State.raiseNow (s : State) (code : Nat) (args : List Byte) (session : Nat) : State :=
  let e := s.eventOf code args session
  let m := s.units.mgmt
  if m.absentAt.isSome then
    if m.latched.length < 128 then
      { s with units := { s.units with mgmt := { m with latched := m.latched ++ [e] } } }
    else { s with units := { s.units with mgmt := { m with overflow := m.overflow + 1 } } }
  else s.deliver e

/-- Whether an event of this code and scope was raised within the last second of the MTB (R514). -/
def State.raisedLately (s : State) (code scope : Nat) : Bool :=
  s.units.lastRaised.any fun r => r.1 == code && r.2.1 == scope && decide (s.mtbNs < r.2.2 + 1000000000)

/-- An event raised, at most once per second of its scope where it has one (R514). -/
def State.raise (s : State) (code : Nat) (args : List Byte) (session : Nat) (scope : Option Nat) : State :=
  match scope with
  | none => s.raiseNow code args session
  | some sc =>
    if s.raisedLately code sc then s
    else
      let s := s.raiseNow code args session
      let l := s.units.lastRaised.filter fun r => !(r.1 == code && r.2.1 == sc)
      { s with units := { s.units with lastRaised := (code, sc, s.mtbNs) :: l } }

/-- The integer that stands for an exact result: the result itself where it is an integer, else the integer below or
above it, as the device rounds it (log 4). -/
def rounded (tag : Nat) (x : Rat) : Int :=
  if x.den = 1 then x.num else x.floor + if Config.roundsUp tag x then 1 else 0

/-- The device's value `d` of a quantity that the manual bounds to within `tol` of `x`. -/
def nearTo (x tol d : Rat) : Rat := max (x - tol) (min (x + tol) d)

/-- The square root: exact where the root is rational, else the device's, within 2^-26 of the root (R133, log 3). -/
def sqrtQ (x : Rat) : Rat :=
  let m := x.num.toNat * x.den
  let r : Rat := (m * 2 ^ 96).sqrt / (2 ^ 48 * x.den : Nat)
  if m.sqrt * m.sqrt = m then r else nearTo r (r / 2 ^ 26) (Config.real .sqrt x 0)

/-! ### Effects -/

/-- What an effect does. -/
def State.apply (s : State) : Effect → State
  | .reg k v => s.set k v
  | .bump k n => s.set k (.num (s.num k + n))
  | .orBits k m => s.set k (.num ((s.nat k ||| m : Nat)))
  | .andNot k m => s.set k (.num (clearBits (s.nat k) m))
  | .save k v => { s with store := Tbl.set (fun _ => none) s.store k v }
  | .mode m => { s with mode := m }
  | .unit f => { s with units := f s.units }
  | .raise c a n sc => s.raise c a n sc

/-- Effects in order. -/
def State.run (s : State) (es : List Effect) : State := es.foldl State.apply s

/-- What a phase does. -/
def State.does (s : State) (p : Phase) : State := s.run (p s)

/-- Phases in order, each seeing the state the earlier ones left. -/
def phases : List Phase → Phase
  | [], _ => []
  | p :: ps, s => let es := p s; es ++ phases ps (s.run es)

/-- One phase per item, in order. -/
def forAll {α : Type} (l : List α) (p : α → Phase) : Phase := phases (l.map p)

/-- A phase under a condition. -/
def whenP (c : State → Bool) (p : Phase) : Phase := fun s => if c s then p s else []

/-- A phase chosen at the state. -/
def readP {α : Type} (f : State → α) (p : α → Phase) : Phase := fun s => p (f s) s

/-- The effects that do not depend on the state. -/
def always (es : List Effect) : Phase := fun _ => es

/-- An effect that session `n` has caused: an event says so, unless it names a session itself (R471). -/
def Effect.by (n : Nat) : Effect → Effect
  | .raise c a 0 sc => .raise c a n sc
  | e => e

/-- A phase that session `n` has caused, 0 being the device (R471). -/
def causedBy (n : Nat) (p : Phase) : Phase := fun s => (p s).map (Effect.by n)

/-- The machine goes on (every command of the block but one always does). -/
def State.goes (s : State) (p : Phase) : Host.Outcome State Fault Refusal := .next (s.does p)

/-! ### Effects by name -/

def Effect.num (k : Nat) (n : Int) : Effect := .reg k (.num n)
def Effect.nat (k : Nat) (n : Nat) : Effect := .reg k (.num n)
def Effect.tbase (i : Nat) (f : TimeBase → TimeBase) : Effect := .unit fun u => { u with tbases := u.tbases.upd {} i f }
def Effect.stream (i : Nat) (f : Stream → Stream) : Effect := .unit fun u => { u with streams := u.streams.upd {} i f }
def Effect.obj (i : Nat) (f : Obj → Obj) : Effect := .unit fun u => { u with objs := u.objs.upd {} i f }
def Effect.rgroup (i : Nat) (f : RGroup → RGroup) : Effect := .unit fun u => { u with rgroups := u.rgroups.upd {} i f }
def Effect.chan (i : Nat) (f : Chan → Chan) : Effect := .unit fun u => { u with chans := u.chans.upd {} i f }
def Effect.group (i : Nat) (f : Group → Group) : Effect := .unit fun u => { u with groups := u.groups.upd {} i f }
def Effect.slot (i : Nat) (f : Slot → Slot) : Effect := .unit fun u => { u with slots := u.slots.upd {} i f }
def Effect.learner (i : Nat) (f : Learner → Learner) : Effect :=
  .unit fun u => { u with learners := u.learners.upd {} i f }
def Effect.lane (i : Nat) (f : Lane → Lane) : Effect := .unit fun u => { u with lanes := u.lanes.upd {} i f }
def Effect.session (i : Nat) (f : Option Session → Option Session) : Effect :=
  .unit fun u => { u with sessions := u.sessions.upd none i f }
def Effect.handle (i : Nat) (f : Option Handle → Option Handle) : Effect :=
  .unit fun u => { u with handles := u.handles.upd none i f }
def Effect.gen (i : Nat) (f : Gen → Gen) : Effect := .unit fun u => { u with gens := u.gens.upd {} i f }
def Effect.cap (i : Nat) (f : Cap → Cap) : Effect := .unit fun u => { u with caps := u.caps.upd {} i f }
def Effect.port (i : Nat) (f : Port → Port) : Effect := .unit fun u => { u with ports := u.ports.upd {} i f }
def Effect.mac (i : Nat) (f : Mac → Mac) : Effect := .unit fun u => { u with macs := u.macs.upd {} i f }
def Effect.act (i : Nat) (f : ActExt → ActExt) : Effect := .unit fun u => { u with acts := u.acts.upd {} i f }
def Effect.sg (i : Nat) (f : SgExt → SgExt) : Effect := .unit fun u => { u with sgs := u.sgs.upd {} i f }
def Effect.can (f : Can → Can) : Effect := .unit fun u => { u with can := f u.can }
def Effect.anchor (f : Anchor → Anchor) : Effect := .unit fun u => { u with anchor := f u.anchor }
def Effect.disp (f : Disp → Disp) : Effect := .unit fun u => { u with disp := f u.disp }
def Effect.mgmt (f : Mgmt → Mgmt) : Effect := .unit fun u => { u with mgmt := f u.mgmt }
def Effect.pins (f : Pins → Pins) : Effect := .unit fun u => { u with pins := f u.pins }

/-- `n` free values are used up (log 1). -/
def Effect.draws (n : Nat) : Effect := .unit fun u => { u with free := u.free + n }

/-- An event of the device without limit. -/
def Effect.event (code : Nat) (args : List Byte) : Effect := .raise code args 0 none

/-- An event of the device at most once per second of a scope (R514). -/
def Effect.eventOnce (code scope : Nat) (args : List Byte) : Effect := .raise code args 0 (some scope)

/-- Arguments that identify something, each a U16 (R425). -/
def args16 (l : List Nat) : List Byte := l.flatMap fun n => le 2 n

/-! ### Ramps and gates -/

/-- The value of a gate now (R279): linear over its steps. -/
def Gate.value (g : Gate) : Rat :=
  if g.len ≤ g.pos then g.v1 else g.v0 + (g.v1 - g.v0) * g.pos / g.len

/-- The gate after one step of its ramp. -/
def Gate.step (g : Gate) : Gate := { g with pos := min (g.pos + 1) g.len }

/-- A ramp from the present value to `v` over `n` steps; one under way gives way to it (R279). -/
def Gate.to (g : Gate) (v : Rat) (n : Nat) : Gate := { v0 := g.value, v1 := v, len := n, pos := 0 }

/-- The gate with a ramp to `v` over `n` steps whose first step is for the present instant: where the instant's strobe has
run already it is taken at once. -/
def Gate.start (g : Gate) (v : Rat) (n : Nat) (now : Bool) : Gate := if now then (g.to v n).step else g.to v n

/-- Whether a gate rests on its target. -/
def Gate.atRest (g : Gate) : Bool := decide (g.len ≤ g.pos)

/-- The value of an integer ramp now: g0 + (g1 − g0) × pos / len, rounded half up (R125). -/
def Ramp.value (r : Ramp) : Int :=
  if r.len ≤ r.pos then r.g1 else r.g0 + (2 * (r.g1 - r.g0) * r.pos + r.len) / (2 * r.len)

/-- The ramp after one step. -/
def Ramp.step (r : Ramp) : Ramp := { r with pos := min (r.pos + 1) r.len }

/-- A ramp from the present value to `v` over `n` steps. -/
def Ramp.to (r : Ramp) (v : Int) (n : Nat) : Ramp := { g0 := r.value, g1 := v, len := n, pos := 0 }

/-! ### Zero-crossing waits (R362) -/

/-- The key of a wait that is no entry's: its kind and the unit it concerns. -/
def Zc.fn (kind unit : Nat) : Nat := 2 ^ 24 + kind * 65536 + unit

/-- A wait begins at sample `start`, with the N_T in force (R362, R364); a new value of a change that still waits
replaces the waiting one and keeps its start (R155). -/
def zcStartAt (key : Nat) (v : Value) (start : Nat) : Phase := fun s =>
  let w : ZcWait := { key := key, value := v, start := start, limit := s.nat Key.zc.ZC_TIMEOUT * s.fs / 1000,
                      begun := if s.atBoundary then some s.blockSample else none }
  [.unit fun u =>
    { u with zc := if u.zc.any (fun x => x.key == key) then u.zc.map (fun x => if x.key = key then { x with value := v } else x)
                   else u.zc ++ [w] }]

/-- A wait begins at the present sample (R362). -/
def zcStart (key : Nat) (v : Value) : Phase := fun s => zcStartAt key v s.sampleNow s

/-- The wait of a key lasts at most `n` samples (R467). -/
def zcShorten (key n : Nat) : Effect :=
  .unit fun u => { u with zc := u.zc.map fun x => if x.key = key then { x with limit := min x.limit n, most := some n } else x }

/-- ZC_TIMEOUT has taken effect at a block boundary: the waits begun at that boundary have the new N_T too (R364). -/
def zcRenew : Phase := fun s =>
  let n := s.nat Key.zc.ZC_TIMEOUT * s.fs / 1000
  [.unit fun u => { u with zc := u.zc.map fun x =>
    if s.atBoundary && x.begun == some s.blockSample then { x with limit := min n (x.most.getD n) } else x }]

/-- A change of an entry that takes effect at a zero crossing: the wait holds the value that plays on, the entry the new
one; a change that still waits keeps its wait (R154, R155). A chain's wait starts with the first sample of the play block
that is processed after the boundary (R184, log 26). -/
def zcEntry (key : Nat) : Phase := fun s =>
  if s.units.zc.any fun x => x.key == key then []
  else zcStartAt key (s.get key) (if key / 65536 = 0x40 then s.sampleNow else s.blockSample + s.B) s

/-- A wait ends without applying. -/
def zcDrop (key : Nat) : Effect := .unit fun u => { u with zc := u.zc.filter fun x => x.key != key }

/-- The wait of a key, if it runs. -/
def State.zcWait (s : State) (key : Nat) : Option ZcWait := s.units.zc.find? fun x => x.key == key

/-- The value of an entry that plays: the old one while its change waits for a zero crossing. -/
def State.used (s : State) (k : Nat) : Value :=
  match s.zcWait k with
  | some w => w.value
  | none => s.get k
def State.usedNum (s : State) (k : Nat) : Int := (s.used k).int
def State.usedNat (s : State) (k : Nat) : Nat := (s.used k).int.toNat

end Sys2Proof.Machine
end

