-- ==== Sys2Proof/Machine/Power.lean ====
section
/-!
DEFINITION. Machine/Power.lean: the power stage (R271-R303): output states, start and stop sequences, gates, current
limit, shorts and probes, fences, group states, the bus ceiling and the modulator's carrier period.
-/

namespace Sys2Proof.Machine

/-! ### Output states and fences -/

/-- The kinds of zero-crossing wait of this chapter: of a start, or of a return from a hold, and of a stop (Tables 09-4,
09-5, R292, R444). -/
def Zc.start (c : Nat) : Nat := Zc.fn 0 c
def Zc.stop (c : Nat) : Nat := Zc.fn 1 c

/-- The output state of a channel (Table 09-9). -/
def State.outState (s : State) (c : Nat) : Nat := s.nat (Key.pw.OUT_STATE c)

/-- The sequence phase of a channel (Table 09-10). -/
def State.phase (s : State) (c : Nat) : Nat := s.nat (Key.pw.SEQ_PHASE c)

/-- Whether a channel holds a fence cause (Table 09-8). -/
def State.chanFenced (s : State) (c : Nat) : Bool := s.flag (Key.prot.FENCE_CAUSE c)

/-- Whether a bridge is released: RELEASED or FENCED (R299). -/
def State.released (s : State) (c : Nat) : Bool := s.outState c == 0 || s.outState c == 4

/-- Whether every bridge is released (R65, R66, R454). -/
def State.allReleased (s : State) : Bool := (List.range 16).all fun c => s.released c

/-- Whether a channel is playing or limiting. -/
def State.playing (s : State) (c : Nat) : Bool := s.outState c == 2 || s.outState c == 3

/-- The output state changes, with its event (R299). -/
def setOut (c v : Nat) : Phase := fun s =>
  if s.outState c = v then []
  else [.nat (Key.pw.OUT_STATE c) v, .event Ev.OUT_STATE_CHANGED (args16 [c, s.outState c, v])]

/-- Whether the group's state is NORMAL (R295). -/
def State.groupNormal (s : State) (g : Nat) : Bool :=
  let x := s.group g
  !(x.notReady || x.uv || x.ov || x.starved || x.uvlo)

/-- The state that GROUP_STATE shows: the highest ranked that applies (R295). -/
def Group.shown (x : Group) : Nat :=
  if x.uvlo then 5 else if x.starved then 4 else if x.ov then 3 else if x.notReady then 0 else if x.uv then 2 else 1

/-- GROUP_STATE follows the states that apply (R295). -/
def groupShow (g : Nat) : Phase := fun s => [.nat (Key.pg.GROUP_STATE g) (s.group g).shown]

/-- Whether the mode lets a channel run (R280, R305). -/
def State.modeRuns (s : State) (c : Nat) : Bool :=
  match s.mode with
  | .run | .holdover => true
  | .measure => (s.nat Key.meas.MEAS_CHANNELS).testBit c
  | _ => false

/-- The conditions of R280 for a start. -/
def State.canStart (s : State) (c : Nat) : Bool :=
  s.modeRuns c && s.flag (Key.pw.CH_EN c) && !s.chanFenced c && s.groupNormal (c / 4)

/-- Whether something holds the chain gate at 0 (R292, R444, R64, R466). -/
def Chan.held (x : Chan) : Bool := x.uvHeld || x.pinHeld || x.anchorMuted || (x.calPhase != 0 && x.calPhase != 6)

/-- Whether a channel's chain gate may not rise: something holds it, or a re-anchor has not come to its fade-in (R48,
R64). -/
def State.gateHeld (s : State) (c : Nat) : Bool := (s.chan c).held || s.units.anchor.phase != 0

/-! ### Start and stop -/

/-- The start of a channel from RELEASED at a block boundary (R280, Table 09-4): precharge begins, and the tick of the
boundary is its first. -/
def startBegin (c : Nat) : Phase := fun s =>
  if s.canStart c && s.outState c == 0 && s.phase c == 0 then
    phases [setOut c 1, always
      [.num (Key.pw.SEQ_PHASE c) 1,
       .chan c fun x => { x with gc := {}, gl := {}, seqPos := if s.ticked then 1 else 0, startDue := false, fast := false,
                                 releaseDue := false, settled := false, holding := false, starting := true }]] s
  else []

/-- A start falls due: from RELEASED at this block boundary or the next, deferred while a stop runs (R283, R284). -/
def startDue (c : Nat) : Phase := fun s =>
  if s.outState c = 0 ∧ s.atBoundary then startBegin c s else [.chan c fun x => { x with startDue := true }]

/-- The bridge is released: no sequence, gates at 0, FENCED where a cause stands (R284, R297, R299). The restart gain of a
channel that played is gone (R283); the one that a probe has earned stays for the start to come (R288). -/
def releaseNow (c : Nat) : Phase := fun s =>
  let probe := s.released c
  phases [setOut c (if s.chanFenced c then 4 else 0), always
    ([.num (Key.pw.SEQ_PHASE c) 0, zcDrop (Zc.start c), zcDrop (Zc.stop c),
     .chan c fun x => { x with gc := {}, gl := {}, seqPos := 0, fast := false, releaseDue := false, settled := false, holding := false, dieOff := false,
                               restart := if probe then x.restart else none, freeRun := 0, probing := false,
                               starting := false, pwm := (0, 0, 0, 0), tripped := (false, false) }]
      ++ (if probe then [] else [.num (Key.pw.RESTART_GAIN c) 0]))] s

/-- The loop gate ramps down over 32 ticks (Table 09-5). -/
def loopDown (c : Nat) : Phase := always
  [.num (Key.pw.SEQ_PHASE c) 7, .chan c fun x => { x with gl := x.gl.to 0 32, settled := false }]

/-- The chain gate ramps down over 32 samples (Table 09-5): from the sample of a crossing, or from the next sample. -/
def chainDown (c : Nat) (crossing : Bool) : Phase := fun s =>
  [.num (Key.pw.SEQ_PHASE c) 6, zcDrop (Zc.stop c),
   .chan c fun x => { x with gc := x.gc.start 0 32 (crossing && s.strobed) }]

/-- A stop begins: orderly with a zero-crossing wait (R281), fast without (R282). It takes over a start at the phase
reached, and skips the chain ramp while G_c is still 0 (R284). A probe is given up and falls due again (R288, log 168). -/
def stopBegin (c : Nat) (fast : Bool) : Phase := fun s =>
  if s.phase c = 8 then phases [loopDown c, always
    [.nat (Key.prot.PROBE_NEXT c) s.now,
     .chan c fun x => { x with probing := false, probeAt := some s.mtbNs, probeWaits := true }]] s
  else if s.released c then []
  else
    let x := s.chan c
    let clear : Phase := always [zcDrop (Zc.start c),
      .chan c fun x => { x with startDue := false, starting := false, holding := false, fast := fast || x.fast }]
    let p := s.phase c
    if p = 7 ∨ p = 6 then clear s
    else if p = 5 then phases [clear, if fast then chainDown c false else always []] s
    else if x.gc.value = 0 then phases [clear, loopDown c] s
    else if fast then phases [clear, chainDown c false] s
    else phases [clear, always [.num (Key.pw.SEQ_PHASE c) 5], zcStart (Zc.stop c) (.num 0)] s

/-- A zero-crossing wait of a start or a return ends by crossing or timeout: the chain ramp follows (Table 09-4, R292). -/
def chainUp (c : Nat) : Phase := fun s =>
  phases [setOut c 2, always
    [.num (Key.pw.SEQ_PHASE c) 4, .chan c fun x => { x with gc := x.gc.start 1 32 s.strobed }]] s

/-- One tick of the sequences of a channel, before the tick's modulator input is formed: precharge lasts 8 ticks, each loop
ramp 32, and the bridge is released after the tick that follows the ramp down (Tables 09-4, 09-5). A probe starts like a
channel (R288). -/
def gateTick (c : Nat) : Phase := fun s =>
  let x := s.chan c
  match s.phase c with
  | 1 =>
    if x.seqPos < 8 then [.chan c fun x => { x with seqPos := x.seqPos + 1 }]
    else [.num (Key.pw.SEQ_PHASE c) 2, .chan c fun x => { x with gl := (x.gl.to 1 32).step }]
  | 8 => [.chan c fun x => { x with
      seqPos := x.seqPos + 1, gl := if x.seqPos = 8 then (x.gl.to 1 32).step else x.gl.step }]
  | 7 => [.chan c fun x => { x with gl := x.gl.step, releaseDue := x.releaseDue || x.gl.atRest }]
  | _ => if x.gl.atRest then [] else [.chan c fun x => { x with gl := x.gl.step }]

/-- The restart gain in dB at its step: −20 dB rising linearly in dB to 0 over one second, in fs equal steps (R288). -/
def restartDb (fs k : Nat) : Rat := -20 + 20 * k / fs

/-- A power of ten of a level in dB, by the device's function (log 3). -/
def dbGain (db : Rat) : Rat := Config.real .pow10 (db / 20) 0

/-- R_g of a channel as a factor (R279, R288). -/
def State.restartFactor (s : State) (c : Nat) : Rat := match (s.chan c).restart with
  | some k => dbGain (restartDb s.fs k)
  | none => 1

/-- One sample of the sequences of a channel: the chain gate steps once per sample; a ramp that ends at 0 leaves the
channel IDLE, there to stay where a hold began it (R292, R444); one that ends at 1 completes the start (Tables 09-4, 09-5);
the restart gain rises (R288). -/
def gateSample (c : Nat) : Phase := fun s =>
  let x := s.chan c
  let g := x.gc.step
  let ends := !x.gc.atRest && g.atRest
  let gain : Phase := match x.restart with
    | none => always []
    | some k =>
      if s.playing c then
        always [.chan c fun x => { x with restart := if k + 1 < s.fs then some (k + 1) else none },
                .num (Key.pw.RESTART_GAIN c) (if k + 1 < s.fs then rounded (Key.pw.RESTART_GAIN c) (restartDb s.fs (k + 1) * 100) else 0)]
      else always []
  phases [
    whenP (fun s => s.phase c == 6 && (s.chan c).settled) (loopDown c),
    always (if x.gc.atRest then [] else [.chan c fun x => { x with gc := g }]),
    (if ends && g.value = 0 && s.playing c then setOut c 1 else always []),
    (if (ends || x.gc.atRest && !x.settled) && s.phase c = 6 then
        always [if x.holding then .num (Key.pw.SEQ_PHASE c) 0 else .chan c fun x => { x with settled := true },
          .chan c fun x => { x with holding := false }]
      else always []),
    (if ends && s.phase c = 4 then always [.num (Key.pw.SEQ_PHASE c) 0] else always []),
    (if ends && g.value = 1 && x.starting then
        always [.bump (Key.pw.STARTS c) 1, .chan c fun x => { x with starting := false }] else always []),
    gain] s

/-- The sequences of a channel at a block boundary: a start whose loop gate has risen waits for a zero crossing, and so
does a channel whose gate nothing holds any more; a deferred start begins (R280, R284, R292, R444). -/
def gateBoundary (c : Nat) : Phase := fun s =>
  let x := s.chan c
  let p := s.phase c
  let wait : Phase := whenP (fun s => !s.gateHeld c && (s.zcWait (Zc.start c)).isNone) (zcStart (Zc.start c) (.num 1))
  if p = 2 ∧ x.gl.atRest then phases [always [.num (Key.pw.SEQ_PHASE c) 3], wait] s
  else if p = 3 then wait s
  else if p = 0 ∧ s.outState c = 1 ∧ !s.gateHeld c ∧ x.gc.atRest then
    phases [always [.num (Key.pw.SEQ_PHASE c) 3], wait] s
  else if x.startDue ∧ s.outState c = 0 ∧ p = 0 then
    phases [always [.chan c fun x => { x with startDue := false }], startBegin c] s
  else []

/-- A hold brings the chain gate to 0 as in a fast stop, which shows CHAIN_RAMP_DOWN (R282, R292, R444, Table 09-5); a stop that
still waits goes on with its ramp. A gate that is at 0 already stays there. -/
def holdDown (c : Nat) : Phase := fun s =>
  if s.phase c = 0 ∨ s.phase c = 4 then
    (if s.released c then [] else if (s.chan c).gc.value = 0 ∧ (s.chan c).gc.atRest then [.num (Key.pw.SEQ_PHASE c) 0]
     else [.num (Key.pw.SEQ_PHASE c) 6, .chan c fun x => { x with gc := x.gc.to 0 32, holding := true }])
  else if s.phase c = 3 then [zcDrop (Zc.start c)]
  else if s.phase c = 5 then chainDown c false s
  else []

/-! ### Fences -/

/-- A cause of a channel fence stands from now on (R297): recorded, counted, reported. -/
def fenceMark (c bit : Nat) : Phase := fun s =>
  if (s.nat (Key.prot.FENCE_CAUSE c)).testBit bit then []
  else
    let m := s.nat (Key.prot.FENCE_CAUSE c) ||| 2 ^ bit
    [.nat (Key.prot.FENCE_CAUSE c) m, .bump (Key.prot.FENCE_COUNT c) 1, .nat (Key.prot.LAST_FENCE c) s.now,
     .bump Key.life.LT_CH_FENCES 1, .event Ev.CHANNEL_FENCED (args16 [c, m])]

/-- A channel is fenced with a fast stop (causes THERMAL and LOOP, Table 09-8). -/
def fenceFast (c bit : Nat) : Phase := fun s =>
  phases [fenceMark c bit, if s.phase c = 8 then stopBegin c true else if s.released c then setOut c 4 else stopBegin c true] s

/-- Causes clear; the channel leaves FENCED when none is left and then starts (R297, R283). `how` is the argument of
CHANNEL_UNFENCED: 0 = probe, 1 = controller, 2 = thermal resume. -/
def fenceDrop (c m how : Nat) : Phase := fun s =>
  let old := s.nat (Key.prot.FENCE_CAUSE c)
  let new := clearBits old m
  if old = new then []
  else if new ≠ 0 then [.nat (Key.prot.FENCE_CAUSE c) new]
  else
    let out : Phase := if s.outState c = 4 then setOut c 0 else always []
    phases [always [.nat (Key.prot.FENCE_CAUSE c) 0], out,
            always [.event Ev.CHANNEL_UNFENCED (args16 [c, how]), .chan c fun x => { x with startDue := true }]] s

/-- A write of CH_EN takes effect (R283): 1 starts the channel, 0 stops it in order. -/
def chEnEffect (c : Nat) (v : Int) : Phase := if v = 1 then startDue c else stopBegin c false

/-- START_SEQUENCE (R280): a channel begins its start sequence at a block boundary. -/
def startSequence (ron : Phase) (c : Nat) : Phase := fun s =>
  if s.canStart c && s.outState c == 0 && s.phase c == 0 && s.atBoundary then phases [startBegin c, ron] s
  else if s.phase c = 1 then ron s
  else []

/-! ### Shorts and probes -/

/-- Whether the power die declares a short (R287): 32 consecutive limited periods, or more than 64 within 1 ms. -/
def State.shorted (s : State) (c : Nat) : Bool :=
  decide (32 ≤ (s.chan c).limitRun) || decide (64 < (s.chan c).limitTimes.length)

/-- A short is declared (R287): the power die releases the bridge and latches it; the logic follows at the next block boundary
(Table 09-7). A bridge that a probe drives is no exception. -/
def shortDeclared (c : Nat) : Phase := fun s =>
  if !s.shorted c then []
  else [.chan c fun x => { x with
    dieOff := true, shortDue := true, limitRun := 0, limitTimes := [], freeRun := 0, pwm := (0, 0, 0, 0), tripped := (false, false) }]

/-- A declared short at the block boundary that follows (R287, Table 09-7): the channel is fenced with cause SHORT, and the first
probe is due 500 ms later (R288). A probe that the die has cut short goes on to its measurement, and its schedule with it. -/
def shortBoundary (c : Nat) : Phase := fun s =>
  if !(s.chan c).shortDue then []
  else phases [
    fenceMark c 0,
    if (s.chan c).probing || s.phase c == 8 then always [] else phases [
      releaseNow c,
      fun s => [.nat (Key.prot.PROBE_NEXT c) (s.now + 500000000), .chan c fun x => { x with probeAt := some (s.mtbNs + 500000000) }]],
    always [.bump (Key.prot.SHORT_COUNT c) 1, .bump Key.life.LT_SHORTS 1, .event Ev.SHORT (args16 [c]),
      .chan c fun x => { x with shortDue := false }]] s

/-- Whether the mode and the group let a channel be probed (R288; a channel kept released by CH_EN is not, log 168). -/
def State.probeAllowed (s : State) (c : Nat) : Bool :=
  s.groupNormal (c / 4) && s.modeRuns c && s.flag (Key.pw.CH_EN c)

/-- Whether a probe may begin (R288): due, the short its only cause, allowed; one that had to wait begins at a block
boundary. -/
def State.probeReady (s : State) (c : Nat) : Bool :=
  s.nat (Key.prot.FENCE_CAUSE c) == 1 && s.probeAllowed c && s.passed (s.chan c).probeAt 0 && s.phase c == 0
    && (!(s.chan c).probeWaits || s.atBoundary)

/-- A probe begins (R288). -/
def probeBegin (c : Nat) : Phase := fun s =>
  if s.probeReady c then
    [.num (Key.pw.SEQ_PHASE c) 8, .num (Key.prot.PROBE_NEXT c) 0,
     .chan c fun x => { x with probing := true, probeAt := none, probeWaits := false, seqPos := if s.ticked then 1 else 0,
                               gc := {}, gl := {}, probeSum := (0, 0, 0, 0) }]
  else []

/-- At a block boundary, before its changes: a probe that is due and not allowed waits (R288). -/
def probeDue (c : Nat) : Phase := fun s =>
  if s.passed (s.chan c).probeAt 0 && !s.probeAllowed c && !(s.chan c).probeWaits then
    [.chan c fun x => { x with probeWaits := true }]
  else []

/-- At a block boundary, after its changes: a probe that waited begins (R288). -/
def probeBoundary (c : Nat) : Phase := fun s => if (s.chan c).probeWaits then probeBegin c s else []

/-- The ticks of a probe: precharge and loop ramp, then one period of 50 Hz (R288, Table 09-4). -/
def probeTicks : Nat := 40 + 1920

/-- A probe has driven its sine and ends (R288): |Z| is that of the phasors; below 1.000 Ω it fails and is counted, and the
fifth failure latches the fence; else the SHORT cause clears and the channel restarts at −20 dB. The bridge releases under a
fast stop, of which the loop ramp is left. `n` probes have failed before this one. -/
def probeEnd (c n : Nat) : Phase := fun s =>
  let x := s.chan c
  if !x.probing || x.seqPos ≤ probeTicks || s.nat (Key.prot.PROBE_FAILS c) != n then []
  else
    let (vc, vs, ic, is) := x.probeSum
    let v2 := vc * vc + vs * vs
    let i2 := ic * ic + is * is
    let pass := i2 ≤ v2
    let fails := s.nat (Key.prot.PROBE_FAILS c) + (if pass then 0 else 1)
    let mohm : Int := if i2 = 0 then 4294000001 else rounded (Key.prot.PROBE_Z c) (sqrtQ (v2 / i2) * 1000)
    let shown := if 4294000000 < mohm then 0xFFFFFFFF else mohm.toNat
    phases [
      always [.nat (Key.prot.PROBE_Z c) shown, .nat (Key.prot.PROBE_FAILS c) fails,
              .chan c fun x => { x with probing := false },
              .event Ev.PROBE_RESULT (args16 [c] ++ le 4 shown ++ args16 [if pass then 1 else 0] ++ le 1 fails)],
      loopDown c,
      (if pass then phases [
        always [.chan c fun x => { x with restart := some 0, probeAt := none }, .num (Key.pw.RESTART_GAIN c) (-2000)],
        fenceDrop c 1 0]
      else if 5 ≤ fails then phases [fenceMark c 4, always [.chan c fun x => { x with probeAt := none }]]
      else always [.nat (Key.prot.PROBE_NEXT c) (s.now + 2000000000),
                   .chan c fun x => { x with probeAt := some (s.mtbNs + 2000000000) }])] s

/-- A DC fault (R290): |DC_MEAN| above 2.0 V for 50 ms releases at the next carrier valley and fences; a channel that is released
already, whose 2 Hz mean outlives its release, is fenced where it stands. -/
def dcFault (c : Nat) : Phase := fun s =>
  if s.passed (s.chan c).dcSince 50000000 && !(s.nat (Key.prot.FENCE_CAUSE c)).testBit 1 then
    phases [fenceMark c 1, always
      [.bump (Key.prot.DC_TRIPS c) 1, .event Ev.DC_FAULT (args16 [c] ++ le 4 (s.num (Key.prot.DC_MEAN c)))],
      if s.released c && s.phase c == 0 then setOut c 4 else always
        [.num (Key.pw.SEQ_PHASE c) 0, zcDrop (Zc.start c), zcDrop (Zc.stop c),
         .chan c fun x => { x with releaseDue := true }]] s
  else []

/-- Whether a controller clear of a channel is refused (R298). -/
def State.clearRefused (s : State) (c : Nat) : Bool := (s.nat (Key.prot.FENCE_CAUSE c)).testBit 2

/-- A controller clear of a channel (R298): bits 1, 3 and 4 clear, and a short is probed afresh. -/
def channelClear (c : Nat) : Phase := fun s =>
  if s.clearRefused c then []
  else phases [
    whenP (fun s => (s.nat (Key.prot.FENCE_CAUSE c)).testBit 0) (fun s =>
      [.num (Key.prot.PROBE_FAILS c) 0, .nat (Key.prot.PROBE_NEXT c) s.nextBoundary,
       .chan c fun x => { x with probeAt := some s.mtbNs, probeWaits := true }]),
    fenceDrop c 0b11010 1] s

/-! ### Groups -/

/-- The channels of a group. -/
def groupChans (g : Nat) : List Nat := [4 * g, 4 * g + 1, 4 * g + 2, 4 * g + 3]

/-- The hardware releases the four bridges of a group (R291, R293, R294): no sequence; the limited-period counts
clear and probes are postponed (R295). -/
def groupRelease (g : Nat) : Phase := forAll (groupChans g) fun c => phases [
  whenP (fun s => (s.chan c).probing) (fun s => [.nat (Key.prot.PROBE_NEXT c) s.now,
    .chan c fun x => { x with probing := false, probeAt := some s.mtbNs }]),
  releaseNow c,
  always [.chan c fun x => { x with limitRun := 0, limitTimes := [], freeRun := 0 }]]

/-- The channels of a group that is NORMAL again start (R283); a probe that fell due meanwhile waits for the first block boundary
(R288). -/
def groupStarts (g : Nat) : Phase := whenP (fun s => s.groupNormal g) (forAll (groupChans g) fun c => phases [
  whenP (fun s => s.passed (s.chan c).probeAt 0) (always [.chan c fun x => { x with probeWaits := true }]), startDue c])

/-- Bus overvoltage (R291): VBUS above 66 V, with the comparator armed. -/
def busOvervoltage (g mv : Nat) : Phase := fun s =>
  if mv ≤ 66000 ∨ ((s.group g).ov ∧ !(s.group g).back.testBit 0) then []
  else phases [always [.group g fun x => { x with ov := true, back := clearBits x.back 1 }], groupRelease g,
    groupShow g, always [.bump (Key.pg.OV_COUNT g) 1, .bump Key.life.LT_BUS_OV 1,
      .event Ev.BUS_OV (args16 [g] ++ le 4 mv)]] s

/-- The overvoltage comparator re-arms below 62 V (R291); the state ends at the next block boundary. -/
def busOvRearm (g mv : Nat) : Phase := fun s =>
  if !(s.group g).ov || decide (62000 ≤ mv) || (s.group g).back.testBit 0 then []
  else [.group g fun x => { x with back := x.back ||| 1 }, .event Ev.BUS_OV_CLEARED (args16 [g])]

/-- A block mean below 22.0 V mutes the group (R292). -/
def busUvMute (g : Nat) : Phase := fun s =>
  if (s.group g).uv || decide (22 ≤ (s.group g).vMean) then []
  else phases [always [.group g fun x => { x with uv := true, uvOk := none }],
    forAll (groupChans g) (fun c => phases [holdDown c, always [.chan c fun x => { x with uvHeld := true }]]),
    groupShow g, always [.bump (Key.pg.UV_COUNT g) 1,
      .event Ev.BUS_UV_MUTE (args16 [g] ++ le 4 (s.num (Key.pg.VBUS_NOW g)))]] s

/-- 100 ms at or above 23.0 V end the mute (R292): each channel runs the zero-crossing wait and chain ramp from the next
block boundary (`gateBoundary`). -/
def busUvRestore (g : Nat) : Phase := fun s =>
  if (s.group g).uv && s.passed (s.group g).uvOk 100000000 then
    phases [always [.group g fun x => { x with uv := false, uvOk := none }],
      always ((groupChans g).map fun c => .chan c fun x => { x with uvHeld := false }),
      groupShow g, always [.event Ev.BUS_UV_CLEARED (args16 [g])], groupStarts g] s
  else []

/-- 4 µs without edge commands release the bridges of a power die (R293), again where edges had come back for 1 ms. -/
def starve (g : Nat) : Phase := fun s =>
  if (s.group g).starved ∧ !(s.group g).back.testBit 1 then []
  else phases [always [.group g fun x => { x with starved := true, back := clearBits x.back 2 }], groupRelease g,
    groupShow g, always [.bump (Key.pg.STARVE_COUNT g) 1, .event Ev.STARVATION (args16 [g])]] s

/-- 1 ms of edge commands without a break (R293); the state ends at the next block boundary. -/
def starveRecover (g : Nat) : Phase := fun s =>
  if (s.group g).starved then [.group g fun x => { x with back := x.back ||| 2 }] else []

/-- VAUX below 9.8 V releases the bridges of a die (R294), again where the gate drivers had been re-enabled. -/
def vauxLow (g mv : Nat) : Phase := fun s =>
  if 9800 ≤ mv then []
  else if (s.group g).uvlo ∧ (s.group g).vauxOk.isNone then []
  else phases [always [.group g fun x => { x with uvlo := true, vauxOk := none, vauxUp := false }], groupRelease g, groupShow g,
    always [.bump (Key.pg.UVLO_COUNT g) 1, .bump Key.life.LT_UVLO 1, .event Ev.VAUX_UVLO (args16 [g])]] s

/-- VAUX above 10.5 V re-enables the gate drivers (R294, R440); after an undervoltage NORMAL follows 10 ms later at a block
boundary. -/
def vauxOk (g mv : Nat) : Phase := fun s =>
  if mv ≤ 10500 then []
  else [.group g fun x => { x with
    vauxUp := true, vauxOk := if x.uvlo && x.vauxOk.isNone then some s.mtbNs else x.vauxOk }]

/-- Whether a power die lets its bridges and its hot-swap gate go: VAUX has risen above 10.5 V, and the logic has left reset and
its modulator issues edge commands (R440). -/
def State.dieReady (s : State) (g : Nat) : Bool := s.mode != .boot && (s.group g).vauxUp && !(s.group g).starved

/-- A group at a block boundary: states that have ended leave, and a group that is NORMAL again starts its channels
(R291, R293, R294). -/
def groupBoundary (g : Nat) : Phase := fun s =>
  let x := s.group g
  let drv := x.uvlo && s.passed x.vauxOk 10000000
  if x.back = 0 ∧ !drv then []
  else phases [
    always [.group g fun x => { x with ov := x.ov && !x.back.testBit 0, starved := x.starved && !x.back.testBit 1,
                                       uvlo := x.uvlo && !drv, vauxOk := if drv then none else x.vauxOk, back := 0 }],
    groupShow g, groupStarts g] s

/-- A non-negative multiplier as Q31, at most 0x7FFF_FFFF; its rounding is the device's (log 4). -/
def toQ31 (tag : Nat) (x : Rat) : Int := max 0 (min 2147483647 (rounded tag (x * 2147483648)))

/-- The bus ceiling of a group from the block mean of its bus current in A (R296); 0 while the group is released. -/
def busCeiling (g : Nat) (iBlk : Rat) : Phase := fun s =>
  let x := s.group g
  let iPeak : Rat := s.num (Key.pg.I_PEAK g) / 1000
  let iCont : Rat := s.num (Key.pg.I_CONT g) / 1000
  let i := if (groupChans g).all s.released then 0 else iBlk
  let avg := x.iAvg + (i - x.iAvg) / 3000
  let c := if iPeak < i then x.cBus * dbGain (-1 / 2)
    else if iCont < avg then x.cBus * dbGain (-1 / 20)
    else if avg < 95 / 100 * iCont ∧ i < 95 / 100 * iPeak then x.cBus * dbGain (1 / 200)
    else x.cBus
  let c := min 1 (max (dbGain (s.num (Key.pg.C_BUS_MIN g) / 100)) c)
  [.group g fun x => { x with iAvg := avg, cBus := c },
   .num (Key.pg.IBUS_BLK g) (rounded (Key.pg.IBUS_BLK g) (i * 1000)),
   .num (Key.pg.IBUS_AVG g) (rounded (Key.pg.IBUS_AVG g) (avg * 1000)),
   .num (Key.pg.C_BUS g) (toQ31 (Key.pg.C_BUS g) c)]
    ++ (groupChans g).map fun ch => .num (Key.gn.C_BUS ch) (toQ31 (Key.pg.C_BUS g) c)

/-- The bus figures of a block (R292): the block mean of VBUS over its ticks, and since when it is at or above 23.0 V; the filtered bus
voltage of the boundary, which is the bus estimate of R276 (R174, R237). -/
def busMeasure (g : Nat) : Phase := fun s =>
  let x := s.group g
  let v : Rat := if x.vTicks = 0 then x.vMean else x.vSum / (2 ^ 20 * x.vTicks : Nat)
  [.num (Key.pg.VBUS_NOW g) (rounded (Key.pg.VBUS_NOW g) (v * 1000)),
   .num (Key.pg.VBUS_EST g) (rounded (Key.pg.VBUS_EST g) (x.vEst * 1000)),
   .group g fun x => { x with vMean := v, vFilt := x.vPred, vSum := 0, vTicks := 0, uvOk := if v < 23 then none else match x.uvOk with
     | some t => some t
     | none => some s.mtbNs }]

/-! ### The modulator -/

/-- Edge steps per carrier period and m_max × 100 of a switching frequency (Table 09-1). -/
def carrierSteps (sel : Nat) : Nat := if sel = 0 then 65536 else if sel = 1 then 32768 else 16384
def mMax (sel : Nat) : Rat := if sel = 2 then 94 / 100 else 97 / 100

/-- The soft clip (R277). -/
def softclip (sel : Nat) (m : Rat) : Rat :=
  let k := 9 / 10 * mMax sel
  if |m| ≤ k then m
  else
    let y := k + (mMax sel - k) * Config.real .tanh ((|m| - k) / (mMax sel - k)) 0
    if m < 0 then -y else y

/-- A bit of CLIP_FLAGS sets (R182); bits 3 and 4 spoil the pilot window (R250). -/
def clip (c bit : Nat) : Phase := fun s =>
  [.orBits (Key.gn.CLIP_FLAGS c) (2 ^ bit)]
    ++ (if 3 ≤ bit then [.chan c fun x => { x with pilot := { x.pilot with bad := true } }] else [])
    ++ (if (s.nat (Key.gn.CLIP_FLAGS c)).testBit bit then [] else [.eventOnce Ev.CHAIN_CLIP c (args16 [c, bit])])

/-- The edges of a carrier period of n steps for the integer q (R273): A rise, A fall, B rise, B fall, in steps after
the group's valley; the channel's carrier runs `stagger` sixteenths behind it (R274). -/
def edges (n stagger : Nat) (q : Int) : Int × Int × Int × Int :=
  let lo := q / 2
  let hi := -((-q) / 2)
  let a : Int := stagger * n / 16 + n / 4
  let b : Int := stagger * n / 16 + 3 * n / 4
  (a - lo, b + hi, a + lo, b - hi)

/-- The integer q that the shaper delivers, within the bound of R273 (R278). -/
def boundQ (sel : Nat) (q : Int) : Int :=
  let b := (mMax sel * carrierSteps sel / 2).floor
  max (-b) (min b q)

/-- Whether a probe drives the bridge, its release included (R288). -/
def State.probeDrives (s : State) (c : Nat) : Bool := s.phase c == 8 || (s.phase c == 7 && s.released c)

/-- The current limit in A: 4.000 A plus the code × 18/63 A; 4.000 A during a probe (R285, R288). -/
def State.iLim (s : State) (c : Nat) : Rat :=
  if s.probeDrives c then 4 else 4 + s.num (Key.pw.I_LIM_CODE c) * 18 / 63

/-- Whether the legs of a bridge are switched by their edges: not in the precharge (Table 09-4), nor where the power die has
latched the bridge (R287). -/
def State.switching (s : State) (c : Nat) : Bool :=
  !(s.chan c).dieOff && ((!s.released c && s.phase c != 1) || (s.probeDrives c && (s.phase c == 7 || decide (8 < (s.chan c).seqPos))))

/-- The dead time of 4 ns in edge steps of 1 / (16 f_synth), of which 32,768 × 768,000 make a second (R273, Table 09-1). -/
def deadSteps : Int := rounded 0x8001 (4 * 32768 * 768000 / 1000000000)

/-- Edges moved by the compensation of the dead time: each stays, or moves by the dead time one way or the other (R273,
log 167). -/
def deadTimed (sign : Int) (e : Int × Int × Int × Int) : Int × Int × Int × Int :=
  let move := fun (i : Nat) => (Config.deadWay sign i).sign * deadSteps
  (e.1 + move 0, e.2.1 + move 1, e.2.2.1 + move 2, e.2.2.2 + move 3)

/-- The carrier period of one channel: index, edges and limited periods (R271-R278, R285, R286); `peak` is the largest
current of the high-side switches of legs A and B after their blanking, 2^-24 A. A leg above I_LIM stays low until it rises
again. -/
def carrierChan (g c : Nat) (vk : Int) (peak : Int × Int) : Phase := fun s =>
  let x := s.chan c
  let grp := s.group g
  let sel := s.nat (Key.pg.FSW_SEL g)
  let pred : Int := vk + (if s.flag (Key.pw.FF_PREDICT c) then vk - grp.vNow else 0)
  let vEst : Rat := (pred + (s.learner g).corr : Int) / 2 ^ 20
  let ip := Config.filterStep .interp [(carrierSteps sel : Rat)] x.interp ((x.xMod : Rat) / 2147483648)
  let md := ip.headD 0 * (s.num (Key.gn.V_FS c) / 1000) / vEst
  let sh := Config.filterStep .shaper [(carrierSteps sel : Rat)] x.shaper (softclip sel md * carrierSteps sel / 2)
  let q := boundQ sel (sh.headD 0).floor
  let switching := s.switching c
  let above := fun (i : Int) => switching && decide (s.iLim c < (i : Rat) / 16777216)
  let tripped := above peak.1 || above peak.2
  let now := s.mtbNs
  let times := ((if tripped then now :: x.limitTimes else x.limitTimes).filter fun t => decide (now < t + 1000000))
  let out := s.outState c
  phases [
    always [.chan c fun x => { x with
        interp := ip.drop 1, shaper := sh.drop 1,
        pwm := if switching then deadTimed x.iSense.sign (edges (carrierSteps sel) (s.nat (Key.pw.STAGGER c)) q)
          else (0, 0, 0, 0),
        tripped := (above peak.1, above peak.2),
        limitRun := if tripped then x.limitRun + 1 else 0,
        freeRun := if tripped then 0 else x.freeRun + 1,
        limitTimes := times },
      .group g fun y => { y with vEst := vEst }],
    (if mMax sel < |md| then clip c 4 else always []),
    (if tripped then always [.bump (Key.pw.LIMITED_PERIODS c) 1] else always []),
    (if tripped && out = 2 then phases [setOut c 3, always [.eventOnce Ev.CURRENT_LIMIT c (args16 [c])]]
     else if !tripped && out = 3 && decide (255 ≤ x.freeRun) then setOut c 2 else always []),
    (if x.releaseDue then releaseNow c else always [])] s

/-- A carrier period of a group (R275, R276): `vk` is the mean of its bus samples over the period in 2^-20 V, `peaks` the
largest high-side currents of the two legs of its four channels. The bus estimate of R237 is predicted unless no channel of
the group asks for a prediction (log 116). -/
def carrierGroup (g : Nat) (vk : Int) (peaks : List (Int × Int)) : Phase := phases [
  forAll ([0, 1, 2, 3] : List Nat) (fun i => carrierChan g (4 * g + i) vk (peaks.getD i (0, 0))),
  (fun s => [.group g fun x => { x with
    vNow := vk,
    vPred := if (groupChans g).any fun c => s.flag (Key.pw.FF_PREDICT c) then 2 * vk - x.vNow else vk }])]

end Sys2Proof.Machine
end

