-- ==== Sys2Proof/Machine/MediaTime.lean ====
section
/-!
DEFINITION. Machine/MediaTime.lean: the time bases, their servo and lock states, slew, re-anchor and first anchoring,
holdover of the time base, the domains and the hand-over, snapshots and the captured edges (R46-R73, R517).
-/

namespace Sys2Proof.Machine

/-- The nominal increment and the limits of R50, in 2^-32 ns per reference tick. -/
def incNom : Int := 0x0A2C2AAAAB
def incMin : Int := 0x0A2ADD5556
def incMax : Int := 0x0A2D780000

/-- An increment within the limits of R50. -/
def clampInc (i : Int) : Int := max incMin (min incMax i)

/-- The phase term of a slew: 200 ppm of the nominal increment (R63). -/
def slewTerm : Int := 8738133

/-! ### The counters -/

/-- Whether a DTB is enabled (R49). -/
def State.dtbOn (s : State) (d : Nat) : Bool := s.nat (Key.dtb.DOMAIN_NUMBER d) != 0xFF

/-- Domain time: whole ns of the counter (R46, R49). -/
def State.dtbTime (s : State) (d : Nat) : Nat := (s.tbase d).count.toNat / 2 ^ 32

/-- What is left to slew as SLEW_REMAINING shows it: whole ns, away from zero (R63). -/
def slewNs (left : Int) : Int :=
  if 0 ≤ left then (left + 2 ^ 32 - 1) / 2 ^ 32 else -((-left + 2 ^ 32 - 1) / 2 ^ 32)

/-- What a tick leaves to slew when INC carries the phase term `add` (R63): once nothing is left, nothing comes back. -/
def slewLeft (left add : Int) : Int :=
  if left = 0 then 0 else if 0 < left then max 0 (left + add) else min 0 (left + add)

/-- The domain time bases and the slew after one reference tick (R46, R49, R63). -/
def tickRest : Phase := fun s =>
  (List.range 4).map (fun d => .tbase d fun x =>
    { x with count := if s.dtbOn d then x.count + BitVec.ofInt 96 (s.num (Key.dtb.DTB_INC d)) else 0 })
  ++ (let a := s.units.anchor
      if a.slewing then
        [.anchor fun a => { a with slewLsb := slewLeft a.slewLsb a.slewAdd },
         .num Key.servo.SLEW_REMAINING (slewNs (slewLeft a.slewLsb a.slewAdd))]
      else [])

/-- A snapshot of the five time bases on one reference tick (R58, R60). -/
def snapshot : Phase := fun s =>
  [.nat Key.snap.SNAP_MTB s.now] ++ (List.range 4).map (fun d => .nat (Key.snap.SNAP_DTB d) (s.dtbTime d))
    ++ [.bump Key.snap.SNAP_COUNT 1]

/-! ### Lock states (Table 02-7) -/

/-- The entry that shows the lock state of a time base; 4 is the MTB (R81). -/
def lockKey (tb : Nat) : Nat := if tb = 4 then Key.lock.LOCK_STATE else Key.dtb.DOMAIN_LOCK tb

/-- The entry that shows the filtered offset of a time base. -/
def offsetKey (tb : Nat) : Nat := if tb = 4 then Key.servo.OFFSET else Key.dtb.DTB_OFFSET tb

/-- The entry that holds the increment of a time base. -/
def incKey (tb : Nat) : Nat := if tb = 4 then Key.mtb.INC else Key.dtb.DTB_INC tb

/-- A lock state changes (Tables 02-7, 02-9, 02-12, 02-18). -/
def setLock (tb new : Nat) : Phase := fun s =>
  let old := s.nat (lockKey tb)
  if old = new then []
  else [.nat (lockKey tb) new, .event Ev.LOCK_STATE_CHANGED (args16 [tb, old, new]),
        .tbase tb fun x => { x with windowStart := none }]
    ++ (if tb = 4 then
          [.nat Key.lock.LOCK_SINCE s.now] ++ (if old = 2 then [.bump Key.lock.LOCK_LOSS_COUNT 1] else [])
            ++ (if new = 3 then [.bump Key.hold.HOLDOVER_COUNT 1] else [])
            ++ [.mgmt fun m => { m with holdSince := if new = 3 then some s.mtbNs else none,
                                        lockedSince := m.lockedSince || new == 2 }]
        else [])

/-- An offset is reported, and the lock state follows it (Table 02-7): 1 µs or more takes LOCKED to ACQUIRE and
restarts the 8 s window of ACQUIRE. -/
def reportOffset (tb : Nat) (o : Int) : Phase := fun s =>
  let big := decide (1000 ≤ |o|)
  phases [always [.num (offsetKey tb) o],
    (if big && s.nat (lockKey tb) = 2 then setLock tb 1 else always []),
    always [.tbase tb fun x => { x with windowStart := if big then none else match x.windowStart with
      | some t => some t
      | none => some s.mtbNs }]] s

/-- The MTB's increment without the phase term of a slew (R63). -/
def State.incBase (s : State) : Int := s.num Key.mtb.INC - s.units.anchor.slewAdd

/-- INC with the phase term that removes `left` beside `base`, both within R50 (R63). -/
def slewInc (base left : Int) : Int :=
  clampInc (clampInc base + (if left = 0 then 0 else if 0 < left then -slewTerm else slewTerm))

/-- The MTB's increment without a slew: the phase term leaves INC (R63, R70). -/
def slewStop : Phase := fun s =>
  if s.units.anchor.slewing then
    [.num Key.mtb.INC (clampInc s.incBase), .anchor fun a => { a with slewing := false, slewAdd := 0 }]
  else []

/-- The increment of a time base from the servo's terms, within R50; since when it would lie outside (R72). -/
def writeInc (tb : Nat) (aboveNominal : Int) : Phase := fun s =>
  let i := incNom + aboveNominal
  let out := decide (i < incMin ∨ incMax < i)
  let a := s.units.anchor
  let inc := if tb = 4 && a.slewing then slewInc i a.slewLsb else clampInc i
  [.num (incKey tb) inc] ++ (if tb = 4 then [.anchor fun a => { a with slewAdd := inc - clampInc i }] else [])
  ++ [.tbase tb fun x => { x with outSince := if out then (match x.outSince with
     | some t => some t
     | none => some s.mtbNs) else none }]

/-! ### Slew and re-anchor -/

/-- An offset of at most 1 ms is slewed (R63); one that comes while a slew runs joins what is left. -/
def slewStart (o : Int) : Phase := fun s =>
  let a := s.units.anchor
  let left := (if a.slewing then a.slewLsb else 0) + o * 2 ^ 32
  let inc := slewInc s.incBase left
  [.anchor fun a => { a with slewLsb := left, slewing := left != 0, slewAdd := inc - clampInc s.incBase },
   .num Key.servo.SLEW_REMAINING (slewNs left), .num Key.mtb.INC inc, .event Ev.SLEW_START (le 8 o)]

/-- The wait of a channel for the mute of a re-anchor (R64). -/
def Zc.anchor (c : Nat) : Nat := Zc.fn 3 c

/-- Step 1 of a re-anchor (R64): every playing channel mutes at a zero crossing; one still muted by an earlier
re-anchor needs no wait (R68). A channel that waits to start or to be restored is held where it stands (R48). -/
def anchorMute (c : Nat) : Phase := fun s =>
  if s.playing c && !(s.chan c).anchorMuted then
    phases [always [.chan c fun x => { x with anchorMuted := true }], zcStart (Zc.anchor c) (.num 0)] s
  else [zcDrop (Zc.start c)]

/-- A re-anchor begins (R64, R67): a step above 1 ms, in either direction. -/
def reanchorBegin (o : Int) : Phase := phases [
  always [.anchor fun a => { a with phase := 1, offset := o }, .event Ev.REANCHOR_START (le 8 (-o))],
  setLock 4 1,
  forAll (List.range 16) anchorMute]

/-- A confirmed step of the MTB, on top of what is being removed: slewed or re-anchored (R63, R64); one confirmed during
a re-anchor joins the first before its anchor boundary and waits in the anchor period (R68). -/
def mtbStep (o : Int) : Phase := fun s =>
  let a := s.units.anchor
  if a.phase = 1 then [.anchor fun a => { a with offset := a.offset + o }]
  else if a.phase = 2 then [.anchor fun a => { a with second := some (a.second.getD 0 + o) }]
  else if |o| ≤ 1000000 then slewStart o s
  else reanchorBegin o s

/-- The whole offset of the MTB as newly measured: what was still to be slewed or anchored is part of it (R70, R73). -/
def mtbOffset (o : Int) : Phase := phases [
  slewStop,
  always [.anchor fun a => { a with slewLsb := 0, offset := if a.phase = 1 then 0 else a.offset, second := none },
          .num Key.servo.SLEW_REMAINING 0, .tbase 4 fun x => { x with pred := 0 }],
  mtbStep o]

/-- The MTB's offset that a slew or an anchoring under way is still to remove, ns (R61, R63, R68). -/
def State.toRemove (s : State) : Int :=
  let a := s.units.anchor
  (if a.slewing then slewNs a.slewLsb else 0) + (if a.phase = 1 then a.offset else 0) + a.second.getD 0

/-- The offset that a time base expects of its next measurement: the servo's prediction and what is still to be
removed (R61). -/
def State.predicted (s : State) (tb : Nat) : Int := (s.tbase tb).pred + if tb = 4 then s.toRemove else 0

/-- A DTB's counter moves by −`o` ns; an exchange under way is void (R49). -/
def dtbShift (tb : Nat) (o : Int) : Effect :=
  .tbase tb fun x => { x with count := x.count - BitVec.ofInt 96 (o * 2 ^ 32), sync := none, request := none }

/-- A confirmed step of a time base (R49, R61): a DTB steps at once; the MTB slews or re-anchors. -/
def applyStep (tb : Nat) (o : Int) : Phase :=
  if tb = 4 then mtbStep o else always [dtbShift tb o, .bump (Key.dtb.STEP_COUNT tb) 1]

/-- The whole offset of a time base is removed (Table 02-7, R70). -/
def applyOffset (tb : Nat) (o : Int) : Phase :=
  if tb = 4 then mtbOffset o
  else always [dtbShift tb o, .tbase tb fun x => { x with pred := 0 }, .bump (Key.dtb.STEP_COUNT tb) 1]

/-! ### Measurements -/

/-- A step of the servo, of the PTP messages or of the time base's supervision: the management processor takes it, so none
is taken in an absence, and the time bases run on the increments last written (R457, log 174). -/
def servoP (p : Phase) : Phase := whenP (fun s => s.units.mgmt.served) p

/-- Whether the last K deviations agree with one another within the limit (R61). -/
def agree (limit : Int) (l : List Int) : Bool := l.all fun a => l.all fun b => decide (|a - b| ≤ limit)

/-- A measurement that the servo uses: frequency term, increment and filtered offset move by its law (R61, log 6). What
a slew or an anchoring is to remove is not the servo's. -/
def servoUse (tb : Nat) (o : Int) : Phase := fun s =>
  let x := s.tbase tb
  let bw := s.nat Key.servo.SERVO_BW
  let rest := s.predicted tb - x.pred
  let f := Config.servoFreq bw x.freqTerm (o - rest)
  let filtered := if x.estimating then o else Config.servoFilter bw (s.num (offsetKey tb)) o
  phases [
    always [.tbase tb fun x => { x with freqTerm := f, pred := Config.servoPredict bw f (filtered - rest), outliers := [],
                                        estLeft := if x.estimating then x.estLeft - 1 else x.estLeft }],
    reportOffset tb filtered,
    writeInc tb (Config.servoInc bw f (o - rest)),
    (if tb = 4 then always [.nat Key.servo.LAST_MEASURE s.now] else always [])] s

/-- The test for outliers and the confirmation of a step (R61). OUTLIER_COUNT counts those of the MTB's servo (log 156). -/
def servoTest (tb : Nat) (o : Int) : Phase := fun s =>
  let x := s.tbase tb
  let limit := s.num Key.servo.OUTLIER_LIMIT
  let k := s.nat Key.servo.STEP_CONFIRM
  let dev := o - s.predicted tb
  if x.stepNext then
    phases [always [.tbase tb fun x => { x with stepNext := false, outliers := [] }], reportOffset tb o, applyOffset tb o] s
  else if |dev| ≤ limit then servoUse tb o s
  else
    let l := (dev :: x.outliers).take k
    let count : List Effect := if tb = 4 then [.bump Key.servo.OUTLIER_COUNT 1] else []
    if l.length < k ∨ !agree limit l then count ++ [.tbase tb fun x => { x with outliers := l }]
    else
      let step := rounded (offsetKey tb) ((l.foldl (· + ·) 0 : Int) / (k : Rat))
      phases [always (count ++ [.tbase tb fun x => { x with outliers := [] }]),
              reportOffset tb (s.predicted tb + step), applyStep tb step] s

/-- The MTB's source is there again: SOURCE_STATE, and after a loss its event (R70, Table 02-9). -/
def sourceBack (o : Int) : Phase := fun s =>
  [.num Key.lock.SOURCE_STATE 0]
  ++ (if s.units.anchor.lossAt.isSome then
        [.event Ev.SOURCE_RESTORED (args16 [s.nat Key.ref.REF_SOURCE] ++ le 8 o), .anchor fun a => { a with lossAt := none }]
      else [])

/-- The frequency estimate of ACQUIRE opens: 8 Sync intervals (R61, Table 02-7). -/
def estimateOpen (tb : Nat) : Effect :=
  .tbase tb fun x => { x with estimating := true, estLeft := 8, outliers := [], pred := 0 }

/-- The source of a time base is there (Table 02-7): from FREE and HOLDOVER it goes to ACQUIRE; after holdover the
remaining offset is handled as a confirmed step (R70), which a change of port that brought the source back is part of (R71). The frequency estimate opens when the time base has not yet
ended one (log 22). -/
def sourcePresent (tb : Nat) (o : Int) : Phase := fun s =>
  let st := s.nat (lockKey tb)
  let x := s.tbase tb
  phases [
    (if tb = 4 then sourceBack o else always []),
    (if st = 0 then phases [setLock tb 1, always [estimateOpen tb]]
     else if st = 3 then phases [setLock tb 1,
       always [.tbase tb fun x => { x with outliers := [], pred := 0, stepNext := x.stepNext && x.estimating }],
       if x.estimating then always [] else phases [
         (if tb = 4 then always [.nat Key.servo.LAST_MEASURE s.now] else always []), reportOffset tb o, applyOffset tb o]]
     else always [])] s

/-- One offset measurement of a time base (R61, R62). -/
def measure (tb : Nat) (o : Int) : Phase := fun s =>
  let returns := s.nat (lockKey tb) == 3 && !(s.tbase tb).estimating
  phases [
    always [.tbase tb fun x => { x with lastSync := some s.mtbNs }],
    sourcePresent tb o,
    if returns then always []
    else readP (fun s => (s.tbase tb).estimating) fun e => if e then servoUse tb o else servoTest tb o] s

/-- Whether the MTB follows a domain (R55). -/
def State.follows (s : State) (d : Nat) : Bool := s.num Key.ref.REF_SOURCE == 1 && s.nat Key.ref.REF_DOMAIN == d

/-- The time of the SFD from a snapshot (R59, R368): minus 112 ns, SNAP_COMP and the PHY's latency of the direction. -/
def State.sfd (s : State) (mac : Nat) (rx : Bool) (snap : Int) : Int :=
  snap - 112 - s.num Key.servo.SNAP_COMP - s.num (if rx then Key.mac.PHY_LAT_RX mac else Key.mac.PHY_LAT_TX mac)

/-- The SFD of the last event frame that a MAC received, in the time of a time base: 0-3 = DTBs, 4 = MTB (R58, R59). -/
def State.rxSfd (s : State) (mac tb : Nat) : Int :=
  s.sfd mac true ((s.mac mac).rxStamp.getD (if tb = 4 then 0 else tb + 1) 0)

/-- The MAC that a DTB uses (R71). -/
def State.dtbMac (s : State) (d : Nat) : Nat :=
  if s.nat (Key.dtb.PTP_PORT d) = 2 then (if (s.tbase d).onN1 then 1 else 0) else s.nat (Key.dtb.PTP_PORT d)

/-- A DTB under PTP_PORT 2 changes its port, which is treated as a step (R71). -/
def portMove (d : Nat) : Phase := fun s =>
  [.tbase d fun x => { x with onN1 := !x.onN1, stepNext := true, sync := none, request := none },
   .tbase 4 fun x => { x with stepNext := x.stepNext || s.follows d }]

/-- SYNC_MEASUREMENT (R59, R61): a Sync of the master of DTB d came on a MAC, sent at master time `t1` (with its
corrections), snapshot taken. The DTB measures; so does the MTB when it follows the domain. A Sync on the port that the
DTB does not use does nothing, but for one on N0 that takes it back there (R71). -/
def syncMeasure (d mac : Nat) (t1 logInterval : Int) : Phase := servoP fun s =>
  let back := s.nat (Key.dtb.PTP_PORT d) = 2 ∧ (s.tbase d).onN1 ∧ mac = 0
  if !s.dtbOn d || (s.tbase d).fenced || !(decide (mac = s.dtbMac d) || decide back) then []
  else
    let master := t1 + s.num (Key.dtb.PATH_DELAY d)
    phases [
      (if back then portMove d else always []),
      always [.tbase d fun x => { x with syncLog := some logInterval }],
      measure d (s.rxSfd mac d - master),
      always [.tbase d fun x => { x with sync := some (t1, s.rxSfd mac d) }],
      if s.follows d then phases [always [.tbase 4 fun x => { x with syncLog := some logInterval }],
                                  measure 4 (s.rxSfd mac 4 - master)]
      else always []] s

/-- FREQUENCY_ESTIMATE_DONE (Table 02-7): after 8 intervals the phase is removed, as a step is; a change of port
before it is part of that (R71). -/
def estimateDone (tb : Nat) : Phase := servoP fun s =>
  let x := s.tbase tb
  if x.estimating && x.estLeft = 0 && s.nat (lockKey tb) = 1 then
    let o := s.num (offsetKey tb)
    phases [always [.tbase tb fun x => { x with estimating := false, pred := 0, windowStart := none, stepNext := false }],
            applyOffset tb o] s
  else []

/-- LOCK_WINDOW_ELAPSED (R62): |OFFSET| below 1 µs over a whole 8 s window. -/
def lockWindow (tb : Nat) : Phase := servoP fun s =>
  if s.nat (lockKey tb) = 1 ∧ |s.num (offsetKey tb)| < 1000 ∧ s.passed (s.tbase tb).windowStart 8000000000
    ∧ !(s.tbase tb).estimating then setLock tb 2 s
  else []

/-! ### Loss of the source -/

/-- The Sync interval in ns: the one the master announces; before any Sync, the default of the PROFILE (R62; its
values are PRESUMED, log 9). -/
def State.syncInterval (s : State) (d : Nat) : Nat :=
  let l := match (s.tbase d).syncLog with
    | some l => l
    | none => if s.nat (Key.dtb.PROFILE d) = 2 then 0 else -3
  if 0 ≤ l then 1000000000 * 2 ^ l.toNat else 1000000000 / 2 ^ (-l).toNat

/-- Whether the MTB is in ACQUIRE or LOCKED (Table 02-7). -/
def State.locking (s : State) : Bool := s.nat Key.lock.LOCK_STATE == 1 || s.nat Key.lock.LOCK_STATE == 2

/-- The MTB's reference goes missing (R62, R70): the frequency term in force is held, a slew stops; ACQUIRE and LOCKED are left
for HOLDOVER, also where the loss is already on record (Table 02-7). -/
def sourceLost : Phase := fun s =>
  let held := clampInc (incNom + (s.tbase 4).freqTerm)
  phases [
    always (if s.units.anchor.lossAt.isSome then [] else
           [.num Key.lock.SOURCE_STATE 1, .num Key.hold.INC_HELD held, .num Key.mtb.INC held,
            .nat Key.hold.LOSS_TIME s.now, .event Ev.SOURCE_LOST (args16 [s.nat Key.ref.REF_SOURCE]),
            .anchor fun a => { a with lossAt := some s.mtbNs, slewing := false, slewAdd := 0 },
            .tbase 4 fun x => { x with outliers := [] }]),
    if s.locking then setLock 4 3 else always []] s

/-- An anchoring is complete (R67, Table 02-7): ACQUIRE, which is left for HOLDOVER at once while the source is missing. One that
completes in HOLDOVER leaves HOLDOVER in force while the source is missing (log 189). -/
def lockAnchored : Phase := fun s =>
  let missing := s.num Key.lock.SOURCE_STATE != 0
  if missing && s.nat Key.lock.LOCK_STATE == 3 then []
  else phases [setLock 4 1, if missing then setLock 4 3 else always []] s

/-- Whether no Sync measurement has come for 3 Sync intervals, counted from the enabling of the DTB where none has come
yet (R62). -/
def State.syncLate (s : State) (d : Nat) : Bool :=
  s.expired ((s.tbase d).lastSync.getD (s.tbase d).since) (3 * s.syncInterval d)

/-- SYNC_TIMEOUT (R62): 3 Sync intervals with no measurement. -/
def syncTimeout (d : Nat) : Phase := servoP fun s =>
  if !s.syncLate d then []
  else phases [
    (if s.nat (Key.dtb.DOMAIN_LOCK d) = 1 ∨ s.nat (Key.dtb.DOMAIN_LOCK d) = 2 then setLock d 3 else always []),
    if s.follows d && (s.num Key.lock.SOURCE_STATE == 0 || s.locking) then sourceLost else always []] s

/-- An edge that comes now is latched at the reference tick that follows: its MTB ns and its presented media time (R56). -/
def State.edgeMtb (s : State) : Nat := (s.mtb + BitVec.ofInt 96 (s.num Key.mtb.INC)).toNat / 2 ^ 32
def State.edgeTime (s : State) : Nat := s.now + (s.edgeMtb - s.mtbNs)

/-- The reference time nearest to a time at which an edge of the source falls: a whole second under PPS, a sample instant
under WCLK (R55). -/
def State.edgeGrid (s : State) (t : Nat) : Nat :=
  if s.num Key.ref.REF_SOURCE = 3 then (t + 500000000) / 1000000000 * 1000000000 else sampleTime s.fs (nearestSample s.fs t)

/-- The DTB that names whole seconds and samples, where it is LOCKED (R55). -/
def State.dtbLocked (s : State) : Option Nat :=
  let d := s.nat Key.ref.REF_DOMAIN
  if s.nat (Key.dtb.DOMAIN_LOCK d) = 2 then some d else none

/-- The reference time of an edge that comes now: the index is the LOCKED DTB's, otherwise that of presented time as the
last anchoring placed it (R55). -/
def State.edgeRef (s : State) : Nat :=
  s.edgeGrid (match s.dtbLocked with
    | some d => ((s.tbase d).count + BitVec.ofInt 96 (s.num (Key.dtb.DTB_INC d))).toNat / 2 ^ 32
    | none => s.edgeTime)

/-- Whether the word clock or PPS counts as missing (R56): 2 periods, 1.5 s. -/
def State.edgeLate (s : State) : Bool :=
  match (if s.num Key.ref.REF_SOURCE = 2 then s.units.anchor.wclkLast
         else if s.num Key.ref.REF_SOURCE = 3 then s.units.anchor.ppsLast else none) with
  | none => false
  | some t => s.expired t (if s.num Key.ref.REF_SOURCE = 2 then 2000000000 / s.fs else 1500000000)

/-- REF_EDGE_MISSING (R56, R62). -/
def refEdgeMissing : Phase := servoP fun s =>
  if s.edgeLate && (s.num Key.lock.SOURCE_STATE == 0 || s.locking) then sourceLost s else []

/-- WCLK_IN_EDGE (R55, R56): the edge is latched; a frequency beyond ±500 ppm of fs counts as missing; otherwise the
offset of the edge from its reference time is measured when WCLK is the source. -/
def wclkEdge (ppm : Int) : Phase := fun s => phases [
  always [.anchor fun a => { a with wclkLast := some s.edgeMtb }],
  servoP (if s.num Key.ref.REF_SOURCE ≠ 2 then always []
    else if 500 < |ppm| then (if s.num Key.lock.SOURCE_STATE == 0 || s.locking then sourceLost else always [])
    else measure 4 ((s.edgeTime : Int) - s.edgeRef))] s

/-- PPS_IN_EDGE (R55, R56): as a word-clock edge, against its whole second. -/
def ppsEdge : Phase := fun s => phases [
  always [.anchor fun a => { a with ppsLast := some s.edgeMtb }],
  servoP (if s.num Key.ref.REF_SOURCE = 3 then measure 4 ((s.edgeTime : Int) - s.edgeRef) else always [])] s

/-- SLEW_COMPLETE (R63): nothing is left to slew, and the phase term ends. -/
def slewDone : Phase := servoP fun s =>
  if s.units.anchor.slewing && s.units.anchor.slewLsb == 0 then
    phases [always [.num Key.servo.SLEW_REMAINING 0], slewStop] s
  else []

/-! ### Anchoring -/

/-- A pending commit whose boundary has been passed: it waits to be applied late (R419). -/
def Commit.pass (c : Commit) : Commit := { c with late := true, passed := true }

/-- Armed actions and pending commits whose time is past (R69, R419), by the time asked for or the boundary of each: a
strict one fails, any other waits to be executed late. A commit without a time has the boundary that it was given (R416,
log 200). `t1` is the present time. -/
def timesPassed (action : Nat → Nat → Bool) (commit : Nat → Bool) (t1 : Nat) : Phase := fun s =>
    (List.range 64).flatMap (fun a =>
      let t := s.nat (Key.act.ACT_TIME a)
      if s.num (Key.act.ACT_STATE a) = 1 ∧ t ≠ 0 ∧ action a t then
        if s.flag (Key.act.ACT_STRICT a) then
          [.nat (Key.act.ACT_STATUS a) St.timePassed, .num (Key.act.ACT_STATE a) 3,
           .event Ev.ACTION_FAILED (args16 [a, St.timePassed])]
        else [.act a fun x => { x with past := true }]
      else [])
    ++ s.units.sessions.flatMap (fun p =>
      let own : Effect := .session p.1 fun x => x.map fun x =>
        { x with ownCommits := x.ownCommits.map fun c => if commit c.time then c.pass else c }
      match p.2.bind (·.commit) with
      | none => [own]
      | some c =>
        if !commit c.time then [own]
        else if c.strict then
          [own, .session p.1 fun x => x.map fun x =>
              { x with commit := none, commitStatus := St.timePassed, commitAt := t1 },
           .raise Ev.COMMIT_DONE (args16 [p.1, St.timePassed, 0, 0]) p.1 none]
        else [own, .session p.1 fun x => x.map fun x => { x with commit := some c.pass }])

/-- Pending actions and commits that an anchoring carries past (R69, R419): `t0` the presented time before, `t1`
after. -/
def anchorPassed (t0 t1 : Nat) : Phase :=
  timesPassed (fun _ t => decide (t0 ≤ t ∧ t < t1)) (fun t => decide (t0 ≤ t ∧ t < t1)) t1

/-- The actions of block boundaries and the commits whose boundary an absence from `t0` to `t1` has passed over (R459). -/
def absencePassed (t0 t1 : Nat) : Phase := fun s =>
  let missed := fun t => decide (t0 ≤ s.boundaryFrom t ∧ s.boundaryFrom t < t1)
  timesPassed (fun a t => decide (1 ≤ s.nat (Key.act.ACT_KIND a) ∧ s.nat (Key.act.ACT_KIND a) ≤ 3) && missed t) missed t1 s

/-- EPOCH_OFFSET changes at an anchor boundary (R64, R67): jitter buffers are emptied, actions and commits passed are
handled; the anchor period begins, with PPS_OUT low (R54). `change` is the change of EPOCH_OFFSET, of which the servo
has predicted `known`. -/
def anchorApply (change known : Int) : Phase := fun s =>
  let t1 := ((s.now : Int) + change) % 2 ^ 64
  phases [
    always [.num Key.mtb.EPOCH_OFFSET (s.num Key.mtb.EPOCH_OFFSET + change), .bump Key.mtb.REANCHOR_COUNT 1,
            .num Key.servo.OFFSET (s.num Key.servo.OFFSET + change),
            .tbase 4 fun x => { x with pred := x.pred + change - known, windowStart := none },
            .pins fun p => { p with ppsHigh := none },
            .anchor fun a => { a with phase := 2, applied := change, newTime := t1.toNat, anchored := true,
                                      fsChanged := false, todNow := false, todSet := none, offset := 0 }],
    always ((List.range 128).map fun i => .stream i fun x => { x with frames := [] }),
    anchorPassed s.now t1.toNat] s

/-- ANCHOR_BOUNDARY (R64 step 2): the first block boundary after the last channel is muted; no output plays there
(R48). -/
def anchorBoundary : Phase := fun s =>
  let a := s.units.anchor
  let muted := (List.range 16).all fun c => (s.chan c).gc.value == 0 && (s.zcWait (Zc.anchor c)).isNone
  if a.phase = 1 ∧ s.atBoundary ∧ muted then anchorApply (-a.offset) (-a.offset) s else []

/-- ANCHOR_PERIOD_END (R64 step 3, R67, R68): the first block boundary of the new grid at least one block period after
the anchor boundary; a second step confirmed meanwhile is handled. -/
def anchorPeriodEnd : Phase := fun s =>
  let a := s.units.anchor
  if a.phase ≠ 2 ∨ !s.atBoundary ∨ s.blockSample < firstFrom s.fs s.B a.newTime + s.B then []
  else phases [
    always [.anchor fun a => { a with phase := if (List.range 16).any (fun c => (s.chan c).anchorMuted) then 3 else 0,
                                      second := none },
            .event Ev.REANCHOR_DONE (le 8 a.applied ++ le 8 (s.num Key.mtb.EPOCH_OFFSET)),
            .nat Key.mtb.SAMPLE_INDEX s.sampleNow],
    (if s.num Key.ref.REF_SOURCE ≠ 0 ∧ s.nat Key.lock.LOCK_STATE ≠ 0 then lockAnchored else always []),
    match a.second with
    | some o => mtbStep o
    | none => always []] s

/-- REANCHOR_FADE_IN (R64 step 5): from the first block boundary at or after the anchor boundary's new media time
plus L, the muted channels fade in over one block. One that a stop or a start has taken over meanwhile follows that. -/
def reanchorFadeIn : Phase := fun s =>
  let a := s.units.anchor
  if a.phase = 3 ∧ s.atBoundary ∧ firstFrom s.fs s.B (a.newTime + s.nat Key.eng.LINK_OFFSET) ≤ s.blockSample then
    phases [
      forAll (List.range 16) (fun c => fun s =>
        if (s.chan c).anchorMuted then
          phases [always [.chan c fun x => { x with anchorMuted := false }],
            readP (fun s => (s.chan c).held || s.outState c != 1 || s.phase c != 0) fun h => if h then always [] else
              phases [setOut c 2, always [.chan c fun x => { x with gc := x.gc.start 1 s.B s.strobed }]]] s
        else []),
      always [.anchor fun a => { a with phase := 0 }]] s
  else []

/-- The reference time of an anchoring under R65 and R66, if the source supplies one: with FREE 0 at the first
anchoring (counting from the reset) or the time written to TOD_SET; with PTP the DTB's; with WCLK and PPS the reference
time of the last edge and the time elapsed since, its index from the LOCKED DTB, otherwise from TOD_SET (R55, log 157). -/
def State.anchorTarget (s : State) : Option Int :=
  let a := s.units.anchor
  let src := s.num Key.ref.REF_SOURCE
  if src = 0 then
    if a.todNow then a.todSet.map fun t => (t : Int)
    else if a.anchored then none else some s.mtbNs
  else
    let index := match s.dtbLocked with
      | some d => some (s.dtbTime d)
      | none => a.todSet
    if src = 1 then index.map fun t => (t : Int)
    else match if src = 2 then a.wclkLast else a.ppsLast with
      | none => index.map fun t => (t : Int)
      | some e => index.map fun t => ((s.edgeGrid (t - (s.mtbNs - e)) + (s.mtbNs - e) : Nat) : Int)

/-- FIRST_ANCHORING (R65, R66): the first after the dawn sequence, one for a change of FS_SELECT, or one for a
TOD_SET under FREE, at a block boundary with every output released. -/
def firstAnchoring : Phase := fun s =>
  let a := s.units.anchor
  if (!a.anchored || a.fsChanged || a.todNow) && s.allReleased && s.mode != .boot && s.atBoundary && a.phase != 2 then
    let change : Int := match s.anchorTarget with
      | some t => t - s.now
      | none => 0
    let opens := s.num Key.ref.REF_SOURCE ≠ 0 ∧ s.nat Key.lock.LOCK_STATE = 0
    phases [always [.event Ev.REANCHOR_START (le 8 change)], anchorApply change 0,
      if s.num Key.ref.REF_SOURCE ≠ 0 then lockAnchored else always [],
      if opens then always [estimateOpen 4] else always []] s
  else []

/-! ### Source, domains, hand-over -/

/-- A new REF_SOURCE takes effect (R55, Table 02-7): FREE is never missing; another source counts as missing until
it is there (log 23). -/
def refSourceEffect (v : Int) : Phase := fun s =>
  if v = 0 then phases [slewStop, setLock 4 0, always [.num Key.lock.SOURCE_STATE 0,
    .anchor fun a => { a with lossAt := none, slewLsb := 0 }, .num Key.servo.SLEW_REMAINING 0,
    .tbase 4 fun x => { x with estimating := false, outliers := [], lastSync := none }]] s
  else phases [
    (if s.nat Key.lock.LOCK_STATE = 1 ∨ s.nat Key.lock.LOCK_STATE = 2 then sourceLost
     else always [.num Key.lock.SOURCE_STATE 1]),
    always [.tbase 4 fun x => { x with lastSync := none, outliers := [] }]] s

/-- Whether a domain cannot serve as the MTB's reference: disabled, fenced, or silent for 3 Sync intervals (R62). -/
def State.domainMissing (s : State) (d : Nat) : Bool := !s.dtbOn d || (s.tbase d).fenced || s.syncLate d

/-- The hand-over of the MTB to another DTB at a block boundary (R73): the offset is presented media time minus the
new DTB's time; the lock state goes to ACQUIRE (Table 02-7), where a time base that comes from FREE estimates its frequency first, and the
source is missing or present as the new domain is (R62). -/
def handoverTo (d : Nat) : Phase := fun s =>
  if s.nat Key.ref.REF_DOMAIN = d then []
  else
    let o := (s.now : Int) - s.dtbTime d
    if s.num Key.ref.REF_SOURCE ≠ 1 then [.nat Key.ref.REF_DOMAIN d]
    else phases [always [.nat Key.ref.REF_DOMAIN d,
        .tbase 4 fun x => { x with syncLog := (s.tbase d).syncLog, lastSync := (s.tbase d).lastSync, outliers := [] }],
      (if s.nat Key.lock.LOCK_STATE = 0 then always [estimateOpen 4] else always []),
      (if s.nat Key.lock.LOCK_STATE = 0 ∧ s.domainMissing d then always [] else setLock 4 1), reportOffset 4 o, mtbOffset o,
      if !s.domainMissing d then sourceBack o
      else if s.nat Key.lock.LOCK_STATE = 0 then whenP State.locking (setLock 4 3)
      else if s.units.anchor.lossAt.isSome then phases [slewStop, setLock 4 3] else sourceLost] s

/-- A DTB's fence ends (R72). -/
def dtbUnfence (d : Nat) : Phase := fun s =>
  [.tbase d fun x => { x with fenced := false, outSince := none, outliers := [], lastSync := none, since := s.mtbNs }]

/-- A DTB is enabled afresh, or disabled (R49, R71, R72, R517). A new number of an enabled DTB is an enabling (log 158). -/
def domainNumberEffect (d : Nat) (v : Int) : Phase := phases [
  setLock d 0,
  (fun s => [
    .tbase d fun x => { x with count := 0, freqTerm := 0, pred := 0, outliers := [], estimating := false,
                               estLeft := 8, lastSync := none, syncLog := none, outSince := none, since := s.mtbNs,
                               fenced := false, onN1 := false, stepNext := false, sync := none, request := none },
    .num (Key.dtb.DTB_INC d) incNom, .num (Key.dtb.DTB_OFFSET d) 0]),
  if v = 0xFF then always [.num (Key.dtb.GM_IDENTITY d) 0, .num (Key.snap.SNAP_DTB d) 0] else always []]

/-- Whether two DTBs would name one domain number on one port: the settings of PTP_PORT are compared (R71, log 159). -/
def State.domainClash (s : State) (d : Nat) : Bool :=
  s.dtbOn d && (List.range 4).any fun e => e != d && s.num (Key.dtb.DOMAIN_NUMBER e) == s.num (Key.dtb.DOMAIN_NUMBER d)
    && s.num (Key.dtb.PTP_PORT e) == s.num (Key.dtb.PTP_PORT d)

/-- DTB_FENCE (R72): an increment outside the range of R50 needed for 16 s without a break. -/
def dtbFence (d : Nat) : Phase := servoP fun s =>
  if s.dtbOn d && !(s.tbase d).fenced && s.passed (s.tbase d).outSince 16000000000 then
    phases [always [.tbase d fun x => { x with fenced := true }], setLock d 0,
      always [.event Ev.DOMAIN_FENCED (args16 [d])],
      if s.follows d && (s.num Key.lock.SOURCE_STATE == 0 || s.locking) then sourceLost else always []] s
  else []

/-- DTB_PORT_FAILOVER (R71): with PTP_PORT 2, from N0 to N1 after 3 missing Sync intervals, and back when N0 delivers
again. -/
def dtbFailover (d : Nat) (n0Delivers : Bool) : Phase := servoP fun s =>
  if s.nat (Key.dtb.PTP_PORT d) = 2 ∧ (if (s.tbase d).onN1 then n0Delivers else s.syncLate d && !n0Delivers) then portMove d s
  else []

/-! ### The path delay -/

/-- The strobe of the oldest event message that waits at a MAC (R58, R59, R383): of a request, its SFD opens the delay exchange. -/
def requestSent (m : Nat) : Phase := fun s =>
  match (s.mac m).ptpOut with
  | [] => []
  | d :: rest =>
    .mac m (fun x => { x with ptpOut := rest }) ::
      if d < 4 then [.tbase d fun x => { x with request := some (s.sfd m false (s.dtbTime d)) }] else []

/-- The answer of a delay exchange (R59, R71): under E2E the master's time `ns` of receipt of the Delay_Req, with which
the last Sync gives the mean path delay; under P2P the time `ns` that the peer took to answer, the answer's SFD being
the last that the MAC received. Corrections are applied. -/
def delayResp (d ns : Nat) : Phase := servoP fun s =>
  let x := s.tbase d
  if !s.dtbOn d || x.fenced then []
  else match x.request with
    | none => []
    | some t3 =>
      let whole : Option Int :=
        if s.num (Key.dtb.DELAY_MECH d) = 1 then some (s.rxSfd (s.dtbMac d) d - t3 - ns)
        else x.sync.map fun y => (y.2 - y.1) + ((ns : Int) - t3)
      match whole with
      | none => []
      | some w => [.num (Key.dtb.PATH_DELAY d) (max 0 (rounded (Key.dtb.PATH_DELAY d) ((w : Rat) / 2))),
                   .tbase d fun x => { x with request := none }]

/-! ### Clock outputs -/

/-- The clock outputs at a sample instant (R54): WCLK_OUT and MCLKO rise, PPS_OUT rises at a whole second; none runs in
BOOT, and PPS_OUT is low in an anchor period. -/
def clockPins : Phase := fun s =>
  let on := s.mode != .boot
  let pps := on && s.units.anchor.phase != 2 && s.flag Key.ref.PPS_OUT_EN
  [.pins fun p => { p with
    wclkOut := on && s.flag Key.ref.WCLK_OUT_EN, mclko := if on then s.nat Key.ref.MCLKO_SEL else 0, clockRise := s.mtbNs,
    ppsHigh := if pps && s.sampleNow % s.fs == 0 then some s.mtbNs
      else if !pps || s.passed p.ppsHigh 1000000 then none else p.ppsHigh }]

/-- A clock output that its entry turns off is driven low at once; one that it turns on starts at the next sample instant
(Table 02-3, R54). -/
def clocksOff : Phase := fun s =>
  [.pins fun p => { p with wclkOut := p.wclkOut && s.flag Key.ref.WCLK_OUT_EN,
                           mclko := if s.nat Key.ref.MCLKO_SEL = p.mclko then p.mclko else 0,
                           ppsHigh := if s.flag Key.ref.PPS_OUT_EN then p.ppsHigh else none }]

/-- The level of WCLK_OUT: high for half a sample period from its rise at a sample instant; in an anchor period the
period that contains the change lasts until the strobe of the new phase (R54). -/
def State.wclkHigh (s : State) : Bool :=
  s.units.pins.wclkOut && decide ((s.mtbNs - s.units.pins.clockRise) * 2 * s.fs < 1000000000)

/-- The level of MCLKO: 24.576 or 12.288 MHz with a rising edge at every sample instant; in an anchor period the last
period before the strobe of the new phase stretches (R54). -/
def State.mclkoHigh (s : State) : Bool :=
  let f := if s.units.pins.mclko = 1 then 24576000 else 12288000
  let halves := (s.mtbNs - s.units.pins.clockRise) * 2 * f / 1000000000
  s.units.pins.mclko != 0 && decide (halves % 2 = 0) && decide (halves < 2 * f / s.fs)

/-- The level of PPS_OUT: high for 1 ms from its rise (R54). -/
def State.ppsOut (s : State) : Bool :=
  s.units.pins.ppsHigh.isSome && !s.passed s.units.pins.ppsHigh 1000000

/-- ANNOUNCE_RECEIVE (R72, R517): a new grandmaster identity of an enabled DTB, which also clears its fence. -/
def announce (d gm : Nat) : Phase := servoP fun s =>
  if s.dtbOn d && s.nat (Key.dtb.GM_IDENTITY d) != gm then
    phases [always [.nat (Key.dtb.GM_IDENTITY d) gm, .event Ev.GM_CHANGED (args16 [d] ++ le 8 gm)],
      if (s.tbase d).fenced then dtbUnfence d else always []] s
  else []

/-- HOLDOVER_ELAPSED (Table 02-12): ms since the source went missing; 0 while present. -/
def State.holdoverElapsed (s : State) : Nat :=
  match s.units.anchor.lossAt with
  | none => 0
  | some t => (s.mtbNs - t) / 1000000

/-- FREQ_ADJ (Table 02-4): INC / INC_NOM − 1 in 10^-12, to the nearest. -/
def State.freqAdj (s : State) : Int :=
  (((s.num Key.mtb.INC - incNom) * 10 ^ 12 : Rat) / incNom + 1 / 2).floor

end Sys2Proof.Machine
end

