-- ==== Sys2Proof/Machine/Ports.lean ====
section
/-!
DEFINITION. Machine/Ports.lean: TDM ports, AES3 receivers and transmitter (R332-R361): frame formats, states, FIFO and
slip, rate, masks, output maps, pause, channel status, fences. Units 0-3 are T0-T3, 4 and 5 are A0 and A1, 6 is AOUT.
-/

namespace Sys2Proof.Machine

/-- A value saturated to 32 bits. -/
def sat32 (x : Int) : Int := max (-2147483648) (min 2147483647 x)

/-! ### States -/

/-- The states of ports and receivers (Tables 11-1 and 11-4); `noClock` is a receiver's NO_SIGNAL. -/
inductive PSt where
  | disabled | armed | noClock | acquire | running | paused | rateMismatch | formatError | fenced
  deriving DecidableEq, Repr

/-- The code of a state for a port or receiver (Tables 11-1, 11-4). -/
def PSt.code (rx : Bool) : PSt → Nat
  | .disabled => 0
  | .armed => 1
  | .noClock => if rx then 1 else 2
  | .acquire => if rx then 2 else 3
  | .running => if rx then 3 else 4
  | .paused => 5
  | .rateMismatch => if rx then 4 else 6
  | .formatError => 7
  | .fenced => if rx then 5 else 8

/-- The state with a code. -/
def PSt.ofCode (rx : Bool) (n : Nat) : PSt :=
  match rx, n with
  | _, 0 => .disabled
  | false, 1 => .armed
  | false, 2 => .noClock
  | false, 3 => .acquire
  | false, 4 => .running
  | false, 5 => .paused
  | false, 6 => .rateMismatch
  | false, 7 => .formatError
  | true, 1 => .noClock
  | true, 2 => .acquire
  | true, 3 => .running
  | true, 4 => .rateMismatch
  | _, _ => .fenced

/-- Whether a unit is a receiver. -/
def isRx (u : Nat) : Bool := decide (4 ≤ u)

/-- The entry that shows a unit's state. -/
def pstKey (u : Nat) : Nat := if isRx u then Key.aes.RX_STATE (u - 4) else Key.tdm.PORT_STATE u

/-- The state of a unit. -/
def State.pst (s : State) (u : Nat) : PSt := PSt.ofCode (isRx u) (s.nat (pstKey u))

/-- The entry that records a unit's fence cause. -/
def pfenceKey (u : Nat) : Nat := if isRx u then Key.aes.FENCE_CAUSE (u - 4) else Key.tdm.FENCE_CAUSE u

/-- Whether a unit is enabled. -/
def State.portOn (s : State) (u : Nat) : Bool :=
  if isRx u then s.flag (Key.aes.AES_EN (u - 4)) else s.flag (Key.tdm.PORT_EN u)

/-- Whether a unit is timed by the device: a master port (R339). -/
def State.isMaster (s : State) (u : Nat) : Bool := !isRx u && s.num (Key.tdm.ROLE u) == 1

/-- Whether a unit is an input: a receiver, or a port with DIR 0 (R338). -/
def State.isInput (s : State) (u : Nat) : Bool := isRx u || s.num (Key.tdm.DIR u) == 0

/-- Whether a unit delivers slot data: RUNNING or PAUSED (R341). -/
def State.portLive (s : State) (u : Nat) : Bool := s.pst u == .running || s.pst u == .paused

/-- Slots of a unit: a receiver has its two subframes. -/
def State.slots (s : State) (u : Nat) : Nat := if isRx u then 2 else s.nat (Key.tdm.SLOTS u)

/-- The mask in force of a unit; both subframes of a receiver (R345). -/
def State.maskNow (s : State) (u : Nat) : Nat := if isRx u then 3 else s.nat (Key.tmap.MASK_ACTIVE u)

/-- The mask of the frames that an input delivers: those before the first under a new mask keep the old one (R346). -/
def State.maskHeard (s : State) (u : Nat) : Nat := match (s.port u).maskOld with
  | some m => m.1
  | none => s.maskNow u

/-- The edge of the frame of a unit that begins at the present instant, if one does (R339, R340). -/
def State.frameEdge (s : State) (u : Nat) : Option Nat :=
  if s.isMaster u then
    (if decide (((s.now : Int) - sampleTime s.fs s.sampleNow).natAbs ≤ 20) then some (sampleTime s.fs s.sampleNow) else none)
  else if (s.port u).edges.head? = some s.mtbNs then some s.now else none

/-- The zero-crossing wait of a slot for pause and resume (R352). -/
def Zc.slot (u k : Nat) : Nat := Zc.fn 4 (64 * u + k)

/-- The waits of a unit's slots end. -/
def dropSlotWaits (u : Nat) : List Effect := (List.range 32).map fun k => zcDrop (Zc.slot u k)

/-- A unit changes state (R353, R341): its last delivered frame ramps to zero where it leaves RUNNING or PAUSED for a fault, or a
receiver for any other state (R354), and fades in where it enters RUNNING from ACQUIRE; a pause leaves that fade to go on. -/
def setPort (u : Nat) (new : PSt) : Phase := fun s =>
  let old := s.pst u
  if old = new then []
  else
    let live := s.portLive u
    let fault := new = .noClock ∨ new = .rateMismatch ∨ new = .formatError ∨ new = .fenced
      ∨ (isRx u ∧ (new = .disabled ∨ new = .acquire))
    [.nat (pstKey u) (new.code (isRx u)),
     .event Ev.PORT_STATE_CHANGED (args16 [u, old.code (isRx u), new.code (isRx u)]),
     .port u fun x => { x with
       sinceAt := s.mtbNs,
       hold := if live ∧ fault then x.hist.headD [] else x.hold,
       rampOut := if live ∧ fault then 0 else if new = .disabled then 32 else x.rampOut,
       rampIn := if old = .acquire ∧ new = .running then 0 else if new = .running ∨ new = .paused then x.rampIn else 32 }]
    ++ (if live ∧ new ≠ .running ∧ new ≠ .paused ∨ old = .acquire then
          dropSlotWaits u ++ [.port u fun x => { x with slotGain := [] }] else [])

/-- A fence of a unit (R360). -/
def portFence (u cause : Nat) : Phase := phases [
  setPort u .fenced,
  always [.nat (pfenceKey u) cause, .event Ev.PORT_FENCED (args16 [u, cause]),
          .port u fun x => { x with fifo := [], pauseAt := none, resumeAt := none, muteDue := none, outGo := false,
                                    csBits := ([], []) }]]

/-- Entry into a fault state, counted for the fence: 10 within 60 s (R360). -/
def portFault (u : Nat) (new : PSt) : Phase := fun s =>
  if s.pst u = new then []
  else
    let l := (s.mtbNs :: (s.port u).faultAt).filter fun t => decide (s.mtbNs < t + 60000000000)
    phases [setPort u new,
      always [.port u fun x => { x with faultAt := l, fifo := [], outGo := false, goodSince := none, rateOk := none }],
      if 10 ≤ l.length then portFence u 1 else always []] s

/-- A unit begins to acquire its clock: its FIFO and its windows start empty. -/
def portAcquire (u : Nat) : Phase := phases [
  setPort u .acquire,
  readP (fun s => s.mtbNs) fun t => always [.port u fun x => { x with
    fifo := [], goodSince := some t, edges := [], clockAt := none, badRun := 0, outGo := false, rateOk := none, sinceAt := t }]]

/-- The first state of a unit that runs: RUNNING for a master, ACQUIRE for a slave (Table 11-1). -/
def portBegin (u : Nat) : Phase := fun s => if s.isMaster u then setPort u .running s else portAcquire u s

/-- A committed PORT_EN (Table 11-1); a fence stays until it is cleared (R361). -/
def portEnable (p : Nat) : Phase := fun s =>
  if s.pst p = .fenced then []
  else if !s.portOn p then
    phases [setPort p .disabled, always [.port p fun x => { x with
      fifo := [], pauseAt := none, resumeAt := none, muteDue := none, maskOld := none,
      outGo := false, outFrame := [], slotGain := [], clockAt := none, edges := [] }]] s
  else if s.pst p ≠ .disabled then []
  else if s.num (Key.tdm.PORT_SG p) ≠ 0xFF then
    phases [setPort p .armed, always [.port p fun x => { x with fifo := [], edges := [], clockAt := none }]] s
  else portBegin p s

/-- An AES_EN that takes effect (Table 11-4): it enters NO_SIGNAL, which counts for the fence (R360). -/
def rxEnable (a : Nat) : Phase := fun s =>
  let u := a + 4
  if s.pst u = .fenced then []
  else if !s.portOn u then phases [setPort u .disabled, always [.port u fun x => { x with csBits := ([], []) }]] s
  else if s.pst u = .disabled then
    phases [always [.port u fun x => { x with edges := [], clockAt := none }], portFault u .noClock] s
  else []

/-- Every enabled unit restarts at a new sample rate when the sample grid is anchored anew (R57, R333): a slave and a receiver in
ACQUIRE, a master in RUNNING with its slots unmuted. An armed port, which only its group starts (R350), acquires afresh while it
stays armed, and a fence stays (R361): DESIGN CHOICE (log 196). -/
def portsRestart : Phase := forAll (List.range 6) fun u => fun s =>
  let fresh : Effect := .port u fun x => { x with fifo := [], sec := (0, 0, 0, 0) }
  if !s.portOn u ∨ s.pst u = .disabled ∨ s.pst u = .fenced then [fresh]
  else if s.pst u = .armed then [.port u fun x => { x with edges := [], clockAt := none }, fresh]
  else phases [
    always (dropSlotWaits u ++ [.port u fun x => { x with slotGain := [], pauseAt := none, resumeAt := none, muteDue := none }]),
    portBegin u, always [fresh]] s

/-! ### Frame formats -/

/-- The period of the most significant bit of a slot (R335). -/
def State.msbPeriod (s : State) (p k : Nat) : Nat :=
  s.nat (Key.tdm.SLOT_OFFSET p) + k * s.nat (Key.tdm.SLOT_WIDTH p)
    + (if s.num (Key.tdm.JUSTIFY p) = 0 then 0 else s.nat (Key.tdm.SLOT_WIDTH p) - s.nat (Key.tdm.DATA_BITS p))

/-- The number spelt by bits, most significant first. -/
def msbFirst (b : List Bool) : Nat := b.foldl (fun a x => 2 * a + (if x then 1 else 0)) 0

/-- The sample of a slot from the bits of a frame (R335, R337): a Q31 word whose low bits are zero. -/
def State.slotSample (s : State) (p k : Nat) (b : List Bool) : Int :=
  let w := s.nat (Key.tdm.DATA_BITS p)
  signed 32 (msbFirst ((List.range w).map fun i => b.getD (s.msbPeriod p k + i) false) * 2 ^ (32 - w) : Nat)

/-- Every slot of an input frame. -/
def State.frameSamples (s : State) (p : Nat) (b : List Bool) : List Int :=
  (List.range (s.slots p)).map fun k => s.slotSample p k b

/-- What an output slot sends of its value: bits [31:8] or [31:16] (R337). -/
def State.slotData (s : State) (p : Nat) (v : Int) : Int := v / 2 ^ (32 - s.nat (Key.tdm.DATA_BITS p))

/-- The level of SDO in period `b`, counted from the active edge of the frame that carries `f` (R335, R345): none is
high-impedance; a period that carries no data is 0. -/
def State.sdoAt (s : State) (p : Nat) (f : List (Option Int)) (b : Nat) : Option Bool :=
  let o := s.nat (Key.tdm.SLOT_OFFSET p)
  let w := s.nat (Key.tdm.SLOT_WIDTH p)
  let d := s.nat (Key.tdm.DATA_BITS p)
  if b < o then some false
  else
    let k := (b - o) / w
    match f.getD k (some 0) with
    | none => none
    | some v =>
      let m := s.msbPeriod p k
      some (decide (m ≤ b ∧ b < m + d) && decide (v / 2 ^ (m + d - 1 - b) % 2 = 1))

/-- The bits on SDO during the present frame of an output port: the tail of the frame before, then its own (R335). -/
def State.sdo (s : State) (p : Nat) : List (Option Bool) :=
  let n := s.nat (Key.tdm.SLOTS p) * s.nat (Key.tdm.SLOT_WIDTH p)
  (List.range n).map fun b =>
    if b < s.nat (Key.tdm.SLOT_OFFSET p) then s.sdoAt p (s.port p).outPrev (b + n) else s.sdoAt p (s.port p).outFrame b

/-- What an output port drives on SDO during the present frame; an input drives it low, and it is high-impedance where the
port is disabled or, an output, has no clock (R338, Table 11-1). -/
def State.sdoPin (s : State) (p : Nat) : List (Option Bool) :=
  let n := s.nat (Key.tdm.SLOTS p) * s.nat (Key.tdm.SLOT_WIDTH p)
  if s.pst p = .disabled ∨ s.pst p = .noClock ∧ !s.isInput p then List.replicate n none
  else if s.isInput p then List.replicate n (some false)
  else s.sdo p

/-- Whether a master port drives its clocks: it holds them inactive while armed or fenced (R350, R360). -/
def State.clocksRun (s : State) (p : Nat) : Bool :=
  s.isMaster p && s.pst p != .disabled && s.pst p != .armed && s.pst p != .fenced

/-- FSYNC of a port in BCLK period `b` of its frame (R336): a master drives it active for one period or for half the frame;
a slave and a disabled port leave it high-impedance. -/
def State.fsync (s : State) (p b : Nat) : Option Bool :=
  let n := s.nat (Key.tdm.SLOTS p) * s.nat (Key.tdm.SLOT_WIDTH p)
  if !s.isMaster p ∨ s.pst p = .disabled then none
  else
    let active := s.clocksRun p && decide (b < if s.num (Key.tdm.FSYNC_WIDTH p) = 0 then 1 else n / 2)
    some (active != (s.num (Key.tdm.FSYNC_POL p) == 1))

/-- BCLK of a port in the first or second half of one of its periods (R332, R336, R338): none is high-impedance, for a slave and a
disabled port; a master that is armed or fenced holds it at its inactive level (R350, R360); else it stands, from the launching edge
on, at that edge's level, and in the second half at the other. -/
def State.bclk (s : State) (p : Nat) (second : Bool) : Option Bool :=
  if !s.isMaster p ∨ s.pst p = .disabled then none
  else if !s.clocksRun p then some Config.bclkIdle
  else some ((s.num (Key.tdm.BCLK_EDGE p) == 1) != second)

/-- The edge of BCLK, rising or not, at which data and FSYNC are launched and at which data is sampled (R336). -/
def State.launchRises (s : State) (p : Nat) : Bool := s.num (Key.tdm.BCLK_EDGE p) == 1
def State.sampleRises (s : State) (p : Nat) : Bool := !s.launchRises p

/-! ### Gains of slots -/

/-- A product with a factor of n/32. -/
def gain32 (x n : Int) : Int := if n = 32 then x else rounded 0x4000 ((x * n : Int) / (32 : Rat))

/-- The gain of a slot in 1/32 (R347, R352). -/
def Port.gainOf (x : Port) (k : Nat) : Int :=
  match x.slotGain.find? fun g => g.1 == k with
  | some g => g.2.value
  | none => 32

/-- A new gain course of a slot. -/
def Port.setGain (x : Port) (k : Nat) (r : Ramp) : Port :=
  { x with slotGain := x.slotGain.filter (fun g => g.1 != k) ++ [(k, r)] }

/-- Every slot gain after one frame; a course that has reached full leaves. -/
def Port.stepGains (x : Port) : Port :=
  { x with slotGain := (x.slotGain.map fun g => (g.1, g.2.step)).filter fun g => g.2.g1 != 32 || decide (g.2.pos < g.2.len) }

/-- The fades of the output slots after one output sample. -/
def Port.stepFades (x : Port) : Port :=
  { x with mapFade := (x.mapFade.map fun g => (g.1, g.2.1, g.2.2.step)).filter fun g => decide (g.2.2.pos < g.2.2.len) }

/-- A fade-in over 32 samples with factors (i + 1) / 32. -/
def fadeIn32 : Ramp := { g0 := 0, g1 := 32, len := 32, pos := 0 }

/-- The slots of a port from the first frame that carries a new mask on (R347): a newly enabled one fades in, unless the
port is paused; where a pause or resume takes effect with that very frame the mask comes first, and the new slots wait for it as the
others do (R353). `done` frames of it have been formed already. -/
def maskCarried (p old new done : Nat) : Phase := fun s =>
  let x := s.port p
  let turns := if s.isInput p then x.muteDue else x.turned.filter fun t => decide (t.1 = s.mtbNs)
  let paused : Bool := match turns with
    | some t => t.2 != 0
    | none => s.pst p == .paused
  let fresh := (List.range 32).filter fun k => new.testBit k && !old.testBit k
  let gone := (List.range 32).filter fun k => old.testBit k && !new.testBit k
  .port p (fun x =>
    let x := { x with slotGain := x.slotGain.filter fun g => !gone.contains g.1 }
    fresh.foldl (fun x k => x.setGain k (if paused then {} else { fadeIn32 with pos := done })) x)
  :: (gone.map fun k => zcDrop (Zc.slot p k))
  ++ if s.isInput p then [] else match turns with
    | some t => forAll fresh (fun k => zcStart (Zc.slot p k) (.num t.2)) s
    | none => []

/-- The mask in force changes at a frame edge at or after the commit (R346); an output sends the frame at once, an input
delivers it later. -/
def maskTake (p edge done : Nat) : Phase := fun s =>
  match (s.port p).maskWait with
  | none => []
  | some (m, t) =>
    if edge < t then []
    else
      let old := s.maskHeard p
      phases [
        always [.nat (Key.tmap.MASK_ACTIVE p) m, .nat (Key.tmap.MASK_FRAME p) edge,
          .port p fun x => { x with maskWait := none, maskOld := if s.isInput p then some (old, edge) else none }],
        if s.isInput p then always [] else maskCarried p old m done] s

/-- The enabled slots of a port begin to mute or unmute at a zero crossing (R352). -/
def slotWaits (p : Nat) (v : Int) : Phase := fun s =>
  forAll (ones 32 (s.maskHeard p)) (fun k => zcStart (Zc.slot p k) (.num v)) s

/-- An input delivers the frame with this edge: a new mask, and the waits of a pause or resume, begin with their first frame
(R346, R352). -/
def frameHeard (u edge : Nat) : Phase := phases [
  (fun s => match (s.port u).maskOld with
    | some (old, t) => if edge < t then [] else
        phases [always [.port u fun x => { x with maskOld := none }], maskCarried u old (s.maskNow u) 0] s
    | none => []),
  fun s => match (s.port u).muteDue with
    | some (t, v) => if edge < t then [] else phases [always [.port u fun x => { x with muteDue := none }], slotWaits u v] s
    | none => []]

/-- A pause (or resume) takes effect at the frame that begins now (R352): an output's waits start at once. -/
def pauseTakes (p edge : Nat) (pause : Bool) : Phase := fun s =>
  let v : Int := if pause then 0 else 32
  if s.pst p = (if pause then .running else .paused) then
    phases [setPort p (if pause then .paused else .running), always [.port p fun x => { x with turned := some (s.mtbNs, v) }],
      if s.isInput p then always [.port p fun x => { x with muteDue := some (edge, v) }] else slotWaits p v] s
  else []

/-- PAUSE_EFFECTIVE (R351-R353): at the first frame edge at or after the time asked for. -/
def pauseEffective (p : Nat) : Phase := fun s =>
  match (s.port p).pauseAt, s.frameEdge p with
  | some t, some e =>
    if e < t ∨ !s.portLive p then []
    else phases [always [.port p fun x => { x with pauseAt := none }], pauseTakes p e true] s
  | _, _ => []

/-- RESUME_EFFECTIVE (R351-R353). -/
def resumeEffective (p : Nat) : Phase := fun s =>
  match (s.port p).resumeAt, s.frameEdge p with
  | some t, some e =>
    if e < t ∨ !s.portLive p then []
    else phases [always [.port p fun x => { x with resumeAt := none }], pauseTakes p e false] s
  | _, _ => []

/-- A frame of a port begins: the mask first, then a pause or resume (R346, R353). -/
def frameBegins (p : Nat) : Phase := readP (fun s => s.frameEdge p) fun e => match e with
  | some e => phases [maskTake p e 0, pauseEffective p, resumeEffective p]
  | none => always []

/-! ### Rate -/

/-- The rate error of a unit over the edges of its last 100 ms, in 0.001 ppm; none where they do not yet cover it
(R343). -/
def State.rateErr (s : State) (u : Nat) : Option Rat :=
  let x := s.port u
  let t := s.mtbNs
  let e := x.edges.filter fun a => decide (t ≤ a + 100000000 ∧ a < t)
  match e, e.getLast? with
  | hi :: _, some lo =>
    if s.passed x.clockAt 100000000 ∧ lo < hi then
      some (((e.length - 1 : Nat) * 10 ^ 18 : Rat) / ((hi - lo : Nat) * s.fs : Rat) - 10 ^ 9)
    else none
  | _, _ => none

/-- Whether a rate error lies within a bound in ppm. -/
def within (ppm : Nat) : Option Rat → Bool
  | none => false
  | some e => decide (|e| ≤ (ppm * 1000 : Nat))

/-- An active FSYNC edge or frame preamble is timestamped (R340, R343): the windows of the rate follow, and a second
that has ended publishes RATE_PPM. -/
def portEdge (u : Nat) : Phase := fun s =>
  let t := s.mtbNs
  let q := t / 1000000000
  let (n, a, b, k) := (s.port u).sec
  let key := if isRx u then Key.aes.RATE_PPM (u - 4) else Key.tdm.RATE_PPM u
  [.port u fun x => { x with
      edges := (t :: x.edges).filter fun e => decide (t ≤ e + 100000000),
      clockAt := match x.clockAt with
        | some c => some c
        | none => some t,
      sec := if n = q ∧ 0 < k then (n, a, t, k + 1) else (q, t, t, 1) }]
  ++ (if n ≠ q ∧ 1 < k ∧ a < b then
        [.num key (rounded key (((k - 1 : Nat) * 10 ^ 18 : Rat) / ((b - a : Nat) * s.fs : Rat) - 10 ^ 9))] else [])

/-- The rate check of a slave unit at a block boundary (R343). -/
def portRate (u : Nat) : Phase := fun s =>
  if s.isMaster u then []
  else match s.rateErr u with
    | none => []
    | some e =>
      let live := s.portLive u || s.pst u == .acquire
      phases [
        always [.port u fun x => { x with rateOk := if |e| ≤ 450000 then (match x.rateOk with
          | some t => some t
          | none => some s.mtbNs) else none }],
        if live && decide (500000 < |e|) then phases [
          portFault u .rateMismatch,
          always [.event Ev.RATE_MISMATCH (args16 [u] ++ le 4 (rounded (pstKey u) e))]]
        else always []] s

/-- RATE_MISMATCH_RECOVER (R343): within ±450 ppm for 1 s. -/
def rateRecover (u : Nat) : Phase := fun s =>
  if s.pst u = .rateMismatch ∧ s.passed (s.port u).rateOk 1000000000 then
    phases [setPort u .acquire, always [.port u fun x => { x with fifo := [], goodSince := some s.mtbNs, badRun := 0 }]] s
  else []

/-- FORMAT_ERROR_RECOVER (R340): 100 ms without a format fault. -/
def formatRecover (p : Nat) : Phase := fun s =>
  if s.pst p = .formatError ∧ s.passed (s.port p).goodSince 100000000 then
    phases [setPort p .acquire, always [.port p fun x => { x with fifo := [], goodSince := some s.mtbNs, badRun := 0 }]] s
  else []

/-! ### Frames of slave ports -/

/-- A frame joins a FIFO of 8; while the unit acquires, the newest 4 are kept (R342). -/
def fifoPut (acquiring : Bool) (f : List (Nat × List Int)) (x : Nat × List Int) : List (Nat × List Int) :=
  let l := f ++ [x]
  l.drop (l.length - (if acquiring then 4 else 8))

/-- Whether a frame's count of BCLK periods is right (R334, R340). -/
def State.countOk (s : State) (p count : Nat) : Bool :=
  count == s.nat (Key.tdm.SLOTS p) * s.nat (Key.tdm.SLOT_WIDTH p)

/-- The device's write into an output FIFO at a sample instant (R342): the signals, ahead of mask and gains. -/
def outputPut (u : Nat) (f : List Int) : Phase := fun s =>
  let x := s.port u
  let n := x.fifo.length
  let live := s.portLive u && x.outGo
  let l := if live && decide (6 < n) then x.fifo
    else if live && decide (n < 2) then x.fifo ++ [(s.now, f), (s.now, f)]
    else fifoPut (!s.portLive u) x.fifo (s.now, f)
  [.port u fun x => { x with fifo := l, outGo := x.outGo || (s.portLive u && decide (4 ≤ l.length)) }]

/-- A repeat (true) or drop of a unit is counted and reported, with the counts of the last second (R342, Table 11-12). -/
def slip (u : Nat) (rep : Bool) : Phase := fun s =>
  let key := if isRx u then (if rep then Key.slip.SLIP_REPEAT_A (u - 4) else Key.slip.SLIP_DROP_A (u - 4))
    else if rep then Key.slip.SLIP_REPEAT_T u else Key.slip.SLIP_DROP_T u
  let l := ((s.mtbNs, rep) :: (s.port u).slips).filter fun x => decide (s.mtbNs < x.1 + 1000000000)
  [.bump key 1, .eventOnce Ev.PORT_SLIP u (args16 [u] ++ le 4 (l.filter fun x => x.2).length ++ le 4 (l.filter fun x => !x.2).length),
   .port u fun x => { x with slips := l }]

/-- The frame that an output port sends at an FSYNC edge: none is high-impedance (R342, R345, R360). -/
def State.outputSlots (s : State) (p : Nat) (f : List Int) : List (Option Int) :=
  let idle : Option Int := if s.num (Key.tdm.OUT_IDLE p) = 1 then none else some 0
  (List.range (s.slots p)).map fun k =>
    if s.pst p = .fenced then idle
    else if (s.maskNow p).testBit k then some (s.slotData p (f.getD k 0)) else idle

/-- The frame on SDO changes. -/
def sendFrame (p : Nat) (f : List Int) : Phase := fun s =>
  let o := s.outputSlots p f
  [.port p fun x => { x with outPrev := x.outFrame, outFrame := o }]

/-- TDM_FRAME (R340): at an active FSYNC edge of a slave port the frame before it is complete. `count` and `bclkHz` are
what the device measures of it, `bits` what SDI carried (R335); the edge that ends a frame begins the next (log 24). -/
def tdmFrame (p count bclkHz : Nat) (bits : List Bool) : Phase := fun s =>
  let st := s.pst p
  if !s.portOn p || s.isMaster p || st == .disabled || st == .fenced then []
  else
    let first := st == .noClock
    let good := s.countOk p count || first
    let x := s.port p
    let acquiring := st == .acquire || st == .armed
    let edge := s.presented (x.edges.headD s.mtbNs)
    phases [
      if first then portAcquire p else always [],
      portEdge p,
      always [.nat (Key.tdm.BCLK_HZ p) bclkHz],
      (if good then always [.port p fun x => { x with badRun := 0, goodSince := match x.goodSince with
          | some t => some t
          | none => some s.mtbNs }]
       else always [.bump (Key.tdm.FORMAT_ERRORS p) 1,
                    .port p fun x => { x with badRun := x.badRun + 1, goodSince := none }]),
      whenP (fun s => good && !first && s.isInput p && (s.portLive p || acquiring)) (fun s =>
        let f := (s.frameSamples p bits).zipIdx.map fun (v, k) => if (s.maskNow p).testBit k && decide (x.startAt ≤ edge) then v else 0
        [.port p fun x => { x with fifo := fifoPut acquiring x.fifo (edge, f), startAt := if x.startAt ≤ edge then 0 else x.startAt }]),
      frameBegins p,
      whenP (fun s => !s.isInput p) (fun s =>
        let y := (s.port p).stepGains
        if s.portLive p && y.outGo then
          match y.fifo with
          | [] => sendFrame p [] s
          | f :: r =>
            let sig := f.2.zipIdx.map fun (v, k) => if (s.maskNow p).testBit k then v else 0
            phases [
              always [.port p fun _ => { y with fifo := r, sent := f.2, outDelay := s.now - f.1, raw := (sig :: y.raw).take 2 }],
              sendFrame p (sig.zipIdx.map fun (v, k) => gain32 v (y.gainOf k))] s
        else sendFrame p [] s),
      whenP (fun s => decide (2 ≤ (s.port p).badRun) && s.pst p != .formatError && s.pst p != .armed) (portFault p .formatError),
      if 52000000 < bclkHz then portFence p 2 else always []] s

/-- Whether a unit has had no edge for 2 frame periods, from its last edge on, or from its last change of state where none has come
since (Tables 11-1, 11-4). -/
def State.silent (s : State) (u : Nat) : Bool :=
  decide (2000000000 < (s.mtbNs - (s.port u).edges.headD (s.port u).sinceAt) * s.fs)

/-- PORT_NO_CLOCK (Table 11-1): a slave port without an active edge for 2 frame periods. -/
def portNoClock (p : Nat) : Phase := fun s =>
  let st := s.pst p
  if s.isMaster p || st == .disabled || st == .armed || st == .fenced || st == .noClock then []
  else if s.silent p then
    phases [portFault p .noClock, always [.port p fun x => { x with edges := [], clockAt := none }]] s
  else []

/-- PORT_ACQUIRED (Tables 11-1, 11-4): 100 ms of good frames within ±500 ppm and a FIFO fill of 4. -/
def portAcquired (u : Nat) : Phase := fun s =>
  let x := s.port u
  if s.pst u = .acquire ∧ s.passed x.goodSince 100000000 ∧ within 500 (s.rateErr u) ∧ 4 ≤ x.fifo.length then
    phases [setPort u .running, always [.port u fun x => { x with
      fifo := x.fifo.drop (x.fifo.length - 4), outGo := true }]] s
  else []

/-! ### AES3 receivers -/

/-- Bit `i` of channel-status bytes (R356). -/
def csBit (b : List Byte) (i : Nat) : Bool := ((b.getD (i / 8) 0).toNat).testBit (i % 8)

/-- The bytes of channel-status bits (R356): bit 8k + i is bit i of byte k. -/
def csBytes (l : List Bool) : List Byte :=
  (List.range 24).map fun k => BitVec.ofNat 8 (mask ((List.range 8).filter fun i => l.getD (8 * k + i) false))

/-- Whether channel status is of the professional format: its first bit is 1 (IEC 60958; PRESUMED, log 25). -/
def csPro (b : List Byte) : Bool := csBit b 0

/-- One bit of the CRCC x^8 + x^4 + x^3 + x^2 + 1, bits taken least significant first (R356; order PRESUMED, log 25). -/
def crccBit (c : Nat) (b : Bool) : Nat :=
  if (c % 2 = 1) != b then (c / 2) ^^^ 0xB8 else c / 2

/-- The CRCC of the first 23 bytes of channel status (R356). -/
def crcc (b : List Byte) : Nat := ((List.range 184).map (csBit b)).foldl crccBit 0xFF

/-- Bits of audio that a receiver takes of a subframe (R355). -/
def State.rxBits (s : State) (a sub : Nat) : Nat :=
  let cs := s.blob (if sub = 0 then Key.aes.CS_SUB0 a else Key.aes.CS_SUB1 a)
  match s.nat (Key.aes.WORD_LEN a) with
  | 1 => 24
  | 2 => 20
  | _ => if s.flag (Key.aes.CONSUMER a) || (cs.getD 2 0).toNat % 8 == 1 then 24 else 20

/-- The Q31 word of a subframe (R355). -/
def State.rxWord (s : State) (a sub word : Nat) : Int :=
  let w := if s.rxBits a sub = 24 then word else word / 16 * 16
  signed 32 (w % 2 ^ 24 * 256 : Nat)

/-- What a receiver makes of one subframe (R357, Table 11-5): the value, and the new count of samples that were not
good, held value and fade. -/
def rxSample (policy : Nat) (word : Int) (f : AesSub) (held : Nat) (val : Int) (fade : Nat) : Int × Nat × Int × Nat :=
  let fault := !f.parityOk || !f.codeOk
  let bad := fault || f.v
  let use := !bad || (policy == 0 && !fault)
  if use then
    let v := gain32 word (min (fade + 1) 32)
    (v, 0, v, min (fade + 1) 32)
  else if policy = 2 then
    let v := if held < 8 then val else gain32 val (max 0 (31 - ((held : Int) - 8)))
    (v, held + 1, val, if v = 0 then 0 else fade)
  else (0, held + 1, 0, 0)

/-- Whether a channel-status block passes its check (R356): a consumer block, and a professional one whose octets 1-23 are zero, have none. -/
def csSound (b : List Byte) : Bool := !csPro b || b.tail.all (· == 0) || (b.getD 23 0).toNat == crcc b

/-- AES3_CS_BLOCK_END (R356): a complete block of 192 bits is checked and copied. -/
def csBlockEnd (a : Nat) : Phase := fun s =>
  let x := s.port (a + 4)
  if x.csBits.1.length < 192 then []
  else
    let one (sub : Nat) (l : List Bool) : Phase := fun s =>
      let b := csBytes l
      let key := if sub = 0 then Key.aes.CS_SUB0 a else Key.aes.CS_SUB1 a
      if csSound b then
        [.reg key (.bytes b)] ++ (if csPro b then [] else [.num (Key.aes.CONSUMER a) 1])
          ++ (if s.blob key = b then []
              else [.bump (Key.aes.CS_CHANGES a) 1, .event Ev.AES_CS_CHANGED (args16 [a, sub])])
      else
        let l := (s.mtbNs :: (s.port (a + 4)).crccFails).filter fun t => decide (s.mtbNs < t + 1000000000)
        [.bump (Key.aes.CRCC_ERRORS a) 1, .port (a + 4) fun x => { x with crccFails := l },
         .eventOnce Ev.AES_CRCC a (args16 [a] ++ le 4 l.length)]
    phases [
      always (if csPro (csBytes x.csBits.1) then [.num (Key.aes.CONSUMER a) 0] else []),
      one 0 x.csBits.1, one 1 x.csBits.2,
      always [.port (a + 4) fun x => { x with csBits := ([], []) }]] s

/-- AES3_FRAME (R355-R357): at the preamble that ends a frame, both its subframes are decoded, checked and written to the
FIFO, and their C bits join the block; a frame with preamble Z ends the block before it and begins one, and before the first one
there is none. -/
def aes3Frame (a : Nat) (f : AesFrame) : Phase := fun s =>
  let u := a + 4
  let st := s.pst u
  if st = .disabled ∨ st = .fenced then []
  else
    let x := s.port u
    let pol := s.nat (Key.aes.VALIDITY_POLICY a)
    let (v0, h0, k0, d0) := rxSample pol (s.rxWord a 0 f.a.word) f.a x.held.1 x.vals.1 x.vfade.1
    let (v1, h1, k1, d1) := rxSample pol (s.rxWord a 1 f.b.word) f.b x.held.2 x.vals.2 x.vfade.2
    let count := fun (p : AesSub → Bool) => ([f.a, f.b].filter p).length
    let bits : List Bool × List Bool := if f.z then ([f.a.c], [f.b.c])
      else if x.csBits.1.isEmpty then ([], [])
      else ((x.csBits.1 ++ [f.a.c]).take 192, (x.csBits.2 ++ [f.b.c]).take 192)
    let frame : Nat × List Int := (s.presented (x.edges.headD s.mtbNs), [v0, v1])
    phases [
      portEdge u,
      if f.z then csBlockEnd a else always [],
      if st = .noClock then portAcquire u else always [],
      always [.bump (Key.aes.PARITY_ERRORS a) (count fun q => !q.parityOk),
              .bump (Key.aes.CODE_ERRORS a) (count fun q => !q.codeOk),
              .bump (Key.aes.INVALID_SAMPLES a) (count fun q => q.v || !q.parityOk || !q.codeOk),
              .port u fun x => { x with held := (h0, h1), vals := (k0, k1), vfade := (d0, d1), csBits := bits,
                                        fifo := fifoPut (st != .running) x.fifo frame }]] s

/-- AES3_NO_SIGNAL (Table 11-4): no valid preamble for 2 frame periods. -/
def aesNoSignal (a : Nat) : Phase := fun s =>
  let u := a + 4
  let st := s.pst u
  if st = .disabled ∨ st = .fenced ∨ st = .noClock then []
  else if s.silent u then
    phases [portFault u .noClock, always [.port u fun x => { x with edges := [], clockAt := none, csBits := ([], []) }]] s
  else []

/-! ### Sample instants: inputs -/

/-- The frame that an input unit delivers from `raw` (R341, R345, R347, R352). -/
def deliver (u : Nat) (raw : List Int) : Phase := fun s =>
  let x := (s.port u).stepGains
  let g := fun (v : Int) (k : Nat) => if (s.maskHeard u).testBit k then gain32 v (x.gainOf k) else 0
  let f := raw.zipIdx.map fun (v, k) => gain32 (g v k) (min (x.rampIn + 1) 32)
  [.port u fun _ => { x with last := raw, raw := (raw :: x.raw).take 2, rampIn := min (x.rampIn + 1) 32, hist := (f :: x.hist).take (2 * s.B + 1) }]

/-- A unit that delivers no slot data: its last frame ramps to zero, then zero follows (R341). -/
def deliverMuted (u : Nat) : Phase := fun s =>
  let x := s.port u
  let z := (List.range (s.slots u)).map fun _ => (0 : Int)
  let f := if x.rampOut < 32 then x.hold.map fun v => gain32 v (31 - x.rampOut) else z
  [.port u fun x => { x with rampOut := min (x.rampOut + 1) 32, hist := (f :: x.hist).take (2 * s.B + 1) }]

/-- The device takes one frame of an input unit at a sample instant (R339, R342). -/
def takeFrame (u : Nat) (sdi : List Bool) : Phase := fun s =>
  if !s.isInput u || !s.portLive u then deliverMuted u s
  else if s.isMaster u then
    phases [frameHeard u (sampleTime s.fs (s.sampleNow - 1)), deliver u (s.frameSamples u sdi), always [.port u fun x => { x with inDelay := (1000000000 + s.fs / 2) / s.fs }]] s
  else
    let x := s.port u
    let n := x.fifo.length
    if n < 2 then phases [slip u true, deliver u x.last] s
    else
      let q := if 6 < n then x.fifo.drop 1 else x.fifo
      match q with
      | [] => deliver u x.last s
      | f :: r =>
        phases [if 6 < n then slip u false else always [],
          always [.port u fun x => { x with fifo := r, inDelay := s.now - f.1 }], frameHeard u f.1, deliver u f.2] s

/-! ### Output signals -/

/-- Whether a subscription is a valid source of a channel: one that a commit disables stays valid through the block that
carries its fade (R109, R157). -/
def State.streamValid (s : State) (i ch : Nat) : Bool :=
  decide (i < 128 ∧ ch < 64) && s.num (Key.sub.KIND i) == 0 && s.nat (Key.sub.PAIR i) == 0xFF
    && (s.flag (Key.sub.ENABLE i) || (s.stream i).fading) && decide (ch < s.nat (Key.sub.CHANNELS i))

/-- Whether a slot of a port is a valid source (R157). -/
def State.slotValid (s : State) (p k : Nat) : Bool :=
  decide (p < 4 ∧ k < 32) && s.portOn p && s.isInput p && (s.maskHeard p).testBit k

/-- Whether a receiver subframe is a valid source: the receiver is not muted (R157, R354). -/
def State.subframeValid (s : State) (a k : Nat) : Bool := decide (a < 2 ∧ k < 2) && s.pst (a + 4) == .running

/-- A slot of the frame delivered `back` sample instants ago. -/
def State.slotBack (s : State) (u k back : Nat) : Int := ((s.port u).hist.getD back []).getD k 0

/-- The value of a map word for the output sample of this instant (Tables 11-2, 11-3); none where the word is NONE or
its source is invalid. A receiver that mutes is heard through its ramp, which ends in zero (R354, log 197). What ports and terminals gave two blocks ago stands `back` places back. -/
def State.mapValueAt (s : State) (back w : Nat) : Option Int :=
  let kind := bits w 31 24
  let u := bits w 23 16
  let k := bits w 15 0
  let i := s.sampleNow % s.B
  let c := s.chan u
  let ok : Option Int → Option Int := fun v => if u < 16 then v else none
  match kind with
  | 0x01 => if s.streamValid u k then some (((s.stream u).blkNow.getD i []).getD k 0) else none
  | 0x02 => if s.slotValid u k then some (s.slotBack u k back) else none
  | 0x03 => if u < 2 ∧ k < 2 then some (s.slotBack (u + 4) k back) else none
  | 0x10 => ok (some c.s8)
  | 0x11 => ok (some (c.s1.getD s.lead 0))
  | 0x12 => ok (some (c.bus.getD s.lead 0))
  | 0x13 => ok (some (sat32 (rounded (Key.tmap.SLOT_MAP 0 0) ((c.vHist.getD back 0 * 2048 : Int) / (80 : Rat)))))
  | 0x14 => ok (some (sat32 (c.iHist.getD back 0 * 4)))
  | 0x15 => if u < 4 then some (if (s.gen u).point = 0 then (s.gen u).line.getD s.lead 0 else 0) else none
  | _ => none

/-- The value of a map word at the strobe of this instant. -/
def State.mapValue (s : State) (w : Nat) : Option Int := s.mapValueAt (2 * s.B) w

/-- Whether a map word is NONE or names an invalid source (R157, R358). -/
def State.mapInvalid (s : State) (w : Nat) : Bool :=
  (s.mapValue w).isNone || (bits w 31 24 == 3 && !s.subframeValid (bits w 23 16) (bits w 15 0))

/-- The value an output slot sends (R348, R349): a changed map fades in, with the old signal where the wait timed
out. -/
def State.slotOut (s : State) (u k w : Nat) : Int :=
  let v := (s.mapValue w).getD 0
  match (s.port u).mapFade.find? fun g => g.1 == k with
  | none => v
  | some (_, old, r) =>
    let o := if old = 0 then 0 else (s.mapValue old).getD 0
    rounded 0x4000 ((o * 32 + (v - o) * r.value : Rat) / 32)

/-- The device writes a frame to a slave's FIFO; a repeat or drop is counted (R342). -/
def outputSlip (p : Nat) (f : List Int) : Phase := fun s =>
  let n := (s.port p).fifo.length
  phases [if s.portLive p && (s.port p).outGo then
            (if 6 < n then slip p false else if n < 2 then slip p true else always []) else always [], outputPut p f] s

/-- The signals of the slots of an output port for the output sample of this instant, `x` being its fades at it (R348, R349). -/
def State.signals (s : State) (p : Nat) (x : Port) : List Int :=
  let s' := s.run [.port p fun _ => x]
  (List.range (s.slots p)).map fun k => s'.slotOut p k (s.usedNat (Key.tmap.SLOT_MAP p k))

/-- Signals under the mask in force: zero where the slot is disabled or the port does not run (R345). -/
def State.masked (s : State) (p : Nat) (l : List Int) : List Int :=
  l.zipIdx.map fun (v, k) => if s.portLive p && (s.maskNow p).testBit k then v else 0

/-- Signals with the gains of their slots. -/
def Port.gained (x : Port) (l : List Int) : List Int := l.zipIdx.map fun (v, k) => gain32 v (x.gainOf k)

/-- The output frame of a port for the output sample of this instant (R339, R347, R348): a master sends it under its mask and
gains, zeros where it does not run; a slave writes the signals to its FIFO. -/
def putFrame (p : Nat) : Phase := fun s =>
  if !s.portOn p || s.isInput p then []
  else
    let x := (s.port p).stepFades
    let sig := s.signals p x
    let x := { x with sig := (sig :: x.sig).take 2 }
    if s.isMaster p then
      let y := x.stepGains
      let mine := s.masked p sig
      phases [always [.port p fun _ => { y with raw := (mine :: y.raw).take 2 }],
        sendFrame p (if s.portLive p then y.gained mine else [])] s
    else phases [always [.port p fun _ => x],
      if s.pst p = .fenced || s.pst p = .noClock then sendFrame p [] else outputSlip p sig] s

/-- The generated channel status (R359): professional, linear PCM, no emphasis and the sampling frequency in the codes of IEC
60958-4 (PRESUMED, log 25), and a word length of 24 bits as R355 reads it, 0b001 in bits [2:0] of byte 2. -/
def State.csGenerated (s : State) : List Byte :=
  let b : List Byte := if s.fs = 48000 then [0x85, 0, 0x01] else [0x05, 0, 0x01, 0, 0x10]
  b ++ List.replicate (23 - b.length) 0

/-- The channel status that AOUT sends: 23 bytes and their CRCC (R359). -/
def State.csOut (s : State) : List Byte :=
  let b := if s.num Key.aout.AOUT_CS_MODE = 1 then s.units.pins.aoutNext.take 23 else s.csGenerated
  b ++ [BitVec.ofNat 8 (crcc b)]

/-- The two subframes' audio of this sample instant, `x` being AOUT's fades at it (R358). -/
def State.aoutAudio (s : State) (x : Port) : List Int :=
  let s' := s.run [.port 6 fun _ => x]
  [(0, s.usedNat Key.aout.AOUT_MAP0), (1, s.usedNat Key.aout.AOUT_MAP1)].map fun p =>
    if s.mapInvalid p.2 then 0 else s'.slotOut 6 p.1 p.2 / 256 * 256

/-- The V bits of the two subframes: 1 where the map is NONE or invalid (R358). -/
def State.aoutValidity (s : State) : Bool × Bool :=
  (s.mapInvalid (s.usedNat Key.aout.AOUT_MAP0), s.mapInvalid (s.usedNat Key.aout.AOUT_MAP1))

/-- What a subframe of the AES3 frame sent last carries: 24 audio bits, least significant first, then V, U = 0 and C (R358; their order
is the standard's, log 25); none while AOUT is off. -/
def State.aoutBits (s : State) (sub : Nat) : List Bool :=
  match s.units.pins.aout[sub]? with
  | none => []
  | some v => (List.range 24).map (fun i => decide (v / 256 / 2 ^ i % 2 = 1))
      ++ [if sub = 0 then s.units.pins.aoutV.1 else s.units.pins.aoutV.2, false, s.units.pins.aoutC]

/-- The AES3 frame of this sample instant (R358, R359). A written AOUT_CS reaches the first block after the boundary. -/
def aoutFrame : Phase := fun s => Effect.pins (fun x => { x with aoutNext := s.blob Key.aout.AOUT_CS }) ::
  if s.num Key.aout.AOUT_STATE = 0 then [.pins fun x => { x with aout := [], aoutV := (true, true) }]
  else
    let p := s.sampleNow
    let x := (s.port 6).stepFades
    let cs := if p % 192 = 0 then s.csOut else s.units.pins.aoutCs
    let v := s.aoutAudio x
    [.port 6 fun _ => { x with sig := (v :: x.sig).take 2 },
     .pins fun y => { y with aout := v, aoutV := s.aoutValidity,
                             aoutZ := p % 192 == 0, aoutCs := cs, aoutC := csBit cs (p % 192) }]

/-- The frame that a unit has already formed at the present instant is formed again, from what stands now: a change that applies at
this very instant governs it (R346, R362, R363). -/
def frameAgain (u : Nat) : Phase := fun s =>
  let x := s.port u
  let edge := x.edges.head? = some s.mtbNs
  if u = 6 then
    if !s.strobed ∨ s.num Key.aout.AOUT_STATE = 0 then []
    else [.port 6 fun x => { x with sig := s.aoutAudio x :: x.sig.tail },
          .pins fun y => { y with aout := s.aoutAudio x, aoutV := s.aoutValidity }]
  else if s.isInput u then
    if !s.strobed ∨ !s.portLive u then []
    else
      let f := (x.last.zipIdx.map fun (v, k) => if (s.maskHeard u).testBit k then gain32 (gain32 v (x.gainOf k)) (min x.rampIn 32) else 0)
      [.port u fun x => { x with hist := f :: x.hist.tail }]
  else if s.isMaster u then
    if !s.strobed ∨ !s.portLive u then []
    else
      let sig := s.signals u x
      let mine := s.masked u sig
      [.port u fun x => { x with sig := sig :: x.sig.tail, raw := mine :: x.raw.tail, outFrame := s.outputSlots u (x.gained mine) }]
  else
    let sig := if s.strobed then s.signals u x else x.sig.headD []
    let mine := s.masked u x.sent
    [.port u fun x => { x with
      sig := if s.strobed then sig :: x.sig.tail else x.sig,
      fifo := if s.strobed then x.fifo.map fun f => if sampleTime s.fs s.sampleNow ≤ f.1 + 20 then (f.1, sig) else f else x.fifo,
      raw := if edge then mine :: x.raw.tail else x.raw,
      outFrame := if edge ∧ s.portLive u ∧ x.outGo then s.outputSlots u (x.gained mine) else x.outFrame }]

/-- The start sample of a group an armed port belongs to, at the presented time `t` (R350): frames whose edge, or whose writing for
an output, lies before it are zero. A master output's frame of that sample is formed again where its strobe has run (Table 02-16). -/
def portStart (p t : Nat) : Phase := fun s =>
  let from' := if s.isInput p then t else t - 20
  if s.pst p = .armed then
    phases [setPort p .running, always [.port p fun x => { x with
      startAt := from', fifo := x.fifo.map fun f => if f.1 < from' then (f.1, f.2.map fun _ => 0) else f,
      outGo := decide (4 ≤ x.fifo.length) }],
      if s.isMaster p && !s.isInput p then frameAgain p else always []] s
  else []

/-- A mask that waits takes effect with the frame that begins at this instant, one that has begun at it included (R346, R353). -/
def maskDue (p : Nat) : Phase := fun s => match s.frameEdge p with
  | none => []
  | some e =>
    if (s.port p).maskWait.isNone then []
    else if s.isMaster p && !s.strobed then maskTake p e 0 s
    else phases [maskTake p e 1, frameAgain p] s

/-- The history of the linear-phase sense paths that the maps of Table 11-3 read. -/
def senseHistory : Phase := always ((List.range 16).map fun c => .chan c fun x => { x with
  vHist := (x.vLin :: x.vHist).take 129, iHist := (x.iLin :: x.iHist).take 129 })

/-- The inputs of the ports at a sample instant (R339, R342). -/
def portInputs (sdi : List (List Bool)) : Phase := phases [
  forAll (List.range 4) (fun p => whenP (fun s => s.isMaster p && s.portLive p) (frameBegins p)),
  forAll (List.range 6) (fun u => takeFrame u (sdi.getD u []))]

/-- The outputs of the ports and AOUT at a sample instant, from the signals of its output sample (R339, R348, R358). -/
def portOutputs : Phase := phases [forAll (List.range 4) putFrame, aoutFrame]

/-- The work of the ports at a block boundary: fence clears, rates, delays and fills (R343, R344, R361). -/
def portBoundary : Phase := phases [
  forAll (List.range 6) (fun u => fun s =>
    match (s.port u).clearDue with
    | none => []
    | some cause =>
      if s.pst u ≠ .fenced then [.port u fun x => { x with clearDue := none }]
      else phases [
        always [.nat (pfenceKey u) 0, .event Ev.PORT_UNFENCED (args16 [u, cause]),
                .port u fun x => { x with clearDue := none, faultAt := [] }],
        readP (fun s => s.portOn u) fun on => if on then portBegin u else setPort u .disabled] s),
  forAll (List.range 6) portRate,
  forAll (List.range 4) (fun p => fun s => if !s.portOn p then [] else
    [.nat (Key.tdm.IN_DELAY p) (if s.isInput p then (s.port p).inDelay else 0),
     .nat (Key.tdm.OUT_DELAY p) (if s.isInput p || s.isMaster p then 0 else (s.port p).outDelay),
     .nat (Key.tdm.FIFO_FILL p) (s.port p).fifo.length]),
  forAll [0, 1] (fun a s => if !s.portOn (a + 4) then [] else
    [.nat (Key.aes.IN_DELAY a) (s.port (a + 4)).inDelay, .nat (Key.aes.FIFO_FILL a) (s.port (a + 4)).fifo.length])]

/-! ### Pause, fence clear, commits -/

/-- Whether a pause or resume request is refused (R351). -/
def State.pauseRefused (s : State) (p : Nat) : Bool := s.pst p == .disabled || s.pst p == .armed || s.pst p == .fenced

/-- A pending request (R351): it replaces the one before; 0 and past times mean the next frame. -/
def pauseRequest (p : Nat) (pause : Bool) (t : Nat) : Phase := fun s =>
  let t := max t s.now
  [.port p fun x => { x with pauseAt := if pause then some t else none, resumeAt := if pause then none else some t }]

/-- Samples of a change that applies now that have been formed already: one where the strobe of this instant has run (R362), or, for
a slot that a slave output sends, where its frame has begun. -/
def State.formed (s : State) (u : Nat) (sent : Bool) : Nat :=
  if sent && decide (u < 4) && !s.isInput u && !s.isMaster u then (if (s.port u).edges.head? = some s.mtbNs then 1 else 0)
  else if s.strobed then 1 else 0

/-- A mute or unmute of a slot applies: at once at a crossing, over 32 samples after a timeout (R352, R362), from the present sample
on. -/
def slotApply (u k : Nat) (v : Int) (timeout : Bool) : Phase := fun s => phases [
  always [.port u fun x => x.setGain k (if timeout then
    { (Ramp.to { g0 := x.gainOf k, g1 := x.gainOf k } v 32) with pos := s.formed u true } else { g0 := v, g1 := v })],
  frameAgain u] s

/-- A map word applies (R349, R362): the new signal fades in from the present sample on; after a timeout the old one fades out with
it. -/
def mapApply (u k key : Nat) (timeout : Bool) : Phase := fun s => phases [
  always [zcDrop key, .port u fun x => { x with
    mapFade := x.mapFade.filter (fun g => g.1 != k)
      ++ [(k, if timeout then s.usedNat key else 0, { fadeIn32 with pos := s.formed u false })] }],
  frameAgain u] s

/-- A clear of a unit's fence, for the next block boundary (R361): cause 0 = entry, 1 = controller. -/
def portClear (u cause : Nat) : Phase := fun s =>
  if s.pst u = .fenced then [.port u fun x => { x with clearDue := some cause }] else []

/-- The slip counters clear (Table 11-10). -/
def slipClear : Phase := always ((List.range 12).map fun i => .num (Key.slip.SLIP_REPEAT_T i) 0)

/-- The zero-crossing counters clear (Table 11-11). -/
def zcClear : Phase := always [.num Key.zc.ZC_WAITS 0, .num Key.zc.ZC_TIMEOUTS 0, .num Key.zc.ZC_LONGEST 0]

/-- The refusals of a commit that touches a port (R334, R338), with the states before it: status, or none. -/
def State.portCommitFault (s : State) (p : Nat) (touched : Nat → Bool) : Option Nat :=
  let fmt := (List.range 12).any fun i => touched (Key.tdm.DIR p + i) && Key.tdm.DIR p + i != Key.tdm.OUT_IDLE p
  if s.nat (Key.tdm.SLOTS p) * s.nat (Key.tdm.SLOT_WIDTH p) * s.fs > 49152000 then some St.range
  else if s.nat (Key.tdm.DATA_BITS p) > s.nat (Key.tdm.SLOT_WIDTH p) then some St.range
  else if 2 ^ s.nat (Key.tdm.SLOTS p) ≤ s.nat (Key.tmap.SLOT_MASK p) then some St.range
  else if fmt && s.pst p != .disabled then some St.conflict
  else none

/-- BCLK_HZ of a port: the committed one of a master, the measured one of a slave (Table 11-6). -/
def State.bclkHz (s : State) (p : Nat) : Nat :=
  if s.isMaster p then s.nat (Key.tdm.SLOTS p) * s.nat (Key.tdm.SLOT_WIDTH p) * s.fs else s.nat (Key.tdm.BCLK_HZ p)

end Sys2Proof.Machine
end

