-- ==== Sys2Proof/Machine/Room.lean ====
section
/-!
DEFINITION. Machine/Room.lean: the layout records (Tables 01-1, 01-2, R19-R28), the layout CRC (R34), the validation of
a layout and own-channel map (Table 01-4, R31, R32, R516) and what the layout's commit does (R29, R32, R515).
-/

namespace Sys2Proof.Machine

/-- One step of the bit-reflected CRC-32 of polynomial 0x04C1_1DB7 (R34). -/
def crcBit (c : Nat) : Nat := if c % 2 = 1 then (c / 2) ^^^ 0xEDB88320 else c / 2

/-- The CRC register after one octet (R34). -/
def crcByte (c : Nat) (b : Byte) : Nat :=
  crcBit (crcBit (crcBit (crcBit (crcBit (crcBit (crcBit (crcBit (c ^^^ b.toNat))))))))

/-- CRC-32: initial value and final XOR 0xFFFF_FFFF (R34). -/
def crc32 (b : List Byte) : Nat := (b.foldl crcByte 0xFFFFFFFF) ^^^ 0xFFFFFFFF

/-- A speaker record (Table 01-1). -/
structure Speaker where
  x : Int
  y : Int
  z : Int
  kind : Nat
  group : Nat
  trim : Nat
  reservedZero : Bool
  deriving DecidableEq, Repr

/-- Speaker record `i` of the layout (R20). -/
def State.speaker (s : State) (i : Nat) : Speaker :=
  let b := slice (s.blob Key.lay.SPEAKERS) (24 * i) 24
  { x := signed 32 (leAt b 0 4), y := signed 32 (leAt b 4 4), z := signed 32 (leAt b 8 4),
    kind := leAt b 12 1, group := leAt b 13 1, trim := leAt b 16 4,
    reservedZero := leAt b 14 2 == 0 && leAt b 20 4 == 0 }

/-- Vertex `j` of triangle `k` (R24). -/
def State.vertex (s : State) (k j : Nat) : Nat := leAt (s.blob Key.lay.TRIANGLES) (8 * k + 2 * j) 2

/-- A virtual downmix record (Table 01-2). -/
structure Downmix where
  virtual : Nat
  targets : Nat
  target : List Nat
  gain : List Int
  reservedZero : Bool
  deriving DecidableEq, Repr

/-- Downmix record `k` of the layout (R27). -/
def State.downmix (s : State) (k : Nat) : Downmix :=
  let b := slice (s.blob Key.lay.VIRTUAL_DOWNMIX) (36 * k) 36
  { virtual := leAt b 0 2, targets := leAt b 2 1,
    target := (List.range 4).map fun j => leAt b (4 + 8 * j) 2,
    gain := (List.range 4).map fun j => signed 32 (leAt b (8 + 8 * j) 4),
    reservedZero := leAt b 3 1 == 0 && (List.range 4).all fun j => leAt b (6 + 8 * j) 2 == 0 }

def State.speakerCount (s : State) : Nat := s.nat Key.lay.SPEAKER_COUNT
def State.triangleCount (s : State) : Nat := s.nat Key.lay.TRIANGLE_COUNT
def State.virtualCount (s : State) : Nat := s.nat Key.lay.VIRTUAL_COUNT

/-- The listening reference (R18). -/
def State.listenRef (s : State) : Int × Int × Int :=
  match s.get Key.lay.LISTEN_REF with
  | .pos x y z => (x, y, z)
  | _ => (0, 0, 0)

/-- The layout index a channel is mapped to; none = UNMAPPED (R41). -/
def State.mapped (s : State) (c : Nat) : Option Nat :=
  let m := s.nat (Key.omap.MAP_CH c)
  if m = 0xFFFF then none else some m

/-- The vector of a speaker record from the listening reference, in POS units. -/
def State.vec (s : State) (i : Nat) : Int × Int × Int :=
  let r := s.speaker i
  let o := s.listenRef
  (r.x - o.1, r.y - o.2.1, r.z - o.2.2)

/-- Square of the length of a vector. -/
def norm2 (v : Int × Int × Int) : Int := v.1 * v.1 + v.2.1 * v.2.1 + v.2.2 * v.2.2

/-- Determinant of the matrix of three vectors. -/
def det3 (a b c : Int × Int × Int) : Int :=
  a.1 * (b.2.1 * c.2.2 - b.2.2 * c.2.1) - a.2.1 * (b.1 * c.2.2 - b.2.2 * c.1) + a.2.2 * (b.1 * c.2.1 - b.2.1 * c.1)

/-- The octets the layout CRC covers, in the order of R34. -/
def State.layoutBytes (s : State) : List Byte :=
  le 4 (s.num Key.lay.LAYOUT_ID) ++ le 2 s.speakerCount ++ le 2 s.triangleCount ++ le 2 s.virtualCount
    ++ (s.get Key.lay.LISTEN_REF).wire .pos
    ++ s.blob Key.lay.SPEAKERS ++ s.blob Key.lay.TRIANGLES ++ s.blob Key.lay.VIRTUAL_DOWNMIX

/-- Whether the layout is the empty one (R32). -/
def State.layoutEmpty (s : State) : Bool :=
  s.num Key.lay.LAYOUT_ID == 0 && s.speakerCount == 0 && s.triangleCount == 0 && s.virtualCount == 0

/-- The place and index of a failure, as LAYOUT_ERROR_REC holds them (R516). -/
def errRec (place index : Nat) : Nat := place * 2 ^ 14 + index

/-- The first record below `n` that fails, at a place. -/
def firstBad (place n : Nat) (bad : Nat → Bool) : Option Nat := ((List.range n).find? bad).map (errRec place)

/-- The first of several answers. -/
def firstOf : List (Option Nat) → Option Nat
  | [] => none
  | some x :: _ => some x
  | none :: t => firstOf t

/-- Whether an axis exceeds ±300 m (R17). -/
def axisBad (x : Int) : Bool := decide (x < -19660800 ∨ 19660800 < x)

/-- Code 1: a blob's length differs from its count times its record size. -/
def State.badLength (s : State) : Option Nat :=
  if (s.blob Key.lay.SPEAKERS).length ≠ 24 * s.speakerCount then some (errRec 0 0)
  else if (s.blob Key.lay.TRIANGLES).length ≠ 8 * s.triangleCount then some (errRec 1 0)
  else if (s.blob Key.lay.VIRTUAL_DOWNMIX).length ≠ 36 * s.virtualCount then some (errRec 2 0)
  else none

/-- Code 12: the identity rule of R32. -/
def State.badIdentity (s : State) : Option Nat :=
  if s.num Key.lay.LAYOUT_ID = 0 ∧ (s.speakerCount ≠ 0 ∨ s.triangleCount ≠ 0 ∨ s.virtualCount ≠ 0) then some 0
  else if s.num Key.lay.LAYOUT_ID ≠ 0 ∧ s.speakerCount = 0 then some 0
  else none

/-- Code 2: a TYPE above 2 or a reserved byte that is not 0. -/
def State.badType (s : State) : Option Nat := firstOf [
  firstBad 0 s.speakerCount fun i => decide (2 < (s.speaker i).kind) || !(s.speaker i).reservedZero,
  firstBad 1 s.triangleCount fun k => s.vertex k 3 != 0,
  firstBad 2 s.virtualCount fun k => !(s.downmix k).reservedZero]

/-- Code 3: an axis beyond ±300 m, or R22. -/
def State.badPosition (s : State) : Option Nat :=
  firstBad 0 s.speakerCount fun i =>
    let r := s.speaker i
    axisBad r.x || axisBad r.y || axisBad r.z || (r.kind != 1 && decide (100 * norm2 (s.vec i) < 65536 * 65536))

/-- Code 4: a DELAY_TRIM above 20 ms, or R23 at a channel. -/
def State.badTrim (s : State) : Option Nat := firstOf [
  firstBad 0 s.speakerCount fun i => decide (20000000 < (s.speaker i).trim),
  firstBad 3 16 fun c => match s.mapped c with
    | none => false
    | some i => decide (i < s.speakerCount) && decide (50000000 < s.nat (Key.dly.ALIGN_DELAY c) + (s.speaker i).trim)]

/-- Code 5: an index at or above SPEAKER_COUNT. The slots of a downmix record that are used count (log 20). -/
def State.badIndex (s : State) : Option Nat :=
  let n := s.speakerCount
  firstOf [
    firstBad 1 s.triangleCount fun k => (List.range 3).any fun j => decide (n ≤ s.vertex k j),
    firstBad 2 s.virtualCount fun k =>
      let d := s.downmix k
      decide (n ≤ d.virtual) || (d.target.take d.targets).any fun t => decide (n ≤ t),
    firstBad 3 16 fun c => match s.mapped c with
      | none => false
      | some i => decide (n ≤ i)]

/-- Code 6: the set of VIRTUAL records and of downmix records. -/
def State.badVirtual (s : State) : Option Nat :=
  let virt := (List.range s.speakerCount).filter fun i => (s.speaker i).kind == 2
  let named := (List.range s.virtualCount).map fun k => (s.downmix k).virtual
  firstOf [
    (virt[256]?).map (errRec 0),
    firstBad 2 s.virtualCount fun k =>
      let v := (s.downmix k).virtual
      (s.speaker v).kind != 2 || (named.take k).contains v,
    (virt.find? fun i => !named.contains i).map (errRec 0)]

/-- Code 7: a repeated or SUB vertex. -/
def State.badVertex (s : State) : Option Nat :=
  firstBad 1 s.triangleCount fun k =>
    let a := s.vertex k 0
    let b := s.vertex k 1
    let c := s.vertex k 2
    a == b || b == c || a == c || (s.speaker a).kind == 1 || (s.speaker b).kind == 1 || (s.speaker c).kind == 1

/-- Code 8: |det| of the unit directions below 2^-16, exactly: det² × 2^32 < |a|²|b|²|c|² (R25). -/
def State.badDeterminant (s : State) : Option Nat :=
  firstBad 1 s.triangleCount fun k =>
    let a := s.vec (s.vertex k 0)
    let b := s.vec (s.vertex k 1)
    let c := s.vec (s.vertex k 2)
    let d := det3 a b c
    decide (d * d * 2 ^ 32 < norm2 a * norm2 b * norm2 c)

/-- Code 9: a downmix record's targets and gains. -/
def State.badDownmix (s : State) : Option Nat :=
  firstBad 2 s.virtualCount fun k =>
    let d := s.downmix k
    d.targets == 0 || decide (4 < d.targets)
      || (d.target.take d.targets).any (fun t => (s.speaker t).kind != 0)
      || (d.gain.take d.targets).any (fun g => decide (g < 0))
      || (d.target.drop d.targets).any (fun t => t != 0) || (d.gain.drop d.targets).any (fun g => g != 0)

/-- Code 10: a channel mapped to a VIRTUAL record. -/
def State.badMap (s : State) : Option Nat :=
  firstBad 3 16 fun c => match s.mapped c with
    | none => false
    | some i => (s.speaker i).kind == 2

/-- Code 11: the CRC differs from the one expected; not made for the empty layout (R32). -/
def State.badCrc (s : State) : Option Nat :=
  if s.layoutEmpty then none
  else if (crc32 s.layoutBytes : Int) ≠ s.num Key.lay.LAYOUT_CRC_EXPECTED then some 0 else none

/-- The validation of Table 01-4 in its order: the code and place of the first failure (R31). -/
def State.layoutFault (s : State) : Option (Nat × Nat) :=
  let tests : List (Nat × Option Nat) := [(1, s.badLength), (12, s.badIdentity), (2, s.badType), (3, s.badPosition),
    (4, s.badTrim), (5, s.badIndex), (6, s.badVirtual), (7, s.badVertex), (8, s.badDeterminant), (9, s.badDownmix),
    (10, s.badMap), (11, s.badCrc)]
  (tests.find? fun t => t.2.isSome).map fun t => (t.1, t.2.getD 0)

/-- The status of a failure code (Table 01-4). -/
def layoutStatus (code : Nat) : Nat := if code = 11 then St.conflict else St.range

/-- The entry in which a failed check finds its offending record (Table 01-4, Table 01-9): a blob or the map; for codes 12
and 11 the identity and the expected CRC. -/
def layoutFaultEntry (code place : Nat) : Nat :=
  if code = 12 then Key.lay.LAYOUT_ID
  else if code = 11 then Key.lay.LAYOUT_CRC_EXPECTED
  else match place / 16384 with
    | 0 => Key.lay.SPEAKERS
    | 1 => Key.lay.TRIANGLES
    | 2 => Key.lay.VIRTUAL_DOWNMIX
    | _ => Key.omap.MAP_CH (place % 2048)

/-- Whether an entry belongs to the layout or the own-channel map: the RWS entries of 0x5010 to 0x5013 and of 0x5020 (R31, R515). -/
def isLayoutKey (k : Nat) : Bool :=
  let i := k / 256
  (i == 0x5010 || i == 0x5011 || i == 0x5012 || i == 0x5013 || i == 0x5020) && (Dict.row k).map (·.acc) == some .rws

/-- Whether a layout is active (R32). -/
def State.layoutActive (s : State) : Bool := s.num Key.lay.LAYOUT_STATE == 1

/-- The entries that the stored layout and own-channel map are made of (R399, R515). -/
def layoutKeys : List Nat :=
  [Key.lay.LAYOUT_ID, Key.lay.LAYOUT_CRC_EXPECTED, Key.lay.SPEAKER_COUNT, Key.lay.TRIANGLE_COUNT, Key.lay.VIRTUAL_COUNT,
   Key.lay.LISTEN_REF, Key.lay.SPEAKERS, Key.lay.TRIANGLES, Key.lay.VIRTUAL_DOWNMIX]
    ++ (List.range 16).map Key.omap.MAP_CH

/-- LAYOUT_STATE of the layout that the entries hold (R32). -/
def State.layoutStateOf (s : State) : Int := if s.layoutEmpty then 0 else 1

/-- The state with staged values in force, for a test; a layout among them is the active one (R32, R186). -/
def State.withItems (s : State) (items : List (Nat × Value)) : State :=
  let new := items.foldl (fun s p => s.set p.1 p.2) s
  if items.any fun p => isLayoutKey p.1 then new.set Key.lay.LAYOUT_STATE (.num new.layoutStateOf) else new

/-- The value that a WRITE action carries for its target's type (R76). -/
def State.actValue (s : State) (a : Nat) (t : Ty) : Value :=
  match t.parse (le 8 (s.nat (Key.act.ACT_VALUE a))) with
  | some (v, _) => v
  | none => .num 0

/-- What an action armed for the block boundary at output sample `next` or before brings there, if it is a WRITE or a COMMIT (R74,
R76, R420). -/
def State.actItems (s : State) (next a : Nat) : List (Nat × Value) :=
  let t := s.nat (Key.act.ACT_TIME a)
  if s.num (Key.act.ACT_STATE a) ≠ 1 ∨ (t ≠ 0 ∧ next < firstFrom s.fs s.B t) then []
  else match s.nat (Key.act.ACT_KIND a) with
    | 1 =>
      let k := s.nat (Key.act.ACT_TARGET a) * 256 + s.nat (Key.act.ACT_SUB a)
      match Dict.row k with
      | some r => [(k, s.actValue a r.ty)]
      | none => []
    | 2 => ((s.session (s.nat (Key.act.ACT_TARGET a))).bind fun x => x.txn).getD []
    | _ => []

/-- The values that the changes accepted so far bring at the next block boundary, in the order of R77: the actions armed for it, the
sessions' commits, and the writes that wait. -/
def State.itemsNext (s : State) : List (Nat × Value) :=
  let next := (s.sampleNow / s.B + 1) * s.B
  (List.range 64).flatMap (s.actItems next)
    ++ (s.units.sessions.flatMap fun p => match p.2 with
      | none => []
      | some x => ((x.ownCommits ++ x.commit.toList).filter fun c =>
          !c.passed && decide (c.time ≤ sampleTime s.fs next)).flatMap fun c => c.items)
    ++ s.units.waiting.map fun x => (x.key, x.value)

/-- Those of the values that the renderer reads: layout, map, globals and slot entries (R44, R126, R149, R150). -/
def State.renderItems (s : State) : List (Nat × Value) :=
  s.itemsNext.filter fun p => p.1 / 65536 == 0x50 || p.1 / 65536 == 0x58 || p.1 / 65536 == 0x59

/-- The configuration from which the renderer forms the play block that begins at the next block boundary: its layout, map, globals
and slot entries as the changes accepted for that boundary leave them (R40, R44, R126, log 182). -/
def State.foretold (s : State) : State := s.withItems s.renderItems

/-- The layout of the entries becomes the active one: state, CRC and error entries (R31, R32, R34). -/
def layoutActivate : Phase := fun s =>
  [.num Key.lay.LAYOUT_STATE s.layoutStateOf,
   .nat Key.lay.LAYOUT_CRC (if s.layoutEmpty then 0 else crc32 s.layoutBytes),
   .num Key.lay.LAYOUT_ERROR 0, .num Key.lay.LAYOUT_ERROR_REC 0]

/-- A failed validation is recorded (R31, R516). -/
def layoutRefused (code place : Nat) : Phase := always
  [.nat Key.lay.LAYOUT_ERROR code, .nat Key.lay.LAYOUT_ERROR_REC place]

/-- The RWS entries of a layout and map at the empty layout (R515). -/
def emptyLayout : Phase := fun _ =>
  [.num Key.lay.LAYOUT_ID 0, .num Key.lay.LAYOUT_CRC_EXPECTED 0, .num Key.lay.SPEAKER_COUNT 0,
   .num Key.lay.TRIANGLE_COUNT 0, .num Key.lay.VIRTUAL_COUNT 0, .reg Key.lay.LISTEN_REF (.pos 0 0 0),
   .reg Key.lay.SPEAKERS (.bytes []), .reg Key.lay.TRIANGLES (.bytes []), .reg Key.lay.VIRTUAL_DOWNMIX (.bytes []),
   .num Key.lay.LAYOUT_STATE 0, .num Key.lay.LAYOUT_CRC 0]
    ++ (List.range 16).map fun c => .num (Key.omap.MAP_CH c) 0xFFFF

/-- The dawn sequence's validation of the restored layout (R515). -/
def layoutRestore : Phase := fun s =>
  match s.layoutFault with
  | none => layoutActivate s
  | some (code, place) => emptyLayout s ++ layoutRefused code place s

/-- The delay trim of the layout index a channel is mapped to, ns (R23); 0 with no active layout. -/
def State.delayTrim (s : State) (c : Nat) : Nat :=
  match s.mapped c with
  | none => 0
  | some i => if s.layoutActive then (s.speaker i).trim else 0

end Sys2Proof.Machine
end

