-- ==== Sys2Proof/Machine/Renderer.lean ====
section
/-!
DEFINITION. Machine/Renderer.lean: the object renderer (R116-R151): metadata timing, directions and panning gains,
gain ramps, distance delay, air absorption, the renderer bus, object fences. Play block j is rendered in the block period
before its boundary (R184): the renderer runs one block ahead of the sample that plays (log 26).
-/

namespace Sys2Proof.Machine

/-! ### Vectors -/

/-- A number cut to 176 binary places. -/
def cut176 (x : Rat) : Rat := (x * 2 ^ 176).floor / (2 ^ 176 : Rat)

/-- The sum of n terms of a power series whose term follows from the one before by y / ((k + 1)(k + 2)). -/
def series (y : Rat) : Nat → Nat → Rat → Rat
  | 0, _, _ => 0
  | n + 1, k, t => t + series y n (k + 2) (cut176 (t * y / ((k + 1) * (k + 2) : Nat)))

/-- The sine or cosine of an angle of at most 90 degrees, within 2^-160 of it: a triangle may turn the error of a ring direction
into one 2^16 times as large (R25), and a gain is formed to a relative 2^-20 (R133, R134, log 3). -/
def trig (f : Config.Fn) (deg : Rat) : Rat :=
  let x := cut176 (deg * Config.twoPi / 360)
  if f = .cos then series (-(x * x)) 26 0 1 else series (-(x * x)) 26 1 x

/-- The square root within a relative 2^-190; exact where the root is rational. -/
def rootP (x : Rat) : Rat := ((x.num.toNat * x.den) * 2 ^ 400).sqrt / (2 ^ 200 * x.den : Nat)

/-- The integer part of a · √q + b, exactly, for a not negative. -/
def floorRoot (q a b : Rat) : Int :=
  let k := (a * rootP q + b).floor
  if 0 ≤ (k + 1 : Int) - b ∧ ((k + 1 : Int) - b) * ((k + 1 : Int) - b) ≤ a * a * q then k + 1 else k

/-- x to the power e / 256, to the precision of `rootP`: a product of repeated square roots. -/
def powQ (x : Rat) (e : Nat) : Rat :=
  ((List.range 8).foldl (fun (a : Rat × Rat) i =>
    let r := cut176 (rootP a.2)
    (if e.testBit (7 - i) then cut176 (a.1 * r) else a.1, r)) (x ^ (e / 256), x)).1

/-- A vector of room coordinates. -/
abbrev Vec := Rat × Rat × Rat

def dot (a b : Vec) : Rat := a.1 * b.1 + a.2.1 * b.2.1 + a.2.2 * b.2.2
def cross (a b : Vec) : Vec :=
  (a.2.1 * b.2.2 - a.2.2 * b.2.1, a.2.2 * b.1 - a.1 * b.2.2, a.1 * b.2.1 - a.2.1 * b.1)
def scale (k : Rat) (a : Vec) : Vec := (k * a.1, k * a.2.1, k * a.2.2)
def addV (a b : Vec) : Vec := (a.1 + b.1, a.2.1 + b.2.1, a.2.2 + b.2.2)
def lenV (a : Vec) : Rat := sqrtQ (dot a a)
def unit (a : Vec) : Vec := let n := rootP (dot a a); if n = 0 then a else scale (1 / n) a

/-- The vector of a speaker record from the listening reference, in metres (R17, R25). -/
def State.dirOf (s : State) (i : Nat) : Vec :=
  let v := s.vec i
  ((v.1 : Rat) / 65536, (v.2.1 : Rat) / 65536, (v.2.2 : Rat) / 65536)

/-- A gain in 0.01 dB as a factor: 0x8000 is exactly zero (Table 00-4). -/
def dbFactor (x : Int) : Rat := if x = -32768 then 0 else if x = 0 then 1 else Config.real .pow10 ((x : Rat) / 2000) 0

/-! ### Panning (R130-R138) -/

/-- Gains toward layout indices. -/
abbrev Gains := List (Nat × Rat)

/-- Gains with `g` added at an index. -/
def Gains.add (l : Gains) (i : Nat) (g : Rat) : Gains :=
  if l.any (fun x => x.1 == i) then l.map (fun x => if x.1 = i then (i, x.2 + g) else x) else l ++ [(i, g)]

/-- Normalisation to unit power (R132, R135). -/
def Gains.normal (l : Gains) : Gains :=
  let n := sqrtQ (l.foldl (fun a x => a + x.2 * x.2) 0)
  if n = 0 then l else l.map fun x => (x.1, x.2 / n)

/-- The three gains of a direction in a triangle: the solution of u = g1·d1 + g2·d2 + g3·d3 (R130). -/
def State.triple (s : State) (k : Nat) (u : Vec) : Rat × Rat × Rat :=
  let a := s.dirOf (s.vertex k 0)
  let b := s.dirOf (s.vertex k 1)
  let c := s.dirOf (s.vertex k 2)
  let d := dot a (cross b c)
  (dot u (cross b c) / d * lenV a, dot a (cross u c) / d * lenV b, dot a (cross b u) / d * lenV c)

/-- The FULL index whose direction makes the smallest angle with u, the lowest among equals (R131, R137): cosines are
compared by their signed squares. -/
def State.nearest (s : State) (u : Vec) (among : List Nat) : Option Nat :=
  let key := fun i => let d := s.dirOf i; let x := dot u d; x * |x| / dot d d
  among.foldl (fun best i => match best with
    | none => some i
    | some b => if key b < key i ∨ (key b = key i ∧ i < b) then some i else some b) none

/-- The FULL records of the active layout. -/
def State.fulls (s : State) : List Nat := (List.range s.speakerCount).filter fun i => (s.speaker i).kind == 0

/-- The SUB records of the active layout. -/
def State.subs (s : State) : List Nat := (List.range s.speakerCount).filter fun i => (s.speaker i).kind == 1

def least3 (g : Rat × Rat × Rat) : Rat := min g.1 (min g.2.1 g.2.2)

/-- The normalised gains of one direction, and whether it lies outside the hull (R130-R132). -/
def State.panOne (s : State) (u : Vec) : Gains × Bool :=
  let l := (List.range s.triangleCount).map fun k => (k, s.triple k u)
  let gains := fun (k : Nat) (g : Rat × Rat × Rat) =>
    ([(s.vertex k 0, max 0 g.1), (s.vertex k 1, max 0 g.2.1), (s.vertex k 2, max 0 g.2.2)] : Gains)
  match l.find? fun x => decide (-1 / 1048576 ≤ least3 x.2) with
  | some (k, g) => (Gains.normal (gains k g), false)
  | none =>
    let best := l.foldl (fun b x => match b with
      | none => some x
      | some y => if least3 y.2 < least3 x.2 then some x else some y) none
    match best with
    | some (k, g) =>
      let r := gains k g
      if r.all fun x => x.2 == 0 then
        (((s.nearest u [s.vertex k 0, s.vertex k 1, s.vertex k 2]).map fun i => (i, (1 : Rat))).toList, true)
      else (Gains.normal r, true)
    | none => (((s.nearest u s.fulls).map fun i => (i, (1 : Rat))).toList, true)

/-- The directions of a spread object about the unit vector `u` (R134). -/
def ring (u : Vec) (spread : Nat) : List Vec :=
  if spread = 0 then [u]
  else
    let e1 := unit (if |u.2.2| ≤ 99 / 100 then (-u.2.1, u.1, 0) else addV (0, 1, 0) (scale (-u.2.1) u))
    let e2 := cross u e1
    let c := trig .cos ((spread : Rat) / 2)
    let d := trig .sin ((spread : Rat) / 2)
    let h := rootP 3 / 2
    let ab : List (Rat × Rat) := [(1, 0), (1 / 2, h), (-1 / 2, h), (-1, 0), (-1 / 2, -h), (1 / 2, -h)]
    u :: ab.map fun x => addV (scale c u) (scale d (addV (scale x.1 e1) (scale x.2 e2)))

/-- The gains of every VIRTUAL index go to its downmix targets (R28, R136). -/
def State.distribute (s : State) (l : Gains) : Gains :=
  l.foldl (fun a x =>
    if (s.speaker x.1).kind = 2 then
      match (List.range s.virtualCount).find? fun k => (s.downmix k).virtual == x.1 with
      | none => a
      | some k =>
        let d := s.downmix k
        ((d.target.zip d.gain).take d.targets).foldl (fun a t => Gains.add a t.1 (x.2 * t.2 / 2147483648)) a
    else Gains.add a x.1 x.2) []

/-- What a record's direction and flags give: the panning gains per FULL index; whether a direction lay outside the hull,
where triangles were searched; whether the direct speaker `ds` is invalid (R130-R138). An LFE-only object finds no direct speaker
invalid: row 1 of Table 04-1 decides (log 183). -/
def State.panning (s : State) (ds : Nat) (u : Vec) (m : MetaRec) : Gains × Option Bool × Bool :=
  let flag := fun b => m.flags.testBit b
  let valid := decide (ds < s.speakerCount) && (s.speaker ds).kind != 1
  let invalid := flag 1 && !valid
  if flag 5 then ([], none, false)
  else if flag 1 && valid then (s.distribute [(ds, 1)], none, false)
  else if flag 3 then (((s.nearest u s.fulls).map fun i => (i, (1 : Rat))).toList, none, invalid)
  else
    let l := (ring u m.spread).map s.panOne
    let sum : Gains := l.foldl (fun a x => x.1.foldl (fun a y => Gains.add a y.1 y.2) a) []
    let g := if m.spread = 0 then sum else Gains.normal sum
    (s.distribute g, some (l.any fun x => x.2), invalid)

/-! ### Combined gains, distance, delay -/

/-- The object vector of a record, in metres (R128). -/
def State.objVec (s : State) (m : MetaRec) : Vec :=
  let o := s.listenRef
  ((m.x : Rat) / 100 - (o.1 : Rat) / 65536, (m.y : Rat) / 100 - (o.2.1 : Rat) / 65536, (m.z : Rat) / 100 - (o.2.2 : Rat) / 65536)

/-- The square of the distance of a record's object from the listening reference, m² (R128). -/
def State.dist2 (s : State) (m : MetaRec) : Rat := dot (s.objVec m) (s.objVec m)

/-- The distance of a record's object, within a relative 2^-190 (R128). -/
def State.dist (s : State) (m : MetaRec) : Rat := rootP (s.dist2 m)

/-- The distance gain (R140); an even exponent is a power of the square of the distance, and exact. -/
def State.distGain (s : State) (m : MetaRec) : Rat :=
  let ref : Rat := s.nat Key.ren.R_REF / 1000
  let e := s.nat Key.ren.ATT_EXP
  if e = 0 ∨ s.dist2 m ≤ ref * ref then 1
  else if e = 512 then ref * ref / s.dist2 m
  else powQ (ref / s.dist m) e

/-- The sub gain toward a SUB record (R139): sub-send acts in addition to an LFE-only object's gain (R137). -/
def State.subGain (s : State) (o i : Nat) (m : MetaRec) : Rat :=
  let g := s.nat (Key.obj.SUB_GROUP o)
  let reached := fun j => g == 0xFF || (s.speaker j).group == g
  let n : Nat := (s.subs.filter reached).length
  let part := fun (b k : Nat) => if m.flags.testBit b then dbFactor (s.num k) / n else 0
  if reached i then part 5 Key.ren.LFE_GAIN + part 4 Key.ren.SUB_SEND_GAIN else 0

/-- The combined-gain targets of an object toward the own channels, without the mute multiplier, in 2^-27 to the nearest
unit, halves up, and saturated to S32 (R117, R139, R144, R146). -/
def State.targets (s : State) (o : Nat) (m : MetaRec) (pan : Gains) : List (Nat × Int) :=
  if !s.layoutActive then []
  else
    let f := dbFactor (min m.gain 1200) * dbFactor (s.num (Key.obj.TRIM o)) * s.distGain m
    (List.range 16).filterMap fun c =>
      match s.mapped c with
      | none => none
      | some i =>
        let g := if (s.speaker i).kind = 1 then s.subGain o i m
          else match pan.find? fun x => x.1 == i with
            | some x => x.2
            | none => 0
        let q := min 2147483647 (g * f * 134217728 + 1 / 2).floor
        if q = 0 then none else some (c, q)

/-- The delay target of a record's object, 2^-16 sample to the nearest, halves up (R141). -/
def State.delayTarget (s : State) (m : MetaRec) : Nat :=
  if !s.flag Key.ren.DELAY_ENABLE || m.flags.testBit 2 then 0
  else
    let k : Rat := (s.fs * 1000 * 65536 : Nat) / (s.nat Key.ren.SOUND_SPEED : Rat)
    min (if s.fs = 96000 then 4096 * 65536 else 2048 * 65536)
      (floorRoot (s.dist2 m) k (1 / 2 - (s.nat Key.ren.R_REF : Rat) / 1000 * k)).toNat

/-- New targets of an object's gains: ramps of a length from the present values (R125, R126). Two causes at one sample run
one ramp, of the longer length; a target equal to the one a ramp runs to leaves that ramp (log 150). -/
def Obj.retarget (x : Obj) (t : List (Nat × Int)) (len : Nat) : Obj :=
  let target := fun c => match t.find? fun y => y.1 == c with
    | some y => y.2
    | none => 0
  let turn := fun (r : Ramp) (v : Int) =>
    if r.len ≠ 0 ∧ r.pos = 0 then { r with g1 := v, len := max r.len len } else if r.g1 = v then r else r.to v len
  let old := x.gains.map fun g => (g.1, turn g.2 (target g.1))
  let fresh := (t.filter fun y => !x.gains.any fun g => g.1 == y.1).map fun y => (y.1, Ramp.to {} y.2 len)
  { x with gains := old ++ fresh }

/-- Whether every combined gain of an object is zero (R141). -/
def Obj.silent (x : Obj) : Bool := x.mute.value == 0 || x.gains.all fun g => g.2.value == 0

/-- The state of an object slot (Table 04-3). -/
def State.objState (s : State) (o : Nat) : Nat := s.nat (Key.obj.OBJ_STATE o)

/-- The object slots that hold anything. -/
def State.liveObjs (s : State) : List Nat := s.units.objs.map fun p => p.1

/-- Whether a mute condition other than the metadata flag holds for an object (R127). -/
def State.objMuted (s : State) (o : Nat) : Bool :=
  s.objState o == 3 || s.objState o == 4 || (s.obj o).strict

/-- The direction of a record: near the listening reference, the one in force before, or +x (R128, R129). -/
def State.dirAt (s : State) (x : Obj) (m : MetaRec) : Vec :=
  let v := s.objVec m
  if dot v v < 1 / 1000000 then x.dir.getD (1, 0, 0) else v

/-- The object mute multiplier moves toward its target over B samples (R127). -/
def Obj.muteTo (x : Obj) (muted : Bool) (B : Nat) : Obj :=
  let t : Int := if muted then 0 else 134217728
  if x.mute.g1 = t then x else { x with mute := x.mute.to t B }

/-- The object mute follows its conditions at a block boundary (R127). -/
def objMute (o : Nat) (muted : Bool) : Phase := fun s => [.obj o fun x => x.muteTo muted s.B]

/-! ### Records -/

/-- The cause for which a record fences its object, if any (R147). -/
def State.recordFault (s : State) (m : MetaRec) : Option Nat :=
  if 30000 < |m.x| ∨ 30000 < |m.y| ∨ 30000 < |m.z| then some 1
  else
    let v := s.objVec m
    if dot v v < 1 / 1000000 ∧ s.flag Key.ren.DELAY_ENABLE ∧ !m.flags.testBit 2 then some 2 else none

/-- What an object becomes as a record applies or a clear discards it, under the configuration `f` (R117, R118, R125, R127-R129, R141,
R148). The mute conditions other than the record's flag keep what the last block boundary found (R127). -/
def State.takes (f : State) (o : Nat) (t : Took) (x : Obj) : Obj :=
  match t.record with
  | none => { x with record := none, gains := [], lastApply := none }
  | some m =>
    let dir := f.dirAt x m
    let (pan, _, _) := f.panning t.direct (unit dir) m
    let target := f.delayTarget m
    { (x.retarget (f.targets o m pan) (max m.ramp f.B)).muteTo (x.cond || m.flags.testBit 0) f.B with
      record := some m, dir := some dir, direct := t.direct, delayTarget := target,
      delay := if x.silent || t.first then target else x.delay, lastApply := some t.apply }

/-- The first output sample that a change made at the present instant concerns: the one that the renderer works on, or the next one
where the strobe of this instant has run. -/
def State.workNext (s : State) : Nat := s.workSample + if s.strobed then 1 else 0

/-- A change of an object within the play block in work, which stays known until the next block boundary (R40, R44). -/
def objTakes (o : Nat) (t : Took) : Phase := fun s =>
  [.obj o fun x => { s.foretold.takes o t x with took := x.took ++ [t] }]

/-- A record that passes R147 applies at output sample p (R117, R118, R125-R129, R131, R138, R141, R148, R150). POSITION is cut to
2^-16 m (log 151). The layout of a commit accepted for the play block's boundary is the active one there (R40, log 182). -/
def recordApply (o p : Nat) (m : MetaRec) : Phase := fun s =>
  let f := s.foretold
  let ds := s.nat (Key.obj.DIRECT_SPEAKER o)
  let (_, hull, invalid) := f.panning ds (unit (f.dirAt (s.obj o) m)) m
  let out := hull.getD ((s.nat (Key.obj.OBJ_STATUS o)).testBit 0)
  let st := s.objState o
  phases [
    objTakes o { sample := s.workNext, apply := p, record := some m, direct := ds, first := st == 1 },
    always [
      .num (Key.obj.OBJ_STATE o) 2,
      .nat (Key.obj.OBJ_STATUS o) ((if out then 1 else 0) + (if invalid then 2 else 0)),
      .reg (Key.obj.POSITION o) (.pos (m.x * 65536 / 100) (m.y * 65536 / 100) (m.z * 65536 / 100)),
      .num (Key.obj.META_GAIN o) m.gain, .nat (Key.obj.META_SPREAD o) m.spread, .nat (Key.obj.META_FLAGS o) m.flags,
      .nat (Key.obj.META_TIME o) (sampleTime s.fs m.due)],
    always (if hull = some true then [.bump Key.ren.OUT_OF_HULL_TOTAL 1, .eventOnce Ev.OUT_OF_HULL 0 (args16 [o])] else []),
    always (if st = 4 then [.event Ev.OBJECT_UNFENCED (args16 [o, 0])] else [])] s

/-- METADATA_APPLY (R118, R147): the pending record whose output sample has come applies, or fences the object. A further bad
record of an object that is FENCED is discarded and raises no second OBJECT_FENCED (log 184). -/
def metadataApply (o : Nat) : Phase := fun s =>
  match (s.obj o).pend with
  | [] => []
  | (p, m) :: rest =>
    if s.workSample < p ∨ s.objState o = 0 then []
    else
      let drop : Effect := .obj o fun x => { x with pend := rest }
      match s.foretold.recordFault m with
      | none => phases [always [drop], recordApply o p m] s
      | some cause =>
        phases [always [drop],
          if s.objState o = 4 then always [] else always [.num (Key.obj.OBJ_STATE o) 4,
            .event Ev.OBJECT_FENCED (args16 [o, cause])]] s

/-- META_TIMEOUT (R121): no record for META_TIMEOUT ms after the last application sample, which a re-anchor leaves as an index of
the old grid (log 185). -/
def metaTimeout (o : Nat) : Phase := fun s =>
  let ms := s.nat Key.ren.META_TIMEOUT
  match (s.obj o).lastApply with
  | none => []
  | some p =>
    let due := decide (p + ms * s.fs / 1000 ≤ s.workSample)
    let stops := (s.obj o).pend.any fun r => decide (r.1 ≤ p + ms * s.fs / 1000)
    if ms ≠ 0 ∧ s.objState o = 2 ∧ due ∧ !stops then
      [.num (Key.obj.OBJ_STATE o) 3, .event Ev.META_TIMEOUT (args16 [o])]
    else []

/-- A clear of an object's fence (R148): the slot returns to NO_META. POSITION, the META_* entries and the direction in force of the
discarded record stay (log 186). -/
def objClear (o cause : Nat) : Phase := fun s =>
  if s.objState o = 4 then
    phases [always [.num (Key.obj.OBJ_STATE o) 1, .event Ev.OBJECT_UNFENCED (args16 [o, cause])],
      objTakes o { sample := s.workNext }] s
  else []

/-- The play block from which late metadata that arrives at presented time `t` applies: the earliest whose boundary, two
blocks back, lies after the arrival (R119). -/
def State.lateBlock (s : State) (t : Nat) : Nat := firstAfter s.fs s.B t / s.B + 2

/-- A late record of a slot, deferred by `n` samples (R119). -/
def metaLate (o n : Nat) : List Effect :=
  [.bump (Key.obj.META_LATE o) 1, .bump Key.ren.META_LATE_TOTAL 1, .eventOnce Ev.META_LATE 0 (args16 [o] ++ le 4 (n : Nat))]

/-- A record that arrived at presented time `t` is for a slot, to apply at output sample `p` (R118-R120). A late record is ordered,
compared and replaced by the sample that it is deferred to (log 219). -/
def metaDeliver (t o p : Nat) (m : MetaRec) : Phase := fun s =>
  if s.objState o = 0 then []
  else
    let late := decide (p / s.B < s.lateBlock t)
    let q := if late then s.lateBlock t * s.B else p
    let m := { m with due := p }
    let pend := (s.obj o).pend
    let count : List Effect := if late then metaLate o (q - p) else []
    let put := fun (l : List (Nat × MetaRec)) => count ++ [.obj o fun x => { x with pend := l }]
    if pend.any fun r => r.1 == q then put (pend.map fun r => if r.1 = q then (q, m) else r)
    else if pend.any fun r => decide (q < r.1) then put ((pend.filter fun r => decide (r.1 < q)) ++ [(q, m)])
    else if 4 ≤ pend.length then
      count ++ [.bump (Key.obj.META_OVERFLOW o) 1, .eventOnce Ev.META_OVERFLOW 0 (args16 [o])]
    else put (pend ++ [(q, m)])

/-! ### Slots (R84, R124) -/

/-- Whether a subscription is enabled and places audio of its own: unpaired or a primary (R84, R85). -/
def State.placing (s : State) (i : Nat) : Bool := s.flag (Key.sub.ENABLE i) && s.nat (Key.sub.PAIR i) == 0xFF

/-- The subscriptions that are set up at all: those with an entry off its default. -/
def State.usedSubs (s : State) : List Nat :=
  (List.range 128).filter fun i => s.flag (Key.sub.ENABLE i)

/-- The slots that the enabled object streams reach, in order: subscription and room object ID (R84). -/
def State.assignment (s : State) : List (Nat × Nat) :=
  (s.usedSubs.filter fun i => s.placing i && s.num (Key.sub.KIND i) == 1).flatMap fun i =>
    (List.range (s.nat (Key.sub.OBJ_COUNT i))).map fun j => (i, s.nat (Key.sub.OBJ_FIRST i) + j)

/-- A slot takes its new object, or falls out of use (R124). -/
def slotTake (o : Nat) (n : Option (Nat × Nat)) : Phase := fun s =>
  [.obj o fun _ => (match n with
     | some (i, id) => { sub := some i, place := id - s.nat (Key.sub.OBJ_FIRST i) }
     | none => {}),
   .nat (Key.obj.OBJ_ID o) (match n with
     | some (_, id) => id
     | none => 0xFFFF),
   .num (Key.obj.OBJ_STATE o) (if n.isSome then 1 else 0), .num (Key.obj.OBJ_STATUS o) 0,
   .reg (Key.obj.POSITION o) (.pos 0 0 0), .num (Key.obj.META_GAIN o) 0, .num (Key.obj.META_SPREAD o) 0,
   .num (Key.obj.META_FLAGS o) 0, .num (Key.obj.META_TIME o) 0]

/-- The slots after a commit of subscriptions (R124): a slot whose room object ID changes fades out its old object over
the next block and then takes the new one; an unused slot takes it at once. -/
def slotsReassign : Phase := fun s =>
  let a := s.assignment
  let keys := (List.range a.length) ++ s.liveObjs.filter fun o => decide (a.length ≤ o)
  keys.flatMap fun o =>
    let n := a[o]?
    let old := s.nat (Key.obj.OBJ_ID o)
    let id := match n with
      | some (_, id) => id
      | none => 0xFFFF
    if old = id then (match n with
      | some (i, _) => [.obj o fun x => { x with
          sub := some i, place := id - s.nat (Key.sub.OBJ_FIRST i), next := none,
          strict := x.strict && x.sub == some i && s.flag (Key.sub.ENABLE i) }]
      | none => [])
    else if s.objState o = 0 then slotTake o n s
    else [.obj o fun x => { x with
      next := some n, fadeFrom := s.blockSample, fadeLeft := if s.strobed then s.B - 1 else s.B }]

/-- At the block boundary after the one of the commit the slots that fade take their new objects (R124). -/
def slotsTake : Phase := fun s => s.liveObjs.flatMap fun o => match (s.obj o).next with
  | some n => if (s.obj o).fadeFrom = s.blockSample then [] else slotTake o n s
  | none => []

/-- The groups dropped at the render cut do not contribute to the play block that begins; one that contributes again
fades in (R193). -/
def groupsTurn : Phase := fun s => s.units.rgroups.map fun p => .rgroup p.1 fun r =>
  { r with dropNow := r.dropNext, dropNext := false, fadeNow := r.dropNow && !r.dropNext }

/-- The targets of an object's held record under the configuration `f`, from output sample `w` on (R44, R125, R126, R149). -/
def State.retargeted (f : State) (o w : Nat) (x : Obj) : Obj :=
  match x.record with
  | none => x
  | some m =>
    let dir := f.dirAt x m
    let (pan, _, _) := f.panning x.direct (unit dir) m
    { x.retarget (f.targets o m pan) (if x.lastApply = some w then max m.ramp f.B else f.B) with
      dir := some dir, delayTarget := f.delayTarget m }

/-- The objects turn to the targets of the configuration `f` at output sample `w`. -/
def objsRetarget (f : State) (w : Nat) : Phase := fun s => s.liveObjs.map fun o => .obj o (f.retargeted o w)

/-- The renderer at a block boundary: mute conditions act (R127); the targets of the play block that is rendered next follow the layout,
map, globals and slot entries, with those that the changes accepted for its boundary bring (R40, R44, R125, R126, R149, log 182).
Panning a held record anew leaves OUT_OF_HULL, its count and its event, and DIRECT_INVALID, as the record's application left them
(log 187). -/
def renderBoundary : Phase := phases [
  (fun s => forAll s.liveObjs (fun o s =>
    let b := s.objMuted o
    let f := match (s.obj o).record with
      | some m => m.flags.testBit 0
      | none => false
    [.obj o fun x => { x.muteTo (b || f) s.B with cond := b, took := [] }]) s),
  (fun s => [.unit fun u => { u with rsnap := ⟨s.workNext, u.objs, s.renderItems⟩ }]),
  fun s => objsRetarget s.foretold s.workNext s]

/-- At a re-anchor every pending queue is emptied (R123), and nothing of the old grid is rendered anew. -/
def renderReanchor : Phase := fun s =>
  (.unit fun u => { u with rsnap := {} }) :: s.liveObjs.map fun o => .obj o fun x => { x with pend := [], took := [] }

/-! ### Samples -/

/-- Coefficient k of the interpolator at phase δ = φ/256, in 2^-30 (R142). -/
def lagrange (phi : Nat) (k : Int) : Int :=
  let d : Rat := (phi : Rat) / 256
  let h := ([-3, -2, -1, 0, 1, 2, 3, 4] : List Int).foldl (fun a i => if i = k then a else a * ((d - i) / (k - i : Int))) 1
  (h * 1073741824 + 1 / 2).floor

/-- The interpolator's output from a line whose head is three samples ahead (R142), as a Q31 word. An overshoot beyond
Q31 is not cut before the gains (log 220). -/
def lineRead (line : List Int) (delay : Nat) : Int :=
  let d := delay / 65536
  let phi := delay % 65536 / 256
  if phi = 0 then line.getD (d + 3) 0 * 256
  else
    let y := ([-3, -2, -1, 0, 1, 2, 3, 4] : List Int).foldl (fun a k =>
      a + lagrange phi k * (line.getD ((d : Int) + 3 + k).toNat 0)) 0
    rounded Key.ren.DELAY_ENABLE ((y * 256 : Int) / (1073741824 : Rat))

/-- A word of a jitter buffer as it stands; one of a missing frame is zero. -/
def Stream.rawWord (x : Stream) (m : Int) (k : Nat) : Int :=
  match x.frames.find? fun y => y.idx == m with
  | some y => y.words.getD k 0
  | none => 0

/-- The stored word of an object for the output sample `d` after the one in work (R95): of the block cut off last, or, past
its end, as it stands in the jitter buffer (log 26). 24 bits (R114). -/
def State.objSample (s : State) (o d : Nat) : Int :=
  let x := s.obj o
  match x.sub with
  | none => 0
  | some i =>
    let n := s.sampleNow % s.B + d
    let st := s.stream i
    (if n < s.B then (st.blkNext.getD n []).getD x.place 0
     else st.rawWord (((s.sampleNow / s.B + 1) * s.B : Nat) + n - s.nL) x.place) / 256

/-- The object's line with the sample three ahead of the one in work at its head (R142); at the start of a block the first
three samples of that block are replaced by those cut off, concealment included (R106). -/
def State.objLine (s : State) (o : Nat) : List Int :=
  let old := (s.obj o).line
  let old := if s.sampleNow % s.B = 0 then [s.objSample o 2, s.objSample o 1, s.objSample o 0] ++ old.drop 3 else old
  (s.objSample o 3 :: old).take ((if s.fs = 96000 then 4096 else 2048) + 8)

/-- The air-absorption coefficient of a record for a block (R143); 1 = bypassed. -/
def State.airCoef (s : State) (m : MetaRec) : Rat :=
  let r := s.dist m
  let k : Rat := match m.air with
    | 1 => 2000000
    | 2 => 800000
    | 3 => 300000
    | _ => 0
  if k = 0 ∨ 20000 * r ≤ k then 1 else 1 - Config.real .decay (k / r / s.fs) 0

/-- A delay one sample later: it moves toward its target by at most 6,553 units (R141). -/
def delayStep (d t : Nat) : Nat := if d ≤ t then min t (d + 6553) else max t (d - 6553)

/-- One sample of an object: its line, delay, air filter and gains advance; the answer holds its share of each
channel's bus in 2^-58 (R116, R124, R142-R145). A slot that changes object fades the rendered object, whatever its samples
(R109, R124). `f` is the configuration that the play block is rendered with. While the air filter is bypassed its y follows the input,
so that a record that takes it up again starts from the signal (log 215). -/
def State.objStep (s f : State) (o : Nat) : Obj × List (Nat × Int) :=
  let x := s.obj o
  let line := s.objLine o
  let airA := if s.sampleNow % s.B = 0 then (match x.record with
    | some m => f.airCoef m
    | none => x.airA) else x.airA
  let delay := delayStep x.delay x.delayTarget
  let raw := lineRead line delay
  let y := if airA = 1 then raw else rounded 0x580A (x.air + airA * (raw - x.air))
  let mute := x.mute.step
  let gains := x.gains.map fun g => (g.1, g.2.step)
  let faded := if x.next.isSome then rounded 0x5800 ((y * (x.fadeLeft - 1 : Nat) : Int) / (s.B : Rat)) else y
  let gain := fun (r : Ramp) => (r.value * mute.value + 67108864) / 134217728
  ({ x with fadeLeft := x.fadeLeft - 1, line := line, delay := delay, air := y, airA := airA, mute := mute, gains := gains },
   gains.map fun g => (g.1, faded * gain g.2))

/-! ### Buses (R145, R193) -/

/-- The output sample on which the chains work at this instant (log 26). -/
def State.chainSample (s : State) : Nat := s.sampleNow + s.lead

/-- A group's shares in the order in which the chains take them: one for each sample between the chains' and the
renderer's. -/
def State.queue (s : State) (r : RGroup) : List (List Int) :=
  let n := s.B - s.lead
  (List.replicate (n - r.shares.length) [] ++ r.shares).drop (r.shares.length - n)

/-- What a group gives to the sixteen buses at output sample `w`, from its share `l`: a dropped group ramps from its last
share to zero and the next block that it serves fades in (R193). -/
def State.groupShare (s : State) (r : RGroup) (w : Nat) (l : List Int) : List Int :=
  let i := w % s.B
  let now := w / s.B = s.sampleNow / s.B
  let drop := if now then r.dropNow else r.dropNext
  let fade := if now then r.fadeNow else r.dropNow && !r.dropNext
  if drop then (if i < 16 then r.last.map fun v => rounded 0x5001 ((v * (15 - i) : Int) / (16 : Rat)) else [])
  else if fade ∧ i < 16 then l.map fun v => rounded 0x5001 ((v * i : Int) / (16 : Rat)) else l

/-- The bus of a channel at output sample `w`, the next that the chains take: the sum of the groups' shares, rounded to Q31
half up, before its saturation (R145, R146). -/
def State.busSum (s : State) (w c : Nat) : Int :=
  (s.units.rgroups.foldl (fun a p => a + (s.groupShare p.2 w ((s.queue p.2).headD [])).getD c 0) 0 + 67108864) / 134217728

/-- One sample of every object joins its group's queue (R116), under the configuration `f`. -/
def renderWork (f : State) : Phase := fun s =>
  let steps := s.liveObjs.map fun o => (o, s.objStep f o)
  let busy : List Nat := steps.map fun x => x.1 / 32
  let known : List Nat := s.units.rgroups.map fun p => p.1
  let groups := (busy ++ known).eraseDups
  let share := fun (g c : Nat) => (steps.filter fun x => x.1 / 32 == g).foldl (fun a x =>
    a + (match x.2.2.find? fun y => y.1 == c with
      | some y => y.2
      | none => 0)) 0
  let w := s.chainSample
  (steps.map fun x => .obj x.1 fun _ => x.2.1)
  ++ groups.map fun g => .rgroup g fun r =>
    let new := (List.range 16).map (share g)
    let q := s.queue r
    let rest := (q.drop 1 ++ [if new.all fun v => v == 0 then [] else new])
    { r with
      shares := if rest.all fun l => l.isEmpty then [] else rest,
      last := if w % s.B = s.B - 1 then s.groupShare r w (q.headD []) else r.last }

/-- The buses of the sixteen channels for the chains' sample (R145). -/
def busStrobe : Phase := fun s =>
  (List.range 16).flatMap fun c =>
    let v := s.busSum s.chainSample c
    [.chan c fun x => { x with bus := (sat32 v :: x.bus).take 34 }]
    ++ (if sat32 v = v then []
        else [.orBits Key.ren.BUS_CLIP (2 ^ c)]
          ++ (if (s.nat Key.ren.BUS_CLIP).testBit c then [] else [.event Ev.RENDER_CLIP (args16 [c])]))

/-- The state with media time at the instant of sample n. -/
def State.atSample (s : State) (n : Nat) : State :=
  { s with mtb := s.mtb + BitVec.ofInt 96 (((sampleTime s.fs n : Int) - s.now) * 2 ^ 32) }

/-- The changes of the objects at output sample `w` of the play block in work, under the configuration `f`. -/
def tookAt (f : State) (w : Nat) : Phase := fun s => s.liveObjs.flatMap fun o =>
  ((s.obj o).took.filter fun t => t.sample == w).map fun t => .obj o (f.takes o t)

/-- The objects and their groups after `n` samples of the play block in work, from output sample `w` on, rendered under the
configuration `f`. -/
def State.renderOn (s f : State) (w n : Nat) : State :=
  (List.range n).foldl (fun t k => (t.atSample (w + k - s.B)).does (phases [tookAt f (w + k), renderWork f])) s

/-- An object as it stood when the play block in work was last begun, with what has since changed beside its rendering. -/
def Obj.backTo (x y : Obj) (n : Nat) : Obj :=
  { y with sub := x.sub, next := x.next, place := x.place, pend := x.pend, strict := x.strict, fadeFrom := x.fadeFrom,
           fadeLeft := x.fadeLeft + n, took := x.took }

/-- The play block in work is rendered anew where the changes accepted for its boundary are no longer those that it was rendered with:
from its first sample, or from the first that the limiters' look-ahead has not taken (R40, R44, R174, log 182). -/
def renderAnew : Phase := fun s =>
  let r := s.units.rsnap
  if s.units.objs.isEmpty || r.sample / s.B != s.workSample / s.B || decide (s.workSample < r.sample)
      || r.items == s.renderItems then []
  else
    let w := max r.sample s.chainSample
    let now := s.units.objs
    let back := fun (p : Nat × Obj) => (p.1, p.2.backTo (Tbl.at {} r.objs p.1) (s.workSample - r.sample))
    let old := s.withItems r.items
    let mid := (({ s with units := { s.units with objs := now.map back } } : State).does
      (objsRetarget old r.sample)).renderOn old r.sample (w - r.sample)
    let new := s.foretold
    let last := ((mid.does (objsRetarget new w)).renderOn new w (s.workSample - w)).does (tookAt new s.workSample)
    let kept := s.B - s.lead - (s.workSample - w)
    [.unit fun u => { u with rsnap := ⟨w, mid.units.objs, s.renderItems⟩ }]
    ++ now.map (fun p => .obj p.1 fun x =>
        { last.obj p.1 with fadeLeft := x.fadeLeft, took := x.took.filter fun t => decide (w ≤ t.sample) })
    ++ last.units.rgroups.map fun p => .rgroup p.1 fun g =>
        let q := (s.queue g).take kept ++ (s.queue p.2).drop kept
        { g with shares := if q.all fun l => l.isEmpty then [] else q }

/-- The renderer at a sample instant (R116, R145, R193). -/
def renderStrobe : Phase := phases [renderAnew, busStrobe, fun s => renderWork s.foretold s]

end Sys2Proof.Machine
end

