-- ==== Sys2Proof/Machine/Streams.lean ====
section
/-!
DEFINITION. Machine/Streams.lean: the stream engine (R82-R115, R519): RTP and UOP packets, their checks and classes,
jitter buffers, redundant pairs, concealment, subscription states, fences, and the layout match (R37-R39).
-/

namespace Sys2Proof.Machine

/-- Whether the mode places streams (R82). -/
def Mode.places : Mode → Bool
  | .standby | .run | .holdover => true
  | _ => false

/-- Samples per packet of a PTIME code (Table 03-2). -/
def samplesPer (fs ptime : Nat) : Nat :=
  fs / (match ptime with
    | 0 => 8000
    | 1 => 4000
    | 2 => 3000
    | _ => 1000)

/-- The state of a subscription (Table 03-9). -/
def State.stState (s : State) (i : Nat) : Nat := s.nat (Key.st.STREAM_STATE i)

/-- Whether a subscription counts as lost (R108). -/
def State.isLost (s : State) (i : Nat) : Bool := s.stState i == 1 || s.stState i == 3 || s.stState i == 4

/-- The state of a channel's fallback (Table 05-5). -/
def State.fbState (s : State) (c : Nat) : Nat := s.nat (Key.cin.FB_STATE c)

/-- The network sources of a channel: the subscriptions of its stream-channel direct sources, and every enabled
object-stream subscription when it is mapped (R177). -/
def State.netSources (s : State) (c : Nat) : List Nat :=
  let d := ([0, 1, 2, 3].filter fun j => s.num (Key.cin.DIR_KIND c j) == 1).map fun j => s.nat (Key.cin.DIR_UNIT c j)
  let o := if (s.mapped c).isSome then s.usedSubs.filter fun i => s.num (Key.sub.KIND i) == 1 else []
  d.filter (fun i => decide (i < 128)) ++ o

/-- The windows of R177 and R179 follow the states of the network sources. -/
def netUpdate (c : Nat) : Phase := fun s =>
  let l := s.netSources c
  let lost := !l.isEmpty && l.all s.isLost
  let recv := l.all fun i => s.stState i == 2
  let t := some s.mtbNs
  let busy := s.fbState c == 1 || s.fbState c == 3
  let x := s.chan c
  let l1 := if lost && !busy then (if x.lostSince.isSome then x.lostSince else t) else none
  let r1 := if recv && !busy then (if x.recvSince.isSome then x.recvSince else t) else none
  (if (s.nat (Key.cin.NET_STATE c) == 1) = lost then [] else [.num (Key.cin.NET_STATE c) (if lost then 1 else 0)])
    ++ (if l1 = x.lostSince ∧ r1 = x.recvSince then []
        else [.chan c fun x => { x with lostSince := l1, recvSince := r1 }])

/-- A subscription's state changes, and the channels that it feeds follow (R108, R177, R179). -/
def setStream (i new : Nat) : Phase := fun s =>
  if s.stState i = new then []
  else phases [
    always [.nat (Key.st.STREAM_STATE i) new, .event Ev.STREAM_STATE_CHANGED (args16 [i, s.stState i, new])],
    forAll (List.range 16) netUpdate] s

/-- The primary of a subscription: itself when unpaired (R102). -/
def State.primary (s : State) (i : Nat) : Nat :=
  if s.nat (Key.sub.PAIR i) = 0xFF then i else s.nat (Key.sub.PAIR i)

/-- The enabled secondary of a subscription (R102). -/
def State.secondary (s : State) (i : Nat) : Option Nat :=
  s.usedSubs.find? fun j => j != i && s.nat (Key.sub.PAIR j) == i

/-- Whether a subscription receives: enabled, and its primary too (R102). -/
def State.receives (s : State) (i : Nat) : Bool :=
  s.flag (Key.sub.ENABLE i) && s.flag (Key.sub.ENABLE (s.primary i)) && s.mode.places

/-- Words of a frame of a subscription: channels or objects. -/
def State.words (s : State) (i : Nat) : Nat :=
  if s.num (Key.sub.KIND i) = 1 then s.nat (Key.sub.OBJ_COUNT i) else s.nat (Key.sub.CHANNELS i)

/-! ### Packets -/

/-- The RTP payload of a UDP payload of at least 12 bytes (R88); none where check 4 fails. -/
def rtpPayload (b : List Byte) : Option (List Byte) :=
  let b0 := beAt b 0 1
  let h := 12 + 4 * (b0 % 16)
  let ext := b0 / 16 % 2 = 1
  let h2 := if ext then h + 4 + 4 * beAt b (h + 2) 2 else h
  let pad := if b0 / 32 % 2 = 1 then beAt b (b.length - 1) 1 else 0
  if b.length < h ∨ (ext ∧ b.length < h + 4) ∨ b.length < h2 then none
  else if b0 / 32 % 2 = 1 ∧ (pad = 0 ∨ b.length < h2 + pad) then none
  else some (slice b h2 (b.length - pad - h2))

/-- A UOP header (Table 03-3). -/
structure Uop where
  layout : Nat
  first : Nat
  count : Nat
  width : Nat
  hasMeta : Bool
  samples : Nat
  scene : Nat
  offset : Nat
  deriving DecidableEq, Repr

/-- The UOP header of an RTP payload (R89). -/
def uopHeader (p : List Byte) : Uop :=
  let w := beAt p 4 4
  { layout := beAt p 0 4, first := bits w 31 20, count := bits w 19 14, width := if bits w 13 13 = 1 then 4 else 3,
    hasMeta := bits w 12 12 == 1, samples := bits w 11 0, scene := beAt p 8 2, offset := beAt p 10 2 }

/-- Where the metadata of a UOP payload begins (R90). -/
def Uop.metaAt (u : Uop) : Nat := 16 + u.samples * u.count * u.width

/-- The metadata record of object `j` of a UOP payload (Table 03-4). -/
def uopMeta (u : Uop) (p : List Byte) (j : Nat) : MetaRec :=
  let b := slice p (u.metaAt + 16 * j) 16
  { x := signed 16 (beAt b 0 2), y := signed 16 (beAt b 2 2), z := signed 16 (beAt b 4 2), gain := signed 16 (beAt b 6 2),
    spread := beAt b 8 1, flags := beAt b 9 1, ramp := beAt b 10 2, air := beAt b 12 1 }

/-- The checks 5 to 8 of an object packet (Table 03-8). -/
def uopFault (spp : Nat) (p : List Byte) : Option Nat :=
  let u := uopHeader p
  if p.length < 16 ∨ beAt p 12 1 ≠ 1 ∨ beAt p 13 3 ≠ 0 ∨ u.count = 0 ∨ 32 < u.count ∨ 4096 < u.first + u.count then some 5
  else if u.samples ≠ spp then some 6
  else if p.length ≠ u.metaAt + (if u.hasMeta then 16 * u.count else 0) then some 7
  else if u.hasMeta ∧ (List.range u.count).any (fun j =>
      let m := uopMeta u p j
      decide (180 < m.spread) || decide (64 ≤ m.flags) || beAt p (u.metaAt + 16 * j + 13) 3 != 0) then some 8
  else none

/-- Bytes per sample of a channel stream. -/
def State.chanWidth (s : State) (i : Nat) : Nat := if s.num (Key.sub.ENCODING i) = 1 then 2 else 3

/-- The code of the first check of Table 03-8 that a packet fails (R519). -/
def State.malformed (s : State) (i : Nat) (b : List Byte) (udpOk : Bool) : Option Nat :=
  let spp := samplesPer s.fs (s.nat (Key.sub.PTIME i))
  if b.length < 12 then some 4
  else if beAt b 0 1 / 64 ≠ 2 then some 1
  else if beAt b 1 1 % 128 ≠ s.nat (Key.sub.PAYLOAD_TYPE i) then some 2
  else if !udpOk then some 3
  else match rtpPayload b with
    | none => some 4
    | some p =>
      if s.num (Key.sub.KIND i) = 1 then uopFault spp p
      else
        let u := s.nat (Key.sub.CHANNELS i) * s.chanWidth i
        if p.length % u ≠ 0 then some 7 else if p.length / u ≠ spp then some 6 else none

/-- A stored word: left-justified, its low eight bits zero (R113). -/
def storedWord (b : List Byte) : Int := signed 32 (ofBe b * 256 ^ (4 - b.length) / 256 * 256 : Nat)

/-- The words of a packet, frame by frame: place in the frame and word (R86, R90, R92). -/
def State.packetWords (s : State) (i : Nat) (p : List Byte) : List (List (Nat × Int)) :=
  if s.num (Key.sub.KIND i) = 1 then
    let u := uopHeader p
    let f := s.nat (Key.sub.OBJ_FIRST i)
    (List.range u.samples).map fun n => (List.range u.count).filterMap fun j =>
      if f ≤ u.first + j ∧ u.first + j < f + s.nat (Key.sub.OBJ_COUNT i) then
        some (u.first + j - f, storedWord (slice p (16 + (n * u.count + j) * u.width) u.width))
      else none
  else
    let w := s.chanWidth i
    let c := s.nat (Key.sub.CHANNELS i)
    (List.range (p.length / (c * w))).map fun n => (List.range c).map fun k => (k, storedWord (slice p ((n * c + k) * w) w))

/-- Objects of a packet outside the subscription's range (R92). -/
def State.foreign (s : State) (i : Nat) (p : List Byte) : Bool :=
  let u := uopHeader p
  s.num (Key.sub.KIND i) == 1 && (decide (u.first < s.nat (Key.sub.OBJ_FIRST i))
    || decide (s.nat (Key.sub.OBJ_FIRST i) + s.nat (Key.sub.OBJ_COUNT i) < u.first + u.count))

/-! ### Placement -/

/-- The sample index of a packet's first sample (R93): the value congruent to its timestamp that lies nearest to the
latest sample instant, the lower of two equally near. -/
def State.unwrap (s : State) (i ts : Nat) : Int :=
  let n : Int := s.sampleIndex
  n + signed 32 ((ts : Int) - s.nat (Key.sub.RTP_OFFSET i) - n)

/-- The media time of a sample index, negative ones included. -/
def timeOf (fs : Nat) (n : Int) : Int := (n * 1000000000 + fs / 2) / fs

/-- The cut-off of a sample index (R96). -/
def State.cutoff (s : State) (m : Int) : Int := timeOf s.fs (((m + s.nL) / s.B - 1) * s.B)

/-- The lowest sample index whose cut-off has not passed at presented time `t` (R99, R10). -/
def State.mCut (s : State) (t : Nat) : Int := (firstAfter s.fs s.B t : Int) + s.B - s.nL

/-- The depth of a jitter buffer in frames (R99). -/
def State.depth (s : State) : Nat := if s.fs = 96000 then 4096 else 2048

/-- A jitter buffer with a frame whose words are written and whose presence bit is set (R99, R100). -/
def bufPut (l : List BufFrame) (f : BufFrame) : List BufFrame :=
  (l.filter fun x => decide (x.idx < f.idx)) ++ [f] ++ l.filter fun x => decide (f.idx < x.idx)

/-- Whether the presence bit of a sample index is clear (R99). -/
def absent (l : List BufFrame) (m : Int) : Bool := !l.any fun x => x.idx == m

/-- The words of a frame of `n` words that a packet brings: 0 where it carries none (R99, log 27). -/
def frameWords (n : Nat) (w : List (Nat × Int)) : List Int :=
  (List.range n).map fun k => match w.find? fun x => x.1 == k with
    | some x => x.2
    | none => 0

/-- The least margin of a second of presented media time is published at its end (Table 03-10). It is looked at where a packet arrives
and at the block boundaries of an enabled subscription: while the subscription is DISABLED the entry keeps its value (log 214). -/
def marginRoll (i : Nat) : Phase := fun s =>
  let sec := s.now / 1000000000
  let x := s.stream i
  if x.marginSec = sec then []
  else [.num (Key.st.MIN_MARGIN i) (if x.marginSec + 1 = sec then x.margin.getD 0x7FFFFFFF else 0x7FFFFFFF),
        .stream i fun x => { x with marginSec := sec, margin := none }]

/-- The margin of a packet that arrived at presented time `t`, which wraps where it does not fit the entry's S32 (log 213), counts in the second of its arrival (Table 03-10): the present
one, or the one that is published. -/
def marginNote (i t : Nat) (exact : Int) : Phase :=
  let margin := signed 32 exact
  phases [
  marginRoll i,
  fun s =>
    let sec := t / 1000000000
    if sec = (s.stream i).marginSec then
      [.stream i fun x => { x with margin := some (match x.margin with
        | some y => min y margin
        | none => margin) }]
    else if sec + 1 = (s.stream i).marginSec ∧ margin < s.num (Key.st.MIN_MARGIN i) then
      [.num (Key.st.MIN_MARGIN i) margin]
    else []]

/-! ### Pairs -/

/-- PATH_DIFF of an enabled pair and PATH_SKEW (R104). Where no first sample index of the last second arrived on both paths the
last mean stands (log 155). -/
def pathDiff (a : Nat) : Phase := fun s =>
  match s.secondary a with
  | none => []
  | some b =>
    let lately := fun (i : Nat) => (s.stream i).arrivals.filter fun y => decide (s.mtbNs < y.2 + 1000000000)
    let d := (lately b).filterMap fun y => ((lately a).find? fun z => z.1 == y.1).map fun z => (y.2 : Int) - z.2
    if d.isEmpty then []
    else
      let mean := rounded (Key.st.PATH_DIFF 0) ((d.foldl (· + ·) 0 : Int) / (d.length : Rat))
      [.num (Key.st.PATH_DIFF a) mean]
      ++ (if 5000000 < |mean| ∧ !(s.stream a).skewed then
            [.stream a fun x => { x with skewed := true }, .event Ev.PATH_SKEW (args16 [a] ++ le 4 mean)]
          else if |mean| < 4000000 ∧ (s.stream a).skewed then [.stream a fun x => { x with skewed := false }]
          else [])

/-- A packet whose first sample is `m` arrived at MTB instant `now` on the path of a subscription, whatever its class but
MALFORMED (R104). -/
def pathArrives (i : Nat) (m : Int) (now : Nat) : Phase := phases [
  always [.stream i fun x => { x with arrivals := (m, now) :: x.arrivals.filter fun y => decide (now < y.2 + 1000000000) }],
  readP (fun s => s.primary i) pathDiff]

/-- A path delivered a VALID or DUPLICATE packet at MTB instant `now`: in a pair it is UP (R104). -/
def pathDelivers (i now : Nat) : Phase := fun s =>
  (.stream i fun x => { x with pathLast := some now }) ::
    if (s.secondary (s.primary i)).isSome && s.flag (Key.st.PATH_STATE i) then
      [.num (Key.st.PATH_STATE i) 0, .event Ev.PATH_UP (args16 [i])] else []

/-- PATH_DOWN (R104): no VALID or DUPLICATE packet for LOSS_BLOCKS block periods since the last, or since the subscription
was enabled; one that arrives at the last instant of that time wins (R11). -/
def pathDown (i : Nat) : Phase := fun s =>
  let d := s.nat Key.eng.LOSS_BLOCKS * s.B * 1000000000 / s.fs
  if s.receives i && (s.secondary (s.primary i)).isSome && !s.flag (Key.st.PATH_STATE i)
      && (s.stream i).pathLast.any (fun t => s.expired t d) then
    [.num (Key.st.PATH_STATE i) 1, .event Ev.PATH_DOWN (args16 [i])]
  else []

/-! ### Fences (R110, R111) -/

/-- Whether the other member of a pair receives and is not fenced: it goes on with the shared jitter buffer (R110). -/
def State.partnerRuns (s : State) (i : Nat) : Bool :=
  (s.primary i :: (s.secondary (s.primary i)).toList).any fun j => j != i && s.receives j && s.stState j != 4

/-- A subscription is fenced at MTB instant `t` (R110). Its samples fade and its jitter buffer is emptied; the buffer of a
pair goes on while its other member runs. -/
def streamFence (i code t : Nat) : Phase := fun s => phases [
  setStream i 4,
  always [.stream i fun x => { x with fencedAt := some t, malTimes := [] }],
  always (if s.partnerRuns i then [] else [.stream (s.primary i) fun x => { x with fadeOut := true }]),
  always [.bump (Key.st.FENCE_COUNT i) 1, .event Ev.STREAM_FENCED (args16 [i, code])]] s

/-- A fence ends (R111): cause 0 = retry, 1 = controller, 2 = disabled. The jitter buffer of a pair is left to the member
that goes on. A fade that the fence has asked for and that no block boundary has made yet is still made at the next one, which empties the
jitter buffer again (log 218). -/
def streamUnfence (i cause : Nat) : Phase := fun s =>
  if s.stState i ≠ 4 then []
  else phases [
    always [.stream i fun x => { x with fencedAt := none, malTimes := [] }],
    always (if s.partnerRuns i then [] else [.stream i fun x => { x with frames := [], emptyBlocks := 0, present := 0 }]),
    setStream i (if cause = 2 then 0 else 1),
    always [.event Ev.STREAM_UNFENCED (args16 [i, cause])]] s

/-- STREAM_FENCE_RETRY (R111), as far as it has come at MTB instant `t`. -/
def streamRetryAt (i t : Nat) : Phase := fun s =>
  let r := s.nat Key.eng.FENCE_RETRY
  if r ≠ 0 ∧ (s.stream i).fencedAt.any (fun f => decide (f + r * 1000000000 ≤ t)) then streamUnfence i 0 s else []

/-- STREAM_FENCE_RETRY (R111). -/
def streamRetry (i : Nat) : Phase := fun s => streamRetryAt i s.mtbNs s

/-- A malformed packet that arrived at MTB instant `t` (R110, R519). -/
def streamMalformed (i code t : Nat) : Phase := fun s =>
  let l := t :: (s.stream i).malTimes.filter fun u => decide (t < u + 1000000000)
  phases [
    always [.bump (Key.st.MALFORMED i) 1, .nat (Key.st.LAST_MALFORMED i) code, .stream i fun x => { x with malTimes := l }],
    if s.nat Key.eng.MALFORMED_LIMIT ≤ l.length then streamFence i code t else always []] s

/-! ### Classes (R100) -/

/-- A VALID object packet that arrived at presented time `t` is to be compared with the layout active at its metadata
application instant `p`, which is deferred where metadata would be late (R37, R119); its samples begin at output sample
`first`. -/
def layoutNote (t i layout first p : Nat) : Phase := fun s =>
  let at' := if p / s.B < s.lateBlock t then s.lateBlock t * s.B else p
  [.stream i fun x => { x with layouts := x.layouts.takeWhile (fun y => decide (y.1 ≤ at'))
    ++ (at', first, layout) :: x.layouts.dropWhile (fun y => decide (y.1 ≤ at')) }]

/-- The object slots of a subscription that are not about to change object. -/
def State.objsOf (s : State) (i : Nat) : List Nat :=
  s.liveObjs.filter fun o => (s.obj o).sub == some i && (s.obj o).next.isNone

/-- The strict-layout mute of the objects of a subscription begins or ends (R39). -/
def strictSet (i : Nat) (on : Bool) : Phase := fun s => (s.objsOf i).map fun o => .obj o fun x => { x with strict := on }

/-- The block boundary from which a packet that matches ends a strict-layout mute: the one at which its samples begin, or the next one
where they begin inside a block, and not before the block that is rendered next (R39, log 152). -/
def State.unmuteFrom (s : State) (first : Nat) : Nat := max (s.blockSample + s.B) ((first + s.B - 1) / s.B * s.B)

/-- One comparison (R37-R39): a mismatch is counted and reported, with the layout ID as the four bytes that its
UOP field has (log 212), and mutes the objects under STRICT_LAYOUT; the first match ends that mute. -/
def layoutMatch (i first layout : Nat) : Phase := fun s =>
  if layout = 0 ∨ (layout : Int) = s.num Key.lay.LAYOUT_ID then
    (if (s.objsOf i).any fun o => (s.obj o).strict then
      [.stream i fun x => { x with unmuteAt := x.unmuteAt.or (some (s.unmuteFrom first)) }] else [])
  else phases [
    always [.bump Key.lay.MISMATCH_COUNT 1, .eventOnce Ev.LAYOUT_MISMATCH i (args16 [i] ++ le 4 layout),
      .stream i fun x => { x with unmuteAt := none }],
    if s.flag Key.lay.STRICT_LAYOUT then strictSet i true else always []] s

/-- The end of a strict-layout mute is looked for one block ahead: the comparisons whose instant lies in the next block, with the
layout that will then be active (R39, R40, log 182), so that a match can end the mute at the boundary at which its packet's samples
begin. The first match ends it; a mismatch after that match and before its end keeps it. The comparison itself is made when its block
begins. -/
def layoutsLook (i : Nat) : Phase := fun s =>
  let next := s.blockSample + s.B
  let id := s.foretold.num Key.lay.LAYOUT_ID
  if !(s.objsOf i).any fun o => (s.obj o).strict then []
  else
    let l := (s.stream i).layouts.filter fun x => decide (x.1 < next + s.B)
    let ends := l.foldl (fun (u : Option Nat) x =>
      if x.2.2 = 0 ∨ (x.2.2 : Int) = id then u.or (some (s.unmuteFrom x.2.1))
      else u.filter fun k => decide (k < (x.1 / s.B + 1) * s.B)) (s.stream i).unmuteAt
    [.stream i fun x => { x with unmuteAt := ends }]

/-- The comparisons whose instant lies in the block that begins, after the changes due at its boundary (R37, R40); then
the mutes that end with the play block that is rendered next (R39, R184). -/
def layoutsCompare (i : Nat) : Phase := fun s =>
  let stop := s.blockSample + s.B
  let now := (s.stream i).layouts.filter fun x => decide (x.1 < stop)
  phases [
    always [.stream i fun x => { x with layouts := x.layouts.filter fun y => decide (stop ≤ y.1) }],
    forAll now (fun x => layoutMatch i x.2.1 x.2.2),
    layoutsLook i,
    (fun s => match (s.stream i).unmuteAt with
      | some k => if k ≤ s.blockSample + s.B then
          phases [always [.stream i fun x => { x with unmuteAt := none }], strictSet i false] s else []
      | none => [])] s

/-- The slot that carries a room object ID of a subscription, while it holds that object (R84, R124). -/
def State.slotOf (s : State) (i id : Nat) : Option Nat :=
  match s.assignment.findIdx? fun x => x.1 == i && x.2 == id with
  | none => none
  | some q => if s.nat (Key.obj.OBJ_ID q) = id then some q else none

/-- The metadata of a VALID object packet that arrived at presented time `t` goes to the renderer (R91, R101). Its layout ID is
compared, counted and reported under the primary's number, whichever path brought it (R38, log 188). -/
def packetMeta (t i : Nat) (u : Uop) (p : List Byte) (m : Int) : Phase := phases [
  fun s => layoutNote t (s.primary i) u.layout (m + s.nL).toNat (m + u.offset + s.nL).toNat s,
  always [.nat (Key.st.LAST_SCENE_SEQ i) u.scene],
  if u.hasMeta then forAll (List.range u.count) (fun j s => match s.slotOf (s.primary i) (u.first + j) with
    | none => []
    | some q => metaDeliver t q (m + u.offset + s.nL).toNat (uopMeta u p j) s) else always []]

/-- The SSRC of a VALID packet (R519); enabling a subscription forgets the one before (log 153). -/
def packetSsrc (i ssrc : Nat) : Phase := fun s =>
  let x := s.stream i
  let changed := match x.ssrcSeen with
    | some r => r != ssrc
    | none => false
  [.nat (Key.st.SSRC i) ssrc, .stream i fun x => { x with ssrcSeen := some ssrc }]
    ++ (if changed then [.bump (Key.st.SSRC_CHANGES i) 1, .event Ev.SSRC_CHANGED (args16 [i] ++ le 4 ssrc)] else [])

/-- The frames that a packet brings: sample index and words (R92, R93). -/
def State.packetFrames (s : State) (i : Nat) (b p : List Byte) : List (Int × List (Nat × Int)) :=
  (s.packetWords i p).zipIdx.map fun (w, j) => (s.unwrap i (beAt b 4 4) + (j : Nat), w)

/-- What a packet of the secondary `b` of the pair of `a` finds, before it is taken as VALID (R101, R103). -/
def undoNote (at' a b : Nat) : Phase := fun s =>
  [.stream b fun x => { x with undo := some {
    tick := at', scene := s.num (Key.st.LAST_SCENE_SEQ b), ssrc := s.num (Key.st.SSRC b), seen := x.ssrcSeen,
    changes := s.num (Key.st.SSRC_CHANGES b), layouts := (s.stream a).layouts,
    objs := (s.liveObjs.filter fun o => (s.obj o).sub == some a).map fun o =>
      (o, (s.obj o).pend, s.num (Key.obj.META_LATE o), s.num (Key.obj.META_OVERFLOW o)) } }]

/-- A packet of the secondary `b` of the pair of `a` that was VALID is DUPLICATE after all: its metadata, scene, SSRC and layout ID are
discarded (R101). -/
def undoTake (a b : Nat) (u : Undo) : Phase := fun s =>
  [.num (Key.st.LAST_SCENE_SEQ b) u.scene, .num (Key.st.SSRC b) u.ssrc, .num (Key.st.SSRC_CHANGES b) u.changes,
   .stream b fun x => { x with ssrcSeen := u.seen, undo := none }, .stream a fun x => { x with layouts := u.layouts }]
  ++ u.objs.flatMap fun x =>
    [.obj x.1 fun y => { y with pend := x.2.1 },
     .bump Key.ren.META_LATE_TOTAL (min 0 (x.2.2.1 - s.num (Key.obj.META_LATE x.1))),
     .num (Key.obj.META_LATE x.1) (min x.2.2.1 (s.num (Key.obj.META_LATE x.1))),
     .num (Key.obj.META_OVERFLOW x.1) (min x.2.2.2 (s.num (Key.obj.META_OVERFLOW x.1)))]

/-- The packet of the secondary of a pair that arrived on the reference tick of the primary's copy (MTB instant `at'`) loses its
frames to that copy; once none is left to it, it is DUPLICATE (R103, log 180). `taken` are the sample indices that the primary's
copy writes. -/
def rivalYields (a at' : Nat) (taken : List Int) (late : Nat) : Phase := fun s =>
  let mine := (s.stream a).frames.filter fun x => x.rival == some at'
  match s.secondary a with
  | none => []
  | some b =>
    if mine.isEmpty || mine.any (fun x => !taken.contains x.idx) then []
    else phases [
      always [.bump (Key.st.VALID b) (-1), .bump (Key.st.LATE_SAMPLES b) (-(late : Int)), .bump (Key.st.DUPLICATE b) 1],
      match (s.stream b).undo with
      | some u => if u.tick = at' then undoTake a b u else always []
      | none => always []] s

/-- A packet that arrived at MTB instant `at'` and passed every check is classified and placed (R92, R97, R99-R104). A packet
with no object in the range is DUPLICATE and has no place, so it has no margin (log 181). -/
def packetPlace (at' i : Nat) (b p : List Byte) : Phase := fun s =>
  let a := s.primary i
  let t := s.presented at'
  let m := s.unwrap i (beAt b 4 4)
  let cut := s.mCut t
  let idx := s.packetFrames i b p
  let n : Int := idx.length
  let live := idx.filter fun x => decide (cut ≤ x.1)
  let rival : Option Nat := if a = i then none else some at'
  let fresh := live.filter fun x => absent (s.stream a).frames x.1
    || (a == i && (s.stream a).frames.any fun f => f.idx == x.1 && f.rival == some at')
  let mark : List Effect := if a = i then []
    else live.map fun x => .stream i fun y => { y with frames := bufPut y.frames { idx := x.1 } }
  let deliver : Phase := phases [pathArrives i m at', pathDelivers i at']
  phases [
    always (if s.foreign i p then [.bump (Key.st.FOREIGN_OBJ_PKTS i) 1] else []),
    if ((idx.map fun x => x.2).headD []).isEmpty then phases [always [.bump (Key.st.DUPLICATE i) 1], deliver]
    else phases [
      marginNote i t (s.cutoff m - t),
      if cut + s.depth ≤ m + n - 1 then phases [always [.bump (Key.st.EARLY i) 1], pathArrives i m at']
      else if m + n - 1 < cut then phases [always [.bump (Key.st.LATE i) 1], pathArrives i m at']
      else if fresh.isEmpty then phases [always (.bump (Key.st.DUPLICATE i) 1 :: mark), deliver]
      else phases [
        rivalYields a at' (fresh.map fun x => x.1) (idx.length - live.length),
        always (mark ++ [.bump (Key.st.VALID i) 1, .bump (Key.st.LATE_SAMPLES i) (idx.length - live.length : Nat),
          .stream a fun x => { x with
            frames := fresh.foldl (fun f y => bufPut f { idx := y.1, rival := rival, words := frameWords (s.words a) y.2 })
              x.frames }]),
        if a = i then always [] else undoNote at' a i,
        packetSsrc i (beAt b 8 4),
        if s.num (Key.sub.KIND i) = 1 then packetMeta t i (uopHeader p) p m else always [],
        deliver]]] s

/-- STREAM_PACKET (R82, R97, R100, R110, R519): the UDP payload of a packet matched to a subscription, which arrived at MTB
instant `at'`. A retry due by then comes first, so that a packet of its instant counts after it (R11, R111). -/
def streamPacket (at' i : Nat) (b : List Byte) (udpOk : Bool) : Phase := fun s =>
  if !s.receives i then []
  else phases [
    always [.bump (Key.st.RX_PACKETS i) 1],
    streamRetryAt i at',
    fun s =>
      if s.stState i = 4 then []
      else match s.malformed i b udpOk with
        | some code => streamMalformed i code at' s
        | none => packetPlace at' i b ((rtpPayload b).getD []) s] s

/-! ### Blocks (R106-R109) -/

/-- The words of a frame with concealment and fade-in, `pos` frames after the last missing one (R106); none = missing. -/
def concealFrame (B n : Nat) (f : Option (List Int)) (pos : Nat) : List Int × Nat :=
  match f with
  | none => (List.replicate n 0, 0)
  | some w => (if B ≤ pos then w else w.map fun v => rounded 0x2100 ((v * pos : Int) / (B : Rat)), min (pos + 1) B)

/-- Frames in order with concealment and fade-in. -/
def concealBlock (B n : Nat) : List (Option (List Int)) → Nat → List (List Int) × Nat
  | [], pos => ([], pos)
  | f :: t, pos =>
    let (v, pos) := concealFrame B n f pos
    let (l, pos) := concealBlock B n t pos
    (v :: l, pos)

/-- The block of a subscription that is cut off at this boundary (R96, R106, R108, R109): it plays one block from now,
and the one cut off before plays from now on. Missing frames count in WAITING too, and in FENCED only
while the other member of a pair goes on (log 154). -/
def streamCut (i : Nat) : Phase := fun s =>
  let x := s.stream i
  let on := s.receives i && s.stState i != 0
  let n := s.words i
  let m0 : Int := (s.blockSample : Int) + s.B - s.nL
  let fs := (List.range s.B).map fun j => (x.frames.find? fun y => y.idx == m0 + (j : Nat)).map fun y => y.words
  let got := fs.any Option.isSome
  let missing := (fs.filter Option.isNone).length
  let (blk, present) := concealBlock s.B n fs x.present
  let faded := if x.fadeOut then blk.zipIdx.map fun (f, j) => f.map fun v => rounded 0x2100 ((v * (s.B - 1 - j : Nat) : Int) / (s.B : Rat)) else blk
  let primary := s.primary i = i
  if !on ∧ !x.fadeOut then
    (if x.blkNow = [] ∧ x.blkNext = [] ∧ !x.fading ∧ x.tail = [] then []
     else [.stream i fun x => { x with blkNow := x.blkNext, blkNext := [], fading := false, tail := x.blkNow.getLastD [] }])
  else phases [
    always [.stream i fun x => { x with
      tail := x.blkNow.getLastD [], blkNow := x.blkNext, blkNext := if primary then faded else [],
      frames := if x.fadeOut then [] else x.frames.filter fun y => decide (m0 + s.B ≤ y.idx),
      present := present, fadeOut := false, fading := x.fadeOut,
      emptyBlocks := if got then 0 else x.emptyBlocks + 1 }],
    if on then phases [marginRoll i, if primary then pathDiff i else always []] else always [],
    always (if on ∧ primary ∧ missing ≠ 0 ∧ (s.stState i ≠ 4 ∨ s.partnerRuns i) then
      [.bump (Key.st.MISSING_SAMPLES i) missing] else []),
    if on ∧ got ∧ (s.stState i = 1 ∨ s.stState i = 3) then setStream i 2 else always []] s

/-- STREAM_LOST (Table 03-9): LOSS_BLOCKS consecutive play blocks with no received sample. -/
def streamLost (i : Nat) : Phase := fun s =>
  if s.stState i = 2 ∧ s.nat Key.eng.LOSS_BLOCKS ≤ (s.stream i).emptyBlocks then setStream i 3 s else []

/-- The subscriptions with any state or setting. -/
def State.knownSubs (s : State) : List Nat :=
  (s.units.streams.map fun p => p.1) ++ s.usedSubs.filter fun i => !(s.units.streams.any fun p => p.1 == i)

/-- A subscription begins or ends to receive (R102, R108, R109, R111, R39). What is left of its pair's PATH_STATE and PATH_DIFF
stands (log 155). -/
def streamEnable (i : Nat) (on : Bool) : Phase := fun s =>
  if on then
    if s.mode.places && s.stState i == 0 then phases [
      always [.stream i fun x => { x with
        frames := [], present := 0, emptyBlocks := 0, malTimes := [], ssrcSeen := none, pathLast := some s.mtbNs, arrivals := [],
        fadeOut := false, layouts := [], unmuteAt := none }],
      setStream i 1] s else []
  else if s.stState i = 4 then phases [streamUnfence i 2, always [.stream i fun x => { x with layouts := [], unmuteAt := none }]] s
  else if s.stState i = 0 then []
  else phases [
    always [.stream i fun x => { x with fadeOut := true, layouts := [], unmuteAt := none }], setStream i 0] s

/-- A subscription follows its own ENABLE and that of its primary (R102). -/
def streamFollows (i : Nat) : Phase := fun s => streamEnable i (s.receives i) s

/-- A subscription and the secondaries that name it: those that a commit of its ENABLE concerns (R102). -/
def State.withSecondaries (s : State) (i : Nat) : List Nat :=
  i :: s.usedSubs.filter fun j => j != i && s.nat (Key.sub.PAIR j) == i

/-- The subscriptions at a change of mode (R82, R111, Table 03-9). -/
def streamsMode (on : Bool) : Phase := fun s =>
  forAll s.knownSubs (fun i s =>
    if on then (if s.receives i then streamEnable i true s else [])
    else if s.stState i = 4 then phases [streamUnfence i 2, strictSet i false] s
    else phases [setStream i 0, always [.stream i fun x => { x with
      frames := [], present := 0, fadeOut := false, layouts := [], unmuteAt := none }], strictSet i false] s) s

/-- The subscriptions on entry into MEASURE, which disables them with their fade and their mutes (R39, R82, R109, R305). -/
def streamsMeasure : Phase := fun s => forAll s.knownSubs (fun i => phases [streamEnable i false, strictSet i false]) s

/-- Every enabled subscription is placed afresh after a re-anchor (R109); comparisons of the old grid go with the pending
metadata (R123), and a mute that a match has ended ends at the next boundary. A FENCED subscription stays FENCED, which
R111 alone ends (log 216). -/
def streamsReanchor : Phase := fun s => forAll s.knownSubs (fun i => phases [
  always [.stream i fun x => { x with layouts := [], unmuteAt := x.unmuteAt.map fun _ => 0 }],
  fun s => if s.stState i = 2 ∨ s.stState i = 3 then
    phases [always [.stream i fun x => { x with emptyBlocks := 0 }], setStream i 1] s else []]) s

/-- The counters of a subscription clear (R112, Table 03-10). -/
def streamClear (i : Nat) : Phase := always
  ((List.range 9).map (fun j => Effect.num (Key.st.RX_PACKETS i + j) 0)
    ++ [.num (Key.st.SSRC_CHANGES i) 0, .num (Key.st.FENCE_COUNT i) 0, .num (Key.st.FOREIGN_OBJ_PKTS i) 0])

/-- STRICT_LAYOUT that takes effect as 0 ends every strict-layout mute (R39). -/
def strictEnds : Phase := fun s =>
  (s.units.streams.map fun p => .stream p.1 fun x => { x with unmuteAt := none })
    ++ s.liveObjs.map fun o => .obj o fun x => { x with strict := false }

/-! ### What a commit of subscriptions may not do (R85, R98, R102) -/

/-- The channels and objects that count under R85. -/
def State.totalChannels (s : State) : Nat :=
  ((s.usedSubs.filter s.placing).map s.words).foldl (· + ·) 0

/-- Whether two subscriptions match the same packets on one MAC (R85). -/
def State.sameFlow (s : State) (i j : Nat) : Bool :=
  s.num (Key.sub.PORT i) == s.num (Key.sub.PORT j) && s.num (Key.sub.DEST_ADDR i) == s.num (Key.sub.DEST_ADDR j)
    && s.num (Key.sub.DEST_PORT i) == s.num (Key.sub.DEST_PORT j)
    && (s.num (Key.sub.SOURCE_ADDR i) == 0 || s.num (Key.sub.SOURCE_ADDR j) == 0
        || s.num (Key.sub.SOURCE_ADDR i) == s.num (Key.sub.SOURCE_ADDR j))

/-- Whether two subscriptions are a pair (R102). -/
def State.paired (s : State) (i j : Nat) : Bool :=
  s.nat (Key.sub.PAIR i) == j || s.nat (Key.sub.PAIR j) == i

/-- Whether the pair rules of R102 break at a subscription that names a primary. -/
def State.pairBroken (s : State) (i : Nat) : Bool :=
  let a := s.nat (Key.sub.PAIR i)
  if a = 0xFF then false
  else
    let same := fun (k : Nat → Nat) => s.num (k i) == s.num (k a)
    !(s.num (Key.sub.PORT a) == 0 && s.num (Key.sub.PORT i) == 1 && s.nat (Key.sub.PAIR a) == 0xFF && a != i
      && same Key.sub.KIND && same Key.sub.ENCODING && same Key.sub.CHANNELS && same Key.sub.PTIME
      && same Key.sub.RTP_OFFSET && same Key.sub.PAYLOAD_TYPE && same Key.sub.OBJ_FIRST && same Key.sub.OBJ_COUNT)
    || (List.range 128).any fun j => j != i && s.nat (Key.sub.PAIR j) == a

/-- The refusal of a configuration by the rules of subscriptions (R85, R98, R102): the status and the entry that
failed, or none. An enabled secondary whose primary is disabled counts as enabled for R98 and for two subscriptions of one flow; overlap of
objects is tested among those that place (log 217). -/
def State.subsFault (s : State) : Option (Nat × Nat) :=
  let l := s.usedSubs
  let p := l.filter s.placing
  let obj := p.filter fun i => s.num (Key.sub.KIND i) == 1
  let chan := p.filter fun i => s.num (Key.sub.KIND i) == 0
  let big := s.fs = 96000
  let objs := (obj.map s.words).foldl (· + ·) 0
  let last := fun i => s.nat (Key.sub.OBJ_FIRST i) + s.nat (Key.sub.OBJ_COUNT i)
  let long := fun i => decide (1990 < s.words i * samplesPer s.fs (s.nat (Key.sub.PTIME i)) * s.chanWidth i)
  let late := fun i => decide (s.nL < 2 * s.B + samplesPer s.fs (s.nat (Key.sub.PTIME i)) + (if big then 12 else 6))
  let overlap := fun j => obj.any fun i => decide (i < j) && decide (s.nat (Key.sub.OBJ_FIRST i) < last j)
      && decide (s.nat (Key.sub.OBJ_FIRST j) < last i)
  let double := fun j => l.any fun i => decide (i < j) && !s.paired i j && s.sameFlow i j
  let found := fun (st : Nat) (k : Nat → Nat) (i : Option Nat) => i.map fun i => (st, k i)
  [if (if big then 320 else 640) < s.totalChannels ∨ (if big then 256 else 512) < objs then
     found St.range Key.sub.ENABLE (p.getLast?) else none,
   found St.range Key.sub.OBJ_COUNT (obj.find? fun i => decide (4096 < last i)),
   found St.range Key.sub.CHANNELS (chan.find? long),
   found St.range (fun _ => Key.eng.LINK_OFFSET) (l.find? late),
   found St.conflict Key.sub.OBJ_FIRST (obj.find? overlap),
   found St.conflict Key.sub.DEST_ADDR (l.find? double),
   found St.conflict Key.sub.PAIR ((List.range 128).find? s.pairBroken)].findSome? id

end Sys2Proof.Machine
end

