-- ==== Sys2Proof/Machine/Chain.lean ====
section
/-!
DEFINITION. Machine/Chain.lean: the channel chain (R152-R182): stages 1 to 8, one sample at a time, the changes at zero
crossings, the FIR and delay crossfades, fallback feeds and pinned ceilings.
-/

namespace Sys2Proof.Machine

/-- Whether the chains run (R153). -/
def Mode.chains : Mode → Bool
  | .standby | .run | .measure | .holdover => true
  | _ => false

/-! ### Sources (R156, R157) -/

/-- The output sample that a channel's chain takes next (log 26). -/
def State.chainNext (s : State) (c : Nat) : Nat :=
  if (s.chan c).worked = some s.chainSample then s.chainSample + 1 else s.chainSample

/-- The value of a source for output sample `w` of the chains; `back` is how long ago its port frame was delivered (R156,
R157, R181). A channel stream plays the blocks that were cut off while it was valid; other sources contribute zero. -/
def State.sourceValue (s : State) (w back kind unit index : Nat) : Int :=
  let n := w - s.sampleNow / s.B * s.B
  match kind with
  | 1 => if s.num (Key.sub.KIND unit) ≠ 0 then 0
    else (if n < s.B then (s.stream unit).blkNow.getD n [] else (s.stream unit).blkNext.getD (n - s.B) []).getD index 0
  | 2 => if s.slotValid unit index then s.slotBack unit index back else 0
  | 3 => if unit < 2 ∧ index < 2 then s.slotBack (unit + 4) index back else 0
  | _ => 0

/-- The kind, unit and index of source j of a channel: 0-3 direct, 4 the fallback source. -/
def State.sourceOf (s : State) (c j : Nat) : Nat × Nat × Nat :=
  if j = 4 then (s.usedNat (Key.cin.FB_KIND c), s.usedNat (Key.cin.FB_UNIT c), s.usedNat (Key.cin.FB_INDEX c))
  else (s.usedNat (Key.cin.DIR_KIND c j), s.usedNat (Key.cin.DIR_UNIT c j), s.usedNat (Key.cin.DIR_INDEX c j))

/-- The signals of source j before its gain at output sample `w`, each with the kind of source that gives it: two while an old source
fades out beside the new one (R362, R363). -/
def State.sourceParts (s : State) (c w back j : Nat) : List (Nat × Rat) :=
  let value := fun (t : Nat × Nat × Nat) => ((s.sourceValue w back t.1 t.2.1 t.2.2 : Int) : Rat)
  let new := s.sourceOf c j
  match (s.chan c).srcFade.find? fun f => f.1 == j with
  | none => [(new.1, value new)]
  | some (_, old, both, n) =>
    (new.1, value new * (n + 1) / 32) :: (if both then [(old.1, value old * (31 - n : Int) / 32)] else [])

/-- A factor that an entry gives, with the ramp of a change that timed out (R362). -/
def State.factor (s : State) (c key : Nat) (f : Int → Rat) : Rat :=
  let new := f (s.usedNum key)
  match (s.chan c).ramps.find? fun r => r.1 == key with
  | none => new
  | some (_, old, n) => f old.int + (new - f old.int) * (n + 1) / 32

/-- Whether a switch factor is 1. -/
def onOff (v : Int) : Rat := if v = 0 then 0 else 1

/-- The gain of source j. -/
def State.sourceGain (s : State) (c j : Nat) : Rat :=
  s.factor c (if j = 4 then Key.cin.FB_GAIN c else Key.cin.DIR_GAIN c j) dbFactor

/-- The share of the fallback source in the sum: its crossfade runs linearly (R178, R179). -/
def State.fbShare (s : State) (c : Nat) : Rat :=
  let x := s.chan c
  let w : Rat := if x.fbLen = 0 then 1 else ((x.fbLen - x.fbLeft : Nat) + 1 : Rat) / x.fbLen
  let w := if x.fbLeft = 0 then 1 else min 1 w
  match s.fbState c with
  | 1 => if x.fbLen = 0 then 0 else w
  | 2 => 1
  | 3 => if x.fbLen = 0 then 1 else 1 - w
  | _ => 0

/-- What the generators inject at a channel point (0 = channel input, 1 = modulator input), in 2^-31 (R313, R322). -/
def State.injected (s : State) (point c : Nat) : Int :=
  ([0, 1, 2, 3].filter fun g => (s.gen g).point == point && (s.gen g).target.testBit c).foldl
    (fun a g =>
      let x := s.gen g
      a + (if x.mv = 0 then x.out else rounded 0x9010 ((x.out * x.mv : Int) / (s.num (Key.gn.V_FS c) : Rat)))) 0

/-- What stage 1 adds up for one sample (R156): the signals of sources 0-4 before their gains, the bus, the exact sum of the
network sources, the fallback source times its gain, and the exact sum of all. -/
structure InputSum where
  srcs : List Rat := []
  bus : Int := 0
  net : Rat := 0
  fb : Rat := 0
  all : Rat := 0

/-- Stage 1 at output sample `w` with the renderer bus `bus` (R156, R178), and the generators of its channel input (R313). A source that
fades out counts by its own kind. -/
def State.inputSum (s : State) (c w back : Nat) (bus : Int) : InputSum :=
  let parts := [0, 1, 2, 3, 4].map (s.sourceParts c w back)
  let sum := fun (p : Nat → Bool) (j : Nat) => (parts.getD j []).foldl (fun a x => if p x.1 then a + x.2 else a) 0
  let part := fun (p : Nat → Bool) => ([0, 1, 2, 3].map fun j => sum p j * s.sourceGain c j).foldl (· + ·) 0
  let net : Rat := (bus : Rat) * s.factor c (Key.cin.RENDER_EN c) onOff + part (fun k => k == 1)
  let fb := s.fbShare c
  let feed := sum (fun _ => true) 4 * s.sourceGain c 4
  { srcs := [0, 1, 2, 3, 4].map (sum fun _ => true), bus := bus, net := net, fb := feed,
    all := part (fun k => k == 2 || k == 3) + (1 - fb) * net + (if fb = 0 then 0 else fb * feed) + s.injected 0 c }

/-! ### The configuration of a play block (R184) -/

/-- The sections of a channel in use (R162). -/
def State.sections (s : State) (c : Nat) : List Nat :=
  (List.range 32).filter fun k => !(s.nat (Key.bq.BQ_BYPASS c)).testBit k

/-- Taps, shift and coefficient blob of FIR bank 0 (A) or 1 (B). -/
def State.bank (s : State) (c b : Nat) : Nat × Nat × List Byte :=
  if b = 0 then (s.nat (Key.fir.FIR_TAPS_A c), s.nat (Key.fir.FIR_SHIFT_A c), s.blob (Key.fir.FIR_COEF_A c))
  else (s.nat (Key.fir.FIR_TAPS_B c), s.nat (Key.fir.FIR_SHIFT_B c), s.blob (Key.fir.FIR_COEF_B c))

/-- Samples of the delay of stage 5 (R167): halves rounded up. -/
def State.delaySamples (s : State) (c : Nat) : Nat :=
  (2 * (s.nat (Key.dly.ALIGN_DELAY c) + s.delayTrim c) * s.fs + 1000000000) / 2000000000

/-- The level T of the limiter in 2^-31, with the filtered bus voltage of the last block boundary (R174, R237). -/
def State.limLevel (s : State) (c : Nat) : Rat :=
  let t := dbFactor (s.num (Key.dly.LIM_THRESHOLD c))
  let b := 95 / 100 * ((s.group (c / 4)).vFilt : Rat) / 1048576 * 1000 / s.nat (Key.gn.V_FS c)
  2147483648 * (if s.flag (Key.dly.LIM_BUS_TRACK c) then min t b else t)

/-- The parameters of the velocity model: Bl, Re, Mms in use, target f and Q, V_FS, fs; none without a driver model (R257). -/
def State.velParams (s : State) (c : Nat) : Option (List Rat) :=
  let n := fun k => (s.num (k c) : Rat)
  if s.num (Key.drv.RE_REF c) = 0 ∨ s.num (Key.drv.MMS_USED c) = 0 then none
  else
    let f := if s.num (Key.drv.FS_TARGET c) = 0 then n Key.drv.FS else n Key.drv.FS_TARGET
    let q := if s.num (Key.drv.Q_TARGET c) = 0 then n Key.drv.QTS else n Key.drv.Q_TARGET
    some [n Key.drv.BL_USED, n Key.drv.RE_REF, n Key.drv.MMS_USED, f, q, n Key.gn.V_FS, s.fs]

/-- The configuration with which play block `j` of a channel is processed: what stands now (R162, R165, R167, R174). -/
def State.chainCfg (s : State) (c j : Nat) : ChainCfg :=
  let st := s.nat (Key.fir.FIR_STATE c)
  { block := j,
    sections := (s.sections c).map fun k => (k, [Key.bq.BQ_B0, Key.bq.BQ_B1, Key.bq.BQ_B2, Key.bq.BQ_A1, Key.bq.BQ_A2].map fun f => s.get (f c k)),
    bankA := s.bank c 0, bankB := s.bank c 1, firNew := if st = 1 ∨ st = 2 then 1 else 0, firFades := decide (2 ≤ st),
    delay := s.delaySamples c, split := s.num (Key.gn.EXC_SPLIT c), level := s.limLevel c, release := s.nat (Key.dly.LIM_RELEASE c),
    vel := s.velParams c }

/-- The configuration in force for output sample `w`: the one taken at the start of its play block. -/
def State.cfgFor (s : State) (c w : Nat) : ChainCfg :=
  match (s.chan c).cfg with
  | some g => if g.block = w / s.B then g else s.chainCfg c (w / s.B)
  | none => s.chainCfg c (w / s.B)

/-- The channel with the configuration for output sample `w`; a delay that has changed begins its crossfade (R168). -/
def Chan.turn (x : Chan) (g : ChainCfg) (B : Nat) : Chan :=
  match x.cfg with
  | some h => if h.block = g.block then x
    else if h.delay = g.delay then { x with cfg := some g } else { x with cfg := some g, oldDelay := h.delay, delayFade := B }
  | none => { x with cfg := some g }

/-! ### Filters (R158-R168) -/

/-- A product in 2^-62 in the accumulator (R160). -/
def align (p : Int) (s : Int) : Int :=
  if s ≤ 31 then p * 2 ^ (31 - s).toNat else (p + 2 ^ (s - 32).toNat) / 2 ^ (s - 31).toNat

/-- A product of a sample with a coefficient, aligned. -/
def coefTimes (v : Value) (x : Int) : Int :=
  match v with
  | .coef m s => align (m * x) s
  | _ => 0

/-- One sample of a biquad section with coefficients B0, B1, B2, A1, A2: state, output, and whether it saturated (R159,
R160). -/
def biquad (q : List Value) (st : Int × Int × Int × Int) (x : Int) : (Int × Int × Int × Int) × Int × Bool :=
  let (x1, x2, y1, y2) := st
  let k := fun i => coefTimes (q.getD i (.coef 0 31))
  let r := (k 0 x + k 1 x1 + k 2 x2 - k 3 y1 - k 4 y2 + 1073741824) / 2147483648
  ((x, x1, sat32 r, y1), sat32 r, sat32 r != r)

/-- Every section in use, in ascending number; one that is not in use has no state (R162). -/
def Chan.biquads (x : Chan) (g : ChainCfg) (v : Int) : List (Nat × Int × Int × Int × Int) × Int × Bool :=
  g.sections.foldl (fun (a : List (Nat × Int × Int × Int × Int) × Int × Bool) k =>
    let st := match x.bq.find? fun b => b.1 == k.1 with
      | some b => b.2
      | none => (0, 0, 0, 0)
    let (st, y, clipped) := biquad k.2 st a.2.1
    (a.1 ++ [(k.1, st)], y, a.2.2 || clipped)) ([], v, false)

/-- The exact output of a bank over an input history, newest first (R163). -/
def firOut (bank : Nat × Nat × List Byte) (h : List Int) : Rat :=
  let (taps, shift, coef) := bank
  if taps = 0 then ((h.headD 0 : Int) : Rat)
  else
    let sum := (h.take taps).zipIdx.foldl (fun a (x, k) => a + x * signed 32 (leAt coef (4 * k) 4)) (0 : Int)
    (sum * 2 ^ shift : Int) / (2147483648 : Rat)

/-- Stage 4 (R163, R165): the bank in use, or the crossfade of both, `left` of whose `len` samples remain. -/
def ChainCfg.fir (g : ChainCfg) (len left : Nat) (h : List Int) : Rat :=
  let new := if g.firNew = 1 then g.bankB else g.bankA
  let old := if g.firNew = 1 then g.bankA else g.bankB
  if g.firFades ∧ left ≠ 0 then
    let w : Rat := ((len - left : Nat) + 1 : Rat) / len
    (1 - w) * firOut old h + w * firOut new h
  else firOut new h

/-- Stage 5 on a line whose head is the present sample (R167, R168). -/
def Chan.delayed (x : Chan) (g : ChainCfg) (B : Nat) (line : List Int) : Rat :=
  let new : Rat := (line.getD g.delay 0 : Int)
  if x.delayFade = 0 then new
  else
    let w : Rat := ((B - x.delayFade : Nat) + 1 : Rat) / B
    (1 - w) * (line.getD x.oldDelay 0 : Int) + w * new

/-! ### Ceilings and limiter (R169-R174) -/

/-- A GAIN ceiling in Q31: 0x7FFF_FFFF is exactly 1, negative values are 0 (R170). -/
def ceil31 (v : Int) : Rat := if v = 2147483647 then 1 else if v < 0 then 0 else (v : Rat) / 2147483648

/-- The target of the broadband ceiling (R169). -/
def State.ceilTarget (s : State) (c : Nat) : Rat :=
  min (ceil31 (s.num (Key.gn.C_THERMAL c))) (min (ceil31 (s.num (Key.gn.C_STAGE c))) (ceil31 (s.num (Key.gn.C_BUS c))))

/-- The broadband ceiling one sample later: at most 1 dB/ms either way (R169). -/
def ceilStep (fs : Nat) (c t : Rat) : Rat :=
  let k := Config.real .pow10 (50 / (fs : Rat)) 0
  if t < c then max t (c / k) else min t (c * k)

/-- The policy gain (R171). -/
def State.policy (s : State) (c : Nat) : Rat := s.factor c (Key.gn.GAIN c) dbFactor

/-- The ceiling that pins the gain: the least of the three (R171); 0 = not pinned. -/
def State.pinnedBy (s : State) (c : Nat) : Nat :=
  if (s.chan c).pinSince.isNone then 0
  else
    let t := ceil31 (s.num (Key.gn.C_THERMAL c))
    let g := ceil31 (s.num (Key.gn.C_STAGE c))
    let b := ceil31 (s.num (Key.gn.C_BUS c))
    if t ≤ g ∧ t ≤ b then 1 else if g ≤ b then 2 else 3

/-- The limiter's gain for the oldest sample of its window, from the t of each sample as fixed when it entered, and the
release coefficient of the oldest (R174). -/
def limGain (krel : Rat) (t : List Rat) (g : Rat) : Rat :=
  let slope := t.zipIdx.foldl (fun a (v, i) => min a ((v - g) / (i + 1 : Nat))) 0
  if slope < 0 then g + slope else min (g + (1 - g) * krel) (t.foldl min 1)

/-- The t of a sample that enters the limiter at level `thr` (R174). -/
def limTerm (thr : Rat) (x : Int) : Rat := if x = 0 then 1 else min 1 (thr / (|x| : Int))

/-- One sample of G_ref(s) × V_FS (R257) as a bilinear-transformed section prewarped at ω_t: parameters Bl, Re, Mms, FS and Q of
the target, V_FS and the rate; state x1, x2, y1, y2; the output in m/s is held to 2^-40 (log 170). -/
def velocitySection (p st : List Rat) (x : Rat) : Rat × List Rat :=
  let g := fun i => p.getD i 0
  let f := g 3 / 1000
  let q := g 4 / 1000
  let angle := 180 * f / g 6
  let k := Config.real .cos angle 0 / Config.real .sin angle 0
  let gain := g 0 / 1000 / (g 1 / 1000000 * (g 2 / 1000000)) * (g 5 / 1000)
  let a0 := k * k + k / q + 1
  let b0 := gain * k / (Config.twoPi * f) / a0
  let a1 := (2 - 2 * (k * k)) / a0
  let a2 := (k * k - k / q + 1) / a0
  let y := b0 * (x - st.getD 1 0) - a1 * st.getD 2 0 - a2 * st.getD 3 0
  let y : Rat := (rounded 0x6700 (y * 2 ^ 40) : Int) / (2 ^ 40 : Rat)
  (y, [x, st.getD 0 0, y, st.getD 2 0])

/-- The velocity reference of a stage 7 input, in m/s, and the model's new state (R173, R257); none of it without a driver
model. -/
def Chan.velocityRef (x : Chan) (g : ChainCfg) (v : Int) : Rat × List Rat :=
  match g.vel with
  | none => (0, [])
  | some p => velocitySection p x.velSt ((v : Rat) / 2147483648)

/-- Ramps and source fades one sample later. -/
def Chan.stepFades (x : Chan) : Chan :=
  { x with ramps := (x.ramps.map fun r => (r.1, r.2.1, r.2.2 + 1)).filter fun r => decide (r.2.2 < 32),
           srcFade := (x.srcFade.map fun f => (f.1, f.2.1, f.2.2.1, f.2.2.2 + 1)).filter fun f => decide (f.2.2.2 < 32),
           fbLeft := x.fbLeft - 1, delayFade := x.delayFade - 1 }

/-- The stage 8 output as the modulator input plays it: a block that was not delivered is concealed (R194). -/
def Chan.concealed (x : Chan) (i : Nat) (y : Int) : Int :=
  if x.missNow then (if i < 16 then rounded 0x6300 ((x.s8Last * (15 - i) : Int) / (16 : Rat)) else 0)
  else if x.missFade ∧ i < 16 then rounded 0x6300 ((y * i : Int) / (16 : Rat))
  else y

/-- What stages 1 to 8 give for one sample: the sum of stage 1 before and after saturation, the same of stage 2, the
biquads, the FIR, the input of stage 6, its gain, and the output of stage 8. -/
structure ChainOut where
  sum : InputSum
  r1 : Int
  r2 : Int
  bq : List (Nat × Int × Int × Int × Int)
  bqClip : Bool
  hist : List Int
  r4 : Int
  line : List Int
  s5 : Int
  ceilB : Rat
  policy : Rat
  g : Rat
  split : List Rat
  velSt : List Rat
  limX : List (Int × Rat × Nat)
  vLine : List Rat
  lim : Rat
  s8 : Int

/-- Stages 1 to 8 of a channel for output sample `w` with the renderer bus `bus` (Table 05-1). -/
def State.chainCalc (s : State) (c w back : Nat) (bus : Int) : ChainOut :=
  let cfg := s.cfgFor c w
  let x := (s.chan c).turn cfg s.B
  let sum := s.inputSum c w back bus
  let r1 := rounded 0x6000 sum.all
  let trim := s.factor c (Key.cin.TRIM c) dbFactor * s.factor c (Key.cin.POLARITY c) (fun p => if p = 0 then 1 else -1)
  let r2 := rounded 0x6000 (sat32 r1 * trim)
  let (bq, s3, bqClip) := x.biquads cfg (sat32 r2)
  let hist := (s3 :: x.firHist).take (if s.fs = 96000 then 4096 else 8192)
  let r4 := rounded 0x6200 (cfg.fir x.firLen (s.nat (Key.fir.FIR_XFADE_LEFT c)) hist)
  let line := (sat32 r4 :: x.line).take (if s.fs = 96000 then 4801 else 2401)
  let s5 := rounded 0x6300 (x.delayed cfg s.B line)
  let ceilB := ceilStep s.fs x.ceilB (s.ceilTarget c)
  let policy := s.policy c
  let mute := s.factor c (Key.gn.MUTE c) (fun m => 1 - onOff m)
  let g : Rat := (rounded 0x6400 (mute * min policy ceilB * 1073741824) : Int) / (1073741824 : Rat)
  let low := Config.filterStep .split [(cfg.split : Rat), s.fs] x.split s5
  let cexc := ceil31 (s.num (Key.gn.C_EXC c))
  let s6 := sat32 (rounded 0x6400 (g * (s5 - (if cexc = 1 then 0 else (1 - cexc) * low.headD 0))))
  let (v, velSt) := x.velocityRef cfg s6
  let a := s.lead + 1
  let limX := ((List.replicate (a - x.limX.length) (0, 1, cfg.release) ++ x.limX) ++ [(s6, limTerm cfg.level s6, cfg.release)]).drop 1
  let vLine := ((List.replicate (a - x.vLine.length) 0 ++ x.vLine) ++ [v]).drop 1
  let krel := 1 - Config.real .exp (-1000 / ((s.fs * (limX.headD (0, 1, 50)).2.2 : Nat) : Rat)) 0
  let lim := limGain krel (limX.map fun y => y.2.1) x.limG
  { sum := sum, r1 := r1, r2 := r2, bq := bq, bqClip := bqClip, hist := hist, r4 := r4, line := line, s5 := s5, ceilB := ceilB,
    policy := policy, g := g, split := low.drop 1, velSt := velSt, limX := limX, vLine := vLine, lim := lim,
    s8 := sat32 (rounded 0x6300 ((limX.headD (0, 1, 50)).1 * lim)) }

/-- The signals that zero-crossing waits watch, in the order of `Chan.seen` (R154). -/
def ChainOut.watched (o : ChainOut) : List Rat := o.sum.srcs ++ [(o.sum.bus : Rat), sat32 o.r1, o.s5, o.sum.net, o.sum.fb]

/-- A channel's chain takes one sample (Table 05-1); `back` is how long ago its port frame was delivered. A sample that ends an
unpinned stretch of 1 s or more arms CEILING_PINNED again (R171). -/
def chainStep (c back : Nat) : Phase := fun s =>
  let w := s.chainSample
  let o := s.chainCalc c w back ((s.chan c).bus.headD 0)
  let cfg := s.cfgFor c w
  let pinned := decide (o.ceilB < o.policy)
  let left := s.nat (Key.fir.FIR_XFADE_LEFT c)
  phases [
    (if sat32 o.r1 ≠ o.r1 ∨ sat32 o.r2 ≠ o.r2 then clip c 0 else always []),
    (if o.bqClip then clip c 1 else always []),
    (if sat32 o.r4 ≠ o.r4 then clip c 2 else always []),
    always ((if cfg.firFades ∧ left ≠ 0 then [.nat (Key.fir.FIR_XFADE_LEFT c) (left - 1)] else []) ++
     [.chan c fun x => { (x.turn cfg s.B).stepFades with
        s1 := (sat32 o.r1 :: x.s1).take 34, bq := o.bq, firHist := o.hist, line := o.line, ceilB := o.ceilB, gNow := o.g,
        split := o.split, velSt := o.velSt, limX := o.limX, vLine := o.vLine, limG := o.lim, limHit := x.limHit || decide (o.lim < 1),
        vref := rounded (Key.drv.FS_TARGET c) (o.vLine.headD 0 * o.lim * 16777216),
        s8 := x.concealed (s.sampleNow % s.B) o.s8, s8Prev := x.s8, seen := o.watched, worked := some w,
        pinSince := if pinned then some (x.pinSince.getD s.mtbNs) else none,
        pinTold := x.pinTold && !s.passed x.freeSince 1000000000,
        freeSince := if pinned then none else some (x.freeSince.getD s.mtbNs) }])] s

/-- The chains at a sample instant (R153). -/
def chainStrobe : Phase := fun s =>
  if s.mode.chains then forAll (List.range 16) (fun c => chainStep c (2 * s.B - s.lead)) s else []

/-! ### Block boundaries -/

/-- Bits of the sources that are invalid (R157). -/
def State.invalidSources (s : State) (c : Nat) : Nat :=
  mask ([0, 1, 2, 3, 4].filter fun j =>
    let t := s.sourceOf c j
    t.1 != 0 && !(match t.1 with
      | 1 => s.streamValid t.2.1 t.2.2
      | 2 => s.slotValid t.2.1 t.2.2
      | 3 => s.subframeValid t.2.1 t.2.2
      | _ => false))

/-- A channel's chain at a block boundary: the applied delay (R167), invalid sources and limited blocks are shown, the
network windows follow (R177, R179), a pin told is armed again (R171). -/
def chainBoundary (c : Nat) : Phase := phases [
  (fun s =>
    let d := s.delaySamples c
    let total := s.nat (Key.dly.ALIGN_DELAY c) + s.delayTrim c
    let inv := s.invalidSources c
    let x := s.chan c
    (if s.nat (Key.dly.DELAY_SAMPLES c) = d then [] else [.nat (Key.dly.DELAY_SAMPLES c) d])
    ++ (if s.nat (Key.dly.DELAY_TOTAL c) = total then [] else [.nat (Key.dly.DELAY_TOTAL c) total])
    ++ (if s.nat (Key.gn.SRC_INVALID c) = inv then [] else [.nat (Key.gn.SRC_INVALID c) inv])
    ++ (if x.limHit then [.bump (Key.dly.LIM_BLOCKS c) 1, .chan c fun x => { x with limHit := false }] else [])
    ++ (if x.pinTold ∧ s.passed x.freeSince 1000000000 then [.chan c fun x => { x with pinTold := false }] else [])),
  netUpdate c]

/-- CEILING_PINNED (R171): a pin of 10 s without a break. -/
def ceilingPinned (c : Nat) : Phase := fun s =>
  let x := s.chan c
  if s.passed x.pinSince 10000000000 ∧ !x.pinTold then
    [.chan c fun x => { x with pinTold := true },
     .event Ev.CEILING_PINNED (args16 [c, s.pinnedBy c] ++ le 4 (if x.gNow = 1 then 2147483647 else rounded 0x6400 (x.gNow * 2147483648)))]
  else []

/-- FIR_CROSSFADE_END (R165). -/
def firEnd (c : Nat) : Phase := fun s =>
  let st := s.nat (Key.fir.FIR_STATE c)
  if 2 ≤ st ∧ s.num (Key.fir.FIR_XFADE_LEFT c) = 0 then
    let b := if st = 2 then 1 else 0
    [.nat (Key.fir.FIR_STATE c) b, .chan c fun x => { x with firLen := 0 }, .event Ev.FIR_SWITCHED (args16 [c, b])]
  else []

/-- A committed FIR_ACTIVE starts its crossfade, over the play blocks processed from now on (R165, R184). DESIGN CHOICE (log 191):
where no chain runs the crossfade stands at its first sample, R166's CONFLICT in force, until the chains run. -/
def firSwitch (c : Nat) : Phase := fun s =>
  let b := s.nat (Key.fir.FIR_ACTIVE c)
  let n := s.nat (Key.fir.FIR_XFADE c) * s.B
  if s.nat (Key.fir.FIR_STATE c) = b then []
  else [.nat (Key.fir.FIR_STATE c) (if b = 1 then 2 else 3), .nat (Key.fir.FIR_XFADE_LEFT c) n,
        .chan c fun x => { x with firLen := n }]

/-- A committed change of the sections in use: a bypassed section's state clears, at once where no chain runs, else with
the first play block processed under the change (R162). -/
def biquadCommit (c : Nat) : Phase := fun s =>
  let l := s.sections c
  if s.mode.chains then [] else [.chan c fun x => { x with bq := x.bq.filter fun b => l.contains b.1 }]

/-! ### Zero crossings (R154, R362, R363) -/

/-- The wait for a switch to or from the fallback source (R178). -/
def Zc.fallback (c : Nat) : Nat := Zc.fn 5 c

/-- Whether an entry of a channel's input or gain table, or a map of AOUT, changes at a zero crossing (Tables 05-5, 05-9,
11-8). -/
def isZcEntry (index sub : Nat) : Bool :=
  if 0x6000 ≤ index ∧ index < 0x6010 then decide (1 ≤ sub ∧ sub ≤ 17) || sub == 21 || sub == 24 || sub == 25
  else if 0x6400 ≤ index ∧ index < 0x6410 then sub == 1 || sub == 2
  else index == 0x4022 && (sub == 2 || sub == 3)

/-- The signal that a wait of a channel watches (R154): two waits of one signal apply at the same sample (R155). -/
def zcSignal (key : Nat) : Nat :=
  let index := key / 256
  let sub := key % 256
  if 0x6000 ≤ index ∧ index < 0x6010 then
    if 2 ≤ sub ∧ sub ≤ 17 then index * 256 + 2 + (sub - 2) % 4
    else if 18 ≤ sub ∧ sub ≤ 21 then index * 256 + 18
    else if sub = 24 ∨ sub = 25 then index * 256 + 24
    else key
  else if 0x6400 ≤ index ∧ index < 0x6410 then index * 256 + 1
  else key

/-- The signal that a wait of a channel's chain watches, as a place of `Chan.seen` (R154): none for a wait of another unit.
DESIGN CHOICE (log 190): FB_GAIN, and FB_KIND, FB_UNIT and FB_INDEX, watch the fallback source before its gain. -/
def State.watchPlace (s : State) (key : Nat) : Option (Nat × Nat) :=
  let c := key / 256 % 16
  let sub := key % 256
  if key / 4096 = 0x600 then
    some (c, if sub = 1 then 5 else if sub ≤ 17 then (sub - 2) % 4 else if sub ≤ 21 then 4 else 6)
  else if key / 4096 = 0x640 then some (c, 7)
  else if 2 ^ 24 ≤ key ∧ (key - 2 ^ 24) / 65536 = 5 then
    let c := (key - 2 ^ 24) % 65536
    some (c, if s.fbState c = 3 then 9 else 8)
  else none

/-- Whether a signal crosses zero at sample k, from its values at k - 1 and k (R362). -/
def crossesZero (old new : Rat) : Bool := new == 0 || decide (old * new < 0)

/-- Whether the signal of place `i` of a channel's chain crosses zero at the sample that the chain takes next (R154). -/
def State.chainCrosses (s : State) (c i : Nat) : Bool :=
  let w := s.chainNext c
  let bus := if (s.chan c).worked = some s.chainSample ∨ !s.strobed then sat32 (s.busSum w c) else (s.chan c).bus.headD 0
  let o := s.chainCalc c w (2 * s.B - s.lead - 1) bus
  crossesZero ((s.chan c).seen.getD i 0) (o.watched.getD i 0)

/-- Stage 8 of a channel at the present sample and the one before (R362). -/
def State.s8Pair (s : State) (c : Nat) : Int × Int :=
  let x := s.chan c
  if s.strobed ∨ !s.mode.chains then (x.s8Prev, x.s8)
  else (x.s8, x.concealed (s.sampleNow % s.B) (s.chainCalc c s.chainSample (2 * s.B - s.lead - 1) (sat32 (s.busSum s.chainSample c))).s8)

/-- The source number of a kind, unit or index entry; none for a gain. -/
def sourceOfSub (sub : Nat) : Option Nat :=
  if 2 ≤ sub ∧ sub ≤ 13 then some ((sub - 2) % 4) else if 18 ≤ sub ∧ sub ≤ 20 then some 4 else none

/-- A change of a channel's entry applies (R362, R363): a gain at once, or over 32 samples after a timeout; a new
source fades in, and the old one stops, or fades out with it after a timeout. Two changes of one source that apply at the
same sample are one switch (R155). -/
def chanZcApply (key : Nat) (timeout : Bool) : Phase := fun s =>
  let c := key / 256 % 16
  match (if key / 65536 = 0x60 then sourceOfSub (key % 256) else none) with
  | some j =>
    let old := s.sourceOf c j
    [zcDrop key, .chan c fun x =>
      if x.srcFade.any fun f => f.1 == j && f.2.2.2 == 0 then x
      else { x with srcFade := x.srcFade.filter (fun f => f.1 != j) ++ [(j, old, timeout, 0)] }]
  | none =>
    let old := s.used key
    [zcDrop key, .chan c fun x => { x with
      ramps := x.ramps.filter (fun r => r.1 != key) ++ (if timeout then [(key, old, 0)] else []) }]

/-- The switch to or from the fallback source begins its crossfade: 10 ms, or 32 samples after a timeout (R178). -/
def fallbackApply (c : Nat) (timeout : Bool) : Phase := fun s =>
  let n := if timeout then 32 else s.fs / 100
  [.chan c fun x => { x with fbLeft := n, fbLen := n }]

/-! ### Fallback (R177-R180) -/

/-- FALLBACK_ENGAGE (R178): the network lost for FALLBACK_DELAY, or HOLDOVER; no switch in MEASURE (R305). -/
def fallbackEngage (c : Nat) : Phase := fun s =>
  let lost := s.passed (s.chan c).lostSince (s.nat (Key.cin.FALLBACK_DELAY c) * 1000000)
  if s.num (Key.cin.FB_KIND c) ≠ 0 ∧ s.fbState c = 0 ∧ (lost ∨ s.mode = .holdover) ∧ s.mode.chains ∧ s.mode ≠ .measure then
    phases [always [.num (Key.cin.FB_STATE c) 1,
              .chan c fun x => { x with fbCause := if lost then 0 else 1, fbLen := 0, fbLeft := 0 }],
            zcStartAt (Zc.fallback c) (.num 1) (s.chainNext c)] s
  else []

/-- FALLBACK_RELEASE (R179): every network source RECEIVING for 2 s, and no HOLDOVER; no switch in MEASURE (R305). -/
def fallbackRelease (c : Nat) : Phase := fun s =>
  if s.fbState c = 2 ∧ s.mode ≠ .holdover ∧ s.mode ≠ .measure ∧ s.passed (s.chan c).recvSince 2000000000 then
    phases [always [.num (Key.cin.FB_STATE c) 3, .chan c fun x => { x with fbLen := 0, fbLeft := 0 }],
            zcStartAt (Zc.fallback c) (.num 0) (s.chainNext c)] s
  else []

/-- FALLBACK_CROSSFADE_END (R178-R180): the windows of the opposite switch start here. -/
def fallbackEnd (c : Nat) : Phase := fun s =>
  let st := s.fbState c
  if (st = 1 ∨ st = 3) ∧ (s.chan c).fbLen ≠ 0 ∧ (s.chan c).fbLeft = 0 then
    phases [
      always [.num (Key.cin.FB_STATE c) (if st = 1 then 2 else 0), .bump (Key.cin.FB_SWITCHES c) 1,
        .chan c fun x => { x with fbLen := 0, lostSince := none, recvSince := none },
        if st = 1 then .event Ev.FALLBACK_ENGAGED (args16 [c, (s.chan c).fbCause]) else .event Ev.FALLBACK_RELEASED (args16 [c])],
      netUpdate c] s
  else []

/-! ### What a commit or write of a chain may not do -/

/-- A biquad coefficient outside its shifts, or an unstable section in use (R161). -/
def State.biquadFault (s : State) (c : Nat) : Bool :=
  (s.sections c).any fun k =>
    let a1 := (s.get (Key.bq.BQ_A1 c k)).rat
    let a2 := (s.get (Key.bq.BQ_A2 c k)).rat
    decide (1 ≤ |a2|) || decide (1 + a2 ≤ |a1|)

/-- A bank whose blob does not match its taps, or with too many taps (R164). -/
def State.firFault (s : State) (c : Nat) : Bool :=
  [0, 1].any fun b =>
    let (taps, _, coef) := s.bank c b
    coef.length != 4 * taps || decide ((if s.fs = 96000 then 4096 else 8192) < taps)

/-- A commit that touches the active bank, or any bank during a crossfade (R166); `s` is the state before it. -/
def State.firClash (s : State) (c : Nat) (touched : Nat → Bool) : Bool :=
  let a := if s.num (Key.fir.FIR_ACTIVE c) = 0 then [Key.fir.FIR_TAPS_A c, Key.fir.FIR_SHIFT_A c, Key.fir.FIR_COEF_A c]
    else [Key.fir.FIR_TAPS_B c, Key.fir.FIR_SHIFT_B c, Key.fir.FIR_COEF_B c]
  let all := (List.range 8).map fun i => Key.fir.FIR_ACTIVE c + i
  a.any touched || (decide (2 ≤ s.nat (Key.fir.FIR_STATE c)) && (all.filter fun k => k != Key.fir.FIR_XFADE c).any touched)

/-- LIM_GR: 20 log10 of the limiter's gain in 0.01 dB (R174). -/
def State.limGr (s : State) (c : Nat) : Int :=
  if (s.chan c).limG = 1 then 0 else rounded (Key.dly.LIM_GR c) (2000 * Config.real .log10 (s.chan c).limG 0)

end Sys2Proof.Machine
end

