-- ==== Sys2Proof/Machine/Lanes.lean ====
section
/-!
DEFINITION. Machine/Lanes.lean: the DSP lanes (R183-R206): cost of a configuration, placement and admission, task
finishes and slack, misses, throttle, self-tests, fences, migration, the lantern lane and microcode rotation. The speed
of the silicon is not the machine's to know: a task has finished when its TASK_FINISH has come (log 28).
Tasks: 0-15 render groups, 16-31 channels, 32-47 preparation, 48-63 models.
-/

namespace Sys2Proof.Machine

/-! ### Cost and placement (R186-R189) -/

/-- Object slots in use in a render group (R184, R186). -/
def State.groupObjs (s : State) (g : Nat) : Nat := min 32 (s.assignment.length - 32 * g)

/-- Own channels mapped to a FULL or SUB record (R186). -/
def State.mappedCount (s : State) : Nat :=
  ((List.range 16).filter fun c => match s.mapped c with
    | none => false
    | some i => s.layoutActive && (s.speaker i).kind != 2).length

/-- K_max of R187: the longest candidate list of the layout in force (log 8). -/
def State.kMax (s : State) : Nat :=
  if s.triangleCount = 0 then 0 else max 1 (min s.triangleCount (Config.cells s.layoutBytes))

/-- MAC per transform and per partition at the committed rate (Table 06-12). -/
def State.kFft (s : State) : Nat := if s.fs = 96000 then 1792 else 768
def State.kPart (s : State) : Nat := if s.fs = 96000 then 260 else 132

/-- FIR partitions and banks in use of a channel (R164, R186). -/
def State.partitions (s : State) (c : Nat) : Nat × Nat :=
  let a := s.nat (Key.fir.FIR_TAPS_A c)
  let b := s.nat (Key.fir.FIR_TAPS_B c)
  ((a + s.B - 1) / s.B + (b + s.B - 1) / s.B, (if a = 0 then 0 else 1) + (if b = 0 then 0 else 1))

/-- Cost of a task, MAC per block period (Table 06-4). -/
def State.taskCost (s : State) (m kmax t : Nat) : Nat :=
  if t < 16 then s.groupObjs t * (s.B * (10 + m))
  else if t < 32 then
    let (p, n) := s.partitions (t - 16)
    s.B * (47 + 5 * (s.sections (t - 16)).length) + s.kFft * (1 + n) + s.kPart * p
  else if t < 48 then s.groupObjs (t - 32) * (40 + 7 * (20 + 9 * kmax))
  else 600

/-- The tasks of a configuration (R184): groups with a slot in use, every channel, every model. -/
def State.allTasks (s : State) : List Nat :=
  let used := (List.range 16).filter fun g => s.groupObjs g != 0
  used ++ (List.range 16).map (· + 16) ++ used.map (· + 32) ++ (List.range 16).map (· + 48)

/-- Insertion into a list of tasks by descending cost; equal costs keep their order (R188). -/
def byCost (t : Nat × Nat) : List (Nat × Nat) → List (Nat × Nat)
  | [] => [t]
  | u :: l => if u.2 < t.2 then t :: u :: l else u :: byCost t l

/-- The lane of least cost, the lowest number among equals (R188). -/
def leastLane (l : List (Nat × Nat)) : Nat :=
  match l.foldl (fun b x => match b with
    | none => some x
    | some y => if x.2 < y.2 then some x else some y) (none : Option (Nat × Nat)) with
  | some x => x.1
  | none => 0

/-- A placement: lane, its render cost, its other cost, its tasks. -/
structure Placed where
  lane : Nat
  render : Nat
  other : Nat
  tasks : List Nat
  deriving DecidableEq, Repr

/-- A task added to a lane of a placement. -/
def addTask (l : List Placed) (lane t cost : Nat) : List Placed :=
  l.map fun p => if p.lane = lane then
    (if t < 16 then { p with render := p.render + cost, tasks := p.tasks ++ [t] }
     else { p with other := p.other + cost, tasks := p.tasks ++ [t] }) else p

/-- The placement of tasks on lanes (R188). -/
def State.place (s : State) (tasks lanes : List Nat) (on : List Placed) : List Placed :=
  if lanes.isEmpty then []
  else
    let m := s.mappedCount
    let k := s.kMax
    let render := (tasks.filter (· < 16)).foldl
      (fun l g => addTask l (lanes.getD (g % lanes.length) 0) g (s.taskCost m k g)) on
    let rest := ((tasks.filter (16 ≤ ·)).map fun t => (t, s.taskCost m k t)).foldl (fun l t => byCost t l) []
    rest.foldl (fun l t => addTask l (leastLane (l.map fun p => (p.lane, p.render + p.other))) t.1 t.2) render

/-- Lanes with no tasks yet. -/
def freshLanes (lanes : List Nat) : List Placed := lanes.map fun l => ⟨l, 0, 0, []⟩

/-- The placement of the whole configuration on lanes (R188). -/
def State.placement (s : State) (lanes : List Nat) : List Placed := s.place s.allTasks lanes (freshLanes lanes)

/-- W, and the largest lane figure, of a placement (R188). -/
def renderPeak (l : List Placed) : Nat := l.foldl (fun a p => max a p.render) 0
def lanePeak (l : List Placed) : Nat := l.foldl (fun a p => max a (renderPeak l + p.other)) 0

/-- Whether a placement is admitted (R189). -/
def admitted (l : List Placed) : Bool := !l.isEmpty && decide (renderPeak l ≤ 119000 ∧ lanePeak l ≤ 238000)

/-- Whether a lane is healthy: not fenced (R188). -/
def State.healthy (s : State) (l : Nat) : Bool := s.nat (Key.lane.LANE_STATE l) != 2

/-- The fenced lanes. -/
def State.fencedLanes (s : State) : List Nat := (List.range 16).filter fun l => !s.healthy l

/-- The healthy lanes. -/
def State.healthyLanes (s : State) : List Nat := (List.range 16).filter s.healthy

/-- The lanes in service: healthy, and neither the lantern lane nor loading (R188, R203). -/
def State.inService (s : State) : List Nat := s.healthyLanes.filter fun l => s.nat Key.disp.LANTERN != l

/-- A commit refused for want of capacity (R189); `p` is the placement that it would have. Where both limits are exceeded the event
names LANE_LIMIT (log 221). -/
def admissionRefused (session : Nat) (p : List Placed) : Phase := always
  [.nat Key.cost.LAST_REFUSED (lanePeak p), .bump Key.cost.REFUSALS 1,
   .event Ev.ADMISSION_REFUSED (args16 [session] ++ le 4 (lanePeak p) ++ args16 [if 238000 < lanePeak p then 0 else 1])]

/-- The costs and peaks of a placement (R188). -/
def placeCosts (p : List Placed) : Phase := always (
  (List.range 16).flatMap (fun l => match p.find? fun x => x.lane == l with
    | some x => [.nat (Key.lane.PLACED_COST l) (x.render + x.other), .nat (Key.lane.RENDER_COST l) x.render]
    | none => [.num (Key.lane.PLACED_COST l) 0, .num (Key.lane.RENDER_COST l) 0])
  ++ [.nat Key.cost.COST_TOTAL ((p.map fun x => x.render + x.other).foldl (· + ·) 0),
      .nat Key.cost.RENDER_PEAK (renderPeak p), .nat Key.cost.LANE_PEAK (lanePeak p),
      .nat Key.cost.LANES_IN_SERVICE p.length])

/-- The tasks that a placement gives a lane. -/
def tasksOn (p : List Placed) (l : Nat) : List Nat := match p.find? fun x => x.lane == l with
  | some x => x.tasks
  | none => []

/-- Whether the tasks of the period that begins at the present block boundary have been issued. -/
def State.periodOpen (s : State) : Bool := s.atBoundary && s.units.disp.blockAt == some s.blockSample

/-- A lane with the tasks that it holds from a block boundary on; those issued already for the period that this boundary ends stay on the
lane that runs them (R185). `issued` says that the boundary's own tasks have been issued. -/
def Lane.put (y : Lane) (tasks : List Nat) (issued : Bool) : Lane :=
  { y with tasks := tasks, work := if issued then tasks else y.work, incoming := [] }

/-- A placement comes into force at a block boundary (R188, R191): lists, costs and peaks. -/
def placeNow (p : List Placed) : Phase := phases [
  placeCosts p,
  fun s => (List.range 16).map (fun l => .lane l fun y => y.put (tasksOn p l) s.periodOpen)
    ++ [.disp fun d => { d with moving := none }]]

/-- The placement of a commit (R188, R191): a new task starts on its lane and one that is gone ends; a task that moves
runs on its old lane for one more block period, in which the new lane loads its coefficients (log 162). -/
def placeCommit (p : List Placed) : Phase := fun s =>
  let held := (List.range 16).flatMap fun l => (s.lane l).tasks
  let all := p.flatMap (·.tasks)
  let fresh := all.filter fun t => !held.contains t
  let now := fun (l : Nat) => (s.lane l).tasks.filter all.contains ++ (tasksOn p l).filter fresh.contains
  phases [
    placeCosts p,
    always ((List.range 16).map (fun l => .lane l fun y => y.put (now l) s.periodOpen)
      ++ [.disp fun d => { d with
            moving := if (List.range 16).all fun l => (now l).mergeSort == (tasksOn p l).mergeSort then none
              else some (s.blockSample + s.B, (List.range 16).map fun l => (l, tasksOn p l)) }])] s

/-- The tasks that change lane at this block boundary do so (R191). -/
def movesTake : Phase := fun s => match s.units.disp.moving with
  | none => []
  | some (n, l) => if s.blockSample < n then [] else
      l.map (fun x => .lane x.1 fun y => { y with tasks := x.2 }) ++ [.disp fun d => { d with moving := none }]

/-- The committed configuration is costed and placed (R186-R191). -/
def lanesCommit : Phase := phases [
  (fun s => [.nat Key.cost.K_FFT s.kFft, .nat Key.cost.K_PART s.kPart, .nat Key.cost.TRI_CANDIDATES s.kMax]),
  readP (fun s => s.placement s.inService) placeCommit]

/-! ### Block periods, finishes and slack (R184, R192) -/

/-- The sample of the block boundary that began the block period in work: the one whose tasks were issued last, also at the very
instant that ends it (R192). -/
def State.periodStart (s : State) : Nat :=
  let k := s.now * s.fs / (s.B * 1000000000)
  let n := if sampleTime s.fs ((k + 1) * s.B) ≤ s.now then (k + 1) * s.B else k * s.B
  if s.units.disp.issued && s.units.disp.period + s.B == n then s.units.disp.period else n

/-- The media time of the render cut of the present period (Table 06-2). -/
def State.renderCutTime (s : State) : Nat := sampleTime s.fs (s.periodStart + s.B / 2)

/-- The media time of the boundary that ends the present period. -/
def State.periodEnd (s : State) : Nat := sampleTime s.fs (s.periodStart + s.B)

/-- The lesser of a minimum so far and a new slack. -/
def least (old : Option Int) (x : Int) : Option Int := some (match old with
  | none => x
  | some y => min y x)

/-- The lane on which a task of the present period was issued (R185). -/
def State.laneOf (s : State) (t : Nat) : Option Nat := (List.range 16).find? fun l => (s.lane l).work.contains t

/-- A run of a task that was late for an earlier block and goes on on a lane (R196); the oldest ends first. -/
def State.lateRun (s : State) (l t : Nat) : Option LateRun := s.units.disp.late.find? fun x => x.lane == l && x.task == t

/-- Whether the throttle holds the work of a task (R197). -/
def State.classPaused (s : State) (t : Nat) : Bool := decide (32 ≤ t ∧ 3 ≤ s.nat Key.thr.THROTTLE_LEVEL)

/-- Whether a late run is the next to end on its lane (R185): a lane ends them in the order of their blocks, and of one block
the channel tasks first. -/
def State.lateNext (s : State) (x : LateRun) : Bool :=
  s.units.disp.late.all fun y => y.lane != x.lane || s.classPaused y.task || decide (x.deadline ≤ y.deadline) &&
    (decide (x.deadline < y.deadline) || decide (x.task < 32) || decide (32 ≤ y.task))

/-- Whether no late run keeps a lane from a task of the present period (R185): none goes on on that lane, and none of the
task itself. DESIGN CHOICE (log 193): what is left of an earlier block is issued first. -/
def State.lateClear (s : State) (l t : Nat) : Bool :=
  s.units.disp.late.all fun y => (y.lane != l && y.task != t) || s.classPaused y.task

/-- Whether every task before a task has been finished, as the lane issues them (R185): for a channel task every render
task of the block, or it was dropped; for preparation and models the channel tasks of the lane as well. -/
def State.mayFinish (s : State) (l t : Nat) : Bool :=
  let d := s.units.disp
  let rendered := (List.range 16).all fun g => (s.laneOf g).isNone || d.done.contains g || d.dropped.contains g
  let chained := (s.lane l).work.all fun u => u < 16 || 32 ≤ u || d.done.contains u
  t < 16 || (rendered && (t < 32 || chained))

/-- Whether a finish of a task on a lane counts: the lane issues work, the throttle lets its class run (R197), and the task
runs late on it, or was issued on it and is not finished; a task once started runs to its end on its lane (R185). -/
def State.finishes (s : State) (l t : Nat) : Bool :=
  s.healthy l && !s.classPaused t && (match s.lateRun l t with
    | some x => s.lateNext x
    | none => (s.lane l).work.contains t && s.lateClear l t && !s.units.disp.done.contains t
        && !s.units.disp.dropped.contains t && s.mayFinish l t)

/-- The late runs without the oldest one of a task on a lane. -/
def dropFirst (l t : Nat) : List LateRun → List LateRun
  | [] => []
  | x :: y => if x.lane = l ∧ x.task = t then y else x :: dropFirst l t y

/-- A lane task finishes (R192): its slack enters the minima; the oldest late run of it ends (R194, R196). -/
def taskFinish (l t : Nat) : Phase := fun s =>
  if !s.finishes l t then []
  else
    let late := s.lateRun l t
    let deadline : Nat := match late with
      | some x => x.deadline
      | none => if t < 16 then s.renderCutTime else s.periodEnd
    let slack : Int := (deadline : Int) - s.now
    let at' := s.now - sampleTime s.fs s.periodStart
    let put := fun (a r b : Option Int) => if t < 16 then (a, least r slack, b) else if t < 32 then (least a slack, r, b)
      else (a, r, least b slack)
    [.lane l fun x =>
        let (a, r, b) := put x.slackA x.slackR x.slackB
        { x with slackA := a, slackR := r, slackB := b, finish := at', active := true },
     .disp fun x =>
        let (a, r, b) := put x.slackA x.slackRender x.slackB
        { x with slackA := a, slackRender := r, slackB := b,
                 done := if late.isSome then x.done else x.done ++ [t],
                 late := dropFirst l t x.late }]

/-- The render cut (R193): unfinished render tasks are dropped, and their groups conceal the next play block; none is issued
where no chain runs. -/
def renderCut : Phase := fun s =>
  if s.now < s.renderCutTime ∨ !s.units.disp.issued then []
  else
    let open' := (List.range 16).filter fun g => (s.laneOf g).isSome && !s.units.disp.done.contains g
      && !s.units.disp.dropped.contains g
    open'.flatMap fun g =>
      [.bump Key.disp.RENDER_DROPS 1, .eventOnce Ev.RENDER_DROPPED 0 (args16 [g]),
       .rgroup g fun r => { r with dropNext := true }, .disp fun x => { x with dropped := x.dropped ++ [g] }]

/-- Whether a channel's chain misses at this boundary: its task is placed and has not finished (R194). -/
def State.missed (s : State) (c : Nat) : Bool := (s.laneOf (c + 16)).isSome && !s.units.disp.done.contains (c + 16)

/-- A late run of a task goes on, where its lane issues work (R194, R196, R201). -/
def State.runsOn (s : State) (t : Nat) : List Effect :=
  match s.laneOf t with
  | none => []
  | some l => if s.healthy l then [.disp fun d => { d with late := d.late ++ [⟨t, l, s.blockTime⟩] }] else []

/-- A channel at its deadline (R194, R195). -/
def missChan (c : Nat) : Phase := fun s =>
  let x := s.chan c
  if s.missed c then
    let n := x.misses + 1
    let tell := decide (3 ≤ n) && !x.missTold
    [.bump Key.disp.DEADLINE_MISSES 1, .orBits Key.disp.MISS_MAP (2 ^ c),
     .chan c fun x => { x with misses := n, missNow := true, missFade := false, s8Last := x.s8,
                               missTold := x.missTold || tell }]
    ++ s.runsOn (c + 16)
    ++ (if tell then [.event Ev.DEADLINE_MISSED (args16 [c] ++ le 4 n)] else [])
  else if x.misses = 0 ∧ !x.missNow ∧ !x.missFade ∧ !x.missTold then [.chan c fun x => { x with s8Last := x.s8 }]
  else [.chan c fun x => { x with misses := 0, missTold := false, missFade := x.missNow, missNow := false, s8Last := x.s8 }]

/-- A preparation task late at its boundary (R196): the records that it should have prepared are late metadata (R119).
They apply at the first sample of the play block whose preparation ends at the next boundary; of several for one object
the last received applies, and a record that stands at that sample itself comes after them. -/
def prepLate (g : Nat) : Phase := fun s =>
  if (s.laneOf (g + 32)).isNone || s.units.disp.done.contains (g + 32) then []
  else
    let p := (s.blockSample / s.B + 2) * s.B
    s.runsOn (g + 32) ++ (List.range 32).flatMap fun j =>
      let o := 32 * g + j
      let late := (s.obj o).pend.filter fun r => decide (r.1 < p)
      match late.getLast? with
      | none => []
      | some r =>
        let stands := (s.obj o).pend.any fun r => r.1 == p
        [.bump Key.disp.PREP_LATE late.length, .obj o fun y => { y with
          pend := (if stands then [] else [(p, r.2)]) ++ y.pend.filter fun r => decide (p ≤ r.1) }]
        ++ late.flatMap fun r => metaLate o (p - r.1)

/-- A model task late at its boundary (R196). -/
def modelLate (c : Nat) : Phase := fun s =>
  let late := (s.laneOf (c + 48)).isSome && !s.units.disp.done.contains (c + 48)
  (if (s.chan c).modelLate = late then [] else [.chan c fun x => { x with modelLate := late }])
    ++ (if late then .bump Key.disp.MODEL_LATE 1 :: s.runsOn (c + 48) else [])

/-- Whether a lane holds a task that it may issue (R197, R201). -/
def State.holdsReady (s : State) (l : Nat) : Bool :=
  s.healthy l && (s.lane l).work.any fun t => t < 32 || s.nat Key.thr.THROTTLE_LEVEL < 3

/-- The deadlines that stand at a block boundary (R184, R194-R196), and the lanes' block counts (R201, R202). -/
def lanesDeadline : Phase := fun s => phases [
  if s.units.disp.issued then phases [
    forAll (List.range 16) missChan, forAll (List.range 16) prepLate, forAll (List.range 16) modelLate,
    (fun s => (List.range 16).flatMap fun l =>
      let x := s.lane l
      let idle := if x.active || !s.holdsReady l then 0 else x.idleBlocks + 1
      (if x.finish = s.nat (Key.lane.LAST_FINISH l) then [] else [.nat (Key.lane.LAST_FINISH l) x.finish])
      ++ (if x.idleBlocks = idle ∧ x.finish = 0 ∧ !x.active then []
          else [.lane l fun x => { x with idleBlocks := idle, finish := 0, active := false }]))]
    else fun s => (List.range 16).flatMap fun c =>
      if (s.chan c).modelLate then [.chan c fun x => { x with modelLate := false }] else [],
  (fun s => (List.range 16).flatMap fun l =>
    if (s.lane l).migrateFrom.isSome then [.lane l fun x => { x with migBlocks := x.migBlocks + 1 }] else [])] s

/-- A new block period begins (R184, R191): tasks that move change lane, and the period's tasks are issued. -/
def lanesPeriod : Phase := phases [
  movesTake,
  (fun s => .disp (fun d => { d with done := [], dropped := [], issued := s.mode.chains, period := s.blockSample })
    :: (List.range 16).map (fun l => .lane l fun y => { y with work := y.tasks })
    ++ (if s.mode.chains then [.bump Key.disp.BLOCK_COUNT 1] else []))]

/-- The end of a slack window (R192): the minima are published, TEST_INTERVAL too, and a new window begins with the
window length in force. -/
def slackWindowEnd : Phase := fun s =>
  let d := s.units.disp
  if s.mtbNs < d.windowAt + d.window * 1000000 then []
  else
    let pub := fun (k : Nat) (x : Option Int) => match x with
      | some v => [Effect.num k v]
      | none => []
    let longest := (List.range 16).foldl (fun a l => max a (s.lane l).longest) 0
    pub Key.disp.MIN_SLACK_RENDER d.slackRender ++ pub Key.disp.MIN_SLACK_A d.slackA ++ pub Key.disp.MIN_SLACK_B d.slackB
    ++ (List.range 16).flatMap (fun l =>
      let x := s.lane l
      let a := match x.slackA, x.slackR with
        | some p, some q => some (min p q)
        | some p, none => some p
        | none, q => q
      pub (Key.lane.LANE_MIN_SLACK_A l) a ++ pub (Key.lane.LANE_MIN_SLACK_B l) x.slackB
        ++ [.lane l fun x => { x with slackA := none, slackR := none, slackB := none, longest := 0 }])
    ++ (if longest = 0 then [] else [.nat Key.disp.TEST_INTERVAL longest])
    ++ [.disp fun d => { d with windowAt := s.mtbNs, window := s.nat Key.disp.SLACK_WINDOW, slackRender := none,
                                slackA := none, slackB := none }]

/-! ### Throttle (R197-R199) -/

/-- The entry threshold of a throttle level in mV (Table 06-7). -/
def State.thrEntry (s : State) (level : Nat) : Nat :=
  s.nat Key.thr.THROTTLE_THR - (if level ≤ 1 then 0 else if level = 2 then 15 else if level = 3 then 30 else 50)

/-- The level that a reading calls for (Table 06-7). -/
def State.thrCalls (s : State) (mv : Nat) : Nat :=
  if mv < s.thrEntry 4 then 4 else if mv < s.thrEntry 3 then 3 else if mv < s.thrEntry 2 then 2
  else if mv < s.thrEntry 1 then 1 else 0

/-- The time spent at the present level is counted in whole ms (R198). -/
def thrTime : Phase := fun s =>
  let l := s.nat Key.thr.THROTTLE_LEVEL
  let ms := (s.mtbNs - s.units.disp.thrSince) / 1000000
  if l = 0 ∨ ms = 0 then []
  else [.bump (Key.thr.TIME_L (l - 1)) ms, .disp fun d => { d with thrSince := d.thrSince + ms * 1000000 }]

/-- A change of level (R198): events within 100 ms of the last are combined. -/
def thrSet (new : Nat) : Phase := fun s =>
  let old := s.nat Key.thr.THROTTLE_LEVEL
  let d := s.units.disp
  let soon := !d.thrOpen && d.thrEvt.isSome && !s.passed d.thrEvt 100000000
  phases [thrTime, always (
    [.nat Key.thr.THROTTLE_LEVEL new, .nat Key.thr.LEVEL_MAX (max new (s.nat Key.thr.LEVEL_MAX)),
     .disp fun d => { d with thrSince := s.mtbNs, thrOk := some s.mtbNs }]
    ++ (if old = 0 then [.bump Key.thr.THROTTLE_ENTRIES 1] else [])
    ++ (if d.thrOpen then [.disp fun d => { d with thrPeak := max d.thrPeak new }]
        else if soon then [.disp fun d => { d with thrOpen := true, thrFrom := old, thrPeak := max old new }]
        else [.disp fun d => { d with thrEvt := some s.mtbNs }, .event Ev.THROTTLE_CHANGED (args16 [old, new])]))] s

/-- A combined event falls due 100 ms after the last one (R198). -/
def thrDue : Phase := fun s =>
  let d := s.units.disp
  if d.thrOpen && s.passed d.thrEvt 100000000 then
    [.event Ev.THROTTLE_CHANGED (args16 [d.thrFrom, d.thrPeak]),
     .disp fun d => { d with thrOpen := false, thrEvt := some s.mtbNs }]
  else []

/-- A droop sensor reads `mv` (R197): a reading below a threshold raises the level. -/
def throttleRise (sensor mv : Nat) : Phase := fun s =>
  let old := s.nat Key.thr.THROTTLE_LEVEL
  let calls := s.thrCalls mv
  let low := s.nat Key.thr.VCORE_MIN
  phases [
    always ((if low = 0 ∨ mv < low then [.nat Key.thr.VCORE_MIN mv] else [])
      ++ (if mv < s.thrEntry old + 10 then [.disp fun d => { d with thrOk := some s.mtbNs }] else [])),
    (if old < calls then phases [thrSet calls, always [.nat Key.thr.LOW_SENSOR sensor]] else always [])] s

/-- 10 ms with every sensor 10 mV above the entry threshold lower the level by one (R198). -/
def throttleFall : Phase := fun s =>
  let old := s.nat Key.thr.THROTTLE_LEVEL
  if old ≠ 0 ∧ s.passed s.units.disp.thrOk 10000000 then thrSet (old - 1) s else []

/-! ### Fences, migration, lantern (R200-R204) -/

/-- The lane `l` becomes the lantern lane, or none does (R203). -/
def lanternSet (l : Option Nat) : Phase := fun s =>
  let old := s.nat Key.disp.LANTERN
  (if old < 16 ∧ s.healthy old then [.num (Key.lane.LANE_STATE old) 0] else [])
  ++ (match l with
      | some l => [.nat Key.disp.LANTERN l, .num (Key.lane.LANE_STATE l) 1]
      | none => [.num Key.disp.LANTERN 0xFF])

/-- At a block boundary the configuration is placed again over the healthy lanes less a new lantern lane (R191, R203);
when it does not pass, no lane is the lantern lane. -/
def lanternTake (l : Nat) : Phase := fun s =>
  let p := s.placement (s.healthyLanes.filter (· != l))
  if admitted p then phases [lanternSet (some l), placeNow p, always
    [.disp fun d => { d with noLantern := false }, .event Ev.LANTERN_CHANGED (args16 [l])]] s
  else phases [lanternSet none, always [.disp fun d => { d with noLantern := true },
    .event Ev.LANTERN_CHANGED (args16 [0xFF])]] s

/-- The moves of an admitted commit after the fence of lane `l` (R191): what was to move to it stays where it runs, until the migration of
that lane takes it along; what was to leave it leaves. -/
def State.movesPast (s : State) (l : Nat) (m : Nat × List (Nat × List Nat)) : Nat × List (Nat × List Nat) :=
  let held := (s.lane l).tasks
  let late := ((m.2.find? fun x => x.1 == l).map (·.2)).getD [] |>.filter fun t => !held.contains t
  (m.1, m.2.map fun x => if x.1 = l then (l, x.2.filter held.contains)
    else (x.1, x.2 ++ (s.lane x.1).tasks.filter late.contains))

/-- Those tasks (R191). -/
def State.movesLeft (s : State) (l : Nat) : List Nat := match s.units.disp.moving with
  | none => []
  | some m => ((m.2.find? fun x => x.1 == l).map (·.2)).getD [] |>.filter fun t => !(s.lane l).tasks.contains t

/-- A lane is fenced (R201): it issues nothing, and what it has not delivered is discarded. The lantern lane starts
loading its tasks (R202); without one they go to the lanes in service (R203), and so do those that a fenced lantern lane
was loading. -/
def laneFence (l cause : Nat) : Phase := fun s =>
  if !s.healthy l then []
  else
    let lantern := s.nat Key.disp.LANTERN
    let from' := fun (f : Nat) => [Effect.lane f fun x => { x with migrateFrom := some f, migBlocks := 0 }]
    [.num (Key.lane.LANE_STATE l) 2, .nat (Key.lane.FENCE_CAUSE l) cause, .event Ev.LANE_FENCED (args16 [l, cause]),
     .lane l fun x => { x with idleBlocks := 0, clearTests := none, migrateFrom := none, incoming := s.movesLeft l },
     .disp fun d => { d with moving := d.moving.map (s.movesPast l), late := d.late.filter fun x => x.lane != l }]
    ++ (if lantern = l then .num Key.disp.LANTERN 0xFF :: (match (s.lane l).migrateFrom with
          | some f => from' f
          | none => [])
        else if lantern < 16 ∧ (s.lane lantern).migrateFrom.isNone then
          [.num (Key.lane.LANE_STATE lantern) 3, .lane lantern fun x => { x with migrateFrom := some l, migBlocks := 0 }]
        else from' l)

/-- The tasks of a fenced lane go to the lanes in service (R203); what another lane still loads stays as it is, and counts in the
peaks as that lane's. Where no lane is in service they stay on the fenced lane, where they miss (R193, R194). -/
def placeFenced (f : Nat) : Phase := fun s =>
  let held := fun (lane i : Nat) =>
    (⟨lane, s.nat (Key.lane.RENDER_COST i), s.nat (Key.lane.PLACED_COST i) - s.nat (Key.lane.RENDER_COST i), (s.lane i).tasks⟩ : Placed)
  let late := (s.lane f).incoming
  let p := s.place ((s.lane f).tasks ++ late) s.inService
    (s.inService.map fun i => let x := held i i; { x with tasks := x.tasks.filter fun t => !late.contains t })
  let loads := (List.range 16).filterMap fun i => match (s.lane i).migrateFrom with
    | some j => if j = i then none else some (held i j)
    | none => none
  p.flatMap (fun x => [.nat (Key.lane.PLACED_COST x.lane) (x.render + x.other), .nat (Key.lane.RENDER_COST x.lane) x.render,
    .lane x.lane fun y => y.put x.tasks s.periodOpen])
  ++ [.num (Key.lane.PLACED_COST f) 0, .num (Key.lane.RENDER_COST f) 0, .lane f fun y => y.put [] s.periodOpen,
      .nat Key.cost.RENDER_PEAK (renderPeak (p ++ loads)), .nat Key.cost.LANE_PEAK (lanePeak (p ++ loads)),
      .nat Key.cost.LANES_IN_SERVICE p.length]

/-- A migration ends at the second boundary after the fence (R202, Table 06-8): the former lantern lane, or the lanes in service, hold the
tasks; with no lane in service there is none to migrate to. -/
def laneMigrationDone : Phase := fun s =>
  match (List.range 16).find? fun l => (s.lane l).migrateFrom.isSome && decide (2 ≤ (s.lane l).migBlocks) with
  | none => []
  | some l =>
    let f := (s.lane l).migrateFrom.getD l
    let tasks := (s.lane f).tasks
    if f = l ∧ s.inService.isEmpty then [.lane l fun x => { x with migrateFrom := none, migBlocks := 0 }]
    else if f = l then
      phases [always [.lane l fun x => { x with migrateFrom := none, migBlocks := 0 }], placeFenced l,
        always [.event Ev.LANE_MIGRATED (args16 [l, s.inService.headD 0xFF])]] s
    else
      let late := (s.lane f).incoming
      ((List.range 16).filter fun i => i != l && i != f && (s.lane i).tasks.any late.contains).map (fun i =>
        .lane i fun x => x.put (x.tasks.filter fun t => !late.contains t) s.periodOpen) ++
      [.lane l fun x => { x.put (x.tasks ++ tasks ++ late) s.periodOpen with migrateFrom := none, migBlocks := 0 },
       .lane f fun x => x.put [] s.periodOpen,
       .num (Key.lane.LANE_STATE l) 0, .num Key.disp.LANTERN 0xFF,
       .nat (Key.lane.PLACED_COST l) (s.nat (Key.lane.PLACED_COST f)),
       .nat (Key.lane.RENDER_COST l) (s.nat (Key.lane.RENDER_COST f)),
       .num (Key.lane.PLACED_COST f) 0, .num (Key.lane.RENDER_COST f) 0,
       .event Ev.LANE_MIGRATED (args16 [f, l])]

/-- At a block boundary, the tasks' coefficients loaded, the device places the configuration again and names a lantern
lane (R191, R203, R204): after a migration the highest-numbered healthy lane; once a lane has become healthy the
highest-numbered healthy lane that is idle, but while a rotation runs the lane that it names (R205). In an absence this
waits for the return (Table 15-1). Tasks that no lane could take, every lane being fenced, go to the lane that is healthy first. -/
def lanternReplace : Phase := fun s =>
  let busy := (List.range 16).any fun l => (s.lane l).migrateFrom.isSome
  let d := s.units.disp
  let now := s.nat Key.disp.LANTERN
  let again : Phase := fun s =>
    let p := s.placement s.inService
    if admitted p then placeNow p s else []
  let stranded := s.fencedLanes.any fun l => !(s.lane l).tasks.isEmpty
  if busy || !s.atBoundary || !s.units.mgmt.served then []
  else if d.reassign then phases [
    always [.disp fun d => { d with reassign := false }],
    if stranded then phases [always [.disp fun d => { d with noLantern := true }], readP (fun s => s.placement s.inService) placeNow]
    else if d.fsm ≠ 0 ∧ now < 16 then again
    else match (s.healthyLanes.filter fun i => (s.lane i).tasks.isEmpty).getLast? with
      | some i => if now = i then again else lanternTake i
      | none => always []] s
  else if now < 16 || d.noLantern then []
  else match s.healthyLanes.getLast? with
    | none => []
    | some l => lanternTake l s

/-- A lane fence clear begins 16 self-tests (R204). -/
def laneClear (l : Nat) : Phase := fun s =>
  if s.healthy l then [] else [.lane l fun x => { x with clearTests := some 0 }]

/-- The lane whose clear tests have passed is healthy; the lantern role then passes (R204). -/
def laneHealthy (l : Nat) : Phase := always
  [.num (Key.lane.LANE_STATE l) 0, .num (Key.lane.FENCE_CAUSE l) 0, .lane l fun x => { x with clearTests := none },
   .disp fun d => { d with reassign := true }]

/-- Whether a self-test of a lane may run (R185, R197, R200, R204): class C work, paused from throttle level 1 up, after
the lane's work of the period, once per second; the tests that clear a fence follow each other. -/
def State.mayTest (s : State) (l : Nat) : Bool :=
  let x := s.lane l
  let idle := !s.units.disp.late.any (fun y => y.lane == l) && (!s.units.disp.issued || x.work.all fun t => s.units.disp.done.contains t || s.units.disp.dropped.contains t)
  s.nat Key.thr.THROTTLE_LEVEL == 0
    && (if s.healthy l then idle && (x.lastTest.isNone || s.passed x.lastTest 1000000000) else x.clearTests.isSome)

/-- A self-test ends (R200, R204). -/
def laneSelfTest (l : Nat) (pass : Bool) (speed : Nat) : Phase := fun s =>
  let x := s.lane l
  let ms := match x.lastTest with
    | some t => (s.mtbNs - t) / 1000000
    | none => 0
  let note : List Effect := [.nat (Key.lane.SPEED_EST l) speed,
    .lane l fun x => { x with lastTest := some s.mtbNs, longest := max x.longest ms }]
  if !s.mayTest l then []
  else if s.healthy l then
    if pass then note ++ [.bump (Key.lane.TESTS_PASSED l) 1]
    else phases [always (note ++ [.bump (Key.lane.TEST_FAILS l) 1]), laneFence l 1] s
  else match x.clearTests with
    | none => []
    | some n =>
      if !pass then note ++ [.bump (Key.lane.TEST_FAILS l) 1, .lane l fun x => { x with clearTests := none }]
      else if n + 1 < 16 then note ++ [.bump (Key.lane.TESTS_PASSED l) 1, .lane l fun x => { x with clearTests := some (n + 1) }]
      else phases [always (note ++ [.bump (Key.lane.TESTS_PASSED l) 1]), laneHealthy l] s

/-- 4 block periods without a finished task fence a lane (R201). -/
def laneStall (l : Nat) : Phase := fun s => if 4 ≤ (s.lane l).idleBlocks then laneFence l 3 s else []

/-! ### Microcode rotation (R205) -/

/-- A rotation to a new microcode begins; a lane that runs it already is done. -/
def rotationBegin (new old : Nat) : Phase := fun s =>
  .disp (fun d => { d with fsm := 1, newVer := new, oldVer := old }) ::
    (List.range 16).map fun l => .lane l fun x => { x with newUcode := s.nat (Key.lane.MICROCODE_VER l) == new }

/-- The lantern lane takes over the tasks of a lane, and those that wait to move to it, and that lane becomes the lantern lane
(R205 steps 2, 3). -/
def rotationSwap (lantern l : Nat) : Phase := fun s =>
  [.lane lantern fun x => x.put (s.lane l).tasks s.periodOpen, .lane l fun x => x.put [] s.periodOpen,
   .nat (Key.lane.PLACED_COST lantern) (s.nat (Key.lane.PLACED_COST l)),
   .nat (Key.lane.RENDER_COST lantern) (s.nat (Key.lane.RENDER_COST l)),
   .num (Key.lane.PLACED_COST l) 0, .num (Key.lane.RENDER_COST l) 0,
   .num (Key.lane.LANE_STATE lantern) 0, .num (Key.lane.LANE_STATE l) 1, .nat Key.disp.LANTERN l,
   .disp fun d => { d with moving := d.moving.map fun m =>
     (m.1, (m.2.filter fun x => x.1 != lantern).map fun x => if x.1 = l then (lantern, x.2) else x) }]

/-- The rotation ends (R205): the highest-numbered healthy lane is the lantern lane once more. -/
def rotationDone (status lane : Nat) : Phase := phases [
  (fun s => match s.healthyLanes.getLast? with
    | none => []
    | some l => lanternTake l s),
  always [.disp fun d => { d with fsm := 0 }, .mgmt fun m => { m with rotated := some status },
    .event Ev.MICROCODE_ROTATED (args16 [status, lane])]]

/-- One step of a rotation (R205): the lantern lane has loaded the microcode, and its 4 self-tests have failed, or have
passed and the tasks move at this block boundary (R191). Without a lantern lane, and in an absence, the rotation waits
(logs 163, 174). -/
def rotationStep (ok : Bool) : Phase := fun s =>
  let d := s.units.disp
  let l := s.nat Key.disp.LANTERN
  if d.fsm = 0 ∨ !s.units.mgmt.served ∨ 16 ≤ l ∨ (s.lane l).migrateFrom.isSome ∨ (ok ∧ !s.atBoundary) then []
  else if !ok then
    [.bump (Key.lane.TEST_FAILS l) 1] ++ (if d.fsm = 1 then [.disp fun d => { d with fsm := 2, failLane := l }] else [])
  else
    let forward := d.fsm == 1
    let next := s.inService.find? fun i => (s.lane i).newUcode != forward
    phases [
      always [.nat (Key.lane.MICROCODE_VER l) (if forward then d.newVer else d.oldVer), .bump (Key.lane.TESTS_PASSED l) 4,
              .lane l fun x => { x with newUcode := forward }],
      match next with
      | some i => rotationSwap l i
      | none => phases [
          always (if forward then (List.range 16).map fun i => .lane i fun x => { x with newUcode := false } else []),
          if forward then rotationDone St.ok l else rotationDone St.failed d.failLane]] s

end Sys2Proof.Machine
end

