-- ==== Sys2Proof/Machine/Loop.lean ====
section
/-!
DEFINITION. Machine/Loop.lean: the loop engine (R207-R243): ticks, sources, slot arithmetic, states, supervisor, fences,
and the flowstone learners.
-/

namespace Sys2Proof.Machine

/-! ### Arithmetic (R219) -/

/-- The exact product of a coefficient with an S32 value, rounded half-up at the shift (R219). -/
def mul (c : Value) (x : Int) : Int :=
  match c with
  | .coef m s => if 0 < s then (m * x + 2 ^ (s.toNat - 1)) / 2 ^ s.toNat else m * x
  | _ => 0

/-- A Q31 product (R219). -/
def mul31 (x g : Int) : Int := mul (.coef g 31) x

/-- x limited to [a, b]. -/
def clamp (x a b : Int) : Int := max a (min b x)

/-! ### Ticks and sources -/

/-- The hotter of the two sensors of a group's power die; 125 °C when both are faulted (Table 07-3, R464). -/
def State.tStage (s : State) (g : Nat) : Int :=
  let f := s.nat Key.sens.SENSOR_FAULTS
  let a := s.num (Key.sens.T_DIE (2 * g))
  let b := s.num (Key.sens.T_DIE (2 * g + 1))
  if f.testBit (2 * g) then (if f.testBit (2 * g + 1) then 8192000 else b)
  else if f.testBit (2 * g + 1) then a else max a b

/-- T_LIMIT in 2^-16 °C (R261) and X_LIMIT in 2^-28 m, rounded to nearest (R260). -/
def State.tLimit (s : State) (c : Nat) : Int :=
  rounded (Key.thm.T_LIMIT c) ((s.num (Key.thm.T_LIMIT c) * 65536 : Int) / (100 : Rat))
def State.xLimit (s : State) (c : Nat) : Int := (2 * s.num (Key.exc.X_LIMIT c) * 2 ^ 28 + 1000000) / 2000000

/-- The value of a source kind and instance (Table 07-3), in its own LSB. -/
def State.sourceRaw (s : State) (kind i : Nat) : Int :=
  match kind with
  | 0x01 => (s.chan i).vSense
  | 0x02 => (s.chan i).iSense
  | 0x03 => (s.chan i).vEst
  | 0x04 => s.num (Key.exc.X_PUBLISHED i)
  | 0x05 => s.num (Key.thm.T_COIL_EST i)
  | 0x06 => s.tStage i
  | 0x07 => s.num (Key.sens.T_DIE i)
  | 0x08 => (s.group i).vbus
  | 0x09 => (s.chan i).vrefL
  | 0x0A => (s.chan i).s8L
  | 0x0B => sat32 (rounded (Key.gn.G_APPLIED i) ((s.chan i).gNow * 2147483648))
  | 0x0C => s.num (Key.ls.U_NOW (52 + i))
  | 0x0D => s.num (Key.ls.U_NOW i)
  | 0x0E => s.tLimit i
  | 0x0F => s.xLimit i
  | _ => 0

/-- Whether a source selection is legal (R215): kinds and instances of Table 07-3. -/
def sourceOk (w : Nat) : Bool :=
  let k := bits w 14 8
  let i := bits w 7 0
  if k = 0 then true
  else if k = 0x06 ∨ k = 0x08 ∨ k = 0x0C then decide (i < 4)
  else if k = 0x07 then decide (i < 12)
  else if k = 0x0D then decide (i < 64)
  else decide (k ≤ 0x0F ∧ i < 16)

/-- A source read by its selection (Table 07-2). -/
def absIf (w : Nat) (v : Int) : Int := if w.testBit 15 then sat32 |v| else v
def State.source (s : State) (w : Nat) : Int := absIf w (s.sourceRaw (bits w 14 8) (bits w 7 0))

/-- A source read through SP_SRC or SP_GAIN_SRC at tick `t`: a slot output as SP_INTERP selects (R217). -/
def State.sourceSp (s : State) (interp : Bool) (t w : Nat) : Int :=
  let m := bits w 7 0
  if bits w 14 8 = 0x0D ∧ interp then
    let x := s.slot m
    let k := s.nat (Key.ls.RATE_K m)
    let b := s.num (Key.ls.U_NOW m)
    let d : Int := min (2 ^ k) (t - x.tLast : Nat)
    absIf w (x.uPrev + (2 * (b - x.uPrev) * d + 2 ^ k) / (2 * 2 ^ k))
  else s.source w

/-- Whether a source is stale (R216): the model's publications, after 2 block periods. -/
def State.staleSource (s : State) (w : Nat) : Bool :=
  let k := bits w 14 8
  (k == 4 || k == 5) && (match (s.chan (bits w 7 0)).published with
    | none => true
    | some p => decide (p * 3 + 4000000 < s.mtbNs * 3))

/-! ### Slots -/

/-- The state of a slot (Table 07-5): 0 OPEN, 1 CLOSED, 2 TRIPPED, 3 FENCED. -/
def State.slotState (s : State) (n : Nat) : Nat := s.nat (Key.ls.SLOT_STATE n)

/-- The slot's channel, if it has one. -/
def State.owner (s : State) (n : Nat) : Option Nat :=
  let o := s.nat (Key.ls.OWNER_CH n)
  if o < 16 then some o else none

/-- Whether the slot's channel is released or fenced (R226). -/
def State.ownerReleased (s : State) (n : Nat) : Bool := match s.owner n with
  | none => false
  | some c => s.released c

/-- A slot changes state, with its event (R243); a slot that leaves CLOSED closes anew (R220): cause 0 = request, 1 = supervisor, 2 = fence, 3 = clear. -/
def setSlot (n new cause : Nat) : Phase := fun s =>
  if s.slotState n = new then []
  else [.nat (Key.ls.SLOT_STATE n) new, .event Ev.SLOT_STATE_CHANGED (args16 [n, s.slotState n, new, cause])]
    ++ (if s.slotState n = 1 then [.slot n fun x => { x with closedBefore := false }] else [])

/-- STATE_REQ returns to 0 and the persisted value follows (R223). -/
def dropReq (n : Nat) : List Effect :=
  [.num (Key.ls.STATE_REQ n) 0, .save (Key.ls.STATE_REQ n) (some (.num 0)), .slot n fun x => { x with reqWait := none }]

/-- The value that a fenced slot drives (R232). -/
def State.fencedValue (s : State) (n : Nat) : Int :=
  if n < 16 then 0 else if n < 52 then s.num (Key.ls.UMIN n) else if n < 56 then s.num (Key.ls.UMAX n) else 0

/-- The output of a slot, clamped (R224). -/
def State.clampU (s : State) (n : Nat) (u : Int) : Int := clamp u (s.num (Key.ls.UMIN n)) (s.num (Key.ls.UMAX n))

/-- A slot is fenced (R231): 1 = supervisor, 2 = check code. -/
def slotFence (n cause : Nat) : Phase := fun s =>
  if s.slotState n = 3 then [.nat (Key.ls.FENCE_CAUSE n) cause]
  else phases [setSlot n 3 2, always (dropReq n), (fun s =>
    let u := s.clampU n (s.fencedValue n)
    [.nat (Key.ls.FENCE_CAUSE n) cause, .num (Key.ls.U_NOW n) u, .slot n fun x =>
      { x with uBase := u, count := 0, uPrev := s.num (Key.ls.U_NOW n), tLast := s.tickNow, ran := true },
     .event Ev.SLOT_FENCED (args16 [n, cause])])] s

/-- A clear of a slot's fence (R233): the check code is verified first. -/
def slotClear (n cause : Nat) : Phase := fun s =>
  if s.slotState n ≠ 3 then []
  else if (s.slot n).checkBad then [.num (Key.ls.FENCE_CAUSE n) 2]
  else phases [setSlot n 0 3, always (dropReq n), always
    [.num (Key.ls.FENCE_CAUSE n) 0, .event Ev.SLOT_UNFENCED (args16 [n, cause])]] s

/-- Requests in force since the last boundary take effect at the slot's execution (R223-R225). -/
def slotRequests (n : Nat) : Phase := fun s =>
  let x := s.slot n
  let st := s.slotState n
  let req : Phase := match x.reqWait with
    | none => always []
    | some v => if st = 3 then always [.slot n fun x => { x with reqWait := none }] else phases [
        setSlot n (if v = 1 then 1 else 0) 0,
        always ([.nat (Key.ls.STATE_REQ n) v, .slot n fun x => { x with reqWait := none }]
          ++ (if st = 1 ∧ v = 0 ∧ s.flag (Key.ls.MAN_HOLD n) then [.num (Key.ls.MAN n) x.uBase] else []))]
  let man : Phase := match x.manWait with
    | none => always []
    | some v => always [.num (Key.ls.MAN n) v, .slot n fun x => { x with manWait := none }]
  phases [req, man] s

/-- The flags that a computation of R220 sets (Table 07-4): P, sum and so on by their bit. -/
def flagIf (b : Bool) (bit : Nat) : Nat := if b then 2 ^ bit else 0

/-- One execution of a slot at tick `t` (R220-R229), whose output before it was `prior`. -/
def slotCompute (n t : Nat) (prior : Int) : Phase := fun s =>
  let x := s.slot n
  let k := fun (f : Nat → Nat) => s.num (f n)
  let c := fun (f : Nat → Nat) => s.get (f n)
  let sel := fun (f : Nat → Nat) => s.nat (f n)
  let st := s.slotState n
  let closed := st == 1
  let first := closed && !x.closedBefore
  let released := s.ownerReleased n
  let interp := sel Key.ls.SP_INTERP == 1
  let srcs := [sel Key.ls.SP_SRC, sel Key.ls.SP_GAIN_SRC, sel Key.ls.PV_SRC, sel Key.ls.FF_SRC]
  let stale := srcs.any s.staleSource
  let blocked := s.flag (Key.ls.RISE_GATE n) && stale
  let pv := s.source (sel Key.ls.PV_SRC)
  let ff := s.source (sel Key.ls.FF_SRC)
  let tgt0 := if bits (sel Key.ls.SP_SRC) 14 8 = 0 then k Key.ls.SP_TARGET else s.sourceSp interp t (sel Key.ls.SP_SRC)
  let gained := if bits (sel Key.ls.SP_GAIN_SRC) 14 8 = 0 then tgt0
    else mul31 tgt0 (s.sourceSp interp t (sel Key.ls.SP_GAIN_SRC))
  let tgt := sat32 gained
  let sp0 := if !closed || first then pv else x.sp
  let ramp := k Key.ls.RAMP
  let free := decide (ramp = 0 ∨ |tgt - sp0| ≤ ramp)
  let sp := if !closed then sp0 else if free then tgt else if sp0 < tgt then sp0 + ramp else sp0 - ramp
  let lag := closed && !free && tgt != x.tgtPrev
  let used := sat32 (sp + x.inj)
  let diff := used - pv
  let e := clamp (sat32 diff) (k Key.ls.EMIN) (k Key.ls.EMAX)
  let p0 := mul (c Key.ls.KP) e
  let p := sat32 p0
  let d1 := mul (c Key.ls.AD) (k Key.ls.D_NOW)
  let d2 := pv - x.pvPrev
  let d3 := mul (c Key.ls.BD) (sat32 d2)
  let d0 := sat32 d1 - sat32 d3
  let d := sat32 d0
  let f0 := mul (c Key.ls.KFF) ff
  let f := sat32 f0
  let i0 := mul (c Key.ls.KI) e
  let ki := sat32 i0
  let umin := k Key.ls.UMIN
  let umax := k Key.ls.UMAX
  let iOld := k Key.ls.I_NOW
  let sum := p + iOld + ki + d + f
  let want := if first then x.uBase - p - d - f else iOld + ki
  let updates := first || (closed && !released
    && !((decide (umax < sum) && decide (0 < ki)) || (decide (sum < umin) && decide (ki < 0)) || (decide (0 < ki) && blocked)))
  let i := if updates then clamp want (k Key.ls.IMIN) (k Key.ls.IMAX) else iOld
  let total := p + i + d + f
  let upid := clamp (sat32 total) umin umax
  let man := k Key.ls.MAN
  let rate := k Key.ls.MAN_RATE
  let u0 : Int := match st with
    | 0 => if rate = 0 ∨ |man - x.uBase| ≤ rate then man else if x.uBase < man then x.uBase + rate else x.uBase - rate
    | 1 => if blocked then min upid x.uBase else upid
    | 2 => x.uBase
    | _ => s.fencedValue n
  let u := clamp u0 umin umax
  let out := clamp (sat32 (u + x.injOut)) umin umax
  let fe := closed && decide (0 < k Key.ls.FE_TIME) && !released && decide (k Key.ls.FE_LIMIT < |diff|)
  let flags := flagIf (tgt != gained || sat32 diff != diff || e != sat32 diff) 0 ||| flagIf (p != p0) 1
    ||| flagIf (ki != i0 || (updates && i != want)) 2
    ||| flagIf (sat32 d1 != d1 || sat32 d2 != d2 || sat32 d3 != d3 || d != d0) 3 ||| flagIf (f != f0) 4
    ||| flagIf (sat32 total != total) 5 ||| flagIf (upid != sat32 total || u != u0) 6 ||| flagIf lag 7
  let status := flagIf (sp != tgt) 0 ||| flagIf (out == umin || out == umax) 1 ||| flagIf stale 2 ||| flagIf released 3
    ||| flagIf (closed && blocked) 4
  [.num (Key.ls.SP_NOW n) used, .num (Key.ls.PV_NOW n) pv, .num (Key.ls.I_NOW n) i, .num (Key.ls.D_NOW n) d,
   .num (Key.ls.U_NOW n) out, .nat (Key.ls.STATUS n) status]
  ++ (if flags = 0 then [] else [.orBits (Key.ls.FLAGS n) flags])
  ++ [.slot n fun x => { x with sp := sp, pvPrev := pv, tgtPrev := tgt, e := e, uPrev := prior, tLast := t, ran := true,
                                uBase := u, upid := upid, closedBefore := closed, count := if fe then x.count + 1 else 0 }]

/-- A slot that is due executes (R209): requests, the check code, the computation. -/
def slotExec (n t : Nat) : Phase := readP (fun s => s.num (Key.ls.U_NOW n)) fun prior => phases [
  slotRequests n,
  (fun s => if (s.slot n).checkBad && s.slotState n != 3 then slotFence n 2 s else []),
  slotCompute n t prior]

/-- Whether a slot is due at a tick (R208). -/
def State.slotDue (s : State) (t n : Nat) : Bool :=
  s.flag (Key.ls.SLOT_EN n)
    && (t + 2 ^ s.nat (Key.ls.RATE_K n) - s.nat (Key.ls.PHASE n)) % 2 ^ s.nat (Key.ls.RATE_K n) == 0

/-- The engine at a tick (R207, R209, R212, R213): `capacity` executions end before the next tick; `bad` lists the
slots whose check code fails. -/
def engineTick (t capacity : Nat) (bad : List Nat) : Phase := fun s =>
  if s.mode = .boot ∨ s.units.anchor.phase = 2 then []
  else
    let due := (List.range 64).filter (s.slotDue t)
    let skipped := due.length - capacity
    let window := (s.units.disp.skips ++ [(s.mtbNs, skipped)]).filter fun x => decide (s.mtbNs < x.1 + 1000000000)
    phases [
      (fun s => (List.range 64).flatMap fun n =>
        if (s.slot n).checkBad = bad.contains n then [] else [.slot n fun x => { x with checkBad := bad.contains n }]),
      forAll (due.take capacity) (fun n => slotExec n t),
      always (if skipped = 0 then []
        else [.bump Key.loop.OVERRUNS 1, .bump Key.loop.SKIPPED skipped, .disp fun d => { d with skips := window },
              .eventOnce Ev.ENGINE_OVERRUN 0 (le 4 ((window.map fun x => x.2).foldl (· + ·) 0 : Nat))])] s

/-- A following-error trip (R229, Table 07-6). -/
def followingErrorTrip (n : Nat) : Phase := fun s =>
  let time := s.nat (Key.ls.FE_TIME n)
  let a := s.nat (Key.ls.FE_ACTION n)
  if s.slotState n ≠ 1 ∨ time = 0 ∨ (s.slot n).count < time then []
  else phases [
    always [.orBits (Key.ls.FLAGS n) 256, .bump (Key.ls.FE_TRIPS n) 1, .event Ev.FOLLOWING_ERROR (args16 [n, a]),
            .slot n fun x => { x with count := 0 }],
    match a with
    | 0 => phases [setSlot n 2 1, always (dropReq n)]
    | 1 => phases [always [.num (Key.ls.MAN n) (s.slot n).uBase], setSlot n 0 1, always (dropReq n)]
    | 2 => phases [slotFence n 1, match s.owner n with
        | some c => fenceFast c 3
        | none => always []]
    | _ => always []] s

/-- The largest number of slots due at any tick, and the executions per cycle of 4,096 ticks (R211). -/
def State.execCount (s : State) : Nat × Nat :=
  let l := ((List.range 64).filter fun n => s.flag (Key.ls.SLOT_EN n)).map fun n =>
    (2 ^ s.nat (Key.ls.RATE_K n), s.nat (Key.ls.PHASE n))
  (List.range 4096).foldl (fun a t =>
    let n := (l.filter fun x => (t + x.1 - x.2) % x.1 == 0).length
    (max a.1 n, a.2 + n)) (0, 0)

/-- EXEC_PEAK and EXEC_PER_CYCLE after a commit that touches a slot (R211). -/
def periodsCommit : Phase := fun s =>
  let (p, n) := s.execCount
  [.nat Key.loop.EXEC_PEAK p, .nat Key.loop.EXEC_PER_CYCLE n]

/-- The tests of a committed slot configuration (R208, R211, R215, R218): the status of the first failure. -/
def State.slotsFault (s : State) : Option Nat :=
  let n := List.range 64
  let srcs := fun i => [s.nat (Key.ls.SP_SRC i), s.nat (Key.ls.SP_GAIN_SRC i), s.nat (Key.ls.PV_SRC i), s.nat (Key.ls.FF_SRC i)]
  if n.any fun i => decide (2 ^ s.nat (Key.ls.RATE_K i) ≤ s.nat (Key.ls.PHASE i)) then some St.range
  else if n.any fun i => (srcs i).any fun w => !sourceOk w then some St.range
  else if n.any fun i => ((srcs i).take 2).any fun w =>
      bits w 14 8 == 0x0D && decide (s.nat (Key.ls.RATE_K (bits w 7 0)) ≤ s.nat (Key.ls.RATE_K i)) then some St.conflict
  else if 40 < s.execCount.1 then some St.admission
  else none

/-! ### Flowstone learners (R237-R242) -/

/-- The state of a learner (Table 07-10). -/
def State.flState (s : State) (g : Nat) : Nat := s.nat (Key.fl.FL_STATE g)

/-- The factor of the correction (R240): 1, but falling to 0 while it fades. -/
def Learner.factor (x : Learner) : Rat := if x.fading then x.fadeFrom * x.fade / 1920 else 1

/-- A learner whose correction begins to fade from its present value (R240). -/
def Learner.fadeOut (x : Learner) : Learner := { x with fadeFrom := x.factor, fading := true, fade := 1920 }

/-- A learner changes state (R239); SEARCH, DISABLED and FENCED fade the correction (R240). -/
def setFl (g new : Nat) : Phase := fun s =>
  let old := s.flState g
  if old = new then []
  else [.nat (Key.fl.FL_STATE g) new, .event Ev.FL_STATE_CHANGED (args16 [g, old, new]),
        .learner g fun x => { x with due := none, changedAt := some s.tickNow }]
    ++ (if new = 3 then [.bump (Key.fl.FL_HOLDS g) 1, .learner g fun x => { x with quiet := none }] else [])
    ++ (if new = 0 ∨ new = 1 ∨ new = 4 then
          [.learner g fun x => { x.fadeOut with again := false }] else [])

/-- The rank of the target of a change of state (R239): FENCED, DISABLED, SEARCH, HOLD, LEARNING. -/
def flRank (new : Nat) : Nat := if new = 4 then 4 else if new = 0 then 3 else if new = 1 then 2 else if new = 3 then 1 else 0

/-- The higher-ranked of two changes that fall due at one tick (R239). -/
def flHigher (a b : Option Nat) : Option Nat := match a, b with
  | some x, some y => if flRank x < flRank y then b else a
  | some _, none => a
  | none, _ => b

/-- A change of state falls due (R239): it is taken now, but where the learner's tick of this instant is still to run, or has
changed the learner already, at the coming tick, together with what else falls due there. -/
def flChange (g new : Nat) : Phase := fun s =>
  if s.ticked && (s.learner g).changedAt != some s.tickNow then setFl g new s
  else [.learner g fun x => { x with due := flHigher x.due (some new) }]

/-- FL_ENABLE 0 falls due at the tick that runs at a block boundary before the boundary's changes (R239). -/
def State.flOff (s : State) (g : Nat) : Bool :=
  s.atBoundary && s.units.disp.blockAt != some s.blockSample
    && s.units.waiting.any fun w => w.key == Key.fl.FL_ENABLE g && w.value == .num 0

/-- The state in which an enabled learner starts (R239): LEARNING with an explicit period, else SEARCH. -/
def State.flStart (s : State) (g : Nat) : Nat := if s.num (Key.fl.FL_MODE g) = 1 then 2 else 1

/-- A learner starts (R239); a correction that still fades ends its fade (R240). -/
def flBegin (g : Nat) : Phase := fun s => setFl g (s.flStart g) s

/-- FL_ENABLE takes effect (R239). -/
def flEnable (g : Nat) (on : Bool) : Phase := fun s =>
  let st := s.flState g
  if on then (if st = 0 then flBegin g s else [])
  else if st = 0 ∨ st = 4 then [] else flChange g 0 s

/-- FL_CLEAR (R240): the correction fades, then the learner restarts. -/
def flClear (g : Nat) : Phase := fun s =>
  let st := s.flState g
  if st = 1 ∨ st = 2 ∨ st = 3 then [.learner g fun x => { x.fadeOut with again := true }] else []

/-- The correction has reached 0 (R240): the buffer is cleared. -/
def flFadeDone (g : Nat) : Phase := fun s =>
  let x := s.learner g
  if !x.fading || x.fade != 0 then []
  else phases [
    always [.learner g fun x => { x with c := [], fading := false, fade := 1920, fadeFrom := 1, again := false },
            .num (Key.fl.CORR_PEAK g) 0],
    if x.again then flChange g (s.flStart g) else always []] s

/-- A learner's fence is cleared (R241). -/
def flUnfence (g cause : Nat) : Phase := fun s =>
  if s.flState g = 4 then phases [flBegin g, always [.event Ev.FL_UNFENCED (args16 [g, cause])]] s else []

/-- The ripple period in use, ns (R238). -/
def State.flPeriod (s : State) (g : Nat) : Nat :=
  if s.num (Key.fl.FL_MODE g) = 1 then s.nat (Key.fl.FL_PERIOD g) else s.nat (Key.fl.FL_PERIOD_NOW g)

/-- The period and frequency in use are shown. -/
def flShow (g period : Nat) : List Effect :=
  [.nat (Key.fl.FL_PERIOD_NOW g) period, .nat (Key.fl.FL_FREQ g) (if period = 0 then 0 else 1000000000000 / period)]

/-- The tracker locks on, or follows to, a period in ns within 90-130 Hz (R238, R239). -/
def flTrackerLock (g period : Nat) : Phase := fun s =>
  if s.num (Key.fl.FL_MODE g) = 1 ∨ period < 7692308 ∨ 11111111 < period then []
  else if s.flState g = 1 then phases [always (flShow g period), flChange g 2] s
  else if s.flState g = 2 ∨ s.flState g = 3 then flShow g period
  else []

/-- The tracker loses lock (R238, R239). -/
def flTrackerLoss (g : Nat) : Phase := fun s =>
  if s.num (Key.fl.FL_MODE g) = 0 ∧ (s.flState g = 2 ∨ s.flState g = 3) then flChange g 1 s else []

/-- The window of HOLD in ticks (R239): one period or 20 ms, whichever is longer. -/
def State.flWindow (s : State) (g : Nat) : Nat := max 1920 ((s.flPeriod g * 96000 + 999999999) / 1000000000)

/-- A quiet window ends HOLD (R239). -/
def flHoldWindowEnd (g : Nat) : Phase := fun s =>
  match (s.learner g).quiet with
  | none => []
  | some q => if s.flState g = 3 ∧ q + s.flWindow g ≤ s.tickNow then flChange g 2 s else []

/-- The correction value of a point. -/
def Learner.at (x : Learner) (i : Nat) : Int := match x.c.find? fun p => p.1 == i with
  | some p => p.2
  | none => 0

/-- The value in LSB of 2^-20 V of a limit in mV. -/
def mvLsb (mv : Nat) : Rat := (mv * 1048576 : Nat) / (1000 : Rat)

/-- A learner at a tick (R237, R239-R241): of the changes that fall due at it the highest-ranked one is taken. Where the fade before a
restart ends at this tick, the restart is one of them (R240): another change is taken only if it ranks higher, and then there is no
restart. In BOOT the engine does not run (R213). -/
def learnerTick (g t : Nat) : Phase := fun s =>
  if s.mode = .boot then [] else
  let x := s.learner g
  let grp := s.group g
  let st := s.flState g
  let n := s.nat (Key.fl.FL_POINTS g)
  let period := s.flPeriod g
  let raw : Rat := x.theta + (if period = 0 then 0 else 1000000000 / 96000 / (period : Rat))
  let theta := raw - raw.floor
  let i := (theta * n).floor.toNat
  let ci := x.at i
  let r := sat32 (grp.vbus - (grp.vPred + ci))
  let j := (i + n - s.nat (Key.fl.FL_LEAD g) % (max n 1)) % (max n 1)
  let learns := st == 2 && x.iLast != some i
  let cj := sat32 (mul (s.get (Key.fl.FL_Q g)) (sat32 (x.at j + sat32 (mul (s.get (Key.fl.FL_L g)) r))))
  let c := if learns then Tbl.set (fun _ => 0) x.c j cj else x.c
  let fade := if x.fading then x.fade - 1 else x.fade
  let on := st == 2 || st == 3 || x.fading
  let y : Learner := { x with c := c, fade := fade }
  let corr := if on then rounded (Key.fl.CORR_PEAK g) (y.at i * y.factor) else 0
  let peak : Int := c.foldl (fun a p => max a |p.2|) 0
  let loud := decide (mvLsb (s.nat (Key.fl.FL_STEP_LIMIT g)) < ((|r| : Int) : Rat))
  let bad := loud || grp.notReady || grp.ov
  let tooHigh := learns && decide (mvLsb (s.nat (Key.fl.FL_CORR_MAX g)) < ((|cj| : Int) : Rat))
  let second := t % 96000 == 0
  let micro := fun (k : Nat) (sum : Int) => Effect.num k (rounded k
    (sqrtQ ((sum : Rat) / (max 1 (x.accN + 1) : Nat)) * 1000000 / 1048576))
  let dIn := grp.vbus - grp.vPred
  let restarts := x.fading && fade == 0 && x.again
  phases [
    always [.learner g fun x => { x with
      theta := theta, iLast := some i, c := c, fade := fade, corr := corr,
      quiet := if st = 3 ∧ !bad then (match x.quiet with
        | some q => some q
        | none => some t) else none,
      accIn := if second then 0 else x.accIn + dIn * dIn, accOut := if second then 0 else x.accOut + r * r,
      accN := if second then 0 else x.accN + 1 }],
    always (if learns then [.num (Key.fl.CORR_PEAK g) (rounded (Key.fl.CORR_PEAK g) ((peak * 1000000 : Int) / (1048576 : Rat)))]
      else []),
    always (if second then [micro (Key.fl.RIPPLE_IN g) (x.accIn + dIn * dIn), micro (Key.fl.RIPPLE_OUT g) (x.accOut + r * r)]
      else []),
    (if st ∈ [2, 3] ∧ s.num (Key.fl.FL_MODE g) = 1 ∧ s.nat (Key.fl.FL_PERIOD_NOW g) ≠ period then always (flShow g period)
      else always []),
    (if tooHigh then always [.event Ev.FL_FENCED (args16 [g, j] ++ le 4 cj)] else always []),
    (match flHigher (if tooHigh then some 4 else if st = 2 ∧ bad ∧ !s.flOff g then some 3 else none)
        (if st = 0 ∨ st = 4 then none else x.due) with
     | some new =>
       if !restarts then setFl g new
       else if flRank new ≤ flRank (s.flStart g) then always [.learner g fun x => { x with due := none }]
       else phases [setFl g new, always [.learner g fun x => { x with again := false }]]
     | none => always [])] s

/-- Why FL_ENABLE 1 is refused, if it is (R238). -/
def State.flRefused (s : State) (g : Nat) : Bool :=
  let n := s.nat (Key.fl.FL_POINTS g)
  (if s.num (Key.fl.FL_MODE g) = 1 then decide (s.nat (Key.fl.FL_PERIOD g) * 96000 / 1000000000 < n) else decide (738 < n))
    || decide (n ≤ s.nat (Key.fl.FL_LEAD g))

/-- The first block boundary after the engine starts (R213): every slot takes the state that STATE_REQ requests, and
the learners that of FL_ENABLE. -/
def engineStart : Phase := fun s =>
  if s.mode = .boot ∨ !s.units.disp.engineNew then []
  else phases [
    always [.disp fun d => { d with engineNew := false }],
    (fun s => (List.range 64).map fun n => .slot n fun x => { x with reqWait := some (s.nat (Key.ls.STATE_REQ n)) }),
    forAll (List.range 4) fun g => fun s => if s.flag (Key.fl.FL_ENABLE g) then flEnable g true s else []] s

end Sys2Proof.Machine
end

