-- ==== Sys2Proof/Machine/Cone.lean ====
section
/-!
DEFINITION. Machine/Cone.lean: cone control (R244-R270): driver model, pilot, thermal observer, velocity and excursion
estimates, limits and drift; and the loop tick as a whole (R207, R215, R237, R279).
-/

namespace Sys2Proof.Machine

/-! ### The driver model (R245-R248) -/

/-- Whether a channel's MODEL_STATE is VALID (R246). -/
def State.modelValid (s : State) (c : Nat) : Bool := s.num (Key.drv.MODEL_STATE c) == 1

/-- An entry of a channel as a rational, in units of 1/d. -/
def State.ent (s : State) (k d : Nat) : Rat := (s.num k : Rat) / (d : Rat)

/-- ω_s = 2π × FS, rad/s (R245). -/
def State.omega (s : State) (c : Nat) : Rat := Config.twoPi * s.ent (Key.drv.FS c) 1000

/-- The derived one of Bl and Mms in its LSB, when what it derives from is set (R245). -/
def State.derived (s : State) (c : Nat) : Option Int :=
  let re := s.ent (Key.drv.RE_REF c) 1000000
  let qes := s.ent (Key.drv.QES c) 1000
  let w := s.omega c
  if s.num (Key.drv.BL_MMS_SEL c) = 0 then
    if s.num (Key.drv.BL c) = 0 ∨ re = 0 ∨ qes = 0 ∨ s.num (Key.drv.FS c) = 0 then none
    else
      let bl := s.ent (Key.drv.BL c) 1000
      some (rounded (Key.drv.MMS_USED c) (qes * bl * bl / (w * re) * 1000000))
  else if s.num (Key.drv.MMS c) = 0 ∨ re = 0 ∨ qes = 0 ∨ s.num (Key.drv.FS c) = 0 then none
  else some (rounded (Key.drv.BL_USED c) (sqrtQ (w * s.ent (Key.drv.MMS c) 1000000 * re / qes) * 1000))

/-- Whether the Q factors of a committed model break R245, once all are set. -/
def State.qFault (s : State) (c : Nat) : Bool :=
  let t := s.ent (Key.drv.QTS c) 1000
  let e := s.ent (Key.drv.QES c) 1000
  let m := s.ent (Key.drv.QMS c) 1000
  t != 0 && e != 0 && m != 0 && decide (2 / 100 * (1 / t) < |1 / t - (1 / e + 1 / m)|)

/-- Whether a committed model breaks R245: the Q factors, and the range of the derived value. -/
def State.modelFault (s : State) (c : Nat) : Bool :=
  let d := match s.derived c with
    | none => false
    | some x => if s.num (Key.drv.BL_MMS_SEL c) = 0 then decide (x < 100 ∨ 10000000 < x) else decide (x < 100 ∨ 100000 < x)
  s.qFault c || d

/-- Whether every parameter of R246 is set. -/
def State.modelComplete (s : State) (c : Nat) : Bool :=
  [Key.drv.RE_REF c, Key.drv.FS c, Key.drv.QTS c, Key.drv.QES c, Key.drv.QMS c,
   if s.num (Key.drv.BL_MMS_SEL c) = 0 then Key.drv.BL c else Key.drv.MMS c,
   Key.thm.RTH_VC c, Key.thm.TAU_VC c, Key.thm.RTH_M c, Key.thm.TAU_M c].all fun k => s.num k != 0

/-- Re(T), µΩ (R248). -/
def State.reNow (s : State) (c : Nat) : Int :=
  let re := s.num (Key.drv.RE_REF c)
  if !(s.chan c).everValid then re
  else rounded (Key.drv.RE_NOW c) (re * (1 + 393 / 100000 *
    ((s.num (Key.thm.T_COIL_EST c) : Rat) / 65536 - s.ent (Key.drv.T_REF c) 100)))

/-- What a commit of a channel's model sets (R245, R246, R248). -/
def modelCommit (c : Nat) : Phase := phases [
  (fun s =>
    let sel := s.num (Key.drv.BL_MMS_SEL c)
    let d := (s.derived c).getD 0
    let new : Int := if s.modelComplete c then 1 else 0
    [.num (Key.drv.BL_USED c) (if sel = 0 then s.num (Key.drv.BL c) else d),
     .num (Key.drv.MMS_USED c) (if sel = 0 then d else s.num (Key.drv.MMS c))]
    ++ (if s.num (Key.drv.MODEL_STATE c) = new then []
        else [.num (Key.drv.MODEL_STATE c) new, .event Ev.MODEL_STATE_CHANGED (args16 [c, new.toNat]),
              .chan c fun x => { x with everValid := x.everValid || new == 1 }])),
  (fun s => [.num (Key.drv.RE_NOW c) (s.reNow c)])]

/-- The entries of R247. -/
def modelEntries (c : Nat) : List Nat :=
  [Key.drv.RE_REF c, Key.drv.T_REF c, Key.drv.LE c, Key.drv.LE2 c, Key.drv.RE2 c, Key.drv.FS c, Key.drv.QTS c,
   Key.drv.QES c, Key.drv.QMS c, Key.drv.BL_MMS_SEL c, Key.drv.BL c, Key.drv.MMS c, Key.drv.FS_TARGET c,
   Key.drv.Q_TARGET c]

/-- PROTECTION: the protections in force (Table 08-2). -/
def State.protection (s : State) (c : Nat) : Nat :=
  flagIf (s.slotState (32 + c) == 1) 0 ||| flagIf (s.slotState (16 + c) == 1) 1 ||| flagIf (s.slotState c == 1) 2
    ||| flagIf (s.modelValid c) 3 ||| flagIf ((s.nat (Key.prot.FENCE_CAUSE c)).testBit 2) 4

/-! ### The pilot (R249-R251) -/

/-- Whether the pilot of a channel is asked for, whatever the state of its bridge (R249). -/
def State.pilotAsked (s : State) (c : Nat) : Bool :=
  (s.mode == .run || s.mode == .holdover) && s.flag (Key.thm.PILOT_EN c) && s.modelValid c

/-- Whether the pilot of a channel runs (R249). -/
def State.pilotOn (s : State) (c : Nat) : Bool := s.pilotAsked c && !s.released c

/-- The pilot at a tick as a fraction of full scale (R249): zero phase at every whole second. -/
def State.pilot (s : State) (c t : Nat) : Rat :=
  if s.pilotOn c then
    ((s.chan c).pilotLevel : Rat) / 1000000 / s.ent (Key.gn.V_FS c) 1000
      * Config.real .sin ((360 * 3 * (t % 96000) : Nat) / (96000 : Rat)) 0
  else 0

/-- One tick more of a sum with cosine and sine of a whole frequency in Hz (R250). -/
def phasor (hz t : Nat) (p : Rat × Rat) (x : Rat) : Rat × Rat :=
  let a : Rat := ((360 * hz * (t % 96000) : Nat) : Rat) / 96000
  (p.1 + x * Config.real .cos a 0, p.2 + x * Config.real .sin a 0)

/-- The other lines of the band 1.5-6 Hz that a window of one second resolves (R250, log 169). -/
def pilotLines : List Nat := [2, 4, 5, 6]

/-- The pilot window that tick `t` belongs to, with the voltage and current of that tick (R250). -/
def State.pilotTick (s : State) (c t : Nat) (w : PilotSum) (v i : Rat) : PilotSum :=
  let w : PilotSum := if w.sec = t / 96000 then w else { sec := t / 96000 }
  if !s.pilotAsked c then { w with bad := true }
  else
    let rest := if w.rest.isEmpty then pilotLines.map fun _ => ((0, 0) : Rat × Rat) else w.rest
    { w with on := true, bad := w.bad || !s.pilotOn c || s.units.anchor.phase != 0 || (s.chan c).calPhase == 2,
             v := phasor 3 t w.v v, i := phasor 3 t w.i i,
             rest := (pilotLines.zip rest).map fun p => phasor p.1 t p.2 i }

/-- The square of the magnitude of a phasor. -/
def mag2 (p : Rat × Rat) : Rat := p.1 * p.1 + p.2 * p.2

/-- Re_meas of a pilot window in Ω (R250). -/
def PilotSum.re (w : PilotSum) : Rat :=
  if mag2 w.i = 0 then 0 else (w.v.1 * w.i.1 + w.v.2 * w.i.2) / mag2 w.i

/-- Whether a pilot window is rejected (R250). -/
def State.pilotRejects (s : State) (c : Nat) (w : PilotSum) : Bool :=
  let ref := s.ent (Key.drv.RE_REF c) 1000000
  w.bad || decide (mag2 w.i = 0 ∨ 2 * mag2 w.i < (w.rest.map mag2).sum ∨ w.re < 8 / 10 * ref ∨ 2 * ref < w.re)

/-- The pilot window [k s, k + 1 s) has ended and is judged (R250, R251, R253). A window in which the pilot was never asked for
is none. While the throttle pauses class B, whose work this is, nothing is judged (R197). -/
def pilotWindowEnd (c k : Nat) : Phase := fun s => match (s.chan c).pilotDone with
  | none => []
  | some w =>
    let done : Effect := .chan c fun y => { y with pilotDone := none }
    if w.sec ≠ k ∨ s.classPaused (c + 48) then []
    else if !w.on then [done]
    else if s.pilotRejects c w then
      let n := (s.chan c).rejects + 1
      [done, .bump (Key.thm.PILOT_REJECTS c) 1, .chan c fun y => { y with rejects := n }]
      ++ (if 10 ≤ n ∧ s.num (Key.thm.PILOT_STATE c) = 1 then
            [.num (Key.thm.PILOT_STATE c) 2, .event Ev.PILOT_DISTURBED (args16 [c])] else [])
    else
      let ref := s.ent (Key.drv.RE_REF c) 1000000
      let meas := s.ent (Key.drv.T_REF c) 100 + (w.re / ref - 1) / (393 / 100000)
      let gain := s.ent (Key.thm.OBS_GAIN c) 65536
      let vc := s.num (Key.thm.RTH_VC c)
      let m := s.num (Key.thm.RTH_M c)
      let err := meas - (s.chan c).tCoil
      [done, .num (Key.thm.T_COIL_MEAS c) (rounded (Key.thm.T_COIL_MEAS c) (meas * 65536)), .bump (Key.thm.PILOT_RESULTS c) 1,
       .chan c fun y => { y with rejects := 0, tCoil := y.tCoil + gain * err,
                                 tMag := y.tMag + gain * err * m / (vc + m : Int) }]
      ++ (if s.num (Key.thm.PILOT_STATE c) = 2 then [.num (Key.thm.PILOT_STATE c) 1] else [])

/-! ### The thermal observer (R252-R254) -/

/-- One step of the observer (R252): nodes (coil, magnet) with power p. -/
def State.observe (s : State) (c : Nat) (p : Rat) (n : Rat × Rat) : Rat × Rat :=
  let amb := s.ent (Key.thm.T_AMB c) 100
  let mag := n.2 + 1 / 1500 / s.ent (Key.thm.TAU_M c) 1 * (amb + p * s.ent (Key.thm.RTH_M c) 1000 - n.2)
  (n.1 + 1 / 1500 / s.ent (Key.thm.TAU_VC c) 1000 * (mag + p * s.ent (Key.thm.RTH_VC c) 1000 - n.1), mag)

/-- Whether the time constants of the observer are set. -/
def State.observes (s : State) (c : Nat) : Bool := s.flag (Key.thm.TAU_M c) && s.flag (Key.thm.TAU_VC c)

/-- A number of steps of the observer with P = 0. -/
def State.cool (s : State) (c : Nat) : Nat → Rat × Rat → Rat × Rat
  | 0, n => n
  | k + 1, n => s.cool c k (s.observe c 0 n)

/-- The nodes are published (R252), with the highest of T_COIL_EST. -/
def coilPublish (c : Nat) : Phase := fun s =>
  let x := s.chan c
  let t := rounded (Key.thm.T_COIL_EST c) (x.tCoil * 65536)
  [.num (Key.thm.T_COIL_EST c) t, .num (Key.thm.T_MAG_EST c) (rounded (Key.thm.T_MAG_EST c) (x.tMag * 65536)),
   .num (Key.thm.T_COIL_PEAK c) (max t (s.num (Key.thm.T_COIL_PEAK c)))]

/-- The observer states are stored (R254). Without anchored time a state has no valid time of its own; one that is held keeps
the instant at which it was first stored (log 165). -/
def observersSave : Phase := fun s =>
  let at' := fun (x : Chan) => if s.units.anchor.anchored then s.now else if x.obsHeld then x.obsFrom else 0
  [.unit fun u => { u with obsStore := (List.range 16).foldl (fun o c =>
      let x := Tbl.at ({} : Chan) u.chans c
      Tbl.set (fun _ => none) o c (some (x.tCoil, x.tMag, at' x))) u.obsStore },
   .mgmt fun m => { m with obsAt := s.mtbNs }]
  ++ (List.range 16).map fun c => .nat (Key.thm.OBS_SAVED c) s.now

/-- OBSERVER_STORE (R254): every 10 s, but not in an absence (Table 15-1). -/
def observerStore : Phase := fun s =>
  if s.mtbNs < s.units.mgmt.obsAt + 10000000000 ∨ !s.units.mgmt.served then [] else observersSave s

/-- The dawn sequence loads the stored observer states (R254). -/
def observersLoad : Phase := phases [
  (fun s => (List.range 16).map fun c =>
    let amb := s.ent (Key.thm.T_AMB c) 100
    match Tbl.at none s.units.obsStore c with
    | some (tc, tm, t) =>
      if t = 0 then .chan c fun x => { x with tCoil := amb, tMag := amb }
      else .chan c fun x => { x with tCoil := tc, tMag := tm, obsHeld := true, obsFrom := t }
    | none => .chan c fun x => { x with tCoil := amb, tMag := amb }),
  (fun s => (List.range 16).map fun c => .num (Key.thm.T_COIL_PEAK c) (rounded (Key.thm.T_COIL_EST c) ((s.chan c).tCoil * 65536))),
  forAll (List.range 16) coilPublish]

/-- OBSERVER_COOL_ON_LOCK (R254): at the first LOCKED after dawn both nodes cool once by the time since the store. -/
def observerCool : Phase := fun s =>
  if s.nat Key.lock.LOCK_STATE ≠ 2 then []
  else forAll (List.range 16) (fun c => fun s =>
    if !(s.chan c).obsHeld then []
    else
      let x := s.chan c
      let n := if s.observes c then s.cool c ((s.now - x.obsFrom) * 1500 / 1000000000) (x.tCoil, x.tMag) else (x.tCoil, x.tMag)
      phases [always [.chan c fun x => { x with obsHeld := false, tCoil := n.1, tMag := n.2 }], coilPublish c] s) s

/-! ### Estimates (R255, R256, R301) -/

/-- The parameters of the reference model at a rate (R257). -/
def State.refModel (s : State) (c rate : Nat) : List Rat :=
  let n := fun k => (s.num (k c) : Rat)
  let f := if s.num (Key.drv.FS_TARGET c) = 0 then n Key.drv.FS else n Key.drv.FS_TARGET
  let q := if s.num (Key.drv.Q_TARGET c) = 0 then n Key.drv.QTS else n Key.drv.Q_TARGET
  [n Key.drv.BL_USED, n Key.drv.RE_REF, n Key.drv.MMS_USED, f, q, n Key.gn.V_FS, rate]

/-- One tick more of a sum with cosine and sine of the 50 Hz of a probe, at tick `k` of its period (R288). -/
def phasor50 (k : Nat) (p : Rat × Rat) (x : Rat) : Rat × Rat :=
  let a : Rat := ((360 * k : Nat) : Rat) / 1920
  (p.1 + x * Config.real .cos a 0, p.2 + x * Config.real .sin a 0)

/-- A sensed current in A less that of the output filter, from the change of the voltage since the last tick (R301). -/
def State.filtered (s : State) (c : Nat) (i dv : Int) : Rat :=
  (i : Rat) / 16777216 - (if s.num (Key.pw.OUT_FILTER c) = 1 then 1 / 2000000 * (dv : Rat) / 1048576 * 96000 else 0)

/-- The sensed voltage (2^-20 V) and current (2^-24 A) of a channel at a tick on the low-latency path `v`, `i` and on the
linear-phase path `vl`, `il`, and what the estimator makes of them (R255); pilot, probe and power take the linear-phase path
(R250, R288, R306). -/
def senseTick (c : Nat) (v i vl il : Int) : Phase := fun s =>
  let x := s.chan c
  let u : Rat := (v : Rat) / 1048576
  let amps := s.filtered c i (v - x.vSense)
  let ul : Rat := (vl : Rat) / 1048576
  let al := s.filtered c il (vl - x.vLin)
  let le2 := s.ent (Key.drv.LE2 c) 1000000000
  let re2 := s.ent (Key.drv.RE2 c) 1000
  let iLe2 := if le2 = 0 ∨ re2 = 0 then 0 else x.iLe2 + x.vLe2 / le2 / 96000
  let vLe2 := re2 * (amps - iLe2)
  let emf := u - s.ent (Key.drv.RE_NOW c) 1000000 * amps - s.ent (Key.drv.LE c) 1000000000 * (amps - x.iPrev) * 96000 - vLe2
  let on := s.modelValid c
  let vel := if on ∧ x.calPhase ≠ 2 then
      sat32 (rounded (Key.exc.V_EST c) (emf / s.ent (Key.drv.BL_USED c) 1000 * 16777216)) else 0
  let exc := if !on then 0 else if x.calPhase = 2 then x.xEst
    else x.xEst * (1 - Config.twoPi * s.ent (Key.exc.X_LEAK c) 1000 / 96000) + (vel : Rat) / 16777216 / 96000
  let e28 := rounded (Key.exc.X_EST c) (exc * 2 ^ 28)
  let dc := Config.filterStep .dcMean [96000] x.dcSt u
  let mean := if x.calPhase = 2 then s.num (Key.prot.DC_MEAN c) else rounded (Key.prot.DC_MEAN c) (dc.headD 0 * 1000)
  let up := if s.fs = 96000 then [(x.s8 : Rat)] else Config.filterStep .interp [48000, 96000] x.up x.s8
  let upV := if s.fs = 96000 then [(x.vref : Rat)] else Config.filterStep .interp [48000, 96000] x.upV x.vref
  let p := s.pilot c s.tickNow
  let pv := if s.pilotOn c then velocitySection (s.refModel c 96000) x.pilotSt p else (0, [])
  let t := s.tickNow
  let dw : DriftSum := if x.drift.win = t / 960000 then x.drift else { win := t / 960000 }
  let vNow : Rat := (vel : Rat) / 16777216
  let lhs := s.ent (Key.drv.BL_USED c) 1000 / s.ent (Key.drv.MMS_USED c) 1000000 * amps
    - (vNow - (x.vEst : Rat) / 16777216) * 96000
  let s8L := sat32 (rounded 0x6301 (up.headD 0))
  let low := Config.filterStep .split [s.num (Key.gn.EXC_SPLIT c), 96000] x.driftSt ((s8L : Rat) / 2147483648)
  let probeAt := x.probing && decide (40 < x.seqPos ∧ x.seqPos ≤ probeTicks)
  let k := x.seqPos - 41
  [.chan c fun x => { x with
     vSense := v, iSense := i, vLin := vl, iLin := il, aLin := al, iPrev := amps, iLe2 := iLe2, vLe2 := vLe2, vEst := vel, xEst := exc,
     xMax := if |x.xMax| < |e28| then e28 else x.xMax,
     dcSt := if x.calPhase = 2 then x.dcSt else dc.drop 1,
     dcSince := if 2000 < |mean| then (match x.dcSince with
       | some t => some t
       | none => some s.mtbNs) else none,
     s8L := s8L, up := up.drop 1,
     vrefL := sat32 (rounded 0x6302 (upV.headD 0 + pv.1 * 16777216)), upV := upV.drop 1, pilotSt := pv.2,
     pilot := s.pilotTick c t x.pilot ul al,
     pilotDone := if x.pilot.sec = t / 96000 then x.pilotDone else some x.pilot,
     drift := { dw with bad := dw.bad || !s.playing c, vv := dw.vv + vNow * vNow, vx := dw.vx + vNow * exc, xx := dw.xx + exc * exc,
                        vy := dw.vy + vNow * lhs, xy := dw.xy + exc * lhs, low := dw.low + low.headD 0 * low.headD 0, n := dw.n + 1 },
     driftDone := if x.drift.win = t / 960000 then x.driftDone else some x.drift,
     driftSt := low.drop 1,
     iSq := x.iSq + amps * amps, vi := x.vi + ul * ((il : Rat) / 16777216), ticks := x.ticks + 1,
     probeSum := if probeAt then
         let (a, b) := phasor50 k (x.probeSum.1, x.probeSum.2.1) ul
         let (d, f) := phasor50 k (x.probeSum.2.2.1, x.probeSum.2.2.2) al
         (a, b, d, f)
       else x.probeSum,
     pilotLevel := if s.tickNow % 96000 = 0 then s.nat (Key.thm.PILOT_LEVEL c) else x.pilotLevel },
   .num (Key.prot.DC_MEAN c) mean]

/-! ### The loop tick -/

/-- c_exc at a tick: LS(16 + n) interpolated between its executions (R170). -/
def State.cExc (s : State) (c t : Nat) : Int := s.sourceSp true t (0x0D00 + 16 + c)

/-- The ceilings of a channel follow its loops once they have run (R170, R210), with the events of R262. -/
def ceilingTick (c t : Nat) : Phase := fun s =>
  let x := s.chan c
  let th := s.num (Key.ls.U_NOW (32 + c))
  let st := s.num (Key.ls.U_NOW (48 + c / 4))
  let ex := s.cExc c t
  let put := fun (n k : Nat) (v : Int) => if !(s.slot n).ran ∨ s.num k = v then [] else [Effect.num k v]
  let top : Int := 2147483647
  put (32 + c) (Key.gn.C_THERMAL c) th ++ put (48 + c / 4) (Key.gn.C_STAGE c) st ++ put (16 + c) (Key.gn.C_EXC c) ex
  ++ (if !(s.slot (32 + c)).ran then [] else if th < top then
        (if s.passed x.thRest 10000000000 then
          [.event Ev.THERMAL_FOLDBACK (args16 [c] ++ le 4 (s.num (Key.thm.T_COIL_EST c)))] else [])
        ++ (if x.thRest.isSome then [.chan c fun x => { x with thRest := none }] else [])
      else if x.thRest.isNone then [.chan c fun x => { x with thRest := some s.mtbNs }] else [])
  ++ (if !(s.slot (16 + c)).ran then [] else if ex < top then
        (if s.passed x.exRest 1000000000 then
          [.event Ev.EXCURSION_LIMITING (args16 [c] ++ le 4 (s.num (Key.exc.X_PUBLISHED c)))] else [])
        ++ (if x.exRest.isSome then [.chan c fun x => { x with exRest := none }] else [])
      else if x.exRest.isNone then [.chan c fun x => { x with exRest := some s.mtbNs }] else [])

/-- What a probe drives as a fraction of full scale (R288): after precharge and loop ramp, one period of a Hann-windowed
50 Hz sine of 0.5 V peak; tick n of the sequence has n + 1 in `seqPos`. -/
def State.probeDrive (s : State) (c : Nat) : Rat :=
  let k := (s.chan c).seqPos - 41
  if !(s.chan c).probing ∨ (s.chan c).seqPos < 41 ∨ 1920 ≤ k then 0
  else 1 / 2 / s.ent (Key.gn.V_FS c) 1000 * ((1 - Config.real .cos ((360 * k : Nat) / (1920 : Rat)) 0) / 2)
    * Config.real .sin ((360 * k : Nat) / (1920 : Rat)) 0

/-- The sequences of a channel step at a tick, and its modulator input is formed (R175, R279, R288). -/
def modulatorTick (c t : Nat) : Phase := phases [
  gateTick c,
  fun s =>
    let x := s.chan c
    let sum := rounded 0x6303 (x.gc.value * s.restartFactor c * x.s8L + s.probeDrive c * 2147483648
      + x.gl.value * (s.num (Key.ls.U_NOW c) + s.pilot c t * 2147483648 + s.injected 1 c))
    .chan c (fun x => { x with xMod := sat32 sum }) :: (if sat32 sum ≠ sum then clip c 3 s else [])]

/-- The fans follow their loops once they have run; a duty below 0.3 is noted for the stall test (R210, R469). -/
def fanTick : Phase := fun s =>
  (List.range 4).flatMap fun g =>
    let d := s.num (Key.ls.U_NOW (52 + g))
    let now := s.num (Key.fan.FAN_DUTY g)
    let follows := s.mode ≠ .boot ∧ (s.slot (52 + g)).ran
    (if follows ∧ now ≠ d then [.num (Key.fan.FAN_DUTY g) d] else [])
      ++ if (if follows then d else now) < 644245095 ∧ !s.units.mgmt.fanSlow.testBit g then
          [.mgmt fun m => { m with fanSlow := m.fanSlow ||| 2 ^ g }] else []

/-- A loop-engine tick (R207): sense, estimates, slots, learners, ceilings, modulator inputs. -/
def loopTick (x : LoopSense) : Phase := readP State.tickNow fun t => phases [
  always ((List.range 4).map fun g => .group g fun y =>
    { y with vbus := x.vbus.getD g 0, vSum := y.vSum + x.vbus.getD g 0, vTicks := y.vTicks + 1 }),
  forAll (List.range 16) (fun c => senseTick c (x.vOut.getD c 0) (x.iOut.getD c 0) (x.vLin.getD c 0) (x.iLin.getD c 0)),
  engineTick t x.capacity (x.badCheck.map (·.val)),
  forAll (List.range 4) (fun g => learnerTick g t),
  forAll (List.range 16) (fun c => ceilingTick c t),
  forAll (List.range 16) (fun c => modulatorTick c t),
  fanTick]

/-! ### The model task at a block boundary (R248, R252, R256, R263) -/

/-- The driver model run over drive voltages from an excursion in m and a velocity in m/s: the excursion at each (R256). -/
def driverRun (p : List Rat) : List Rat → List Rat → List Rat
  | _, [] => []
  | st, u :: l =>
    let y := Config.filterStep .driver p st u
    y.headD 0 :: driverRun p (y.drop 1) l

/-- The entry of greatest magnitude with its sign, the first among equals. -/
def greatest (l : List Rat) : Rat := l.foldl (fun a y => if |a| < |y| then y else a) 0

/-- What a run of the model task works on at a block boundary (R252, R256): P is 0 while the stored state is held (R254) and while
the channel is thermally fenced (R263). -/
def State.modelRun (s : State) (c : Nat) (ahead : State → Nat → List Int) : ModelRun :=
  let x := s.chan c
  let n := fun k => (s.num (k c) : Rat)
  { deadline := s.blockTime,
    power := if x.obsHeld ∨ (s.nat (Key.prot.FENCE_CAUSE c)).testBit 2 then 0 else s.ent (Key.drv.RE_NOW c) 1000000 * x.i2,
    params := [n Key.drv.FS, n Key.drv.QTS, n Key.drv.BL_USED, n Key.drv.MMS_USED, n Key.drv.RE_NOW, s.fs],
    x := x.xEst, v := x.vEst, xMax := x.xMax,
    drive := if s.flag (Key.exc.PREDICT_EN c) then
        some ((ahead s c).map fun y => (y : Rat) / 2147483648 * n Key.gn.V_FS / 1000) else none }

/-- The excursion that a run publishes, in 2^-28 m (R256): the greatest that the driver model predicts for the play block from x_est
and VEL_EST at the boundary, driven by the block's stage 8 output times V_FS; or with PREDICT_EN 0 the greatest of the block played. -/
def ModelRun.excursion (r : ModelRun) : Int := match r.drive with
  | some u => rounded (Key.exc.X_PUBLISHED 0) (greatest (driverRun r.params [r.x, (r.v : Rat) / 16777216] u) * 2 ^ 28)
  | none => r.xMax

/-- A run of the model task publishes its excursion for the play block (R256). -/
def excursionPublish (c : Nat) (r : ModelRun) : Phase := fun s =>
  let e := if !s.modelValid c then 0 else sat32 r.excursion
  let um := rounded (Key.exc.X_PEAK c) ((|e| * 1000000 : Int) / (2 ^ 28 : Rat))
  [.num (Key.exc.X_PUBLISHED c) e, .num (Key.exc.X_PEAK c) (max um (s.num (Key.exc.X_PEAK c))),
   .num (Key.exc.V_EST c) r.v, .num (Key.exc.X_EST c) (sat32 (rounded (Key.exc.X_EST c) (r.x * 2 ^ 28))),
   .chan c fun x => { x with published := some s.mtbNs }]
  ++ (if s.flag (Key.exc.X_LIMIT c) ∧ s.xLimit c < |e| then [.bump (Key.exc.X_OVER_BLOCKS c) 1] else [])

/-- The means of a block over its ticks (R252, R306); a calibration holds that of i_out² (R466). -/
def blockMeans (c : Nat) : Phase := fun s =>
  let x := s.chan c
  if x.ticks = 0 then []
  else [.chan c fun x => { x with
    i2 := if x.calPhase = 2 then x.i2 else x.iSq / x.ticks, power := x.vi / x.ticks, iSq := 0, vi := 0, ticks := 0 }]

/-- What a run of the model task of a channel does (R252, R256). -/
def modelStep (c : Nat) (r : ModelRun) : Phase := fun s =>
  let x := s.chan c
  phases [
    (if s.observes c then
      let n := s.observe c r.power (x.tCoil, x.tMag)
      always [.chan c fun x => { x with tCoil := n.1, tMag := n.2 }] else always []),
    coilPublish c, excursionPublish c r] s

/-- The model task of a channel that went on late ends for the block of deadline `d` (R196): it works on what stood there. -/
def modelEnds (c d : Nat) : Phase := fun s => match (s.chan c).lateRuns.find? fun r => r.deadline == d with
  | none => []
  | some r => phases [
      always [.chan c fun x => { x with lateRuns := x.lateRuns.filter fun r => r.deadline != d }], modelStep c r] s

/-- The run of the model task for the block that begins: it ends at once, or where it is late goes on as its lane runs it (R196); what
a fenced lane ran is gone. -/
def modelTask (c : Nat) (r : ModelRun) : Phase := fun s =>
  let x := s.chan c
  let runs := fun (d : Nat) => s.units.disp.late.any fun y => y.task == c + 48 && y.deadline == d
  if !x.modelLate then modelStep c r s
  else [.chan c fun x => { x with lateRuns := (x.lateRuns ++ [r]).filter fun r => runs r.deadline }]

/-- The model task of a channel at a block boundary (R252, R256), and what stands on it (R248, R263). -/
def modelBoundary (c : Nat) (ahead : State → Nat → List Int) : Phase := phases [
  blockMeans c,
  readP (fun s => s.modelRun c ahead) fun r => phases [always [.chan c fun x => { x with xMax := 0 }], modelTask c r],
  (fun s =>
    let x := s.chan c
    let hot := s.modelValid c && decide (65536 * (s.num (Key.thm.T_LIMIT c) + s.num (Key.thm.T_HARD_OFFSET c))
      < 100 * s.num (Key.thm.T_COIL_EST c))
    let since : Option Nat := if hot then some (x.hotSince.getD s.mtbNs) else none
    let ms := min 65535 (match since with
      | some t => (s.mtbNs - t) / 1000000
      | none => 0)
    let pilot : Int := if !s.pilotOn c then 0 else if s.num (Key.thm.PILOT_STATE c) = 0 then 1
      else s.num (Key.thm.PILOT_STATE c)
    let put := fun (k : Nat) (v : Int) => if s.num k = v then [] else [Effect.num k v]
    put (Key.drv.RE_NOW c) (s.reNow c) ++ put (Key.thm.T_HARD_TIME c) ms ++ put (Key.thm.PILOT_STATE c) pilot
      ++ (if x.hotSince = since then [] else [.chan c fun x => { x with hotSince := since }]))]

/-! ### Limits and drift (R263, R264, R268, R269) -/

/-- THERMAL_HARD (R263): 2 s above the hard limit release and fence the channel. -/
def thermalHard (c : Nat) : Phase := fun s =>
  if s.modelValid c && s.passed (s.chan c).hotSince 2000000000 && !(s.nat (Key.prot.FENCE_CAUSE c)).testBit 2 then
    phases [fenceFast c 2, always [.bump (Key.thm.THERMAL_FENCES c) 1,
      .event Ev.THERMAL_HARD (args16 [c] ++ le 4 (s.num (Key.thm.T_COIL_EST c)))]] s
  else []

/-- THERMAL_RESUMED (R264): the fence clears below the resume margin. -/
def thermalResumed (c : Nat) : Phase := fun s =>
  if (s.nat (Key.prot.FENCE_CAUSE c)).testBit 2
    && decide (100 * s.num (Key.thm.T_COIL_EST c) < 65536 * (s.num (Key.thm.T_LIMIT c) - s.num (Key.thm.T_RESUME_MARGIN c))) then
    phases [always [.event Ev.THERMAL_RESUMED (args16 [c] ++ le 4 (s.num (Key.thm.T_COIL_EST c))),
      .chan c fun x => { x with hotSince := none }], fenceDrop c 4 2] s
  else []

/-- Whether a drift window counts (R268): the bridge played throughout, at the level asked for, and the fit has a solution. -/
def State.driftCounts (s : State) (c : Nat) (w : DriftSum) : Bool :=
  !w.bad && w.n != 0 && s.num (Key.drv.FS c) != 0 && decide (w.vv * w.xx - w.vx * w.vx ≠ 0)
    && decide (dbGain (s.ent (Key.drv.TRACK_LEVEL c) 100) * dbGain (s.ent (Key.drv.TRACK_LEVEL c) 100) ≤ w.low / w.n)

/-- b of the least-squares fit (R268). -/
def DriftSum.b (w : DriftSum) : Rat := (w.vv * w.xy - w.vx * w.vy) / (w.vv * w.xx - w.vx * w.vx)

/-- DRIFT_WINDOW_END (R268, R269): the window [a s, b s) has ended and is judged, but while the throttle pauses class B (R197). -/
def driftWindowEnd (c a b : Nat) : Phase := fun s => match (s.chan c).driftDone with
  | none => []
  | some w =>
    let x := s.chan c
    if a ≠ 10 * w.win ∨ b ≠ 10 * (w.win + 1) ∨ s.classPaused (c + 48) then []
    else if !s.driftCounts c w then [.chan c fun x => { x with driftDone := none }]
    else
    let f := rounded (Key.drv.FS_TRACKED c) (sqrtQ (max w.b 0) / Config.twoPi * 1000)
    let drift := rounded (Key.drv.FS_DRIFT c) (((f : Rat) / s.num (Key.drv.FS c) - 1) * 1000)
    let limit := s.num (Key.drv.DRIFT_LIMIT c)
    let run : Int := if limit < |drift| then max 0 x.driftRun + 1 else if |drift| ≤ limit - 30 then min 0 x.driftRun - 1 else 0
    let tell := decide (3 ≤ run) && !x.driftTold
    [.num (Key.drv.FS_TRACKED c) f, .num (Key.drv.FS_DRIFT c) drift,
     .chan c fun x => { x with driftDone := none, driftRun := run,
                               driftTold := if tell then true else if run ≤ -3 then false else x.driftTold }]
    ++ (if tell then [.event Ev.SUSPENSION_CHANGE (args16 [c] ++ le 4 f)] else [])

end Sys2Proof.Machine
end

