-- ==== Sys2Proof/Machine/Results.lean ====
section
/-!
DEFINITION. Machine/Results.lean: what analyses compute from what they have recorded (R322-R330): frequency points, impedance,
the fit of the driver model, load figures, impulse response and loop margins. The estimation of a cross-spectrum, the fit and
the deconvolution are the device's (log 172); what they are taken from and what is made of them is the rules'.
-/

namespace Sys2Proof.Machine

/-! ### Complex numbers as pairs -/

def cAdd (a b : Rat × Rat) : Rat × Rat := (a.1 + b.1, a.2 + b.2)
def cMul (a b : Rat × Rat) : Rat × Rat := (a.1 * b.1 - a.2 * b.2, a.1 * b.2 + a.2 * b.1)

/-- The inverse; that of 0 is 0. -/
def cInv (a : Rat × Rat) : Rat × Rat := (a.1 / mag2 a, -(a.2 / mag2 a))
def cDiv (a b : Rat × Rat) : Rat × Rat := cMul a (cInv b)

/-- The magnitude. -/
def cAbs (a : Rat × Rat) : Rat := sqrtQ (mag2 a)

/-- The argument in degrees, from −180 to 180. -/
def cArg (a : Rat × Rat) : Rat := Config.real .atan2 a.2 a.1

/-! ### Frequency points (R322) -/

/-- f_k = 10 × 2^(k/24) Hz (R322). -/
def pointHz (k : Nat) : Rat := 10 * Config.real .pow 2 ((k : Rat) / 24)

/-- Whether f_k lies in a band in Hz, which needs no root: f_k^24 = 10^24 × 2^k. -/
def pointIn (lo hi : Rat) (k : Nat) : Bool := decide (lo ^ 24 ≤ 10 ^ 24 * 2 ^ k ∧ 10 ^ 24 * 2 ^ k ≤ hi ^ 24)

/-- The points of a band (R322). -/
def pointsIn (lo hi : Rat) : List Nat := (List.range 264).filter (pointIn lo hi)

/-- S_yx / S_xx in the 1/24-octave band centred on a frequency, from pairs (y, x) recorded at a rate (R322). -/
def transfer (rate hz : Rat) (l : List (Rat × Rat)) : Rat × Rat :=
  let c := Config.cross rate hz l
  (c.1 / c.2.2, c.2.1 / c.2.2)

/-- A quantity to 16 bits. -/
def sat16 (x : Int) : Int := max (-32768) (min 32767 x)

/-! ### Impedance and the driver model (R323-R325) -/

/-- Z of a channel in Ω at a frequency, from its recorded voltage and current (R323). -/
def Chan.impedance (x : Chan) (hz : Rat) : Rat × Rat := transfer 96000 hz x.trace

/-- The impedance of the model of R245 and R255 at a frequency, from RE, LE, LE2, RE2, FS, QES and QMS in SI units, with Re of `hot`
at the coil's temperature: Bl², and with it the motional part, goes with RE. -/
def modelImpedance (hot : Rat) (p : List Rat) (hz : Rat) : Rat × Rat :=
  let g := fun i => p.getD i 0
  let w := Config.twoPi * hz
  let le2 : Rat × Rat := (0, w * g 2)
  let re2 : Rat × Rat := (g 3, 0)
  let q := hz / g 4 / g 6
  let motion := cDiv (0, g 0 * g 6 / g 5 * q) (1 - hz / g 4 * (hz / g 4), q)
  cAdd (cAdd (hot, w * g 1) (cDiv (cMul le2 re2) (cAdd le2 re2))) motion

/-- The model's parameters in SI units, from those in the units of Table 08-1. -/
def modelSI (p : List Int) : List Rat :=
  (p.zip [1000000, 1000000000, 1000000000, 1000, 1000, 1000, 1000]).map fun x => (x.1 : Rat) / x.2

/-- The impedance of a channel's model in use at a frequency, with Re at the coil's temperature (R245, R248; log 207). -/
def State.modelUsed (s : State) (c : Nat) (hz : Rat) : Rat × Rat :=
  modelImpedance (s.ent (Key.drv.RE_NOW c) 1000000)
    (modelSI ([Key.drv.RE_REF c, Key.drv.LE c, Key.drv.LE2 c, Key.drv.RE2 c, Key.drv.FS c, Key.drv.QES c, Key.drv.QMS c].map s.num)) hz

/-- The impedance points of a channel (R322, R323). -/
def Chan.points (x : Chan) : List (Rat × Rat) := (List.range 264).map fun k => x.impedance (pointHz k)

/-- The fit of IDENTIFY: RE, LE, LE2, RE2, FS, QES, QMS in the units of Table 08-1 (R324). -/
def Chan.fit (x : Chan) : List Int := (List.range 7).map fun i => Config.fit x.points i

/-- The mean of the squared relative residuals of a fit over 10 Hz–20 kHz (R324). -/
def Chan.residual2 (x : Chan) : Rat :=
  let p := modelSI x.fit
  let e := x.points.zipIdx.map fun z =>
    let d := cAdd (modelImpedance (p.getD 0 0) p (pointHz z.2)) (-z.1.1, -z.1.2)
    mag2 d / mag2 z.1
  e.sum / 264

/-- The rms relative residual of a fit in 0.01 % (R324). -/
def Chan.residual (x : Chan) : Int := rounded 0x9100 (10000 * sqrtQ x.residual2)

/-- The least of a list of magnitudes with their points, the lowest point among equals. -/
def leastPoint (l : List (Rat × Nat)) : Rat × Nat :=
  (l.foldl (fun b x => match b with
    | none => some x
    | some y => if x.1 < y.1 then some x else some y) (none : Option (Rat × Nat))).getD (0, 0)

/-- Z_MIN in Ω and its point: the least |Z| over 100 Hz–2 kHz (R325). -/
def Chan.zMin (x : Chan) : Rat × Nat := leastPoint ((pointsIn 100 2000).map fun k => (cAbs (x.impedance (pointHz k)), k))

/-- The largest |arg Z| over 100 Hz–10 kHz in degrees (R325). -/
def Chan.argMax (x : Chan) : Rat :=
  (pointsIn 100 10000).foldl (fun a k => max a |cArg (x.impedance (pointHz k))|) 0

/-- The least model |Z| over 100 Hz–2 kHz in Ω (R325). -/
def State.modelMin (s : State) (c : Nat) : Rat :=
  (leastPoint ((pointsIn 100 2000).map fun k => (cAbs (s.modelUsed c (pointHz k)), k))).1

/-- Whether |Z| lies more than 25 % from the model at more than 10 % of the points over 20 Hz–20 kHz (R325). -/
def State.offModel (s : State) (c : Nat) : Bool :=
  let l := pointsIn 20 20000
  let off := l.filter fun k =>
    let m := cAbs (s.modelUsed c (pointHz k))
    decide (m / 4 < |cAbs ((s.chan c).impedance (pointHz k)) - m|)
  decide (l.length < 10 * off.length)

/-- The class of a load (R325, Table 10-5), and whether there was a reference. `leak` is the largest deviation of a released
terminal from VBUS/2 in mV, VBUS being that at the end of their reading (log 222). -/
def State.loadClass (s : State) (x : Handle) (c leak : Nat) : Nat × Bool :=
  let nom : Rat := ((x.params.getD (9 + c) 0 : Int) : Rat) / 1000
  let model := decide (nom = 0) && s.modelValid c
  let ref := if nom ≠ 0 then nom else if model then s.modelMin c else 0
  let z := (s.chan c).zMin.1
  let k :=
    if !x.inRun ∧ x.vbus.getD (c / 4) 0 < 20 * leak then 5
    else if cAbs ((s.chan c).impedance 50) < 1 then 2
    else if 200 < z then 1
    else if ref ≠ 0 ∧ (100 * z < 75 * ref ∨ 125 * ref < 100 * z) then 3
    else if 60 < (s.chan c).argMax ∨ (model ∧ s.offModel c) then 4
    else 0
  (k, decide (ref ≠ 0))

/-! ### Impulse response and loop gain (R327, R328) -/

/-- The impulse response of a channel (R327): `len` samples in 2^-31, of the recorded pairs of microphone and sweep. -/
def State.impulse (s : State) (x : Handle) (c len : Nat) : List Int :=
  let mic := (x.params.getD 5 0).toNat
  let delay := (s.port (if bits mic 15 8 = 3 then 4 + bits mic 7 5 else bits mic 7 5)).inDelay
  (List.range len).map fun i => sat32 (rounded 0x9100
    (2147483648 * Config.impulse [s.fs, s.B, s.delaySamples c, (x.params.getD 6 0 : Int), delay] (s.chan c).trace i))

/-- The sample of greatest magnitude of an impulse response, the first among equals. -/
def peakAt (l : List Int) : Nat :=
  ((l.zipIdx.foldl (fun b x => match b with
    | none => some x
    | some y => if y.1.natAbs < x.1.natAbs then some x else some y) (none : Option (Int × Nat))).getD (0, 0)).2

/-- The points of LOOP_FRF: those of the sweep's band (R322, R328). -/
def State.frfPoints (s : State) (slot : Nat) : List Nat :=
  pointsIn 8 (min (if s.fs = 96000 then 40000 else 22000) (38400 / 2 ^ s.nat (Key.ls.RATE_K slot)))

/-- L at the points of a LOOP_FRF (R328): −U_pid / W. -/
def State.loopGain (s : State) (x : Handle) : List (Nat × (Rat × Rat)) :=
  (s.frfPoints x.slot).map fun k =>
    let h := transfer (96000 / 2 ^ s.nat (Key.ls.RATE_K x.slot)) (pointHz k) x.trace
    (k, (-h.1, -h.2))

/-- Where between two neighbouring points a crossing lies, from 0 to 1 (log 195). -/
def crossing (a b : Rat) : Rat := max 0 (min 1 (Config.between a b))

/-- The value at a crossing between two points. -/
def lerp (t a b : Rat) : Rat := a + t * (b - a)

/-- A difference of angles, from −180 to 180 degrees. -/
def wrap180 (d : Rat) : Rat := d - 360 * ((d + 180) / 360).floor

/-- Angles followed without jumps from `p` on. -/
def unwrapped : Rat → List Rat → List Rat
  | _, [] => []
  | p, a :: l => (p + wrap180 (a - p)) :: unwrapped (p + wrap180 (a - p)) l

/-- The crossover in mHz and the phase margin in 0.01° (R328): the highest frequency at which |L| falls through 1. -/
def frfCrossover (l : List (Nat × (Rat × Rat))) : Int × Int :=
  match ((l.zip l.tail).filter fun p => decide (cAbs p.2.2 < 1 ∧ 1 ≤ cAbs p.1.2)).getLast? with
  | none => (0, 0)
  | some (a, b) =>
    let t := crossing (cAbs a.2) (cAbs b.2)
    (rounded 0x9100 (1000 * lerp t (pointHz a.1) (pointHz b.1)),
     sat16 (rounded 0x9100 (100 * (180 + lerp t (cArg a.2) (cArg a.2 + wrap180 (cArg b.2 - cArg a.2))))))

/-- The gain margin in 0.01 dB (R328): at the lowest frequency at which arg L reaches −180°; 0x7FFF where it does not. -/
def frfGainMargin (l : List (Nat × (Rat × Rat))) : Int :=
  let a := (l.map fun p => cAbs p.2).zip (unwrapped 0 (l.map fun p => cArg p.2))
  match (a.zip a.tail).find? fun p => decide (p.2.2 ≤ -180 ∧ -180 < p.1.2) with
  | none => 32767
  | some (a, b) => sat16 (rounded 0x9100 (-2000 * Config.real .log10 (lerp (crossing a.2 b.2) a.1 b.1) 0))

/-! ### Records (R330, Table 10-6) -/

/-- Impedance points in µΩ. -/
def zBytes (l : List (Rat × Rat)) : List Byte :=
  l.flatMap fun z => le 4 (sat32 (rounded 0x9100 (1000000 * z.1))) ++ le 4 (sat32 (rounded 0x9100 (1000000 * z.2)))

/-- The record of one channel, or of the slot of LOOP_FRF (Table 10-6); `leak` is the largest terminal deviation in mV. -/
def State.resultRecord (s : State) (x : Handle) (c leak : Nat) : List Byte :=
  let y := s.chan c
  match x.op with
  | 0x0910 => zBytes y.points
  | 0x0911 =>
    let f := fun i => y.fit.getD i 0
    let qts := rounded 0x9100 (if f 5 = 0 ∨ f 6 = 0 then 0 else 1 / (1 / (f 5 : Rat) + 1 / (f 6 : Rat)))
    le 4 (f 0) ++ le 2 (x.params.getD (25 + c) 0) ++ le 2 (min 65535 y.residual) ++ le 4 (f 1) ++ le 4 (f 2) ++ le 4 (f 3)
      ++ le 4 (f 4) ++ le 2 (f 5) ++ le 2 (f 6) ++ le 2 qts ++ le 2 0 ++ zBytes y.points
  | 0x0912 =>
    let (k, ref) := s.loadClass x c leak
    let (z, at') := y.zMin
    le 1 k ++ le 1 (flagIf x.inRun 0 ||| flagIf (!ref) 1 ||| flagIf (x.repeated.testBit c) 2 : Nat)
      ++ le 2 (sat16 (rounded 0x9100 (100 * y.argMax))) ++ le 4 (rounded 0x9100 (1000 * z))
      ++ le 2 (rounded 0x9100 (pointHz at')) ++ le 2 (if x.inRun then 0 else sat16 leak)
      ++ le 4 (rounded 0x9100 (1000 * cAbs (y.impedance 50)))
  | 0x0913 =>
    let len := (x.params.getD 7 0).toNat
    let ir := s.impulse x c len
    le 4 (rounded 0x9100 ((peakAt ir * 1000000000 : Nat) / (s.fs : Rat))) ++ le 4 len ++ le 8 0 ++ ir.flatMap (le 4)
      ++ (List.range 264).flatMap fun k =>
        let h := transfer s.fs (pointHz k) y.trace
        le 2 (sat16 (rounded 0x9100 (2000 * Config.real .log10 (cAbs h) 0))) ++ le 2 (sat16 (rounded 0x9100 (100 * cArg h)))
  | _ =>
    let l := s.loopGain x
    let (f, m) := frfCrossover l
    le 4 f ++ le 2 m ++ le 2 (frfGainMargin l) ++ le 8 0
      ++ l.flatMap fun p => le 4 (sat32 (rounded 0x9100 (65536 * p.2.1))) ++ le 4 (sat32 (rounded 0x9100 (65536 * p.2.2)))

end Sys2Proof.Machine
end

