-- ==== Sys2Proof/Machine/Measure.lean ====
section
/-!
DEFINITION. Machine/Measure.lean: measurement (R304-R331): generators, captures, analyses and their results, the power
cap of MEASURE; and the end of a long operation (R321, R423).
-/

namespace Sys2Proof.Machine

/-! ### Generators (R309-R313) -/

/-- The state of a generator: 0 IDLE, 1 ARMED, 2 RUNNING, 3 ANALYSIS. -/
def State.genState (s : State) (g : Nat) : Nat := s.nat (Key.gen.G_STATE g)

/-- The injection rate of a point in Hz (R309). -/
def State.genRate (s : State) (point : Nat) : Nat := if point = 0 then s.fs else 96000

/-- A generator changes state, with its event. -/
def setGen (g new : Nat) : Phase := fun s =>
  if s.genState g = new then []
  else [.nat (Key.gen.G_STATE g) new, .event Ev.GENERATOR_STATE (args16 [g, new])]

/-- Whether a generator drives a loop slot: RUNNING or ANALYSIS at points 2, 3. -/
def State.drivesSlot (s : State) (g n : Nat) : Bool :=
  let x := s.gen g
  (s.genState g == 2 || s.genState g == 3) && (x.point == 2 || x.point == 3) && x.target == n

/-- Why a write of 1 or 2 to G_STATE is refused, if it is (R304, R309-R313). -/
def State.genRefused (s : State) (g : Nat) : Option Nat :=
  let point := s.nat (Key.gen.G_POINT g)
  let target := s.nat (Key.gen.G_TARGET g)
  let top := 450 * s.genRate point
  let wave := s.nat (Key.gen.G_WAVE g)
  if s.mode ≠ .measure then some St.mode
  else if top < s.nat (Key.gen.G_FREQ g) ∨ top < s.nat (Key.gen.G_FREQ2 g) then some St.range
  else if wave = 1 ∧ s.num (Key.gen.G_DURATION g) = 0 then some St.range
  else if 2 ≤ point ∧ 63 < target then some St.range
  else if 2 ≤ point ∧ (List.range 4).any (fun h => h != g && s.drivesSlot h target) then some St.conflict
  else none

/-- The parameters of a generator are taken for its start (R309-R313). -/
def genLatch (g : Nat) : Phase := fun s =>
  let point := s.nat (Key.gen.G_POINT g)
  let level := s.num (Key.gen.G_LEVEL g)
  let fade := s.num (Key.gen.G_FADE g)
  let dur := s.nat (Key.gen.G_DURATION g) * s.genRate point / 1000
  [.gen g fun x => { x with
     point := point, target := s.nat (Key.gen.G_TARGET g), amp := none, mv := 0,
     form := [s.num (Key.gen.G_WAVE g), s.num (Key.gen.G_FREQ g), s.num (Key.gen.G_FREQ2 g), dur, fade],
     level := { g0 := level, g1 := level }, rise := 0, fall := none, fallLen := fade.toNat, out := 0,
     prbs := s.nat (Key.gen.G_SEED g), filt := [], begun := false, owner := none, sg := false }]

/-- A generator begins injecting (R310). -/
def genBegin (g : Nat) : Phase := fun s =>
  [.num (Key.gen.G_SAMPLES g) 0, .gen g fun x => { x with begun := true, first := some s.mtbNs }]

/-- The fall of a generator begins (R310). -/
def genFall (g len : Nat) : Phase := fun s =>
  if (s.gen g).begun ∧ (s.gen g).fall.isNone then [.gen g fun x => { x with fall := some 0, fallLen := len }] else []

/-- The raised-cosine factor of k of `len` samples (R310). -/
def raised (k len : Nat) : Rat :=
  if len ≤ k then 1 else (1 - Config.real .cos ((180 * k : Nat) / (len : Rat)) 0) / 2

/-- The level of a generator as a factor. -/
def Gen.factor (x : Gen) : Rat := match x.amp with
  | some a => a
  | none => dbFactor x.level.value

/-- A generator fades out over 32 samples (R308, R329): one that falls already goes on from its present factor, unless its fall
ends sooner. -/
def genCut (g : Nat) : Phase := fun s =>
  let x := s.gen g
  match x.fall with
  | none => genFall g 32 s
  | some k => if x.fallLen ≤ k + 32 then [] else
      [.gen g fun y => { y with amp := some (y.factor * (1 - raised k y.fallLen)), fall := some 0, fallLen := 32 }]

/-- A write of G_STATE takes effect (R310). The entries in force at that instant are those of the start, and a start that they do
not allow does not take place (R304, R309, R313, log 194). -/
def gStateEffect (g v : Nat) : Phase := fun s =>
  match v with
  | 1 => if s.genState g = 0 ∧ (s.genRefused g).isNone then
      phases [genLatch g, always [.gen g fun x => { x with sg := true }], setGen g 1] s else []
  | 2 => if (s.genState g = 0 ∨ s.genState g = 1) ∧ (s.genRefused g).isNone then phases [genLatch g, setGen g 2] s else []
  | _ =>
    if s.genState g = 2 ∧ (s.gen g).begun then genFall g (s.nat (Key.gen.G_FADE g)) s
    else if s.genState g = 1 ∨ s.genState g = 2 then phases [setGen g 0, always [.gen g fun _ => {}]] s
    else []

/-- GENERATOR_START (R310): a RUNNING generator begins. -/
def generatorStart (g : Nat) : Phase := fun s =>
  if s.genState g = 2 ∧ !(s.gen g).begun then genBegin g s else []

/-- A level write ramps a running generator over G_FADE samples (R311). -/
def gLevelEffect (g : Nat) (v : Int) : Phase := fun s =>
  if s.genState g = 2 then [.gen g fun x => { x with level := x.level.to v (s.nat (Key.gen.G_FADE g)) }] else []

/-- One step of PRBS31, x^31 + x^28 + 1 (R309). -/
def prbsStep (n : Nat) : Nat :=
  let b := (if n.testBit 30 then 1 else 0) + (if n.testBit 27 then 1 else 0)
  (2 * n + b % 2) % 2 ^ 31

/-- A sine of a phase in cycles. -/
def sine (cycles : Rat) : Rat := Config.real .sin (360 * (cycles - cycles.floor)) 0

/-- The waveform of a generator at its sample n, of peak (pink noise: rms) 1, and the pink filter's state (R309, Table
10-2); `none` where G_ARB has been played. -/
def State.waveform (s : State) (g n : Nat) : Option (Rat × List Rat) :=
  let x := s.gen g
  let rate : Rat := s.genRate x.point
  let f1 : Rat := x.form.getD 1 0 / 1000
  let f2 : Rat := x.form.getD 2 0 / 1000
  match x.form.getD 0 0 with
  | 0 => some (sine (f1 * n / rate), [])
  | 1 =>
    let total : Rat := x.form.getD 3 0
    if f1 = f2 ∨ total = 0 then some (sine (f1 * n / rate), [])
    else
      let ln := Config.real .log10 (f2 / f1) 0 / Config.real .log10 (Config.real .exp 1 0) 0
      some (sine (f1 * (total / rate) / ln * (Config.real .pow (f2 / f1) (n / total) - 1)), [])
  | 2 =>
    let l := Config.filterStep .pink [rate] x.filt (if x.prbs.testBit 30 then 1 else -1)
    some (max (-4) (min 4 (l.headD 0)), l.drop 1)
  | 3 =>
    let b := s.blob (Key.gen.G_TONE_FREQS g)
    let m := s.nat (Key.gen.G_TONES g)
    let f := (List.range m).map fun k => leAt b (4 * k) 4
    some (Config.crest f * (f.zipIdx.map fun (q, k) =>
      sine ((q : Rat) / 1000 * n / rate - ((k + 1) * k : Nat) / (2 * m : Nat))).foldl (· + ·) 0, [])
  | 4 => some (1, [])
  | _ =>
    let b := s.blob (Key.gen.G_ARB g)
    let len := b.length / 4
    if len = 0 ∨ (len ≤ n ∧ !s.flag (Key.gen.G_ARB_LOOP g)) then none
    else some ((signed 32 (leAt b (4 * (n % len)) 4) : Rat) / 2147483648, [])

/-- A generator delivers one sample (R309-R311). -/
def genSample (g : Nat) : Phase := fun s =>
  let x := s.gen g
  if !x.begun then (if x.line.isEmpty then [] else [.gen g fun x => { x with line := (0 :: x.line).take 32, out := 0 }])
  else
    let n := s.nat (Key.gen.G_SAMPLES g)
    let dur := (x.form.getD 3 0).toNat
    let fade := (x.form.getD 4 0).toNat
    let fall := match x.fall with
      | some k => some k
      | none => if dur ≠ 0 ∧ dur ≤ n + fade then some 0 else none
    match s.waveform g n with
    | none => [.gen g fun x => { x with out := 0, fall := some x.fallLen, line := (0 :: x.line).take 32 }]
    | some (w, filt) =>
      let level := x.factor
      let env := raised x.rise fade * (match fall with
        | some k => if x.fallLen ≤ k then 0 else 1 - raised k x.fallLen
        | none => 1)
      let v := sat32 (rounded 0x9010 (level * w * env * 2147483648))
      [.bump (Key.gen.G_SAMPLES g) 1, .gen g fun x => { x with
        out := v, line := (v :: x.line).take 32, rise := min (x.rise + 1) fade, fall := fall.map (· + 1), filt := filt,
        prbs := prbsStep x.prbs, level := x.level.step }]

/-- GENERATOR_END (R310): the fall is over and the generator falls to IDLE. -/
def generatorEnd (g : Nat) : Phase := fun s =>
  let x := s.gen g
  match x.fall with
  | none => []
  | some k =>
    if x.fallLen ≤ k ∧ x.owner.isNone then
      phases [setGen g 0, always (
        (if x.point = 2 then [.slot x.target fun y => { y with inj := 0 }]
         else if x.point = 3 then [.slot x.target fun y => { y with injOut := 0 }] else [])
        ++ [.gen g fun y => { line := y.line }])] s
    else []

/-- A generator at a sample of its rate: one whose fall is over ends, one that runs begins, if it has not (R310). -/
def genInstant (g : Nat) : Phase := phases [generatorEnd g, generatorStart g, genSample g]

/-- The generators of one rate deliver their samples: those of the channel input at the sample strobe, the others at the
tick, where they reach their slot (R227, R313). -/
def genStrobe : Phase := forAll (List.range 4) fun g => fun s => if (s.gen g).point = 0 then genInstant g s else []
def genTick : Phase := phases [
  forAll (List.range 4) (fun g => fun s => if (s.gen g).point ≠ 0 then genInstant g s else []),
  (fun s => (List.range 4).flatMap fun g =>
    let x := s.gen g
    let sum := ((List.range 4).map fun h =>
      let y := s.gen h
      if y.begun ∧ y.point = x.point ∧ y.target = x.target then y.out else 0).sum
    if x.point = 2 then [.slot x.target fun y => { y with inj := sum }]
    else if x.point = 3 then [.slot x.target fun y => { y with injOut := sum }]
    else [])]

/-! ### Captures (R314-R318) -/

/-- Bytes that an arming allocates (R317). -/
def State.capBytes (s : State) (k : Nat) : Nat :=
  s.nat (Key.cap.C_LENGTH k) * (if s.num (Key.cap.C_FORMAT k) = 0 then 3 else 4)

/-- Whether a capture source is legal (R314, Table 10-3). -/
def capSourceOk (w : Nat) : Bool :=
  let k := bits w 14 8
  let i := bits w 7 0
  if 0x20 ≤ k ∧ k ≤ 0x23 then decide (i < 64)
  else if k = 0x30 then decide (i < 128)
  else if k = 0x31 then decide (i < 4)
  else sourceOk w

/-- Why an arming is refused, if it is (R314, R315, R317, R318). -/
def State.capRefused (s : State) (k : Nat) : Option Nat :=
  let kind := bits (s.nat (Key.cap.C_SOURCE k)) 14 8
  if !capSourceOk (s.nat (Key.cap.C_SOURCE k)) then some St.range
  else if (kind = 0x30 ∨ kind = 0x31) ∧ s.nat (Key.cap.C_RATE k) ≠ 0xFF then some St.range
  else if s.nat (Key.cap.C_LENGTH k) < s.nat (Key.cap.C_PRE k) then some St.range
  else if s.nat Key.meas.CAP_FREE + s.nat (Key.cap.C_BYTES k) < s.capBytes k then some St.range
  else none

/-- A write of C_STATE takes effect (R317): 0 frees, 1 arms and allocates, where the entries in force at that instant and the
memory that is free then allow it (R315, R317, log 194). -/
def cStateEffect (k v : Nat) : Phase := phases [
  (fun s => [.num (Key.cap.C_STATE k) 0, .bump Key.meas.CAP_FREE (s.num (Key.cap.C_BYTES k)), .num (Key.cap.C_BYTES k) 0,
             .reg (Key.cap.C_DATA k) (.bytes []), .cap k fun _ => {}]),
  (fun s => if v ≠ 1 ∨ (s.capRefused k).isSome then []
    else [.num (Key.cap.C_STATE k) 1, .bump Key.meas.CAP_FREE (-(s.capBytes k : Int)), .nat (Key.cap.C_BYTES k) (s.capBytes k),
          .num (Key.cap.C_PRE_VALID k) 0, .num (Key.cap.C_TRIG_AT k) 0,
          .cap k fun x => { x with
            armedAt := s.mtbNs,
            form := ([Key.cap.C_SOURCE k, Key.cap.C_RATE k, Key.cap.C_FORMAT k, Key.cap.C_LENGTH k, Key.cap.C_PRE k,
                      Key.cap.C_TRIGGER k, Key.cap.C_TRIG_ARG k, Key.cap.C_TRIG_TIME k, Key.cap.C_LEVEL k].map s.num) }])]

/-- A parameter that a capture took at its arming: 0 source, 1 rate, 2 format, 3 length, 4 pre-trigger length, 5 trigger,
6 argument, 7 time. -/
def State.capParam (s : State) (k i : Nat) : Nat := ((s.cap k).form.getD i 0).toNat

/-- The signal of a capture source (R314): V_OUT and I_OUT of the linear-phase path. -/
def State.capSignal (s : State) (w : Nat) : Int :=
  let i := bits w 7 0
  match bits w 14 8 with
  | 0x01 => absIf w (s.chan i).vLin
  | 0x02 => absIf w (s.chan i).iLin
  | 0x20 => absIf w (s.num (Key.ls.SP_NOW i))
  | 0x21 => absIf w (s.num (Key.ls.PV_NOW i))
  | 0x22 => absIf w (s.slot i).e
  | 0x23 => absIf w (s.num (Key.ls.U_NOW i))
  | 0x30 => absIf w (s.slotBack (i / 32) (i % 32) 0)
  | 0x31 => absIf w (s.slotBack (4 + i / 2) (i % 2) 0)
  | _ => s.source w

/-- Whether the sample `v` of an armed capture, whose instant is `at'`, meets its trigger (R318). A time is held against the sample's
exact instant. A generator and a start group count from the sample on at which the arming took effect; a generator that is to begin
at this very instant has its start sample here. -/
def State.capMeets (s : State) (k at' : Nat) (v : Int) : Bool :=
  let x := s.cap k
  let level := x.form.getD 8 0
  let arg := s.capParam k 6
  let up := match x.pre.head? with
    | some p => decide (p < level ∧ level ≤ v)
    | none => false
  let down := match x.pre.head? with
    | some p => decide (level < p ∧ v ≤ level)
    | none => false
  match s.capParam k 5 with
  | 0 => true
  | 1 => if s.capParam k 1 = 0xFF then decide (s.capParam k 7 * s.fs ≤ s.sampleNow * 1000000000)
    else decide (s.capParam k 7 * 96000 ≤ s.tickNow * 1000000000)
  | 2 => (match (s.gen arg).first with
      | some t => (s.gen arg).begun && decide (x.armedAt < t + 10416)
      | none => s.genState arg == 2)
  | 3 => up
  | 4 => down
  | 5 => up || down
  | _ => (match (s.sg arg).fixed with
      | some n => decide (sampleTime s.fs n ≤ at' ∧ s.presented x.armedAt < sampleTime s.fs (n + 1))
      | none => false)

/-- CAPTURE_TRIGGER (R318): the latest sample meets the trigger and is the first post-trigger sample. -/
def captureTrigger (k : Nat) : Phase := fun s =>
  let x := s.cap k
  if s.nat (Key.cap.C_STATE k) ≠ 1 ∨ !x.meets then []
  else
    let pre := s.capParam k 4
    let valid := min pre (x.pre.length - 1)
    [.num (Key.cap.C_STATE k) 2, .nat (Key.cap.C_TRIG_AT k) x.latest, .nat (Key.cap.C_PRE_VALID k) valid,
     .cap k fun x => { x with pre := (x.pre.drop 1).take pre,
                              data := if s.capParam k 3 = pre then [] else x.pre.take 1 }]

/-- The samples of a capture in the bytes of its format (R115, R316): bits [31:8] in three bytes, or in a word whose bits
[7:0] are zero. -/
def capBlob (format : Nat) (l : List Int) : List Byte :=
  l.flatMap fun v => if format = 0 then (le 4 v).drop 1 else 0 :: (le 4 v).drop 1

/-- CAPTURE_DONE (R318): all post-trigger samples are recorded. -/
def captureDone (k : Nat) : Phase := fun s =>
  let x := s.cap k
  let len := s.capParam k 3
  let pre := s.capParam k 4
  if s.nat (Key.cap.C_STATE k) ≠ 2 ∨ x.data.length < len - pre then []
  else
    let l := List.replicate (pre - x.pre.length) 0 ++ x.pre.reverse ++ x.data.reverse
    [.num (Key.cap.C_STATE k) 3, .reg (Key.cap.C_DATA k) (.bytes (capBlob (s.capParam k 2) l)),
     .event Ev.CAPTURE_DONE (args16 [k])]

/-- A capture records one sample of its rate, that of the instant `at'` (R318). -/
def capRecord (k at' : Nat) : Phase := fun s =>
  let st := s.nat (Key.cap.C_STATE k)
  let v := s.capSignal (s.capParam k 0)
  let pre := s.capParam k 4
  let post := s.capParam k 3 - pre
  if st = 1 then [.cap k fun x => { x with
    pre := (v :: x.pre).take (pre + 1), prev := x.pre.head?, latest := at', meets := s.capMeets k at' v }]
  else if st = 2 ∧ (s.cap k).data.length < post then [.cap k fun x => { x with data := v :: x.data }]
  else []

/-- A capture at a sample of its rate: what the latest sample has brought about stands before the next (R318). -/
def capSample (k at' : Nat) : Phase := phases [captureTrigger k, captureDone k, capRecord k at']

/-- The captures at a sample strobe and at tick `t` (R315). -/
def capStrobe : Phase := forAll (List.range 8) fun k => fun s => 
  if s.capParam k 1 = 0xFF then capSample k (sampleTime s.fs s.sampleNow) s else []
def capTick (t : Nat) : Phase := forAll (List.range 8) fun k => fun s =>
  let r := s.capParam k 1
  if r ≠ 0xFF ∧ t % 2 ^ r = 0 then capSample k (sampleTime 96000 t) s else []

/-! ### Long operations (R321, R423) -/

/-- A long operation ends (R423, R424): its record, and EVT_DONE to its session. -/
def handleEnd (h status result : Nat) : Phase := fun s =>
  match s.handle h with
  | none => []
  | some x =>
    if x.finished then []
    else [.handle h fun y => y.map fun y => { y with finished := true, status := status, result := result, progress := 100,
                                                     doneAt := s.mtbNs },
          .raise Ev.EVT_DONE (args16 [h, status, result]) x.session none]

/-! ### Analyses (R319-R330) -/

/-- The operations of Table 10-4. -/
def isAnalysis (op : Nat) : Bool := decide (0x0910 ≤ op ∧ op ≤ 0x0914)

/-- The analyses that run. -/
def State.analyses (s : State) : List (Nat × Handle) :=
  s.units.handles.filterMap fun p => match p.2 with
    | some x => if isAnalysis x.op && !x.finished then some (p.1, x) else none
    | none => none

/-- The channels that running analyses use (R319). -/
def State.analysed (s : State) : Nat := s.analyses.foldl (fun a p => a ||| p.2.chans) 0

/-- Bytes of the result of an analysis with an impulse response of `len` samples, at most (Table 10-6). -/
def resultBytes (op chans len : Nat) : Nat :=
  let n := (ones 16 chans).length
  match op with
  | 0x0910 => n * 2112
  | 0x0911 => n * 2144
  | 0x0912 => n * 16
  | 0x0913 => n * (16 + 4 * len + 1056)
  | _ => 2128

/-- The result object that an analysis takes (R320): FREE, else the oldest ended one that is not held. -/
def State.resultFor (s : State) : Option (Nat × Bool) :=
  match (List.range 64).find? fun r => s.num (Key.res.RES_STATE r) == 0 with
  | some r => some (r, false)
  | none =>
    let l := (List.range 64).filter fun r =>
      (s.num (Key.res.RES_STATE r) == 2 || s.num (Key.res.RES_STATE r) == 3) && !s.flag (Key.res.RES_HOLD r)
    (l.foldl (fun b r => match b with
      | none => some r
      | some q => if s.num (Key.res.RES_END r) < s.num (Key.res.RES_END q) then some r else some q) (none : Option Nat)).map
      fun r => (r, true)

/-- The bytes that the results hold besides object `r`, and those that running analyses are to fill (R320). -/
def State.resultStore (s : State) (r : Nat) : Nat :=
  ((List.range 64).filter (· != r)).foldl (fun a q => a + (s.blob (Key.res.RES_DATA q)).length) 0
    + (s.analyses.map fun p => resultBytes p.2.op p.2.chans (p.2.params.getD 7 0).toNat).sum

/-- Why an analysis is refused, if it is (R304, R319, R320, R324, R328). -/
def State.analysisRefused (s : State) (op chans slot : Nat) : Option Nat :=
  let inRun := op = 0x0912 ∧ s.mode = .run ∧ s.flag Key.meas.LC_RUN_EN
  if s.mode ≠ .measure ∧ !inRun then some St.mode
  else
    let l := ones 16 chans
    let frf := op = 0x0914
    if (chans = 0 ∧ !(frf ∧ (s.owner slot).isNone))
        ∨ l.any (fun c => s.chanFenced c || (s.mode == .measure && !(s.nat Key.meas.MEAS_CHANNELS).testBit c)
            || s.analysed.testBit c)
        ∨ (op = 0x0911 ∧ l.any fun c => s.slotState c == 1)
        ∨ (frf ∧ (63 < slot ∨ s.slotState slot ≠ 1
            ∨ chans ≠ (match s.owner slot with
                | some c => 2 ^ c
                | none => 0) ∨ (List.range 4).any fun g => s.drivesSlot g slot)) then some St.conflict
    else match (List.range 4).find? fun g => s.genState g == 0, s.resultFor with
      | some _, some (r, _) => if 4194304 < s.resultStore r + resultBytes op chans (s.nat Key.meas.IR_LEN) then some St.busy else none
      | _, _ => some St.busy

/-- The parameters of 0x9000 as latched at acceptance (R319), with the temperatures of R324. -/
def State.measParams (s : State) : List Int :=
  [Key.meas.MEAS_LEVEL, Key.meas.MEAS_SWEEP, Key.meas.LC_SILENCE, Key.meas.LC_WAIT, Key.meas.IDENT_T, Key.meas.RESP_MIC,
   Key.meas.RESP_POINT, Key.meas.IR_LEN, Key.meas.FRF_AMPL].map s.num
  ++ (List.range 16).map (fun c => s.num (Key.meas.Z_NOM_CH c))
  ++ (List.range 16).map (fun c => if s.modelValid c then
      rounded Key.meas.IDENT_T ((s.num (Key.thm.T_COIL_EST c) : Rat) * 100 / 65536) else s.num Key.meas.IDENT_T)

/-- The sweep of an analysis is given to its generator (R322, R326-R329): point, target, duration in ms, amplitude. -/
def sweepLatch (g point target ms : Nat) (amp : Rat) (mv : Nat) : Phase := fun s =>
  let rate := s.genRate point
  let top : Int := if s.fs = 96000 then 40000000 else 22000000
  [.gen g fun x => { x with
    point := point, target := target, amp := some amp, mv := mv, rise := 0, fall := none, fallLen := rate / 10, out := 0,
    form := [1, 8000, if 2 ≤ point then min top (400 * 96000 / 2 ^ s.nat (Key.ls.RATE_K target) : Nat) else top,
             (ms * rate / 1000 : Nat), (rate / 10 : Nat)],
    begun := false }]

/-- The sweep of an analysis begins on its next channel, or on all of them. -/
def sweepBegin (h : Nat) : Phase := fun s =>
  match s.handle h with
  | none => []
  | some x => match x.gen with
    | none => []
    | some g =>
      let p := fun i => (x.params.getD i 0).toNat
      let latch : Phase :=
        if x.inRun then sweepLatch g 1 x.live 1000 (1 / 100) 0
        else if x.op = 0x0912 then sweepLatch g 1 x.live 1000 1 (p 0)
        else if x.op = 0x0913 then
          let c := (ones 16 x.chans).find? fun c => decide (x.part ≤ c)
          sweepLatch g (if p 6 = 1 then 1 else 0) (2 ^ c.getD 0) (p 1) 1 (p 0)
        else if x.op = 0x0914 then sweepLatch g 3 x.slot (p 1) ((p 8 : Rat) / 2147483648) 0
        else sweepLatch g 1 x.chans (p 1) 1 (p 0)
      let taken := if x.op = 0x0912 then x.live else if x.op = 0x0913 then
          2 ^ ((ones 16 x.chans).find? fun c => decide (x.part ≤ c)).getD 16 else x.chans
      phases [latch, genBegin g,
        always ((ones 16 taken).map (fun c => .chan c fun y => { y with trace := [] })
          ++ [.handle h fun y => y.map fun y => { y with trace := [] }])] s

/-- The voltage and current of the sweeps that run, and the loop signals of a LOOP_FRF at an execution of its slot, are recorded at
a tick (R320, R323, R328). -/
def analysisTick : Phase := fun s =>
  s.analyses.flatMap fun p =>
    let x := p.2
    if !(s.gen (x.gen.getD 0)).begun then []
    else match x.op with
      | 0x0910 | 0x0911 | 0x0912 =>
        (ones 16 (if x.op = 0x0912 then (if x.sweeping then x.live else 0) else x.chans)).map fun c => .chan c fun y =>
          { y with trace := ((y.vLin : Rat) / 1048576, y.aLin) :: y.trace }
      | 0x0914 =>
        let y := s.slot x.slot
        if y.ran ∧ y.tLast = s.tickNow then
          [.handle p.1 fun h => h.map fun h => { h with trace := ((y.upid : Rat), (s.num (Key.ls.U_NOW x.slot) : Rat)) :: h.trace }]
        else []
      | _ => []

/-- The microphone of a RESPONSE and its sweep are recorded at a sample strobe (R327). -/
def analysisStrobe : Phase := fun s =>
  s.analyses.flatMap fun p =>
    let x := p.2
    let g := s.gen (x.gen.getD 0)
    let mic := (x.params.getD 5 0).toNat
    if x.op ≠ 0x0913 ∨ !g.begun then []
    else match (ones 16 x.chans).find? fun c => decide (x.part ≤ c) with
      | none => []
      | some c =>
        let v := s.slotBack (if bits mic 15 8 = 3 then 4 + bits mic 7 5 else bits mic 7 5) (bits mic 4 0) 0
        [.chan c fun y => { y with trace := ((v : Rat) / 2147483648, (g.out : Rat) / 2147483648) :: y.trace }]

/-- An analysis is accepted under handle `h` (R319, R320): generator, result object, parameters. -/
def analysisAccept (h session op chans slot : Nat) : Phase := fun s =>
  match (List.range 4).find? fun g => s.genState g == 0, s.resultFor with
  | some g, some (r, reused) => phases [
      always (if reused then [.event Ev.RESULT_REUSED (args16 [0x9100 + r])] else []),
      setGen g 3,
      always [
        .gen g fun x => { line := x.line, owner := some h },
        .num (Key.res.RES_STATE r) 1, .nat (Key.res.RES_KIND r) op, .nat (Key.res.RES_HANDLE r) h,
        .nat (Key.res.RES_CHANNELS r) chans, .nat (Key.res.RES_SLOT r) (if op = 0x0914 then slot else 0xFF),
        .nat (Key.res.RES_START r) s.now, .num (Key.res.RES_END r) 0, .num (Key.res.RES_STATUS r) 0,
        .num (Key.res.RES_POINTS r) 0, .reg (Key.res.RES_DATA r) (.bytes []), .bump Key.meas.ANALYSES_ACTIVE 1,
        .handle h fun _ => some {
          op := op, session := session, chans := chans, slot := slot, gen := some g,
          inRun := op == 0x0912 && s.mode == .run,
          startAt := s.mtbNs, params := s.measParams, result := 0x9100 + r }],
      (if op ≠ 0x0912 then sweepBegin h else always [])] s
  | _, _ => []

/-- Whether the sweep of a generator is over. -/
def Gen.fallen (x : Gen) : Bool := x.begun && (match x.fall with
  | some k => decide (x.fallLen ≤ k)
  | none => false)

/-- The data that an analysis has recorded when it ends early (R321): the records of the channels that are complete, where they are
measured one by one in sweeps of their own (R319, R329); within a sweep of all of them what is not stated, nor, for a LOADCHECK in
MEASURE, the terminal deviations that it has read (log 172). -/
def State.recorded (s : State) (x : Handle) : List Byte :=
  let free := Config.recorded [x.op, x.chans, x.swept, s.mtbNs]
  if x.op = 0x0913 then ((ones 16 x.chans).filter fun c => decide (c < x.part)).flatMap fun c => s.resultRecord x c 0
  else if x.op = 0x0912 then (ones 16 x.swept).flatMap fun c =>
    s.resultRecord x c (if x.inRun then 0 else (free (2 * c)).toNat + 256 * (free (2 * c + 1)).toNat)
  else (List.range (if (s.gen (x.gen.getD 0)).begun then resultBytes x.op x.chans 0 else 0)).map free

/-- RES_POINTS of the records of an analysis (R330). -/
def State.recordPoints (s : State) (x : Handle) : Nat :=
  if x.op = 0x0912 then 0 else if x.op = 0x0914 then (s.frfPoints x.slot).length else 264

/-- An analysis ends (R321) with a status and its records, one for each channel or the slot (R330), with the terminal deviations
read; `none` leaves what it has recorded so far. The classes that a LOADCHECK records are reported (R326): each stands first in its
record of 16 octets. -/
def analysisFinish (h status : Nat) (data : Option (List ChanResult)) : Phase := fun s =>
  match s.handle h with
  | none => []
  | some x =>
    if x.finished || !isAnalysis x.op then []
    else
      let r := x.result - 0x9100
      let chans := if x.op = 0x0914 then [0] else ones 16 x.chans
      let leak := fun (l : List ChanResult) (i : Nat) => (l.getD i {}).leak
      let blob := match data with
        | some l => chans.zipIdx.flatMap fun p => s.resultRecord x p.1 (leak l p.2)
        | none => s.recorded x
      let classes := if x.op ≠ 0x0912 then [] else
        (if data.isSome then chans else ones 16 x.swept).zipIdx.filterMap fun p =>
          let k := (blob.getD (16 * p.2) 0).toNat
          if k = 0 then none else some (Effect.event Ev.LOAD_CLASS (args16 [p.1, k]))
      let g := x.gen.getD 0
      phases [
        always ([.num (Key.res.RES_STATE r) (if status = St.ok then 2 else 3), .nat (Key.res.RES_END r) s.now,
                 .nat (Key.res.RES_STATUS r) status,
                 .nat (Key.res.RES_POINTS r) (if data.isNone ∧ (s.recorded x).isEmpty then 0 else s.recordPoints x),
                 .reg (Key.res.RES_DATA r) (.bytes blob), .bump Key.meas.ANALYSES_ACTIVE (-1)] ++ classes),
        handleEnd h status x.result,
        always [.gen g fun y => { y with
          owner := none,
          fall := if y.begun then (match y.fall with
            | some k => some k
            | none => some 0) else some y.fallLen }],
        generatorEnd g] s

/-- Whether the fit of an analysis makes it fail (R324). -/
def State.analysisFails (s : State) (x : Handle) : Bool :=
  x.op == 0x0911 && (ones 16 x.chans).any fun c => decide (1 / 400 < (s.chan c).residual2)

/-- Whether the microphone of a RESPONSE is invalid (R327). -/
def State.micInvalid (s : State) (x : Handle) : Bool :=
  let w := (x.params.getD 5 0).toNat
  x.op == 0x0913 && !(match bits w 15 8 with
    | 2 => s.slotValid (bits w 7 5) (bits w 4 0)
    | 3 => s.subframeValid (bits w 7 5) (bits w 4 0)
    | _ => false)

/-- Whether the throttle holds the work of analyses (R197). -/
def State.analysisPaused (s : State) : Bool := decide (3 ≤ s.nat Key.thr.THROTTLE_LEVEL)

/-- Whether an analysis is complete: the sweep of its last channel is over and its work is not paused (R197, R319, R329). -/
def State.measured (s : State) (x : Handle) : Bool :=
  !s.analysisPaused && (if x.op = 0x0912 then x.swept == x.chans
  else (s.gen (x.gen.getD 0)).fallen
    && (x.op != 0x0913 || ((ones 16 x.chans).filter fun c => decide (x.part ≤ c)).length ≤ 1))

/-- The status with which a running analysis must end now, whatever it measured (R321, R327). A cancel of this very instant leaves
an analysis that completes at it (R11, R321). -/
def State.analysisStops (s : State) (x : Handle) : Option Nat :=
  if (ones 16 x.chans).any s.chanFenced then some St.fenced
  else if x.ending.isSome && !(x.endingAt == s.mtbNs && s.measured x) then x.ending
  else if s.micInvalid x then some St.failed else none

/-- ANALYSIS_END (R321): the measurement is complete, or a fence, a cancel or a failure ends it. -/
def analysisEnd (h : Nat) (data : List ChanResult) : Phase := fun s =>
  match s.handle h with
  | none => []
  | some x =>
    match s.analysisStops x with
    | some st => analysisFinish h st none s
    | none => if s.measured x then analysisFinish h (if s.analysisFails x then St.failed else St.ok) (some data) s else []

/-- Whether a channel is quiet: its stage 8 output lies below -70 dBFS (R329). -/
def quiet8 (y : Int) : Bool := decide (y * y * 10000000 < 2 ^ 62)

/-- The channels that the next sweep of a load check takes: those not yet swept that play (R326, R329, log 173). -/
def State.sweepable (s : State) (x : Handle) : List Nat :=
  (ones 16 x.chans).filter fun c => !x.swept.testBit c && s.playing c

/-- LOADCHECK_SWEEP_START: in RUN at the block boundary at which silence has held for LC_SILENCE on the channels that play
(R329), in MEASURE when the channels have restarted (R326). -/
def loadcheckSweepStart (h : Nat) : Phase := fun s =>
  match s.handle h with
  | none => []
  | some x =>
    let ms := (x.params.getD 2 0).toNat
    let l := s.sweepable x
    let may := if x.inRun then s.atBoundary && l.all fun c => s.passed (s.chan c).quietSince (ms * 1000000)
      else x.part == 3 && (ones 16 x.chans).all s.playing
    if x.op = 0x0912 ∧ !x.finished ∧ !x.sweeping ∧ l ≠ [] ∧ may then
      phases [always [.handle h fun y => y.map fun y => { y with
        sweeping := true, live := l.foldl (fun a c => a ||| 2 ^ c) 0 }], sweepBegin h] s
    else []

/-- LOADCHECK_TIMEOUT (R329): LC_WAIT has passed since the acceptance and a channel has no complete sweep. -/
def loadcheckTimeout (h : Nat) : Phase := fun s =>
  match s.handle h with
  | none => []
  | some x =>
    if x.inRun ∧ !x.finished ∧ s.expired x.startAt ((x.params.getD 3 0).toNat * 1000000000) ∧ x.swept ≠ x.chans then
      analysisFinish h St.timeout none s
    else []

/-- A channel that leaves play within the sweep of a load check is in it no more, though it starts again (R329): its sweep is not
complete. -/
def loadcheckLoses (h : Nat) (x : Handle) : Phase := fun s =>
  let live := ((ones 16 x.live).filter fun c => s.playing c && s.phase c == 0).foldl (fun a c => a ||| 2 ^ c) 0
  if !x.sweeping || live = x.live then [] else [.handle h fun y => y.map fun y => { y with live := live }]

/-- Programme during the sweep of a load check in RUN fades it out and discards it (R329); silence is timed. -/
def measureStrobe : Phase := phases [
  (fun s => (List.range 16).flatMap fun c =>
    let x := s.chan c
    let q : Option Nat := if quiet8 x.s8 then some (x.quietSince.getD s.mtbNs) else none
    if x.quietSince = q then [] else [.chan c fun x => { x with quietSince := q }]),
  (fun s => s.analyses.flatMap fun p =>
    if p.2.inRun ∧ p.2.sweeping ∧ (ones 16 p.2.live).any (fun c => !quiet8 (s.chan c).s8) then
      .handle p.1 (fun y => y.map fun y => { y with sweeping := false, repeated := y.repeated ||| y.live })
        :: genCut (p.2.gen.getD 0) s
    else []),
  fun s => phases (s.analyses.map fun p => loadcheckLoses p.1 p.2) s]

/-- A LOADCHECK at a block boundary: the channels of a sweep that is over are complete where they still play (R329); in
MEASURE, before its sweep, it stops the channels in an orderly way, reads the terminals for 100 ms and restarts (R281, R326).
The throttle pauses it (R197). -/
def loadcheckStep (h : Nat) (x : Handle) : Phase := fun s =>
  let l := ones 16 x.chans
  if x.op ≠ 0x0912 ∨ s.analysisPaused then []
  else if x.sweeping then
    (if (s.gen (x.gen.getD 0)).fallen then
      let done := ((ones 16 x.live).filter s.playing).foldl (fun a c => a ||| 2 ^ c) x.swept
      [.handle h fun y => y.map fun y => { y with sweeping := false, swept := done }]
    else [])
  else if x.inRun then []
  else if x.part = 0 then
    phases [always [.handle h fun y => y.map fun y => { y with part := 2 }], forAll l fun c => stopBegin c false] s
  else if x.part = 2 ∧ l.all s.released then
    [.handle h fun y => y.map fun y => { y with part := 1, since := some s.mtbNs }]
  else if x.part = 1 ∧ s.passed x.since 100000000 then
    phases [always [.handle h fun y => y.map fun y => { y with
      part := 3, vbus := (List.range 4).map fun g => s.nat (Key.pg.VBUS_NOW g) }], forAll l startDue] s
  else []

/-- A RESPONSE goes on to its next channel when a sweep has ended (R319, Table 10-4). -/
def responseStep (h : Nat) (x : Handle) : Phase := fun s =>
  match x.gen with
  | none => []
  | some g =>
    let now := (ones 16 x.chans).find? fun c => decide (x.part ≤ c)
    let next := (ones 16 x.chans).find? fun c => decide (now.getD 16 < c)
    if x.op = 0x0913 ∧ (s.gen g).fallen ∧ !s.analysisPaused then match next with
      | some c => phases [always [.handle h fun y => y.map fun y => { y with part := c }], sweepBegin h] s
      | none => []
    else []

/-- MEAS_CHANNELS takes effect in MEASURE (R305): bits newly set start their channel, bits cleared stop it. -/
def measChannelsEffect (old new : Nat) : Phase := fun s =>
  if s.mode ≠ .measure then []
  else forAll (List.range 16) (fun c =>
    if new.testBit c && !old.testBit c then startDue c
    else if old.testBit c && !new.testBit c then stopBegin c false
    else always []) s

/-- The power cap at a block boundary in MEASURE (R306): the mean of V_OUT × I_OUT over the 150 blocks of the last 100 ms, W,
whatever the channel did in them. -/
def powerCap (c : Nat) : Phase := fun s =>
  let l := ((s.chan c).power :: (s.chan c).powers).take 150
  let mw := l.foldl (· + ·) 0 / 150 * 1000
  if s.mode = .measure ∧ s.playing c ∧ (s.nat Key.meas.MEAS_P_MAX : Rat) < mw then
      phases [stopBegin c true,
        always [.andNot Key.meas.MEAS_CHANNELS (2 ^ c), .chan c fun x => { x with powers := l }],
        (fun s => phases ((s.analyses.filter fun p => p.2.chans.testBit c).map fun p => analysisFinish p.1 St.failed none) s),
        always [.bump Key.meas.CAP_TRIPS 1,
                .event Ev.MEAS_POWER_CAP (args16 [c] ++ le 4 (rounded Key.meas.CAP_TRIPS mw))]] s
  else [.chan c fun x => { x with powers := l }]

/-- Measurement at a block boundary: the power cap, ends that fall due, the steps of running analyses. -/
def measureBoundary : Phase := phases [
  forAll (List.range 16) powerCap,
  (fun s => phases (s.analyses.map fun p => match s.analysisStops p.2 with
    | some st => analysisFinish p.1 st none
    | none => phases [loadcheckStep p.1 p.2, responseStep p.1 p.2]) s)]

/-- The device leaves MEASURE or changes mode otherwise (R308, R329): generators fall over 32 samples, analyses are cancelled
but for a LOADCHECK under the rules of RUN between RUN and MEASURE. -/
def measureLeave (old new : Mode) : Phase := fun s =>
  let ended := s.analyses.filter fun p =>
    !(p.2.inRun && ((old == .measure && new == .run) || (old == .run && new == .measure)))
  phases [
    (if old = .measure then forAll (List.range 4) (fun g => fun s =>
      if s.genState g = 2 then (if (s.gen g).begun then genCut g s else phases [setGen g 0, always [.gen g fun _ => {}]] s)
      else if s.genState g = 1 then phases [setGen g 0, always [.gen g fun _ => {}]] s
      else if s.genState g = 3 ∧ ended.any (fun p => p.2.gen == some g) then genCut g s
      else []) else always []),
    phases (ended.map fun p => analysisFinish p.1 St.cancelled none)] s

/-- RES_FREE (R320): a result object returns to FREE. -/
def resFree (r : Nat) : Phase := fun s =>
  if s.num (Key.res.RES_STATE r) = 1 then []
  else [.num (Key.res.RES_STATE r) 0, .num (Key.res.RES_KIND r) 0, .num (Key.res.RES_HANDLE r) 0,
        .num (Key.res.RES_CHANNELS r) 0, .num (Key.res.RES_SLOT r) 0xFF, .num (Key.res.RES_START r) 0,
        .num (Key.res.RES_END r) 0, .num (Key.res.RES_STATUS r) 0, .num (Key.res.RES_POINTS r) 0,
        .reg (Key.res.RES_DATA r) (.bytes [])]

end Sys2Proof.Machine
end

