-- ==== Sys2Proof/Machine/Network.lean ====
section
/-!
DEFINITION. Machine/Network.lean: the network interfaces and CAN FD (R366-R390): links, the transmit FIFO, monitor
streams, checks and routing of received frames, multicast, addresses, and the CAN FD segments.
-/

namespace Sys2Proof.Machine

/-! ### Links and transmit -/

def State.linkUp (s : State) (m : Nat) : Bool := s.num (Key.mac.LINK_STATE m) == 1

/-- PHY_RST_N: low from reset until 10 ms after RESET_N rises (R367). -/
def State.phyRstN (s : State) : Bool := s.passed s.units.pins.resetUp 10000000

/-- The bits of a clause 22 management frame, in order of sending at 2.5 MHz on `MDC`, to the PHY of a MAC at `PHY_ADDR` (R367):
preamble, start, operation (read, or write of `data`), PHY and register address, turnaround. Of a read the PHY drives the
turnaround's second bit and the data. Which registers are accessed, and when, the spec leaves to the PHY (log 204). -/
def State.mdioFrame (s : State) (m reg : Nat) (data : Option Nat) : List Bool :=
  let field := fun (n v : Nat) => (List.range n).map fun i => v.testBit (n - 1 - i)
  List.replicate 32 true ++ [false, true] ++ (if data.isSome then [false, true] else [true, false])
    ++ field 5 (s.nat (Key.mac.PHY_ADDR m)) ++ field 5 reg ++ match data with
      | some v => [true, false] ++ field 16 v
      | none => []

/-- Whether a frame is an IPv4 datagram; every datagram is sent with DF (R381). -/
def Frame.df (f : Frame) : Bool := !f.ethernet && f.kind != 3

/-- The DSCP of a sent datagram (Table 12-6). -/
def Frame.dscp (f : Frame) : Nat := if f.kind = 1 then 46 else if f.kind = 2 then 34 else 0

/-- The TTL of a sent datagram (Table 12-6): 1 for IGMP and for PTP to 224.0.0.107. -/
def Frame.ttl (f : Frame) : Nat := if f.kind = 5 ∨ (f.kind = 1 ∧ f.dest = 0xE000006B) then 1 else 64

/-- Whether a frame is a UDP datagram. -/
def Frame.udp (f : Frame) : Bool := !f.ethernet && (f.kind < 3 || f.kind == 6)

/-- A frame is queued for sending (R372). -/
def queueFrame (m : Nat) (f : Frame) : Effect := .mac m fun x => { x with waiting := x.waiting ++ [f] }

/-- Length of an Ethernet frame, FCS included, that carries `n` bytes of UDP payload over IPv4. -/
def udpLen (n : Nat) : Nat := max 64 (14 + 20 + 8 + n + 4)

def isMulticast (ip : Nat) : Bool := ip / 2 ^ 28 == 14

/-- The station to which a MAC sends a datagram (Table 12-7): the destination on its own link, else the gateway where one is
set; 0 for a group or broadcast, which needs no resolution. -/
def State.nextHop (s : State) (m dest : Nat) : Nat :=
  let n := 2 ^ (32 - s.nat (Key.ip.PREFIX_NOW_N m))
  if isMulticast dest ∨ dest = 0xFFFFFFFF then 0
  else if dest / n = s.nat (Key.ip.ADDR_NOW_N m) / n ∨ s.num (Key.ip.GATEWAY_N m) = 0 then dest
  else s.nat (Key.ip.GATEWAY_N m)

/-- An ARP packet is queued: operation, sender's address and target (RFC 826; log 50). -/
def arpSend (m op dest target : Nat) : Phase := fun s =>
  [queueFrame m { kind := 3, prio := 2, dest := dest, queuedAt := s.mtbNs,
                  body := le 1 op ++ be 4 (s.nat (Key.ip.ADDR_NOW_N m)) ++ be 4 target }]

/-- The MAC address of a station is asked for (R381), where it is neither known nor already asked for. -/
def arpAsk (m hop : Nat) : Phase := fun s =>
  let x := s.mac m
  if hop = 0 ∨ x.arp.any (fun a => a.1 == hop) ∨ x.asked.any (fun a => a.1 == hop) then []
  else phases [
    arpSend m 1 0xFFFFFFFF hop, always [.mac m fun x => { x with asked := x.asked ++ [(hop, s.mtbNs)] }]] s

/-- A datagram is queued; it waits until the MAC address of its next station is known (R381, log 203). -/
def sendIp (m : Nat) (f : Frame) : Phase := fun s =>
  let hop := s.nextHop m f.dest
  phases [always [queueFrame m { f with hop := hop }], arpAsk m hop] s

/-- A message of the IP stack is queued: its kind, destination and what it says (log 50). -/
def ipMessage (m kind dest : Nat) (body : List Byte) : Phase := fun s =>
  sendIp m { kind := kind, prio := 2, len := udpLen body.length, dest := dest, queuedAt := s.mtbNs, body := body } s

/-- A request for a lease: DHCP message type 1 DISCOVER or 3 REQUEST (RFC 2131). -/
def dhcpSend (m type : Nat) : Phase := ipMessage m 6 0xFFFFFFFF (le 1 type)

/-- Whether the mode tags every sent frame (Table 12-2). -/
def Mode.tags : Mode → Bool
  | .boot | .safe | .measure => true
  | _ => false

/-- The tag of a frame that enters the FIFO now (R370, R371). -/
def State.txTag (s : State) : Option (Nat × Nat) :=
  if s.mode.tags then some (s.nat Key.svc.SVC_VID, s.nat Key.svc.SVC_PCP) else none

/-- Frames whose last byte has left the FIFO at 1000 Mb/s are sent and counted (R372, R384). A MAC whose link is not UP sends
nothing (R366). -/
def txDrain (m : Nat) : Phase := fun s =>
  let x := s.mac m
  let gone := x.fifo.filter fun f => decide (f.doneAt ≤ s.mtbNs)
  if gone.isEmpty || !s.linkUp m then []
  else
    let bytes := gone.foldl (fun a f => a + f.len) x.txRest
    [.mac m fun x => { x with
       fifo := x.fifo.filter fun f => decide (s.mtbNs < f.doneAt), sent := gone.reverse ++ x.sent, txRest := bytes % 1024 },
     .bump (Key.net.TX_FRAMES m) gone.length, .bump (Key.net.TX_BYTES m) (bytes / 1024 : Nat)]
    ++ (gone.filter fun f => f.kind == 2).map fun f => .bump (Key.mon.MON_PACKETS f.unit) 1

/-- The frames that a FIFO holds begin on the wire anew at `t` (R366, log 201). -/
def Mac.rewire (x : Mac) (t : Nat) : Mac :=
  let (l, free) := x.fifo.foldl (fun (a : List Frame × Nat) f =>
    let done := a.2 + 8 * f.len
    (a.1 ++ [{ f with doneAt := done }], done)) ([], t)
  { x with fifo := l, wireFree := free }

/-- The link state of a MAC changes (R366, Table 12-1): what has left it by then is sent, and what its FIFO holds is sent once the
link is UP (log 201). -/
def linkSet (m v : Nat) : Phase := fun s =>
  if s.nat (Key.mac.LINK_STATE m) = v then []
  else phases [
    txDrain m,
    always [.nat (Key.mac.LINK_STATE m) v, .bump (Key.mac.LINK_CHANGES m) 1, .nat (Key.mac.LINK_SINCE m) s.now,
      .event Ev.LINK_CHANGED (args16 [m, v]), .mac m fun x => if v = 1 then { x.rewire s.mtbNs with upAt := some s.mtbNs } else { x with upAt := none }],
    fun s => if v = 1 ∧ s.num (Key.ip.IP_MODE_N m) = 1 ∧ s.units.mgmt.served then dhcpSend m 1 s else []] s

/-- The PHY or the link partner reports a speed in Mb/s (0 = no link) and duplex (R366). -/
def linkChange (m speed : Nat) (full : Bool) : Phase := fun s =>
  let v := if !s.flag (Key.mac.MAC_EN m) || speed == 0 then 0 else if speed == 1000 && full then 1 else 2
  linkSet m v s

/-- `MAC_EN` 0 holds the link down; a change of `INTERFACE` restarts it (Table 12-1). -/
def macEffect (m : Nat) (restart : Bool) : Phase := fun s =>
  if restart || !s.flag (Key.mac.MAC_EN m) then linkSet m 0 s else []

/-- Whether a waiting frame may be sent: the MAC address it needs is known (R381). -/
def Mac.ready (x : Mac) (f : Frame) : Bool := f.hop == 0 || x.arp.any fun a => a.1 == f.hop

/-- The waiting frame whose turn it is: the first of the best priority (R372). -/
def Mac.turn (x : Mac) : Option Frame :=
  let l := x.waiting.filter x.ready
  match l.find? fun f => f.prio == 0 with
  | some f => some f
  | none => match l.find? fun f => f.prio == 1 with
    | some f => some f
    | none => l.head?

/-- The frame whose turn it is enters the FIFO if the whole of it fits (R371, R372). -/
def txFifoEnter (m : Nat) : Phase := phases [
  txDrain m,
  fun s =>
    let x := s.mac m
    match x.turn with
    | none => []
    | some f =>
      let tag := s.txTag
      let len := f.len + if tag.isSome then 4 else 0
      if !s.linkUp m ∨ 16384 < x.fifo.foldl (fun a f => a + f.len) 0 + len then []
      else
        let done := max s.mtbNs x.wireFree + 8 * len
        [.mac m fun x => { x with
          waiting := x.waiting.erase f, wireFree := done,
          fifo := x.fifo ++ [{ f with len := len, tagged := tag.isSome, vlan := tag, doneAt := done }] }]]

/-! ### Monitor streams -/

/-- Samples of a packet of a monitor stream (Table 03-2). -/
def State.monSamples (s : State) (k : Nat) : Nat := samplesPer s.fs (s.nat (Key.mon.MON_PTIME k))

/-- The map word of channel c of a monitor stream (Table 12-4). -/
def State.monWord (s : State) (k c : Nat) : Nat := leAt (s.blob (Key.mon.MON_MAP k)) (4 * c) 4

/-- Whether a monitor stream is sent (R373). -/
def State.monOn (s : State) (k : Nat) : Bool := s.flag (Key.mon.MON_EN k) && s.mode.places

/-- The values of a monitor stream's channels for the output sample of this instant (R373). -/
def State.monFrame (s : State) (k back : Nat) : List Int :=
  (List.range (s.nat (Key.mon.MON_CHANNELS k))).map fun c => (s.mapValueAt back (s.monWord k c)).getD 0

/-- A monitor stream takes the values of the output sample of this instant (R373). -/
def monStrobe (k : Nat) : Phase := fun s =>
  if !s.monOn k then []
  else
    let v := s.monFrame k (2 * s.B)
    [.unit fun u => { u with mons := u.mons.upd {} k fun x => { x with line := (v :: x.line).take 1024 } }]

/-- The SSRC of a monitor stream (Table 12-4). -/
def State.monSsrc (s : State) (k : Nat) : Nat :=
  let v := s.nat (Key.mon.MON_SSRC k)
  if v ≠ 0 then v
  else (s.nat (Key.mac.MAC_ADDR (if s.num (Key.mon.MON_PORT k) = 1 then 1 else 0)) + k) % 2 ^ 32

/-- The first samples of the packets whose last sample lies in the play block of this boundary: packets begin at
multiples of their length (log 51). -/
def State.monFirsts (s : State) (k : Nat) : List Nat :=
  let n := s.monSamples k
  let b := s.blockSample
  ((List.range (s.B / n + 2)).map fun j => (b / n + j) * n).filterMap fun q =>
    if n ≤ q ∧ b ≤ q - 1 ∧ q - 1 < b + s.B then some (q - n) else none

/-- The samples of a packet of a monitor stream from output sample `p` on, one frame per sample: those that have played, and
`ahead` the others of the play block that begins (R373, R374). -/
def State.monAudio (s : State) (k p : Nat) (ahead : List (List Int)) : List (List Int) :=
  let next := s.blockSample + (if s.strobed then 1 else 0)
  (List.range (s.monSamples k)).map fun i =>
    let q := p + i
    if q < next then (Tbl.at ({} : Mon) s.units.mons k).line.getD (next - 1 - q) []
    else ahead.getD (q - next) []

/-- L24: bits [31:8] of each word, big-endian, the channels of a sample in order (R5, R113, R373). -/
def l24 (n : Nat) (l : List (List Int)) : List Byte :=
  l.flatMap fun f => (List.range n).flatMap fun c => be 3 ((f.getD c 0 / 256) % 2 ^ 24).toNat

/-- One packet of a monitor stream is queued, on both MACs together with `MON_PORT` 2 (R374). -/
def monQueue (k : Nat) (ahead : List (List Int)) (p : Nat) : Phase := fun s =>
  let seq := (Tbl.at ({} : Mon) s.units.mons k).seq
  let head := le 1 0x80 ++ le 1 (s.num (Key.mon.MON_PAYLOAD_TYPE k)) ++ be 2 seq
    ++ be 4 (p + s.nat (Key.mon.MON_RTP_OFFSET k) : Nat) ++ be 4 (s.monSsrc k)
  let f : Frame := {
    kind := 2, prio := 1, unit := k, queuedAt := s.mtbNs,
    body := head ++ l24 (s.nat (Key.mon.MON_CHANNELS k)) (s.monAudio k p ahead), dest := s.nat (Key.mon.MON_DEST_ADDR k),
    port := s.nat (Key.mon.MON_DEST_PORT k),
    len := udpLen (12 + 3 * s.monSamples k * s.nat (Key.mon.MON_CHANNELS k)) }
  let port := s.nat (Key.mon.MON_PORT k)
  phases [
    if port ≠ 1 then sendIp 0 f else always [], if port ≠ 0 then sendIp 1 f else always [],
    always [.unit fun u => { u with mons := u.mons.upd {} k fun x => { x with seq := (x.seq + 1) % 65536 } }]] s

/-- The packets of a monitor stream that are queued at a block boundary (R374). From the boundary on from which the stream is sent its
packets hold samples played from then on: those that begin before it are not sent (log 223). -/
def monBoundary (ahead : State → Nat → List (List Int)) (k : Nat) : Phase := fun s =>
  let x := Tbl.at ({} : Mon) s.units.mons k
  let put := fun (v : Option Nat) => if x.since = v then always [] else
    always [.unit fun u => { u with mons := u.mons.upd {} k fun x => { x with since := v, line := if x.since.isSome then x.line else if s.strobed then [s.monFrame k (2 * s.B)] else [] } }]
  if s.monOn k then
    let b := min s.blockSample (x.since.getD s.blockSample)
    phases [put (some b), forAll ((s.monFirsts k).filter (b ≤ ·)) (monQueue k (ahead s k))] s
  else put none s

/-- Whether a commit breaks R373 or the length of Table 12-4 for a monitor stream. -/
def State.monFault (s : State) (k : Nat) : Option Nat :=
  if 1990 < 3 * s.monSamples k * s.nat (Key.mon.MON_CHANNELS k) then some St.range
  else if s.flag (Key.mon.MON_EN k) ∧ (s.blob (Key.mon.MON_MAP k)).length ≠ 4 * s.nat (Key.mon.MON_CHANNELS k) then
    some St.range
  else none

/-- A block period in ns. -/
def State.blockNs (s : State) : Nat := (s.B * 1000000000 + s.fs / 2) / s.fs

/-- Monitor packets that have not entered the FIFO one block period after they were queued are discarded (R375). -/
def monitorDrop (k : Nat) : Phase := fun s =>
  let old : Frame → Bool := fun f => f.kind == 2 && f.unit == k && s.expired f.queuedAt s.blockNs
  let n := ((s.mac 0).waiting.filter old).length + ((s.mac 1).waiting.filter old).length
  if n = 0 then []
  else
    [.mac 0 fun x => { x with waiting := x.waiting.filter fun f => !old f },
     .mac 1 fun x => { x with waiting := x.waiting.filter fun f => !old f },
     .bump (Key.mon.MON_DROPS k) n, .eventOnce Ev.MONITOR_DROPPED k (args16 [k])]

/-! ### Multicast -/

/-- The MAC address of an IPv4 group (RFC 1112). -/
def groupMac (ip : Nat) : Nat := 0x01005E000000 + ip % 2 ^ 23

/-- The hash bin of an address: bits [31:23] of the CRC-32 of its six bytes (R379). -/
def hashBin (mac : Nat) : Nat := crc32 (be 6 mac) / 2 ^ 23

/-- The PTP groups of a MAC (R383). -/
def State.ptpGroups (s : State) (m : Nat) : List Nat :=
  let on := (List.range 4).filter fun d =>
    s.dtbOn d && (s.nat (Key.dtb.PTP_PORT d) == m || s.nat (Key.dtb.PTP_PORT d) == 2)
  if on.isEmpty then []
  else 0xE0000181 :: (if on.any fun d => s.num (Key.dtb.DELAY_MECH d) == 1 then [0xE000006B] else [])

/-- Whether the subscriptions hold their memberships: by mode, or during a setup toward STANDBY or RUN (R82, R433,
R434). -/
def State.joins (s : State) : Bool := s.mode.places || (match s.units.mgmt.setupTo with
  | some (2, _) | some (3, _) => true
  | _ => false)

/-- The memberships of a MAC, in the order of R379: group and source, 0 = any source. A secondary joins only while its
primary is enabled (R102). -/
def State.membersOf (s : State) (m : Nat) : List (Nat × Nat) :=
  let subs := if s.joins then s.usedSubs.filter fun i => s.nat (Key.sub.PORT i) == m && s.flag (Key.sub.ENABLE (s.primary i)) else []
  (((s.ptpGroups m).map fun g => (g, 0))
    ++ (subs.map fun i => (s.nat (Key.sub.DEST_ADDR i), s.nat (Key.sub.SOURCE_ADDR i))).filter fun (x : Nat × Nat) => isMulticast x.1).eraseDups

/-- The groups used on a MAC, in the order of R379. -/
def State.groupsOf (s : State) (m : Nat) : List Nat := ((s.membersOf m).map fun x => x.1).eraseDups

/-- The multicast addresses a MAC admits: all of them, the first 256 by exact entries (R379). Beside a PTP group stands the address
of the same messages over Ethernet (IEEE 1588, log 224). -/
def Mac.admits (x : Mac) : List Nat := ((x.groups ++ [0xE0000016]).flatMap fun g =>
  groupMac g :: if g = 0xE0000181 then [0x011B19000000] else if g = 0xE000006B then [0x0180C200000E] else []).eraseDups
def Mac.bins (x : Mac) : List Nat := ((x.admits.drop 256).map hashBin).eraseDups

/-- A group record of an IGMPv3 report (RFC 3376): its type, the group and its sources. -/
def igmpRecord (type g : Nat) (src : List Nat) : List Byte := le 1 type ++ le 1 0 ++ be 2 src.length ++ be 4 g ++ src.flatMap (be 4)

/-- The sources from which a group is joined; source 0 is any (EXCLUDE mode with no sources, R380). -/
def sourcesOf (held : List (Nat × Nat)) (g : Nat) : List Nat := (held.filter fun x => x.1 == g).map fun x => x.2

/-- The state of a group as a query is answered: MODE_IS_EXCLUDE 2 or MODE_IS_INCLUDE 1 (RFC 3376). -/
def stateRecord (held : List (Nat × Nat)) (g : Nat) : List Byte :=
  let l := sourcesOf held g
  if l.contains 0 then igmpRecord 2 g [] else igmpRecord 1 g l

/-- What is reported of a group after the changes of its sources `src` (RFC 3376): a change of filter mode, 4 to EXCLUDE or 3 to
INCLUDE, or sources allowed 5 and blocked 6. -/
def changeRecords (held : List (Nat × Nat)) (g : Nat) (src : List Nat) : List Byte :=
  let l := sourcesOf held g
  let new := src.filter fun x => l.contains x
  let gone := src.filter fun x => !l.contains x
  if l.contains 0 then (if src.contains 0 then igmpRecord 4 g [] else [])
  else if src.contains 0 then igmpRecord 3 g l
  else (if new.isEmpty then [] else igmpRecord 5 g new) ++ if gone.isEmpty then [] else igmpRecord 6 g gone

/-- The IGMP version in force (Table 12-5). -/
def State.igmpMode (s : State) (m : Nat) : Nat := s.nat (if m = 0 then Key.mc.IGMP_MODE_N0 else Key.mc.IGMP_MODE_N1)

/-- The message of an older version for a group (RFC 3376): a report to it while it is joined; when it is left, version 2's
Leave Group to all routers, and none in version 1. -/
def igmpOlder (m g : Nat) : Phase := fun s =>
  if !(sourcesOf (s.mac m).memb g).isEmpty then ipMessage m 5 g (le 1 (if s.igmpMode m = 1 then 0x12 else 0x16) ++ be 4 g) s
  else if s.igmpMode m = 1 then []
  else ipMessage m 5 0xE0000002 (le 1 0x17 ++ be 4 g) s

/-- An IGMPv3 report of some records (RFC 3376). -/
def igmpV3 (m : Nat) (records : List Byte) : Phase :=
  if records.isEmpty then always [] else ipMessage m 5 0xE0000016 (le 1 0x22 ++ records)

/-- Changes of memberships, each a group and a source, are reported (R380); under an older querier those of whole groups. -/
def igmpChanges (m : Nat) (l : List (Nat × Nat)) : Phase := fun s =>
  let groups := (l.map fun x => x.1).eraseDups
  if s.igmpMode m = 3 then igmpV3 m (groups.flatMap fun g => changeRecords (s.mac m).memb g (sourcesOf l g)) s
  else forAll groups (igmpOlder m) s

/-- The groups of a query are reported as they are (R380). -/
def igmpAnswer (m : Nat) (groups : List Nat) : Phase := fun s =>
  if s.igmpMode m = 3 then igmpV3 m (groups.flatMap (stateRecord (s.mac m).memb)) s
  else forAll groups (igmpOlder m) s

/-- The memberships of a MAC follow its groups and their sources; each change is reported, and again 1 s later (R380). -/
def netMembers (m : Nat) : Phase := fun s =>
  let new := s.membersOf m
  let old := (s.mac m).memb
  if new = old then []
  else
    let d := (new.filter fun g => !old.contains g) ++ old.filter fun g => !new.contains g
    phases [
      always [.mac m fun x => { x with
        memb := new, groups := s.groupsOf m,
        reports := (x.reports.filter fun r => !d.contains r.1) ++ d.map fun g => (g, s.mtbNs + 1000000000) }],
      igmpChanges m d] s

/-- The entries of Table 12-5 that count memberships. -/
def netShow : Phase := fun s =>
  let e := fun m => min 256 (s.mac m).admits.length
  let b := fun m => (s.mac m).bins.length
  [.nat Key.mc.EXACT_USED (max (e 0) (e 1)), .nat Key.mc.HASH_BINS_USED (max (b 0) (b 1)),
   .nat Key.mc.GROUPS ((s.mac 0).groups.length + (s.mac 1).groups.length)]

def membersUpdate : Phase := fun s => if s.mode = .boot then [] else phases [netMembers 0, netMembers 1, netShow] s

/-- The IGMP version in force on a MAC: that of an older querier for 260 s after it was last heard, version 1 before version 2; a
change of version cancels the reports that are still to be repeated (RFC 3376, 7.2.1). -/
def igmpVersion (m : Nat) : Phase := fun s =>
  let x := s.mac m
  let heard := fun (t : Option Nat) => t.any fun t => decide (s.mtbNs < t + 260000000000)
  let v := if heard x.querier1 then 1 else if heard x.querier2 then 2 else 3
  .nat (if m = 0 then Key.mc.IGMP_MODE_N0 else Key.mc.IGMP_MODE_N1) v
    :: if v = s.igmpMode m then [] else [.mac m fun x => { x with reports := [] }]

/-- A query is answered with the groups it asks for, all of them with group 0 (R380). Of version 2 a general query shows the querier
(RFC 3376, 7.2.1). -/
def igmpQuery (m version group : Nat) : Phase := fun s =>
  if !s.linkUp m ∨ !s.units.mgmt.served then []
  else phases [
    always (if version ≤ 1 then [.mac m fun x => { x with querier1 := some s.mtbNs }]
      else if version = 2 ∧ group = 0 then [.mac m fun x => { x with querier2 := some s.mtbNs }] else []),
    igmpVersion m,
    fun s => igmpAnswer m ((s.mac m).groups.filter fun g => group == 0 || g == group) s] s

/-- The second report of each join and leave (R380). -/
def igmpReportRepeat (m : Nat) : Phase := fun s =>
  let due := ((s.mac m).reports.filter fun r => decide (r.2 ≤ s.mtbNs)).map fun r => r.1
  if due.isEmpty ∨ !s.units.mgmt.served then []
  else phases [
    igmpChanges m due,
    always [.mac m fun x => { x with reports := x.reports.filter fun r => decide (s.mtbNs < r.2) }]] s

/-! ### Receive -/

/-- The nonzero VIDs of the tags from an EtherType on, and the bytes the tags take (R370). -/
def tagsFrom : Nat → List Byte → List Nat × Nat
  | 0, _ => ([], 0)
  | n + 1, b =>
    if beAt b 0 2 = 0x8100 then
      let vid := beAt b 2 2 % 4096
      let r := tagsFrom n (b.drop 4)
      ((if vid = 0 then r.1 else vid :: r.1), r.2 + 4)
    else ([], 0)

/-- What the parsers read of a received frame: its tags, EtherType, and the IPv4 and UDP fields behind it. -/
structure RxInfo where
  dest : Nat
  vids : List Nat
  tagBytes : Nat
  etherType : Nat
  src : Nat
  dst : Nat
  fragment : Bool
  udp : Bool
  sport : Nat
  dport : Nat
  /-- The UDP checksum is 0 or right (Table 12-6). -/
  sumOk : Bool
  payload : List Byte
  /-- The bytes behind the EtherType. -/
  l3 : List Byte
  deriving DecidableEq, Repr

/-- The ones' complement sum of the 16-bit big-endian words of some bytes, a last odd byte filled with zero (RFC 768). -/
def sum16 : List Byte → Nat
  | [] => 0
  | [a] => fold (a.toNat * 256)
  | a :: b :: l => fold (a.toNat * 256 + b.toNat + sum16 l)
where
  fold (n : Nat) : Nat := n % 65536 + n / 65536

/-- The UDP checksum of a datagram with its pseudo header, verified when nonzero (Table 12-6, RFC 768). -/
def udpSumOk (src dst : Nat) (l4 : List Byte) : Bool :=
  let n := beAt l4 4 2
  beAt l4 6 2 == 0 || sum16 (be 4 src ++ be 4 dst ++ be 2 17 ++ be 2 n ++ l4.take n) == 65535

/-- The checksum that a datagram from the address `src` is sent with (Table 12-6, RFC 768): 0 stands as all ones. The octets of a
message whose form a standard gives are not modelled (log 50). -/
def Frame.checksum (f : Frame) (src : Nat) : Option Nat :=
  if !f.udp then none
  else
    let body := if f.kind = 0 ∨ f.kind = 2 then f.body else Config.octets f.kind f.body
    let n := 8 + body.length
    let sum := sum16 (be 4 src ++ be 4 f.dest ++ be 2 17 ++ be 2 n ++ be 2 f.sport ++ be 2 f.port ++ be 2 n ++ be 2 0 ++ body)
    some (if sum = 65535 then 65535 else 65535 - sum)

/-- A frame as the parsers read it, IPv4 options skipped by the header length (R381). -/
def rxInfo (b : List Byte) : RxInfo :=
  let t := tagsFrom 4 (b.drop 12)
  let l3 := b.drop (14 + t.2)
  let h := beAt l3 0 1 % 16 * 4
  let ip := beAt b (12 + t.2) 2 == 0x0800
  let l4 := l3.drop h
  { dest := beAt b 0 6, vids := t.1, tagBytes := t.2, etherType := beAt b (12 + t.2) 2, src := beAt l3 12 4,
    dst := beAt l3 16 4, fragment := ip && beAt l3 6 2 % 0x4000 != 0, udp := ip && beAt l3 9 1 == 17,
    sport := beAt l4 0 2, dport := beAt l4 2 2, sumOk := udpSumOk (beAt l3 12 4) (beAt l3 16 4) l4, payload := slice l4 8 (beAt l4 4 2 - 8),
    l3 := l3 }

/-- Whether a frame carries a PTP message (R383). -/
def RxInfo.ptp (x : RxInfo) : Bool := x.etherType == 0x88F7 || (x.udp && (x.dport == 319 || x.dport == 320))

/-- The bytes of the PTP message that a frame carries. -/
def RxInfo.ptpBytes (x : RxInfo) : List Byte := if x.etherType = 0x88F7 then x.l3 else x.payload

/-- The enabled subscription a frame matches on a MAC (R85, R376). -/
def State.subFor (s : State) (m : Nat) (x : RxInfo) : Option Nat :=
  if !x.udp then none
  else s.usedSubs.find? fun i => s.nat (Key.sub.PORT i) == m && s.nat (Key.sub.DEST_ADDR i) == x.dst
    && s.nat (Key.sub.DEST_PORT i) == x.dport
    && (s.num (Key.sub.SOURCE_ADDR i) == 0 || s.nat (Key.sub.SOURCE_ADDR i) == x.src)

/-- The processor returns the buffers that it has taken from a ring (R377, log 52). -/
def ringReturn (m : Nat) : Effect := .mac m fun x => { x with free := 256, ring := [], cdl := [] }

/-- The UDP port of CDL (R382). -/
def cdlPort : Nat := 47815

/-- Whether a datagram is CDL: it is for that port of an address of the device (R382). -/
def State.isCdl (s : State) (x : RxInfo) : Bool :=
  x.udp && x.dport == cdlPort && ([0, 1].any fun m => x.dst == s.nat (Key.ip.ADDR_NOW_N m))

/-- A frame is stored with its service mark in the ring of its MAC, or discarded where no buffer may be taken (R377, R378). The buffers returned
at the tick of a block boundary count as free there (R11). -/
def ringStore (m : Nat) (x : RxInfo) (svc : Bool) (b : List Byte) : Phase := phases [
  fun s => if s.atBoundary && s.units.disp.blockAt != some s.blockSample then [ringReturn m] else [],
  fun s =>
    let need := max 1 ((b.length + 511) / 512)
    let may := if x.ptp then (s.mac m).free else (s.mac m).free - 16
    if may = 0 then [.bump (Key.net.RX_NOBUF m) 1, .eventOnce Ev.RX_RING_EXHAUSTED m (args16 [m])]
    else if may < need then [.bump (Key.net.RX_NOBUF_TRUNC m) 1, .eventOnce Ev.RX_RING_EXHAUSTED m (args16 [m])]
    else [.mac m fun y => { y with free := y.free - need, ring := y.ring ++ [(need, svc, b)],
                                   cdl := if s.isCdl x then y.cdl ++ [(x.src, x.sport, x.payload)] else y.cdl }]]

/-- A PTP message of a DTB on a MAC (R383). -/
def ptpQueue (m d kind port : Nat) : Phase := fun s =>
  let p2p := kind != 1
  let eth := (s.tbase d).ethernet
  let ip := if p2p then 0xE000006B else 0xE0000181
  let n := if p2p then 54 else 44
  [queueFrame m {
    kind := 1, prio := 0, unit := d, queuedAt := s.mtbNs, body := le 1 kind, ethernet := eth,
    dest := if !eth then ip else if p2p then 0x0180C200000E else 0x011B19000000, port := if eth then 0 else port,
    sport := if eth then 0 else port,
    len := if eth then max 64 (14 + n + 4) else udpLen n }]

/-- What the MAC reads of a received PTP message that its checks and its filter have admitted (R376, R381, R383): a Sync of a DTB's domain fixes the transport
of the messages that the DTB sends; a Pdelay_Req under P2P is answered with Pdelay_Resp in that transport (log 205). -/
def ptpSeen (m : Nat) (x : RxInfo) : Phase := fun s =>
  let b := x.ptpBytes
  let type := leAt b 0 1 % 16
  let ours := fun (d : Nat) => s.dtbOn d && s.dtbMac d == m && s.nat (Key.dtb.DOMAIN_NUMBER d) == leAt b 4 1
  if !x.ptp ∨ b.length < 34 then []
  else forAll ((List.range 4).filter ours) (fun d s =>
    if type = 0 then [.tbase d fun y => { y with ethernet := x.etherType == 0x88F7 }]
    else if type = 2 ∧ s.num (Key.dtb.DELAY_MECH d) = 1 ∧ s.units.mgmt.served then phases [
      ptpQueue m d 3 319, always [.mac m fun y => { y with ptpOut := y.ptpOut ++ [4 + d] }]] s
    else []) s

/-- A frame that the filters have admitted goes to the stream engine or to the ring (R376, R82); a fragment, or a datagram
of another receiver with a wrong UDP checksum, is discarded (R381). -/
def frameRoute (m : Nat) (x : RxInfo) (svc : Bool) (b : List Byte) : Phase := fun s =>
  if x.fragment then [.bump (Key.net.RX_FRAGMENTS m) 1]
  else phases [
    if !x.udp ∨ x.sumOk then ptpSeen m x else always [],
    fun s => match s.subFor m x with
      | some i => if s.mode.places then [.mac m fun y => { y with engine := y.engine ++ [(i, s.mtbNs, x.payload)] }] else []
      | none => if s.units.mgmt.served ∧ (!x.udp ∨ x.sumOk) then ringStore m x svc b s else []] s

/-- The filter of R376 and R379. -/
def frameFilter (m : Nat) (x : RxInfo) (svc : Bool) (b : List Byte) : Phase := fun s =>
  let y := s.mac m
  if x.dest = s.nat (Key.mac.MAC_ADDR m) ∨ x.dest = 0xFFFFFFFFFFFF then frameRoute m x svc b s
  else if (y.admits.take 256).contains x.dest then frameRoute m x svc b s
  else if x.dest / 2 ^ 40 % 2 = 1 ∧ y.bins.contains (hashBin x.dest) then
    if y.admits.contains x.dest then frameRoute m x svc b s else [.bump Key.mc.HASH_REJECTS 1]
  else [.bump (Key.net.RX_FILTERED m) 1]

/-- A received frame, from its destination address to the end of its payload (R369, R370, Table 12-2). -/
def frameReceive (m : Nat) (b : List Byte) (fcsOk : Bool) : Phase := fun s =>
  let x := rxInfo b
  if !s.linkUp m then []
  else if !fcsOk then [.bump (Key.net.RX_FCS_ERR m) 1]
  else if b.length + 4 < 64 then [.bump (Key.net.RX_RUNT m) 1]
  else if 2048 < b.length + 4 then [.bump (Key.net.RX_OVERSIZE m) 1]
  else if x.etherType = 0x8808 then [.bump (Key.net.RX_CONTROL m) 1]
  else
    let svc := x.vids == [s.nat Key.svc.SVC_VID]
    let stored := if s.mode.tags && svc then b.take 12 ++ b.drop (12 + x.tagBytes) else b
    .bump (Key.net.RX_FRAMES m) 1 ::
      (if 1 < x.vids.length ∨ (s.mode.tags ∧ x.vids ≠ [] ∧ !svc) then [.bump (Key.net.RX_VLAN_DROP m) 1]
       else frameFilter m x svc stored s)

/-- A packet of a subscription in the queue of the stream engine. -/
def State.queued (s : State) (i : Nat) (udp : List Byte) : Option (Nat × Nat × List Byte) :=
  (s.mac (s.nat (Key.sub.PORT i))).engine.find? fun x => x.1 == i && x.2.2 == udp

/-- The MTB instant at which a packet of a subscription arrived: as stamped when its frame passed the FCS check (R97), or
now. -/
def State.arrival (s : State) (i : Nat) (udp : List Byte) : Nat :=
  match s.queued i udp with
  | some x => x.2.1
  | none => s.mtbNs

/-- The stream engine takes a packet that was handed to it. -/
def engineTake (i : Nat) (udp : List Byte) : Phase := fun s =>
  match s.queued i udp with
  | some x => [.mac (s.nat (Key.sub.PORT i)) fun y => { y with engine := y.engine.erase x }]
  | none => []

/-- The counters of a MAC are cleared together (R384). -/
def netClear (m : Nat) : Phase := always (((List.range 14).map fun i => .num ((0x2030 + m) * 256 + 1 + i) 0)
  ++ [.mac m fun x => { x with txRest := 0 }])

/-! ### Addresses -/

/-- A MAC takes an address: it is reported and announced, twice 2 s apart (R382, RFC 5227, log 203). -/
def setAddr (m addr prefixLen source : Nat) : Phase := fun s =>
  if s.nat (Key.ip.ADDR_NOW_N m) = addr ∧ s.nat (Key.ip.PREFIX_NOW_N m) = prefixLen
      ∧ s.nat (Key.ip.ADDR_SOURCE_N m) = source then []
  else phases [
    always [.nat (Key.ip.ADDR_NOW_N m) addr, .nat (Key.ip.PREFIX_NOW_N m) prefixLen,
      .nat (Key.ip.ADDR_SOURCE_N m) source,
      .event Ev.ADDRESS_CHANGED (le 2 m ++ le 4 addr ++ le 2 source), .mac m fun x => { x with
        defended := none, announceAt := if addr = 0 then none else some (s.mtbNs + 2000000000) }],
    if addr = 0 then always [] else arpSend m 1 0xFFFFFFFF addr] s

/-- The link-local addresses 169.254.1.0-169.254.254.255, numbered (RFC 3927). -/
def linkLocalAddr (r : Nat) : Nat := 0xA9FE0000 + 256 * (1 + r % 254) + r / 254 % 256

/-- A link-local address of the device's own choosing (RFC 3927): a free value (log 1), and another than the one in force. -/
def linkLocal (m : Nat) : Phase := fun s =>
  let r := (s.free 0).natAbs
  let a := if linkLocalAddr r = s.nat (Key.ip.ADDR_NOW_N m) then linkLocalAddr (r + 1) else linkLocalAddr r
  phases [setAddr m a 16 3, always [.draws 1]] s

/-- The address of a MAC follows its settings; a link-local one under DHCP is to be replaced by a lease (R382). -/
def ipApply (m : Nat) : Phase := fun s =>
  let mode := s.num (Key.ip.IP_MODE_N m)
  let addr := s.nat (Key.ip.STATIC_ADDR_N m)
  let off : Phase := always [.mac m fun x => { x with lease := none, leaseT := none, retryAt := none }]
  if mode = 1 then phases [
    (if s.num (Key.ip.ADDR_SOURCE_N m) = 3 then always [.mac m fun x => { x with retryAt := some (s.mtbNs + 60000000000) }] else always []),
    (if s.num (Key.ip.ADDR_SOURCE_N m) = 1 then setAddr m 0 0 0 else always []),
    (if s.num (Key.ip.ADDR_SOURCE_N m) = 2 ∨ !s.linkUp m then always [] else dhcpSend m 1)] s
  else if mode = 0 ∧ addr ≠ 0 then phases [off, setAddr m addr (s.nat (Key.ip.STATIC_PREFIX_N m)) 1] s
  else phases [off, if s.num (Key.ip.ADDR_SOURCE_N m) = 3 then always [] else linkLocal m] s

/-- A lease that came takes effect, one that has run out ends, one half run is renewed (R382, RFC 2131). -/
def ipBoundary (m : Nat) : Phase := fun s =>
  let x := s.mac m
  if s.num (Key.ip.IP_MODE_N m) ≠ 1 then []
  else match x.lease, x.leaseT with
    | some (a, p), _ => phases [
        setAddr m a p 2, always [.mac m fun x => { x with lease := none, retryAt := none }]] s
    | none, some (t, sec, asked) =>
      if t + sec * 1000000000 ≤ s.mtbNs then phases [
        setAddr m 0 0 0, dhcpSend m 1,
        always [.mac m fun x => { x with leaseT := none }]] s
      else if !asked ∧ t + sec * 500000000 ≤ s.mtbNs then phases [
        dhcpSend m 3, always [.mac m fun x => { x with leaseT := some (t, sec, true) }]] s
      else []
    | none, none => []

/-- A DHCP message: 2 OFFER, 5 ACK, 6 NAK, with the address, prefix length and lease in s (R382, RFC 2131). -/
def dhcpMessage (m type addr prefixLen leaseS : Nat) : Phase := fun s =>
  if s.num (Key.ip.IP_MODE_N m) ≠ 1 ∨ !s.units.mgmt.served ∨ !s.linkUp m then []
  else if type = 2 then (if s.num (Key.ip.ADDR_SOURCE_N m) = 2 then [] else dhcpSend m 3 s)
  else if type = 5 then
    [.mac m fun x => { x with lease := some (addr, prefixLen), leaseT := some (s.mtbNs, leaseS, false) }]
  else if type = 6 then phases [
    always [.mac m fun x => { x with lease := none, leaseT := none }],
    if s.num (Key.ip.ADDR_SOURCE_N m) = 2 then setAddr m 0 0 0 else always [], dhcpSend m 1] s
  else []

/-- A MAC without a lease `DHCP_FALLBACK` s after its link came up takes a link-local address (R382). -/
def dhcpFallback (m : Nat) : Phase := fun s =>
  let x := s.mac m
  if s.num (Key.ip.IP_MODE_N m) = 1 ∧ s.num (Key.ip.ADDR_SOURCE_N m) = 0 ∧ x.lease = none ∧ s.units.mgmt.served
      ∧ x.upAt.any (fun t => s.expired t (s.nat Key.ip.DHCP_FALLBACK * 1000000000)) then
    phases [linkLocal m, always [.mac m fun x => { x with retryAt := some (s.mtbNs + 60000000000) }]] s
  else []

/-- The request for a lease is repeated every 60 s (R382). -/
def dhcpRetry (m : Nat) : Phase := fun s =>
  match (s.mac m).retryAt with
  | none => []
  | some t =>
    if s.mtbNs < t ∨ !s.units.mgmt.served then []
    else phases [dhcpSend m 1, always [.mac m fun x => { x with retryAt := some (t + 60000000000) }]] s

/-- Another station uses the address of a MAC: a link-local one is changed, any other is defended once in 10 s
(R382, RFC 5227). -/
def addressConflict (m addr : Nat) : Phase := fun s =>
  if addr = 0 ∨ addr ≠ s.nat (Key.ip.ADDR_NOW_N m) ∨ !s.units.mgmt.served then []
  else phases [
    always [.bump Key.ip.ADDR_CONFLICTS 1, .event Ev.ADDRESS_CONFLICT (le 2 m ++ le 4 addr)],
    fun s =>
      if s.num (Key.ip.ADDR_SOURCE_N m) = 3 then linkLocal m s
      else match (s.mac m).defended with
        | some t => if s.mtbNs < t + 10000000000 then [] else defend s
        | none => defend s] s
where
  defend : Phase := fun s => phases [
    arpSend m 1 0xFFFFFFFF addr,
    always [.mac m fun x => { x with defended := some s.mtbNs }]] s

/-- An ARP packet: operation 1 request or 2 reply; sender's addresses; target (Table 12-6, RFC 826). One that another station
sends from the address in force shows a conflict (RFC 5227). -/
def arpPacket (m op sip smac tip : Nat) : Phase := fun s =>
  let mine := s.nat (Key.ip.ADDR_NOW_N m)
  let known := (s.mac m).arp.any fun a => a.1 == sip
  let wanted := (s.mac m).asked.any fun a => a.1 == sip
  if mine = 0 ∨ !s.units.mgmt.served ∨ !s.linkUp m then []
  else if sip = mine then (if smac = s.nat (Key.mac.MAC_ADDR m) then [] else addressConflict m mine s)
  else phases [
    if (tip = mine ∨ known ∨ wanted) ∧ sip ≠ 0 then
      always [.mac m fun x => { x with
        arp := ((sip, smac, s.mtbNs) :: x.arp.filter fun a => a.1 != sip).take 64,
        asked := x.asked.filter fun a => a.1 != sip }]
    else always [],
    if op = 1 ∧ tip = mine then arpSend m 2 sip sip else always []] s

/-- What ARP does of itself (RFC 826, RFC 5227): the second announcement of an address, and each second a request again for the
stations whose address waiting frames still need (log 203). -/
def arpBoundary (m : Nat) : Phase := fun s =>
  let x := s.mac m
  let due := x.asked.filter fun a => decide (a.2 + 1000000000 ≤ s.mtbNs)
  phases [
    (if x.announceAt.any fun t => decide (t ≤ s.mtbNs) then phases [
       always [.mac m fun x => { x with announceAt := none }],
       arpSend m 1 0xFFFFFFFF (s.nat (Key.ip.ADDR_NOW_N m))]
     else always []),
    (if due.isEmpty then always []
     else always [.mac m fun x => { x with asked := x.asked.filter fun a => !due.contains a }]),
    forAll due (fun a => if x.waiting.any fun f => f.hop == a.1 then arpAsk m a.1 else always [])] s

/-- ARP entries live 300 s (Table 12-6). -/
def arpCacheExpiry (m : Nat) : Phase := fun s =>
  if (s.mac m).arp.any fun a => decide (a.2.2 + 300000000000 ≤ s.mtbNs) then
    [.mac m fun x => { x with arp := x.arp.filter fun a => decide (s.mtbNs < a.2.2 + 300000000000) }]
  else []

/-- An echo request is answered, at most 10 times per second per MAC (Table 12-6). -/
def icmpEcho (m src : Nat) (body : List Byte) : Phase := fun s =>
  let recent := (s.mac m).icmp.filter fun t => decide (s.mtbNs < t + 1000000000)
  if s.num (Key.ip.ADDR_NOW_N m) = 0 ∨ !s.units.mgmt.served ∨ !s.linkUp m ∨ 10 ≤ recent.length then []
  else phases [ipMessage m 4 src body, always [.mac m fun x => { x with icmp := s.mtbNs :: recent }]] s

/-! ### PTP at the MAC -/

/-- The event message that passes the MAC next: the oldest that the device has to send, where its frame lies in the FIFO and has not
been strobed (R372, R383). -/
def Mac.passing (x : Mac) : Option (Nat × Frame) :=
  match x.ptpOut with
  | [] => none
  | d :: _ => (x.fifo.find? fun f => f.kind == 1 && f.unit == d % 4 && !f.strobed
      && ((f.body.headD 0).toNat == 3) == decide (4 ≤ d) && decide ((f.body.headD 0).toNat ≤ 3)).map fun f => (d, f)

/-- The strobe of an event message at a MAC whose link is UP takes a snapshot and is counted (R58, R366, R383, R384): of one
received, or of the oldest that the device has to send. A Pdelay_Resp is followed by its Pdelay_Resp_Follow_Up (log 205). -/
def ptpStrobe (m : Nat) (rx : Bool) : Phase := fun s =>
  let out := (s.mac m).passing
  if !s.linkUp m ∨ (!rx ∧ out.isNone) then []
  else phases [
    snapshot,
    (if rx then fun s => [.mac m fun x => { x with rxStamp := s.now :: (List.range 4).map s.dtbTime }] else requestSent m),
    (match out with
      | some (d, f) => if rx then always [] else phases [
          always [.mac m fun x => { x with fifo := x.fifo.replace f { f with strobed := true } }],
          if 4 ≤ d then ptpQueue m (d - 4) 10 320 else always []]
      | none => always []),
    always [.bump (if rx then Key.net.RX_PTP_EVENT m else Key.net.TX_PTP_EVENT m) 1]] s

/-- A Delay_Req, or a Pdelay_Req under P2P, is queued on the port the DTB uses, in the transport of the master's Sync (R61, R383). -/
def delayReqSend (d : Nat) : Phase := fun s =>
  if !s.dtbOn d ∨ !s.units.mgmt.served then []
  else
    let m := s.dtbMac d
    phases [
      ptpQueue m d (if s.num (Key.dtb.DELAY_MECH d) = 1 then 2 else 1) 319,
      always [.mac m fun x => { x with ptpOut := x.ptpOut ++ [d] }]] s

/-! ### CAN FD -/

/-- Whether the controller operates (R385). -/
def State.canOn (s : State) : Bool := s.mode != .boot && s.flag Key.can.CAN_EN

/-- Whether sent frames carry BRS, and whether the transmitter's delay is compensated (R385). -/
def State.canBrs (s : State) : Bool := decide (s.num Key.can.CAN_NOM_RATE < s.num Key.can.CAN_DATA_RATE)
def State.canTdc (s : State) : Bool := decide (1000000 < s.num Key.can.CAN_DATA_RATE)

/-- `CAN_STATE` changes (R389). -/
def canSet (new : Nat) : Phase := fun s =>
  let old := s.nat Key.can.CAN_STATE
  if old = new then [] else [.nat Key.can.CAN_STATE new, .event Ev.CAN_STATE_CHANGED (args16 [old, new])]

/-- The message being sent and the request being assembled are discarded. -/
def canDiscard : Effect := .can fun x => { sent := x.sent, assembled := x.assembled }

/-- The controller starts or stops as R385 says; a restart discards what is under way (Table 12-9). -/
def canOperate (restart : Bool) : Phase := fun s =>
  let on := s.canOn
  let pins : Effect := .pins fun p => { p with canStb := !on, canTxRecessive := !on }
  if !on then [canDiscard, .num Key.can.CAN_TEC 0, .num Key.can.CAN_REC 0, pins] ++ canSet 0 s
  else if restart ∨ s.num Key.can.CAN_STATE = 0 then
    [canDiscard, .num Key.can.CAN_TEC 0, .num Key.can.CAN_REC 0, pins] ++ canSet 1 s
  else [pins]

/-- The least length of a CAN FD frame that holds `n` bytes (ISO 11898-1). -/
def canLen (n : Nat) : Nat :=
  if n ≤ 8 then n else (([12, 16, 20, 24, 32, 48, 64] : List Nat).find? fun l => decide (n ≤ l)).getD 64

/-- A message is queued on an identifier; during bus-off it is discarded (R386, R389). -/
def canQueue (id : Nat) (msg : List Byte) : Phase := fun s =>
  if !s.canOn ∨ s.num Key.can.CAN_STATE = 3 then [] else [.can fun x => { x with txq := x.txq ++ [(id, 0, msg)] }]

/-- One segment of the message at the head of the queue is sent in an FD frame with an 11-bit identifier (R385, R387). -/
def canFrameSend : Phase := fun s =>
  if !s.canOn ∨ s.num Key.can.CAN_STATE = 3 then []
  else match s.units.can.txq with
    | [] => []
    | (id, n, bytes) :: q =>
      let left := bytes.drop 63
      let last := left.isEmpty
      let f := le 1 ((if n = 0 then 128 else 0) + (if last then 64 else 0) + n % 64 : Nat) ++ bytes.take 63
      let f := f ++ List.replicate (canLen f.length - f.length) 0
      [.can fun x => { x with sent := ⟨id, s.canBrs, s.canTdc, f⟩ :: x.sent, txq := if last then q else (id, n + 1, left) :: q }]
        ++ if last then [.bump Key.can.CAN_TX_MSGS 1] else []

/-- The request being assembled is discarded and counted (R388). -/
def reasmDrop : List Effect := [.can fun x => { x with reasm := none, nextSeg := 0 }, .bump Key.can.REASM_DISCARDS 1]

/-- The assembled bytes of a request that END has closed, where they reach 32 plus the length field (R388). -/
def reasmDone (b : List Byte) : Option (List Byte) :=
  let n := 32 + leAt b 10 2
  if b.length < n then none else some (b.take n)

/-- A segment joins the request being assembled; END closes it (R388). -/
def reasmAdd (b : List Byte) (n : Nat) (fin : Bool) : Phase := fun s =>
  if !fin then [.can fun x => { x with reasm := some b, nextSeg := n + 1, reasmAt := s.mtbNs }]
  else match reasmDone b with
    | none => reasmDrop
    | some msg =>
      [.can fun x => { x with reasm := none, nextSeg := 0, assembled := x.assembled ++ [msg] }, .bump Key.can.CAN_RX_MSGS 1]

/-- A frame on the bus: its identifier, whether it is an FD frame with an 11-bit identifier, its data (R385-R388). -/
def canFrameReceive (id : Nat) (fd ext : Bool) (data : List Byte) : Phase := fun s =>
  let h := (data.headD 0).toNat
  let n := h % 64
  let x := s.units.can
  if !s.canOn ∨ s.num Key.can.CAN_STATE = 3 ∨ !fd ∨ ext ∨ id ≠ 0x400 + s.nat Key.can.CAN_NODE ∨ data = [] then []
  else if h.testBit 7 then phases [
    if x.reasm.isSome then always reasmDrop else always [],
    if n ≠ 0 then always [.bump Key.can.REASM_DISCARDS 1] else reasmAdd data.tail n (h.testBit 6)] s
  else match x.reasm with
    | none => []
    | some b => if n ≠ x.nextSeg then reasmDrop else reasmAdd (b ++ data.tail) n (h.testBit 6) s

/-- No segment for 100 ms (R388). -/
def canReasmTimeout : Phase := fun s =>
  if s.units.can.reasm.isSome ∧ s.expired s.units.can.reasmAt 100000000 then reasmDrop else []

/-- The bus state that error counts stand for (ISO 11898-1): error-active up to 127, bus-off where the transmit count exceeds
255. -/
def canStateOf (tec rec : Nat) : Nat := if 255 < tec then 3 else if 127 < tec ∨ 127 < rec then 2 else 1

/-- Whether the controller may pass from one bus state to another with these counts (R389): from bus-off only by the recovery, which
clears both. -/
def canMoves (old new tec rec : Nat) : Bool :=
  new == canStateOf tec rec && (old != 3 || new == 3 || (tec == 0 && rec == 0))

/-- The controller's bus state and error counts (R389); CAN_TEC shows at most 255 (Table 12-9, log 206). -/
def canStateChange (new tec rec : Nat) : Phase := fun s =>
  if !s.canOn ∨ !canMoves (s.nat Key.can.CAN_STATE) new tec rec then []
  else phases [
    always [.nat Key.can.CAN_TEC (min tec 255), .nat Key.can.CAN_REC (min rec 255)],
    if new = 3 ∧ s.num Key.can.CAN_STATE ≠ 3 then
      always [.bump Key.can.BUS_OFF_COUNT 1, .can fun x => { x with txq := [] }]
    else always [],
    canSet new] s

/-! ### The block boundary -/

/-- The management processor returns its receive buffers at each block boundary (log 52); the FIFOs, addresses and
memberships follow. -/
def netBoundary (ahead : State → Nat → List (List Int)) : Phase := phases [
  forAll [0, 1] fun m => phases [
    txDrain m,
    fun s => if s.units.mgmt.served then phases [
      always [ringReturn m], ipBoundary m, arpBoundary m, igmpVersion m] s else []],
  membersUpdate,
  forAll (List.range 8) (monBoundary ahead)]

end Sys2Proof.Machine
end

