-- ==== Sys2Proof/Machine/Modes.lean ====
section
/-!
DEFINITION. Machine/Modes.lean: the mode machine (R431-R436, R439), twilight (R445-R448), the control pins (R443,
R444), live insertion, withdrawal and planned removal (R449-R455).
-/

namespace Sys2Proof.Machine

/-! ### The mode machine -/

/-- Whether R33 forbids a request for STANDBY or RUN. -/
def State.layoutForbids (s : State) : Bool :=
  s.num Key.lay.LAYOUT_STATE == 0 && (List.range 16).any fun c => (s.mapped c).isSome

/-- The lock condition of R435. -/
def State.lockOk (s : State) : Bool := s.num Key.lock.LOCK_STATE == 2 || s.num Key.ref.REF_SOURCE == 0

/-- Whether a stop of a channel runs (Table 09-5). -/
def State.stopping (s : State) (c : Nat) : Bool :=
  !s.released c && (s.phase c == 5 || (s.phase c == 6 && !(s.chan c).holding) || s.phase c == 7)

/-- Channels that the mode runs start, one that is stopping once its stop is through; those that it does not run stop in order
(R283, R284, Table 09-6). -/
def modeChannels : Phase := forAll (List.range 16) fun c => fun s =>
  if s.modeRuns c then (if s.canStart c ∧ (!s.playing c || s.stopping c) then startDue c s else []) else stopBegin c false s

/-- Subscriptions follow the mode: they rejoin, or lose their membership, fading out toward MEASURE (R82, R436). -/
def modeStreams (old new : Mode) : Phase := fun s =>
  if old.places = new.places then []
  else if new = .measure then streamsMeasure s
  else streamsMode new.places s

/-- `MODE_CURRENT` changes (R432): the change is reported, and the stops and starts it causes begin. -/
def setMode (new : Mode) (reason : Nat) : Phase := fun s =>
  let old := s.mode
  if old = new then []
  else phases [
    always [.mode new, .nat Key.rsn.REASON reason, .nat Key.rsn.PREV_MODE old.code, .nat Key.rsn.CHANGED_AT s.now,
      .bump Key.rsn.MODE_CHANGES 1, .num Key.rsn.WAIT_STATE 0,
      .mgmt fun m => { m with runWait := none, setupTo := none, setupAt := none },
      .event Ev.MODE_CHANGED (args16 [old.code, new.code, reason])],
    modeStreams old new, measureLeave old new, modeChannels,
    forAll (List.range 16) (fun c => netUpdate c), membersUpdate] s

/-- The end of the hold of a planned removal: the groups wait for R449 again (R455). -/
def removalEnd : Phase := fun s =>
  if !s.units.mgmt.removed then []
  else .mgmt (fun m => { m with removed := false, hsFreeAt := s.mtbNs }) ::
    (List.range 4).flatMap fun g => if s.num (Key.hs.HS_STATE_PG g) = 6 then [Effect.num (Key.hs.HS_STATE_PG g) 1] else []

/-- A request for RUN waits for the lock condition (R435). -/
def runAwait (reason : Nat) : Phase := always [
  .mgmt fun m => { m with runWait := some reason }, .num Key.rsn.WAIT_STATE 2]

/-- A request for the mode with code `v` takes effect (Table 14-1, R433-R435, R448). A request for the mode in force
ends a wait for RUN (log 60). -/
def modeTake (v reason : Nat) : Phase := fun s =>
  let m := s.units.mgmt
  if v = 0 ∨ 4 < v ∨ s.mode = .boot then []
  else if m.setupTo.isSome then
    if v = 1 then phases [
      always [.mgmt fun m => { m with setupTo := none, setupAt := none }, .num Key.rsn.WAIT_STATE 0], membersUpdate] s
    else phases [always [.mgmt fun m => { m with setupTo := some (v, reason) }], removalEnd, membersUpdate] s
  else if s.mode = .safe then
    if v = 1 then []
    else phases [
      removalEnd,
      always [.mgmt fun m => { m with setupTo := some (v, reason), setupAt := some s.mtbNs }, .num Key.rsn.WAIT_STATE 1],
      membersUpdate] s
  else if v = 3 then
    if s.mode = .run ∨ s.mode = .holdover then []
    else if s.lockOk then setMode .run reason s else runAwait reason s
  else if s.mode.code = v then [.mgmt fun m => { m with runWait := none }, .num Key.rsn.WAIT_STATE 0]
  else setMode (Mode.ofCode v) reason s

/-- A phase that the session whose request for a mode is in force has caused (R471). -/
def byRequester (p : Phase) : Phase := fun s => causedBy s.units.mgmt.modeBy p s

/-- The setup that leaves SAFE has ended: the mode is entered at the block boundary that follows (R433, R434). -/
def setupComplete : Phase := fun s =>
  match s.units.mgmt.setupTo with
  | none => []
  | some (v, reason) =>
    if !s.units.mgmt.served ∨ !s.atBoundary then []
    else phases [
      byRequester (setMode (if v = 4 then .measure else .standby) reason),
      if v ≠ 3 then always []
      else if s.lockOk then always [.mgmt fun m => { m with runWait := some reason }]
      else runAwait reason] s

/-- A setup lasts at most 800 ms from its boundary (R433): at the boundary after which it would last longer it has ended. -/
def setupBound : Phase := fun s =>
  if s.passed s.units.mgmt.setupAt (800000000 - s.blockNs / 2) then setupComplete s else []

/-- A request for RUN enters RUN at a block boundary once the lock condition holds (R435): with reason LOCK_REACHED where it waited, else with
the reason of the request (Table 14-8). -/
def runEntry : Phase := fun s =>
  match s.units.mgmt.runWait with
  | none => []
  | some reason =>
    if !s.units.mgmt.served ∨ !s.atBoundary ∨ (s.mode ≠ .standby ∧ s.mode ≠ .measure) then []
    else if s.lockOk then byRequester (setMode .run (if s.num Key.rsn.WAIT_STATE = 2 then 3 else reason)) s
    else [.num Key.rsn.WAIT_STATE 2]

/-- What waits outside the entries for its boundary: the request of a planned removal (R454). -/
def modePending : Phase := fun s =>
  match s.units.mgmt.waitMode with
  | none => []
  | some (v, reason) =>
    let by' := match s.units.mgmt.removal with
      | some h => (s.handle h).elim 0 (·.session)
      | none => 0
    phases [always [.mgmt fun m => { m with waitMode := none, modeBy := by' }], byRequester (modeTake v reason)] s

/-- `START_MODE`, as the dawn sequence found it, is acted on at the first block boundary in SAFE (R439). -/
def startMode : Phase := fun s =>
  let v := s.units.mgmt.startTo
  if s.mode ≠ .safe ∨ s.units.mgmt.startDone ∨ !s.atBoundary then []
  else phases [
    always [.mgmt fun m => { m with startDone := true, modeBy := 0 }, .nat Key.mode.MODE_REQUEST v],
    if 2 ≤ v ∧ s.layoutForbids then always [] else modeTake v 2] s

/-! ### Twilight -/

/-- HOLDOVER_ELAPSED in ms has reached HOLDOVER_MAX (R447). -/
def State.holdoverOver (s : State) : Bool :=
  decide (s.nat Key.hold.HOLDOVER_MAX * 1000 ≤ s.holdoverElapsed)

/-- HOLDOVER_MAX has been reached: to STANDBY, where the request for RUN waits (R447). -/
def holdoverLeave : Phase := fun s => phases [
  always [.event Ev.HOLDOVER_EXPIRED (le 4 s.holdoverElapsed), .mgmt fun m => { m with modeBy := 0 }], setMode .standby 6, runAwait 1] s

/-- Lock state HOLDOVER for 3 s takes RUN to HOLDOVER at a block boundary, where fallbacks engage; a HOLDOVER_MAX of 3 s or less goes to
STANDBY (R445, R447). -/
def holdoverEntry : Phase := fun s =>
  if s.mode = .run ∧ s.num Key.lock.LOCK_STATE = 3 ∧ s.units.mgmt.served ∧ s.atBoundary
      ∧ s.passed s.units.mgmt.holdSince 3000000000 then
    if s.nat Key.hold.HOLDOVER_MAX ≤ 3 then holdoverLeave s
    else phases [setMode .holdover 4, forAll (List.range 16) fallbackEngage] s
  else []

/-- The source is back: RUN at the next block boundary (R446, R448). -/
def holdoverReturn : Phase := fun s =>
  if s.mode = .holdover ∧ s.num Key.lock.LOCK_STATE ≠ 3 ∧ s.units.mgmt.served ∧ s.atBoundary then setMode .run 5 s
  else []

/-- HOLDOVER_MAX has been reached: STANDBY at the next block boundary (R447). -/
def holdoverExpired : Phase := fun s =>
  if s.mode = .holdover ∧ s.num Key.lock.LOCK_STATE = 3 ∧ s.holdoverOver ∧ s.units.mgmt.served ∧ s.atBoundary then
    holdoverLeave s
  else []

/-- The changes of mode that no request brings, at a block boundary; a source that is back wins over the end of
HOLDOVER_MAX (R448). -/
def modeFollows : Phase := phases [runEntry, setupBound, holdoverReturn, holdoverExpired, holdoverEntry]

/-! ### Control pins -/

/-- MUTE_N, filtered: a low holds every chain gate at 0; a high lets each channel return from the next block boundary
(R443, R444). -/
def mutePin (high : Bool) : Phase := fun s =>
  if s.units.pins.muteN = high then []
  else phases [
    always [.pins fun p => { p with muteN := high }],
    forAll (List.range 16) fun c => phases [
      always [.chan c fun x => { x with pinHeld := !high }], if high then always [] else holdDown c]] s

/-! ### Live insertion -/

def State.hsState (s : State) (g : Nat) : Nat := s.nat (Key.hs.HS_STATE_PG g)

/-- A group whose controller is idle shows why: off, waiting for R449, or held by a planned removal (Table 15-11). -/
def hsIdle : Phase := fun s => (List.range 4).flatMap fun g =>
  if s.hsState g = 0 ∨ s.hsState g = 1 ∨ s.hsState g = 6 then
    [.num (Key.hs.HS_STATE_PG g) (if s.units.mgmt.removed then 6 else if s.units.pins.engageN then 0 else 1)]
  else []

/-- The instant at which the conditions of R449 were first met. -/
def State.hsMet (s : State) : Option Nat :=
  match s.units.mgmt.safeAt, s.units.pins.engageLow with
  | some a, some b =>
    if s.mode = .boot ∨ s.units.mgmt.removed ∨ s.units.pins.withdrawing then none
    else some (max a (max (b + 100000000) s.units.mgmt.hsFreeAt))
  | _, _ => none

/-- After a withdrawal, ENGAGE_N has been low again for 100 ms without a break (R452). -/
def engageBack : Phase := fun s =>
  if s.units.pins.wasLost ∧ !s.units.pins.withdrawing ∧ s.passed s.units.pins.engageLow 100000000 then
    [.pins fun p => { p with wasLost := false }, .event Ev.ENGAGE_RESTORED []] else []

/-- A group's gate is raised: its bus ramps (R449, R450). -/
def hsRamp (g : Nat) : Phase := phases [engageBack, fun s =>
  [.num (Key.hs.HS_STATE_PG g) 2, .group g fun x => { x with gate := true, hsAt := some s.mtbNs, hsRetryAt := none }]]

/-- PGg begins its ramp 32 × g ms after the conditions of R449 are first met; its die keeps the gate low until R440 lets it go. -/
def hsRampStart (g : Nat) : Phase := fun s =>
  if s.hsState g = 1 ∧ s.passed s.hsMet (32000000 * g) ∧ s.dieReady g then hsRamp g s else []

/-- A group becomes NOT_READY: its bridges are released (R295, R451, R452). -/
def groupNotReady (g : Nat) : Phase := phases [
  always [.group g fun x => { x with notReady := true }], groupRelease g, groupShow g]

/-- The gate is fully enhanced and VBUSg stands at `mv` mV within 1.0 V of the supply (R450). -/
def hsPowerGood (g mv : Nat) : Phase := fun s =>
  if s.hsState g ≠ 2 ∨ mv < 23000 then []
  else phases [
    always [.num (Key.hs.HS_STATE_PG g) 3, .num (Key.hs.HS_FAULTS_PG g) 0,
      .nat (Key.hs.HS_RAMP_PG g) ((s.mtbNs - ((s.group g).hsAt.getD s.mtbNs)) / 1000000),
      .group g fun x => { x with notReady := false }, .event Ev.HOTSWAP_POWER_GOOD (le 2 g ++ le 4 mv)],
    groupShow g, groupStarts g] s

/-- A group stops reporting power-good while its gate stays raised (R450). -/
def powerGoodLost (g : Nat) : Phase := fun s =>
  if s.hsState g ≠ 3 then []
  else phases [
    always [.num (Key.hs.HS_STATE_PG g) 2, .group g fun x => { x with hsAt := some s.mtbNs }], groupNotReady g] s

/-- The current limit has acted for 20 ms (R451): a retry 2 s later, or the latch at the third fault. -/
def hsFault (g : Nat) : Phase := fun s =>
  if s.hsState g ≠ 2 ∧ s.hsState g ≠ 3 then []
  else
    let n := s.nat (Key.hs.HS_FAULTS_PG g) + 1
    phases [
      always [.nat (Key.hs.HS_FAULTS_PG g) n, .bump Key.hs.HS_FAULT_TOTAL 1,
        .num (Key.hs.HS_STATE_PG g) (if 3 ≤ n then 5 else 4),
        .group g fun x => { x with gate := false, hsRetryAt := some (s.mtbNs + 2000000000) },
        .event Ev.HOTSWAP_FAULT (args16 [g] ++ le 1 n)],
      groupNotReady g] s

/-- The ramp is retried 2 s after a fault (R451). -/
def hsRetry (g : Nat) : Phase := fun s =>
  match (s.group g).hsRetryAt with
  | some t => if s.hsState g = 4 ∧ t ≤ s.mtbNs ∧ s.passed s.hsMet 0 ∧ s.dieReady g then hsRamp g s else []
  | none => []

/-- The clear of R477 for the groups of a mask: the fault count is reset, and the group ramps as soon as R449 allows. -/
def hsClear (m : Nat) : Phase := phases [
  forAll (ones 4 m) fun g => fun s =>
    .num (Key.hs.HS_FAULTS_PG g) 0 ::
      (if s.hsState g = 4 ∨ s.hsState g = 5 then
        [.num (Key.hs.HS_STATE_PG g) 1, .group g fun x => { x with hsRetryAt := none }] else []),
  hsIdle]

/-! ### Withdrawal -/

/-- ENGAGE_N, filtered high: every channel stops fast, and the groups are withdrawn (R452). The 2 ms of a withdrawal that runs
already go on. -/
def engageHigh : Phase := fun s =>
  if s.units.pins.engageN then []
  else phases [
    always [.pins fun p => { p with
      engageN := true, engageLow := none, engageHigh := if p.withdrawing then p.engageHigh else some s.mtbNs }],
    fun s => if s.mode = .boot then [] else phases [
      always [.pins fun p => { p with withdrawing := true, wasLost := true }, .event Ev.ENGAGE_LOST []],
      forAll (List.range 16) (fun c => stopBegin c true)] s] s

/-- Every gate is pulled low once every bridge is released, and at most 2 ms after the edge (R452). -/
def withdrawalGates : Phase := fun s =>
  if s.units.pins.withdrawing ∧ (s.allReleased ∨ s.passed s.units.pins.engageHigh 2000000) then phases [
    forAll (List.range 4) fun g => phases [
      fun s => [.group g fun x => { x with gate := false, hsRetryAt := none },
        .num (Key.hs.HS_STATE_PG g) (if s.hsState g = 5 then 5 else 0)],
      groupNotReady g],
    fun s => [.pins fun p => { p with
      withdrawing := false, engageLow := if p.engageN then none else some s.mtbNs }],
    hsIdle] s
  else []

/-- ENGAGE_N, filtered low: the 100 ms count begins, and a planned removal ends to hold the groups (R452, R455). -/
def engageLow : Phase := fun s =>
  if !s.units.pins.engageN then []
  else phases [
    fun s => [.pins fun p => { p with engageN := false, engageLow := if p.withdrawing then none else some s.mtbNs }],
    removalEnd, hsIdle] s

/-! ### The log -/

/-- ASCII text. -/
def ascii (t : String) : List Byte := t.toList.map fun c => BitVec.ofNat 8 c.toNat

/-- `n` hex digits of a number. -/
def hexText (n x : Nat) : List Byte :=
  (List.range n).map fun i => (ascii "0123456789abcdef").getD (x / 16 ^ (n - 1 - i) % 16) 0

/-- The UART line of a record (R472). -/
def LogRec.line (r : LogRec) : List Byte :=
  ascii (toString r.seq) ++ [0x20] ++ ascii (toString r.time) ++ [0x20] ++ hexText 4 r.code ++ [0x20] ++ hexText 4 r.source
    ++ [0x20] ++ r.args.flatMap (fun b => hexText 2 b.toNat) ++ [0x0D, 0x0A]

/-- The oldest event not yet logged is written by the management processor as a record of the ring, and sent on the UART
outside the recovery loader (R471, R472). -/
def logWrite : Phase := fun s =>
  match s.units.mgmt.served, s.units.logQueue with
  | false, _ | _, [] => []
  | true, e :: q =>
    let seq := max 1 (s.nat Key.log.LOG_NEXT_SEQ)
    let r : LogRec := {
      time := e.time, seq := seq, code := e.code, args := e.args.take 16,
      source := e.source % 32768 + if e.anchored then 0 else 32768 }
    [.unit fun u => { u with logQueue := q, log := Tbl.set (fun _ => none) u.log ((seq - 1) % 32768) (some r) },
     .nat Key.log.LOG_NEXT_SEQ (seq + 1), .nat Key.log.LOG_FLUSHED seq, .nat Key.log.LOG_OLDEST_SEQ (max 1 (seq - 32767)),
     .save Key.log.LOG_NEXT_SEQ (some (.num (seq + 1 : Nat))), .save Key.log.LOG_FLUSHED (some (.num seq)),
     .save Key.log.LOG_OLDEST_SEQ (some (.num (max 1 (seq - 32767) : Nat))),
     .pins fun p => { p with uart := if p.recovery then p.uart else r.line }]

/-- Every event not yet logged is written (R454). -/
def logFlush : Phase := fun s => forAll s.units.logQueue (fun _ => logWrite) s

/-! ### Planned removal -/

/-- PREPARE_REMOVAL is accepted with a handle (R454): its request for SAFE replaces one that waits (R431). A device in SAFE has
nothing to request. -/
def removalAccept (h : Nat) : Phase := fun s =>
  .mgmt (fun m => { m with removal := some h }) ::
    if s.mode = .safe ∧ s.units.mgmt.setupTo = none then []
    else [.num Key.mode.MODE_REQUEST 1,
      .unit fun u => { u with
        waiting := u.waiting.filter fun x => x.key != Key.mode.MODE_REQUEST, mgmt := { u.mgmt with waitMode := some (1, 7) } }]

/-- The lifetime counters are stored (R473). -/
def lifetimeSave : Phase := fun s =>
  .mgmt (fun m => { m with lifeAt := s.mtbNs }) ::
    ((List.range 0x1F).map fun i => .save (0x1220 * 256 + 1 + i) (some (s.get (0x1220 * 256 + 1 + i))))

/-- Every bridge is released: the gates drop, the state is stored and the operation completes (R454). A group that its third
fault has latched stays so (R451). -/
def removalComplete : Phase := fun s =>
  match s.units.mgmt.removal with
  | none => []
  | some h =>
    if s.mode ≠ .safe ∨ s.units.mgmt.waitMode.isSome ∨ !s.allReleased ∨ !s.units.mgmt.served then []
    else phases [
      forAll (List.range 4) fun g => phases [
        fun s => [.group g fun x => { x with gate := false, hsRetryAt := none },
          .num (Key.hs.HS_STATE_PG g) (if s.hsState g = 5 then 5 else 6)],
        groupNotReady g],
      always [.mgmt fun m => { m with removed := true, removal := none }],
      observersSave, logFlush, lifetimeSave, handleEnd h St.ok 0] s

end Sys2Proof.Machine
end

