-- ==== Sys2Proof/Machine/Upkeep.lean ====
section
/-!
DEFINITION. Machine/Upkeep.lean: absences of the management processor (R457-R460), divergences (R461), sensors (R463,
R464), sense calibration (R465-R468), fans and FAULT_N (R469, R470), the log (R471, R472), lifetime counters (R473,
R474), the fence catalogue's clear (R475-R477), storage wear (R478, R479) and updates (R480-R486).
-/

namespace Sys2Proof.Machine

/-! ### Sessions end -/

/-- A session ends (R410): its claims, transaction, transfer, subscriptions and ring go; what it has had committed
stays. -/
def sessionEnd (n cause : Nat) : Phase := fun s =>
  match s.session n with
  | none => []
  | some x =>
    if x.ended then []
    else
      let rest : Option Session :=
        if x.commit.isSome || !x.ownCommits.isEmpty then
          some { role := x.role, ended := true, commit := x.commit, ownCommits := x.ownCommits }
        else none
      (.session n fun _ => rest) ::
        (x.claims.map fun a => .event Ev.AREA_RELEASED (args16 [a, n]))
        ++ [.event Ev.SESSION_CLOSED (args16 [n, cause])]

/-- The numbers of the sessions that exist (R408): pending or open. -/
def State.liveSessions (s : State) : List Nat :=
  (s.units.sessions.filter fun p => match p.2 with
    | some x => !x.ended
    | none => false).map fun p => p.1

def sessionsEnd (cause : Nat) : Phase := fun s => forAll s.liveSessions (fun n => sessionEnd n cause) s

/-! ### Absences -/

/-- An absence begins: CDL is no longer served, and a restart ends every session (R457, R458). -/
def absenceBegin (cause : Nat) : Phase := fun s => phases [
  always [.mgmt fun m => { m with absentAt := some (m.absentAt.getD s.mtbNs), cause := cause, served := false }],
  sessionsEnd 2] s

/-- A latched happening is raised with the time of its occurrence (R459). -/
def deliverLatched (e : EventRec) : List Effect :=
  [.bump Key.evt.EVT_RAISED 1,
   .unit fun u => { u with sessions := recordAll u.sessions e, logQueue := u.logQueue ++ [e] }]

/-- An absence of 10 s: every channel stops fast and FAULT_N goes low; once every bridge is released RESET_N is driven
low (R460). -/
def absenceGuard : Phase := fun s =>
  if !s.units.mgmt.absentAt.any fun t => s.expired t 10000000000 then []
  else phases [
    if s.units.mgmt.guarded then always []
    else phases [
      always [.mgmt fun m => { m with guarded := true, stopAll := true }, .pins fun p => { p with faultLow := true }],
      forAll (List.range 16) (fun c => stopBegin c true)],
    fun s => if s.allReleased ∧ s.units.pins.resetDrive = none then
      [.pins fun p => { p with resetDrive := some s.mtbNs }] else []] s

/-- The guard's second step at a block boundary (R460). -/
def guardBoundary : Phase := fun s =>
  if s.units.mgmt.stopAll ∧ s.allReleased ∧ s.units.pins.resetDrive = none then
    [.pins fun p => { p with resetDrive := some s.mtbNs }] else []

/-! ### Divergence -/

/-- Whether an entry commands a state (Table 15-2). Committed coefficients are what a commit sets of the layout, the renderer, the
chains, the loop engine and the models; for the placement stand the costs that it gives the lanes. -/
def isCommanded (k : Nat) : Bool :=
  (List.range 16).any (fun c => k == Key.pw.CH_EN c) || (List.range 64).any (fun n => k == Key.ls.STATE_REQ n)
    || (List.range 128).any (fun i => k == Key.sub.ENABLE i) || (List.range 4).any (fun p => k == Key.tdm.PORT_EN p)
    || (List.range 4).any (fun g => k == Key.fl.FL_ENABLE g) || (List.range 2).any (fun a => k == Key.aes.AES_EN a)
    || k == Key.aout.AOUT_EN || k == Key.mode.MODE_CURRENT
    || (List.range 16).any (fun l => k == Key.lane.PLACED_COST l)
    || (decide (0x50 ≤ k / 65536 ∧ k / 65536 < 0x90) && (Dict.row k).any fun r => r.acc == .rws)

/-- The commanded value is written to the hardware once more (R461); lanes and loop engine hold the committed coefficients in
their entries, a slot with its check code. -/
def rewrite (k : Nat) : Phase := fun s =>
  match (List.range 16).find? fun c => k == Key.pw.CH_EN c with
  | some c => chEnEffect c (s.num k) s
  | none => match (List.range 64).find? fun n => k == Key.ls.STATE_REQ n with
    | some n => [.slot n fun x => { x with reqWait := some (s.nat k) }]
    | none => match (List.range 128).find? fun i => k == Key.sub.ENABLE i with
      | some i => streamFollows i s
      | none => match (List.range 4).find? fun p => k == Key.tdm.PORT_EN p with
        | some p => portEnable p s
        | none => match (List.range 4).find? fun g => k == Key.fl.FL_ENABLE g with
          | some g => flEnable g (s.flag k) s
          | none => match (List.range 2).find? fun a => k == Key.aes.AES_EN a with
            | some a => rxEnable a s
            | none =>
              if k = Key.aout.AOUT_EN then [.num Key.aout.AOUT_STATE (s.num k)]
              else if k = Key.mode.MODE_CURRENT then phases [modeChannels, membersUpdate] s
              else match (List.range 16).find? fun l => k == Key.lane.PLACED_COST l with
                | some l => [.lane l fun y => y.put (tasksOn (s.placement s.inService) l) s.periodOpen]
                | none => .reg k (s.get k) ::
                    if k / 65536 = 0x71 then [.slot (k / 256 % 256) fun x => { x with checkBad := false }] else []

/-- A divergence that has lasted 100 ms (R461); at a return from an absence every difference begins anew (R462). -/
def stateDiverge (k : Nat) : Phase := fun s =>
  if !isCommanded k ∨ !s.units.mgmt.served ∨ s.units.mgmt.returnedAt.any (fun t => decide (s.mtbNs < t + 100000000)) ∨ (s.units.mgmt.diverge.any fun d => d.1 == k)
      ∨ s.units.mgmt.divergedOpen.contains k then []
  else phases [
    always [.mgmt fun m => { m with diverge := m.diverge ++ [(k, s.mtbNs, true)] },
      .event Ev.STATE_DIVERGE (args16 [k / 256, k % 256, 0]), .bump Key.fence.DIVERGENCES 1],
    rewrite k] s

/-- A divergence reported with outcome 1 is no longer open: it is resolved, or its commanded value is written again and it is
taken up anew (R461, Table 15-10). -/
def divergeWritten (k : Nat) : Phase := fun s =>
  if s.units.mgmt.divergedOpen.contains k then
    [.mgmt fun m => { m with divergedOpen := m.divergedOpen.filter fun d => d != k }, .bump Key.fence.DIVERGE_OPEN (-1)]
  else []

/-- 100 ms after the rewrite: a difference that still stands is reported with outcome 1; an open one that stands no longer is
resolved (R461). -/
def divergeRecheck (k : Nat) (still : Bool) : Phase := fun s =>
  match s.units.mgmt.diverge.find? fun d => d.1 == k with
  | none => if still ∨ !s.units.mgmt.served then [] else divergeWritten k s
  | some (_, t, _) =>
    if s.mtbNs < t + 100000000 ∨ !s.units.mgmt.served then []
    else if still then
      [.mgmt fun m => { m with diverge := m.diverge.filter fun d => d.1 != k, divergedOpen := m.divergedOpen ++ [k] },
       .event Ev.STATE_DIVERGE (args16 [k / 256, k % 256, 1]), .bump Key.fence.DIVERGE_OPEN 1]
    else [.mgmt fun m => { m with diverge := m.diverge.filter fun d => d.1 != k }]

/-! ### Sensors -/

/-- One sensor is read: out of range it is faulted; 10 s in range clear the fault (R464). -/
def sensorOne (k : Nat) (t : Int) : Phase := fun s =>
  let out := decide (t < -55 * 65536 ∨ 175 * 65536 < t)
  let faulted := (s.nat Key.sens.SENSOR_FAULTS).testBit k
  let since := s.units.mgmt.faultSince.find? fun f => f.1 == k
  let drop : Effect := .mgmt fun m => { m with faultSince := m.faultSince.filter fun f => f.1 != k }
  .num (Key.sens.T_DIE k) t ::
    (if out then
      drop :: (if faulted then [] else [.orBits Key.sens.SENSOR_FAULTS (2 ^ k), .event Ev.SENSOR_FAULT (args16 [k, 1])])
     else if !faulted then []
     else match since with
      | none => [.mgmt fun m => { m with faultSince := (k, s.mtbNs) :: m.faultSince }]
      | some (_, t0) =>
        if t0 + 10000000000 ≤ s.mtbNs then
          [drop, .andNot Key.sens.SENSOR_FAULTS (2 ^ k), .event Ev.SENSOR_FAULT (args16 [k, 0])]
        else [])

/-- The two sensors of a power die differ by more than 15 K for 1 s: reported once, on the lower-numbered one (R464,
log 61). -/
def sensorPair (g : Nat) : Phase := fun s =>
  let f := s.nat Key.sens.SENSOR_FAULTS
  let apart := decide (15 * 65536 < |s.num (Key.sens.T_DIE (2 * g)) - s.num (Key.sens.T_DIE (2 * g + 1))|)
    && !f.testBit (2 * g) && !f.testBit (2 * g + 1)
  let told := s.units.mgmt.diffSince.any fun d => d.1 == g + 4
  if !apart then
    if s.units.mgmt.diffSince.any fun d => d.1 == g then
      [.mgmt fun m => { m with diffSince := m.diffSince.filter fun d => d.1 != g && d.1 != g + 4 }] else []
  else match s.units.mgmt.diffSince.find? fun d => d.1 == g with
    | none => [.mgmt fun m => { m with diffSince := (g, s.mtbNs) :: m.diffSince }]
    | some (_, t0) =>
      if !told ∧ t0 + 1000000000 ≤ s.mtbNs then
        [.mgmt fun m => { m with diffSince := (g + 4, s.mtbNs) :: m.diffSince }, .event Ev.SENSOR_FAULT (args16 [2 * g, 2])]
      else []

/-- Thermal cycles of a power die by its hotter sensor (R473): a rise of 40 K above the last valley, then a fall of 40 K
below the peak; while both sensors are faulted it has none. -/
def thermalCycle (g : Nat) : Phase := fun s =>
  let t := s.tStage g
  let (valley, peak, low) := (s.group g).cycle
  let k40 : Int := 40 * 65536
  let f := s.nat Key.sens.SENSOR_FAULTS
  if f.testBit (2 * g) && f.testBit (2 * g + 1) then []
  else if low then
    let v := min valley t
    if v + k40 ≤ t then [.group g fun x => { x with cycle := (v, t, false) }]
    else if v = valley then [] else [.group g fun x => { x with cycle := (v, peak, true) }]
  else
    let p := max peak t
    if t ≤ p - k40 then [.group g fun x => { x with cycle := (t, t, true) }, .bump (Key.life.LT_TCYCLES_PG g) 1]
    else if p = peak then [] else [.group g fun x => { x with cycle := (valley, p, false) }]

/-- Sensors of the power dies that are not faulted, read now. -/
def State.powerSensors (s : State) : List Int :=
  ((List.range 8).filter fun k => !(s.nat Key.sens.SENSOR_FAULTS).testBit k).map fun k => s.num (Key.sens.T_DIE k)

/-- One ms is added to a count of minutes. -/
def minute (ns : Nat) (on : Bool) (k : Nat) : Nat × List Effect :=
  let n := if on then ns + 1000000 else ns
  if 60000000000 ≤ n then (n - 60000000000, [.bump k 1]) else (n, [])

/-- The lifetime counters that follow the sensors' period of 1 ms (R473, Table 15-8). -/
def lifetimeMs : Phase := fun s =>
  let (a, b, c) := s.units.mgmt.lifeNs
  let hot := s.powerSensors.any fun t => decide (110 * 65536 < t)
  let (a, e1) := minute a true Key.life.LT_ON_MIN
  let (b, e2) := minute b (s.mode = .run ∨ s.mode = .holdover) Key.life.LT_RUN_MIN
  let (c, e3) := minute c hot Key.life.LT_TJ_HOT_MIN
  .mgmt (fun m => { m with lifeNs := (a, b, c) }) :: e1 ++ e2 ++ e3

/-- The mean of the hottest power-die sensor, sampled once per second (R473). -/
def tjMean : Phase := fun s =>
  let m := s.units.mgmt
  match s.powerSensors with
  | [] => []
  | t :: l =>
    if s.mtbNs < m.secAt + 1000000000 then []
    else
      let sum := m.tjSum.1 + l.foldl max t
      let n := m.tjSum.2 + 1
      [.mgmt fun m => { m with secAt := s.mtbNs, tjSum := (sum, n) },
       .num Key.life.LT_TJ_MEAN (rounded Key.life.LT_TJ_MEAN ((sum : Rat) / n))]

/-- `T_DIE_PEAK` follows the sensors that are not faulted (Table 15-3). -/
def diePeak : Phase := fun s =>
  let l := ((List.range 12).filter fun k => !(s.nat Key.sens.SENSOR_FAULTS).testBit k).map fun k => s.num (Key.sens.T_DIE k)
  let p := l.foldl max (s.num Key.sens.T_DIE_PEAK)
  if p = s.num Key.sens.T_DIE_PEAK then [] else [.num Key.sens.T_DIE_PEAK p]

/-- The die sensors (2^-16 degC) and the supplies VAUX, VIO33, VIO18, VANA, VCORE (mV) are read (R463, R464). A bank supply that
reads 0 is absent (R440, log 210). -/
def sensorRead (t : List Int) (mv : List Nat) : Phase := phases [
  forAll (List.range 12) (fun k => sensorOne k (t.getD k 0)),
  always ((List.range 5).map fun i => .nat (Key.sens.VAUX_NOW + i) (mv.getD i 0)),
  always [.pins fun p => { p with vio33 := mv.getD 1 0 != 0, vio18 := mv.getD 2 0 != 0 }],
  forAll (List.range 4) sensorPair, forAll (List.range 4) thermalCycle, diePeak, lifetimeMs, tjMean]

/-! ### Sense calibration -/

/-- The wait of a calibration by CALIBRATE for its zero crossing (R467). -/
def Zc.cal (c : Nat) : Nat := Zc.fn 6 c

/-- Whether a channel is due for calibration (R465): by the time since the last one, and T_STAGE then, whatever its result.
One that has never been calibrated is due, one that was abandoned stays due (logs 62, 175). -/
def State.calDueNow (s : State) (c : Nat) : Bool :=
  let x := s.chan c
  let temp := (x.calTried.map fun p => p.2).getD x.calTemp
  let last := (x.calTried.map fun p => p.1).or x.calAt
  let moved := decide (s.num Key.cal.CAL_TEMP_STEP * 65536 < 100 * |s.tStage (c / 4) - temp|)
  s.flag Key.cal.CAL_AUTO && s.mode.places && (x.calDue || moved || (match last with
    | none => true
    | some t => decide (t + s.nat Key.cal.CAL_INTERVAL * 3600000000000 ≤ s.now)))

/-- The CALIBRATE operation that a channel belongs to. -/
def State.calHandle (s : State) (c : Nat) : Option Nat :=
  (s.units.handles.find? fun p => match p.2 with
    | some x => x.op == 0x0B31 && !x.finished && x.chans.testBit c
    | none => false).map fun p => p.1

/-- Whether a due channel may begin: released, or silent for 2 s (R465). -/
def State.calMay (s : State) (c : Nat) : Bool :=
  s.calDueNow c && (s.chan c).calPhase == 0 && (s.calHandle c).isNone
    && (s.released c || s.passed (s.chan c).quietSince 2000000000)

/-- Step 1 of R466 begins; a released bridge skips it. -/
def calBegin (c : Nat) : Phase := fun s =>
  if s.released c then [.chan c fun x => { x with calPhase := 2, calStart := some s.mtbNs }]
  else [.chan c fun x => { x with calPhase := 1, gl := x.gl.to 0 32 }]

/-- An automatic calibration begins at a block boundary, one channel of a group at a time, lowest number first (R465). -/
def calibrationStart (c : Nat) : Phase := fun s =>
  let group := groupChans (c / 4)
  if s.calMay c ∧ s.atBoundary ∧ s.units.mgmt.served ∧ (group.all fun d => (s.chan d).calPhase == 0)
      ∧ (group.all fun d => decide (c ≤ d) || !s.calMay d) then
    phases [always [.chan c fun x => { x with calDue := true }], calBegin c] s
  else []

/-- A channel's part of CALIBRATE is over; the operation ends with its last channel (R467), as cancelled where CANCEL dropped
channels that had not begun (R424). -/
def calPart (c : Nat) : Phase := fun s =>
  match s.calHandle c with
  | none => []
  | some h => match s.handle h with
    | none => []
    | some x =>
      let left := clearBits x.chans (2 ^ c)
      let put : Effect := .handle h fun y => y.map fun y => { y with chans := left }
      if left = 0 then
        phases [always [put], handleEnd h (x.ending.getD (if x.failed then St.failed else St.ok)) 0] s
      else [put]

/-- The inputs have returned and G_l is up again: an automatic calibration is over. A channel that CALIBRATE has brought to idle waits
for a zero crossing, for 20 ms at most, and ramps up, and its calibration ends after that (R466, R467). -/
def calEnd (c : Nat) : Phase := fun s =>
  if !(s.chan c).calForced then [.chan c fun x => { x with calPhase := 0 }]
  else phases [
    always [.chan c fun x => { x with calPhase := 6 }],
    fun s => if s.phase c = 0 ∧ s.outState c = 1 ∧ !s.gateHeld c ∧ (s.chan c).gc.atRest then
        [.num (Key.pw.SEQ_PHASE c) 3] ++ zcStart (Zc.start c) (.num 1) s ++ [zcShorten (Zc.start c) (20 * s.fs / 1000)]
      else []] s

/-- Step 3 of R467 is over where neither its wait nor its ramp runs: the channel's part of CALIBRATE is. -/
def calLeave (c : Nat) : Phase := fun s =>
  if (s.chan c).calPhase = 6 ∧ s.phase c ≠ 3 ∧ s.phase c ≠ 4 then
    phases [always [.chan c fun x => { x with calPhase := 0, calForced := false }], calPart c] s
  else []

/-- Step 3 of R466: the inputs return and G_l ramps back. -/
def calBack (c : Nat) : Phase := fun s =>
  if s.released c then phases [calEnd c, calLeave c] s
  else [.chan c fun x => { x with calPhase := 3, calStart := none, gl := x.gl.to 1 32 }]

/-- The steps of a calibration at a tick (R466): programme at or above -70 dBFS abandons an automatic one. In an absence calibration
stands still (Table 15-1). -/
def calTick (c : Nat) : Phase := fun s =>
  let x := s.chan c
  if !s.units.mgmt.served then []
  else if x.calPhase = 5 ∧ x.gc.atRest then calBegin c s
  else if x.calPhase = 1 ∧ x.gl.atRest then [.chan c fun x => { x with calPhase := 2, calStart := some s.mtbNs }]
  else if x.calPhase = 2 ∧ !x.calForced ∧ !quiet8 x.s8 then phases [
    always [.bump Key.cal.CAL_ABANDONED 1, .event Ev.CALIBRATED (args16 [c, 1])], calBack c] s
  else if x.calPhase = 3 ∧ x.gl.atRest then phases [calEnd c, calLeave c] s
  else calLeave c s

/-- The references have been measured for 20 ms (R466, R468): the result in µV, ppm, µA, ppm. -/
def calibrationDone (c : Nat) (v : Int × Int × Int × Int) : Phase := fun s =>
  let x := s.chan c
  if x.calPhase ≠ 2 ∨ !s.passed x.calStart 20000000 ∨ !s.units.mgmt.served then []
  else if 100000 < |v.1| ∨ 20000 < |v.2.2.1| ∨ 10000 < |v.2.1| ∨ 10000 < |v.2.2.2| then phases [
    always [.bump Key.cal.CAL_REJECTED 1, .event Ev.CALIBRATED (args16 [c, 2]),
      .chan c fun x => { x with calDue := false, calTried := some (s.now, s.tStage (c / 4)) }],
    (fun s => if !x.calForced then [] else match s.calHandle c with
      | some h => [.handle h fun y => y.map fun y => { y with failed := true }]
      | none => []),
    calBack c] s
  else phases [
    always [.bump Key.cal.CAL_COUNT 1, .event Ev.CALIBRATED (args16 [c, 0]),
      .chan c fun x => { x with calVals := v, calAt := some s.now, calTemp := s.tStage (c / 4), calDue := false,
                                calTried := none }],
    calBack c] s

/-- CALIBRATE is refused while a masked channel is fenced or used by an analysis (R467). -/
def State.calRefused (s : State) (chans : Nat) : Bool :=
  (ones 16 chans).any fun c => s.chanFenced c || s.analysed.testBit c

/-- Channels that a CALIBRATE names and whose turn has come begin, one per group, lowest number first: a playing one waits for
its zero crossing (R467). -/
def calTurn : Phase := forAll (List.range 4) fun g => fun s =>
  if (groupChans g).any fun c => (s.chan c).calPhase != 0 then []
  else match (groupChans g).find? fun c => (s.calHandle c).isSome with
    | none => []
    | some c => phases [
        always [.chan c fun x => { x with calForced := true }],
        fun s => if s.playing c then
            phases [always [.chan c fun x => { x with calPhase := 4 }], zcStart (Zc.cal c) (.num 0)] s
          else calBegin c s] s

/-- The calibrations that begin at a block boundary (R465, R467); none in an absence (Table 15-1). -/
def calBoundary : Phase := whenP (fun s => s.units.mgmt.served) (phases [calTurn, forAll (List.range 16) calibrationStart])

/-- The zero crossing of a calibration has come, or its timeout: G_c falls (R467, Table 09-5). -/
def calZc (c : Nat) (crossing : Bool) : Phase := fun s =>
  if (s.chan c).calPhase = 4 then
    [.chan c fun x => { x with calPhase := 5, gc := x.gc.start 0 32 (crossing && s.strobed) }] else []

/-! ### Fans and FAULT_N -/

/-- One fan's speed over the 1 s window that ends now, in tach pulses (R469). -/
def fanOne (g pulses : Nat) : Phase := fun s =>
  let rpm := rounded (Key.fan.FAN_RPM g) ((60 * pulses : Nat) / (max 1 (s.nat Key.fan.FAN_PULSES) : Nat) : Rat)
  let present := (s.nat Key.fan.FAN_PRESENT).testBit g
  let slow := decide (rpm < s.num Key.fan.FAN_MIN_RPM)
  let stalled := (s.nat Key.fan.FAN_STALLED).testBit g
  let low := present && slow && decide (644245095 ≤ s.num (Key.fan.FAN_DUTY g)) && !s.units.mgmt.fanSlow.testBit g
  let start := s.mtbNs - 1000000000
  let keep : List (Nat × Nat) → Bool → List (Nat × Nat) := fun l on =>
    if !on then l.filter fun f => f.1 != g
    else if l.any fun f => f.1 == g then l else (g, start) :: l
  let lows := keep s.units.mgmt.fanLow low
  let oks := keep s.units.mgmt.fanOk (stalled && !slow)
  let held : List (Nat × Nat) → Nat → Bool := fun l d => l.any fun f => f.1 == g && decide (f.2 + d ≤ s.mtbNs)
  [.num (Key.fan.FAN_RPM g) rpm, .mgmt fun m => { m with fanLow := lows, fanOk := oks }]
    ++ (if !stalled && held lows 5000000000 then
          [.orBits Key.fan.FAN_STALLED (2 ^ g), .bump Key.fan.FAN_STALLS 1, .event Ev.FAN_STALL (le 2 g ++ le 2 rpm)]
        else [])
    ++ (if stalled && held oks 2000000000 then
          [.andNot Key.fan.FAN_STALLED (2 ^ g), .event Ev.FAN_RECOVERED (args16 [g])] else [])

def fanWindow (pulses : List Nat) : Phase := phases [
  forAll (List.range 4) fun g => fanOne g (pulses.getD g 0), always [.mgmt fun m => { m with fanSlow := 0 }]]

/-- The fenced object slots: those whose OBJ_STATE the dictionary lists as FENCED. -/
def State.fencedObjs (s : State) : List Nat := s.dict.filterMap fun p =>
  if 0x5800 ≤ p.1 / 256 ∧ p.1 / 256 < 0x5A00 ∧ p.1 % 256 = 2 ∧ p.2 = .num 4 then some (p.1 / 256 - 0x5800) else none

/-- The fenced instances of a class of Table 15-9. -/
def State.fencedOf (s : State) (cls : Nat) : List Nat :=
  match cls with
  | 1 => s.fencedObjs
  | 2 => (List.range 128).filter fun i => s.stState i == 4
  | 3 => (List.range 6).filter fun u => s.pst u == .fenced
  | 4 => (List.range 16).filter fun l => s.nat (Key.lane.LANE_STATE l) == 2
  | 5 => (List.range 16).filter s.chanFenced
  | 6 => (List.range 64).filter fun n => s.slotState n == 3
  | 7 => (List.range 4).filter fun g => s.flState g == 4
  | 8 => (List.range 4).filter fun d => (s.tbase d).fenced
  | 9 => if s.units.mgmt.lockouts.isEmpty then [] else [0xFFFF]
  | 10 => (List.range 4).filter fun g => s.hsState g == 5
  | _ => []

/-- The conditions of R470, one bit each. -/
def State.faultNow (s : State) : Nat := mask ((List.range 9).filter fun b => match b with
  | 0 => !(s.fencedOf 5).isEmpty
  | 1 => [4, 6, 7, 8].any fun c => !(s.fencedOf c).isEmpty
  | 2 => [1, 2, 3].any fun c => !(s.fencedOf c).isEmpty
  | 3 => s.flag Key.fan.FAN_STALLED
  | 4 => s.flag Key.sens.SENSOR_FAULTS
  | 5 => !(s.fencedOf 10).isEmpty
  | 6 => s.flag Key.fence.DIVERGE_OPEN
  | 7 => s.units.disp.noLantern
  | _ => s.units.mgmt.rolled)

/-- FAULT_N follows the masked conditions from SAFE onward; during an absence it keeps its level (R470). -/
def faultPin : Phase := fun s =>
  let low := s.faultNow &&& s.nat Key.fence.FAULT_MASK != 0
  if s.mode = .boot ∨ !s.units.mgmt.served ∨ s.units.pins.faultLow = low then []
  else [.pins fun p => { p with faultLow := low }]

/-! ### The log -/

/-- A record as `LOG_DATA` holds it (Table 15-6). -/
def LogRec.bytes (r : LogRec) : List Byte :=
  le 8 r.time ++ le 4 r.seq ++ le 2 r.code ++ le 2 r.source ++ (r.args ++ List.replicate 16 0).take 16

/-! ### Lifetime counters and on-resistance -/

/-- The lifetime counters are stored every 60 s (R473), once the dawn sequence has restored them. -/
def lifetimeStore : Phase := fun s =>
  if s.mode = .boot ∨ s.mtbNs < s.units.mgmt.lifeAt + 60000000000 then [] else lifetimeSave s

/-- Energy delivered by a channel over a block, from its mean power in W (Table 15-8). -/
def energyBlock (c : Nat) : Phase := fun s =>
  let w := (s.chan c).power
  if w = 0 then []
  else
    let e := (s.chan c).energy + w * s.B / (s.fs * 3600 : Nat)
    let n := max 0 e.floor
    [.chan c fun x => { x with energy := e - n }] ++ if n = 0 then [] else [.bump (Key.life.LT_ENERGY_CH c) n]

/-- The rise of an on-resistance against final test, in 0.1 % (R474). -/
def ronRise (final now : Int) : Int := if final = 0 then 0 else (now - final) * 1000 / final

/-- The on-resistance test of a channel's first precharge after dawn, legs A and B in 0.01 mΩ at 25 degC (R474). -/
def ronMeasure (c : Nat) (a b : Int) : Phase := fun s =>
  let x := s.chan c
  if x.ronDone then []
  else
    let ra := ronRise (Config.ronFinal c 0).toNat a
    let rb := ronRise (Config.ronFinal c 1).toNat b
    let leg := if rb ≤ ra then 0 else 1
    let rise := max ra rb
    [.chan c fun x => { x with ronDone := true, ron := (a, b) },
     .num Key.life.RON_DRIFT_MAX (max (s.num Key.life.RON_DRIFT_MAX) rise)]
    ++ if s.units.mgmt.ronLimit < rise ∧ !s.units.mgmt.ronTold then
        [.mgmt fun m => { m with ronTold := true }, .event Ev.RON_DRIFT (args16 [c, leg] ++ le 4 rise)] else []

/-! ### Storage -/

/-- A P blob's content is written to the coefficient store: a sector of 64 kB is erased for each 64 kB written (R478,
R479, log 63). -/
def norWrite (bytes : Nat) : Phase := fun s =>
  let n := s.units.mgmt.norBytes + bytes
  let erases := s.nat Key.stor.NOR_ERASES + n / 65536
  let wear := erases * 1000 / 9600000
  [.mgmt fun m => { m with norBytes := n % 65536 }]
    ++ (if n < 65536 then []
        else [.nat Key.stor.NOR_ERASES erases, .save Key.stor.NOR_ERASES (some (.num erases)),
              .nat Key.stor.NOR_WEAR wear, .save Key.stor.NOR_WEAR (some (.num wear))])
    ++ if s.nat Key.stor.WEAR_WARN ≤ wear ∧ !s.units.mgmt.wearTold then
        [.mgmt fun m => { m with wearTold := true }, .event Ev.WEAR_WARNING (le 2 wear)] else []

/-! ### Updates -/

def State.updState (s : State) : Nat := s.nat Key.upd.UPDATE_STATE

/-- The bank that does not run (R481). -/
def State.otherBank (s : State) : Nat := 1 - s.nat Key.upd.ACTIVE_BANK

def State.bankImage (s : State) (b : Nat) : Image := if b = 0 then s.units.banks.1 else s.units.banks.2

/-- A bank takes a content. -/
def setBank (b : Nat) (i : Image) : List Effect :=
  [.unit fun u => { u with banks := if b = 0 then (i, u.banks.2) else (u.banks.1, i) },
   .nat (if b = 0 then Key.upd.BANK_A_VER else Key.upd.BANK_B_VER) i.version]

/-- `UPDATE_STATE` changes: the event carries the new state and the bank concerned (R485). -/
def setUpd (v bank : Nat) : Phase := fun s =>
  if s.updState = v then []
  else [.nat Key.upd.UPDATE_STATE v, .num Key.upd.UPDATE_PROGRESS 0, .event Ev.UPDATE_STATE (args16 [v, bank])]

/-- Whether UPDATE_LOAD is refused with CONFLICT (R481). -/
def State.loadRefused (s : State) : Bool := [1, 3, 4, 5].contains s.updState

/-- UPDATE_LOAD begins: the bank that is not running is erased (R481). -/
def updateLoad (h len : Nat) : Phase := fun s => phases [
  always (.mgmt (fun m => { m with
    loadHandle := some h, loadLen := len, loadErased := false, loadGot := 0, loadAt := s.mtbNs, rolled := false,
    updBy := (s.handle h).elim 0 (·.session) })
    :: setBank s.otherBank {}),
  setUpd 1 s.otherBank] s

def updateEraseDone : Phase := fun s =>
  if s.updState = 1 ∧ !s.units.mgmt.loadErased then [.mgmt fun m => { m with loadErased := true, loadAt := s.mtbNs }] else []

/-- A phase that the session of the update under way has caused (R471). -/
def byUpdater (p : Phase) : Phase := fun s => causedBy s.units.mgmt.updBy p s

/-- UPDATE_LOAD ends in a state with a status. -/
def loadEnd (v status : Nat) : Phase := fun s => phases [
  always [.mgmt fun m => { m with loadHandle := none, loadGot := 0, loadErased := false }],
  if status = St.timeout then setUpd v s.otherBank else byUpdater (setUpd v s.otherBank),
  match s.units.mgmt.loadHandle with
  | some h => handleEnd h status 0
  | none => always []] s

/-- The loaded bank has been verified (R480, R481). -/
def updateVerify (x : ImageInfo) : Phase := fun s =>
  let m := s.units.mgmt
  if s.updState ≠ 1 ∨ !m.loadErased ∨ m.loadGot = 0 ∨ m.loadGot ≠ m.loadLen then []
  else if x.ok ∧ s.nat Key.upd.SEC_VERSION ≤ x.security then phases [
    always (setBank s.otherBank {
      version := x.version, security := x.security, lane := x.lane, loop := x.loop, trim := x.trim }),
    loadEnd 2 St.ok] s
  else loadEnd 6 St.failed s

/-- No segment for 60 s (R481). -/
def updateLoadTimeout : Phase := fun s =>
  let m := s.units.mgmt
  if s.updState = 1 ∧ m.loadErased ∧ m.loadGot ≠ m.loadLen ∧ s.expired m.loadAt 60000000000 then loadEnd 6 St.timeout s
  else []

/-- UPDATE_ACTIVATE waits for its boundary (R482). -/
def updateActivate (h boundary : Nat) (late : Bool) : Phase := fun s => phases [
  setUpd 3 s.otherBank,
  always [.nat Key.upd.UPDATE_AT boundary, .mgmt fun m => { m with
    actHandle := some h, actLate := late, updBy := (s.handle h).elim 0 (·.session) }]] s

/-- The activation boundary (R482). -/
def updateBoundary : Phase := fun s =>
  if s.updState ≠ 3 ∨ !s.atBoundary ∨ s.blockTime < s.nat Key.upd.UPDATE_AT ∨ !s.units.mgmt.served then []
  else phases [
    byUpdater (setUpd 4 s.otherBank),
    match s.units.mgmt.actHandle with
    | some h => handleEnd h (if s.units.mgmt.actLate then St.late else St.ok) 0
    | none => always [],
    always [.mgmt fun m => { m with actHandle := none, boundAt := s.mtbNs }]] s

/-- The lowest microcode version on a healthy lane (Table 14-9). -/
def State.laneVersion (s : State) : Nat :=
  match s.healthyLanes.map fun l => s.nat (Key.lane.MICROCODE_VER l) with
  | [] => s.nat Key.fw.LANE_UCODE_VER
  | v :: l => l.foldl min v

/-- The trims of an image: those of the dies that run another set wait (R484). -/
def trimsTake (v : Nat) : Phase := fun s =>
  let differs := fun (g : Nat) => (s.group g).trimVer.getD (s.nat Key.fw.TRIM_VER) != v
  let dies := (List.range 4).filter differs
  .nat Key.upd.TRIM_PENDING (mask (if v = s.nat Key.fw.TRIM_VER then dies else dies ++ [4])) ::
    (List.range 4).map fun g => .group g fun x => { x with trim := if differs g then some v else none }

/-- The parts of an image come into use: loop-engine microcode between two ticks, lane microcode by a rotation, trims
when their dies allow; a part of the version in use is skipped (R482-R484). -/
def imageTake (i : Image) : Phase := fun s =>
  phases [
    always [.nat Key.fw.MGMT_VER i.version, .nat Key.fw.LOOP_UCODE_VER i.loop],
    if s.healthyLanes.all fun l => s.nat (Key.lane.MICROCODE_VER l) == i.lane then always []
    else rotationBegin i.lane s.laneVersion,
    trimsTake i.trim] s

/-- 20 ms after the boundary the management processor restarts from the new bank (R482). -/
def updateRestart : Phase := fun s =>
  if s.updState ≠ 4 ∨ s.mtbNs < s.units.mgmt.boundAt + 20000000 ∨ !s.units.mgmt.served then []
  else phases [
    absenceBegin 1,
    always [.nat Key.upd.ACTIVE_BANK s.otherBank, .mgmt fun m => { m with
      rotated := none, rollDue := false,
      oldVers := (s.nat Key.fw.MGMT_VER, s.nat Key.fw.LOOP_UCODE_VER, s.laneVersion) }]] s

/-- A pending power-die trim applies at a block boundary (R484). -/
def trimApply (g : Nat) : Phase := fun s =>
  match (s.group g).trim with
  | none => []
  | some v =>
    if s.atBoundary ∧ ((groupChans g).all s.released ∨ (s.group g).notReady) then
      [.group g fun x => { x with trim := none, trimVer := some v }, .andNot Key.upd.TRIM_PENDING (2 ^ g)]
    else []

/-- Probation ends after 600 s with no roll-back (R485). -/
def probationEnd : Phase := fun s =>
  if s.updState ≠ 5 ∨ s.units.mgmt.rollDue ∨ !s.units.mgmt.served ∨ s.mtbNs < s.units.mgmt.probAt + 600000000000 then []
  else
    let b := s.nat Key.upd.ACTIVE_BANK
    let sec := max (s.nat Key.upd.SEC_VERSION) (s.bankImage b).security
    phases [
      always [.nat Key.upd.RECORDED_BANK b, .save Key.upd.RECORDED_BANK (some (.num b)),
        .nat Key.upd.SEC_VERSION sec, .save Key.upd.SEC_VERSION (some (.num sec))],
      setUpd 0 b] s

/-- The update is rolled back: the management processor restarts from the old bank with cause 2 (R485). -/
def updateRollback : Phase := fun s =>
  if s.updState ≠ 5 ∨ !s.units.mgmt.rollDue ∨ !s.units.mgmt.served then []
  else phases [
    absenceBegin 2,
    always [.nat Key.upd.ACTIVE_BANK s.otherBank, .mgmt fun m => { m with rollDue := false, rotated := none }]] s

/-- The firmware of the new bank serves (R482), or that of the old bank again (R485): the other parts follow. -/
def updateReturn (cause : Nat) : Phase := fun s =>
  let b := s.nat Key.upd.ACTIVE_BANK
  if cause = 1 ∧ s.updState = 4 then phases [
    always [.mgmt fun m => { m with probAt := s.mtbNs }], byUpdater (setUpd 5 b), imageTake (s.bankImage b)] s
  else if cause = 2 ∧ s.updState = 5 then phases [
    imageTake { s.bankImage b with
      version := s.units.mgmt.oldVers.1, loop := s.units.mgmt.oldVers.2.1, lane := s.units.mgmt.oldVers.2.2 },
    always [.mgmt fun m => { m with rolled := true }], setUpd 7 b] s
  else []

/-- The hardware watchdog expires (R458); during a probation the restart is from the old bank (R485). -/
def watchdogExpiry : Phase := fun s =>
  if !s.units.mgmt.served then []
  else if s.updState = 5 then phases [always [.mgmt fun m => { m with rollDue := true }], updateRollback] s
  else absenceBegin 0 s

/-- The management processor serves again (R457-R459, R462): what was latched is raised, what fell due within the absence
is handled as R69 handles it, and no value is written; what differs begins to differ now. A guard that has acted goes on (R460). -/
def mgmtReturn : Phase := fun s =>
  let m := s.units.mgmt
  match m.absentAt with
  | none => []
  | some t0 =>
    let dt := s.mtbNs - t0
    phases [
      always [.mgmt fun m => { m with absentAt := none, latched := [], overflow := 0, served := true, diverge := [],
                                      returnedAt := some s.mtbNs, absentMs := dt / 1000000 }],
      always (m.latched.flatMap deliverLatched),
      if m.overflow = 0 then always [] else always [.event Ev.ABSENCE_OVERFLOW (le 4 m.overflow)],
      always [.event Ev.MGMT_RESTARTED (le 2 m.cause ++ le 4 (dt / 1000000 : Nat))],
      updateReturn m.cause,
      absencePassed (s.now - dt) s.now] s

/-- A step of the microcode rotation (R205): a rotation that ended FAILED in probation rolls the update back (R485). -/
def microcodeStep (ok : Bool) : Phase := phases [
  rotationStep ok,
  fun s => match s.units.mgmt.rotated with
    | none => []
    | some st =>
      [.mgmt fun m => { m with rotated := none, rollDue := m.rollDue || (s.updState == 5 && st != St.ok) }]]

/-- A write of 1 to `UPDATE_ABORT` (R485). -/
def updateAbort : Phase := fun s =>
  if s.updState = 5 then [.mgmt fun m => { m with rollDue := true }]
  else if s.updState = 2 ∨ s.updState = 3 then phases [
    always (setBank s.otherBank {}), setUpd 0 s.otherBank,
    match s.units.mgmt.actHandle with
    | some h => handleEnd h St.cancelled 0
    | none => always [],
    always [.num Key.upd.UPDATE_AT 0, .mgmt fun m => { m with actHandle := none }]] s
  else []

/-- SEC_VERSION as the ferroelectric store holds it, where no dawn sequence has restored it. -/
def State.secStored (s : State) : Nat := ((Tbl.get (fun _ => none) s.store Key.upd.SEC_VERSION).map fun v => v.int.toNat).getD 0

/-- The recovery loader has received an image and verified it in bank A: on success the dawn sequence starts from bank A
(R486). -/
def recoveryImage (x : ImageInfo) : Phase := fun s =>
  if s.mode ≠ .boot ∨ !s.units.pins.recovery then []
  else if x.ok ∧ s.secStored ≤ x.security then
    setBank 0 { version := x.version, security := x.security, lane := x.lane, loop := x.loop, trim := x.trim }
      ++ [.pins fun p => { p with recovery := false, fromA := true, dawnAt := some s.mtbNs, dawnWait := !p.xref }]
  else setBank 0 {}

/-! ### The controller's clear -/

/-- The status with which an instance of a class refuses its clear (R298, R477, R476). -/
def State.clearStatus (s : State) (cls i : Nat) : Nat :=
  match cls with
  | 5 => if s.clearRefused i then St.conflict else St.ok
  | _ => St.ok

/-- The clear procedure of a class for one instance (Table 15-9); `how` is 0 by the unit's own entry, 1 by the clear of
this chapter. -/
def clearOne (how cls i : Nat) : Phase :=
  match cls with
  | 1 => objClear i 1
  | 2 => streamUnfence i 1
  | 3 => always [.port i fun x => { x with clearDue := some how }]
  | 4 => laneClear i
  | 5 => channelClear i
  | 6 => slotClear i how
  | 7 => flUnfence i how
  | 8 => dtbUnfence i
  | 9 => always [.mgmt fun m => { m with lockouts := [], fails := [] }]
  | 10 => hsClear (2 ^ i)
  | _ => always []

/-- Instances of a class (Table 15-9). -/
def classCount (cls : Nat) : Nat := [0, 512, 128, 6, 16, 16, 64, 4, 4, 0, 4].getD cls 0

/-- Whether `FENCE_CLEAR_CMD` is out of range: bits [23:16], the class, or the instance (R476, R477). -/
def clearWordBad (w : Nat) : Bool :=
  let cls := w / 2 ^ 24
  let i := w % 65536
  w / 65536 % 256 != 0 || cls == 0 || decide (10 < cls) || (i != 0xFFFF && decide (classCount cls ≤ i))

/-- The fenced instances that a clear names. -/
def State.clearNames (s : State) (cls i : Nat) : List Nat :=
  if i = 0xFFFF then s.fencedOf cls else (s.fencedOf cls).filter fun j => j == i

/-- The status of a clear: that of the first refusal (R476). -/
def State.clearAnswer (s : State) (cls i : Nat) : Nat :=
  ((s.clearNames cls i).map (s.clearStatus cls)).find? (fun st => st != St.ok) |>.getD St.ok

/-- A clear by class and instance: what is fenced and may be cleared is cleared, and each clear is reported (R476). -/
def fenceClear (how cls i : Nat) : Phase := fun s =>
  let l := s.clearNames cls i
  if l.isEmpty then []
  else phases [
    forAll (l.filter fun j => s.clearStatus cls j == St.ok) (clearOne how cls),
    always [.bump Key.fence.CLEARS 1, .event Ev.FENCE_CLEARED (args16 [cls, i, s.clearAnswer cls i])]] s

end Sys2Proof.Machine
end

