-- ==== Sys2Proof/Machine/Writes.lean ====
section
/-!
DEFINITION. Machine/Writes.lean: writes of entries: the tests of R397 in their order, with the tests of the owning
chapters; the instants at which a write takes effect (R395) and what it does there; staged transactions, their tests and
their application (R396, R416, R417); persistence (R399).
-/

namespace Sys2Proof.Machine

/-! ### Who may write what (R401) -/

/-- Who writes: the session (0 = none) and its role. -/
structure Writer where
  session : Nat
  role : Nat
  deriving DecidableEq, Repr

/-- The operator areas (R401). -/
def operatorArea (index : Nat) : Bool :=
  index == 0x1001 || decide (0x3100 ≤ index ∧ index ≤ 0x3147) || decide (0x5800 ≤ index ∧ index ≤ 0x59FF)
    || decide (0x6000 ≤ index ∧ index ≤ 0x60FF) || decide (0x6400 ≤ index ∧ index ≤ 0x64FF)
    || decide (0x9010 ≤ index ∧ index ≤ 0x913F)

/-- Whether a role may write an entry (R401, Table 13-4). The roles that R267 and R307 demand are those that may write
outside the operator areas. -/
def roleMayWrite (role index : Nat) (acc : Acc) : Bool :=
  match role with
  | 0 => false
  | 1 => operatorArea index && (acc != .rws && acc != .rwo)
  | 2 => true
  | _ => index != 0x1110

/-- The session that holds an area (R421). -/
def State.areaHolder (s : State) (a : Nat) : Option Nat :=
  s.liveSessions.find? fun n => match s.session n with
    | some x => x.claims.contains a
    | none => false

/-- Whether another session holds the area of an entry (R421). -/
def State.areaOwned (s : State) (session k : Nat) : Bool :=
  match s.areaHolder (k / 65536) with
  | some h => h != session
  | none => false

/-! ### Type and range -/

/-- Whether a value has the shape of a type (Table 13-2). -/
def Ty.shape (t : Ty) (v : Value) : Bool :=
  match t, v with
  | .coef, .coef _ _ => true
  | .pos, .pos _ _ _ => true
  | .str, .bytes _ => true
  | .blob, .bytes _ => true
  | .coef, _ => false
  | .pos, _ => false
  | .str, _ => false
  | .blob, _ => false
  | _, .num _ => true
  | _, _ => false

/-- Whether the type code that came with a value, or its shape where none came, is the entry's (R393). -/
def typeMatches (given : Option Ty) (t : Ty) (v : Value) : Bool :=
  match given with
  | some g => g == t
  | none => t.shape v

/-- Whether a number lies in one of the ranges; no range is the full range of the type. -/
def inRanges (l : List (Int × Int)) (n : Int) : Bool := l.isEmpty || l.any fun r => decide (r.1 ≤ n ∧ n ≤ r.2)

/-- Whether a value lies within an entry's limits (R6-R8, R394 and the range of its row): the number, the shift of a
COEF, each axis of a POS, the bytes of a STRING or BLOB. -/
def Row.inRange (r : Row) (v : Value) : Bool :=
  r.ty.ok v && match v with
    | .num n => inRanges r.rng n
    | .coef _ s => inRanges r.rng s
    | .pos x y z => inRanges r.rng x && inRanges r.rng y && inRanges r.rng z
    | .bytes b => inRanges r.rng b.length && (r.ty != .str || utf8From 0 0x80 0xBF b)

/-! ### The order of the tests -/

/-- The statuses of R397 in the order of its tests; R75 and R416 follow. -/
def testOrder : List Nat :=
  [St.noEntry, St.noSubindex, St.accessRole, St.readOnly, St.typeMismatch, St.areaOwned, St.range, St.mode,
   St.loopClosed, St.conflict, St.fenced, St.admission, St.timePassed]

/-- The status of the first test that fails. -/
def firstFault (l : List Nat) : Nat := (testOrder.find? fun st => l.contains st).getD St.ok

/-- A status where a condition fails. -/
def bad (b : Bool) (st : Nat) : List Nat := if b then [st] else []

/-- A written STATE_REQ of 1 of the slot that an RWO entry belongs to still waits for its boundary (R234). -/
def State.closing (s : State) (k : Nat) : Bool :=
  let i := k / 256
  decide (0x7100 ≤ i ∧ i < 0x7140) && (Dict.row k).map (·.acc) == some .rwo
    && s.units.waiting.any fun w => w.key == Key.ls.STATE_REQ (i - 0x7100) && w.value == .num 1

/-- The loop slot, learner or function that an RWO entry belongs to is open, disabled or idle (R234, R242, Table 02-4). -/
def State.ownerOpen (s : State) (k : Nat) : Bool :=
  let i := k / 256
  if 0x7100 ≤ i ∧ i < 0x7140 then
    s.slotState (i - 0x7100) == 0 || s.slotState (i - 0x7100) == 3
  else if 0x7200 ≤ i ∧ i < 0x7204 then s.flState (i - 0x7200) == 0
  else if k = Key.mtb.INC then s.num Key.ref.REF_SOURCE == 0
  else true

/-- Whether a row is read-only for writes: CONST, RO, or SLOT_EN and OWNER_CH of LS0-LS55 (Table 07-8). -/
def Row.readOnly (r : Row) (k : Nat) : Bool :=
  r.acc == .const || r.acc == .ro
    || decide (0x7100 ≤ k / 256 ∧ k / 256 < 0x7138 ∧ (k % 256 = 1 ∨ k % 256 = 31))

/-- The tests from NO_ENTRY to RANGE (R397, R415). -/
def State.headFaults (s : State) (w : Writer) (k : Nat) (given : Option Ty) (v : Value) : List Nat :=
  match Dict.row k with
  | none => [if Dict.hasIndex (k / 256) then St.noSubindex else St.noEntry]
  | some r =>
    bad (!roleMayWrite w.role (k / 256) r.acc) St.accessRole ++ bad (r.readOnly k) St.readOnly
      ++ bad (!typeMatches given r.ty v) St.typeMismatch ++ bad (s.areaOwned w.session k) St.areaOwned
      ++ bad (!r.inRange v) St.range

/-! ### The tests of the owning chapters -/

/-- Whether the encoding of a type fits the 8 bytes of ACT_VALUE (R76). -/
def Ty.fitsAction (t : Ty) : Bool := t != .pos && t != .str && t != .blob

/-- What the arming of an action is refused for, with the fields of `s`, the arming role, and the instant at which it
takes effect (R74-R76, Table 02-14). -/
def State.armFaults (s : State) (a role effect : Nat) : List Nat :=
  let t := s.nat (Key.act.ACT_TIME a)
  let target := s.nat (Key.act.ACT_TARGET a)
  let value := s.nat (Key.act.ACT_VALUE a)
  bad (t != 0 && decide (t < effect) && s.flag (Key.act.ACT_STRICT a)) St.timePassed ++
  match s.nat (Key.act.ACT_KIND a) with
  | 0 => [St.range]
  | 1 =>
    let k := target * 256 + s.nat (Key.act.ACT_SUB a)
    match Dict.row k with
    | none => [if Dict.hasIndex target then St.noSubindex else St.noEntry]
    | some r => bad (!roleMayWrite role target r.acc) St.accessRole ++ bad (r.readOnly k) St.readOnly
        ++ bad (!r.ty.fitsAction) St.typeMismatch
  | 2 => []
  | 3 => bad (decide (target < 1 ∨ 4 < target)) St.range
  | 4 => bad (decide (8 ≤ target)) St.range
  | _ => bad (decide (8 ≤ target ∨ 2 ≤ value)) St.range

/-- The tests of Table 10-1, R311 and R312 for a generator's entry; `sub` 1 is G_STATE, 5 is G_LEVEL, 12 is G_ARB. -/
def State.genFaults (old new : State) (g sub : Nat) (n : Int) : List Nat :=
  bad (old.genState g == 3 || (old.genState g == 2 && sub != 1 && sub != 5)) St.conflict
    ++ (if sub = 1 ∧ (n = 1 ∨ n = 2) then (new.genRefused g).toList else [])
    ++ bad (sub == 12 && decide (1048576 < ((List.range 4).map fun h => (new.blob (Key.gen.G_ARB h)).length).foldl (· + ·) 0))
        St.range

/-- The tests of R265 and R266 for STATE_REQ, MAN and MAN_HOLD of a slot of a channel. -/
def State.coneFaults (s : State) (slot sub : Nat) (n : Int) : List Nat :=
  let c := slot % 16
  let ceiling := decide (16 ≤ slot ∧ slot < 48)
  let live := s.modelValid c && !s.released c
  let closed := fun k => s.slotState k == 1
  if 48 ≤ slot then []
  else if sub = 2 ∧ n = 1 then
    bad (!s.modelValid c || (decide (16 ≤ slot ∧ slot < 32) && s.num (Key.exc.X_LIMIT c) == 0)
      || (decide (slot < 16) && !(closed (16 + c) && closed (32 + c)))) St.conflict
  else if sub = 2 then
    bad (ceiling && (closed c || (live && !s.flag (Key.ls.MAN_HOLD slot)))) St.conflict
  else if sub = 24 then bad (ceiling && live && decide (s.num (Key.ls.U_NOW slot) < n)) St.conflict
  else if sub = 26 then bad (ceiling && live && n == 0) St.conflict
  else []

/-- The tests of the loop engine for an entry of a slot (R208, R211, R215, R218, R223, R230, R235, R265, R266). -/
def State.slotFaults (old new : State) (touched : Nat → Bool) (slot sub : Nat) (n : Int) (rws closed : Bool) : List Nat :=
  let pair := fun (lo hi : Nat → Nat) => bad (decide (new.num (hi slot) < new.num (lo slot))) St.range
  (if sub = 18 ∨ sub = 19 then pair Key.ls.EMIN Key.ls.EMAX else [])
    ++ (if sub = 20 ∨ sub = 21 then pair Key.ls.IMIN Key.ls.IMAX else [])
    ++ (if sub = 22 ∨ sub = 23 then pair Key.ls.UMIN Key.ls.UMAX else [])
    ++ bad (sub == 29 && n == 2 && new.num (Key.ls.OWNER_CH slot) == 0xFF) St.range
    ++ bad (sub == 2 && old.slotState slot == 3) St.fenced
    ++ old.coneFaults slot sub n
    ++ (if rws then new.slotsFault.toList else [])
    ++ bad (rws && closed && touched ((0x7100 + slot) * 256 + sub) && old.slotState slot != 0 && old.slotState slot != 3)
        St.loopClosed

/-- R83: an enabled subscription that stays enabled changes in no other field. A commit that disables it may change them
(log 160). -/
def State.subClash (old new : State) (touched : Nat → Bool) (i : Nat) : Bool :=
  old.flag (Key.sub.ENABLE i) && new.flag (Key.sub.ENABLE i)
    && (List.range 14).any fun j => touched (Key.sub.ENABLE i + j + 1)

/-- Table 03-1: OBJ_COUNT is at most 256 at 96 kHz, of a disabled subscription too (log 139). -/
def State.objCountFault (s : State) : Bool :=
  s.fs == 96000 && (List.range 128).any fun i => decide (256 < s.num (Key.sub.OBJ_COUNT i))

/-- R23: the alignment delay of a channel and the DELAY_TRIM of its loudspeaker stay within 50 ms. -/
def State.delayFault (s : State) (c : Nat) : Bool :=
  decide (50000000 < s.nat (Key.dly.ALIGN_DELAY c) + s.delayTrim c)

/-- What a change of fs touches beyond its own mode rule (R98, R164, R334, R373). -/
def State.rateFaults (new : State) (touched : Nat → Bool) : List Nat :=
  bad ((List.range 16).any new.firFault) St.range ++ bad new.objCountFault St.range ++ (new.subsFault.map (·.1)).toList
    ++ (List.range 4).flatMap (fun p => (new.portCommitFault p touched).toList)
    ++ (List.range 8).flatMap fun k => (new.monFault k).toList

/-- Whether the mode allows what only SAFE and STANDBY allow (R57, R94, R176, R272). -/
def State.quiet (s : State) : Bool := s.mode == .safe || s.mode == .standby

/-- The tests of the owning chapter for one entry: `old` is the configuration in force, `new` the one that would result,
`effect` the instant at which it would take effect; `closed` says whether LOOP_CLOSED is tested now (R416). -/
def State.ownFaults (old new : State) (touched : Nat → Bool) (w : Writer) (effect k : Nat) (v : Value) (closed : Bool) :
    List Nat :=
  let i := k / 256
  let sub := k % 256
  let n := v.int
  let c := i % 16
  let acc := (Dict.row k).map (·.acc)
  bad (closed && acc == some .rwo && !old.ownerOpen k) St.loopClosed ++
  match k / 65536 with
  | 0x10 => bad (k == Key.mode.MODE_REQUEST && (n == 2 || n == 3) && old.layoutForbids) St.mode
  | 0x12 =>
    bad (k == Key.fence.FENCE_CLEAR_CMD && clearWordBad n.toNat) St.range
      ++ bad (k == Key.upd.UPDATE_ABORT && n == 1 && !([2, 3, 5].contains old.updState)) St.conflict
  | 0x20 =>
    (if 0x2060 ≤ i ∧ i < 0x2068 then (new.monFault (i - 0x2060)).toList else [])
      ++ bad (i == 0x2080 && decide (new.num Key.can.CAN_DATA_RATE < new.num Key.can.CAN_NOM_RATE)) St.range
      ++ (if k = Key.eng.LINK_OFFSET then bad (!old.quiet) St.mode ++ (new.subsFault.map (·.1)).toList else [])
  | 0x21 =>
    if i < 0x2180 then bad (old.subClash new touched (i - 0x2100)) St.conflict ++ bad new.objCountFault St.range ++ (new.subsFault.map (·.1)).toList else []
  | 0x30 =>
    (if k = Key.mtb.FS_SELECT then bad (!old.quiet) St.mode ++ new.rateFaults touched else [])
      ++ bad (k == Key.ref.REF_DOMAIN && n != old.num Key.ref.REF_DOMAIN && old.nat (Key.dtb.DOMAIN_LOCK n.toNat) != 2
              && (old.mode == .run || old.mode == .holdover)) St.conflict
      ++ bad (k == Key.ref.TOD_SET && old.num Key.ref.REF_SOURCE == 0 && !old.allReleased) St.mode
      ++ bad (decide (0x3001 ≤ i ∧ i < 0x3005 ∧ (sub = 1 ∨ sub = 4)) && new.domainClash (i - 0x3001)) St.conflict
  | 0x31 =>
    if 0x3140 ≤ i then []
    else
      let a := i - 0x3100
      if sub = 7 then (if n = 1 then new.armFaults a w.role effect else [])
      else bad (old.num (Key.act.ACT_STATE a) == 1) St.conflict
  | 0x40 =>
    (if i < 0x4004 ∧ (sub = 15 ∨ sub = 16) then bad (old.pauseRefused (i - 0x4000)) St.conflict else [])
      ++ (if acc = some .rws then (new.portCommitFault (i % 16) touched).toList else [])
  | 0x50 => if isLayoutKey k ∧ acc = some .rws then (new.layoutFault.map fun f => layoutStatus f.1).toList else []
  | 0x61 => bad (new.biquadFault c) St.range
  | 0x62 => bad (new.firFault c) St.range ++ bad (old.firClash c touched) St.conflict
  | 0x63 => bad (k == Key.dly.ALIGN_DELAY c && new.delayFault c) St.range
  | 0x64 => bad (k == Key.gn.V_FS c && !old.quiet) St.mode
  | 0x71 => old.slotFaults new touched (i - 0x7100) sub n (acc == some .rws) closed
  | 0x72 =>
    bad (sub == 1 && n == 1 && new.flRefused (i - 0x7200)) St.range
      ++ bad (k == Key.fl.FL_Q (i - 0x7200) && decide (1 < v.rat)) St.range
  | 0x81 =>
    if acc = some .rws then
      bad (new.modelFault c) St.range
        ++ bad (closed && touched k && (modelEntries c).contains k && old.slotState c == 1) St.loopClosed
    else []
  | 0x88 => bad (k == Key.pg.FSW_SEL (i - 0x8800) && !old.quiet) St.mode
  | 0x90 =>
    if 0x9010 ≤ i ∧ i < 0x9014 then old.genFaults new (i - 0x9010) sub n
    else if 0x9020 ≤ i ∧ i < 0x9028 ∧ sub = 1 ∧ n = 1 then (new.capRefused (i - 0x9020)).toList
    else []
  | 0x91 => bad (sub == 12 && n == 1 && old.num (Key.res.RES_STATE (i - 0x9100)) == 1) St.conflict
  | _ => []

/-! ### Admission (R186-R190) -/

/-- The entries that enter the cost of a configuration (R190). -/
def isCostKey (k : Nat) : Bool :=
  let a := k / 65536
  a == 0x21 || a == 0x50 || a == 0x61 || a == 0x62 || k == Key.mtb.FS_SELECT

/-- Whether a configuration is admitted on the lanes in service (R189, R190). -/
def State.admits (s : State) : Bool := admitted (s.placement s.inService)

/-! ### Transactions -/

/-- The entries in which the tests of a whole configuration find their faults, with the status of each, for the area of
the entry `k`, in the order in which they are looked for (Table 01-4, R208, R211, R215, R218, R161, R164, R245, R85,
R98). -/
def State.faultPlaces (new : State) (k : Nat) : List (Nat × Nat) :=
  let i := k / 256
  let c := i % 16
  let at_ := fun (b : Bool) (st key : Nat) => if b then [(st, key)] else []
  match k / 65536 with
  | 0x50 => match new.layoutFault with
    | some f => [(layoutStatus f.1, layoutFaultEntry f.1 f.2)]
    | none => []
  | 0x71 =>
    (List.range 64).flatMap (fun n =>
      at_ (decide (2 ^ new.nat (Key.ls.RATE_K n) ≤ new.nat (Key.ls.PHASE n))) St.range (Key.ls.PHASE n)
        ++ [Key.ls.SP_SRC n, Key.ls.SP_GAIN_SRC n, Key.ls.PV_SRC n, Key.ls.FF_SRC n].flatMap fun j =>
            at_ (!sourceOk (new.nat j)) St.range j)
    ++ (List.range 64).flatMap (fun n => [Key.ls.SP_SRC n, Key.ls.SP_GAIN_SRC n].flatMap fun j =>
      let w := new.nat j
      at_ (bits w 14 8 == 0x0D && decide (new.nat (Key.ls.RATE_K (bits w 7 0)) ≤ new.nat (Key.ls.RATE_K n))) St.conflict j)
  | 0x61 => (new.sections c).flatMap fun n =>
      let a2 := (new.get (Key.bq.BQ_A2 c n)).rat
      at_ (decide (1 ≤ |a2|)) St.range (Key.bq.BQ_A2 c n)
        ++ at_ (decide (1 + a2 ≤ |(new.get (Key.bq.BQ_A1 c n)).rat|)) St.range (Key.bq.BQ_A1 c n)
  | 0x62 => [0, 1].flatMap fun b =>
      let (taps, _, coef) := new.bank c b
      at_ (coef.length != 4 * taps) St.range (Key.fir.FIR_COEF_A c + b) ++ at_ true St.range (Key.fir.FIR_TAPS_A c + b)
  | 0x81 =>
    at_ (new.qFault c) St.range (Key.drv.QTS c)
      ++ [(St.range, if new.num (Key.drv.BL_MMS_SEL c) = 0 then Key.drv.BL c else Key.drv.MMS c)]
  | 0x21 => match new.subsFault with
    | some f => [f]
    | none => []
  | _ => []

/-- The test of a transaction in full (R416, R417): the first failing item with its status, if any, and the entry that
failed. LOOP_CLOSED is tested at the boundary alone. Every commit is costed (R190); a refusal by admission names the first item
that enters the cost, else the first item (log 136). -/
def State.commitFault (s : State) (w : Writer) (items : List (Nat × Value)) (effect : Nat) (atBoundary : Bool) :
    Option (Nat × Nat) :=
  let new := s.withItems items
  let touched := fun k => items.any fun p => p.1 == k && s.get k != new.get k
  let head := fun (p : Nat × Value) => firstFault (s.headFaults w p.1 none p.2)
  let one := fun (p : Nat × Value) =>
    firstFault (s.headFaults w p.1 none p.2 ++ s.ownFaults new touched w effect p.1 p.2 atBoundary)
  match items.find? fun p => one p != St.ok with
  | some p =>
    let st := one p
    let place := if head p = St.ok then (new.faultPlaces p.1).find? fun f => f.1 == st else none
    some (st, (place.map (·.2)).getD p.1)
  | none =>
    if new.admits then none
    else some (St.admission, (((items.find? fun p => isCostKey p.1).or items.head?).map (·.1)).getD 0)

/-- What a refused transaction leaves in the status entries: a validation of a layout that failed, or passed at its
boundary (R31, R516); a refusal for want of lane capacity (R189). -/
def commitRefused (session : Nat) (items : List (Nat × Value)) (st : Nat) (atBoundary : Bool) : Phase := causedBy session fun s =>
  let new := s.withItems items
  (if items.any fun p => isLayoutKey p.1 then match new.layoutFault with
      | some (code, place) => layoutRefused code place s
      | none => if atBoundary then layoutRefused 0 0 s else []
    else [])
  ++ if st = St.admission ∧ !new.admits then
      admissionRefused session (new.placement new.inService) s
    else []

/-! ### What a write does when it takes effect -/

/-- The value of a P entry goes to the ferroelectric store, a blob to the coefficient store (R399, R478, R479). -/
def persist (k : Nat) : Phase := fun s =>
  match Dict.row k with
  | none => []
  | some r =>
    if !r.p then []
    else .save k (some (s.get k)) :: (if r.ty = .blob then norWrite (s.blob k).length s else [])

/-- A P entry whose stored value is not the one in force is stored: a commit of the layout replaces the stored record
whole (R515). -/
def persistNew (k : Nat) : Phase := fun s =>
  if (Tbl.get (fun _ => none) s.store k).getD (Dict.dflt k) = s.get k then [] else persist k s

/-- Whether an action's kind executes at block boundaries (Table 02-14). -/
def State.atBlocks (s : State) (a : Nat) : Bool := decide (1 ≤ s.nat (Key.act.ACT_KIND a) ∧ s.nat (Key.act.ACT_KIND a) ≤ 3)

/-- The first instant of an action's kind at or after a time (R74, Table 02-14). -/
def State.actInstant (s : State) (a t : Nat) : Nat :=
  if s.atBlocks a then s.boundaryFrom t else sampleTime s.fs (firstFrom s.fs 1 t)

/-- An action is armed or returns to IDLE (R74, R75, R77): it executes late where the instant for its time lies before this
boundary. -/
def armEffect (a : Nat) (w : Writer) (v : Int) : Phase := fun s =>
  let t := s.nat (Key.act.ACT_TIME a)
  if v ≠ 1 then [.num (Key.act.ACT_STATE a) 0, .act a fun _ => {}]
  else [.num (Key.act.ACT_STATE a) 1,
        .act a fun _ => { role := w.role, session := w.session, past := t != 0 && decide (s.actInstant a t < s.blockTime) }]

/-- A claim of an area ends (R422). -/
def areaRelease (n a : Nat) : Phase := fun s =>
  match s.session n with
  | none => []
  | some x =>
    if !x.claims.contains a then []
    else [.session n fun y => y.map fun y => { y with claims := y.claims.filter fun b => b != a },
          .event Ev.AREA_RELEASED (args16 [a, n])]

/-- An area is freed, whoever holds it (R422). -/
def areaFree (a : Nat) : Phase := fun s =>
  match s.areaHolder a with
  | none => []
  | some n => areaRelease n a s

/-- A role's key is removed (Table 13-5). -/
def keyRemove (r : Nat) : Phase := always
  [.reg (Key.key.KEY_MONITOR + r) (.bytes []), .save (Key.key.KEY_MONITOR + r) none]

/-- Bits of a field map that are reserved: the device ignores what is written to them (R4). -/
def reserved (k : Nat) (v : Value) : Value :=
  let keep := fun (m : Nat) => Value.num (v.int.toNat &&& m : Nat)
  if k = Key.fan.FAN_PRESENT then keep 0xF
  else if k = Key.fence.FAULT_MASK then keep 0x1FF
  else if k = Key.hs.HS_CLEAR then keep 0xF
  else v

/-- The entries whose effect is more than the value they hold, by first index, count and subindex, with what a write of
them does; `n` is the number written. -/
def specialEffects (w : Writer) (k : Nat) (v : Value) : List (Nat × Nat × Nat × (Nat → Phase)) :=
  let n := v.int
  let on := n == 1
  let keep : Phase := always [.reg k v]
  let clear : Phase := always [.andNot k n.toNat]
  let ifOn := fun (p : Phase) => if on then p else always []
  let fence := fun (cls i : Nat) => ifOn (fenceClear 0 cls i)
  [(0x1001, 1, 0, fun _ => phases [keep, always [.mgmt fun m => { m with modeBy := w.session }], modeTake n.toNat 1,
     divergeWritten Key.mode.MODE_CURRENT]),
   (0x1110, 1, 6, fun _ => keyRemove n.toNat),
   (0x1150, 1, 3, fun _ => areaFree n.toNat),
   (0x1200, 1, 19, fun _ => phases [always [.num k (-2147483648)], diePeak]),
   (0x1230, 1, 12, fun _ => ifOn updateAbort),
   (0x1240, 1, 10, fun _ => fenceClear 1 (n.toNat / 2 ^ 24) (n.toNat % 65536)),
   (0x1260, 1, 14, fun _ => hsClear n.toNat),
   (0x2000, 2, 1, fun m => phases [keep, macEffect m false]),
   (0x2000, 2, 2, fun m => fun s => phases [keep, macEffect m (s.num k != n)] s),
   (0x2010, 1, 1, fun _ => phases [keep, ipApply 0]), (0x2010, 1, 2, fun _ => phases [keep, ipApply 1]),
   (0x2010, 1, 3, fun _ => phases [keep, ipApply 0]), (0x2010, 1, 4, fun _ => phases [keep, ipApply 1]),
   (0x2010, 1, 5, fun _ => phases [keep, ipApply 0]), (0x2010, 1, 6, fun _ => phases [keep, ipApply 1]),
   (0x2030, 2, 15, fun m => ifOn (netClear m)),
   (0x2080, 1, 1, fun _ => phases [keep, canOperate false]), (0x2080, 1, 2, fun _ => phases [keep, canOperate true]),
   (0x2080, 1, 3, fun _ => phases [keep, canOperate true]), (0x2080, 1, 4, fun _ => phases [keep, canOperate true]),
   (0x2080, 1, 5, fun _ => phases [keep, canOperate true]),
   (0x2180, 128, 19, fun i => ifOn (streamClear i)),
   (0x2180, 128, 20, fun i => fence 2 i),
   (0x3001, 4, 1, fun d => fun s =>
      if s.num k = n then (if (s.tbase d).fenced then dtbUnfence d s else []) else phases [keep, domainNumberEffect d n] s),
   (0x3001, 4, 4, fun d => fun s => if s.num k = n then []
      else [.reg k v, .tbase d fun x => { x with onN1 := false, stepNext := true, sync := none, request := none },
            .tbase 4 fun x => { x with stepNext := x.stepNext || s.follows d }]),
   (0x3010, 1, 1, fun _ => fun s => if s.num k = n then [] else phases [keep, refSourceEffect n] s),
   (0x3010, 1, 2, fun _ => handoverTo n.toNat),
   (0x3010, 1, 4, fun _ => phases [keep, clocksOff]), (0x3010, 1, 5, fun _ => phases [keep, clocksOff]),
   (0x3010, 1, 6, fun _ => phases [keep, clocksOff]),
   (0x3010, 1, 3, fun _ => fun s =>
      [.anchor fun a => { a with todSet := some n.toNat, todNow := a.todNow || s.num Key.ref.REF_SOURCE == 0 }]),
   (0x3020, 1, 1, fun _ => ifOn snapshot),
   (0x3100, 64, 7, fun a => armEffect a w n),
   (0x3140, 8, 1, fun g => always [.num k n, .sg g fun _ => {}]),
   (0x3140, 8, 5, fun g => fun s =>
      if s.num (Key.sg.SG_STATE g) = 1 ∧ s.num (Key.sg.SG_TRIGGER g) = 0 then [.sg g fun x => { x with go := some n.toNat }] else []),
   (0x4000, 4, 15, fun p => pauseRequest p true n.toNat), (0x4000, 4, 16, fun p => pauseRequest p false n.toNat),
   (0x4010, 4, 36, fun p => fence 3 p),
   (0x4020, 2, 1, fun a => phases [keep, rxEnable a, divergeWritten k]),
   (0x4020, 2, 17, fun a => fence 3 (4 + a)),
   (0x4022, 1, 1, fun _ => phases [keep, always [.num Key.aout.AOUT_STATE n], divergeWritten k]),
   (0x4030, 1, 13, fun _ => ifOn slipClear),
   (0x4040, 1, 1, fun _ => phases [keep, zcRenew]),
   (0x4040, 1, 5, fun _ => ifOn zcClear),
   (0x5000, 1, 8, fun _ => clear),
   (0x5010, 1, 8, fun _ => phases [keep, if on then always [] else strictEnds]),
   (0x5800, 512, 15, fun o => fence 1 o),
   (0x6400, 16, 13, fun _ => clear),
   (0x7100, 64, 2, fun i => phases [keep, always [.slot i fun x => { x with reqWait := some n.toNat }], divergeWritten k]),
   (0x7100, 64, 24, fun i => phases [keep, always [.slot i fun x => { x with manWait := some n }]]),
   (0x7100, 64, 32, fun _ => clear),
   (0x7100, 64, 41, fun i => fence 6 i),
   (0x7200, 4, 1, fun g => phases [keep, flEnable g on, divergeWritten k]),
   (0x7200, 4, 17, fun g => ifOn (flClear g)),
   (0x7200, 4, 18, fun g => fence 7 g),
   (0x8000, 16, 1, fun c => phases [keep, chEnEffect c n, divergeWritten k]),
   (0x8200, 16, 20, fun c => fun s => [.num k (s.num (Key.thm.T_COIL_EST c))]),
   (0x8400, 16, 2, fun c => fence 5 c),
   (0x9000, 1, 1, fun _ => fun s => phases [keep, measChannelsEffect (s.nat k) n.toNat] s),
   (0x9010, 4, 1, fun g => gStateEffect g n.toNat),
   (0x9010, 4, 5, fun g => phases [keep, gLevelEffect g n]),
   (0x9020, 8, 1, fun c => cStateEffect c n.toNat),
   (0x9100, 64, 12, fun r => ifOn (resFree r)),
   (0xA000, 1, 10, fun _ => clear),
   (0xA010, 16, 11, fun l => fence 4 l),
   (0xA020, 1, 3, fun _ => always [.num k 0, .num Key.thr.VCORE_MIN 0])]

/-- Whether an entry changes at a zero crossing now (R154, Table 05-5): a fallback source does so while it plays. -/
def State.changesAtCrossing (s : State) (k : Nat) : Bool :=
  isZcEntry (k / 256) (k % 256)
    || (decide (0x6000 ≤ k / 256 ∧ k / 256 < 0x6010 ∧ 18 ≤ k % 256 ∧ k % 256 ≤ 20) && s.fbState (k / 256 % 16) != 0)

/-- A change that waits for a zero crossing begins its wait; where the mode runs no chain the watched signal is zero and
the change applies at once (R154, R362). -/
def crossingWait (k : Nat) (v : Value) : Phase := fun s =>
  if !s.changesAtCrossing k ∨ s.get k = v then []
  else if s.mode.chains || (k / 256 == 0x4022 && s.num Key.aout.AOUT_STATE != 0) then zcEntry k s
  else [.bump Key.zc.ZC_WAITS 1]

/-- A written value takes effect (R395, R399); what it brings about the writer's session has caused (R471). -/
def entryTakes (w : Writer) (k : Nat) (v : Value) : Phase :=
  let v := reserved k v
  causedBy w.session <| phases [
    crossingWait k v,
    (match (specialEffects w k v).find? fun e =>
        decide (e.1 ≤ k / 256 ∧ k / 256 < e.1 + e.2.1) && k % 256 == e.2.2.1 with
      | some e => e.2.2.2 (k / 256 - e.1)
      | none => always [.reg k v]),
    persist k]

/-- Whether an entry is ACT_STATE of an action (Table 02-15). -/
def isArming (k : Nat) : Bool := decide (0x3100 ≤ k / 256 ∧ k / 256 < 0x3140) && k % 256 == 7

/-- Items with the armings of actions last, which see the fields that the others set (R74, R75). -/
def armingsLast {α : Type} (key : α → Nat) (l : List α) : List α :=
  (l.filter fun x => !isArming (key x)) ++ l.filter fun x => isArming (key x)

/-- What a commit does when it is applied (R417): every value at once, then what the owning chapters do at a commit; its session has
caused it (R471). -/
def commitApplied (w : Writer) (items : List (Nat × Value)) : Phase := fun s =>
  let new := s.withItems items
  let changed := fun k => items.any fun p => p.1 == k && s.get k != new.get k
  let inArea := fun a => items.any fun p => p.1 / 65536 == a
  let rws := items.filter fun p => (Dict.row p.1).map (·.acc) == some .rws
  let rest := armingsLast (fun p => p.1) (items.filter fun p => (Dict.row p.1).map (·.acc) != some .rws)
  let fs := changed Key.mtb.FS_SELECT
  let subs := (List.range 128).filter fun i => inArea 0x21 && changed (Key.sub.ENABLE i)
  let ports := (List.range 4).filter fun _ => inArea 0x40
  let maps := ports.flatMap fun p => (List.range 32).filterMap fun k =>
    if changed (Key.tmap.SLOT_MAP p k) && !s.isInput p && s.portLive p && (s.maskNow p).testBit k
        && (new.nat (Key.tmap.SLOT_MASK p)).testBit k then some (Key.tmap.SLOT_MAP p k) else none
  let chans := List.range 16
  causedBy w.session (phases [
    forAll maps zcEntry,
    always (rws.map fun p => .reg p.1 p.2),
    forAll rws (fun p => persist p.1),
    forAll rest (fun p => entryTakes w p.1 p.2),
    (if items.any fun p => isLayoutKey p.1 then phases [layoutActivate, forAll layoutKeys persistNew] else always []),
    (if fs then phases [always [.anchor fun a => { a with fsChanged := true }]] else always []),
    forAll (subs.flatMap new.withSecondaries).eraseDups streamFollows,
    forAll (items.filter fun p => isCommanded p.1) (fun p => divergeWritten p.1),
    (if inArea 0x21 || inArea 0x50 then phases [slotsReassign, membersUpdate] else always []),
    forAll (chans.filter fun _ => inArea 0x61) biquadCommit,
    forAll (chans.filter fun c => changed (Key.fir.FIR_ACTIVE c)) firSwitch,
    (if inArea 0x71 then periodsCommit else always []),
    forAll (chans.filter fun _ => inArea 0x81 || inArea 0x82) modelCommit,
    forAll ports (fun p => phases [
      (if changed (Key.tdm.PORT_EN p) then portEnable p else always []),
      (if changed (Key.tmap.SLOT_MASK p) then phases [
        (fun s => [.port p fun x => { x with
          maskWait := some (s.nat (Key.tmap.SLOT_MASK p), if s.isMaster p then s.blockTime else s.now) }]),
        maskDue p] else always [])]),
    (if items.any fun p => isCostKey p.1 then lanesCommit else always [])]) s

/-- A transaction is tested at its boundary and applied, or discarded (R417): the status and the failing entry. -/
def State.commitOutcome (s : State) (w : Writer) (items : List (Nat × Value)) : Nat × Nat :=
  (s.commitFault w items s.blockTime true).getD (St.ok, 0)

/-- COMMIT_DONE, and what the session reads of its last commit (R417). -/
def commitReport (n st entry : Nat) : Phase := fun s =>
  [.session n fun x => x.map fun x => { x with commitStatus := st, commitAt := s.blockTime, commitEntry := entry },
   .raise Ev.COMMIT_DONE (args16 [n, st, entry / 256, entry % 256]) n none]

/-- One pending transaction of session `n` at its boundary (R417, R419). -/
def commitRun (n : Nat) (c : Commit) : Phase := fun s =>
  let w : Writer := ⟨n, c.role⟩
  let (st, entry) := s.commitOutcome w c.items
  if st = St.ok then
    phases [commitApplied w c.items, commitReport n (if c.late then St.late else St.ok) 0] s
  else phases [commitRefused n c.items st true, commitReport n st entry] s

/-- A session that has ended leaves with its last commit. -/
def sessionSweep (n : Nat) : Phase := fun s =>
  match s.session n with
  | some x => if x.ended ∧ x.commit.isNone ∧ x.ownCommits.isEmpty then [.session n fun _ => none] else []
  | none => []

/-- Whether a pending commit is due at this boundary: one that was passed waits for the end of the anchor period; one whose boundary
an anchoring has moved away waits for it in the new time (R419). -/
def State.commitDue (s : State) (c : Commit) : Bool :=
  if c.passed then s.units.anchor.phase != 2 else decide (c.time ≤ s.blockTime)

/-- Whether the boundary of a pending commit still lies ahead (R418). -/
def State.commitAhead (s : State) (c : Commit) : Bool :=
  if c.passed then s.units.anchor.phase == 2 || !s.atBoundary else decide (s.now < c.time)

/-- The commits of one session that are due at this boundary (R77 step 2): those of its own writes, then its pending
commit. -/
def sessionCommits (n : Nat) : Phase := fun s =>
  match s.session n with
  | none => []
  | some x =>
    let own := x.ownCommits.filter s.commitDue
    let main := x.commit.filter s.commitDue
    if own.isEmpty && main.isNone then []
    else phases [
      always [.session n fun y => y.map fun y => { y with
        ownCommits := y.ownCommits.filter fun c => !s.commitDue c, commit := if main.isSome then none else y.commit }],
      forAll (own ++ main.toList) (commitRun n), sessionSweep n] s

/-- Every timed commit due at this boundary, in ascending session number (R77 step 2). -/
def commitsDue : Phase := fun s => forAll (s.units.sessions.map fun p => p.1) sessionCommits s

/-- Every write that waits takes effect at this boundary (R77 step 3). -/
def waitingApply : Phase := fun s =>
  phases [
    always [.unit fun u => { u with waiting := [] }],
    forAll (armingsLast (fun x => x.key) s.units.waiting) (fun x => entryTakes ⟨x.session, x.role⟩ x.key x.value)] s

/-! ### Accepting a write -/

/-- The configuration with the writes that wait (R76). -/
def State.withWaiting (s : State) : State := s.withItems (s.units.waiting.map fun x => (x.key, x.value))

/-- Bytes that a staged item costs (R415). -/
def stageCost (p : Nat × Value) : Nat :=
  match Dict.row p.1 with
  | some r => 4 + p.2.cost r.ty
  | none => 4

/-- A transaction with one more item (R415): an entry staged again replaces its value. -/
def stageItem (t : List (Nat × Value)) (k : Nat) (v : Value) : List (Nat × Value) :=
  if t.any fun p => p.1 == k then t.map fun p => if p.1 = k then (k, v) else p else t ++ [(k, v)]

/-- Bytes of a transaction (R415). -/
def stageBytes (t : List (Nat × Value)) : Nat := (t.map stageCost).foldl (· + ·) 0

/-- The entry of an incomplete transfer of an RWS entry (R416). -/
def Session.rwsTransfer (x : Session) : Option Nat :=
  match x.xfer with
  | some y => if (Dict.row y.key).map (·.acc) = some .rws then some y.key else none
  | none => none

/-- The open transaction of a session. -/
def State.txn (s : State) (n : Nat) : Option (List (Nat × Value)) := (s.session n).bind fun x => x.txn

/-- The status with which a write of an RWS entry is answered (R396): as a staged item where the session has a
transaction, else as the commit that it is. -/
def State.rwsStatus (s : State) (w : Writer) (k : Nat) (v : Value) : Nat :=
  match s.session w.session with
  | none => St.auth
  | some x => match x.txn with
    | some t => if 65536 < stageBytes (stageItem t k v) then St.stageFull else St.ok
    | none => ((s.commitFault w [(k, v)] s.nextBoundary false).getD (St.ok, 0)).1

/-- The status with which a write is answered (R397). -/
def State.writeStatus (s : State) (w : Writer) (k : Nat) (given : Option Ty) (v : Value) : Nat :=
  let head := s.headFaults w k given v
  if firstFault head ≠ St.ok then firstFault head
  else match Dict.row k with
    | none => St.noEntry
    | some r =>
      if r.acc = .rws then s.rwsStatus w k v
      else
        let new := s.withWaiting.set k v
        firstFault (s.ownFaults new (fun j => j == k) w s.nextBoundary k v true ++ bad (s.closing k) St.loopClosed)

/-- The effect TIME of an accepted write (R412). -/
def State.effectTime (s : State) (w : Writer) (k : Nat) : Nat :=
  match Dict.row k with
  | none => 0
  | some r => match r.eff with
    | .acc => s.now
    | .block true => s.nextBoundary
    | .commit => if (s.txn w.session).isSome then 0 else s.nextBoundary
    | _ => 0

/-- An accepted write: it takes effect now, waits for its boundary, joins the transaction, or forms one of its own. A request for a
mode replaces one that has not yet taken effect, of a planned removal too (R431). -/
def writeAccept (w : Writer) (k : Nat) (v : Value) : Phase := fun s =>
  match Dict.row k with
  | none => []
  | some r => match r.eff with
    | .block _ =>
      [.unit fun u => { u with
        waiting := u.waiting.filter (fun x => x.key != k) ++ [⟨k, v, w.role, w.session⟩],
        mgmt := if k = Key.mode.MODE_REQUEST then { u.mgmt with waitMode := none } else u.mgmt }]
    | .commit => match s.txn w.session with
      | some t => [.session w.session fun x => x.map fun x => { x with txn := some (stageItem t k v) }]
      | none => [.session w.session fun x => x.map fun x => { x with
          ownCommits := x.ownCommits ++ [{ time := s.nextBoundary, untimed := true, items := [(k, v)], role := w.role }] }]
    | _ => entryTakes w k v s

/-- A refused write: what the refusal of a transaction of its own records, where the tests that any entry has passed. -/
def writeRefused (w : Writer) (k : Nat) (given : Option Ty) (v : Value) (st : Nat) : Phase := fun s =>
  if (Dict.row k).map (·.acc) = some .rws ∧ (s.txn w.session).isNone
      ∧ firstFault (s.headFaults w k given v) = St.ok then commitRefused w.session [(k, v)] st false s
  else []

/-- The status of a clear that the owning rule refuses (R298, R476), answered although the write is carried out; else OK. -/
def State.clearReply (s : State) (k : Nat) (v : Value) : Nat :=
  let n := v.int.toNat
  if k = Key.fence.FENCE_CLEAR_CMD then s.clearAnswer (n / 2 ^ 24) (n % 65536)
  else if 0x8400 ≤ k / 256 ∧ k / 256 < 0x8410 ∧ k % 256 = 2 ∧ n = 1 then s.clearAnswer 5 (k / 256 - 0x8400)
  else St.ok

/-- What a write is answered: status and effect TIME. -/
def State.writeReply (s : State) (w : Writer) (k : Nat) (given : Option Ty) (v : Value) : Nat × Nat :=
  let st := s.writeStatus w k given v
  if st ≠ St.ok then (st, 0)
  else
    let st := s.clearReply k v
    (st, if st = St.ok then s.effectTime w k else 0)

/-- A write of one entry: tested, and accepted or refused. A request for STANDBY, RUN or MEASURE ends the hold of a planned
removal as it is accepted (R455). -/
def writeDo (w : Writer) (k : Nat) (given : Option Ty) (v : Value) : Phase := fun s =>
  let st := s.writeStatus w k given v
  if st = St.ok then phases [writeAccept w k v, if k = Key.mode.MODE_REQUEST ∧ v.int ≠ 1 then removalEnd else always []] s
  else writeRefused w k given v st s

/-- Whether the device serves requests (R391, R457). -/
def State.serves (s : State) : Bool := s.mode != .boot && s.units.mgmt.served

end Sys2Proof.Machine

namespace Sys2Proof

/-- Who makes a write of a row of its own. -/
def EntryWrite.writer (w : EntryWrite) : Machine.Writer := ⟨w.session, w.role⟩

end Sys2Proof

namespace Sys2Proof.Machine

/-- A write that a command of its own carries: what it does, and what it was answered. -/
def writeEntry (k : Nat) (given : Option Ty) (w : EntryWrite) : Phase := fun s =>
  if !s.serves then []
  else
    let reply := s.writeReply w.writer k given w.value
    phases [writeDo w.writer k given w.value, always [.unit fun u => { u with answer := reply }]] s

end Sys2Proof.Machine
end

