-- ==== Sys2Proof/Machine/Crossings.lean ====
section
/-!
DEFINITION. Machine/Crossings.lean: the ends of zero-crossing waits (R154, R155, R362-R364): by a crossing, or by the
timeout.
-/

namespace Sys2Proof.Machine

/-- The mute of a re-anchor applies (R64): at once at a crossing, over 32 samples after a timeout. A chain ramp that it catches
on its way up ends there; the channel fades in at step 5. -/
def anchorMuted (c : Nat) (timeout : Bool) : Phase := fun s =>
  [zcDrop (Zc.anchor c)] ++ (if s.phase c = 4 then [.num (Key.pw.SEQ_PHASE c) 0] else []) ++
  if s.released c then []
  else if timeout then [.chan c fun x => { x with gc := x.gc.to 0 32 }]
  else (.chan c fun x => { x with gc := {} }) :: setOut c 1 s

/-- The change that waits under a key applies. -/
def zcApply (w : ZcWait) (timeout : Bool) : Phase :=
  let n := w.key - 2 ^ 24
  let u := n % 65536
  let drop : Phase := always [zcDrop w.key]
  if w.key < 2 ^ 24 then
    if w.key / 256 = 0x4022 then mapApply 6 (w.key % 256 - 2) w.key timeout
    else if w.key / 65536 = 0x40 then mapApply (w.key / 256 - 0x4010) (w.key % 256 - 2) w.key timeout
    else chanZcApply w.key timeout
  else match n / 65536 with
    | 0 => phases [drop, chainUp u]
    | 1 => chainDown u true
    | 3 => anchorMuted u timeout
    | 4 => phases [drop, slotApply (u / 64) (u % 64) w.value.int timeout]
    | 5 => phases [drop, fallbackApply u timeout]
    | _ => phases [drop, calZc u (!timeout)]

/-- The sample at which a wait is judged at this instant: the one that its channel's chain takes next, or, for a wait of
another signal, the one that plays (R154, R362, log 26). -/
def State.zcSample (s : State) (key : Nat) : Nat :=
  match s.watchPlace key with
  | some (c, _) => s.chainNext c
  | none => s.sampleNow

/-- A port and slot whose signal a wait watches: a map word (R349), or a slot's pause or resume (R352). -/
def slotWatched (key : Nat) : Option (Nat × Nat) :=
  let n := key - 2 ^ 24
  if key < 2 ^ 24 then
    if key / 256 = 0x4022 then some (6, key % 256 - 2)
    else if key / 65536 = 0x40 then some (key / 256 - 0x4010, key % 256 - 2) else none
  else if n / 65536 = 4 then some (n % 65536 / 64, n % 65536 % 64) else none

/-- The machine as the strobe of this instant will leave it, but for what master inputs are yet to read (R339). -/
def State.strobeAhead (s : State) : State :=
  s.run (phases [senseHistory, genStrobe, portInputs [], renderStrobe, chainStrobe, portOutputs] s)

/-- The signal of a watched slot at the sample before and at the one that is formed at this instant (R349, R352, R362), ahead of the
strobe or of the frame that is to form it; none where a master input has yet to read it. -/
def State.slotPair (s : State) (key p k : Nat) : Option (Int × Int) :=
  let at' := fun (l : List (List Int)) (i : Nat) => (l.getD i []).getD k 0
  if key < 2 ^ 24 then
    let l := if s.strobed then (s.port p).sig else (s.strobeAhead.port p).sig
    some (at' l 1, at' l 0)
  else if !s.isInput p && !s.isMaster p then
    let l := (s.port p).raw
    if (s.port p).edges.head? = some s.mtbNs then some (at' l 1, at' l 0)
    else some (at' l 0, (s.masked p ((s.port p).fifo.headD (0, [])).2).getD k 0)
  else if s.strobed then some (at' (s.port p).raw 1, at' (s.port p).raw 0)
  else if s.isInput p && s.isMaster p then none
  else some (at' (s.strobeAhead.port p).raw 1, at' (s.strobeAhead.port p).raw 0)

/-- Whether the signal that a wait watches crosses zero at the sample at which it is judged (R154, R280, R349, R352, R362):
of a start, stop, restore, re-anchor or calibration it is the output of stage 8. -/
def State.crosses (s : State) (key : Nat) : Bool :=
  match s.watchPlace key with
  | some (c, i) => s.chainCrosses c i
  | none => match slotWatched key with
    | some (p, k) => match s.slotPair key p k with
      | some x => crossesZero (x.1 : Rat) (x.2 : Rat)
      | none => false
    | none =>
      let x := s.s8Pair ((key - 2 ^ 24) % 65536)
      crossesZero (x.1 : Rat) (x.2 : Rat)

/-- A wait that ends is counted with its length (R364). -/
def zcCount (w : ZcWait) (timeout : Bool) : Phase := fun s =>
  [.bump (if timeout then Key.zc.ZC_TIMEOUTS else Key.zc.ZC_WAITS) 1,
   .nat Key.zc.ZC_LONGEST (max (s.nat Key.zc.ZC_LONGEST) (s.zcSample w.key - w.start))]

/-- A wait ends: by a crossing, or by the timeout. -/
def zcEnd (w : ZcWait) (timeout : Bool) : Phase := phases [zcCount w timeout, zcApply w timeout]

/-- ZERO_CROSSING: the watched signal of a wait crosses zero at the sample at which it is judged, within the wait (R362).
Every change that waits on that signal applies at the same sample (R155). -/
def zeroCrossing (key : Nat) : Phase := fun s =>
  let n := s.zcSample key
  if !(s.units.zc.any fun w => w.key == key) || !s.crosses key then []
  else
    let l := s.units.zc.filter fun w => zcSignal w.key == zcSignal key && decide (w.start ≤ n ∧ n ≤ w.start + w.limit)
    forAll l (fun w => zcEnd w false) s

/-- ZC_WAIT_TIMEOUT: no crossing came within ZC_TIMEOUT (R362); a crossing at the last sample of the wait wins (R11). -/
def zcTimeout (key : Nat) : Phase := fun s =>
  match s.zcWait key with
  | none => []
  | some w =>
    let n := s.zcSample key
    if n < w.start + w.limit then []
    else if n = w.start + w.limit ∧ s.crosses key then zeroCrossing key s
    else zcEnd w true s

end Sys2Proof.Machine
end

