-- ==== Sys2Proof/Machine/Actions.lean ====
section
/-!
DEFINITION. Machine/Actions.lean: scheduled actions A0-A63 (R74-R77, R420), the order of a block boundary's changes
(R77), and start groups (R78-R80).
-/

namespace Sys2Proof.Machine

/-! ### Scheduled actions -/

/-- The instant of the present boundary of the action's kind. -/
def State.actNow (s : State) (a : Nat) : Nat := if s.atBlocks a then s.blockTime else sampleTime s.fs s.sampleNow

/-- Whether the present instant is a boundary of the action's kind: a block boundary or a sample instant, within the 20 ns
of the strobes (Table 02-14, R53). -/
def State.actInstantNow (s : State) (a : Nat) : Bool :=
  if s.atBlocks a then s.atBoundary else decide (((s.now : Int) - sampleTime s.fs s.sampleNow).natAbs ≤ 20)

/-- Whether an armed action falls due at the present boundary of its kind (R74, R75). One that an anchoring has carried past
waits for the end of the anchor period (R69). -/
def State.actDue (s : State) (a : Nat) : Bool :=
  let t := s.nat (Key.act.ACT_TIME a)
  s.num (Key.act.ACT_STATE a) == 1 && s.actInstantNow a
    && (t == 0 || (if (s.act a).past then s.units.anchor.phase != 2
         else if s.atBlocks a then decide (firstFrom s.fs s.B t ≤ s.blockSample)
         else decide (firstFrom s.fs 1 t ≤ s.sampleNow)))

/-- What an executed action leaves (Table 02-15, R75): its status, instant and lateness, and its events. -/
def actDone (a st : Nat) : Phase := fun s => causedBy (s.act a).session (fun s =>
  let t := s.nat (Key.act.ACT_TIME a)
  let now := s.actNow a
  let late := (s.act a).past
  if st = St.ok then
    [.num (Key.act.ACT_STATE a) 2, .nat (Key.act.ACT_STATUS a) (if late then St.late else St.ok),
     .nat (Key.act.ACT_EXEC_TIME a) now, .nat (Key.act.ACT_LATENESS a) (if late then now - t else 0), .act a fun _ => {}]
    ++ if late then [.event Ev.ACTION_LATE (le 2 a ++ le 8 (now - t : Nat))] else []
  else
    [.num (Key.act.ACT_STATE a) 3, .nat (Key.act.ACT_STATUS a) st, .nat (Key.act.ACT_EXEC_TIME a) now,
     .num (Key.act.ACT_LATENESS a) 0, .act a fun _ => {}, .event Ev.ACTION_FAILED (args16 [a, st])]) s

/-- A WRITE action (R76): the write is tested as a direct one with the arming session's role and takes effect at this
boundary. -/
def actWrite (a : Nat) : Phase := fun s =>
  let k := s.nat (Key.act.ACT_TARGET a) * 256 + s.nat (Key.act.ACT_SUB a)
  let w : Writer := ⟨(s.act a).session, (s.act a).role⟩
  match Dict.row k with
  | none => actDone a (firstFault (s.headFaults w k none (.num 0))) s
  | some r =>
    let v := s.actValue a r.ty
    let head := firstFault (s.headFaults w k (some r.ty) v)
    if r.acc = .rws then
      let st := if head = St.ok then (s.commitOutcome w [(k, v)]).1 else head
      if st = St.ok then phases [commitApplied w [(k, v)], actDone a St.ok] s
      else phases [if head = St.ok then commitRefused w.session [(k, v)] st true else always [], actDone a st] s
    else
      let st := if head = St.ok then firstFault (s.ownFaults (s.set k v) (fun j => j == k) w s.blockTime k v true
        ++ bad (s.closing k) St.loopClosed) else head
      if st ≠ St.ok then actDone a st s
      else phases [entryTakes w k v, actDone a (s.clearReply k v)] s

/-- A COMMIT action (R420): the open transaction of the session it names, as a COMMIT with t = 0 at this boundary: BUSY and
CONFLICT are R416's. -/
def actCommit (a : Nat) : Phase := fun s =>
  let n := s.nat (Key.act.ACT_TARGET a)
  match s.session n with
  | none => actDone a St.conflict s
  | some x => match x.txn with
    | none => actDone a St.conflict s
    | some items =>
      if x.commit.isSome then actDone a St.busy s
      else if x.rwsTransfer.isSome then actDone a St.conflict s
      else
        let w : Writer := ⟨n, (s.act a).role⟩
        let st := (s.commitOutcome w items).1
        if st ≠ St.ok then phases [commitRefused n items st true, actDone a st] s
        else phases [
          always [.session n fun y => y.map fun y => { y with txn := none }],
          commitApplied w items, commitReport n St.ok 0, actDone a St.ok] s

/-- A MODE action (Table 02-14): the request is tested as a write of MODE_REQUEST. -/
def actMode (a : Nat) : Phase := fun s =>
  let v := s.num (Key.act.ACT_TARGET a)
  let w : Writer := ⟨(s.act a).session, (s.act a).role⟩
  let k := Key.mode.MODE_REQUEST
  let st := firstFault (s.headFaults w k (some .u8) (.num v) ++ s.ownFaults s (fun _ => false) w s.blockTime k (.num v) true)
  if st ≠ St.ok then actDone a st s else phases [entryTakes w k (.num v), actDone a St.ok] s

/-! ### Start groups -/

/-- The armed members of a start group (R78): ports, generators and captures. -/
def State.sgPorts (s : State) (g : Nat) : List Nat :=
  (List.range 4).filter fun p => s.pst p == .armed && s.nat (Key.tdm.PORT_SG p) == g
def State.sgGens (s : State) (g : Nat) : List Nat :=
  (List.range 4).filter fun h => s.genState h == 1 && s.nat (Key.gen.G_SG h) == g
def State.sgCaps (s : State) (g : Nat) : List Nat :=
  (List.range 8).filter fun k => s.num (Key.cap.C_STATE k) == 1 && s.capParam k 5 == 6 && s.capParam k 6 == g

/-- SG_MEMBERS: members armed (Table 02-17). -/
def State.sgMembers (s : State) (g : Nat) : Nat := (s.sgPorts g).length + (s.sgGens g).length + (s.sgCaps g).length

/-- The start sample of a group is fixed (R79); a group that is not ARMED ignores it. A second start of an ARMED group
fixes it anew (log 161). -/
def sgFix (g n : Nat) : Phase := fun s =>
  if s.num (Key.sg.SG_STATE g) = 1 then [.sg g fun x => { x with fixed := some n, go := none }] else []

/-- The start sample that is due, if one is: a fixed one, or the first sample at or after the time of an SG_GO, which is
the next sample where that time is 0 or past (R74, R79). -/
def State.sgDue (s : State) (g : Nat) : Option Nat :=
  let n := s.sampleNow
  if s.num (Key.sg.SG_STATE g) ≠ 1 then none
  else match (s.sg g).fixed with
    | some m => if m ≤ n then some n else none
    | none => match (s.sg g).go with
      | some t => if firstFrom s.fs 1 t ≤ n then some n else none
      | none => none

/-- START_SAMPLE (R78): every armed member of the group begins at the present sample; a capture takes it as its first
post-trigger sample (Table 02-16), and a generator whose entries its start does not allow does not start (R309, R313, log 194). At a block boundary the changes of R77 come first (R80). -/
def startSample (g : Nat) : Phase := fun s =>
  match s.sgDue g with
  | none => []
  | some n =>
    let t := sampleTime s.fs n
    if n % s.B = 0 ∧ s.units.disp.blockAt ≠ some n then []
    else phases [
      always [.num (Key.sg.SG_STATE g) 2, .nat (Key.sg.SG_START_TIME g) t, .nat (Key.sg.SG_START_SAMPLE g) n,
        .sg g fun _ => { fixed := some n, go := none },
        .event Ev.START_GROUP_STARTED (le 2 g ++ le 8 n ++ le 2 (s.sgMembers g))],
      forAll (s.sgPorts g) (fun p => portStart p t),
      forAll (s.sgGens g) fun h => fun t =>
        if (t.genRefused h).isSome then [] else phases [genLatch h, setGen h 2, genBegin h] t] s

/-- A START action (Table 02-14, R79): it starts a group whose trigger is an action or SG_GO (Table 02-17). -/
def actStart (a : Nat) : Phase := fun s =>
  let g := s.nat (Key.act.ACT_TARGET a)
  phases [if s.num (Key.sg.SG_TRIGGER g) = 0 then sgFix g s.sampleNow else always [], actDone a St.ok] s

/-- An edge of a GPIO input at a sample's instant fixes the start sample of the groups that await it: the fourth sample after
the first at or after the edge (R79). -/
def gpioFix (pin : Nat) (rising : Bool) (first : Nat) : Phase :=
  forAll (List.range 8) fun g => fun s =>
    if s.num (Key.sg.SG_TRIGGER g) = 1 ∧ s.nat (Key.sg.SG_GPIO g) = pin
        ∧ s.num (Key.sg.SG_EDGE g) = (if rising then 0 else 1) then
      sgFix g (first + 4) s
    else []

/-- Whether a GPIO pin drives, and the level at which it stands: driven, or as its last edge left it (R498, R499). -/
def State.gpioDriven (s : State) (n : Nat) : Option Bool := (s.units.pins.gpio.find? fun x => x.1 == n).map fun x => x.2
def State.gpioLevel (s : State) (n : Nat) : Bool := (s.gpioDriven n).getD (s.units.pins.gpioIn.testBit n)

/-- A GPIO action drives its pin (Table 02-14, R499); an edge that it makes there is captured like one from outside. -/
def actGpio (a : Nat) : Phase := fun s =>
  let n := s.nat (Key.act.ACT_TARGET a)
  let high := s.num (Key.act.ACT_VALUE a) == 1
  phases [
    always [.pins fun p => { p with gpio := p.gpio.filter (fun x => x.1 != n) ++ [(n, high)] }],
    if s.gpioLevel n = high then always [] else gpioFix n high s.sampleNow,
    actDone a St.ok] s

/-- An armed action that is due executes, if its kind is `kind`. -/
def actRun (kind a : Nat) (p : Nat → Phase) : Phase := fun s =>
  if s.actDue a ∧ s.nat (Key.act.ACT_KIND a) = kind ∧ s.mode ≠ .boot then p a s else []

/-- The action executes while the management processor serves; a write, commit or change of mode waits through an absence
(R457). -/
def actServed (kind a : Nat) (p : Nat → Phase) : Phase := fun s => if s.units.mgmt.served then actRun kind a p s else []

def actionWrite (a : Nat) : Phase := actServed 1 a actWrite
def actionCommit (a : Nat) : Phase := actServed 2 a actCommit
def actionMode (a : Nat) : Phase := actServed 3 a actMode
def actionStart (a : Nat) : Phase := actRun 4 a actStart
def actionGpio (a : Nat) : Phase := actRun 5 a actGpio

/-- The actions that are due at a block boundary, in ascending number (R77 steps 1 and 4): those of block boundaries, and
those of the sample instant that it is. -/
def actionsDue : Phase :=
  forAll (List.range 64) fun a => phases [actionWrite a, actionCommit a, actionMode a, actionStart a, actionGpio a]

/-- GPIO_INPUT_EDGE (R79): the start sample is the first sample instant at or after the edge plus 4 sample periods. A pin
that the device drives has the device's own edges only (R499). -/
def gpioEdge (pin : Nat) (rising : Bool) : Phase := fun s =>
  if (s.gpioDriven pin).isSome then []
  else phases [
    always [.pins fun p => { p with gpioIn := clearBits p.gpioIn (2 ^ pin) ||| flagIf rising pin }],
    gpioFix pin rising (firstFrom s.fs 1 s.now)] s

/-! ### The changes of a block boundary (R77) -/

/-- Steps 2 and 3, which need the management processor (R457). -/
def changesServed (p : Phase) : Phase := fun s => if s.units.mgmt.served ∧ s.mode ≠ .boot then p s else []

/-- The changes of one kind that fall due, taken by themselves at a block boundary (R12, R77); a probe that was barred before them
waits (R288). -/
def atBlock (p : Phase) : Phase := whenP State.atBoundary (changesServed (phases [forAll (List.range 16) probeDue, p]))

/-- R77: actions, timed commits, waiting writes, and the actions that these writes armed. -/
def boundaryChanges : Phase := phases [
  actionsDue, changesServed commitsDue, changesServed (phases [startMode, modePending, waitingApply]), actionsDue,
  fun s => [.disp fun d => { d with blockAt := some s.blockSample }]]

end Sys2Proof.Machine
end

