-- ==== Sys2Proof/Machine/View.lean ====
section
/-!
DEFINITION. Machine/View.lean: what a read returns (R398, R411, R413): the value an entry holds, or, for the entries that
report a part of the machine, what that part says now.
-/

namespace Sys2Proof.Machine

/-! ### Tables of sessions, claims and handles -/

/-- The sessions that exist, with their numbers. -/
def State.openSessions (s : State) : List (Nat × Session) :=
  s.units.sessions.filterMap fun p => p.2.bind fun x => if x.ended then none else some (p.1, x)

/-- A session record (Table 13-8). -/
def State.sessionRecord (s : State) (n : Nat) (x : Session) : List Byte :=
  le 2 n ++ le 1 x.role ++ le 1 x.peer.transport ++ le 4 x.peer.addr ++ le 2 x.peer.port ++ le 1 x.claims.length
    ++ le 1 (if x.isOpen then 1 else 0) ++ le 4 ((s.mtbNs - x.lastAt) / 1000000 : Nat)

/-- The handles kept: running, and for 60 s after completion (R423). -/
def State.keptHandles (s : State) : List (Nat × Handle) :=
  s.units.handles.filterMap fun p => p.2.bind fun h =>
    if h.finished && decide (h.doneAt + 60000000000 ≤ s.mtbNs) then none else some (p.1, h)

/-- A handle record (Table 13-13). -/
def handleRecord (n : Nat) (h : Handle) : List Byte :=
  le 2 n ++ le 2 h.op ++ le 2 h.session ++ le 1 (if h.finished then 1 else 0) ++ le 1 h.status ++ le 2 h.result
    ++ le 1 h.progress ++ le 1 0

/-! ### Words and numbers -/

/-- Word `i` of 64 bits of a mask. -/
def word64 (m i : Nat) : Nat := m / 2 ^ (64 * i) % 2 ^ 64

/-- Bits of the slots in a state. -/
def State.slotsIn (s : State) (st : Nat) : Nat := mask ((List.range 64).filter fun n => s.slotState n == st)

/-- PIN_STATE (Table 14-7). -/
def State.pinState (s : State) : Nat :=
  let p := s.units.pins
  flagIf p.engageN 0 ||| flagIf p.muteN 1 ||| flagIf p.bootsel 2 ||| flagIf p.faultLow 3

/-- A gain as Q31, 0x7FFF_FFFF standing for 1 (Table 05-9). -/
def gainQ31 (tag : Nat) (g : Rat) : Int := if g = 1 then 2147483647 else sat32 (rounded tag (g * 2147483648))

/-- ms since an instant, or 0. -/
def State.msSince (s : State) (t : Option Nat) : Nat := match t with
  | some t => (s.mtbNs - t) / 1000000
  | none => 0

/-- Bits of the fenced learners, domain time bases and port units (Table 15-10). -/
def State.fencedUnits (s : State) : Nat :=
  mask (s.fencedOf 7) ||| mask (s.fencedOf 8) * 16 ||| mask (s.fencedOf 3) * 256

/-- Bit r set where the key of role r is set (Table 13-5). -/
def State.keySet (s : State) : Nat := mask ((List.range 4).filter fun r => !(s.blob (Key.key.KEY_MONITOR + r)).isEmpty)

/-- A record of CAL_TABLE (Table 15-4). -/
def State.calRecord (s : State) (c : Nat) : List Byte :=
  let x := s.chan c
  let (a, b, d, e) := x.calVals
  le 4 a ++ le 4 b ++ le 4 d ++ le 4 e ++ le 8 (x.calAt.getD 0)

/-- A record of RON_TABLE (Table 15-8). -/
def State.ronRecord (s : State) (c : Nat) : List Byte :=
  le 2 (Config.ronFinal c 0).toNat ++ le 2 (Config.ronFinal c 1).toNat ++ le 2 (s.chan c).ron.1 ++ le 2 (s.chan c).ron.2

/-- PROBATION_LEFT in ms: a probation lasts 600 s (R485). -/
def State.probationLeft (s : State) : Nat :=
  if s.updState = 5 then 600000 - min 600000 ((s.mtbNs - s.units.mgmt.probAt) / 1000000) else 0

/-! ### The views -/

/-- The entries that report the machine, by first index, count and subindex, with what they report; the argument is the
unit. -/
def State.reports (s : State) (n : Nat) : List (Nat × Nat × Nat × (Nat → Value)) :=
  let nat := fun (x : Nat) => Value.num x
  let one := fun (index sub x : Nat) => (index, 1, sub, fun (_ : Nat) => nat x)
  let blob := fun (index sub : Nat) (b : List Byte) => (index, 1, sub, fun (_ : Nat) => Value.bytes b)
  let me := s.session n
  let mine := fun (f : Session → Nat) => match me with
    | some x => f x
    | none => 0
  [one 0x1002 0 s.mode.code, one 0x1005 0 s.pinState,
   one 0x1100 3 s.openSessions.length, one 0x1100 4 n,
   blob 0x1100 5 (s.openSessions.flatMap fun p => s.sessionRecord p.1 p.2),
   one 0x1110 5 s.keySet,
   one 0x1120 3 (s.keptHandles.filter fun p => !p.2.finished).length,
   one 0x1120 4 s.units.mgmt.handleCtr,
   blob 0x1120 5 (s.keptHandles.flatMap fun p => handleRecord p.1 p.2),
   blob 0x1130 2 (match me with
     | some x => x.ranges.flatMap fun r => le 2 r.1 ++ le 2 r.2
     | none => []),
   one 0x1130 3 (match me with
     | some x => x.nextSeq
     | none => 1),
   one 0x1130 4 (mine (·.lostTotal)),
   one 0x1140 2 (mine fun x => stageBytes (x.txn.getD [])), one 0x1140 3 (mine fun x => (x.txn.getD []).length),
   one 0x1140 4 (mine fun x => (x.commit.map (·.time)).getD 0), one 0x1140 5 (mine (·.commitStatus)),
   one 0x1140 6 (mine (·.commitAt)), one 0x1140 7 (mine (·.commitEntry)),
   blob 0x1150 2 (s.openSessions.flatMap fun p => p.2.claims.flatMap fun a => le 1 a ++ le 1 0 ++ le 2 p.1),
   blob 0x1201 4 ((List.range 16).flatMap s.calRecord),
   one 0x1210 2 (max 1 (s.nat Key.log.LOG_NEXT_SEQ)),
   blob 0x1220 30 ((List.range 16).flatMap s.ronRecord),
   one 0x1009 2 s.laneVersion,
   one 0x1230 7 (if s.updState = 5 then (600000 - s.probationLeft) / 6000 else s.nat Key.upd.UPDATE_PROGRESS),
   one 0x1230 9 s.probationLeft,
   one 0x1240 1 (((List.range 8).map fun c => (s.fencedOf (c + 1)).length).foldl (· + ·) 0),
   one 0x1240 2 (mask (s.fencedOf 5)), one 0x1240 3 (mask (s.fencedOf 4)), one 0x1240 4 (mask (s.fencedOf 6)),
   one 0x1240 5 s.fencedUnits, one 0x1240 6 (word64 (mask (s.fencedOf 2)) 0), one 0x1240 7 (word64 (mask (s.fencedOf 2)) 1),
   one 0x1240 8 s.units.mgmt.lockouts.length, one 0x1240 9 (mask (s.fencedOf 10)), one 0x1240 12 s.faultNow,
   one 0x2020 3 (if s.mode.tags then 1 else 0),
   one 0x2050 2 s.nL, one 0x2050 6 s.totalChannels,
   one 0x3000 1 s.now, one 0x3000 2 s.mtbNs, one 0x3000 3 (s.mtb.toNat % 2 ^ 32),
   (0x3000, 1, 7, fun _ => .num s.freqAdj),
   (0x3001, 4, 5, fun d => nat (s.dtbTime d)),
   one 0x3030 2 s.holdoverElapsed,
   (0x3140, 8, 8, fun g => nat (s.sgMembers g)),
   (0x4000, 4, 17, fun p => nat (s.bclkHz p)), (0x4000, 4, 18, fun p => .num (if s.isMaster p then 0 else s.num (Key.tdm.RATE_PPM p))),
   one 0x5000 9 (s.liveObjs.filter fun o => s.objState o == 2).length,
   one 0x5000 12 (s.fencedOf 1).length,
   (0x5800, 512, 12, fun o => nat (s.obj o).delay),
   (0x6300, 16, 7, fun c => .num (s.limGr c)),
   (0x6400, 16, 9, fun c => .num (gainQ31 (Key.gn.CEIL_NOW c) (s.chan c).ceilB)),
   (0x6400, 16, 10, fun c => .num (gainQ31 (Key.gn.G_APPLIED c) (s.chan c).gNow)),
   (0x6400, 16, 11, fun c => nat (s.pinnedBy c)), (0x6400, 16, 12, fun c => nat (s.msSince (s.chan c).pinSince)),
   one 0x7000 7 (s.slotsIn 1), one 0x7000 8 (s.slotsIn 2), one 0x7000 9 (s.slotsIn 3),
   one 0x7000 10 (mask ((List.range 64).filter fun i => s.flag (Key.ls.FLAGS i))),
   one 0x7000 11 (s.nat Key.fw.LOOP_UCODE_VER),
   (0x8000, 16, 6, fun c => .num (rounded (Key.pw.I_LIM c) (s.iLim c * 1000))),
   (0x8000, 16, 9, fun c => nat (if s.num (Key.pg.FSW_SEL (c / 4)) = 2 then 9400 else 9700)),
   (0x8100, 16, 23, fun c => nat (s.protection c)),
   (0x8800, 4, 15, fun g => nat (384 * 2 ^ s.nat (Key.pg.FSW_SEL g)))]

/-- What a read of an entry by session `n` returns (R398, R411). -/
def State.view (s : State) (n k : Nat) : Value :=
  match (s.reports n).find? fun e => decide (e.1 ≤ k / 256 ∧ k / 256 < e.1 + e.2.1) && k % 256 == e.2.2.1 with
  | some e => e.2.2.2 (k / 256 - e.1)
  | none => s.get k

/-- The record of LOG_DATA at a place of the ring; zero where none was written (R472). -/
def State.logRecord (s : State) (i : Nat) : List Byte :=
  match Tbl.get (fun _ => none) s.units.log i with
  | some r => r.bytes
  | none => List.replicate 32 0

/-- The total of a blob entry as session `n` reads it (R413). -/
def State.blobTotal (s : State) (n k : Nat) : Nat :=
  if k = Key.log.LOG_DATA then 1048576 else (s.view n k).octets.length

/-- A segment of a blob as session `n` reads it (R413, R472). -/
def State.blobSlice (s : State) (n k offset length : Nat) : List Byte :=
  if k = Key.log.LOG_DATA then
    let first := offset / 32
    let l := (List.range (length / 32 + 2)).flatMap fun i => if first + i < 32768 then s.logRecord (first + i) else []
    slice l (offset % 32) length
  else slice (s.view n k).octets offset length

end Sys2Proof.Machine
end

