-- ==== Sys2Proof/Machine/Cdl.lean ====
section
/-!
DEFINITION. Machine/Cdl.lean: the dictionary protocol: messages and tags (R404-R406), sequences (R407), sessions
(R408-R410), reads and writes (R393-R398, R412-R414), transactions (R415-R420), claims (R421, R422), long operations
(R423, R424), and events (R425-R428).
-/

namespace Sys2Proof.Machine

/-! ### Messages -/

/-- A message header (Table 13-6). -/
def cdlHeader (response session seq op status len : Nat) : List Byte :=
  le 1 1 ++ le 1 response ++ le 2 session ++ le 4 seq ++ le 1 op ++ le 1 status ++ le 2 len ++ le 4 0

/-- The tag under a session key (R405). -/
def cdlTag (key header payload : List Byte) : List Byte := (hmac key (header ++ payload)).take 16

/-- The payload limit of a medium (R404). -/
def msgLimit (p : Peer) : Nat := if p.transport = 2 then 2016 else 1440

/-- Whether two messages come from one peer (R406): a UDP source address and port, or the CAN FD node. -/
def samePeer (a b : Peer) : Bool := ((a.transport == 2) == (b.transport == 2)) && a.addr == b.addr && a.port == b.port

/-- Whether a received message passes check 1 of R406. -/
def checkOne (transport : Nat) (b : List Byte) : Bool :=
  decide (32 ≤ b.length) && b.length == 32 + leAt b 10 2 && leAt b 0 1 == 1 && leAt b 1 1 == 0 && leAt b 12 4 == 0
    && decide (leAt b 10 2 ≤ if transport = 2 then 2016 else 1440)

/-- A message is handed to its medium (R386, R427): a UDP datagram, or segments on the identifier `base` + node. -/
def cdlSend (p : Peer) (base session : Nat) (msg : List Byte) : Phase := fun s =>
  if p.transport = 2 then canQueue (base + s.nat Key.can.CAN_NODE) msg s
  else sendIp p.transport {
    kind := 0, prio := 2, len := udpLen msg.length, dest := p.addr, port := p.port, sport := cdlPort, unit := session, queuedAt := s.mtbNs,
    body := msg } s

/-- A response (R404-R406); without a key its tag is zero. -/
def respond (m : CdlMsg) (op session : Nat) (key : Option (List Byte)) (status : Nat) (body : List Byte) : Phase :=
  let h := cdlHeader 1 session m.sequence op status body.length
  let tag := match key with
    | some k => cdlTag k h body
    | none => List.replicate 16 0
  cdlSend m.peer 0x440 session (h ++ body ++ tag)

/-- What a request is answered, and what it does. -/
structure Answer where
  status : Nat
  body : List Byte := []
  does : List Effect := []

/-- A refusal: nothing changes (R430). -/
def refuse (st : Nat) : Answer := { status := st }

/-! ### Sessions open -/

/-- The key with which a role authenticates, if it can (R403). -/
def State.roleKey (s : State) (role : Nat) (p : Peer) : Option (List Byte) :=
  let k := s.blob (Key.key.KEY_MONITOR + role)
  if !k.isEmpty then some k
  else if role = 2 ∧ p.transport ≠ 2 ∧ p.service ∧ p.addr / 65536 = 0xA9FE then some (List.replicate 32 0)
  else none

/-- Whether a peer is locked out (R409). -/
def State.lockedOut (s : State) (p : Peer) : Bool := s.units.mgmt.lockouts.any fun l => samePeer l.1 p && decide (s.mtbNs < l.2)

/-- The next number from `n` on that is not in use; `fuel` numbers are tried. -/
def nextFree : Nat → Nat → List Nat → Nat
  | 0, n, _ => n
  | fuel + 1, n, used => if used.contains n then nextFree fuel (n % 65535 + 1) used else n

/-- The session number that HELLO assigns (R408). -/
def State.nextSession (s : State) : Nat :=
  let used := s.units.sessions.filterMap fun p => p.2.map fun _ => p.1
  nextFree used.length (s.units.mgmt.sessCtr % 65535 + 1) used

/-- The session key (R405). -/
def sessionKey (roleKey nonceC nonceD : List Byte) (session role : Nat) : List Byte :=
  hmac roleKey ([0x43, 0x44, 0x4C, 0x31] ++ nonceC ++ nonceD ++ le 2 session ++ le 1 role)

/-- HELLO (R403, R408, R409). A role above 3 is a value outside its limits (log 70). -/
def hello (m : CdlMsg) : Phase := fun s =>
  let role := leAt m.payload 0 1
  let no := fun st => respond m 0x01 m.session none st [] s
  if m.payload.length ≠ 20 ∨ 3 < role then no St.range
  else match s.roleKey role m.peer with
    | none => no St.auth
    | some k =>
      if s.lockedOut m.peer then no St.auth
      else if 32 ≤ s.liveSessions.length then no St.busy
      else
        let n := s.nextSession
        let c := slice m.payload 4 16
        let d := (List.range 16).map (Config.freeByte s.units.free)
        phases [
          always [.draws 1, .mgmt fun x => { x with sessCtr := n },
            .session n fun _ => some {
              role := role, peer := m.peer, nonceC := c, nonceD := d, key := sessionKey k c d n role, lastAt := s.mtbNs }],
          respond m 0x01 n none St.ok (le 2 n ++ le 2 0 ++ d)] s

/-- A failed AUTH (R408, R409): the fifth of a peer within 60 s locks it out for 60 s. -/
def authFailed (n : Nat) (p : Peer) : Phase := fun s =>
  let l := (p, s.mtbNs) :: s.units.mgmt.fails.filter fun f => decide (s.mtbNs < f.2 + 60000000000)
  let five := decide (5 ≤ (l.filter fun f => samePeer f.1 p).length)
  [.session n fun _ => none, .bump Key.ses.AUTH_FAILURES 1, .event Ev.AUTH_FAILED (le 4 p.addr),
   .mgmt fun m => { m with
     fails := l,
     lockouts := if five then (p, s.mtbNs + 60000000000) :: m.lockouts.filter (fun x => !samePeer x.1 p) else m.lockouts }]

/-- An AUTH request to a pending session (R408). -/
def authPending (m : CdlMsg) (x : Session) (good : Bool) : Phase := fun s =>
  if good ∧ m.payload = [] ∧ 1 ≤ m.sequence then phases [
    always [.session m.session fun y => y.map fun y => { y with
        isOpen := true, sLast := m.sequence, lastOp := 2 + 256 * m.status, lastReq := [], cacheStatus := St.ok,
        cacheBody := [], lastAt := s.mtbNs },
      .raise Ev.SESSION_OPENED (args16 [m.session, x.role]) m.session none],
    respond m 0x02 m.session (some x.key) St.ok []] s
  else phases [authFailed m.session x.peer, respond m 0x02 m.session none St.auth []] s

/-! ### The gate (R406, R407) -/

/-- How an opcode is tested and carried out: the form of its payload, the status that the role gives it, and what it
answers and does for session `n`. -/
structure Opcode where
  form : List Byte → Bool
  role : Nat → List Byte → Nat
  run : State → Nat → CdlMsg → Answer

/-- Checks 6 to 8 and the request itself. -/
def Opcode.answer (o : Option Opcode) (s : State) (x : Session) (m : CdlMsg) : Answer :=
  match o with
  | none => refuse St.range
  | some o =>
    if !o.form m.payload then refuse St.range
    else if o.role x.role m.payload ≠ St.ok then refuse (o.role x.role m.payload)
    else
      let a := o.run s m.session m
      if msgLimit m.peer < a.body.length then refuse St.range else a

/-- Check 5 (R407), and what follows it. -/
def gateSequence (op : Nat) (o : Option Opcode) (m : CdlMsg) (x : Session) : Phase := fun s =>
  if x.sLast < m.sequence then phases [
    always [.session m.session fun y => y.map fun y => { y with
      sLast := m.sequence, lastOp := op + 256 * m.status, lastReq := m.payload, lastAt := s.mtbNs }],
    fun s =>
      let a := Opcode.answer o s x m
      phases [
        causedBy m.session (always a.does),
        always [.session m.session fun y => y.map fun y => { y with cacheStatus := a.status, cacheBody := a.body }],
        respond m op m.session (some x.key) a.status a.body] s] s
  else if m.sequence = x.sLast ∧ x.lastOp = op + 256 * m.status ∧ x.lastReq = m.payload then
    respond m op m.session (some x.key) x.cacheStatus x.cacheBody s
  else phases [always [.bump Key.ses.REPLAYS 1], respond m op m.session (some x.key) St.replay []] s

/-- Checks 3 and 4. -/
def gateSession (op : Nat) (o : Option Opcode) (m : CdlMsg) : Phase := fun s =>
  match (s.session m.session).filter fun x => !x.ended && samePeer x.peer m.peer && (x.isOpen || op == 2) with
  | none => respond m op m.session none St.auth [] s
  | some x =>
    let good := m.tag == cdlTag x.key (cdlHeader 0 m.session m.sequence op m.status m.payload.length) m.payload
    if !x.isOpen then authPending m x good s
    else if !good then [.bump Key.ses.AUTH_FAILURES 1]
    else gateSequence op o m x s

/-- A request assembled on CAN FD is taken from the controller (R388). -/
def canTake (m : CdlMsg) : Effect := .can fun x => if m.peer.transport = 2 then { x with assembled := x.assembled.tail } else x

/-- Whether a request's own message passes check 1. -/
def soundMsg (m : CdlMsg) : Bool := m.tag.length == 16 && decide (m.payload.length ≤ msgLimit m.peer)

/-- A request is received (R406); outside service it is not answered (R391, R457). -/
def receive (m : CdlMsg) (p : Phase) : Phase := fun s =>
  if !s.serves then []
  else phases [
    always [canTake m], if soundMsg m then p else always [.bump Key.ses.MALFORMED_MSGS 1]] s

def request (op : Nat) (o : Option Opcode) (m : CdlMsg) : Phase := receive m (gateSession op o m)

/-! ### Forms and roles (Table 13-4, Table 13-9) -/

/-- Entry named at an offset of a payload. -/
def keyAt (b : List Byte) (o : Nat) : Nat := leAt b o 2 * 256 + leAt b (o + 2) 1

/-- A request that any role may make. -/
def anyRole (_role : Nat) (_b : List Byte) : Nat := St.ok

/-- A request that every role but MONITOR may make. -/
def writers (role : Nat) (_b : List Byte) : Nat := if role = 0 then St.accessRole else St.ok

/-- The items of READM: entries. -/
def readItems (b : List Byte) : List Nat := (List.range (leAt b 0 1)).map fun i => keyAt b (4 + 4 * i)

/-- Items of a type code and value each; `n` items are due. None where they are absent or malformed (R406 check 7). -/
def parseItems : Nat → List Byte → Option (List (Nat × Ty × Value))
  | 0, [] => some []
  | 0, _ :: _ => none
  | n + 1, b =>
    if b.length < 4 then none
    else match Ty.ofCode (leAt b 3 1) with
      | none => none
      | some t => match t.parse (b.drop 4) with
        | none => none
        | some (v, rest) => (parseItems n rest).map fun l => (keyAt b 0, t, v) :: l

/-- The items of WRITEM and STAGE. -/
def writeItems (b : List Byte) : Option (List (Nat × Ty × Value)) :=
  if b.length < 4 ∨ leAt b 0 1 = 0 ∨ 64 < leAt b 0 1 then none else parseItems (leAt b 0 1) (b.drop 4)

/-- The one item of WRITE. -/
def writeItem (b : List Byte) : Option (Nat × Ty × Value) := (parseItems 1 b).bind fun l => l.head?

/-- The role test of a request that writes entries: MONITOR may make none, and the reserved area appears absent to it
(R401, R406). -/
def writeRole (names : List Byte → List Nat) (role : Nat) (b : List Byte) : Nat :=
  if role ≠ 0 then St.ok
  else if (names b).any fun k => decide (0xF000 ≤ k / 256) then St.noEntry else St.accessRole

/-! ### Reads -/

/-- The status with which an entry is read (R391, R392, Table 13-3). -/
def readStatus (k : Nat) : Nat :=
  match Dict.row k with
  | none => if Dict.hasIndex (k / 256) then St.noSubindex else St.noEntry
  | some r => if r.acc = .wo then St.writeOnly else St.ok

/-- Type code and value of an entry; of a blob the length only (Table 13-2). -/
def State.readValue (s : State) (n k : Nat) : List Byte :=
  match Dict.row k with
  | none => []
  | some r => le 1 r.ty.code ++ if r.ty = .blob then le 4 (s.blobTotal n k : Nat) else (s.view n k).wire r.ty

def opRead : Opcode where
  form := fun b => b.length == 4
  role := anyRole
  run := fun s n m =>
    let k := keyAt m.payload 0
    if readStatus k ≠ St.ok then refuse (readStatus k)
    else { status := St.ok, body := le 2 (k / 256 : Nat) ++ le 1 (k % 256 : Nat) ++ s.readValue n k }

def opReadm : Opcode where
  form := fun b => decide (4 ≤ b.length) && decide (1 ≤ leAt b 0 1 ∧ leAt b 0 1 ≤ 64) && b.length == 4 + 4 * leAt b 0 1
  role := anyRole
  run := fun s n m =>
    let one := fun (k : Nat) =>
      let st := readStatus k
      le 2 (k / 256 : Nat) ++ le 1 (k % 256 : Nat) ++ le 1 st ++ if st = St.ok then s.readValue n k else le 1 0
    let l := readItems m.payload
    { status := St.ok, body := le 1 l.length ++ le 3 0 ++ l.flatMap one }

def opBlockRead : Opcode where
  form := fun b => b.length == 12
  role := anyRole
  run := fun s n m =>
    let b := m.payload
    let k := keyAt b 0
    let offset := leAt b 4 4
    if readStatus k ≠ St.ok then refuse (readStatus k)
    else if (Dict.row k).map (·.ty) ≠ some .blob then refuse St.typeMismatch
    else if s.blobTotal n k ≤ offset then refuse St.range
    else {
      status := St.ok,
      body := le 2 (k / 256 : Nat) ++ le 1 (k % 256 : Nat) ++ le 1 0 ++ le 4 offset ++ le 4 (s.blobTotal n k)
        ++ s.blobSlice n k offset (leAt b 8 2) }

/-! ### Writes -/

/-- The writer of a session. -/
def State.writerOf (s : State) (n : Nat) : Writer := ⟨n, ((s.session n).map (·.role)).getD 0⟩

def opWrite : Opcode where
  form := fun b => (writeItem b).isSome
  role := writeRole fun b => [keyAt b 0]
  run := fun s n m =>
    match writeItem m.payload with
    | none => refuse St.range
    | some (k, t, v) =>
      let w := s.writerOf n
      let r := s.writeReply w k (some t) v
      { status := r.1, body := if r.1 = St.ok then le 8 r.2 else [], does := writeDo w k (some t) v s }

/-- The items of a request one after the other, each tested by itself: the answers and what the accepted items do. -/
def eachItem {α : Type} (one : α → State → Nat × Nat × List Effect) : List α → State → List (Nat × Nat) × List Effect
  | [], _ => ([], [])
  | i :: t, s =>
    let (st, time, es) := one i s
    let (l, es') := eachItem one t (s.run es)
    ((st, time) :: l, es ++ es')

/-- The status of the first item that failed (R412). -/
def firstFailed (l : List (Nat × Nat)) : Nat := ((l.find? fun p => p.1 != St.ok).map (·.1)).getD St.ok

def opWritem : Opcode where
  form := fun b => (writeItems b).isSome
  role := writeRole fun b => ((writeItems b).getD []).map (·.1)
  run := fun s n m =>
    let w := s.writerOf n
    let one := fun (i : Nat × Ty × Value) (s : State) =>
      let r := s.writeReply w i.1 (some i.2.1) i.2.2
      (r.1, r.2, writeDo w i.1 (some i.2.1) i.2.2 s)
    let (l, es) := eachItem one ((writeItems m.payload).getD []) s
    let time := (l.map (·.2)).foldl max 0
    { status := firstFailed l, does := es, body := le 1 l.length ++ le 3 0 ++ le 8 time ++ l.flatMap fun p => le 1 p.1 }

/-! ### Block transfers (R414) -/

/-- Bytes of a transfer received so far; the image of an update is counted, not kept (R481). -/
def State.received (s : State) (x : Transfer) : Nat :=
  if x.key = Key.upd.UPDATE_IMAGE then s.units.mgmt.loadGot else x.data.length

/-- A segment refused with CONFLICT carries the bytes received, from which the controller resumes. -/
def blockConflict (got : Nat) : Answer := { status := St.conflict, body := le 4 got ++ le 8 0 }

/-- The answer to a segment that does not complete its transfer. -/
def blockOn (n : Nat) (x : Transfer) (got : Nat) (es : List Effect) : Answer := {
  status := St.ok, body := le 4 got ++ le 8 0,
  does := (.session n fun y => y.map fun y => { y with xfer := some x }) :: es }

/-- The answer to a segment that completes its transfer, whose content is `v` (R396, R414). -/
def State.blockDone (s : State) (w : Writer) (k total : Nat) (v : List Byte) : Answer :=
  let r := s.writeReply w k (some .blob) (.bytes v)
  if r.1 ≠ St.ok then { status := r.1, does := writeRefused w k (some .blob) (.bytes v) r.1 s }
  else {
    status := St.ok, body := le 4 total ++ le 8 r.2,
    does := (.session w.session fun y => y.map fun y => { y with xfer := none }) :: writeDo w k (some .blob) (.bytes v) s }

/-- A segment of the image of an update (R481): only from the session of UPDATE_LOAD, once the bank is erased. -/
def State.imageSegment (s : State) (n offset total len : Nat) : Answer :=
  let m := s.units.mgmt
  let mine := match m.loadHandle.bind s.handle with
    | some h => h.session == n
    | none => false
  let carried := match (s.session n).bind (·.xfer) with
    | some x => x.key == Key.upd.UPDATE_IMAGE
    | none => false
  let got := if carried then m.loadGot else 0
  if s.updState ≠ 1 ∨ !m.loadErased ∨ !mine then blockConflict 0
  else if offset = 0 ∧ (total ≠ m.loadLen ∨ total < len) then refuse St.range
  else if offset ≠ 0 ∧ (!carried ∨ offset ≠ got ∨ total ≠ m.loadLen) then blockConflict got
  else if total < offset + len then refuse St.range
  else
    let sum := offset + len
    let es : List Effect := [
      .mgmt fun m => { m with loadGot := sum, loadAt := s.mtbNs },
      .nat Key.upd.UPDATE_PROGRESS (sum * 100 / max 1 total)]
    if sum = total then {
      status := St.ok, body := le 4 total ++ le 8 0,
      does := (.session n fun y => y.map fun y => { y with xfer := none }) :: es }
    else blockOn n { key := Key.upd.UPDATE_IMAGE, total := total, lastAt := s.mtbNs } sum es

/-- Whether an entry is a role key (Table 13-5). -/
def isKey (k : Nat) : Bool := decide (Key.key.KEY_MONITOR ≤ k ∧ k ≤ Key.key.KEY_SERVICE)

/-- The mask of a key (R402). -/
def keyMask (key : List Byte) (seq : Nat) : List Byte := hmac key (ascii "CDL-KEY" ++ le 4 seq)

/-- A role key is written by one segment of 32 masked bytes (R402). -/
def State.keySegment (s : State) (n k : Nat) (m : CdlMsg) (offset total : Nat) (data : List Byte) : Answer :=
  let key := List.zipWith (fun a b => a ^^^ b) data (keyMask (((s.session n).map (·.key)).getD []) m.sequence)
  if offset ≠ 0 ∨ total ≠ 32 ∨ data.length ≠ 32 ∨ key = List.replicate 32 0 then refuse St.range
  else s.blockDone (s.writerOf n) k 32 key

/-- BLOCK_WRITE (R402, R414, R481). -/
def opBlockWrite : Opcode where
  form := fun b => decide (12 ≤ b.length)
  role := writeRole fun b => [keyAt b 0]
  run := fun s n m =>
    let b := m.payload
    let k := keyAt b 0
    let offset := leAt b 4 4
    let total := leAt b 8 4
    let data := b.drop 12
    let w := s.writerOf n
    let head := firstFault ((s.headFaults w k (some .blob) (.bytes [])).filter fun st => st != St.range)
    if head ≠ St.ok then refuse head
    else match Dict.row k with
      | none => refuse St.noEntry
      | some r =>
        if isKey k then s.keySegment n k m offset total data
        else if !inRanges r.rng total then refuse St.range
        else if k = Key.upd.UPDATE_IMAGE then s.imageSegment n offset total data.length
        else if offset = 0 then
          if total < data.length then refuse St.range
          else if data.length = total then s.blockDone w k total data
          else blockOn n { key := k, total := total, data := data, lastAt := s.mtbNs } data.length []
        else match (s.session n).bind (·.xfer) with
          | none => blockConflict 0
          | some x =>
            if x.key ≠ k ∨ x.total ≠ total ∨ s.received x ≠ offset then blockConflict (s.received x)
            else if total < offset + data.length then refuse St.range
            else if offset + data.length = total then s.blockDone w k total (x.data ++ data)
            else blockOn n { x with data := x.data ++ data, lastAt := s.mtbNs } (offset + data.length) []

/-! ### Transactions -/

/-- One staged item (R415): its status, and what staging it does. -/
def stageOne (w : Writer) (i : Nat × Ty × Value) (s : State) : Nat × Nat × List Effect :=
  let (k, t, v) := i
  let head := firstFault (s.headFaults w k (some t) v)
  let txn := stageItem ((s.txn w.session).getD []) k v
  if head ≠ St.ok then (head, 0, [])
  else if (Dict.row k).map (·.acc) = some .wo then (St.conflict, 0, [])
  else if 65536 < stageBytes txn then (St.stageFull, 0, [])
  else (St.ok, 0, [.session w.session fun x => x.map fun x => { x with txn := some txn }])

/-- STAGE (R415): the header is OK where any item is staged (log 71). -/
def opStage : Opcode where
  form := fun b => (writeItems b).isSome
  role := writeRole fun b => ((writeItems b).getD []).map (·.1)
  run := fun s n m =>
    let (l, es) := eachItem (stageOne (s.writerOf n)) ((writeItems m.payload).getD []) s
    let bytes := stageBytes (((s.run es).txn n).getD [])
    { status := if l.any fun p => p.1 == St.ok then St.ok else firstFailed l, does := es,
      body := le 1 l.length ++ le 3 0 ++ le 4 bytes ++ l.flatMap fun p => le 1 p.1 }

/-- The boundary of a time t and whether it is late, or the status that refuses it (R416). -/
def State.timedBoundary (s : State) (t : Nat) (strict : Bool) : Except Nat (Nat × Bool) :=
  if t = 0 then .ok (s.nextBoundary, false)
  else if t < s.now then if strict then .error St.timePassed else .ok (s.nextBoundary, true)
  else if s.now + 3600000000000 < t then .error St.range
  else .ok (s.boundaryFrom t, false)

/-- The body of a COMMIT response (Table 13-9): boundary, and the entry that failed. -/
def commitBody (boundary k : Nat) : List Byte := le 8 boundary ++ le 2 (k / 256 : Nat) ++ le 1 (k % 256 : Nat) ++ le 1 0

/-- COMMIT (R416). -/
def State.commitAnswer (s : State) (n t : Nat) (strict : Bool) : Answer :=
  let no := fun (st k : Nat) => { status := st, body := commitBody 0 k : Answer }
  match s.session n with
  | none => refuse St.auth
  | some x => match x.txn with
    | none => no St.conflict 0
    | some items =>
      if x.commit.isSome then no St.busy 0
      else match x.rwsTransfer with
        | some k => no St.conflict k
        | none => match s.timedBoundary t strict with
          | .error st => no st 0
          | .ok (boundary, late) =>
            match s.commitFault (s.writerOf n) items boundary false with
            | some (st, k) => { no st k with does := commitRefused n items st false s }
            | none => {
                status := if late then St.late else St.ok,
                body := commitBody boundary 0,
                does := [.session n fun y => y.map fun y => { y with
                  txn := none,
                  commit := some {
                    time := boundary, untimed := t == 0, strict := strict, late := late, items := items, role := x.role } }] }

def opCommit : Opcode where
  form := fun b => b.length == 12
  role := writers
  run := fun s n m => s.commitAnswer n (leAt m.payload 0 8) ((leAt m.payload 8 1).testBit 0)

/-- ABORT (R418). -/
def opAbort : Opcode where
  form := fun b => b.isEmpty
  role := writers
  run := fun s n _ =>
    match s.session n with
    | none => refuse St.auth
    | some x =>
      let cancels := match x.commit with
        | some c => s.commitAhead c
        | none => false
      if x.txn.isNone ∧ !cancels then refuse St.conflict
      else {
        status := St.ok,
        does := (.session n fun y => y.map fun y => { y with
            txn := none, commit := if cancels then none else y.commit }) ::
          if cancels then [.raise Ev.COMMIT_DONE (args16 [n, St.cancelled, 0, 0]) n none] else [] }

/-! ### Claims -/

/-- The areas that a session may claim (R421): 0x10, and those from 0x12 to 0xA0 that hold entries. -/
def claimable (a : Nat) : Bool := (a == 0x10 || decide (0x12 ≤ a ∧ a ≤ 0xA0)) && !(Dict.area a).isEmpty

/-- Areas in which an OPERATOR may write (R401). -/
def operatorClaims : List Nat := [0x10, 0x31, 0x58, 0x59, 0x60, 0x64, 0x90, 0x91]

def opClaim : Opcode where
  form := fun b => b.length == 4
  role := fun role b =>
    if role = 0 ∨ (role = 1 ∧ !operatorClaims.contains (leAt b 0 1)) then St.accessRole else St.ok
  run := fun s n m =>
    let a := leAt m.payload 0 1
    match s.session n with
    | none => refuse St.auth
    | some x =>
      if !claimable a then refuse St.range
      else if x.claims.contains a then { status := St.ok }
      else if 16 ≤ x.claims.length then refuse St.range
      else if (s.areaHolder a).isSome then { status := St.areaOwned, does := [.bump Key.area.CLAIM_REFUSALS 1] }
      else {
        status := St.ok,
        does := [.session n fun y => y.map fun y => { y with claims := y.claims ++ [a] },
          .raise Ev.AREA_CLAIMED (args16 [a, n]) n none] }

/-- RELEASE (R410, R422): area 0x00 ends the session. -/
def opRelease : Opcode where
  form := fun b => b.length == 4
  role := anyRole
  run := fun s n m =>
    let a := leAt m.payload 0 1
    { status := St.ok, does := if a = 0 then sessionEnd n 1 s else areaRelease n a s }

/-! ### Subscriptions (R426) -/

/-- The ranges of a request. -/
def rangesOf (b : List Byte) : List (Nat × Nat) :=
  (List.range (leAt b 0 1)).map fun i => (leAt b (4 + 4 * i) 2, leAt b (6 + 4 * i) 2)

def rangeForm (least : Nat) (b : List Byte) : Bool :=
  decide (4 ≤ b.length) && decide (least ≤ leAt b 0 1 ∧ leAt b 0 1 ≤ 16) && b.length == 4 + 4 * leAt b 0 1

/-- What is left of a range when the codes of another are removed. -/
def rangeLess (r x : Nat × Nat) : List (Nat × Nat) :=
  if x.2 < r.1 ∨ r.2 < x.1 then [r]
  else (if r.1 < x.1 then [(r.1, x.1 - 1)] else []) ++ if x.2 < r.2 then [(x.2 + 1, r.2)] else []

/-- The ranges with some more: an identical one does not count. -/
def rangesAdd (l new : List (Nat × Nat)) : List (Nat × Nat) :=
  new.foldl (fun l r => if l.contains r then l else l ++ [r]) l

/-- The ranges without the codes of some. -/
def rangesLess (l gone : List (Nat × Nat)) : List (Nat × Nat) :=
  if gone.isEmpty then [] else gone.foldl (fun l x => l.flatMap fun r => rangeLess r x) l

/-- A request that changes the ranges of a session, or is refused as a whole. -/
def State.rangesAnswer (s : State) (n : Nat) (b : List Byte) (f : List (Nat × Nat) → List (Nat × Nat) → List (Nat × Nat))
    (body : Session → List Byte) : Answer :=
  match s.session n with
  | none => refuse St.auth
  | some x =>
    let asked := rangesOf b
    let l := f x.ranges asked
    if (asked.any fun r => decide (r.2 < r.1)) || decide (16 < l.length) then refuse St.range
    else { status := St.ok, body := body x, does := [.session n fun y => y.map fun y => { y with ranges := l }] }

def opSubscribe : Opcode where
  form := rangeForm 1
  role := anyRole
  run := fun s n m => s.rangesAnswer n m.payload rangesAdd fun x => le 4 x.nextSeq

def opUnsubscribe : Opcode where
  form := rangeForm 0
  role := anyRole
  run := fun s n m => s.rangesAnswer n m.payload rangesLess fun _ => []

/-! ### Long operations (R423, R424) -/

/-- The handle that the next operation receives (R423): the counter skips 0. -/
def State.nextHandle (s : State) : Nat := s.units.mgmt.handleCtr % 65535 + 1

/-- Operations that run. -/
def State.running (s : State) : Nat := (s.keptHandles.filter fun p => !p.2.finished).length

/-- An operation with code `op` whose arguments pass `form`: refused, or accepted with a handle. -/
def execOpcode (op : Nat) (form : List Byte → Bool) (role : Nat → List Byte → Nat)
    (refused : State → List Byte → Option Nat) (begin : Nat → Nat → List Byte → Phase) : Opcode where
  form := fun b => decide (4 ≤ b.length) && form (b.drop 4)
  role := role
  run := fun s n m =>
    let args := m.payload.drop 4
    if leAt m.payload 0 2 ≠ op then refuse St.noEntry
    else if 64 ≤ s.running then refuse St.busy
    else match refused s args with
      | some st => refuse st
      | none =>
        let h := s.nextHandle
        { status := St.accepted, body := le 2 h ++ le 2 0,
          does := phases [
            always [.mgmt fun x => { x with handleCtr := h }, .handle h fun _ => some { op := op, session := n, startAt := s.mtbNs }],
            begin h n args] s }

/-- Operations of the table but LOADCHECK: ENGINEER and SERVICE (Table 13-4). -/
def engineers (role : Nat) (_b : List Byte) : Nat := if role < 2 then St.accessRole else St.ok

/-- RESTORE_DEFAULTS: ENGINEER only (R400). -/
def engineerOnly (role : Nat) (_b : List Byte) : Nat := if role = 2 then St.ok else St.accessRole

/-- An analysis (R319, R320). -/
def analysisOpcode (op : Nat) (role : Nat → List Byte → Nat) : Opcode :=
  execOpcode op (fun b => b.length == 4) role
    (fun s b => s.analysisRefused op (leAt b 0 2) (leAt b 2 1))
    (fun h n b => analysisAccept h n op (leAt b 0 2) (leAt b 2 1))

/-- PREPARE_REMOVAL (R454). -/
def opRemoval : Opcode :=
  execOpcode 0x0110 (fun b => b.isEmpty) engineers
    (fun s _ => if s.units.mgmt.removal.isSome then some St.conflict else none) (fun h _ _ => removalAccept h)

/-- RESTORE_DEFAULTS (R400). -/
def opRestore : Opcode :=
  execOpcode 0x0B30 (fun b => b.isEmpty) engineerOnly
    (fun s _ => if s.mode ≠ .safe then some St.mode else if s.units.mgmt.restoreDue.isSome then some St.conflict else none)
    (fun h _ _ => always [.mgmt fun m => { m with restoreDue := some h }])

/-- CALIBRATE (R467). -/
def opCalibrate : Opcode :=
  execOpcode 0x0B31 (fun b => b.length == 4) engineers
    (fun s b => if s.calRefused (leAt b 0 2) then some St.conflict else none)
    (fun h _ b => phases [
      always [.handle h fun y => y.map fun y => { y with chans := leAt b 0 2 }],
      if leAt b 0 2 = 0 then handleEnd h St.ok 0 else always []])

/-- UPDATE_LOAD (R481). -/
def opLoad : Opcode :=
  execOpcode 0x0B20 (fun b => b.length == 4) engineers
    (fun s b => if leAt b 0 4 = 0 ∨ 12582912 < leAt b 0 4 then some St.range else if s.loadRefused then some St.conflict else none)
    (fun h _ b => updateLoad h (leAt b 0 4))

/-- UPDATE_ACTIVATE (R482). -/
def opActivate : Opcode :=
  execOpcode 0x0B21 (fun b => b.length == 12) engineers
    (fun s b =>
      if s.updState ≠ 2 then some St.conflict
      else match s.timedBoundary (leAt b 0 8) ((leAt b 8 1).testBit 0) with
        | .error st => some st
        | .ok _ => none)
    (fun h _ b s => match s.timedBoundary (leAt b 0 8) ((leAt b 8 1).testBit 0) with
      | .error _ => []
      | .ok (boundary, late) => updateActivate h boundary late s)

/-- The status of an accepted operation is LATE where its time was already past (R416, R482). -/
def State.activateLate (s : State) (b : List Byte) : Bool :=
  match s.timedBoundary (leAt b 4 8) ((leAt b 12 1).testBit 0) with
  | .ok (_, late) => late
  | .error _ => false

/-- UPDATE_ACTIVATE with the answer LATE (R416, R482). -/
def opActivateLate : Opcode := { opActivate with
  run := fun s n m =>
    let a := opActivate.run s n m
    if a.status = St.accepted ∧ s.activateLate m.payload then { a with status := St.late } else a }

/-- An EXEC of an operation that no chapter defines (R423). -/
def opAbsent : Opcode where
  form := fun b => decide (4 ≤ b.length)
  role := engineers
  run := fun _ _ _ => refuse St.noEntry

/-- A handle record, if it is kept (R423). -/
def State.kept (s : State) (h : Nat) : Option Handle := (s.keptHandles.find? fun p => p.1 == h).map (·.2)

/-- Records that fit a message. -/
def recordsOf (p : Peer) : Nat := (msgLimit p - 4) / 40

/-- An event record (Table 13-14). -/
def eventRecord (seq : Nat) (e : EventRec) : List Byte :=
  le 4 seq ++ le 2 e.code ++ le 2 0 ++ le 8 e.time ++ (e.args ++ List.replicate 24 0).take 24

/-- POLL (R424, R428). -/
def opPoll : Opcode where
  form := fun b => b.length == 8
  role := anyRole
  run := fun s n m =>
    let h := leAt m.payload 0 2
    if h = 0 then
      let l : List (Nat × EventRec) := match s.session n with
        | some x => (x.ring.filter fun r => decide (leAt m.payload 4 4 ≤ r.1)).take (recordsOf m.peer)
        | none => []
      { status := St.ok, body := le 1 l.length ++ le 3 0 ++ l.flatMap fun r => eventRecord r.1 r.2 }
    else match s.kept h with
      | none => refuse St.noEntry
      | some x => {
          status := St.ok,
          body := le 2 h ++ le 1 (if x.finished then 1 else 0) ++ le 1 x.status ++ le 2 x.result ++ le 1 x.progress ++ le 1 0 }

/-- A running operation is cancelled at its next safe point (R424, log 72). -/
def cancelRun (h : Nat) (x : Handle) : Phase := fun s =>
  if isAnalysis x.op then [.handle h fun y => y.map fun y => { y with ending := some St.cancelled, endingAt := s.mtbNs }]
  else match x.op with
    | 0x0B31 =>
      let runs := mask ((ones 16 x.chans).filter fun c => (s.chan c).calForced && s.calHandle c == some h)
      let rest := if runs = x.chans then x.ending else some St.cancelled
      phases [
        always [.handle h fun y => y.map fun y => { y with ending := rest, chans := runs }],
        if runs = 0 then handleEnd h St.cancelled 0 else always []] s
    | 0x0B20 => loadEnd 0 St.cancelled s
    | 0x0B21 => phases [
        always [.num Key.upd.UPDATE_AT 0, .mgmt fun m => { m with actHandle := none }],
        setUpd 2 s.otherBank, handleEnd h St.cancelled 0] s
    | 0x0B30 => phases [always [.mgmt fun m => { m with restoreDue := none }], handleEnd h St.cancelled 0] s
    | _ => phases [always [.mgmt fun m => { m with removal := none }], handleEnd h St.cancelled 0] s

/-- Whether an operation that ends at a block boundary completes at this instant (R400, R424). -/
def State.completesNow (s : State) (x : Handle) : Bool :=
  s.atBoundary && ((x.op == 0x0B30 && s.units.mgmt.served)
    || (x.op == 0x0B21 && decide (s.nat Key.upd.UPDATE_AT ≤ s.blockTime)))

/-- CANCEL (R424, Table 13-4): an OPERATOR cancels its own handles only. -/
def opCancel : Opcode where
  form := fun b => b.length == 4
  role := writers
  run := fun s n m =>
    let h := leAt m.payload 0 2
    match s.kept h with
    | none => refuse St.noEntry
    | some x =>
      if (s.writerOf n).role = 1 ∧ x.session ≠ n then refuse St.accessRole
      else if x.finished || s.completesNow x then refuse St.conflict
      else { status := St.ok, does := cancelRun h x s }

/-- AUTH to an open session has no effect (R406). -/
def opAuth : Opcode where
  form := fun b => b.isEmpty
  role := anyRole
  run := fun _ _ _ => { status := St.ok }

/-! ### Requests that share an opcode, and raw messages -/

/-- A message that fails check 1 of R406 is discarded and counted. -/
def malformed (transport : Nat) (b : List Byte) : Phase := fun s =>
  if !s.serves ∨ checkOne transport b then []
  else [.can fun x => if transport = 2 then { x with assembled := x.assembled.tail } else x, .bump Key.ses.MALFORMED_MSGS 1]

/-- The opcodes of requests (Table 13-9). -/
def requestOpcodes : List Nat :=
  [0x01, 0x02, 0x10, 0x11, 0x12, 0x13, 0x14, 0x15, 0x20, 0x21, 0x22, 0x30, 0x31, 0x40, 0x41, 0x50, 0x51, 0x52]

/-- The operations that chapters define (R423). -/
def operations : List Nat :=
  [0x0110, 0x0910, 0x0911, 0x0912, 0x0913, 0x0914, 0x0B20, 0x0B21, 0x0B30, 0x0B31]

/-- A request whose opcode is unknown or EVENT (R406 check 6), or an EXEC of an absent operation (R423). Any other opcode
makes it a request of another row. -/
def unknownRequest (op : Nat) (m : CdlMsg) : Phase :=
  if op = 0x50 ∧ (m.payload.length < 2 ∨ !operations.contains (leAt m.payload 0 2)) then request 0x50 (some opAbsent) m
  else if requestOpcodes.contains op ∨ 256 ≤ op then always []
  else request op none m

/-- An EXEC of one operation; a payload that names another is a request of another row. -/
def execRequest (op : Nat) (o : Opcode) (m : CdlMsg) : Phase :=
  if 2 ≤ m.payload.length ∧ leAt m.payload 0 2 = op then request 0x50 (some o) m else always []

/-- A BLOCK_WRITE of a role key (R402); one of another entry is a request of another row. -/
def keyRequest (m : CdlMsg) : Phase :=
  if 3 ≤ m.payload.length ∧ isKey (keyAt m.payload 0) then request 0x15 (some opBlockWrite) m else always []

/-- A write of any entry by index, subindex and type code (R393, R395). -/
def anyWrite (index sub ty : Nat) (w : EntryWrite) : Phase := fun s =>
  match Ty.ofCode ty with
  | some t => writeEntry (index * 256 + sub) (some t) w s
  | none => if s.serves then [.unit fun u => { u with answer := (St.range, 0) }] else []

/-! ### Events sent (R427, R428) -/

/-- The EVENT message of a session: the records not yet sent, as many as fit, led by EVT_LOST after a loss. -/
def eventSend (n : Nat) : Phase := fun s =>
  match s.session n with
  | none => []
  | some x =>
    let room := recordsOf x.peer - (if x.lost = 0 then 0 else 1)
    let l := (x.ring.filter fun r => decide (x.sentSeq ≤ r.1)).take room
    match l with
    | [] => []
    | (seq, _) :: _ =>
      if !s.serves ∨ !x.isOpen then []
      else
        let gap := if x.lost = 0 then [] else eventRecord seq (s.eventOf Ev.EVT_LOST (le 4 x.lost) 0)
        let body := le 1 (l.length + if x.lost = 0 then 0 else 1) ++ le 3 0 ++ gap ++ l.flatMap fun r => eventRecord r.1 r.2
        let h := cdlHeader 0 n seq 0x60 0 body.length
        phases [
          always [.session n fun y => y.map fun y => { y with sentSeq := seq + l.length, lost := 0 }],
          cdlSend x.peer 0x480 n (h ++ body ++ cdlTag x.key h body)] s

/-! ### Timeouts -/

/-- SESSION_TIMEOUT (R410). -/
def sessionTimeout (n : Nat) : Phase := fun s =>
  match s.session n with
  | none => []
  | some x =>
    if s.serves ∧ x.isOpen ∧ s.expired x.lastAt (s.nat Key.ses.SESSION_TIMEOUT * 1000000000) then sessionEnd n 0 s else []

/-- A pending session without a valid AUTH for 5 s is freed (R408). -/
def pendingExpiry (n : Nat) : Phase := fun s =>
  match s.session n with
  | none => []
  | some x =>
    if s.serves ∧ !x.isOpen ∧ !x.ended ∧ s.expired x.lastAt 5000000000 then [.session n fun _ => none] else []

/-- A lockout ends 60 s after it began (R409). -/
def lockoutExpiry : Phase := fun s =>
  [.mgmt fun m => { m with lockouts := m.lockouts.filter fun l => decide (s.mtbNs < l.2) }]

/-- A block transfer with no segment for 10 s is discarded (R414). -/
def transferTimeout (n : Nat) : Phase := fun s =>
  match (s.session n).bind (·.xfer) with
  | none => []
  | some x =>
    if s.serves ∧ s.expired x.lastAt 10000000000 then [.session n fun y => y.map fun y => { y with xfer := none }] else []

/-- The record of a handle is discarded 60 s after completion (R423). -/
def handleExpiry (h : Nat) : Phase := fun s =>
  match s.handle h with
  | none => []
  | some x => if x.finished ∧ x.doneAt + 60000000000 ≤ s.mtbNs then [.handle h fun _ => none] else []

end Sys2Proof.Machine
end

