-- ==== Sys2Proof/Machine/Boundary.lean ====
section
/-!
DEFINITION. Machine/Boundary.lean: the instants that the device's own clocks bring: reference ticks (R46), sample strobes
(R53), loop-engine ticks (R207) and block boundaries (R77, R184), with the work of every unit in its order; writes and
commits that fall due (R395, R417); the return to defaults (R400).
-/

namespace Sys2Proof.Machine

/-! ### Sample strobes -/

/-- A sample strobe (R53): inputs, sources, renderer, chains, gates, outputs, in the order of the signal. -/
def sampleStrobe (x : StrobeSense) : Phase := fun s =>
  phases [
    senseHistory,
    genStrobe, portInputs x.sdi, renderStrobe, chainStrobe, portOutputs, analysisStrobe, measureStrobe,
    forAll (List.range 16) gateSample,
    capStrobe, forAll (List.range 8) monStrobe, clockPins,
    always [.nat Key.mtb.SAMPLE_INDEX s.sampleNow]] s

/-! ### Loop-engine ticks -/

/-- The largest sensed current of a channel, mA (Table 09-11). -/
def peakSeen (c : Nat) : Phase := fun s =>
  let ma : Nat := min 65535 ((s.chan c).iSense.natAbs * 1000 / 16777216)
  if (ma : Int) ≤ s.num (Key.prot.I_PEAK_SEEN c) then [] else [.nat (Key.prot.I_PEAK_SEEN c) ma]

/-- A loop-engine tick (R207): generators on the loop grid, the engine, calibrations and captures. -/
def loopInstant (x : LoopSense) : Phase := fun s => phases [
  genTick, loopTick x, analysisTick, forAll (List.range 16) peakSeen, forAll (List.range 16) calTick, readP State.tickNow capTick, withdrawalGates, engageBack,
  always [.nat Key.loop.TICK_INDEX s.tickNow]] s

/-! ### Block boundaries -/

/-- The strobe's error against the MTB instant (R53). -/
def phaseError (ns : Int) : Phase := always [.num Key.mtb.SAMPLE_PHASE_ERR (max (-32768) (min 32767 ns))]

/-- The states at the sample instants of the play block that begins, as far as their strobe has not run: what generators,
renderer and the chains of `l` make of the inputs that are at hand (R181, R184). Beside each, how far back the input of two
blocks ago stands. -/
def State.ahead (s : State) (l : List Nat) : List (Nat × State) :=
  let first := if s.strobed then 1 else 0
  ((List.range (s.B - first)).foldl (fun (a : State × List (Nat × State)) k =>
      let t := (a.1.atSample (s.blockSample + first + k)).does
        (phases [genStrobe, renderStrobe, forAll l fun c => chainStep c (2 * s.B - s.lead - 1 - k)])
      (t, (2 * s.B - 1 - k, t) :: a.2)) (s, [])).2.reverse

/-- Stage 8 of a channel for the play block that begins, sample by sample (R256). -/
def State.foresee (s : State) (c : Nat) : List Int :=
  (if s.strobed then [(s.chan c).s8] else []) ++ (s.ahead [c]).map fun p => (p.2.chan c).s8

/-- The frames of a monitor stream for that block (R374). -/
def State.monAhead (s : State) (k : Nat) : List (List Int) :=
  (s.ahead (if s.mode.chains then List.range 16 else [])).map fun p => p.2.monFrame k p.1

/-- Every P entry but the role keys that does not stand at its default, or whose stored value does not, with the default
(R400). -/
def State.toDefaults (s : State) : List (Nat × Value) :=
  let keys := s.dict.map (·.1) ++ (s.store.map (·.1)).filter fun k => !(s.dict.any fun p => p.1 == k)
  keys.filterMap fun k => match Dict.row k with
    | some r => if r.p ∧ k / 256 ≠ 0x1110 then some (k, Dict.dflt k) else none
    | none => none

/-- RESTORE_DEFAULTS at its boundary (R400): the defaults take effect and are stored, and the operation completes. -/
def restoreDefaults : Phase := fun s =>
  match s.units.mgmt.restoreDue with
  | none => []
  | some h =>
    if !s.units.mgmt.served ∨ !s.atBoundary then []
    else phases [
      always [.mgmt fun m => { m with restoreDue := none }],
      commitApplied ⟨0, 2⟩ s.toDefaults, handleEnd h St.ok 0] s

/-- A block boundary (R77, R184): the deadlines of the period that ends, the slots and changes that take effect, then the
block work of every unit. -/
def blockInstant (x : BlockSense) : Phase := phases [
  lanesDeadline, forAll (List.range 16) probeDue, slotsTake, boundaryChanges, modeFollows, updateBoundary, restoreDefaults,
  readP State.knownSubs (fun l => forAll l layoutsCompare),
  readP State.knownSubs (fun l => forAll l streamCut),
  lanesPeriod, groupsTurn, renderBoundary,
  forAll (List.range 16) chainBoundary,
  forAll (List.range 16) (fun c => modelBoundary c State.foresee),
  forAll (List.range 4) (fun g => phases [busMeasure g, busCeiling g (x.ibus.getD g 0), groupBoundary g]),
  forAll (List.range 16) shortBoundary, forAll (List.range 16) gateBoundary, forAll (List.range 4) trimApply, forAll (List.range 16) probeBoundary,
  measureBoundary, portBoundary, engineStart, thrDue, thrTime, netBoundary State.monAhead, calBoundary,
  faultPin, guardBoundary,
  forAll (List.range 16) energyBlock,
  phaseError x.phaseErr]

/-- A lane task finishes (R192); the late run of a model publishes what it has computed (R196). -/
def taskEnds (l t : Nat) : Phase := fun s => phases [
  taskFinish l t,
  match s.lateRun l t with
  | some x => if s.finishes l t ∧ 48 ≤ t then modelEnds (t - 48) x.deadline else always []
  | none => always []] s

/-! ### Writes that fall due by themselves -/

/-- What still waits for its boundary takes effect there (R395). -/
def deferredWrites : Phase := atBlock waitingApply

/-- The commits that fall due (R417). -/
def dueCommits : Phase := atBlock commitsDue

/-- The waiting write of one entry takes effect (R395). -/
def takeWaiting (k : Nat) : Phase := fun s =>
  let (mine, rest) := s.units.waiting.partition fun w => w.key == k
  phases [
    always [.unit fun u => { u with waiting := rest }],
    forAll mine (fun x => entryTakes ⟨x.session, x.role⟩ x.key x.value)] s

/-- A change of mode that waits takes effect (R431, R432): a written request, then that of a planned removal. -/
def modeChange : Phase := atBlock (phases [takeWaiting Key.mode.MODE_REQUEST, modePending])

/-- A hand-over that waits takes effect (R73). -/
def handoverChange : Phase := atBlock (takeWaiting Key.ref.REF_DOMAIN)

/-- A step that may anchor media time anew (R64, R65): the streams and the renderer's queues follow (R109, R123), and the ports where
the sample rate has changed (R333); a port that has started has begun, whatever the new time (R78). -/
def anchorStep (p : Phase) : Phase := fun s => phases [
  p, fun t => if t.num Key.mtb.REANCHOR_COUNT = s.num Key.mtb.REANCHOR_COUNT then [] else phases [
    streamsReanchor, renderReanchor, always ((List.range 4).map fun p => .port p fun x => { x with startAt := 0 }), if s.units.anchor.fsChanged then portsRestart else always []] t] s

/-- A stop begins where a cause of Table 09-6 stands: for an orderly stop, which begins at a block boundary (R281), CH_EN or the mode;
for a fast stop a fence of cause THERMAL or LOOP, ENGAGE_N high or the absence guard. -/
def stopCaused (c : Nat) (fast : Bool) : Phase := fun s =>
  let m := s.nat (Key.prot.FENCE_CAUSE c)
  let cause := if fast then m.testBit 2 || m.testBit 3 || s.units.pins.engageN || s.units.mgmt.stopAll
    else s.atBoundary && (!s.flag (Key.pw.CH_EN c) || !s.modeRuns c)
  if cause then stopBegin c fast s else []

end Sys2Proof.Machine
end

