-- ==== Sys2Proof/Machine/ActionCmds.lean ====
section
/-!
DEFINITION. Machine/ActionCmds.lean: the meanings of the commands of scheduled actions (R74-R77) and start groups (R78-R80).
-/

namespace Sys2Proof.Machine

/-- R74. A write of ACT_STATE arms, disarms or idles a scheduled action after the checks of R76. -/
def execActStateWrite (a : Fin 64) (w : EntryWrite) (s : State) : Host.Outcome State Fault Refusal :=
  s.goes (writeEntry (Key.act.ACT_STATE a) none w)

/-- R76. A due WRITE action writes its target entry with the role of the arming session. -/
def execActionWrite (a : Fin 64) (s : State) : Host.Outcome State Fault Refusal := s.goes (actionWrite a)

/-- R420. A due COMMIT action commits the named session's open transaction. -/
def execActionCommit (a : Fin 64) (s : State) : Host.Outcome State Fault Refusal := s.goes (actionCommit a)

/-- R74. A due MODE action requests a mode change. -/
def execActionMode (a : Fin 64) (s : State) : Host.Outcome State Fault Refusal := s.goes (actionMode a)

/-- R79. A due START action starts a start group. -/
def execActionStart (a : Fin 64) (s : State) : Host.Outcome State Fault Refusal := s.goes (actionStart a)

/-- R499. A due GPIO action drives a GPIO output at a sample instant. -/
def execActionGpio (a : Fin 64) (s : State) : Host.Outcome State Fault Refusal := s.goes (actionGpio a)

/-- R80. A write of SG_STATE arms or disarms a start group. -/
def execSgStateWrite (g : Fin 8) (w : EntryWrite) (s : State) : Host.Outcome State Fault Refusal :=
  s.goes (writeEntry (Key.sg.SG_STATE g) none w)

/-- R79. A write of SG_GO starts an armed start group at a time. -/
def execSgGo (g : Fin 8) (w : EntryWrite) (s : State) : Host.Outcome State Fault Refusal :=
  s.goes (writeEntry (Key.sg.SG_GO g) none w)

/-- R79. A selected GPIO input edge is captured against the MTB and fixes a start sample 4 sample periods later. -/
def execGpioInputEdge (pin : Fin 8) (rising : Bool) (s : State) : Host.Outcome State Fault Refusal :=
  s.goes (gpioEdge pin rising)

/-- R78. At the start sample all armed members of the group begin together. -/
def execStartSample (g : Fin 8) (s : State) : Host.Outcome State Fault Refusal := s.goes (startSample g)

end Sys2Proof.Machine
end

