-- ==== Sys2Proof/Machine/ChainCmds.lean ====
section
/-!
DEFINITION. Machine/ChainCmds.lean: the meanings of the commands of the channel chain: zero-crossing waits (R154, R362), fallback (R178-R180), ceilings (R171), FIR banks (R165).
-/

namespace Sys2Proof.Machine

/-- R362. A zero or a sign change of the watched signal applies a waiting change at that sample. -/
def execZeroCrossing (key : Nat) (s : State) : Host.Outcome State Fault Refusal := s.goes (zeroCrossing key)

/-- R362. No crossing within ZC_TIMEOUT applies the change as a 32-sample ramp. -/
def execZcWaitTimeout (key : Nat) (s : State) : Host.Outcome State Fault Refusal := s.goes (zcTimeout key)

/-- R178. A network lost for FALLBACK_DELAY, or entry into HOLDOVER, starts the switch to the fallback source. -/
def execFallbackEngage (c : Fin 16) (s : State) : Host.Outcome State Fault Refusal := s.goes (fallbackEngage c)

/-- R179. Network sources receiving for 2 s outside HOLDOVER start the return to the network. -/
def execFallbackRelease (c : Fin 16) (s : State) : Host.Outcome State Fault Refusal := s.goes (fallbackRelease c)

/-- R180. A fallback crossfade completes, and the opposite switch is judged afresh. -/
def execFallbackCrossfadeEnd (c : Fin 16) (s : State) : Host.Outcome State Fault Refusal := s.goes (fallbackEnd c)

/-- R171. An applied gain pinned for 10 s raises CEILING_PINNED. -/
def execCeilingPinned (c : Fin 16) (s : State) : Host.Outcome State Fault Refusal := s.goes (ceilingPinned c)

/-- R165. The FIR bank crossfade ends and FIR_SWITCHED is raised. -/
def execFirCrossfadeEnd (c : Fin 16) (s : State) : Host.Outcome State Fault Refusal := s.goes (firEnd c)

end Sys2Proof.Machine
end

