-- ==== Sys2Proof/Machine/ClockCmds.lean ====
section
/-!
DEFINITION. Machine/ClockCmds.lean: the meanings of the commands of ticks, strobes and boundaries (R46, R53, R77, R207, R275) and what falls due there (R395, R400, R417).
-/

namespace Sys2Proof.Machine

/-- R46. Each 98.304 MHz reference tick adds INC to every time base counter. -/
def execReferenceTick (s : State) : Host.Outcome State Fault Refusal :=
  .next ({ s with mtb := s.mtb + BitVec.ofInt 96 (s.num Key.mtb.INC) }.does tickRest)

/-- R53. A sample strobe from the synthesizer drives the sample instants, master ports, AOUT, slips and the chain
gate ramps. -/
def execSampleStrobe (x : StrobeSense) (s : State) : Host.Outcome State Fault Refusal := s.goes (sampleStrobe x)

/-- R207. A 96 kHz loop-engine tick executes the slots that are due and runs the flowstone learners. -/
def execLoopTick (x : LoopSense) (s : State) : Host.Outcome State Fault Refusal := s.goes (loopInstant x)

/-- R275. Each carrier period updates the bus estimate, computes the modulation index and places the edges of each
bridge. -/
def execCarrierPeriod (g : Fin 4) (vk : Int) (peaks : List (Int × Int)) (s : State) : Host.Outcome State Fault Refusal :=
  s.goes (carrierGroup g vk peaks)

/-- R77. A block boundary runs, in order, the actions, the timed commits and the writes due there, and hands
complete blocks to the dispatcher. -/
def execBlockBoundary (x : BlockSense) (s : State) : Host.Outcome State Fault Refusal := s.goes (blockInstant x)

/-- R395. Writes waiting for a block boundary take effect there, the last accepted value of each entry winning. -/
def execDeferredWriteApply (s : State) : Host.Outcome State Fault Refusal := s.goes deferredWrites

/-- R417. A pending commit is tested again at its boundary and applied atomically and persisted, or discarded. -/
def execCommitApply (s : State) : Host.Outcome State Fault Refusal := s.goes dueCommits

/-- R400. At the next boundary every P entry except the role keys returns to its default and is stored. -/
def execRestoreDefaultsApply (s : State) : Host.Outcome State Fault Refusal := s.goes restoreDefaults

end Sys2Proof.Machine
end

