-- ==== Sys2Proof/Machine/ConeCmds.lean ====
section
/-!
DEFINITION. Machine/ConeCmds.lean: the meanings of the commands of cone control: pilot windows (R250), observers (R254), hard limits (R263, R264), drift (R268).
-/

namespace Sys2Proof.Machine

/-- R250. Each one-second pilot window is demodulated and accepted, correcting the observer, or rejected. -/
def execPilotWindowEnd (c : Fin 16) (k : Nat) (s : State) : Host.Outcome State Fault Refusal := s.goes (pilotWindowEnd c k)

/-- R254. The observer state is written to the ferroelectric store every 10 s. -/
def execObserverStore (s : State) : Host.Outcome State Fault Refusal := s.goes observerStore

/-- R254. At the first LOCKED after dawn, the stored observer is cooled by the elapsed time. -/
def execObserverCoolOnLock (s : State) : Host.Outcome State Fault Refusal := s.goes observerCool

/-- R263. A coil above the hard limit for 2 s releases and fences the channel. -/
def execThermalHard (c : Fin 16) (s : State) : Host.Outcome State Fault Refusal := s.goes (thermalHard c)

/-- R264. A coil below the resume margin clears the thermal fence and the channel starts. -/
def execThermalResumed (c : Fin 16) (s : State) : Host.Outcome State Fault Refusal := s.goes (thermalResumed c)

/-- R268. Each 10 s window fits the resonance, reports FS_TRACKED and may raise SUSPENSION_CHANGE. -/
def execDriftWindowEnd (c : Fin 16) (a b : Nat) (s : State) : Host.Outcome State Fault Refusal :=
  s.goes (driftWindowEnd c a b)

end Sys2Proof.Machine
end

