-- ==== Sys2Proof/Machine/LaneCmds.lean ====
section
/-!
DEFINITION. Machine/LaneCmds.lean: the meanings of the commands of lanes, deadlines and throttle (R181-R206).
-/

namespace Sys2Proof.Machine

/-- R192. A lane task finishes, and its slack is recorded. -/
def execTaskFinish (l : Fin 16) (t : Fin 64) (s : State) : Host.Outcome State Fault Refusal := s.goes (taskEnds l t)

/-- R193. At the render cut, unfinished render tasks are dropped and concealed. -/
def execRenderCut (s : State) : Host.Outcome State Fault Refusal := s.goes renderCut

/-- R200. A lane self-test completes, and a checksum mismatch fences the lane. -/
def execLaneSelfTest (l : Fin 16) (pass : Bool) (speed : Nat) (s : State) : Host.Outcome State Fault Refusal :=
  s.goes (laneSelfTest l pass speed)

/-- R201. 4 block periods without a finished task fence the lane with cause 3. -/
def execLaneStall (l : Fin 16) (s : State) : Host.Outcome State Fault Refusal := s.goes (laneStall l)

/-- R202. The former lantern lane runs the fenced lane's tasks from play block j + 2. -/
def execLaneMigrationDone (s : State) : Host.Outcome State Fault Refusal := s.goes laneMigrationDone

/-- R203. The device re-places the tasks and names a new lantern lane, or runs without one. -/
def execLanternReplace (s : State) : Host.Outcome State Fault Refusal := s.goes lanternReplace

/-- R204. A clear runs 16 self-tests, and the lane becomes healthy when they pass. -/
def execLaneFenceClear (l : Fin 16) (w : EntryWrite) (s : State) : Host.Outcome State Fault Refusal :=
  s.goes (writeEntry (Key.lane.FENCE_CLEAR l) none w)

/-- R205. The lantern lane loads new microcode and takes over the next lane's tasks, or the rotation fails and rolls
back. -/
def execMicrocodeRotationStep (ok : Bool) (s : State) : Host.Outcome State Fault Refusal := s.goes (microcodeStep ok)

/-- R197. A droop sensor reading below a threshold raises the throttle level within 1 µs. -/
def execThrottleRise (sensor mv : Nat) (s : State) : Host.Outcome State Fault Refusal :=
  s.goes (throttleRise sensor mv)

/-- R198. 10 ms above the threshold plus 10 mV lowers the throttle by one level. -/
def execThrottleFall (s : State) : Host.Outcome State Fault Refusal := s.goes throttleFall

/-- R192. At the end of each SLACK_WINDOW the minimum slacks and TEST_INTERVAL are published and a new window
begins. -/
def execSlackWindowEnd (s : State) : Host.Outcome State Fault Refusal := s.goes slackWindowEnd

end Sys2Proof.Machine
end

