-- ==== Sys2Proof/Machine/LoopCmds.lean ====
section
/-!
DEFINITION. Machine/LoopCmds.lean: the meanings of the commands of loop slots (R207-R236) and flowstone learners (R237-R243).
-/

namespace Sys2Proof.Machine

/-- R223. A write of STATE_REQ opens or closes a slot at its next execution after the boundary. -/
def execStateReqWrite (n : Fin 64) (w : EntryWrite) (s : State) : Host.Outcome State Fault Refusal :=
  s.goes (writeEntry (Key.ls.STATE_REQ n) none w)

/-- R224. A write of MAN sets the manual output target of an open slot. -/
def execManWrite (n : Fin 64) (w : EntryWrite) (s : State) : Host.Outcome State Fault Refusal :=
  s.goes (writeEntry (Key.ls.MAN n) none w)

/-- R229. The supervisor count reaching FE_TIME trips the slot as FE_ACTION gives. -/
def execFollowingErrorTrip (n : Fin 64) (s : State) : Host.Outcome State Fault Refusal :=
  s.goes (followingErrorTrip n)

/-- R233. A clear verifies the slot's check code and returns the slot to OPEN. -/
def execSlotFenceClear (n : Fin 64) (w : EntryWrite) (s : State) : Host.Outcome State Fault Refusal :=
  s.goes (writeEntry (Key.ls.FENCE_CLEAR n) none w)

/-- R239. A write of FL_ENABLE starts a learner in LEARNING or SEARCH, or disables it. -/
def execFlEnableWrite (g : Fin 4) (w : EntryWrite) (s : State) : Host.Outcome State Fault Refusal :=
  s.goes (writeEntry (Key.fl.FL_ENABLE g) none w)

/-- R240. A write of FL_CLEAR fades the correction and restarts the learner. -/
def execFlClear (g : Fin 4) (w : EntryWrite) (s : State) : Host.Outcome State Fault Refusal :=
  s.goes (writeEntry (Key.fl.FL_CLEAR g) none w)

/-- R238. The ripple tracker locks and a searching learner enters LEARNING. -/
def execFlTrackerLock (g : Fin 4) (period : Nat) (s : State) : Host.Outcome State Fault Refusal :=
  s.goes (flTrackerLock g period)

/-- R238. The ripple tracker loses lock and the learner enters SEARCH. -/
def execFlTrackerLoss (g : Fin 4) (s : State) : Host.Outcome State Fault Refusal := s.goes (flTrackerLoss g)

/-- R239. A quiet window of one period or 20 ms returns a learner from HOLD to LEARNING. -/
def execFlHoldWindowEnd (g : Fin 4) (s : State) : Host.Outcome State Fault Refusal := s.goes (flHoldWindowEnd g)

/-- R240. After 1,920 ticks the correction reaches 0 and the buffer is cleared. -/
def execFlFadeDone (g : Fin 4) (s : State) : Host.Outcome State Fault Refusal := s.goes (flFadeDone g)

/-- R241. A clear lifts a learner fence as if FL_ENABLE 1 had taken effect. -/
def execLearnerFenceClear (g : Fin 4) (w : EntryWrite) (s : State) : Host.Outcome State Fault Refusal :=
  s.goes (writeEntry (Key.fl.FENCE_CLEAR g) none w)

end Sys2Proof.Machine
end

