-- ==== Sys2Proof/Machine/MeasureCmds.lean ====
section
/-!
DEFINITION. Machine/MeasureCmds.lean: the meanings of the commands of measurement: channels (R305), generators (R309-R313), captures (R314-R318), results (R320).
-/

namespace Sys2Proof.Machine

/-- R305. Setting or clearing a bit of MEAS_CHANNELS starts or stops that channel in MEASURE. -/
def execMeasChannelsWrite (w : EntryWrite) (s : State) : Host.Outcome State Fault Refusal :=
  s.goes (writeEntry Key.meas.MEAS_CHANNELS none w)

/-- R310. A write of G_STATE starts, arms or stops a generator. -/
def execGStateWrite (g : Fin 4) (w : EntryWrite) (s : State) : Host.Outcome State Fault Refusal :=
  s.goes (writeEntry (Key.gen.G_STATE g) none w)

/-- R311. A level write ramps a running generator over G_FADE samples. -/
def execGLevelWrite (g : Fin 4) (w : EntryWrite) (s : State) : Host.Outcome State Fault Refusal :=
  s.goes (writeEntry (Key.gen.G_LEVEL g) none w)

/-- R310. A generator begins injecting at its block boundary or start sample. -/
def execGeneratorStart (g : Fin 4) (s : State) : Host.Outcome State Fault Refusal := s.goes (generatorStart g)

/-- R310. A generator reaches the end of G_DURATION and falls to IDLE. -/
def execGeneratorEnd (g : Fin 4) (s : State) : Host.Outcome State Fault Refusal := s.goes (generatorEnd g)

/-- R317. A write of C_STATE arms a capture and allocates its memory, or frees it. -/
def execCStateWrite (k : Fin 8) (w : EntryWrite) (s : State) : Host.Outcome State Fault Refusal :=
  s.goes (writeEntry (Key.cap.C_STATE k) none w)

/-- R318. The trigger condition of an armed capture is met at a sample. -/
def execCaptureTrigger (k : Fin 8) (s : State) : Host.Outcome State Fault Refusal := s.goes (captureTrigger k)

/-- R318. A capture has recorded C_LENGTH samples and becomes DONE. -/
def execCaptureDone (k : Fin 8) (s : State) : Host.Outcome State Fault Refusal := s.goes (captureDone k)

/-- R320. A write of RES_FREE returns a result object to FREE. -/
def execResFree (r : Fin 64) (w : EntryWrite) (s : State) : Host.Outcome State Fault Refusal :=
  s.goes (writeEntry (Key.res.RES_FREE r) none w)

end Sys2Proof.Machine
end

