-- ==== Sys2Proof/Machine/ModeCmds.lean ====
section
/-!
DEFINITION. Machine/ModeCmds.lean: the meanings of the commands of modes (R431-R436), twilight (R445-R448), control pins (R443, R444), live insertion and removal (R449-R455).
-/

namespace Sys2Proof.Machine

/-- R431. A write of MODE_REQUEST requests SAFE, STANDBY, RUN or MEASURE for the next block boundary. -/
def execModeRequest (w : EntryWrite) (s : State) : Host.Outcome State Fault Refusal :=
  s.goes (writeEntry Key.mode.MODE_REQUEST none w)

/-- R432. A requested mode transition takes place at its block boundary and starts the stops and starts it causes. -/
def execModeChangeApply (s : State) : Host.Outcome State Fault Refusal := s.goes modeChange

/-- R433. The setup that leaves SAFE ends, and the device enters STANDBY or MEASURE. -/
def execSetupComplete (s : State) : Host.Outcome State Fault Refusal := s.goes setupComplete

/-- R435. A waiting RUN request enters RUN at the first block boundary at which the lock condition holds. -/
def execRunEntryOnLock (s : State) : Host.Outcome State Fault Refusal := s.goes runEntry

/-- R445. Lock state HOLDOVER held for 3 s takes the device from RUN to HOLDOVER. -/
def execHoldoverEntry (s : State) : Host.Outcome State Fault Refusal := s.goes holdoverEntry

/-- R446. The source returns and the device goes back from HOLDOVER to RUN. -/
def execHoldoverReturn (s : State) : Host.Outcome State Fault Refusal := s.goes holdoverReturn

/-- R447. HOLDOVER_ELAPSED reaching HOLDOVER_MAX takes the device to STANDBY. -/
def execHoldoverExpired (s : State) : Host.Outcome State Fault Refusal := s.goes holdoverExpired

/-- R444. A filtered low on MUTE_N brings every playing channel's chain gate to 0. -/
def execMuteNLow (s : State) : Host.Outcome State Fault Refusal := s.goes (mutePin false)

/-- R444. A filtered high on MUTE_N restores each muted channel through a zero-crossing wait and chain ramp. -/
def execMuteNHigh (s : State) : Host.Outcome State Fault Refusal := s.goes (mutePin true)

/-- R452. A filtered high on ENGAGE_N fast-stops every channel and withdraws the groups. -/
def execEngageNHigh (s : State) : Host.Outcome State Fault Refusal := s.goes engageHigh

/-- R452. A filtered low on ENGAGE_N updates PIN_STATE, starts the 100 ms count toward the group ramps and ends a
removal hold after a high. -/
def execEngageNLow (s : State) : Host.Outcome State Fault Refusal := s.goes engageLow

/-- R452. Once every bridge is released, every HS_GATE is pulled low and the groups become NOT_READY. -/
def execWithdrawalGatesOff (s : State) : Host.Outcome State Fault Refusal := s.goes withdrawalGates

/-- R449. ENGAGE_N low for 100 ms in SAFE or later starts each group's staggered bus ramp. -/
def execHotswapRampStart (g : Fin 4) (s : State) : Host.Outcome State Fault Refusal := s.goes (hsRampStart g)

/-- R450. A fully enhanced gate with VBUS in range reports power-good and ends NOT_READY. -/
def execHotswapPowerGood (g : Fin 4) (mv : Nat) (s : State) : Host.Outcome State Fault Refusal :=
  s.goes (hsPowerGood g mv)

/-- R450. A group whose gate or VBUSg leaves the power-good conditions stops reporting power-good and returns to
NOT_READY, holding its learner. -/
def execPowerGoodLost (g : Fin 4) (s : State) : Host.Outcome State Fault Refusal := s.goes (powerGoodLost g)

/-- R451. A current limit held for 20 ms turns the gate off, and the third fault latches it. -/
def execHotswapFault (g : Fin 4) (s : State) : Host.Outcome State Fault Refusal := s.goes (hsFault g)

/-- R451. 2 s after a fault the ramp is retried. -/
def execHotswapRetry (g : Fin 4) (s : State) : Host.Outcome State Fault Refusal := s.goes (hsRetry g)

/-- R477. A clear resets a group's hot-swap fault count and allows a ramp. -/
def execHsClear (w : EntryWrite) (s : State) : Host.Outcome State Fault Refusal :=
  s.goes (writeEntry Key.hs.HS_CLEAR none w)

/-- R454. With every bridge released the gates drop, state is flushed and the operation completes. -/
def execRemovalComplete (s : State) : Host.Outcome State Fault Refusal := s.goes removalComplete

end Sys2Proof.Machine
end

