-- ==== Sys2Proof/Machine/NetworkCmds.lean ====
section
/-!
DEFINITION. Machine/NetworkCmds.lean: the meanings of the commands of MACs (R366-R378), IP and multicast (R379-R382), CAN FD (R385-R389).
-/

namespace Sys2Proof.Machine

/-- R366. A MAC link goes up, down or is refused. -/
def execLinkChange (m : Fin 2) (speed : Nat) (full : Bool) (s : State) : Host.Outcome State Fault Refusal :=
  s.goes (linkChange m speed full)

/-- R369. A received Ethernet frame is checked, VLAN-handled, filtered and routed to the stream engine or the ring. -/
def execFrameReceive (m : Fin 2) (bytes : List Byte) (fcsOk : Bool) (s : State) : Host.Outcome State Fault Refusal :=
  s.goes (frameReceive m bytes fcsOk)

/-- R372. A waiting frame enters the transmit FIFO by priority when it fits, and is sent. -/
def execTxFifoEnter (m : Fin 2) (s : State) : Host.Outcome State Fault Refusal := s.goes (txFifoEnter m)

/-- R375. A monitor packet not in the FIFO one block period after queueing is discarded. -/
def execMonitorDrop (k : Fin 8) (s : State) : Host.Outcome State Fault Refusal := s.goes (monitorDrop k)

/-- R380. An IGMP query is answered for the groups in use. -/
def execIgmpQuery (m : Fin 2) (version group : Nat) (s : State) : Host.Outcome State Fault Refusal :=
  s.goes (igmpQuery m version group)

/-- R380. An unsolicited report is sent again 1 s after a join or leave. -/
def execIgmpReportRepeat (m : Fin 2) (s : State) : Host.Outcome State Fault Refusal := s.goes (igmpReportRepeat m)

/-- R381. An ARP request or reply is answered and cached. -/
def execArpPacket (m : Fin 2) (op sip smac tip : Nat) (s : State) : Host.Outcome State Fault Refusal :=
  s.goes (arpPacket m op sip smac tip)

/-- R381. An ARP cache entry expires after 300 s. -/
def execArpCacheExpiry (m : Fin 2) (s : State) : Host.Outcome State Fault Refusal := s.goes (arpCacheExpiry m)

/-- R381. An echo request is answered, at most 10 per second per MAC. -/
def execIcmpEcho (m : Fin 2) (src : Nat) (body : List Byte) (s : State) : Host.Outcome State Fault Refusal :=
  s.goes (icmpEcho m src body)

/-- R382. A DHCP reply gives or renews a lease that replaces the address at the next boundary. -/
def execDhcpMessage (m : Fin 2) (type addr prefixLen leaseS : Nat) (s : State) : Host.Outcome State Fault Refusal :=
  s.goes (dhcpMessage m type addr prefixLen leaseS)

/-- R382. No lease DHCP_FALLBACK seconds after link-up takes a link-local address. -/
def execDhcpFallbackTimeout (m : Fin 2) (s : State) : Host.Outcome State Fault Refusal := s.goes (dhcpFallback m)

/-- R382. Every 60 s on link-local, the device asks again for a lease. -/
def execDhcpRetry (m : Fin 2) (s : State) : Host.Outcome State Fault Refusal := s.goes (dhcpRetry m)

/-- R382. A detected address conflict is defended once, or a new link-local address is taken. -/
def execAddressConflict (m : Fin 2) (addr : Nat) (s : State) : Host.Outcome State Fault Refusal :=
  s.goes (addressConflict m addr)

/-- R388. A CAN FD request segment is reassembled into a CDL request or discarded. -/
def execCanFrameReceive (id : Nat) (fd ext : Bool) (data : List Byte) (s : State) : Host.Outcome State Fault Refusal :=
  s.goes (canFrameReceive id fd ext data)

/-- R388. 100 ms without a segment discards the request being assembled. -/
def execCanReasmTimeout (s : State) : Host.Outcome State Fault Refusal := s.goes canReasmTimeout

/-- R387. A segment of a response or event message is sent on CAN FD. -/
def execCanFrameSend (s : State) : Host.Outcome State Fault Refusal := s.goes canFrameSend

/-- R389. The controller's bus state changes, including recovery from bus-off after 128 × 11 recessive bits. -/
def execCanStateChange (new tec rec : Nat) (s : State) : Host.Outcome State Fault Refusal :=
  s.goes (canStateChange new tec rec)

end Sys2Proof.Machine
end

