-- ==== Sys2Proof/Machine/OperationCmds.lean ====
section
/-!
DEFINITION. Machine/OperationCmds.lean: the meanings of the commands of long operations (R423): analyses (R319-R330), removal (R454), defaults (R400), calibration (R467), updates (R481, R482).
-/

namespace Sys2Proof.Machine

/-- R323. EXEC 0x0910 starts an impedance sweep on the masked channels. -/
def execImpedance (m : CdlMsg) (s : State) : Host.Outcome State Fault Refusal :=
  s.goes (execRequest 0x0910 (analysisOpcode 0x0910 engineers) m)

/-- R324. EXEC 0x0911 measures the impedance and fits the driver model. -/
def execIdentify (m : CdlMsg) (s : State) : Host.Outcome State Fault Refusal :=
  s.goes (execRequest 0x0911 (analysisOpcode 0x0911 engineers) m)

/-- R325. EXEC 0x0912 starts a load classification, in MEASURE or in RUN. -/
def execLoadcheck (m : CdlMsg) (s : State) : Host.Outcome State Fault Refusal :=
  s.goes (execRequest 0x0912 (analysisOpcode 0x0912 writers) m)

/-- R327. EXEC 0x0913 measures an acoustic impulse response through a microphone slot. -/
def execResponse (m : CdlMsg) (s : State) : Host.Outcome State Fault Refusal :=
  s.goes (execRequest 0x0913 (analysisOpcode 0x0913 engineers) m)

/-- R328. EXEC 0x0914 measures the loop response and the margins of a closed slot. -/
def execLoopFrf (m : CdlMsg) (s : State) : Host.Outcome State Fault Refusal :=
  s.goes (execRequest 0x0914 (analysisOpcode 0x0914 engineers) m)

/-- R454. EXEC 0x0110 requests SAFE with reason REMOVAL to prepare the card for removal. -/
def execPrepareRemoval (m : CdlMsg) (s : State) : Host.Outcome State Fault Refusal :=
  s.goes (execRequest 0x0110 opRemoval m)

/-- R400. EXEC 0x0B30 is accepted in SAFE from an ENGINEER session. -/
def execRestoreDefaults (m : CdlMsg) (s : State) : Host.Outcome State Fault Refusal :=
  s.goes (execRequest 0x0B30 opRestore m)

/-- R467. EXEC 0x0B31 calibrates the sense paths of the masked channels. -/
def execCalibrate (m : CdlMsg) (s : State) : Host.Outcome State Fault Refusal :=
  s.goes (execRequest 0x0B31 opCalibrate m)

/-- R481. EXEC 0x0B20 starts erasing the idle bank for a new image. -/
def execUpdateLoad (m : CdlMsg) (s : State) : Host.Outcome State Fault Refusal := s.goes (execRequest 0x0B20 opLoad m)

/-- R482. EXEC 0x0B21 arms the activation of a verified image at a boundary. -/
def execUpdateActivate (m : CdlMsg) (s : State) : Host.Outcome State Fault Refusal :=
  s.goes (execRequest 0x0B21 opActivateLate m)

/-- R321. An analysis ends with OK, FAILED, FENCED, CANCELLED or TIMEOUT and raises EVT_DONE. -/
def execAnalysisEnd (h : Nat) (data : List ChanResult) (s : State) : Host.Outcome State Fault Refusal :=
  s.goes (analysisEnd h data)

/-- R329. Silence held for LC_SILENCE starts the RUN load-check sweep at a block boundary. -/
def execLoadcheckSweepStart (h : Nat) (s : State) : Host.Outcome State Fault Refusal := s.goes (loadcheckSweepStart h)

/-- R329. No completed sweep within LC_WAIT ends the check with status TIMEOUT. -/
def execLoadcheckTimeout (h : Nat) (s : State) : Host.Outcome State Fault Refusal := s.goes (loadcheckTimeout h)

/-- R465. A channel due for automatic calibration begins its calibration at a block boundary. -/
def execCalibrationStart (c : Fin 16) (s : State) : Host.Outcome State Fault Refusal := s.goes (calibrationStart c)

/-- R466. The 20 ms measurement of the internal references ends, and the result is accepted, rejected or abandoned. -/
def execCalibrationDone (c : Fin 16) (vOffset vGain iOffset iGain : Int) (s : State) : Host.Outcome State Fault Refusal :=
  s.goes (calibrationDone c (vOffset, vGain, iOffset, iGain))

/-- R481. The erase of the idle bank ends and the image segments are accepted. -/
def execUpdateEraseDone (s : State) : Host.Outcome State Fault Refusal := s.goes updateEraseDone

/-- R481. Verification of the loaded bank ends with OK or FAILED. -/
def execUpdateVerifyDone (x : ImageInfo) (s : State) : Host.Outcome State Fault Refusal := s.goes (updateVerify x)

/-- R481. No image segment for 60 s ends UPDATE_LOAD with TIMEOUT. -/
def execUpdateLoadTimeout (s : State) : Host.Outcome State Fault Refusal := s.goes updateLoadTimeout

/-- R482. At the activation boundary the operation completes and the device enters ACTIVATING. -/
def execUpdateActivationBoundary (s : State) : Host.Outcome State Fault Refusal := s.goes updateBoundary

/-- R482. 20 ms after the boundary the management processor restarts from the new bank and probation begins. -/
def execUpdateMgmtRestart (s : State) : Host.Outcome State Fault Refusal := s.goes updateRestart

/-- R484. A pending power-die trim applies once the group is released or NOT_READY. -/
def execTrimApply (g : Fin 4) (s : State) : Host.Outcome State Fault Refusal := s.goes (trimApply g)

/-- R485. 600 s of probation with no roll-back make the new bank the recorded bank. -/
def execProbationEnd (s : State) : Host.Outcome State Fault Refusal := s.goes probationEnd

/-- R485. A watchdog restart or a failed rotation during probation rolls the update back. -/
def execUpdateRollback (s : State) : Host.Outcome State Fault Refusal := s.goes updateRollback

/-- R485. A write of UPDATE_ABORT discards a verified or armed image, or rolls back during probation. -/
def execUpdateAbort (w : EntryWrite) (s : State) : Host.Outcome State Fault Refusal :=
  s.goes (writeEntry Key.upd.UPDATE_ABORT none w)

end Sys2Proof.Machine
end

