-- ==== Sys2Proof/Machine/PortCmds.lean ====
section
/-!
DEFINITION. Machine/PortCmds.lean: the meanings of the commands of TDM ports and AES3 (R332-R361).
-/

namespace Sys2Proof.Machine

/-- R340. A slave port frame is timestamped, counted and written into its FIFO. -/
def execTdmFrame (p : Fin 4) (count bclkHz : Nat) (bits : List Bool) (s : State) : Host.Outcome State Fault Refusal :=
  s.goes (tdmFrame p count bclkHz bits)

/-- R341. 2 frame periods without an FSYNC edge send a slave port to NO_CLOCK. -/
def execPortNoClock (p : Fin 4) (s : State) : Host.Outcome State Fault Refusal := s.goes (portNoClock p)

/-- R341. 100 ms of good frames and a FIFO fill of 4 take a unit from ACQUIRE to RUNNING. -/
def execPortAcquired (u : Fin 6) (s : State) : Host.Outcome State Fault Refusal := s.goes (portAcquired u)

/-- R343. A rate within ±450 ppm for 1 s returns a unit to ACQUIRE. -/
def execRateMismatchRecover (u : Fin 6) (s : State) : Host.Outcome State Fault Refusal := s.goes (rateRecover u)

/-- R340. 100 ms without a format fault returns a port to ACQUIRE. -/
def execFormatErrorRecover (p : Fin 4) (s : State) : Host.Outcome State Fault Refusal := s.goes (formatRecover p)

/-- R351. A write of PAUSE_AT sets a port's pending pause. -/
def execPauseAtWrite (p : Fin 4) (w : EntryWrite) (s : State) : Host.Outcome State Fault Refusal :=
  s.goes (writeEntry (Key.tdm.PAUSE_AT p) none w)

/-- R351. A write of RESUME_AT sets a port's pending resume. -/
def execResumeAtWrite (p : Fin 4) (w : EntryWrite) (s : State) : Host.Outcome State Fault Refusal :=
  s.goes (writeEntry (Key.tdm.RESUME_AT p) none w)

/-- R352. At its frame a pause mutes every enabled slot through zero-crossing waits. -/
def execPauseEffective (p : Fin 4) (s : State) : Host.Outcome State Fault Refusal := s.goes (phases [maskDue p, pauseEffective p])

/-- R352. At its frame a resume unmutes every enabled slot. -/
def execResumeEffective (p : Fin 4) (s : State) : Host.Outcome State Fault Refusal := s.goes (phases [maskDue p, resumeEffective p])

/-- R361. A clear returns a fenced unit to ACQUIRE, or to RUNNING for a master, at the next boundary. -/
def execPortFenceClear (u : Fin 6) (w : EntryWrite) (s : State) : Host.Outcome State Fault Refusal :=
  s.goes (writeEntry (if u.val < 4 then Key.tmap.FENCE_CLEAR u else Key.aes.FENCE_CLEAR (u.val - 4)) none w)

/-- R357. A received AES3 frame's subframes are decoded, checked for validity and written to the FIFO. -/
def execAes3Frame (a : Fin 2) (f : AesFrame) (s : State) : Host.Outcome State Fault Refusal := s.goes (aes3Frame a f)

/-- R356. At the end of a channel-status block the bytes are CRCC-checked and copied. -/
def execAes3CsBlockEnd (a : Fin 2) (s : State) : Host.Outcome State Fault Refusal := s.goes (csBlockEnd a)

/-- R354. 2 frame periods without a valid preamble send a receiver to NO_SIGNAL. -/
def execAes3NoSignal (a : Fin 2) (s : State) : Host.Outcome State Fault Refusal := s.goes (aesNoSignal a)

end Sys2Proof.Machine
end

