-- ==== Sys2Proof/Machine/PowerCmds.lean ====
section
/-!
DEFINITION. Machine/PowerCmds.lean: the meanings of the commands of the power stage: starts and stops (R280-R284), shorts (R287, R288), DC (R290), group states (R291-R295), clears (R298).
-/

namespace Sys2Proof.Machine

/-- R283. A write of CH_EN starts or stops a channel. -/
def execChEnWrite (c : Fin 16) (w : EntryWrite) (s : State) : Host.Outcome State Fault Refusal :=
  s.goes (writeEntry (Key.pw.CH_EN c) none w)

/-- R280. A channel begins the precharge, loop ramp and chain ramp from RELEASED at a block boundary. -/
def execStartSequence (c : Fin 16) (ronA ronB : Int) (s : State) : Host.Outcome State Fault Refusal :=
  s.goes (startSequence (ronMeasure c ronA ronB) c)

/-- R281. An orderly stop waits for a zero crossing, ramps down the gates and releases the bridge. -/
def execOrderlyStop (c : Fin 16) (s : State) : Host.Outcome State Fault Refusal := s.goes (stopCaused c false)

/-- R282. A fast stop ramps down without a zero-crossing wait and releases within 48 samples plus one carrier
period. -/
def execFastStop (c : Fin 16) (s : State) : Host.Outcome State Fault Refusal := s.goes (stopCaused c true)

/-- R287. 32 consecutive, or more than 64 per ms, limited periods release the bridge and fence it with cause SHORT. -/
def execShortDeclared (c : Fin 16) (s : State) : Host.Outcome State Fault Refusal := s.goes (shortDeclared c)

/-- R288. The probe timer starts a 22 ms load probe of a short-fenced channel. -/
def execShortProbe (c : Fin 16) (s : State) : Host.Outcome State Fault Refusal := s.goes (probeBegin c)

/-- R288. A probe ends, and it passes and restarts the channel or fails and is counted. -/
def execProbeDone (c : Fin 16) (n : Nat) (s : State) : Host.Outcome State Fault Refusal := s.goes (probeEnd c n)

/-- R290. |DC_MEAN| above 2.0 V for 50 ms releases and fences the channel with cause DC. -/
def execDcFault (c : Fin 16) (s : State) : Host.Outcome State Fault Refusal := s.goes (dcFault c)

/-- R298. A controller clear removes the clearable fence causes of a channel. -/
def execChannelFenceClear (c : Fin 16) (w : EntryWrite) (s : State) : Host.Outcome State Fault Refusal :=
  s.goes (writeEntry (Key.prot.FENCE_CLEAR c) none w)

/-- R291. VBUS above 66 V releases all four bridges of the group. -/
def execBusOvervoltage (g : Fin 4) (mv : Nat) (s : State) : Host.Outcome State Fault Refusal :=
  s.goes (busOvervoltage g mv)

/-- R291. VBUS below 62 V re-arms the comparator and the group returns to NORMAL. -/
def execBusOvRearm (g : Fin 4) (mv : Nat) (s : State) : Host.Outcome State Fault Refusal := s.goes (busOvRearm g mv)

/-- R292. A block mean below 22.0 V mutes the group. -/
def execBusUndervoltageMute (g : Fin 4) (s : State) : Host.Outcome State Fault Refusal := s.goes (busUvMute g)

/-- R292. 100 ms at or above 23.0 V return the group to NORMAL. -/
def execBusUvRestore (g : Fin 4) (s : State) : Host.Outcome State Fault Refusal := s.goes (busUvRestore g)

/-- R293. 4 µs without edge commands release the bridges of a power die. -/
def execStarvation (g : Fin 4) (s : State) : Host.Outcome State Fault Refusal := s.goes (starve g)

/-- R293. 1 ms of continuous edge commands returns the group to NORMAL. -/
def execStarvationRecovery (g : Fin 4) (s : State) : Host.Outcome State Fault Refusal := s.goes (starveRecover g)

/-- R294. VAUX below 9.8 V releases the power die's bridges. -/
def execVauxUvlo (g : Fin 4) (mv : Nat) (s : State) : Host.Outcome State Fault Refusal := s.goes (vauxLow g mv)

/-- R294. VAUX above 10.5 V re-enables the gate drivers, and the group returns to NORMAL 10 ms later. -/
def execVauxRecover (g : Fin 4) (mv : Nat) (s : State) : Host.Outcome State Fault Refusal := s.goes (vauxOk g mv)

end Sys2Proof.Machine
end

