-- ==== Sys2Proof/Machine/RequestCmds.lean ====
section
/-!
DEFINITION. Machine/RequestCmds.lean: the meanings of the commands of requests of the dictionary protocol (R391-R430) and its timeouts.
-/

namespace Sys2Proof.Machine

/-- R408. A HELLO request creates a pending session and returns nonce_d. -/
def execHello (m : CdlMsg) (s : State) : Host.Outcome State Fault Refusal := s.goes (receive m (hello m))

/-- R408. An AUTH request opens a pending session or fails it. -/
def execAuth (m : CdlMsg) (s : State) : Host.Outcome State Fault Refusal := s.goes (request 0x02 (some opAuth) m)

/-- R406. A CDL message with a bad length, version, reserved byte or flag is discarded and counted. -/
def execMalformedMessage (transport : Nat) (bytes : List Byte) (s : State) : Host.Outcome State Fault Refusal :=
  s.goes (malformed transport bytes)

/-- R406. A request with an unknown opcode, or with the EVENT opcode, is answered with status RANGE. -/
def execUnknownOpcode (op : Nat) (m : CdlMsg) (s : State) : Host.Outcome State Fault Refusal :=
  s.goes (unknownRequest op m)

/-- R398. A READ returns the value of one entry in force at acceptance. -/
def execRead (m : CdlMsg) (s : State) : Host.Outcome State Fault Refusal := s.goes (request 0x10 (some opRead) m)

/-- R398. A READM returns up to 64 entries with a status per item. -/
def execReadm (m : CdlMsg) (s : State) : Host.Outcome State Fault Refusal := s.goes (request 0x12 (some opReadm) m)

/-- R397. A WRITE of one entry is tested in the order of R397 and takes effect as its Effect column gives. -/
def execWrite (m : CdlMsg) (s : State) : Host.Outcome State Fault Refusal := s.goes (request 0x11 (some opWrite) m)

/-- R412. A WRITEM writes up to 64 entries, each tested independently. -/
def execWritem (m : CdlMsg) (s : State) : Host.Outcome State Fault Refusal := s.goes (request 0x13 (some opWritem) m)

/-- R413. A BLOCK_READ returns one segment of a blob. -/
def execBlockRead (m : CdlMsg) (s : State) : Host.Outcome State Fault Refusal :=
  s.goes (request 0x14 (some opBlockRead) m)

/-- R414. A BLOCK_WRITE segment opens, extends or completes a blob transfer. -/
def execBlockWrite (m : CdlMsg) (s : State) : Host.Outcome State Fault Refusal :=
  s.goes (request 0x15 (some opBlockWrite) m)

/-- R402. A masked 32-byte BLOCK_WRITE sets a role key. -/
def execKeyWrite (m : CdlMsg) (s : State) : Host.Outcome State Fault Refusal := s.goes (keyRequest m)

/-- R415. A STAGE adds items to the session's open transaction. -/
def execStage (m : CdlMsg) (s : State) : Host.Outcome State Fault Refusal := s.goes (request 0x20 (some opStage) m)

/-- R416. A COMMIT tests the transaction in full and makes it pending for its boundary. -/
def execCommit (m : CdlMsg) (s : State) : Host.Outcome State Fault Refusal := s.goes (request 0x21 (some opCommit) m)

/-- R418. An ABORT discards the open transaction or cancels the pending commit. -/
def execAbort (m : CdlMsg) (s : State) : Host.Outcome State Fault Refusal := s.goes (request 0x22 (some opAbort) m)

/-- R421. A CLAIM gives the session exclusive writing of one area. -/
def execClaim (m : CdlMsg) (s : State) : Host.Outcome State Fault Refusal := s.goes (request 0x30 (some opClaim) m)

/-- R422. A RELEASE ends a claim, or ends the session for area 0x00. -/
def execRelease (m : CdlMsg) (s : State) : Host.Outcome State Fault Refusal :=
  s.goes (request 0x31 (some opRelease) m)

/-- R426. A SUBSCRIBE adds event code ranges to the session. -/
def execSubscribe (m : CdlMsg) (s : State) : Host.Outcome State Fault Refusal :=
  s.goes (request 0x40 (some opSubscribe) m)

/-- R426. An UNSUBSCRIBE removes event code ranges from the session. -/
def execUnsubscribe (m : CdlMsg) (s : State) : Host.Outcome State Fault Refusal :=
  s.goes (request 0x41 (some opUnsubscribe) m)

/-- R424. A POLL returns the state of a handle, or records from the event ring for handle 0. -/
def execPoll (m : CdlMsg) (s : State) : Host.Outcome State Fault Refusal := s.goes (request 0x51 (some opPoll) m)

/-- R424. A CANCEL ends a running long operation at its next safe point. -/
def execCancel (m : CdlMsg) (s : State) : Host.Outcome State Fault Refusal := s.goes (request 0x52 (some opCancel) m)

/-- R427. Ring records are sent in an EVENT message within 10 ms, led by EVT_LOST after an overwrite. -/
def execEventSend (n : Nat) (s : State) : Host.Outcome State Fault Refusal := s.goes (eventSend n)

/-- R410. A session idle for SESSION_TIMEOUT ends. -/
def execSessionTimeout (n : Nat) (s : State) : Host.Outcome State Fault Refusal := s.goes (sessionTimeout n)

/-- R408. A pending session without a valid AUTH within 5 s is freed. -/
def execPendingSessionExpiry (n : Nat) (s : State) : Host.Outcome State Fault Refusal := s.goes (pendingExpiry n)

/-- R409. A peer lockout ends after 60 s. -/
def execLockoutExpiry (s : State) : Host.Outcome State Fault Refusal := s.goes lockoutExpiry

/-- R477. A class 9 clear lifts every peer lockout. -/
def execLockoutClear (session role : Nat) (s : State) : Host.Outcome State Fault Refusal :=
  s.goes (writeEntry Key.fence.FENCE_CLEAR_CMD none ⟨session, role, .num 0x0900FFFF⟩)

/-- R414. A transfer with no segment for 10 s is discarded. -/
def execBlockTransferTimeout (n : Nat) (s : State) : Host.Outcome State Fault Refusal := s.goes (transferTimeout n)

/-- R423. A handle record is discarded 60 s after completion. -/
def execHandleRecordExpiry (h : Nat) (s : State) : Host.Outcome State Fault Refusal := s.goes (handleExpiry h)

/-- R402. A write of KEY_CLEAR removes a role's key. -/
def execKeyClear (w : EntryWrite) (s : State) : Host.Outcome State Fault Refusal :=
  s.goes (writeEntry Key.key.KEY_CLEAR none w)

/-- R422. A write of RELEASE_AREA ends another session's claim of an area. -/
def execReleaseAreaWrite (w : EntryWrite) (s : State) : Host.Outcome State Fault Refusal :=
  s.goes (writeEntry Key.area.RELEASE_AREA none w)

/-- R395. A write of an entry that has no behaviour of its own takes effect as its Effect column gives. -/
def execRegisterWrite (index sub : Nat) (ty : Nat) (w : EntryWrite) (s : State) : Host.Outcome State Fault Refusal :=
  s.goes (anyWrite index sub ty w)

end Sys2Proof.Machine
end

