-- ==== Sys2Proof/Machine/Reset.lean ====
section
/-!
DEFINITION. Machine/Reset.lean: resets (R437, R442, R498), the dawn sequence (R437, R438, R515), and the return from a stall
(R441).
-/

namespace Sys2Proof.Machine

/-! ### Resets -/

/-- What a channel keeps through a reset: its calibration and on-resistance, which are stored (R399, R465, R474). -/
def Chan.kept (x : Chan) : Chan := { calVals := x.calVals, calAt := x.calAt, calTemp := x.calTemp, ron := x.ron }

/-- The machine after a reset (R437, R442): the ferroelectric and flash stores, the log, the pins' levels and the queue of
commands stay; everything else is as at power-on. A reset that the absence guard brought about is reported as cause 3
(R458, R460). A fenced lane stays fenced until 16 self-tests have passed, whatever the reset (R204). The fans run at full duty
(R213): the entry's default. -/
def State.afterReset (s : State) (cause : Nat) : State :=
  let m := s.units.mgmt
  let p := s.units.pins
  { mode := .boot
    mtb := 0
    dict := s.dict.filter fun x => s.fencedLanes.any fun l =>
      x.1 = Key.lane.LANE_STATE l ∨ x.1 = Key.lane.FENCE_CAUSE l
    store := s.store
    pending := s.pending
    units := {
      free := s.units.free
      log := s.units.log
      banks := s.units.banks
      obsStore := s.units.obsStore
      lanes := s.fencedLanes.map fun l => (l, { clearTests := some 0 })
      groups := (s.units.groups.filter fun g => g.2.vauxUp).map fun g => (g.1, { vauxUp := true })
      chans := (s.units.chans.map fun c => (c.1, c.2.kept)).filter fun c => c.2 != {}
      mgmt := {
        tjSum := m.tjSum
        norBytes := m.norBytes
        wearTold := m.wearTold
        rolled := m.rolled
        guarded := m.guarded
        absentMs := if m.guarded then (if m.absentAt.isSome then s.msSince m.absentAt else m.absentMs) else 0 }
      pins := {
        resetN := p.resetN, bootsel := p.bootsel, engageN := p.engageN, muteN := p.muteN, xref := p.xref, cause := cause, vio33 := p.vio33, vio18 := p.vio18
        engageLow := if p.engageN then none else some 0 } } }

/-- Time 0 of the dawn sequence (Table 14-2): straps are latched, fans run at full speed, `FAULT_N` is low; without
XREF the sequence waits. -/
def dawnBegin (unit : Nat) : Phase := fun s =>
  [.nat Key.mode.UNIT_ID unit, .nat Key.can.CAN_NODE unit,
   .pins fun p => { p with dawnAt := some s.mtbNs, dawnWait := !p.xref, faultLow := true, resetDrive := none,
                            resetUp := some s.mtbNs }]
  ++ (List.range 4).map fun g => .num (Key.fan.FAN_DUTY g) 2147483647

/-- POWER_ON_RESET (R437): where RESET_N is high already, the dawn sequence begins, with the straps as last latched
(log 84). -/
def State.powerOn (s : State) : State :=
  let t := s.afterReset 0
  if t.units.pins.resetN then t.does (dawnBegin (s.nat Key.mode.UNIT_ID)) else t

/-- RESET_N falls and stays low for `lowNs` (R442): the modulators stop, so every bridge is released. A low of
at most 1 µs is always ignored and one of 10 µs always taken (Table 16-14); between them a free value decides whether
the logic is reset (log 1). -/
def State.resetLow (s : State) (lowNs : Nat) : State :=
  if !s.units.pins.resetN ∨ lowNs ≤ 1000 then s
  else if lowNs < 10000 ∧ s.free 0 ≤ 0 then s.run (.draws 1 :: forAll (List.range 16) releaseNow s)
  else ({ s with units := { s.units with pins := { s.units.pins with resetN := false } } }).afterReset 1

/-- RESET_N rises (R437): straps are latched, fans run at full speed, the dawn sequence begins. -/
def resetRise (unit : Nat) (bootsel xref : Bool) : Phase := fun s =>
  if s.mode ≠ .boot ∨ s.units.pins.resetN then []
  else phases [
    always [.pins fun p => { p with resetN := true, bootsel := bootsel, xref := xref }], dawnBegin unit] s

/-- XREF arrives: a dawn sequence that waits for it goes on from here (R437). -/
def xrefArrival : Phase := fun s =>
  if s.units.pins.xref then []
  else [.pins fun p => { p with
    xref := true, dawnWait := false, dawnAt := if p.dawnWait then some s.mtbNs else p.dawnAt }]

/-! ### The dawn sequence -/

/-- The bank that the dawn sequence selects (R438, R486). -/
def State.selectedBank (s : State) : Nat :=
  if s.units.pins.fromA ∨ s.units.pins.bootsel then 0
  else match Tbl.get (fun _ => none) s.store Key.upd.RECORDED_BANK with
    | some v => v.int.toNat
    | none => 0

/-- The bank that it loads, if one verifies and the SRAM passes its test (R437, R438). -/
def State.loadedBank (s : State) (x : DawnResult) : Option Nat :=
  let ok := fun (b : Nat) => if b = 0 then x.bankA else x.bankB
  let b := s.selectedBank
  if !x.sram then none else if ok b then some b else if ok (1 - b) then some (1 - b) else none

/-- The stored values are restored (R399). -/
def storeRestore : Phase := fun s => s.store.filterMap fun p => p.2.map fun v => .reg p.1 v

/-- The versions of the image that runs (Table 14-9, Table 15-13); a controller trim that waited takes effect (R484). -/
def versionsLoad (b : Nat) : Phase := fun s =>
  let i := s.bankImage b
  [.nat Key.fw.MGMT_VER i.version, .nat Key.fw.LANE_UCODE_VER i.lane, .nat Key.fw.LOOP_UCODE_VER i.loop,
   .nat Key.fw.TRIM_VER i.trim, .nat Key.fw.BOOT_BANK b, .nat Key.upd.ACTIVE_BANK b, .nat Key.upd.RECORDED_BANK b,
   .save Key.upd.RECORDED_BANK (some (.num b)),
   .nat Key.upd.BANK_A_VER (s.bankImage 0).version, .nat Key.upd.BANK_B_VER (s.bankImage 1).version]
  ++ (List.range 16).map fun l => .nat (Key.lane.MICROCODE_VER l) i.lane

/-- The units take the configuration that the stored values form (R399, R515), and the channels the level of MUTE_N (R444). -/
def configTakes : Phase := phases [
  layoutRestore, observersLoad, forAll (List.range 16) modelCommit, periodsCommit, slotsReassign, lanesCommit,
  forAll (List.range 4) (fun p => phases [
    (fun s => [.port p fun x => { x with maskWait := some (s.nat (Key.tmap.SLOT_MASK p), 0) }]), portEnable p]),
  forAll [0, 1] rxEnable,
  (fun s => (List.range 16).map fun c => .num (Key.fir.FIR_STATE c) (s.num (Key.fir.FIR_ACTIVE c))),
  (fun s => (List.range 16).map fun c => .chan c fun x => { x with pinHeld := !s.units.pins.muteN }),
  (fun s => [.num Key.aout.AOUT_STATE (s.num Key.aout.AOUT_EN)]),
  forAll (List.range 4) (fun d => whenP (fun s => s.dtbOn d) (readP (fun s => s.num (Key.dtb.DOMAIN_NUMBER d)) (domainNumberEffect d))),
  readP (fun s => s.num Key.ref.REF_SOURCE) refSourceEffect,
  ipApply 0, ipApply 1]

/-- SAFE is reached (R437, R439, R449, R470): what the sequence found is reported; `bad` says that the selected bank failed. -/
def safeReached (b : Nat) (bad : Bool) (x : DawnResult) : Phase := fun s =>
  let m := s.units.mgmt
  phases [
    always [
      .num Key.life.LT_DAWNS (s.num Key.life.LT_DAWNS + 1),
      .save Key.life.LT_DAWNS (some (.num (s.num Key.life.LT_DAWNS + 1))),
      .reg Key.mode.MODE_REQUEST (s.get Key.mode.START_MODE),
      .nat Key.rsn.DAWN_MS x.dawnMs, .nat Key.rsn.RESET_CAUSE s.units.pins.cause,
      .num Key.fw.BOOT_FALLBACK (if bad then 1 else 0),
      .pins fun p => { p with dawnAt := none, fromA := false, recovery := false },
      .mgmt fun y => { y with
        served := true, guarded := false, absentMs := 0, safeAt := some s.mtbNs, startTo := s.nat Key.mode.START_MODE,
        ronLimit := s.num Key.life.RON_LIMIT }],
    setMode .safe 0,
    canOperate false, hsIdle,
    always (if bad then [.event Ev.BANK_FALLBACK (args16 [1 - b, b])] else []),
    (fun s => [.event Ev.DAWN_DONE (le 2 s.units.pins.cause ++ le 2 x.dawnMs ++ le 4 (s.fencedOf 4).length)]),
    always (if m.guarded then [.event Ev.MGMT_RESTARTED (le 2 3 ++ le 4 m.absentMs)] else []),
    faultPin] s

/-- DAWN_DONE (R437, R438): SAFE is entered, or the device stays in BOOT with the recovery loader. -/
def dawnDone (x : DawnResult) : Phase := fun s =>
  let p := s.units.pins
  if s.mode ≠ .boot ∨ !p.resetN ∨ p.dawnAt.isNone ∨ p.dawnWait then []
  else match s.loadedBank x with
    | none => [.pins fun p => { p with recovery := true, dawnAt := none, fromA := false, faultLow := true }]
    | some b => phases [
        storeRestore, versionsLoad b,
        (fun s => match s.healthyLanes.getLast? with
          | some l => [.nat Key.disp.LANTERN l, .num (Key.lane.LANE_STATE l) 1]
          | none => [.num Key.disp.LANTERN 0xFF]),
        forAll x.badLanes (fun l => laneFence l 2),
        configTakes, safeReached b (b != s.selectedBank) x] s

end Sys2Proof.Machine
end

