-- ==== Sys2Proof/Machine/ResetCmds.lean ====
section
/-!
DEFINITION. Machine/ResetCmds.lean: the meanings of the commands of resets and the dawn sequence (R437-R442), the recovery loader (R486).
-/

namespace Sys2Proof.Machine

/-- R437. A power-on reset, when VCORE rises from below 0.30 V, puts the device in BOOT with every output released. -/
def execPowerOnReset (s : State) : Host.Outcome State Fault Refusal := .next s.powerOn

/-- R442. A low level on RESET_N that lasts at least 10 µs stops the modulators and enters BOOT. -/
def execResetNLow (lowNs : Nat) (s : State) : Host.Outcome State Fault Refusal := .next (s.resetLow lowNs)

/-- R437. The rise of RESET_N latches the straps and starts the dawn sequence in mask ROM. -/
def execResetNRise (unitId : Fin 64) (bootsel xref : Bool) (s : State) : Host.Outcome State Fault Refusal :=
  s.goes (resetRise unitId bootsel xref)

/-- R437. Completion of the dawn sequence (bank check, SRAM self-test, lane checksum, restore of P values) enters
SAFE, or the device stays in BOOT under R438. -/
def execDawnDone (x : DawnResult) (s : State) : Host.Outcome State Fault Refusal := s.goes (dawnDone x)

/-- R439. At the first block boundary in SAFE, START_MODE is acted on as if it had been written to MODE_REQUEST. -/
def execStartModeApply (s : State) : Host.Outcome State Fault Refusal := s.goes startMode

/-- R486. An XMODEM-1K image received over the service UART is written to bank A and verified, and on success the
dawn sequence starts from bank A. -/
def execRecoveryLoaderImage (x : ImageInfo) (s : State) : Host.Outcome State Fault Refusal := s.goes (recoveryImage x)

/-- R437. XREF appearing while the dawn sequence waits for it lets the sequence continue, with the 300 ms bound
counted from its arrival. -/
def execXrefArrival (s : State) : Host.Outcome State Fault Refusal := s.goes xrefArrival

/-- R441. VCORE returning from a stall resumes the logic from the retained state. -/
def execVcoreStallResume (mv : Nat) (s : State) : Host.Outcome State Fault Refusal :=
  if mv < 380 then .fault .stateUndefined else .next s

end Sys2Proof.Machine
end

