-- ==== Sys2Proof/Machine/StreamCmds.lean ====
section
/-!
DEFINITION. Machine/StreamCmds.lean: the meanings of the commands of stream ingress (R82-R113) and object metadata (R117-R148).
-/

namespace Sys2Proof.Machine

/-- R100. A received RTP packet for a subscription is checked, classified and placed by timestamp. -/
def execStreamPacket (i : Fin 128) (udp : List Byte) (checksumOk : Bool) (s : State) : Host.Outcome State Fault Refusal :=
  s.goes (phases [engineTake i udp, streamPacket (s.arrival i udp) i udp checksumOk])

/-- R111. FENCE_RETRY seconds after a fence, the subscription is cleared to WAITING. -/
def execStreamFenceRetry (i : Fin 128) (s : State) : Host.Outcome State Fault Refusal := s.goes (streamRetry i)

/-- R111. A controller clear returns a fenced subscription to WAITING. -/
def execStreamFenceClear (i : Fin 128) (w : EntryWrite) (s : State) : Host.Outcome State Fault Refusal :=
  s.goes (writeEntry (Key.st.FENCE_CLEAR i) none w)

/-- R112. A write of CLEAR clears the stream counters of a subscription. -/
def execStreamCounterClear (i : Fin 128) (w : EntryWrite) (s : State) : Host.Outcome State Fault Refusal :=
  s.goes (writeEntry (Key.st.CLEAR i) none w)

/-- R108. LOSS_BLOCKS play blocks without a received sample move a subscription to LOST. -/
def execStreamLost (i : Fin 128) (s : State) : Host.Outcome State Fault Refusal := s.goes (streamLost i)

/-- R104. A path of a pair that delivers nothing for LOSS_BLOCKS becomes DOWN. -/
def execPathDown (i : Fin 128) (s : State) : Host.Outcome State Fault Refusal := s.goes (pathDown i)

/-- R118. A pending metadata record applies at its output sample and sets the new gain and delay targets. -/
def execMetadataApply (o : Fin 512) (s : State) : Host.Outcome State Fault Refusal := s.goes (metadataApply o)

/-- R121. No record for META_TIMEOUT mutes the object and enters TIMED_OUT. -/
def execMetaTimeout (o : Fin 512) (s : State) : Host.Outcome State Fault Refusal := s.goes (metaTimeout o)

/-- R148. A controller clear returns a fenced object to NO_META. -/
def execObjectFenceClear (o : Fin 512) (w : EntryWrite) (s : State) : Host.Outcome State Fault Refusal :=
  s.goes (writeEntry (Key.obj.FENCE_CLEAR o) none w)

end Sys2Proof.Machine
end

