-- ==== Sys2Proof/Machine/TimeCmds.lean ====
section
/-!
DEFINITION. Machine/TimeCmds.lean: the meanings of the commands of media time: snapshots (R60), the increment (R51), references and servo (R55-R63), anchoring (R64-R69), domains (R71-R73).
-/

namespace Sys2Proof.Machine

/-- R60. A write of 1 latches all five time bases. -/
def execSnapReq (w : EntryWrite) (s : State) : Host.Outcome State Fault Refusal :=
  s.goes (writeEntry Key.snap.SNAP_REQ none w)

/-- R66. A write of TOD_SET sets the time for the next anchoring, or re-anchors under FREE. -/
def execTodSet (w : EntryWrite) (s : State) : Host.Outcome State Fault Refusal :=
  s.goes (writeEntry Key.ref.TOD_SET none w)

/-- R51. A write of the MTB INC under FREE applies from the next reference tick to the MTB and the synthesizer. -/
def execIncWrite (w : EntryWrite) (s : State) : Host.Outcome State Fault Refusal :=
  s.goes (writeEntry Key.mtb.INC none w)

/-- R73. A write of REF_DOMAIN requests a hand-over to another DTB. -/
def execRefDomainWrite (w : EntryWrite) (s : State) : Host.Outcome State Fault Refusal :=
  s.goes (writeEntry Key.ref.REF_DOMAIN none w)

/-- R73. At the next boundary the hand-over offset is latched and slewed or re-anchored. -/
def execHandover (s : State) : Host.Outcome State Fault Refusal := s.goes handoverChange

/-- R71. A write of DOMAIN_NUMBER changes the followed domain and clears a DTB fence. -/
def execDomainNumberWrite (d : Fin 4) (w : EntryWrite) (s : State) : Host.Outcome State Fault Refusal :=
  s.goes (writeEntry (Key.dtb.DOMAIN_NUMBER d) none w)

/-- R58. A PTP event frame strobe latches the MTB and all DTBs on one reference tick. -/
def execPtpEventStrobe (m : Fin 2) (rx : Bool) (s : State) : Host.Outcome State Fault Refusal :=
  s.goes (ptpStrobe m rx)

/-- R61. A Sync yields an offset measurement that is filtered, rejected as an outlier or confirmed as a step. -/
def execSyncMeasurement (d : Fin 4) (m : Fin 2) (t1 : Nat) (logInterval : Int) (s : State) : Host.Outcome State Fault Refusal :=
  s.goes (syncMeasure d m t1 logInterval)

/-- R517. A new grandmaster identity of a DTB updates GM_IDENTITY and raises GM_CHANGED. -/
def execAnnounceReceive (d : Fin 4) (gm : Nat) (s : State) : Host.Outcome State Fault Refusal :=
  s.goes (announce d gm)

/-- R383. The device sends a Delay_Req or Pdelay message in the transport of the master's Sync. -/
def execDelayReqSend (d : Fin 4) (s : State) : Host.Outcome State Fault Refusal := s.goes (delayReqSend d)

/-- R71. A Delay_Resp (or the peer-delay answer) completes a delay exchange and updates the DTB's mean path delay
PATH_DELAY used by the servo. -/
def execDelayRespReceive (d : Fin 4) (ns : Nat) (s : State) : Host.Outcome State Fault Refusal :=
  s.goes (delayResp d ns)

/-- R62. 3 Sync intervals with no measurement mark the reference missing and enter lock state HOLDOVER. -/
def execSyncTimeout (d : Fin 4) (s : State) : Host.Outcome State Fault Refusal := s.goes (syncTimeout d)

/-- R56. WCLK_IN silent for 2 periods, or PPS_IN for 1.5 s, marks the reference missing. -/
def execRefEdgeMissing (s : State) : Host.Outcome State Fault Refusal := s.goes refEdgeMissing

/-- R56. A WCLK_IN edge is latched against the MTB for the servo. -/
def execWclkInEdge (ppm : Int) (s : State) : Host.Outcome State Fault Refusal := s.goes (wclkEdge ppm)

/-- R56. A PPS_IN edge is latched against the MTB for the servo. -/
def execPpsInEdge (s : State) : Host.Outcome State Fault Refusal := s.goes ppsEdge

/-- R61. After 8 Sync intervals in ACQUIRE the frequency estimate ends and the phase is removed. -/
def execFrequencyEstimateDone (tb : Fin 5) (s : State) : Host.Outcome State Fault Refusal := s.goes (estimateDone tb)

/-- R62. |OFFSET| below 1 µs over a whole 8 s window moves ACQUIRE to LOCKED. -/
def execLockWindowElapsed (tb : Fin 5) (s : State) : Host.Outcome State Fault Refusal := s.goes (lockWindow tb)

/-- R63. SLEW_REMAINING reaches 0 and the phase term ends. -/
def execSlewComplete (s : State) : Host.Outcome State Fault Refusal := s.goes slewDone

/-- R64. After the last channel mutes, EPOCH_OFFSET changes, jitter buffers empty and passed actions are handled. -/
def execAnchorBoundary (s : State) : Host.Outcome State Fault Refusal := s.goes (anchorStep anchorBoundary)

/-- R64. The anchor period ends on the new grid, and streams are placed afresh. -/
def execAnchorPeriodEnd (s : State) : Host.Outcome State Fault Refusal := s.goes (anchorStep anchorPeriodEnd)

/-- R64. Muted channels fade in from the boundary at the anchor time plus L. -/
def execReanchorFadeIn (s : State) : Host.Outcome State Fault Refusal := s.goes reanchorFadeIn

/-- R65. The first anchoring after dawn, or after an FS_SELECT change, sets EPOCH_OFFSET with the outputs released. -/
def execFirstAnchoring (s : State) : Host.Outcome State Fault Refusal := s.goes (anchorStep firstAnchoring)

/-- R71. With PTP_PORT 2 a DTB moves between N0 and N1 as Sync is lost and returns. -/
def execDtbPortFailover (d : Fin 4) (n0Delivers : Bool) (s : State) : Host.Outcome State Fault Refusal :=
  s.goes (dtbFailover d n0Delivers)

/-- R72. An out-of-range INC need held for 16 s fences a DTB. -/
def execDtbFence (d : Fin 4) (s : State) : Host.Outcome State Fault Refusal := s.goes (dtbFence d)

/-- R72. A controller clear lifts a DTB fence. -/
def execDtbFenceClear (d : Fin 4) (session role : Nat) (s : State) : Host.Outcome State Fault Refusal :=
  s.goes (writeEntry Key.fence.FENCE_CLEAR_CMD none ⟨session, role, .num (0x08000000 + d.val : Nat)⟩)

end Sys2Proof.Machine
end

