-- ==== Sys2Proof/Machine/Lands.lean ====
section
/-!
DEFINITION. Machine/Lands.lean: the signal lands of the package (R440, R497, R498): their banks and pulls, and what the device
does at each, from the power-on reset on.
-/

namespace Sys2Proof.Machine

/-- The signal lands of Table 16-8 and the loudspeaker terminals. -/
inductive Land where
  | resetN | engageN | muteN | faultN | bootsel
  | unitId (n : Fin 6)
  | gpio (n : Fin 8)
  | fanPwm (g : Fin 4)
  | fanTach (g : Fin 4)
  | bclk (p : Fin 4)
  | fsync (p : Fin 4)
  | sdi (p : Fin 4)
  | sdo (p : Fin 4)
  | ain (a : Fin 2)
  | aoutP | aoutN
  | canTx | canRx | canStb
  | mdc | mdio | phyRstN
  | xref | mclko | wclkIn | wclkOut | ppsIn | ppsOut
  | tms | tdi | tck | trstN | tdo
  | uartTx | uartRx
  | sgmii (m : Fin 2)
  | sgclk
  | hsGate (g : Fin 4)
  | hsSense (g : Fin 4)
  | out (c : Fin 16)
  deriving DecidableEq, Repr

/-- The banks of Table 16-8; the terminals are on the power dies. -/
inductive Bank where
  | lvcmos33 | lvcmos18 | cml | aes3 | powerDie
  deriving DecidableEq, Repr

/-- The bank of a land (Table 16-8). -/
def Land.bank : Land → Bank
  | .resetN | .engageN | .muteN | .faultN | .bootsel | .unitId _ | .gpio _ | .fanPwm _ | .fanTach _
  | .bclk _ | .fsync _ | .sdi _ | .sdo _ | .canTx | .canRx | .canStb
  | .tms | .tdi | .tck | .trstN | .tdo | .uartTx | .uartRx => .lvcmos33
  | .xref | .mclko | .wclkIn | .wclkOut | .ppsIn | .ppsOut | .mdc | .mdio | .phyRstN => .lvcmos18
  | .sgmii _ | .sgclk => .cml
  | .ain _ | .aoutP | .aoutN => .aes3
  | .hsGate _ | .hsSense _ | .out _ => .powerDie

/-- The pull of a land, up or down; it stays connected in every mode (Table 16-10). -/
def Land.pull : Land → Option Bool
  | .resetN | .engageN | .muteN | .fanTach _ | .canRx | .mdio | .uartRx | .tms | .tdi => some true
  | .unitId _ | .bootsel | .gpio _ | .bclk _ | .fsync _ | .sdi _ | .sdo _ | .wclkIn | .ppsIn | .tck | .trstN => some false
  | _ => none

/-- What the device does at a land. -/
inductive Drive where
  /-- It reads it. -/
  | input
  /-- High-impedance; for a terminal: released. -/
  | z
  /-- It drives it at a level. -/
  | level (high : Bool)
  /-- It drives a signal whose course in time the state gives elsewhere, or that the land's standard gives. -/
  | signal
  deriving DecidableEq, Repr

/-- A level driven or left (R332, R338). -/
def Drive.of : Option Bool → Drive
  | some b => .level b
  | none => .z

/-- Whether the supply of a bank is present (R440); the power dies have their own (R294). -/
def State.supplied (s : State) : Bank → Bool
  | .lvcmos33 | .aes3 => s.units.pins.vio33
  | .lvcmos18 | .cml => s.units.pins.vio18
  | .powerDie => true

/-- What a supplied land does: in BOOT as Table 16-10 gives, then as the rules of its unit. `MDC` and `MDIO` carry frames whose
accesses are left to the PHY (R367, log 204); the test port stays in its reset state (log 225). -/
def State.landDrive (s : State) (l : Land) : Drive :=
  let p := s.units.pins
  let boot := s.mode == .boot
  match l with
  | .resetN => if p.resetDrive.isSome then .level false else .input
  | .engageN | .muteN | .bootsel | .unitId _ | .fanTach _ | .canRx | .xref | .wclkIn | .ppsIn
  | .tms | .tdi | .tck | .trstN | .uartRx | .sgclk | .hsSense _ => .input
  | .sdi _ | .ain _ => if boot then .z else .input
  | .faultN => if p.faultLow then .level false else .z
  | .gpio n => .of (s.gpioDriven n)
  | .fanPwm g => let d := s.num (Key.fan.FAN_DUTY g)
      if 2147483647 ≤ d then .level true else if d ≤ 0 then .level false else .signal
  | .bclk n => if boot then .z else if s.clocksRun n then .signal else .of (s.bclk n false)
  | .fsync n => if boot then .z else if s.clocksRun n then .signal else .of (s.fsync n 0)
  | .sdo n => if boot ∨ (s.sdoPin n).all (· == none) then .z else .signal
  | .aoutP | .aoutN => if boot then .level false else .signal
  | .canTx => if p.canTxRecessive then .level true else .signal
  | .canStb => .level p.canStb
  | .mdc => if boot then .level false else .signal
  | .mdio => if boot then .z else .signal
  | .phyRstN => .level s.phyRstN
  | .mclko => if p.mclko = 0 then .level false else .signal
  | .wclkOut => if p.wclkOut then .signal else .level false
  | .ppsOut => .level s.ppsOut
  | .tdo => .z
  | .uartTx => if boot then .level true else .signal
  | .sgmii _ => .signal
  | .hsGate g => .level (s.group g).gate
  | .out c => if s.released c then .z else .signal

/-- What the device does at a land (R440, R498): where the supply of its bank is absent it is high-impedance. -/
def State.land (s : State) (l : Land) : Drive := if s.supplied l.bank then s.landDrive l else .z

/-- The level at which a land stands where nothing outside drives it: the device's own, else that of its pull. -/
def State.landRests (s : State) (l : Land) : Option Bool := match s.land l with
  | .level b => some b
  | .signal => none
  | _ => l.pull

end Sys2Proof.Machine
end

