-- ==== Sys2Proof/Machine/UpkeepCmds.lean ====
section
/-!
DEFINITION. Machine/UpkeepCmds.lean: the meanings of the commands of the management processor (R457-R462), sensors (R463, R464), fans (R469), the log (R471), lifetime (R473).
-/

namespace Sys2Proof.Machine

/-- R458. The management watchdog expires and restarts the management processor alone. -/
def execWatchdogExpiry (s : State) : Host.Outcome State Fault Refusal := s.goes watchdogExpiry

/-- R459. On return from an absence, latched happenings are raised and state is rebuilt from the hardware. -/
def execMgmtReturn (s : State) : Host.Outcome State Fault Refusal := s.goes mgmtReturn

/-- R460. A 10 s absence fast-stops every channel and pulls RESET_N low. -/
def execAbsenceGuard (s : State) : Host.Outcome State Fault Refusal := s.goes absenceGuard

/-- R461. A divergence held for 100 ms is rewritten and reported with outcome 0. -/
def execStateDiverge (k : Nat) (s : State) : Host.Outcome State Fault Refusal := s.goes (stateDiverge k)

/-- R461. A divergence still standing 100 ms after the rewrite is reported with outcome 1. -/
def execStateDivergeRecheck (k : Nat) (still : Bool) (s : State) : Host.Outcome State Fault Refusal :=
  s.goes (divergeRecheck k still)

/-- R464. Every 1 ms the die sensors are read and faults are raised or cleared. -/
def execSensorRead (t : List Int) (mv : List Nat) (s : State) : Host.Outcome State Fault Refusal :=
  s.goes (sensorRead t mv)

/-- R469. Each 1 s tach window measures fan speed and detects a stall or recovery. -/
def execFanWindow (pulses : List Nat) (s : State) : Host.Outcome State Fault Refusal := s.goes (fanWindow pulses)

/-- R471. A raised event is written as a log record and sent on the UART. -/
def execLogWrite (s : State) : Host.Outcome State Fault Refusal := s.goes logWrite

/-- R473. The lifetime counters are stored every 60 s. -/
def execLifetimeStore (s : State) : Host.Outcome State Fault Refusal := s.goes lifetimeStore

end Sys2Proof.Machine
end

