-- ==== Sys2Proof/Machine/Dispatch.lean ====
section
/-!
DEFINITION. Machine/Dispatch.lean: one arm per command, each a call of its meaning.
-/

namespace Sys2Proof.Machine

def exec (i : Instr) (s : State) : Host.Outcome State Fault Refusal :=
  match i with
  | .powerOnReset => Sys2Proof.Machine.execPowerOnReset s
  | .resetNLow lowNs => Sys2Proof.Machine.execResetNLow lowNs s
  | .resetNRise unitId bootsel xref => Sys2Proof.Machine.execResetNRise unitId bootsel xref s
  | .dawnDone x => Sys2Proof.Machine.execDawnDone x s
  | .startModeApply => Sys2Proof.Machine.execStartModeApply s
  | .recoveryLoaderImage x => Sys2Proof.Machine.execRecoveryLoaderImage x s
  | .referenceTick => Sys2Proof.Machine.execReferenceTick s
  | .sampleStrobe x => Sys2Proof.Machine.execSampleStrobe x s
  | .loopTick x => Sys2Proof.Machine.execLoopTick x s
  | .carrierPeriod g vk peaks => Sys2Proof.Machine.execCarrierPeriod g vk peaks s
  | .blockBoundary x => Sys2Proof.Machine.execBlockBoundary x s
  | .deferredWriteApply => Sys2Proof.Machine.execDeferredWriteApply s
  | .commitApply => Sys2Proof.Machine.execCommitApply s
  | .modeRequest w => Sys2Proof.Machine.execModeRequest w s
  | .modeChangeApply => Sys2Proof.Machine.execModeChangeApply s
  | .setupComplete => Sys2Proof.Machine.execSetupComplete s
  | .runEntryOnLock => Sys2Proof.Machine.execRunEntryOnLock s
  | .holdoverEntry => Sys2Proof.Machine.execHoldoverEntry s
  | .holdoverReturn => Sys2Proof.Machine.execHoldoverReturn s
  | .holdoverExpired => Sys2Proof.Machine.execHoldoverExpired s
  | .hello m => Sys2Proof.Machine.execHello m s
  | .auth m => Sys2Proof.Machine.execAuth m s
  | .malformedMessage transport bytes => Sys2Proof.Machine.execMalformedMessage transport bytes s
  | .unknownOpcode op m => Sys2Proof.Machine.execUnknownOpcode op m s
  | .read m => Sys2Proof.Machine.execRead m s
  | .readm m => Sys2Proof.Machine.execReadm m s
  | .write m => Sys2Proof.Machine.execWrite m s
  | .writem m => Sys2Proof.Machine.execWritem m s
  | .blockRead m => Sys2Proof.Machine.execBlockRead m s
  | .blockWrite m => Sys2Proof.Machine.execBlockWrite m s
  | .stage m => Sys2Proof.Machine.execStage m s
  | .commit m => Sys2Proof.Machine.execCommit m s
  | .abort m => Sys2Proof.Machine.execAbort m s
  | .claim m => Sys2Proof.Machine.execClaim m s
  | .release m => Sys2Proof.Machine.execRelease m s
  | .subscribe m => Sys2Proof.Machine.execSubscribe m s
  | .unsubscribe m => Sys2Proof.Machine.execUnsubscribe m s
  | .poll m => Sys2Proof.Machine.execPoll m s
  | .cancel m => Sys2Proof.Machine.execCancel m s
  | .eventSend n => Sys2Proof.Machine.execEventSend n s
  | .impedance m => Sys2Proof.Machine.execImpedance m s
  | .identify m => Sys2Proof.Machine.execIdentify m s
  | .loadcheck m => Sys2Proof.Machine.execLoadcheck m s
  | .response m => Sys2Proof.Machine.execResponse m s
  | .loopFrf m => Sys2Proof.Machine.execLoopFrf m s
  | .analysisEnd h data => Sys2Proof.Machine.execAnalysisEnd h data s
  | .loadcheckSweepStart h => Sys2Proof.Machine.execLoadcheckSweepStart h s
  | .loadcheckTimeout h => Sys2Proof.Machine.execLoadcheckTimeout h s
  | .prepareRemoval m => Sys2Proof.Machine.execPrepareRemoval m s
  | .removalComplete => Sys2Proof.Machine.execRemovalComplete s
  | .restoreDefaults m => Sys2Proof.Machine.execRestoreDefaults m s
  | .restoreDefaultsApply => Sys2Proof.Machine.execRestoreDefaultsApply s
  | .calibrate m => Sys2Proof.Machine.execCalibrate m s
  | .calibrationStart c => Sys2Proof.Machine.execCalibrationStart c s
  | .calibrationDone c vOffset vGain iOffset iGain => Sys2Proof.Machine.execCalibrationDone c vOffset vGain iOffset iGain s
  | .updateLoad m => Sys2Proof.Machine.execUpdateLoad m s
  | .updateEraseDone => Sys2Proof.Machine.execUpdateEraseDone s
  | .updateVerifyDone x => Sys2Proof.Machine.execUpdateVerifyDone x s
  | .updateLoadTimeout => Sys2Proof.Machine.execUpdateLoadTimeout s
  | .updateActivate m => Sys2Proof.Machine.execUpdateActivate m s
  | .updateActivationBoundary => Sys2Proof.Machine.execUpdateActivationBoundary s
  | .updateMgmtRestart => Sys2Proof.Machine.execUpdateMgmtRestart s
  | .trimApply g => Sys2Proof.Machine.execTrimApply g s
  | .probationEnd => Sys2Proof.Machine.execProbationEnd s
  | .updateRollback => Sys2Proof.Machine.execUpdateRollback s
  | .updateAbort w => Sys2Proof.Machine.execUpdateAbort w s
  | .registerWrite index sub ty w => Sys2Proof.Machine.execRegisterWrite index sub ty w s
  | .snapReq w => Sys2Proof.Machine.execSnapReq w s
  | .todSet w => Sys2Proof.Machine.execTodSet w s
  | .incWrite w => Sys2Proof.Machine.execIncWrite w s
  | .refDomainWrite w => Sys2Proof.Machine.execRefDomainWrite w s
  | .handover => Sys2Proof.Machine.execHandover s
  | .domainNumberWrite d w => Sys2Proof.Machine.execDomainNumberWrite d w s
  | .actStateWrite a w => Sys2Proof.Machine.execActStateWrite a w s
  | .actionWrite a => Sys2Proof.Machine.execActionWrite a s
  | .actionCommit a => Sys2Proof.Machine.execActionCommit a s
  | .actionMode a => Sys2Proof.Machine.execActionMode a s
  | .actionStart a => Sys2Proof.Machine.execActionStart a s
  | .actionGpio a => Sys2Proof.Machine.execActionGpio a s
  | .sgStateWrite g w => Sys2Proof.Machine.execSgStateWrite g w s
  | .sgGo g w => Sys2Proof.Machine.execSgGo g w s
  | .gpioInputEdge pin rising => Sys2Proof.Machine.execGpioInputEdge pin rising s
  | .startSample g => Sys2Proof.Machine.execStartSample g s
  | .ptpEventStrobe m rx => Sys2Proof.Machine.execPtpEventStrobe m rx s
  | .syncMeasurement d m t1 logInterval => Sys2Proof.Machine.execSyncMeasurement d m t1 logInterval s
  | .announceReceive d gm => Sys2Proof.Machine.execAnnounceReceive d gm s
  | .delayReqSend d => Sys2Proof.Machine.execDelayReqSend d s
  | .syncTimeout d => Sys2Proof.Machine.execSyncTimeout d s
  | .refEdgeMissing => Sys2Proof.Machine.execRefEdgeMissing s
  | .wclkInEdge ppm => Sys2Proof.Machine.execWclkInEdge ppm s
  | .ppsInEdge => Sys2Proof.Machine.execPpsInEdge s
  | .frequencyEstimateDone tb => Sys2Proof.Machine.execFrequencyEstimateDone tb s
  | .lockWindowElapsed tb => Sys2Proof.Machine.execLockWindowElapsed tb s
  | .slewComplete => Sys2Proof.Machine.execSlewComplete s
  | .anchorBoundary => Sys2Proof.Machine.execAnchorBoundary s
  | .anchorPeriodEnd => Sys2Proof.Machine.execAnchorPeriodEnd s
  | .reanchorFadeIn => Sys2Proof.Machine.execReanchorFadeIn s
  | .firstAnchoring => Sys2Proof.Machine.execFirstAnchoring s
  | .dtbPortFailover d n0Delivers => Sys2Proof.Machine.execDtbPortFailover d n0Delivers s
  | .dtbFence d => Sys2Proof.Machine.execDtbFence d s
  | .streamPacket n udp checksumOk => Sys2Proof.Machine.execStreamPacket n udp checksumOk s
  | .streamFenceRetry n => Sys2Proof.Machine.execStreamFenceRetry n s
  | .streamFenceClear n w => Sys2Proof.Machine.execStreamFenceClear n w s
  | .streamCounterClear n w => Sys2Proof.Machine.execStreamCounterClear n w s
  | .streamLost n => Sys2Proof.Machine.execStreamLost n s
  | .pathDown n => Sys2Proof.Machine.execPathDown n s
  | .metadataApply o => Sys2Proof.Machine.execMetadataApply o s
  | .metaTimeout o => Sys2Proof.Machine.execMetaTimeout o s
  | .objectFenceClear o w => Sys2Proof.Machine.execObjectFenceClear o w s
  | .taskFinish l t => Sys2Proof.Machine.execTaskFinish l t s
  | .renderCut => Sys2Proof.Machine.execRenderCut s
  | .laneSelfTest l pass speed => Sys2Proof.Machine.execLaneSelfTest l pass speed s
  | .laneStall l => Sys2Proof.Machine.execLaneStall l s
  | .laneMigrationDone => Sys2Proof.Machine.execLaneMigrationDone s
  | .lanternReplace => Sys2Proof.Machine.execLanternReplace s
  | .laneFenceClear l w => Sys2Proof.Machine.execLaneFenceClear l w s
  | .microcodeRotationStep ok => Sys2Proof.Machine.execMicrocodeRotationStep ok s
  | .throttleRise sensor mv => Sys2Proof.Machine.execThrottleRise sensor mv s
  | .throttleFall => Sys2Proof.Machine.execThrottleFall s
  | .zeroCrossing key => Sys2Proof.Machine.execZeroCrossing key s
  | .zcWaitTimeout key => Sys2Proof.Machine.execZcWaitTimeout key s
  | .fallbackEngage c => Sys2Proof.Machine.execFallbackEngage c s
  | .fallbackRelease c => Sys2Proof.Machine.execFallbackRelease c s
  | .fallbackCrossfadeEnd c => Sys2Proof.Machine.execFallbackCrossfadeEnd c s
  | .ceilingPinned c => Sys2Proof.Machine.execCeilingPinned c s
  | .firCrossfadeEnd c => Sys2Proof.Machine.execFirCrossfadeEnd c s
  | .stateReqWrite n w => Sys2Proof.Machine.execStateReqWrite n w s
  | .manWrite n w => Sys2Proof.Machine.execManWrite n w s
  | .followingErrorTrip n => Sys2Proof.Machine.execFollowingErrorTrip n s
  | .slotFenceClear n w => Sys2Proof.Machine.execSlotFenceClear n w s
  | .flEnableWrite g w => Sys2Proof.Machine.execFlEnableWrite g w s
  | .flClear g w => Sys2Proof.Machine.execFlClear g w s
  | .flTrackerLock g period => Sys2Proof.Machine.execFlTrackerLock g period s
  | .flTrackerLoss g => Sys2Proof.Machine.execFlTrackerLoss g s
  | .flHoldWindowEnd g => Sys2Proof.Machine.execFlHoldWindowEnd g s
  | .flFadeDone g => Sys2Proof.Machine.execFlFadeDone g s
  | .learnerFenceClear g w => Sys2Proof.Machine.execLearnerFenceClear g w s
  | .pilotWindowEnd c k => Sys2Proof.Machine.execPilotWindowEnd c k s
  | .observerStore => Sys2Proof.Machine.execObserverStore s
  | .observerCoolOnLock => Sys2Proof.Machine.execObserverCoolOnLock s
  | .thermalHard c => Sys2Proof.Machine.execThermalHard c s
  | .thermalResumed c => Sys2Proof.Machine.execThermalResumed c s
  | .driftWindowEnd c a b => Sys2Proof.Machine.execDriftWindowEnd c a b s
  | .chEnWrite c w => Sys2Proof.Machine.execChEnWrite c w s
  | .startSequence c ronA ronB => Sys2Proof.Machine.execStartSequence c ronA ronB s
  | .orderlyStop c => Sys2Proof.Machine.execOrderlyStop c s
  | .fastStop c => Sys2Proof.Machine.execFastStop c s
  | .shortDeclared c => Sys2Proof.Machine.execShortDeclared c s
  | .shortProbe c => Sys2Proof.Machine.execShortProbe c s
  | .probeDone c n => Sys2Proof.Machine.execProbeDone c n s
  | .dcFault c => Sys2Proof.Machine.execDcFault c s
  | .channelFenceClear c w => Sys2Proof.Machine.execChannelFenceClear c w s
  | .busOvervoltage g mv => Sys2Proof.Machine.execBusOvervoltage g mv s
  | .busOvRearm g mv => Sys2Proof.Machine.execBusOvRearm g mv s
  | .busUndervoltageMute g => Sys2Proof.Machine.execBusUndervoltageMute g s
  | .busUvRestore g => Sys2Proof.Machine.execBusUvRestore g s
  | .starvation g => Sys2Proof.Machine.execStarvation g s
  | .starvationRecovery g => Sys2Proof.Machine.execStarvationRecovery g s
  | .vauxUvlo g mv => Sys2Proof.Machine.execVauxUvlo g mv s
  | .vauxRecover g mv => Sys2Proof.Machine.execVauxRecover g mv s
  | .vcoreStallResume mv => Sys2Proof.Machine.execVcoreStallResume mv s
  | .muteNLow => Sys2Proof.Machine.execMuteNLow s
  | .muteNHigh => Sys2Proof.Machine.execMuteNHigh s
  | .engageNHigh => Sys2Proof.Machine.execEngageNHigh s
  | .withdrawalGatesOff => Sys2Proof.Machine.execWithdrawalGatesOff s
  | .hotswapRampStart g => Sys2Proof.Machine.execHotswapRampStart g s
  | .hotswapPowerGood g mv => Sys2Proof.Machine.execHotswapPowerGood g mv s
  | .hotswapFault g => Sys2Proof.Machine.execHotswapFault g s
  | .hotswapRetry g => Sys2Proof.Machine.execHotswapRetry g s
  | .hsClear w => Sys2Proof.Machine.execHsClear w s
  | .measChannelsWrite w => Sys2Proof.Machine.execMeasChannelsWrite w s
  | .gStateWrite g w => Sys2Proof.Machine.execGStateWrite g w s
  | .gLevelWrite g w => Sys2Proof.Machine.execGLevelWrite g w s
  | .generatorStart g => Sys2Proof.Machine.execGeneratorStart g s
  | .generatorEnd g => Sys2Proof.Machine.execGeneratorEnd g s
  | .cStateWrite k w => Sys2Proof.Machine.execCStateWrite k w s
  | .captureTrigger k => Sys2Proof.Machine.execCaptureTrigger k s
  | .captureDone k => Sys2Proof.Machine.execCaptureDone k s
  | .resFree r w => Sys2Proof.Machine.execResFree r w s
  | .tdmFrame p count bclkHz bits => Sys2Proof.Machine.execTdmFrame p count bclkHz bits s
  | .portNoClock p => Sys2Proof.Machine.execPortNoClock p s
  | .portAcquired u => Sys2Proof.Machine.execPortAcquired u s
  | .rateMismatchRecover u => Sys2Proof.Machine.execRateMismatchRecover u s
  | .formatErrorRecover p => Sys2Proof.Machine.execFormatErrorRecover p s
  | .pauseAtWrite p w => Sys2Proof.Machine.execPauseAtWrite p w s
  | .resumeAtWrite p w => Sys2Proof.Machine.execResumeAtWrite p w s
  | .pauseEffective p => Sys2Proof.Machine.execPauseEffective p s
  | .resumeEffective p => Sys2Proof.Machine.execResumeEffective p s
  | .portFenceClear u w => Sys2Proof.Machine.execPortFenceClear u w s
  | .aes3Frame a f => Sys2Proof.Machine.execAes3Frame a f s
  | .aes3CsBlockEnd a => Sys2Proof.Machine.execAes3CsBlockEnd a s
  | .aes3NoSignal a => Sys2Proof.Machine.execAes3NoSignal a s
  | .linkChange m speed full => Sys2Proof.Machine.execLinkChange m speed full s
  | .frameReceive m bytes fcsOk => Sys2Proof.Machine.execFrameReceive m bytes fcsOk s
  | .txFifoEnter m => Sys2Proof.Machine.execTxFifoEnter m s
  | .monitorDrop k => Sys2Proof.Machine.execMonitorDrop k s
  | .igmpQuery m version group => Sys2Proof.Machine.execIgmpQuery m version group s
  | .igmpReportRepeat m => Sys2Proof.Machine.execIgmpReportRepeat m s
  | .arpPacket m op sip smac tip => Sys2Proof.Machine.execArpPacket m op sip smac tip s
  | .arpCacheExpiry m => Sys2Proof.Machine.execArpCacheExpiry m s
  | .icmpEcho m src body => Sys2Proof.Machine.execIcmpEcho m src body s
  | .dhcpMessage m type addr prefixLen leaseS => Sys2Proof.Machine.execDhcpMessage m type addr prefixLen leaseS s
  | .dhcpFallbackTimeout m => Sys2Proof.Machine.execDhcpFallbackTimeout m s
  | .dhcpRetry m => Sys2Proof.Machine.execDhcpRetry m s
  | .addressConflict m addr => Sys2Proof.Machine.execAddressConflict m addr s
  | .canFrameReceive id fd ext data => Sys2Proof.Machine.execCanFrameReceive id fd ext data s
  | .canReasmTimeout => Sys2Proof.Machine.execCanReasmTimeout s
  | .canFrameSend => Sys2Proof.Machine.execCanFrameSend s
  | .canStateChange new tec rec => Sys2Proof.Machine.execCanStateChange new tec rec s
  | .sessionTimeout n => Sys2Proof.Machine.execSessionTimeout n s
  | .pendingSessionExpiry n => Sys2Proof.Machine.execPendingSessionExpiry n s
  | .lockoutExpiry => Sys2Proof.Machine.execLockoutExpiry s
  | .lockoutClear session role => Sys2Proof.Machine.execLockoutClear session role s
  | .blockTransferTimeout n => Sys2Proof.Machine.execBlockTransferTimeout n s
  | .handleRecordExpiry h => Sys2Proof.Machine.execHandleRecordExpiry h s
  | .keyWrite m => Sys2Proof.Machine.execKeyWrite m s
  | .keyClear w => Sys2Proof.Machine.execKeyClear w s
  | .releaseAreaWrite w => Sys2Proof.Machine.execReleaseAreaWrite w s
  | .dtbFenceClear d session role => Sys2Proof.Machine.execDtbFenceClear d session role s
  | .watchdogExpiry => Sys2Proof.Machine.execWatchdogExpiry s
  | .mgmtReturn => Sys2Proof.Machine.execMgmtReturn s
  | .absenceGuard => Sys2Proof.Machine.execAbsenceGuard s
  | .stateDiverge k => Sys2Proof.Machine.execStateDiverge k s
  | .stateDivergeRecheck k still => Sys2Proof.Machine.execStateDivergeRecheck k still s
  | .sensorRead t mv => Sys2Proof.Machine.execSensorRead t mv s
  | .fanWindow pulses => Sys2Proof.Machine.execFanWindow pulses s
  | .logWrite => Sys2Proof.Machine.execLogWrite s
  | .lifetimeStore => Sys2Proof.Machine.execLifetimeStore s
  | .engageNLow => Sys2Proof.Machine.execEngageNLow s
  | .xrefArrival => Sys2Proof.Machine.execXrefArrival s
  | .delayRespReceive d ns => Sys2Proof.Machine.execDelayRespReceive d ns s
  | .slackWindowEnd => Sys2Proof.Machine.execSlackWindowEnd s
  | .powerGoodLost g => Sys2Proof.Machine.execPowerGoodLost g s

end Sys2Proof.Machine
end

