-- ==== Sys2Proof/Safety.lean ====
section
/-!
DEFINITION. Safety.lean: what holds of every state that a run reaches, and the terms in which the statements speak of a
command.
-/

namespace Sys2Proof.Machine

/-- The dictionary and the ferroelectric store are in canonical form: keys rise, nothing is listed at its default. -/
def State.Canonical (s : State) : Prop :=
  Tbl.wf Dict.dflt s.dict = true ∧ Tbl.wf (fun _ => (none : Option Value)) s.store = true

/-- Every entry of the dictionary holds a value of its type, within its full range (R6, R7, Table 00-4). -/
def State.Typed (s : State) : Prop :=
  ∀ k r, Dict.row k = some r → r.ty.ok (s.get k) = true

/-- A CONST entry holds its default, and an index that no table gives holds nothing (Table 13-3, R391). -/
def State.Fixed (s : State) : Prop :=
  (∀ k r, Dict.row k = some r → r.acc = .const → s.get k = Dict.dflt k) ∧
  (∀ k, Dict.row k = none → s.get k = .num 0)

/-- The invariant of the block. -/
def State.Inv (s : State) : Prop := s.Canonical ∧ s.Typed ∧ s.Fixed

/-! ### How statements speak of a command -/

/-- The command completes at `s`, in a state of which `P` holds. -/
def Completes (c : Instr) (s : State) (P : State → Prop) : Prop := ∃ t, exec c s = .next t ∧ P t

/-- What stays: every entry outside `ks`, the mode and the ferroelectric store. -/
def State.Frame (s : State) (ks : List Nat) (t : State) : Prop :=
  (∀ k, k ∉ ks → t.get k = s.get k) ∧ t.mode = s.mode ∧ t.store = s.store

/-- What stays: every entry whose index lies outside the areas, the mode and the ferroelectric store. -/
def State.Within (s : State) (areas : List Nat) (t : State) : Prop :=
  (∀ k, k / 65536 ∉ areas → t.get k = s.get k) ∧ t.mode = s.mode ∧ t.store = s.store

/-- A write that the device serves and accepts (R397). -/
def State.Accepts (s : State) (w : EntryWrite) (k : Nat) : Prop :=
  s.serves = true ∧ s.writeStatus w.writer k none w.value = St.ok

/-- The command is an accepted write that waits for its boundary: the last of those that wait, the only one of its entry
(R395), answered OK with the boundary. -/
def Waits (c : Instr) (k : Nat) (w : EntryWrite) : Prop :=
  ∀ s : State, s.Accepts w k → Completes c s fun t =>
    t.units.waiting = s.units.waiting.filter (fun x => x.key != k) ++ [⟨k, w.value, w.role, w.session⟩] ∧
    t.units.answer = (St.ok, s.effectTime w.writer k) ∧ s.Frame [] t

/-- The command is an accepted write of `n` to the entry `k` that acts at once: at a state with `H` it leaves one with `P`,
and is answered what R397 and R476 say. -/
def Writes (c : Instr) (k : Nat) (w : EntryWrite) (n : Int) (H : State → Prop) (P : State → State → Prop) : Prop :=
  ∀ s : State, s.Accepts w k → w.value = .num n → H s → Completes c s fun t =>
    P s t ∧ t.units.answer = s.writeReply w.writer k none w.value

/-- An entry to which no chapter ties an effect of its own when a written value takes effect (R395). -/
def PlainEntry (k : Nat) : Prop :=
  (∀ v, reserved k v = v) ∧ isZcEntry (k / 256) (k % 256) = false ∧
  ¬ (0x6000 ≤ k / 256 ∧ k / 256 < 0x6010 ∧ 18 ≤ k % 256 ∧ k % 256 ≤ 20) ∧
  ∀ (w : Writer) (v : Value), ((specialEffects w k v).find? fun e =>
    decide (e.1 ≤ k / 256 ∧ k / 256 < e.1 + e.2.1) && k % 256 == e.2.2.1).isNone = true

/-- An entry to which no chapter ties an effect of its own when a commit is applied (R417). -/
def PlainCommit (k : Nat) : Prop :=
  isLayoutKey k = false ∧ isCostKey k = false ∧ k ≠ Key.mtb.FS_SELECT ∧
  k / 65536 ∉ [0x21, 0x40, 0x50, 0x61, 0x62, 0x71, 0x81, 0x82]

/-- A learner may change its state now: the tick has run and no change has taken place at it (R239). -/
def State.flFree (s : State) (g : Nat) : Bool := s.ticked && (s.learner g).changedAt != some s.tickNow

/-- A session is open to a request with opcode `op`: every check of R406 and R407 passes. -/
structure State.Hears (s : State) (op : Nat) (m : CdlMsg) (x : Session) : Prop where
  serves : s.serves = true
  sound : soundMsg m = true
  session : s.session m.session = some x
  live : x.ended = false ∧ x.isOpen = true
  peer : samePeer x.peer m.peer = true
  tag : m.tag = cdlTag x.key (cdlHeader 0 m.session m.sequence op m.status m.payload.length) m.payload
  fresh : x.sLast < m.sequence

/-- The state at which a request is carried out: the message is taken, and the session has noted it (R407). -/
def State.noted (s : State) (op : Nat) (m : CdlMsg) : State :=
  s.run [canTake m, .session m.session fun y => y.map fun y => { y with
    sLast := m.sequence, lastOp := op + 256 * m.status, lastReq := m.payload, lastAt := s.mtbNs }]

/-- The session has answered the request with a status and a body, and keeps the answer (R407). -/
def State.Answered (t : State) (op : Nat) (m : CdlMsg) (st : Nat) (body : List Byte) : Prop :=
  ∃ y, t.session m.session = some y ∧ y.sLast = m.sequence ∧ y.lastOp = op + 256 * m.status ∧ y.lastReq = m.payload ∧
    y.cacheStatus = st ∧ y.cacheBody = body

/-- An EXEC with these arguments reaches its operation: it is heard, and fewer than 64 operations run (R423). -/
def State.Starts (s : State) (op : Nat) (m : CdlMsg) (x : Session) (args : List Byte) : Prop :=
  s.Hears 0x50 m x ∧ m.payload = le 2 op ++ le 2 0 ++ args ∧ (s.noted 0x50 m).running < 64

/-- The operation was accepted with the next handle, and runs (R423). -/
def State.Started (s : State) (op : Nat) (m : CdlMsg) (t : State) : Prop :=
  t.Answered 0x50 m St.accepted (le 2 s.nextHandle ++ le 2 0) ∧
  ∃ y, t.handle s.nextHandle = some y ∧ y.op = op ∧ y.session = m.session ∧ y.finished = false

/-- An analysis under handle `h` fills a result object (R320). -/
def State.Analysing (t : State) (chans slot h : Nat) : Prop :=
  ∃ r < 64, t.num (Key.res.RES_STATE r) = 1 ∧ t.nat (Key.res.RES_HANDLE r) = h ∧ t.nat (Key.res.RES_CHANNELS r) = chans ∧
    ∃ y, t.handle h = some y ∧ y.chans = chans ∧ y.slot = slot ∧ y.result = 0x9100 + r

end Sys2Proof.Machine
end

