-- ==== Sys2Proof/Certificates/Slice0/Obligations.lean ====
section
/-!
DEFINITION. Certificates/Slice0/Obligations.lean: the statements for the provers.
-/

open Sys2Proof Sys2Proof.Machine

/-- A step takes the command at the front of the queue and runs exec on it; with none waiting the block idles. For every
command c, state s and queue q: the step of s with c in front of q is exec c on s with the queue q. With an empty
queue the step answers the same state, which is the model's choice (log 80). (00_scope.md, 95_what_each_step_holds.md) -/
def Obligations.StepRunsFrontCommand : Prop :=
  (∀ (c : Instr) (s : State) (q : List Instr), step { s with pending := c :: q } = exec c { s with pending := q }) ∧
  ∀ s : State, s.pending = [] → step s = .next s

/-- No command changes the queue of commands. Whatever the command, the commands that wait behind it wait on in the state
it leaves. (95_what_each_step_holds.md) -/
def Obligations.CommandsKeepTheQueue : Prop :=
  ∀ (c : Instr) (s t : State), exec c s = .next t → t.pending = s.pending

/-- Only a reference tick advances the MTB counter, by INC; only a reset clears it. Every command leaves the MTB counter,
but REFERENCE_TICK adds INC to it and POWER_ON_RESET and RESET_N_LOW may set it to 0. (R46, R437, R442) -/
def Obligations.MediaClockMovesByTicksAndResets : Prop :=
  ∀ (c : Instr) (s t : State), exec c s = .next t →
    t.mtb = s.mtb ∨
    (c = .referenceTick ∧ t.mtb = s.mtb + BitVec.ofInt 96 (s.num Key.mtb.INC)) ∨
    ((c = .powerOnReset ∨ ∃ ns, c = .resetNLow ns) ∧ t.mtb = 0)

/-- Every command goes on, but a return from a stall below 0.38 V. No command is refused; the only fault is that of
VCORE_STALL_RESUME below 380 mV, where the manual calls the state undefined; at or above it the logic resumes from the
retained state. That the undefined state is a fault is the model's design choice (log 86), and so is that no command
is refused: one that comes when its instant has not changes nothing (log 83). (R441, 95_what_each_step_holds.md) -/
def Obligations.OnlyDeepStallStops : Prop :=
  ∀ (c : Instr) (s : State),
    (∀ r, exec c s ≠ .refused r) ∧
    (∀ f, exec c s = .fault f ↔ f = .stateUndefined ∧ ∃ mv, c = .vcoreStallResume mv ∧ mv < 380) ∧
    (∀ mv, 380 ≤ mv → exec (.vcoreStallResume mv) s = .next s)

/-- Every step keeps the canonical form, the types and the constants of the dictionary. From every state, reached or not,
in which the dictionary and the store are in canonical form, every entry holds a value of its type and every CONST
entry its default, a step that answers a next state answers one in which all of this holds again. (R6, R7, R391,
13_dictionary_and_cdl.md) -/
def Obligations.EveryStepKeepsTheInvariant : Prop :=
  ∀ s t : State, s.Inv → step s = .next t → t.Inv

/-- The state after reset is in BOOT, with nothing queued, and meets the invariant. State.reset has the mode BOOT, an
empty queue, an MTB counter of 0, every entry at its default and an empty store, and meets the invariant. The empty
store (log 91), and the value of an entry whose default the tables leave as a dash (log 82), are the model's choices.
(R437, 14_modes_and_startup.md) -/
def Obligations.ResetMeetsTheInvariant : Prop :=
  State.reset.Inv ∧ State.reset.mode = .boot ∧ State.reset.pending = [] ∧ State.reset.mtb = 0 ∧
    (∀ k, State.reset.get k = Dict.dflt k) ∧ State.reset.store = []

/-- What may change the mode: resets, dawn, and the commands of the mode machine and of block boundaries. Whatever the
state, a command that leaves another mode than it found is one of those named. No other command changes it: no request
of a session but as its waiting write takes effect, and no stream, port, protection or measurement command. (R431,
R432, R434, R435, R445, R446, R447, R437) -/
def Obligations.OnlyTheModeMachineChangesTheMode : Prop :=
  ∀ (c : Instr) (s t : State), exec c s = .next t → t.mode ≠ s.mode →
    (match c with
     | .powerOnReset | .resetNLow _ | .dawnDone _ | .setupComplete | .runEntryOnLock | .holdoverEntry | .holdoverReturn
     | .holdoverExpired | .modeChangeApply | .startModeApply | .blockBoundary _ | .deferredWriteApply | .commitApply
     | .actionWrite _ | .actionCommit _ | .actionMode _ | .handover | .restoreDefaultsApply => True
     | _ => False)

/-- A power-on reset, and RESET_N low for 10 µs, enter BOOT with every entry but a lane's fence at its default; a low of
at most 1 µs is ignored. POWER_ON_RESET leaves BOOT, an MTB counter of 0 and the store as it was; a fenced lane stays
fenced (R204); with RESET_N low every other entry is at its default, with RESET_N high the dawn sequence has begun
with the fans at full speed. RESET_N_LOW for at least 10 µs does the same with cause 1 and RESET_N low; for at most 1
µs, or while RESET_N is low, it changes nothing. (R204, R437, R442, R399, 14_modes_and_startup.md) -/
def Obligations.PowerOnAndResetPinEnterBoot : Prop :=
  (∀ s : State, Completes .powerOnReset s fun t =>
      t.mode = .boot ∧ t.mtb = 0 ∧ t.store = s.store ∧ t.pending = s.pending ∧ t.units.log = s.units.log ∧
      (s.units.pins.resetN = false → ∀ k, t.get k =
        if s.fencedLanes.any (fun l => decide (k = Key.lane.LANE_STATE l ∨ k = Key.lane.FENCE_CAUSE l)) then s.get k else Dict.dflt k) ∧
      (s.units.pins.resetN = true → t.units.pins.dawnAt = some 0 ∧ ∀ g < 4, t.num (Key.fan.FAN_DUTY g) = 2147483647)) ∧
  (∀ (s : State) (ns : Nat), s.units.pins.resetN = true → 10000 ≤ ns → Completes (.resetNLow ns) s fun t =>
      t.mode = .boot ∧ t.mtb = 0 ∧ t.store = s.store ∧ t.pending = s.pending ∧ t.units.log = s.units.log ∧
      t.units.pins.resetN = false ∧ t.units.pins.cause = 1 ∧
      ∀ k, t.get k = if s.fencedLanes.any (fun l => decide (k = Key.lane.LANE_STATE l ∨ k = Key.lane.FENCE_CAUSE l)) then s.get k
        else Dict.dflt k) ∧
  (∀ (s : State) (ns : Nat), s.units.pins.resetN = false ∨ ns ≤ 1000 → exec (.resetNLow ns) s = .next s)

/-- The rise of RESET_N latches the straps and begins the dawn sequence; XREF and a recovered image let it go on.
RESET_N_RISE in BOOT latches UNIT_ID, CAN_NODE, BOOTSEL and XREF, runs the fans at full duty and begins the dawn
sequence, which waits without XREF. XREF_ARRIVAL ends that wait. RECOVERY_LOADER_IMAGE of a verified image of
sufficient security version fills bank A and begins the sequence from it. (R437, R486, 14_modes_and_startup.md) -/
def Obligations.DawnSequenceBegins : Prop :=
  (∀ (s : State) (u : Fin 64) (b x : Bool), s.mode = .boot → s.units.pins.resetN = false →
      Completes (.resetNRise u b x) s fun t =>
        t.nat Key.mode.UNIT_ID = u ∧ t.nat Key.can.CAN_NODE = u ∧ (∀ g < 4, t.num (Key.fan.FAN_DUTY g) = 2147483647) ∧
        t.units.pins.resetN = true ∧ t.units.pins.bootsel = b ∧ t.units.pins.xref = x ∧
        t.units.pins.dawnAt = some s.mtbNs ∧ t.units.pins.dawnWait = !x ∧
        s.Frame [Key.mode.UNIT_ID, Key.can.CAN_NODE, Key.fan.FAN_DUTY 0, Key.fan.FAN_DUTY 1, Key.fan.FAN_DUTY 2, Key.fan.FAN_DUTY 3] t) ∧
  (∀ s : State, s.units.pins.xref = false → s.units.pins.dawnWait = true → Completes .xrefArrival s fun t =>
        t.units.pins.xref = true ∧ t.units.pins.dawnWait = false ∧ t.units.pins.dawnAt = some s.mtbNs ∧ s.Frame [] t) ∧
  (∀ (s : State) (x : ImageInfo), s.mode = .boot → s.units.pins.recovery = true → x.ok = true →
      s.secStored ≤ x.security → Completes (.recoveryLoaderImage x) s fun t =>
        (t.bankImage 0).version = x.version ∧ (t.bankImage 0).security = x.security ∧ t.units.pins.recovery = false ∧
        t.units.pins.fromA = true ∧ t.units.pins.dawnAt = some s.mtbNs ∧ t.mode = .boot ∧ t.store = s.store)

/-- The dawn sequence ends in SAFE, or in BOOT with the recovery loader; START_MODE is acted on once. DAWN_DONE with a
bank to load runs it and enters SAFE, every lane whose checksum failed fenced; without one it stays in BOOT with the
recovery loader running, and no entry changes. START_MODE_APPLY at the first boundary in SAFE takes START_MODE, as the
dawn sequence found it, as the request: 2 or 3 begins, where the layout allows it, the setup that leaves SAFE with
reason 2. (R437, R438, R439) -/
def Obligations.DawnDoneEntersSafe : Prop :=
  (∀ (s : State) (x : DawnResult) (b : Nat), s.mode = .boot → s.units.pins.resetN = true → s.units.pins.dawnAt.isSome = true →
      s.units.pins.dawnWait = false → s.loadedBank x = some b → Completes (.dawnDone x) s fun t =>
        t.mode = .safe ∧ t.nat Key.upd.ACTIVE_BANK = b ∧ t.num Key.rsn.PREV_MODE = 0 ∧ t.units.mgmt.served = true ∧
        ∀ l ∈ x.badLanes, t.healthy l = false) ∧
  (∀ (s : State) (x : DawnResult), s.mode = .boot → s.units.pins.resetN = true → s.units.pins.dawnAt.isSome = true →
      s.units.pins.dawnWait = false → s.loadedBank x = none → Completes (.dawnDone x) s fun t =>
        t.units.pins.recovery = true ∧ t.units.pins.dawnAt = none ∧ s.Frame [] t) ∧
  (∀ s : State, s.mode = .safe → s.units.mgmt.startDone = false → s.units.mgmt.setupTo = none → s.layoutForbids = false →
      s.atBoundary = true → s.units.mgmt.startTo ∈ [2, 3] → Completes .startModeApply s fun t =>
        t.units.mgmt.startDone = true ∧ t.units.mgmt.setupTo = some (s.units.mgmt.startTo, 2) ∧ t.nat Key.mode.MODE_REQUEST =
          s.units.mgmt.startTo ∧ t.num Key.rsn.WAIT_STATE = 1 ∧ t.mode = .safe)

/-- A reference tick adds INC to the MTB counter and each DTB's increment to its counter. REFERENCE_TICK adds INC to the
96-bit MTB counter and DTB_INC to the counter of every enabled domain, holds the others at 0, and leaves every entry
but SLEW_REMAINING. (R46, R49, 02_media_time.md) -/
def Obligations.ReferenceTickAdvances : Prop :=
  ∀ s : State, Completes .referenceTick s fun t =>
    t.mtb = s.mtb + BitVec.ofInt 96 (s.num Key.mtb.INC) ∧
    (∀ d < 4, (t.tbase d).count = if s.dtbOn d then (s.tbase d).count + BitVec.ofInt 96 (s.num (Key.dtb.DTB_INC d)) else 0) ∧
    s.Frame [Key.servo.SLEW_REMAINING] t

/-- SAMPLE_STROBE, LOOP_TICK, CARRIER_PERIOD and BLOCK_BOUNDARY complete in every state, and do the work of their instant.
Each of the four answers a next state from every state. SAMPLE_STROBE: every channel's chain gate takes its step, its
output history takes v_lin as it stood before the strobe and keeps 129 samples, and in a mode that runs chains every
chain takes the sample that is to play (it works ahead of the strobe, log 26) and keeps the one before; SAMPLE_INDEX
is the sample that plays. LOOP_TICK: each group takes its bus sample into its block mean, each channel its sensed
voltage and current, and a slot that is due, OPEN, unramped and with nothing waiting drives MAN within its limits;
TICK_INDEX is the tick. CARRIER_PERIOD: a bridge that switches takes edges for a q within the bound of R273, moved by
the compensation of the dead time (log 167), and each leg trips above I_LIM, counted; one that does not switch takes
none. BLOCK_BOUNDARY: SAMPLE_PHASE_ERR shows the strobe's error, no write waits any more where the management
processor serves, each group's mean is that of the block's bus samples, and a new mean begins. (R53, R77, R207, R220,
R224, R273, R275, R285, R286, R292, R181) -/
def Obligations.StrobesStampTheirInstant : Prop :=
  (∀ (s : State) (x : StrobeSense), Completes (.sampleStrobe x) s fun t =>
      t.num Key.mtb.SAMPLE_INDEX = (s.sampleNow : Int) % 2 ^ 64 ∧ t.mode = s.mode ∧ t.store = s.store ∧
      ∀ c < 16, (t.chan c).gc = (if (s.chan c).gc.atRest then (s.chan c).gc else (s.chan c).gc.step) ∧
        (t.chan c).vHist = ((s.chan c).vLin :: (s.chan c).vHist).take 129 ∧
        (s.mode.chains = true → (t.chan c).worked = some s.chainSample ∧ (t.chan c).s8Prev = (s.chan c).s8)) ∧
  (∀ (s : State) (x : LoopSense), Completes (.loopTick x) s fun t =>
      t.num Key.loop.TICK_INDEX = (s.tickNow : Int) % 2 ^ 64 ∧
      (∀ g < 4, (t.group g).vbus = x.vbus.getD g 0 ∧ (t.group g).vSum = (s.group g).vSum + x.vbus.getD g 0 ∧
        (t.group g).vTicks = (s.group g).vTicks + 1) ∧
      (∀ c < 16, (t.chan c).vSense = x.vOut.getD c 0 ∧ (t.chan c).iSense = x.iOut.getD c 0) ∧
      ∀ n : Fin 64, s.mode ≠ .boot → s.units.anchor.phase ≠ 2 → 64 ≤ x.capacity → n ∉ x.badCheck → s.slotDue s.tickNow n = true →
        s.slotState n = 0 → s.num (Key.ls.MAN_RATE n) = 0 → (s.slot n).reqWait = none → (s.slot n).manWait = none →
        (s.slot n).injOut = 0 → (∀ g < 4, (s.gen g).point < 2) →
        t.num (Key.ls.U_NOW n) = s.clampU n (sat32 (s.clampU n (s.num (Key.ls.MAN n)))) ∧ (t.slot n).ran = true ∧ t.slotState n = 0) ∧
  (∀ (s : State) (g : Fin 4) (vk : Int) (peaks : List (Int × Int)), Completes (.carrierPeriod g vk peaks) s fun t =>
      (t.group g).vNow = vk ∧ t.mode = s.mode ∧ t.store = s.store ∧
      ∀ i < 4, (s.switching (4 * g + i) = false → (t.chan (4 * g + i)).pwm = (0, 0, 0, 0)) ∧
        (s.switching (4 * g + i) = true → (s.chan (4 * g + i)).releaseDue = false →
          (t.chan (4 * g + i)).tripped = (decide (s.iLim (4 * g + i) < ((peaks.getD i (0, 0)).1 : Rat) / 16777216),
            decide (s.iLim (4 * g + i) < ((peaks.getD i (0, 0)).2 : Rat) / 16777216)) ∧
          t.num (Key.pw.LIMITED_PERIODS (4 * g + i)) = (s.num (Key.pw.LIMITED_PERIODS (4 * g + i)) +
            if (t.chan (4 * g + i)).tripped = (false, false) then 0 else 1) % 2 ^ 32 ∧
          ∃ q : Int, 2 * |(q : Rat)| ≤ mMax (s.nat (Key.pg.FSW_SEL g)) * carrierSteps (s.nat (Key.pg.FSW_SEL g)) ∧
            (t.chan (4 * g + i)).pwm = deadTimed (s.chan (4 * g + i)).iSense.sign
              (edges (carrierSteps (s.nat (Key.pg.FSW_SEL g))) (s.nat (Key.pw.STAGGER (4 * g + i))) q))) ∧
  (∀ (s : State) (x : BlockSense), Completes (.blockBoundary x) s fun t =>
      t.num Key.mtb.SAMPLE_PHASE_ERR = max (-32768) (min 32767 x.phaseErr) ∧
      (s.units.mgmt.served = true → s.mode ≠ .boot → t.units.waiting = []) ∧
      ∀ g < 4, (t.group g).vSum = 0 ∧ (t.group g).vTicks = 0 ∧ (t.group g).vMean =
        if (s.group g).vTicks = 0 then (s.group g).vMean else (s.group g).vSum / (2 ^ 20 * (s.group g).vTicks : Nat))

/-- An accepted write of an entry that takes effect at a block boundary waits for it, and nothing else changes. For each
command that writes one entry whose instant is the block boundary: where the device serves and the tests of R397 pass,
the write is the last that waits and the only one of its entry, it is answered OK with the effect TIME of R412, and no
entry, mode or stored value changes before the boundary; but a MODE_REQUEST other than SAFE ends the hold of a planned
removal at once (R455). The record of the answer is the model's own (log 90). (R395, R397, R412, R455) -/
def Obligations.WaitingWritesAreAccepted : Prop :=
  ∀ w : EntryWrite,
    (∀ s : State, s.Accepts w Key.mode.MODE_REQUEST → Completes (.modeRequest w) s fun t =>
      t.units.waiting = s.units.waiting.filter (fun x => x.key != Key.mode.MODE_REQUEST) ++
        [⟨Key.mode.MODE_REQUEST, w.value, w.role, w.session⟩] ∧
      t.units.answer = (St.ok, s.effectTime w.writer Key.mode.MODE_REQUEST) ∧
      s.Frame [Key.hs.HS_STATE_PG 0, Key.hs.HS_STATE_PG 1, Key.hs.HS_STATE_PG 2, Key.hs.HS_STATE_PG 3] t ∧
      (if w.value.int = 1 ∨ s.units.mgmt.removed = false then s.Frame [] t else t.units.mgmt.removed = false)) ∧
    Waits (.refDomainWrite w) Key.ref.REF_DOMAIN w ∧
    Waits (.measChannelsWrite w) Key.meas.MEAS_CHANNELS w ∧
    (∀ d, Waits (.domainNumberWrite d w) (Key.dtb.DOMAIN_NUMBER d) w) ∧
    (∀ a, Waits (.actStateWrite a w) (Key.act.ACT_STATE a) w) ∧
    (∀ g, Waits (.sgStateWrite g w) (Key.sg.SG_STATE g) w) ∧ (∀ g, Waits (.sgGo g w) (Key.sg.SG_GO g) w) ∧
    (∀ n, Waits (.stateReqWrite n w) (Key.ls.STATE_REQ n) w) ∧ (∀ n, Waits (.manWrite n w) (Key.ls.MAN n) w) ∧
    (∀ g, Waits (.flEnableWrite g w) (Key.fl.FL_ENABLE g) w) ∧ (∀ c, Waits (.chEnWrite c w) (Key.pw.CH_EN c) w) ∧
    (∀ g, Waits (.gStateWrite g w) (Key.gen.G_STATE g) w) ∧ (∀ k, Waits (.cStateWrite k w) (Key.cap.C_STATE k) w)

/-- A refused write changes no entry but those that report the refusal of a commit. REGISTER_WRITE of any entry, refused
by a test of R397, answers the status. Of an entry that is not RWS, and of an RWS entry that fails one of the tests
before those of its chapter or is to join an open transaction, it leaves every entry, the mode, the store, the waiting
writes and the sessions. Of an RWS entry that is a transaction of its own (R396), whose commit is refused, only
LAYOUT_ERROR and LAYOUT_ERROR_REC (R516) and LAST_REFUSED and REFUSALS with the event of R189 may report it. While the
device does not serve, it does nothing at all. The record of the answer is the model's own (log 90). (R397, R430,
R396, R189, R516) -/
def Obligations.RefusedWritesChangeNothing : Prop :=
  ∀ (s : State) (index sub ty : Nat) (t' : Ty) (w : EntryWrite) (r : Row), Ty.ofCode ty = some t' →
    Dict.row (index * 256 + sub) = some r →
    (s.serves = true → s.writeStatus w.writer (index * 256 + sub) (some t') w.value ≠ St.ok →
      (r.acc ≠ .rws ∨ firstFault (s.headFaults w.writer (index * 256 + sub) (some t') w.value) ≠ St.ok ∨ (s.txn w.session).isSome = true →
        Completes (.registerWrite index sub ty w) s fun t =>
          s.Frame [] t ∧ t.units = { s.units with answer := (s.writeStatus w.writer (index * 256 + sub) (some t') w.value, 0) }) ∧
      (r.acc = .rws → Completes (.registerWrite index sub ty w) s fun t =>
        s.Frame [Key.lay.LAYOUT_ERROR, Key.lay.LAYOUT_ERROR_REC, Key.cost.LAST_REFUSED, Key.cost.REFUSALS, Key.evt.EVT_RAISED] t ∧
        t.units.answer = (s.writeStatus w.writer (index * 256 + sub) (some t') w.value, 0) ∧
        t.units.waiting = s.units.waiting ∧ (∀ n, (t.session n).map (·.commit) = (s.session n).map (·.commit) ∧
          (t.session n).map (·.ownCommits) = (s.session n).map (·.ownCommits) ∧ (t.session n).map (·.txn) = (s.session n).map (·.txn)))) ∧
    (s.serves = false → exec (.registerWrite index sub ty w) s = .next s)

/-- An accepted register write takes effect at once, or waits for its boundary, as the entry's instant says.
REGISTER_WRITE of a plain entry (one to which no chapter ties a further effect): where its instant is acceptance the
entry holds the value and, with access P, so does the store; where it is the block boundary the write is the last that
waits. At acceptance it is answered what R397 and R476 say, with the present time; for the boundary OK with the
boundary's time. The record of the answer is the model's own (log 90). (R395, R397, R399, R412) -/
def Obligations.AcceptedRegisterWriteTakesOrWaits : Prop :=
  ∀ (s : State) (index sub ty : Nat) (t' : Ty) (w : EntryWrite) (r : Row), Ty.ofCode ty = some t' →
    Dict.row (index * 256 + sub) = some r → r.acc ≠ .const → r.ty.ok w.value = true → r.ty ≠ .blob → PlainEntry (index * 256 + sub) →
    s.serves = true → s.writeStatus w.writer (index * 256 + sub) (some t') w.value = St.ok →
    (r.eff = .acc → Completes (.registerWrite index sub ty w) s fun t =>
      t.get (index * 256 + sub) = w.value ∧ (∀ k, k ≠ index * 256 + sub → t.get k = s.get k) ∧ t.mode = s.mode ∧
      (r.p = true → Tbl.get (fun _ => none) t.store (index * 256 + sub) = some w.value) ∧
      t.units.answer = s.writeReply w.writer (index * 256 + sub) (some t') w.value ∧ t.units.answer.2 = s.now) ∧
    (∀ b, r.eff = .block b → Completes (.registerWrite index sub ty w) s fun t =>
      (∃ rest, t.units.waiting = rest ++ [⟨index * 256 + sub, w.value, w.role, w.session⟩] ∧ ∀ x ∈ rest, x.key ≠ index * 256 + sub) ∧
      t.units.answer = (St.ok, s.effectTime w.writer (index * 256 + sub)) ∧ s.Frame [] t)

/-- At its boundary a waiting write takes effect and is stored where the entry persists. DEFERRED_WRITE_APPLY at a block
boundary with one plain entry waiting, while the management processor serves: the entry takes the value, the store
takes it where the entry has access P, nothing waits any more, and every other entry and the mode stay. While it does
not serve, or between boundaries, nothing happens. A waiting write of STATE_REQ, MAN, CH_EN, FL_ENABLE, DOMAIN_NUMBER,
ACT_STATE, SG_STATE, MEAS_CHANNELS, G_STATE from IDLE, or C_STATE sets the entry and what it controls: the slot's
request or value, the count of the domain, which a new number sets to 0 (the model's choice, log 158), who armed the
action, a group without a start sample; SG_GO asks for the start. (R395, R399, R457) -/
def Obligations.WaitingWriteTakesEffectAtBoundary : Prop :=
  (∀ (s : State) (k : Nat) (v : Value) (n role : Nat) (r : Row), s.units.mgmt.served = true → s.mode ≠ .boot → s.atBoundary = true →
      s.units.waiting = [⟨k, v, role, n⟩] → PlainEntry k → Dict.row k = some r → r.acc ≠ .const → r.ty.ok v = true → r.ty ≠ .blob →
      Completes .deferredWriteApply s fun t =>
        t.get k = v ∧ (∀ j, j ≠ k → t.get j = s.get j) ∧ t.mode = s.mode ∧ t.units.waiting = [] ∧
        (r.p = true → Tbl.get (fun _ => none) t.store k = some v)) ∧
  (∀ s : State, s.units.mgmt.served = false ∨ s.atBoundary = false → exec .deferredWriteApply s = .next s) ∧
  (∀ (s : State) (n role : Nat) (v : Int), s.units.mgmt.served = true → s.mode ≠ .boot → s.atBoundary = true →
    (∀ i : Fin 64, s.units.waiting = [⟨Key.ls.STATE_REQ i, .num v, role, n⟩] → v ∈ [0, 1] → Completes .deferredWriteApply s fun t =>
      t.num (Key.ls.STATE_REQ i) = v ∧ (t.slot i).reqWait = some v.toNat ∧ t.units.waiting = []) ∧
    (∀ i : Fin 64, s.units.waiting = [⟨Key.ls.MAN i, .num v, role, n⟩] → -2 ^ 31 ≤ v → v < 2 ^ 31 → Completes .deferredWriteApply s fun t =>
      t.num (Key.ls.MAN i) = v ∧ (t.slot i).manWait = some v ∧ t.units.waiting = []) ∧
    (∀ c : Fin 16, s.units.waiting = [⟨Key.pw.CH_EN c, .num v, role, n⟩] → v ∈ [0, 1] → Completes .deferredWriteApply s fun t =>
      t.num (Key.pw.CH_EN c) = v ∧ t.units.waiting = []) ∧
    (∀ g : Fin 4, s.units.waiting = [⟨Key.fl.FL_ENABLE g, .num v, role, n⟩] → v ∈ [0, 1] → Completes .deferredWriteApply s fun t =>
      t.num (Key.fl.FL_ENABLE g) = v ∧ (v = 0 → s.flState g ∉ [0, 4] → (s.flFree g = true → t.flState g = 0) ∧
        (s.flFree g = false → (t.learner g).due = flHigher (s.learner g).due (some 0))) ∧ t.units.waiting = []) ∧
    (∀ d : Fin 4, s.units.waiting = [⟨Key.dtb.DOMAIN_NUMBER d, .num v, role, n⟩] → 0 ≤ v → v < 256 → Completes .deferredWriteApply s fun t =>
      t.num (Key.dtb.DOMAIN_NUMBER d) = v ∧ (v ≠ s.num (Key.dtb.DOMAIN_NUMBER d) → (t.tbase d).count = 0) ∧ t.units.waiting = []) ∧
    (∀ a : Fin 64, s.units.waiting = [⟨Key.act.ACT_STATE a, .num v, role, n⟩] → v ∈ [0, 1] → Completes .deferredWriteApply s fun t =>
      t.num (Key.act.ACT_STATE a) = v ∧ (v = 1 → (t.act a).role = role ∧ (t.act a).session = n) ∧ t.units.waiting = []) ∧
    (∀ g : Fin 8, s.units.waiting = [⟨Key.sg.SG_STATE g, .num v, role, n⟩] → v ∈ [0, 1] → Completes .deferredWriteApply s fun t =>
      t.num (Key.sg.SG_STATE g) = v ∧ (t.sg g).fixed = none ∧ t.units.waiting = []) ∧
    (∀ g : Fin 8, s.units.waiting = [⟨Key.sg.SG_GO g, .num v, role, n⟩] → 0 ≤ v → s.num (Key.sg.SG_STATE g) = 1 →
      s.num (Key.sg.SG_TRIGGER g) = 0 → Completes .deferredWriteApply s fun t =>
        (t.sg g).go = some v.toNat ∧ t.units.waiting = [] ∧ s.Frame [] t) ∧
    (s.units.waiting = [⟨Key.meas.MEAS_CHANNELS, .num v, role, n⟩] → 0 ≤ v → v < 65536 → Completes .deferredWriteApply s fun t =>
      t.num Key.meas.MEAS_CHANNELS = v ∧ t.units.waiting = []) ∧
    (∀ g : Fin 4, s.units.waiting = [⟨Key.gen.G_STATE g, .num v, role, n⟩] → v ∈ [1, 2] → s.genState g = 0 → s.genRefused g = none → Completes .deferredWriteApply s fun t =>
      t.num (Key.gen.G_STATE g) = v ∧ t.units.waiting = []) ∧
    (∀ k : Fin 8, s.units.waiting = [⟨Key.cap.C_STATE k, .num v, role, n⟩] → v ∈ [0, 1] → (s.does (cStateEffect k 0)).capRefused k = none → Completes .deferredWriteApply s fun t =>
      t.num (Key.cap.C_STATE k) = v ∧ t.units.waiting = []))

/-- A commit that passes its test at its boundary is applied, and its session told; defaults are restored the same way.
COMMIT_APPLY with one session whose pending commit of one plain entry is due and passes: the entry takes the value,
the store too where it has access P, and the session reads status OK and has no commit pending. RESTORE_DEFAULTS_APPLY
with one plain P entry away from its default: the entry and the store take the default and the operation's handle
ends. (R396, R399, R417, R77) -/
def Obligations.DueCommitIsApplied : Prop :=
  (∀ (s : State) (n : Nat) (x : Session) (c : Commit) (k : Nat) (v : Value) (r : Row),
      s.units.mgmt.served = true → s.mode ≠ .boot → s.atBoundary = true → s.units.sessions = [(n, some x)] → x.ended = false → x.ownCommits = [] →
      x.commit = some c → c.late = false → c.untimed = true ∨ c.time ≤ s.blockTime → c.items = [(k, v)] →
      PlainEntry k → PlainCommit k → Dict.row k = some r → r.acc ≠ .const → r.ty.ok v = true → r.ty ≠ .blob →
      (s.run [.session n fun y => y.map fun y => { y with ownCommits := [], commit := none }]).commitOutcome ⟨n, c.role⟩ c.items
        = (St.ok, 0) →
      Completes .commitApply s fun t =>
        t.get k = v ∧ (r.p = true → Tbl.get (fun _ => none) t.store k = some v) ∧
        ∃ y, t.session n = some y ∧ y.commit = none ∧ y.commitStatus = St.ok) ∧
  (∀ (s : State) (h : Nat) (x : Handle) (k : Nat) (r : Row), s.units.mgmt.served = true → s.atBoundary = true →
      s.units.mgmt.restoreDue = some h → s.handle h = some x → x.finished = false → s.toDefaults = [(k, Dict.dflt k)] →
      PlainEntry k → PlainCommit k → Dict.row k = some r → r.acc ≠ .const → r.ty.ok (Dict.dflt k) = true → r.ty ≠ .blob → r.p = true →
      Completes .restoreDefaultsApply s fun t =>
        t.get k = Dict.dflt k ∧ Tbl.get (fun _ => none) t.store k = some (Dict.dflt k) ∧ t.units.mgmt.restoreDue = none ∧
        ∃ y, t.handle h = some y ∧ y.finished = true ∧ y.status = St.ok)

/-- MEAS_P_MAX is written by ENGINEER and SERVICE alone. A write of MEAS_P_MAX from a role below ENGINEER is answered
ACCESS_ROLE and leaves every entry; from ENGINEER or SERVICE it is never answered ACCESS_ROLE. (R307) -/
def Obligations.MeasurementPowerNeedsARole : Prop :=
  ∀ (s : State) (w : EntryWrite), s.serves = true → w.role ≤ 3 →
    (w.role < 2 → Completes (.registerWrite (Key.meas.MEAS_P_MAX / 256) (Key.meas.MEAS_P_MAX % 256) 4 w) s fun t =>
      t.units.answer = (St.accessRole, 0) ∧ s.Frame [] t) ∧
    (2 ≤ w.role → s.writeStatus w.writer Key.meas.MEAS_P_MAX (some .u32) w.value ≠ St.accessRole)

/-- FE_ACTION 2 is refused with RANGE on a slot that no channel owns. A write of FE_ACTION 2 to a slot whose OWNER_CH is
0xFF, which passes the tests that come before RANGE, is refused with status RANGE. No write of that OWNER_CH waits for
its boundary: the test takes waiting writes into account, which is the model's choice (log 111). (R230) -/
def Obligations.FollowingErrorActionNeedsAnOwner : Prop :=
  ∀ (s : State) (n : Fin 64) (w : Writer), (∀ x ∈ s.units.waiting, x.key ≠ Key.ls.OWNER_CH n) → s.num (Key.ls.OWNER_CH n) = 0xFF → w.role ∈ [2, 3] →
    s.areaOwned w.session (Key.ls.FE_ACTION n) = false →
    s.writeStatus w (Key.ls.FE_ACTION n) (some .u8) (.num 2) = St.range

/-- The mode follows the time base into HOLDOVER, back to RUN, and to STANDBY when HOLDOVER_MAX is reached. At a block
boundary, HOLDOVER_ENTRY after 3 s of lock state HOLDOVER in RUN enters HOLDOVER (or STANDBY where HOLDOVER_MAX is at
most 3 s); HOLDOVER_RETURN enters RUN once the source is back; HOLDOVER_EXPIRED enters STANDBY, where the request for
RUN waits for lock. In another mode, or between boundaries, each does nothing. (R445, R446, R447) -/
def Obligations.HoldoverFollowsTheLock : Prop :=
  (∀ s : State, s.mode = .run → s.num Key.lock.LOCK_STATE = 3 → s.units.mgmt.served = true → s.atBoundary = true →
      s.passed s.units.mgmt.holdSince 3000000000 = true → Completes .holdoverEntry s fun t =>
        t.mode = (if s.nat Key.hold.HOLDOVER_MAX ≤ 3 then .standby else .holdover) ∧ t.nat Key.rsn.PREV_MODE = s.mode.code ∧
        t.nat Key.rsn.REASON = if s.nat Key.hold.HOLDOVER_MAX ≤ 3 then 6 else 4) ∧
  (∀ s : State, s.mode = .holdover → s.num Key.lock.LOCK_STATE ≠ 3 → s.units.mgmt.served = true → s.atBoundary = true →
      Completes .holdoverReturn s fun t => t.mode = .run ∧ t.num Key.rsn.REASON = 5) ∧
  (∀ s : State, s.mode = .holdover → s.num Key.lock.LOCK_STATE = 3 → s.units.mgmt.served = true → s.atBoundary = true →
      s.nat Key.hold.HOLDOVER_MAX * 1000 ≤ s.holdoverElapsed → Completes .holdoverExpired s fun t =>
        t.mode = .standby ∧ t.units.mgmt.runWait = some 1 ∧ t.num Key.rsn.WAIT_STATE = 2) ∧
  (∀ s : State, s.mode ≠ .run ∨ s.atBoundary = false → exec .holdoverEntry s = .next s) ∧
  (∀ s : State, s.mode ≠ .holdover ∨ s.atBoundary = false → exec .holdoverReturn s = .next s ∧ exec .holdoverExpired s = .next s)

/-- SETUP_COMPLETE, RUN_ENTRY_ON_LOCK and MODE_CHANGE_APPLY complete at a block boundary and bring the requested mode. At
a block boundary, SETUP_COMPLETE leaves SAFE for MEASURE or STANDBY, where a request for RUN goes on;
RUN_ENTRY_ON_LOCK enters RUN from STANDBY or MEASURE once the lock condition holds, with reason 3 where the request
waited for lock and else with the reason of the request (log 131), and until then the request waits; MODE_CHANGE_APPLY
takes the waiting request in every mode but BOOT: from SAFE its setup begins, a request for RUN waits for the lock
condition where that does not hold, any other mode is entered, and during a setup the request replaces the one that is
set up. (R432, R433, R434, R435) -/
def Obligations.RequestedModesAreEntered : Prop :=
  (∀ (s : State) (v reason : Nat), s.mode = .safe → s.units.mgmt.setupTo = some (v, reason) → v ∈ [2, 3, 4] →
      s.units.mgmt.served = true → s.atBoundary = true → Completes .setupComplete s fun t =>
        t.mode = (if v = 4 then .measure else .standby) ∧ t.num Key.rsn.PREV_MODE = 1 ∧
        t.units.mgmt.setupTo = none ∧ (v = 3 → t.units.mgmt.runWait = some reason)) ∧
  (∀ (s : State) (reason : Nat), s.mode = .standby ∨ s.mode = .measure → s.units.mgmt.runWait = some reason → reason ≤ 7 →
      s.units.mgmt.served = true → s.atBoundary = true → (s.lockOk = true → Completes .runEntryOnLock s fun t =>
        t.mode = .run ∧ t.nat Key.rsn.PREV_MODE = s.mode.code ∧ t.nat Key.rsn.REASON = (if s.num Key.rsn.WAIT_STATE = 2 then 3 else reason) ∧ t.units.mgmt.runWait = none) ∧
      (s.lockOk = false → Completes .runEntryOnLock s fun t =>
        t.num Key.rsn.WAIT_STATE = 2 ∧ s.Frame [Key.rsn.WAIT_STATE] t)) ∧
  (∀ (s : State) (v : Nat) (role n : Nat), s.mode ≠ .boot → s.units.mgmt.served = true → s.atBoundary = true → s.units.mgmt.waitMode = none →
      s.units.waiting = [⟨Key.mode.MODE_REQUEST, .num v, role, n⟩] → v ∈ [1, 2, 3, 4] →
      Completes .modeChangeApply s fun t => t.units.waiting = [] ∧ t.nat Key.mode.MODE_REQUEST = v ∧
        (∀ w r, s.units.mgmt.setupTo = some (w, r) →
          t.mode = s.mode ∧ t.units.mgmt.setupTo = if v = 1 then none else some (v, 1)) ∧
        (s.units.mgmt.setupTo = none → s.mode = .safe →
          t.mode = .safe ∧ (v ≠ 1 → t.units.mgmt.setupTo = some (v, 1) ∧ t.num Key.rsn.WAIT_STATE = 1)) ∧
        (s.units.mgmt.setupTo = none → s.mode ≠ .safe → v ≠ 3 → t.mode = Mode.ofCode v ∧
          (s.mode.code ≠ v → t.nat Key.rsn.PREV_MODE = s.mode.code ∧ t.num Key.rsn.REASON = 1)) ∧
        (s.units.mgmt.setupTo = none → s.mode ≠ .safe → v = 3 →
          t.mode = (if s.mode = .run ∨ s.mode = .holdover ∨ s.lockOk = false then s.mode else .run) ∧
          (s.mode = .standby ∨ s.mode = .measure → s.lockOk = false →
            t.units.mgmt.runWait = some 1 ∧ t.num Key.rsn.WAIT_STATE = 2)))

/-- MUTE_N and ENGAGE_N act on every channel and group. MUTE_N_LOW holds every channel by the pin: G_c of one that plays
or limits ramps to 0 over 32 samples, a stop that waits for its crossing ramps now, a stop that ramps already goes on,
and a start halts at its wait; MUTE_N_HIGH ends that hold. ENGAGE_N_HIGH marks the edge, where no withdrawal runs
already, and, outside BOOT, begins the withdrawal with a fast stop of every channel that is not released, whatever its
sequence: the chain gate ramps down from its value or, still at 0 in a start, the loop gate does; a stop that ramps
goes on; ENGAGE_N_LOW takes the level and ends the hold of a planned removal. An edge that is no change does nothing.
WITHDRAWAL_GATES_OFF, once every bridge is released, drops every gate and leaves every group NOT_READY. (R443, R444,
R452, R455) -/
def Obligations.ControlPinsAct : Prop :=
  (∀ s : State, s.units.pins.muteN = true → Completes .muteNLow s fun t =>
      t.units.pins.muteN = false ∧ ∀ c < 16, (t.chan c).pinHeld = true ∧
        (s.playing c = true → s.phase c ∈ [0, 4, 5] → (s.chan c).gc.value ≠ 0 →
          t.phase c = 6 ∧ (t.chan c).gc.value = (s.chan c).gc.value ∧ (t.chan c).gc.v1 = 0 ∧ (t.chan c).gc.len = 32) ∧
        (s.phase c ∈ [6, 7] → t.phase c = s.phase c ∧ (t.chan c).gc = (s.chan c).gc) ∧
        (s.phase c ∈ [1, 2, 3] → t.phase c = s.phase c ∧ (t.chan c).gc = (s.chan c).gc ∧ (s.phase c = 3 → t.zcWait (Zc.start c) = none)) ∧
        t.outState c = s.outState c) ∧
  (∀ s : State, s.units.pins.muteN = false → exec .muteNLow s = .next s ∧ Completes .muteNHigh s fun t =>
      t.units.pins.muteN = true ∧ (∀ c < 16, (t.chan c).pinHeld = false) ∧ s.Frame [] t) ∧
  (∀ s : State, s.units.pins.engageN = false → exec .engageNLow s = .next s ∧ Completes .engageNHigh s fun t =>
      t.units.pins.engageN = true ∧ t.units.pins.engageHigh = (if s.units.pins.withdrawing then s.units.pins.engageHigh else some s.mtbNs) ∧
      (s.mode ≠ .boot → t.units.pins.withdrawing = true ∧ t.units.pins.wasLost = true ∧
        ∀ c < 16, s.released c = false → s.phase c ≤ 7 → (t.chan c).fast = true ∧ t.zcWait (Zc.start c) = none ∧
          (s.phase c ≤ 5 → (s.chan c).gc.value ≠ 0 ∨ s.phase c = 5 →
            t.phase c = 6 ∧ (t.chan c).gc.value = (s.chan c).gc.value ∧ (t.chan c).gc.v1 = 0 ∧ (t.chan c).gc.len = 32) ∧
          (s.phase c ≤ 4 → (s.chan c).gc.value = 0 →
            t.phase c = 7 ∧ (t.chan c).gl.value = (s.chan c).gl.value ∧ (t.chan c).gl.v1 = 0 ∧ (t.chan c).gl.len = 32) ∧
          (s.phase c ∈ [6, 7] → t.phase c = s.phase c ∧ (t.chan c).gc = (s.chan c).gc ∧ (t.chan c).gl = (s.chan c).gl))) ∧
  (∀ s : State, s.units.pins.engageN = true → Completes .engageNLow s fun t =>
      t.units.pins.engageN = false ∧ t.units.mgmt.removed = false ∧
      s.Frame [Key.hs.HS_STATE_PG 0, Key.hs.HS_STATE_PG 1, Key.hs.HS_STATE_PG 2, Key.hs.HS_STATE_PG 3] t) ∧
  (∀ s : State, s.units.pins.withdrawing = true → s.allReleased = true → Completes .withdrawalGatesOff s fun t =>
      t.units.pins.withdrawing = false ∧ ∀ g < 4, (t.group g).gate = false ∧ (t.group g).notReady = true) ∧
  (∀ s : State, s.units.pins.muteN = true → exec .muteNHigh s = .next s) ∧
  (∀ s : State, s.units.pins.engageN = true → exec .engageNHigh s = .next s)

/-- The hot-swap controller ramps, reports power-good, loses it, faults, retries and is cleared. For each group:
HOTSWAP_RAMP_START and HOTSWAP_RETRY raise the gate once the conditions of R440, R449 and R451 hold;
HOTSWAP_POWER_GOOD ends NOT_READY; POWER_GOOD_LOST makes the group NOT_READY with HS_STATE_PGg back at 2, its gate
still raised (the model's reading, log 96), and HOTSWAP_FAULT makes it NOT_READY, the fault counted, the gate off and
the third latched; HS_CLEAR resets the count of every group named. (R449, R450, R451, R477) -/
def Obligations.HotSwapControllerSteps : Prop :=
  ∀ (s : State) (g : Fin 4), s.Typed →
    (s.hsState g = 1 → s.passed s.hsMet (32000000 * g) = true → s.dieReady g = true → Completes (.hotswapRampStart g) s fun t =>
      t.hsState g = 2 ∧ (t.group g).gate = true ∧ (t.group g).hsAt = some s.mtbNs ∧
      s.Frame [Key.hs.HS_STATE_PG g, Key.evt.EVT_RAISED] t) ∧
    (∀ t0, s.hsState g = 4 → (s.group g).hsRetryAt = some t0 → t0 ≤ s.mtbNs → s.passed s.hsMet 0 = true → s.dieReady g = true →
      Completes (.hotswapRetry g) s fun t => t.hsState g = 2 ∧ (t.group g).gate = true ∧ (t.group g).hsRetryAt = none) ∧
    (∀ mv, s.hsState g = 2 → 23000 ≤ mv → Completes (.hotswapPowerGood g mv) s fun t =>
      t.hsState g = 3 ∧ t.num (Key.hs.HS_FAULTS_PG g) = 0 ∧ (t.group g).notReady = false) ∧
    (s.hsState g = 3 → Completes (.powerGoodLost g) s fun t => t.hsState g = 2 ∧ (t.group g).notReady = true) ∧
    (s.hsState g = 2 ∨ s.hsState g = 3 → s.nat (Key.hs.HS_FAULTS_PG g) < 3 → Completes (.hotswapFault g) s fun t =>
      t.nat (Key.hs.HS_FAULTS_PG g) = s.nat (Key.hs.HS_FAULTS_PG g) + 1 ∧
      t.hsState g = (if s.nat (Key.hs.HS_FAULTS_PG g) = 2 then 5 else 4) ∧
      (t.group g).gate = false ∧ (t.group g).notReady = true) ∧
    (∀ (w : EntryWrite) (m : Nat), s.Accepts w Key.hs.HS_CLEAR → w.value = .num m → m.testBit g = true →
      Completes (.hsClear w) s fun t => t.num (Key.hs.HS_FAULTS_PG g) = 0 ∧ t.mode = s.mode ∧ t.store = s.store)

/-- A PTP event strobe latches the MTB and all four domain time bases at one instant. PTP_EVENT_STROBE copies the
presented media time and the time of each domain, in whole nanoseconds, into the snapshot entries, counts the snapshot
and the frame, and leaves every other entry. It does so at a MAC whose link is UP, for a received message and for the
oldest that the device has to send, once its frame lies in the FIFO. A received frame's stamp is kept at its MAC; the
SFD stamp of a sent request opens its delay exchange, and a sent Pdelay_Resp is followed by its Pdelay_Resp_Follow_Up.
That the strobe is a command beside FRAME_RECEIVE and TX_FIFO_ENTER, and the queue of event messages that are still to
be strobed, are the model's (log 205). (R58, R59, R60, R366, R372, R383, R384) -/
def Obligations.SnapshotLatchesTheTimeBases : Prop :=
  ∀ (s : State) (m : Fin 2) (rx : Bool), s.linkUp m = true → (rx = true ∨ (s.mac m).passing.isSome = true) → Completes (.ptpEventStrobe m rx) s fun t =>
    t.nat Key.snap.SNAP_MTB = s.now ∧ (∀ d < 4, t.nat (Key.snap.SNAP_DTB d) = s.dtbTime d) ∧
    t.num Key.snap.SNAP_COUNT = (s.num Key.snap.SNAP_COUNT + 1) % 2 ^ 32 ∧
    (rx = true → (t.mac m).rxStamp = s.now :: (List.range 4).map s.dtbTime ∧ t.units.tbases = s.units.tbases) ∧
    (∀ (d : Nat) (l : List Nat), rx = false → (s.mac m).ptpOut = d :: l →
      (t.mac m).ptpOut = l ∧ (t.mac m).fifo.length = (s.mac m).fifo.length ∧
      (4 ≤ d → ∃ f, (t.mac m).waiting = (s.mac m).waiting ++ [f] ∧ f.kind = 1) ∧ (d < 4 → (t.tbase d).request = some (s.sfd m false (s.dtbTime d))) ∧
      (4 ≤ d → t.units.tbases = s.units.tbases)) ∧
    s.Frame [Key.snap.SNAP_MTB, Key.snap.SNAP_DTB 0, Key.snap.SNAP_DTB 1, Key.snap.SNAP_DTB 2, Key.snap.SNAP_DTB 3,
      Key.snap.SNAP_COUNT, if rx then Key.net.RX_PTP_EVENT m else Key.net.TX_PTP_EVENT m] t

/-- Snapshots, TOD_SET, INC and the clear of a domain's fence act when their write is accepted. SNAP_REQ 1 latches the
time bases; TOD_SET keeps the time for the next anchoring; INC takes the written increment; DTB_FENCE_CLEAR ends a
domain's fence and counts the clear. (R51, R58, R60, R65, R66, R72, R395) -/
def Obligations.ClockEntriesTakeTheirWrites : Prop :=
  (∀ w, Writes (.snapReq w) Key.snap.SNAP_REQ w 1 (fun _ => True) fun s t =>
      t.nat Key.snap.SNAP_MTB = s.now ∧ (∀ d < 4, t.nat (Key.snap.SNAP_DTB d) = s.dtbTime d) ∧
      t.num Key.snap.SNAP_COUNT = (s.num Key.snap.SNAP_COUNT + 1) % 2 ^ 32) ∧
  (∀ (w : EntryWrite) (n : Nat), Writes (.todSet w) Key.ref.TOD_SET w n (fun _ => True) fun s t =>
      t.units.anchor.todSet = some n ∧ s.Frame [] t) ∧
  (∀ w n, Writes (.incWrite w) Key.mtb.INC w n (fun _ => True) fun s t => t.num Key.mtb.INC = n ∧ s.Frame [Key.mtb.INC] t) ∧
  (∀ (d : Fin 4) (n role : Nat), Writes (.dtbFenceClear d n role) Key.fence.FENCE_CLEAR_CMD ⟨n, role, .num (0x08000000 + d.val : Nat)⟩
      (0x08000000 + d.val : Nat) (fun s => (s.tbase d).fenced = true) fun s t =>
        (t.tbase d).fenced = false ∧ t.num Key.fence.CLEARS = (s.num Key.fence.CLEARS + 1) % 2 ^ 32 ∧
        s.Frame [Key.fence.CLEARS, Key.evt.EVT_RAISED] t)

/-- Syncs, announces and delay exchanges of an enabled domain are used. For an enabled domain, while the management
processor serves: SYNC_MEASUREMENT on the port in use, within the outlier limit and outside ACQUIRE's estimate, moves
the domain's frequency term and DTB_INC by the servo's law (log 6) and is kept for the delay exchange; where the MTB
follows the domain it measures by the same Sync: SOURCE_STATE reads 0 and INC moves by the same law.
DELAY_RESP_RECEIVE under E2E sets PATH_DELAY to half the last round trip, with no filter (log 138) and the rounding of
log 4; ANNOUNCE_RECEIVE with a new identity records it; DELAY_REQ_SEND queues one message on the port the domain uses.
DTB_PORT_FAILOVER under PTP_PORT 2 changes the port and treats it as a step. (R59, R61, R71, R383, R517) -/
def Obligations.PtpMessagesAreUsed : Prop :=
  ∀ (s : State) (d : Fin 4), s.dtbOn d = true → s.units.mgmt.served = true →
    (∀ (m : Fin 2) (t1 : Nat) (l : Int), (s.tbase d).fenced = false → s.dtbMac d = m → (s.tbase d).onN1 = (m.val == 1) →
      s.nat (lockKey d) ∈ [1, 2] → (s.tbase d).estimating = false → (s.tbase d).stepNext = false →
      |s.rxSfd m d - (t1 + s.num (Key.dtb.PATH_DELAY d)) - (s.tbase d).pred| ≤ s.num Key.servo.OUTLIER_LIMIT →
      Completes (.syncMeasurement d m t1 l) s fun t =>
        (t.tbase d).syncLog = some l ∧ (t.tbase d).lastSync = some s.mtbNs ∧ (t.tbase d).outliers = [] ∧
        (t.tbase d).sync = some ((t1 : Int), s.rxSfd m d) ∧
        (t.tbase d).freqTerm = Config.servoFreq (s.nat Key.servo.SERVO_BW) (s.tbase d).freqTerm
          (s.rxSfd m d - (t1 + s.num (Key.dtb.PATH_DELAY d))) ∧
        t.num (Key.dtb.DTB_INC d) = clampInc (incNom + Config.servoInc (s.nat Key.servo.SERVO_BW) (t.tbase d).freqTerm
          (s.rxSfd m d - (t1 + s.num (Key.dtb.PATH_DELAY d)))) ∧ t.mode = s.mode ∧ t.store = s.store) ∧
    (∀ (m : Fin 2) (t1 : Nat) (l : Int), (s.tbase d).fenced = false → s.dtbMac d = m → (s.tbase d).onN1 = (m.val == 1) →
      s.follows d = true → s.nat Key.lock.LOCK_STATE ∈ [1, 2] → (s.tbase 4).estimating = false → (s.tbase 4).stepNext = false →
      s.units.anchor.slewing = false → s.units.anchor.phase = 0 → s.units.anchor.second = none →
      |s.rxSfd m 4 - (t1 + s.num (Key.dtb.PATH_DELAY d)) - (s.tbase 4).pred| ≤ s.num Key.servo.OUTLIER_LIMIT →
      Completes (.syncMeasurement d m t1 l) s fun t =>
        (t.tbase 4).syncLog = some l ∧ (t.tbase 4).lastSync = some s.mtbNs ∧ t.num Key.lock.SOURCE_STATE = 0 ∧
        t.nat Key.servo.LAST_MEASURE = s.now ∧
        (t.tbase 4).freqTerm = Config.servoFreq (s.nat Key.servo.SERVO_BW) (s.tbase 4).freqTerm
          (s.rxSfd m 4 - (t1 + s.num (Key.dtb.PATH_DELAY d))) ∧
        t.num Key.mtb.INC = clampInc (incNom + Config.servoInc (s.nat Key.servo.SERVO_BW) (t.tbase 4).freqTerm
          (s.rxSfd m 4 - (t1 + s.num (Key.dtb.PATH_DELAY d)))) ∧ t.mode = s.mode ∧ t.store = s.store) ∧
    (∀ (ns : Nat) (t3 t1 t2 : Int), (s.tbase d).fenced = false → s.num (Key.dtb.DELAY_MECH d) ≠ 1 → (s.tbase d).request = some t3 →
      (s.tbase d).sync = some (t1, t2) → 0 ≤ t2 - t1 + (ns - t3) → t2 - t1 + (ns - t3) < 2 ^ 32 → Completes (.delayRespReceive d ns) s fun t =>
        t.num (Key.dtb.PATH_DELAY d) = rounded (Key.dtb.PATH_DELAY d) (((t2 - t1 + (ns - t3) : Int) : Rat) / 2) ∧
        (t.tbase d).request = none ∧ s.Frame [Key.dtb.PATH_DELAY d] t) ∧
    (∀ gm : Nat, gm < 2 ^ 64 → s.nat (Key.dtb.GM_IDENTITY d) ≠ gm → Completes (.announceReceive d gm) s fun t =>
      t.nat (Key.dtb.GM_IDENTITY d) = gm ∧ (t.tbase d).fenced = false ∧ s.Frame [Key.dtb.GM_IDENTITY d, Key.evt.EVT_RAISED] t) ∧
    (∀ m < 2, s.dtbMac d = m → Completes (.delayReqSend d) s fun t =>
      (∃ f, (t.mac m).waiting = (s.mac m).waiting ++ [f] ∧ f.kind = 1 ∧ f.prio = 0 ∧ f.ethernet = (s.tbase d).ethernet ∧
        f.port = (if (s.tbase d).ethernet then 0 else 319)) ∧
      d.val ∈ (t.mac m).ptpOut ∧ s.Frame [] t) ∧
    (s.nat (Key.dtb.PTP_PORT d) = 2 → (s.tbase d).onN1 = true → Completes (.dtbPortFailover d true) s fun t =>
      (t.tbase d).onN1 = false ∧ (t.tbase d).stepNext = true ∧ s.Frame [] t) ∧
    (s.nat (Key.dtb.PTP_PORT d) = 2 → (s.tbase d).onN1 = false → s.syncLate d = true → Completes (.dtbPortFailover d false) s fun t =>
      (t.tbase d).onN1 = true ∧ (t.tbase d).stepNext = true ∧ s.Frame [] t)

/-- A reference that goes missing takes the MTB to HOLDOVER with its increment held; edges of WCLK_IN and PPS_IN are
latched and measured. SYNC_TIMEOUT of the domain the MTB follows, REF_EDGE_MISSING of the source in use, and DTB_FENCE
of the domain it follows: where the source was present and the lock state ACQUIRE or LOCKED, SOURCE_STATE reads 1,
LOCK_STATE 3, INC is held at nominal and the frequency term, and the instant of the loss is kept. An edge of WCLK_IN
or PPS_IN is latched at the tick that follows; where it is the source and lies within the outlier limit, the servo
moves INC by its law (log 6). (R55, R56, R61, R62, R70, R72) -/
def Obligations.LossOfTheSourceIsHeld : Prop :=
  ∀ s : State, s.Typed → s.units.anchor.lossAt = none → s.num Key.lock.SOURCE_STATE = 0 →
    s.nat Key.lock.LOCK_STATE ∈ [1, 2] → s.units.mgmt.served = true →
    (∀ d : Fin 4, s.syncLate d = true → s.follows d = true → Completes (.syncTimeout d) s fun t =>
      t.num Key.lock.SOURCE_STATE = 1 ∧ t.num Key.lock.LOCK_STATE = 3 ∧ t.units.anchor.lossAt = some s.mtbNs ∧
      t.num Key.mtb.INC = clampInc (incNom + (s.tbase 4).freqTerm) ∧ t.num Key.hold.INC_HELD = t.num Key.mtb.INC ∧ t.mode = s.mode) ∧
    (s.edgeLate = true → Completes .refEdgeMissing s fun t =>
      t.num Key.lock.SOURCE_STATE = 1 ∧ t.num Key.lock.LOCK_STATE = 3 ∧ t.units.anchor.lossAt = some s.mtbNs ∧
      t.num Key.mtb.INC = clampInc (incNom + (s.tbase 4).freqTerm) ∧ t.num Key.hold.INC_HELD = t.num Key.mtb.INC ∧ t.mode = s.mode) ∧
    (∀ d : Fin 4, s.dtbOn d = true → (s.tbase d).fenced = false → s.passed (s.tbase d).outSince 16000000000 = true →
      Completes (.dtbFence d) s fun t => (t.tbase d).fenced = true ∧ t.num (Key.dtb.DOMAIN_LOCK d) = 0 ∧
        (s.follows d = true → t.num Key.lock.SOURCE_STATE = 1 ∧ t.num Key.lock.LOCK_STATE = 3 ∧
          t.num Key.mtb.INC = clampInc (incNom + (s.tbase 4).freqTerm) ∧ t.num Key.hold.INC_HELD = t.num Key.mtb.INC)) ∧
    (∀ ppm : Int, s.num Key.ref.REF_SOURCE ≠ 2 → Completes (.wclkInEdge ppm) s fun t =>
      t.units.anchor.wclkLast = some s.edgeMtb ∧ s.Frame [] t) ∧
    (s.num Key.ref.REF_SOURCE ≠ 3 → Completes .ppsInEdge s fun t => t.units.anchor.ppsLast = some s.edgeMtb ∧ s.Frame [] t) ∧
    ((s.tbase 4).estimating = false → (s.tbase 4).stepNext = false → s.units.anchor.slewing = false → s.units.anchor.phase = 0 →
      s.units.anchor.second = none → |(s.edgeTime : Int) - s.edgeRef - (s.tbase 4).pred| ≤ s.num Key.servo.OUTLIER_LIMIT →
      (∀ ppm : Int, s.num Key.ref.REF_SOURCE = 2 → |ppm| ≤ 500 → Completes (.wclkInEdge ppm) s fun t =>
        t.units.anchor.wclkLast = some s.edgeMtb ∧ t.nat Key.servo.LAST_MEASURE = s.now ∧
        t.num Key.mtb.INC = clampInc (incNom + Config.servoInc (s.nat Key.servo.SERVO_BW)
          (Config.servoFreq (s.nat Key.servo.SERVO_BW) (s.tbase 4).freqTerm (s.edgeTime - s.edgeRef)) (s.edgeTime - s.edgeRef)) ∧
        t.mode = s.mode ∧ t.store = s.store) ∧
      (s.num Key.ref.REF_SOURCE = 3 → Completes .ppsInEdge s fun t =>
        t.units.anchor.ppsLast = some s.edgeMtb ∧ t.nat Key.servo.LAST_MEASURE = s.now ∧
        t.num Key.mtb.INC = clampInc (incNom + Config.servoInc (s.nat Key.servo.SERVO_BW)
          (Config.servoFreq (s.nat Key.servo.SERVO_BW) (s.tbase 4).freqTerm (s.edgeTime - s.edgeRef)) (s.edgeTime - s.edgeRef)) ∧
        t.mode = s.mode ∧ t.store = s.store))

/-- The end of the frequency estimate, the lock window and a slew. While the management processor serves, for each time
base (4 is the MTB): FREQUENCY_ESTIMATE_DONE after its 8 intervals ends the estimate and removes the filtered offset:
a DTB steps and counts it, the MTB slews up to 1 ms and re-anchors above it; LOCK_WINDOW_ELAPSED after 8 s below 1 µs
in ACQUIRE enters LOCKED; SLEW_COMPLETE with nothing left ends the phase term and INC keeps the rest. (R49, R61, R62,
R63, R64, R70) -/
def Obligations.LockIsReached : Prop :=
  ∀ s : State, s.Typed → s.units.mgmt.served = true →
    (∀ d : Fin 4, (s.tbase d).estimating = true → (s.tbase d).estLeft = 0 → s.nat (lockKey d) = 1 →
      Completes (.frequencyEstimateDone ⟨d.val, by omega⟩) s fun t => (t.tbase d).estimating = false ∧
        (t.tbase d).count = (s.tbase d).count - BitVec.ofInt 96 (s.num (Key.dtb.DTB_OFFSET d) * 2 ^ 32) ∧
        t.num (Key.dtb.STEP_COUNT d) = (s.num (Key.dtb.STEP_COUNT d) + 1) % 2 ^ 32 ∧ s.Frame [Key.dtb.STEP_COUNT d] t) ∧
    ((s.tbase 4).estimating = true → (s.tbase 4).estLeft = 0 → s.nat Key.lock.LOCK_STATE = 1 → s.units.anchor.phase = 0 →
      Completes (.frequencyEstimateDone 4) s fun t => (t.tbase 4).estimating = false ∧ t.mode = s.mode ∧ t.store = s.store ∧
        (|s.num Key.servo.OFFSET| ≤ 1000000 → t.units.anchor.slewLsb = s.num Key.servo.OFFSET * 2 ^ 32 ∧
          t.num Key.servo.SLEW_REMAINING = s.num Key.servo.OFFSET ∧ t.units.anchor.phase = 0) ∧
        (1000000 < |s.num Key.servo.OFFSET| → t.units.anchor.phase = 1 ∧ t.units.anchor.offset = s.num Key.servo.OFFSET)) ∧
    (∀ tb : Fin 5, s.nat (lockKey tb) = 1 → |s.num (offsetKey tb)| < 1000 → s.passed (s.tbase tb).windowStart 8000000000 = true →
      (s.tbase tb).estimating = false → Completes (.lockWindowElapsed tb) s fun t =>
        t.nat (lockKey tb) = 2 ∧ s.Frame [lockKey tb, Key.lock.LOCK_SINCE, Key.evt.EVT_RAISED] t) ∧
    (s.units.anchor.slewing = true → s.units.anchor.slewLsb = 0 → Completes .slewComplete s fun t =>
      t.units.anchor.slewing = false ∧ t.num Key.servo.SLEW_REMAINING = 0 ∧
      t.num Key.mtb.INC = clampInc (s.num Key.mtb.INC - s.units.anchor.slewAdd) ∧ s.Frame [Key.servo.SLEW_REMAINING, Key.mtb.INC] t)

/-- An anchor boundary changes EPOCH_OFFSET; its period ends on the new grid and the channels fade in. At a block
boundary: ANCHOR_BOUNDARY, once every channel is at zero, takes the offset out of EPOCH_OFFSET and begins the anchor
period; ANCHOR_PERIOD_END a block period later, with no second step, leaves it with SAMPLE_INDEX on the new grid, and
LOCK_STATE, under a source and not FREE, reads ACQUIRE, or HOLDOVER where the source is missing (the model's reading,
log 189); REANCHOR_FADE_IN ends every mute, and a channel that nothing else holds fades in over one block;
FIRST_ANCHORING with every output released sets EPOCH_OFFSET so that presented time reads its target. HANDOVER of a
waiting REF_DOMAIN names the new domain and, under PTP, takes its offset as one to slew or to re-anchor. (R64, R65,
R66, R67, R68, R73) -/
def Obligations.MediaTimeIsAnchored : Prop :=
  ∀ s : State, s.Typed →
    (s.units.anchor.phase = 1 → s.atBoundary = true →
      (∀ c < 16, (s.chan c).gc.value = 0 ∧ s.zcWait (Zc.anchor c) = none) →
      Completes .anchorBoundary s fun t =>
        t.num Key.mtb.EPOCH_OFFSET = signed 64 (s.num Key.mtb.EPOCH_OFFSET - s.units.anchor.offset) ∧
        t.units.anchor.phase = 2 ∧ t.units.anchor.anchored = true) ∧
    (s.units.anchor.phase = 2 → s.units.anchor.second = none → s.atBoundary = true →
      firstFrom s.fs s.B s.units.anchor.newTime + s.B ≤ s.blockSample → Completes .anchorPeriodEnd s fun t =>
        t.units.anchor.phase = (if (List.range 16).any (fun c => (s.chan c).anchorMuted) then 3 else 0) ∧
        t.num Key.mtb.SAMPLE_INDEX = (s.sampleNow : Int) % 2 ^ 64 ∧ t.mode = s.mode ∧ t.store = s.store ∧
        (s.num Key.ref.REF_SOURCE ≠ 0 → s.nat Key.lock.LOCK_STATE ≠ 0 → t.nat Key.lock.LOCK_STATE = if s.num Key.lock.SOURCE_STATE = 0 then 1 else 3)) ∧
    (s.units.anchor.phase = 3 → s.atBoundary = true →
      firstFrom s.fs s.B (s.units.anchor.newTime + s.nat Key.eng.LINK_OFFSET) ≤ s.blockSample →
      Completes .reanchorFadeIn s fun t => t.units.anchor.phase = 0 ∧ ∀ c < 16, (t.chan c).anchorMuted = false ∧
        ((s.chan c).anchorMuted = true → (s.chan c).held = false → s.outState c = 1 → s.phase c = 0 →
          t.outState c = 2 ∧ (t.chan c).gc = (s.chan c).gc.start 1 s.B s.strobed)) ∧
    (s.units.anchor.anchored = false → s.allReleased = true → s.mode ≠ .boot → s.atBoundary = true → s.units.anchor.phase ≠ 2 →
      ∀ T : Int, s.anchorTarget = some T →
      Completes .firstAnchoring s fun t =>
        t.num Key.mtb.EPOCH_OFFSET = signed 64 (s.num Key.mtb.EPOCH_OFFSET + (T - s.now)) ∧
        t.units.anchor.phase = 2 ∧ t.units.anchor.anchored = true) ∧
    (∀ (d : Fin 4) (role n : Nat), s.units.mgmt.served = true → s.mode ≠ .boot → s.atBoundary = true →
      s.units.waiting = [⟨Key.ref.REF_DOMAIN, .num d.val, role, n⟩] → Completes .handover s fun t =>
        t.nat Key.ref.REF_DOMAIN = d ∧ t.units.waiting = [] ∧ t.mode = s.mode ∧
        (s.num Key.ref.REF_SOURCE ≠ 1 → ∀ k, k ≠ Key.ref.REF_DOMAIN → t.get k = s.get k) ∧
        (s.num Key.ref.REF_SOURCE = 1 → s.nat Key.ref.REF_DOMAIN ≠ d → s.units.anchor.phase = 0 → s.domainMissing d = false →
          t.num Key.lock.SOURCE_STATE = 0 ∧
          (|(s.now : Int) - s.dtbTime d| ≤ 1000000 → t.units.anchor.slewLsb = ((s.now : Int) - s.dtbTime d) * 2 ^ 32 ∧
            t.num Key.servo.OFFSET = (s.now : Int) - s.dtbTime d) ∧
          (1000000 < |(s.now : Int) - s.dtbTime d| → t.units.anchor.phase = 1 ∧
            t.units.anchor.offset = (s.now : Int) - s.dtbTime d)))

/-- An armed action that is due executes and ends DONE. For an action that is due and of its kind: ACTION_GPIO drives its
pin, ACTION_START fixes the start sample of an armed group with trigger 0 (anew where it was fixed, the model's
choice, log 161), ACTION_MODE requests the mode, ACTION_WRITE writes a plain entry and ACTION_COMMIT commits a
transaction of one plain entry where their tests pass; each ends in state 2 with status OK or LATE. (R74, R75, R76,
R77, R79, R420, R499) -/
def Obligations.DueActionsExecute : Prop :=
  ∀ (s : State) (a : Fin 64), s.actDue a = true → s.mode ≠ .boot →
    (s.nat (Key.act.ACT_KIND a) = 5 → Completes (.actionGpio a) s fun t =>
      t.num (Key.act.ACT_STATE a) = 2 ∧ (s.nat (Key.act.ACT_TARGET a), s.num (Key.act.ACT_VALUE a) == 1) ∈ t.units.pins.gpio ∧
      (t.nat (Key.act.ACT_STATUS a) = St.ok ∨ t.nat (Key.act.ACT_STATUS a) = St.late) ∧
      s.Frame [Key.act.ACT_STATE a, Key.act.ACT_STATUS a, Key.act.ACT_EXEC_TIME a, Key.act.ACT_LATENESS a, Key.evt.EVT_RAISED] t) ∧
    (s.nat (Key.act.ACT_KIND a) = 4 → s.num (Key.sg.SG_STATE (s.nat (Key.act.ACT_TARGET a))) = 1 →
      s.num (Key.sg.SG_TRIGGER (s.nat (Key.act.ACT_TARGET a))) = 0 →
      Completes (.actionStart a) s fun t => t.num (Key.act.ACT_STATE a) = 2 ∧ (t.nat (Key.act.ACT_STATUS a) = St.ok ∨ t.nat (Key.act.ACT_STATUS a) = St.late) ∧
        (t.sg (s.nat (Key.act.ACT_TARGET a))).fixed = some s.sampleNow) ∧
    (s.nat (Key.act.ACT_KIND a) = 3 → s.units.mgmt.served = true →
      firstFault (s.headFaults ⟨(s.act a).session, (s.act a).role⟩ Key.mode.MODE_REQUEST (some .u8) (.num (s.num (Key.act.ACT_TARGET a)))
        ++ s.ownFaults s (fun _ => false) ⟨(s.act a).session, (s.act a).role⟩ s.blockTime Key.mode.MODE_REQUEST
          (.num (s.num (Key.act.ACT_TARGET a))) true) = St.ok →
      Completes (.actionMode a) s fun t => t.num (Key.act.ACT_STATE a) = 2 ∧ (t.nat (Key.act.ACT_STATUS a) = St.ok ∨ t.nat (Key.act.ACT_STATUS a) = St.late) ∧
        t.num Key.mode.MODE_REQUEST = s.num (Key.act.ACT_TARGET a)) ∧
    (∀ (k : Nat) (r : Row), s.nat (Key.act.ACT_KIND a) = 1 → s.units.mgmt.served = true →
      k = s.nat (Key.act.ACT_TARGET a) * 256 + s.nat (Key.act.ACT_SUB a) → PlainEntry k → k / 65536 ≠ 0x31 → k / 65536 ≠ 0x11 →
      k / 65536 ≠ 0x12 → k / 65536 ≠ 0x84 →
      Dict.row k = some r → r.acc = .rw → r.ty.ok (s.actValue a r.ty) = true →
      firstFault (s.headFaults ⟨(s.act a).session, (s.act a).role⟩ k (some r.ty) (s.actValue a r.ty)) = St.ok →
      firstFault (s.ownFaults (s.set k (s.actValue a r.ty)) (fun j => j == k) ⟨(s.act a).session, (s.act a).role⟩ s.blockTime k
        (s.actValue a r.ty) true) = St.ok →
      Completes (.actionWrite a) s fun t => t.get k = s.actValue a r.ty ∧ t.num (Key.act.ACT_STATE a) = 2 ∧
        (t.nat (Key.act.ACT_STATUS a) = St.ok ∨ t.nat (Key.act.ACT_STATUS a) = St.late)) ∧
    (∀ (n k : Nat) (v : Value) (x : Session) (r : Row), s.nat (Key.act.ACT_KIND a) = 2 → s.units.mgmt.served = true →
      s.nat (Key.act.ACT_TARGET a) = n → s.session n = some x → x.txn = some [(k, v)] → x.commit = none →
      PlainEntry k → PlainCommit k → k / 65536 ≠ 0x31 → k / 65536 ≠ 0x11 → Dict.row k = some r → r.acc ≠ .const →
      r.ty.ok v = true → s.commitOutcome ⟨n, (s.act a).role⟩ [(k, v)] = (St.ok, 0) →
      Completes (.actionCommit a) s fun t => t.get k = v ∧ t.num (Key.act.ACT_STATE a) = 2 ∧
        (t.nat (Key.act.ACT_STATUS a) = St.ok ∨ t.nat (Key.act.ACT_STATUS a) = St.late))

/-- GPIO_INPUT_EDGE and START_SAMPLE complete: an edge fixes the start of its groups, and a due start sample starts the
group. GPIO_INPUT_EDGE on the pin and edge that an armed group selects fixes its start at the first sample at or after
the edge plus 4 sample periods, anew where it was fixed already (the model's choice, log 161); START_SAMPLE of a group
whose start is due, after the changes of its boundary where it is one, takes it to STARTED at that sample and begins
its armed generators; one that its tests refuse stays armed (log 194). (R78, R79) -/
def Obligations.StartGroupsStart : Prop :=
  ∀ (s : State) (g : Fin 8),
    (∀ (pin : Fin 8) (rising : Bool), s.num (Key.sg.SG_TRIGGER g) = 1 → s.nat (Key.sg.SG_GPIO g) = pin →
      s.num (Key.sg.SG_EDGE g) = (if rising then 0 else 1) → s.num (Key.sg.SG_STATE g) = 1 → s.gpioDriven pin = none →
      Completes (.gpioInputEdge pin rising) s fun t =>
        (t.sg g).fixed = some (firstFrom s.fs 1 s.now + 4) ∧ s.Frame [] t) ∧
    (∀ n : Nat, s.sgDue g = some n → n < 2 ^ 63 → n % s.B ≠ 0 ∨ s.units.disp.blockAt = some n → Completes (.startSample g) s fun t =>
      t.num (Key.sg.SG_STATE g) = 2 ∧ t.num (Key.sg.SG_START_SAMPLE g) = n ∧ (t.sg g).fixed = some n ∧ t.mode = s.mode ∧
      ∀ h < 4, s.genState h = 1 → s.nat (Key.gen.G_SG h) = g →
        (s.genRefused h = none → (s.nat (Key.gen.G_POINT h) < 2 ∨ ∀ j < 4, j ≠ h → s.nat (Key.gen.G_TARGET j) ≠ s.nat (Key.gen.G_TARGET h)) →
          t.genState h = 2 ∧ (t.gen h).begun = true) ∧
        (s.genRefused h ≠ none → t.genState h = 1))

/-- Packets are counted, and a subscription's state follows loss, retry and clears. For each subscription: STREAM_PACKET
that it receives is counted in RX_PACKETS, and one of channels (not of a pair) that is in order, lies in the window
and brings a frame that was absent is VALID and fills the jitter buffer from the cut on; STREAM_LOST after LOSS_BLOCKS
empty play blocks takes RECEIVING to LOST; STREAM_FENCE_RETRY after FENCE_RETRY seconds, and STREAM_FENCE_CLEAR 1,
take FENCED to WAITING; STREAM_COUNTER_CLEAR 1 clears its counters; PATH_DOWN of one of a pair sets PATH_STATE. (R97,
R99, R100, R101, R104, R108, R111, R112) -/
def Obligations.PacketsAndStreamStates : Prop :=
  ∀ (s : State) (i : Fin 128), s.Typed →
    (∀ (udp : List Byte) (ok : Bool), s.receives i = true → Completes (.streamPacket i udp ok) s fun t =>
      t.num (Key.st.RX_PACKETS i) = (s.num (Key.st.RX_PACKETS i) + 1) % 2 ^ 32 ∧ t.mode = s.mode ∧ t.store = s.store) ∧
    (∀ (udp p : List Byte) (ok : Bool), s.receives i = true → s.stState i ≠ 4 → s.malformed i udp ok = none →
      rtpPayload udp = some p → s.num (Key.sub.KIND i) = 0 → s.primary i = i → s.secondary i = none → s.packetFrames i udp p ≠ [] →
      ((s.packetFrames i udp p).all fun x => !x.2.isEmpty && decide (x.1 < s.mCut (s.presented (s.arrival i udp)) + s.depth)) = true →
      (∀ f ∈ (s.stream i).frames, f.rival = none) →
      ((s.packetFrames i udp p).any fun x => decide (s.mCut (s.presented (s.arrival i udp)) ≤ x.1) &&
        absent (s.stream i).frames x.1) = true →
      Completes (.streamPacket i udp ok) s fun t =>
        t.num (Key.st.VALID i) = (s.num (Key.st.VALID i) + 1) % 2 ^ 32 ∧ t.mode = s.mode ∧ t.store = s.store ∧
        (t.stream i).frames = ((s.packetFrames i udp p).filter fun x => decide (s.mCut (s.presented (s.arrival i udp)) ≤ x.1) &&
            absent (s.stream i).frames x.1).foldl
          (fun f y => bufPut f { idx := y.1, words := frameWords (s.words i) y.2 }) (s.stream i).frames) ∧
    (s.stState i = 2 → s.nat Key.eng.LOSS_BLOCKS ≤ (s.stream i).emptyBlocks → Completes (.streamLost i) s fun t =>
      t.stState i = 3 ∧ s.Frame ([Key.st.STREAM_STATE i, Key.evt.EVT_RAISED] ++ (List.range 16).map Key.cin.NET_STATE) t) ∧
    (s.stState i = 4 → s.nat Key.eng.FENCE_RETRY ≠ 0 →
      s.passed (s.stream i).fencedAt (s.nat Key.eng.FENCE_RETRY * 1000000000) = true → Completes (.streamFenceRetry i) s fun t =>
        t.stState i = 1 ∧ (s.partnerRuns i = false → (t.stream i).frames = []) ∧ (t.stream i).fencedAt = none ∧
        s.Frame ([Key.st.STREAM_STATE i, Key.evt.EVT_RAISED] ++ (List.range 16).map Key.cin.NET_STATE) t) ∧
    ((s.secondary (s.primary i)).isSome = true → s.receives i = true → s.flag (Key.st.PATH_STATE i) = false →
      ((s.stream i).pathLast.any fun t0 => s.expired t0 (s.nat Key.eng.LOSS_BLOCKS * s.B * 1000000000 / s.fs)) = true → Completes (.pathDown i) s fun t =>
        t.num (Key.st.PATH_STATE i) = 1 ∧ s.Frame [Key.st.PATH_STATE i, Key.evt.EVT_RAISED] t) ∧
    (∀ w, Writes (.streamFenceClear i w) (Key.st.FENCE_CLEAR i) w 1 (fun s => s.stState i = 4) fun s t =>
      t.stState i = 1 ∧ t.num Key.fence.CLEARS = (s.num Key.fence.CLEARS + 1) % 2 ^ 32 ∧
      s.Frame ([Key.st.STREAM_STATE i, Key.fence.CLEARS, Key.evt.EVT_RAISED] ++ (List.range 16).map Key.cin.NET_STATE) t) ∧
    (∀ w, Writes (.streamCounterClear i w) (Key.st.CLEAR i) w 1 (fun _ => True) fun s t =>
      (∀ j < 9, t.num (Key.st.RX_PACKETS i + j) = 0) ∧ t.num (Key.st.SSRC_CHANGES i) = 0 ∧ t.num (Key.st.FENCE_COUNT i) = 0 ∧
      t.num (Key.st.FOREIGN_OBJ_PKTS i) = 0 ∧ t.units.streams = s.units.streams)

/-- A due metadata record applies or fences its object; a missing one and a clear take effect. For each object slot:
METADATA_APPLY of a record that is due at the sample worked on next (the device works ahead, log 26) and passes R147
in the configuration that accepted commits will have brought (log 182) makes the object ACTIVE with that record; one
that fails fences it; META_TIMEOUT with no record for META_TIMEOUT ms takes ACTIVE to STALE; OBJECT_FENCE_CLEAR 1
takes FENCED to NO_META. (R117, R118, R121, R147, R148) -/
def Obligations.MetadataAppliesToItsObject : Prop :=
  ∀ (s : State) (o : Fin 512), s.Typed →
    (∀ (p : Nat) (m : MetaRec) (rest : List (Nat × MetaRec)), (s.obj o).pend = (p, m) :: rest → p ≤ s.workSample → s.objState o ≠ 0 →
      (s.foretold.recordFault m = none → Completes (.metadataApply o) s fun t =>
        t.objState o = 2 ∧ (t.obj o).pend = rest ∧ (t.obj o).record = some m ∧ (t.obj o).lastApply = some p ∧ t.mode = s.mode) ∧
      (∀ cause, s.foretold.recordFault m = some cause → Completes (.metadataApply o) s fun t =>
        t.objState o = 4 ∧ (t.obj o).pend = rest ∧ s.Frame [Key.obj.OBJ_STATE o, Key.evt.EVT_RAISED] t)) ∧
    (∀ p : Nat, (s.obj o).lastApply = some p → s.nat Key.ren.META_TIMEOUT ≠ 0 → s.objState o = 2 → (s.obj o).pend = [] →
      p + s.nat Key.ren.META_TIMEOUT * s.fs / 1000 ≤ s.workSample → Completes (.metaTimeout o) s fun t =>
        t.objState o = 3 ∧ s.Frame [Key.obj.OBJ_STATE o, Key.evt.EVT_RAISED] t) ∧
    (∀ w, Writes (.objectFenceClear o w) (Key.obj.FENCE_CLEAR o) w 1 (fun s => s.objState o = 4) fun s t =>
      t.objState o = 1 ∧ (t.obj o).record = none ∧ s.Frame [Key.obj.OBJ_STATE o, Key.fence.CLEARS, Key.evt.EVT_RAISED] t)

/-- Lanes finish tasks, are tested, stall and are cleared. For each lane: TASK_FINISH of a task that the lane may finish
marks it done and its slack against its deadline enters the minimum of its kind, or ends its late run (which late run
ends first is log 193's choice, when a lane may finish a task log 28's); RENDER_CUT drops every open render task,
counts it and has its group concealed; LANE_SELF_TEST that passes where a test may run reports the speed and is
counted; LANE_STALL after 4 idle blocks fences it; LANE_FENCE_CLEAR 1 of a fenced lane begins its tests. (R184, R185,
R192, R193, R196, R200, R201, R204) -/
def Obligations.LaneTasksAndTests : Prop :=
  ∀ (s : State) (l : Fin 16), s.Typed →
    (∀ k : Fin 64, s.finishes l k = true → s.lateRun l k = none → Completes (.taskFinish l k) s fun t =>
        t.units.disp.done = s.units.disp.done ++ [k.val] ∧ (t.lane l).finish = s.now - sampleTime s.fs s.periodStart ∧
        (k.val < 16 → t.units.disp.slackRender = least s.units.disp.slackRender ((s.renderCutTime : Int) - s.now)) ∧
        (16 ≤ k.val → k.val < 32 → t.units.disp.slackA = least s.units.disp.slackA ((s.periodEnd : Int) - s.now)) ∧
        (32 ≤ k.val → t.units.disp.slackB = least s.units.disp.slackB ((s.periodEnd : Int) - s.now)) ∧ s.Frame [] t) ∧
    (∀ (k : Fin 64) (x : LateRun), k.val < 48 → s.finishes l k = true → s.lateRun l k = some x → Completes (.taskFinish l k) s fun t =>
        t.units.disp.done = s.units.disp.done ∧ t.units.disp.late = dropFirst l k s.units.disp.late ∧ s.Frame [] t) ∧
    (s.renderCutTime ≤ s.now → s.units.disp.issued = true → Completes .renderCut s fun t =>
      (∀ g < 16, (s.laneOf g).isSome = true → s.units.disp.done.contains g = false → s.units.disp.dropped.contains g = false →
        t.units.disp.dropped.contains g = true ∧ (t.rgroup g).dropNext = true) ∧ t.units.disp.done = s.units.disp.done ∧
      t.num Key.disp.RENDER_DROPS = (s.num Key.disp.RENDER_DROPS + (((List.range 16).filter fun g => (s.laneOf g).isSome &&
        !s.units.disp.done.contains g && !s.units.disp.dropped.contains g).length : Int)) % 2 ^ 32 ∧
      s.Frame [Key.disp.RENDER_DROPS, Key.evt.EVT_RAISED] t) ∧
    (∀ speed < 65536, s.mayTest l = true → s.healthy l = true → Completes (.laneSelfTest l true speed) s fun t =>
        t.nat (Key.lane.SPEED_EST l) = speed ∧ t.num (Key.lane.TESTS_PASSED l) = (s.num (Key.lane.TESTS_PASSED l) + 1) % 2 ^ 32 ∧
        (t.lane l).lastTest = some s.mtbNs ∧ s.Frame [Key.lane.SPEED_EST l, Key.lane.TESTS_PASSED l] t) ∧
    (4 ≤ (s.lane l).idleBlocks → s.healthy l = true → Completes (.laneStall l) s fun t =>
      t.nat (Key.lane.FENCE_CAUSE l) = 3 ∧ t.healthy l = false ∧ t.mode = s.mode) ∧
    (∀ w, Writes (.laneFenceClear l w) (Key.lane.FENCE_CLEAR l) w 1 (fun s => s.healthy l = false) fun s t =>
      (t.lane l).clearTests = some 0 ∧ s.Frame [Key.fence.CLEARS, Key.evt.EVT_RAISED] t)

/-- Migration, the lantern lane, microcode, the throttle and the slack window. LANE_MIGRATION_DONE of a lantern lane that
has loaded another lane's tasks gives it those tasks and leaves no lantern, and of a fenced lane whose tasks go to the
lanes in service, with no lantern lane, it ends (log 114); LANTERN_REPLACE at a boundary names the highest healthy
lane where the rest admit the configuration; MICROCODE_ROTATION_STEP that passes at a boundary gives the lantern lane
the new version and the tasks of the next lane, which becomes the lantern lane, and one that fails on the way forward
turns back; THROTTLE_RISE raises the level to what the reading calls for and THROTTLE_FALL lowers it by one;
SLACK_WINDOW_END publishes the device's minima and begins a new window. (R192, R197, R198, R202, R203, R205) -/
def Obligations.LaneMigrationAndThrottle : Prop :=
  ∀ s : State, s.Typed →
    (∀ l f : Fin 16, f ≠ l → ((List.range 16).find? fun l => (s.lane l).migrateFrom.isSome && decide (2 ≤ (s.lane l).migBlocks)) = some l.val →
      (s.lane l).migrateFrom = some f.val → Completes .laneMigrationDone s fun t =>
        (t.lane l).tasks = (s.lane l).tasks ++ (s.lane f).tasks ++ (s.lane f).incoming ∧ (t.lane f).tasks = [] ∧ t.num (Key.lane.LANE_STATE l) = 0 ∧
        t.num Key.disp.LANTERN = 0xFF) ∧
    (∀ l : Fin 16, ((List.range 16).find? fun l => (s.lane l).migrateFrom.isSome && decide (2 ≤ (s.lane l).migBlocks)) = some l.val →
      (s.lane l).migrateFrom = some l.val → Completes .laneMigrationDone s fun t =>
        (t.lane l).migrateFrom = none ∧ (s.inService ≠ [] → (t.lane l).tasks = []) ∧ t.mode = s.mode ∧ t.store = s.store) ∧
    (∀ l : Fin 16, 16 ≤ s.nat Key.disp.LANTERN → (∀ i < 16, (s.lane i).migrateFrom = none) → s.units.disp.noLantern = false →
      s.units.disp.reassign = false → s.atBoundary = true → s.units.mgmt.served = true → s.healthyLanes.getLast? = some l.val → admitted (s.placement (s.healthyLanes.filter (· != l.val))) = true →
      Completes .lanternReplace s fun t => t.num Key.disp.LANTERN = l.val ∧ t.num (Key.lane.LANE_STATE l) = 1) ∧
    (s.units.disp.fsm = 1 → s.nat Key.disp.LANTERN < 16 → (s.lane (s.nat Key.disp.LANTERN)).migrateFrom = none →
      s.units.mgmt.served = true → Completes (.microcodeRotationStep false) s fun t =>
        t.units.disp.fsm = 2 ∧ t.units.disp.failLane = s.nat Key.disp.LANTERN ∧
        s.Frame [Key.lane.TEST_FAILS (s.nat Key.disp.LANTERN)] t) ∧
    (∀ l i : Fin 16, s.units.disp.fsm = 1 → s.nat Key.disp.LANTERN = l → (s.lane l).migrateFrom = none → s.units.mgmt.served = true →
      s.atBoundary = true → (s.inService.find? fun i => (s.lane i).newUcode != true) = some i.val → s.units.disp.newVer < 2 ^ 32 →
      Completes (.microcodeRotationStep true) s fun t =>
        t.nat (Key.lane.MICROCODE_VER l) = s.units.disp.newVer ∧ (t.lane l).tasks = (s.lane i).tasks ∧ (t.lane i).tasks = [] ∧
        t.num Key.disp.LANTERN = i.val ∧ t.num (Key.lane.LANE_STATE i) = 1 ∧ t.num (Key.lane.LANE_STATE l) = 0 ∧
        t.num (Key.lane.TESTS_PASSED l) = (s.num (Key.lane.TESTS_PASSED l) + 4) % 2 ^ 32 ∧ t.mode = s.mode ∧ t.store = s.store) ∧
    (∀ sensor mv : Nat, sensor < 8 → mv < 65536 → s.nat Key.thr.THROTTLE_LEVEL < s.thrCalls mv → Completes (.throttleRise sensor mv) s fun t =>
      t.nat Key.thr.THROTTLE_LEVEL = s.thrCalls mv ∧ t.nat Key.thr.LOW_SENSOR = sensor ∧ t.mode = s.mode ∧ t.store = s.store) ∧
    (s.nat Key.thr.THROTTLE_LEVEL ≠ 0 → s.passed s.units.disp.thrOk 10000000 = true → Completes .throttleFall s fun t =>
      t.nat Key.thr.THROTTLE_LEVEL = s.nat Key.thr.THROTTLE_LEVEL - 1 ∧ t.mode = s.mode ∧ t.store = s.store) ∧
    (s.units.disp.windowAt + s.units.disp.window * 1000000 ≤ s.mtbNs → Completes .slackWindowEnd s fun t =>
      t.units.disp.windowAt = s.mtbNs ∧ t.units.disp.window = s.nat Key.disp.SLACK_WINDOW ∧
      (∀ v : Int, s.units.disp.slackA = some v → |v| < 2 ^ 31 → t.num Key.disp.MIN_SLACK_A = v) ∧ t.units.disp.slackA = none ∧
      (∀ v : Int, s.units.disp.slackB = some v → |v| < 2 ^ 31 → t.num Key.disp.MIN_SLACK_B = v) ∧ t.units.disp.slackB = none ∧
      (∀ v : Int, s.units.disp.slackRender = some v → |v| < 2 ^ 31 → t.num Key.disp.MIN_SLACK_RENDER = v) ∧
      t.units.disp.slackRender = none ∧ t.mode = s.mode ∧ t.store = s.store)

/-- A wait for a zero crossing ends at a crossing, or at its limit, and its change applies. ZERO_CROSSING of a wait whose
signal crosses within its limit, and ZC_WAIT_TIMEOUT of it past its limit, end the wait and count it; the signal and
sample by which a crossing of a gain is judged are those of the chain's work ahead (logs 26, 104); a start then plays
and its chain gate rises over 32 samples; a gain applies at once at a crossing, and over a ramp from the value in use
after a timeout. A key that names no wait does nothing. (R154, R155, R172, R280, R362, R363, R364) -/
def Obligations.WaitsEndAtCrossingsAndTimeouts : Prop :=
  (∀ (s : State) (key : Nat), (s.units.zc.any fun w => w.key == key) = false →
      exec (.zeroCrossing key) s = .next s ∧ exec (.zcWaitTimeout key) s = .next s) ∧
  (∀ (s : State) (c : Fin 16) (w : ZcWait), s.units.zc = [w] → w.key = Zc.start c →
      (w.start ≤ s.sampleNow → s.sampleNow ≤ w.start + w.limit → s.crosses (Zc.start c) = true →
        Completes (.zeroCrossing (Zc.start c)) s fun t =>
          t.zcWait (Zc.start c) = none ∧ t.num Key.zc.ZC_WAITS = (s.num Key.zc.ZC_WAITS + 1) % 2 ^ 32 ∧ t.phase c = 4 ∧
          t.outState c = 2 ∧ (t.chan c).gc = (s.chan c).gc.start 1 32 s.strobed ∧ t.mode = s.mode ∧ t.store = s.store) ∧
      (w.start + w.limit < s.sampleNow ∨ (w.start + w.limit = s.sampleNow ∧ s.crosses (Zc.start c) = false) →
        Completes (.zcWaitTimeout (Zc.start c)) s fun t =>
          t.zcWait (Zc.start c) = none ∧ t.num Key.zc.ZC_TIMEOUTS = (s.num Key.zc.ZC_TIMEOUTS + 1) % 2 ^ 32 ∧ t.phase c = 4 ∧
          t.outState c = 2 ∧ (t.chan c).gc = (s.chan c).gc.start 1 32 s.strobed ∧ t.mode = s.mode ∧ t.store = s.store)) ∧
  (∀ (s : State) (c : Fin 16) (w : ZcWait), s.units.zc = [w] → w.key = Key.gn.GAIN c →
      (w.start ≤ s.chainNext c → s.chainNext c ≤ w.start + w.limit → s.crosses (Key.gn.GAIN c) = true →
        Completes (.zeroCrossing (Key.gn.GAIN c)) s fun t => t.units.zc = [] ∧ (∀ r ∈ (t.chan c).ramps, r.1 ≠ Key.gn.GAIN c) ∧
          t.used (Key.gn.GAIN c) = s.get (Key.gn.GAIN c) ∧
          s.Frame [Key.zc.ZC_WAITS, Key.zc.ZC_LONGEST] t) ∧
      (w.start + w.limit < s.chainNext c → Completes (.zcWaitTimeout (Key.gn.GAIN c)) s fun t => t.units.zc = [] ∧
          (Key.gn.GAIN c, s.used (Key.gn.GAIN c), 0) ∈ (t.chan c).ramps ∧ s.Frame [Key.zc.ZC_TIMEOUTS, Key.zc.ZC_LONGEST] t))

/-- Fallback, FIR crossfade and pinned ceilings of a channel. For each channel: FALLBACK_ENGAGE begins the change to the
fallback source after the delay or in HOLDOVER; FALLBACK_RELEASE begins the return after 2 s of reception;
FALLBACK_CROSSFADE_END completes either and counts it; FIR_CROSSFADE_END makes the new bank the active one;
CEILING_PINNED after 10 s is reported once. (R165, R171, R178, R179, R180) -/
def Obligations.FallbackAndFirTransitions : Prop :=
  ∀ (s : State) (c : Fin 16),
    (s.num (Key.cin.FB_KIND c) ≠ 0 → s.fbState c = 0 → s.mode = .holdover → Completes (.fallbackEngage c) s fun t =>
      t.fbState c = 1 ∧ (t.zcWait (Zc.fallback c)).isSome = true ∧ s.Frame [Key.cin.FB_STATE c] t) ∧
    (s.fbState c = 2 → s.mode ≠ .holdover → s.mode ≠ .measure → s.passed (s.chan c).recvSince 2000000000 = true → Completes (.fallbackRelease c) s fun t =>
      t.fbState c = 3 ∧ (t.zcWait (Zc.fallback c)).isSome = true ∧ s.Frame [Key.cin.FB_STATE c] t) ∧
    (s.fbState c = 1 ∨ s.fbState c = 3 → (s.chan c).fbLen ≠ 0 → (s.chan c).fbLeft = 0 → Completes (.fallbackCrossfadeEnd c) s fun t =>
      t.fbState c = (if s.fbState c = 1 then 2 else 0) ∧ (t.chan c).fbLen = 0 ∧
      t.num (Key.cin.FB_SWITCHES c) = (s.num (Key.cin.FB_SWITCHES c) + 1) % 2 ^ 32 ∧
      s.Frame [Key.cin.FB_STATE c, Key.cin.FB_SWITCHES c, Key.cin.NET_STATE c, Key.evt.EVT_RAISED] t) ∧
    (s.nat (Key.fir.FIR_STATE c) = 2 ∨ s.nat (Key.fir.FIR_STATE c) = 3 → s.num (Key.fir.FIR_XFADE_LEFT c) = 0 →
      Completes (.firCrossfadeEnd c) s fun t =>
        t.nat (Key.fir.FIR_STATE c) = (if s.nat (Key.fir.FIR_STATE c) = 2 then 1 else 0) ∧ (t.chan c).firLen = 0 ∧
        s.Frame [Key.fir.FIR_STATE c, Key.evt.EVT_RAISED] t) ∧
    (s.num (Key.cin.FB_KIND c) ≠ 0 → s.fbState c = 0 → s.mode.chains = true → s.mode ≠ .measure →
      s.passed (s.chan c).lostSince (s.nat (Key.cin.FALLBACK_DELAY c) * 1000000) = true → Completes (.fallbackEngage c) s fun t =>
        t.fbState c = 1 ∧ (t.zcWait (Zc.fallback c)).isSome = true ∧ s.Frame [Key.cin.FB_STATE c] t) ∧
    (s.passed (s.chan c).pinSince 10000000000 = true → (s.chan c).pinTold = false → Completes (.ceilingPinned c) s fun t =>
      (t.chan c).pinTold = true ∧ (s.units.mgmt.absentAt = none → t.num Key.evt.EVT_RAISED = (s.num Key.evt.EVT_RAISED + 1) % 2 ^ 32) ∧ s.Frame [Key.evt.EVT_RAISED] t)

/-- A following-error trip acts as FE_ACTION says, and a clear opens a fenced slot. For each slot in CLOSED whose count
has reached FE_TIME, FOLLOWING_ERROR_TRIP sets the flag, counts the trip, and with FE_ACTION 1 opens the slot with MAN
at its output, with 2 fences it. SLOT_FENCE_CLEAR 1 of a fenced slot whose check code is sound opens it. (R223, R229,
R231, R233, R235) -/
def Obligations.SlotSupervisionAndClears : Prop :=
  ∀ (s : State) (n : Fin 64), s.Typed →
    (s.slotState n = 1 → s.nat (Key.ls.FE_TIME n) ≠ 0 → s.nat (Key.ls.FE_TIME n) ≤ (s.slot n).count →
      Completes (.followingErrorTrip n) s fun t =>
        t.num (Key.ls.FE_TRIPS n) = (s.num (Key.ls.FE_TRIPS n) + 1) % 2 ^ 32 ∧ (t.slot n).count = 0 ∧
        (t.nat (Key.ls.FLAGS n)).testBit 8 = true ∧ (s.nat (Key.ls.FE_ACTION n) = 1 → -2 ^ 31 ≤ (s.slot n).uBase → (s.slot n).uBase < 2 ^ 31 →
          t.num (Key.ls.MAN n) = (s.slot n).uBase) ∧
        (s.nat (Key.ls.FE_ACTION n) = 0 → t.slotState n = 2) ∧ (s.nat (Key.ls.FE_ACTION n) = 1 → t.slotState n = 0) ∧
        (s.nat (Key.ls.FE_ACTION n) = 2 → t.slotState n = 3 ∧ t.num (Key.ls.FENCE_CAUSE n) = 1) ∧
        (s.nat (Key.ls.FE_ACTION n) = 3 → t.slotState n = 1) ∧ t.mode = s.mode) ∧
    (∀ w, Writes (.slotFenceClear n w) (Key.ls.FENCE_CLEAR n) w 1 (fun s => s.slotState n = 3 ∧ (s.slot n).checkBad = false) fun s t =>
      t.slotState n = 0 ∧ t.num (Key.ls.FENCE_CAUSE n) = 0 ∧ t.num (Key.ls.STATE_REQ n) = 0 ∧ t.mode = s.mode)

/-- A learner locks, loses lock, resumes, clears and is cleared. For each learner: FL_TRACKER_LOCK from SEARCH within
90-130 Hz enters LEARNING with the period shown; FL_TRACKER_LOSS enters SEARCH and its correction fades from its
value, or, before the tick or after another change of that tick, waits for it; FL_HOLD_WINDOW_END after a quiet window
leaves HOLD; FL_FADE_DONE clears the buffer and its peak; FL_CLEAR 1 begins the fade; LEARNER_FENCE_CLEAR 1 starts it
again. (R238, R239, R240, R241, R242) -/
def Obligations.LearnerTransitions : Prop :=
  ∀ (s : State) (g : Fin 4), s.Typed →
    (∀ period, s.num (Key.fl.FL_MODE g) ≠ 1 → 7692308 ≤ period → period ≤ 11111111 → s.flState g = 1 → s.flFree g = true →
      Completes (.flTrackerLock g period) s fun t => t.flState g = 2 ∧ t.nat (Key.fl.FL_PERIOD_NOW g) = period ∧
        t.nat (Key.fl.FL_FREQ g) = 1000000000000 / period ∧
        s.Frame [Key.fl.FL_STATE g, Key.fl.FL_PERIOD_NOW g, Key.fl.FL_FREQ g, Key.evt.EVT_RAISED] t) ∧
    (s.num (Key.fl.FL_MODE g) = 0 → s.flState g = 2 ∨ s.flState g = 3 → s.flFree g = true → Completes (.flTrackerLoss g) s fun t =>
      t.flState g = 1 ∧ (t.learner g).fading = true ∧ (t.learner g).fade = 1920 ∧ (t.learner g).fadeFrom = (s.learner g).factor ∧
      s.Frame [Key.fl.FL_STATE g, Key.evt.EVT_RAISED] t) ∧
    (s.num (Key.fl.FL_MODE g) = 0 → s.flState g = 2 ∨ s.flState g = 3 → s.flFree g = false → Completes (.flTrackerLoss g) s fun t =>
      (t.learner g).due = flHigher (s.learner g).due (some 1) ∧ s.Frame [] t) ∧
    (∀ q, (s.learner g).quiet = some q → s.flState g = 3 → q + s.flWindow g ≤ s.tickNow → s.flFree g = true → Completes (.flHoldWindowEnd g) s fun t =>
      t.flState g = 2 ∧ s.Frame [Key.fl.FL_STATE g, Key.evt.EVT_RAISED] t) ∧
    ((s.learner g).fading = true → (s.learner g).fade = 0 → (s.learner g).again = false → Completes (.flFadeDone g) s fun t =>
      (t.learner g).c = [] ∧ (t.learner g).fading = false ∧ t.num (Key.fl.CORR_PEAK g) = 0 ∧ s.Frame [Key.fl.CORR_PEAK g] t) ∧
    (∀ w, Writes (.flClear g w) (Key.fl.FL_CLEAR g) w 1 (fun s => s.flState g = 2) fun s t =>
      (t.learner g).fading = true ∧ (t.learner g).fade = 1920 ∧ (t.learner g).fadeFrom = (s.learner g).factor ∧
      (t.learner g).again = true ∧ s.Frame [] t) ∧
    (∀ w, Writes (.learnerFenceClear g w) (Key.fl.FENCE_CLEAR g) w 1 (fun s => s.flState g = 4) fun s t =>
      t.flState g = (if s.num (Key.fl.FL_MODE g) = 1 then 2 else 1) ∧ (t.learner g).c = (s.learner g).c ∧
      s.Frame [Key.fl.FL_STATE g, Key.fence.CLEARS, Key.evt.EVT_RAISED] t)

/-- Pilot windows, the stored observer, thermal fences and drift windows. For each channel: a PILOT_WINDOW_END of a window
that is rejected is counted; one that is used (log 3 for its measures, log 169 for its instants) is counted as a
result, shown, and moves both nodes of the observer; THERMAL_HARD after 2 s above the limit fences the channel;
THERMAL_RESUMED below the resume margin clears that cause; a DRIFT_WINDOW_END of a window that does not count changes
no entry, of one that does it shows FS_TRACKED. While the channel's model task is paused by the throttle, neither
window changes anything (R197). OBSERVER_STORE after 10 s, while the management processor serves, stores every
channel's state with the presented time or, before anchoring, the instant of the state it holds or 0 (log 165), and
OBSERVER_COOL_ON_LOCK in LOCKED cools every state held by the time since it was stored. (R250, R251, R253, R254, R263,
R264, R268, R269) -/
def Obligations.ConeSupervision : Prop :=
  (∀ (s : State) (c : Fin 16) (w : PilotSum), (s.chan c).pilotDone = some w → s.classPaused (c + 48) = false → w.on = true →
      s.pilotRejects c w = true → Completes (.pilotWindowEnd c w.sec) s fun t =>
        t.num (Key.thm.PILOT_REJECTS c) = (s.num (Key.thm.PILOT_REJECTS c) + 1) % 2 ^ 32 ∧
        (t.chan c).rejects = (s.chan c).rejects + 1 ∧ (t.chan c).pilotDone = none ∧
        s.Frame [Key.thm.PILOT_REJECTS c, Key.thm.PILOT_STATE c, Key.evt.EVT_RAISED] t) ∧
  (∀ (s : State) (c : Fin 16) (w : PilotSum), (s.chan c).pilotDone = some w → s.classPaused (c + 48) = false → w.on = true →
      s.pilotRejects c w = false → Completes (.pilotWindowEnd c w.sec) s fun t =>
        t.num (Key.thm.PILOT_RESULTS c) = (s.num (Key.thm.PILOT_RESULTS c) + 1) % 2 ^ 32 ∧ (t.chan c).rejects = 0 ∧
        (t.chan c).tCoil = (s.chan c).tCoil + s.ent (Key.thm.OBS_GAIN c) 65536 * (s.ent (Key.drv.T_REF c) 100 +
          (w.re / s.ent (Key.drv.RE_REF c) 1000000 - 1) / (393 / 100000) - (s.chan c).tCoil) ∧ (t.chan c).pilotDone = none ∧
        (t.chan c).tMag = (s.chan c).tMag + s.ent (Key.thm.OBS_GAIN c) 65536 * (s.ent (Key.drv.T_REF c) 100 +
          (w.re / s.ent (Key.drv.RE_REF c) 1000000 - 1) / (393 / 100000) - (s.chan c).tCoil) * s.num (Key.thm.RTH_M c) /
          (s.num (Key.thm.RTH_VC c) + s.num (Key.thm.RTH_M c) : Int) ∧
        t.num (Key.thm.T_COIL_MEAS c) = signed 32 (rounded (Key.thm.T_COIL_MEAS c) ((s.ent (Key.drv.T_REF c) 100 +
          (w.re / s.ent (Key.drv.RE_REF c) 1000000 - 1) / (393 / 100000)) * 65536)) ∧
        s.Frame [Key.thm.PILOT_RESULTS c, Key.thm.T_COIL_MEAS c, Key.thm.PILOT_STATE c] t) ∧
  (∀ (s : State) (c : Fin 16), s.modelValid c = true → s.passed (s.chan c).hotSince 2000000000 = true →
      (s.nat (Key.prot.FENCE_CAUSE c)).testBit 2 = false → Completes (.thermalHard c) s fun t =>
        (t.nat (Key.prot.FENCE_CAUSE c)).testBit 2 = true ∧
        t.num (Key.thm.THERMAL_FENCES c) = (s.num (Key.thm.THERMAL_FENCES c) + 1) % 2 ^ 32 ∧ t.mode = s.mode ∧ t.store = s.store) ∧
  (∀ (s : State) (c : Fin 16), s.nat (Key.prot.FENCE_CAUSE c) = 4 →
      100 * s.num (Key.thm.T_COIL_EST c) < 65536 * (s.num (Key.thm.T_LIMIT c) - s.num (Key.thm.T_RESUME_MARGIN c)) →
      Completes (.thermalResumed c) s fun t => t.nat (Key.prot.FENCE_CAUSE c) = 0 ∧ (t.chan c).hotSince = none ∧
        (t.chan c).startDue = true ∧ s.Frame [Key.prot.FENCE_CAUSE c, Key.pw.OUT_STATE c, Key.evt.EVT_RAISED] t) ∧
  (∀ (s : State) (c : Fin 16) (w : DriftSum), (s.chan c).driftDone = some w → s.classPaused (c + 48) = false →
      s.driftCounts c w = false → Completes (.driftWindowEnd c (10 * w.win) (10 * (w.win + 1))) s fun t => (t.chan c).driftDone = none ∧ s.Frame [] t) ∧
  (∀ (s : State) (c : Fin 16) (w : DriftSum), (s.chan c).driftDone = some w → s.classPaused (c + 48) = false →
      s.driftCounts c w = true → Completes (.driftWindowEnd c (10 * w.win) (10 * (w.win + 1))) s fun t => (t.chan c).driftDone = none ∧
        t.num (Key.drv.FS_TRACKED c) = rounded (Key.drv.FS_TRACKED c) (sqrtQ (max w.b 0) / Config.twoPi * 1000) % 2 ^ 32 ∧
        s.Frame [Key.drv.FS_TRACKED c, Key.drv.FS_DRIFT c, Key.evt.EVT_RAISED] t) ∧
  (∀ (s : State) (c : Fin 16), s.classPaused (c + 48) = true →
      (∀ k, exec (.pilotWindowEnd c k) s = .next s) ∧ ∀ a b, exec (.driftWindowEnd c a b) s = .next s) ∧
  (∀ s : State, s.units.mgmt.served = true → s.units.mgmt.obsAt + 10000000000 ≤ s.mtbNs → Completes .observerStore s fun t =>
      t.units.mgmt.obsAt = s.mtbNs ∧ t.mode = s.mode ∧ t.store = s.store ∧
      ∀ c < 16, Tbl.at none t.units.obsStore c = some ((s.chan c).tCoil, (s.chan c).tMag,
        if s.units.anchor.anchored then s.now else if (s.chan c).obsHeld then (s.chan c).obsFrom else 0)) ∧
  (∀ s : State, s.nat Key.lock.LOCK_STATE = 2 → Completes .observerCoolOnLock s fun t =>
      (∀ c < 16, (t.chan c).obsHeld = false ∧ ((s.chan c).obsHeld = true → s.observes c = true →
        ((t.chan c).tCoil, (t.chan c).tMag) = s.cool c ((s.now - (s.chan c).obsFrom) * 1500 / 1000000000)
          ((s.chan c).tCoil, (s.chan c).tMag))) ∧ t.mode = s.mode ∧ t.store = s.store)

/-- The start and stop sequences of a channel begin where their conditions stand. START_SEQUENCE at a block boundary of a
released channel that may start begins precharge; ORDERLY_STOP at a block boundary of a playing channel whose CH_EN is
0 begins the wait for a zero crossing, and between boundaries does nothing (R281); FAST_STOP of one that plays or
limits and that a fence of cause THERMAL or LOOP, or ENGAGE_N high, stops (Table 09-6) ramps its chain gate down over
32 samples with no wait; of a starting channel whose chain gate is still 0 it ramps the loop gate down (R284). Neither
touches a released channel, but for one that is probed, whose probe a stop gives up and makes due again (the model's
choice, log 168). (R280, R281, R282, R283, R284, R299) -/
def Obligations.ChannelsStartAndStop : Prop :=
  ∀ (s : State) (c : Fin 16),
    (∀ a b : Int, s.canStart c = true → s.outState c = 0 → s.phase c = 0 → s.atBoundary = true → Completes (.startSequence c a b) s fun t =>
      t.outState c = 1 ∧ t.num (Key.pw.SEQ_PHASE c) = 1 ∧ (t.chan c).seqPos = (if s.ticked then 1 else 0) ∧ (t.chan c).gc.value = 0 ∧ (t.chan c).ronDone = true ∧ t.mode = s.mode) ∧
    (s.flag (Key.pw.CH_EN c) = false → s.atBoundary = true → s.outState c = 2 → s.num (Key.pw.SEQ_PHASE c) = 0 →
      (s.chan c).gc.value ≠ 0 → Completes (.orderlyStop c) s fun t => t.num (Key.pw.SEQ_PHASE c) = 5 ∧ (t.zcWait (Zc.stop c)).isSome = true ∧
        s.Frame [Key.pw.SEQ_PHASE c] t) ∧
    (s.atBoundary = false → exec (.orderlyStop c) s = .next s) ∧
    ((s.nat (Key.prot.FENCE_CAUSE c)).testBit 2 = true ∨ (s.nat (Key.prot.FENCE_CAUSE c)).testBit 3 = true ∨ s.units.pins.engageN = true →
      (s.playing c = true → s.num (Key.pw.SEQ_PHASE c) ∈ [0, 4] → (s.chan c).gc.value ≠ 0 → Completes (.fastStop c) s fun t =>
        t.num (Key.pw.SEQ_PHASE c) = 6 ∧ (t.chan c).gc.value = (s.chan c).gc.value ∧ (t.chan c).gc.v1 = 0 ∧ (t.chan c).gc.len = 32 ∧
        (t.chan c).fast = true ∧ s.Frame [Key.pw.SEQ_PHASE c] t) ∧
      (s.outState c = 1 → s.num (Key.pw.SEQ_PHASE c) ∈ [1, 2, 3] → (s.chan c).gc.value = 0 → Completes (.fastStop c) s fun t =>
        t.num (Key.pw.SEQ_PHASE c) = 7 ∧ (t.chan c).gl.value = (s.chan c).gl.value ∧ (t.chan c).gl.v1 = 0 ∧ (t.chan c).gl.len = 32 ∧
        (t.zcWait (Zc.start c)) = none ∧ (t.chan c).fast = true ∧ s.Frame [Key.pw.SEQ_PHASE c] t)) ∧
    (s.released c = true → s.phase c ≠ 8 → exec (.orderlyStop c) s = .next s ∧ exec (.fastStop c) s = .next s) ∧
    (s.phase c = 8 → s.units.pins.engageN = true → Completes (.fastStop c) s fun t => t.num (Key.pw.SEQ_PHASE c) = 7 ∧
      (t.chan c).probing = false ∧ (t.chan c).probeAt = some s.mtbNs ∧ (t.chan c).probeWaits = true ∧
      s.Frame [Key.pw.SEQ_PHASE c, Key.prot.PROBE_NEXT c] t)

/-- Shorts, probes and DC faults of a channel fence it, and its clears end that. SHORT_DECLARED turns the bridge off at
the die; the BLOCK_BOUNDARY that follows, where no write, commit, action or restore takes effect, releases and fences
the channel, counts the short and sets the first probe 500 ms later (R287, R288); SHORT_PROBE begins a probe that is
ready (a channel kept released by CH_EN is not probed and its probe waits, which is the model's choice, log 168);
PROBE_DONE at 1 Ω or more clears the short, below it counts a failure, and the fifth sets bit 4 of FENCE_CAUSE and
plans no probe; DC_FAULT after 50 ms fences the channel and releases a bridge that switches at the next valley;
CHANNEL_FENCE_CLEAR 1 clears a latched fence and is refused while the thermal cause stands. (R287, R288, R290, R297,
R298) -/
def Obligations.ChannelProtectionActs : Prop :=
  ∀ (s : State) (c : Fin 16), s.Typed →
    (s.shorted c = true → Completes (.shortDeclared c) s fun t =>
      (t.chan c).dieOff = true ∧ (t.chan c).shortDue = true ∧ s.Frame [] t) ∧
    (∀ x : BlockSense, (s.chan c).shortDue = true → (s.chan c).probing = false → s.phase c ≠ 8 → s.units.waiting = [] →
      s.units.sessions = [] → (∀ a < 64, s.num (Key.act.ACT_STATE a) ≠ 1) → s.units.mgmt.restoreDue = none →
      Completes (.blockBoundary x) s fun t =>
        t.outState c = 4 ∧ t.num (Key.pw.SEQ_PHASE c) = 0 ∧ (t.nat (Key.prot.FENCE_CAUSE c)).testBit 0 = true ∧
        t.num (Key.prot.SHORT_COUNT c) = (s.num (Key.prot.SHORT_COUNT c) + 1) % 2 ^ 32 ∧
        (t.chan c).probeAt = some (s.mtbNs + 500000000) ∧ (t.chan c).shortDue = false ∧ (t.chan c).gc.value = 0 ∧ (t.chan c).gl.value = 0) ∧
    (s.probeReady c = true → Completes (.shortProbe c) s fun t =>
      (t.chan c).probing = true ∧ t.num (Key.pw.SEQ_PHASE c) = 8 ∧ s.Frame [Key.pw.SEQ_PHASE c, Key.prot.PROBE_NEXT c] t) ∧
    (∀ vc vs ic is : Rat, (s.chan c).probing = true → probeTicks < (s.chan c).seqPos → (s.chan c).probeSum = (vc, vs, ic, is) →
      ic * ic + is * is ≤ vc * vc + vs * vs → s.nat (Key.prot.FENCE_CAUSE c) = 1 → Completes (.probeDone c (s.nat (Key.prot.PROBE_FAILS c))) s fun t =>
        (t.chan c).probing = false ∧ t.phase c = 7 ∧ t.nat (Key.prot.FENCE_CAUSE c) = 0 ∧ (t.chan c).restart = some 0 ∧
        t.num (Key.pw.RESTART_GAIN c) = -2000 ∧ (t.chan c).startDue = true ∧ t.mode = s.mode ∧ t.store = s.store) ∧
    (∀ vc vs ic is : Rat, (s.chan c).probing = true → probeTicks < (s.chan c).seqPos → (s.chan c).probeSum = (vc, vs, ic, is) →
      vc * vc + vs * vs < ic * ic + is * is → s.nat (Key.prot.PROBE_FAILS c) < 4 → Completes (.probeDone c (s.nat (Key.prot.PROBE_FAILS c))) s fun t =>
        (t.chan c).probing = false ∧ t.phase c = 7 ∧ t.nat (Key.prot.PROBE_FAILS c) = s.nat (Key.prot.PROBE_FAILS c) + 1 ∧
        (t.chan c).probeAt = some (s.mtbNs + 2000000000) ∧ t.get (Key.prot.FENCE_CAUSE c) = s.get (Key.prot.FENCE_CAUSE c)) ∧
    (∀ vc vs ic is : Rat, (s.chan c).probing = true → probeTicks < (s.chan c).seqPos → (s.chan c).probeSum = (vc, vs, ic, is) →
      vc * vc + vs * vs < ic * ic + is * is → s.nat (Key.prot.PROBE_FAILS c) = 4 → (s.nat (Key.prot.FENCE_CAUSE c)).testBit 4 = false →
      Completes (.probeDone c 4) s fun t =>
        (t.chan c).probing = false ∧ t.phase c = 7 ∧ t.nat (Key.prot.PROBE_FAILS c) = 5 ∧
        t.nat (Key.prot.FENCE_CAUSE c) = s.nat (Key.prot.FENCE_CAUSE c) + 16 ∧ (t.chan c).probeAt = none ∧ t.probeReady c = false ∧
        t.num (Key.prot.FENCE_COUNT c) = (s.num (Key.prot.FENCE_COUNT c) + 1) % 2 ^ 32 ∧ t.mode = s.mode ∧ t.store = s.store) ∧
    (s.passed (s.chan c).dcSince 50000000 = true → (s.nat (Key.prot.FENCE_CAUSE c)).testBit 1 = false → Completes (.dcFault c) s fun t =>
      (s.released c = false → (t.chan c).releaseDue = true) ∧ (s.released c = true → s.phase c = 0 → t.outState c = 4) ∧ (t.nat (Key.prot.FENCE_CAUSE c)).testBit 1 = true ∧
      t.num (Key.prot.DC_TRIPS c) = (s.num (Key.prot.DC_TRIPS c) + 1) % 2 ^ 32 ∧ t.mode = s.mode) ∧
    (∀ w, Writes (.channelFenceClear c w) (Key.prot.FENCE_CLEAR c) w 1 (fun s => s.nat (Key.prot.FENCE_CAUSE c) = 2) fun s t =>
      t.nat (Key.prot.FENCE_CAUSE c) = 0 ∧ (t.chan c).startDue = true ∧
      s.Frame [Key.prot.FENCE_CAUSE c, Key.pw.OUT_STATE c, Key.fence.CLEARS, Key.evt.EVT_RAISED] t) ∧
    (∀ w, Writes (.channelFenceClear c w) (Key.prot.FENCE_CLEAR c) w 1 (fun s => (s.nat (Key.prot.FENCE_CAUSE c)).testBit 2 = true) fun s t =>
      t.units.answer.1 = St.conflict ∧ t.get (Key.prot.FENCE_CAUSE c) = s.get (Key.prot.FENCE_CAUSE c))

/-- Overvoltage, undervoltage, starvation and VAUX of a supply group. For each group: BUS_OVERVOLTAGE above 66 V,
STARVATION and VAUX_UVLO below 9.8 V mark and count their state and release every bridge of the group;
BUS_UNDERVOLTAGE_MUTE holds its four channels; BUS_OV_REARM, BUS_UV_RESTORE, STARVATION_RECOVERY and VAUX_RECOVER
begin or make the return. A state that already stands is not counted again, unless its end had begun. (R291, R292,
R293, R294, R295) -/
def Obligations.SupplyGroupsAreProtected : Prop :=
  ∀ (s : State) (g : Fin 4),
    (∀ mv, 66000 < mv → (s.group g).ov = false ∨ (s.group g).back.testBit 0 = true → Completes (.busOvervoltage g mv) s fun t =>
      (t.group g).ov = true ∧ t.num (Key.pg.OV_COUNT g) = (s.num (Key.pg.OV_COUNT g) + 1) % 2 ^ 32 ∧
      (∀ c ∈ groupChans g, t.released c = true) ∧ t.mode = s.mode ∧ t.store = s.store) ∧
    (∀ mv, mv < 62000 → (s.group g).ov = true → (s.group g).back.testBit 0 = false → Completes (.busOvRearm g mv) s fun t =>
      (t.group g).back.testBit 0 = true ∧ s.Frame [Key.evt.EVT_RAISED] t) ∧
    ((s.group g).uv = false → (s.group g).vMean < 22 → Completes (.busUndervoltageMute g) s fun t =>
      (t.group g).uv = true ∧ (∀ c ∈ groupChans g, (t.chan c).uvHeld = true) ∧
      t.num (Key.pg.UV_COUNT g) = (s.num (Key.pg.UV_COUNT g) + 1) % 2 ^ 32 ∧ t.mode = s.mode ∧ t.store = s.store) ∧
    ((s.group g).uv = true → s.passed (s.group g).uvOk 100000000 = true → Completes (.busUvRestore g) s fun t =>
      (t.group g).uv = false ∧ (∀ c ∈ groupChans g, (t.chan c).uvHeld = false) ∧ t.mode = s.mode ∧ t.store = s.store) ∧
    ((s.group g).starved = false ∨ (s.group g).back.testBit 1 = true → Completes (.starvation g) s fun t =>
      (t.group g).starved = true ∧ t.num (Key.pg.STARVE_COUNT g) = (s.num (Key.pg.STARVE_COUNT g) + 1) % 2 ^ 32 ∧
      (∀ c ∈ groupChans g, t.released c = true) ∧ t.mode = s.mode ∧ t.store = s.store) ∧
    ((s.group g).starved = true → Completes (.starvationRecovery g) s fun t => (t.group g).back.testBit 1 = true ∧ s.Frame [] t) ∧
    (∀ mv, mv < 9800 → (s.group g).uvlo = false ∨ (s.group g).vauxOk.isSome = true → Completes (.vauxUvlo g mv) s fun t =>
      (t.group g).uvlo = true ∧ t.num (Key.pg.UVLO_COUNT g) = (s.num (Key.pg.UVLO_COUNT g) + 1) % 2 ^ 32 ∧
      (∀ c ∈ groupChans g, t.released c = true) ∧ t.mode = s.mode ∧ t.store = s.store) ∧
    (∀ mv, 10500 < mv → (s.group g).uvlo = true → (s.group g).vauxOk = none → Completes (.vauxRecover g mv) s fun t =>
      (t.group g).vauxOk = some s.mtbNs ∧ s.Frame [] t) ∧
    (∀ mv, (s.group g).ov = true → (s.group g).back.testBit 0 = false → exec (.busOvervoltage g mv) s = .next s) ∧
    ((s.group g).uv = true → exec (.busUndervoltageMute g) s = .next s) ∧
    ((s.group g).starved = true → (s.group g).back.testBit 1 = false → exec (.starvation g) s = .next s) ∧
    (∀ mv, (s.group g).uvlo = true → (s.group g).vauxOk = none → exec (.vauxUvlo g mv) s = .next s)

/-- Generators begin, ramp and fall to IDLE; captures trigger and complete; result objects are freed. GENERATOR_START
begins a RUNNING generator; GENERATOR_END at the end of its fall returns it to IDLE; G_LEVEL_WRITE takes the level and
ramps a running generator to it. CAPTURE_TRIGGER of an armed capture whose latest sample met the trigger, with that
sample the first after it, and CAPTURE_DONE of one that has all its samples, with the blob of R316 (a 4-byte sample
holds its low bits as zero, log 171), step its state; RES_FREE 1 frees an object that no analysis is filling. (R308,
R310, R311, R316, R318, R320) -/
def Obligations.GeneratorsAndCapturesRun : Prop :=
  (∀ (s : State) (g : Fin 4), s.genState g = 2 → (s.gen g).begun = false → Completes (.generatorStart g) s fun t =>
      (t.gen g).begun = true ∧ t.num (Key.gen.G_SAMPLES g) = 0 ∧ s.Frame [Key.gen.G_SAMPLES g] t) ∧
  (∀ (s : State) (g : Fin 4) (k : Nat), (s.gen g).fall = some k → (s.gen g).fallLen ≤ k → (s.gen g).owner = none →
      Completes (.generatorEnd g) s fun t =>
        t.genState g = 0 ∧ (t.gen g).begun = false ∧ (t.gen g).fall = none ∧ s.Frame [Key.gen.G_STATE g, Key.evt.EVT_RAISED] t) ∧
  (∀ (g : Fin 4) (w : EntryWrite) (n : Int), Writes (.gLevelWrite g w) (Key.gen.G_LEVEL g) w n (fun s => s.genState g = 2) fun s t =>
      t.num (Key.gen.G_LEVEL g) = n ∧ (t.gen g).level = (s.gen g).level.to n (s.nat (Key.gen.G_FADE g)) ∧
      s.Frame [Key.gen.G_LEVEL g] t) ∧
  (∀ (s : State) (k : Fin 8), s.nat (Key.cap.C_STATE k) = 1 → (s.cap k).meets = true → (s.cap k).latest < 2 ^ 64 → Completes (.captureTrigger k) s fun t =>
      t.nat (Key.cap.C_STATE k) = 2 ∧ t.nat (Key.cap.C_TRIG_AT k) = (s.cap k).latest ∧
      (s.capParam k 4 < s.capParam k 3 → (t.cap k).data = (s.cap k).pre.take 1) ∧
      s.Frame [Key.cap.C_STATE k, Key.cap.C_TRIG_AT k, Key.cap.C_PRE_VALID k] t) ∧
  (∀ (s : State) (k : Fin 8), s.nat (Key.cap.C_STATE k) = 2 → s.capParam k 3 ≤ (s.cap k).data.length + s.capParam k 4 →
      Completes (.captureDone k) s fun t => t.nat (Key.cap.C_STATE k) = 3 ∧
        t.blob (Key.cap.C_DATA k) = capBlob (s.capParam k 2) (List.replicate (s.capParam k 4 - (s.cap k).pre.length) 0 ++
          (s.cap k).pre.reverse ++ (s.cap k).data.reverse) ∧
        s.Frame [Key.cap.C_STATE k, Key.cap.C_DATA k, Key.evt.EVT_RAISED] t) ∧
  (∀ (r : Fin 64) (w : EntryWrite), Writes (.resFree r w) (Key.res.RES_FREE r) w 1 (fun s => s.num (Key.res.RES_STATE r) ≠ 1) fun s t =>
      t.num (Key.res.RES_STATE r) = 0 ∧ t.num (Key.res.RES_SLOT r) = 0xFF ∧ t.blob (Key.res.RES_DATA r) = [] ∧ t.units.gens = s.units.gens ∧
      t.mode = s.mode ∧ t.store = s.store ∧ ∀ k, k / 256 ≠ Key.res.RES_STATE r / 256 → t.get k = s.get k)

/-- An analysis that is complete, fenced or out of time ends its result object and its handle. For a running analysis with
result object r: ANALYSIS_END ends it in state 2 with OK where it is measured and nothing fails it, and in state 3
with FENCED where one of its channels is fenced; LOADCHECK_TIMEOUT of one begun in RUN after its limit, with a channel
not swept, ends it with TIMEOUT; LOADCHECK_SWEEP_START begins the sweep: in MEASURE once its channels play again, in
RUN at the boundary at which those that play have been silent for LC_SILENCE; a sweep in RUN takes the channels that
play then (log 173). (R319, R320, R321, R326, R329, R424) -/
def Obligations.AnalysesRunAndEnd : Prop :=
  ∀ (s : State) (h : Nat) (x : Handle) (r : Fin 64) (g : Fin 4), s.handle h = some x → x.finished = false → x.result = 0x9100 + r.val →
    x.gen = some g.val →
    (∀ data, isAnalysis x.op = true → s.analysisStops x = none → s.measured x = true → s.analysisFails x = false → Completes (.analysisEnd h data) s fun t =>
      t.num (Key.res.RES_STATE r) = 2 ∧ t.nat (Key.res.RES_STATUS r) = St.ok ∧ t.mode = s.mode ∧ t.store = s.store ∧
      ∃ y, t.handle h = some y ∧ y.finished = true ∧ y.status = St.ok ∧ y.result = x.result) ∧
    (∀ data, isAnalysis x.op = true → (ones 16 x.chans).any s.chanFenced = true → Completes (.analysisEnd h data) s fun t =>
      t.num (Key.res.RES_STATE r) = 3 ∧ t.nat (Key.res.RES_STATUS r) = St.fenced ∧ t.mode = s.mode ∧ t.store = s.store ∧
      ∃ y, t.handle h = some y ∧ y.finished = true ∧ y.status = St.fenced) ∧
    (x.op = 0x0912 → x.inRun = true → s.expired x.startAt ((x.params.getD 3 0).toNat * 1000000000) = true → x.swept ≠ x.chans →
      Completes (.loadcheckTimeout h) s fun t => t.num (Key.res.RES_STATE r) = 3 ∧ t.nat (Key.res.RES_STATUS r) = St.timeout ∧
        t.mode = s.mode ∧ ∃ y, t.handle h = some y ∧ y.finished = true ∧ y.status = St.timeout) ∧
    (x.op = 0x0912 → x.sweeping = false → x.inRun = false → x.part = 3 → (ones 16 x.chans).all (fun c => s.playing c) = true →
      s.sweepable x ≠ [] → Completes (.loadcheckSweepStart h) s fun t => (t.gen g).begun = true ∧ (t.gen g).point = 1 ∧
        (t.gen g).target = (s.sweepable x).foldl (fun a c => a ||| 2 ^ c) 0 ∧ (t.gen g).amp = some 1 ∧
        t.num (Key.gen.G_SAMPLES g) = 0 ∧ s.Frame [Key.gen.G_SAMPLES g] t ∧
        ∃ y, t.handle h = some y ∧ y.sweeping = true ∧ y.live = (t.gen g).target) ∧
    (x.op = 0x0912 → x.sweeping = false → x.inRun = true → s.atBoundary = true → s.sweepable x ≠ [] →
      ((s.sweepable x).all fun c => s.passed (s.chan c).quietSince ((x.params.getD 2 0).toNat * 1000000)) = true →
      Completes (.loadcheckSweepStart h) s fun t => (t.gen g).begun = true ∧ (t.gen g).point = 1 ∧
        (t.gen g).target = (s.sweepable x).foldl (fun a c => a ||| 2 ^ c) 0 ∧ (t.gen g).amp = some (1 / 100) ∧
        t.num (Key.gen.G_SAMPLES g) = 0 ∧ s.Frame [Key.gen.G_SAMPLES g] t ∧
        ∃ y, t.handle h = some y ∧ y.sweeping = true ∧ y.live = (t.gen g).target)

/-- A due calibration begins, is used or rejected; a planned removal completes when every bridge is released.
CALIBRATION_START at a block boundary of the channel whose turn it is begins step 1, or step 2 on a released bridge;
CALIBRATION_DONE within the limits counts and keeps the values, outside them counts the rejection, which stands as the
last attempt (log 175); REMOVAL_COMPLETE in SAFE with every bridge released drops every gate, shows every group held
but one latched by its third fault (R451), and ends the operation with OK. (R454, R465, R466, R467, R468) -/
def Obligations.CalibrationAndRemovalComplete : Prop :=
  (∀ (s : State) (c : Fin 16), s.calMay c = true → s.atBoundary = true → s.units.mgmt.served = true → (∀ d ∈ groupChans (c / 4), (s.chan d).calPhase = 0) →
      (∀ d ∈ groupChans (c / 4), d < c.val → s.calMay d = false) → Completes (.calibrationStart c) s fun t =>
        (t.chan c).calPhase = (if s.released c then 2 else 1) ∧ (t.chan c).calDue = true ∧ s.Frame [] t) ∧
  (∀ (s : State) (c : Fin 16) (vo vg io ig : Int), (s.chan c).calPhase = 2 → s.passed (s.chan c).calStart 20000000 = true →
      s.units.mgmt.served = true → |vo| ≤ 100000 → |io| ≤ 20000 → |vg| ≤ 10000 → |ig| ≤ 10000 → Completes (.calibrationDone c vo vg io ig) s fun t =>
        (t.chan c).calVals = (vo, vg, io, ig) ∧ (t.chan c).calAt = some s.now ∧
        t.num Key.cal.CAL_COUNT = (s.num Key.cal.CAL_COUNT + 1) % 2 ^ 32 ∧ s.Frame [Key.cal.CAL_COUNT, Key.evt.EVT_RAISED] t) ∧
  (∀ (s : State) (c : Fin 16) (vo vg io ig : Int), (s.chan c).calPhase = 2 → s.passed (s.chan c).calStart 20000000 = true →
      s.units.mgmt.served = true → 100000 < |vo| ∨ 20000 < |io| ∨ 10000 < |vg| ∨ 10000 < |ig| → Completes (.calibrationDone c vo vg io ig) s fun t =>
        (t.chan c).calVals = (s.chan c).calVals ∧ (t.chan c).calTried = some (s.now, s.tStage (c / 4)) ∧
        (t.chan c).calDue = false ∧ t.num Key.cal.CAL_REJECTED = (s.num Key.cal.CAL_REJECTED + 1) % 2 ^ 32 ∧
        s.Frame [Key.cal.CAL_REJECTED, Key.evt.EVT_RAISED] t) ∧
  (∀ (s : State) (h : Nat) (x : Handle), s.units.mgmt.removal = some h → s.mode = .safe → s.units.mgmt.waitMode = none →
      s.allReleased = true → s.units.mgmt.served = true → s.handle h = some x → x.finished = false →
      Completes .removalComplete s fun t => t.units.mgmt.removed = true ∧ t.units.mgmt.removal = none ∧ t.mode = .safe ∧
        (∀ g < 4, (t.group g).gate = false ∧ (t.group g).notReady = true ∧ t.hsState g = if s.hsState g = 5 then 5 else 6) ∧
        ∃ y, t.handle h = some y ∧ y.finished = true ∧ y.status = St.ok)

/-- An update is erased, verified, activated, put on probation, aborted and rolled back. UPDATE_ERASE_DONE lets segments
come; UPDATE_VERIFY_DONE of a full load reaches state 2 with the image in the other bank, or 6; UPDATE_LOAD_TIMEOUT
reaches 6; UPDATE_ACTIVATION_BOUNDARY reaches 4; UPDATE_MGMT_RESTART 20 ms later changes the bank and begins the
absence, whose MGMT_RETURN reaches 5 with the new firmware; TRIM_APPLY with the group's bridges released ends its
trim; PROBATION_END records the bank and reaches 0. UPDATE_ABORT 1 in state 2 or 3 reaches 0, in 5 makes the roll-back
due; UPDATE_ROLLBACK then returns to the old bank, and MGMT_RETURN reaches 7 with the old firmware version (that the
state, the version and the probation change at the return is log 99's reading of R482 and R485); UPDATE_ABORT in any
other state is refused with CONFLICT. (R480, R481, R482, R483, R484, R485) -/
def Obligations.UpdatesLoadAndActivate : Prop :=
  (∀ s : State, s.Typed →
    (s.updState = 1 → s.units.mgmt.loadErased = false → Completes .updateEraseDone s fun t =>
      t.units.mgmt.loadErased = true ∧ t.units.mgmt.loadAt = s.mtbNs ∧ s.Frame [] t) ∧
    (∀ x : ImageInfo, s.updState = 1 → s.units.mgmt.loadErased = true → s.units.mgmt.loadGot ≠ 0 →
      s.units.mgmt.loadGot = s.units.mgmt.loadLen → Completes (.updateVerifyDone x) s fun t =>
        t.updState = (if x.ok ∧ s.nat Key.upd.SEC_VERSION ≤ x.security then 2 else 6) ∧
        (x.ok = true → s.nat Key.upd.SEC_VERSION ≤ x.security → (t.bankImage s.otherBank).version = x.version) ∧
        t.units.mgmt.loadHandle = none ∧ t.units.mgmt.loadErased = false ∧ t.mode = s.mode ∧ t.store = s.store) ∧
    (s.updState = 1 → s.units.mgmt.loadErased = true → s.units.mgmt.loadGot ≠ s.units.mgmt.loadLen →
      s.expired s.units.mgmt.loadAt 60000000000 = true → Completes .updateLoadTimeout s fun t =>
        t.updState = 6 ∧ t.units.mgmt.loadHandle = none ∧ t.mode = s.mode ∧ t.store = s.store) ∧
    (s.updState = 3 → s.atBoundary = true → s.nat Key.upd.UPDATE_AT ≤ s.blockTime → s.units.mgmt.served = true → Completes .updateActivationBoundary s fun t =>
      t.updState = 4 ∧ t.units.mgmt.boundAt = s.mtbNs ∧ t.units.mgmt.actHandle = none ∧ t.mode = s.mode ∧ t.store = s.store) ∧
    (s.updState = 4 → s.units.mgmt.boundAt + 20000000 ≤ s.mtbNs → s.units.mgmt.served = true → s.units.mgmt.absentAt = none →
      Completes .updateMgmtRestart s fun t =>
        t.updState = 4 ∧ t.nat Key.upd.ACTIVE_BANK = s.otherBank ∧ t.units.mgmt.served = false ∧ t.units.mgmt.cause = 1 ∧
        t.units.mgmt.absentAt = some s.mtbNs ∧ t.mode = s.mode ∧ t.store = s.store) ∧
    (∀ t0, s.updState = 4 → s.units.mgmt.absentAt = some t0 → s.units.mgmt.cause = 1 → Completes .mgmtReturn s fun t =>
      t.updState = 5 ∧ t.units.mgmt.served = true ∧ t.units.mgmt.absentAt = none ∧ t.units.mgmt.probAt = s.mtbNs ∧
      t.num Key.fw.MGMT_VER = ((s.bankImage (s.nat Key.upd.ACTIVE_BANK)).version : Int) ∧ t.mode = s.mode) ∧
    (∀ (g : Fin 4) (v : Nat), (s.group g).trim = some v → s.atBoundary = true → (∀ c ∈ groupChans g, s.released c = true) →
      Completes (.trimApply g) s fun t => (t.group g).trim = none ∧ (t.group g).trimVer = some v ∧
        (t.nat Key.upd.TRIM_PENDING).testBit g = false ∧ s.Frame [Key.upd.TRIM_PENDING] t) ∧
    (s.updState = 5 → s.units.mgmt.rollDue = false → s.units.mgmt.probAt + 600000000000 ≤ s.mtbNs → s.units.mgmt.served = true →
      Completes .probationEnd s fun t =>
      t.updState = 0 ∧ t.num Key.upd.RECORDED_BANK = s.num Key.upd.ACTIVE_BANK ∧
      Tbl.get (fun _ => none) t.store Key.upd.RECORDED_BANK = some (.num (s.num Key.upd.ACTIVE_BANK)) ∧ t.mode = s.mode)) ∧
  (∀ w : EntryWrite, Writes (.updateAbort w) Key.upd.UPDATE_ABORT w 1 (fun s => s.updState = 2 ∨ s.updState = 3) fun s t =>
      t.updState = 0 ∧ t.num Key.upd.UPDATE_AT = 0 ∧ t.units.mgmt.actHandle = none ∧ t.mode = s.mode ∧ t.store = s.store) ∧
  (∀ w : EntryWrite, Writes (.updateAbort w) Key.upd.UPDATE_ABORT w 1 (fun s => s.updState = 5) fun s t =>
      t.units.mgmt.rollDue = true ∧ s.Frame [] t) ∧
  (∀ (s : State) (w : EntryWrite), s.serves = true → w.role ∈ [2, 3] → w.value = .num 1 →
      s.areaOwned w.session Key.upd.UPDATE_ABORT = false → s.updState ∉ [2, 3, 5] → Completes (.updateAbort w) s fun t =>
        t.units.answer = (St.conflict, 0) ∧ s.Frame [] t) ∧
  (∀ s : State, s.updState = 5 → s.units.mgmt.rollDue = true → s.units.mgmt.served = true → s.units.mgmt.absentAt = none →
    Completes .updateRollback s fun t =>
      t.updState = 5 ∧ t.nat Key.upd.ACTIVE_BANK = s.otherBank ∧ t.units.mgmt.served = false ∧ t.units.mgmt.cause = 2 ∧
      t.units.mgmt.absentAt = some s.mtbNs ∧ t.units.mgmt.rollDue = false ∧ t.mode = s.mode ∧ t.store = s.store) ∧
  (∀ (s : State) (t0 : Nat), s.updState = 5 → s.units.mgmt.absentAt = some t0 → s.units.mgmt.cause = 2 → Completes .mgmtReturn s fun t =>
    t.updState = 7 ∧ t.units.mgmt.rolled = true ∧ t.units.mgmt.served = true ∧ t.units.mgmt.absentAt = none ∧
    t.num Key.fw.MGMT_VER = (s.units.mgmt.oldVers.1 : Int) ∧ t.mode = s.mode)

/-- TDM and AES3 frames reach their FIFO, and a channel-status block is checked. TDM_FRAME on a slave port without a clock
begins to acquire it; on a running one with the right count it joins an input's FIFO, or takes the oldest frame of an
output's; with a wrong count it is a format error. AES3_FRAME on an acquiring receiver joins its FIFO and counts
parity and code errors. AES3_CS_BLOCK_END after 192 bits takes the block of each subframe or counts its check error,
and begins a new block. A frame is complete at the edge that ends it and carries the time of the one that began it
(log 24); the bit order of CRCC is that of IEC 60958 (log 25). (R334, R340, R342, R343, R355, R356, R357) -/
def Obligations.PortsTakeFrames : Prop :=
  (∀ (s : State) (p : Fin 4) (count hz : Nat) (l : List Bool), s.portOn p = true → s.isMaster p = false → s.pst p = .noClock →
      hz ≤ 52000000 → Completes (.tdmFrame p count hz l) s fun t =>
        t.pst p = .acquire ∧ t.nat (Key.tdm.BCLK_HZ p) = hz ∧ (t.port p).goodSince = some s.mtbNs ∧ t.mode = s.mode ∧ t.store = s.store) ∧
  (∀ (s : State) (p : Fin 4) (count hz : Nat) (l : List Bool), s.portOn p = true → s.isMaster p = false → s.pst p = .running →
      s.countOk p count = false → (s.port p).badRun = 0 → (s.port p).pauseAt = none → hz ≤ 52000000 → Completes (.tdmFrame p count hz l) s fun t =>
        t.num (Key.tdm.FORMAT_ERRORS p) = (s.num (Key.tdm.FORMAT_ERRORS p) + 1) % 2 ^ 32 ∧ (t.port p).badRun = 1 ∧
        (t.port p).goodSince = none ∧ t.pst p = .running ∧ t.mode = s.mode ∧ t.store = s.store) ∧
  (∀ (s : State) (p : Fin 4) (hz : Nat) (l : List Bool), s.portOn p = true → s.isMaster p = false → s.pst p = .running →
      (s.port p).maskWait = none → (s.port p).pauseAt = none → (s.port p).resumeAt = none → hz ≤ 52000000 →
      Completes (.tdmFrame p (s.nat (Key.tdm.SLOTS p) * s.nat (Key.tdm.SLOT_WIDTH p)) hz l) s fun t =>
        (s.isInput p = true → (t.port p).fifo = fifoPut false (s.port p).fifo (s.presented ((s.port p).edges.headD s.mtbNs),
          (s.frameSamples p l).zipIdx.map fun (v, k) => if (s.maskNow p).testBit k then v else 0)) ∧
        (s.isInput p = false → (s.port p).outGo = true → (t.port p).fifo = (s.port p).fifo.drop 1) ∧
        (t.port p).badRun = 0 ∧ t.nat (Key.tdm.BCLK_HZ p) = hz ∧ t.pst p = .running ∧ t.mode = s.mode ∧ t.store = s.store) ∧
  (∀ (s : State) (a : Fin 2) (f : AesFrame), s.pst (a + 4) = .acquire → Completes (.aes3Frame a f) s fun t =>
      (∃ v, (t.port (a + 4)).fifo = fifoPut true (s.port (a + 4)).fifo (s.presented ((s.port (a + 4)).edges.headD s.mtbNs), v) ∧ v.length = 2) ∧
      t.num (Key.aes.PARITY_ERRORS a) = (s.num (Key.aes.PARITY_ERRORS a) + ([f.a, f.b].filter fun q => !q.parityOk).length) % 2 ^ 32 ∧
      t.num (Key.aes.CODE_ERRORS a) = (s.num (Key.aes.CODE_ERRORS a) + ([f.a, f.b].filter fun q => !q.codeOk).length) % 2 ^ 32 ∧
      t.pst (a + 4) = .acquire ∧ t.mode = s.mode ∧ t.store = s.store) ∧
  (∀ (s : State) (a : Fin 2), (s.port (a + 4)).csBits.1.length = 192 → (s.port (a + 4)).csBits.2.length = 192 →
      Completes (.aes3CsBlockEnd a) s fun t => (t.port (a + 4)).csBits = ([], []) ∧
        (csSound (csBytes (s.port (a + 4)).csBits.1) = true → t.blob (Key.aes.CS_SUB0 a) = csBytes (s.port (a + 4)).csBits.1) ∧
        (csSound (csBytes (s.port (a + 4)).csBits.2) = true → t.blob (Key.aes.CS_SUB1 a) = csBytes (s.port (a + 4)).csBits.2) ∧
        t.num (Key.aes.CRCC_ERRORS a) = (s.num (Key.aes.CRCC_ERRORS a) + ([csBytes (s.port (a + 4)).csBits.1,
          csBytes (s.port (a + 4)).csBits.2].filter fun b => !csSound b).length) % 2 ^ 32 ∧
        t.mode = s.mode ∧ t.store = s.store)

/-- A port loses its clock, acquires it, recovers from faults, pauses, resumes and is cleared. PORT_NO_CLOCK and
AES3_NO_SIGNAL after more than 2 frame periods without an edge reach NO_CLOCK; PORT_ACQUIRED reaches RUNNING with a
FIFO fill of 4; RATE_MISMATCH_RECOVER and FORMAT_ERROR_RECOVER return to ACQUIRE after their time; PORT_FENCE_CLEAR 1
of a fenced unit is kept for the next block boundary. A write of PAUSE_AT or RESUME_AT leaves one pending request;
PAUSE_EFFECTIVE at the first frame edge from its time on takes RUNNING to PAUSED, RESUME_EFFECTIVE PAUSED to RUNNING.
(R340, R341, R343, R344, R358, R360, R361, R351, R352, R353, 11_tdm_and_aes3_ports.md) -/
def Obligations.PortsChangeState : Prop :=
  (∀ (s : State) (p : Fin 4) (e : Nat) (l : List Nat), s.isMaster p = false → s.pst p ∈ [.acquire, .running, .paused] →
      (s.port p).edges = e :: l → 2000000000 < (s.mtbNs - e) * s.fs →
      ((s.port p).faultAt.filter fun t => decide (s.mtbNs < t + 60000000000)).length < 9 → Completes (.portNoClock p) s fun t =>
        t.pst p = .noClock ∧ (t.port p).edges = [] ∧ (t.port p).fifo = [] ∧ t.mode = s.mode ∧ t.store = s.store) ∧
  (∀ (s : State) (a : Fin 2) (e : Nat) (l : List Nat), s.pst (a + 4) ∈ [.acquire, .running] →
      (s.port (a + 4)).edges = e :: l → 2000000000 < (s.mtbNs - e) * s.fs →
      ((s.port (a + 4)).faultAt.filter fun t => decide (s.mtbNs < t + 60000000000)).length < 9 → Completes (.aes3NoSignal a) s fun t =>
        t.pst (a + 4) = .noClock ∧ (t.port (a + 4)).csBits = ([], []) ∧ t.mode = s.mode ∧ t.store = s.store) ∧
  (∀ (s : State) (u : Fin 6), s.pst u = .acquire → s.passed (s.port u).goodSince 100000000 = true → within 500 (s.rateErr u) = true →
      4 ≤ (s.port u).fifo.length → Completes (.portAcquired u) s fun t =>
        t.pst u = .running ∧ (t.port u).fifo.length = 4 ∧ (t.port u).outGo = true ∧ s.Frame [pstKey u, Key.evt.EVT_RAISED] t) ∧
  (∀ (s : State) (u : Fin 6), s.pst u = .rateMismatch → s.passed (s.port u).rateOk 1000000000 = true →
      Completes (.rateMismatchRecover u) s fun t => t.pst u = .acquire ∧ (t.port u).fifo = [] ∧ s.Frame [pstKey u, Key.evt.EVT_RAISED] t) ∧
  (∀ (s : State) (p : Fin 4), s.pst p = .formatError → s.passed (s.port p).goodSince 100000000 = true →
      Completes (.formatErrorRecover p) s fun t => t.pst p = .acquire ∧ (t.port p).badRun = 0 ∧ s.Frame [pstKey p, Key.evt.EVT_RAISED] t) ∧
  (∀ (u : Fin 6) (w : EntryWrite), Writes (.portFenceClear u w)
      (if u.val < 4 then Key.tmap.FENCE_CLEAR u else Key.aes.FENCE_CLEAR (u.val - 4)) w 1 (fun s => s.pst u = .fenced) fun s t =>
        (t.port u).clearDue = some 0 ∧ t.pst u = .fenced ∧ s.Frame [Key.fence.CLEARS, Key.evt.EVT_RAISED] t) ∧
  (∀ (p : Fin 4) (w : EntryWrite) (n : Nat), Writes (.pauseAtWrite p w) (Key.tdm.PAUSE_AT p) w n (fun _ => True) fun s t =>
      (t.port p).pauseAt = some (max n s.now) ∧ (t.port p).resumeAt = none ∧ s.Frame [] t) ∧
  (∀ (p : Fin 4) (w : EntryWrite) (n : Nat), Writes (.resumeAtWrite p w) (Key.tdm.RESUME_AT p) w n (fun _ => True) fun s t =>
      (t.port p).resumeAt = some (max n s.now) ∧ (t.port p).pauseAt = none ∧ s.Frame [] t) ∧
  (∀ (s : State) (p : Fin 4) (n e : Nat), (s.port p).pauseAt = some n → s.frameEdge p = some e → n ≤ e → s.pst p = .running →
      Completes (.pauseEffective p) s fun t => t.pst p = .paused ∧ (t.port p).pauseAt = none ∧ t.mode = s.mode ∧ t.store = s.store) ∧
  (∀ (s : State) (p : Fin 4) (n e : Nat), (s.port p).resumeAt = some n → s.frameEdge p = some e → n ≤ e → s.pst p = .paused →
      Completes (.resumeEffective p) s fun t => t.pst p = .running ∧ (t.port p).resumeAt = none ∧ t.mode = s.mode ∧ t.store = s.store)

/-- Links change, faulty frames are counted and dropped, frames enter the FIFO in their turn. LINK_CHANGE of an enabled
MAC takes the state of Table 12-1 and counts it; FRAME_RECEIVE of a frame for this MAC or for all counts it and hands
it to the stream engine, with the instant of its check, or stores it in the ring (the engine queue is log 92's, the
ring's units of 512 bytes and its emptying are those of logs 52 and 93); of one whose check fails it counts it and
nothing else; TX_FIFO_ENTER moves the frame whose turn it is, where it fits, to the end of the FIFO, which drains 8 ns
per octet (log 94); MONITOR_DROP discards and counts the packets one block period old. (R366, R369, R371, R372, R374,
R375) -/
def Obligations.MacsReceiveAndSend : Prop :=
  (∀ (s : State) (m : Fin 2) (v : Nat), s.flag (Key.mac.MAC_EN m) = true → s.nat (Key.mac.LINK_STATE m) ≠ v → v < 3 → (s.mac m).fifo = [] →
      Completes (.linkChange m (if v = 0 then 0 else 1000) (v == 1)) s fun t =>
        t.nat (Key.mac.LINK_STATE m) = v ∧ t.num (Key.mac.LINK_CHANGES m) = (s.num (Key.mac.LINK_CHANGES m) + 1) % 2 ^ 32 ∧
        t.nat (Key.mac.LINK_SINCE m) = s.now ∧
        s.Frame [Key.mac.LINK_STATE m, Key.mac.LINK_CHANGES m, Key.mac.LINK_SINCE m, Key.evt.EVT_RAISED] t) ∧
  (∀ (s : State) (m : Fin 2) (b : List Byte), s.linkUp m = true → Completes (.frameReceive m b false) s fun t =>
      t.num (Key.net.RX_FCS_ERR m) = (s.num (Key.net.RX_FCS_ERR m) + 1) % 2 ^ 32 ∧ t.units = s.units ∧ s.Frame [Key.net.RX_FCS_ERR m] t) ∧
  (∀ (s : State) (m : Fin 2) (b : List Byte), s.linkUp m = true → 60 ≤ b.length → b.length ≤ 2044 → (rxInfo b).etherType ≠ 0x8808 →
      (rxInfo b).vids = [] → ((rxInfo b).dest = 0xFFFFFFFFFFFF ∨ (rxInfo b).dest = s.nat (Key.mac.MAC_ADDR m)) → (rxInfo b).fragment = false →
      (∀ i, s.subFor m (rxInfo b) = some i → s.mode.places = true → (rxInfo b).ptp = false → Completes (.frameReceive m b true) s fun t =>
        (t.mac m).engine = (s.mac m).engine ++ [(i, s.mtbNs, (rxInfo b).payload)] ∧ (t.mac m).ring = (s.mac m).ring ∧
        t.num (Key.net.RX_FRAMES m) = (s.num (Key.net.RX_FRAMES m) + 1) % 2 ^ 32 ∧ s.Frame [Key.net.RX_FRAMES m] t) ∧
      (s.subFor m (rxInfo b) = none → s.units.mgmt.served = true → (rxInfo b).udp = false → (rxInfo b).ptp = false →
        s.atBoundary = false → 16 + max 1 ((b.length + 511) / 512) ≤ (s.mac m).free → Completes (.frameReceive m b true) s fun t =>
          (t.mac m).ring = (s.mac m).ring ++ [(max 1 ((b.length + 511) / 512), false, b)] ∧ (t.mac m).engine = (s.mac m).engine ∧
          t.num (Key.net.RX_FRAMES m) = (s.num (Key.net.RX_FRAMES m) + 1) % 2 ^ 32 ∧ s.Frame [Key.net.RX_FRAMES m] t)) ∧
  (∀ (s : State) (m : Fin 2) (b : List Byte) (ok : Bool), s.linkUp m = false → exec (.frameReceive m b ok) s = .next s) ∧
  (∀ (s : State) (m : Fin 2) (f : Frame), s.linkUp m = true → (s.mac m).fifo = [] → (s.mac m).turn = some f → f.len ≤ 2048 →
      Completes (.txFifoEnter m) s fun t => (t.mac m).waiting = (s.mac m).waiting.erase f ∧
        (∃ x, (t.mac m).fifo = [x] ∧ x.kind = f.kind ∧ x.body = f.body ∧ s.mtbNs + 8 * f.len ≤ x.doneAt) ∧ s.Frame [] t) ∧
  (∀ (s : State) (k : Fin 8) (f : Frame), (s.mac 0).waiting = [f] → (s.mac 1).waiting = [] → f.kind = 2 → f.unit = k →
      s.expired f.queuedAt s.blockNs = true → Completes (.monitorDrop k) s fun t =>
        (t.mac 0).waiting = [] ∧ t.num (Key.mon.MON_DROPS k) = (s.num (Key.mon.MON_DROPS k) + 1) % 2 ^ 32 ∧
        s.Frame [Key.mon.MON_DROPS k, Key.evt.EVT_RAISED] t)

/-- ARP, ICMP, IGMP and DHCP of a MAC that is up. ARP_PACKET for the address in force keeps the sender and answers a
request; ARP_CACHE_EXPIRY drops what is 300 s old; ICMP_ECHO is answered; IGMP_QUERY of version 3 with group 0 is
answered with every group, IGMP_REPORT_REPEAT repeats a due report; a lease of DHCP_MESSAGE waits for the boundary;
DHCP_RETRY asks again; DHCP_FALLBACK_TIMEOUT takes a link-local address, and ADDRESS_CONFLICT of a link-local address
another one. The form of the messages (log 50), the records of a membership (log 140), the announcements and the
cache's order (log 203) and the protocols' own times (log 89) are the model's. (R380, R381, R382,
12_network_and_can.md) -/
def Obligations.AddressesAndGroupsAreKept : Prop :=
  ∀ (s : State) (m : Fin 2), s.units.mgmt.served = true → s.linkUp m = true →
    (∀ sip smac : Nat, sip ≠ 0 → sip ≠ s.nat (Key.ip.ADDR_NOW_N m) → s.nat (Key.ip.ADDR_NOW_N m) ≠ 0 →
      Completes (.arpPacket m 1 sip smac (s.nat (Key.ip.ADDR_NOW_N m))) s fun t =>
        (t.mac m).arp.head? = some (sip, smac, s.mtbNs) ∧
        (∃ f, (t.mac m).waiting = (s.mac m).waiting ++ [f] ∧ f.kind = 3 ∧ f.dest = sip) ∧ s.Frame [] t) ∧
    Completes (.arpCacheExpiry m) s (fun t =>
      (t.mac m).arp = (s.mac m).arp.filter (fun a => decide (s.mtbNs < a.2.2 + 300000000000)) ∧ s.Frame [] t) ∧
    (∀ (src : Nat) (b : List Byte), s.nat (Key.ip.ADDR_NOW_N m) ≠ 0 → (s.mac m).icmp = [] → Completes (.icmpEcho m src b) s fun t =>
      (∃ f, (t.mac m).waiting.take ((s.mac m).waiting.length + 1) = (s.mac m).waiting ++ [f] ∧ f.kind = 4 ∧ f.dest = src ∧ f.body = b) ∧ s.Frame [] t) ∧
    ((s.mac m).groups ≠ [] → (s.mac m).querier1 = none → (s.mac m).querier2 = none → Completes (.igmpQuery m 3 0) s fun t =>
      (∃ f, (t.mac m).waiting = (s.mac m).waiting ++ [f] ∧ f.kind = 5 ∧ f.dest = 0xE0000016 ∧
        f.body = le 1 0x22 ++ (s.mac m).groups.flatMap (stateRecord (s.mac m).memb)) ∧
      t.nat (if m.val = 0 then Key.mc.IGMP_MODE_N0 else Key.mc.IGMP_MODE_N1) = 3 ∧
      s.Frame [if m.val = 0 then Key.mc.IGMP_MODE_N0 else Key.mc.IGMP_MODE_N1] t) ∧
    (∀ (x : Nat × Nat) (at' : Nat), (s.mac m).reports = [(x, at')] → at' ≤ s.mtbNs → (s.mac m).memb = [x] →
      s.nat (if m.val = 0 then Key.mc.IGMP_MODE_N0 else Key.mc.IGMP_MODE_N1) = 3 → Completes (.igmpReportRepeat m) s fun t =>
        (t.mac m).reports = [] ∧ (∃ f, (t.mac m).waiting = (s.mac m).waiting ++ [f] ∧ f.kind = 5 ∧ f.dest = 0xE0000016 ∧
          f.body = le 1 0x22 ++ igmpRecord (if x.2 = 0 then 4 else 5) x.1 (if x.2 = 0 then [] else [x.2])) ∧ s.Frame [] t) ∧
    (∀ addr p lease : Nat, s.num (Key.ip.IP_MODE_N m) = 1 → Completes (.dhcpMessage m 5 addr p lease) s fun t =>
      (t.mac m).lease = some (addr, p) ∧ (t.mac m).leaseT = some (s.mtbNs, lease, false) ∧ s.Frame [] t) ∧
    (∀ at' : Nat, (s.mac m).retryAt = some at' → at' ≤ s.mtbNs → Completes (.dhcpRetry m) s fun t =>
      (t.mac m).retryAt = some (at' + 60000000000) ∧ (∃ f, (t.mac m).waiting = (s.mac m).waiting ++ [f] ∧ f.kind = 6) ∧ s.Frame [] t) ∧
    (s.num (Key.ip.IP_MODE_N m) = 1 → s.num (Key.ip.ADDR_SOURCE_N m) = 0 → (s.mac m).lease = none →
      (s.mac m).upAt.any (fun t0 => s.expired t0 (s.nat Key.ip.DHCP_FALLBACK * 1000000000)) = true → Completes (.dhcpFallbackTimeout m) s fun t =>
        0xA9FE0100 ≤ t.nat (Key.ip.ADDR_NOW_N m) ∧ t.nat (Key.ip.ADDR_NOW_N m) ≤ 0xA9FEFEFF ∧ t.num (Key.ip.ADDR_SOURCE_N m) = 3 ∧
        (t.mac m).retryAt = some (s.mtbNs + 60000000000) ∧
        s.Frame [Key.ip.ADDR_NOW_N m, Key.ip.PREFIX_NOW_N m, Key.ip.ADDR_SOURCE_N m, Key.evt.EVT_RAISED] t) ∧
    (s.nat (Key.ip.ADDR_NOW_N m) ≠ 0 → s.num (Key.ip.ADDR_SOURCE_N m) = 3 →
      Completes (.addressConflict m (s.nat (Key.ip.ADDR_NOW_N m))) s fun t =>
        t.nat (Key.ip.ADDR_NOW_N m) ≠ s.nat (Key.ip.ADDR_NOW_N m) ∧ 0xA9FE0100 ≤ t.nat (Key.ip.ADDR_NOW_N m) ∧ t.nat (Key.ip.ADDR_NOW_N m) ≤ 0xA9FEFEFF ∧
        t.num Key.ip.ADDR_CONFLICTS = (s.num Key.ip.ADDR_CONFLICTS + 1) % 2 ^ 32 ∧
        s.Frame [Key.ip.ADDR_NOW_N m, Key.ip.PREFIX_NOW_N m, Key.ip.ADDR_SOURCE_N m, Key.ip.ADDR_CONFLICTS, Key.evt.EVT_RAISED] t)

/-- CAN frames are assembled, sent, timed out, and follow the bus state. CAN_FRAME_RECEIVE of the first segment begins an
assembly; a gap in the segments and CAN_REASM_TIMEOUT discard it and count it; CAN_FRAME_SEND sends the next segment
of the first message; CAN_STATE_CHANGE takes the state that its counts stand for, and bus-off empties the queue; the
counts show at most 255 (log 206), and a request that does not begin with segment 0 is discarded (log 95). With the
controller off none does anything. (R385, R386, R387, R388, R389) -/
def Obligations.CanCarriesSegments : Prop :=
  ∀ s : State,
    (s.canOn = true → s.num Key.can.CAN_STATE ≠ 3 →
      (∀ b : List Byte, s.units.can.reasm = none → Completes (.canFrameReceive (0x400 + s.nat Key.can.CAN_NODE) true false (128 :: b)) s fun t =>
        t.units.can.reasm = some b ∧ t.units.can.nextSeg = 1 ∧ t.units.can.reasmAt = s.mtbNs ∧ s.Frame [] t) ∧
      (∀ b a : List Byte, s.units.can.reasm = some a → s.units.can.nextSeg = 1 →
        Completes (.canFrameReceive (0x400 + s.nat Key.can.CAN_NODE) true false (2 :: b)) s fun t =>
          t.units.can.reasm = none ∧ t.num Key.can.REASM_DISCARDS = (s.num Key.can.REASM_DISCARDS + 1) % 2 ^ 32 ∧
          s.Frame [Key.can.REASM_DISCARDS] t) ∧
      (∀ (id : Nat) (b : List Byte) (q : List (Nat × Nat × List Byte)), s.units.can.txq = (id, 0, b) :: q → b.length ≤ 63 →
        Completes .canFrameSend s fun t => t.units.can.txq = q ∧ t.units.can.sent.tail = s.units.can.sent ∧
          t.units.can.sent.head?.map (fun f => (f.id, f.brs, f.tdc, f.data.take (b.length + 1))) = some (id, s.canBrs, s.canTdc, 192 :: b) ∧
          t.num Key.can.CAN_TX_MSGS = (s.num Key.can.CAN_TX_MSGS + 1) % 2 ^ 32 ∧ s.Frame [Key.can.CAN_TX_MSGS] t)) ∧
    (∀ a : List Byte, s.units.can.reasm = some a → s.expired s.units.can.reasmAt 100000000 = true → Completes .canReasmTimeout s fun t =>
      t.units.can.reasm = none ∧ t.num Key.can.REASM_DISCARDS = (s.num Key.can.REASM_DISCARDS + 1) % 2 ^ 32 ∧
      s.Frame [Key.can.REASM_DISCARDS] t) ∧
    (∀ new tec rcv : Nat, s.canOn = true → canMoves (s.nat Key.can.CAN_STATE) new tec rcv = true → Completes (.canStateChange new tec rcv) s fun t =>
      t.nat Key.can.CAN_STATE = new ∧ t.nat Key.can.CAN_TEC = min tec 255 ∧ t.nat Key.can.CAN_REC = min rcv 255 ∧
      (new = 3 → s.num Key.can.CAN_STATE ≠ 3 → t.units.can.txq = [] ∧
        t.num Key.can.BUS_OFF_COUNT = (s.num Key.can.BUS_OFF_COUNT + 1) % 2 ^ 32) ∧ t.mode = s.mode ∧ t.store = s.store) ∧
    (s.canOn = false → exec .canFrameSend s = .next s ∧ ∀ new tec rcv, exec (.canStateChange new tec rcv) s = .next s)

/-- HELLO makes a pending session, AUTH opens it or fails it; malformed and unknown messages are told apart. HELLO for a
role with a key, from a peer that is not locked out while under 32 sessions live, makes a pending session under the
key of R405. AUTH to it with the right tag opens it; with a wrong one the session is freed and the failure counted.
MALFORMED_MESSAGE is counted; UNKNOWN_OPCODE in an open session is answered RANGE. (R403, R405, R406, R408, R409) -/
def Obligations.SessionsOpen : Prop :=
  (∀ (s : State) (m : CdlMsg) (k : List Byte), s.serves = true → soundMsg m = true → m.payload.length = 20 → leAt m.payload 0 1 ≤ 3 →
      s.roleKey (leAt m.payload 0 1) m.peer = some k → s.lockedOut m.peer = false → s.liveSessions.length < 32 →
      Completes (.hello m) s fun t => t.units.mgmt.sessCtr = s.nextSession ∧ s.Frame [] t ∧
        ∃ y, t.session s.nextSession = some y ∧ y.isOpen = false ∧ y.ended = false ∧ y.role = leAt m.payload 0 1 ∧ y.peer = m.peer ∧
          y.nonceC = slice m.payload 4 16 ∧ y.nonceD.length = 16 ∧ y.lastAt = s.mtbNs ∧
          y.key = sessionKey k y.nonceC y.nonceD s.nextSession y.role) ∧
  (∀ (s : State) (m : CdlMsg) (x : Session), s.serves = true → soundMsg m = true → s.session m.session = some x → x.ended = false →
      x.isOpen = false → samePeer x.peer m.peer = true → m.payload = [] → 1 ≤ m.sequence →
      (m.tag = cdlTag x.key (cdlHeader 0 m.session m.sequence 2 m.status 0) [] → Completes (.auth m) s fun t =>
        s.Frame [Key.evt.EVT_RAISED] t ∧
        ∃ y, t.session m.session = some y ∧ y.isOpen = true ∧ y.role = x.role ∧ y.sLast = m.sequence ∧ y.cacheStatus = St.ok) ∧
      (m.tag ≠ cdlTag x.key (cdlHeader 0 m.session m.sequence 2 m.status 0) [] → Completes (.auth m) s fun t =>
        t.session m.session = none ∧ t.num Key.ses.AUTH_FAILURES = (s.num Key.ses.AUTH_FAILURES + 1) % 2 ^ 32 ∧
        s.Frame [Key.ses.AUTH_FAILURES, Key.evt.EVT_RAISED] t)) ∧
  (∀ (s : State) (transport : Nat) (b : List Byte), s.serves = true → checkOne transport b = false →
      Completes (.malformedMessage transport b) s fun t =>
        t.num Key.ses.MALFORMED_MSGS = (s.num Key.ses.MALFORMED_MSGS + 1) % 2 ^ 32 ∧ s.Frame [Key.ses.MALFORMED_MSGS] t) ∧
  (∀ (s : State) (m : CdlMsg) (x : Session) (op : Nat), op < 256 → op ∉ requestOpcodes → s.Hears op m x →
      Completes (.unknownOpcode op m) s fun t => t.Answered op m St.range [] ∧ s.Frame [] t)

/-- READ, READM, BLOCK_READ and POLL answer what is in force, and change no entry; EVENT_SEND sends the ring. In a session
that is heard: READ of a readable entry answers its type and value; READM of one item its status and value; BLOCK_READ
a segment of a blob and its total; POLL the record of a handle, or of an empty ring nothing. EVENT_SEND of an open
session with one record not yet sent moves past it. None changes an entry. (R391, R398, R413, R424, R427, R428) -/
def Obligations.ReadsAreAnswered : Prop :=
  (∀ (s : State) (m : CdlMsg) (x : Session) (k : Nat), s.Hears 0x10 m x → m.payload.length = 4 → k = keyAt m.payload 0 →
      (readStatus k = St.ok → ((s.noted 0x10 m).readValue m.session k).length ≤ 1400 → Completes (.read m) s fun t =>
        t.Answered 0x10 m St.ok (le 2 (k / 256 : Nat) ++ le 1 (k % 256 : Nat) ++ (s.noted 0x10 m).readValue m.session k) ∧ s.Frame [] t) ∧
      (readStatus k ≠ St.ok → Completes (.read m) s fun t => t.Answered 0x10 m (readStatus k) [] ∧ s.Frame [] t)) ∧
  (∀ (s : State) (m : CdlMsg) (x : Session) (k : Nat), s.Hears 0x12 m x → m.payload.length = 8 → leAt m.payload 0 1 = 1 →
      k = keyAt m.payload 4 → readStatus k = St.ok → ((s.noted 0x12 m).readValue m.session k).length ≤ 1400 →
      Completes (.readm m) s fun t => s.Frame [] t ∧ t.Answered 0x12 m St.ok ([1, 0, 0, 0] ++ le 2 (k / 256 : Nat) ++
        le 1 (k % 256 : Nat) ++ le 1 St.ok ++ (s.noted 0x12 m).readValue m.session k)) ∧
  (∀ (s : State) (m : CdlMsg) (x : Session) (k : Nat) (r : Row), s.Hears 0x14 m x → m.payload.length = 12 → k = keyAt m.payload 0 →
      Dict.row k = some r → r.acc ≠ .wo → r.ty = .blob → leAt m.payload 4 4 < (s.noted 0x14 m).blobTotal m.session k →
      leAt m.payload 8 2 ≤ 1400 → Completes (.blockRead m) s fun t => s.Frame [] t ∧
        t.Answered 0x14 m St.ok (le 2 (k / 256 : Nat) ++ le 1 (k % 256 : Nat) ++ le 1 0 ++ le 4 (leAt m.payload 4 4) ++
          le 4 ((s.noted 0x14 m).blobTotal m.session k) ++ (s.noted 0x14 m).blobSlice m.session k (leAt m.payload 4 4) (leAt m.payload 8 2))) ∧
  (∀ (s : State) (m : CdlMsg) (x : Session), s.Hears 0x51 m x → m.payload.length = 8 →
      (∀ y, leAt m.payload 0 2 ≠ 0 → s.kept (leAt m.payload 0 2) = some y → Completes (.poll m) s fun t => s.Frame [] t ∧
        t.Answered 0x51 m St.ok (le 2 (leAt m.payload 0 2) ++ le 1 (if y.finished then 1 else 0) ++ le 1 y.status ++ le 2 y.result ++
          le 1 y.progress ++ le 1 0)) ∧
      (leAt m.payload 0 2 = 0 → x.ring = [] → Completes (.poll m) s fun t => t.Answered 0x51 m St.ok [0, 0, 0, 0] ∧ s.Frame [] t)) ∧
  (∀ (s : State) (n q : Nat) (x : Session) (e : EventRec), s.session n = some x → s.serves = true → x.isOpen = true →
      x.ring = [(q, e)] → x.sentSeq ≤ q → Completes (.eventSend n) s fun t => s.Frame [] t ∧
        ∃ y, t.session n = some y ∧ y.sentSeq = q + 1 ∧ y.lost = 0 ∧ y.ring = x.ring)

/-- WRITE, WRITEM, BLOCK_WRITE and the write of a key take effect or are refused, with their answer. In a session that is
heard: WRITE and WRITEM of one plain entry that takes effect at acceptance set it and answer OK with its instant;
WRITE that a test refuses answers that status and changes no entry. The first segment of a BLOCK_WRITE opens a
transfer; the masked segment of KEY_WRITE sets the key and stores it. (R396, R397, R402, R412, R414) -/
def Obligations.WritesTakeEffectAndAreAnswered : Prop :=
  (∀ (s : State) (m : CdlMsg) (x : Session) (k : Nat) (t' : Ty) (v : Value) (r : Row), s.Hears 0x11 m x → 1 ≤ x.role →
      writeItem m.payload = some (k, t', v) → Dict.row k = some r → r.acc = .rw →
      ((s.noted 0x11 m).writeStatus ⟨m.session, x.role⟩ k (some t') v = St.ok → r.eff = .acc → r.ty.ok v = true → r.ty ≠ .blob → PlainEntry k →
        (s.noted 0x11 m).clearReply k v = St.ok → Completes (.write m) s fun t =>
          t.Answered 0x11 m St.ok (le 8 s.now) ∧ t.get k = v ∧ (∀ j, j ≠ k → t.get j = s.get j) ∧ t.mode = s.mode) ∧
      (∀ st, st ≠ St.ok → (s.noted 0x11 m).writeStatus ⟨m.session, x.role⟩ k (some t') v = st → Completes (.write m) s fun t =>
        t.Answered 0x11 m st [] ∧ s.Frame [] t)) ∧
  (∀ (s : State) (m : CdlMsg) (x : Session) (k : Nat) (t' : Ty) (v : Value) (r : Row), s.Hears 0x13 m x → 1 ≤ x.role →
      writeItems m.payload = some [(k, t', v)] → Dict.row k = some r → r.acc = .rw → r.eff = .acc → r.ty.ok v = true → r.ty ≠ .blob → PlainEntry k →
      (s.noted 0x13 m).writeStatus ⟨m.session, x.role⟩ k (some t') v = St.ok → (s.noted 0x13 m).clearReply k v = St.ok →
      Completes (.writem m) s fun t => t.get k = v ∧ (∀ j, j ≠ k → t.get j = s.get j) ∧ t.mode = s.mode ∧
        t.Answered 0x13 m St.ok ([1, 0, 0, 0] ++ le 8 s.now ++ le 1 St.ok)) ∧
  (∀ (s : State) (m : CdlMsg) (x : Session) (k : Nat) (r : Row) (data : List Byte), s.Hears 0x15 m x → 1 ≤ x.role →
      data = m.payload.drop 12 → 12 ≤ m.payload.length → k = keyAt m.payload 0 → Dict.row k = some r → isKey k = false →
      k ≠ Key.upd.UPDATE_IMAGE → leAt m.payload 4 4 = 0 → data.length < leAt m.payload 8 4 → inRanges r.rng (leAt m.payload 8 4) = true →
      firstFault (((s.noted 0x15 m).headFaults ⟨m.session, x.role⟩ k (some .blob) (.bytes [])).filter fun st => st != St.range) = St.ok →
      Completes (.blockWrite m) s fun t => t.Answered 0x15 m St.ok (le 4 data.length ++ le 8 0) ∧ s.Frame [] t ∧
        ∃ y, t.session m.session = some y ∧ y.xfer = some { key := k, total := leAt m.payload 8 4, data := data, lastAt := s.mtbNs }) ∧
  (∀ (s : State) (m : CdlMsg) (x : Session) (k : Nat) (v : List Byte), s.Hears 0x15 m x → 1 ≤ x.role → k = keyAt m.payload 0 →
      isKey k = true → m.payload.length = 44 → leAt m.payload 4 4 = 0 → leAt m.payload 8 4 = 32 →
      v = List.zipWith (fun a b => a ^^^ b) (m.payload.drop 12) (keyMask x.key m.sequence) → v.length = 32 → v ≠ List.replicate 32 0 →
      firstFault (((s.noted 0x15 m).headFaults ⟨m.session, x.role⟩ k (some .blob) (.bytes [])).filter fun st => st != St.range) = St.ok →
      (s.noted 0x15 m).writeStatus ⟨m.session, x.role⟩ k (some .blob) (.bytes v) = St.ok → Completes (.keyWrite m) s fun t =>
        t.Answered 0x15 m St.ok (le 4 32 ++ le 8 s.now) ∧ t.blob k = v ∧ Tbl.get (fun _ => none) t.store k = some (.bytes v) ∧
        (∀ j, j ≠ k → j ≠ Key.evt.EVT_RAISED → j / 256 ≠ Key.stor.NOR_WEAR / 256 → t.get j = s.get j) ∧ t.mode = s.mode)

/-- STAGE, COMMIT, ABORT, CLAIM, RELEASE, SUBSCRIBE, UNSUBSCRIBE and CANCEL act on the session. In a session that is
heard: STAGE of one item that passes opens a transaction; COMMIT of one that passes makes it pending for its boundary;
ABORT discards an open one; CLAIM of a free area and RELEASE of a claimed one change the claims; SUBSCRIBE and
UNSUBSCRIBE change the ranges; CANCEL of a running analysis is answered OK and marks it; it ends at its safe point,
the next boundary (log 72). No entry but EVT_RAISED changes. (R415, R416, R418, R421, R422, R424, R426) -/
def Obligations.TransactionsClaimsAndSubscriptions : Prop :=
  (∀ (s : State) (m : CdlMsg) (x : Session) (k : Nat) (t' : Ty) (v : Value), s.Hears 0x20 m x → 1 ≤ x.role → x.txn = none →
      writeItems m.payload = some [(k, t', v)] →
      firstFault ((s.noted 0x20 m).headFaults ⟨m.session, x.role⟩ k (some t') v) = St.ok →
      (Dict.row k).map (·.acc) ≠ some .wo → stageBytes [(k, v)] ≤ 65536 → Completes (.stage m) s fun t =>
        t.Answered 0x20 m St.ok ([1, 0, 0, 0] ++ le 4 (stageBytes [(k, v)]) ++ le 1 St.ok) ∧ s.Frame [] t ∧
        ∃ y, t.session m.session = some y ∧ y.txn = some [(k, v)]) ∧
  (∀ (s : State) (m : CdlMsg) (x : Session) (items : List (Nat × Value)), s.Hears 0x21 m x → 1 ≤ x.role → m.payload.length = 12 →
      leAt m.payload 0 8 = 0 → x.txn = some items → x.commit = none → x.xfer = none →
      (s.noted 0x21 m).commitFault ⟨m.session, x.role⟩ items s.nextBoundary false = none → Completes (.commit m) s fun t =>
        t.Answered 0x21 m St.ok (commitBody s.nextBoundary 0) ∧ s.Frame [] t ∧
        ∃ y c, t.session m.session = some y ∧ y.txn = none ∧ y.commit = some c ∧ c.time = s.nextBoundary ∧ c.items = items ∧ c.late = false) ∧
  (∀ (s : State) (m : CdlMsg) (x : Session), s.Hears 0x22 m x → 1 ≤ x.role → m.payload = [] → x.txn.isSome = true → x.commit = none →
      Completes (.abort m) s fun t => t.Answered 0x22 m St.ok [] ∧ s.Frame [] t ∧ ∃ y, t.session m.session = some y ∧ y.txn = none) ∧
  (∀ (s : State) (m : CdlMsg) (x : Session) (a : Nat), s.Hears 0x30 m x → 2 ≤ x.role → m.payload.length = 4 → a = leAt m.payload 0 1 →
      claimable a = true → s.areaHolder a = none → x.claims = [] → Completes (.claim m) s fun t =>
        t.Answered 0x30 m St.ok [] ∧ s.Frame [Key.evt.EVT_RAISED] t ∧ ∃ y, t.session m.session = some y ∧ y.claims = [a]) ∧
  (∀ (s : State) (m : CdlMsg) (x : Session) (a : Nat), s.Hears 0x31 m x → m.payload.length = 4 → a = leAt m.payload 0 1 → a ≠ 0 →
      Completes (.release m) s fun t => t.Answered 0x31 m St.ok [] ∧ s.Frame [Key.evt.EVT_RAISED] t ∧
        ∃ y, t.session m.session = some y ∧ y.claims = x.claims.filter fun b => b != a) ∧
  (∀ (s : State) (m : CdlMsg) (x : Session) (lo hi : Nat), s.Hears 0x40 m x → m.payload.length = 8 → leAt m.payload 0 1 = 1 →
      lo = leAt m.payload 4 2 → hi = leAt m.payload 6 2 → lo ≤ hi → x.ranges = [] → Completes (.subscribe m) s fun t =>
        t.Answered 0x40 m St.ok (le 4 x.nextSeq) ∧ s.Frame [] t ∧ ∃ y, t.session m.session = some y ∧ y.ranges = [(lo, hi)]) ∧
  (∀ (s : State) (m : CdlMsg) (x : Session), s.Hears 0x41 m x → m.payload.length = 4 → leAt m.payload 0 1 = 0 →
      Completes (.unsubscribe m) s fun t =>
        t.Answered 0x41 m St.ok [] ∧ s.Frame [] t ∧ ∃ y, t.session m.session = some y ∧ y.ranges = []) ∧
  (∀ (s : State) (m : CdlMsg) (x : Session) (h : Nat) (y : Handle), s.Hears 0x52 m x → 2 ≤ x.role → m.payload.length = 4 →
      h = leAt m.payload 0 2 → s.kept h = some y → s.handle h = some y → y.finished = false → isAnalysis y.op = true →
      Completes (.cancel m) s fun t => t.Answered 0x52 m St.ok [] ∧ s.Frame [] t ∧
        ∃ z, t.handle h = some z ∧ z.ending = some St.cancelled ∧ z.finished = false)

/-- An EXEC that nothing refuses is accepted with the next handle, and begins. In a session that is heard, with the role
and the arguments that the operation asks for and fewer than 64 operations running, each EXEC is answered ACCEPTED
with the next handle, whose record is that of the running operation, and what the operation begins has begun. (R319,
R320, R400, R423, R454, R467, R481, R482) -/
def Obligations.OperationsStart : Prop :=
  ∀ (s : State) (m : CdlMsg) (x : Session),
    (∀ chans slot : Nat, 2 ≤ x.role → chans < 65536 → slot < 256 →
      (s.Starts 0x0910 m x (le 2 chans ++ le 1 slot ++ [0]) → (s.noted 0x50 m).analysisRefused 0x0910 chans slot = none →
        Completes (.impedance m) s fun t => s.Started 0x0910 m t ∧ t.Analysing chans slot s.nextHandle) ∧
      (s.Starts 0x0911 m x (le 2 chans ++ le 1 slot ++ [0]) → (s.noted 0x50 m).analysisRefused 0x0911 chans slot = none →
        Completes (.identify m) s fun t => s.Started 0x0911 m t ∧ t.Analysing chans slot s.nextHandle) ∧
      (s.Starts 0x0912 m x (le 2 chans ++ le 1 slot ++ [0]) → (s.noted 0x50 m).analysisRefused 0x0912 chans slot = none →
        Completes (.loadcheck m) s fun t => s.Started 0x0912 m t ∧ t.Analysing chans slot s.nextHandle) ∧
      (s.Starts 0x0913 m x (le 2 chans ++ le 1 slot ++ [0]) → (s.noted 0x50 m).analysisRefused 0x0913 chans slot = none →
        Completes (.response m) s fun t => s.Started 0x0913 m t ∧ t.Analysing chans slot s.nextHandle) ∧
      (s.Starts 0x0914 m x (le 2 chans ++ le 1 slot ++ [0]) → (s.noted 0x50 m).analysisRefused 0x0914 chans slot = none →
        Completes (.loopFrf m) s fun t => s.Started 0x0914 m t ∧ t.Analysing chans slot s.nextHandle)) ∧
    (2 ≤ x.role → s.Starts 0x0110 m x [] → s.units.mgmt.removal = none → Completes (.prepareRemoval m) s fun t =>
      s.Started 0x0110 m t ∧ t.units.mgmt.removal = some s.nextHandle ∧ s.Frame [Key.mode.MODE_REQUEST] t ∧
      (if s.mode = .safe ∧ s.units.mgmt.setupTo = none then t.num Key.mode.MODE_REQUEST = s.num Key.mode.MODE_REQUEST
        else t.num Key.mode.MODE_REQUEST = 1 ∧ t.units.mgmt.waitMode = some (1, 7))) ∧
    (x.role = 2 → s.Starts 0x0B30 m x [] → s.mode = .safe → s.units.mgmt.restoreDue = none → Completes (.restoreDefaults m) s fun t =>
      s.Started 0x0B30 m t ∧ t.units.mgmt.restoreDue = some s.nextHandle ∧ s.Frame [] t) ∧
    (∀ chans : Nat, 2 ≤ x.role → chans < 65536 → chans ≠ 0 → s.Starts 0x0B31 m x (le 2 chans ++ le 2 0) → s.calRefused chans = false →
      Completes (.calibrate m) s fun t => s.Started 0x0B31 m t ∧ s.Frame [] t ∧
        ∃ y, t.handle s.nextHandle = some y ∧ y.chans = chans) ∧
    (∀ len : Nat, 2 ≤ x.role → len ≠ 0 → len ≤ 12582912 → s.Starts 0x0B20 m x (le 4 len) → s.updState ∉ [1, 3, 4, 5] →
      Completes (.updateLoad m) s fun t => s.Started 0x0B20 m t ∧ t.updState = 1 ∧ t.units.mgmt.loadLen = len ∧
        t.units.mgmt.loadErased = false ∧ t.units.mgmt.loadHandle = some s.nextHandle ∧ t.mode = s.mode ∧ t.store = s.store) ∧
    (2 ≤ x.role → s.Starts 0x0B21 m x (le 8 0 ++ le 4 0) → s.updState = 2 → Completes (.updateActivate m) s fun t =>
      s.Started 0x0B21 m t ∧ t.updState = 3 ∧ t.nat Key.upd.UPDATE_AT = s.nextBoundary % 2 ^ 64 ∧
      t.units.mgmt.actHandle = some s.nextHandle ∧ t.mode = s.mode ∧ t.store = s.store)

/-- What times out is freed: sessions, lockouts, transfers, handle records; keys and areas are cleared. SESSION_TIMEOUT,
PENDING_SESSION_EXPIRY and BLOCK_TRANSFER_TIMEOUT at their times free the session or its transfer; LOCKOUT_EXPIRY
keeps only lockouts still running; LOCKOUT_CLEAR lifts them; HANDLE_RECORD_EXPIRY discards a record; KEY_CLEAR removes
a key and its stored copy; RELEASE_AREA_WRITE ends another session's claim. (R402, R408, R409, R410, R414, R422, R423,
R477) -/
def Obligations.SessionsAndKeysExpire : Prop :=
  (∀ (s : State) (n : Nat) (x : Session), s.session n = some x → s.serves = true →
      (x.isOpen = true → x.ended = false → x.commit = none → x.ownCommits = [] →
        s.expired x.lastAt (s.nat Key.ses.SESSION_TIMEOUT * 1000000000) = true → Completes (.sessionTimeout n) s fun t =>
          t.session n = none ∧ s.Frame [Key.evt.EVT_RAISED] t) ∧
      (x.isOpen = false → x.ended = false → s.expired x.lastAt 5000000000 = true → Completes (.pendingSessionExpiry n) s fun t =>
          t.session n = none ∧ s.Frame [] t) ∧
      (∀ y, x.xfer = some y → s.expired y.lastAt 10000000000 = true → Completes (.blockTransferTimeout n) s fun t =>
          s.Frame [] t ∧ ∃ z, t.session n = some z ∧ z.xfer = none ∧ z.txn = x.txn)) ∧
  (∀ s : State, Completes .lockoutExpiry s fun t =>
      t.units.mgmt.lockouts = s.units.mgmt.lockouts.filter (fun l => decide (s.mtbNs < l.2)) ∧ s.Frame [] t) ∧
  (∀ n role : Nat, Writes (.lockoutClear n role) Key.fence.FENCE_CLEAR_CMD ⟨n, role, .num 0x0900FFFF⟩ 0x0900FFFF
      (fun s => s.units.mgmt.lockouts ≠ []) fun s t => t.units.mgmt.lockouts = [] ∧
        t.num Key.fence.CLEARS = (s.num Key.fence.CLEARS + 1) % 2 ^ 32 ∧ s.Frame [Key.fence.CLEARS, Key.evt.EVT_RAISED] t) ∧
  (∀ (s : State) (h : Nat) (x : Handle), s.handle h = some x → x.finished = true → x.doneAt + 60000000000 ≤ s.mtbNs →
      Completes (.handleRecordExpiry h) s fun t => t.handle h = none ∧ s.Frame [] t) ∧
  (∀ (w : EntryWrite) (r : Fin 4), Writes (.keyClear w) Key.key.KEY_CLEAR w r.val (fun _ => True) fun s t =>
      t.blob (Key.key.KEY_MONITOR + r) = [] ∧ Tbl.get (fun _ => none) t.store (Key.key.KEY_MONITOR + r) = none ∧
      (∀ k, k ≠ Key.key.KEY_MONITOR + r → t.get k = s.get k) ∧ t.mode = s.mode) ∧
  (∀ (w : EntryWrite) (a n : Nat) (x : Session), Writes (.releaseAreaWrite w) Key.area.RELEASE_AREA w a
      (fun s => s.areaHolder a = some n ∧ s.session n = some x) fun s t => s.Frame [Key.evt.EVT_RAISED] t ∧
        ∃ y, t.session n = some y ∧ y.claims = x.claims.filter fun b => b != a)

/-- The management processor's absence begins, is guarded and ends; divergences are reported and rewritten.
WATCHDOG_EXPIRY begins an absence, in a probation with the roll-back to the old bank (R485), MGMT_RETURN ends it, with
nothing left latched and no divergence under way (R462), ABSENCE_GUARD after more than 10 s orders the stop of every
channel and drives FAULT_N low. STATE_DIVERGE of a commanded state, from 100 ms after a return on, reports it and
counts it, STATE_DIVERGE_RECHECK 100 ms later closes it or counts it open: that a divergence is a happening from
outside, whose recheck is given its outcome, is the model's choice (log 100). (R457, R458, R459, R460, R461, R485) -/
def Obligations.AbsencesAndDivergences : Prop :=
  ∀ s : State,
    (s.units.mgmt.served = true → s.units.mgmt.absentAt = none → s.num Key.upd.UPDATE_STATE ≠ 5 → Completes .watchdogExpiry s fun t =>
      t.units.mgmt.served = false ∧ t.units.mgmt.absentAt = some s.mtbNs ∧ t.units.mgmt.cause = 0 ∧ t.mode = s.mode ∧ t.store = s.store) ∧
    (s.units.mgmt.served = true → s.units.mgmt.absentAt = none → s.num Key.upd.UPDATE_STATE = 5 → Completes .watchdogExpiry s fun t =>
      t.units.mgmt.served = false ∧ t.units.mgmt.absentAt = some s.mtbNs ∧ t.units.mgmt.cause = 2 ∧ t.mode = s.mode ∧ t.store = s.store) ∧
    (∀ t0 : Nat, s.units.mgmt.absentAt = some t0 → Completes .mgmtReturn s fun t =>
      t.units.mgmt.served = true ∧ t.units.mgmt.absentAt = none ∧ t.units.mgmt.latched = [] ∧ t.units.mgmt.diverge = [] ∧
      t.units.mgmt.returnedAt = some s.mtbNs ∧ t.mode = s.mode ∧ t.store = s.store) ∧
    ((s.units.mgmt.absentAt.any fun t0 => s.expired t0 10000000000) = true → s.units.mgmt.guarded = false → Completes .absenceGuard s fun t =>
      t.units.mgmt.guarded = true ∧ t.units.mgmt.stopAll = true ∧ t.units.pins.faultLow = true ∧ t.mode = s.mode ∧ t.store = s.store) ∧
    (∀ k : Nat, isCommanded k = true → s.units.mgmt.served = true → s.units.mgmt.diverge = [] → s.units.mgmt.divergedOpen = [] →
      (∀ t0, s.units.mgmt.returnedAt = some t0 → t0 + 100000000 ≤ s.mtbNs) →
      Completes (.stateDiverge k) s fun t => (k, s.mtbNs, true) ∈ t.units.mgmt.diverge ∧
        t.num Key.fence.DIVERGENCES = (s.num Key.fence.DIVERGENCES + 1) % 2 ^ 32 ∧ t.mode = s.mode ∧ t.store = s.store) ∧
    (∀ (k t0 : Nat) (b : Bool), s.units.mgmt.diverge = [(k, t0, b)] → t0 + 100000000 ≤ s.mtbNs → s.units.mgmt.served = true →
      (Completes (.stateDivergeRecheck k true) s fun t => t.units.mgmt.diverge = [] ∧ k ∈ t.units.mgmt.divergedOpen ∧
        t.num Key.fence.DIVERGE_OPEN = (s.num Key.fence.DIVERGE_OPEN + 1) % 2 ^ 16 ∧
        s.Frame [Key.fence.DIVERGE_OPEN, Key.evt.EVT_RAISED] t) ∧
      Completes (.stateDivergeRecheck k false) s fun t => t.units.mgmt.diverge = [] ∧ s.Frame [] t)

/-- Sensors, fans, the log and the lifetime store. SENSOR_READ shows each die temperature and each supply it is given;
FAN_WINDOW shows each speed; LOG_WRITE moves the oldest event not yet logged into the ring at its place and counts on;
LIFETIME_STORE every 60 s outside BOOT stores every lifetime counter and changes no entry. (R463, R464, R469, R471,
R472, R473) -/
def Obligations.SensorsFansAndLog : Prop :=
  (∀ (s : State) (l : List Int) (mv : List Nat), l.length = 12 → mv.length = 5 → (∀ x ∈ l, -3604480 ≤ x ∧ x ≤ 11468800) →
      (∀ x ∈ mv, x < 65536) → Completes (.sensorRead l mv) s fun t =>
        (∀ k < 12, t.num (Key.sens.T_DIE k) = l.getD k 0) ∧ (∀ i < 5, t.nat (Key.sens.VAUX_NOW + i) = mv.getD i 0) ∧
        t.mode = s.mode ∧ t.store = s.store) ∧
  (∀ (s : State) (l : List Nat), (∀ x ∈ l, x ≤ 1000) → Completes (.fanWindow l) s fun t =>
      (∀ g < 4, t.num (Key.fan.FAN_RPM g) =
        rounded (Key.fan.FAN_RPM g) ((60 * l.getD g 0 : Nat) / (max 1 (s.nat Key.fan.FAN_PULSES) : Nat) : Rat)) ∧
      t.mode = s.mode ∧ t.store = s.store) ∧
  (∀ (s : State) (e : EventRec) (q : List EventRec) (n : Nat), s.units.logQueue = e :: q → s.units.mgmt.served = true → s.nat Key.log.LOG_NEXT_SEQ = n → 1 ≤ n →
      n < 2 ^ 32 - 1 → Completes .logWrite s fun t => t.units.logQueue = q ∧ t.nat Key.log.LOG_NEXT_SEQ = n + 1 ∧
        t.nat Key.log.LOG_FLUSHED = n ∧ t.mode = s.mode ∧
        (∃ r, Tbl.get (fun _ => none) t.units.log ((n - 1) % 32768) = some r ∧ r.seq = n ∧ r.code = e.code ∧ r.time = e.time) ∧
        Tbl.get (fun _ => none) t.store Key.log.LOG_FLUSHED = some (.num n) ∧
        ∀ k, k / 65536 ≠ Key.log.LOG_FLUSHED / 65536 → t.get k = s.get k) ∧
  (∀ s : State, s.mode ≠ .boot → s.units.mgmt.lifeAt + 60000000000 ≤ s.mtbNs → Completes .lifetimeStore s fun t =>
      t.units.mgmt.lifeAt = s.mtbNs ∧ t.mode = s.mode ∧ (∀ k, t.get k = s.get k) ∧
      ∀ i < 31, Tbl.get (fun _ => none) t.store (0x122001 + i) = some (s.get (0x122001 + i)))
end

