-- ==== Sys2Proof/Laws/Table.lean ====
section
/-!
SUPPORT. Laws/Table.lean: sparse tables: a read after a write, and that a write keeps the canonical form.
-/

namespace Sys2Proof.Machine

variable {α : Type} [DecidableEq α] {d : Nat → α} {t : Tbl α} {b k : Nat} {v : α}

omit [DecidableEq α] in
@[simp] theorem Tbl.get_nil (d : Nat → α) (k : Nat) : Tbl.get d [] k = d k := rfl

@[simp] theorem Tbl.wf_nil (d : Nat → α) : Tbl.wf d [] = true := rfl

omit [DecidableEq α] in
theorem Tbl.drop_keys : ∀ p ∈ t.drop k, p.1 ≠ k := by
  intro p hp
  simpa using (List.mem_filter.1 hp).2

omit [DecidableEq α] in
theorem Tbl.get_drop (d : Nat → α) (t : Tbl α) (k j : Nat) :
    Tbl.get d (t.drop k) j = if k = j then d j else Tbl.get d t j := by
  induction t with
  | nil => simp [Tbl.drop]
  | cons p t ih =>
    simp only [Tbl.drop] at ih ⊢
    by_cases hp : p.1 = k
    · by_cases hj : k = j <;> simp_all [Tbl.get]
    · by_cases hj : p.1 = j
      · subst hj
        simp [hp, Ne.symm hp, Tbl.get]
      · simp [hp, Tbl.get, hj, ih]

omit [DecidableEq α] in
theorem Tbl.get_put (d : Nat → α) (h : ∀ p ∈ t, p.1 ≠ k) (j : Nat) :
    Tbl.get d (t.put k v) j = if k = j then v else Tbl.get d t j := by
  induction t with
  | nil => by_cases hj : k = j <;> simp [Tbl.put, Tbl.get, hj]
  | cons p t ih =>
    have hp := h p (List.mem_cons_self ..)
    have ih := ih fun q hq => h q (List.mem_cons_of_mem _ hq)
    by_cases hl : k < p.1
    · simp [Tbl.put, hl, Tbl.get]
    · by_cases hj : p.1 = j
      · subst hj
        simp [Tbl.put, hl, Ne.symm hp, Tbl.get]
      · simp [Tbl.put, hl, Tbl.get, hj, ih]

/-- A read after a write. -/
theorem Tbl.get_set (d : Nat → α) (t : Tbl α) (k : Nat) (v : α) (j : Nat) :
    Tbl.get d (Tbl.set d t k v) j = if k = j then v else Tbl.get d t j := by
  by_cases hv : v = d k
  · simp only [Tbl.set, hv, if_true, get_drop]
    split <;> simp_all
  · simp only [Tbl.set, hv, if_false, get_put d Tbl.drop_keys, get_drop]
    split <;> simp_all

omit [DecidableEq α] in
/-- A unit after a change of a unit. -/
@[simp] theorem Tbl.at_nil (x : α) (k : Nat) : Tbl.at x [] k = x := rfl

theorem Tbl.at_upd (x : α) (t : Tbl α) (k j : Nat) (f : α → α) :
    Tbl.at x (Tbl.upd x t k f) j = if k = j then f (Tbl.at x t k) else Tbl.at x t j := by
  simp only [Tbl.at, Tbl.upd, get_set]

theorem Tbl.wfFrom_cons {j : Nat} {w : α} (h : Tbl.wfFrom d b ((j, w) :: t) = true) :
    b ≤ j ∧ w ≠ d j ∧ Tbl.wfFrom d (j + 1) t = true := by
  simpa [Tbl.wfFrom, and_assoc] using h

theorem Tbl.wfFrom_mono {b c : Nat} (hbc : c ≤ b) (h : Tbl.wfFrom d b t = true) : Tbl.wfFrom d c t = true := by
  cases t with
  | nil => rfl
  | cons p t =>
    obtain ⟨h1, h2, h3⟩ := wfFrom_cons h
    simp [Tbl.wfFrom, h2, h3, hbc.trans h1]

theorem Tbl.wfFrom_drop (h : Tbl.wfFrom d b t = true) : Tbl.wfFrom d b (t.drop k) = true := by
  induction t generalizing b with
  | nil => rfl
  | cons p t ih =>
    obtain ⟨h1, h2, h3⟩ := wfFrom_cons h
    simp only [Tbl.drop] at ih ⊢
    by_cases hp : p.1 = k
    · simpa [hp] using wfFrom_mono (by omega) (ih h3)
    · simp [hp, Tbl.wfFrom, h1, h2, ih h3]

theorem Tbl.wfFrom_put (h : Tbl.wfFrom d b t = true) (hk : b ≤ k) (hv : v ≠ d k) (hn : ∀ p ∈ t, p.1 ≠ k) :
    Tbl.wfFrom d b (t.put k v) = true := by
  induction t generalizing b with
  | nil => simp [Tbl.put, Tbl.wfFrom, hk, hv]
  | cons p t ih =>
    obtain ⟨h1, h2, h3⟩ := wfFrom_cons h
    have hp := hn p (List.mem_cons_self ..)
    by_cases hl : k < p.1
    · simp [Tbl.put, hl, Tbl.wfFrom, hk, hv, h2, h3, Nat.succ_le_of_lt hl]
    · simp [Tbl.put, hl, Tbl.wfFrom, h1, h2, ih h3 (by omega) fun q hq => hn q (List.mem_cons_of_mem _ hq)]

/-- A write keeps the canonical form. -/
theorem Tbl.wf_set (h : Tbl.wf d t = true) : Tbl.wf d (Tbl.set d t k v) = true := by
  unfold Tbl.set Tbl.wf
  split
  · exact wfFrom_drop h
  · exact wfFrom_put (wfFrom_drop h) (Nat.zero_le k) ‹_› drop_keys

end Sys2Proof.Machine
end

