-- ==== Sys2Proof/Laws/State.lean ====
section
/-!
SUPPORT. Laws/State.lean: what a write of one entry changes, and the effects field by field.
-/

namespace Sys2Proof.Machine

variable (s : State) (k j : Nat) (v : Value)

@[simp] theorem State.set_mode : (s.set k v).mode = s.mode := by
  unfold State.set; split <;> [rfl; (split <;> rfl)]
@[simp] theorem State.set_mtb : (s.set k v).mtb = s.mtb := by
  unfold State.set; split <;> [rfl; (split <;> rfl)]
@[simp] theorem State.set_store : (s.set k v).store = s.store := by
  unfold State.set; split <;> [rfl; (split <;> rfl)]
@[simp] theorem State.set_units : (s.set k v).units = s.units := by
  unfold State.set; split <;> [rfl; (split <;> rfl)]
@[simp] theorem State.set_pending : (s.set k v).pending = s.pending := by
  unfold State.set; split <;> [rfl; (split <;> rfl)]

/-- A read after a write of an entry. -/
theorem State.get_set {r : Row} (hr : Dict.row k = some r) (ha : r.acc ≠ .const) :
    (s.set k v).get j = if k = j then r.ty.norm (s.get k) v else s.get j := by
  simp [State.set, hr, ha, State.get, Tbl.get_set]

/-- A write of an entry leaves every other entry. -/
theorem State.get_set_ne (hne : k ≠ j) : (s.set k v).get j = s.get j := by
  unfold State.set
  split
  · rfl
  · split
    · rfl
    · simp [State.get, Tbl.get_set, hne]

/-- A write of a CONST entry, or of an index that no table gives, changes nothing. -/
theorem State.set_const (h : ∀ r, Dict.row k = some r → r.acc = .const) : s.set k v = s := by
  unfold State.set
  split
  · rfl
  · simp [h _ ‹_›]

/-- A write keeps the dictionary's canonical form. -/
theorem State.set_wf (h : Tbl.wf Dict.dflt s.dict = true) : Tbl.wf Dict.dflt (s.set k v).dict = true := by
  unfold State.set
  split
  · exact h
  · split
    · exact h
    · exact Tbl.wf_set h

@[simp] theorem State.apply_mode_mode (m : Mode) : (s.apply (.mode m)).mode = m := rfl
@[simp] theorem State.apply_mode_get (m : Mode) : (s.apply (.mode m)).get k = s.get k := rfl
@[simp] theorem State.apply_mode_units (m : Mode) : (s.apply (.mode m)).units = s.units := rfl
@[simp] theorem State.apply_unit_mode (f : Units → Units) : (s.apply (.unit f)).mode = s.mode := rfl
@[simp] theorem State.apply_unit_get (f : Units → Units) : (s.apply (.unit f)).get k = s.get k := rfl
@[simp] theorem State.apply_unit_units (f : Units → Units) : (s.apply (.unit f)).units = f s.units := rfl
@[simp] theorem State.apply_unit_store (f : Units → Units) : (s.apply (.unit f)).store = s.store := rfl
@[simp] theorem State.apply_save_mode (o : Option Value) : (s.apply (.save k o)).mode = s.mode := rfl
@[simp] theorem State.apply_save_get (o : Option Value) : (s.apply (.save j o)).get k = s.get k := rfl
@[simp] theorem State.apply_save_units (o : Option Value) : (s.apply (.save k o)).units = s.units := rfl
@[simp] theorem State.apply_reg_mode : (s.apply (.reg k v)).mode = s.mode := by simp [State.apply]
@[simp] theorem State.apply_reg_units : (s.apply (.reg k v)).units = s.units := by simp [State.apply]
@[simp] theorem State.apply_bump_mode (n : Int) : (s.apply (.bump k n)).mode = s.mode := by simp [State.apply]
@[simp] theorem State.apply_bump_units (n : Int) : (s.apply (.bump k n)).units = s.units := by simp [State.apply]

end Sys2Proof.Machine
end

