-- ==== Sys2Proof/Laws/Ops.lean ====
section
/-!
SUPPORT. Laws/Ops.lean: what every effect keeps, and so what every meaning that is a list of effects keeps; phases in
sequence.
-/

namespace Sys2Proof.Machine

/-- What raising an event keeps. -/
theorem State.deliver_eq (s : State) (e : EventRec) :
    ∃ u, s.deliver e = { s.set Key.evt.EVT_RAISED (.num (s.num Key.evt.EVT_RAISED + 1)) with units := u } := ⟨_, rfl⟩

/-- Everything that raising an event can do to the state: the counter of raised events may rise and the units change. -/
theorem State.raise_cases (s : State) (c : Nat) (a : List Byte) (n : Nat) (sc : Option Nat) :
    ∃ u, s.raise c a n sc = { s with units := u } ∨
      s.raise c a n sc = { s.set Key.evt.EVT_RAISED (.num (s.num Key.evt.EVT_RAISED + 1)) with units := u } := by
  have hnow : ∀ s : State, ∃ u, s.raiseNow c a n = { s with units := u } ∨
      s.raiseNow c a n = { s.set Key.evt.EVT_RAISED (.num (s.num Key.evt.EVT_RAISED + 1)) with units := u } := by
    intro s
    simp only [State.raiseNow]
    split
    · split
      · exact ⟨_, .inl rfl⟩
      · exact ⟨_, .inl rfl⟩
    · obtain ⟨u, hu⟩ := s.deliver_eq (s.eventOf c a n)
      exact ⟨u, .inr hu⟩
  cases sc with
  | none => exact hnow s
  | some sc =>
    simp only [State.raise]
    split
    · exact ⟨s.units, .inl rfl⟩
    · obtain ⟨u, hu | hu⟩ := hnow s
      · rw [hu]; exact ⟨_, .inl rfl⟩
      · rw [hu]; exact ⟨_, .inr rfl⟩

/-- No effect touches the queue or the MTB counter. -/
theorem State.apply_frame (s : State) (e : Effect) : (s.apply e).pending = s.pending ∧ (s.apply e).mtb = s.mtb := by
  cases e with
  | raise c a n sc =>
    obtain ⟨u, hu | hu⟩ := s.raise_cases c a n sc <;> simp [State.apply, hu]
  | _ => simp [State.apply]

/-- What holds before every write of an entry, every save and every other effect, and after each of them, holds after
any effect. -/
theorem State.apply_induct {P : State → Prop} (hset : ∀ s k v, P s → P (s.set k v))
    (hunit : ∀ (s : State) u, P s → P { s with units := u }) (hmode : ∀ (s : State) m, P s → P { s with mode := m })
    (hsave : ∀ (s : State) k v, P s → P { s with store := Tbl.set (fun _ => none) s.store k v })
    (s : State) (e : Effect) (h : P s) : P (s.apply e) := by
  cases e with
  | reg k v => exact hset _ _ _ h
  | bump k n => exact hset _ _ _ h
  | orBits k m => exact hset _ _ _ h
  | andNot k m => exact hset _ _ _ h
  | save k v => exact hsave _ _ _ h
  | mode m => exact hmode _ _ h
  | unit f => exact hunit _ _ h
  | raise c a n sc =>
    obtain ⟨u, hu | hu⟩ := s.raise_cases c a n sc
    · simp only [State.apply, hu]; exact hunit _ _ h
    · simp only [State.apply, hu]; exact hunit _ _ (hset _ _ _ h)

/-- What every effect keeps, a list of effects keeps. -/
theorem State.run_induct {P : State → Prop} (hP : ∀ s e, P s → P (s.apply e)) (es : List Effect) (s : State) (h : P s) :
    P (s.run es) := by
  induction es generalizing s with
  | nil => exact h
  | cons e es ih => exact ih _ (hP s e h)

@[simp] theorem State.run_nil (s : State) : s.run [] = s := rfl
@[simp] theorem State.run_cons (s : State) (e : Effect) (es : List Effect) : s.run (e :: es) = (s.apply e).run es := rfl
@[simp] theorem State.run_append (s : State) (a b : List Effect) : s.run (a ++ b) = (s.run a).run b :=
  List.foldl_append ..

@[simp] theorem State.run_pending (s : State) (es : List Effect) : (s.run es).pending = s.pending :=
  State.run_induct (P := fun t => t.pending = s.pending) (fun t e h => (t.apply_frame e).1.trans h) es s rfl

@[simp] theorem State.run_mtb (s : State) (es : List Effect) : (s.run es).mtb = s.mtb :=
  State.run_induct (P := fun t => t.mtb = s.mtb) (fun t e h => (t.apply_frame e).2.trans h) es s rfl

/-- Phases in sequence: each works on the state that the one before it left. -/
@[simp] theorem State.does_phases_cons (s : State) (p : Phase) (ps : List Phase) :
    s.does (phases (p :: ps)) = (s.does p).does (phases ps) := by
  simp [State.does, phases]

@[simp] theorem State.does_phases_nil (s : State) : s.does (phases []) = s := rfl

@[simp] theorem State.does_always (s : State) (es : List Effect) : s.does (always es) = s.run es := rfl

theorem State.does_whenP (s : State) (c : State → Bool) (p : Phase) :
    s.does (whenP c p) = if c s then s.does p else s := by
  unfold State.does whenP
  split <;> simp_all

theorem State.goes_eq (s : State) (p : Phase) : s.goes p = .next (s.does p) := rfl

@[simp] theorem State.does_pending (s : State) (p : Phase) : (s.does p).pending = s.pending := s.run_pending _

@[simp] theorem State.does_mtb (s : State) (p : Phase) : (s.does p).mtb = s.mtb := s.run_mtb _

/-- The entries that an effect can write. -/
def Effect.writes : Effect → List Nat
  | .reg k _ => [k]
  | .bump k _ => [k]
  | .orBits k _ => [k]
  | .andNot k _ => [k]
  | .raise _ _ _ _ => [Key.evt.EVT_RAISED]
  | _ => []

/-- Every effect keeps the dictionary's canonical form. -/
theorem State.apply_wf (s : State) (e : Effect) (h : Tbl.wf Dict.dflt s.dict = true) :
    Tbl.wf Dict.dflt (s.apply e).dict = true :=
  State.apply_induct (P := fun s => Tbl.wf Dict.dflt s.dict = true) (fun s k v h => s.set_wf k v h)
    (fun _ _ h => h) (fun _ _ h => h) (fun _ _ _ h => h) s e h

theorem State.run_wf (s : State) (es : List Effect) (h : Tbl.wf Dict.dflt s.dict = true) :
    Tbl.wf Dict.dflt (s.run es).dict = true :=
  State.run_induct (P := fun s => Tbl.wf Dict.dflt s.dict = true) State.apply_wf es s h

theorem State.does_wf (s : State) (p : Phase) (h : Tbl.wf Dict.dflt s.dict = true) :
    Tbl.wf Dict.dflt (s.does p).dict = true := s.run_wf _ h

/-- An effect leaves the entries that it cannot write. -/
theorem State.apply_get (s : State) (e : Effect) (k : Nat) (hk : k ∉ e.writes) :
    (s.apply e).get k = s.get k := by
  cases e with
  | reg j v => exact s.get_set_ne j k v fun h => hk (by simp [Effect.writes, h])
  | bump j n => exact s.get_set_ne j k _ fun h => hk (by simp [Effect.writes, h])
  | orBits j m => exact s.get_set_ne j k _ fun h => hk (by simp [Effect.writes, h])
  | andNot j m => exact s.get_set_ne j k _ fun h => hk (by simp [Effect.writes, h])
  | save j v => rfl
  | mode m => rfl
  | unit f => rfl
  | raise c a n sc =>
    obtain ⟨u, hu | hu⟩ := s.raise_cases c a n sc
    · simp [State.apply, hu, State.get]
    · have := s.get_set_ne Key.evt.EVT_RAISED k (.num (s.num Key.evt.EVT_RAISED + 1)) fun h => hk (by simp [Effect.writes, h])
      simp only [State.apply, hu]
      exact this

/-- A list of effects leaves the entries that none of them can write. -/
theorem State.run_get (es : List Effect) (s : State) (k : Nat)
    (hk : ∀ e ∈ es, k ∉ e.writes) : (s.run es).get k = s.get k := by
  induction es generalizing s with
  | nil => rfl
  | cons e es ih =>
    rw [State.run_cons, ih _ (fun e he => hk e (List.mem_cons_of_mem _ he)),
      s.apply_get e k (hk e (List.mem_cons_self ..))]

end Sys2Proof.Machine
end

