-- ==== Sys2Proof/Laws/Typed.lean ====
section
/-!
SUPPORT. Laws/Typed.lean: every entry holds a value of its type, at reset and after every effect (R6, R7).
-/

namespace Sys2Proof.Machine

theorem intOk_signed (w : Nat) (n : Int) (hw : 0 < w) : intOk w true (signed w n) = true := by
  obtain ⟨m, rfl⟩ : ∃ m, w = m + 1 := ⟨w - 1, by omega⟩
  have hp : ((2 : Int) ^ (m + 1)) = 2 * 2 ^ m := by rw [pow_succ]; ring
  have hp2 : ((2 ^ (m + 1) : Nat) : Int) = 2 * 2 ^ m := by push_cast; exact hp
  have h0 : (0 : Int) < 2 ^ m := by positivity
  have h1 := Int.le_bmod (x := n) (m := 2 ^ (m + 1)) (by positivity)
  have h2 := Int.bmod_lt (x := n) (m := 2 ^ (m + 1)) (by positivity)
  simp only [intOk, signed, if_true, decide_eq_true_eq, Nat.add_sub_cancel]
  omega

theorem intOk_emod (w : Nat) (n : Int) : intOk w false (n % 2 ^ w) = true := by
  have h0 : (0 : Int) < 2 ^ w := by positivity
  simp [intOk, Int.emod_nonneg n h0.ne', Int.emod_lt_of_pos n h0]

/-- A narrowed value is one of the type, where the value before was. -/
theorem Ty.norm_ok (t : Ty) (old v : Value) (h : t.ok old = true) : t.ok (t.norm old v) = true := by
  cases t <;> cases v <;> simp only [Ty.norm, Ty.int] <;> try exact h
  all_goals first
    | exact intOk_signed _ _ (by decide)
    | exact intOk_emod _ _
    | skip
  · simp [Ty.ok]
  · simp only [Ty.ok, intOk_signed 32 _ (by decide), Bool.true_and, decide_eq_true_eq]; split <;> omega
  · simp [Ty.ok, intOk_signed]
  · simp [Ty.ok]
  · simp [Ty.ok]

/-- A row of the dictionary is a row of its area, and covers the entry. -/
theorem Dict.row_mem {k : Nat} {r : Row} (h : Dict.row k = some r) :
    r ∈ Dict.area (k / 65536) ∧ r.hasIndex (k / 256) = true ∧ r.hasSub (k % 256) = true := by
  have h1 := List.mem_of_find?_eq_some h
  have h2 := List.find?_some h
  simp only [Bool.and_eq_true] at h2
  exact ⟨h1, h2⟩

theorem Dict.rows_ok (a : Nat) : ∀ r ∈ Dict.area a, r.ty.ok r.dflt = true := by
  unfold Dict.area
  split <;> decide +kernel

theorem Dict.slot_ok : ∀ r ∈ Dict.area 0x71, ∀ i < r.cnt, ∀ n < 64,
    (match slotDflt n (r.sub + i * r.stride) with
      | some v => r.ty.ok v
      | none => true) = true := by decide +kernel

/-- What the row of an entry says of a value, checked on the row. -/
theorem Dict.row_ok {k : Nat} {r : Row} {v : Value} (h : Dict.row k = some r)
    (hv : (Dict.row k).all (fun r => r.ty.ok v) = true) : r.ty.ok v = true := by
  rw [h] at hv; exact hv

theorem Dict.factory_ok {k : Nat} (h : Dict.isFactory k = true) : (Dict.row k).all (fun r => r.ty.ok (.num 0)) = true := by
  simp only [Dict.isFactory, Bool.or_eq_true, beq_iff_eq] at h
  rcases h with ((h | h) | h) | h <;> subst h <;> decide +kernel

/-- A number of 48 bits is a MAC address. -/
theorem Dict.mac_ok {k : Nat} (h : k = Key.mac.MAC_ADDR 0 ∨ k = Key.mac.MAC_ADDR 1) (n : Int) :
    (Dict.row k).all (fun r => r.ty.ok (.num (n % 2 ^ 48))) = true := by
  have hr : (Dict.row k).all (fun r => r.ty == .u64) = true := by rcases h with rfl | rfl <;> decide +kernel
  cases hk : Dict.row k with
  | none => rfl
  | some r =>
    rw [hk] at hr
    simp only [Option.all_some, beq_iff_eq] at hr ⊢
    rw [hr]
    have h0 := Int.emod_nonneg n (show (2 ^ 48 : Int) ≠ 0 by decide)
    have h1 := Int.emod_lt_of_pos n (show (0 : Int) < 2 ^ 48 by decide)
    simp only [Ty.ok, Ty.int, intOk]
    simp
    omega

theorem Dict.chan_ok : ∀ c < 16, (Dict.row ((0x8000 + c) * 256 + 4)).all (fun r => r.ty.ok (.num (c : Nat))) = true := by
  decide +kernel

theorem Dict.unit_ok {k : Nat} {r : Row} {v : Value} (h : Dict.row k = some r) (hv : Dict.unitDflt k = some v) :
    r.ty.ok v = true := by
  obtain ⟨hm, hi, hs⟩ := Dict.row_mem h
  simp only [Dict.unitDflt] at hv
  split at hv
  · rename_i hk
    have ha : k / 65536 = 0x71 := by omega
    rw [ha] at hm
    simp only [Row.hasSub, Bool.and_eq_true, decide_eq_true_eq, beq_iff_eq] at hs
    have hx : r.sub + (k % 256 - r.sub) / r.stride * r.stride = k % 256 := by
      have := Nat.div_add_mod (k % 256 - r.sub) r.stride
      rw [hs.1.2, Nat.mul_comm] at this
      omega
    have := Dict.slot_ok r hm _ hs.2 (k / 256 - 0x7100) (by omega)
    rw [hx, hv] at this
    exact this
  · split at hv
    · rename_i hk; subst hk; cases hv; exact Dict.row_ok h (by decide +kernel)
    · split at hv
      · rename_i hk
        cases hv
        have : k = 0x300201 ∨ k = 0x300301 ∨ k = 0x300401 := by omega
        rcases this with rfl | rfl | rfl <;> exact Dict.row_ok h (by decide +kernel)
      · split at hv
        · rename_i hk
          cases hv
          have h8 := Dict.chan_ok (k / 256 - 0x8000) (by omega)
          have he : (0x8000 + (k / 256 - 0x8000)) * 256 + 4 = k := by omega
          rw [he] at h8
          exact Dict.row_ok h h8
        · split at hv
          · rename_i hk; subst hk; cases hv; exact Dict.row_ok h (by decide +kernel)
          · cases hv

/-- The default of an entry is a value of its type. -/
theorem Dict.dflt_ok {k : Nat} {r : Row} (h : Dict.row k = some r) : r.ty.ok (Dict.dflt k) = true := by
  simp only [Dict.dflt, h]
  split
  · rename_i hm
    exact Dict.row_ok h (Dict.mac_ok hm _)
  split
  · rename_i hf
    exact Ty.norm_ok _ _ _ (Dict.row_ok h (Dict.factory_ok hf))
  · split
    · rename_i v hv; exact Dict.unit_ok h hv
    · exact Dict.rows_ok _ r (Dict.row_mem h).1

theorem State.typed_of_dict_nil {s : State} (h : s.dict = []) : s.Typed := by
  intro k r hr
  simp only [State.get, h, Tbl.get_nil]
  exact Dict.dflt_ok hr

theorem State.set_typed (s : State) (k : Nat) (v : Value) (h : s.Typed) : (s.set k v).Typed := by
  intro j r hr
  by_cases hk : k = j
  · subst hk
    by_cases ha : r.acc = .const
    · rw [State.set_const s k v fun q hq => by rw [hr] at hq; cases hq; exact ha]
      exact h k r hr
    · rw [State.get_set s k k v hr ha, if_pos rfl]
      exact Ty.norm_ok _ _ _ (h k r hr)
  · rw [State.get_set_ne s k j v hk]
    exact h j r hr

/-- Every effect keeps every entry within its type. -/
theorem State.run_typed (s : State) (es : List Effect) (h : s.Typed) : (s.run es).Typed :=
  State.run_induct (P := State.Typed)
    (fun t e ht => State.apply_induct (P := State.Typed) (fun s k v h => s.set_typed k v h)
      (fun _ _ h => h) (fun _ _ h => h) (fun _ _ _ h => h) t e ht) es s h

theorem State.does_typed (s : State) (p : Phase) (h : s.Typed) : (s.does p).Typed := s.run_typed _ h

end Sys2Proof.Machine
end

