-- ==== Sys2Proof/Tests/Slice0.lean ====
section
/-!
SUPPORT. Tests/Slice0.lean: ill-formed commands that the check refuses; for every statement with hypotheses, states and
operands that meet them; and small tests of one command each, their expected results from the manual.
-/

namespace Sys2Proof.Tests
open Sys2Proof Sys2Proof.Machine

set_option maxRecDepth 100000
set_option Elab.async false

/-! ### Small states -/

/-- A block in a mode, 1000 s after its MTB began, its management controller serving, after some effects. -/
def sys (m : Mode) (es : List Effect) : State :=
  { State.reset with mode := m, mtb := 1000000000000 * 4294967296 }.run
    (.mgmt (fun x => { x with served := true }) :: es)

/-- An open session of an engineer. -/
def xOpen : Session :=
  { role := 2, isOpen := true, key := List.replicate 32 1, peer := { addr := 5, port := 6 } }

/-- A commit of one item, due. -/
def xCommit : Commit := { time := 0, role := 2, items := [(Key.mon.MON_SSRC 0, .num 9)] }

/-- A block in SAFE with session 1. -/
def talk (x : Session) (es : List Effect) : State := sys .safe (.session 1 (fun _ => some x) :: es)

/-- A block in MEASURE with session 1 and channel 0 among the measured. -/
def meas (x : Session) : State := { talk x [.num Key.meas.MEAS_CHANNELS 1] with mode := .measure }

/-- The first request of session 1, with its tag. -/
def msg (op : Nat) (payload : List Byte) : CdlMsg :=
  { peer := xOpen.peer, session := 1, sequence := 1, payload,
    tag := cdlTag xOpen.key (cdlHeader 0 1 1 op 0 payload.length) payload }

/-- A running operation on channel 0. -/
def hAn (op : Nat) : Handle := { op, session := 1, chans := 1, gen := some 3, result := 0x9100 + 63 }

/-- The row of an entry. -/
def rowOf (k : Nat) : Row := (Dict.row k).getD ⟨0, 0, 0, 0, 0, .u8, .const, false, .num 0, [], .none⟩

theorem sys_typed (m : Mode) (es : List Effect) : (sys m es).Typed :=
  State.run_typed _ _ (State.typed_of_dict_nil rfl)

theorem heard {s : State} {x : Session} {op : Nat} {p : List Byte} (h : s.serves = true)
    (hs : soundMsg (msg op p) = true) (hx : s.session 1 = some x)
    (hl : (x.ended = false ∧ x.isOpen = true) ∧ x.peer = xOpen.peer ∧ x.key = xOpen.key ∧ x.sLast = 0) :
    s.Hears op (msg op p) x where
  serves := h
  sound := hs
  session := hx
  live := hl.1
  peer := by rw [hl.2.1]; show samePeer xOpen.peer xOpen.peer = true; decide
  tag := by rw [hl.2.2.1]; rfl
  fresh := by rw [hl.2.2.2]; exact Nat.zero_lt_one

theorem plain_hold : PlainEntry (Key.res.RES_HOLD 0) :=
  ⟨fun v => by cases v <;> rfl, by decide, by decide, fun _ _ => rfl⟩

theorem plain_timeout : PlainEntry Key.ses.SESSION_TIMEOUT :=
  ⟨fun v => by cases v <;> rfl, by decide, by decide, fun _ _ => rfl⟩

theorem plain_ssrc : PlainEntry (Key.mon.MON_SSRC 0) :=
  ⟨fun v => by cases v <;> rfl, by decide, by decide, fun _ _ => rfl⟩

/-! ### Ill-formed commands that the check refuses -/

/-- A write that is in order. -/
def wOk : EntryWrite := ⟨1, 3, .num 0⟩

theorem test_wf_accepts : Instr.wf (.registerWrite 0x1100 2 3 wOk) = true ∧ Instr.wf (.read (msg 0x10 [0, 0, 0, 0])) = true ∧
    Instr.wf (.fanWindow [0, 0, 0, 0]) = true ∧ Instr.wf .powerOnReset = true := by decide +kernel

theorem test_wf_refuses_writes :
    Instr.wf (.modeRequest ⟨65536, 0, .num 0⟩) = false ∧ Instr.wf (.modeRequest ⟨1, 4, .num 0⟩) = false ∧
    Instr.wf (.modeRequest ⟨1, 0, .num (2 ^ 64)⟩) = false ∧ Instr.wf (.modeRequest ⟨1, 0, .coef 0 256⟩) = false ∧
    Instr.wf (.modeRequest ⟨1, 0, .pos (2 ^ 31) 0 0⟩) = false ∧ Instr.wf (.registerWrite 65536 0 0 wOk) = false ∧
    Instr.wf (.registerWrite 0 256 0 wOk) = false ∧ Instr.wf (.registerWrite 0 0 256 wOk) = false ∧
    Instr.wf (.lockoutClear 0 4) = false ∧ Instr.wf (.dtbFenceClear 0 65536 0) = false := by decide +kernel

theorem test_wf_refuses_messages :
    Instr.wf (.read { msg 0x10 [] with tag := [] }) = false ∧ Instr.wf (.read { msg 0x10 [] with session := 65536 }) = false ∧
    Instr.wf (.read { msg 0x10 [] with status := 256 }) = false ∧
    Instr.wf (.read { msg 0x10 [] with peer := { transport := 3 } }) = false ∧
    Instr.wf (.read { msg 0x10 [] with peer := { port := 65536 } }) = false ∧
    Instr.wf (.read { msg 0x10 [] with payload := List.replicate 1441 0 }) = false ∧
    Instr.wf (.unknownOpcode 256 (msg 0x10 [])) = false ∧ Instr.wf (.malformedMessage 3 []) = false ∧
    Instr.wf (.eventSend 65536) = false ∧ Instr.wf (.sessionTimeout 65536) = false ∧
    Instr.wf (.pendingSessionExpiry 65536) = false ∧ Instr.wf (.blockTransferTimeout 65536) = false := by decide +kernel

theorem test_wf_refuses_samples :
    Instr.wf (.sampleStrobe ⟨[]⟩) = false ∧ Instr.wf (.loopTick ⟨[], [], [], 0, [], [], []⟩) = false ∧
    Instr.wf (.loopTick ⟨List.replicate 16 0, List.replicate 16 0, List.replicate 4 0, 0, [], [], []⟩) = false ∧
    Instr.wf (.carrierPeriod 0 0 [(1, 1)]) = false ∧ Instr.wf (.blockBoundary ⟨[], 0⟩) = false ∧
    Instr.wf (.recoveryLoaderImage ⟨true, 2 ^ 32, 0, 0, 0, 0⟩) = false ∧
    Instr.wf (.updateVerifyDone ⟨true, 0, 0, 0, 0, 2 ^ 32⟩) = false ∧ Instr.wf (.calibrationDone 0 32768 0 0 0) = false ∧
    Instr.wf (.laneSelfTest 0 true (2 ^ 32)) = false ∧ Instr.wf (.throttleRise 16 0) = false ∧
    Instr.wf (.startSequence 0 (-1) 0) = false ∧ Instr.wf (.sensorRead [] []) = false ∧
    Instr.wf (.fanWindow [0]) = false := by decide +kernel

theorem test_wf_refuses_wires :
    Instr.wf (.tdmFrame 0 0 0 (List.replicate 33 true)) = false ∧
    Instr.wf (.aes3Frame 0 ⟨false, ⟨2 ^ 24, false, false, true, true⟩, ⟨0, false, false, true, true⟩⟩) = false ∧
    Instr.wf (.linkChange 0 10000 true) = false ∧
    Instr.wf (.streamPacket 0 (List.replicate 1481 0) true) = false ∧ Instr.wf (.igmpQuery 0 4 0) = false ∧
    Instr.wf (.arpPacket 0 1 (2 ^ 32) 0 0) = false ∧ Instr.wf (.icmpEcho 0 (2 ^ 32) []) = false ∧
    Instr.wf (.dhcpMessage 0 1 0 33 0) = false ∧ Instr.wf (.addressConflict 0 (2 ^ 32)) = false ∧
    Instr.wf (.canFrameReceive 2048 true false []) = false ∧ Instr.wf (.canStateChange 4 0 0) = false ∧
    Instr.wf (.syncMeasurement 0 0 0 128) = false ∧ Instr.wf (.announceReceive 0 (2 ^ 64)) = false := by decide +kernel

/-! ### Hypotheses that are met -/

/-- States and operands that meet the hypotheses of PowerOnAndResetPinEnterBoot. -/
theorem witness_PowerOnAndResetPinEnterBoot :
    (∃ (s : State) (ns : Nat), s.units.pins.resetN = true ∧ 10000 ≤ ns) ∧
    (∃ (s : State) (ns : Nat), (s.units.pins.resetN = false ∨ ns ≤ 1000)) :=
  ⟨⟨sys .run [.pins fun p => { p with resetN := true }], 10000, by decide +kernel⟩,
   ⟨sys .run [.pins fun p => { p with resetN := true }], 1000, by decide +kernel⟩⟩

/-- States and operands that meet the hypotheses of DawnSequenceBegins. -/
theorem witness_DawnSequenceBegins :
    (∃ (s : State), s.mode = .boot ∧ s.units.pins.resetN = false) ∧
    (∃ (s : State), s.units.pins.xref = false ∧ s.units.pins.dawnWait = true) ∧
    (∃ (s : State) (x : ImageInfo), s.mode = .boot ∧ s.units.pins.recovery = true ∧ x.ok = true ∧ s.secStored ≤ x.security) :=
  ⟨⟨sys .boot [.pins fun p => { p with resetN := false }], by decide +kernel⟩,
   ⟨sys .boot [.pins fun p => { p with xref := false, dawnWait := true }], by decide +kernel⟩,
   ⟨sys .boot [.pins fun p => { p with recovery := true }], ⟨true, 5, 0, 1, 1, 1⟩, by decide +kernel⟩⟩

/-- States and operands that meet the hypotheses of DawnDoneEntersSafe. -/
theorem witness_DawnDoneEntersSafe :
    (∃ (s : State) (x : DawnResult) (b : Nat), s.mode = .boot ∧ s.units.pins.resetN = true ∧ s.units.pins.dawnAt.isSome = true ∧ s.units.pins.dawnWait = false ∧ s.loadedBank x = some b) ∧
    (∃ (s : State) (x : DawnResult), s.mode = .boot ∧ s.units.pins.resetN = true ∧ s.units.pins.dawnAt.isSome = true ∧ s.units.pins.dawnWait = false ∧ s.loadedBank x = none) ∧
    (∃ (s : State), s.mode = .safe ∧ s.units.mgmt.startDone = false ∧ s.units.mgmt.setupTo = none ∧ s.layoutForbids = false ∧ s.atBoundary = true ∧ s.units.mgmt.startTo ∈ [2, 3]) :=
  ⟨⟨sys .boot [.pins fun p => { p with resetN := true, dawnAt := some 0, dawnWait := false }], ⟨true, true, true, [], 250⟩, 0, by decide +kernel⟩,
   ⟨sys .boot [.pins fun p => { p with resetN := true, dawnAt := some 0, dawnWait := false }], ⟨false, false, true, [], 250⟩, by decide +kernel⟩,
   ⟨sys .safe [.mgmt fun m => { m with startTo := 3 }], by decide +kernel⟩⟩

/-- States and operands that meet the hypotheses of WaitingWritesAreAccepted. -/
theorem witness_WaitingWritesAreAccepted :
    (∃ (s : State) (w : EntryWrite), s.Accepts w Key.mode.MODE_REQUEST) ∧
    (∃ (s : State) (w : EntryWrite), s.Accepts w Key.ref.REF_DOMAIN) ∧
    (∃ (s : State) (w : EntryWrite), s.Accepts w Key.meas.MEAS_CHANNELS) ∧
    (∃ (s : State) (w : EntryWrite) (d : _), s.Accepts w (Key.dtb.DOMAIN_NUMBER d)) ∧
    (∃ (s : State) (w : EntryWrite) (a : _), s.Accepts w (Key.act.ACT_STATE a)) ∧
    (∃ (s : State) (w : EntryWrite) (g : _), s.Accepts w (Key.sg.SG_STATE g)) ∧
    (∃ (s : State) (w : EntryWrite) (g : _), s.Accepts w (Key.sg.SG_GO g)) ∧
    (∃ (s : State) (w : EntryWrite) (n : _), s.Accepts w (Key.ls.STATE_REQ n)) ∧
    (∃ (s : State) (w : EntryWrite) (n : _), s.Accepts w (Key.ls.MAN n)) ∧
    (∃ (s : State) (w : EntryWrite) (g : _), s.Accepts w (Key.fl.FL_ENABLE g)) ∧
    (∃ (s : State) (w : EntryWrite) (c : _), s.Accepts w (Key.pw.CH_EN c)) ∧
    (∃ (s : State) (w : EntryWrite) (g : _), s.Accepts w (Key.gen.G_STATE g)) ∧
    (∃ (s : State) (w : EntryWrite) (k : _), s.Accepts w (Key.cap.C_STATE k)) :=
  ⟨⟨sys .safe [], ⟨1, 2, .num 4⟩, by unfold State.Accepts; decide +kernel⟩,
   ⟨sys .safe [], ⟨1, 2, .num 3⟩, by unfold State.Accepts; decide +kernel⟩,
   ⟨sys .safe [], ⟨1, 2, .num 65535⟩, by unfold State.Accepts; decide +kernel⟩,
   ⟨sys .safe [], ⟨1, 2, .num 12⟩, 3, by unfold State.Accepts; decide +kernel⟩,
   ⟨sys .safe [.num (Key.act.ACT_STATE 63) 1], ⟨1, 2, .num 0⟩, 63, by unfold State.Accepts; decide +kernel⟩,
   ⟨sys .safe [], ⟨1, 2, .num 1⟩, 7, by unfold State.Accepts; decide +kernel⟩,
   ⟨sys .safe [], ⟨1, 2, .num 0⟩, 7, by unfold State.Accepts; decide +kernel⟩,
   ⟨sys .safe [], ⟨1, 2, .num 1⟩, 63, by unfold State.Accepts; decide +kernel⟩,
   ⟨sys .safe [], ⟨1, 2, .num (-2147483648)⟩, 63, by unfold State.Accepts; decide +kernel⟩,
   ⟨sys .safe [], ⟨1, 2, .num 0⟩, 3, by unfold State.Accepts; decide +kernel⟩,
   ⟨sys .safe [], ⟨1, 2, .num 0⟩, 15, by unfold State.Accepts; decide +kernel⟩,
   ⟨sys .safe [], ⟨1, 2, .num 0⟩, 3, by unfold State.Accepts; decide +kernel⟩,
   ⟨sys .safe [], ⟨1, 2, .num 0⟩, 7, by unfold State.Accepts; decide +kernel⟩⟩

/-- States and operands that meet the hypotheses of RefusedWritesChangeNothing. -/
theorem witness_RefusedWritesChangeNothing :
    (∃ (s : State) (index : Nat) (sub : Nat) (ty : Nat) (t' : Ty) (w : EntryWrite) (r : Row), Ty.ofCode ty = some t' ∧ Dict.row (index * 256 + sub) = some r ∧ s.serves = true ∧ s.writeStatus w.writer (index * 256 + sub) (some t') w.value ≠ St.ok ∧ (r.acc ≠ .rws ∨ firstFault (s.headFaults w.writer (index * 256 + sub) (some t') w.value) ≠ St.ok ∨ (s.txn w.session).isSome = true)) ∧
    (∃ (s : State) (index : Nat) (sub : Nat) (ty : Nat) (t' : Ty) (w : EntryWrite) (r : Row), Ty.ofCode ty = some t' ∧ Dict.row (index * 256 + sub) = some r ∧ s.serves = true ∧ s.writeStatus w.writer (index * 256 + sub) (some t') w.value ≠ St.ok ∧ r.acc = .rws) ∧
    (∃ (s : State) (index : Nat) (sub : Nat) (ty : Nat) (t' : Ty) (r : Row), Ty.ofCode ty = some t' ∧ Dict.row (index * 256 + sub) = some r ∧ s.serves = false) :=
  ⟨⟨sys .safe [], 0x1100, 2, 3, .u16, ⟨1, 2, .num 4⟩, rowOf Key.ses.SESSION_TIMEOUT, by decide +kernel⟩,
   ⟨talk xOpen [], Key.lay.SPEAKER_COUNT / 256, Key.lay.SPEAKER_COUNT % 256, 3, (rowOf Key.lay.SPEAKER_COUNT).ty, ⟨1, 2, .num 3⟩, rowOf Key.lay.SPEAKER_COUNT, by decide +kernel⟩,
   ⟨sys .boot [], 0x1100, 2, 3, .u16, rowOf Key.ses.SESSION_TIMEOUT, by decide +kernel⟩⟩

/-- States and operands that meet the hypotheses of AcceptedRegisterWriteTakesOrWaits. -/
theorem witness_AcceptedRegisterWriteTakesOrWaits :
    (∃ (s : State) (index : Nat) (sub : Nat) (ty : Nat) (t' : Ty) (w : EntryWrite) (r : Row), PlainEntry (index * 256 + sub) ∧ Ty.ofCode ty = some t' ∧ Dict.row (index * 256 + sub) = some r ∧ r.acc ≠ .const ∧ r.ty.ok w.value = true ∧ r.ty ≠ .blob ∧ s.serves = true ∧ s.writeStatus w.writer (index * 256 + sub) (some t') w.value = St.ok ∧ r.eff = .acc) ∧
    (∃ (s : State) (index : Nat) (sub : Nat) (ty : Nat) (t' : Ty) (w : EntryWrite) (r : Row) (b : _), PlainEntry (index * 256 + sub) ∧ Ty.ofCode ty = some t' ∧ Dict.row (index * 256 + sub) = some r ∧ r.acc ≠ .const ∧ r.ty.ok w.value = true ∧ r.ty ≠ .blob ∧ s.serves = true ∧ s.writeStatus w.writer (index * 256 + sub) (some t') w.value = St.ok ∧ r.eff = .block b) :=
  ⟨⟨sys .safe [], 0x9100, 11, 1, .bool, ⟨1, 2, .num 1⟩, rowOf (Key.res.RES_HOLD 0), plain_hold, by decide +kernel⟩,
   ⟨sys .safe [], 0x1100, 2, 3, .u16, ⟨1, 2, .num 5⟩, rowOf Key.ses.SESSION_TIMEOUT, true, plain_timeout, by decide +kernel⟩⟩

/-- States and operands that meet the hypotheses of WaitingWriteTakesEffectAtBoundary. -/
theorem witness_WaitingWriteTakesEffectAtBoundary :
    (∃ (s : State) (k : Nat) (v : Value) (n : Nat) (role : Nat) (r : Row), PlainEntry k ∧ s.units.mgmt.served = true ∧ s.mode ≠ .boot ∧ s.atBoundary = true ∧ s.units.waiting = [⟨k, v, role, n⟩] ∧ Dict.row k = some r ∧ r.acc ≠ .const ∧ r.ty.ok v = true ∧ r.ty ≠ .blob) ∧
    (∃ (s : State), (s.units.mgmt.served = false ∨ s.atBoundary = false)) ∧
    (∃ (s : State) (n : Nat) (role : Nat) (v : Int) (i : Fin 64), s.units.mgmt.served = true ∧ s.mode ≠ .boot ∧ s.atBoundary = true ∧ s.units.waiting = [⟨Key.ls.STATE_REQ i, .num v, role, n⟩] ∧ v ∈ [0, 1]) ∧
    (∃ (s : State) (n : Nat) (role : Nat) (v : Int) (i : Fin 64), s.units.mgmt.served = true ∧ s.mode ≠ .boot ∧ s.atBoundary = true ∧ s.units.waiting = [⟨Key.ls.MAN i, .num v, role, n⟩] ∧ -2 ^ 31 ≤ v ∧ v < 2 ^ 31) ∧
    (∃ (s : State) (n : Nat) (role : Nat) (v : Int) (c : Fin 16), s.units.mgmt.served = true ∧ s.mode ≠ .boot ∧ s.atBoundary = true ∧ s.units.waiting = [⟨Key.pw.CH_EN c, .num v, role, n⟩] ∧ v ∈ [0, 1]) ∧
    (∃ (s : State) (n : Nat) (role : Nat) (v : Int) (g : Fin 4), s.units.mgmt.served = true ∧ s.mode ≠ .boot ∧ s.atBoundary = true ∧ s.units.waiting = [⟨Key.fl.FL_ENABLE g, .num v, role, n⟩] ∧ v ∈ [0, 1]) ∧
    (∃ (s : State) (n : Nat) (role : Nat) (v : Int) (d : Fin 4), s.units.mgmt.served = true ∧ s.mode ≠ .boot ∧ s.atBoundary = true ∧ s.units.waiting = [⟨Key.dtb.DOMAIN_NUMBER d, .num v, role, n⟩] ∧ 0 ≤ v ∧ v < 256) ∧
    (∃ (s : State) (n : Nat) (role : Nat) (v : Int) (a : Fin 64), s.units.mgmt.served = true ∧ s.mode ≠ .boot ∧ s.atBoundary = true ∧ s.units.waiting = [⟨Key.act.ACT_STATE a, .num v, role, n⟩] ∧ v ∈ [0, 1]) ∧
    (∃ (s : State) (n : Nat) (role : Nat) (v : Int) (g : Fin 8), s.units.mgmt.served = true ∧ s.mode ≠ .boot ∧ s.atBoundary = true ∧ s.units.waiting = [⟨Key.sg.SG_STATE g, .num v, role, n⟩] ∧ v ∈ [0, 1]) ∧
    (∃ (s : State) (n : Nat) (role : Nat) (v : Int) (g : Fin 8), s.units.mgmt.served = true ∧ s.mode ≠ .boot ∧ s.atBoundary = true ∧ s.units.waiting = [⟨Key.sg.SG_GO g, .num v, role, n⟩] ∧ 0 ≤ v ∧ s.num (Key.sg.SG_STATE g) = 1 ∧ s.num (Key.sg.SG_TRIGGER g) = 0) ∧
    (∃ (s : State) (n : Nat) (role : Nat) (v : Int), s.units.mgmt.served = true ∧ s.mode ≠ .boot ∧ s.atBoundary = true ∧ s.units.waiting = [⟨Key.meas.MEAS_CHANNELS, .num v, role, n⟩] ∧ 0 ≤ v ∧ v < 65536) ∧
    (∃ (s : State) (n : Nat) (role : Nat) (v : Int) (g : Fin 4), s.units.mgmt.served = true ∧ s.mode ≠ .boot ∧ s.atBoundary = true ∧ s.units.waiting = [⟨Key.gen.G_STATE g, .num v, role, n⟩] ∧ v ∈ [1, 2] ∧ s.genState g = 0 ∧ s.genRefused g = none) ∧
    (∃ (s : State) (n : Nat) (role : Nat) (v : Int) (k : Fin 8), s.units.mgmt.served = true ∧ s.mode ≠ .boot ∧ s.atBoundary = true ∧ s.units.waiting = [⟨Key.cap.C_STATE k, .num v, role, n⟩] ∧ v ∈ [0, 1] ∧ (s.does (cStateEffect k 0)).capRefused k = none) :=
  ⟨⟨sys .safe [.unit fun u => { u with waiting := [⟨Key.ses.SESSION_TIMEOUT, .num 3600, 2, 1⟩] }], Key.ses.SESSION_TIMEOUT, .num 3600, 1, 2, rowOf Key.ses.SESSION_TIMEOUT, plain_timeout, by decide +kernel⟩,
   ⟨sys .safe [.mgmt fun m => { m with served := false }], by decide +kernel⟩,
   ⟨sys .run [.unit fun u => { u with waiting := [⟨Key.ls.STATE_REQ 63, .num (1), 2, 1⟩] }], 1, 2, 1, 63, by decide +kernel⟩,
   ⟨sys .run [.unit fun u => { u with waiting := [⟨Key.ls.MAN 63, .num (-2147483648), 2, 1⟩] }], 1, 2, -2147483648, 63, by decide +kernel⟩,
   ⟨sys .run [.unit fun u => { u with waiting := [⟨Key.pw.CH_EN 15, .num (1), 2, 1⟩] }], 1, 2, 1, 15, by decide +kernel⟩,
   ⟨sys .run [.unit fun u => { u with waiting := [⟨Key.fl.FL_ENABLE 3, .num (0), 2, 1⟩] }, .num (Key.fl.FL_STATE 3) 2], 1, 2, 0, 3, by decide +kernel⟩,
   ⟨sys .run [.unit fun u => { u with waiting := [⟨Key.dtb.DOMAIN_NUMBER 3, .num (255), 2, 1⟩] }, .tbase 3 fun x => { x with count := 5 }], 1, 2, 255, 3, by decide +kernel⟩,
   ⟨sys .run [.unit fun u => { u with waiting := [⟨Key.act.ACT_STATE 63, .num (1), 2, 1⟩] }], 1, 2, 1, 63, by decide +kernel⟩,
   ⟨sys .run [.unit fun u => { u with waiting := [⟨Key.sg.SG_STATE 7, .num (0), 2, 1⟩] }, .sg 7 fun x => { x with fixed := some 3 }], 1, 2, 0, 7, by decide +kernel⟩,
   ⟨sys .run [.unit fun u => { u with waiting := [⟨Key.sg.SG_GO 7, .num (9), 2, 1⟩] }, .num (Key.sg.SG_STATE 7) 1], 1, 2, 9, 7, by decide +kernel⟩,
   ⟨sys .run [.unit fun u => { u with waiting := [⟨Key.meas.MEAS_CHANNELS, .num (65535), 2, 1⟩] }], 1, 2, 65535, by decide +kernel⟩,
   ⟨sys .measure [.num (Key.gen.G_DURATION 3) 0, .unit fun u => { u with waiting := [⟨Key.gen.G_STATE 3, .num (2), 2, 1⟩] }], 1, 2, 2, 3, by decide +kernel⟩,
   ⟨sys .run [.unit fun u => { u with waiting := [⟨Key.cap.C_STATE 7, .num (1), 2, 1⟩] }], 1, 2, 1, 7, by decide +kernel⟩⟩

/-- States and operands that meet the hypotheses of DueCommitIsApplied. -/
theorem witness_DueCommitIsApplied :
    (∃ (s : State) (n : Nat) (x : Session) (c : Commit) (k : Nat) (v : Value) (r : Row), PlainEntry k ∧ PlainCommit k ∧ s.units.mgmt.served = true ∧ s.mode ≠ .boot ∧ s.atBoundary = true ∧ s.units.sessions = [(n, some x)] ∧ x.ended = false ∧ x.ownCommits = [] ∧ x.commit = some c ∧ c.late = false ∧ (c.untimed = true ∨ c.time ≤ s.blockTime) ∧ c.items = [(k, v)] ∧ Dict.row k = some r ∧ r.acc ≠ .const ∧ r.ty.ok v = true ∧ r.ty ≠ .blob ∧ (s.run [.session n fun y => y.map fun y => { y with ownCommits := [], commit := none }]).commitOutcome ⟨n, c.role⟩ c.items = (St.ok, 0)) ∧
    (∃ (s : State) (h : Nat) (x : Handle) (k : Nat) (r : Row), PlainEntry k ∧ PlainCommit k ∧ s.units.mgmt.served = true ∧ s.atBoundary = true ∧ s.units.mgmt.restoreDue = some h ∧ s.handle h = some x ∧ x.finished = false ∧ s.toDefaults = [(k, Dict.dflt k)] ∧ Dict.row k = some r ∧ r.acc ≠ .const ∧ r.ty.ok (Dict.dflt k) = true ∧ r.ty ≠ .blob ∧ r.p = true) :=
  ⟨⟨talk { xOpen with commit := some xCommit } [], 1, { xOpen with commit := some xCommit }, xCommit, Key.mon.MON_SSRC 0, .num 9, rowOf (Key.mon.MON_SSRC 0), plain_ssrc, by unfold PlainCommit; decide +kernel, by decide +kernel⟩,
   ⟨sys .safe [.mgmt fun m => { m with restoreDue := some 1 }, .handle 1 fun _ => some { op := 0x0B30, session := 1 }, .num (Key.mon.MON_SSRC 0) 9], 1, { op := 0x0B30, session := 1 }, Key.mon.MON_SSRC 0, rowOf (Key.mon.MON_SSRC 0), plain_ssrc, by unfold PlainCommit; decide +kernel, by decide +kernel⟩⟩

/-- States and operands that meet the hypotheses of MeasurementPowerNeedsARole. -/
theorem witness_MeasurementPowerNeedsARole :
    (∃ (s : State) (w : EntryWrite), s.serves = true ∧ w.role ≤ 3 ∧ w.role < 2) ∧
    (∃ (s : State) (w : EntryWrite), s.serves = true ∧ w.role ≤ 3 ∧ 2 ≤ w.role) :=
  ⟨⟨sys .safe [], ⟨1, 1, .num 1000⟩, by decide +kernel⟩,
   ⟨sys .safe [], ⟨1, 2, .num 1000⟩, by decide +kernel⟩⟩

/-- States and operands that meet the hypotheses of FollowingErrorActionNeedsAnOwner. -/
theorem witness_FollowingErrorActionNeedsAnOwner :
    (∃ (s : State) (n : Fin 64) (w : Writer), ((∀ x ∈ s.units.waiting, x.key ≠ Key.ls.OWNER_CH n)) ∧ s.num (Key.ls.OWNER_CH n) = 0xFF ∧ w.role ∈ [2, 3] ∧ s.areaOwned w.session (Key.ls.FE_ACTION n) = false) :=
  ⟨sys .safe [], 63, ⟨1, 2⟩, by decide +kernel⟩

/-- States and operands that meet the hypotheses of HoldoverFollowsTheLock. -/
theorem witness_HoldoverFollowsTheLock :
    (∃ (s : State), s.mode = .run ∧ s.num Key.lock.LOCK_STATE = 3 ∧ s.units.mgmt.served = true ∧ s.atBoundary = true ∧ s.passed s.units.mgmt.holdSince 3000000000 = true) ∧
    (∃ (s : State), s.mode = .holdover ∧ s.num Key.lock.LOCK_STATE ≠ 3 ∧ s.units.mgmt.served = true ∧ s.atBoundary = true) ∧
    (∃ (s : State), s.mode = .holdover ∧ s.num Key.lock.LOCK_STATE = 3 ∧ s.units.mgmt.served = true ∧ s.atBoundary = true ∧ s.nat Key.hold.HOLDOVER_MAX * 1000 ≤ s.holdoverElapsed) ∧
    (∃ (s : State), (s.mode ≠ .run ∨ s.atBoundary = false)) ∧
    (∃ (s : State), (s.mode ≠ .holdover ∨ s.atBoundary = false)) ∧
    (∃ (s : State), (s.mode ≠ .holdover ∨ s.atBoundary = false)) :=
  ⟨⟨sys .run [.num Key.lock.LOCK_STATE 3, .mgmt fun m => { m with holdSince := some 997000000000 }], by decide +kernel⟩,
   ⟨sys .holdover [.num Key.lock.LOCK_STATE 2], by decide +kernel⟩,
   ⟨sys .holdover [.num Key.lock.LOCK_STATE 3, .num Key.hold.HOLDOVER_MAX 10, .anchor fun a => { a with lossAt := some 990000000000 }], by decide +kernel⟩,
   ⟨sys .safe [], by decide +kernel⟩,
   ⟨sys .safe [], by decide +kernel⟩,
   ⟨sys .safe [], by decide +kernel⟩⟩

/-- States and operands that meet the hypotheses of RequestedModesAreEntered. -/
theorem witness_RequestedModesAreEntered :
    (∃ (s : State) (v : Nat) (reason : Nat), s.mode = .safe ∧ s.units.mgmt.setupTo = some (v, reason) ∧ v ∈ [2, 3, 4] ∧ s.units.mgmt.served = true ∧ s.atBoundary = true) ∧
    (∃ (s : State) (reason : Nat), (s.mode = .standby ∨ s.mode = .measure) ∧ s.units.mgmt.runWait = some reason ∧ reason ≤ 7 ∧ s.units.mgmt.served = true ∧ s.atBoundary = true ∧ s.lockOk = true) ∧
    (∃ (s : State) (reason : Nat), (s.mode = .standby ∨ s.mode = .measure) ∧ s.units.mgmt.runWait = some reason ∧ reason ≤ 7 ∧ s.units.mgmt.served = true ∧ s.atBoundary = true ∧ s.lockOk = false) ∧
    (∃ (s : State) (v : Nat) (role : Nat) (n : Nat), s.mode ≠ .boot ∧ s.units.mgmt.served = true ∧ s.atBoundary = true ∧ s.units.mgmt.waitMode = none ∧ s.units.waiting = [⟨Key.mode.MODE_REQUEST, .num v, role, n⟩] ∧ v ∈ [1, 2, 3, 4]) :=
  ⟨⟨sys .safe [.mgmt fun m => { m with setupTo := some (4, 1) }], 4, 1, by decide +kernel⟩,
   ⟨sys .standby [.num Key.lock.LOCK_STATE 2, .mgmt fun m => { m with runWait := some 1 }], 1, by decide +kernel⟩,
   ⟨sys .measure [.num Key.lock.LOCK_STATE 1, .num Key.ref.REF_SOURCE 1, .mgmt fun m => { m with runWait := some 1 }], 1, by decide +kernel⟩,
   ⟨sys .standby [.unit fun u => { u with waiting := [⟨Key.mode.MODE_REQUEST, .num 4, 2, 1⟩] }], 4, 2, 1, by decide +kernel⟩⟩

/-- States and operands that meet the hypotheses of ControlPinsAct. -/
theorem witness_ControlPinsAct :
    (∃ (s : State), s.units.pins.muteN = true) ∧
    (∃ (s : State), s.units.pins.muteN = false) ∧
    (∃ (s : State), s.units.pins.muteN = false) ∧
    (∃ (s : State), s.units.pins.engageN = false) ∧
    (∃ (s : State), s.units.pins.engageN = false) ∧
    (∃ (s : State), s.units.pins.engageN = true) ∧
    (∃ (s : State), s.units.pins.withdrawing = true ∧ s.allReleased = true) ∧
    (∃ (s : State), s.units.pins.muteN = true) ∧
    (∃ (s : State), s.units.pins.engageN = true) :=
  ⟨⟨sys .run [], by decide +kernel⟩,
   ⟨sys .run [.pins fun p => { p with muteN := false }], by decide +kernel⟩,
   ⟨sys .run [.pins fun p => { p with muteN := false }], by decide +kernel⟩,
   ⟨sys .run [.pins fun p => { p with engageN := false }], by decide +kernel⟩,
   ⟨sys .run [.pins fun p => { p with engageN := false }], by decide +kernel⟩,
   ⟨sys .run [], by decide +kernel⟩,
   ⟨sys .safe [.pins fun p => { p with withdrawing := true }], by decide +kernel⟩,
   ⟨sys .run [], by decide +kernel⟩,
   ⟨sys .run [.pins fun p => { p with engageN := true }], by decide +kernel⟩⟩

/-- States and operands that meet the hypotheses of HotSwapControllerSteps. -/
theorem witness_HotSwapControllerSteps :
    (∃ (s : State) (g : Fin 4), s.Typed ∧ s.hsState g = 1 ∧ s.passed s.hsMet (32000000 * g) = true ∧ s.dieReady g = true) ∧
    (∃ (s : State) (g : Fin 4) (t0 : _), s.Typed ∧ s.hsState g = 4 ∧ (s.group g).hsRetryAt = some t0 ∧ t0 ≤ s.mtbNs ∧ s.passed s.hsMet 0 = true ∧ s.dieReady g = true) ∧
    (∃ (s : State) (g : Fin 4) (mv : _), s.Typed ∧ s.hsState g = 2 ∧ 23000 ≤ mv) ∧
    (∃ (s : State) (g : Fin 4), s.Typed ∧ s.hsState g = 3) ∧
    (∃ (s : State) (g : Fin 4), s.Typed ∧ (s.hsState g = 2 ∨ s.hsState g = 3) ∧ s.nat (Key.hs.HS_FAULTS_PG g) < 3) ∧
    (∃ (s : State) (g : Fin 4) (w : EntryWrite) (m : Nat), s.Typed ∧ s.Accepts w Key.hs.HS_CLEAR ∧ w.value = .num m ∧ m.testBit g = true) :=
  ⟨⟨sys .safe [.group 3 fun x => { x with vauxUp := true }, .num (Key.hs.HS_STATE_PG 3) 1, .mgmt fun m => { m with safeAt := some 1 }, .pins fun p => { p with engageLow := some 0 }], 3, sys_typed _ _, by decide +kernel⟩,
   ⟨sys .safe [.num (Key.hs.HS_STATE_PG 3) 4, .mgmt fun m => { m with safeAt := some 1 }, .pins fun p => { p with engageLow := some 0 }, .group 3 fun x => { x with hsRetryAt := some 1000000000000, vauxUp := true }], 3, 1000000000000, sys_typed _ _, by decide +kernel⟩,
   ⟨sys .safe [.num (Key.hs.HS_STATE_PG 0) 2], 0, 23000, sys_typed _ _, by decide +kernel⟩,
   ⟨sys .safe [.num (Key.hs.HS_STATE_PG 0) 3], 0, sys_typed _ _, by decide +kernel⟩,
   ⟨sys .safe [.num (Key.hs.HS_STATE_PG 0) 3, .num (Key.hs.HS_FAULTS_PG 0) 2], 0, sys_typed _ _, by decide +kernel⟩,
   ⟨sys .safe [.num (Key.hs.HS_FAULTS_PG 3) 3, .num (Key.hs.HS_STATE_PG 3) 5], 3, ⟨1, 2, .num 8⟩, 8, sys_typed _ _, by unfold State.Accepts; decide +kernel, by decide +kernel⟩⟩

/-- States and operands that meet the hypotheses of SnapshotLatchesTheTimeBases. -/
theorem witness_SnapshotLatchesTheTimeBases :
    (∃ (s : State) (m : Fin 2) (rx : Bool), s.linkUp m = true ∧ ((rx = true ∨ (s.mac m).passing.isSome = true))) :=
  ⟨sys .run [.num (Key.mac.LINK_STATE 1) 1], 1, true, by decide +kernel⟩

/-- States and operands that meet the hypotheses of ClockEntriesTakeTheirWrites. -/
theorem witness_ClockEntriesTakeTheirWrites :
    (∃ (s : State) (w : EntryWrite), s.Accepts w Key.snap.SNAP_REQ ∧ w.value = .num 1) ∧
    (∃ (s : State) (w : EntryWrite) (n : Nat), s.Accepts w Key.ref.TOD_SET ∧ w.value = .num n) ∧
    (∃ (s : State) (w : EntryWrite) (n : _), s.Accepts w Key.mtb.INC ∧ w.value = .num n) ∧
    (∃ (s : State) (d : Fin 4) (n : Nat) (role : Nat), s.Accepts (⟨n, role, .num (0x08000000 + d.val : Nat)⟩ : EntryWrite) Key.fence.FENCE_CLEAR_CMD ∧ (⟨n, role, .num (0x08000000 + d.val : Nat)⟩ : EntryWrite).value = .num (0x08000000 + d.val : Nat) ∧ (s.tbase d).fenced = true) :=
  ⟨⟨sys .run [], ⟨1, 2, .num 1⟩, by unfold State.Accepts; decide +kernel, by decide +kernel⟩,
   ⟨sys .safe [.num Key.ref.REF_SOURCE 1], ⟨1, 2, .num 77⟩, 77, by unfold State.Accepts; decide +kernel, by decide +kernel⟩,
   ⟨sys .run [.num Key.ref.REF_SOURCE 0], ⟨1, 2, .num incNom⟩, incNom, by unfold State.Accepts; decide +kernel, by decide +kernel⟩,
   ⟨sys .run [.tbase 3 fun x => { x with fenced := true }], 3, 1, 2, by unfold State.Accepts; decide +kernel, by decide +kernel⟩⟩

/-- States and operands that meet the hypotheses of PtpMessagesAreUsed. -/
theorem witness_PtpMessagesAreUsed :
    (∃ (s : State) (d : Fin 4) (m : Fin 2) (t1 : Nat), s.dtbOn d = true ∧ s.units.mgmt.served = true ∧ (s.tbase d).fenced = false ∧ s.dtbMac d = m ∧ (s.tbase d).onN1 = (m.val == 1) ∧ s.nat (lockKey d) ∈ [1, 2] ∧ (s.tbase d).estimating = false ∧ (s.tbase d).stepNext = false ∧ |s.rxSfd m d - (t1 + s.num (Key.dtb.PATH_DELAY d)) - (s.tbase d).pred| ≤ s.num Key.servo.OUTLIER_LIMIT) ∧
    (∃ (s : State) (d : Fin 4) (m : Fin 2) (t1 : Nat), s.dtbOn d = true ∧ s.units.mgmt.served = true ∧ (s.tbase d).fenced = false ∧ s.dtbMac d = m ∧ (s.tbase d).onN1 = (m.val == 1) ∧ s.follows d = true ∧ s.nat Key.lock.LOCK_STATE ∈ [1, 2] ∧ (s.tbase 4).estimating = false ∧ (s.tbase 4).stepNext = false ∧ s.units.anchor.slewing = false ∧ s.units.anchor.phase = 0 ∧ s.units.anchor.second = none ∧ |s.rxSfd m 4 - (t1 + s.num (Key.dtb.PATH_DELAY d)) - (s.tbase 4).pred| ≤ s.num Key.servo.OUTLIER_LIMIT) ∧
    (∃ (s : State) (d : Fin 4) (ns : Nat) (t3 : Int) (t1 : Int) (t2 : Int), s.dtbOn d = true ∧ s.units.mgmt.served = true ∧ (s.tbase d).fenced = false ∧ s.num (Key.dtb.DELAY_MECH d) ≠ 1 ∧ (s.tbase d).request = some t3 ∧ (s.tbase d).sync = some (t1, t2) ∧ 0 ≤ t2 - t1 + (ns - t3) ∧ t2 - t1 + (ns - t3) < 2 ^ 32) ∧
    (∃ (s : State) (d : Fin 4) (gm : Nat), s.dtbOn d = true ∧ s.units.mgmt.served = true ∧ gm < 2 ^ 64 ∧ s.nat (Key.dtb.GM_IDENTITY d) ≠ gm) ∧
    (∃ (s : State) (d : Fin 4) (m : _), s.dtbOn d = true ∧ s.units.mgmt.served = true ∧ m < 2 ∧ s.dtbMac d = m) ∧
    (∃ (s : State) (d : Fin 4), s.dtbOn d = true ∧ s.units.mgmt.served = true ∧ s.nat (Key.dtb.PTP_PORT d) = 2 ∧ (s.tbase d).onN1 = true) ∧
    (∃ (s : State) (d : Fin 4), s.dtbOn d = true ∧ s.units.mgmt.served = true ∧ s.nat (Key.dtb.PTP_PORT d) = 2 ∧ (s.tbase d).onN1 = false ∧ s.syncLate d = true) :=
  ⟨⟨sys .run [.num (Key.dtb.DOMAIN_NUMBER 3) 12, .num (Key.dtb.DOMAIN_LOCK 3) 2], 3, 0, 5, by decide +kernel⟩,
   ⟨sys .run [.num (Key.dtb.DOMAIN_NUMBER 3) 12, .num Key.ref.REF_SOURCE 1, .num Key.ref.REF_DOMAIN 3, .num Key.lock.LOCK_STATE 2, .num Key.lock.SOURCE_STATE 1], 3, 0, 5, by decide +kernel⟩,
   ⟨sys .run [.num (Key.dtb.DOMAIN_NUMBER 3) 12, .tbase 3 fun x => { x with request := some 5, sync := some (1, 2) }], 3, 1003, 5, 1, 2, by decide +kernel⟩,
   ⟨sys .run [.num (Key.dtb.DOMAIN_NUMBER 3) 12], 3, 18446744073709551615, by decide +kernel⟩,
   ⟨sys .run [.num (Key.dtb.DOMAIN_NUMBER 3) 12, .num (Key.dtb.PTP_PORT 3) 1], 3, 1, by decide +kernel⟩,
   ⟨sys .run [.num (Key.dtb.DOMAIN_NUMBER 3) 12, .num (Key.dtb.PTP_PORT 3) 2, .tbase 3 fun x => { x with onN1 := true }], 3, by decide +kernel⟩,
   ⟨sys .run [.num (Key.dtb.DOMAIN_NUMBER 3) 12, .num (Key.dtb.PTP_PORT 3) 2], 3, by decide +kernel⟩⟩

/-- States and operands that meet the hypotheses of LossOfTheSourceIsHeld. -/
theorem witness_LossOfTheSourceIsHeld :
    (∃ (s : State) (d : Fin 4), s.Typed ∧ s.units.anchor.lossAt = none ∧ s.num Key.lock.SOURCE_STATE = 0 ∧ s.nat Key.lock.LOCK_STATE ∈ [1, 2] ∧ s.units.mgmt.served = true ∧ s.syncLate d = true ∧ s.follows d = true) ∧
    (∃ (s : State), s.Typed ∧ s.units.anchor.lossAt = none ∧ s.num Key.lock.SOURCE_STATE = 0 ∧ s.nat Key.lock.LOCK_STATE ∈ [1, 2] ∧ s.units.mgmt.served = true ∧ s.edgeLate = true) ∧
    (∃ (s : State) (d : Fin 4), s.Typed ∧ s.units.anchor.lossAt = none ∧ s.num Key.lock.SOURCE_STATE = 0 ∧ s.nat Key.lock.LOCK_STATE ∈ [1, 2] ∧ s.units.mgmt.served = true ∧ s.dtbOn d = true ∧ (s.tbase d).fenced = false ∧ s.passed (s.tbase d).outSince 16000000000 = true) ∧
    (∃ (s : State), s.Typed ∧ s.units.anchor.lossAt = none ∧ s.num Key.lock.SOURCE_STATE = 0 ∧ s.nat Key.lock.LOCK_STATE ∈ [1, 2] ∧ s.units.mgmt.served = true ∧ s.num Key.ref.REF_SOURCE ≠ 2) ∧
    (∃ (s : State), s.Typed ∧ s.units.anchor.lossAt = none ∧ s.num Key.lock.SOURCE_STATE = 0 ∧ s.nat Key.lock.LOCK_STATE ∈ [1, 2] ∧ s.units.mgmt.served = true ∧ s.num Key.ref.REF_SOURCE ≠ 3) ∧
    (∃ (s : State) (ppm : Int), s.Typed ∧ s.units.anchor.lossAt = none ∧ s.num Key.lock.SOURCE_STATE = 0 ∧ s.nat Key.lock.LOCK_STATE ∈ [1, 2] ∧ s.units.mgmt.served = true ∧ (s.tbase 4).estimating = false ∧ (s.tbase 4).stepNext = false ∧ s.units.anchor.slewing = false ∧ s.units.anchor.phase = 0 ∧ s.units.anchor.second = none ∧ |(s.edgeTime : Int) - s.edgeRef - (s.tbase 4).pred| ≤ s.num Key.servo.OUTLIER_LIMIT ∧ s.num Key.ref.REF_SOURCE = 2 ∧ |ppm| ≤ 500) ∧
    (∃ (s : State), s.Typed ∧ s.units.anchor.lossAt = none ∧ s.num Key.lock.SOURCE_STATE = 0 ∧ s.nat Key.lock.LOCK_STATE ∈ [1, 2] ∧ s.units.mgmt.served = true ∧ (s.tbase 4).estimating = false ∧ (s.tbase 4).stepNext = false ∧ s.units.anchor.slewing = false ∧ s.units.anchor.phase = 0 ∧ s.units.anchor.second = none ∧ |(s.edgeTime : Int) - s.edgeRef - (s.tbase 4).pred| ≤ s.num Key.servo.OUTLIER_LIMIT ∧ s.num Key.ref.REF_SOURCE = 3) :=
  ⟨⟨sys .run [.num Key.lock.LOCK_STATE 2, .num Key.lock.SOURCE_STATE 0, .num Key.ref.REF_SOURCE 1, .tbase 0 fun x => { x with lastSync := some 0 }], 0, sys_typed _ _, by decide +kernel⟩,
   ⟨sys .run [.num Key.lock.LOCK_STATE 1, .num Key.lock.SOURCE_STATE 0, .num Key.ref.REF_SOURCE 2, .anchor fun a => { a with wclkLast := some 0 }], sys_typed _ _, by decide +kernel⟩,
   ⟨sys .run [.num Key.lock.LOCK_STATE 2, .num Key.lock.SOURCE_STATE 0, .num Key.ref.REF_SOURCE 1, .tbase 0 fun x => { x with outSince := some 984000000000 }], 0, sys_typed _ _, by decide +kernel⟩,
   ⟨sys .run [.num Key.lock.LOCK_STATE 2, .num Key.lock.SOURCE_STATE 0], sys_typed _ _, by decide +kernel⟩,
   ⟨sys .run [.num Key.lock.LOCK_STATE 2, .num Key.lock.SOURCE_STATE 0], sys_typed _ _, by decide +kernel⟩,
   ⟨sys .run [.num Key.lock.LOCK_STATE 2, .num Key.lock.SOURCE_STATE 0, .num Key.ref.REF_SOURCE 2, .num Key.mtb.INC incNom], -500, sys_typed _ _, by decide +kernel⟩,
   ⟨sys .run [.num Key.lock.LOCK_STATE 2, .num Key.lock.SOURCE_STATE 0, .num Key.ref.REF_SOURCE 3, .num Key.mtb.INC incNom], sys_typed _ _, by decide +kernel⟩⟩

/-- States and operands that meet the hypotheses of LockIsReached. -/
theorem witness_LockIsReached :
    (∃ (s : State) (d : Fin 4), s.Typed ∧ s.units.mgmt.served = true ∧ (s.tbase d).estimating = true ∧ (s.tbase d).estLeft = 0 ∧ s.nat (lockKey d) = 1) ∧
    (∃ (s : State), s.Typed ∧ s.units.mgmt.served = true ∧ (s.tbase 4).estimating = true ∧ (s.tbase 4).estLeft = 0 ∧ s.nat Key.lock.LOCK_STATE = 1 ∧ s.units.anchor.phase = 0) ∧
    (∃ (s : State) (tb : Fin 5), s.Typed ∧ s.units.mgmt.served = true ∧ s.nat (lockKey tb) = 1 ∧ |s.num (offsetKey tb)| < 1000 ∧ s.passed (s.tbase tb).windowStart 8000000000 = true ∧ (s.tbase tb).estimating = false) ∧
    (∃ (s : State), s.Typed ∧ s.units.mgmt.served = true ∧ s.units.anchor.slewing = true ∧ s.units.anchor.slewLsb = 0) :=
  ⟨⟨sys .run [.num (Key.dtb.DOMAIN_LOCK 3) 1, .tbase 3 fun x => { x with estimating := true, estLeft := 0 }], 3, sys_typed _ _, by decide +kernel⟩,
   ⟨sys .run [.num Key.lock.LOCK_STATE 1, .num Key.servo.OFFSET 999, .tbase 4 fun x => { x with estimating := true, estLeft := 0 }], sys_typed _ _, by decide +kernel⟩,
   ⟨sys .run [.num Key.lock.LOCK_STATE 1, .num Key.servo.OFFSET 999, .tbase 4 fun x => { x with windowStart := some 992000000000, estimating := false }], 4, sys_typed _ _, by decide +kernel⟩,
   ⟨sys .run [.anchor fun a => { a with slewing := true, slewLsb := 0 }], sys_typed _ _, by decide +kernel⟩⟩

/-- States and operands that meet the hypotheses of MediaTimeIsAnchored. -/
theorem witness_MediaTimeIsAnchored :
    (∃ (s : State), s.Typed ∧ s.units.anchor.phase = 1 ∧ s.atBoundary = true ∧ ((∀ c < 16, (s.chan c).gc.value = 0 ∧ s.zcWait (Zc.anchor c) = none))) ∧
    (∃ (s : State), s.Typed ∧ s.units.anchor.phase = 2 ∧ s.units.anchor.second = none ∧ s.atBoundary = true ∧ firstFrom s.fs s.B s.units.anchor.newTime + s.B ≤ s.blockSample) ∧
    (∃ (s : State), s.Typed ∧ s.units.anchor.phase = 3 ∧ s.atBoundary = true ∧ firstFrom s.fs s.B (s.units.anchor.newTime + s.nat Key.eng.LINK_OFFSET) ≤ s.blockSample) ∧
    (∃ (s : State) (T : Int), s.Typed ∧ s.units.anchor.anchored = false ∧ s.allReleased = true ∧ s.mode ≠ .boot ∧ s.atBoundary = true ∧ s.units.anchor.phase ≠ 2 ∧ s.anchorTarget = some T) ∧
    (∃ (s : State) (d : Fin 4) (role : Nat) (n : Nat), s.Typed ∧ s.units.mgmt.served = true ∧ s.mode ≠ .boot ∧ s.atBoundary = true ∧ s.units.waiting = [⟨Key.ref.REF_DOMAIN, .num d.val, role, n⟩]) :=
  ⟨⟨sys .run [.anchor fun a => { a with phase := 1, offset := 1000 }], sys_typed _ _, by decide +kernel⟩,
   ⟨sys .run [.anchor fun a => { a with phase := 2 }, .chan 0 fun x => { x with anchorMuted := true }], sys_typed _ _, by decide +kernel⟩,
   ⟨sys .run [.anchor fun a => { a with phase := 3, newTime := 0 }, .chan 5 fun x => { x with anchorMuted := true }], sys_typed _ _, by decide +kernel⟩,
   ⟨sys .safe [.num Key.ref.REF_SOURCE 0], 1000000000000, sys_typed _ _, by decide +kernel⟩,
   ⟨sys .safe [.num Key.ref.REF_SOURCE 0, .unit fun u => { u with waiting := [⟨Key.ref.REF_DOMAIN, .num 3, 2, 1⟩] }], 3, 2, 1, sys_typed _ _, by decide +kernel⟩⟩

/-- States and operands that meet the hypotheses of DueActionsExecute. -/
theorem witness_DueActionsExecute :
    (∃ (s : State) (a : Fin 64), s.actDue a = true ∧ s.mode ≠ .boot ∧ s.nat (Key.act.ACT_KIND a) = 5) ∧
    (∃ (s : State) (a : Fin 64), s.actDue a = true ∧ s.mode ≠ .boot ∧ s.nat (Key.act.ACT_KIND a) = 4 ∧ s.num (Key.sg.SG_STATE (s.nat (Key.act.ACT_TARGET a))) = 1 ∧ s.num (Key.sg.SG_TRIGGER (s.nat (Key.act.ACT_TARGET a))) = 0) ∧
    (∃ (s : State) (a : Fin 64), s.actDue a = true ∧ s.mode ≠ .boot ∧ s.nat (Key.act.ACT_KIND a) = 3 ∧ s.units.mgmt.served = true ∧ firstFault (s.headFaults ⟨(s.act a).session, (s.act a).role⟩ Key.mode.MODE_REQUEST (some .u8) (.num (s.num (Key.act.ACT_TARGET a))) ++ s.ownFaults s (fun _ => false) ⟨(s.act a).session, (s.act a).role⟩ s.blockTime Key.mode.MODE_REQUEST (.num (s.num (Key.act.ACT_TARGET a))) true) = St.ok) ∧
    (∃ (s : State) (a : Fin 64) (k : Nat) (r : Row), PlainEntry k ∧ s.actDue a = true ∧ s.mode ≠ .boot ∧ s.nat (Key.act.ACT_KIND a) = 1 ∧ s.units.mgmt.served = true ∧ k = s.nat (Key.act.ACT_TARGET a) * 256 + s.nat (Key.act.ACT_SUB a) ∧ k / 65536 ≠ 0x31 ∧ k / 65536 ≠ 0x11 ∧ k / 65536 ≠ 0x12 ∧ k / 65536 ≠ 0x84 ∧ Dict.row k = some r ∧ r.acc = .rw ∧ r.ty.ok (s.actValue a r.ty) = true ∧ firstFault (s.headFaults ⟨(s.act a).session, (s.act a).role⟩ k (some r.ty) (s.actValue a r.ty)) = St.ok ∧ firstFault (s.ownFaults (s.set k (s.actValue a r.ty)) (fun j => j == k) ⟨(s.act a).session, (s.act a).role⟩ s.blockTime k (s.actValue a r.ty) true) = St.ok) ∧
    (∃ (s : State) (a : Fin 64) (n : Nat) (k : Nat) (v : Value) (x : Session) (r : Row), PlainEntry k ∧ PlainCommit k ∧ s.actDue a = true ∧ s.mode ≠ .boot ∧ s.nat (Key.act.ACT_KIND a) = 2 ∧ s.units.mgmt.served = true ∧ s.nat (Key.act.ACT_TARGET a) = n ∧ s.session n = some x ∧ x.txn = some [(k, v)] ∧ x.commit = none ∧ k / 65536 ≠ 0x31 ∧ k / 65536 ≠ 0x11 ∧ Dict.row k = some r ∧ r.acc ≠ .const ∧ r.ty.ok v = true ∧ s.commitOutcome ⟨n, (s.act a).role⟩ [(k, v)] = (St.ok, 0)) :=
  ⟨⟨sys .safe [.num (Key.act.ACT_STATE 63) 1, .num (Key.act.ACT_KIND 63) 5, .num (Key.act.ACT_TARGET 63) 7, .num (Key.act.ACT_VALUE 63) 1], 63, by decide +kernel⟩,
   ⟨sys .safe [.num (Key.act.ACT_STATE 63) 1, .num (Key.act.ACT_KIND 63) 4, .num (Key.act.ACT_TARGET 63) 7, .num (Key.sg.SG_STATE 7) 1], 63, by decide +kernel⟩,
   ⟨sys .safe [.num (Key.act.ACT_STATE 63) 1, .num (Key.act.ACT_KIND 63) 3, .num (Key.act.ACT_TARGET 63) 4, .act 63 fun x => { x with role := 2 }], 63, by decide +kernel⟩,
   ⟨sys .safe [.num (Key.act.ACT_STATE 63) 1, .num (Key.act.ACT_KIND 63) 1, .num (Key.act.ACT_TARGET 63) 0x9100, .num (Key.act.ACT_SUB 63) 11, .num (Key.act.ACT_VALUE 63) 1, .act 63 fun x => { x with role := 2 }], 63, Key.res.RES_HOLD 0, rowOf (Key.res.RES_HOLD 0), plain_hold, by decide +kernel⟩,
   ⟨talk { xOpen with txn := some [(Key.mon.MON_SSRC 0, .num 9)] } [.num (Key.act.ACT_STATE 63) 1, .num (Key.act.ACT_KIND 63) 2, .num (Key.act.ACT_TARGET 63) 1, .act 63 fun x => { x with role := 2 }], 63, 1, Key.mon.MON_SSRC 0, .num 9, { xOpen with txn := some [(Key.mon.MON_SSRC 0, .num 9)] }, rowOf (Key.mon.MON_SSRC 0), plain_ssrc, by unfold PlainCommit; decide +kernel, by decide +kernel⟩⟩

/-- States and operands that meet the hypotheses of StartGroupsStart. -/
theorem witness_StartGroupsStart :
    (∃ (s : State) (g : Fin 8) (pin : Fin 8) (rising : Bool), s.num (Key.sg.SG_TRIGGER g) = 1 ∧ s.nat (Key.sg.SG_GPIO g) = pin ∧ s.num (Key.sg.SG_EDGE g) = (if rising then 0 else 1) ∧ s.num (Key.sg.SG_STATE g) = 1 ∧ s.gpioDriven pin = none) ∧
    (∃ (s : State) (g : Fin 8) (n : Nat), s.sgDue g = some n ∧ n < 2 ^ 63 ∧ (n % s.B ≠ 0 ∨ s.units.disp.blockAt = some n)) :=
  ⟨⟨sys .run [.num (Key.sg.SG_TRIGGER 7) 1, .num (Key.sg.SG_GPIO 7) 5, .num (Key.sg.SG_EDGE 7) 1, .num (Key.sg.SG_STATE 7) 1], 7, 5, false, by decide +kernel⟩,
   ⟨sys .measure [.num (Key.gen.G_STATE 2) 1, .num (Key.gen.G_SG 2) 7, .num (Key.gen.G_FREQ 2) 1000, .num (Key.gen.G_STATE 3) 1, .num (Key.gen.G_SG 3) 7, .num (Key.gen.G_POINT 3) 2, .num (Key.gen.G_TARGET 3) 5, .num (Key.sg.SG_STATE 7) 1, .sg 7 fun x => { x with go := some 0 }, .disp fun d => { d with blockAt := some 48000000 }], 7, 48000000, by decide +kernel⟩⟩

/-- States and operands that meet the hypotheses of PacketsAndStreamStates. -/
theorem witness_PacketsAndStreamStates :
    (∃ (s : State) (i : Fin 128), s.Typed ∧ s.receives i = true) ∧
    (∃ (s : State) (i : Fin 128) (udp : List Byte) (p : List Byte) (ok : Bool), s.Typed ∧ s.receives i = true ∧ s.stState i ≠ 4 ∧ s.malformed i udp ok = none ∧ rtpPayload udp = some p ∧ s.num (Key.sub.KIND i) = 0 ∧ s.primary i = i ∧ s.secondary i = none ∧ s.packetFrames i udp p ≠ [] ∧ ((s.packetFrames i udp p).all fun x => !x.2.isEmpty && decide (x.1 < s.mCut (s.presented (s.arrival i udp)) + s.depth)) = true ∧ ((∀ f ∈ (s.stream i).frames, f.rival = none)) ∧ ((s.packetFrames i udp p).any fun x => decide (s.mCut (s.presented (s.arrival i udp)) ≤ x.1) && absent (s.stream i).frames x.1) = true) ∧
    (∃ (s : State) (i : Fin 128), s.Typed ∧ s.stState i = 2 ∧ s.nat Key.eng.LOSS_BLOCKS ≤ (s.stream i).emptyBlocks) ∧
    (∃ (s : State) (i : Fin 128), s.Typed ∧ s.stState i = 4 ∧ s.nat Key.eng.FENCE_RETRY ≠ 0 ∧ s.passed (s.stream i).fencedAt (s.nat Key.eng.FENCE_RETRY * 1000000000) = true) ∧
    (∃ (s : State) (i : Fin 128), s.Typed ∧ (s.secondary (s.primary i)).isSome = true ∧ s.receives i = true ∧ s.flag (Key.st.PATH_STATE i) = false ∧ ((s.stream i).pathLast.any fun t0 => s.expired t0 (s.nat Key.eng.LOSS_BLOCKS * s.B * 1000000000 / s.fs)) = true) ∧
    (∃ (s : State) (i : Fin 128) (w : EntryWrite), s.Typed ∧ s.Accepts w (Key.st.FENCE_CLEAR i) ∧ w.value = .num 1 ∧ s.stState i = 4) ∧
    (∃ (s : State) (i : Fin 128) (w : EntryWrite), s.Typed ∧ s.Accepts w (Key.st.CLEAR i) ∧ w.value = .num 1) :=
  ⟨⟨sys .run [.num (Key.sub.ENABLE 127) 1], 127, sys_typed _ _, by decide +kernel⟩,
   ⟨sys .run [.num (Key.sub.ENABLE 127) 1, .num (Key.sub.CHANNELS 127) 1, .num (Key.sub.PTIME 127) 0, .num (Key.sub.PAYLOAD_TYPE 127) 97], 127, [0x80, 97, 0, 1] ++ be 4 48000096 ++ be 4 5 ++ List.replicate 18 1, List.replicate 18 1, true, sys_typed _ _, by decide +kernel⟩,
   ⟨sys .run [.num (Key.st.STREAM_STATE 127) 2, .stream 127 fun x => { x with emptyBlocks := 4 }], 127, sys_typed _ _, by decide +kernel⟩,
   ⟨sys .run [.num (Key.st.STREAM_STATE 127) 4, .stream 127 fun x => { x with fencedAt := some 990000000000 }], 127, sys_typed _ _, by decide +kernel⟩,
   ⟨sys .run [.num (Key.sub.ENABLE 0) 1, .num (Key.sub.ENABLE 127) 1, .num (Key.sub.PAIR 127) 0, .stream 127 fun x => { x with pathLast := some 990000000000 }], 127, sys_typed _ _, by decide +kernel⟩,
   ⟨sys .run [.num (Key.sub.ENABLE 127) 1, .num (Key.st.STREAM_STATE 127) 4], 127, ⟨1, 2, .num 1⟩, sys_typed _ _, by unfold State.Accepts; decide +kernel, by decide +kernel⟩,
   ⟨sys .run [.num (Key.st.RX_PACKETS 127) 7], 127, ⟨1, 2, .num 1⟩, sys_typed _ _, by unfold State.Accepts; decide +kernel, by decide +kernel⟩⟩

/-- States and operands that meet the hypotheses of MetadataAppliesToItsObject. -/
theorem witness_MetadataAppliesToItsObject :
    (∃ (s : State) (o : Fin 512) (p : Nat) (m : MetaRec) (rest : List (Nat × MetaRec)), s.Typed ∧ (s.obj o).pend = (p, m) :: rest ∧ p ≤ s.workSample ∧ s.objState o ≠ 0 ∧ s.foretold.recordFault m = none) ∧
    (∃ (s : State) (o : Fin 512) (p : Nat) (m : MetaRec) (rest : List (Nat × MetaRec)) (cause : _), s.Typed ∧ (s.obj o).pend = (p, m) :: rest ∧ p ≤ s.workSample ∧ s.objState o ≠ 0 ∧ s.foretold.recordFault m = some cause) ∧
    (∃ (s : State) (o : Fin 512) (p : Nat), s.Typed ∧ (s.obj o).lastApply = some p ∧ s.nat Key.ren.META_TIMEOUT ≠ 0 ∧ s.objState o = 2 ∧ (s.obj o).pend = [] ∧ p + s.nat Key.ren.META_TIMEOUT * s.fs / 1000 ≤ s.workSample) ∧
    (∃ (s : State) (o : Fin 512) (w : EntryWrite), s.Typed ∧ s.Accepts w (Key.obj.FENCE_CLEAR o) ∧ w.value = .num 1 ∧ s.objState o = 4) :=
  ⟨⟨sys .run [.num (Key.obj.OBJ_STATE 511) 1, .obj 511 fun x => { x with pend := [(0, { x := 100 })] }], 511, 0, { x := 100 }, [], sys_typed _ _, by decide +kernel⟩,
   ⟨sys .run [.num (Key.obj.OBJ_STATE 511) 2, .obj 511 fun x => { x with pend := [(0, { x := 30001 })] }], 511, 0, { x := 30001 }, [], 1, sys_typed _ _, by decide +kernel⟩,
   ⟨sys .run [.num Key.ren.META_TIMEOUT 10, .num (Key.obj.OBJ_STATE 511) 2, .obj 511 fun x => { x with lastApply := some 0 }], 511, 0, sys_typed _ _, by decide +kernel⟩,
   ⟨sys .run [.num (Key.obj.OBJ_STATE 511) 4], 511, ⟨1, 2, .num 1⟩, sys_typed _ _, by unfold State.Accepts; decide +kernel, by decide +kernel⟩⟩

/-- States and operands that meet the hypotheses of LaneTasksAndTests. -/
theorem witness_LaneTasksAndTests :
    (∃ (s : State) (l : Fin 16) (k : Fin 64), s.Typed ∧ s.finishes l k = true ∧ s.lateRun l k = none) ∧
    (∃ (s : State) (l : Fin 16) (k : Fin 64) (x : LateRun), s.Typed ∧ k.val < 48 ∧ s.finishes l k = true ∧ s.lateRun l k = some x) ∧
    (∃ (s : State), s.Typed ∧ s.renderCutTime ≤ s.now ∧ s.units.disp.issued = true) ∧
    (∃ (s : State) (l : Fin 16) (speed : _), s.Typed ∧ speed < 65536 ∧ s.mayTest l = true ∧ s.healthy l = true) ∧
    (∃ (s : State) (l : Fin 16), s.Typed ∧ 4 ≤ (s.lane l).idleBlocks ∧ s.healthy l = true) ∧
    (∃ (s : State) (l : Fin 16) (w : EntryWrite), s.Typed ∧ s.Accepts w (Key.lane.FENCE_CLEAR l) ∧ w.value = .num 1 ∧ s.healthy l = false) :=
  ⟨⟨sys .run [.lane 15 fun x => { x with work := [63] }], 15, 63, sys_typed _ _, by decide +kernel⟩,
   ⟨sys .run [.lane 15 fun x => { x with work := [20] }, .disp fun d => { d with late := [⟨20, 15, 5⟩] }], 15, 20, ⟨20, 15, 5⟩, sys_typed _ _, by decide +kernel⟩,
   ⟨{ sys .run [.lane 15 fun x => { x with work := [3] }, .disp fun d => { d with issued := true }] with mtb := 1000001000000 * 4294967296 }, fun k r h => sys_typed _ _ k r h, by decide +kernel⟩,
   ⟨sys .run [], 15, 65535, sys_typed _ _, by decide +kernel⟩,
   ⟨sys .run [.lane 15 fun x => { x with idleBlocks := 4 }], 15, sys_typed _ _, by decide +kernel⟩,
   ⟨sys .run [.num (Key.lane.LANE_STATE 15) 2], 15, ⟨1, 2, .num 1⟩, sys_typed _ _, by unfold State.Accepts; decide +kernel, by decide +kernel⟩⟩

/-- States and operands that meet the hypotheses of LaneMigrationAndThrottle. -/
theorem witness_LaneMigrationAndThrottle :
    (∃ (s : State) (l : Fin 16) (f : Fin 16), s.Typed ∧ f ≠ l ∧ ((List.range 16).find? fun l => (s.lane l).migrateFrom.isSome && decide (2 ≤ (s.lane l).migBlocks)) = some l.val ∧ (s.lane l).migrateFrom = some f.val) ∧
    (∃ (s : State) (l : Fin 16), s.Typed ∧ ((List.range 16).find? fun l => (s.lane l).migrateFrom.isSome && decide (2 ≤ (s.lane l).migBlocks)) = some l.val ∧ (s.lane l).migrateFrom = some l.val) ∧
    (∃ (s : State) (l : Fin 16), s.Typed ∧ 16 ≤ s.nat Key.disp.LANTERN ∧ ((∀ i < 16, (s.lane i).migrateFrom = none)) ∧ s.units.disp.noLantern = false ∧ s.units.disp.reassign = false ∧ s.atBoundary = true ∧ s.units.mgmt.served = true ∧ s.healthyLanes.getLast? = some l.val ∧ admitted (s.placement (s.healthyLanes.filter (· != l.val))) = true) ∧
    (∃ (s : State), s.Typed ∧ s.units.disp.fsm = 1 ∧ s.nat Key.disp.LANTERN < 16 ∧ (s.lane (s.nat Key.disp.LANTERN)).migrateFrom = none ∧ s.units.mgmt.served = true) ∧
    (∃ (s : State) (l : Fin 16) (i : Fin 16), s.Typed ∧ s.units.disp.fsm = 1 ∧ s.nat Key.disp.LANTERN = l ∧ (s.lane l).migrateFrom = none ∧ s.units.mgmt.served = true ∧ s.atBoundary = true ∧ (s.inService.find? fun i => (s.lane i).newUcode != true) = some i.val ∧ s.units.disp.newVer < 2 ^ 32) ∧
    (∃ (s : State) (sensor : Nat) (mv : Nat), s.Typed ∧ sensor < 8 ∧ mv < 65536 ∧ s.nat Key.thr.THROTTLE_LEVEL < s.thrCalls mv) ∧
    (∃ (s : State), s.Typed ∧ s.nat Key.thr.THROTTLE_LEVEL ≠ 0 ∧ s.passed s.units.disp.thrOk 10000000 = true) ∧
    (∃ (s : State), s.Typed ∧ s.units.disp.windowAt + s.units.disp.window * 1000000 ≤ s.mtbNs) :=
  ⟨⟨sys .run [.lane 15 fun x => { x with migrateFrom := some 0, migBlocks := 2 }, .lane 0 fun x => { x with tasks := [3] }], 15, 0, sys_typed _ _, by decide +kernel⟩,
   ⟨sys .run [.lane 9 fun x => { x with migrateFrom := some 9, migBlocks := 2, tasks := [3] }, .num (Key.lane.LANE_STATE 9) 3], 9, sys_typed _ _, by decide +kernel⟩,
   ⟨sys .run [.num Key.disp.LANTERN 255], 15, sys_typed _ _, by decide +kernel⟩,
   ⟨sys .run [.disp fun d => { d with fsm := 1 }], sys_typed _ _, by decide +kernel⟩,
   ⟨sys .run [.disp fun d => { d with fsm := 1, newVer := 7 }, .num Key.disp.LANTERN 15, .num (Key.lane.LANE_STATE 15) 1, .lane 0 fun x => { x with tasks := [3] }], 15, 0, sys_typed _ _, by decide +kernel⟩,
   ⟨sys .run [], 7, 600, sys_typed _ _, by decide +kernel⟩,
   ⟨sys .run [.num Key.thr.THROTTLE_LEVEL 4, .disp fun d => { d with thrOk := some 999990000000 }], sys_typed _ _, by decide +kernel⟩,
   ⟨sys .run [], sys_typed _ _, by decide +kernel⟩⟩

/-- States and operands that meet the hypotheses of WaitsEndAtCrossingsAndTimeouts. -/
theorem witness_WaitsEndAtCrossingsAndTimeouts :
    (∃ (s : State) (key : Nat), (s.units.zc.any fun w => w.key == key) = false) ∧
    (∃ (s : State) (key : Nat), (s.units.zc.any fun w => w.key == key) = false) ∧
    (∃ (s : State) (c : Fin 16) (w : ZcWait), s.units.zc = [w] ∧ w.key = Zc.start c ∧ w.start ≤ s.sampleNow ∧ s.sampleNow ≤ w.start + w.limit ∧ s.crosses (Zc.start c) = true) ∧
    (∃ (s : State) (c : Fin 16) (w : ZcWait), s.units.zc = [w] ∧ w.key = Zc.start c ∧ (w.start + w.limit < s.sampleNow ∨ (w.start + w.limit = s.sampleNow ∧ s.crosses (Zc.start c) = false))) ∧
    (∃ (s : State) (c : Fin 16) (w : ZcWait), s.units.zc = [w] ∧ w.key = Key.gn.GAIN c ∧ w.start ≤ s.chainNext c ∧ s.chainNext c ≤ w.start + w.limit ∧ s.crosses (Key.gn.GAIN c) = true) ∧
    (∃ (s : State) (c : Fin 16) (w : ZcWait), s.units.zc = [w] ∧ w.key = Key.gn.GAIN c ∧ w.start + w.limit < s.chainNext c) :=
  ⟨⟨sys .run [], 3, by decide +kernel⟩,
   ⟨sys .run [], 3, by decide +kernel⟩,
   ⟨sys .run [.num Key.mtb.SAMPLE_INDEX 48000000, .unit fun u => { u with zc := [{ key := Zc.start 15, start := 48000000, limit := 2400 }] }], 15, { key := Zc.start 15, start := 48000000, limit := 2400 }, by decide +kernel⟩,
   ⟨sys .run [.unit fun u => { u with zc := [{ key := Zc.start 15, start := 47997599, limit := 2400 }] }], 15, { key := Zc.start 15, start := 47997599, limit := 2400 }, by decide +kernel⟩,
   ⟨sys .run [.unit fun u => { u with zc := [{ key := Key.gn.GAIN 15, value := .num (-600), start := 48000000, limit := 2400 }] }], 15, { key := Key.gn.GAIN 15, value := .num (-600), start := 48000000, limit := 2400 }, by decide +kernel⟩,
   ⟨sys .run [.unit fun u => { u with zc := [{ key := Key.gn.GAIN 15, value := .num (-600), start := 47997000, limit := 2400 }] }], 15, { key := Key.gn.GAIN 15, value := .num (-600), start := 47997000, limit := 2400 }, by decide +kernel⟩⟩

/-- States and operands that meet the hypotheses of FallbackAndFirTransitions. -/
theorem witness_FallbackAndFirTransitions :
    (∃ (s : State) (c : Fin 16), s.num (Key.cin.FB_KIND c) ≠ 0 ∧ s.fbState c = 0 ∧ s.mode = .holdover) ∧
    (∃ (s : State) (c : Fin 16), s.fbState c = 2 ∧ s.mode ≠ .holdover ∧ s.mode ≠ .measure ∧ s.passed (s.chan c).recvSince 2000000000 = true) ∧
    (∃ (s : State) (c : Fin 16), (s.fbState c = 1 ∨ s.fbState c = 3) ∧ (s.chan c).fbLen ≠ 0 ∧ (s.chan c).fbLeft = 0) ∧
    (∃ (s : State) (c : Fin 16), (s.nat (Key.fir.FIR_STATE c) = 2 ∨ s.nat (Key.fir.FIR_STATE c) = 3) ∧ s.num (Key.fir.FIR_XFADE_LEFT c) = 0) ∧
    (∃ (s : State) (c : Fin 16), s.num (Key.cin.FB_KIND c) ≠ 0 ∧ s.fbState c = 0 ∧ s.mode.chains = true ∧ s.mode ≠ .measure ∧ s.passed (s.chan c).lostSince (s.nat (Key.cin.FALLBACK_DELAY c) * 1000000) = true) ∧
    (∃ (s : State) (c : Fin 16), s.passed (s.chan c).pinSince 10000000000 = true ∧ (s.chan c).pinTold = false) :=
  ⟨⟨sys .holdover [.num (Key.cin.FB_KIND 15) 1], 15, by decide +kernel⟩,
   ⟨sys .run [.num (Key.cin.FB_STATE 15) 2, .chan 15 fun x => { x with recvSince := some 998000000000 }], 15, by decide +kernel⟩,
   ⟨sys .run [.num (Key.cin.FB_STATE 15) 3, .chan 15 fun x => { x with fbLen := 480 }], 15, by decide +kernel⟩,
   ⟨sys .run [.num (Key.fir.FIR_STATE 15) 2], 15, by decide +kernel⟩,
   ⟨sys .run [.num (Key.cin.FB_KIND 15) 1, .chan 15 fun x => { x with lostSince := some 900000000000 }], 15, by decide +kernel⟩,
   ⟨sys .run [.chan 15 fun x => { x with pinSince := some 990000000000 }], 15, by decide +kernel⟩⟩

/-- States and operands that meet the hypotheses of SlotSupervisionAndClears. -/
theorem witness_SlotSupervisionAndClears :
    (∃ (s : State) (n : Fin 64), s.Typed ∧ s.slotState n = 1 ∧ s.nat (Key.ls.FE_TIME n) ≠ 0 ∧ s.nat (Key.ls.FE_TIME n) ≤ (s.slot n).count) ∧
    (∃ (s : State) (n : Fin 64) (w : EntryWrite), s.Typed ∧ s.Accepts w (Key.ls.FENCE_CLEAR n) ∧ w.value = .num 1 ∧ s.slotState n = 3 ∧ (s.slot n).checkBad = false) :=
  ⟨⟨sys .run [.num (Key.ls.SLOT_STATE 63) 1, .num (Key.ls.FE_TIME 63) 5, .num (Key.ls.FE_ACTION 63) 2, .slot 63 fun x => { x with count := 5 }], 63, sys_typed _ _, by decide +kernel⟩,
   ⟨sys .run [.num (Key.ls.SLOT_STATE 63) 3], 63, ⟨1, 2, .num 1⟩, sys_typed _ _, by unfold State.Accepts; decide +kernel, by decide +kernel⟩⟩

/-- States and operands that meet the hypotheses of LearnerTransitions. -/
theorem witness_LearnerTransitions :
    (∃ (s : State) (g : Fin 4) (period : _), s.Typed ∧ s.num (Key.fl.FL_MODE g) ≠ 1 ∧ 7692308 ≤ period ∧ period ≤ 11111111 ∧ s.flState g = 1 ∧ s.flFree g = true) ∧
    (∃ (s : State) (g : Fin 4), s.Typed ∧ s.num (Key.fl.FL_MODE g) = 0 ∧ (s.flState g = 2 ∨ s.flState g = 3) ∧ s.flFree g = true) ∧
    (∃ (s : State) (g : Fin 4), s.Typed ∧ s.num (Key.fl.FL_MODE g) = 0 ∧ (s.flState g = 2 ∨ s.flState g = 3) ∧ s.flFree g = false) ∧
    (∃ (s : State) (g : Fin 4) (q : _), s.Typed ∧ (s.learner g).quiet = some q ∧ s.flState g = 3 ∧ q + s.flWindow g ≤ s.tickNow ∧ s.flFree g = true) ∧
    (∃ (s : State) (g : Fin 4), s.Typed ∧ (s.learner g).fading = true ∧ (s.learner g).fade = 0 ∧ (s.learner g).again = false) ∧
    (∃ (s : State) (g : Fin 4) (w : EntryWrite), s.Typed ∧ s.Accepts w (Key.fl.FL_CLEAR g) ∧ w.value = .num 1 ∧ s.flState g = 2) ∧
    (∃ (s : State) (g : Fin 4) (w : EntryWrite), s.Typed ∧ s.Accepts w (Key.fl.FENCE_CLEAR g) ∧ w.value = .num 1 ∧ s.flState g = 4) :=
  ⟨⟨sys .run [.num (Key.fl.FL_STATE 3) 1, .nat Key.loop.TICK_INDEX (sys .run []).tickNow], 3, 7692308, sys_typed _ _, by decide +kernel⟩,
   ⟨sys .run [.num (Key.fl.FL_STATE 3) 3, .nat Key.loop.TICK_INDEX (sys .run []).tickNow], 3, sys_typed _ _, by decide +kernel⟩,
   ⟨sys .run [.num (Key.fl.FL_STATE 3) 3], 3, sys_typed _ _, by decide +kernel⟩,
   ⟨sys .run [.num (Key.fl.FL_STATE 3) 3, .learner 3 fun x => { x with quiet := some 0 }, .nat Key.loop.TICK_INDEX (sys .run []).tickNow], 3, 0, sys_typed _ _, by decide +kernel⟩,
   ⟨sys .run [.learner 3 fun x => { x with fading := true, fade := 0, again := false }], 3, sys_typed _ _, by decide +kernel⟩,
   ⟨sys .run [.num (Key.fl.FL_STATE 3) 2], 3, ⟨1, 2, .num 1⟩, sys_typed _ _, by unfold State.Accepts; decide +kernel, by decide +kernel⟩,
   ⟨sys .run [.num (Key.fl.FL_STATE 3) 4], 3, ⟨1, 2, .num 1⟩, sys_typed _ _, by unfold State.Accepts; decide +kernel, by decide +kernel⟩⟩

/-- States and operands that meet the hypotheses of ConeSupervision. -/
theorem witness_ConeSupervision :
    (∃ (s : State) (c : Fin 16) (w : PilotSum), (s.chan c).pilotDone = some w ∧ s.classPaused (c + 48) = false ∧ w.on = true ∧ s.pilotRejects c w = true) ∧
    (∃ (s : State) (c : Fin 16) (w : PilotSum), (s.chan c).pilotDone = some w ∧ s.classPaused (c + 48) = false ∧ w.on = true ∧ s.pilotRejects c w = false) ∧
    (∃ (s : State) (c : Fin 16), s.modelValid c = true ∧ s.passed (s.chan c).hotSince 2000000000 = true ∧ (s.nat (Key.prot.FENCE_CAUSE c)).testBit 2 = false) ∧
    (∃ (s : State) (c : Fin 16), s.nat (Key.prot.FENCE_CAUSE c) = 4 ∧ 100 * s.num (Key.thm.T_COIL_EST c) < 65536 * (s.num (Key.thm.T_LIMIT c) - s.num (Key.thm.T_RESUME_MARGIN c))) ∧
    (∃ (s : State) (c : Fin 16) (w : DriftSum), (s.chan c).driftDone = some w ∧ s.classPaused (c + 48) = false ∧ s.driftCounts c w = false) ∧
    (∃ (s : State) (c : Fin 16), s.classPaused (c + 48) = true) ∧
    (∃ (s : State) (c : Fin 16), s.classPaused (c + 48) = true) ∧
    (∃ (s : State), s.units.mgmt.served = true ∧ s.units.mgmt.obsAt + 10000000000 ≤ s.mtbNs) ∧
    (∃ (s : State), s.nat Key.lock.LOCK_STATE = 2) :=
  ⟨⟨sys .run [.chan 15 fun x => { x with pilotDone := some { on := true, bad := true } }], 15, { on := true, bad := true }, by decide +kernel⟩,
   ⟨sys .run [.num (Key.drv.RE_REF 15) 6000000, .chan 15 fun x => { x with pilotDone := some { on := true, v := (6, 0), i := (1, 0) } }], 15, { on := true, v := (6, 0), i := (1, 0) }, by decide +kernel⟩,
   ⟨sys .run [.num (Key.drv.MODEL_STATE 15) 1, .num (Key.pw.OUT_STATE 15) 2, .chan 15 fun x => { x with hotSince := some 998000000000 }], 15, by decide +kernel⟩,
   ⟨sys .run [.num (Key.prot.FENCE_CAUSE 15) 4, .num (Key.pw.OUT_STATE 15) 4], 15, by decide +kernel⟩,
   ⟨sys .run [.chan 15 fun x => { x with driftDone := some { bad := true } }], 15, { bad := true }, by decide +kernel⟩,
   ⟨sys .run [.num Key.thr.THROTTLE_LEVEL 3, .chan 15 fun x => { x with pilotDone := some { on := true, v := (6, 0), i := (1, 0) } }], 15, by decide +kernel⟩,
   ⟨sys .run [.num Key.thr.THROTTLE_LEVEL 4, .chan 15 fun x => { x with driftDone := some { bad := true } }], 15, by decide +kernel⟩,
   ⟨sys .run [], by decide +kernel⟩,
   ⟨sys .run [.num Key.lock.LOCK_STATE 2, .chan 15 fun x => { x with obsHeld := true }], by decide +kernel⟩⟩

/-- States and operands that meet the hypotheses of ChannelsStartAndStop. -/
theorem witness_ChannelsStartAndStop :
    (∃ (s : State) (c : Fin 16), s.canStart c = true ∧ s.outState c = 0 ∧ s.phase c = 0 ∧ s.atBoundary = true) ∧
    (∃ (s : State) (c : Fin 16), s.flag (Key.pw.CH_EN c) = false ∧ s.atBoundary = true ∧ s.outState c = 2 ∧ s.num (Key.pw.SEQ_PHASE c) = 0 ∧ (s.chan c).gc.value ≠ 0) ∧
    (∃ (s : State), s.atBoundary = false) ∧
    (∃ (s : State) (c : Fin 16), ((s.nat (Key.prot.FENCE_CAUSE c)).testBit 2 = true ∨ (s.nat (Key.prot.FENCE_CAUSE c)).testBit 3 = true ∨ s.units.pins.engageN = true) ∧ s.playing c = true ∧ s.num (Key.pw.SEQ_PHASE c) ∈ [0, 4] ∧ (s.chan c).gc.value ≠ 0) ∧
    (∃ (s : State) (c : Fin 16), ((s.nat (Key.prot.FENCE_CAUSE c)).testBit 2 = true ∨ (s.nat (Key.prot.FENCE_CAUSE c)).testBit 3 = true ∨ s.units.pins.engageN = true) ∧ s.outState c = 1 ∧ s.num (Key.pw.SEQ_PHASE c) ∈ [1, 2, 3] ∧ (s.chan c).gc.value = 0) ∧
    (∃ (s : State) (c : Fin 16), s.released c = true ∧ s.phase c ≠ 8) ∧
    (∃ (s : State) (c : Fin 16), s.released c = true ∧ s.phase c ≠ 8) ∧
    (∃ (s : State) (c : Fin 16), s.phase c = 8 ∧ s.units.pins.engageN = true) :=
  ⟨⟨sys .run [.num (Key.pw.CH_EN 15) 1, .group 3 fun x => { x with notReady := false }], 15, by decide +kernel⟩,
   ⟨sys .run [.num (Key.pw.CH_EN 15) 0, .num (Key.pw.OUT_STATE 15) 2, .chan 15 fun x => { x with gc := { v0 := 1, v1 := 1 } }], 15, by decide +kernel⟩,
   ⟨{ sys .run [.num (Key.pw.CH_EN 15) 0, .num (Key.pw.OUT_STATE 15) 2, .chan 15 fun x => { x with gc := { v0 := 1, v1 := 1 } }] with mtb := 1000000100000 * 4294967296 }, by decide +kernel⟩,
   ⟨sys .run [.num (Key.prot.FENCE_CAUSE 15) 4, .num (Key.pw.OUT_STATE 15) 3, .num (Key.pw.SEQ_PHASE 15) 4, .chan 15 fun x => { x with gc := { v0 := 0, v1 := 1, len := 32, pos := 31 } }], 15, by decide +kernel⟩,
   ⟨sys .run [.num (Key.prot.FENCE_CAUSE 15) 8, .num (Key.pw.OUT_STATE 15) 1, .num (Key.pw.SEQ_PHASE 15) 3, .chan 15 fun x => { x with gl := { v0 := 1, v1 := 1 } }], 15, by decide +kernel⟩,
   ⟨sys .run [], 15, by decide +kernel⟩,
   ⟨sys .run [.num (Key.pw.OUT_STATE 15) 4], 15, by decide +kernel⟩,
   ⟨sys .run [.pins fun p => { p with engageN := true }, .num (Key.prot.FENCE_CAUSE 15) 1, .num (Key.pw.OUT_STATE 15) 4, .num (Key.pw.SEQ_PHASE 15) 8, .chan 15 fun x => { x with probing := true }], 15, by decide +kernel⟩⟩

/-- States and operands that meet the hypotheses of ChannelProtectionActs. -/
theorem witness_ChannelProtectionActs :
    (∃ (s : State) (c : Fin 16), s.Typed ∧ s.shorted c = true) ∧
    (∃ (s : State) (c : Fin 16), s.Typed ∧ (s.chan c).shortDue = true ∧ (s.chan c).probing = false ∧ s.phase c ≠ 8 ∧ s.units.waiting = [] ∧ s.units.sessions = [] ∧ ((∀ a < 64, s.num (Key.act.ACT_STATE a) ≠ 1)) ∧ s.units.mgmt.restoreDue = none) ∧
    (∃ (s : State) (c : Fin 16), s.Typed ∧ s.probeReady c = true) ∧
    (∃ (s : State) (c : Fin 16) (vc : Rat) (vs : Rat) (ic : Rat) (is : Rat), s.Typed ∧ (s.chan c).probing = true ∧ probeTicks < (s.chan c).seqPos ∧ (s.chan c).probeSum = (vc, vs, ic, is) ∧ ic * ic + is * is ≤ vc * vc + vs * vs ∧ s.nat (Key.prot.FENCE_CAUSE c) = 1) ∧
    (∃ (s : State) (c : Fin 16) (vc : Rat) (vs : Rat) (ic : Rat) (is : Rat), s.Typed ∧ (s.chan c).probing = true ∧ probeTicks < (s.chan c).seqPos ∧ (s.chan c).probeSum = (vc, vs, ic, is) ∧ vc * vc + vs * vs < ic * ic + is * is ∧ s.nat (Key.prot.PROBE_FAILS c) < 4) ∧
    (∃ (s : State) (c : Fin 16) (vc : Rat) (vs : Rat) (ic : Rat) (is : Rat), s.Typed ∧ (s.chan c).probing = true ∧ probeTicks < (s.chan c).seqPos ∧ (s.chan c).probeSum = (vc, vs, ic, is) ∧ vc * vc + vs * vs < ic * ic + is * is ∧ s.nat (Key.prot.PROBE_FAILS c) = 4 ∧ (s.nat (Key.prot.FENCE_CAUSE c)).testBit 4 = false) ∧
    (∃ (s : State) (c : Fin 16), s.Typed ∧ s.passed (s.chan c).dcSince 50000000 = true ∧ (s.nat (Key.prot.FENCE_CAUSE c)).testBit 1 = false) ∧
    (∃ (s : State) (c : Fin 16) (w : EntryWrite), s.Typed ∧ s.Accepts w (Key.prot.FENCE_CLEAR c) ∧ w.value = .num 1 ∧ s.nat (Key.prot.FENCE_CAUSE c) = 2) ∧
    (∃ (s : State) (c : Fin 16) (w : EntryWrite), s.Typed ∧ s.Accepts w (Key.prot.FENCE_CLEAR c) ∧ w.value = .num 1 ∧ (s.nat (Key.prot.FENCE_CAUSE c)).testBit 2 = true) :=
  ⟨⟨sys .run [.num (Key.pw.OUT_STATE 15) 2, .chan 15 fun x => { x with limitRun := 32 }], 15, sys_typed _ _, by decide +kernel⟩,
   ⟨sys .run [.num (Key.pw.OUT_STATE 15) 2, .chan 15 fun x => { x with shortDue := true, dieOff := true }], 15, sys_typed _ _, by decide +kernel⟩,
   ⟨sys .run [.num (Key.prot.FENCE_CAUSE 15) 1, .num (Key.pw.OUT_STATE 15) 4, .num (Key.pw.CH_EN 15) 1, .group 3 fun x => { x with notReady := false }, .chan 15 fun x => { x with probeAt := some 1000000000000 }], 15, sys_typed _ _, by decide +kernel⟩,
   ⟨sys .run [.num (Key.prot.FENCE_CAUSE 15) 1, .chan 15 fun x => { x with probing := true, seqPos := 1961, probeSum := (5, 0, 1, 0) }], 15, 5, 0, 1, 0, sys_typed _ _, by decide +kernel⟩,
   ⟨sys .run [.num (Key.prot.FENCE_CAUSE 15) 1, .num (Key.prot.PROBE_FAILS 15) 3, .chan 15 fun x => { x with probing := true, seqPos := 1961, probeSum := (1, 0, 5, 0) }], 15, 1, 0, 5, 0, sys_typed _ _, by decide +kernel⟩,
   ⟨sys .run [.num (Key.prot.FENCE_CAUSE 15) 1, .num (Key.prot.PROBE_FAILS 15) 4, .chan 15 fun x => { x with probing := true, seqPos := 1961, probeSum := (1, 0, 5, 0) }], 15, 1, 0, 5, 0, sys_typed _ _, by decide +kernel⟩,
   ⟨sys .run [.num (Key.pw.OUT_STATE 15) 2, .chan 15 fun x => { x with dcSince := some 999950000000 }], 15, sys_typed _ _, by decide +kernel⟩,
   ⟨sys .run [.num (Key.prot.FENCE_CAUSE 15) 2, .num (Key.pw.OUT_STATE 15) 4], 15, ⟨1, 2, .num 1⟩, sys_typed _ _, by unfold State.Accepts; decide +kernel, by decide +kernel⟩,
   ⟨sys .run [.num (Key.prot.FENCE_CAUSE 15) 4, .num (Key.pw.OUT_STATE 15) 4], 15, ⟨1, 2, .num 1⟩, sys_typed _ _, by unfold State.Accepts; decide +kernel, by decide +kernel⟩⟩

/-- States and operands that meet the hypotheses of SupplyGroupsAreProtected. -/
theorem witness_SupplyGroupsAreProtected :
    (∃ (s : State) (g : Fin 4) (mv : _), 66000 < mv ∧ ((s.group g).ov = false ∨ (s.group g).back.testBit 0 = true)) ∧
    (∃ (s : State) (g : Fin 4) (mv : _), mv < 62000 ∧ (s.group g).ov = true ∧ (s.group g).back.testBit 0 = false) ∧
    (∃ (s : State) (g : Fin 4), (s.group g).uv = false ∧ (s.group g).vMean < 22) ∧
    (∃ (s : State) (g : Fin 4), (s.group g).uv = true ∧ s.passed (s.group g).uvOk 100000000 = true) ∧
    (∃ (s : State) (g : Fin 4), ((s.group g).starved = false ∨ (s.group g).back.testBit 1 = true)) ∧
    (∃ (s : State) (g : Fin 4), (s.group g).starved = true) ∧
    (∃ (s : State) (g : Fin 4) (mv : _), mv < 9800 ∧ ((s.group g).uvlo = false ∨ (s.group g).vauxOk.isSome = true)) ∧
    (∃ (s : State) (g : Fin 4) (mv : _), 10500 < mv ∧ (s.group g).uvlo = true ∧ (s.group g).vauxOk = none) ∧
    (∃ (s : State) (g : Fin 4), (s.group g).ov = true ∧ (s.group g).back.testBit 0 = false) ∧
    (∃ (s : State) (g : Fin 4), (s.group g).uv = true) ∧
    (∃ (s : State) (g : Fin 4), (s.group g).starved = true ∧ (s.group g).back.testBit 1 = false) ∧
    (∃ (s : State) (g : Fin 4), (s.group g).uvlo = true ∧ (s.group g).vauxOk = none) :=
  ⟨⟨sys .run [.num (Key.pw.OUT_STATE 15) 2], 3, 66001, by decide +kernel⟩,
   ⟨sys .run [.group 3 fun x => { x with ov := true }], 3, 61999, by decide +kernel⟩,
   ⟨sys .run [.num (Key.pw.OUT_STATE 15) 2, .group 3 fun x => { x with vMean := 21 }], 3, by decide +kernel⟩,
   ⟨sys .run [.group 3 fun x => { x with uv := true, uvOk := some 999900000000 }], 3, by decide +kernel⟩,
   ⟨sys .run [.num (Key.pw.OUT_STATE 15) 2], 3, by decide +kernel⟩,
   ⟨sys .run [.group 3 fun x => { x with starved := true }], 3, by decide +kernel⟩,
   ⟨sys .run [.num (Key.pw.OUT_STATE 15) 2], 3, 9799, by decide +kernel⟩,
   ⟨sys .run [.group 3 fun x => { x with uvlo := true }], 3, 10501, by decide +kernel⟩,
   ⟨sys .run [.group 3 fun x => { x with ov := true }], 3, by decide +kernel⟩,
   ⟨sys .run [.group 3 fun x => { x with uv := true }], 3, by decide +kernel⟩,
   ⟨sys .run [.group 3 fun x => { x with starved := true }], 3, by decide +kernel⟩,
   ⟨sys .run [.group 3 fun x => { x with uvlo := true }], 3, by decide +kernel⟩⟩

/-- States and operands that meet the hypotheses of GeneratorsAndCapturesRun. -/
theorem witness_GeneratorsAndCapturesRun :
    (∃ (s : State) (g : Fin 4), s.genState g = 2 ∧ (s.gen g).begun = false) ∧
    (∃ (s : State) (g : Fin 4) (k : Nat), (s.gen g).fall = some k ∧ (s.gen g).fallLen ≤ k ∧ (s.gen g).owner = none) ∧
    (∃ (s : State) (g : Fin 4) (w : EntryWrite) (n : Int), s.Accepts w (Key.gen.G_LEVEL g) ∧ w.value = .num n ∧ s.genState g = 2) ∧
    (∃ (s : State) (k : Fin 8), s.nat (Key.cap.C_STATE k) = 1 ∧ (s.cap k).meets = true ∧ (s.cap k).latest < 2 ^ 64) ∧
    (∃ (s : State) (k : Fin 8), s.nat (Key.cap.C_STATE k) = 2 ∧ s.capParam k 3 ≤ (s.cap k).data.length + s.capParam k 4) ∧
    (∃ (s : State) (r : Fin 64) (w : EntryWrite), s.Accepts w (Key.res.RES_FREE r) ∧ w.value = .num 1 ∧ s.num (Key.res.RES_STATE r) ≠ 1) :=
  ⟨⟨sys .measure [.num (Key.gen.G_STATE 3) 2], 3, by decide +kernel⟩,
   ⟨sys .measure [.num (Key.gen.G_STATE 3) 2, .gen 3 fun x => { x with fall := some 96, fallLen := 96, begun := true }], 3, 96, by decide +kernel⟩,
   ⟨sys .measure [.num (Key.gen.G_STATE 3) 2], 3, ⟨1, 2, .num (-600)⟩, -600, by unfold State.Accepts; decide +kernel, by decide +kernel⟩,
   ⟨sys .measure [.num (Key.cap.C_STATE 7) 1, .cap 7 fun x => { x with pre := [5], meets := true, latest := 77, form := [0, 0, 0, 8, 0, 0, 0, 0, 0] }], 7, by decide +kernel⟩,
   ⟨sys .measure [.num (Key.cap.C_STATE 7) 2, .cap 7 fun x => { x with data := [5, 6], form := [0, 0, 0, 2, 0, 0, 0, 0, 0] }], 7, by decide +kernel⟩,
   ⟨sys .measure [.num (Key.res.RES_STATE 63) 2, .num (Key.res.RES_SLOT 63) 5], 63, ⟨1, 2, .num 1⟩, by unfold State.Accepts; decide +kernel, by decide +kernel⟩⟩

/-- States and operands that meet the hypotheses of AnalysesRunAndEnd. -/
theorem witness_AnalysesRunAndEnd :
    (∃ (s : State) (h : Nat) (x : Handle) (r : Fin 64) (g : Fin 4), s.handle h = some x ∧ x.finished = false ∧ x.result = 0x9100 + r.val ∧ x.gen = some g.val ∧ isAnalysis x.op = true ∧ s.analysisStops x = none ∧ s.measured x = true ∧ s.analysisFails x = false) ∧
    (∃ (s : State) (h : Nat) (x : Handle) (r : Fin 64) (g : Fin 4), s.handle h = some x ∧ x.finished = false ∧ x.result = 0x9100 + r.val ∧ x.gen = some g.val ∧ isAnalysis x.op = true ∧ (ones 16 x.chans).any s.chanFenced = true) ∧
    (∃ (s : State) (h : Nat) (x : Handle) (r : Fin 64) (g : Fin 4), s.handle h = some x ∧ x.finished = false ∧ x.result = 0x9100 + r.val ∧ x.gen = some g.val ∧ x.op = 0x0912 ∧ x.inRun = true ∧ s.expired x.startAt ((x.params.getD 3 0).toNat * 1000000000) = true ∧ x.swept ≠ x.chans) ∧
    (∃ (s : State) (h : Nat) (x : Handle) (r : Fin 64) (g : Fin 4), s.handle h = some x ∧ x.finished = false ∧ x.result = 0x9100 + r.val ∧ x.gen = some g.val ∧ x.op = 0x0912 ∧ x.sweeping = false ∧ x.inRun = false ∧ x.part = 3 ∧ (ones 16 x.chans).all (fun c => s.playing c) = true ∧ s.sweepable x ≠ []) ∧
    (∃ (s : State) (h : Nat) (x : Handle) (r : Fin 64) (g : Fin 4), s.handle h = some x ∧ x.finished = false ∧ x.result = 0x9100 + r.val ∧ x.gen = some g.val ∧ x.op = 0x0912 ∧ x.sweeping = false ∧ x.inRun = true ∧ s.atBoundary = true ∧ s.sweepable x ≠ [] ∧ ((s.sweepable x).all fun c => s.passed (s.chan c).quietSince ((x.params.getD 2 0).toNat * 1000000)) = true) :=
  ⟨⟨sys .measure [.handle 1 fun _ => some (hAn 0x0910), .num (Key.gen.G_STATE 3) 3, .num (Key.res.RES_STATE 63) 1, .num Key.meas.ANALYSES_ACTIVE 1, .gen 3 fun x => { x with begun := true, fall := some 0, fallLen := 0 }], 1, hAn 0x0910, 63, 3, by decide +kernel⟩,
   ⟨sys .measure [.handle 1 fun _ => some (hAn 0x0910), .num (Key.prot.FENCE_CAUSE 0) 1], 1, hAn 0x0910, 63, 3, by decide +kernel⟩,
   ⟨sys .run [.handle 1 fun _ => some { hAn 0x0912 with inRun := true }], 1, { hAn 0x0912 with inRun := true }, 63, 3, by decide +kernel⟩,
   ⟨sys .measure [.handle 1 fun _ => some { hAn 0x0912 with part := 3 }, .num (Key.pw.OUT_STATE 0) 2], 1, { hAn 0x0912 with part := 3 }, 63, 3, by decide +kernel⟩,
   ⟨sys .run [.handle 1 fun _ => some { hAn 0x0912 with inRun := true }, .num (Key.pw.OUT_STATE 0) 2, .chan 0 fun x => { x with quietSince := some 999000000000 }], 1, { hAn 0x0912 with inRun := true }, 63, 3, by decide +kernel⟩⟩

/-- States and operands that meet the hypotheses of CalibrationAndRemovalComplete. -/
theorem witness_CalibrationAndRemovalComplete :
    (∃ (s : State) (c : Fin 16), s.calMay c = true ∧ s.atBoundary = true ∧ s.units.mgmt.served = true ∧ ((∀ d ∈ groupChans (c / 4), (s.chan d).calPhase = 0)) ∧ ((∀ d ∈ groupChans (c / 4), d < c.val → s.calMay d = false))) ∧
    (∃ (s : State) (c : Fin 16) (vo : Int) (vg : Int) (io : Int) (ig : Int), (s.chan c).calPhase = 2 ∧ s.passed (s.chan c).calStart 20000000 = true ∧ s.units.mgmt.served = true ∧ |vo| ≤ 100000 ∧ |io| ≤ 20000 ∧ |vg| ≤ 10000 ∧ |ig| ≤ 10000) ∧
    (∃ (s : State) (c : Fin 16) (vo : Int) (vg : Int) (io : Int) (ig : Int), (s.chan c).calPhase = 2 ∧ s.passed (s.chan c).calStart 20000000 = true ∧ s.units.mgmt.served = true ∧ (100000 < |vo| ∨ 20000 < |io| ∨ 10000 < |vg| ∨ 10000 < |ig|)) ∧
    (∃ (s : State) (h : Nat) (x : Handle), s.units.mgmt.removal = some h ∧ s.mode = .safe ∧ s.units.mgmt.waitMode = none ∧ s.allReleased = true ∧ s.units.mgmt.served = true ∧ s.handle h = some x ∧ x.finished = false) :=
  ⟨⟨sys .run [.chan 12 fun x => { x with calAt := some 0 }, .chan 13 fun x => { x with calAt := some 0 }, .chan 14 fun x => { x with calAt := some 0 }], 15, by decide +kernel⟩,
   ⟨sys .run [.chan 15 fun x => { x with calPhase := 2, calStart := some 999980000000 }], 15, 100000, -10000, 20000, 10000, by decide +kernel⟩,
   ⟨sys .run [.chan 15 fun x => { x with calPhase := 2, calStart := some 999980000000 }], 15, -100001, 0, 0, 0, by decide +kernel⟩,
   ⟨sys .safe [.mgmt fun m => { m with removal := some 1 }, .handle 1 fun _ => some { op := 0x0110, session := 1 }], 1, { op := 0x0110, session := 1 }, by decide +kernel⟩⟩

/-- States and operands that meet the hypotheses of UpdatesLoadAndActivate. -/
theorem witness_UpdatesLoadAndActivate :
    (∃ (s : State), s.Typed ∧ s.updState = 1 ∧ s.units.mgmt.loadErased = false) ∧
    (∃ (s : State), s.Typed ∧ s.updState = 1 ∧ s.units.mgmt.loadErased = true ∧ s.units.mgmt.loadGot ≠ 0 ∧ s.units.mgmt.loadGot = s.units.mgmt.loadLen) ∧
    (∃ (s : State), s.Typed ∧ s.updState = 1 ∧ s.units.mgmt.loadErased = true ∧ s.units.mgmt.loadGot ≠ s.units.mgmt.loadLen ∧ s.expired s.units.mgmt.loadAt 60000000000 = true) ∧
    (∃ (s : State), s.Typed ∧ s.updState = 3 ∧ s.atBoundary = true ∧ s.nat Key.upd.UPDATE_AT ≤ s.blockTime ∧ s.units.mgmt.served = true) ∧
    (∃ (s : State), s.Typed ∧ s.updState = 4 ∧ s.units.mgmt.boundAt + 20000000 ≤ s.mtbNs ∧ s.units.mgmt.served = true ∧ s.units.mgmt.absentAt = none) ∧
    (∃ (s : State) (t0 : _), s.Typed ∧ s.updState = 4 ∧ s.units.mgmt.absentAt = some t0 ∧ s.units.mgmt.cause = 1) ∧
    (∃ (s : State) (g : Fin 4) (v : Nat), s.Typed ∧ (s.group g).trim = some v ∧ s.atBoundary = true ∧ ((∀ c ∈ groupChans g, s.released c = true))) ∧
    (∃ (s : State), s.Typed ∧ s.updState = 5 ∧ s.units.mgmt.rollDue = false ∧ s.units.mgmt.probAt + 600000000000 ≤ s.mtbNs ∧ s.units.mgmt.served = true) ∧
    (∃ (s : State) (w : EntryWrite), s.Accepts w Key.upd.UPDATE_ABORT ∧ w.value = .num 1 ∧ (s.updState = 2 ∨ s.updState = 3)) ∧
    (∃ (s : State) (w : EntryWrite), s.Accepts w Key.upd.UPDATE_ABORT ∧ w.value = .num 1 ∧ s.updState = 5) ∧
    (∃ (s : State) (w : EntryWrite), s.serves = true ∧ w.role ∈ [2, 3] ∧ w.value = .num 1 ∧ s.areaOwned w.session Key.upd.UPDATE_ABORT = false ∧ s.updState ∉ [2, 3, 5]) ∧
    (∃ (s : State), s.updState = 5 ∧ s.units.mgmt.rollDue = true ∧ s.units.mgmt.served = true ∧ s.units.mgmt.absentAt = none) ∧
    (∃ (s : State) (t0 : Nat), s.updState = 5 ∧ s.units.mgmt.absentAt = some t0 ∧ s.units.mgmt.cause = 2) :=
  ⟨⟨sys .run [.num Key.upd.UPDATE_STATE 1], sys_typed _ _, by decide +kernel⟩,
   ⟨sys .run [.num Key.upd.UPDATE_STATE 1, .mgmt fun m => { m with loadErased := true, loadGot := 9, loadLen := 9 }], sys_typed _ _, by decide +kernel⟩,
   ⟨sys .run [.num Key.upd.UPDATE_STATE 1, .mgmt fun m => { m with loadErased := true, loadGot := 8, loadLen := 9, loadAt := 939999999999 }], sys_typed _ _, by decide +kernel⟩,
   ⟨sys .run [.num Key.upd.UPDATE_STATE 3, .num Key.upd.UPDATE_AT 1000000000000], sys_typed _ _, by decide +kernel⟩,
   ⟨sys .run [.num Key.upd.UPDATE_STATE 4, .mgmt fun m => { m with boundAt := 999980000000 }], sys_typed _ _, by decide +kernel⟩,
   ⟨sys .run [.num Key.upd.UPDATE_STATE 4, .mgmt fun m => { m with served := false, absentAt := some 999990000000, cause := 1 }], 999990000000, sys_typed _ _, by decide +kernel⟩,
   ⟨sys .run [.num Key.upd.TRIM_PENDING 31, .group 3 fun x => { x with trim := some 5 }], 3, 5, sys_typed _ _, by decide +kernel⟩,
   ⟨sys .run [.num Key.upd.UPDATE_STATE 5, .mgmt fun m => { m with probAt := 400000000000 }], sys_typed _ _, by decide +kernel⟩,
   ⟨sys .run [.num Key.upd.UPDATE_STATE 3], ⟨1, 2, .num 1⟩, by unfold State.Accepts; decide +kernel, by decide +kernel⟩,
   ⟨sys .run [.num Key.upd.UPDATE_STATE 5], ⟨1, 2, .num 1⟩, by unfold State.Accepts; decide +kernel, by decide +kernel⟩,
   ⟨sys .run [.num Key.upd.UPDATE_STATE 6], ⟨1, 2, .num 1⟩, by decide +kernel⟩,
   ⟨sys .run [.num Key.upd.UPDATE_STATE 5, .mgmt fun m => { m with rollDue := true }], by decide +kernel⟩,
   ⟨sys .run [.num Key.upd.UPDATE_STATE 5, .mgmt fun m => { m with served := false, absentAt := some 999990000000, cause := 2, oldVers := (7, 8, 9) }], 999990000000, by decide +kernel⟩⟩

/-- States and operands that meet the hypotheses of PortsTakeFrames. -/
theorem witness_PortsTakeFrames :
    (∃ (s : State) (p : Fin 4) (hz : Nat), s.portOn p = true ∧ s.isMaster p = false ∧ s.pst p = .noClock ∧ hz ≤ 52000000) ∧
    (∃ (s : State) (p : Fin 4) (count : Nat) (hz : Nat), s.portOn p = true ∧ s.isMaster p = false ∧ s.pst p = .running ∧ s.countOk p count = false ∧ (s.port p).badRun = 0 ∧ (s.port p).pauseAt = none ∧ hz ≤ 52000000) ∧
    (∃ (s : State) (p : Fin 4) (hz : Nat), s.portOn p = true ∧ s.isMaster p = false ∧ s.pst p = .running ∧ (s.port p).maskWait = none ∧ (s.port p).pauseAt = none ∧ (s.port p).resumeAt = none ∧ hz ≤ 52000000) ∧
    (∃ (s : State) (a : Fin 2), s.pst (a + 4) = .acquire) ∧
    (∃ (s : State) (a : Fin 2), (s.port (a + 4)).csBits.1.length = 192 ∧ (s.port (a + 4)).csBits.2.length = 192) :=
  ⟨⟨sys .run [.num (Key.tdm.PORT_EN 3) 1, .num (pstKey 3) (PSt.noClock.code false)], 3, 52000000, by decide +kernel⟩,
   ⟨sys .run [.num (Key.tdm.PORT_EN 3) 1, .num (pstKey 3) (PSt.running.code false)], 3, 255, 12288000, by decide +kernel⟩,
   ⟨sys .run [.num (Key.tdm.PORT_EN 3) 1, .num (pstKey 3) (PSt.running.code false), .port 3 fun x => { x with badRun := 1 }], 3, 12288000, by decide +kernel⟩,
   ⟨sys .run [.num (pstKey 5) (PSt.acquire.code true)], 1, by decide +kernel⟩,
   ⟨sys .run [.port 5 fun x => { x with csBits := (List.replicate 192 false, List.replicate 192 false) }], 1, by decide +kernel⟩⟩

/-- States and operands that meet the hypotheses of PortsChangeState. -/
theorem witness_PortsChangeState :
    (∃ (s : State) (p : Fin 4) (e : Nat) (l : List Nat), s.isMaster p = false ∧ s.pst p ∈ [.acquire, .running, .paused] ∧ (s.port p).edges = e :: l ∧ 2000000000 < (s.mtbNs - e) * s.fs ∧ ((s.port p).faultAt.filter fun t => decide (s.mtbNs < t + 60000000000)).length < 9) ∧
    (∃ (s : State) (a : Fin 2) (e : Nat) (l : List Nat), s.pst (a + 4) ∈ [.acquire, .running] ∧ (s.port (a + 4)).edges = e :: l ∧ 2000000000 < (s.mtbNs - e) * s.fs ∧ ((s.port (a + 4)).faultAt.filter fun t => decide (s.mtbNs < t + 60000000000)).length < 9) ∧
    (∃ (s : State) (u : Fin 6), s.pst u = .acquire ∧ s.passed (s.port u).goodSince 100000000 = true ∧ within 500 (s.rateErr u) = true ∧ 4 ≤ (s.port u).fifo.length) ∧
    (∃ (s : State) (u : Fin 6), s.pst u = .rateMismatch ∧ s.passed (s.port u).rateOk 1000000000 = true) ∧
    (∃ (s : State) (p : Fin 4), s.pst p = .formatError ∧ s.passed (s.port p).goodSince 100000000 = true) ∧
    (∃ (s : State) (u : Fin 6) (w : EntryWrite), s.Accepts w (if u.val < 4 then Key.tmap.FENCE_CLEAR u else Key.aes.FENCE_CLEAR (u.val - 4)) ∧ w.value = .num 1 ∧ s.pst u = .fenced) ∧
    (∃ (s : State) (p : Fin 4) (w : EntryWrite) (n : Nat), s.Accepts w (Key.tdm.PAUSE_AT p) ∧ w.value = .num n) ∧
    (∃ (s : State) (p : Fin 4) (w : EntryWrite) (n : Nat), s.Accepts w (Key.tdm.RESUME_AT p) ∧ w.value = .num n) ∧
    (∃ (s : State) (p : Fin 4) (n : Nat) (e : Nat), (s.port p).pauseAt = some n ∧ s.frameEdge p = some e ∧ n ≤ e ∧ s.pst p = .running) ∧
    (∃ (s : State) (p : Fin 4) (n : Nat) (e : Nat), (s.port p).resumeAt = some n ∧ s.frameEdge p = some e ∧ n ≤ e ∧ s.pst p = .paused) :=
  ⟨⟨sys .run [.num (pstKey 3) (PSt.paused.code false), .port 3 fun x => { x with edges := [999000000000] }], 3, 999000000000, [], by decide +kernel⟩,
   ⟨sys .run [.num (pstKey 5) (PSt.running.code true), .port 5 fun x => { x with edges := [999000000000] }], 1, 999000000000, [], by decide +kernel⟩,
   ⟨sys .run [.num (pstKey 5) (PSt.acquire.code true), .port 5 fun x => { x with goodSince := some 999900000000, clockAt := some 999900000000, edges := [999999000000, 999998979167, 999998958334, 999998937500], fifo := List.replicate 4 (0, []) }], 5, by decide +kernel⟩,
   ⟨sys .run [.num (pstKey 5) (PSt.rateMismatch.code true), .port 5 fun x => { x with rateOk := some 999000000000 }], 5, by decide +kernel⟩,
   ⟨sys .run [.num (pstKey 3) (PSt.formatError.code false), .port 3 fun x => { x with goodSince := some 999900000000 }], 3, by decide +kernel⟩,
   ⟨sys .run [.num (pstKey 5) (PSt.fenced.code true)], 5, ⟨1, 2, .num 1⟩, by unfold State.Accepts; decide +kernel, by decide +kernel⟩,
   ⟨sys .run [.num (pstKey 3) (PSt.running.code false)], 3, ⟨1, 2, .num 0⟩, 0, by unfold State.Accepts; decide +kernel, by decide +kernel⟩,
   ⟨sys .run [.num (pstKey 3) (PSt.paused.code false)], 3, ⟨1, 2, .num 0⟩, 0, by unfold State.Accepts; decide +kernel, by decide +kernel⟩,
   ⟨sys .run [.num (pstKey 3) (PSt.running.code false), .port 3 fun x => { x with pauseAt := some 1000000000000, edges := [1000000000000] }], 3, 1000000000000, 1000000000000, by decide +kernel⟩,
   ⟨sys .run [.num (pstKey 3) (PSt.paused.code false), .port 3 fun x => { x with resumeAt := some 0, edges := [1000000000000] }], 3, 0, 1000000000000, by decide +kernel⟩⟩

/-- States and operands that meet the hypotheses of MacsReceiveAndSend. -/
theorem witness_MacsReceiveAndSend :
    (∃ (s : State) (m : Fin 2) (v : Nat), s.flag (Key.mac.MAC_EN m) = true ∧ s.nat (Key.mac.LINK_STATE m) ≠ v ∧ v < 3 ∧ (s.mac m).fifo = []) ∧
    (∃ (s : State) (m : Fin 2), s.linkUp m = true) ∧
    (∃ (s : State) (m : Fin 2) (b : List Byte) (i : _), s.linkUp m = true ∧ 60 ≤ b.length ∧ b.length ≤ 2044 ∧ (rxInfo b).etherType ≠ 0x8808 ∧ (rxInfo b).vids = [] ∧ (((rxInfo b).dest = 0xFFFFFFFFFFFF ∨ (rxInfo b).dest = s.nat (Key.mac.MAC_ADDR m))) ∧ (rxInfo b).fragment = false ∧ s.subFor m (rxInfo b) = some i ∧ s.mode.places = true ∧ (rxInfo b).ptp = false) ∧
    (∃ (s : State) (m : Fin 2) (b : List Byte), s.linkUp m = true ∧ 60 ≤ b.length ∧ b.length ≤ 2044 ∧ (rxInfo b).etherType ≠ 0x8808 ∧ (rxInfo b).vids = [] ∧ (((rxInfo b).dest = 0xFFFFFFFFFFFF ∨ (rxInfo b).dest = s.nat (Key.mac.MAC_ADDR m))) ∧ (rxInfo b).fragment = false ∧ s.subFor m (rxInfo b) = none ∧ s.units.mgmt.served = true ∧ (rxInfo b).udp = false ∧ (rxInfo b).ptp = false ∧ s.atBoundary = false ∧ 16 + max 1 ((b.length + 511) / 512) ≤ (s.mac m).free) ∧
    (∃ (s : State) (m : Fin 2), s.linkUp m = false) ∧
    (∃ (s : State) (m : Fin 2) (f : Frame), s.linkUp m = true ∧ (s.mac m).fifo = [] ∧ (s.mac m).turn = some f ∧ f.len ≤ 2048) ∧
    (∃ (s : State) (k : Fin 8) (f : Frame), (s.mac 0).waiting = [f] ∧ (s.mac 1).waiting = [] ∧ f.kind = 2 ∧ f.unit = k ∧ s.expired f.queuedAt s.blockNs = true) :=
  ⟨⟨sys .run [.num (Key.mac.LINK_STATE 1) 2], 1, 1, by decide +kernel⟩,
   ⟨sys .run [.num (Key.mac.LINK_STATE 1) 1], 1, by decide +kernel⟩,
   ⟨sys .run [.num (Key.mac.LINK_STATE 1) 1, .num (Key.sub.ENABLE 0) 1, .num (Key.sub.PORT 0) 1, .num (Key.sub.DEST_ADDR 0) 7, .num (Key.sub.DEST_PORT 0) 5004], 1, be 6 281474976710655 ++ be 6 9 ++ be 2 0x0800 ++ [0x45, 0, 0, 38, 0, 0, 0, 0, 64, 17, 0, 0] ++ be 4 9 ++ be 4 7 ++ be 2 1 ++ be 2 5004 ++ be 2 18 ++ be 2 0 ++ List.replicate 18 1, 0, by decide +kernel⟩,
   ⟨{ sys .run [.num (Key.mac.LINK_STATE 1) 1] with mtb := 1000000100000 * 4294967296 }, 1, be 6 281474976710655 ++ be 6 9 ++ be 2 0x0806 ++ List.replicate 46 0, by decide +kernel⟩,
   ⟨sys .run [], 1, by decide +kernel⟩,
   ⟨sys .run [.num (Key.mac.LINK_STATE 1) 1, queueFrame 1 { kind := 1, prio := 0, len := 100 }], 1, { kind := 1, prio := 0, len := 100 }, by decide +kernel⟩,
   ⟨sys .run [queueFrame 0 { kind := 2, unit := 7, queuedAt := 999999000000 - 333333 }], 7, { kind := 2, unit := 7, queuedAt := 999999000000 - 333333 }, by decide +kernel⟩⟩

/-- States and operands that meet the hypotheses of AddressesAndGroupsAreKept. -/
theorem witness_AddressesAndGroupsAreKept :
    (∃ (s : State) (m : Fin 2) (sip : Nat), s.units.mgmt.served = true ∧ s.linkUp m = true ∧ sip ≠ 0 ∧ sip ≠ s.nat (Key.ip.ADDR_NOW_N m) ∧ s.nat (Key.ip.ADDR_NOW_N m) ≠ 0) ∧
    (∃ (s : State) (m : Fin 2), s.units.mgmt.served = true ∧ s.linkUp m = true) ∧
    (∃ (s : State) (m : Fin 2), s.units.mgmt.served = true ∧ s.linkUp m = true ∧ s.nat (Key.ip.ADDR_NOW_N m) ≠ 0 ∧ (s.mac m).icmp = []) ∧
    (∃ (s : State) (m : Fin 2), s.units.mgmt.served = true ∧ s.linkUp m = true ∧ (s.mac m).groups ≠ [] ∧ (s.mac m).querier1 = none ∧ (s.mac m).querier2 = none) ∧
    (∃ (s : State) (m : Fin 2) (x : Nat × Nat) (at' : Nat), s.units.mgmt.served = true ∧ s.linkUp m = true ∧ (s.mac m).reports = [(x, at')] ∧ at' ≤ s.mtbNs ∧ (s.mac m).memb = [x] ∧ s.nat (if m.val = 0 then Key.mc.IGMP_MODE_N0 else Key.mc.IGMP_MODE_N1) = 3) ∧
    (∃ (s : State) (m : Fin 2), s.units.mgmt.served = true ∧ s.linkUp m = true ∧ s.num (Key.ip.IP_MODE_N m) = 1) ∧
    (∃ (s : State) (m : Fin 2) (at' : Nat), s.units.mgmt.served = true ∧ s.linkUp m = true ∧ (s.mac m).retryAt = some at' ∧ at' ≤ s.mtbNs) ∧
    (∃ (s : State) (m : Fin 2), s.units.mgmt.served = true ∧ s.linkUp m = true ∧ s.num (Key.ip.IP_MODE_N m) = 1 ∧ s.num (Key.ip.ADDR_SOURCE_N m) = 0 ∧ (s.mac m).lease = none ∧ (s.mac m).upAt.any (fun t0 => s.expired t0 (s.nat Key.ip.DHCP_FALLBACK * 1000000000)) = true) ∧
    (∃ (s : State) (m : Fin 2), s.units.mgmt.served = true ∧ s.linkUp m = true ∧ s.nat (Key.ip.ADDR_NOW_N m) ≠ 0 ∧ s.num (Key.ip.ADDR_SOURCE_N m) = 3) :=
  ⟨⟨sys .run [.num (Key.mac.LINK_STATE 1) 1, .num (Key.ip.ADDR_NOW_N 1) 3232235777], 1, 3232235778, by decide +kernel⟩,
   ⟨sys .run [.num (Key.mac.LINK_STATE 1) 1, .mac 1 fun x => { x with arp := [(1, 2, 900000000000), (2, 3, 700000000000)] }], 1, by decide +kernel⟩,
   ⟨sys .run [.num (Key.mac.LINK_STATE 1) 1, .num (Key.ip.ADDR_NOW_N 1) 3232235777], 1, by decide +kernel⟩,
   ⟨sys .run [.num (Key.mac.LINK_STATE 1) 1, .mac 1 fun x => { x with groups := [4009754625] }], 1, by decide +kernel⟩,
   ⟨sys .run [.num (Key.mac.LINK_STATE 1) 1, .mac 1 fun x => { x with memb := [(4009754625, 7)], reports := [((4009754625, 7), 5)] }], 1, (4009754625, 7), 5, by decide +kernel⟩,
   ⟨sys .run [.num (Key.mac.LINK_STATE 1) 1, .num (Key.ip.IP_MODE_N 1) 1], 1, by decide +kernel⟩,
   ⟨sys .run [.num (Key.mac.LINK_STATE 1) 1, .mac 1 fun x => { x with retryAt := some 5 }], 1, 5, by decide +kernel⟩,
   ⟨sys .run [.num (Key.mac.LINK_STATE 1) 1, .num (Key.ip.IP_MODE_N 1) 1, .mac 1 fun x => { x with upAt := some 0 }], 1, by decide +kernel⟩,
   ⟨sys .run [.num (Key.mac.LINK_STATE 1) 1, .num (Key.ip.ADDR_NOW_N 1) 0xA9FE0101, .num (Key.ip.ADDR_SOURCE_N 1) 3], 1, by decide +kernel⟩⟩

/-- States and operands that meet the hypotheses of CanCarriesSegments. -/
theorem witness_CanCarriesSegments :
    (∃ (s : State), s.canOn = true ∧ s.num Key.can.CAN_STATE ≠ 3 ∧ s.units.can.reasm = none) ∧
    (∃ (s : State) (a : List Byte), s.canOn = true ∧ s.num Key.can.CAN_STATE ≠ 3 ∧ s.units.can.reasm = some a ∧ s.units.can.nextSeg = 1) ∧
    (∃ (s : State) (id : Nat) (b : List Byte) (q : List (Nat × Nat × List Byte)), s.canOn = true ∧ s.num Key.can.CAN_STATE ≠ 3 ∧ s.units.can.txq = (id, 0, b) :: q ∧ b.length ≤ 63) ∧
    (∃ (s : State) (a : List Byte), s.units.can.reasm = some a ∧ s.expired s.units.can.reasmAt 100000000 = true) ∧
    (∃ (s : State) (new : Nat) (tec : Nat) (rcv : Nat), s.canOn = true ∧ canMoves (s.nat Key.can.CAN_STATE) new tec rcv = true) ∧
    (∃ (s : State), s.canOn = false) ∧
    (∃ (s : State), s.canOn = false) :=
  ⟨⟨sys .run [.num Key.can.CAN_EN 1, .num Key.can.CAN_NODE 63], by decide +kernel⟩,
   ⟨sys .run [.num Key.can.CAN_EN 1, .num Key.can.CAN_NODE 63, .can fun x => { x with reasm := some [1], nextSeg := 1 }], [1], by decide +kernel⟩,
   ⟨sys .run [.num Key.can.CAN_EN 1, .can fun x => { x with txq := [(1151, 0, [1, 2, 3])] }], 1151, [1, 2, 3], [], by decide +kernel⟩,
   ⟨sys .run [.can fun x => { x with reasm := some [1], reasmAt := 999899999999 }], [1], by decide +kernel⟩,
   ⟨sys .run [.num Key.can.CAN_EN 1, .can fun x => { x with txq := [(1151, 0, [1, 2, 3])] }], 3, 256, 0, by decide +kernel⟩,
   ⟨sys .run [.num Key.can.CAN_EN 0], by decide +kernel⟩,
   ⟨sys .run [.num Key.can.CAN_EN 0], by decide +kernel⟩⟩

/-- States and operands that meet the hypotheses of SessionsOpen. -/
theorem witness_SessionsOpen :
    (∃ (s : State) (m : CdlMsg) (k : List Byte), s.serves = true ∧ soundMsg m = true ∧ m.payload.length = 20 ∧ leAt m.payload 0 1 ≤ 3 ∧ s.roleKey (leAt m.payload 0 1) m.peer = some k ∧ s.lockedOut m.peer = false ∧ s.liveSessions.length < 32) ∧
    (∃ (s : State) (m : CdlMsg) (x : Session), s.serves = true ∧ soundMsg m = true ∧ s.session m.session = some x ∧ x.ended = false ∧ x.isOpen = false ∧ samePeer x.peer m.peer = true ∧ m.payload = [] ∧ 1 ≤ m.sequence ∧ m.tag = cdlTag x.key (cdlHeader 0 m.session m.sequence 2 m.status 0) []) ∧
    (∃ (s : State) (m : CdlMsg) (x : Session), s.serves = true ∧ soundMsg m = true ∧ s.session m.session = some x ∧ x.ended = false ∧ x.isOpen = false ∧ samePeer x.peer m.peer = true ∧ m.payload = [] ∧ 1 ≤ m.sequence ∧ m.tag ≠ cdlTag x.key (cdlHeader 0 m.session m.sequence 2 m.status 0) []) ∧
    (∃ (s : State) (transport : Nat) (b : List Byte), s.serves = true ∧ checkOne transport b = false) ∧
    (∃ (s : State) (m : CdlMsg) (x : Session) (op : Nat), s.Hears op m x ∧ op < 256 ∧ op ∉ requestOpcodes) :=
  ⟨⟨sys .safe [.reg Key.key.KEY_ENGINEER (.bytes (List.replicate 32 7))], { msg 1 (le 4 2 ++ List.replicate 16 9) with session := 0, tag := List.replicate 16 0 }, List.replicate 32 7, by decide +kernel⟩,
   ⟨talk { xOpen with isOpen := false } [], msg 2 [], { xOpen with isOpen := false }, by decide +kernel⟩,
   ⟨talk { xOpen with isOpen := false } [], { msg 2 [] with tag := List.replicate 16 0 }, { xOpen with isOpen := false }, by decide +kernel⟩,
   ⟨sys .safe [], 0, [1, 2, 3], by decide +kernel⟩,
   ⟨talk xOpen [], msg 0x60 [], xOpen, 0x60, heard (by decide +kernel) (by decide +kernel) (by decide +kernel) (by decide +kernel), by decide +kernel⟩⟩

/-- States and operands that meet the hypotheses of ReadsAreAnswered. -/
theorem witness_ReadsAreAnswered :
    (∃ (s : State) (m : CdlMsg) (x : Session) (k : Nat), s.Hears 0x10 m x ∧ m.payload.length = 4 ∧ k = keyAt m.payload 0 ∧ readStatus k = St.ok ∧ ((s.noted 0x10 m).readValue m.session k).length ≤ 1400) ∧
    (∃ (s : State) (m : CdlMsg) (x : Session) (k : Nat), s.Hears 0x10 m x ∧ m.payload.length = 4 ∧ k = keyAt m.payload 0 ∧ readStatus k ≠ St.ok) ∧
    (∃ (s : State) (m : CdlMsg) (x : Session) (k : Nat), s.Hears 0x12 m x ∧ m.payload.length = 8 ∧ leAt m.payload 0 1 = 1 ∧ k = keyAt m.payload 4 ∧ readStatus k = St.ok ∧ ((s.noted 0x12 m).readValue m.session k).length ≤ 1400) ∧
    (∃ (s : State) (m : CdlMsg) (x : Session) (k : Nat) (r : Row), s.Hears 0x14 m x ∧ m.payload.length = 12 ∧ k = keyAt m.payload 0 ∧ Dict.row k = some r ∧ r.acc ≠ .wo ∧ r.ty = .blob ∧ leAt m.payload 4 4 < (s.noted 0x14 m).blobTotal m.session k ∧ leAt m.payload 8 2 ≤ 1400) ∧
    (∃ (s : State) (m : CdlMsg) (x : Session) (y : _), s.Hears 0x51 m x ∧ m.payload.length = 8 ∧ leAt m.payload 0 2 ≠ 0 ∧ s.kept (leAt m.payload 0 2) = some y) ∧
    (∃ (s : State) (m : CdlMsg) (x : Session), s.Hears 0x51 m x ∧ m.payload.length = 8 ∧ leAt m.payload 0 2 = 0 ∧ x.ring = []) ∧
    (∃ (s : State) (n : Nat) (q : Nat) (x : Session) (e : EventRec), s.session n = some x ∧ s.serves = true ∧ x.isOpen = true ∧ x.ring = [(q, e)] ∧ x.sentSeq ≤ q) :=
  ⟨⟨talk xOpen [], msg 0x10 (le 2 0x1100 ++ [2, 0]), xOpen, Key.ses.SESSION_TIMEOUT, heard (by decide +kernel) (by decide +kernel) (by decide +kernel) (by decide +kernel), by decide +kernel⟩,
   ⟨talk xOpen [], msg 0x10 (le 2 0x1110 ++ [6, 0]), xOpen, Key.key.KEY_CLEAR, heard (by decide +kernel) (by decide +kernel) (by decide +kernel) (by decide +kernel), by decide +kernel⟩,
   ⟨talk xOpen [], msg 0x12 ([1, 0, 0, 0] ++ le 2 0x1100 ++ [2, 0]), xOpen, Key.ses.SESSION_TIMEOUT, heard (by decide +kernel) (by decide +kernel) (by decide +kernel) (by decide +kernel), by decide +kernel⟩,
   ⟨talk xOpen [.reg (Key.mon.MON_MAP 0) (.bytes [1, 2, 3])], msg 0x14 (le 2 0x2060 ++ [10, 0] ++ le 4 1 ++ le 4 1400), xOpen, Key.mon.MON_MAP 0, rowOf (Key.mon.MON_MAP 0), heard (by decide +kernel) (by decide +kernel) (by decide +kernel) (by decide +kernel), by decide +kernel⟩,
   ⟨talk xOpen [.handle 1 fun _ => some { op := 0x0B31, session := 1 }], msg 0x51 (le 8 1), xOpen, { op := 0x0B31, session := 1 }, heard (by decide +kernel) (by decide +kernel) (by decide +kernel) (by decide +kernel), by decide +kernel⟩,
   ⟨talk xOpen [], msg 0x51 (le 8 0), xOpen, heard (by decide +kernel) (by decide +kernel) (by decide +kernel) (by decide +kernel), by decide +kernel⟩,
   ⟨talk { xOpen with ring := [(1, {})] } [], 1, 1, { xOpen with ring := [(1, {})] }, {}, by decide +kernel⟩⟩

/-- States and operands that meet the hypotheses of WritesTakeEffectAndAreAnswered. -/
theorem witness_WritesTakeEffectAndAreAnswered :
    (∃ (s : State) (m : CdlMsg) (x : Session) (k : Nat) (t' : Ty) (v : Value) (r : Row), s.Hears 0x11 m x ∧ PlainEntry k ∧ 1 ≤ x.role ∧ writeItem m.payload = some (k, t', v) ∧ Dict.row k = some r ∧ r.acc = .rw ∧ (s.noted 0x11 m).writeStatus ⟨m.session, x.role⟩ k (some t') v = St.ok ∧ r.eff = .acc ∧ r.ty.ok v = true ∧ r.ty ≠ .blob ∧ (s.noted 0x11 m).clearReply k v = St.ok) ∧
    (∃ (s : State) (m : CdlMsg) (x : Session) (k : Nat) (t' : Ty) (v : Value) (r : Row) (st : _), s.Hears 0x11 m x ∧ 1 ≤ x.role ∧ writeItem m.payload = some (k, t', v) ∧ Dict.row k = some r ∧ r.acc = .rw ∧ st ≠ St.ok ∧ (s.noted 0x11 m).writeStatus ⟨m.session, x.role⟩ k (some t') v = st) ∧
    (∃ (s : State) (m : CdlMsg) (x : Session) (k : Nat) (t' : Ty) (v : Value) (r : Row), s.Hears 0x13 m x ∧ PlainEntry k ∧ 1 ≤ x.role ∧ writeItems m.payload = some [(k, t', v)] ∧ Dict.row k = some r ∧ r.acc = .rw ∧ r.eff = .acc ∧ r.ty.ok v = true ∧ r.ty ≠ .blob ∧ (s.noted 0x13 m).writeStatus ⟨m.session, x.role⟩ k (some t') v = St.ok ∧ (s.noted 0x13 m).clearReply k v = St.ok) ∧
    (∃ (s : State) (m : CdlMsg) (x : Session) (k : Nat) (r : Row) (data : List Byte), s.Hears 0x15 m x ∧ 1 ≤ x.role ∧ data = m.payload.drop 12 ∧ 12 ≤ m.payload.length ∧ k = keyAt m.payload 0 ∧ Dict.row k = some r ∧ isKey k = false ∧ k ≠ Key.upd.UPDATE_IMAGE ∧ leAt m.payload 4 4 = 0 ∧ data.length < leAt m.payload 8 4 ∧ inRanges r.rng (leAt m.payload 8 4) = true ∧ firstFault (((s.noted 0x15 m).headFaults ⟨m.session, x.role⟩ k (some .blob) (.bytes [])).filter fun st => st != St.range) = St.ok) ∧
    (∃ (s : State) (m : CdlMsg) (x : Session) (k : Nat) (v : List Byte), s.Hears 0x15 m x ∧ 1 ≤ x.role ∧ k = keyAt m.payload 0 ∧ isKey k = true ∧ m.payload.length = 44 ∧ leAt m.payload 4 4 = 0 ∧ leAt m.payload 8 4 = 32 ∧ v = List.zipWith (fun a b => a ^^^ b) (m.payload.drop 12) (keyMask x.key m.sequence) ∧ v.length = 32 ∧ v ≠ List.replicate 32 0 ∧ firstFault (((s.noted 0x15 m).headFaults ⟨m.session, x.role⟩ k (some .blob) (.bytes [])).filter fun st => st != St.range) = St.ok ∧ (s.noted 0x15 m).writeStatus ⟨m.session, x.role⟩ k (some .blob) (.bytes v) = St.ok) :=
  ⟨⟨talk xOpen [], msg 0x11 (le 2 0x9100 ++ [11, 1, 1]), xOpen, Key.res.RES_HOLD 0, .bool, .num 1, rowOf (Key.res.RES_HOLD 0), heard (by decide +kernel) (by decide +kernel) (by decide +kernel) (by decide +kernel), plain_hold, by decide +kernel⟩,
   ⟨talk xOpen [], msg 0x11 (le 2 0x1100 ++ [2, 3] ++ le 2 4), xOpen, Key.ses.SESSION_TIMEOUT, .u16, .num 4, rowOf Key.ses.SESSION_TIMEOUT, St.range, heard (by decide +kernel) (by decide +kernel) (by decide +kernel) (by decide +kernel), by decide +kernel⟩,
   ⟨talk xOpen [], msg 0x13 ([1, 0, 0, 0] ++ le 2 0x9100 ++ [11, 1, 1]), xOpen, Key.res.RES_HOLD 0, .bool, .num 1, rowOf (Key.res.RES_HOLD 0), heard (by decide +kernel) (by decide +kernel) (by decide +kernel) (by decide +kernel), plain_hold, by decide +kernel⟩,
   ⟨talk xOpen [], msg 0x15 (le 2 0x2060 ++ [10, 0] ++ le 4 0 ++ le 4 4 ++ [1, 2]), xOpen, Key.mon.MON_MAP 0, rowOf (Key.mon.MON_MAP 0), [1, 2], heard (by decide +kernel) (by decide +kernel) (by decide +kernel) (by decide +kernel), by decide +kernel⟩,
   ⟨talk xOpen [], msg 0x15 (le 2 0x1110 ++ [1, 0] ++ le 4 0 ++ le 4 32 ++ keyMask xOpen.key 1 |>.mapIdx fun i b => if i = 12 then b + 1 else b), xOpen, Key.key.KEY_MONITOR, List.zipWith (fun a b => a ^^^ b) ((msg 0x15 (le 2 0x1110 ++ [1, 0] ++ le 4 0 ++ le 4 32 ++ keyMask xOpen.key 1 |>.mapIdx fun i b => if i = 12 then b + 1 else b)).payload.drop 12) (keyMask xOpen.key 1), heard (by decide +kernel) (by decide +kernel) (by decide +kernel) (by decide +kernel), by decide +kernel⟩⟩

/-- States and operands that meet the hypotheses of TransactionsClaimsAndSubscriptions. -/
theorem witness_TransactionsClaimsAndSubscriptions :
    (∃ (s : State) (m : CdlMsg) (x : Session) (k : Nat) (t' : Ty) (v : Value), s.Hears 0x20 m x ∧ 1 ≤ x.role ∧ x.txn = none ∧ writeItems m.payload = some [(k, t', v)] ∧ firstFault ((s.noted 0x20 m).headFaults ⟨m.session, x.role⟩ k (some t') v) = St.ok ∧ (Dict.row k).map (·.acc) ≠ some .wo ∧ stageBytes [(k, v)] ≤ 65536) ∧
    (∃ (s : State) (m : CdlMsg) (x : Session) (items : List (Nat × Value)), s.Hears 0x21 m x ∧ 1 ≤ x.role ∧ m.payload.length = 12 ∧ leAt m.payload 0 8 = 0 ∧ x.txn = some items ∧ x.commit = none ∧ x.xfer = none ∧ (s.noted 0x21 m).commitFault ⟨m.session, x.role⟩ items s.nextBoundary false = none) ∧
    (∃ (s : State) (m : CdlMsg) (x : Session), s.Hears 0x22 m x ∧ 1 ≤ x.role ∧ m.payload = [] ∧ x.txn.isSome = true ∧ x.commit = none) ∧
    (∃ (s : State) (m : CdlMsg) (x : Session) (a : Nat), s.Hears 0x30 m x ∧ 2 ≤ x.role ∧ m.payload.length = 4 ∧ a = leAt m.payload 0 1 ∧ claimable a = true ∧ s.areaHolder a = none ∧ x.claims = []) ∧
    (∃ (s : State) (m : CdlMsg) (x : Session) (a : Nat), s.Hears 0x31 m x ∧ m.payload.length = 4 ∧ a = leAt m.payload 0 1 ∧ a ≠ 0) ∧
    (∃ (s : State) (m : CdlMsg) (x : Session) (lo : Nat) (hi : Nat), s.Hears 0x40 m x ∧ m.payload.length = 8 ∧ leAt m.payload 0 1 = 1 ∧ lo = leAt m.payload 4 2 ∧ hi = leAt m.payload 6 2 ∧ lo ≤ hi ∧ x.ranges = []) ∧
    (∃ (s : State) (m : CdlMsg) (x : Session), s.Hears 0x41 m x ∧ m.payload.length = 4 ∧ leAt m.payload 0 1 = 0) ∧
    (∃ (s : State) (m : CdlMsg) (x : Session) (h : Nat) (y : Handle), s.Hears 0x52 m x ∧ 2 ≤ x.role ∧ m.payload.length = 4 ∧ h = leAt m.payload 0 2 ∧ s.kept h = some y ∧ s.handle h = some y ∧ y.finished = false ∧ isAnalysis y.op = true) :=
  ⟨⟨talk xOpen [], msg 0x20 ([1, 0, 0, 0] ++ le 2 0x2060 ++ [9, 4] ++ le 4 9), xOpen, Key.mon.MON_SSRC 0, .u32, .num 9, heard (by decide +kernel) (by decide +kernel) (by decide +kernel) (by decide +kernel), by decide +kernel⟩,
   ⟨talk { xOpen with txn := some [(Key.mon.MON_SSRC 0, .num 9)] } [], msg 0x21 (List.replicate 12 0), { xOpen with txn := some [(Key.mon.MON_SSRC 0, .num 9)] }, [(Key.mon.MON_SSRC 0, .num 9)], heard (by decide +kernel) (by decide +kernel) (by decide +kernel) (by decide +kernel), by decide +kernel⟩,
   ⟨talk { xOpen with txn := some [(Key.mon.MON_SSRC 0, .num 9)] } [], msg 0x22 [], { xOpen with txn := some [(Key.mon.MON_SSRC 0, .num 9)] }, heard (by decide +kernel) (by decide +kernel) (by decide +kernel) (by decide +kernel), by decide +kernel⟩,
   ⟨talk xOpen [], msg 0x30 [0xA0, 0, 0, 0], xOpen, 0xA0, heard (by decide +kernel) (by decide +kernel) (by decide +kernel) (by decide +kernel), by decide +kernel⟩,
   ⟨talk { xOpen with claims := [0x60, 0xA0] } [], msg 0x31 [0xA0, 0, 0, 0], { xOpen with claims := [0x60, 0xA0] }, 0xA0, heard (by decide +kernel) (by decide +kernel) (by decide +kernel) (by decide +kernel), by decide +kernel⟩,
   ⟨talk xOpen [], msg 0x40 ([1, 0, 0, 0] ++ le 2 5 ++ le 2 5), xOpen, 5, 5, heard (by decide +kernel) (by decide +kernel) (by decide +kernel) (by decide +kernel), by decide +kernel⟩,
   ⟨talk { xOpen with ranges := [(1, 5)] } [], msg 0x41 [0, 0, 0, 0], { xOpen with ranges := [(1, 5)] }, heard (by decide +kernel) (by decide +kernel) (by decide +kernel) (by decide +kernel), by decide +kernel⟩,
   ⟨talk xOpen [.handle 1 fun _ => some (hAn 0x0910)], msg 0x52 [1, 0, 0, 0], xOpen, 1, hAn 0x0910, heard (by decide +kernel) (by decide +kernel) (by decide +kernel) (by decide +kernel), by decide +kernel⟩⟩

/-- States and operands that meet the hypotheses of OperationsStart. -/
theorem witness_OperationsStart :
    (∃ (s : State) (m : CdlMsg) (x : Session) (chans : Nat) (slot : Nat), s.Starts 0x0910 m x (le 2 chans ++ le 1 slot ++ [0]) ∧ 2 ≤ x.role ∧ chans < 65536 ∧ slot < 256 ∧ (s.noted 0x50 m).analysisRefused 0x0910 chans slot = none) ∧
    (∃ (s : State) (m : CdlMsg) (x : Session) (chans : Nat) (slot : Nat), s.Starts 0x0911 m x (le 2 chans ++ le 1 slot ++ [0]) ∧ 2 ≤ x.role ∧ chans < 65536 ∧ slot < 256 ∧ (s.noted 0x50 m).analysisRefused 0x0911 chans slot = none) ∧
    (∃ (s : State) (m : CdlMsg) (x : Session) (chans : Nat) (slot : Nat), s.Starts 0x0912 m x (le 2 chans ++ le 1 slot ++ [0]) ∧ 2 ≤ x.role ∧ chans < 65536 ∧ slot < 256 ∧ (s.noted 0x50 m).analysisRefused 0x0912 chans slot = none) ∧
    (∃ (s : State) (m : CdlMsg) (x : Session) (chans : Nat) (slot : Nat), s.Starts 0x0913 m x (le 2 chans ++ le 1 slot ++ [0]) ∧ 2 ≤ x.role ∧ chans < 65536 ∧ slot < 256 ∧ (s.noted 0x50 m).analysisRefused 0x0913 chans slot = none) ∧
    (∃ (s : State) (m : CdlMsg) (x : Session) (chans : Nat) (slot : Nat), s.Starts 0x0914 m x (le 2 chans ++ le 1 slot ++ [0]) ∧ 2 ≤ x.role ∧ chans < 65536 ∧ slot < 256 ∧ (s.noted 0x50 m).analysisRefused 0x0914 chans slot = none) ∧
    (∃ (s : State) (m : CdlMsg) (x : Session), s.Starts 0x0110 m x [] ∧ 2 ≤ x.role ∧ s.units.mgmt.removal = none) ∧
    (∃ (s : State) (m : CdlMsg) (x : Session), s.Starts 0x0B30 m x [] ∧ x.role = 2 ∧ s.mode = .safe ∧ s.units.mgmt.restoreDue = none) ∧
    (∃ (s : State) (m : CdlMsg) (x : Session) (chans : Nat), s.Starts 0x0B31 m x (le 2 chans ++ le 2 0) ∧ 2 ≤ x.role ∧ chans < 65536 ∧ chans ≠ 0 ∧ s.calRefused chans = false) ∧
    (∃ (s : State) (m : CdlMsg) (x : Session) (len : Nat), s.Starts 0x0B20 m x (le 4 len) ∧ 2 ≤ x.role ∧ len ≠ 0 ∧ len ≤ 12582912 ∧ s.updState ∉ [1, 3, 4, 5]) ∧
    (∃ (s : State) (m : CdlMsg) (x : Session), s.Starts 0x0B21 m x (le 8 0 ++ le 4 0) ∧ 2 ≤ x.role ∧ s.updState = 2) :=
  ⟨⟨meas xOpen, msg 0x50 (le 2 0x0910 ++ le 2 0 ++ (le 2 1 ++ le 1 0 ++ [0])), xOpen, 1, 0, ⟨heard (by decide +kernel) (by decide +kernel) (by decide +kernel) (by decide +kernel), by decide +kernel, by decide +kernel⟩, by decide +kernel⟩,
   ⟨meas xOpen, msg 0x50 (le 2 0x0911 ++ le 2 0 ++ (le 2 1 ++ le 1 0 ++ [0])), xOpen, 1, 0, ⟨heard (by decide +kernel) (by decide +kernel) (by decide +kernel) (by decide +kernel), by decide +kernel, by decide +kernel⟩, by decide +kernel⟩,
   ⟨meas xOpen, msg 0x50 (le 2 0x0912 ++ le 2 0 ++ (le 2 1 ++ le 1 0 ++ [0])), xOpen, 1, 0, ⟨heard (by decide +kernel) (by decide +kernel) (by decide +kernel) (by decide +kernel), by decide +kernel, by decide +kernel⟩, by decide +kernel⟩,
   ⟨meas xOpen, msg 0x50 (le 2 0x0913 ++ le 2 0 ++ (le 2 1 ++ le 1 0 ++ [0])), xOpen, 1, 0, ⟨heard (by decide +kernel) (by decide +kernel) (by decide +kernel) (by decide +kernel), by decide +kernel, by decide +kernel⟩, by decide +kernel⟩,
   ⟨{ talk xOpen [.num Key.meas.MEAS_CHANNELS 1, .num (Key.ls.SLOT_STATE 0) 1, .num (Key.ls.OWNER_CH 0) 0] with mode := .measure }, msg 0x50 (le 2 0x0914 ++ le 2 0 ++ (le 2 1 ++ le 1 0 ++ [0])), xOpen, 1, 0, ⟨heard (by decide +kernel) (by decide +kernel) (by decide +kernel) (by decide +kernel), by decide +kernel, by decide +kernel⟩, by decide +kernel⟩,
   ⟨talk xOpen [], msg 0x50 (le 2 0x0110 ++ le 2 0 ++ []), xOpen, ⟨heard (by decide +kernel) (by decide +kernel) (by decide +kernel) (by decide +kernel), by decide +kernel, by decide +kernel⟩, by decide +kernel⟩,
   ⟨talk xOpen [], msg 0x50 (le 2 0x0B30 ++ le 2 0 ++ []), xOpen, ⟨heard (by decide +kernel) (by decide +kernel) (by decide +kernel) (by decide +kernel), by decide +kernel, by decide +kernel⟩, by decide +kernel⟩,
   ⟨talk xOpen [], msg 0x50 (le 2 0x0B31 ++ le 2 0 ++ (le 2 65535 ++ le 2 0)), xOpen, 65535, ⟨heard (by decide +kernel) (by decide +kernel) (by decide +kernel) (by decide +kernel), by decide +kernel, by decide +kernel⟩, by decide +kernel⟩,
   ⟨talk xOpen [], msg 0x50 (le 2 0x0B20 ++ le 2 0 ++ le 4 12582912), xOpen, 12582912, ⟨heard (by decide +kernel) (by decide +kernel) (by decide +kernel) (by decide +kernel), by decide +kernel, by decide +kernel⟩, by decide +kernel⟩,
   ⟨talk xOpen [.num Key.upd.UPDATE_STATE 2], msg 0x50 (le 2 0x0B21 ++ le 2 0 ++ (le 8 0 ++ le 4 0)), xOpen, ⟨heard (by decide +kernel) (by decide +kernel) (by decide +kernel) (by decide +kernel), by decide +kernel, by decide +kernel⟩, by decide +kernel⟩⟩

/-- States and operands that meet the hypotheses of SessionsAndKeysExpire. -/
theorem witness_SessionsAndKeysExpire :
    (∃ (s : State) (n : Nat) (x : Session), s.session n = some x ∧ s.serves = true ∧ x.isOpen = true ∧ x.ended = false ∧ x.commit = none ∧ x.ownCommits = [] ∧ s.expired x.lastAt (s.nat Key.ses.SESSION_TIMEOUT * 1000000000) = true) ∧
    (∃ (s : State) (n : Nat) (x : Session), s.session n = some x ∧ s.serves = true ∧ x.isOpen = false ∧ x.ended = false ∧ s.expired x.lastAt 5000000000 = true) ∧
    (∃ (s : State) (n : Nat) (x : Session) (y : _), s.session n = some x ∧ s.serves = true ∧ x.xfer = some y ∧ s.expired y.lastAt 10000000000 = true) ∧
    (∃ (s : State) (n : Nat) (role : Nat), s.Accepts (⟨n, role, .num 0x0900FFFF⟩ : EntryWrite) Key.fence.FENCE_CLEAR_CMD ∧ (⟨n, role, .num 0x0900FFFF⟩ : EntryWrite).value = .num 0x0900FFFF ∧ s.units.mgmt.lockouts ≠ []) ∧
    (∃ (s : State) (h : Nat) (x : Handle), s.handle h = some x ∧ x.finished = true ∧ x.doneAt + 60000000000 ≤ s.mtbNs) ∧
    (∃ (s : State) (w : EntryWrite) (r : Fin 4), s.Accepts w Key.key.KEY_CLEAR ∧ w.value = .num r.val) ∧
    (∃ (s : State) (w : EntryWrite) (a : Nat) (n : Nat) (x : Session), s.Accepts w Key.area.RELEASE_AREA ∧ w.value = .num a ∧ s.areaHolder a = some n ∧ s.session n = some x) :=
  ⟨⟨talk { xOpen with lastAt := 969999999999, claims := [0xA0] } [], 1, { xOpen with lastAt := 969999999999, claims := [0xA0] }, by decide +kernel⟩,
   ⟨talk { xOpen with isOpen := false, lastAt := 994999999999 } [], 1, { xOpen with isOpen := false, lastAt := 994999999999 }, by decide +kernel⟩,
   ⟨talk { xOpen with xfer := some { key := 5, lastAt := 989999999999 } } [], 1, { xOpen with xfer := some { key := 5, lastAt := 989999999999 } }, { key := 5, lastAt := 989999999999 }, by decide +kernel⟩,
   ⟨sys .safe [.mgmt fun m => { m with lockouts := [({}, 1000000000001)] }], 1, 2, by unfold State.Accepts; decide +kernel, by decide +kernel⟩,
   ⟨sys .safe [.handle 1 fun _ => some { op := 0x0B31, finished := true, doneAt := 940000000000 }], 1, { op := 0x0B31, finished := true, doneAt := 940000000000 }, by decide +kernel⟩,
   ⟨sys .safe [.reg (Key.key.KEY_MONITOR + 3) (.bytes (List.replicate 32 7)), .save (Key.key.KEY_MONITOR + 3) (some (.bytes (List.replicate 32 7)))], ⟨1, 2, .num 3⟩, 3, by unfold State.Accepts; decide +kernel, by decide +kernel⟩,
   ⟨talk { xOpen with claims := [0x60, 0xA0] } [], ⟨2, 2, .num 160⟩, 160, 1, { xOpen with claims := [0x60, 0xA0] }, by unfold State.Accepts; decide +kernel, by decide +kernel⟩⟩

/-- States and operands that meet the hypotheses of AbsencesAndDivergences. -/
theorem witness_AbsencesAndDivergences :
    (∃ (s : State), s.units.mgmt.served = true ∧ s.units.mgmt.absentAt = none ∧ s.num Key.upd.UPDATE_STATE ≠ 5) ∧
    (∃ (s : State), s.units.mgmt.served = true ∧ s.units.mgmt.absentAt = none ∧ s.num Key.upd.UPDATE_STATE = 5) ∧
    (∃ (s : State) (t0 : Nat), s.units.mgmt.absentAt = some t0) ∧
    (∃ (s : State), (s.units.mgmt.absentAt.any fun t0 => s.expired t0 10000000000) = true ∧ s.units.mgmt.guarded = false) ∧
    (∃ (s : State) (k : Nat), isCommanded k = true ∧ s.units.mgmt.served = true ∧ s.units.mgmt.diverge = [] ∧ s.units.mgmt.divergedOpen = [] ∧ ((∀ t0, s.units.mgmt.returnedAt = some t0 → t0 + 100000000 ≤ s.mtbNs))) ∧
    (∃ (s : State) (k : Nat) (t0 : Nat) (b : Bool), s.units.mgmt.diverge = [(k, t0, b)] ∧ t0 + 100000000 ≤ s.mtbNs ∧ s.units.mgmt.served = true) ∧
    (∃ (s : State) (k : Nat) (t0 : Nat) (b : Bool), s.units.mgmt.diverge = [(k, t0, b)] ∧ t0 + 100000000 ≤ s.mtbNs ∧ s.units.mgmt.served = true) :=
  ⟨⟨sys .run [], by decide +kernel⟩,
   ⟨sys .run [.num Key.upd.UPDATE_STATE 5], by decide +kernel⟩,
   ⟨sys .run [.mgmt fun m => { m with served := false, absentAt := some 999999000000, latched := [{ code := 5 }] }], 999999000000, by decide +kernel⟩,
   ⟨sys .run [.mgmt fun m => { m with served := false, absentAt := some 989999999999 }], by decide +kernel⟩,
   ⟨sys .run [], Key.mode.MODE_CURRENT, by decide +kernel⟩,
   ⟨sys .run [.mgmt fun m => { m with diverge := [(Key.pw.CH_EN 15, 999900000000, true)] }], Key.pw.CH_EN 15, 999900000000, true, by decide +kernel⟩,
   ⟨sys .run [.mgmt fun m => { m with diverge := [(Key.pw.CH_EN 15, 999900000000, true)] }], Key.pw.CH_EN 15, 999900000000, true, by decide +kernel⟩⟩

/-- States and operands that meet the hypotheses of SensorsFansAndLog. -/
theorem witness_SensorsFansAndLog :
    (∃ (l : List Int) (mv : List Nat), l.length = 12 ∧ mv.length = 5 ∧ ((∀ x ∈ l, -3604480 ≤ x ∧ x ≤ 11468800)) ∧ ((∀ x ∈ mv, x < 65536))) ∧
    (∃ (l : List Nat), ((∀ x ∈ l, x ≤ 1000))) ∧
    (∃ (s : State) (e : EventRec) (q : List EventRec) (n : Nat), s.units.logQueue = e :: q ∧ s.units.mgmt.served = true ∧ s.nat Key.log.LOG_NEXT_SEQ = n ∧ 1 ≤ n ∧ n < 2 ^ 32 - 1) ∧
    (∃ (s : State), s.mode ≠ .boot ∧ s.units.mgmt.lifeAt + 60000000000 ≤ s.mtbNs) :=
  ⟨⟨List.replicate 12 11468800, [12000, 3300, 1800, 1800, 65535], by decide +kernel⟩,
   ⟨[0, 1, 1000], by decide +kernel⟩,
   ⟨sys .run [.num Key.log.LOG_NEXT_SEQ 32769, .unit fun u => { u with logQueue := [{ code := 5, time := 7 }] }], { code := 5, time := 7 }, [], 32769, by decide +kernel⟩,
   ⟨sys .run [.mgmt fun m => { m with lifeAt := 940000000000 }], by decide +kernel⟩⟩

/-- The lands at reset, from Table 16-10. -/
theorem test_lands_after_reset : State.reset.land .faultN = .level false ∧ State.reset.land (.gpio 7) = .z ∧
    State.reset.land (.fanPwm 3) = .level true ∧ State.reset.land (.sdo 0) = .z ∧ State.reset.land (.bclk 3) = .z ∧
    State.reset.land .aoutP = .level false ∧ State.reset.land .canTx = .level true ∧ State.reset.land .canStb = .level true ∧
    State.reset.land .mdc = .level false ∧ State.reset.land .mdio = .z ∧ State.reset.land .phyRstN = .level false ∧
    State.reset.land .mclko = .level false ∧ State.reset.land .wclkOut = .level false ∧ State.reset.land .ppsOut = .level false ∧
    State.reset.land .tdo = .z ∧ State.reset.land .uartTx = .level true ∧ State.reset.land (.hsGate 3) = .level false ∧
    State.reset.land (.out 15) = .z := by decide +kernel

/-- An open land stands at its pull (R498): ENGAGE_N high, a strap low. -/
theorem test_lands_open : State.reset.landRests .engageN = some true ∧ State.reset.landRests (.unitId 5) = some false ∧
    State.reset.landRests .mdio = some true := by decide +kernel

/-- A state that meets the invariant and takes a step. -/
theorem witness_EveryStepKeepsTheInvariant : ∃ s t : State, s.Inv ∧ step s = .next t :=
  ⟨{ State.reset with pending := [.muteNLow] }, State.reset.does (mutePin false),
    ⟨⟨by decide, by decide⟩, State.typed_of_dict_nil rfl, fun k r _ _ => rfl, fun k h => by
      show Dict.dflt k = .num 0
      unfold Dict.dflt; rw [h]⟩, rfl⟩

/-- Commands that answer a next state, change the mode and change the MTB counter; that fault; that go on. -/
theorem witness_over_every_command :
    (∃ (c : Instr) (s t : State), exec c s = .next t) ∧
    (∃ (c : Instr) (s t : State), exec c s = .next t ∧ t.mode ≠ s.mode) ∧
    (∃ (c : Instr) (s t : State), exec c s = .next t ∧ t.mtb ≠ s.mtb) ∧
    (∃ (c : Instr) (s : State) (f : Fault), exec c s = .fault f) ∧
    (∃ (s : State) (mv : Nat), 380 ≤ mv ∧ exec (.vcoreStallResume mv) s = .next s) ∧
    (∃ s : State, s.pending = []) :=
  ⟨⟨.powerOnReset, sys .run [], (sys .run []).powerOn, rfl⟩,
   ⟨.powerOnReset, sys .run [], (sys .run []).powerOn, rfl, by decide +kernel⟩,
   ⟨.powerOnReset, sys .run [], (sys .run []).powerOn, rfl, by decide +kernel⟩,
   ⟨.vcoreStallResume 379, .reset, .stateUndefined, rfl⟩, ⟨.reset, 380, by decide, rfl⟩, ⟨.reset, rfl⟩⟩

/-! ### Worked examples of the manual, and published vectors -/

/-- FIPS 180-4, the message "abc". -/
theorem test_sha256_abc : (sha256 [0x61, 0x62, 0x63]).take 8 = [0xBA, 0x78, 0x16, 0xBF, 0x8F, 0x01, 0xCF, 0xEA] := by
  decide +kernel

/-- Chapter 00, the COEF values 2.5 and -0.001. -/
theorem test_coef_wire :
    (Value.coef 1342177280 29).wire .coef = [0x00, 0x00, 0x00, 0x50, 0x1D] ∧
    (Value.coef (-1099511628) 40).wire .coef = [0xB4, 0xC8, 0x76, 0xBE, 0x28] := by decide +kernel

/-- Chapter 00: sample 96,000 at 48 kHz is a block boundary at 2 s. -/
theorem test_sample_time : sampleTime 48000 96000 = 2000000000 ∧ 96000 = 3000 * (sys .run []).B := by decide +kernel

/-- Chapter 02, correcting a fast XREF: FREQ_ADJ. -/
theorem test_freq_adj : (sys .run [.num Key.mtb.INC 43690120540]).freqAdj = -12499855 := by decide +kernel

/-- Chapter 02, a GPIO edge and a mode change: the instants of the edge and of the boundary. -/
theorem test_action_instants :
    sampleTime 48000 (firstFrom 48000 1 5000010000) = 5000020833 ∧ (sys .run []).boundaryFrom 5000010000 = 5000666667 ∧
    firstFrom 48000 32 5000666667 = 240064 := by
  decide +kernel

/-- Chapter 12, a response of 150 bytes to node 5: three segments, padded to 32 bytes at the end. -/
theorem test_can_segments :
    (((((sys .run [.num Key.can.CAN_EN 1]).does (canQueue 0x445 (List.replicate 150 7))).does canFrameSend).does
      canFrameSend).does canFrameSend).units.can.sent.map (fun p => (p.id, p.data.length, p.data.headD 0)) =
    [(0x445, 32, 0x42), (0x445, 64, 0x01), (0x445, 64, 0x80)] := by decide +kernel

/-- Chapter 13, worked exchanges: the header of the COMMIT, and the item that STAGE carries. -/
theorem test_commit_header :
    cdlHeader 0 3 0x112 0x21 0 12 = [1, 0, 3, 0, 0x12, 1, 0, 0, 0x21, 0, 12, 0, 0, 0, 0, 0] ∧
    writeItems [1, 0, 0, 0, 5, 0x62, 1, 2, 1] = some [(Key.fir.FIR_ACTIVE 5, .u8, .num 1)] ∧
    stageBytes [(Key.fir.FIR_ACTIVE 5, .num 1)] = 5 := by decide +kernel

/-- R46, R51: a reference tick moves the MTB by INC. -/
theorem test_reference_tick :
    (match exec .referenceTick (sys .run []) with
     | .next t => t.mtb.toNat | _ => 0) = 1000000000000 * 4294967296 + 0x0A2C2AAAAB := by decide +kernel

/-- R60: a write of 1 to SNAP_REQ latches the media time and counts. -/
theorem test_snapshot :
    (match exec (.snapReq ⟨1, 2, .num 1⟩) (sys .run []) with
     | .next t => (t.nat Key.snap.SNAP_MTB, t.nat Key.snap.SNAP_COUNT) | _ => (0, 0)) = (1000000000000, 1) := by
  decide +kernel

/-- Table 13-5: the keys of four roles can be removed, a fifth cannot (R397). -/
theorem test_key_clear_range :
    (sys .safe []).writeStatus ⟨1, 2⟩ Key.key.KEY_CLEAR (some .u8) (.num 3) = St.ok ∧
    (sys .safe []).writeStatus ⟨1, 2⟩ Key.key.KEY_CLEAR (some .u8) (.num 4) = St.range := by decide +kernel

/-- R441: below 0.38 V the state is undefined. -/
theorem test_deep_stall : exec (.vcoreStallResume 379) (sys .run []) = .fault .stateUndefined ∧
    exec (.vcoreStallResume 380) (sys .run []) = .next (sys .run []) := ⟨rfl, rfl⟩


/-- A channel whose drift window ended with one tick at the level of TRACK_LEVEL. -/
def wDrift : DriftSum := { vv := 1, xx := 1, low := dbGain 0 * dbGain 0, n := 1 }

/-- A drift window that counts (the last hypotheses of ConeSupervision). -/
theorem witness_ConeSupervision_drift : ∃ (s : State) (c : Fin 16) (w : DriftSum),
    (s.chan c).driftDone = some w ∧ s.driftCounts c w = true := by
  have hl : (sys .run [.num (Key.drv.FS 15) 40000, .num (Key.drv.TRACK_LEVEL 15) 0]).ent (Key.drv.TRACK_LEVEL 15) 100 = 0 := by
    decide +kernel
  refine ⟨(sys .run [.num (Key.drv.FS 15) 40000, .num (Key.drv.TRACK_LEVEL 15) 0]).run
    [.chan 15 fun x => { x with driftDone := some wDrift }], 15, wDrift, rfl, ?_⟩
  show (_ && decide _) = true
  rw [Bool.and_eq_true]
  refine ⟨by decide +kernel, decide_eq_true ?_⟩
  show dbGain (_) * dbGain (_) ≤ (dbGain 0 * dbGain 0) / 1
  rw [div_one]
  exact le_of_eq (congrArg (fun q => dbGain q * dbGain q) hl)
end Sys2Proof.Tests
end

section
/-!
What a command can do to the state, said once: it runs a phase, ticks the media clock and runs
one, or resets the block.
-/

namespace Sys2Proof.Machine

/-- A command that goes on runs a phase, but for the reference tick, which moves the MTB first (R46), and the two resets
(R437, R442). -/
theorem exec_cases {c : Instr} {s t : State} (h : exec c s = .next t) :
    (∃ p : Phase, t = s.does p) ∨
    (c = .referenceTick ∧ t = { s with mtb := s.mtb + BitVec.ofInt 96 (s.num Key.mtb.INC) }.does tickRest) ∨
    (c = .powerOnReset ∧ t = s.powerOn) ∨
    ∃ ns, c = .resetNLow ns ∧ t = s.resetLow ns := by
  cases c with
  | referenceTick => exact .inr (.inl ⟨rfl, (Host.Outcome.next.inj h).symm⟩)
  | powerOnReset => exact .inr (.inr (.inl ⟨rfl, (Host.Outcome.next.inj h).symm⟩))
  | resetNLow ns => exact .inr (.inr (.inr ⟨ns, rfl, (Host.Outcome.next.inj h).symm⟩))
  | vcoreStallResume mv =>
    have h' : (if mv < 380 then .fault .stateUndefined else .next s : Host.Outcome State Fault Refusal) = .next t := h
    split at h'
    · cases h'
    · exact .inl ⟨phases [], (Host.Outcome.next.inj h').symm⟩
  | _ => exact .inl ⟨_, (Host.Outcome.next.inj h).symm⟩

/-- A step with a command waiting takes it from the queue and executes it; an idle step changes nothing (log 80). -/
theorem step_cases {s t : State} (h : step s = .next t) :
    t = s ∨ ∃ c q, s.pending = c :: q ∧ exec c { s with pending := q } = .next t := by
  unfold step at h
  split at h
  · exact .inl (Host.Outcome.next.inj h).symm
  · exact .inr ⟨_, _, ‹_›, h⟩

theorem State.powerOn_eq (s : State) : s.powerOn =
    if s.units.pins.resetN then (s.afterReset 0).does (dawnBegin (s.nat Key.mode.UNIT_ID)) else s.afterReset 0 := rfl

/-- RESET_N going low does nothing, runs effects that release the bridges, or resets the block with the pin low (R442). -/
theorem State.resetLow_cases (s : State) (ns : Nat) :
    s.resetLow ns = s ∨ (∃ es, s.resetLow ns = s.run es) ∨
    ∃ u, s.resetLow ns = { s with units := u }.afterReset 1 := by
  unfold State.resetLow
  split
  · exact .inl rfl
  · split
    · exact .inr (.inl ⟨_, rfl⟩)
    · exact .inr (.inr ⟨_, rfl⟩)

end Sys2Proof.Machine
end

section
/-!
What a reset leaves of the dictionary: a part of its entries, by key, the others at their
defaults (R204, R437, R442).
-/

namespace Sys2Proof.Machine

section Tables
variable {α : Type} {d : Nat → α} {t : Tbl α} {b : Nat}

/-- A read of the part of a table whose keys satisfy `q`. -/
theorem Tbl.get_filter_keys (q : Nat → Bool) (k : Nat) :
    Tbl.get d (t.filter fun x => q x.1) k = if q k then Tbl.get d t k else d k := by
  induction t with
  | nil => simp
  | cons p t ih =>
    by_cases hk : p.1 = k
    · subst hk
      cases hq : q p.1 <;> simp [hq, Tbl.get, ih]
    · cases hq : q p.1 <;> simp [hq, Tbl.get, ih, hk]

variable [DecidableEq α]

theorem Tbl.wfFrom_filter (q : Nat × α → Bool) (h : Tbl.wfFrom d b t = true) :
    Tbl.wfFrom d b (t.filter q) = true := by
  induction t generalizing b with
  | nil => rfl
  | cons p t ih =>
    obtain ⟨hb, hv, ht⟩ := wfFrom_cons h
    cases hq : q p
    · simpa [hq] using wfFrom_mono (by omega) (ih ht)
    · simp [hq, Tbl.wfFrom, hb, hv, ih ht]

/-- A part of a table in canonical form is in canonical form. -/
theorem Tbl.wf_filter (q : Nat × α → Bool) (h : Tbl.wf d t = true) : Tbl.wf d (t.filter q) = true := wfFrom_filter q h

end Tables

/-- What an entry holds after a reset: the state and the cause of a fenced lane's fence stay (R204). -/
theorem State.get_afterReset (s : State) (cause k : Nat) :
    (s.afterReset cause).get k =
      if s.fencedLanes.any (fun l => decide (k = Key.lane.LANE_STATE l ∨ k = Key.lane.FENCE_CAUSE l)) then s.get k
      else Dict.dflt k :=
  Tbl.get_filter_keys
    (fun k => s.fencedLanes.any fun l => decide (k = Key.lane.LANE_STATE l ∨ k = Key.lane.FENCE_CAUSE l)) k

/-- A reset leaves every entry as it is or takes it to its default. -/
theorem State.get_afterReset_or (s : State) (cause k : Nat) :
    (s.afterReset cause).get k = s.get k ∨ (s.afterReset cause).get k = Dict.dflt k := by
  rw [s.get_afterReset cause k]
  split
  · exact .inl rfl
  · exact .inr rfl

end Sys2Proof.Machine
end

section
/-!
The invariant of the block: every effect keeps it, a reset keeps it, and so every step.
-/

namespace Sys2Proof.Machine

theorem Dict.dflt_of_row_none {k : Nat} (h : Dict.row k = none) : Dict.dflt k = .num 0 := by
  simp [Dict.dflt, h]

/-! ### Writes and effects -/

theorem State.set_canonical (s : State) (k : Nat) (v : Value) (h : s.Canonical) : (s.set k v).Canonical := by
  obtain ⟨hdict, hstore⟩ := h
  exact ⟨s.set_wf k v hdict, by rwa [State.set_store]⟩

/-- No write reaches a CONST entry or an index that no table gives. -/
theorem State.get_set_of_const (s : State) (k : Nat) (v : Value) {j : Nat}
    (hj : ∀ r, Dict.row j = some r → r.acc = .const) : (s.set k v).get j = s.get j := by
  by_cases hk : k = j
  · subst hk
    rw [s.set_const k v hj]
  · exact s.get_set_ne k j v hk

theorem State.set_fixed (s : State) (k : Nat) (v : Value) (h : s.Fixed) : (s.set k v).Fixed := by
  obtain ⟨hconst, hnone⟩ := h
  constructor
  · intro j r hr ha
    rw [s.get_set_of_const k v fun q hq => by rw [hr] at hq; cases hq; exact ha]
    exact hconst j r hr ha
  · intro j hj
    rw [s.get_set_of_const k v fun q hq => by rw [hj] at hq; cases hq]
    exact hnone j hj

theorem State.set_inv (s : State) (k : Nat) (v : Value) (h : s.Inv) : (s.set k v).Inv := by
  obtain ⟨hcanon, htyped, hfixed⟩ := h
  exact ⟨s.set_canonical k v hcanon, s.set_typed k v htyped, s.set_fixed k v hfixed⟩

/-- Every effect keeps the invariant: beside writes only a save touches what it speaks of, and a save keeps the store's
canonical form. -/
theorem State.apply_inv (s : State) (e : Effect) (h : s.Inv) : (s.apply e).Inv := by
  refine State.apply_induct (P := State.Inv) State.set_inv (fun _ _ h => h) (fun _ _ h => h) (fun s k v h => ?_) s e h
  obtain ⟨⟨hdict, hstore⟩, htyped, hfixed⟩ := h
  exact ⟨⟨hdict, Tbl.wf_set hstore⟩, htyped, hfixed⟩

theorem State.run_inv (s : State) (es : List Effect) (h : s.Inv) : (s.run es).Inv :=
  State.run_induct State.apply_inv es s h

theorem State.does_inv (s : State) (p : Phase) (h : s.Inv) : (s.does p).Inv := s.run_inv _ h

/-! ### Resets -/

/-- Typed entries stay typed where every entry stays or goes to its default. -/
theorem State.Typed.of_get {s t : State} (h : s.Typed) (hget : ∀ k, t.get k = s.get k ∨ t.get k = Dict.dflt k) :
    t.Typed := by
  intro k r hr
  rcases hget k with hk | hk <;> rw [hk]
  · exact h k r hr
  · exact Dict.dflt_ok hr

theorem State.Fixed.of_get {s t : State} (h : s.Fixed) (hget : ∀ k, t.get k = s.get k ∨ t.get k = Dict.dflt k) :
    t.Fixed := by
  obtain ⟨hconst, hnone⟩ := h
  constructor
  · intro k r hr ha
    rcases hget k with hk | hk <;> rw [hk]
    exact hconst k r hr ha
  · intro k hr
    rcases hget k with hk | hk <;> rw [hk]
    · exact hnone k hr
    · exact Dict.dflt_of_row_none hr

theorem State.afterReset_inv (s : State) (cause : Nat) (h : s.Inv) : (s.afterReset cause).Inv := by
  obtain ⟨⟨hdict, hstore⟩, htyped, hfixed⟩ := h
  exact ⟨⟨Tbl.wf_filter _ hdict, hstore⟩, htyped.of_get (s.get_afterReset_or cause), hfixed.of_get (s.get_afterReset_or cause)⟩

theorem State.powerOn_inv (s : State) (h : s.Inv) : s.powerOn.Inv := by
  have hreset := s.afterReset_inv 0 h
  rw [s.powerOn_eq]
  split
  · exact State.does_inv _ _ hreset
  · exact hreset

theorem State.resetLow_inv (s : State) (ns : Nat) (h : s.Inv) : (s.resetLow ns).Inv := by
  obtain hsame | ⟨es, hrun⟩ | ⟨u, hreset⟩ := s.resetLow_cases ns
  · rwa [hsame]
  · rw [hrun]; exact s.run_inv es h
  · rw [hreset]; exact State.afterReset_inv _ 1 h

/-! ### Commands and steps -/

theorem exec_inv {c : Instr} {s t : State} (hs : s.Inv) (h : exec c s = .next t) : t.Inv := by
  obtain ⟨p, rfl⟩ | ⟨-, rfl⟩ | ⟨-, rfl⟩ | ⟨ns, -, rfl⟩ := exec_cases h
  · exact s.does_inv p hs
  · exact State.does_inv _ _ hs
  · exact s.powerOn_inv hs
  · exact s.resetLow_inv ns hs

/-- Settles O5: a step is an idle one or a command's, and every command keeps the invariant, whatever waits in the queue. -/
theorem everyStepKeepsTheInvariant : Obligations.EveryStepKeepsTheInvariant := by
  intro s t hs h
  obtain rfl | ⟨c, q, -, hexec⟩ := step_cases h
  · exact hs
  · exact exec_inv (s := { s with pending := q }) hs hexec

end Sys2Proof.Machine
end

section
/-!
What a list of effects can touch, said once for every phase: the entries that it may write, and a part of the units that it
leaves. From it follow what stays of the dictionary, the mode, the store and the units.
-/

namespace Sys2Proof.Machine

variable {α β : Type}

/-! ### Raising an event -/

/-- The units with other rings and queues of events (R425, R426, R459, R514). -/
def Units.logged (u : Units) (sessions : Tbl (Option Session)) (queue : List EventRec) (last : List (Nat × Nat × Nat))
    (latched : List EventRec) (lost : Nat) : Units :=
  { u with sessions := sessions, logQueue := queue, lastRaised := last,
           mgmt := { u.mgmt with latched := latched, overflow := lost } }

/-- A part of the units that raising an event leaves: it sees neither the sessions' rings nor the queues of events. -/
def EventBlind (π : Units → α) : Prop := ∀ u ss lq lr la ov, π (Units.logged u ss lq lr la ov) = π u

/-- All that raising an event changes of the units. -/
theorem State.raise_units (s : State) (c : Nat) (a : List Byte) (n : Nat) (sc : Option Nat) :
    ∃ ss lq lr la ov, (s.raise c a n sc).units = s.units.logged ss lq lr la ov := by
  have hnow : ∀ s : State, ∃ ss lq la ov, (s.raiseNow c a n).units = s.units.logged ss lq s.units.lastRaised la ov := by
    intro s
    simp only [State.raiseNow]
    split
    · split
      · exact ⟨_, _, _, _, rfl⟩
      · exact ⟨_, _, _, _, rfl⟩
    · exact ⟨_, _, s.units.mgmt.latched, s.units.mgmt.overflow, by simp only [State.deliver, State.set_units]; rfl⟩
  cases sc with
  | none =>
    obtain ⟨ss, lq, la, ov, h⟩ := hnow s
    exact ⟨ss, lq, s.units.lastRaised, la, ov, h⟩
  | some sc =>
    simp only [State.raise]
    split
    · exact ⟨_, _, _, _, _, rfl⟩
    · obtain ⟨ss, lq, la, ov, h⟩ := hnow s
      exact ⟨ss, lq, _, la, ov, by rw [h]; rfl⟩

theorem EventBlind.raise {π : Units → α} (h : EventBlind π) (s : State) (c : Nat) (a : List Byte) (n : Nat)
    (sc : Option Nat) : π (s.raise c a n sc).units = π s.units := by
  obtain ⟨ss, lq, lr, la, ov, hu⟩ := s.raise_units c a n sc
  rw [hu]; exact h ..

@[simp] theorem State.raise_mode (s : State) (c : Nat) (a : List Byte) (n : Nat) (sc : Option Nat) :
    (s.raise c a n sc).mode = s.mode := by
  obtain ⟨u, hu | hu⟩ := s.raise_cases c a n sc <;> simp [hu]

@[simp] theorem State.raise_store (s : State) (c : Nat) (a : List Byte) (n : Nat) (sc : Option Nat) :
    (s.raise c a n sc).store = s.store := by
  obtain ⟨u, hu | hu⟩ := s.raise_cases c a n sc <;> simp [hu]

/-! ### The units with one of them changed -/

def Units.onTbase (u : Units) (i : Nat) (f : TimeBase → TimeBase) : Units := { u with tbases := u.tbases.upd {} i f }
def Units.onAnchor (u : Units) (f : Anchor → Anchor) : Units := { u with anchor := f u.anchor }
def Units.onMgmt (u : Units) (f : Mgmt → Mgmt) : Units := { u with mgmt := f u.mgmt }
def Units.onPins (u : Units) (f : Pins → Pins) : Units := { u with pins := f u.pins }
def Units.onChan (u : Units) (i : Nat) (f : Chan → Chan) : Units := { u with chans := u.chans.upd {} i f }
def Units.onMac (u : Units) (i : Nat) (f : Mac → Mac) : Units := { u with macs := u.macs.upd {} i f }
def Units.onStream (u : Units) (i : Nat) (f : Stream → Stream) : Units := { u with streams := u.streams.upd {} i f }
def Units.onPort (u : Units) (i : Nat) (f : Port → Port) : Units := { u with ports := u.ports.upd {} i f }
def Units.onSg (u : Units) (i : Nat) (f : SgExt → SgExt) : Units := { u with sgs := u.sgs.upd {} i f }
def Units.onGen (u : Units) (i : Nat) (f : Gen → Gen) : Units := { u with gens := u.gens.upd {} i f }
def Units.withZc (u : Units) (l : List ZcWait) : Units := { u with zc := l }

/-! ### Lists of effects -/

/-- The effect writes no entry outside `ks`, and leaves the mode, the store and what `π` sees of the units. -/
def Effect.Within (ks : List Nat) (π : Units → α) : Effect → Prop
  | .reg k _ => k ∈ ks
  | .bump k _ => k ∈ ks
  | .orBits k _ => k ∈ ks
  | .andNot k _ => k ∈ ks
  | .save _ _ => False
  | .mode _ => False
  | .unit f => ∀ u, π (f u) = π u
  | .raise _ _ _ _ => Key.evt.EVT_RAISED ∈ ks

section Named
variable {ks : List Nat} {π : Units → α} {k i : Nat}

@[simp] theorem Effect.within_reg {v : Value} : (Effect.reg k v).Within ks π ↔ k ∈ ks := .rfl
@[simp] theorem Effect.within_bump {n : Int} : (Effect.bump k n).Within ks π ↔ k ∈ ks := .rfl
@[simp] theorem Effect.within_unit {f : Units → Units} : (Effect.unit f).Within ks π ↔ ∀ u, π (f u) = π u := .rfl
@[simp] theorem Effect.within_raise {c n : Nat} {a : List Byte} {sc : Option Nat} :
    (Effect.raise c a n sc).Within ks π ↔ Key.evt.EVT_RAISED ∈ ks := .rfl
@[simp] theorem Effect.within_num {n : Int} : (Effect.num k n).Within ks π ↔ k ∈ ks := .rfl
@[simp] theorem Effect.within_nat {n : Nat} : (Effect.nat k n).Within ks π ↔ k ∈ ks := .rfl
@[simp] theorem Effect.within_event {c : Nat} {a : List Byte} :
    (Effect.event c a).Within ks π ↔ Key.evt.EVT_RAISED ∈ ks := .rfl
@[simp] theorem Effect.within_tbase {f : TimeBase → TimeBase} :
    (Effect.tbase i f).Within ks π ↔ ∀ u : Units, π (u.onTbase i f) = π u := .rfl
@[simp] theorem Effect.within_anchor {f : Anchor → Anchor} :
    (Effect.anchor f).Within ks π ↔ ∀ u : Units, π (u.onAnchor f) = π u := .rfl
@[simp] theorem Effect.within_mgmt {f : Mgmt → Mgmt} :
    (Effect.mgmt f).Within ks π ↔ ∀ u : Units, π (u.onMgmt f) = π u := .rfl
@[simp] theorem Effect.within_pins {f : Pins → Pins} :
    (Effect.pins f).Within ks π ↔ ∀ u : Units, π (u.onPins f) = π u := .rfl
@[simp] theorem Effect.within_chan {f : Chan → Chan} :
    (Effect.chan i f).Within ks π ↔ ∀ u : Units, π (u.onChan i f) = π u := .rfl
@[simp] theorem Effect.within_mac {f : Mac → Mac} :
    (Effect.mac i f).Within ks π ↔ ∀ u : Units, π (u.onMac i f) = π u := .rfl
@[simp] theorem Effect.within_stream {f : Stream → Stream} :
    (Effect.stream i f).Within ks π ↔ ∀ u : Units, π (u.onStream i f) = π u := .rfl
@[simp] theorem Effect.within_port {f : Port → Port} :
    (Effect.port i f).Within ks π ↔ ∀ u : Units, π (u.onPort i f) = π u := .rfl
@[simp] theorem Effect.within_sg {f : SgExt → SgExt} :
    (Effect.sg i f).Within ks π ↔ ∀ u : Units, π (u.onSg i f) = π u := .rfl
@[simp] theorem Effect.within_gen {f : Gen → Gen} :
    (Effect.gen i f).Within ks π ↔ ∀ u : Units, π (u.onGen i f) = π u := .rfl
@[simp] theorem Effect.within_zcDrop :
    (zcDrop k).Within ks π ↔ ∀ u : Units, π (u.withZc (u.zc.filter fun x => x.key != k)) = π u := .rfl

end Named

/-- Every effect of the list lies within `ks` and leaves `π`. -/
def Confined (ks : List Nat) (π : Units → α) (es : List Effect) : Prop := ∀ e ∈ es, e.Within ks π

section Confined
variable {ks ls : List Nat} {π : Units → α} {es fs : List Effect}

@[simp] theorem Confined.nil : Confined ks π [] := fun _ h => absurd h List.not_mem_nil

@[simp] theorem confined_cons {e : Effect} : Confined ks π (e :: es) ↔ e.Within ks π ∧ Confined ks π es :=
  List.forall_mem_cons

@[simp] theorem confined_append : Confined ks π (es ++ fs) ↔ Confined ks π es ∧ Confined ks π fs :=
  List.forall_mem_append

@[simp] theorem confined_map {ι : Type} {l : List ι} {f : ι → Effect} :
    Confined ks π (l.map f) ↔ ∀ i ∈ l, (f i).Within ks π := List.forall_mem_map

@[simp] theorem confined_ite {c : Prop} [Decidable c] :
    Confined ks π (if c then es else fs) ↔ (c → Confined ks π es) ∧ (¬ c → Confined ks π fs) := by
  split <;> simp_all

theorem Effect.within_mono {e : Effect} (h : ks ⊆ ls) (he : e.Within ks π) : e.Within ls π := by
  cases e with
  | save | mode | unit => exact he
  | _ => exact h he

/-- A list within `ks` lies within every larger list. -/
theorem Confined.mono (h : ks ⊆ ls) (hes : Confined ks π es) : Confined ls π es :=
  fun e he => Effect.within_mono h (hes e he)

/-- Which session has caused an event makes no difference to what it can touch. -/
theorem Confined.by (n : Nat) (h : Confined ks π es) : Confined ks π (es.map (Effect.by n)) := by
  intro e he
  obtain ⟨d, hd, rfl⟩ := List.mem_map.1 he
  have hw := h d hd
  unfold Effect.by
  split <;> exact hw

theorem Effect.Within.frame {e : Effect} (h : e.Within ks π) (s : State) : s.Frame ks (s.apply e) := by
  refine ⟨fun k hk => s.apply_get e k ?_, ?_⟩
  · cases e <;> simp only [Effect.writes, List.mem_singleton, List.not_mem_nil, not_false_eq_true] 
    all_goals exact fun hj => hk (hj ▸ h)
  · cases e with
    | save => exact h.elim
    | mode => exact h.elim
    | _ => simp [State.apply]

theorem Effect.Within.units {e : Effect} (hπ : EventBlind π) (h : e.Within ks π) (s : State) :
    π (s.apply e).units = π s.units := by
  cases e with
  | save => exact h.elim
  | mode => exact h.elim
  | unit f => exact h s.units
  | raise c a n sc => exact hπ.raise s c a n sc
  | _ => simp [State.apply]

theorem State.Frame.refl (s : State) (ks : List Nat) : s.Frame ks s := ⟨fun _ _ => rfl, rfl, rfl⟩

theorem State.Frame.trans {s t u : State} (h1 : s.Frame ks t) (h2 : t.Frame ks u) : s.Frame ks u := by
  obtain ⟨hget, hmode, hstore⟩ := h1
  obtain ⟨hget', hmode', hstore'⟩ := h2
  exact ⟨fun k hk => (hget' k hk).trans (hget k hk), hmode'.trans hmode, hstore'.trans hstore⟩

theorem State.Frame.mono {s t : State} (h : ks ⊆ ls) (hf : s.Frame ks t) : s.Frame ls t :=
  ⟨fun k hk => hf.1 k fun hk' => hk (h hk'), hf.2⟩

theorem State.Frame.mode {s t : State} (hf : s.Frame ks t) : t.mode = s.mode := hf.2.1
theorem State.Frame.store {s t : State} (hf : s.Frame ks t) : t.store = s.store := hf.2.2

section Frame
variable {s t : State} {k : Nat} (hf : s.Frame ks t) (hk : k ∉ ks)
include hf hk

theorem State.Frame.get : t.get k = s.get k := hf.1 k hk
theorem State.Frame.num : t.num k = s.num k := by simp only [State.num, hf.1 k hk]
theorem State.Frame.nat : t.nat k = s.nat k := by simp only [State.nat, hf.1 k hk]
end Frame

/-- What a list of effects leaves. -/
theorem Confined.frame (h : Confined ks π es) (s : State) : s.Frame ks (s.run es) := by
  induction es generalizing s with
  | nil => exact .refl s ks
  | cons e es ih =>
    obtain ⟨he, hes⟩ := confined_cons.1 h
    exact (he.frame s).trans (ih hes _)

theorem Confined.units (h : Confined ks π es) (hπ : EventBlind π) (s : State) : π (s.run es).units = π s.units := by
  induction es generalizing s with
  | nil => rfl
  | cons e es ih =>
    obtain ⟨he, hes⟩ := confined_cons.1 h
    exact (ih hes _).trans (he.units hπ s)

end Confined

/-! ### Phases -/

/-- The phase keeps to `ks` and `π` from every state. -/
def Phase.Within (ks : List Nat) (π : Units → α) (p : Phase) : Prop := ∀ s, Confined ks π (p s)

section Phases
variable {ks ls : List Nat} {π : Units → α} {p q : Phase}

theorem Phase.Within.frame (h : Phase.Within ks π p) (s : State) : s.Frame ks (s.does p) := (h s).frame s

theorem Phase.Within.units (h : Phase.Within ks π p) (hπ : EventBlind π) (s : State) :
    π (s.does p).units = π s.units := (h s).units hπ s

theorem Phase.Within.mono (h : ks ⊆ ls) (hp : Phase.Within ks π p) : Phase.Within ls π p := fun s => (hp s).mono h

@[simp] theorem Phase.within_always {es : List Effect} : Phase.Within ks π (always es) ↔ Confined ks π es :=
  ⟨fun h => h State.reset, fun h _ => h⟩

theorem Phase.within_phases {ps : List Phase} (h : ∀ p ∈ ps, Phase.Within ks π p) : Phase.Within ks π (phases ps) := by
  induction ps with
  | nil => exact fun _ => .nil
  | cons p ps ih =>
    obtain ⟨hp, hps⟩ := List.forall_mem_cons.1 h
    exact fun s => confined_append.2 ⟨hp s, ih hps _⟩

theorem Phase.within_forAll {ι : Type} {l : List ι} {f : ι → Phase} (h : ∀ i ∈ l, Phase.Within ks π (f i)) :
    Phase.Within ks π (forAll l f) :=
  within_phases fun _ hp => by obtain ⟨i, hi, rfl⟩ := List.mem_map.1 hp; exact h i hi

@[simp] theorem Phase.within_ite {c : Prop} [Decidable c] :
    Phase.Within ks π (if c then p else q) ↔ (c → Phase.Within ks π p) ∧ (¬ c → Phase.Within ks π q) := by
  split <;> simp_all

theorem Phase.within_causedBy (n : Nat) (h : Phase.Within ks π p) : Phase.Within ks π (causedBy n p) :=
  fun s => (h s).by n

end Phases

/-! ### Numbers -/

/-- Width and sign of the integer that an entry holds, where a write can reach it. -/
def Dict.width (k : Nat) : Option (Nat × Bool) :=
  (Dict.row k).bind fun r => if r.acc = .const then none else r.ty.int

/-- A number written to an entry, read back: it is narrowed to the entry's width (R6). -/
theorem State.num_set {k w : Nat} {sg : Bool} (h : Dict.width k = some (w, sg)) (s : State) (n : Int) :
    (s.set k (.num n)).num k = if sg then signed w n else n % 2 ^ w := by
  obtain ⟨r, hr, hw⟩ := Option.bind_eq_some_iff.1 h
  split at hw
  · cases hw
  · rename_i ha
    simp only [State.num, s.get_set k k _ hr ha, if_true]
    cases ht : r.ty <;> simp_all [Ty.int, Ty.norm, Value.int]

end Sys2Proof.Machine
end

section
/-!
The servo of a time base (R61, R62, R72): the entries it may write and the units it may change, for each of its phases.
-/

namespace Sys2Proof.Machine

variable {α : Type}

/-- What a lock state that changes may write: of the MTB, when it changed and what is counted with it (Table 02-9). -/
def lockKeys (tb : Nat) : List Nat :=
  [lockKey tb, Key.evt.EVT_RAISED, Key.lock.LOCK_SINCE, Key.lock.LOCK_LOSS_COUNT, Key.hold.HOLDOVER_COUNT]

/-- What a measurement of a time base may write. -/
def servoKeys (tb : Nat) : List Nat :=
  lockKeys tb ++ [offsetKey tb, incKey tb, Key.dtb.STEP_COUNT tb, Key.servo.SLEW_REMAINING, Key.servo.OUTLIER_COUNT,
    Key.servo.LAST_MEASURE, Key.lock.SOURCE_STATE]

theorem lockKeys_subset_servoKeys (tb : Nat) : lockKeys tb ⊆ servoKeys tb := List.subset_append_left ..

/-- A part of the units that a change of a lock state leaves: it sees neither the window of time base `tb` nor what the
management processor keeps of the MTB's lock. -/
structure LockBlind (tb : Nat) (π : Units → α) : Prop where
  event : EventBlind π
  window : ∀ u (w : TimeBase → Option Nat), π (Units.onTbase u tb fun x => { x with windowStart := w x }) = π u
  mgmt : tb = 4 → ∀ u f, π (Units.onMgmt u f) = π u

/-- A part of the units that a new increment leaves: it does not see since when it lies out of range, nor a phase term. -/
structure IncBlind (tb : Nat) (π : Units → α) : Prop where
  since : ∀ u (o : TimeBase → Option Nat), π (Units.onTbase u tb fun x => { x with outSince := o x }) = π u
  phase : tb = 4 → ∀ u (p : Anchor → Int), π (Units.onAnchor u fun a => { a with slewAdd := p a }) = π u

/-- A part of the units that a measurement of time base `tb` leaves. -/
structure ServoBlind (tb : Nat) (π : Units → α) : Prop where
  event : EventBlind π
  tbase : ∀ u f, π (Units.onTbase u tb f) = π u
  anchor : tb = 4 → ∀ u f, π (Units.onAnchor u f) = π u
  mgmt : tb = 4 → ∀ u f, π (Units.onMgmt u f) = π u
  chan : tb = 4 → ∀ u c f, π (Units.onChan u c f) = π u
  zc : tb = 4 → ∀ u l, π (Units.withZc u l) = π u

/-- A part of the units that a step of the MTB leaves: it sees neither the anchor nor the channels that mute for it. -/
structure StepBlind (π : Units → α) : Prop where
  lock : LockBlind 4 π
  anchor : ∀ u f, π (Units.onAnchor u f) = π u
  chan : ∀ u c f, π (Units.onChan u c f) = π u
  zc : ∀ u l, π (Units.withZc u l) = π u

section Servo
variable {tb : Nat} {π : Units → α}

theorem ServoBlind.lock (h : ServoBlind tb π) : LockBlind tb π := ⟨h.event, fun u _ => h.tbase u _, h.mgmt⟩

theorem ServoBlind.step (h : ServoBlind 4 π) : StepBlind π := ⟨h.lock, h.anchor rfl, h.chan rfl, h.zc rfl⟩

theorem ServoBlind.inc (h : ServoBlind tb π) : IncBlind tb π := ⟨fun u _ => h.tbase u _, fun h4 u _ => h.anchor h4 u _⟩

theorem setLock_within (h : LockBlind tb π) (new : Nat) : Phase.Within (lockKeys tb) π (setLock tb new) := by
  intro s
  simp +contextual [setLock, lockKeys, h.window, h.mgmt]

theorem reportOffset_within (h : LockBlind tb π) (o : Int) :
    Phase.Within (offsetKey tb :: lockKeys tb) π (reportOffset tb o) := by
  intro s
  have hl : Phase.Within (offsetKey tb :: lockKeys tb) π (setLock tb 1) :=
    (setLock_within h 1).mono (List.subset_cons_self ..)
  refine Phase.within_phases ?_ s
  simp [h.window, hl]

theorem writeInc_within (h : IncBlind tb π) (n : Int) : Phase.Within [incKey tb] π (writeInc tb n) := by
  intro s
  simp +contextual [writeInc, h.since, h.phase]

end Servo

/-! ### The MTB: slew and re-anchor -/

section Main
variable {ks : List Nat} {π : Units → α}

theorem zcStartAt_within (h : ∀ u l, π (Units.withZc u l) = π u) (key : Nat) (v : Value) (start : Nat) :
    Phase.Within ks π (zcStartAt key v start) := fun _ => by
  simp only [zcStartAt, confined_cons, Effect.within_unit, Confined.nil, and_true]
  exact fun u => h u _

theorem anchorMute_within (hc : ∀ u c f, π (Units.onChan u c f) = π u) (hz : ∀ u l, π (Units.withZc u l) = π u) (c : Nat) :
    Phase.Within ks π (anchorMute c) := by
  intro s
  unfold anchorMute
  split
  · refine Phase.within_phases ?_ s
    have hw : Phase.Within ks π (zcStart (Zc.anchor c) (.num 0)) := fun s => zcStartAt_within hz _ _ _ s
    simp [hc, hw]
  · simp [hz]

theorem slewStop_within (ha : ∀ u f, π (Units.onAnchor u f) = π u) : Phase.Within [Key.mtb.INC] π slewStop := by
  intro s
  simp [slewStop, ha]

theorem slewStart_within (ha : ∀ u f, π (Units.onAnchor u f) = π u) (o : Int) :
    Phase.Within [Key.servo.SLEW_REMAINING, Key.mtb.INC, Key.evt.EVT_RAISED] π (slewStart o) := by
  intro s
  simp [slewStart, ha]

/-- What a confirmed step of the MTB may write (R63, R64). -/
def stepKeys : List Nat := lockKeys 4 ++ [Key.servo.SLEW_REMAINING, Key.mtb.INC]

theorem reanchorBegin_within (h : StepBlind π) (o : Int) : Phase.Within stepKeys π (reanchorBegin o) := by
  have hl : Phase.Within stepKeys π (setLock 4 1) := (setLock_within h.lock 1).mono (List.subset_append_left ..)
  have hm : Phase.Within stepKeys π (forAll (List.range 16) anchorMute) :=
    Phase.within_forAll fun c _ => anchorMute_within h.chan h.zc c
  refine Phase.within_phases ?_
  have he : Key.evt.EVT_RAISED ∈ stepKeys := by decide
  simp [h.anchor, hl, hm, he]

theorem mtbStep_within (h : StepBlind π) (o : Int) : Phase.Within stepKeys π (mtbStep o) := by
  intro s
  simp only [mtbStep]
  split
  · simp [h.anchor]
  split
  · simp [h.anchor]
  split
  · exact (slewStart_within h.anchor o).mono (by simp [stepKeys, lockKeys]) s
  · exact reanchorBegin_within h o s

theorem mtbOffset_within (h : ServoBlind 4 π) (o : Int) : Phase.Within stepKeys π (mtbOffset o) := by
  have hs : Phase.Within stepKeys π slewStop := (slewStop_within (h.anchor rfl)).mono (by simp [stepKeys])
  refine Phase.within_phases ?_
  have hr : Key.servo.SLEW_REMAINING ∈ stepKeys := by decide
  simp [h.anchor, h.tbase, hs, mtbStep_within h.step o, hr]

end Main

/-! ### Measurements -/

section Measure
variable {tb : Nat} {π : Units → α}

theorem stepKeys_subset_servoKeys : stepKeys ⊆ servoKeys 4 := by decide

theorem applyStep_within (h : ServoBlind tb π) (o : Int) : Phase.Within (servoKeys tb) π (applyStep tb o) := by
  unfold applyStep
  split
  · subst tb; exact (mtbStep_within h.step o).mono stepKeys_subset_servoKeys
  · simp [dtbShift, h.tbase, servoKeys]

theorem applyOffset_within (h : ServoBlind tb π) (o : Int) : Phase.Within (servoKeys tb) π (applyOffset tb o) := by
  unfold applyOffset
  split
  · subst tb; exact (mtbOffset_within h o).mono stepKeys_subset_servoKeys
  · simp [dtbShift, h.tbase, servoKeys]

theorem reportOffset_within_servoKeys (h : ServoBlind tb π) (o : Int) :
    Phase.Within (servoKeys tb) π (reportOffset tb o) :=
  (reportOffset_within h.lock o).mono (by simp [servoKeys, lockKeys])

theorem setLock_within_servoKeys (h : ServoBlind tb π) (new : Nat) : Phase.Within (servoKeys tb) π (setLock tb new) :=
  (setLock_within h.lock new).mono (lockKeys_subset_servoKeys tb)

/-- What a measurement that the servo uses may write. -/
def useKeys (tb : Nat) : List Nat := offsetKey tb :: incKey tb :: Key.servo.LAST_MEASURE :: lockKeys tb

theorem servoUse_within_useKeys (hl : LockBlind tb π) (hi : IncBlind tb π) (ht : ∀ u f, π (Units.onTbase u tb f) = π u)
    (o : Int) : Phase.Within (useKeys tb) π (servoUse tb o) := by
  intro s
  have hreport f : Phase.Within (useKeys tb) π (reportOffset tb f) :=
    (reportOffset_within hl f).mono (by simp [useKeys, lockKeys])
  have hinc n : Phase.Within (useKeys tb) π (writeInc tb n) := (writeInc_within hi n).mono (by simp [useKeys])
  have hm : Key.servo.LAST_MEASURE ∈ useKeys tb := by simp [useKeys]
  refine Phase.within_phases ?_ s
  simp [ht, hreport, hinc, hm]

theorem servoUse_within (h : ServoBlind tb π) (o : Int) : Phase.Within (servoKeys tb) π (servoUse tb o) :=
  (servoUse_within_useKeys h.lock h.inc h.tbase o).mono (by simp [useKeys, servoKeys, lockKeys])

theorem servoBlind_unit (tb : Nat) : ServoBlind tb fun _ => () :=
  ⟨fun _ _ _ _ _ _ => rfl, fun _ _ => rfl, fun _ _ _ => rfl, fun _ _ _ => rfl, fun _ _ _ _ => rfl, fun _ _ _ => rfl⟩

theorem servoTest_within (h : ServoBlind tb π) (o : Int) : Phase.Within (servoKeys tb) π (servoTest tb o) := by
  intro s
  have hc : Key.servo.OUTLIER_COUNT ∈ servoKeys tb := by simp [servoKeys]
  simp only [servoTest]
  split
  · refine Phase.within_phases ?_ s
    simp [h.tbase, reportOffset_within_servoKeys h, applyOffset_within h]
  split
  · exact servoUse_within h o s
  split
  · simp [h.tbase, hc]
  · refine Phase.within_phases ?_ s
    simp [h.tbase, hc, reportOffset_within_servoKeys h, applyStep_within h]

theorem sourceBack_within (ha : ∀ u l, π (Units.onAnchor u fun a => { a with lossAt := l }) = π u) (o : Int) :
    Phase.Within [Key.lock.SOURCE_STATE, Key.evt.EVT_RAISED] π (sourceBack o) := by
  intro s
  simp [sourceBack, ha]

theorem sourcePresent_within (h : ServoBlind tb π) (o : Int) : Phase.Within (servoKeys tb) π (sourcePresent tb o) := by
  intro s
  have hb : tb = 4 → Phase.Within (servoKeys tb) π (sourceBack o) := fun h4 =>
    (sourceBack_within (fun u _ => h.anchor h4 u _) o).mono (by simp [servoKeys, lockKeys])
  have hm : Key.servo.LAST_MEASURE ∈ servoKeys tb := by simp [servoKeys]
  have hl : Phase.Within (servoKeys tb) π (phases [setLock tb 1, always [estimateOpen tb]]) :=
    Phase.within_phases (by simp [setLock_within_servoKeys h, estimateOpen, h.tbase])
  have hr : Phase.Within (servoKeys tb) π (phases [
      (if tb = 4 then always [.nat Key.servo.LAST_MEASURE s.now] else always []), reportOffset tb o, applyOffset tb o]) :=
    Phase.within_phases (by simp [hm, reportOffset_within_servoKeys h, applyOffset_within h])
  refine Phase.within_phases ?_ s
  simp only [List.forall_mem_cons, Phase.within_ite, Phase.within_always, Confined.nil, implies_true, and_true]
  refine ⟨hb, ⟨fun _ => hl, fun _ _ => Phase.within_phases ?_⟩, by simp⟩
  simp [setLock_within_servoKeys h, h.tbase, hr]

theorem measure_within (h : ServoBlind tb π) (o : Int) : Phase.Within (servoKeys tb) π (measure tb o) := by
  intro s
  refine Phase.within_phases ?_ s
  have hr : Phase.Within (servoKeys tb) π
      (readP (fun s => (s.tbase tb).estimating) fun e => if e then servoUse tb o else servoTest tb o) := fun s => by
    simp only [readP]
    split
    · exact servoUse_within h o s
    · exact servoTest_within h o s
  simp [h.tbase, sourcePresent_within h, hr]

end Measure

end Sys2Proof.Machine
end

section
/-!
What the phases of the servo and of the lock states leave where they act: the values of the entries they write, and the
time base they move (R61, R62, R70, R72).
-/

namespace Sys2Proof.Machine

variable {α : Type}

/-! ### Widths of the entries -/

theorem width_lockKey : ∀ tb < 5, Dict.width (lockKey tb) = some (8, false) := by decide +kernel
theorem width_offsetKey : ∀ tb < 5, Dict.width (offsetKey tb) = some (64, true) := by decide +kernel
theorem width_incKey : ∀ tb < 5, Dict.width (incKey tb) = some (40, false) := by decide +kernel
theorem width_stepCount : ∀ d < 4, Dict.width (Key.dtb.STEP_COUNT d) = some (32, false) := by decide +kernel

/-! ### The last write of an entry -/

section Write
variable {ks : List Nat} {π : Units → α} {es : List Effect} {k w : Nat} {sg : Bool}

/-- What an entry holds that a number was written to, once effects have run that do not reach it. -/
theorem Confined.num_written (h : Confined ks π es) (hw : Dict.width k = some (w, sg)) (hk : k ∉ ks) (s : State) (n : Int) :
    ((s.apply (.num k n)).run es).num k = if sg then signed w n else n % 2 ^ w :=
  ((h.frame _).num hk).trans (s.num_set hw n)

end Write

theorem State.nat_eq_num (s : State) (k : Nat) : s.nat k = (s.num k).toNat := rfl

/-- A number that an unsigned entry can hold is held as it is. -/
theorem State.num_reg_of_lt {k w : Nat} (h : Dict.width k = some (w, false)) (s : State) {n : Int} (h0 : 0 ≤ n)
    (hn : n < 2 ^ w) : (s.apply (.num k n)).num k = n :=
  (s.num_set h n).trans (Int.emod_eq_of_lt h0 hn)

theorem State.nat_reg_of_lt {k w : Nat} (h : Dict.width k = some (w, false)) (s : State) {n : Nat} (hn : n < 2 ^ w) :
    (s.apply (.nat k n)).nat k = n := by
  have hc : (n : Int) < 2 ^ w := by exact_mod_cast hn
  rw [State.nat_eq_num]
  exact (congrArg Int.toNat (s.num_reg_of_lt h (Int.natCast_nonneg n) hc)).trans (Int.toNat_natCast n)

theorem signed_eq_self {w : Nat} {n : Int} (h1 : -(2 ^ w : Int) ≤ 2 * n) (h2 : 2 * n < 2 ^ w) : signed w n = n := by
  unfold signed
  have hp : ((2 ^ w : Nat) : Int) = 2 ^ w := by push_cast; rfl
  rw [Int.bmod_eq_of_le] <;> omega

theorem clampInc_bounds (i : Int) : 0 ≤ clampInc i ∧ clampInc i < 2 ^ 40 := by
  simp only [clampInc, incMin, incMax]; omega

theorem State.num_inc {tb : Nat} (htb : tb < 5) (s : State) (i : Int) :
    (s.apply (.num (incKey tb) (clampInc i))).num (incKey tb) = clampInc i :=
  s.num_reg_of_lt (width_incKey tb htb) (clampInc_bounds i).1 (clampInc_bounds i).2

/-! ### Units that the phases leave -/

/-- A time base but for its windows: since when its offset has been small, and its increment out of range (R62, R72). -/
def TimeBase.steady (x : TimeBase) : TimeBase := { x with windowStart := none, outSince := none }

theorem State.tbase_apply_tbase (s : State) (i j : Nat) (f : TimeBase → TimeBase) :
    (s.apply (.tbase i f)).tbase j = if i = j then f (s.tbase i) else s.tbase j := Tbl.at_upd ..

theorem lockBlind_steady (tb i : Nat) : LockBlind tb fun u => (Tbl.at {} u.tbases i).steady where
  event _ _ _ _ _ _ := rfl
  window u w := by
    simp only [Units.onTbase, Tbl.at_upd]
    split
    · subst i; rfl
    · rfl
  mgmt _ _ _ := rfl

theorem incBlind_steady (tb i : Nat) : IncBlind tb fun u => (Tbl.at {} u.tbases i).steady where
  since u w := by
    simp only [Units.onTbase, Tbl.at_upd]
    split
    · subst i; rfl
    · rfl
  phase _ _ _ := rfl

theorem servoBlind_tbase {tb i : Nat} (h : tb ≠ i) : ServoBlind tb fun u => Tbl.at {} u.tbases i where
  event _ _ _ _ _ _ := rfl
  tbase u f := by simp [Units.onTbase, Tbl.at_upd, h]
  anchor _ _ _ := rfl
  mgmt _ _ _ := rfl
  chan _ _ _ _ := rfl
  zc _ _ _ := rfl

theorem servoBlind_anchor {tb : Nat} (h : tb ≠ 4) : ServoBlind tb fun u => u.anchor where
  event _ _ _ _ _ _ := rfl
  tbase _ _ := rfl
  anchor h4 := absurd h4 h
  mgmt h4 := absurd h4 h
  chan h4 := absurd h4 h
  zc h4 := absurd h4 h

theorem lockBlind_anchor (tb : Nat) : LockBlind tb fun u => u.anchor := ⟨fun _ _ _ _ _ _ => rfl, fun _ _ => rfl, fun _ _ _ => rfl⟩

/-! ### Lock states -/

theorem setLock_of_ne {tb new : Nat} {s : State} (h : s.nat (lockKey tb) ≠ new) :
    ∃ es, Confined [Key.evt.EVT_RAISED, Key.lock.LOCK_SINCE, Key.lock.LOCK_LOSS_COUNT, Key.hold.HOLDOVER_COUNT]
      (fun _ => ()) es ∧ setLock tb new s = .nat (lockKey tb) new :: es := by
  refine ⟨_, ?_, by simp only [setLock, if_neg h]; rfl⟩
  simp

/-- A lock state that changes reads as it was set. -/
theorem nat_setLock {tb new : Nat} (htb : tb < 5) (hn : new < 256) (s : State) :
    (s.does (setLock tb new)).nat (lockKey tb) = new := by
  by_cases h : s.nat (lockKey tb) = new
  · simp [State.does, setLock, h]
  · obtain ⟨es, hes, heq⟩ := setLock_of_ne h
    have hk : ∀ tb < 5, lockKey tb ∉ [Key.evt.EVT_RAISED, Key.lock.LOCK_SINCE, Key.lock.LOCK_LOSS_COUNT,
        Key.hold.HOLDOVER_COUNT] := by decide
    have hnum := hes.num_written (width_lockKey tb htb) (hk tb htb) s new
    simp only [Bool.false_eq_true, if_false] at hnum
    rw [State.does, heq, State.run_cons, State.nat_eq_num]
    exact (congrArg Int.toNat hnum).trans (by omega)

/-! ### The servo -/

section Servo
variable {tb : Nat} {s : State} {o : Int}

/-- The increment that the servo writes (R61, R63, R72). -/
theorem num_writeInc (htb : tb < 5) (n : Int) (hs : tb = 4 → s.units.anchor.slewing = false) :
    (s.does (writeInc tb n)).num (incKey tb) = clampInc (incNom + n) := by
  have hinc : (if tb = 4 && s.units.anchor.slewing then slewInc (incNom + n) s.units.anchor.slewLsb
      else clampInc (incNom + n)) = clampInc (incNom + n) := by
    by_cases h4 : tb = 4
    · simp [hs h4]
    · simp [h4]
  rw [State.does, writeInc]
  simp only [hinc]
  rw [List.append_assoc, List.singleton_append, State.run_cons]
  refine Eq.trans (Confined.num_written (ks := []) (π := fun _ => ()) ?_ (width_incKey tb htb) (by simp) s _) ?_
  · simp
  · exact Int.emod_eq_of_lt (clampInc_bounds _).1 (clampInc_bounds _).2

/-- What of an offset the servo sees: not what a slew or an anchoring is still to remove (R61). -/
def State.servoOffset (s : State) (tb : Nat) (o : Int) : Int := o - (s.predicted tb - (s.tbase tb).pred)

/-- The frequency term that the servo takes from an offset (R61, log 6). -/
def State.servoTerm (s : State) (tb : Nat) (o : Int) : Int :=
  Config.servoFreq (s.nat Key.servo.SERVO_BW) (s.tbase tb).freqTerm (s.servoOffset tb o)

/-- The offset that the servo reports of a measurement (R61). -/
def State.servoReport (s : State) (tb : Nat) (o : Int) : Int :=
  if (s.tbase tb).estimating then o else Config.servoFilter (s.nat Key.servo.SERVO_BW) (s.num (offsetKey tb)) o

/-- A time base that has used a measurement: its frequency term and prediction are new, and no run of outliers is open. -/
def State.servoBase (s : State) (tb : Nat) (o : Int) (x : TimeBase) : TimeBase :=
  { x with
    freqTerm := s.servoTerm tb o
    pred := Config.servoPredict (s.nat Key.servo.SERVO_BW) (s.servoTerm tb o)
      (s.servoReport tb o - (s.predicted tb - (s.tbase tb).pred))
    outliers := []
    estLeft := if x.estimating then x.estLeft - 1 else x.estLeft }

/-- What the servo adds to the nominal increment (R61, log 6). -/
def State.servoAdds (s : State) (tb : Nat) (o : Int) : Int :=
  Config.servoInc (s.nat Key.servo.SERVO_BW) (s.servoTerm tb o) (s.servoOffset tb o)

/-- A measurement that the servo uses: the time base takes it, the offset is reported, the increment follows (R61). -/
theorem does_servoUse (s : State) (tb : Nat) (o : Int) : s.does (servoUse tb o) =
    (((s.apply (.tbase tb (s.servoBase tb o))).does (reportOffset tb (s.servoReport tb o))).does
      (writeInc tb (s.servoAdds tb o))).does
        (if tb = 4 then always [.nat Key.servo.LAST_MEASURE s.now] else always []) := by
  refine Eq.trans (State.does_phases_cons s _ _) ?_
  rw [State.does_phases_cons, State.does_phases_cons, State.does_phases_cons, State.does_phases_nil, State.does_always]
  rfl

theorem steady_servoUse (s : State) (tb : Nat) (o : Int) :
    ((s.does (servoUse tb o)).tbase tb).steady = (s.servoBase tb o (s.tbase tb)).steady := by
  have hlast : Phase.Within [Key.servo.LAST_MEASURE] (fun u => (Tbl.at {} u.tbases tb).steady)
      (if tb = 4 then always [.nat Key.servo.LAST_MEASURE s.now] else always []) := by simp
  have hev : EventBlind fun u => (Tbl.at {} u.tbases tb).steady := (lockBlind_steady tb tb).event
  rw [does_servoUse]
  calc _ = _ := hlast.units hev _
    _ = _ := (writeInc_within (incBlind_steady tb tb) _).units hev _
    _ = _ := (reportOffset_within (lockBlind_steady tb tb) _).units hev _
    _ = _ := congrArg TimeBase.steady ((s.tbase_apply_tbase tb tb _).trans (if_pos rfl))

theorem num_inc_servoUse (htb : tb < 5) (hs : tb = 4 → s.units.anchor.slewing = false) :
    (s.does (servoUse tb o)).num (incKey tb) = clampInc (incNom + s.servoAdds tb o) := by
  have hlast : Phase.Within [Key.servo.LAST_MEASURE] (fun _ => ())
      (if tb = 4 then always [.nat Key.servo.LAST_MEASURE s.now] else always []) := by simp
  have hk : ∀ tb < 5, incKey tb ∉ [Key.servo.LAST_MEASURE] := by decide
  rw [does_servoUse, (hlast.frame _).num (hk tb htb)]
  refine num_writeInc htb _ fun h4 => ?_
  have ha := (reportOffset_within (lockBlind_anchor tb) (s.servoReport tb o)).units (lockBlind_anchor tb).event
    (s.apply (.tbase tb (s.servoBase tb o)))
  rw [ha]; exact hs h4

theorem State.now_lt (s : State) : s.now < 2 ^ 64 := by
  unfold State.now; omega

theorem nat_lastMeasure_servoUse : (s.does (servoUse 4 o)).nat Key.servo.LAST_MEASURE = s.now := by
  rw [does_servoUse, if_pos rfl]
  exact State.nat_reg_of_lt (k := Key.servo.LAST_MEASURE) (w := 64) (by decide +kernel) _ s.now_lt

end Servo

end Sys2Proof.Machine
end

section
/-!
A measurement that the servo of a time base uses (R61): in ACQUIRE or LOCKED, outside the frequency estimate and within the
outlier limit.
-/

namespace Sys2Proof.Machine

/-- Nothing of the MTB's offset is still to be removed: no slew runs, no anchoring, and no second step waits (R61, R68). -/
structure State.NothingToRemove (s : State) : Prop where
  slewing : s.units.anchor.slewing = false
  phase : s.units.anchor.phase = 0
  second : s.units.anchor.second = none

theorem State.NothingToRemove.predicted {s : State} {tb : Nat} (h : tb = 4 → s.NothingToRemove) :
    s.predicted tb = (s.tbase tb).pred := by
  unfold State.predicted
  split
  · obtain ⟨hs, hp, h2⟩ := h ‹_›
    simp [State.toRemove, hs, hp, h2]
  · exact add_zero _

/-- What a measurement must meet for the servo to use it (R61). -/
structure State.Usable (s : State) (tb : Nat) (o : Int) : Prop where
  lock : s.nat (lockKey tb) ∈ [1, 2]
  estimating : (s.tbase tb).estimating = false
  stepNext : (s.tbase tb).stepNext = false
  clear : tb = 4 → s.NothingToRemove
  limit : |o - (s.tbase tb).pred| ≤ s.num Key.servo.OUTLIER_LIMIT

/-- What a measurement that the servo uses leaves; `log` is the message interval of the Sync that brought it. -/
structure State.Used (s : State) (tb : Nat) (o : Int) (t : State) (log : Option Int) : Prop where
  freqTerm : (t.tbase tb).freqTerm = Config.servoFreq (s.nat Key.servo.SERVO_BW) (s.tbase tb).freqTerm o
  lastSync : (t.tbase tb).lastSync = some s.mtbNs
  outliers : (t.tbase tb).outliers = []
  syncLog : (t.tbase tb).syncLog = log
  inc : t.num (incKey tb) = clampInc (incNom + Config.servoInc (s.nat Key.servo.SERVO_BW)
    (Config.servoFreq (s.nat Key.servo.SERVO_BW) (s.tbase tb).freqTerm o) o)
  last : tb = 4 → t.nat Key.servo.LAST_MEASURE = s.now ∧ t.num Key.lock.SOURCE_STATE = 0

/-- The state in which the servo meets a measurement: its instant is noted, and the MTB's source is there again. -/
def State.sourced (s : State) (tb : Nat) (o : Int) : State :=
  (s.apply (.tbase tb fun x => { x with lastSync := some s.mtbNs })).does (if tb = 4 then sourceBack o else always [])

section Sourced
variable {s : State} {tb : Nat} {o : Int}

theorem sourced_within {α : Type} {π : Units → α} (ha : ∀ u l, π (Units.onAnchor u fun a => { a with lossAt := l }) = π u) :
    Phase.Within [Key.lock.SOURCE_STATE, Key.evt.EVT_RAISED] π (if tb = 4 then sourceBack o else always []) :=
  Phase.within_ite.2 ⟨fun _ => sourceBack_within ha o, fun _ => Phase.within_always.2 .nil⟩

theorem sourced_frame : s.Frame [Key.lock.SOURCE_STATE, Key.evt.EVT_RAISED] (s.sourced tb o) :=
  (sourced_within (π := fun _ => ()) fun _ _ => rfl).frame (s.apply (.tbase tb fun x => { x with lastSync := some s.mtbNs }))

theorem sourced_tbase : (s.sourced tb o).tbase tb = { s.tbase tb with lastSync := some s.mtbNs } := by
  have hb := (sourced_within (tb := tb) (o := o) (π := fun u => Tbl.at {} u.tbases tb) fun _ _ => rfl).units
    (fun _ _ _ _ _ _ => rfl) (s.apply (.tbase tb fun x => { x with lastSync := some s.mtbNs }))
  exact hb.trans ((s.tbase_apply_tbase tb tb _).trans (if_pos rfl))

theorem sourced_clear (h : s.NothingToRemove) : (s.sourced tb o).NothingToRemove := by
  obtain ⟨hs, hp, h2⟩ := h
  have ha := (sourced_within (tb := tb) (o := o) (π := fun u => (u.anchor.slewing, u.anchor.phase, u.anchor.second))
    fun _ _ => rfl).units (fun _ _ _ _ _ _ => rfl) (s.apply (.tbase tb fun x => { x with lastSync := some s.mtbNs }))
  simp only [Prod.mk.injEq] at ha
  obtain ⟨hs', hp', h2'⟩ := ha
  exact ⟨hs'.trans hs, hp'.trans hp, h2'.trans h2⟩

theorem sourced_now : (s.sourced tb o).now = s.now := by
  have hm : (s.sourced tb o).mtb = s.mtb := State.does_mtb _ _
  simp only [State.now, State.mtbNs, hm, sourced_frame.num (k := Key.mtb.EPOCH_OFFSET) (by decide)]

theorem sourced_sourceState (h4 : tb = 4) : (s.sourced tb o).num Key.lock.SOURCE_STATE = 0 := by
  rw [State.sourced, if_pos h4]
  refine Eq.trans (Confined.num_written (ks := [Key.evt.EVT_RAISED]) (π := fun _ => ()) ?_
    (show Dict.width Key.lock.SOURCE_STATE = some (8, false) by decide +kernel) (by decide) _ 0) rfl
  simp

/-- The order of such a measurement: its instant, the source, the servo. -/
theorem does_measure (h : s.Usable tb o) : s.does (measure tb o) = (s.sourced tb o).does (servoUse tb o) := by
  obtain ⟨hlock, hest, hstep, hclear, hlimit⟩ := h
  have hst : s.nat (lockKey tb) ≠ 0 ∧ s.nat (lockKey tb) ≠ 3 := by
    simp only [List.mem_cons, List.not_mem_nil, or_false] at hlock; omega
  let s' := s.apply (.tbase tb fun x => { x with lastSync := some s.mtbNs })
  have hpres : s'.does (sourcePresent tb o) = s.sourced tb o := by
    have hn : s'.nat (lockKey tb) = s.nat (lockKey tb) := rfl
    refine Eq.trans (State.does_phases_cons s' _ _) ?_
    rw [State.does_phases_cons, hn, if_neg hst.1, if_neg hst.2]
    rfl
  have htest : (s.sourced tb o).does (servoTest tb o) = (s.sourced tb o).does (servoUse tb o) := by
    have hpred : (s.sourced tb o).predicted tb = (s.tbase tb).pred := by
      rw [State.NothingToRemove.predicted fun h4 => sourced_clear (hclear h4), sourced_tbase]
    have hlim : (s.sourced tb o).num Key.servo.OUTLIER_LIMIT = s.num Key.servo.OUTLIER_LIMIT := sourced_frame.num (by decide)
    refine congrArg (State.run _) ?_
    simp only [servoTest, sourced_tbase, hstep, hpred, hlim, if_pos hlimit, Bool.false_eq_true, if_false]
  refine Eq.trans (State.does_phases_cons s _ _) ?_
  rw [State.does_phases_cons, State.does_phases_cons, State.does_phases_nil]
  refine Eq.trans (congrArg (fun t => State.does t _) hpres) ?_
  have hret : (s.nat (lockKey tb) == 3 && !(s.tbase tb).estimating) = false := by simp [hst.2]
  rw [hret]
  refine Eq.trans ?_ htest
  simp only [State.does, readP, sourced_tbase, hest, Bool.false_eq_true, if_false]

/-- Such a measurement leaves what neither the source's return nor the servo sees. -/
theorem measure_units {α : Type} {π : Units → α} (h : s.Usable tb o) (hl : LockBlind tb π) (hi : IncBlind tb π)
    (ht : ∀ u f, π (Units.onTbase u tb f) = π u)
    (ha : ∀ u l, π (Units.onAnchor u fun a => { a with lossAt := l }) = π u) :
    π (s.does (measure tb o)).units = π s.units := by
  rw [does_measure h]
  calc _ = _ := (servoUse_within_useKeys hl hi ht o).units hl.event (s.sourced tb o)
    _ = _ := (sourced_within ha).units hl.event _
    _ = _ := ht s.units _

/-- A measurement that the servo uses moves the time base by its law (R61, log 6). -/
theorem used_of_usable (htb : tb < 5) (h : s.Usable tb o) : s.Used tb o (s.does (measure tb o)) (s.tbase tb).syncLog := by
  have hclear := h.clear
  have hbw : (s.sourced tb o).nat Key.servo.SERVO_BW = s.nat Key.servo.SERVO_BW := sourced_frame.nat (by decide)
  have hoff : (s.sourced tb o).servoOffset tb o = o := by
    rw [State.servoOffset, State.NothingToRemove.predicted fun h4 => sourced_clear (hclear h4), sub_self, sub_zero]
  have hterm : (s.sourced tb o).servoTerm tb o =
      Config.servoFreq (s.nat Key.servo.SERVO_BW) (s.tbase tb).freqTerm o := by
    rw [State.servoTerm, hoff, hbw, sourced_tbase]
  have hbase := steady_servoUse (s.sourced tb o) tb o
  rw [sourced_tbase] at hbase
  rw [does_measure h]
  exact {
    freqTerm := (congrArg TimeBase.freqTerm hbase).trans hterm
    lastSync := congrArg TimeBase.lastSync hbase
    outliers := congrArg TimeBase.outliers hbase
    syncLog := by have hlog := congrArg TimeBase.syncLog hbase; exact hlog
    inc := by
      rw [num_inc_servoUse htb fun h4 => (sourced_clear (hclear h4)).slewing, State.servoAdds, hoff, hterm, hbw]
    last := by
      rintro rfl
      have hblind := servoBlind_unit 4
      have hkeep := (servoUse_within_useKeys hblind.lock hblind.inc hblind.tbase o).frame (s.sourced 4 o)
      exact ⟨nat_lastMeasure_servoUse.trans sourced_now,
        (hkeep.num (k := Key.lock.SOURCE_STATE) (by decide)).trans (sourced_sourceState rfl)⟩ }

end Sourced
end Sys2Proof.Machine
end

section
/-!
The counters: what moves the MTB (R46, R437, R442), what a reference tick does to the time bases (R49).
-/

namespace Sys2Proof.Machine

theorem State.powerOn_mtb (s : State) : s.powerOn.mtb = 0 := by
  rw [s.powerOn_eq]
  split
  · exact State.does_mtb _ _
  · rfl

/-- Settles O3: a phase never moves the MTB, a tick adds INC before its phase, a reset that is taken clears it. -/
theorem mediaClockMovesByTicksAndResets : Obligations.MediaClockMovesByTicksAndResets := by
  intro c s t h
  obtain ⟨p, rfl⟩ | ⟨rfl, rfl⟩ | ⟨rfl, rfl⟩ | ⟨ns, rfl, rfl⟩ := exec_cases h
  · exact .inl (s.does_mtb p)
  · exact .inr (.inl ⟨rfl, State.does_mtb _ _⟩)
  · exact .inr (.inr ⟨.inl rfl, s.powerOn_mtb⟩)
  · obtain hsame | ⟨es, hrun⟩ | ⟨u, hreset⟩ := s.resetLow_cases ns
    · exact .inl (by rw [hsame])
    · exact .inl (by rw [hrun, State.run_mtb])
    · exact .inr (.inr ⟨.inr ⟨ns, rfl⟩, by rw [hreset]; rfl⟩)

/-! ### The reference tick -/

/-- What a tick leaves to slew, and SLEW_REMAINING with it (R63). -/
def slewTick (s : State) : List Effect :=
  if s.units.anchor.slewing then
    [.anchor fun a => { a with slewLsb := slewLeft a.slewLsb a.slewAdd },
     .num Key.servo.SLEW_REMAINING (slewNs (slewLeft s.units.anchor.slewLsb s.units.anchor.slewAdd))]
  else []

/-- A domain time base after a tick: an enabled one has its increment more, another stands at 0 (R49). -/
def State.tickBase (s : State) (d : Nat) (x : TimeBase) : TimeBase :=
  { x with count := if s.dtbOn d then x.count + BitVec.ofInt 96 (s.num (Key.dtb.DTB_INC d)) else 0 }

/-- Effects on time bases, each on its own, move each by its own. -/
theorem State.tbase_run_tbases (s : State) (l : List Nat) (hl : l.Nodup) (f : Nat → TimeBase → TimeBase) (d : Nat) :
    (s.run (l.map fun i => .tbase i (f i))).tbase d = if d ∈ l then f d (s.tbase d) else s.tbase d := by
  induction l generalizing s with
  | nil => rfl
  | cons i l ih =>
    obtain ⟨hi, hl⟩ := List.nodup_cons.1 hl
    rw [List.map_cons, State.run_cons, ih _ hl, State.tbase_apply_tbase]
    by_cases hd : i = d
    · subst hd; simp [hi]
    · simp [hd, Ne.symm hd]

/-- Settles O11: the MTB takes INC, the four tick effects each reach their own time base, and the slew writes
SLEW_REMAINING alone. -/
theorem referenceTickAdvances : Obligations.ReferenceTickAdvances := by
  intro s
  let s' : State := { s with mtb := s.mtb + BitVec.ofInt 96 (s.num Key.mtb.INC) }
  have hrest : tickRest s' = (List.range 4).map (fun d => .tbase d (s.tickBase d)) ++ slewTick s := rfl
  have hdoes : s'.does tickRest = (s'.run ((List.range 4).map fun d => .tbase d (s.tickBase d))).run (slewTick s) := by
    rw [State.does, hrest, State.run_append]
  refine ⟨s'.does tickRest, rfl, State.does_mtb _ _, fun d hd => ?_, ?_⟩
  · have hslew : Confined [Key.servo.SLEW_REMAINING] (fun u => Tbl.at {} u.tbases d) (slewTick s) := by
      simp [slewTick, Units.onAnchor]
    rw [hdoes]
    calc _ = _ := congrArg TimeBase.count (hslew.units (fun _ _ _ _ _ _ => rfl) _)
      _ = _ := congrArg TimeBase.count ((s'.tbase_run_tbases (List.range 4) List.nodup_range s.tickBase d).trans
        (if_pos (List.mem_range.2 hd)))
  · have hall : Confined [Key.servo.SLEW_REMAINING] (fun _ => ()) (tickRest s') := by
      simp [hrest, slewTick]
    exact hall.frame s'

end Sys2Proof.Machine
end

section
/-!
Snapshots of the time bases, and the strobes of PTP event messages that take them (R58, R60, R366, R383).
-/

namespace Sys2Proof.Machine

/-! ### Snapshots -/

/-- Numbers written to entries of their own, one after the other: each reads its own. -/
theorem State.nat_run_map {k v : Nat → Nat} {w : Nat} (l : List Nat) (hl : l.Nodup) (hk : Function.Injective k)
    (hw : ∀ i ∈ l, Dict.width (k i) = some (w, false)) (hv : ∀ i ∈ l, v i < 2 ^ w) (s : State) {d : Nat} (hd : d ∈ l) :
    (s.run (l.map fun i => .nat (k i) (v i))).nat (k d) = v d := by
  induction l generalizing s with
  | nil => exact absurd hd List.not_mem_nil
  | cons i l ih =>
    obtain ⟨hi, hl⟩ := List.nodup_cons.1 hl
    obtain ⟨hwi, hw⟩ := List.forall_mem_cons.1 hw
    obtain ⟨hvi, hv⟩ := List.forall_mem_cons.1 hv
    rw [List.map_cons, State.run_cons]
    by_cases hdi : d = i
    · subst hdi
      have hrest : Confined (l.map k) (fun _ => ()) (l.map fun i => .nat (k i) (v i)) := by
        simpa using fun j hj => ⟨j, hj, rfl⟩
      have hout : k d ∉ l.map k := fun h => by
        obtain ⟨j, hj, hkj⟩ := List.mem_map.1 h
        exact hi (hk hkj ▸ hj)
      exact ((hrest.frame _).nat hout).trans (State.nat_reg_of_lt hwi s hvi)
    · exact ih hl hw hv _ ((List.mem_cons.1 hd).resolve_left hdi)

/-- The entries of a snapshot (Table 02-6). -/
def snapKeys : List Nat :=
  [Key.snap.SNAP_MTB, Key.snap.SNAP_DTB 0, Key.snap.SNAP_DTB 1, Key.snap.SNAP_DTB 2, Key.snap.SNAP_DTB 3, Key.snap.SNAP_COUNT]

theorem snapshot_within {α : Type} (π : Units → α) : Phase.Within snapKeys π snapshot := by
  have hd : ∀ d < 4, Key.snap.SNAP_DTB d ∈ snapKeys := by decide
  intro s
  simpa [snapshot, snapKeys] using hd

theorem State.dtbTime_lt (s : State) (d : Nat) : s.dtbTime d < 2 ^ 64 := by
  have := (s.tbase d).count.isLt
  unfold State.dtbTime
  omega

section Snapshot
variable (s : State)

theorem nat_snapMtb_snapshot : (s.does snapshot).nat Key.snap.SNAP_MTB = s.now := by
  have hd : ∀ d < 4, Key.snap.SNAP_DTB d ∈ (List.range 4).map Key.snap.SNAP_DTB ++ [Key.snap.SNAP_COUNT] := by decide
  have hrest : Confined ((List.range 4).map Key.snap.SNAP_DTB ++ [Key.snap.SNAP_COUNT]) (fun _ => ())
      ((List.range 4).map (fun d => .nat (Key.snap.SNAP_DTB d) (s.dtbTime d)) ++ [.bump Key.snap.SNAP_COUNT 1]) := by
    simpa using hd
  rw [State.does, snapshot, List.append_assoc, List.singleton_append, State.run_cons]
  exact ((hrest.frame _).nat (by decide)).trans (State.nat_reg_of_lt (k := Key.snap.SNAP_MTB) (by decide +kernel) s s.now_lt)

theorem nat_snapDtb_snapshot {d : Nat} (hd : d < 4) : (s.does snapshot).nat (Key.snap.SNAP_DTB d) = s.dtbTime d := by
  have hc : Confined [Key.snap.SNAP_COUNT] (fun _ => ()) [.bump Key.snap.SNAP_COUNT 1] := by simp
  have hk : ∀ d < 4, Key.snap.SNAP_DTB d ∉ [Key.snap.SNAP_COUNT] := by decide
  have hw : ∀ d ∈ List.range 4, Dict.width (Key.snap.SNAP_DTB d) = some (64, false) := by decide +kernel
  have hi : Function.Injective Key.snap.SNAP_DTB := fun i j h => by simp only [Key.snap.SNAP_DTB] at h; omega
  rw [State.does, snapshot, State.run_append, (hc.frame _).nat (hk d hd), State.run_append]
  exact State.nat_run_map _ List.nodup_range hi hw (fun i _ => s.dtbTime_lt i) _ (List.mem_range.2 hd)

/-- A counter that rises by one (R6). -/
theorem State.num_bump {k : Nat} (hw : Dict.width k = some (32, false)) :
    (s.apply (.bump k 1)).num k = (s.num k + 1) % 2 ^ 32 := s.num_set hw _

theorem num_snapCount_snapshot : (s.does snapshot).num Key.snap.SNAP_COUNT = (s.num Key.snap.SNAP_COUNT + 1) % 2 ^ 32 := by
  have hd : ∀ d < 4, Key.snap.SNAP_DTB d ∈ Key.snap.SNAP_MTB :: (List.range 4).map Key.snap.SNAP_DTB := by decide
  have hrest : Confined (Key.snap.SNAP_MTB :: (List.range 4).map Key.snap.SNAP_DTB) (fun _ => ())
      ([.nat Key.snap.SNAP_MTB s.now] ++ (List.range 4).map fun d => .nat (Key.snap.SNAP_DTB d) (s.dtbTime d)) := by
    simpa using hd
  rw [State.does, snapshot, State.run_append, State.run_cons, State.run_nil, State.num_bump _ (by decide +kernel),
    (hrest.frame s).num (by decide)]

theorem snapshot_units : (s.does snapshot).units = s.units := by
  simp [State.does, snapshot, Effect.nat, List.range_succ]

theorem snapshot_now : (s.does snapshot).now = s.now := by
  have hoff := ((snapshot_within (fun _ => ())).frame s).num (k := Key.mtb.EPOCH_OFFSET) (by decide)
  simp only [State.now, State.mtbNs, State.does_mtb, hoff]

theorem snapshot_dtbTime (d : Nat) : (s.does snapshot).dtbTime d = s.dtbTime d := by
  simp only [State.dtbTime, State.tbase, snapshot_units]

theorem snapshot_mac (m : Nat) : (s.does snapshot).mac m = s.mac m := by
  simp only [State.mac, snapshot_units]

theorem snapshot_sfd {m : Nat} (hm : m < 2) (rx : Bool) (n : Int) : (s.does snapshot).sfd m rx n = s.sfd m rx n := by
  have hk : ∀ m < 2, ∀ rx : Bool, (if rx then Key.mac.PHY_LAT_RX m else Key.mac.PHY_LAT_TX m) ∉ snapKeys := by decide
  have hf := (snapshot_within (fun _ => ())).frame s
  simp only [State.sfd, hf.num (hk m hm rx), hf.num (k := Key.servo.SNAP_COMP) (by decide)]

end Snapshot

/-! ### Messages of the device -/

theorem State.mac_apply_mac (s : State) (i j : Nat) (f : Mac → Mac) :
    (s.apply (.mac i f)).mac j = if i = j then f (s.mac i) else s.mac j := Tbl.at_upd ..

@[simp] theorem State.mac_apply_tbase (s : State) (i j : Nat) (f : TimeBase → TimeBase) :
    (s.apply (.tbase i f)).mac j = s.mac j := rfl

@[simp] theorem State.tbase_apply_mac (s : State) (i j : Nat) (f : Mac → Mac) :
    (s.apply (.mac i f)).tbase j = s.tbase j := rfl

@[simp] theorem State.tbases_apply_mac (s : State) (i : Nat) (f : Mac → Mac) :
    (s.apply (.mac i f)).units.tbases = s.units.tbases := rfl

@[simp] theorem State.mac_apply_bump (s : State) (j k : Nat) (n : Int) : (s.apply (.bump k n)).mac j = s.mac j := by
  simp [State.mac]

@[simp] theorem State.tbase_apply_bump (s : State) (j k : Nat) (n : Int) : (s.apply (.bump k n)).tbase j = s.tbase j := by
  simp [State.tbase]

/-- A PTP message joins the frames that wait at its MAC (R383). -/
theorem ptpQueue_eq (m d kind port : Nat) (s : State) : ∃ f : Frame, ptpQueue m d kind port s = [queueFrame m f] ∧
    f.kind = 1 ∧ f.prio = 0 ∧ f.ethernet = (s.tbase d).ethernet ∧
    f.port = if (s.tbase d).ethernet then 0 else port := ⟨_, rfl, rfl, rfl, rfl, rfl⟩

/-- The message that passes a MAC is the oldest that the device has to send (R383). -/
theorem Mac.ptpOut_of_passing {x : Mac} {d : Nat} {f : Frame} (h : x.passing = some (d, f)) : ∃ l, x.ptpOut = d :: l := by
  unfold Mac.passing at h
  split at h
  · cases h
  · rename_i l hl
    obtain ⟨g, -, hg⟩ := Option.map_eq_some_iff.1 h
    cases hg
    exact ⟨l, hl⟩

/-! ### The strobe -/

/-- The entry that counts the event frames of a direction (R384). -/
def strobeKey (m : Nat) (rx : Bool) : Nat := if rx then Key.net.RX_PTP_EVENT m else Key.net.TX_PTP_EVENT m

/-- What a strobe does at its MAC, between the snapshot and the count: `out` is the message that passes. -/
def strobeMac (m : Nat) (rx : Bool) (out : Option (Nat × Frame)) : Phase := phases [
  if rx then fun s => [.mac m fun x => { x with rxStamp := s.now :: (List.range 4).map s.dtbTime }] else requestSent m,
  match out with
    | some (d, f) => if rx then always [] else phases [
        always [.mac m fun x => { x with fifo := x.fifo.replace f { f with strobed := true } }],
        if 4 ≤ d then ptpQueue m (d - 4) 10 320 else always []]
    | none => always []]

section Strobe
variable {s : State} {m : Nat} {rx : Bool}

theorem does_ptpStrobe (hlink : s.linkUp m = true) (hout : rx = true ∨ (s.mac m).passing.isSome = true) :
    s.does (ptpStrobe m rx) =
      ((s.does snapshot).does (strobeMac m rx (s.mac m).passing)).apply (.bump (strobeKey m rx) 1) := by
  have hgo : ¬ ((!s.linkUp m) = true ∨ (!rx) = true ∧ (s.mac m).passing.isNone = true) := by
    rcases hout with h | h
    · simp [hlink, h]
    · simp [hlink, Option.isSome_iff_ne_none.1 h]
  have hphase : s.does (ptpStrobe m rx) = s.run (ptpStrobe m rx s) := rfl
  rw [hphase, ptpStrobe]
  simp only [if_neg hgo]
  refine Eq.trans (State.does_phases_cons s _ _) ?_
  simp only [State.does_phases_cons, State.does_phases_nil, State.does_always, strobeMac]
  rfl

theorem requestSent_within (m : Nat) : Phase.Within [] (fun _ => ()) (requestSent m) := by
  intro s
  unfold requestSent
  split <;> simp

theorem strobeMac_within (m : Nat) (rx : Bool) (out : Option (Nat × Frame)) :
    Phase.Within [] (fun _ => ()) (strobeMac m rx out) := by
  have hr : Phase.Within [] (fun _ => ())
      (fun s : State => [.mac m fun x => { x with rxStamp := s.now :: (List.range 4).map s.dtbTime }]) := fun s => by simp
  have hq d : Phase.Within [] (fun _ => ()) (ptpQueue m d 10 320) := fun s => by
    obtain ⟨f, hf, -⟩ := ptpQueue_eq m d 10 320 s
    simp [hf, queueFrame]
  refine Phase.within_phases (List.forall_mem_cons.2 ⟨Phase.within_ite.2 ⟨fun _ => hr, fun _ => requestSent_within m⟩, ?_⟩)
  cases out with
  | none => simp
  | some p =>
    simp only [List.forall_mem_singleton, Phase.within_ite, Phase.within_always]
    refine ⟨fun _ => .nil, fun _ => Phase.within_phases ?_⟩
    simp [hq]

theorem does_strobeMac_received (s : State) (m : Nat) (out : Option (Nat × Frame)) : s.does (strobeMac m true out) =
    s.apply (.mac m fun x => { x with rxStamp := s.now :: (List.range 4).map s.dtbTime }) := by
  cases out <;> simp [strobeMac] <;> rfl

/-- What the strobe of a sent message leaves: it is no longer to be strobed, its frame is marked, a request's SFD opens its
exchange, and a Pdelay_Resp is followed up (R59, R383, log 205). -/
structure State.Sent (s : State) (m d : Nat) (l : List Nat) (t : State) : Prop where
  ptpOut : (t.mac m).ptpOut = l
  fifo : (t.mac m).fifo.length = (s.mac m).fifo.length
  followed : 4 ≤ d → ∃ f, (t.mac m).waiting = (s.mac m).waiting ++ [f] ∧ f.kind = 1
  request : d < 4 → (t.tbase d).request = some (s.sfd m false (s.dtbTime d))
  others : 4 ≤ d → t.units.tbases = s.units.tbases

/-- The MAC once the strobe of its oldest message has come: `l` are still to be strobed, the frame `f` is marked. -/
def Mac.strobed (x : Mac) (l : List Nat) (f : Frame) : Mac :=
  { x with ptpOut := l, fifo := x.fifo.replace f { f with strobed := true } }

theorem sent_of_strobeMac {d : Nat} {f : Frame} {l : List Nat} (hl : (s.mac m).ptpOut = d :: l) :
    s.Sent m d l (s.does (strobeMac m false (some (d, f)))) := by
  let sent : Effect := .mac m fun x => { x with ptpOut := l }
  let mark : Effect := .mac m fun x => { x with fifo := x.fifo.replace f { f with strobed := true } }
  let opens : Effect := .tbase d fun x => { x with request := some (s.sfd m false (s.dtbTime d)) }
  have hreq : requestSent m s = sent :: if d < 4 then [opens] else [] := by simp [requestSent, hl, sent, opens]
  have hdoes : s.does (strobeMac m false (some (d, f))) =
      ((s.run (requestSent m s)).apply mark).does (if 4 ≤ d then ptpQueue m (d - 4) 10 320 else always []) := by
    simp only [strobeMac, State.does_phases_cons, State.does_phases_nil, Bool.false_eq_true, if_false]
    rfl
  rw [hdoes, hreq]
  by_cases hd : d < 4
  · have h4 : ¬ 4 ≤ d := by omega
    have hmac : (((s.apply sent).apply opens).apply mark).mac m = (s.mac m).strobed l f := by
      simp [sent, mark, opens, State.mac_apply_mac, Mac.strobed]
    have htb : (((s.apply sent).apply opens).apply mark).tbase d = { s.tbase d with request := some (s.sfd m false (s.dtbTime d)) } := by
      simp [sent, mark, opens, State.tbase_apply_tbase]
    rw [if_pos hd, if_neg h4]
    simp only [State.run_cons, State.run_nil, State.does_always]
    exact ⟨by rw [hmac]; rfl, by rw [hmac]; exact List.length_replace, fun h => absurd h h4, fun _ => by rw [htb],
      fun h => absurd h h4⟩
  · have h4 : 4 ≤ d := by omega
    obtain ⟨g, hg, hkind, -⟩ := ptpQueue_eq m (d - 4) 10 320 ((s.apply sent).apply mark)
    have hmac : (((s.apply sent).apply mark).apply (queueFrame m g)).mac m =
        { (s.mac m).strobed l f with waiting := (s.mac m).waiting ++ [g] } := by
      simp [sent, mark, queueFrame, State.mac_apply_mac, Mac.strobed]
    rw [if_neg hd, if_pos h4]
    simp only [State.run_cons, State.run_nil, State.does, hg]
    exact ⟨by rw [hmac]; rfl, by rw [hmac]; exact List.length_replace, fun _ => ⟨g, by rw [hmac], hkind⟩,
      fun h => absurd h hd, fun _ => rfl⟩

end Strobe

/-- The frame of a strobe: the snapshot and the count of its direction. -/
theorem ptpStrobe_frame {s : State} {m : Nat} {rx : Bool} (hlink : s.linkUp m = true)
    (hout : rx = true ∨ (s.mac m).passing.isSome = true) : s.Frame (snapKeys ++ [strobeKey m rx]) (s.does (ptpStrobe m rx)) := by
  rw [does_ptpStrobe hlink hout]
  have hsnap := ((snapshot_within (fun _ => ())).frame s).mono (List.subset_append_left snapKeys [strobeKey m rx])
  have hmac := ((strobeMac_within m rx (s.mac m).passing).frame (s.does snapshot)).mono
    (List.nil_subset (snapKeys ++ [strobeKey m rx]))
  have hcount : (Effect.bump (strobeKey m rx) 1).Within (snapKeys ++ [strobeKey m rx]) (fun _ => ()) := by simp
  exact (hsnap.trans hmac).trans (hcount.frame _)

/-- Settles O24: the snapshot is taken first, the MAC's part writes no entry, and only the count of the direction follows. -/
theorem snapshotLatchesTheTimeBases : Obligations.SnapshotLatchesTheTimeBases := by
  intro s m rx hlink hout
  have hdoes := does_ptpStrobe hlink hout
  refine ⟨s.does (ptpStrobe m rx), rfl, ?_⟩
  have hkeep : (s.does snapshot).Frame [strobeKey m rx] (s.does (ptpStrobe m rx)) := by
    rw [hdoes]
    have hcount : (Effect.bump (strobeKey m rx) 1).Within [strobeKey m rx] (fun _ => ()) := by simp
    exact (((strobeMac_within m rx _).frame _).mono (List.nil_subset _)).trans (hcount.frame _)
  have hk : ∀ (m : Fin 2) (rx : Bool), ∀ k ∈ snapKeys, k ∉ [strobeKey m rx] := by decide
  have hd : ∀ d < 4, Key.snap.SNAP_DTB d ∈ snapKeys := by decide
  refine ⟨?_, fun d h => ?_, ?_, ?_, ?_, ptpStrobe_frame hlink hout⟩
  · rw [hkeep.nat (hk m rx _ (by decide)), nat_snapMtb_snapshot]
  · rw [hkeep.nat (hk m rx _ (hd d h)), nat_snapDtb_snapshot s h]
  · rw [hkeep.num (hk m rx _ (by decide)), num_snapCount_snapshot]
  · rintro rfl
    rw [hdoes, does_strobeMac_received]
    constructor
    · simp [State.mac_apply_mac, snapshot_now, snapshot_dtbTime]
    · simp [snapshot_units]
  · rintro d l rfl hl
    obtain ⟨⟨d', f⟩, hdf⟩ := Option.isSome_iff_exists.1 (hout.resolve_left Bool.false_ne_true)
    obtain ⟨l', hl'⟩ := Mac.ptpOut_of_passing hdf
    obtain ⟨rfl, rfl⟩ := List.cons.inj (hl.symm.trans hl')
    have hout' : ((s.does snapshot).mac m).ptpOut = d :: l := by rw [snapshot_mac, hl]
    obtain ⟨hptp, hfifo, hfollow, hreq, hothers⟩ := sent_of_strobeMac (f := f) hout'
    rw [snapshot_mac] at hfifo hfollow
    rw [snapshot_dtbTime, snapshot_sfd s m.isLt] at hreq
    rw [snapshot_units] at hothers
    rw [hdoes, hdf]
    simp only [State.mac_apply_bump, State.tbase_apply_bump, State.apply_bump_units]
    exact ⟨hptp, hfifo, hfollow, hreq, hothers⟩

end Sys2Proof.Machine
end

section
/-!
The PTP messages of a domain: Syncs, delay exchanges, announces, and the change of port (R59, R61, R71, R383, R517).
-/

namespace Sys2Proof.Machine

/-- While the management processor serves, a step of the servo is taken (R457). -/
theorem does_servoP {s : State} (h : s.units.mgmt.served = true) (p : Phase) : s.does (servoP p) = s.does p := by
  rw [servoP, State.does_whenP, if_pos h]

/-- A change of a time base leaves every entry. -/
theorem State.frame_tbase (s : State) (ks : List Nat) (i : Nat) (f : TimeBase → TimeBase) : s.Frame ks (s.apply (.tbase i f)) :=
  ⟨fun _ _ => rfl, rfl, rfl⟩

@[simp] theorem State.apply_mtb (s : State) (e : Effect) : (s.apply e).mtb = s.mtb := (s.apply_frame e).2

@[simp] theorem State.anchor_apply_tbase (s : State) (i : Nat) (f : TimeBase → TimeBase) :
    (s.apply (.tbase i f)).units.anchor = s.units.anchor := rfl

/-! ### Syncs -/

/-- The offset that a Sync shows for the time base `tb`: the DTB itself, or the MTB (R59). -/
def State.syncOffset (s : State) (d m tb : Nat) (t1 : Int) : Int :=
  s.rxSfd m tb - (t1 + s.num (Key.dtb.PATH_DELAY d))

/-- What a Sync does for the MTB where it follows the domain (R55). -/
def State.syncMain (s : State) (d m : Nat) (t1 l : Int) : Phase :=
  if s.follows d then phases [always [.tbase 4 fun x => { x with syncLog := some l }], measure 4 (s.syncOffset d m 4 t1)]
  else always []

/-- A Sync is heard: its domain is enabled and not fenced, and it came on the port that the DTB uses (R71). -/
structure State.HearsSync (s : State) (d m : Nat) : Prop where
  served : s.units.mgmt.served = true
  on : s.dtbOn d = true
  fenced : (s.tbase d).fenced = false
  mac : s.dtbMac d = m
  port : (s.tbase d).onN1 = (m == 1)

/-- The state once the DTB has measured a Sync and keeps it for its delay exchange (R59, R61). -/
def State.synced (s : State) (d m : Nat) (t1 l : Int) : State :=
  ((s.apply (.tbase d fun x => { x with syncLog := some l })).does (measure d (s.syncOffset d m d t1))).apply
    (.tbase d fun x => { x with sync := some (t1, s.rxSfd m d) })

section Sync
variable {s : State} {d m : Nat} {t1 l : Int}

/-- The order of a Sync: the DTB measures, then the MTB where it follows the domain. -/
theorem does_syncMeasure (h : s.HearsSync d m) :
    s.does (syncMeasure d m t1 l) = (s.synced d m t1 l).does (s.syncMain d m t1 l) := by
  obtain ⟨hserved, hon, hfenced, hmac, hport⟩ := h
  have hback : ¬ (s.nat (Key.dtb.PTP_PORT d) = 2 ∧ (s.tbase d).onN1 = true ∧ m = 0) := by
    rintro ⟨-, hn1, rfl⟩
    rw [hport] at hn1
    exact absurd hn1 (by decide)
  rw [syncMeasure, does_servoP hserved, State.does]
  simp only [hon, hfenced, hmac, if_neg hback, decide_true, Bool.true_or, Bool.not_true, Bool.or_self, Bool.false_eq_true,
    if_false]
  refine Eq.trans (State.does_phases_cons s _ _) ?_
  simp only [State.does_phases_cons, State.does_phases_nil, State.does_always, State.run_cons, State.run_nil]
  rfl

theorem syncMain_within {α : Type} {π : Units → α} (h : ServoBlind 4 π) : Phase.Within (servoKeys 4) π (s.syncMain d m t1 l) := by
  refine Phase.within_ite.2 ⟨fun _ => Phase.within_phases ?_, fun _ => by simp⟩
  simp [h.tbase, measure_within h]

theorem synced_frame : s.Frame (servoKeys d) (s.synced d m t1 l) :=
  ((s.frame_tbase _ d _).trans ((measure_within (servoBlind_unit d) _).frame _)).trans (State.frame_tbase _ _ d _)

theorem synced_mtb : (s.synced d m t1 l).mtb = s.mtb := by
  rw [State.synced, State.apply_mtb, State.does_mtb, State.apply_mtb]

theorem synced_anchor (hd : d ≠ 4) : (s.synced d m t1 l).units.anchor = s.units.anchor := by
  rw [State.synced, State.anchor_apply_tbase, (measure_within (servoBlind_anchor hd) _).units (servoBlind_anchor hd).event,
    State.anchor_apply_tbase]

theorem synced_tbase_main (hd : d ≠ 4) : (s.synced d m t1 l).tbase 4 = s.tbase 4 := by
  have hm := (measure_within (servoBlind_tbase hd) (s.syncOffset d m d t1)).units (servoBlind_tbase hd).event
    (s.apply (.tbase d fun x => { x with syncLog := some l }))
  rw [State.synced, State.tbase_apply_tbase, if_neg hd]
  exact hm.trans ((s.tbase_apply_tbase d 4 _).trans (if_neg hd))

theorem synced_now (hd : d < 4) : (s.synced d m t1 l).now = s.now := by
  have hk : ∀ d < 4, Key.mtb.EPOCH_OFFSET ∉ servoKeys d := by decide
  simp only [State.now, State.mtbNs, synced_mtb, synced_frame.num (hk d hd)]

theorem syncMeasure_frame (h : s.HearsSync d m) :
    (s.does (syncMeasure d m t1 l)).mode = s.mode ∧ (s.does (syncMeasure d m t1 l)).store = s.store := by
  rw [does_syncMeasure h]
  obtain ⟨-, hmode, hstore⟩ := synced_frame (s := s) (d := d) (m := m) (t1 := t1) (l := l)
  obtain ⟨-, hmode', hstore'⟩ := (syncMain_within (s := s) (d := d) (m := m) (t1 := t1) (l := l) (servoBlind_unit 4)).frame
    (s.synced d m t1 l)
  exact ⟨hmode'.trans hmode, hstore'.trans hstore⟩

/-- What the servo of a time base reads is the same in both states. -/
structure State.ServoAlike (s x : State) (tb : Nat) : Prop where
  tbase : x.tbase tb = s.tbase tb
  keys : ∀ k ∈ [lockKey tb, Key.servo.OUTLIER_LIMIT, Key.servo.SERVO_BW], x.num k = s.num k
  anchor : x.units.anchor = s.units.anchor
  mtbNs : x.mtbNs = s.mtbNs
  now : x.now = s.now

theorem State.ServoAlike.usable {x : State} {tb : Nat} {o : Int} (h : s.ServoAlike x tb) (hu : s.Usable tb o) : x.Usable tb o := by
  obtain ⟨htb, hk, ha, -, -⟩ := h
  obtain ⟨hlock, hest, hstep, hclear, hlimit⟩ := hu
  refine ⟨?_, by rw [htb, hest], by rw [htb, hstep], fun h4 => ?_, ?_⟩
  · rwa [State.nat_eq_num, hk _ (by simp), ← State.nat_eq_num]
  · obtain ⟨hs, hp, h2⟩ := hclear h4
    exact ⟨by rw [ha, hs], by rw [ha, hp], by rw [ha, h2]⟩
  · rwa [htb, hk _ (by simp)]

theorem State.ServoAlike.used {x t : State} {tb : Nat} {o : Int} {log : Option Int} (h : s.ServoAlike x tb)
    (hu : x.Used tb o t log) : s.Used tb o t log := by
  obtain ⟨htb, hk, -, hns, hnow⟩ := h
  have hbw : x.nat Key.servo.SERVO_BW = s.nat Key.servo.SERVO_BW := by
    rw [State.nat_eq_num, hk _ (by simp), ← State.nat_eq_num]
  obtain ⟨hfreq, hlast, hout, hlog, hinc, hmain⟩ := hu
  rw [htb, hbw] at hfreq hinc
  rw [hns] at hlast
  rw [hnow] at hmain
  exact ⟨hfreq, hlast, hout, hlog, hinc, hmain⟩

/-- A usable measurement that a Sync brings, whose message interval the time base keeps. -/
theorem used_of_logged {tb : Nat} {o : Int} (htb : tb < 5) (h : s.Usable tb o) :
    s.Used tb o ((s.apply (.tbase tb fun x => { x with syncLog := some l })).does (measure tb o)) (some l) := by
  obtain ⟨hlock, hest, hstep, hclear, hlimit⟩ := h
  obtain ⟨x, hx⟩ : ∃ x, x = s.apply (.tbase tb fun x => { x with syncLog := some l }) := ⟨_, rfl⟩
  have hbase : x.tbase tb = { s.tbase tb with syncLog := some l } := by
    rw [hx, State.tbase_apply_tbase, if_pos rfl]
  have hkeys : ∀ k, x.num k = s.num k := fun k => by rw [hx]; rfl
  have hanchor : x.units.anchor = s.units.anchor := by rw [hx, State.anchor_apply_tbase]
  have hns : x.mtbNs = s.mtbNs := by rw [hx]; rfl
  have hnow : x.now = s.now := by rw [hx]; rfl
  have hused := used_of_usable (s := x) (o := o) htb
    ⟨by rwa [State.nat_eq_num, hkeys, ← State.nat_eq_num], by rw [hbase]; exact hest, by rw [hbase]; exact hstep,
      fun h4 => by obtain ⟨hs, hp, h2⟩ := hclear h4; exact ⟨by rw [hanchor, hs], by rw [hanchor, hp], by rw [hanchor, h2]⟩,
      by rw [hbase, hkeys]; exact hlimit⟩
  obtain ⟨hfreq, hlast, hout, hlog, hinc, hmain⟩ := hused
  have hbw : x.nat Key.servo.SERVO_BW = s.nat Key.servo.SERVO_BW := by rw [State.nat_eq_num, hkeys, ← State.nat_eq_num]
  rw [hbase, hbw] at hfreq hinc
  rw [hbase] at hlog
  rw [hns] at hlast
  rw [hnow] at hmain
  rw [← hx]
  exact ⟨hfreq, hlast, hout, hlog, hinc, hmain⟩

/-- A Sync that the servo of its DTB uses. -/
theorem used_of_sync (hd : d < 4) (h : s.HearsSync d m) (hu : s.Usable d (s.syncOffset d m d t1)) :
    s.Used d (s.syncOffset d m d t1) (s.does (syncMeasure d m t1 l)) (some l) ∧
      ((s.does (syncMeasure d m t1 l)).tbase d).sync = some (t1, s.rxSfd m d) := by
  obtain ⟨hfreq, hlast, hout, hlog, hinc, -⟩ := used_of_logged (l := l) (by omega) hu
  obtain ⟨y, hy⟩ : ∃ y, y = (s.apply (.tbase d fun x => { x with syncLog := some l })).does
    (measure d (s.syncOffset d m d t1)) := ⟨_, rfl⟩
  rw [← hy] at hfreq hlast hout hlog hinc
  have hsynced : s.synced d m t1 l = y.apply (.tbase d fun x => { x with sync := some (t1, s.rxSfd m d) }) := by
    rw [State.synced, hy]
  have hd4 : ServoBlind 4 fun u => Tbl.at {} u.tbases d := servoBlind_tbase (by omega)
  have hbase : ((s.does (syncMeasure d m t1 l)).tbase d) = { y.tbase d with sync := some (t1, s.rxSfd m d) } := by
    rw [does_syncMeasure h]
    refine ((syncMain_within hd4).units hd4.event _).trans ?_
    rw [hsynced]
    exact (State.tbase_apply_tbase _ d d _).trans (if_pos rfl)
  have hk : ∀ d < 4, incKey d ∉ servoKeys 4 := by decide
  have hnum : (s.does (syncMeasure d m t1 l)).num (incKey d) = y.num (incKey d) := by
    rw [does_syncMeasure h, ((syncMain_within hd4).frame _).num (hk d hd), hsynced]
    rfl
  refine ⟨⟨?_, ?_, ?_, ?_, hnum.trans hinc, fun h4 => absurd h4 (by omega)⟩, ?_⟩ <;> rw [hbase]
  · exact hfreq
  · exact hlast
  · exact hout
  · exact hlog

theorem synced_servoAlike (hd : d < 4) : s.ServoAlike (s.synced d m t1 l) 4 := by
  have hd4 : d ≠ 4 := by omega
  have hk : ∀ d < 4, ∀ k ∈ [lockKey 4, Key.servo.OUTLIER_LIMIT, Key.servo.SERVO_BW], k ∉ servoKeys d := by decide
  exact ⟨synced_tbase_main hd4, fun k hm => synced_frame.num (hk d hd k hm), synced_anchor hd4,
    by rw [State.mtbNs, synced_mtb, State.mtbNs], synced_now hd⟩

/-- A Sync that the servo of the MTB uses, where the MTB follows the domain (R55). -/
theorem main_used_of_sync (hd : d < 4) (h : s.HearsSync d m) (hf : s.follows d = true)
    (hu : s.Usable 4 (s.syncOffset d m 4 t1)) :
    s.Used 4 (s.syncOffset d m 4 t1) (s.does (syncMeasure d m t1 l)) (some l) := by
  have halike := synced_servoAlike (s := s) (m := m) (t1 := t1) (l := l) hd
  rw [does_syncMeasure h, State.syncMain, if_pos hf, State.does_phases_cons, State.does_phases_cons,
    State.does_phases_nil, State.does_always, State.run_cons, State.run_nil]
  exact halike.used (used_of_logged (by decide) (halike.usable hu))

end Sync

end Sys2Proof.Machine
end

section
/-!
The other PTP messages of a domain: delay exchanges, announces, and the change of port (R59, R61, R71, R383, R517).
-/

namespace Sys2Proof.Machine

/-! ### Path delay -/

/-- Rounding stays next to the number (log 4). -/
theorem floor_le_rounded (k : Nat) (x : Rat) : x.floor ≤ rounded k x ∧ rounded k x ≤ x.floor + 1 := by
  unfold rounded
  split
  · have hfloor : x.floor = x.num := by rw [Rat.floor_def]; simp [*]
    omega
  · split <;> omega

theorem rounded_half_bounds (k : Nat) {w : Int} (h0 : 0 ≤ w) (hw : w < 2 ^ 32) :
    0 ≤ rounded k ((w : Rat) / 2) ∧ rounded k ((w : Rat) / 2) < 2 ^ 32 := by
  obtain ⟨hlo, hhi⟩ := floor_le_rounded k ((w : Rat) / 2)
  have hfloor : ((w : Rat) / 2).floor = w / 2 := by
    have := Rat.floor_intCast_div_natCast w 2
    exact_mod_cast this
  omega

section Messages
variable {s : State} {d : Nat}

/-- An answer under E2E closes the delay exchange with half the round trip (R59). -/
theorem does_delayResp {ns : Nat} {t3 t1 t2 : Int} (hserved : s.units.mgmt.served = true) (hon : s.dtbOn d = true)
    (hfenced : (s.tbase d).fenced = false) (hmech : s.num (Key.dtb.DELAY_MECH d) ≠ 1) (hreq : (s.tbase d).request = some t3)
    (hsync : (s.tbase d).sync = some (t1, t2)) :
    s.does (delayResp d ns) = (s.apply (.num (Key.dtb.PATH_DELAY d)
      (max 0 (rounded (Key.dtb.PATH_DELAY d) (((t2 - t1 + (ns - t3) : Int) : Rat) / 2))))).apply
        (.tbase d fun x => { x with request := none }) := by
  rw [delayResp, does_servoP hserved, State.does]
  simp [hon, hfenced, hreq, hsync, hmech, -Int.cast_add, -Int.cast_sub]

theorem dtbUnfence_within (d : Nat) : Phase.Within [] (fun _ => ()) (dtbUnfence d) := fun s => by simp [dtbUnfence]

theorem fenced_dtbUnfence (s : State) (d : Nat) : ((s.does (dtbUnfence d)).tbase d).fenced = false := by
  simp only [State.does, dtbUnfence, State.run_cons, State.run_nil, State.tbase_apply_tbase, if_true]

@[simp] theorem State.tbase_apply_reg (s : State) (i k : Nat) (v : Value) : (s.apply (.reg k v)).tbase i = s.tbase i := by
  simp [State.tbase]

@[simp] theorem State.tbase_apply_event (s : State) (i c : Nat) (a : List Byte) : (s.apply (.event c a)).tbase i = s.tbase i :=
  (show Effect.Within [Key.evt.EVT_RAISED] (fun u => Tbl.at {} u.tbases i) (.event c a) by simp).units
    (fun _ _ _ _ _ _ => rfl) s

/-- A new grandmaster is recorded, and its domain is no longer fenced (R72, R517). -/
theorem does_announce {gm : Nat} (hserved : s.units.mgmt.served = true) (hon : s.dtbOn d = true)
    (hgm : s.nat (Key.dtb.GM_IDENTITY d) ≠ gm) :
    s.does (announce d gm) = ((s.apply (.nat (Key.dtb.GM_IDENTITY d) gm)).apply (.event Ev.GM_CHANGED (args16 [d] ++ le 8 gm))).does
      (if (s.tbase d).fenced then dtbUnfence d else always []) := by
  have hnew : (s.dtbOn d && s.nat (Key.dtb.GM_IDENTITY d) != gm) = true := by simp [hon, hgm]
  rw [announce, does_servoP hserved, State.does, if_pos hnew]
  refine Eq.trans (State.does_phases_cons s _ _) ?_
  simp only [State.does_phases_cons, State.does_phases_nil, State.does_always, State.run_cons, State.run_nil]

theorem announce_leaves {gm : Nat} (hd : d < 4) (hserved : s.units.mgmt.served = true) (hon : s.dtbOn d = true)
    (hlt : gm < 2 ^ 64) (hgm : s.nat (Key.dtb.GM_IDENTITY d) ≠ gm) :
    (s.does (announce d gm)).nat (Key.dtb.GM_IDENTITY d) = gm ∧ ((s.does (announce d gm)).tbase d).fenced = false ∧
      s.Frame [Key.dtb.GM_IDENTITY d, Key.evt.EVT_RAISED] (s.does (announce d gm)) := by
  have hw : ∀ d < 4, Dict.width (Key.dtb.GM_IDENTITY d) = some (64, false) := by decide +kernel
  have hk : ∀ d < 4, Key.dtb.GM_IDENTITY d ∉ [Key.evt.EVT_RAISED] := by decide
  have hrest : Phase.Within [] (fun _ => ()) (if (s.tbase d).fenced then dtbUnfence d else always []) := by
    simp [dtbUnfence_within]
  have hevent : (Effect.event Ev.GM_CHANGED (args16 [d] ++ le 8 gm)).Within [Key.evt.EVT_RAISED] (fun _ => ()) := by simp
  have hreg : (Effect.nat (Key.dtb.GM_IDENTITY d) gm).Within [Key.dtb.GM_IDENTITY d] (fun _ => ()) := by simp
  rw [does_announce hserved hon hgm]
  refine ⟨?_, ?_, ?_⟩
  · rw [(hrest.frame _).nat (by simp), (hevent.frame _).nat (hk d hd), State.nat_reg_of_lt (hw d hd) s hlt]
  · split
    next => exact fenced_dtbUnfence _ _
    next hf => simpa [Effect.nat] using hf
  · exact (((hreg.frame s).mono (by simp)).trans ((hevent.frame _).mono (by simp))).trans ((hrest.frame _).mono (by simp))

/-- A request is queued at the MAC of its domain, and is to be strobed there (R383). -/
theorem does_delayReqSend (hserved : s.units.mgmt.served = true) (hon : s.dtbOn d = true) {m : Nat} (hmac : s.dtbMac d = m) :
    ∃ f : Frame, s.does (delayReqSend d) = (s.apply (queueFrame m f)).apply (.mac m fun x => { x with ptpOut := x.ptpOut ++ [d] }) ∧
      f.kind = 1 ∧ f.prio = 0 ∧ f.ethernet = (s.tbase d).ethernet ∧ f.port = if (s.tbase d).ethernet then 0 else 319 := by
  obtain ⟨f, hq, hf⟩ := ptpQueue_eq m d (if s.num (Key.dtb.DELAY_MECH d) = 1 then 2 else 1) 319 s
  refine ⟨f, ?_, hf⟩
  rw [State.does, delayReqSend]
  simp only [hon, hserved, hmac, Bool.not_true, Bool.false_eq_true, or_self, if_false]
  refine Eq.trans (State.does_phases_cons s _ _) ?_
  rw [State.does_phases_cons, State.does_phases_nil, State.does_always, State.does, hq]
  rfl

theorem delayReqSend_leaves {m : Nat} (hserved : s.units.mgmt.served = true) (hon : s.dtbOn d = true) (hmac : s.dtbMac d = m) :
    (∃ f, ((s.does (delayReqSend d)).mac m).waiting = (s.mac m).waiting ++ [f] ∧ f.kind = 1 ∧ f.prio = 0 ∧
      f.ethernet = (s.tbase d).ethernet ∧ f.port = if (s.tbase d).ethernet then 0 else 319) ∧
    d ∈ ((s.does (delayReqSend d)).mac m).ptpOut ∧ s.Frame [] (s.does (delayReqSend d)) := by
  obtain ⟨f, hdoes, hkind, hprio, heth, hfport⟩ := does_delayReqSend hserved hon hmac
  rw [hdoes]
  refine ⟨⟨f, ?_, hkind, hprio, heth, hfport⟩, ?_, ?_⟩
  · simp [State.mac_apply_mac, queueFrame]
  · simp [State.mac_apply_mac]
  · exact (Effect.Within.frame (π := fun _ => ()) (by simp [queueFrame]) s).trans
      (Effect.Within.frame (π := fun _ => ()) (by simp) _)

/-- A change of port is treated as a step (R71). -/
theorem portMove_leaves (s : State) (d : Nat) :
    ((s.does (portMove d)).tbase d).onN1 = !(s.tbase d).onN1 ∧ ((s.does (portMove d)).tbase d).stepNext = true ∧
      s.Frame [] (s.does (portMove d)) := by
  have hw : Phase.Within [] (fun _ => ()) (portMove d) := fun s => by simp [portMove]
  refine ⟨?_, ?_, hw.frame s⟩
  all_goals
    simp only [State.does, portMove, State.run_cons, State.run_nil, State.tbase_apply_tbase, if_true]
    split <;> simp_all

theorem does_dtbFailover {n0 : Bool} (hserved : s.units.mgmt.served = true) (hport : s.nat (Key.dtb.PTP_PORT d) = 2)
    (hgo : (if (s.tbase d).onN1 then n0 else s.syncLate d && !n0) = true) : s.does (dtbFailover d n0) = s.does (portMove d) := by
  rw [dtbFailover, does_servoP hserved, State.does, if_pos ⟨hport, hgo⟩]
  rfl

end Messages

/-- Settles O26: a Sync of the port in use is a measurement that the servo uses; every other message has its own short list of
effects. -/
theorem ptpMessagesAreUsed : Obligations.PtpMessagesAreUsed := by
  intro s d hon hserved
  have hd := d.isLt
  have hincKey : ∀ d : Fin 4, incKey d = Key.dtb.DTB_INC d := by decide
  refine ⟨?_, ?_, ?_, ?_, ?_, ?_, ?_⟩
  · intro m t1 l hfenced hmac hport hlock hest hstep hlimit
    have hhears : s.HearsSync d m := ⟨hserved, hon, hfenced, hmac, hport⟩
    obtain ⟨⟨hfreq, hlast, hout, hlog, hinc, -⟩, hsync⟩ := used_of_sync (l := l) (t1 := t1) hd hhears
      ⟨hlock, hest, hstep, fun h4 => absurd h4 (by omega), hlimit⟩
    rw [← hfreq, hincKey] at hinc
    exact ⟨_, rfl, hlog, hlast, hout, hsync, hfreq, hinc, syncMeasure_frame hhears⟩
  · intro m t1 l hfenced hmac hport hfollows hlock hest hstep hslew hphase hsecond hlimit
    have hhears : s.HearsSync d m := ⟨hserved, hon, hfenced, hmac, hport⟩
    obtain ⟨hfreq, hlast, -, hlog, hinc, hmain⟩ := main_used_of_sync (l := l) (t1 := t1) hd hhears hfollows
      ⟨hlock, hest, hstep, fun _ => ⟨hslew, hphase, hsecond⟩, hlimit⟩
    obtain ⟨hmeasure, hsource⟩ := hmain rfl
    rw [← hfreq] at hinc
    exact ⟨_, rfl, hlog, hlast, hsource, hmeasure, hfreq, hinc, syncMeasure_frame hhears⟩
  · intro ns t3 t1 t2 hfenced hmech hreq hsync h0 hlt
    have hw : ∀ d < 4, Dict.width (Key.dtb.PATH_DELAY d) = some (32, false) := by decide +kernel
    obtain ⟨hlo, hhi⟩ := rounded_half_bounds (Key.dtb.PATH_DELAY d) h0 hlt
    refine ⟨_, rfl, ?_⟩
    change _ ∧ _
    rw [does_delayResp hserved hon hfenced hmech hreq hsync, max_eq_right hlo]
    refine ⟨State.num_reg_of_lt (hw d hd) s hlo hhi, ?_, ?_⟩
    · rw [State.tbase_apply_tbase, if_pos rfl]
    · exact (Effect.Within.frame (ks := [Key.dtb.PATH_DELAY d]) (π := fun _ => ()) (by simp) s).trans (State.frame_tbase _ _ _ _)
  · intro gm hgm hne
    exact ⟨_, rfl, announce_leaves hd hserved hon hgm hne⟩
  · intro m hm hmac
    exact ⟨_, rfl, delayReqSend_leaves hserved hon hmac⟩
  · intro hport hn1
    obtain ⟨hon1, hstep, hframe⟩ := portMove_leaves s d
    refine ⟨_, rfl, ?_⟩
    change ((s.does (dtbFailover d true)).tbase d).onN1 = false ∧ _
    rw [does_dtbFailover hserved hport (by rw [hn1]; rfl)]
    exact ⟨by rw [hon1, hn1]; rfl, hstep, hframe⟩
  · intro hport hn1 hlate
    obtain ⟨hon1, hstep, hframe⟩ := portMove_leaves s d
    refine ⟨_, rfl, ?_⟩
    change ((s.does (dtbFailover d false)).tbase d).onN1 = true ∧ _
    rw [does_dtbFailover hserved hport (by simp [hn1, hlate])]
    exact ⟨by rw [hon1, hn1]; rfl, hstep, hframe⟩

end Sys2Proof.Machine
end

section
/-!
The loss of the MTB's source, and the edges of the word clock and of PPS (R55, R56, R62, R70, R72).
-/

namespace Sys2Proof.Machine

/-! ### Typed entries -/

/-- An entry of an integer type holds a number of it (R6). -/
theorem State.Typed.intOk {s : State} (h : s.Typed) {k w : Nat} {sg : Bool} (hw : Dict.width k = some (w, sg)) :
    intOk w sg (s.num k) = true := by
  obtain ⟨r, hr, hint⟩ := Option.bind_eq_some_iff.1 hw
  have hok := h k r hr
  split at hint
  · cases hint
  · unfold State.num
    cases hv : s.get k <;> cases ht : r.ty <;> simp_all [Ty.ok, Ty.int, Value.int]

theorem State.Typed.num_nonneg {s : State} (h : s.Typed) {k w : Nat} (hw : Dict.width k = some (w, false)) : 0 ≤ s.num k := by
  have hok := h.intOk hw
  simp only [Machine.intOk, Bool.false_eq_true, if_false, decide_eq_true_eq] at hok
  exact hok.1

/-! ### The loss -/

/-- What the loss of the source may write. -/
def lossKeys : List Nat :=
  [Key.lock.SOURCE_STATE, Key.hold.INC_HELD, Key.mtb.INC, Key.hold.LOSS_TIME] ++ lockKeys 4

theorem sourceLost_within {α : Type} {π : Units → α} (h : ServoBlind 4 π) : Phase.Within lossKeys π sourceLost := by
  intro s
  have hl : Phase.Within lossKeys π (setLock 4 3) := (setLock_within h.lock 3).mono (List.subset_append_right ..)
  have hk : ∀ k ∈ [Key.lock.SOURCE_STATE, Key.hold.INC_HELD, Key.mtb.INC, Key.hold.LOSS_TIME, Key.evt.EVT_RAISED],
    k ∈ lossKeys := by decide
  simp only [List.forall_mem_cons] at hk
  refine Phase.within_phases ?_ s
  simp [h.anchor, h.tbase, hl, hk]

/-- The source is there and the MTB measures it: its loss would take it to HOLDOVER (R62). -/
structure State.Sourced (s : State) : Prop where
  lossAt : s.units.anchor.lossAt = none
  source : s.num Key.lock.SOURCE_STATE = 0
  lock : s.nat Key.lock.LOCK_STATE ∈ [1, 2]

theorem State.Sourced.locking {s : State} (h : s.Sourced) : s.locking = true := by
  have hl := h.lock
  simpa [State.locking] using hl

/-- What the loss of the source leaves (R62, R70). -/
structure State.LossHeld (s t : State) : Prop where
  source : t.num Key.lock.SOURCE_STATE = 1
  lock : t.num Key.lock.LOCK_STATE = 3
  lossAt : t.units.anchor.lossAt = some s.mtbNs
  inc : t.num Key.mtb.INC = clampInc (incNom + (s.tbase 4).freqTerm)
  held : t.num Key.hold.INC_HELD = t.num Key.mtb.INC
  mode : t.mode = s.mode

/-- What a lost source writes before the lock state is left (R70). -/
def State.lossEffects (s : State) : List Effect :=
  [.num Key.lock.SOURCE_STATE 1, .num Key.hold.INC_HELD (clampInc (incNom + (s.tbase 4).freqTerm)),
    .num Key.mtb.INC (clampInc (incNom + (s.tbase 4).freqTerm)), .nat Key.hold.LOSS_TIME s.now,
    .event Ev.SOURCE_LOST (args16 [s.nat Key.ref.REF_SOURCE]),
    .anchor fun a => { a with lossAt := some s.mtbNs, slewing := false, slewAdd := 0 },
    .tbase 4 fun x => { x with outliers := [] }]

section Loss
variable {s : State}

theorem does_sourceLost (h : s.Sourced) : s.does sourceLost = (s.run s.lossEffects).does (setLock 4 3) := by
  refine Eq.trans (State.does_phases_cons s _ _) ?_
  rw [State.does_phases_cons, State.does_phases_nil, State.does_always, h.lossAt, if_pos h.locking]
  rfl

theorem lossHeld_of_sourced (h : s.Sourced) : s.LossHeld (s.does sourceLost) := by
  have hlock : (s.run s.lossEffects).Frame (lockKeys 4) ((s.run s.lossEffects).does (setLock 4 3)) :=
    (setLock_within (servoBlind_unit 4).lock 3).frame _
  have hanchor := (setLock_within (lockBlind_anchor 4) 3).units (lockBlind_anchor 4).event (s.run s.lossEffects)
  have hsource : (s.run s.lossEffects).num Key.lock.SOURCE_STATE = 1 :=
    Confined.num_written (ks := lossKeys.tail) (π := fun _ => ()) (by simp [lossKeys, lockKeys])
      (show Dict.width Key.lock.SOURCE_STATE = some (8, false) by decide +kernel) (by decide) s 1
  have hheld : (s.run s.lossEffects).num Key.hold.INC_HELD = clampInc (incNom + (s.tbase 4).freqTerm) :=
    (Confined.num_written (ks := lossKeys.tail.tail) (π := fun _ => ()) (by simp [lossKeys, lockKeys])
      (show Dict.width Key.hold.INC_HELD = some (40, false) by decide +kernel) (by decide) _ _).trans
        (Int.emod_eq_of_lt (clampInc_bounds _).1 (clampInc_bounds _).2)
  have hinc : (s.run s.lossEffects).num Key.mtb.INC = clampInc (incNom + (s.tbase 4).freqTerm) :=
    (Confined.num_written (ks := lossKeys.tail.tail.tail) (π := fun _ => ()) (by simp [lossKeys, lockKeys])
      (show Dict.width Key.mtb.INC = some (40, false) by decide +kernel) (by decide) _ _).trans
        (Int.emod_eq_of_lt (clampInc_bounds _).1 (clampInc_bounds _).2)
  have h3 : (s.does sourceLost).nat Key.lock.LOCK_STATE = 3 := by
    rw [does_sourceLost h]; exact nat_setLock (tb := 4) (by decide) (by decide) _
  obtain ⟨-, hmode, -⟩ := (sourceLost_within (servoBlind_unit 4)).frame s
  rw [State.nat_eq_num] at h3
  rw [does_sourceLost h] at h3 hmode ⊢
  refine ⟨?_, by omega, ?_, ?_, ?_, hmode⟩
  · rw [hlock.num (by decide), hsource]
  · rw [hanchor]; rfl
  · rw [hlock.num (by decide), hinc]
  · rw [hlock.num (by decide), hlock.num (by decide), hheld, hinc]

/-- The part of the units that tells of a domain what the MTB's loss needs: the anchor and the MTB's servo. -/
def Units.mainClock (u : Units) : Anchor × TimeBase := (u.anchor, Tbl.at {} u.tbases 4)

/-- The loss after phases that concern a domain alone. -/
theorem lossHeld_after {d : Nat} {p : Phase} (hd : d < 4) (hp : Phase.Within (lockKeys d) Units.mainClock p) (h : s.Sourced) :
    s.LossHeld ((s.does p).does sourceLost) := by
  obtain ⟨hloss, hsource, hlock⟩ := h
  have hf := hp.frame s
  have hk : ∀ d < 4, ∀ k ∈ [Key.lock.SOURCE_STATE, Key.lock.LOCK_STATE], k ∉ lockKeys d := by decide
  have hu : Units.mainClock (s.does p).units = Units.mainClock s.units := hp.units (fun _ _ _ _ _ _ => rfl) s
  obtain ⟨hanchor, htb⟩ := Prod.mk.inj hu
  have hns : (s.does p).mtbNs = s.mtbNs := by rw [State.mtbNs, State.does_mtb, State.mtbNs]
  obtain ⟨hsource', hlock', hlossAt, hinc, hheld, hmode⟩ := lossHeld_of_sourced (s := s.does p)
    ⟨by rw [hanchor, hloss], by rw [hf.num (hk d hd _ (by decide)), hsource], by rwa [hf.nat (hk d hd _ (by decide))]⟩
  obtain ⟨-, hmode', -⟩ := hf
  exact ⟨hsource', hlock', hlossAt.trans (congrArg some hns),
    hinc.trans (congrArg (fun x : TimeBase => clampInc (incNom + x.freqTerm)) htb), hheld, hmode.trans hmode'⟩

theorem setLock_within_mainClock {d : Nat} (hd : d < 4) (new : Nat) :
    Phase.Within (lockKeys d) Units.mainClock (setLock d new) :=
  setLock_within {
    event := fun _ _ _ _ _ _ => rfl
    window := fun u w => by simp [Units.mainClock, Units.onTbase, Tbl.at_upd, show d ≠ 4 by omega]
    mgmt := fun h4 => absurd h4 (by omega) } new

/-! ### How the loss is found -/

theorem lossHeld_syncTimeout {d : Nat} (hd : d < 4) (h : s.Sourced) (hserved : s.units.mgmt.served = true)
    (hlate : s.syncLate d = true) (hf : s.follows d = true) : s.LossHeld (s.does (syncTimeout d)) := by
  have hdoes : s.does (syncTimeout d) = (s.does (if s.nat (Key.dtb.DOMAIN_LOCK d) = 1 ∨ s.nat (Key.dtb.DOMAIN_LOCK d) = 2
      then setLock d 3 else always [])).does sourceLost := by
    rw [syncTimeout, does_servoP hserved, State.does]
    simp only [hlate, hf, h.locking, Bool.not_true, Bool.false_eq_true, if_false, Bool.or_true, Bool.and_self, if_true]
    refine Eq.trans (State.does_phases_cons s _ _) ?_
    rw [State.does_phases_cons, State.does_phases_nil]
  rw [hdoes]
  exact lossHeld_after hd (Phase.within_ite.2 ⟨fun _ => setLock_within_mainClock hd 3, fun _ => by simp⟩) h

theorem does_refEdgeMissing (h : s.Sourced) (hserved : s.units.mgmt.served = true) (hlate : s.edgeLate = true) :
    s.does refEdgeMissing = s.does sourceLost := by
  rw [refEdgeMissing, does_servoP hserved, State.does]
  simp only [hlate, h.locking, Bool.or_true, Bool.and_self, if_true]
  rfl

/-- A domain that is fenced: what concerns the domain itself (R72). -/
def fenceDomain (d : Nat) : Phase := phases [always [.tbase d fun x => { x with fenced := true }], setLock d 0,
  always [.event Ev.DOMAIN_FENCED (args16 [d])]]

theorem does_dtbFence {d : Nat} (h : s.Sourced) (hserved : s.units.mgmt.served = true) (hon : s.dtbOn d = true)
    (hfenced : (s.tbase d).fenced = false) (hp : s.passed (s.tbase d).outSince 16000000000 = true) :
    s.does (dtbFence d) = (s.does (fenceDomain d)).does (if s.follows d then sourceLost else always []) := by
  rw [dtbFence, does_servoP hserved, State.does]
  simp only [hon, hfenced, hp, h.locking, Bool.not_false, Bool.and_self, if_true, Bool.or_true, Bool.and_true]
  refine Eq.trans (State.does_phases_cons s _ _) ?_
  simp only [State.does_phases_cons, State.does_phases_nil, fenceDomain]

theorem fenceDomain_within {d : Nat} (hd : d < 4) : Phase.Within (lockKeys d) Units.mainClock (fenceDomain d) :=
  Phase.within_phases (by
    have he : Key.evt.EVT_RAISED ∈ lockKeys d := by simp [lockKeys]
    simp [setLock_within_mainClock hd, he, Units.mainClock, Units.onTbase, Tbl.at_upd, show d ≠ 4 by omega])

/-- The domain is fenced and FREE, whether the MTB follows it or not. -/
theorem dtbFence_leaves {d : Nat} (hd : d < 4) (ht : s.Typed) (h : s.Sourced) (hserved : s.units.mgmt.served = true)
    (hon : s.dtbOn d = true) (hfenced : (s.tbase d).fenced = false)
    (hp : s.passed (s.tbase d).outSince 16000000000 = true) :
    ((s.does (dtbFence d)).tbase d).fenced = true ∧ (s.does (dtbFence d)).num (Key.dtb.DOMAIN_LOCK d) = 0 := by
  have hd4 : 4 ≠ d := by omega
  have hblind := servoBlind_tbase hd4
  have hlost : Phase.Within lossKeys (fun u => Tbl.at {} u.tbases d) (if s.follows d then sourceLost else always []) :=
    Phase.within_ite.2 ⟨fun _ => sourceLost_within hblind, fun _ => Phase.within_always.2 .nil⟩
  have htb := hlost.units hblind.event (s.does (fenceDomain d))
  have hk : ∀ d < 4, Key.dtb.DOMAIN_LOCK d ∉ lossKeys ∧ lockKey d ∉ [Key.evt.EVT_RAISED] ∧ lockKey d = Key.dtb.DOMAIN_LOCK d := by
    decide
  obtain ⟨hkl, hke, hkd⟩ := hk d hd
  have hfence : s.does (fenceDomain d) = ((s.apply (.tbase d fun x => { x with fenced := true })).does (setLock d 0)).apply
      (.event Ev.DOMAIN_FENCED (args16 [d])) := by
    simp only [fenceDomain, State.does_phases_cons, State.does_phases_nil, State.does_always, State.run_cons, State.run_nil]
  have hevent : Effect.Within [Key.evt.EVT_RAISED] (fun _ => ()) (.event Ev.DOMAIN_FENCED (args16 [d])) := by simp
  constructor
  · have hsteady := (setLock_within (lockBlind_steady d d) 0).units (lockBlind_steady d d).event
      (s.apply (.tbase d fun x => { x with fenced := true }))
    rw [does_dtbFence h hserved hon hfenced hp]
    refine (congrArg TimeBase.fenced htb).trans ?_
    change ((s.does (fenceDomain d)).tbase d).fenced = true
    rw [hfence, State.tbase_apply_event]
    refine (congrArg TimeBase.fenced hsteady).trans ?_
    exact (congrArg TimeBase.fenced ((s.tbase_apply_tbase d d _).trans (if_pos rfl)))
  · have hnonneg : 0 ≤ (s.does (dtbFence d)).num (Key.dtb.DOMAIN_LOCK d) :=
      (s.does_typed _ ht).num_nonneg (hkd ▸ width_lockKey d (by omega))
    have hzero : (s.does (dtbFence d)).nat (Key.dtb.DOMAIN_LOCK d) = 0 := by
      rw [does_dtbFence h hserved hon hfenced hp, (hlost.frame _).nat hkl, hfence, ← hkd, (hevent.frame _).nat hke,
        nat_setLock (by omega) (by decide)]
    rw [State.nat_eq_num] at hzero
    omega

end Loss

/-! ### Edges -/

section Edges
variable {s : State}

/-- An edge that the MTB's servo uses; `g` is what is kept of the edge (R56, R61). -/
theorem used_of_edge {g : Anchor → Anchor} (hg : ∀ a, (g a).slewing = a.slewing ∧ (g a).phase = a.phase ∧ (g a).second = a.second)
    {o : Int} (hu : s.Usable 4 o) : (s.apply (.anchor g)).Usable 4 o ∧
      s.Used 4 o ((s.apply (.anchor g)).does (measure 4 o)) (s.tbase 4).syncLog := by
  obtain ⟨hlock, hest, hstep, hclear, hlimit⟩ := hu
  obtain ⟨hs, hp, h2⟩ := hclear rfl
  obtain ⟨hgs, hgp, hg2⟩ := hg s.units.anchor
  have husable : (s.apply (.anchor g)).Usable 4 o :=
    ⟨hlock, hest, hstep, fun _ => ⟨hgs.trans hs, hgp.trans hp, hg2.trans h2⟩, hlimit⟩
  obtain ⟨hfreq, hlast, hout, hlog, hinc, hmain⟩ := used_of_usable (by decide) husable
  exact ⟨husable, hfreq, hlast, hout, hlog, hinc, hmain⟩

/-- A part of the anchor that neither a slew nor the source's return touches stays through such a measurement. -/
theorem anchor_of_edge {β : Type} {π : Anchor → β} (hl : ∀ a l, π { a with lossAt := l } = π a)
    (hp : ∀ a p, π { a with slewAdd := p } = π a) {x : State} {o : Int} (hu : x.Usable 4 o) :
    π (x.does (measure 4 o)).units.anchor = π x.units.anchor :=
  measure_units (π := fun u => π u.anchor) hu ⟨fun _ _ _ _ _ _ => rfl, fun _ _ => rfl, fun _ _ _ => rfl⟩
    ⟨fun _ _ => rfl, fun _ u _ => hp u.anchor _⟩ (fun _ _ => rfl) (fun u l => hl u.anchor l)

theorem does_edge {g : Anchor → Anchor} (hserved : s.units.mgmt.served = true) (p : Phase) :
    s.does (phases [always [.anchor g], servoP p]) = (s.apply (.anchor g)).does p := by
  rw [State.does_phases_cons, State.does_phases_cons, State.does_phases_nil, State.does_always, State.run_cons, State.run_nil]
  exact does_servoP (s := s.apply (.anchor g)) hserved p

theorem does_wclkEdge (hserved : s.units.mgmt.served = true) (ppm : Int) : s.does (wclkEdge ppm) =
    (s.apply (.anchor fun a => { a with wclkLast := some s.edgeMtb })).does
      (if s.num Key.ref.REF_SOURCE ≠ 2 then always []
        else if 500 < |ppm| then (if s.num Key.lock.SOURCE_STATE == 0 || s.locking then sourceLost else always [])
        else measure 4 ((s.edgeTime : Int) - s.edgeRef)) := does_edge hserved _

theorem does_ppsEdge (hserved : s.units.mgmt.served = true) : s.does ppsEdge =
    (s.apply (.anchor fun a => { a with ppsLast := some s.edgeMtb })).does
      (if s.num Key.ref.REF_SOURCE = 3 then measure 4 ((s.edgeTime : Int) - s.edgeRef) else always []) := does_edge hserved _

/-- An edge of what is not the source is only kept. -/
theorem frame_edge (s : State) (g : Anchor → Anchor) : s.Frame [] (s.apply (.anchor g)) :=
  Effect.Within.frame (π := fun _ => ()) (by simp) s

theorem edge_measured_frame {g : Anchor → Anchor} (o : Int) :
    ((s.apply (.anchor g)).does (measure 4 o)).mode = s.mode ∧ ((s.apply (.anchor g)).does (measure 4 o)).store = s.store := by
  obtain ⟨-, hmode, hstore⟩ := (measure_within (servoBlind_unit 4) o).frame (s.apply (.anchor g))
  exact ⟨hmode, hstore⟩

end Edges

/-- Settles O27: the loss writes what holdover holds and then leaves for HOLDOVER; what comes before it concerns the domain
alone. An edge of the source is a measurement that the servo uses. -/
theorem lossOfTheSourceIsHeld : Obligations.LossOfTheSourceIsHeld := by
  intro s ht hloss hsource hlock hserved
  have h : s.Sourced := ⟨hloss, hsource, hlock⟩
  refine ⟨?_, ?_, ?_, ?_, ?_, ?_⟩
  · intro d hlate hf
    obtain ⟨hsource', hlock', hlossAt, hinc, hheld, hmode⟩ := lossHeld_syncTimeout d.isLt h hserved hlate hf
    exact ⟨_, rfl, hsource', hlock', hlossAt, hinc, hheld, hmode⟩
  · intro hlate
    obtain ⟨hsource', hlock', hlossAt, hinc, hheld, hmode⟩ := lossHeld_of_sourced h
    rw [← does_refEdgeMissing h hserved hlate] at hsource' hlock' hlossAt hinc hheld hmode
    exact ⟨_, rfl, hsource', hlock', hlossAt, hinc, hheld, hmode⟩
  · intro d hon hfenced hp
    obtain ⟨hf, hfree⟩ := dtbFence_leaves d.isLt ht h hserved hon hfenced hp
    refine ⟨_, rfl, hf, hfree, fun hfollows => ?_⟩
    obtain ⟨hsource', hlock', -, hinc, hheld, -⟩ := lossHeld_after d.isLt (fenceDomain_within d.isLt) h
    have hdoes : s.does (dtbFence d) = (s.does (fenceDomain d)).does sourceLost := by
      rw [does_dtbFence h hserved hon hfenced hp, if_pos hfollows]
    rw [← hdoes] at hsource' hlock' hinc hheld
    exact ⟨hsource', hlock', hinc, hheld⟩
  · intro ppm hother
    refine ⟨_, rfl, ?_⟩
    change (s.does (wclkEdge ppm)).units.anchor.wclkLast = _ ∧ s.Frame [] (s.does (wclkEdge ppm))
    rw [does_wclkEdge hserved, if_pos hother]
    exact ⟨rfl, frame_edge s fun a => { a with wclkLast := some s.edgeMtb }⟩
  · intro hother
    refine ⟨_, rfl, ?_⟩
    change (s.does ppsEdge).units.anchor.ppsLast = _ ∧ s.Frame [] (s.does ppsEdge)
    rw [does_ppsEdge hserved, if_neg hother]
    exact ⟨rfl, frame_edge s fun a => { a with ppsLast := some s.edgeMtb }⟩
  · intro hest hstep hslew hphase hsecond hlimit
    have hu : s.Usable 4 ((s.edgeTime : Int) - s.edgeRef) := ⟨hlock, hest, hstep, fun _ => ⟨hslew, hphase, hsecond⟩, hlimit⟩
    constructor
    · intro ppm hwclk hppm
      obtain ⟨husable, hused⟩ := used_of_edge (g := fun a => { a with wclkLast := some s.edgeMtb })
        (fun _ => ⟨rfl, rfl, rfl⟩) hu
      obtain ⟨-, -, -, -, hinc, hmain⟩ := hused
      refine ⟨_, rfl, ?_⟩
      change (s.does (wclkEdge ppm)).units.anchor.wclkLast = _ ∧ (s.does (wclkEdge ppm)).nat _ = _ ∧
        (s.does (wclkEdge ppm)).num _ = _ ∧ (s.does (wclkEdge ppm)).mode = _ ∧ (s.does (wclkEdge ppm)).store = _
      rw [does_wclkEdge hserved, if_neg (not_not.2 hwclk), if_neg (not_lt.2 hppm)]
      refine ⟨?_, (hmain rfl).1, hinc, edge_measured_frame _⟩
      rw [anchor_of_edge (π := Anchor.wclkLast) (fun _ _ => rfl) (fun _ _ => rfl) husable]
      rfl
    · intro hpps
      obtain ⟨husable, hused⟩ := used_of_edge (g := fun a => { a with ppsLast := some s.edgeMtb })
        (fun _ => ⟨rfl, rfl, rfl⟩) hu
      obtain ⟨-, -, -, -, hinc, hmain⟩ := hused
      refine ⟨_, rfl, ?_⟩
      change (s.does ppsEdge).units.anchor.ppsLast = _ ∧ (s.does ppsEdge).nat _ = _ ∧
        (s.does ppsEdge).num _ = _ ∧ (s.does ppsEdge).mode = _ ∧ (s.does ppsEdge).store = _
      rw [does_ppsEdge hserved, if_pos hpps]
      refine ⟨?_, (hmain rfl).1, hinc, edge_measured_frame _⟩
      rw [anchor_of_edge (π := Anchor.ppsLast) (fun _ _ => rfl) (fun _ _ => rfl) husable]
      rfl

end Sys2Proof.Machine
end

section
/-!
The end of the frequency estimate, of the lock window and of a slew (R49, R61, R62, R63, R64, R70).
-/

namespace Sys2Proof.Machine

@[simp] theorem State.anchor_apply_reg (s : State) (k : Nat) (v : Value) : (s.apply (.reg k v)).units.anchor = s.units.anchor := by
  simp

@[simp] theorem State.anchor_apply_event (s : State) (c : Nat) (a : List Byte) :
    (s.apply (.event c a)).units.anchor = s.units.anchor :=
  (show Effect.Within [Key.evt.EVT_RAISED] (fun u => u.anchor) (.event c a) by simp).units (fun _ _ _ _ _ _ => rfl) s

@[simp] theorem State.anchor_apply_anchor (s : State) (f : Anchor → Anchor) :
    (s.apply (.anchor f)).units.anchor = f s.units.anchor := rfl

/-! ### The estimate -/

/-- A frequency estimate has run its 8 intervals in ACQUIRE (Table 02-7). -/
structure State.Estimated (s : State) (tb : Nat) : Prop where
  served : s.units.mgmt.served = true
  estimating : (s.tbase tb).estimating = true
  estLeft : (s.tbase tb).estLeft = 0
  lock : s.nat (lockKey tb) = 1

/-- The time base once its estimate has ended. -/
def TimeBase.estimated (x : TimeBase) : TimeBase :=
  { x with estimating := false, pred := 0, windowStart := none, stepNext := false }

section Estimate
variable {s : State} {tb : Nat}

theorem does_estimateDone (h : s.Estimated tb) :
    s.does (estimateDone tb) = (s.apply (.tbase tb TimeBase.estimated)).does (applyOffset tb (s.num (offsetKey tb))) := by
  obtain ⟨hserved, hest, hleft, hlock⟩ := h
  rw [estimateDone, does_servoP hserved, State.does]
  simp only [hest, hleft, hlock, decide_true, Bool.and_self, if_true]
  refine Eq.trans (State.does_phases_cons s _ _) ?_
  rw [State.does_phases_cons, State.does_phases_nil]
  rfl

/-- The estimate of a DTB ends with a step (R49). -/
theorem estimateDone_leaves_domain {d : Nat} (hd : d < 4) (h : s.Estimated d) :
    ((s.does (estimateDone d)).tbase d).estimating = false ∧
      ((s.does (estimateDone d)).tbase d).count = (s.tbase d).count - BitVec.ofInt 96 (s.num (offsetKey d) * 2 ^ 32) ∧
      (s.does (estimateDone d)).num (Key.dtb.STEP_COUNT d) = (s.num (Key.dtb.STEP_COUNT d) + 1) % 2 ^ 32 ∧
      s.Frame [Key.dtb.STEP_COUNT d] (s.does (estimateDone d)) := by
  have hdoes : s.does (estimateDone d) = (((s.apply (.tbase d TimeBase.estimated)).apply (dtbShift d (s.num (offsetKey d)))).apply
      (.tbase d fun x => { x with pred := 0 })).apply (.bump (Key.dtb.STEP_COUNT d) 1) := by
    rw [does_estimateDone h, applyOffset, if_neg (by omega)]
    rfl
  have hkeep : s.Frame [] (((s.apply (.tbase d TimeBase.estimated)).apply (dtbShift d (s.num (offsetKey d)))).apply
      (.tbase d fun x => { x with pred := 0 })) :=
    ((State.frame_tbase _ _ d _).trans (State.frame_tbase _ _ d _)).trans (State.frame_tbase _ _ d _)
  have hcount : Effect.Within [Key.dtb.STEP_COUNT d] (fun _ => ()) (.bump (Key.dtb.STEP_COUNT d) 1) := by simp
  rw [hdoes]
  refine ⟨?_, ?_, ?_, (hkeep.mono (by simp)).trans (hcount.frame _)⟩
  · simp [State.tbase_apply_tbase, dtbShift, TimeBase.estimated]
  · simp [State.tbase_apply_tbase, dtbShift, TimeBase.estimated]
  · rw [State.num_bump _ (width_stepCount d hd), hkeep.num (by simp)]

end Estimate

/-! ### The MTB's whole offset -/

/-- No slew runs and no anchoring is under way: a whole offset can be slewed or re-anchored afresh (R63, R64). -/
structure State.FreshOffset (s : State) : Prop where
  slewing : s.units.anchor.slewing = false
  phase : s.units.anchor.phase = 0

section Offset
variable {s : State} {o : Int}

/-- The state in which a newly measured whole offset is removed: nothing of an earlier one is left (R70, R73). -/
def State.offsetTaken (s : State) : State :=
  (s.does slewStop).run
    [.anchor fun a => { a with slewLsb := 0, offset := if a.phase = 1 then 0 else a.offset, second := none },
     .num Key.servo.SLEW_REMAINING 0, .tbase 4 fun x => { x with pred := 0 }]

theorem does_mtbOffset : s.does (mtbOffset o) = s.offsetTaken.does (mtbStep o) := by
  rw [mtbOffset, State.does_phases_cons, State.does_phases_cons, State.does_phases_cons, State.does_phases_nil, State.does_always]
  rfl

theorem anchor_slewStop (s : State) : (s.does slewStop).units.anchor.slewing = false ∧
    (s.does slewStop).units.anchor.phase = s.units.anchor.phase := by
  rw [State.does, slewStop]
  split
  · exact ⟨rfl, rfl⟩
  · simp_all [State.run_nil]

theorem freshOffset_offsetTaken (h : s.units.anchor.phase = 0) : s.offsetTaken.FreshOffset := by
  obtain ⟨hslewing, hphase⟩ := anchor_slewStop s
  exact ⟨hslewing, hphase.trans h⟩

theorem slewNs_whole (o : Int) : slewNs (o * 2 ^ 32) = o := by
  unfold slewNs
  split <;> omega

/-- A slew that starts afresh (R63). -/
theorem slewStart_leaves (h : s.FreshOffset) (ho : |o| ≤ 1000000) :
    (s.does (slewStart o)).units.anchor.slewLsb = o * 2 ^ 32 ∧ (s.does (slewStart o)).num Key.servo.SLEW_REMAINING = o ∧
      (s.does (slewStart o)).units.anchor.phase = 0 := by
  obtain ⟨hslewing, hphase⟩ := h
  obtain ⟨hlo, hhi⟩ := abs_le.1 ho
  have hrest (inc : Int) : Confined [Key.mtb.INC, Key.evt.EVT_RAISED] (fun _ => ())
      [.num Key.mtb.INC inc, .event Ev.SLEW_START (le 8 o)] := by simp
  refine ⟨?_, ?_, ?_⟩
  · simp [State.does, slewStart, hslewing, State.run_cons, State.run_nil, Effect.num]
  · rw [State.does, slewStart]
    simp only [hslewing, Bool.false_eq_true, if_false, zero_add, slewNs_whole]
    rw [State.run_cons, State.run_cons, (hrest _).num_written
      (show Dict.width Key.servo.SLEW_REMAINING = some (64, true) by decide +kernel) (by decide), if_pos rfl]
    exact signed_eq_self (by omega) (by omega)
  · simp [State.does, slewStart, hphase, State.run_cons, State.run_nil, Effect.num]

/-- A re-anchor begins; the mutes and the lock state leave the anchor (R64). -/
theorem reanchorBegin_anchor (s : State) (o : Int) :
    (s.does (reanchorBegin o)).units.anchor = { s.units.anchor with phase := 1, offset := o } := by
  have hrest : Phase.Within stepKeys (fun u => u.anchor) (phases [setLock 4 1, forAll (List.range 16) anchorMute]) := by
    have hl : Phase.Within stepKeys (fun u => u.anchor) (setLock 4 1) :=
      (setLock_within (lockBlind_anchor 4) 1).mono (List.subset_append_left ..)
    have hm : Phase.Within stepKeys (fun u => u.anchor) (forAll (List.range 16) anchorMute) :=
      Phase.within_forAll fun c _ => anchorMute_within (fun _ _ _ => rfl) (fun _ _ => rfl) c
    exact Phase.within_phases (by simp [hl, hm])
  rw [reanchorBegin, State.does_phases_cons, State.does_always]
  refine (hrest.units (lockBlind_anchor 4).event _).trans ?_
  simp [State.run_cons, State.run_nil]

theorem does_mtbStep (h : s.FreshOffset) :
    s.does (mtbStep o) = if |o| ≤ 1000000 then s.does (slewStart o) else s.does (reanchorBegin o) := by
  rw [State.does, mtbStep]
  simp only [h.phase, zero_ne_one, if_false, show (0 : Nat) ≠ 2 by decide]
  split <;> rfl

/-- A whole offset is slewed up to 1 ms and re-anchored above it (R63, R64). -/
theorem mtbOffset_leaves (h : s.units.anchor.phase = 0) :
    (|o| ≤ 1000000 → (s.does (mtbOffset o)).units.anchor.slewLsb = o * 2 ^ 32 ∧
      (s.does (mtbOffset o)).num Key.servo.SLEW_REMAINING = o ∧ (s.does (mtbOffset o)).units.anchor.phase = 0) ∧
    (1000000 < |o| → (s.does (mtbOffset o)).units.anchor.phase = 1 ∧ (s.does (mtbOffset o)).units.anchor.offset = o) := by
  have hfresh := freshOffset_offsetTaken h
  rw [does_mtbOffset, does_mtbStep hfresh]
  refine ⟨fun ho => ?_, fun ho => ?_⟩
  · rw [if_pos ho]; exact slewStart_leaves hfresh ho
  · rw [if_neg (not_le.2 ho), reanchorBegin_anchor]; exact ⟨rfl, rfl⟩

/-- The estimate of the MTB ends with its whole offset (R63, R64). -/
theorem does_estimateDone_main (h : s.Estimated 4) : s.does (estimateDone 4) =
    (s.apply (.tbase 4 TimeBase.estimated)).does (mtbOffset (s.num Key.servo.OFFSET)) := by
  rw [does_estimateDone h, applyOffset, if_pos rfl]
  rfl

/-- A step of the MTB leaves its time base, but for its window. -/
theorem stepBlind_steady : StepBlind fun u => (Tbl.at {} u.tbases 4).steady :=
  ⟨lockBlind_steady 4 4, fun _ _ => rfl, fun _ _ _ => rfl, fun _ _ => rfl⟩

theorem tbases_slewStop (s : State) : (s.does slewStop).units.tbases = s.units.tbases :=
  (slewStop_within (π := fun u => u.tbases) fun _ _ => rfl).units (fun _ _ _ _ _ _ => rfl) s

theorem estimating_mtbOffset (s : State) (o : Int) : ((s.does (mtbOffset o)).tbase 4).estimating = (s.tbase 4).estimating := by
  have htaken : (s.offsetTaken.tbase 4).estimating = (s.tbase 4).estimating := by
    simp only [State.offsetTaken, State.run_cons, State.run_nil, State.tbase_apply_tbase, if_true]
    exact congrArg (fun b => (Tbl.at {} b 4).estimating) (tbases_slewStop s)
  rw [does_mtbOffset]
  exact (congrArg TimeBase.estimating ((mtbStep_within stepBlind_steady o).units stepBlind_steady.lock.event s.offsetTaken)).trans htaken

/-- The estimate of the MTB ends, and its whole offset is removed (R63, R64). -/
theorem estimateDone_leaves_main (h : s.Estimated 4) : ((s.does (estimateDone 4)).tbase 4).estimating = false ∧
    (s.does (estimateDone 4)).mode = s.mode ∧ (s.does (estimateDone 4)).store = s.store := by
  obtain ⟨-, hmode, hstore⟩ := (mtbOffset_within (servoBlind_unit 4) (s.num Key.servo.OFFSET)).frame
    (s.apply (.tbase 4 TimeBase.estimated))
  rw [does_estimateDone_main h]
  refine ⟨?_, hmode, hstore⟩
  rw [estimating_mtbOffset, State.tbase_apply_tbase, if_pos rfl]
  rfl

end Offset

/-! ### The lock window and the end of a slew -/

section Window
variable {s : State} {tb : Nat}

/-- ACQUIRE is left for LOCKED (R62). -/
theorem lock_of_window (htb : tb < 5) (h : s.nat (lockKey tb) = 1) : (s.does (setLock tb 2)).nat (lockKey tb) = 2 ∧
    s.Frame [lockKey tb, Key.lock.LOCK_SINCE, Key.evt.EVT_RAISED] (s.does (setLock tb 2)) := by
  have hc : Confined [lockKey tb, Key.lock.LOCK_SINCE, Key.evt.EVT_RAISED] (fun _ => ()) (setLock tb 2 s) := by
    simp [setLock, h]
  exact ⟨nat_setLock htb (by decide) s, hc.frame s⟩

theorem does_lockWindow (hserved : s.units.mgmt.served = true) (h : s.nat (lockKey tb) = 1) (ho : |s.num (offsetKey tb)| < 1000)
    (hp : s.passed (s.tbase tb).windowStart 8000000000 = true) (hest : (s.tbase tb).estimating = false) :
    s.does (lockWindow tb) = s.does (setLock tb 2) := by
  rw [lockWindow, does_servoP hserved, State.does, if_pos ⟨h, ho, hp, by rw [hest]; rfl⟩]
  rfl

/-- The phase term of a slew leaves INC when nothing is left to slew (R63). -/
theorem slewDone_leaves (hserved : s.units.mgmt.served = true) (hslew : s.units.anchor.slewing = true)
    (hlsb : s.units.anchor.slewLsb = 0) :
    (s.does slewDone).units.anchor.slewing = false ∧ (s.does slewDone).num Key.servo.SLEW_REMAINING = 0 ∧
      (s.does slewDone).num Key.mtb.INC = clampInc (s.num Key.mtb.INC - s.units.anchor.slewAdd) ∧
      s.Frame [Key.servo.SLEW_REMAINING, Key.mtb.INC] (s.does slewDone) := by
  have hzero : Effect.Within [Key.servo.SLEW_REMAINING] (fun u => u.anchor) (.num Key.servo.SLEW_REMAINING 0) := by simp
  have hf := hzero.frame s
  have ha : (s.apply (.num Key.servo.SLEW_REMAINING 0)).units.anchor = s.units.anchor := s.anchor_apply_reg _ _
  have hstop := (slewStop_within (π := fun _ => ()) fun _ _ => rfl).frame (s.apply (.num Key.servo.SLEW_REMAINING 0))
  have hdoes : s.does slewDone = (s.apply (.num Key.servo.SLEW_REMAINING 0)).does slewStop := by
    rw [slewDone, does_servoP hserved, State.does]
    simp only [hslew, hlsb, beq_self_eq_true, Bool.and_self, if_true]
    refine Eq.trans (State.does_phases_cons s _ _) ?_
    rw [State.does_phases_cons, State.does_phases_nil]
    rfl
  rw [hdoes]
  refine ⟨(anchor_slewStop _).1, ?_, ?_, (hf.mono (by simp)).trans (hstop.mono (by simp))⟩
  · rw [hstop.num (by decide)]
    exact s.num_set (show Dict.width Key.servo.SLEW_REMAINING = some (64, true) by decide +kernel) 0
  · rw [State.does, slewStop, ha, if_pos hslew, State.incBase, ha, hf.num (by decide)]
    exact State.num_inc (tb := 4) (by decide) _ _

end Window

/-- Settles O28: each time base takes its own offset, which the MTB slews or re-anchors by its size. -/
theorem lockIsReached : Obligations.LockIsReached := by
  intro s _ hserved
  have hoffset : ∀ d : Fin 4, offsetKey d = Key.dtb.DTB_OFFSET d := by decide
  refine ⟨?_, ?_, ?_, ?_⟩
  · intro d hest hleft hlock
    have h := estimateDone_leaves_domain d.isLt ⟨hserved, hest, hleft, hlock⟩
    rw [hoffset d] at h
    exact ⟨_, rfl, h⟩
  · intro hest hleft hlock hphase
    have h : s.Estimated 4 := ⟨hserved, hest, hleft, hlock⟩
    obtain ⟨hend, hmode, hstore⟩ := estimateDone_leaves_main h
    have hremoved := mtbOffset_leaves (s := s.apply (.tbase 4 TimeBase.estimated)) (o := s.num Key.servo.OFFSET) hphase
    rw [← does_estimateDone_main h] at hremoved
    obtain ⟨hslews, hanchors⟩ := hremoved
    exact ⟨_, rfl, hend, hmode, hstore, hslews, hanchors⟩
  · intro tb hlock ho hp hest
    have h := lock_of_window tb.isLt hlock
    rw [← does_lockWindow hserved hlock ho hp hest] at h
    exact ⟨_, rfl, h⟩
  · intro hslew hlsb
    exact ⟨_, rfl, slewDone_leaves hserved hslew hlsb⟩

end Sys2Proof.Machine
end

section
/-!
Start groups: the edges that fix a start (R79), and the ports and generators that begin at it (R78, R310, R350).
-/

namespace Sys2Proof.Machine

variable {α : Type}

/-! ### One member of a list in turn -/

/-- The turn of one member: what comes before and after it concerns the others. -/
theorem State.does_forAll_of_mem {ι : Type} {l : List ι} {i : ι} (hi : i ∈ l) (hl : l.Nodup) (f : ι → Phase) (s : State) :
    ∃ before after, l = before ++ i :: after ∧ i ∉ before ∧ i ∉ after ∧
      s.does (forAll l f) = ((s.does (forAll before f)).does (f i)).does (forAll after f) := by
  obtain ⟨before, after, rfl⟩ := List.append_of_mem hi
  have happend : ∀ (l₁ l₂ : List ι) (s : State), s.does (forAll (l₁ ++ l₂) f) = (s.does (forAll l₁ f)).does (forAll l₂ f) := by
    intro l₁ l₂
    induction l₁ with
    | nil => exact fun _ => rfl
    | cons j l₁ ih => exact fun s => by simp only [forAll, List.cons_append, List.map_cons, State.does_phases_cons] at ih ⊢; exact ih _
  obtain ⟨-, hcons, hdis⟩ := List.nodup_append.1 hl
  refine ⟨before, after, rfl, fun h => hdis i h i (by simp) rfl, (List.nodup_cons.1 hcons).1, ?_⟩
  rw [happend]
  simp only [forAll, List.map_cons, State.does_phases_cons]

/-! ### The edge of a GPIO pin -/

theorem State.sg_apply_sg (s : State) (i j : Nat) (f : SgExt → SgExt) :
    (s.apply (.sg i f)).sg j = if i = j then f (s.sg i) else s.sg j := Tbl.at_upd ..

theorem sgFix_within {π : Units → α} {g n : Nat} (h : ∀ u f, π (Units.onSg u g f) = π u) : Phase.Within [] π (sgFix g n) := by
  intro s
  simp [sgFix, h]

/-- What an edge does for one group (R79). -/
def gpioFixOf (pin : Nat) (rising : Bool) (first g : Nat) : Phase := fun s =>
  if s.num (Key.sg.SG_TRIGGER g) = 1 ∧ s.nat (Key.sg.SG_GPIO g) = pin ∧ s.num (Key.sg.SG_EDGE g) = (if rising then 0 else 1) then
    sgFix g (first + 4) s
  else []

theorem gpioFixOf_within {π : Units → α} {pin first g : Nat} {rising : Bool} (h : ∀ u f, π (Units.onSg u g f) = π u) :
    Phase.Within [] π (gpioFixOf pin rising first g) := fun s =>
  confined_ite.2 ⟨fun _ => sgFix_within h s, fun _ => .nil⟩

theorem gpioFix_eq (pin : Nat) (rising : Bool) (first : Nat) :
    gpioFix pin rising first = forAll (List.range 8) (gpioFixOf pin rising first) := rfl

/-- A part of the units that the start of other groups leaves. -/
theorem sg_blind {i g : Nat} (h : i ≠ g) (u : Units) (f : SgExt → SgExt) : Tbl.at {} (Units.onSg u i f).sgs g = Tbl.at {} u.sgs g := by
  simp [Units.onSg, Tbl.at_upd, h]

section Edge
variable {s : State} {g : Nat} {pin first : Nat} {rising : Bool}

/-- A group that the edge selects has its start fixed, at the fourth sample after the first (R79). -/
theorem sg_gpioFix (hg : g < 8) (htrig : s.num (Key.sg.SG_TRIGGER g) = 1) (hpin : s.nat (Key.sg.SG_GPIO g) = pin)
    (hedge : s.num (Key.sg.SG_EDGE g) = if rising then 0 else 1) (hstate : s.num (Key.sg.SG_STATE g) = 1) :
    ((s.does (gpioFix pin rising first)).sg g).fixed = some (first + 4) := by
  obtain ⟨before, after, -, hb, ha, hdoes⟩ := State.does_forAll_of_mem (List.mem_range.2 hg) List.nodup_range
    (gpioFixOf pin rising first) s
  have hother : ∀ l : List Nat, g ∉ l → Phase.Within [] (fun u => Tbl.at {} u.sgs g) (forAll l (gpioFixOf pin rising first)) :=
    fun l hl => Phase.within_forAll fun i hi => gpioFixOf_within (sg_blind fun h => hl (h ▸ hi))
  have hkeep := (hother before hb).frame s
  obtain ⟨x, hx⟩ : ∃ x, x = s.does (forAll before (gpioFixOf pin rising first)) := ⟨_, rfl⟩
  rw [← hx] at hkeep hdoes
  have hturn : x.does (gpioFixOf pin rising first g) = x.apply (.sg g fun y => { y with fixed := some (first + 4), go := none }) := by
    rw [State.does, gpioFixOf, hkeep.num (by simp), hkeep.num (by simp), hkeep.nat (by simp), if_pos ⟨htrig, hpin, hedge⟩, sgFix,
      hkeep.num (by simp), if_pos hstate]
    rfl
  rw [gpioFix_eq, hdoes, hturn]
  refine (congrArg SgExt.fixed ((hother after ha).units (fun _ _ _ _ _ _ => rfl) _)).trans ?_
  exact congrArg SgExt.fixed ((x.sg_apply_sg g g _).trans (if_pos rfl))

theorem gpioFix_frame (s : State) : s.Frame [] (s.does (gpioFix pin rising first)) :=
  Phase.Within.frame (π := fun _ => ()) (Phase.within_forAll fun _ _ => gpioFixOf_within fun _ _ => rfl) s

theorem does_gpioEdge (h : s.gpioDriven pin = none) : s.does (gpioEdge pin rising) =
    (s.apply (.pins fun p => { p with gpioIn := clearBits p.gpioIn (2 ^ pin) ||| flagIf rising pin })).does
      (gpioFix pin rising (firstFrom s.fs 1 s.now)) := by
  rw [State.does, gpioEdge, h]
  refine Eq.trans (State.does_phases_cons s _ _) ?_
  rw [State.does_phases_cons, State.does_phases_nil, State.does_always]
  rfl

theorem gpioEdge_leaves (hg : g < 8) (htrig : s.num (Key.sg.SG_TRIGGER g) = 1) (hpin : s.nat (Key.sg.SG_GPIO g) = pin)
    (hedge : s.num (Key.sg.SG_EDGE g) = if rising then 0 else 1) (hstate : s.num (Key.sg.SG_STATE g) = 1)
    (hin : s.gpioDriven pin = none) :
    ((s.does (gpioEdge pin rising)).sg g).fixed = some (firstFrom s.fs 1 s.now + 4) ∧ s.Frame [] (s.does (gpioEdge pin rising)) := by
  have hpins : Effect.Within [] (fun _ => ())
      (.pins fun p => { p with gpioIn := clearBits p.gpioIn (2 ^ pin) ||| flagIf rising pin }) := by simp
  rw [does_gpioEdge hin]
  exact ⟨sg_gpioFix hg htrig hpin hedge hstate, (hpins.frame s).trans (gpioFix_frame _)⟩

end Edge

/-! ### Ports -/

/-- A part of the units that the ports leave: it sees neither the ports, nor the pins, nor the waits of slots. -/
structure PortBlind (π : Units → α) : Prop where
  event : EventBlind π
  port : ∀ u p f, π (Units.onPort u p f) = π u
  pins : ∀ u f, π (Units.onPins u f) = π u
  zc : ∀ u l, π (Units.withZc u l) = π u

section Ports
variable {π : Units → α}

/-- A unit's change of state writes its state and its event (R341, R353). -/
theorem setPort_within (h : PortBlind π) (p : Nat) (new : PSt) : Phase.Within [pstKey p, Key.evt.EVT_RAISED] π (setPort p new) := by
  intro s
  simp only [setPort, dropSlotWaits]
  split
  · exact .nil
  · simp [h.port, h.zc]

theorem frameAgain_within (h : PortBlind π) (p : Nat) : Phase.Within [] π (frameAgain p) := by
  intro s
  simp only [frameAgain]
  split
  · simp [h.port, h.pins]
  split
  · simp [h.port]
  split
  · simp [h.port]
  · simp [h.port]

/-- An armed port that starts (R350). -/
theorem portStart_within (h : PortBlind π) (p t : Nat) : Phase.Within [pstKey p, Key.evt.EVT_RAISED] π (portStart p t) := by
  intro s
  have hf : Phase.Within [pstKey p, Key.evt.EVT_RAISED] π (frameAgain p) := (frameAgain_within h p).mono (List.nil_subset _)
  simp only [portStart]
  refine confined_ite.2 ⟨fun _ => Phase.within_phases ?_ s, fun _ => .nil⟩
  simp [setPort_within h, h.port, hf]

end Ports

end Sys2Proof.Machine
end

section
/-!
The generators of a start group: each begins in its turn unless its tests refuse it (R78, R304, R309-R313, log 194).
-/

namespace Sys2Proof.Machine

/-! ### The tests of a generator's start -/

/-- Why the settings of a generator alone refuse its start, if they do (R304, R309, R310). -/
def State.genUnfit (s : State) (g : Nat) : Option Nat :=
  let top := 450 * s.genRate (s.nat (Key.gen.G_POINT g))
  if s.mode ≠ .measure then some St.mode
  else if top < s.nat (Key.gen.G_FREQ g) ∨ top < s.nat (Key.gen.G_FREQ2 g) then some St.range
  else if s.nat (Key.gen.G_WAVE g) = 1 ∧ s.num (Key.gen.G_DURATION g) = 0 then some St.range
  else if 2 ≤ s.nat (Key.gen.G_POINT g) ∧ 63 < s.nat (Key.gen.G_TARGET g) then some St.range
  else none

/-- Whether another generator drives the slot that a generator is set for (R313). -/
def State.slotTaken (s : State) (g : Nat) : Prop :=
  2 ≤ s.nat (Key.gen.G_POINT g) ∧ ∃ h < 4, h ≠ g ∧ s.drivesSlot h (s.nat (Key.gen.G_TARGET g)) = true

theorem genRefused_eq_none_iff {s : State} {g : Nat} : s.genRefused g = none ↔ s.genUnfit g = none ∧ ¬ s.slotTaken g := by
  have htaken : s.slotTaken g ↔ 2 ≤ s.nat (Key.gen.G_POINT g) ∧
      ((List.range 4).any fun h => h != g && s.drivesSlot h (s.nat (Key.gen.G_TARGET g))) = true := by
    simp [State.slotTaken]
  rw [htaken]
  simp only [State.genRefused, State.genUnfit]
  split_ifs <;> simp_all

/-- The settings that the tests of a generator's start read. -/
def genSettings (g : Nat) : List Nat :=
  [Key.mtb.FS_SELECT, Key.gen.G_POINT g, Key.gen.G_TARGET g, Key.gen.G_FREQ g, Key.gen.G_FREQ2 g, Key.gen.G_WAVE g,
    Key.gen.G_DURATION g]

/-- A state with the same settings of a generator. -/
structure State.SetAlike (s x : State) (g : Nat) : Prop where
  mode : x.mode = s.mode
  num : ∀ k ∈ genSettings g, x.num k = s.num k

section Alike
variable {s x : State} {g : Nat}

theorem State.SetAlike.nat (h : s.SetAlike x g) {k : Nat} (hk : k ∈ genSettings g) : x.nat k = s.nat k := by
  rw [State.nat_eq_num, h.num k hk, State.nat_eq_num]

theorem State.SetAlike.genUnfit (h : s.SetAlike x g) : x.genUnfit g = s.genUnfit g := by
  have hfs : x.fs = s.fs := by rw [State.fs, State.fs, h.num _ (by simp [genSettings])]
  have hdur := h.num (Key.gen.G_DURATION g) (by simp [genSettings])
  have hpoint := h.nat (k := Key.gen.G_POINT g) (by simp [genSettings])
  have htarget := h.nat (k := Key.gen.G_TARGET g) (by simp [genSettings])
  have hfreq := h.nat (k := Key.gen.G_FREQ g) (by simp [genSettings])
  have hfreq2 := h.nat (k := Key.gen.G_FREQ2 g) (by simp [genSettings])
  have hwave := h.nat (k := Key.gen.G_WAVE g) (by simp [genSettings])
  rw [State.genUnfit, State.genUnfit, State.genRate, State.genRate, h.mode, hfs, hdur, hpoint, htarget, hfreq, hfreq2, hwave]

/-- A slot that was taken is taken still, where the others drive what they drove. -/
theorem State.SetAlike.slotTaken (h : s.SetAlike x g)
    (hd : ∀ j < 4, j ≠ g → s.drivesSlot j (s.nat (Key.gen.G_TARGET g)) = true →
      x.drivesSlot j (s.nat (Key.gen.G_TARGET g)) = true) (ht : s.slotTaken g) : x.slotTaken g := by
  obtain ⟨hpoint, j, hj, hne, hdrives⟩ := ht
  refine ⟨by rwa [h.nat (by simp [genSettings])], j, hj, hne, ?_⟩
  rw [h.nat (by simp [genSettings])]
  exact hd j hj hne hdrives

/-- A slot that was free is free still, where no other has begun to drive it. -/
theorem State.SetAlike.slotFree (h : s.SetAlike x g)
    (hd : s.nat (Key.gen.G_POINT g) < 2 ∨ ∀ j < 4, j ≠ g → x.drivesSlot j (s.nat (Key.gen.G_TARGET g)) = true →
      s.drivesSlot j (s.nat (Key.gen.G_TARGET g)) = true) (ht : ¬ s.slotTaken g) : ¬ x.slotTaken g := by
  rintro ⟨hpoint, j, hj, hne, hdrives⟩
  rw [h.nat (by simp [genSettings])] at hpoint hdrives
  rcases hd with hlow | hd
  · omega
  · exact ht ⟨hpoint, j, hj, hne, hd j hj hne hdrives⟩

end Alike

/-! ### The turn of a generator -/

/-- The turn of a generator at its group's start (R78, log 194). -/
def genTurn (h : Nat) : Phase := fun s =>
  if (s.genRefused h).isSome then [] else phases [genLatch h, setGen h 2, genBegin h] s

/-- What the turn of a generator may write. -/
def turnKeys (h : Nat) : List Nat := [Key.gen.G_STATE h, Key.gen.G_SAMPLES h, Key.evt.EVT_RAISED]

/-- What the turns of the other generators may write. -/
def otherTurnKeys (h : Nat) : List Nat := ((List.range 4).filter (· ≠ h)).flatMap turnKeys

theorem turnKeys_subset_otherTurnKeys {i h : Nat} (hi : i < 4) (hne : i ≠ h) : turnKeys i ⊆ otherTurnKeys h := fun _ hk =>
  List.mem_flatMap.2 ⟨i, by simp [hi, hne], hk⟩

section Turn
variable {α : Type} {π : Units → α} {h : Nat} {s : State}

theorem State.gen_apply_gen (s : State) (i j : Nat) (f : Gen → Gen) :
    (s.apply (.gen i f)).gen j = if i = j then f (s.gen i) else s.gen j := Tbl.at_upd ..

theorem gen_blind {i j : Nat} (h : i ≠ j) (u : Units) (f : Gen → Gen) : Tbl.at {} (Units.onGen u i f).gens j = Tbl.at {} u.gens j := by
  simp [Units.onGen, Tbl.at_upd, h]

theorem setGen_within (h new : Nat) : Phase.Within [Key.gen.G_STATE h, Key.evt.EVT_RAISED] (fun u => u.gens) (setGen h new) := by
  intro s
  simp [setGen]

theorem genTurn_within (hg : ∀ u f, π (Units.onGen u h f) = π u) : Phase.Within (turnKeys h) π (genTurn h) := by
  intro s
  refine confined_ite.2 ⟨fun _ => .nil, fun _ => Phase.within_phases ?_ s⟩
  have hlatch : Phase.Within (turnKeys h) π (genLatch h) := fun s => by simp [genLatch, hg]
  have hset : Phase.Within (turnKeys h) π (setGen h 2) := fun s => by simp [setGen, turnKeys]
  have hbegin : Phase.Within (turnKeys h) π (genBegin h) := fun s => by simp [genBegin, hg, turnKeys]
  simp [hlatch, hset, hbegin]

/-- The turns of other generators leave this one. -/
theorem other_turns_within {l : List Nat} (hl : ∀ i ∈ l, i < 4) (hh : h ∉ l) :
    Phase.Within (otherTurnKeys h) (fun u => Tbl.at {} u.gens h) (forAll l genTurn) :=
  Phase.within_forAll fun i hi => by
    have hne : i ≠ h := fun heq => hh (heq ▸ hi)
    exact (genTurn_within (gen_blind hne)).mono (turnKeys_subset_otherTurnKeys (hl i hi) hne)

theorem turn_of_refused (hr : s.genRefused h ≠ none) : s.does (genTurn h) = s := by
  rw [State.does, genTurn, if_pos (Option.isSome_iff_ne_none.2 hr)]
  rfl

theorem does_genTurn (hr : s.genRefused h = none) :
    s.does (genTurn h) = ((s.does (genLatch h)).does (setGen h 2)).does (genBegin h) := by
  rw [State.does, genTurn, hr]
  refine Eq.trans (State.does_phases_cons s _ _) ?_
  rw [State.does_phases_cons, State.does_phases_cons, State.does_phases_nil]

/-- A generator that begins: it runs, it has the target that its entry names, and it injects (R310). -/
theorem turn_of_allowed (hh : h < 4) (hr : s.genRefused h = none) (h1 : s.genState h = 1) :
    (s.does (genTurn h)).genState h = 2 ∧ ((s.does (genTurn h)).gen h).begun = true ∧
      ((s.does (genTurn h)).gen h).target = s.nat (Key.gen.G_TARGET h) := by
  have hlatch : (s.does (genLatch h)).genState h = 1 := h1
  obtain ⟨x, hx⟩ : ∃ x, x = s.does (genLatch h) := ⟨_, rfl⟩
  have htarget : (x.gen h).target = s.nat (Key.gen.G_TARGET h) := by
    rw [hx, State.does, genLatch, State.run_cons, State.run_nil, State.gen_apply_gen, if_pos rfl]
  rw [← hx] at hlatch
  have hset : x.does (setGen h 2) = (x.apply (.nat (Key.gen.G_STATE h) 2)).apply (.event Ev.GENERATOR_STATE (args16 [h, 2])) := by
    rw [State.does, setGen, if_neg (by omega)]
    rfl
  have hgens := (setGen_within h 2).units (fun _ _ _ _ _ _ => rfl) x
  obtain ⟨y, hy⟩ : ∃ y, y = x.does (setGen h 2) := ⟨_, rfl⟩
  have hbegin : y.does (genBegin h) = (y.apply (.num (Key.gen.G_SAMPLES h) 0)).apply
    (.gen h fun x => { x with begun := true, first := some y.mtbNs }) := rfl
  have hk : ∀ h < 4, Key.gen.G_STATE h ∉ [Key.gen.G_SAMPLES h] ∧ Key.gen.G_STATE h ∉ [Key.evt.EVT_RAISED] ∧
      Dict.width (Key.gen.G_STATE h) = some (8, false) := by decide +kernel
  obtain ⟨hks, hke, hw⟩ := hk h hh
  have hsamples : (y.does (genBegin h)).nat (Key.gen.G_STATE h) = y.nat (Key.gen.G_STATE h) :=
    Confined.frame (π := fun _ => ()) (ks := [Key.gen.G_SAMPLES h]) (by simp [genBegin]) y |>.nat hks
  have hevent : Effect.Within [Key.evt.EVT_RAISED] (fun _ => ()) (.event Ev.GENERATOR_STATE (args16 [h, 2])) := by simp
  have hgen : y.gen h = x.gen h := by rw [hy]; exact congrArg (fun t => Tbl.at {} t h) hgens
  have hgen' : (y.does (genBegin h)).gen h = { y.gen h with begun := true, first := some y.mtbNs } := by
    rw [hbegin, State.gen_apply_gen, if_pos rfl]
    simp [State.gen, Effect.num]
  rw [does_genTurn hr, ← hx, ← hy]
  refine ⟨?_, by rw [hgen'], by rw [hgen', hgen]; exact htarget⟩
  rw [State.genState, hsamples, hy, hset, (hevent.frame _).nat hke, State.nat_reg_of_lt hw x (by decide)]

end Turn

/-! ### The turns in order -/

section Turns
variable {s : State} {l : List Nat}

/-- Every entry that the turns may write. -/
def allTurnKeys : List Nat := (List.range 4).flatMap turnKeys

theorem turns_frame (hl : ∀ i ∈ l, i < 4) : s.Frame allTurnKeys (s.does (forAll l genTurn)) :=
  Phase.Within.frame (π := fun _ => ()) (Phase.within_forAll fun i hi => (genTurn_within fun _ _ => rfl).mono fun _ hk =>
    List.mem_flatMap.2 ⟨i, List.mem_range.2 (hl i hi), hk⟩) s

theorem turns_setAlike (hl : ∀ i ∈ l, i < 4) {h : Nat} (hh : h < 4) : s.SetAlike (s.does (forAll l genTurn)) h := by
  have hk : ∀ h < 4, ∀ k ∈ genSettings h, k ∉ allTurnKeys := by decide
  have hf := turns_frame (s := s) hl
  exact ⟨hf.mode, fun k hm => hf.num (hk h hh k hm)⟩

/-- A generator whose turn has not come stands as it stood. -/
theorem gen_of_no_turn (hl : ∀ i ∈ l, i < 4) {j : Nat} (hj : j < 4) (hjl : j ∉ l) :
    (s.does (forAll l genTurn)).gen j = s.gen j ∧ (s.does (forAll l genTurn)).genState j = s.genState j := by
  have hk : ∀ j < 4, Key.gen.G_STATE j ∉ otherTurnKeys j := by decide
  have hw := other_turns_within hl hjl
  exact ⟨hw.units (fun _ _ _ _ _ _ => rfl) s, (hw.frame s).nat (hk j hj)⟩

/-- A generator whose turn has come drives what its entry names, or stands as it stood. -/
theorem gen_of_turn (hnd : l.Nodup) (hl : ∀ i ∈ l, i < 4 ∧ s.genState i = 1) {j : Nat} (hj : j ∈ l) :
    (s.does (forAll l genTurn)).gen j = s.gen j ∧ (s.does (forAll l genTurn)).genState j = s.genState j ∨
      ((s.does (forAll l genTurn)).gen j).target = s.nat (Key.gen.G_TARGET j) := by
  obtain ⟨before, after, rfl, hb, ha, hdoes⟩ := State.does_forAll_of_mem hj hnd genTurn s
  have hj4 := (hl j hj).1
  have hbefore : ∀ i ∈ before, i < 4 := fun i hi => (hl i (by simp [hi])).1
  have hafter : ∀ i ∈ after, i < 4 := fun i hi => (hl i (by simp [hi])).1
  obtain ⟨hgen, hstate⟩ := gen_of_no_turn (s := s) hbefore hj4 hb
  have halike := turns_setAlike (s := s) hbefore hj4
  obtain ⟨x, hx⟩ : ∃ x, x = s.does (forAll before genTurn) := ⟨_, rfl⟩
  rw [hdoes, (gen_of_no_turn hafter hj4 ha).1, (gen_of_no_turn hafter hj4 ha).2]
  rw [← hx] at hgen hstate halike ⊢
  by_cases hr : x.genRefused j = none
  · right
    rw [(turn_of_allowed hj4 hr (hstate.trans (hl j hj).2)).2.2, halike.nat (by simp [genSettings])]
  · left
    rw [turn_of_refused hr]
    exact ⟨hgen, hstate⟩

theorem drivesSlot_congr {x : State} {j n : Nat} (hg : x.gen j = s.gen j) (hs : x.genState j = s.genState j) :
    x.drivesSlot j n = s.drivesSlot j n := by
  simp only [State.drivesSlot, hg, hs]

theorem drivesSlot_target {j n : Nat} (h : s.drivesSlot j n = true) : (s.gen j).target = n := by
  simp only [State.drivesSlot, Bool.and_eq_true, beq_iff_eq] at h
  exact h.2

/-- A generator that its own tests allow at the start is allowed in its turn, unless another takes its slot before it. -/
theorem allowed_in_turn (hnd : l.Nodup) (hl : ∀ i ∈ l, i < 4 ∧ s.genState i = 1) {h : Nat} (hh : h < 4)
    (hfree : s.nat (Key.gen.G_POINT h) < 2 ∨ ∀ j < 4, j ≠ h → s.nat (Key.gen.G_TARGET j) ≠ s.nat (Key.gen.G_TARGET h))
    (hr : s.genRefused h = none) : (s.does (forAll l genTurn)).genRefused h = none := by
  have hl4 : ∀ i ∈ l, i < 4 := fun i hi => (hl i hi).1
  have halike := turns_setAlike (s := s) hl4 hh
  obtain ⟨hunfit, htaken⟩ := genRefused_eq_none_iff.1 hr
  refine genRefused_eq_none_iff.2 ⟨halike.genUnfit.trans hunfit, halike.slotFree (hfree.imp_right ?_) htaken⟩
  intro hdist j hj hne hdrives
  have hsame : (s.does (forAll l genTurn)).gen j = s.gen j ∧ (s.does (forAll l genTurn)).genState j = s.genState j := by
    by_cases hjl : j ∈ l
    · refine (gen_of_turn hnd hl hjl).resolve_right fun ht => hdist j hj hne ?_
      rw [← ht, drivesSlot_target hdrives]
    · exact gen_of_no_turn hl4 hj hjl
  rwa [← drivesSlot_congr hsame.1 hsame.2]

/-- A generator that its tests refuse at the start is refused in its turn. -/
theorem refused_in_turn (hl : ∀ i ∈ l, i < 4 ∧ s.genState i = 1) {h : Nat} (hh : h < 4)
    (hr : s.genRefused h ≠ none) : (s.does (forAll l genTurn)).genRefused h ≠ none := by
  have hl4 : ∀ i ∈ l, i < 4 := fun i hi => (hl i hi).1
  have halike := turns_setAlike (s := s) hl4 hh
  intro hnone
  obtain ⟨hunfit, htaken⟩ := genRefused_eq_none_iff.1 hnone
  refine hr (genRefused_eq_none_iff.2 ⟨halike.genUnfit ▸ hunfit, fun ht => htaken (halike.slotTaken ?_ ht)⟩)
  intro j hj hne hdrives
  have hjl : j ∉ l := fun hjl => by
    have h1 := (hl j hjl).2
    simp [State.drivesSlot, h1] at hdrives
  obtain ⟨hgen, hstate⟩ := gen_of_no_turn (s := s) hl4 hj hjl
  rwa [drivesSlot_congr hgen hstate]

/-- What the turns of a group's armed generators leave of one of them (R78, log 194). -/
theorem turns_leave (hnd : l.Nodup) (hl : ∀ i ∈ l, i < 4 ∧ s.genState i = 1) {h : Nat} (hh : h ∈ l) :
    (s.genRefused h = none →
      (s.nat (Key.gen.G_POINT h) < 2 ∨ ∀ j < 4, j ≠ h → s.nat (Key.gen.G_TARGET j) ≠ s.nat (Key.gen.G_TARGET h)) →
      (s.does (forAll l genTurn)).genState h = 2 ∧ ((s.does (forAll l genTurn)).gen h).begun = true) ∧
    (s.genRefused h ≠ none → (s.does (forAll l genTurn)).genState h = 1) := by
  obtain ⟨before, after, rfl, hb, ha, hdoes⟩ := State.does_forAll_of_mem hh hnd genTurn s
  obtain ⟨hh4, h1⟩ := hl h hh
  have hbefore : ∀ i ∈ before, i < 4 ∧ s.genState i = 1 := fun i hi => hl i (by simp [hi])
  have hafter : ∀ i ∈ after, i < 4 := fun i hi => (hl i (by simp [hi])).1
  have hndb : before.Nodup := (List.nodup_append.1 hnd).1
  have hstate : (s.does (forAll before genTurn)).genState h = 1 :=
    (gen_of_no_turn (fun i hi => (hbefore i hi).1) hh4 hb).2.trans h1
  rw [hdoes, (gen_of_no_turn hafter hh4 ha).1, (gen_of_no_turn hafter hh4 ha).2]
  constructor
  · intro hr hfree
    obtain ⟨hruns, hbegun, -⟩ := turn_of_allowed hh4 (allowed_in_turn hndb hbefore hh4 hfree hr) hstate
    exact ⟨hruns, hbegun⟩
  · intro hr
    rw [turn_of_refused (refused_in_turn hbefore hh4 hr), hstate]

end Turns

end Sys2Proof.Machine
end

section
/-!
The start sample of a group (R78): the group starts, then its ports, then its generators.
-/

namespace Sys2Proof.Machine

/-- What a group notes of its start (R78, Table 02-17). -/
def State.groupEffects (s : State) (g n : Nat) : List Effect :=
  [.num (Key.sg.SG_STATE g) 2, .nat (Key.sg.SG_START_TIME g) (sampleTime s.fs n), .nat (Key.sg.SG_START_SAMPLE g) n,
    .sg g fun _ => { fixed := some n, go := none }, .event Ev.START_GROUP_STARTED (le 2 g ++ le 8 n ++ le 2 (s.sgMembers g))]

/-- What the ports of a group may write at its start. -/
def portStartKeys : List Nat := Key.evt.EVT_RAISED :: (List.range 4).map pstKey

/-- What a group's start may write before its generators begin. -/
def groupKeys (g : Nat) : List Nat :=
  [Key.sg.SG_STATE g, Key.sg.SG_START_TIME g, Key.sg.SG_START_SAMPLE g] ++ portStartKeys

/-- The state in which the generators of a group have their turns. -/
def State.portsStarted (s : State) (g n : Nat) : State :=
  (s.run (s.groupEffects g n)).does (forAll (s.sgPorts g) fun p => portStart p (sampleTime s.fs n))

theorem portStarts_within {α : Type} {π : Units → α} (h : PortBlind π) {l : List Nat} (hl : ∀ p ∈ l, p < 4) (t : Nat) :
    Phase.Within portStartKeys π (forAll l fun p => portStart p t) :=
  Phase.within_forAll fun p hp => (portStart_within h p t).mono (by
    have := hl p hp
    simpa [portStartKeys] using Or.inr ⟨p, this, rfl⟩)

section Start
variable {s : State} {g n : Nat}

theorem does_startSample (hdue : s.sgDue g = some n) (hb : n % s.B ≠ 0 ∨ s.units.disp.blockAt = some n) :
    s.does (startSample g) = (s.portsStarted g n).does (forAll (s.sgGens g) genTurn) := by
  rw [State.does, startSample, hdue]
  simp only
  rw [if_neg (by tauto)]
  refine Eq.trans (State.does_phases_cons s _ _) ?_
  rw [State.does_phases_cons, State.does_phases_cons, State.does_phases_nil, State.does_always]
  rfl

theorem sgPorts_lt : ∀ p ∈ s.sgPorts g, p < 4 := fun _ hp => List.mem_range.1 (List.mem_filter.1 hp).1

/-- What the generators find changed of the units: neither themselves nor the groups' starts. -/
theorem portBlind_gens_sgs : PortBlind fun u => (u.gens, u.sgs) :=
  ⟨fun _ _ _ _ _ _ => rfl, fun _ _ _ => rfl, fun _ _ => rfl, fun _ _ => rfl⟩

theorem portsStarted_frame : s.Frame (groupKeys g) (s.portsStarted g n) := by
  have hgroup : Confined (groupKeys g) (fun _ => ()) (s.groupEffects g n) := by
    simp [State.groupEffects, groupKeys, portStartKeys]
  have hports : Phase.Within (groupKeys g) (fun _ => ()) (forAll (s.sgPorts g) fun p => portStart p (sampleTime s.fs n)) :=
    (portStarts_within ⟨fun _ _ _ _ _ _ => rfl, fun _ _ _ => rfl, fun _ _ => rfl, fun _ _ => rfl⟩ sgPorts_lt _).mono
      (List.subset_append_right ..)
  exact (hgroup.frame s).trans (hports.frame _)

theorem portsStarted_gen (h : Nat) : (s.portsStarted g n).gen h = s.gen h := by
  have hports := (portStarts_within portBlind_gens_sgs (sgPorts_lt (s := s) (g := g)) (sampleTime s.fs n)).units
    portBlind_gens_sgs.event (s.run (s.groupEffects g n))
  have hgroup : (s.run (s.groupEffects g n)).units.gens = s.units.gens :=
    Confined.units (ks := groupKeys g) (π := fun u => u.gens)
      (by simp [State.groupEffects, groupKeys, portStartKeys, Units.onSg]) (fun _ _ _ _ _ _ => rfl) s
  exact congrArg (fun t => Tbl.at {} t h) ((congrArg Prod.fst hports).trans hgroup)

theorem portsStarted_sg : (s.portsStarted g n).sg g = { fixed := some n, go := none } := by
  have hports := (portStarts_within portBlind_gens_sgs (sgPorts_lt (s := s) (g := g)) (sampleTime s.fs n)).units
    portBlind_gens_sgs.event (s.run (s.groupEffects g n))
  refine (congrArg (fun t => Tbl.at {} t.2 g) hports).trans ?_
  have hevent (x : State) (c : Nat) (a : List Byte) : (x.apply (.event c a)).sg g = x.sg g :=
    (show Effect.Within [Key.evt.EVT_RAISED] (fun u => Tbl.at {} u.sgs g) (.event c a) by simp).units (fun _ _ _ _ _ _ => rfl) x
  change (s.run (s.groupEffects g n)).sg g = _
  simp only [State.groupEffects, State.run_cons, State.run_nil, hevent, State.sg_apply_sg, if_true]

/-- The generators meet their group's start in the state that they had. -/
theorem portsStarted_genState (hg : g < 8) {h : Nat} (hh : h < 4) : (s.portsStarted g n).genState h = s.genState h := by
  have hk : ∀ g < 8, ∀ h < 4, Key.gen.G_STATE h ∉ groupKeys g := by decide
  exact portsStarted_frame.nat (hk g hg h hh)

theorem portsStarted_setAlike (hg : g < 8) {h : Nat} (hh : h < 4) : s.SetAlike (s.portsStarted g n) h := by
  have hk : ∀ g < 8, ∀ h < 4, ∀ k ∈ genSettings h, k ∉ groupKeys g := by decide
  exact ⟨portsStarted_frame.mode, fun k hm => portsStarted_frame.num (hk g hg h hh k hm)⟩

theorem portsStarted_genRefused (hg : g < 8) {h : Nat} (hh : h < 4) :
    (s.portsStarted g n).genRefused h = none ↔ s.genRefused h = none := by
  have halike := portsStarted_setAlike (s := s) (n := n) hg hh
  have hdrives : ∀ j < 4, ∀ k, (s.portsStarted g n).drivesSlot j k = s.drivesSlot j k := fun j hj _ =>
    drivesSlot_congr (portsStarted_gen j) (portsStarted_genState hg hj)
  have htaken : (s.portsStarted g n).slotTaken h ↔ s.slotTaken h :=
    ⟨not_imp_not.1 (halike.slotFree (.inr fun j hj _ hd => hdrives j hj _ ▸ hd)),
      halike.slotTaken fun j hj _ hd => (hdrives j hj _).symm ▸ hd⟩
  rw [genRefused_eq_none_iff, genRefused_eq_none_iff, halike.genUnfit, htaken]

theorem sgGens_nodup : (s.sgGens g).Nodup := List.nodup_range.filter _

theorem sgGens_armed : ∀ h ∈ s.sgGens g, h < 4 ∧ s.genState h = 1 := by
  intro h hh
  simp only [State.sgGens, List.mem_filter, List.mem_range, Bool.and_eq_true, beq_iff_eq] at hh
  obtain ⟨hlt, harmed, -⟩ := hh
  exact ⟨hlt, harmed⟩

theorem mem_sgGens {h : Nat} (hh : h < 4) (h1 : s.genState h = 1) (hs : s.nat (Key.gen.G_SG h) = g) : h ∈ s.sgGens g := by
  simp [State.sgGens, hh, h1, hs]

/-- What the start leaves of one of the group's generators (R78, log 194). -/
theorem startSample_gen (hg : g < 8) (hdue : s.sgDue g = some n) (hb : n % s.B ≠ 0 ∨ s.units.disp.blockAt = some n)
    {h : Nat} (hh : h < 4) (h1 : s.genState h = 1) (hs : s.nat (Key.gen.G_SG h) = g) :
    (s.genRefused h = none →
      (s.nat (Key.gen.G_POINT h) < 2 ∨ ∀ j < 4, j ≠ h → s.nat (Key.gen.G_TARGET j) ≠ s.nat (Key.gen.G_TARGET h)) →
      (s.does (startSample g)).genState h = 2 ∧ ((s.does (startSample g)).gen h).begun = true) ∧
    (s.genRefused h ≠ none → (s.does (startSample g)).genState h = 1) := by
  have htarget : ∀ j < 4, (s.portsStarted g n).nat (Key.gen.G_TARGET j) = s.nat (Key.gen.G_TARGET j) := fun j hj =>
    (portsStarted_setAlike hg hj).nat (by simp [genSettings])
  have hpoint := (portsStarted_setAlike (s := s) (n := n) hg hh).nat (k := Key.gen.G_POINT h) (by simp [genSettings])
  obtain ⟨hstarts, hstays⟩ := turns_leave (s := s.portsStarted g n) sgGens_nodup
    (fun i hi => ⟨(sgGens_armed i hi).1, (portsStarted_genState hg (sgGens_armed i hi).1).trans (sgGens_armed i hi).2⟩)
    (mem_sgGens hh h1 hs)
  rw [does_startSample hdue hb]
  refine ⟨fun hr hfree => hstarts ((portsStarted_genRefused hg hh).2 hr) ?_, fun hr => hstays fun hr' => hr ?_⟩
  · rw [hpoint, htarget h hh]
    exact hfree.imp_right fun hd j hj => by rw [htarget j hj]; exact hd j hj
  · exact (portsStarted_genRefused hg hh).1 hr'

/-- What the start leaves of the group itself (R78). -/
theorem startSample_group (hg : g < 8) (hdue : s.sgDue g = some n) (hn : n < 2 ^ 63)
    (hb : n % s.B ≠ 0 ∨ s.units.disp.blockAt = some n) :
    (s.does (startSample g)).num (Key.sg.SG_STATE g) = 2 ∧ (s.does (startSample g)).num (Key.sg.SG_START_SAMPLE g) = n ∧
      ((s.does (startSample g)).sg g).fixed = some n ∧ (s.does (startSample g)).mode = s.mode := by
  have hl : ∀ h ∈ s.sgGens g, h < 4 := fun h hh => (sgGens_armed h hh).1
  have hk : ∀ g < 8, Key.sg.SG_STATE g ∉ allTurnKeys ∧ Key.sg.SG_START_SAMPLE g ∉ allTurnKeys := by decide
  have hp : ∀ g < 8, Key.sg.SG_STATE g ∉ portStartKeys ∧ Key.sg.SG_START_SAMPLE g ∉ portStartKeys := by decide
  have hw : ∀ g < 8, Dict.width (Key.sg.SG_STATE g) = some (8, false) ∧
      Dict.width (Key.sg.SG_START_SAMPLE g) = some (64, false) := by decide +kernel
  have hr : ∀ g < 8, Key.sg.SG_STATE g ∉ [Key.sg.SG_START_TIME g, Key.sg.SG_START_SAMPLE g, Key.evt.EVT_RAISED] ∧
      Key.sg.SG_START_SAMPLE g ∉ [Key.evt.EVT_RAISED] := by decide
  have hturns := turns_frame (s := s.portsStarted g n) hl
  have hports : (s.run (s.groupEffects g n)).Frame portStartKeys (s.portsStarted g n) :=
    (portStarts_within (π := fun _ => ()) ⟨fun _ _ _ _ _ _ => rfl, fun _ _ _ => rfl, fun _ _ => rfl, fun _ _ => rfl⟩
      sgPorts_lt _).frame _
  have hsgs : Phase.Within allTurnKeys (fun u => u.sgs) (forAll (s.sgGens g) genTurn) :=
    Phase.within_forAll fun i hi => (genTurn_within fun _ _ => rfl).mono fun _ hk =>
      List.mem_flatMap.2 ⟨i, List.mem_range.2 (hl i hi), hk⟩
  rw [does_startSample hdue hb]
  refine ⟨?_, ?_, ?_, hturns.mode.trans portsStarted_frame.mode⟩
  · rw [hturns.num (hk g hg).1, hports.num (hp g hg).1]
    rw [State.groupEffects, State.run_cons]
    refine (Confined.num_written (π := fun _ => ()) ?_ (hw g hg).1 (hr g hg).1 s 2).trans (by decide)
    simp
  · rw [hturns.num (hk g hg).2, hports.num (hp g hg).2]
    rw [State.groupEffects, State.run_cons, State.run_cons, State.run_cons]
    refine (Confined.num_written (π := fun _ => ()) ?_ (hw g hg).2 (hr g hg).2 _ n).trans (Int.emod_eq_of_lt (by omega) (by omega))
    simp
  · refine (congrArg (fun t => (Tbl.at {} t g).fixed) (hsgs.units (fun _ _ _ _ _ _ => rfl) _)).trans ?_
    exact congrArg SgExt.fixed portsStarted_sg

end Start

/-- Settles O31: an edge reaches each group in its turn; at a start the group, its ports and its generators follow one another,
and a generator's turn changes nothing that the tests of another read but the slot it drives. -/
theorem startGroupsStart : Obligations.StartGroupsStart := by
  intro s g
  refine ⟨?_, ?_⟩
  · intro pin rising htrig hpin hedge hstate hin
    exact ⟨_, rfl, gpioEdge_leaves g.isLt htrig hpin hedge hstate hin⟩
  · intro n hdue hn hb
    obtain ⟨hstate, hsample, hfixed, hmode⟩ := startSample_group g.isLt hdue hn hb
    exact ⟨_, rfl, hstate, hsample, hfixed, hmode, fun h hh h1 hs => startSample_gen g.isLt hdue hb hh h1 hs⟩

end Sys2Proof.Machine
end

section
/-!
Anchorings of media time (R64, R65, R67): EPOCH_OFFSET changes, and the streams, the renderer and the ports follow.
-/

namespace Sys2Proof.Machine

variable {α : Type}

/-! ### What follows an anchoring -/

section Follow
variable {π : Units → α}

/-- A part of the units that an anchoring's followers leave. -/
structure FollowBlind (π : Units → α) : Prop extends PortBlind π where
  chan : ∀ u c f, π (Units.onChan u c f) = π u
  stream : ∀ u i f, π (Units.onStream u i f) = π u
  render : ∀ u : Units, ∀ r, π { u with rsnap := r } = π u
  obj : ∀ u : Units, ∀ o f, π { u with objs := u.objs.upd {} o f } = π u

/-- What the streams `l` may write when they change state. -/
def streamKeys (l : List Nat) : List Nat :=
  Key.evt.EVT_RAISED :: (List.range 16).map Key.cin.NET_STATE ++ l.map Key.st.STREAM_STATE

theorem netUpdate_within {ks : List Nat} (h : FollowBlind π) {c : Nat} (hk : Key.cin.NET_STATE c ∈ ks) :
    Phase.Within ks π (netUpdate c) := by
  intro s
  simp [netUpdate, h.chan, hk]

theorem setStream_within (h : FollowBlind π) {l : List Nat} {i : Nat} (hi : i ∈ l) (new : Nat) :
    Phase.Within (streamKeys l) π (setStream i new) := by
  intro s
  have hnet : Phase.Within (streamKeys l) π (forAll (List.range 16) netUpdate) :=
    Phase.within_forAll fun c hc => netUpdate_within h (by
      simp only [streamKeys, List.cons_append, List.mem_cons, List.mem_append, List.mem_map]
      exact .inr (.inl ⟨c, hc, rfl⟩))
  have hstate : Key.st.STREAM_STATE i ∈ streamKeys l := by
    simp only [streamKeys, List.cons_append, List.mem_cons, List.mem_append, List.mem_map]
    exact .inr (.inr ⟨i, hi, rfl⟩)
  have hevent : Key.evt.EVT_RAISED ∈ streamKeys l := by simp [streamKeys]
  refine confined_ite.2 ⟨fun _ => .nil, fun _ => Phase.within_phases ?_ s⟩
  simp [hnet, hstate, hevent]

/-- Every stream is placed afresh (R109). -/
theorem streamsReanchor_confined (h : FollowBlind π) (s : State) : Confined (streamKeys s.knownSubs) π (streamsReanchor s) := by
  refine Phase.within_forAll (fun i hi => Phase.within_phases ?_) s
  have hnew : Phase.Within (streamKeys s.knownSubs) π (fun s => if s.stState i = 2 ∨ s.stState i = 3 then
      phases [always [.stream i fun x => { x with emptyBlocks := 0 }], setStream i 1] s else []) := fun _ =>
    confined_ite.2 ⟨fun _ => Phase.within_phases (by simp [h.stream, setStream_within h hi]) _, fun _ => .nil⟩
  simp [h.stream, hnew]

theorem renderReanchor_within {ks : List Nat} (h : FollowBlind π) : Phase.Within ks π renderReanchor := by
  intro s
  refine confined_cons.2 ⟨fun u => h.render u _, confined_map.2 fun o _ u => h.obj u o _⟩

/-- What a restart of the ports may write. -/
def restartKeys : List Nat := Key.evt.EVT_RAISED :: (List.range 6).map pstKey

theorem portsRestart_within (h : FollowBlind π) : Phase.Within restartKeys π portsRestart := by
  refine Phase.within_forAll fun u hu => ?_
  have hset (new : PSt) : Phase.Within restartKeys π (setPort u new) := (setPort_within h.toPortBlind u new).mono (by
    simpa [restartKeys] using Or.inr ⟨u, List.mem_range.1 hu, rfl⟩)
  have hacquire : Phase.Within restartKeys π (portAcquire u) := by
    refine Phase.within_phases ?_
    have hread : Phase.Within restartKeys π (readP (fun s => s.mtbNs) fun t => always [.port u fun x => { x with
      fifo := [], goodSince := some t, edges := [], clockAt := none, badRun := 0, outGo := false, rateOk := none, sinceAt := t }]) :=
      fun s => by simp [readP, always, h.port]
    simp [hset, hread]
  have hbegin : Phase.Within restartKeys π (portBegin u) := fun s => by
    simp only [portBegin]
    split
    · exact hset _ s
    · exact hacquire s
  intro s
  simp only
  split
  · simp [h.port]
  split
  · simp [h.port]
  · refine Phase.within_phases ?_ s
    simp [h.port, h.zc, hbegin, dropSlotWaits]

/-- What follows an anchoring; the ports restart where the sample rate has changed (R109, R123, R333). -/
def anchorFollows (changed : Bool) : Phase := phases [
  streamsReanchor, renderReanchor, always ((List.range 4).map fun p => .port p fun x => { x with startAt := 0 }),
  if changed then portsRestart else always []]

/-- An anchoring's followers leave the anchor and every entry that is not theirs. -/
theorem anchorFollows_leaves (h : FollowBlind π) (s : State) (changed : Bool) :
    s.Frame (streamKeys s.knownSubs ++ restartKeys) (s.does (anchorFollows changed)) ∧
      π (s.does (anchorFollows changed)).units = π s.units := by
  have hrest : Phase.Within (streamKeys s.knownSubs ++ restartKeys) π (phases [renderReanchor,
      always ((List.range 4).map fun p => .port p fun x => { x with startAt := 0 }), if changed then portsRestart else always []]) := by
    have hports := (portsRestart_within h).mono (List.subset_append_right (streamKeys s.knownSubs) restartKeys)
    exact Phase.within_phases (by simp [renderReanchor_within h, hports, h.port])
  have hstreams := (streamsReanchor_confined h s).mono (List.subset_append_left _ restartKeys)
  rw [anchorFollows, State.does_phases_cons]
  exact ⟨(hstreams.frame s).trans (hrest.frame _), (hrest.units h.event _).trans (hstreams.units h.event s)⟩

end Follow

theorem followBlind_anchor : FollowBlind fun u => u.anchor :=
  ⟨⟨fun _ _ _ _ _ _ => rfl, fun _ _ _ => rfl, fun _ _ => rfl, fun _ _ => rfl⟩, fun _ _ _ => rfl, fun _ _ _ => rfl,
    fun _ _ => rfl, fun _ _ _ => rfl⟩

theorem epochOffset_not_follows (l : List Nat) : Key.mtb.EPOCH_OFFSET ∉ streamKeys l ++ restartKeys := by
  have hfixed : Key.mtb.EPOCH_OFFSET ∉ Key.evt.EVT_RAISED :: (List.range 16).map Key.cin.NET_STATE ++ restartKeys := by decide
  simp only [streamKeys, List.mem_append, not_or] at hfixed ⊢
  refine ⟨⟨hfixed.1, fun h => ?_⟩, hfixed.2⟩
  obtain ⟨i, -, hi⟩ := List.mem_map.1 h
  simp only [Key.st.STREAM_STATE, Key.mtb.EPOCH_OFFSET] at hi
  omega

/-- A step that may anchor: the anchoring's own part, then what follows it. -/
theorem anchorStep_leaves (p : Phase) (s : State) :
    (s.does (anchorStep p)).num Key.mtb.EPOCH_OFFSET = (s.does p).num Key.mtb.EPOCH_OFFSET ∧
      (s.does (anchorStep p)).units.anchor = (s.does p).units.anchor := by
  have hstep : s.does (anchorStep p) = (s.does p).does fun t =>
      if t.num Key.mtb.REANCHOR_COUNT = s.num Key.mtb.REANCHOR_COUNT then [] else anchorFollows s.units.anchor.fsChanged t := by
    refine Eq.trans (State.does_phases_cons s _ _) ?_
    rw [State.does_phases_cons, State.does_phases_nil]
    rfl
  rw [hstep, State.does]
  split
  · exact ⟨rfl, rfl⟩
  · obtain ⟨hframe, hanchor⟩ := anchorFollows_leaves followBlind_anchor (s.does p) s.units.anchor.fsChanged
    exact ⟨hframe.num (epochOffset_not_follows _), hanchor⟩

/-- A step that counts no anchoring has no followers. -/
theorem anchorStep_of_count {p : Phase} {s : State}
    (h : (s.does p).num Key.mtb.REANCHOR_COUNT = s.num Key.mtb.REANCHOR_COUNT) : s.does (anchorStep p) = s.does p := by
  refine (State.does_phases_cons s _ _).trans ?_
  rw [State.does_phases_cons, State.does_phases_nil, State.does, if_pos h]
  rfl

/-! ### The change of EPOCH_OFFSET -/

/-- What the handling of passed actions may write. -/
def passedKeys : List Nat :=
  Key.evt.EVT_RAISED :: (List.range 64).flatMap fun a => [Key.act.ACT_STATUS a, Key.act.ACT_STATE a]

theorem timesPassed_within (action : Nat → Nat → Bool) (commit : Nat → Bool) (t : Nat) :
    Phase.Within passedKeys (fun u => u.anchor) (timesPassed action commit t) := by
  have hkey : ∀ a < 64, Key.act.ACT_STATUS a ∈ passedKeys ∧ Key.act.ACT_STATE a ∈ passedKeys := by
    intro a ha
    simp only [passedKeys, List.mem_cons, List.mem_flatMap]
    exact ⟨.inr ⟨a, List.mem_range.2 ha, by simp⟩, .inr ⟨a, List.mem_range.2 ha, by simp⟩⟩
  have hevent : Key.evt.EVT_RAISED ∈ passedKeys := by simp [passedKeys]
  have hact (a : Nat) (f : ActExt → ActExt) : (Effect.act a f).Within passedKeys (fun u => u.anchor) := fun _ => rfl
  have hsession (n : Nat) (f : Option Session → Option Session) :
    (Effect.session n f).Within passedKeys (fun u => u.anchor) := fun _ => rfl
  intro s e he
  simp only [timesPassed, List.mem_append, List.mem_flatMap] at he
  rcases he with ⟨a, ha, he⟩ | ⟨p, -, he⟩
  · obtain ⟨hstatus, hstate⟩ := hkey a (List.mem_range.1 ha)
    refine (?_ : Confined passedKeys (fun u => u.anchor) _) e he
    simp [hstatus, hstate, hevent, hact]
  · refine (?_ : Confined passedKeys (fun u => u.anchor) _) e he
    split
    · simp [hsession]
    · simp [hsession, hevent]

/-- The anchor once EPOCH_OFFSET has changed and presented time reads `t` (R64, R65). -/
def Anchor.changed (a : Anchor) (change : Int) (t : Nat) : Anchor :=
  { a with phase := 2, applied := change, newTime := t, anchored := true, fsChanged := false, todNow := false, todSet := none,
           offset := 0 }

/-- What a change of EPOCH_OFFSET brings with it (R67). -/
def State.anchorEffects (s : State) (change known : Int) : List Effect :=
  [.bump Key.mtb.REANCHOR_COUNT 1, .num Key.servo.OFFSET (s.num Key.servo.OFFSET + change),
    .tbase 4 fun x => { x with pred := x.pred + change - known, windowStart := none },
    .pins fun p => { p with ppsHigh := none }]

section Apply
variable (s : State) (change known : Int)

theorem does_anchorApply : s.does (anchorApply change known) =
    ((((s.apply (.num Key.mtb.EPOCH_OFFSET (s.num Key.mtb.EPOCH_OFFSET + change))).run (s.anchorEffects change known)).apply
      (.anchor fun a => a.changed change (((s.now : Int) + change) % 2 ^ 64).toNat)).run
      ((List.range 128).map fun i => .stream i fun x => { x with frames := [] })).does
        (anchorPassed s.now (((s.now : Int) + change) % 2 ^ 64).toNat) := by
  have hdoes : s.does (anchorApply change known) = s.run (anchorApply change known s) := rfl
  rw [hdoes, anchorApply]
  refine Eq.trans (State.does_phases_cons s _ _) ?_
  rw [State.does_phases_cons, State.does_phases_cons, State.does_phases_nil, State.does_always, State.does_always]
  simp only [State.anchorEffects, Anchor.changed, State.run_cons, State.run_nil]

theorem epochOffset_not_passed : Key.mtb.EPOCH_OFFSET ∉ passedKeys := by
  simp only [passedKeys, List.mem_cons, List.mem_flatMap, List.not_mem_nil, or_false, not_or, not_exists, not_and]
  exact ⟨by decide, fun a ha => by simp only [Key.mtb.EPOCH_OFFSET, Key.act.ACT_STATUS, Key.act.ACT_STATE]; omega⟩

theorem anchorPassed_within (t0 t1 : Nat) : Phase.Within passedKeys (fun u => u.anchor) (anchorPassed t0 t1) :=
  timesPassed_within _ _ _

theorem anchorApply_leaves :
    (s.does (anchorApply change known)).num Key.mtb.EPOCH_OFFSET = signed 64 (s.num Key.mtb.EPOCH_OFFSET + change) ∧
      (s.does (anchorApply change known)).units.anchor =
        s.units.anchor.changed change (((s.now : Int) + change) % 2 ^ 64).toNat := by
  have heffects : Confined [Key.mtb.REANCHOR_COUNT, Key.servo.OFFSET] (fun u => u.anchor) (s.anchorEffects change known) := by
    simp [State.anchorEffects, Units.onTbase, Units.onPins]
  have hanchor (x : State) (f : Anchor → Anchor) : x.Frame [] (x.apply (.anchor f)) := frame_edge x f
  have hstreams : Confined [] (fun u => u.anchor) ((List.range 128).map fun i => .stream i fun x => { x with frames := [] }) :=
    confined_map.2 fun _ _ _ => rfl
  have hevent : EventBlind fun u => u.anchor := fun _ _ _ _ _ _ => rfl
  rw [does_anchorApply]
  constructor
  · rw [((anchorPassed_within _ _).frame _).num epochOffset_not_passed, (hstreams.frame _).num (by simp),
      (hanchor _ _).num (by simp)]
    exact (heffects.num_written (show Dict.width Key.mtb.EPOCH_OFFSET = some (64, true) by decide +kernel) (by decide) s _).trans
      (if_pos rfl)
  · rw [(anchorPassed_within _ _).units hevent, hstreams.units hevent, State.anchor_apply_anchor, heffects.units hevent]
    exact congrArg (fun a => Anchor.changed a _ _) (s.anchor_apply_reg _ _)

end Apply

end Sys2Proof.Machine
end

section
/-!
The steps of an anchoring: its boundary, the end of its period, the fade-in, and the first one (R64, R65, R67, R68).
-/

namespace Sys2Proof.Machine

/-! ### The boundary and the end of the period -/

section Period
variable {s : State}

theorem does_anchorBoundary (hphase : s.units.anchor.phase = 1) (hb : s.atBoundary = true)
    (hzero : ∀ c < 16, (s.chan c).gc.value = 0 ∧ s.zcWait (Zc.anchor c) = none) :
    s.does anchorBoundary = s.does (anchorApply (-s.units.anchor.offset) (-s.units.anchor.offset)) := by
  have hmuted : ((List.range 16).all fun c => (s.chan c).gc.value == 0 && (s.zcWait (Zc.anchor c)).isNone) = true := by
    refine List.all_eq_true.2 fun c hc => ?_
    obtain ⟨hgc, hzc⟩ := hzero c (List.mem_range.1 hc)
    simp [hgc, hzc]
  rw [State.does, anchorBoundary]
  rw [if_pos ⟨hphase, hb, hmuted⟩]
  rfl

/-- The end of an anchor period: the anchor leaves it, with its event, and the grid is the new one (R64, R67). -/
def periodEnds (s : State) : List Effect :=
  [.anchor fun a => { a with phase := if (List.range 16).any (fun c => (s.chan c).anchorMuted) then 3 else 0, second := none },
    .event Ev.REANCHOR_DONE (le 8 s.units.anchor.applied ++ le 8 (s.num Key.mtb.EPOCH_OFFSET)),
    .nat Key.mtb.SAMPLE_INDEX s.sampleNow]

/-- The lock state that an anchor period leaves (Table 02-7). -/
def periodLock (s : State) : Phase :=
  if s.num Key.ref.REF_SOURCE ≠ 0 ∧ s.nat Key.lock.LOCK_STATE ≠ 0 then lockAnchored else always []

theorem does_anchorPeriodEnd (hphase : s.units.anchor.phase = 2) (hsecond : s.units.anchor.second = none) (hb : s.atBoundary = true)
    (hlate : firstFrom s.fs s.B s.units.anchor.newTime + s.B ≤ s.blockSample) :
    s.does anchorPeriodEnd = (s.run (periodEnds s)).does (periodLock s) := by
  have hgo : ¬ (s.units.anchor.phase ≠ 2 ∨ (!s.atBoundary) = true ∨
      s.blockSample < firstFrom s.fs s.B s.units.anchor.newTime + s.B) := by simp [hphase, hb, hlate]
  have hdoes : s.does anchorPeriodEnd = s.run (anchorPeriodEnd s) := rfl
  rw [hdoes, anchorPeriodEnd]
  rw [if_neg hgo, hsecond]
  refine Eq.trans (State.does_phases_cons s _ _) ?_
  rw [State.does_phases_cons, State.does_phases_cons, State.does_phases_nil, State.does_always, State.does_always, State.run_nil]
  rfl

theorem lockAnchored_within {α : Type} {π : Units → α} (h : LockBlind 4 π) : Phase.Within (lockKeys 4) π lockAnchored := by
  intro s
  have h1 := setLock_within h 1
  have h3 := setLock_within h 3
  refine confined_ite.2 ⟨fun _ => .nil, fun _ => Phase.within_phases ?_ s⟩
  simp [h1, h3]

theorem periodLock_within {α : Type} {π : Units → α} (h : LockBlind 4 π) : Phase.Within (lockKeys 4) π (periodLock s) :=
  Phase.within_ite.2 ⟨fun _ => lockAnchored_within h, fun _ => Phase.within_always.2 .nil⟩

/-- ACQUIRE after an anchoring, or HOLDOVER while the source is missing (Table 02-7, log 189). -/
theorem nat_lockAnchored (s : State) :
    (s.does lockAnchored).nat Key.lock.LOCK_STATE = if s.num Key.lock.SOURCE_STATE = 0 then 1 else 3 := by
  have hset (x : State) {n : Nat} (hn : n < 256) : (x.does (setLock 4 n)).nat Key.lock.LOCK_STATE = n :=
    nat_setLock (tb := 4) (by decide) hn x
  have hdoes : s.does lockAnchored = s.run (lockAnchored s) := rfl
  rw [hdoes, lockAnchored]
  by_cases hsource : s.num Key.lock.SOURCE_STATE = 0
  · simp only [hsource, bne_self_eq_false, Bool.false_and, Bool.false_eq_true, if_false, if_true]
    refine Eq.trans (congrArg (State.nat · _) (State.does_phases_cons s _ _)) ?_
    rw [State.does_phases_cons, State.does_phases_nil, State.does_always, State.run_nil, hset s (by decide)]
  · have hmissing : (s.num Key.lock.SOURCE_STATE != 0) = true := by simp [hsource]
    rw [hmissing, if_neg hsource]
    by_cases h3 : s.nat Key.lock.LOCK_STATE = 3
    · simp [h3]
    · simp only [h3, Bool.true_and, beq_iff_eq, if_false, if_true]
      refine Eq.trans (congrArg (State.nat · _) (State.does_phases_cons s _ _)) ?_
      rw [State.does_phases_cons, State.does_phases_nil, hset _ (by decide)]

theorem periodEnds_confined : Confined [Key.evt.EVT_RAISED, Key.mtb.SAMPLE_INDEX] (fun _ => ()) (periodEnds s) := by
  simp [periodEnds]

theorem nat_lockState_periodEnd (hsource : s.num Key.ref.REF_SOURCE ≠ 0) (hlock : s.nat Key.lock.LOCK_STATE ≠ 0) :
    ((s.run (periodEnds s)).does (periodLock s)).nat Key.lock.LOCK_STATE =
      if s.num Key.lock.SOURCE_STATE = 0 then 1 else 3 := by
  rw [periodLock, if_pos ⟨hsource, hlock⟩, nat_lockAnchored, (periodEnds_confined.frame s).num (by decide)]

theorem anchor_periodEnd : ((s.run (periodEnds s)).does (periodLock s)).units.anchor =
    { s.units.anchor with phase := if (List.range 16).any (fun c => (s.chan c).anchorMuted) then 3 else 0, second := none } := by
  rw [(periodLock_within (lockBlind_anchor 4)).units (lockBlind_anchor 4).event]
  simp only [periodEnds, State.run_cons, State.run_nil, Effect.nat, State.anchor_apply_reg, State.anchor_apply_event,
    State.anchor_apply_anchor]

theorem num_sampleIndex_periodEnd :
    ((s.run (periodEnds s)).does (periodLock s)).num Key.mtb.SAMPLE_INDEX = (s.sampleNow : Int) % 2 ^ 64 := by
  rw [((periodLock_within (lockBlind_anchor 4)).frame _).num (by decide), periodEnds]
  simp only [State.run_cons, State.run_nil]
  exact (State.num_set (show Dict.width Key.mtb.SAMPLE_INDEX = some (64, false) by decide +kernel) _ _).trans (if_neg (by decide))

theorem periodEnd_frame :
    s.Frame ([Key.evt.EVT_RAISED, Key.mtb.SAMPLE_INDEX] ++ lockKeys 4) ((s.run (periodEnds s)).does (periodLock s)) :=
  ((periodEnds_confined.frame s).mono (List.subset_append_left ..)).trans
    (((periodLock_within (lockBlind_anchor 4)).frame _).mono (List.subset_append_right ..))

end Period

/-! ### The first anchoring -/

section First
variable {s : State}

/-- What follows the change of EPOCH_OFFSET at a first anchoring: the lock state, and from FREE the estimate (R65, Table 02-7). -/
def firstLock (s : State) : Phase := phases [
  if s.num Key.ref.REF_SOURCE ≠ 0 then lockAnchored else always [],
  if s.num Key.ref.REF_SOURCE ≠ 0 ∧ s.nat Key.lock.LOCK_STATE = 0 then always [estimateOpen 4] else always []]

theorem firstLock_within : Phase.Within (lockKeys 4) (fun u => u.anchor) (firstLock s) := by
  have hopen : (estimateOpen 4).Within (lockKeys 4) (fun u => u.anchor) := fun _ => rfl
  exact Phase.within_phases (by simp [lockAnchored_within (lockBlind_anchor 4), hopen])

/-- An anchoring to a reference time begins with its event (R64). -/
theorem does_firstAnchoring (ha : s.units.anchor.anchored = false) (hr : s.allReleased = true) (hm : s.mode ≠ .boot)
    (hb : s.atBoundary = true) (hphase : s.units.anchor.phase ≠ 2) {t : Int} (ht : s.anchorTarget = some t) :
    s.does firstAnchoring = ((s.apply (.event Ev.REANCHOR_START (le 8 (t - s.now)))).does (anchorApply (t - s.now) 0)).does
      (firstLock s) := by
  have hgo : ((!s.units.anchor.anchored || s.units.anchor.fsChanged || s.units.anchor.todNow) && s.allReleased && s.mode != .boot
      && s.atBoundary && s.units.anchor.phase != 2) = true := by simp [ha, hr, hm, hb, hphase]
  have hdoes : s.does firstAnchoring = s.run (firstAnchoring s) := rfl
  rw [hdoes, firstAnchoring]
  rw [if_pos hgo, ht]
  refine Eq.trans (State.does_phases_cons s _ _) ?_
  rw [State.does_phases_cons, State.does_always, State.run_cons, State.run_nil]
  rfl

theorem firstAnchoring_leaves (ha : s.units.anchor.anchored = false) (hr : s.allReleased = true) (hm : s.mode ≠ .boot)
    (hb : s.atBoundary = true) (hphase : s.units.anchor.phase ≠ 2) {t : Int} (ht : s.anchorTarget = some t) :
    (s.does firstAnchoring).num Key.mtb.EPOCH_OFFSET = signed 64 (s.num Key.mtb.EPOCH_OFFSET + (t - s.now)) ∧
      (s.does firstAnchoring).units.anchor.phase = 2 ∧ (s.does firstAnchoring).units.anchor.anchored = true := by
  have hevent : Effect.Within [Key.evt.EVT_RAISED] (fun _ => ()) (.event Ev.REANCHOR_START (le 8 (t - s.now))) := by simp
  obtain ⟨hoffset, hanchor⟩ := anchorApply_leaves (s.apply (.event Ev.REANCHOR_START (le 8 (t - s.now)))) (t - s.now) 0
  have hlock := firstLock_within (s := s)
  have ha' := hlock.units (fun _ _ _ _ _ _ => rfl)
    ((s.apply (.event Ev.REANCHOR_START (le 8 (t - s.now)))).does (anchorApply (t - s.now) 0))
  rw [does_firstAnchoring ha hr hm hb hphase ht, (hlock.frame _).num (by decide), hoffset, (hevent.frame s).num (by decide)]
  refine ⟨rfl, ?_, ?_⟩ <;> rw [ha', hanchor] <;> rfl

end First

/-! ### The fade-in -/

/-- A channel without the mute of a re-anchor. -/
def Chan.unmuted (x : Chan) : Chan := { x with anchorMuted := false }

/-- A channel fades in over one block where nothing holds it (R64); `b` and `strobed` are of the boundary. -/
def fadeIn (c b : Nat) (strobed : Bool) : Phase :=
  readP (fun s => (s.chan c).held || s.outState c != 1 || s.phase c != 0) fun h => if h then always [] else
    phases [setOut c 2, always [.chan c fun x => { x with gc := x.gc.start 1 b strobed }]]

/-- The turn of a channel at the fade-in: its mute ends, and it fades in (R64). -/
def fadeTurn (c : Nat) : Phase := fun s =>
  if (s.chan c).anchorMuted then phases [always [.chan c Chan.unmuted], fadeIn c s.B s.strobed] s else []

theorem State.chan_apply_chan (s : State) (i j : Nat) (f : Chan → Chan) :
    (s.apply (.chan i f)).chan j = if i = j then f (s.chan i) else s.chan j := Tbl.at_upd ..

section Fade
variable {α : Type} {π : Units → α} {s : State} {c : Nat}

/-- What the turn of a channel may write. -/
def fadeKeys (c : Nat) : List Nat := [Key.pw.OUT_STATE c, Key.evt.EVT_RAISED]

theorem setOut_within (c v : Nat) : Phase.Within (fadeKeys c) π (setOut c v) := fun s => by simp [setOut, fadeKeys]

theorem fadeIn_within {b : Nat} {z : Bool} (hc : ∀ u (g : Chan → Gate), π (Units.onChan u c fun x => { x with gc := g x }) = π u) :
    Phase.Within (fadeKeys c) π (fadeIn c b z) := fun s => by
  simp only [fadeIn, readP]
  split
  · exact .nil
  · exact Phase.within_phases (by simp [setOut_within, hc]) s

theorem fadeTurn_within (hc : ∀ u f, π (Units.onChan u c f) = π u) : Phase.Within (fadeKeys c) π (fadeTurn c) := by
  intro s
  refine confined_ite.2 ⟨fun _ => Phase.within_phases ?_ s, fun _ => .nil⟩
  simp [hc, fadeIn_within fun u g => hc u _]

theorem does_fadeTurn (hm : (s.chan c).anchorMuted = true) :
    s.does (fadeTurn c) = (s.apply (.chan c Chan.unmuted)).does (fadeIn c s.B s.strobed) := by
  have hdoes : s.does (fadeTurn c) = s.run (fadeTurn c s) := rfl
  rw [hdoes, fadeTurn, if_pos hm]
  refine Eq.trans (State.does_phases_cons s _ _) ?_
  rw [State.does_phases_cons, State.does_phases_nil, State.does_always, State.run_cons, State.run_nil]

/-- The turn of a channel ends its mute. -/
theorem anchorMuted_fadeTurn (s : State) (c : Nat) : ((s.does (fadeTurn c)).chan c).anchorMuted = false := by
  by_cases hm : (s.chan c).anchorMuted = true
  · have hin : Phase.Within (fadeKeys c) (fun u => (Tbl.at {} u.chans c).anchorMuted) (fadeIn c s.B s.strobed) :=
      fadeIn_within fun u g => by simp [Units.onChan, Tbl.at_upd]
    rw [does_fadeTurn hm]
    refine (hin.units (fun _ _ _ _ _ _ => rfl) (s.apply (.chan c Chan.unmuted))).trans ?_
    exact congrArg Chan.anchorMuted ((s.chan_apply_chan c c Chan.unmuted).trans (if_pos rfl))
  · rw [State.does, fadeTurn, if_neg hm]
    simpa using hm

theorem does_fadeIn {b : Nat} {z : Bool} (hh : (s.chan c).held = false) (ho : s.outState c = 1) (hp : s.phase c = 0) :
    s.does (fadeIn c b z) = (s.does (setOut c 2)).apply (.chan c fun x => { x with gc := x.gc.start 1 b z }) := by
  have hdoes : s.does (fadeIn c b z) = s.run (fadeIn c b z s) := rfl
  rw [hdoes, fadeIn, readP, hh, ho, hp]
  refine Eq.trans (State.does_phases_cons s _ _) ?_
  rw [State.does_phases_cons, State.does_phases_nil, State.does_always, State.run_cons, State.run_nil]

theorem chan_setOut (s : State) (c v i : Nat) : (s.does (setOut c v)).chan i = s.chan i :=
  (setOut_within (π := fun u => Tbl.at ({} : Chan) u.chans i) c v).units (fun _ _ _ _ _ _ => rfl) s

theorem outState_setOut (hc : c < 16) {v : Nat} (hv : v < 256) (s : State) : (s.does (setOut c v)).outState c = v := by
  have hk : ∀ c < 16, Key.pw.OUT_STATE c ∉ [Key.evt.EVT_RAISED] ∧ Dict.width (Key.pw.OUT_STATE c) = some (8, false) := by
    decide +kernel
  obtain ⟨hke, hw⟩ := hk c hc
  by_cases h : s.outState c = v
  · rw [State.does, setOut, if_pos h]
    exact h
  · have hevent : Effect.Within [Key.evt.EVT_RAISED] (fun _ => ()) (.event Ev.OUT_STATE_CHANGED (args16 [c, s.outState c, v])) := by
      simp
    rw [State.does, setOut, if_neg h, State.run_cons, State.run_cons, State.run_nil, State.outState, (hevent.frame _).nat hke,
      State.nat_reg_of_lt hw s hv]

/-- A channel that its mute alone held fades in at its turn (R64). -/
theorem fadeTurn_leaves (hc : c < 16) (hm : (s.chan c).anchorMuted = true) (hh : (s.chan c).unmuted.held = false)
    (ho : s.outState c = 1) (hp : s.phase c = 0) :
    (s.does (fadeTurn c)).outState c = 2 ∧ ((s.does (fadeTurn c)).chan c).gc = (s.chan c).gc.start 1 s.B s.strobed := by
  have hchan : (s.apply (.chan c Chan.unmuted)).chan c = (s.chan c).unmuted := (s.chan_apply_chan c c _).trans (if_pos rfl)
  have hgc (x : State) (f : Chan → Chan) : x.Frame [] (x.apply (.chan c f)) := Effect.Within.frame (π := fun _ => ()) (by simp) x
  rw [does_fadeTurn hm, does_fadeIn (s := s.apply (.chan c Chan.unmuted)) (by rw [hchan, hh]) ho hp]
  constructor
  · rw [State.outState, (hgc _ _).nat (by simp)]
    exact outState_setOut hc (by decide) _
  · rw [State.chan_apply_chan, if_pos rfl, chan_setOut, hchan]
    rfl

/-- What the turns of the other channels may write. -/
def otherFadeKeys (c : Nat) : List Nat := Key.evt.EVT_RAISED :: ((List.range 16).filter (· ≠ c)).map Key.pw.OUT_STATE

/-- The turns of other channels leave this one. -/
theorem other_fades_within {l : List Nat} (hl : ∀ i ∈ l, i < 16) (hcl : c ∉ l) :
    Phase.Within (otherFadeKeys c) (fun u => Tbl.at {} u.chans c) (forAll l fadeTurn) :=
  Phase.within_forAll fun i hi => by
    have hne : i ≠ c := fun h => hcl (h ▸ hi)
    refine (fadeTurn_within fun u f => by simp [Units.onChan, Tbl.at_upd, hne]).mono ?_
    simpa [fadeKeys, otherFadeKeys] using Or.inr ⟨i, ⟨hl i hi, hne⟩, rfl⟩

/-- What a channel's fade-in reads is the same in both states. -/
structure State.FadeAlike (s x : State) (c : Nat) : Prop where
  chan : x.chan c = s.chan c
  outState : x.outState c = s.outState c
  phase : x.phase c = s.phase c
  period : x.B = s.B
  strobed : x.strobed = s.strobed

theorem other_fades_alike {l : List Nat} (hc : c < 16) (hl : ∀ i ∈ l, i < 16) (hcl : c ∉ l) :
    s.FadeAlike (s.does (forAll l fadeTurn)) c := by
  have hk : ∀ c < 16, ∀ k ∈ [Key.pw.OUT_STATE c, Key.pw.SEQ_PHASE c, Key.mtb.FS_SELECT, Key.mtb.SAMPLE_INDEX,
    Key.mtb.EPOCH_OFFSET], k ∉ otherFadeKeys c := by decide
  have hw := other_fades_within hl hcl
  have hf := hw.frame s
  have hfs : (s.does (forAll l fadeTurn)).fs = s.fs := by rw [State.fs, State.fs, hf.num (hk c hc _ (by simp))]
  have hnow : (s.does (forAll l fadeTurn)).now = s.now := by
    simp only [State.now, State.mtbNs, State.does_mtb, hf.num (hk c hc Key.mtb.EPOCH_OFFSET (by simp))]
  exact {
    chan := hw.units (fun _ _ _ _ _ _ => rfl) s
    outState := hf.nat (hk c hc _ (by simp))
    phase := hf.nat (hk c hc _ (by simp))
    period := by rw [State.B, State.B, hf.num (hk c hc _ (by simp))]
    strobed := by
      simp only [State.strobed, State.sampleNow, hfs, hnow, hf.nat (hk c hc Key.mtb.SAMPLE_INDEX (by simp))] }

/-- What the fade-in leaves of each channel (R64). -/
theorem fades_leave (hc : c < 16) :
    ((s.does (forAll (List.range 16) fadeTurn)).chan c).anchorMuted = false ∧
      ((s.chan c).anchorMuted = true → (s.chan c).unmuted.held = false → s.outState c = 1 → s.phase c = 0 →
        (s.does (forAll (List.range 16) fadeTurn)).outState c = 2 ∧
          ((s.does (forAll (List.range 16) fadeTurn)).chan c).gc = (s.chan c).gc.start 1 s.B s.strobed) := by
  obtain ⟨before, after, hsplit, hb, ha, hdoes⟩ := State.does_forAll_of_mem (List.mem_range.2 hc) List.nodup_range fadeTurn s
  have hlt : ∀ i ∈ before ++ c :: after, i < 16 := fun i hi => List.mem_range.1 (hsplit ▸ hi)
  obtain ⟨hchan, hout, hphase, hB, hstrobed⟩ := other_fades_alike (s := s) hc (fun i hi => hlt i (by simp [hi])) hb
  obtain ⟨x, hx⟩ : ∃ x, x = s.does (forAll before fadeTurn) := ⟨_, rfl⟩
  rw [← hx] at hchan hout hphase hB hstrobed hdoes
  obtain ⟨hchan', hout', -, -, -⟩ := other_fades_alike (s := x.does (fadeTurn c)) hc (fun i hi => hlt i (by simp [hi])) ha
  rw [hdoes, hchan', hout']
  refine ⟨anchorMuted_fadeTurn x c, fun hm hh ho hp => ?_⟩
  rw [← hchan, ← hB, ← hstrobed]
  exact fadeTurn_leaves hc (by rw [hchan, hm]) (by rw [hchan, hh]) (hout.trans ho) (hphase.trans hp)

theorem does_reanchorFadeIn (hphase : s.units.anchor.phase = 3) (hb : s.atBoundary = true)
    (hlate : firstFrom s.fs s.B (s.units.anchor.newTime + s.nat Key.eng.LINK_OFFSET) ≤ s.blockSample) :
    s.does reanchorFadeIn = (s.does (forAll (List.range 16) fadeTurn)).apply (.anchor fun a => { a with phase := 0 }) := by
  have hdoes : s.does reanchorFadeIn = s.run (reanchorFadeIn s) := rfl
  rw [hdoes, reanchorFadeIn, if_pos ⟨hphase, hb, hlate⟩]
  refine Eq.trans (State.does_phases_cons s _ _) ?_
  rw [State.does_phases_cons, State.does_phases_nil, State.does_always, State.run_cons, State.run_nil]
  rfl

/-- A channel that nothing holds is not held without its mute either. -/
theorem held_unmuted {x : Chan} (h : x.held = false) : x.unmuted.held = false := by
  simp only [Chan.held, Chan.unmuted, Bool.or_eq_false_iff] at h ⊢
  exact ⟨⟨h.1.1, trivial⟩, h.2⟩

end Fade

end Sys2Proof.Machine
end

section
/-!
A written value takes effect (R395, R399, R471): the effects of the entry, caused by the writer's session.
-/

namespace Sys2Proof.Machine

/-! ### Who has caused an event makes no difference to the entries and the anchor -/

/-- The effect reads of the units, to change the anchor, the anchor alone. -/
def Effect.AnchorLocal : Effect → Prop
  | .unit f => ∀ u v : Units, u.anchor = v.anchor → (f u).anchor = (f v).anchor
  | _ => True

/-- The states differ in what raising events has left, and in units other than the anchor. -/
structure State.Alike (s t : State) : Prop where
  get : ∀ k, k ≠ Key.evt.EVT_RAISED → t.get k = s.get k
  mode : t.mode = s.mode
  store : t.store = s.store
  anchor : t.units.anchor = s.units.anchor

theorem State.Alike.refl (s : State) : s.Alike s := ⟨fun _ _ => rfl, rfl, rfl, rfl⟩

theorem State.get_set_congr {s t : State} {j : Nat} (h : t.get j = s.get j) (k : Nat) (v : Value) :
    (t.set k v).get j = (s.set k v).get j := by
  by_cases hk : k = j
  · subst hk
    unfold State.set
    split
    · exact h
    · split
      · exact h
      · simp only [State.get, Tbl.get_set, if_true]
        exact congrArg (Ty.norm _ · v) h
  · rw [t.get_set_ne k j v hk, s.get_set_ne k j v hk, h]

section Alike
variable {s t : State}

theorem State.Alike.set (h : s.Alike t) {k : Nat} {v w : Value} (hvw : k ≠ Key.evt.EVT_RAISED → w = v) :
    (s.set k v).Alike (t.set k w) := by
  obtain ⟨hget, hmode, hstore, hanchor⟩ := h
  refine ⟨fun j hj => ?_, by simpa using hmode, by simpa using hstore, by simpa using hanchor⟩
  by_cases hk : k = Key.evt.EVT_RAISED
  · rw [t.get_set_ne k j w (by omega), s.get_set_ne k j v (by omega), hget j hj]
  · rw [hvw hk]
    exact State.get_set_congr (hget j hj) k v

theorem State.Alike.raise (h : s.Alike t) (c : Nat) (a : List Byte) (m n : Nat) (sc : Option Nat) :
    (s.raise c a m sc).Alike (t.raise c a n sc) := by
  obtain ⟨hget, hmode, hstore, hanchor⟩ := h
  have hblind : EventBlind fun u => u.anchor := fun _ _ _ _ _ _ => rfl
  have hkeep (x : State) (m : Nat) {j : Nat} (hj : j ≠ Key.evt.EVT_RAISED) : (x.raise c a m sc).get j = x.get j :=
    x.apply_get (.raise c a m sc) j (by simpa [Effect.writes] using hj)
  exact ⟨fun j hj => by rw [hkeep t n hj, hkeep s m hj, hget j hj], by simpa using hmode, by simpa using hstore,
    by rw [hblind.raise, hblind.raise, hanchor]⟩

theorem State.Alike.apply (h : s.Alike t) {e : Effect} (he : e.AnchorLocal) (n : Nat) :
    (s.apply e).Alike (t.apply (e.by n)) := by
  have hnum : ∀ k, k ≠ Key.evt.EVT_RAISED → t.num k = s.num k := fun k hk => by rw [State.num, h.get k hk, State.num]
  cases e with
  | reg k v => exact h.set fun _ => rfl
  | bump k i => exact h.set fun hk => by rw [hnum k hk]
  | orBits k i => exact h.set fun hk => by rw [State.nat_eq_num, hnum k hk, ← State.nat_eq_num]
  | andNot k i => exact h.set fun hk => by rw [State.nat_eq_num, hnum k hk, ← State.nat_eq_num]
  | save k v =>
    obtain ⟨hget, hmode, hstore, hanchor⟩ := h
    refine ⟨hget, hmode, ?_, hanchor⟩
    simp only [Effect.by, State.apply, hstore]
  | mode m =>
    obtain ⟨hget, -, hstore, hanchor⟩ := h
    exact ⟨hget, rfl, hstore, hanchor⟩
  | unit f =>
    obtain ⟨hget, hmode, hstore, hanchor⟩ := h
    exact ⟨hget, hmode, hstore, he _ _ hanchor⟩
  | raise c a m sc => cases m <;> exact h.raise ..

theorem State.Alike.run (h : s.Alike t) (n : Nat) {es : List Effect} (hes : ∀ e ∈ es, e.AnchorLocal) :
    (s.run es).Alike (t.run (es.map (Effect.by n))) := by
  induction es generalizing s t with
  | nil => exact h
  | cons e es ih =>
    obtain ⟨he, hes⟩ := List.forall_mem_cons.1 hes
    exact ih (h.apply he n) hes

/-- What a session has caused stands as what nobody has, but for the events themselves. -/
theorem alike_causedBy (s : State) (n : Nat) {p : Phase} (hp : ∀ e ∈ p s, e.AnchorLocal) : (s.does p).Alike (s.does (causedBy n p)) :=
  (State.Alike.refl s).run n hp

end Alike

/-! ### Phases that change the anchor by itself -/

/-- From every state, the phase changes the anchor by the anchor alone. -/
def Phase.AnchorLocal (p : Phase) : Prop := ∀ s, ∀ e ∈ p s, e.AnchorLocal

@[simp] theorem Effect.anchorLocal_anchor (f : Anchor → Anchor) : (Effect.anchor f).AnchorLocal := fun _ _ h => congrArg f h
@[simp] theorem Effect.anchorLocal_tbase (i : Nat) (f : TimeBase → TimeBase) : (Effect.tbase i f).AnchorLocal := fun _ _ h => h
@[simp] theorem Effect.anchorLocal_num (k : Nat) (n : Int) : (Effect.num k n).AnchorLocal := trivial
@[simp] theorem Effect.anchorLocal_nat (k n : Nat) : (Effect.nat k n).AnchorLocal := trivial
@[simp] theorem Effect.anchorLocal_event (c : Nat) (a : List Byte) : (Effect.event c a).AnchorLocal := trivial

theorem Confined.anchorLocal {ks : List Nat} {es : List Effect} (h : Confined ks (fun u => u.anchor) es) :
    ∀ e ∈ es, e.AnchorLocal := by
  intro e he
  have hw := h e he
  cases e with
  | unit f => exact fun u v huv => (hw u).trans (huv.trans (hw v).symm)
  | _ => exact trivial

theorem Phase.Within.anchorLocal {ks : List Nat} {p : Phase} (h : Phase.Within ks (fun u => u.anchor) p) : p.AnchorLocal :=
  fun s => (h s).anchorLocal

theorem Phase.anchorLocal_phases {ps : List Phase} (h : ∀ p ∈ ps, p.AnchorLocal) : (phases ps).AnchorLocal := by
  induction ps with
  | nil => exact fun _ _ he => absurd he List.not_mem_nil
  | cons p ps ih =>
    obtain ⟨hp, hps⟩ := List.forall_mem_cons.1 h
    exact fun s e he => (List.mem_append.1 he).elim (hp s e) (ih hps _ e)

theorem Phase.anchorLocal_always {es : List Effect} : (always es).AnchorLocal ↔ ∀ e ∈ es, e.AnchorLocal :=
  ⟨fun h => h State.reset, fun h _ => h⟩

theorem Phase.anchorLocal_ite {c : Prop} [Decidable c] {p q : Phase} (hp : p.AnchorLocal) (hq : q.AnchorLocal) :
    (if c then p else q).AnchorLocal := by
  split
  · exact hp
  · exact hq

section Local

theorem slewStop_anchorLocal : slewStop.AnchorLocal := by
  intro s
  simp only [slewStop]
  split
  · simp
  · simp

theorem slewStart_anchorLocal (o : Int) : (slewStart o).AnchorLocal := by
  intro s
  simp [slewStart]

theorem reanchorBegin_anchorLocal (o : Int) : (reanchorBegin o).AnchorLocal := by
  have hmutes : Phase.Within [] (fun u => u.anchor) (forAll (List.range 16) anchorMute) :=
    Phase.within_forAll fun c _ => anchorMute_within (fun _ _ _ => rfl) (fun _ _ => rfl) c
  refine Phase.anchorLocal_phases ?_
  simp [Phase.anchorLocal_always, (setLock_within (lockBlind_anchor 4) 1).anchorLocal, hmutes.anchorLocal]

theorem mtbStep_anchorLocal (o : Int) : (mtbStep o).AnchorLocal := by
  intro s
  simp only [mtbStep]
  split
  · simp
  split
  · simp
  split
  · exact slewStart_anchorLocal o s
  · exact reanchorBegin_anchorLocal o s

theorem mtbOffset_anchorLocal (o : Int) : (mtbOffset o).AnchorLocal := by
  refine Phase.anchorLocal_phases ?_
  simp [slewStop_anchorLocal, mtbStep_anchorLocal, Phase.anchorLocal_always]

theorem sourceBack_anchorLocal (o : Int) : (sourceBack o).AnchorLocal := by
  intro s
  simp only [sourceBack]
  split <;> simp

end Local

/-! ### The effect of an entry -/

/-- What an entry without a wait for a crossing brings about when it is written: its own effect, or the value it holds. -/
def entryDoes (w : Writer) (k : Nat) (v : Value) : Phase :=
  match (specialEffects w k v).find? fun e => decide (e.1 ≤ k / 256 ∧ k / 256 < e.1 + e.2.1) && k % 256 == e.2.2.1 with
  | some e => e.2.2.2 (k / 256 - e.1)
  | none => always [.reg k v]

/-- An entry that no reserved bits narrow and that never waits for a crossing takes effect at once (R362, R395). -/
theorem entryTakes_of_plain {w : Writer} {k : Nat} {v : Value} (hres : reserved k v = v) (hz : ∀ s : State, s.changesAtCrossing k = false)
    (s : State) : s.does (entryTakes w k v) = s.does (causedBy w.session (phases [entryDoes w k v, persist k])) := by
  have hcross : crossingWait k v s = [] := by
    simp [crossingWait, hz]
  have hsplit : entryTakes w k v s = (crossingWait k v s ++ phases [entryDoes w k v, persist k] (s.run (crossingWait k v s))).map
      (Effect.by w.session) := by
    rw [entryTakes, hres]
    rfl
  rw [State.does, hsplit, hcross]
  rfl

end Sys2Proof.Machine
end

section
/-!
The hand-over of the MTB to another domain (R55, R73), and media time as it is anchored.
-/

namespace Sys2Proof.Machine

variable {α : Type}

/-! ### The hand-over's footprint -/

/-- What a hand-over may write. -/
def handoverKeys : List Nat := servoKeys 4 ++ lossKeys

theorem lossKeys_subset_handoverKeys : lossKeys ⊆ handoverKeys := List.subset_append_right ..
theorem servoKeys_subset_handoverKeys : servoKeys 4 ⊆ handoverKeys := List.subset_append_left ..

/-- The source of the new domain: present, or missing (R62, R73). -/
def handoverSource (s : State) (d : Nat) (o : Int) : Phase :=
  if !s.domainMissing d then sourceBack o
  else if s.nat Key.lock.LOCK_STATE = 0 then whenP State.locking (setLock 4 3)
  else if s.units.anchor.lossAt.isSome then phases [slewStop, setLock 4 3] else sourceLost

/-- What a hand-over does once the new domain is named (R73). -/
def handoverRest (s : State) (d : Nat) : Phase :=
  phases [always [.tbase 4 fun x => { x with syncLog := (s.tbase d).syncLog, lastSync := (s.tbase d).lastSync, outliers := [] }],
    if s.nat Key.lock.LOCK_STATE = 0 then always [estimateOpen 4] else always [],
    if s.nat Key.lock.LOCK_STATE = 0 ∧ s.domainMissing d then always [] else setLock 4 1,
    reportOffset 4 ((s.now : Int) - s.dtbTime d), mtbOffset ((s.now : Int) - s.dtbTime d),
    handoverSource s d ((s.now : Int) - s.dtbTime d)]

section Footprint
variable {π : Units → α} {s : State} {d : Nat} {o : Int}

theorem handoverSource_within (h : ServoBlind 4 π) : Phase.Within handoverKeys π (handoverSource s d o) := by
  have hback : Phase.Within handoverKeys π (sourceBack o) :=
    (sourceBack_within (fun u _ => h.anchor rfl u _) o).mono (by decide)
  have hlock : Phase.Within handoverKeys π (setLock 4 3) :=
    (setLock_within_servoKeys h 3).mono servoKeys_subset_handoverKeys
  have hwhen : Phase.Within handoverKeys π (whenP State.locking (setLock 4 3)) := fun s =>
    confined_ite.2 ⟨fun _ => hlock s, fun _ => .nil⟩
  have hstop : Phase.Within handoverKeys π slewStop := (slewStop_within (h.anchor rfl)).mono (by decide)
  have hlost : Phase.Within handoverKeys π sourceLost := (sourceLost_within h).mono lossKeys_subset_handoverKeys
  have hheld : Phase.Within handoverKeys π (phases [slewStop, setLock 4 3]) := Phase.within_phases (by simp [hstop, hlock])
  simp [handoverSource, hback, hwhen, hheld, hlost]

theorem handoverRest_within (h : ServoBlind 4 π) : Phase.Within handoverKeys π (handoverRest s d) := by
  have hlock := (setLock_within_servoKeys h 1).mono servoKeys_subset_handoverKeys
  have hreport := (reportOffset_within_servoKeys h ((s.now : Int) - s.dtbTime d)).mono servoKeys_subset_handoverKeys
  have hoffset := ((mtbOffset_within h ((s.now : Int) - s.dtbTime d)).mono stepKeys_subset_servoKeys).mono
    servoKeys_subset_handoverKeys
  exact Phase.within_phases (by simp [h.tbase, estimateOpen, hlock, hreport, hoffset, handoverSource_within h])

theorem sourceLost_anchorLocal : sourceLost.AnchorLocal := by
  intro s
  refine Phase.anchorLocal_phases ?_ s
  have hlock := (setLock_within (lockBlind_anchor 4) 3).anchorLocal
  simp only [List.forall_mem_cons]
  refine ⟨Phase.anchorLocal_always.2 ?_, Phase.anchorLocal_ite hlock (Phase.anchorLocal_always.2 (by simp)), by simp⟩
  split <;> simp

theorem handoverRest_anchorLocal : (handoverRest s d).AnchorLocal := by
  have hlock3 := (setLock_within (lockBlind_anchor 4) 3).anchorLocal
  have hlock := (setLock_within (lockBlind_anchor 4) 1).anchorLocal
  have hnone : (always []).AnchorLocal := Phase.anchorLocal_always.2 (by simp)
  have hopen : (always [estimateOpen 4]).AnchorLocal := Phase.anchorLocal_always.2 (by simp [estimateOpen])
  have hreport (o : Int) := (reportOffset_within (lockBlind_anchor 4) o).anchorLocal
  have hwhen : (whenP State.locking (setLock 4 3)).AnchorLocal := fun s => by
    unfold whenP
    split
    · exact hlock3 s
    · simp
  have hsource (o : Int) : (handoverSource s d o).AnchorLocal :=
    Phase.anchorLocal_ite (sourceBack_anchorLocal _) (Phase.anchorLocal_ite hwhen (Phase.anchorLocal_ite
      (Phase.anchorLocal_phases (by simp [slewStop_anchorLocal, hlock3])) sourceLost_anchorLocal))
  exact Phase.anchorLocal_phases (by
    simp [Phase.anchorLocal_always, Phase.anchorLocal_ite hopen hnone, Phase.anchorLocal_ite hnone hlock, hreport,
      mtbOffset_anchorLocal, hsource])

end Footprint

/-! ### The hand-over -/

section Handover
variable {s : State} {d : Nat}

/-- The cases of a hand-over: to the same domain, without PTP, and under PTP (R73). -/
theorem handoverTo_cases (s : State) (d : Nat) : handoverTo d s =
    if s.nat Key.ref.REF_DOMAIN = d then []
    else .nat Key.ref.REF_DOMAIN d ::
      if s.num Key.ref.REF_SOURCE ≠ 1 then [] else handoverRest s d (s.apply (.nat Key.ref.REF_DOMAIN d)) := by
  simp only [handoverTo]
  split
  · rfl
  · split
    · rfl
    · rfl

theorem handoverTo_anchorLocal (s : State) (d : Nat) : ∀ e ∈ handoverTo d s, e.AnchorLocal := by
  rw [handoverTo_cases]
  split
  · simp
  · refine List.forall_mem_cons.2 ⟨trivial, ?_⟩
    split
    · simp
    · exact handoverRest_anchorLocal _

theorem handoverTo_within {π : Units → α} (h : ServoBlind 4 π) :
    Phase.Within (Key.ref.REF_DOMAIN :: handoverKeys) π (handoverTo d) := by
  intro s
  rw [handoverTo_cases]
  refine confined_ite.2 ⟨fun _ => .nil, fun _ => confined_cons.2 ⟨by simp, confined_ite.2 ⟨fun _ => .nil, fun _ => ?_⟩⟩⟩
  exact ((handoverRest_within h).mono (List.subset_cons_self ..)) _

/-- A hand-over names the new domain (R73). -/
theorem nat_refDomain_handoverTo (hd : d < 256) (s : State) : (s.does (handoverTo d)).nat Key.ref.REF_DOMAIN = d := by
  have hw : Dict.width Key.ref.REF_DOMAIN = some (8, false) := by decide +kernel
  rw [State.does, handoverTo_cases]
  split
  · assumption
  · rw [State.run_cons]
    have hkeep : Confined handoverKeys (fun _ => ()) (if s.num Key.ref.REF_SOURCE ≠ 1 then []
        else handoverRest s d (s.apply (.nat Key.ref.REF_DOMAIN d))) :=
      confined_ite.2 ⟨fun _ => .nil, fun _ => handoverRest_within (servoBlind_unit 4) _⟩
    rw [(hkeep.frame _).nat (by decide), State.nat_reg_of_lt hw s hd]

/-- The first part of a hand-over under PTP: the servo takes over what the domain measured, and the offset is reported (R73). -/
def handoverMeasured (s : State) (d : Nat) : Phase :=
  phases [always [.tbase 4 fun x => { x with syncLog := (s.tbase d).syncLog, lastSync := (s.tbase d).lastSync, outliers := [] }],
    if s.nat Key.lock.LOCK_STATE = 0 then always [estimateOpen 4] else always [],
    if s.nat Key.lock.LOCK_STATE = 0 ∧ s.domainMissing d then always [] else setLock 4 1]

theorem does_handoverRest (x : State) : x.does (handoverRest s d) = (((x.does (handoverMeasured s d)).does
    (reportOffset 4 ((s.now : Int) - s.dtbTime d))).does (mtbOffset ((s.now : Int) - s.dtbTime d))).does
      (handoverSource s d ((s.now : Int) - s.dtbTime d)) := by
  simp only [handoverRest, handoverMeasured, State.does_phases_cons, State.does_phases_nil]

theorem handoverMeasured_within : Phase.Within (lockKeys 4) (fun u => u.anchor) (handoverMeasured s d) := by
  have hlock := setLock_within (lockBlind_anchor 4) 1
  have hopen : (estimateOpen 4).Within (lockKeys 4) (fun u => u.anchor) := fun _ => rfl
  have htb (f : TimeBase → TimeBase) : (Effect.tbase 4 f).Within (lockKeys 4) (fun u => u.anchor) := fun _ => rfl
  exact Phase.within_phases (by simp [hopen, hlock, htb, -Effect.within_tbase])

/-- An offset that is reported reads as it was reported (R61). -/
theorem num_reportOffset {tb : Nat} (htb : tb < 5) (s : State) {o : Int} (h1 : -(2 ^ 64 : Int) ≤ 2 * o) (h2 : 2 * o < 2 ^ 64) :
    (s.does (reportOffset tb o)).num (offsetKey tb) = o := by
  have hk : ∀ tb < 5, offsetKey tb ∉ lockKeys tb := by decide
  have hlock := setLock_within (servoBlind_unit tb).lock 1
  have hrest : Phase.Within (lockKeys tb) (fun _ => ()) (phases [
      (if decide (1000 ≤ |o|) && s.nat (lockKey tb) = 2 then setLock tb 1 else always []),
      always [.tbase tb fun x => { x with windowStart := if decide (1000 ≤ |o|) then none else match x.windowStart with
        | some t => some t
        | none => some s.mtbNs }]]) := Phase.within_phases (by simp [hlock])
  have hdoes : s.does (reportOffset tb o) = s.run (reportOffset tb o s) := rfl
  rw [hdoes, reportOffset]
  refine Eq.trans (congrArg (State.num · _) (State.does_phases_cons s _ _)) ?_
  rw [State.does_always]
  exact (Confined.num_written (hrest _) (width_offsetKey tb htb) (hk tb htb) s o).trans ((if_pos rfl).trans (signed_eq_self h1 h2))

/-- What a hand-over under PTP to a domain that is there leaves (R73). -/
theorem handoverTo_leaves (hsource : s.num Key.ref.REF_SOURCE = 1) (hne : s.nat Key.ref.REF_DOMAIN ≠ d)
    (hphase : s.units.anchor.phase = 0) (hthere : s.domainMissing d = false) :
    (s.does (handoverTo d)).num Key.lock.SOURCE_STATE = 0 ∧
      (|(s.now : Int) - s.dtbTime d| ≤ 1000000 →
        (s.does (handoverTo d)).units.anchor.slewLsb = ((s.now : Int) - s.dtbTime d) * 2 ^ 32 ∧
          (s.does (handoverTo d)).num Key.servo.OFFSET = (s.now : Int) - s.dtbTime d) ∧
      (1000000 < |(s.now : Int) - s.dtbTime d| → (s.does (handoverTo d)).units.anchor.phase = 1 ∧
        (s.does (handoverTo d)).units.anchor.offset = (s.now : Int) - s.dtbTime d) := by
  obtain ⟨o, ho⟩ : ∃ o, o = (s.now : Int) - s.dtbTime d := ⟨_, rfl⟩
  obtain ⟨x, hx⟩ : ∃ x, x = ((s.apply (.nat Key.ref.REF_DOMAIN d)).does (handoverMeasured s d)).does (reportOffset 4 o) := ⟨_, rfl⟩
  have hdoes : s.does (handoverTo d) = (x.does (mtbOffset o)).does (sourceBack o) := by
    rw [State.does, handoverTo_cases, if_neg hne, if_neg (not_not.2 hsource), State.run_cons]
    refine (does_handoverRest _).trans ?_
    rw [← ho, ← hx, handoverSource, hthere]
    rfl
  have hevent : EventBlind fun u => u.anchor := fun _ _ _ _ _ _ => rfl
  have hanchor : x.units.anchor = s.units.anchor := by
    rw [hx, (reportOffset_within (lockBlind_anchor 4) o).units hevent, handoverMeasured_within.units hevent]
    exact s.anchor_apply_reg _ _
  obtain ⟨hslews, hanchors⟩ := mtbOffset_leaves (s := x) (o := o) (by rw [hanchor, hphase])
  have hback := sourceBack_within (π := fun u => (u.anchor.slewLsb, u.anchor.phase, u.anchor.offset)) (fun _ _ => rfl) o
  have hkeep := hback.units (fun _ _ _ _ _ _ => rfl) (x.does (mtbOffset o))
  simp only [Prod.mk.injEq] at hkeep
  obtain ⟨hlsb, hph, hoff⟩ := hkeep
  rw [← ho, hdoes]
  refine ⟨?_, fun hsmall => ⟨hlsb.trans (hslews hsmall).1, ?_⟩, fun hbig => ?_⟩
  · refine Eq.trans (Confined.num_written (ks := [Key.evt.EVT_RAISED]) (π := fun _ => ()) ?_
      (show Dict.width Key.lock.SOURCE_STATE = some (8, false) by decide +kernel) (by decide) _ 0) rfl
    simp
  · obtain ⟨hlo, hhi⟩ := abs_le.1 hsmall
    rw [(hback.frame _).num (by decide), ((mtbOffset_within (servoBlind_unit 4) o).frame x).num (by decide), hx]
    exact num_reportOffset (tb := 4) (by decide) _ (by omega) (by omega)
  · exact ⟨hph.trans (hanchors hbig).1, hoff.trans (hanchors hbig).2⟩

end Handover

/-! ### At a block boundary -/

section Boundary
variable {s : State}

/-- Probes that wait change the channels alone (R288). -/
theorem does_probes (s : State) (l : List Nat) :
    ∃ c, s.does (forAll l probeDue) = { s with units := { s.units with chans := c } } := by
  induction l generalizing s with
  | nil => exact ⟨_, rfl⟩
  | cons i l ih =>
    have hone : ∃ c, s.does (probeDue i) = { s with units := { s.units with chans := c } } := by
      rw [State.does, probeDue]
      split
      · exact ⟨_, rfl⟩
      · exact ⟨_, rfl⟩
    obtain ⟨c, hc⟩ := hone
    obtain ⟨c', hc'⟩ := ih { s with units := { s.units with chans := c } }
    refine ⟨c', ?_⟩
    rw [forAll, List.map_cons, State.does_phases_cons, hc]
    exact hc'

theorem does_atBlock (hserved : s.units.mgmt.served = true) (hmode : s.mode ≠ .boot) (hb : s.atBoundary = true) (p : Phase) :
    s.does (atBlock p) = (s.does (forAll (List.range 16) probeDue)).does p := by
  have hdoes : s.does (atBlock p) = s.does (phases [forAll (List.range 16) probeDue, p]) := by
    rw [State.does, atBlock, whenP, if_pos hb, changesServed, if_pos ⟨hserved, hmode⟩]
    rfl
  rw [hdoes, State.does_phases_cons, State.does_phases_cons, State.does_phases_nil]

/-- The state in which a waiting write takes effect: the probes have been passed over, and nothing waits. -/
def State.taken (s : State) (c : Tbl Chan) : State := { s with units := { s.units with chans := c, waiting := [] } }

theorem does_takeWaiting {k role n : Nat} {v : Value} (hw : s.units.waiting = [⟨k, v, role, n⟩]) :
    s.does (takeWaiting k) = (s.apply (.unit fun u => { u with waiting := [] })).does (entryTakes ⟨n, role⟩ k v) := by
  have hpart : ([⟨k, v, role, n⟩] : List Waiting).partition (fun w => w.key == k) = ([⟨k, v, role, n⟩], []) := by
    simp [List.partition, List.partition.loop]
  have hdoes : s.does (takeWaiting k) = s.run (takeWaiting k s) := rfl
  rw [hdoes, takeWaiting, hw, hpart]
  refine Eq.trans (State.does_phases_cons s _ _) ?_
  rw [State.does_phases_cons, State.does_phases_nil, State.does_always, State.run_cons, State.run_nil, forAll, List.map_cons,
    List.map_nil, State.does_phases_cons, State.does_phases_nil]

/-- What an entry's effect and the saving of its value do together, for the session that has caused them (R399, R471). -/
theorem does_causedBy_pair (n : Nat) (p q : Phase) (s : State) :
    s.does (causedBy n (phases [p, q])) = (s.does (causedBy n p)).run ((q (s.does p)).map (Effect.by n)) := by
  have hsplit : phases [p, q] s = p s ++ (q (s.does p) ++ []) := rfl
  rw [State.does, causedBy, hsplit, List.append_nil, List.map_append, State.run_append]
  rfl

theorem entryDoes_refDomain (w : Writer) (d : Nat) : entryDoes w Key.ref.REF_DOMAIN (.num d) = handoverTo d := by
  simp [entryDoes, specialEffects, Key.ref.REF_DOMAIN, Value.int]

/-- The hand-over of a waiting REF_DOMAIN: as its session has caused it, and then stored (R73, R399). -/
theorem does_handoverChange {d role n : Nat} (hserved : s.units.mgmt.served = true) (hmode : s.mode ≠ .boot) (hb : s.atBoundary = true)
    (hw : s.units.waiting = [⟨Key.ref.REF_DOMAIN, .num d, role, n⟩]) :
    ∃ c v, s.does handoverChange =
      ((s.taken c).does (causedBy n (handoverTo d))).apply (.save Key.ref.REF_DOMAIN v) := by
  obtain ⟨c, hc⟩ := does_probes s (List.range 16)
  have hentry : s.does handoverChange = (s.taken c).does (entryTakes ⟨n, role⟩ Key.ref.REF_DOMAIN (.num d)) := by
    rw [handoverChange, does_atBlock hserved hmode hb, hc]
    exact does_takeWaiting (s := { s with units := { s.units with chans := c } }) hw
  refine ⟨c, some (((s.taken c).does (handoverTo d)).get Key.ref.REF_DOMAIN), ?_⟩
  rw [hentry, entryTakes_of_plain rfl (fun _ => rfl), entryDoes_refDomain, does_causedBy_pair]
  rfl

/-- What the hand-over of a waiting REF_DOMAIN leaves (R55, R73). -/
theorem handoverChange_leaves {d role n : Nat} (hd : d < 256) (hserved : s.units.mgmt.served = true) (hmode : s.mode ≠ .boot)
    (hb : s.atBoundary = true) (hw : s.units.waiting = [⟨Key.ref.REF_DOMAIN, .num d, role, n⟩]) :
    (s.does handoverChange).nat Key.ref.REF_DOMAIN = d ∧ (s.does handoverChange).units.waiting = [] ∧
    (s.does handoverChange).mode = s.mode ∧
    (s.num Key.ref.REF_SOURCE ≠ 1 → ∀ k, k ≠ Key.ref.REF_DOMAIN → (s.does handoverChange).get k = s.get k) ∧
    (s.num Key.ref.REF_SOURCE = 1 → s.nat Key.ref.REF_DOMAIN ≠ d → s.units.anchor.phase = 0 → s.domainMissing d = false →
      (s.does handoverChange).num Key.lock.SOURCE_STATE = 0 ∧
      (|(s.now : Int) - s.dtbTime d| ≤ 1000000 →
        (s.does handoverChange).units.anchor.slewLsb = ((s.now : Int) - s.dtbTime d) * 2 ^ 32 ∧
          (s.does handoverChange).num Key.servo.OFFSET = (s.now : Int) - s.dtbTime d) ∧
      (1000000 < |(s.now : Int) - s.dtbTime d| → (s.does handoverChange).units.anchor.phase = 1 ∧
        (s.does handoverChange).units.anchor.offset = (s.now : Int) - s.dtbTime d)) := by
  obtain ⟨c, v, hdoes⟩ := does_handoverChange hserved hmode hb hw
  have hwaiting : ServoBlind 4 fun u => u.waiting :=
    ⟨fun _ _ _ _ _ _ => rfl, fun _ _ => rfl, fun _ _ _ => rfl, fun _ _ _ => rfl, fun _ _ _ _ => rfl, fun _ _ _ => rfl⟩
  have hcaused := Phase.within_causedBy n (handoverTo_within (d := d) hwaiting)
  obtain ⟨hget, -, -, hanchor⟩ := alike_causedBy (s.taken c) n (handoverTo_anchorLocal (s.taken c) d)
  have hnum : ∀ k, k ≠ Key.evt.EVT_RAISED → ((s.taken c).does (causedBy n (handoverTo d))).num k =
      ((s.taken c).does (handoverTo d)).num k := fun k hk => by rw [State.num, hget k hk, State.num]
  rw [hdoes]
  refine ⟨?_, ?_, ?_, fun hsource k hk => ?_, fun hsource hne hphase hthere => ?_⟩
  · rw [State.nat_eq_num]
    refine (congrArg Int.toNat (hnum _ (by decide))).trans ?_
    exact nat_refDomain_handoverTo hd (s.taken c)
  · exact hcaused.units hwaiting.event (s.taken c)
  · exact (hcaused.frame (s.taken c)).mode
  · have hwithin : Confined [Key.ref.REF_DOMAIN] (fun _ => ()) (handoverTo d (s.taken c)) := by
      rw [handoverTo_cases, if_pos (show (s.taken c).num Key.ref.REF_SOURCE ≠ 1 from hsource)]
      simp
    exact ((hwithin.by n).frame (s.taken c)).get (by simpa using hk)
  · obtain ⟨hstate, hsmall, hbig⟩ := handoverTo_leaves (s := s.taken c) hsource hne hphase hthere
    refine ⟨(hnum _ (by decide)).trans hstate, fun ho => ?_, fun ho => ?_⟩
    · exact ⟨(congrArg Anchor.slewLsb hanchor).trans (hsmall ho).1, (hnum _ (by decide)).trans (hsmall ho).2⟩
    · exact ⟨(congrArg Anchor.phase hanchor).trans (hbig ho).1, (congrArg Anchor.offset hanchor).trans (hbig ho).2⟩

end Boundary

/-- Settles O29: EPOCH_OFFSET is the first write of an anchoring, and nothing that follows reaches it or the anchor; a
channel's fade-in is its own turn; a hand-over reports and removes the offset as a newly measured one. -/
theorem mediaTimeIsAnchored : Obligations.MediaTimeIsAnchored := by
  intro s _
  refine ⟨?_, ?_, ?_, ?_, ?_⟩
  · intro hphase hb hzero
    obtain ⟨hoffset, hanchor⟩ := anchorStep_leaves anchorBoundary s
    obtain ⟨hchange, happlied⟩ := anchorApply_leaves s (-s.units.anchor.offset) (-s.units.anchor.offset)
    rw [← does_anchorBoundary hphase hb hzero] at hchange happlied
    refine ⟨_, rfl, hoffset.trans hchange, ?_, ?_⟩
    · exact congrArg Anchor.phase (hanchor.trans happlied)
    · exact congrArg Anchor.anchored (hanchor.trans happlied)
  · intro hphase hsecond hb hlate
    have hperiod := does_anchorPeriodEnd hphase hsecond hb hlate
    have hkeep := periodEnd_frame (s := s)
    have hdoes : s.does (anchorStep anchorPeriodEnd) = (s.run (periodEnds s)).does (periodLock s) :=
      (anchorStep_of_count (by rw [hperiod, hkeep.num (by decide)])).trans hperiod
    refine ⟨_, rfl, ?_⟩
    change (s.does (anchorStep anchorPeriodEnd)).units.anchor.phase = _ ∧ (s.does (anchorStep anchorPeriodEnd)).num _ = _ ∧
      (s.does (anchorStep anchorPeriodEnd)).mode = _ ∧ (s.does (anchorStep anchorPeriodEnd)).store = _ ∧
      (_ → _ → (s.does (anchorStep anchorPeriodEnd)).nat _ = _)
    rw [hdoes]
    exact ⟨congrArg Anchor.phase anchor_periodEnd, num_sampleIndex_periodEnd, hkeep.mode, hkeep.store,
      nat_lockState_periodEnd⟩
  · intro hphase hb hlate
    refine ⟨_, rfl, ?_⟩
    change (s.does reanchorFadeIn).units.anchor.phase = 0 ∧ ∀ c < 16, ((s.does reanchorFadeIn).chan c).anchorMuted = false ∧
      (_ → _ → _ → _ → (s.does reanchorFadeIn).outState c = 2 ∧ ((s.does reanchorFadeIn).chan c).gc = _)
    rw [does_reanchorFadeIn hphase hb hlate]
    refine ⟨rfl, fun c hc => ?_⟩
    obtain ⟨hmute, hfade⟩ := fades_leave (s := s) hc
    exact ⟨hmute, fun hm hh => hfade hm (held_unmuted hh)⟩
  · intro ha hr hm hb hphase t ht
    obtain ⟨hoffset, hanchor⟩ := anchorStep_leaves firstAnchoring s
    obtain ⟨hchange, hperiod, hdone⟩ := firstAnchoring_leaves ha hr hm hb hphase ht
    exact ⟨_, rfl, hoffset.trans hchange, (congrArg Anchor.phase hanchor).trans hperiod, (congrArg Anchor.anchored hanchor).trans hdone⟩
  · intro d role n hserved hmode hb hw
    exact ⟨_, rfl, handoverChange_leaves (by omega) hserved hmode hb hw⟩

end Sys2Proof.Machine
end

section
/-!
Accepted writes of the clock entries: a snapshot, the time of the next anchoring, an increment, and the clear of a domain's fence
(R51, R58, R60, R65, R66, R72, R395).
-/

namespace Sys2Proof.Machine

/-! ### An accepted write that acts at once -/

/-- Effects that raise no event stand as they are, whoever has caused them. -/
theorem causedBy_of_quiet {n : Nat} {p : Phase} {s : State} (h : ∀ e ∈ p s, e.by n = e) : s.does (causedBy n p) = s.does p := by
  rw [State.does, causedBy, (List.map_congr_left h).trans (List.map_id _)]
  rfl

/-- An accepted write of an entry that takes effect now, and that is not stored: its own effect, and the answer (R395, R397). -/
theorem does_writeEntry {s : State} {w : EntryWrite} {k : Nat} {r : Row} (ha : s.Accepts w k) (hr : Dict.row k = some r)
    (heff : r.eff = .acc ∨ r.eff = .later) (hp : r.p = false) (hk : k ≠ Key.mode.MODE_REQUEST)
    (hres : reserved k w.value = w.value) (hz : ∀ s : State, s.changesAtCrossing k = false) :
    s.does (writeEntry k none w) = (s.does (causedBy w.session (entryDoes w.writer k w.value))).apply
      (.unit fun u => { u with answer := s.writeReply w.writer k none w.value }) := by
  obtain ⟨hserves, hstatus⟩ := ha
  have haccept : s.does (writeAccept w.writer k w.value) = s.does (entryTakes w.writer k w.value) := by
    have hphase : writeAccept w.writer k w.value s = entryTakes w.writer k w.value s := by
      unfold writeAccept
      rw [hr]
      rcases heff with heff | heff <;> simp only [heff]
    rw [State.does, hphase]
    rfl
  have hdo : s.does (writeDo w.writer k none w.value) = s.does (entryTakes w.writer k w.value) := by
    have hsteps : s.does (writeDo w.writer k none w.value) = s.run (writeDo w.writer k none w.value s) := rfl
    rw [hsteps, writeDo, if_pos hstatus]
    refine Eq.trans (State.does_phases_cons s _ _) ?_
    rw [State.does_phases_cons, State.does_phases_nil, if_neg (by simp [hk]), State.does_always, State.run_nil, haccept]
  have hpersist (x : State) : persist k x = [] := by
    rw [persist, hr]
    simp [hp]
  have hsteps : s.does (writeEntry k none w) = s.run (writeEntry k none w s) := rfl
  rw [hsteps, writeEntry, hserves]
  refine Eq.trans (State.does_phases_cons s _ _) ?_
  rw [State.does_phases_cons, State.does_phases_nil, State.does_always, hdo, entryTakes_of_plain hres hz, does_causedBy_pair,
    hpersist]
  rfl

/-- The status of a write that passes is not that of any test (R397). -/
theorem not_mem_of_firstFault {l : List Nat} (h : firstFault l = St.ok) {st : Nat} (hst : st ∈ testOrder) : st ∉ l := by
  intro hm
  unfold firstFault at h
  cases hf : testOrder.find? fun st => l.contains st with
  | none => exact absurd (List.find?_eq_none.1 hf st hst) (by simp [hm])
  | some st' =>
    rw [hf] at h
    have hmem := List.mem_of_find?_eq_some hf
    have hall : ∀ st ∈ testOrder, st ≠ St.ok := by decide
    exact hall st' hmem h

/-- An accepted value lies in the range of its entry (R397). -/
theorem inRange_of_accepts {s : State} {w : EntryWrite} {k : Nat} {r : Row} (ha : s.Accepts w k) (hr : Dict.row k = some r) :
    r.inRange w.value = true := by
  obtain ⟨-, hstatus⟩ := ha
  have hhead : firstFault (s.headFaults w.writer k none w.value) = St.ok := by
    unfold State.writeStatus at hstatus
    by_contra hne
    rw [if_pos hne] at hstatus
    exact hne hstatus
  have hout := not_mem_of_firstFault hhead (st := St.range) (by decide)
  by_contra hrange
  refine hout ?_
  rw [State.headFaults, hr]
  refine List.mem_append_right _ ?_
  rw [Bool.eq_false_iff.2 hrange]
  exact List.mem_singleton.2 rfl

/-! ### The entries -/

theorem quiet_snapshot (n : Nat) (s : State) : ∀ e ∈ snapshot s, e.by n = e := by
  intro e he
  simp only [snapshot, List.mem_append, List.mem_map, List.mem_singleton] at he
  rcases he with (rfl | ⟨d, -, rfl⟩) | rfl <;> rfl

theorem entryDoes_snapReq (w : Writer) : entryDoes w Key.snap.SNAP_REQ (.num 1) = snapshot := by
  simp [entryDoes, specialEffects, Key.snap.SNAP_REQ, Value.int]

/-- The time of the next anchoring is kept (R65, R66). -/
def keepTime (n : Nat) : Phase := fun s =>
  [.anchor fun a => { a with todSet := some n, todNow := a.todNow || s.num Key.ref.REF_SOURCE == 0 }]

theorem entryDoes_todSet (w : Writer) (n : Nat) : entryDoes w Key.ref.TOD_SET (.num n) = keepTime n := by
  simp [entryDoes, specialEffects, Key.ref.TOD_SET, Value.int]
  rfl

theorem entryDoes_inc (w : Writer) (n : Int) : entryDoes w Key.mtb.INC (.num n) = always [.num Key.mtb.INC n] := by
  simp [entryDoes, specialEffects, Key.mtb.INC, Effect.num]

theorem entryDoes_fenceClear (w : Writer) (n : Nat) :
    entryDoes w Key.fence.FENCE_CLEAR_CMD (.num n) = fenceClear 1 (n / 2 ^ 24) (n % 65536) := by
  simp [entryDoes, specialEffects, Key.fence.FENCE_CLEAR_CMD, Value.int]

/-! ### The clear of a domain's fence -/

section Clear
variable {s : State} {d : Nat}

theorem clearNames_domain (hd : d < 4) (hf : (s.tbase d).fenced = true) : s.clearNames 8 d = [d] := by
  have hne : d ≠ 0xFFFF := by omega
  rw [State.clearNames, if_neg hne, State.fencedOf, List.filter_comm, List.filter_beq,
    List.count_eq_one_of_mem List.nodup_range (List.mem_range.2 hd)]
  simp [hf]

/-- A fenced domain is cleared, and the clear is counted and reported (R72, R476). -/
theorem fenceClear_domain (hd : d < 4) (hf : (s.tbase d).fenced = true) : fenceClear 1 8 d s =
    dtbUnfence d s ++ [.bump Key.fence.CLEARS 1, .event Ev.FENCE_CLEARED (args16 [8, d, s.clearAnswer 8 d])] := by
  have hl := clearNames_domain hd hf
  unfold fenceClear
  rw [hl]
  simp only [List.isEmpty_cons, Bool.false_eq_true, if_false]
  rfl

/-- What the clear of a domain leaves, whichever session has caused it (R72, R476). -/
theorem fenceClear_leaves (hd : d < 4) (hf : (s.tbase d).fenced = true) (n : Nat) :
    ((s.does (causedBy n (fenceClear 1 8 d))).tbase d).fenced = false ∧
      (s.does (causedBy n (fenceClear 1 8 d))).num Key.fence.CLEARS = (s.num Key.fence.CLEARS + 1) % 2 ^ 32 ∧
      s.Frame [Key.fence.CLEARS, Key.evt.EVT_RAISED] (s.does (causedBy n (fenceClear 1 8 d))) := by
  have hevent : Effect.Within [Key.evt.EVT_RAISED] (fun u => Tbl.at {} u.tbases d)
      ((Effect.event Ev.FENCE_CLEARED (args16 [8, d, s.clearAnswer 8 d])).by n) :=
    (show Confined [Key.evt.EVT_RAISED] _ [_] by simp).by n _ (List.mem_singleton.2 rfl)
  have hdoes : s.does (causedBy n (fenceClear 1 8 d)) = ((s.does (dtbUnfence d)).apply (.bump Key.fence.CLEARS 1)).apply
      ((Effect.event Ev.FENCE_CLEARED (args16 [8, d, s.clearAnswer 8 d])).by n) := by
    rw [State.does, causedBy, fenceClear_domain hd hf]
    rfl
  have hunfence := (dtbUnfence_within d).frame s
  have hcount : Effect.Within [Key.fence.CLEARS] (fun _ => ()) (.bump Key.fence.CLEARS 1) := by simp
  rw [hdoes]
  refine ⟨?_, ?_, ?_⟩
  · have htb := hevent.units (fun _ _ _ _ _ _ => rfl) ((s.does (dtbUnfence d)).apply (.bump Key.fence.CLEARS 1))
    refine (congrArg TimeBase.fenced htb).trans ?_
    rw [State.apply_bump_units]
    exact fenced_dtbUnfence s d
  · rw [(hevent.frame _).num (by decide), State.num_bump _ (by decide +kernel), hunfence.num (by simp)]
  · exact ((hunfence.mono (by simp)).trans ((hcount.frame _).mono (by simp))).trans ((hevent.frame _).mono (by simp))

end Clear

/-! ### Commands that write -/

/-- An accepted write whose entry does `p`: what `p` leaves for the writer's session, and the answer. -/
theorem writes_of_effect {c : Instr} {k : Nat} {w : EntryWrite} {n : Int} {e : When} {p : Phase} {H : State → Prop}
    {P : State → State → Prop} (hexec : ∀ s, exec c s = s.goes (writeEntry k none w))
    (hrow : (Dict.row k).map (fun r => (r.eff, r.p)) = some (e, false)) (heff : e = .acc ∨ e = .later)
    (hk : k ≠ Key.mode.MODE_REQUEST) (hres : reserved k w.value = w.value) (hz : ∀ s : State, s.changesAtCrossing k = false)
    (hp : entryDoes w.writer k (.num n) = p)
    (h : ∀ s : State, s.Accepts w k → w.value = .num n → H s → ∀ a,
      P s ((s.does (causedBy w.session p)).apply (.unit fun u => { u with answer := a }))) : Writes c k w n H P := by
  intro s ha hv hH
  obtain ⟨r, hr, hrp⟩ := Option.map_eq_some_iff.1 hrow
  obtain ⟨rfl, hstored⟩ := Prod.mk.inj hrp
  have hdoes := does_writeEntry ha hr heff hstored hk hres hz
  rw [hv, hp] at hdoes
  refine ⟨s.does (writeEntry k none w), hexec s, ?_, ?_⟩
  · rw [hdoes]
    exact h s ha hv hH _
  · rw [hdoes, hv]
    rfl

theorem answer_frame (s : State) (a : Nat × Nat) : s.Frame [] (s.apply (.unit fun u => { u with answer := a })) :=
  Effect.Within.frame (π := fun _ => ()) (by simp) s

/-- An accepted number of an unsigned entry is one that the entry can hold. -/
theorem bounds_of_accepts {s : State} {w : EntryWrite} {k b : Nat} {n : Int} (ha : s.Accepts w k) (hv : w.value = .num n)
    (hw : Dict.width k = some (b, false)) : 0 ≤ n ∧ n < 2 ^ b := by
  obtain ⟨r, hr, hint⟩ := Option.bind_eq_some_iff.1 hw
  have hrange := inRange_of_accepts ha hr
  rw [hv, Row.inRange, Bool.and_eq_true] at hrange
  have hok := hrange.1
  split at hint
  · cases hint
  · have hint' : intOk b false n = true := by cases ht : r.ty <;> simp_all [Ty.ok, Ty.int]
    simpa [intOk] using hint'

/-- Settles O25: an accepted write of these entries is the entry's own effect and the answer, and nothing else. -/
theorem clockEntriesTakeTheirWrites : Obligations.ClockEntriesTakeTheirWrites := by
  refine ⟨fun w => ?_, fun w n => ?_, fun w n => ?_, fun d n role => ?_⟩
  · refine writes_of_effect (fun _ => rfl) (by decide +kernel) (.inl rfl) (by decide) rfl (fun _ => rfl)
      (entryDoes_snapReq w.writer) fun s _ _ _ a => ?_
    rw [causedBy_of_quiet (quiet_snapshot w.session s)]
    exact ⟨nat_snapMtb_snapshot s, fun d hd => nat_snapDtb_snapshot s hd, num_snapCount_snapshot s⟩
  · refine writes_of_effect (fun _ => rfl) (by decide +kernel) (.inr rfl) (by decide) rfl (fun _ => rfl)
      (entryDoes_todSet w.writer n) fun s _ _ _ a => ?_
    have hkeep : Phase.Within [] (fun _ => ()) (keepTime n) := fun s => by simp [keepTime]
    exact ⟨rfl, ((Phase.within_causedBy w.session hkeep).frame s).trans (answer_frame _ a)⟩
  · have hwidth : Dict.width Key.mtb.INC = some (40, false) := by decide +kernel
    refine writes_of_effect (fun _ => rfl) (by decide +kernel) (.inr rfl) (by decide) rfl (fun _ => rfl)
      (entryDoes_inc w.writer n) fun s ha hv _ a => ?_
    obtain ⟨h0, hlt⟩ := bounds_of_accepts ha hv hwidth
    have hinc : Effect.Within [Key.mtb.INC] (fun _ => ()) (.num Key.mtb.INC n) := by simp
    exact ⟨State.num_reg_of_lt hwidth s h0 hlt, (hinc.frame s).trans ((answer_frame _ a).mono (by simp))⟩
  · have hclass : (0x08000000 + d.val) / 2 ^ 24 = 8 := by omega
    have hdomain : (0x08000000 + d.val) % 65536 = d.val := by omega
    refine writes_of_effect (fun _ => rfl) (by decide +kernel) (.inl rfl) (by decide) rfl (fun _ => rfl)
      ((entryDoes_fenceClear _ _).trans (by rw [hclass, hdomain])) fun s _ _ hf a => ?_
    obtain ⟨hclear, hcount, hkeep⟩ := fenceClear_leaves d.isLt hf n
    exact ⟨hclear, hcount, hkeep.trans ((answer_frame _ a).mono (by simp))⟩

end Sys2Proof.Machine
end

section
/-!
What effects write, told by a property of the keys instead of a list of them: for phases whose keys depend on the state, as those of
object slots do.
-/

namespace Sys2Proof.Machine

variable {α : Type}

/-- The effect writes only entries whose key has `q`, and leaves the mode, the store and what `π` sees of the units. -/
def Effect.Only (q : Nat → Prop) (π : Units → α) : Effect → Prop
  | .reg k _ => q k
  | .bump k _ => q k
  | .orBits k _ => q k
  | .andNot k _ => q k
  | .save _ _ => False
  | .mode _ => False
  | .unit f => ∀ u, π (f u) = π u
  | .raise _ _ _ _ => q Key.evt.EVT_RAISED

def Units.onObj (u : Units) (i : Nat) (f : Obj → Obj) : Units := { u with objs := u.objs.upd {} i f }

section Named
variable {q : Nat → Prop} {π : Units → α} {k i : Nat}

@[simp] theorem Effect.only_bump {n : Int} : (Effect.bump k n).Only q π ↔ q k := .rfl
@[simp] theorem Effect.only_num {n : Int} : (Effect.num k n).Only q π ↔ q k := .rfl
@[simp] theorem Effect.only_nat {n : Nat} : (Effect.nat k n).Only q π ↔ q k := .rfl
@[simp] theorem Effect.only_event {c : Nat} {a : List Byte} : (Effect.event c a).Only q π ↔ q Key.evt.EVT_RAISED := .rfl
@[simp] theorem Effect.only_eventOnce {c sc : Nat} {a : List Byte} :
    (Effect.eventOnce c sc a).Only q π ↔ q Key.evt.EVT_RAISED := .rfl
@[simp] theorem Effect.only_stream {f : Stream → Stream} :
    (Effect.stream i f).Only q π ↔ ∀ u : Units, π (u.onStream i f) = π u := .rfl
@[simp] theorem Effect.only_obj {f : Obj → Obj} : (Effect.obj i f).Only q π ↔ ∀ u : Units, π (u.onObj i f) = π u := .rfl

end Named

section Effects
variable {q : Nat → Prop} {π : Units → α} {e : Effect}

theorem Effect.Only.within (h : e.Only q π) : e.Within e.writes π := by
  cases e with
  | save | mode | unit => exact h
  | _ => exact List.mem_singleton.2 rfl

theorem Effect.Only.mem_writes (h : e.Only q π) {k : Nat} (hk : k ∈ e.writes) : q k := by
  cases e with
  | save | mode | unit => exact absurd hk List.not_mem_nil
  | _ => exact List.mem_singleton.1 hk ▸ h

end Effects

/-- The phase writes only entries whose key has `q`, and leaves `π`, from every state. -/
def Phase.Only (q : Nat → Prop) (π : Units → α) (p : Phase) : Prop := ∀ s, ∀ e ∈ p s, e.Only q π

section Phases
variable {q : Nat → Prop} {π : Units → α} {p p' : Phase}

/-- Its effects lie within the list of all that they write. -/
theorem Phase.Only.confined (h : p.Only q π) (s : State) : Confined ((p s).flatMap Effect.writes) π (p s) := fun e he =>
  Effect.within_mono (fun _ hk => List.mem_flatMap.2 ⟨e, he, hk⟩) (h s e he).within

theorem Phase.Only.notMem (h : p.Only q π) (s : State) {k : Nat} (hk : ¬ q k) : k ∉ (p s).flatMap Effect.writes := fun hm => by
  obtain ⟨e, he, hke⟩ := List.mem_flatMap.1 hm
  exact hk ((h s e he).mem_writes hke)

theorem Phase.Only.num (h : p.Only q π) (s : State) {k : Nat} (hk : ¬ q k) : (s.does p).num k = s.num k :=
  ((h.confined s).frame s).num (h.notMem s hk)

theorem Phase.Only.mode (h : p.Only q π) (s : State) : (s.does p).mode = s.mode := ((h.confined s).frame s).mode

theorem Phase.Only.store (h : p.Only q π) (s : State) : (s.does p).store = s.store := ((h.confined s).frame s).store

theorem Phase.Only.units (h : p.Only q π) (hπ : EventBlind π) (s : State) : π (s.does p).units = π s.units :=
  (h.confined s).units hπ s

theorem Phase.Within.only {ks : List Nat} (h : Phase.Within ks π p) (hk : ∀ k ∈ ks, q k) : p.Only q π := by
  intro s e he
  have hw := h s e he
  cases e with
  | save | mode | unit => exact hw
  | _ => exact hk _ hw

@[simp] theorem Phase.only_always {es : List Effect} : (always es).Only q π ↔ ∀ e ∈ es, e.Only q π :=
  ⟨fun h => h State.reset, fun h _ => h⟩

@[simp] theorem Phase.only_ite {c : Prop} [Decidable c] :
    (if c then p else p').Only q π ↔ (c → p.Only q π) ∧ (¬ c → p'.Only q π) := by
  split <;> simp_all

theorem Phase.only_phases {ps : List Phase} (h : ∀ p ∈ ps, p.Only q π) : (phases ps).Only q π := by
  induction ps with
  | nil => exact fun _ _ he => absurd he List.not_mem_nil
  | cons p ps ih =>
    obtain ⟨hp, hps⟩ := List.forall_mem_cons.1 h
    exact fun s e he => (List.mem_append.1 he).elim (hp s e) (ih hps _ e)

theorem Phase.only_forAll {ι : Type} {l : List ι} {f : ι → Phase} (h : ∀ i ∈ l, (f i).Only q π) : (forAll l f).Only q π :=
  only_phases fun _ hp => by obtain ⟨i, hi, rfl⟩ := List.mem_map.1 hp; exact h i hi

end Phases

end Sys2Proof.Machine
end

section
/-!
The states of a subscription (Table 03-9): what a change of state writes and leaves, the end of a fence (R108, R111), and a path
that is down (R104).
-/

namespace Sys2Proof.Machine

variable {α : Type}

/-! ### The rows of a table of many indices -/

/-- The row of an entry is that of the first index of its table: every row of the area covers all the table's indices, or none. -/
theorem Dict.row_of_table {base n : Nat} (hrows : ∀ r ∈ Dict.area (base / 256),
      (r.base ≤ base ∧ base + n ≤ r.base + r.n) ∨ r.base + r.n ≤ base ∨ base + n ≤ r.base)
    {i : Nat} (hi : i < n) (harea : (base + i) / 256 = base / 256) {sub : Nat} (hsub : sub < 256) :
    Dict.row ((base + i) * 256 + sub) = Dict.row (base * 256 + sub) := by
  have hkey (b : Nat) : (b * 256 + sub) / 65536 = b / 256 ∧ (b * 256 + sub) / 256 = b ∧ (b * 256 + sub) % 256 = sub := by omega
  simp only [Dict.row, hkey, harea]
  refine List.find?_congr fun r hr => ?_
  have hindex : r.hasIndex (base + i) = r.hasIndex base := by
    have hrow := hrows r hr
    simp only [Row.hasIndex, decide_eq_decide]
    omega
  rw [hindex]

/-- The row of an entry of the stream tables is that of the first subscription (Table 03-10). -/
theorem row_stream {i : Nat} (hi : i < 128) {sub : Nat} (hsub : sub < 256) :
    Dict.row ((0x2180 + i) * 256 + sub) = Dict.row (0x2180 * 256 + sub) :=
  Dict.row_of_table (n := 128) (by decide) hi (by omega) hsub

/-- So is its width. -/
theorem width_stream {i : Nat} (hi : i < 128) {sub : Nat} (hsub : sub < 256) :
    Dict.width ((0x2180 + i) * 256 + sub) = Dict.width (0x2180 * 256 + sub) := by
  rw [Dict.width, row_stream hi hsub, Dict.width]

/-! ### A change of state -/

/-- What the channels that a subscription feeds write when its state changes (R177, R179). -/
def feedKeys : List Nat := Key.evt.EVT_RAISED :: (List.range 16).map Key.cin.NET_STATE

section State
variable {π : Units → α} {i : Nat}

theorem evtRaised_mem_feedKeys : Key.evt.EVT_RAISED ∈ feedKeys := List.mem_cons_self ..

theorem netUpdates_within (hc : ∀ u c f, π (Units.onChan u c f) = π u) :
    Phase.Within feedKeys π (forAll (List.range 16) netUpdate) := by
  refine Phase.within_forAll fun c hcr s => ?_
  have hkey : Key.cin.NET_STATE c ∈ feedKeys := List.mem_cons_of_mem _ (List.mem_map_of_mem hcr)
  simp [netUpdate, hc, hkey]

/-- A change of state writes the state, and what the channels it feeds write; unlike a re-anchor, which `setStream_within` serves, it
leaves the jitter buffers. -/
theorem setStream_within_feedKeys (hc : ∀ u c f, π (Units.onChan u c f) = π u) (i new : Nat) :
    Phase.Within (Key.st.STREAM_STATE i :: feedKeys) π (setStream i new) := by
  intro s
  have hnet := (netUpdates_within hc).mono (List.subset_cons_self (Key.st.STREAM_STATE i) feedKeys)
  refine confined_ite.2 ⟨fun _ => .nil, fun _ => Phase.within_phases ?_ s⟩
  simp [hnet, evtRaised_mem_feedKeys]

theorem streamState_notMem_feedKeys (i : Nat) : Key.st.STREAM_STATE i ∉ feedKeys := by
  simp only [feedKeys, List.mem_cons, List.mem_map, not_or, not_exists, not_and, Key.st.STREAM_STATE, Key.evt.EVT_RAISED,
    Key.cin.NET_STATE]
  exact ⟨by omega, fun c _ => by omega⟩

theorem width_streamState (hi : i < 128) : Dict.width (Key.st.STREAM_STATE i) = some (8, false) :=
  (width_stream hi (by decide)).trans (by decide +kernel)

/-- The state that a change sets is the one that stands afterwards. -/
theorem stState_setStream (hi : i < 128) {new : Nat} (hn : new < 256) (s : State) : (s.does (setStream i new)).stState i = new := by
  by_cases h : s.stState i = new
  · rw [State.does, setStream, if_pos h]
    exact h
  · have hevent : Effect.Within feedKeys (fun _ => ()) (.event Ev.STREAM_STATE_CHANGED (args16 [i, s.stState i, new])) := by
      simp [feedKeys]
    have hnet : Phase.Within feedKeys (fun _ => ()) (forAll (List.range 16) netUpdate) := netUpdates_within fun _ _ _ => rfl
    have hkey := streamState_notMem_feedKeys i
    rw [State.does, setStream, if_neg h]
    refine (congrArg (State.stState · i) (State.does_phases_cons s _ _)).trans ?_
    rw [State.does_phases_cons, State.does_phases_nil, State.does_always, State.run_cons, State.run_cons, State.run_nil,
      State.stState, (hnet.frame _).nat hkey, (hevent.frame _).nat hkey, State.nat_reg_of_lt (width_streamState hi) s hn]

end State

theorem State.stream_apply_stream (s : State) (i j : Nat) (f : Stream → Stream) :
    (s.apply (.stream i f)).stream j = if i = j then f (s.stream i) else s.stream j := Tbl.at_upd ..

section Fence
variable {s : State} {i : Nat}

/-- A subscription in RECEIVING whose play blocks stay empty is LOST (R108). -/
theorem does_streamLost (hstate : s.stState i = 2) (hempty : s.nat Key.eng.LOSS_BLOCKS ≤ (s.stream i).emptyBlocks) :
    s.does (streamLost i) = s.does (setStream i 3) := by
  rw [State.does, streamLost, if_pos ⟨hstate, hempty⟩]
  rfl

/-- What the end of a fence does before the state changes: the fence is forgotten, and the jitter buffer is emptied unless the other
member of the pair goes on (R111). -/
def State.unfenced (s : State) (i : Nat) : State :=
  (s.apply (.stream i fun x => { x with fencedAt := none, malTimes := [] })).run
    (if s.partnerRuns i then [] else [.stream i fun x => { x with frames := [], emptyBlocks := 0, present := 0 }])

theorem does_streamUnfence {cause : Nat} (hf : s.stState i = 4) (hc : cause ≠ 2) : s.does (streamUnfence i cause) =
    ((s.unfenced i).does (setStream i 1)).apply (.event Ev.STREAM_UNFENCED (args16 [i, cause])) := by
  rw [State.does, streamUnfence, if_neg (not_not.2 hf), if_neg hc]
  refine (State.does_phases_cons s _ _).trans ?_
  rw [State.does_phases_cons, State.does_phases_cons, State.does_phases_cons, State.does_phases_nil, State.does_always,
    State.does_always, State.does_always, State.run_cons, State.run_cons, State.run_nil, State.run_nil, ← State.unfenced]

theorem streamUnfence_within {π : Units → α} (hc : ∀ u c f, π (Units.onChan u c f) = π u) (hs : ∀ u f, π (Units.onStream u i f) = π u)
    (cause : Nat) : Phase.Within (Key.st.STREAM_STATE i :: feedKeys) π (streamUnfence i cause) := by
  intro s
  have hset (new : Nat) := setStream_within_feedKeys hc i new
  refine confined_ite.2 ⟨fun _ => .nil, fun _ => Phase.within_phases ?_ s⟩
  simp [hset, hs, evtRaised_mem_feedKeys]

/-- What the end of a fence leaves (R111). -/
theorem streamUnfence_leaves {cause : Nat} (hi : i < 128) (hf : s.stState i = 4) (hc : cause ≠ 2) :
    (s.does (streamUnfence i cause)).stState i = 1 ∧
      (s.partnerRuns i = false → ((s.does (streamUnfence i cause)).stream i).frames = []) ∧
      ((s.does (streamUnfence i cause)).stream i).fencedAt = none := by
  have hevent : Effect.Within feedKeys (fun u => Tbl.at {} u.streams i) (.event Ev.STREAM_UNFENCED (args16 [i, cause])) := by
    simp [feedKeys]
  have hset := setStream_within_feedKeys (π := fun u => Tbl.at {} u.streams i) (fun _ _ _ => rfl) i 1
  have hstream : (s.does (streamUnfence i cause)).stream i = (s.unfenced i).stream i := by
    rw [does_streamUnfence hf hc]
    exact (hevent.units (fun _ _ _ _ _ _ => rfl) _).trans (hset.units (fun _ _ _ _ _ _ => rfl) _)
  rw [hstream]
  refine ⟨?_, fun hp => ?_, ?_⟩
  · rw [does_streamUnfence hf hc, State.stState, (hevent.frame _).nat (streamState_notMem_feedKeys i)]
    exact stState_setStream hi (by decide) _
  · rw [State.unfenced, hp]
    simp [State.stream_apply_stream]
  · rw [State.unfenced]
    split <;> simp [State.stream_apply_stream]

/-- An instant that has passed has come. -/
theorem any_of_passed {t : Option Nat} {d : Nat} (h : s.passed t d = true) : t.any (fun f => decide (f + d ≤ s.mtbNs)) = true := by
  cases t with
  | none => simp [State.passed] at h
  | some t => simpa [State.passed] using h

theorem streamRetryAt_due {t : Nat} (hretry : s.nat Key.eng.FENCE_RETRY ≠ 0)
    (hdue : (s.stream i).fencedAt.any (fun f => decide (f + s.nat Key.eng.FENCE_RETRY * 1000000000 ≤ t)) = true) :
    streamRetryAt i t s = streamUnfence i 0 s := by
  rw [streamRetryAt]
  rw [if_pos ⟨hretry, hdue⟩]

/-- A fence whose retry is due ends (R111). -/
theorem does_streamRetry (hretry : s.nat Key.eng.FENCE_RETRY ≠ 0)
    (hpassed : s.passed (s.stream i).fencedAt (s.nat Key.eng.FENCE_RETRY * 1000000000) = true) :
    s.does (streamRetry i) = s.does (streamUnfence i 0) :=
  congrArg s.run (streamRetryAt_due hretry (any_of_passed hpassed))

end Fence

/-! ### Paths of a pair -/

theorem width_pathState {i : Nat} (hi : i < 128) : Dict.width (Key.st.PATH_STATE i) = some (8, false) :=
  (width_stream hi (by decide)).trans (by decide +kernel)

/-- A path that delivers nothing for LOSS_BLOCKS block periods is down, and nothing else changes (R104). -/
theorem pathDown_leaves {s : State} {i : Nat} (hi : i < 128) (hpair : (s.secondary (s.primary i)).isSome = true)
    (hr : s.receives i = true) (hup : s.flag (Key.st.PATH_STATE i) = false)
    (hlast : ((s.stream i).pathLast.any fun t => s.expired t (s.nat Key.eng.LOSS_BLOCKS * s.B * 1000000000 / s.fs)) = true) :
    (s.does (pathDown i)).num (Key.st.PATH_STATE i) = 1 ∧
      s.Frame [Key.st.PATH_STATE i, Key.evt.EVT_RAISED] (s.does (pathDown i)) := by
  have hphase : pathDown i s = [.num (Key.st.PATH_STATE i) 1, .event Ev.PATH_DOWN (args16 [i])] := by
    simp [pathDown, hr, hpair, hup, hlast]
  have hevent : Confined [Key.evt.EVT_RAISED] (fun _ => ()) [.event Ev.PATH_DOWN (args16 [i])] := by simp
  have hall : Confined [Key.st.PATH_STATE i, Key.evt.EVT_RAISED] (fun _ => ()) (pathDown i s) := by simp [hphase]
  have hkey : Key.st.PATH_STATE i ∉ [Key.evt.EVT_RAISED] := by simp [Key.st.PATH_STATE, Key.evt.EVT_RAISED]; omega
  refine ⟨?_, hall.frame s⟩
  rw [State.does, hphase, State.run_cons, hevent.num_written (width_pathState hi) hkey]
  rfl

end Sys2Proof.Machine
end

section
/-!
The entries that a packet reaches after it has been counted (R97, R100-R104, R110, R111): their subindices are not that of
RX_PACKETS, in the stream tables, the object slots, the layout and the channels that the subscription feeds.
-/

namespace Sys2Proof.Machine

variable {α : Type}

/-! ### States and fences -/

section States
variable {i t : Nat}

theorem feedKeys_sub : ∀ k ∈ Key.st.STREAM_STATE i :: feedKeys, k % 256 ≠ 2 := by
  simp [feedKeys, Key.st.STREAM_STATE, Key.evt.EVT_RAISED, Key.cin.NET_STATE]

theorem setStream_only (new : Nat) : (setStream i new).Only (· % 256 ≠ 2) (fun _ => ()) :=
  (setStream_within_feedKeys (fun _ _ _ => rfl) i new).only feedKeys_sub

theorem streamRetryAt_only : (streamRetryAt i t).Only (· % 256 ≠ 2) (fun _ => ()) := by
  intro s
  have hends : (streamUnfence i 0).Only (· % 256 ≠ 2) (fun _ => ()) :=
    (streamUnfence_within (fun _ _ _ => rfl) (fun _ _ => rfl) 0).only feedKeys_sub
  simp only [streamRetryAt]
  split
  · exact hends s
  · simp

theorem streamFence_only (code : Nat) : (streamFence i code t).Only (· % 256 ≠ 2) (fun _ => ()) := by
  intro s
  refine Phase.only_phases ?_ s
  have hkeys : Key.st.FENCE_COUNT i % 256 ≠ 2 ∧ Key.evt.EVT_RAISED % 256 ≠ 2 := by
    simp [Key.st.FENCE_COUNT, Key.evt.EVT_RAISED]
  by_cases hp : s.partnerRuns i = true
  · simp [setStream_only, hp, hkeys]
  · simp [setStream_only, hp, hkeys]

theorem streamMalformed_only (code : Nat) : (streamMalformed i code t).Only (· % 256 ≠ 2) (fun _ => ()) := by
  intro s
  refine Phase.only_phases ?_ s
  simp [streamFence_only, Key.st.MALFORMED, Key.st.LAST_MALFORMED]

end States

/-! ### Margins, paths and sources -/

/-- A part of the units that what a packet notes of itself leaves: it sees no more of the streams than their jitter buffers. -/
def NoteBlind (π : Units → α) : Prop :=
  ∀ u i (f : Stream → Stream), (∀ x, (f x).frames = x.frames) → π (Units.onStream u i f) = π u

section Notes
variable {π : Units → α} {i x : Nat}

theorem pathDiff_only (h : NoteBlind π) (a : Nat) (hx : x ∉ [5, 12]) : (pathDiff a).Only (· % 256 ≠ x) π := by
  have hkeys : Key.evt.EVT_RAISED % 256 ≠ x ∧ Key.st.PATH_DIFF a % 256 ≠ x := by
    simpa [Key.st.PATH_DIFF, Key.evt.EVT_RAISED, eq_comm] using hx
  obtain ⟨hevent, hdiff⟩ := hkeys
  have hskew (b : Bool) (u : Units) : π (u.onStream a fun x => { x with skewed := b }) = π u := h u a _ fun _ => rfl
  intro s
  simp only [pathDiff]
  split
  · simp
  split
  · simp
  refine List.forall_mem_append.2 ⟨by simpa using hdiff, ?_⟩
  split
  · simpa [hskew] using hevent
  split
  · simp [hskew]
  · simp

theorem pathArrives_only (h : NoteBlind π) (m : Int) (at' : Nat) (hx : x ∉ [5, 12]) :
    (pathArrives i m at').Only (· % 256 ≠ x) π := by
  have hdiff : (readP (fun s => s.primary i) pathDiff).Only (· % 256 ≠ x) π := fun s => pathDiff_only h _ hx s
  refine Phase.only_phases ?_
  simp only [List.forall_mem_cons, Phase.only_always, Effect.only_stream]
  exact ⟨⟨fun u => h u i _ fun _ => rfl, by simp⟩, hdiff, by simp⟩

theorem pathDelivers_only (h : NoteBlind π) (at' : Nat) (hx : x ∉ [5, 11]) : (pathDelivers i at').Only (· % 256 ≠ x) π := by
  have hkeys : Key.evt.EVT_RAISED % 256 ≠ x ∧ Key.st.PATH_STATE i % 256 ≠ x := by
    simpa [Key.st.PATH_STATE, Key.evt.EVT_RAISED, eq_comm] using hx
  obtain ⟨hevent, hpath⟩ := hkeys
  intro s
  refine List.forall_mem_cons.2 ⟨Effect.only_stream.2 fun u => h u i _ fun _ => rfl, ?_⟩
  split
  · simpa using ⟨hpath, hevent⟩
  · simp

/-- The path of a VALID or DUPLICATE packet: its arrival and its delivery (R104). -/
theorem pathTakes_only (h : NoteBlind π) (m : Int) (at' : Nat) (hx : x ∉ [5, 11, 12]) :
    (phases [pathArrives i m at', pathDelivers i at']).Only (· % 256 ≠ x) π := by
  simp only [List.mem_cons, List.not_mem_nil, not_or] at hx
  obtain ⟨h5, h11, h12, -⟩ := hx
  refine Phase.only_phases ?_
  simp [pathArrives_only h, pathDelivers_only h, h5, h11, h12]

theorem packetSsrc_only (h : NoteBlind π) (ssrc : Nat) (hx : x ∉ [5, 13, 14]) : (packetSsrc i ssrc).Only (· % 256 ≠ x) π := by
  have hkeys : Key.evt.EVT_RAISED % 256 ≠ x ∧ Key.st.SSRC i % 256 ≠ x ∧ Key.st.SSRC_CHANGES i % 256 ≠ x := by
    simpa [Key.evt.EVT_RAISED, Key.st.SSRC, Key.st.SSRC_CHANGES, eq_comm] using hx
  obtain ⟨hevent, hssrc, hchanges⟩ := hkeys
  have hseen (u : Units) : π (u.onStream i fun x => { x with ssrcSeen := some ssrc }) = π u := h u i _ fun _ => rfl
  intro s
  have hchanged (c : Bool) : ∀ e ∈ (if c then [.bump (Key.st.SSRC_CHANGES i) 1, .event Ev.SSRC_CHANGED (args16 [i] ++ le 4 ssrc)]
      else [] : List Effect), e.Only (· % 256 ≠ x) π := by
    cases c <;> simp [hchanges, hevent]
  exact List.forall_mem_append.2 ⟨by simp [hseen, hssrc], hchanged _⟩

/-- The margin of a packet writes MIN_MARGIN alone (Table 03-10). -/
theorem marginNote_within (h : NoteBlind π) (t : Nat) (margin : Int) :
    Phase.Within [Key.st.MIN_MARGIN i] π (marginNote i t margin) := by
  have hroll : Phase.Within [Key.st.MIN_MARGIN i] π (marginRoll i) := fun s => by
    have hsec (n : Nat) (u : Units) : π (u.onStream i fun x => { x with marginSec := n, margin := none }) = π u :=
      h u i _ fun _ => rfl
    simp [marginRoll, hsec]
  refine Phase.within_phases (List.forall_mem_cons.2 ⟨hroll, List.forall_mem_singleton.2 fun s => ?_⟩)
  dsimp only
  split
  · exact confined_cons.2 ⟨fun u => h u i _ fun _ => rfl, .nil⟩
  split
  · simp
  · exact .nil

end Notes

/-! ### Pairs and metadata -/

section Pairs
variable {i a b t : Nat}

theorem undoTake_only (u : Undo) : (undoTake a b u).Only (· % 256 ≠ 2) (fun _ => ()) := by
  intro s
  refine List.forall_mem_append.2 ⟨by simp [Key.st.LAST_SCENE_SEQ, Key.st.SSRC, Key.st.SSRC_CHANGES], fun e he => ?_⟩
  obtain ⟨x, -, hx⟩ := List.mem_flatMap.1 he
  simp only [List.mem_cons, List.not_mem_nil, or_false] at hx
  rcases hx with rfl | rfl | rfl | rfl <;> simp [Key.ren.META_LATE_TOTAL, Key.obj.META_LATE, Key.obj.META_OVERFLOW]

theorem rivalYields_only (at' : Nat) (taken : List Int) (late : Nat) :
    (rivalYields a at' taken late).Only (· % 256 ≠ 2) (fun _ => ()) := by
  intro s
  simp only [rivalYields]
  split
  · simp
  split
  · simp
  refine Phase.only_phases (List.forall_mem_cons.2 ⟨?_, List.forall_mem_singleton.2 ?_⟩) s
  · simp [Key.st.VALID, Key.st.LATE_SAMPLES, Key.st.DUPLICATE]
  split
  · exact Phase.only_ite.2 ⟨fun _ => undoTake_only _, by simp⟩
  · simp

/-- A record is counted where it is late, and then replaces, precedes, is dropped or follows what is pending (R119, R120). -/
theorem metaDeliver_only (o p : Nat) (m : MetaRec) : (metaDeliver t o p m).Only (· % 256 ≠ 2) (fun _ => ()) := by
  intro s
  have hkeys : Key.obj.META_LATE o % 256 ≠ 2 ∧ Key.ren.META_LATE_TOTAL % 256 ≠ 2 ∧ Key.obj.META_OVERFLOW o % 256 ≠ 2 ∧
      Key.evt.EVT_RAISED % 256 ≠ 2 := by
    simp [Key.obj.META_LATE, Key.ren.META_LATE_TOTAL, Key.obj.META_OVERFLOW, Key.evt.EVT_RAISED]
  simp only [metaDeliver]
  split
  · simp
  cases decide (p / s.B < s.lateBlock t)
  all_goals
    simp only [Bool.false_eq_true, if_false, if_true]
    split
    · simp [metaLate, hkeys]
    split
    · simp [metaLate, hkeys]
    split
    · simp [metaLate, hkeys]
    · simp [metaLate, hkeys]

theorem packetMeta_only (u : Uop) (p : List Byte) (m : Int) : (packetMeta t i u p m).Only (· % 256 ≠ 2) (fun _ => ()) := by
  have hone (j : Nat) : Phase.Only (· % 256 ≠ 2) (fun _ => ()) (fun s => match s.slotOf (s.primary i) (u.first + j) with
      | none => []
      | some q => metaDeliver t q (m + u.offset + s.nL).toNat (uopMeta u p j) s) := fun s => by
    dsimp only
    split
    · simp
    · exact metaDeliver_only _ _ _ s
  refine Phase.only_phases (List.forall_mem_cons.2 ⟨fun s => ?_, List.forall_mem_cons.2 ⟨?_, List.forall_mem_singleton.2 ?_⟩⟩)
  · simp [layoutNote]
  · simp [Key.st.LAST_SCENE_SEQ]
  · exact Phase.only_ite.2 ⟨fun _ => Phase.only_forAll fun j _ => hone j, by simp⟩

/-! ### The packet -/

theorem noteBlind_unit : NoteBlind fun _ => () := fun _ _ _ _ => rfl

/-- A packet that passed every check, of whichever class (R100). -/
theorem packetPlace_only (at' : Nat) (udp p : List Byte) : (packetPlace at' i udp p).Only (· % 256 ≠ 2) (fun _ => ()) := by
  intro s
  have hpath (m : Int) := pathTakes_only (i := i) (x := 2) noteBlind_unit m at' (by decide)
  have harrive (m : Int) := pathArrives_only (i := i) (x := 2) noteBlind_unit m at' (by decide)
  have hssrc (n : Nat) := packetSsrc_only (i := i) (x := 2) noteBlind_unit n (by decide)
  have hmargin (t : Nat) (n : Int) : (marginNote i t n).Only (· % 256 ≠ 2) (fun _ => ()) :=
    (marginNote_within noteBlind_unit t n).only (by simp [Key.st.MIN_MARGIN])
  have hundo (a : Nat) : (undoNote at' a i).Only (· % 256 ≠ 2) (fun _ => ()) := fun s => by simp [undoNote]
  have hkeys : Key.st.FOREIGN_OBJ_PKTS i % 256 ≠ 2 ∧ Key.st.DUPLICATE i % 256 ≠ 2 ∧ Key.st.EARLY i % 256 ≠ 2 ∧
      Key.st.LATE i % 256 ≠ 2 ∧ Key.st.VALID i % 256 ≠ 2 ∧ Key.st.LATE_SAMPLES i % 256 ≠ 2 := by
    simp [Key.st.FOREIGN_OBJ_PKTS, Key.st.DUPLICATE, Key.st.EARLY, Key.st.LATE, Key.st.VALID, Key.st.LATE_SAMPLES]
  have hmark (a : Nat) (l : List (Int × List (Nat × Int))) :
      ∀ e ∈ (if a = i then [] else l.map fun x => Effect.stream i fun y => { y with frames := bufPut y.frames { idx := x.1 } }),
        e.Only (· % 256 ≠ 2) (fun _ => ()) := by
    split
    · simp
    · exact List.forall_mem_map.2 fun _ _ _ => rfl
  unfold packetPlace
  refine Phase.only_phases (List.forall_mem_cons.2 ⟨?_, List.forall_mem_singleton.2 (Phase.only_ite.2 ⟨fun _ => ?_, fun _ => ?_⟩)⟩) s
  · refine Phase.only_always.2 ?_
    split <;> simp [hkeys]
  · exact Phase.only_phases (by simp [hpath, hkeys])
  refine Phase.only_phases (List.forall_mem_cons.2 ⟨hmargin _ _, List.forall_mem_singleton.2 ?_⟩)
  refine Phase.only_ite.2 ⟨fun _ => Phase.only_phases (by simp [harrive, hkeys]), fun _ => ?_⟩
  refine Phase.only_ite.2 ⟨fun _ => Phase.only_phases (by simp [harrive, hkeys]), fun _ => ?_⟩
  refine Phase.only_ite.2 ⟨fun _ => Phase.only_phases ?_, fun _ => Phase.only_phases ?_⟩
  · simp only [List.forall_mem_cons, Phase.only_always]
    exact ⟨⟨by simp [hkeys], hmark _ _⟩, hpath _, by simp⟩
  · simp only [List.forall_mem_cons, Phase.only_always, List.forall_mem_append]
    exact ⟨rivalYields_only _ _ _, ⟨hmark _ _, by simp [hkeys], by simp [hkeys], by simp, by simp⟩,
      Phase.only_ite.2 ⟨by simp, fun _ => hundo _⟩, hssrc _, Phase.only_ite.2 ⟨fun _ => packetMeta_only _ _ _, by simp⟩, hpath _,
      by simp⟩

end Pairs

end Sys2Proof.Machine
end

section
/-!
A packet that a subscription receives: it is counted (R100), and one of channels that is in order and brings a frame is VALID and
fills the jitter buffer (R92, R93, R96, R97, R99, R100).
-/

namespace Sys2Proof.Machine

variable {s : State} {i at' : Nat} {udp p : List Byte}

/-! ### The count -/

theorem width_rxPackets (hi : i < 128) : Dict.width (Key.st.RX_PACKETS i) = some (32, false) :=
  (width_stream hi (by decide)).trans (by decide +kernel)

theorem width_valid (hi : i < 128) : Dict.width (Key.st.VALID i) = some (32, false) :=
  (width_stream hi (by decide)).trans (by decide +kernel)

/-- The engine takes the packet from its queue, which is a MAC's (R82, log 92). -/
theorem engineTake_within {α : Type} {π : Units → α} (h : ∀ u m f, π (Units.onMac u m f) = π u) :
    Phase.Within [] π (engineTake i udp) := by
  intro s
  unfold engineTake
  split <;> simp [h]

/-- The state in which a packet is looked at: it is taken from the queue, and counted (R97, R100). -/
def State.counted (s : State) (i : Nat) (udp : List Byte) : State :=
  (s.does (engineTake i udp)).apply (.bump (Key.st.RX_PACKETS i) 1)

theorem counted_frame : s.Frame [Key.st.RX_PACKETS i] (s.counted i udp) := by
  have hbump : Effect.Within [Key.st.RX_PACKETS i] (fun _ => ()) (.bump (Key.st.RX_PACKETS i) 1) := by simp
  exact (((engineTake_within (π := fun _ => ()) fun _ _ _ => rfl).frame s).mono (List.nil_subset _)).trans (hbump.frame _)

/-- What becomes of a packet that has been counted: it is ignored by a fenced subscription, malformed, or placed (R100, R110, R519). -/
def packetJudged (at' i : Nat) (udp : List Byte) (ok : Bool) : Phase := fun s =>
  if s.stState i = 4 then []
  else match s.malformed i udp ok with
    | some code => streamMalformed i code at' s
    | none => packetPlace at' i udp ((rtpPayload udp).getD []) s

theorem packetJudged_only (ok : Bool) : (packetJudged at' i udp ok).Only (· % 256 ≠ 2) (fun _ => ()) := by
  intro s
  unfold packetJudged
  split
  · simp
  split
  · exact streamMalformed_only _ s
  · exact packetPlace_only _ _ _ s

/-- A subscription that receives takes the packet, counts it, ends a fence whose retry is due, and judges the packet (R11, R111). -/
theorem does_streamPacket (hr : s.receives i = true) (ok : Bool) :
    s.does (phases [engineTake i udp, streamPacket (s.arrival i udp) i udp ok]) =
      ((s.counted i udp).does (streamRetryAt i (s.arrival i udp))).does (packetJudged (s.arrival i udp) i udp ok) := by
  have hkeep := (engineTake_within (i := i) (udp := udp) (π := fun _ => ()) fun _ _ _ => rfl).frame s
  have hr' : (s.does (engineTake i udp)).receives i = true := by
    simpa only [State.receives, State.flag, State.primary, hkeep.num List.not_mem_nil, hkeep.nat List.not_mem_nil, hkeep.mode] using hr
  have hphase : (s.does (engineTake i udp)).does (streamPacket (s.arrival i udp) i udp ok) =
      (s.does (engineTake i udp)).does (phases [always [.bump (Key.st.RX_PACKETS i) 1], streamRetryAt i (s.arrival i udp),
        packetJudged (s.arrival i udp) i udp ok]) := by
    rw [State.does, streamPacket, hr']
    rfl
  rw [State.does_phases_cons, State.does_phases_cons, State.does_phases_nil, hphase, State.does_phases_cons, State.does_phases_cons,
    State.does_phases_cons, State.does_phases_nil]
  rfl

/-- A packet that a subscription receives is counted, whatever becomes of it (R100, R112). -/
theorem streamPacket_leaves (hi : i < 128) (hr : s.receives i = true) (ok : Bool) :
    let t := s.does (phases [engineTake i udp, streamPacket (s.arrival i udp) i udp ok])
    t.num (Key.st.RX_PACKETS i) = (s.num (Key.st.RX_PACKETS i) + 1) % 2 ^ 32 ∧ t.mode = s.mode ∧ t.store = s.store := by
  have hrx : ¬ (Key.st.RX_PACKETS i % 256 ≠ 2) := by simp [Key.st.RX_PACKETS]
  have hretry := streamRetryAt_only (i := i) (t := s.arrival i udp)
  have hjudged := packetJudged_only (i := i) (at' := s.arrival i udp) (udp := udp) ok
  have hkeep := (engineTake_within (i := i) (udp := udp) (π := fun _ => ()) fun _ _ _ => rfl).frame s
  have hcounted := counted_frame (s := s) (i := i) (udp := udp)
  rw [does_streamPacket hr]
  refine ⟨?_, ?_, ?_⟩
  · rw [hjudged.num _ hrx, hretry.num _ hrx, State.counted, State.num_bump _ (width_rxPackets hi), hkeep.num List.not_mem_nil]
  · rw [hjudged.mode, hretry.mode, hcounted.mode]
  · rw [hjudged.store, hretry.store, hcounted.store]

/-! ### What a packet finds -/

/-- The entries that the classification of a packet of subscription `i` reads, beside those that pair subscriptions. -/
def packetReads (i : Nat) : List Nat :=
  [Key.st.STREAM_STATE i, Key.sub.KIND i, Key.sub.ENCODING i, Key.sub.PAIR i, Key.sub.PAYLOAD_TYPE i, Key.sub.CHANNELS i,
    Key.sub.PTIME i, Key.sub.RTP_OFFSET i, Key.sub.OBJ_FIRST i, Key.sub.OBJ_COUNT i, Key.mtb.FS_SELECT, Key.mtb.EPOCH_OFFSET,
    Key.eng.LINK_OFFSET]

/-- The states are alike for a packet of subscription `i`: the entries that it reads, and the counter. -/
structure State.PacketAlike (s t : State) (i : Nat) : Prop where
  num : ∀ k ∈ packetReads i, t.num k = s.num k
  pair : ∀ j < 128, t.num (Key.sub.ENABLE j) = s.num (Key.sub.ENABLE j) ∧ t.num (Key.sub.PAIR j) = s.num (Key.sub.PAIR j)
  mtb : t.mtb = s.mtb


namespace State.PacketAlike
variable {t : State}

theorem of_frame (h : s.Frame [Key.st.RX_PACKETS i] t) (hmtb : t.mtb = s.mtb) : s.PacketAlike t i := by
  have hreads : ∀ k ∈ packetReads i, k ∉ [Key.st.RX_PACKETS i] := by
    simp only [packetReads, List.forall_mem_cons, List.mem_singleton, Key.st.RX_PACKETS, Key.st.STREAM_STATE, Key.sub.KIND,
      Key.sub.ENCODING, Key.sub.PAIR, Key.sub.PAYLOAD_TYPE, Key.sub.CHANNELS, Key.sub.PTIME, Key.sub.RTP_OFFSET, Key.sub.OBJ_FIRST,
      Key.sub.OBJ_COUNT, Key.mtb.FS_SELECT, Key.mtb.EPOCH_OFFSET, Key.eng.LINK_OFFSET]
    simp
    omega
  refine ⟨fun k hk => h.num (hreads k hk), fun j hj => ⟨h.num ?_, h.num ?_⟩, hmtb⟩
  · simp only [List.mem_singleton, Key.sub.ENABLE, Key.st.RX_PACKETS]; omega
  · simp only [List.mem_singleton, Key.sub.PAIR, Key.st.RX_PACKETS]; omega

variable (h : s.PacketAlike t i)
include h

theorem nat {k : Nat} (hk : k ∈ packetReads i) : t.nat k = s.nat k := by rw [State.nat_eq_num, h.num k hk, State.nat_eq_num]

theorem stState : t.stState i = s.stState i := h.nat (by simp [packetReads])
theorem kind : t.num (Key.sub.KIND i) = s.num (Key.sub.KIND i) := h.num _ (by simp [packetReads])
theorem primary : t.primary i = s.primary i := by
  simp only [State.primary, h.nat (k := Key.sub.PAIR i) (by simp [packetReads])]
theorem fs : t.fs = s.fs := by simp only [State.fs, h.num Key.mtb.FS_SELECT (by simp [packetReads])]
theorem B : t.B = s.B := by simp only [State.B, h.num Key.mtb.FS_SELECT (by simp [packetReads])]
theorem mtbNs : t.mtbNs = s.mtbNs := by rw [State.mtbNs, h.mtb, State.mtbNs]
theorem now : t.now = s.now := by simp only [State.now, h.mtbNs, h.num Key.mtb.EPOCH_OFFSET (by simp [packetReads])]
theorem presented (at' : Nat) : t.presented at' = s.presented at' := by simp only [State.presented, h.now, h.mtbNs]
theorem nL : t.nL = s.nL := by simp only [State.nL, h.fs, h.nat (k := Key.eng.LINK_OFFSET) (by simp [packetReads])]
theorem mCut (n : Nat) : t.mCut n = s.mCut n := by simp only [State.mCut, h.fs, h.B, h.nL]
theorem depth : t.depth = s.depth := by simp only [State.depth, h.fs]
theorem chanWidth : t.chanWidth i = s.chanWidth i := by
  simp only [State.chanWidth, h.num (Key.sub.ENCODING i) (by simp [packetReads])]
theorem words : t.words i = s.words i := by
  simp only [State.words, h.kind, h.nat (k := Key.sub.OBJ_COUNT i) (by simp [packetReads]),
    h.nat (k := Key.sub.CHANNELS i) (by simp [packetReads])]
theorem unwrap (n : Nat) : t.unwrap i n = s.unwrap i n := by
  simp only [State.unwrap, State.sampleIndex, h.now, h.fs, h.nat (k := Key.sub.RTP_OFFSET i) (by simp [packetReads])]

theorem packetFrames : t.packetFrames i udp p = s.packetFrames i udp p := by
  have hwords : t.packetWords i p = s.packetWords i p := by
    simp only [State.packetWords, h.kind, h.chanWidth, h.nat (k := Key.sub.OBJ_FIRST i) (by simp [packetReads]),
      h.nat (k := Key.sub.OBJ_COUNT i) (by simp [packetReads]), h.nat (k := Key.sub.CHANNELS i) (by simp [packetReads])]
  simp only [State.packetFrames, hwords, h.unwrap]

theorem malformed (ok : Bool) : t.malformed i udp ok = s.malformed i udp ok := by
  simp only [State.malformed, h.kind, h.chanWidth, h.fs, h.nat (k := Key.sub.PTIME i) (by simp [packetReads]),
    h.nat (k := Key.sub.PAYLOAD_TYPE i) (by simp [packetReads]), h.nat (k := Key.sub.CHANNELS i) (by simp [packetReads])]

end State.PacketAlike

/-- A subscription has no secondary where no other enabled one names it (R102). -/
theorem secondary_eq_none {a : Nat} : s.secondary a = none ↔
    ∀ j < 128, s.flag (Key.sub.ENABLE j) = true → ¬ (j ≠ a ∧ s.nat (Key.sub.PAIR j) = a) := by
  simp [State.secondary, State.usedSubs]

/-- What pairs subscriptions is the same in both states. -/
theorem secondary_none_of_pair {t : State} {a : Nat} (h : ∀ j < 128, t.num (Key.sub.ENABLE j) = s.num (Key.sub.ENABLE j) ∧
    t.num (Key.sub.PAIR j) = s.num (Key.sub.PAIR j)) (hs : s.secondary a = none) : t.secondary a = none := by
  refine secondary_eq_none.2 fun j hj => ?_
  obtain ⟨henable, hpair⟩ := h j hj
  rw [State.flag, henable, State.nat_eq_num, hpair]
  exact secondary_eq_none.1 hs j hj

end Sys2Proof.Machine
end

section
/-!
A packet of channels that is in order and brings a frame is VALID, and fills the jitter buffer from the cut on (R92, R93, R96, R99, R100).
-/

namespace Sys2Proof.Machine

variable {s t : State} {i at' : Nat} {udp p : List Byte}

/-- The frames that a packet brings to an unpaired subscription: those from the cut on that are absent (R99, R100). -/
def State.newFrames (s : State) (at' i : Nat) (udp p : List Byte) : List (Int × List (Nat × Int)) :=
  (s.packetFrames i udp p).filter fun x => decide (s.mCut (s.presented at') ≤ x.1) && absent (s.stream i).frames x.1

/-- The jitter buffer with those frames (R99). -/
def State.filled (s : State) (at' i : Nat) (udp p : List Byte) (l : List BufFrame) : List BufFrame :=
  (s.newFrames at' i udp p).foldl (fun f y => bufPut f { idx := y.1, words := frameWords (s.words i) y.2 }) l

/-- A packet of an unpaired channel subscription that is in order, lies in the window and brings a frame that was absent (R100). -/
structure State.BringsFrames (s : State) (at' i : Nat) (udp p : List Byte) : Prop where
  kind : s.num (Key.sub.KIND i) = 0
  primary : s.primary i = i
  secondary : s.secondary i = none
  nonempty : s.packetFrames i udp p ≠ []
  window : ∀ x ∈ s.packetFrames i udp p, x.2.isEmpty = false ∧ x.1 < s.mCut (s.presented at') + s.depth
  own : ∀ f ∈ (s.stream i).frames, f.rival = none
  brings : s.newFrames at' i udp p ≠ []

theorem State.BringsFrames.of_alike (ha : s.PacketAlike t i) (hstream : t.stream i = s.stream i) (h : s.BringsFrames at' i udp p) :
    t.BringsFrames at' i udp p := by
  obtain ⟨hkind, hprimary, hsecondary, hnonempty, hwindow, hown, hbrings⟩ := h
  refine ⟨ha.kind.trans hkind, ha.primary.trans hprimary, secondary_none_of_pair ha.pair hsecondary, ?_, ?_, ?_, ?_⟩
  · rwa [ha.packetFrames]
  · rwa [ha.packetFrames, ha.presented, ha.mCut, ha.depth]
  · rwa [hstream]
  · rwa [State.newFrames, ha.packetFrames, ha.presented, ha.mCut, hstream]

/-- What a VALID packet of an unpaired subscription does to its counts and its jitter buffer (R99, R100). -/
def validEffects (s : State) (at' i : Nat) (udp p : List Byte) : List Effect :=
  [.bump (Key.st.VALID i) 1,
    .bump (Key.st.LATE_SAMPLES i) ((s.packetFrames i udp p).length -
      ((s.packetFrames i udp p).filter fun x => decide (s.mCut (s.presented at') ≤ x.1)).length : Nat),
    .stream i fun x => { x with frames := s.filled at' i udp p x.frames }]

/-- The frames of a packet follow its first sample index (R93). -/
theorem packetFrames_fst {j : Nat} (hj : j < (s.packetFrames i udp p).length) :
    (s.packetFrames i udp p)[j].1 = s.unwrap i (beAt udp 4 4) + j := by
  simp [State.packetFrames]

/-- The jitter buffer of a subscription. -/
def bufferOf (i : Nat) (u : Units) : List BufFrame := (Tbl.at ({} : Stream) u.streams i).frames

theorem noteBlind_bufferOf (i : Nat) : NoteBlind (bufferOf i) := by
  intro u j f hf
  simp only [bufferOf, Units.onStream, Tbl.at_upd]
  split
  · subst j; exact hf _
  · rfl

/-- The count of a VALID packet stands after its other effects. -/
theorem num_valid_validEffects (x : State) (hi : i < 128) :
    (x.run (validEffects s at' i udp p)).num (Key.st.VALID i) = (x.num (Key.st.VALID i) + 1) % 2 ^ 32 := by
  have hkey : Key.st.VALID i ∉ [Key.st.LATE_SAMPLES i] := by
    simp only [List.mem_singleton, Key.st.VALID, Key.st.LATE_SAMPLES]; omega
  rw [validEffects, State.run_cons]
  refine ((Confined.frame (ks := [Key.st.LATE_SAMPLES i]) (π := fun _ => ()) ?_ _).num hkey).trans ?_
  · simp
  · exact State.num_bump _ (width_valid hi)

theorem bufferOf_validEffects (x : State) :
    bufferOf i (x.run (validEffects s at' i udp p)).units = s.filled at' i udp p (bufferOf i x.units) := by
  simp only [validEffects, State.run_cons, State.run_nil]
  refine (congrArg Stream.frames ((State.stream_apply_stream _ i i _).trans (if_pos rfl))).trans ?_
  simp only [State.stream, State.apply_bump_units, bufferOf]

section Valid
variable (h : s.BringsFrames at' i udp p)
include h

/-- The packet is not EARLY: its last frame lies below the end of the window (R100). -/
theorem last_lt_window : ¬ s.mCut (s.presented at') + s.depth ≤ s.unwrap i (beAt udp 4 4) + (s.packetFrames i udp p).length - 1 := by
  have hpos := List.length_pos_iff.2 h.nonempty
  have hlast : (s.packetFrames i udp p).length - 1 < (s.packetFrames i udp p).length := by omega
  obtain ⟨-, hlt⟩ := h.window _ (List.getElem_mem hlast)
  rw [packetFrames_fst hlast] at hlt
  omega

/-- The packet is not LATE: a frame that it brings lies at or after the cut (R100). -/
theorem cut_le_last : ¬ s.unwrap i (beAt udp 4 4) + (s.packetFrames i udp p).length - 1 < s.mCut (s.presented at') := by
  obtain ⟨x, hx⟩ := List.exists_mem_of_ne_nil _ h.brings
  obtain ⟨hmem, hcut⟩ := List.mem_filter.1 hx
  obtain ⟨j, hj, rfl⟩ := List.mem_iff_getElem.1 hmem
  rw [packetFrames_fst hj, Bool.and_eq_true, decide_eq_true_eq] at hcut
  obtain ⟨hcut, -⟩ := hcut
  omega

/-- No frame of the buffer is a rival's, so the new frames are the absent ones (R103). -/
theorem fresh_eq_newFrames :
    (((s.packetFrames i udp p).filter fun x => decide (s.mCut (s.presented at') ≤ x.1)).filter fun x =>
      absent (s.stream i).frames x.1 || ((i == i) && (s.stream i).frames.any fun f => f.idx == x.1 && f.rival == some at')) =
      s.newFrames at' i udp p := by
  rw [List.filter_filter]
  refine List.filter_congr fun x _ => ?_
  have hrival : ((s.stream i).frames.any fun f => f.idx == x.1 && f.rival == some at') = false := by
    simpa using fun f hf _ => by simp [h.own f hf]
  rw [hrival, Bool.and_false, Bool.or_false, Bool.and_comm]

/-- The classification of such a packet passes EARLY, LATE and DUPLICATE by (R100). -/
theorem packetPlace_valid : packetPlace at' i udp p s = phases [
    always [],
    phases [
      marginNote i (s.presented at') (s.cutoff (s.unwrap i (beAt udp 4 4)) - s.presented at'),
      phases [
        rivalYields i at' ((s.newFrames at' i udp p).map fun x => x.1) ((s.packetFrames i udp p).length -
          ((s.packetFrames i udp p).filter fun x => decide (s.mCut (s.presented at') ≤ x.1)).length),
        always (validEffects s at' i udp p), always [], packetSsrc i (beAt udp 8 4), always [],
        phases [pathArrives i (s.unwrap i (beAt udp 4 4)) at', pathDelivers i at']]]] s := by
  have hforeign : s.foreign i p = false := by simp [State.foreign, h.kind]
  have hhead : (((s.packetFrames i udp p).map fun x => x.2).headD []).isEmpty = false := by
    obtain ⟨x, l, hl⟩ := List.exists_cons_of_ne_nil h.nonempty
    obtain ⟨hwords, -⟩ := h.window x (by simp [hl])
    simpa [hl] using hwords
  have hsome : (s.newFrames at' i udp p).isEmpty = false := by simpa using h.brings
  have hchannels : ¬ s.num (Key.sub.KIND i) = 1 := by rw [h.kind]; decide
  simp only [packetPlace, h.primary, hforeign, hhead, fresh_eq_newFrames h, last_lt_window h, cut_le_last h, hsome, hchannels,
    if_false, if_true, Bool.false_eq_true]
  rfl

/-- Such a packet is VALID: its margin is noted, it is counted and fills the buffer, and its source and path are noted (R100). -/
theorem does_packetPlace_valid : s.does (packetPlace at' i udp p) =
    (((s.does (marginNote i (s.presented at') (s.cutoff (s.unwrap i (beAt udp 4 4)) - s.presented at'))).run
      (validEffects s at' i udp p)).does (packetSsrc i (beAt udp 8 4))).does
        (phases [pathArrives i (s.unwrap i (beAt udp 4 4)) at', pathDelivers i at']) := by
  obtain ⟨x, hx⟩ : ∃ x, x = s.does (marginNote i (s.presented at') (s.cutoff (s.unwrap i (beAt udp 4 4)) - s.presented at')) := ⟨_, rfl⟩
  have hmargin := (marginNote_within (i := i) noteBlind_unit (s.presented at')
    (s.cutoff (s.unwrap i (beAt udp 4 4)) - s.presented at')).frame s
  rw [← hx] at hmargin
  have hnone : x.secondary i = none := by
    refine secondary_none_of_pair (fun j _ => ⟨hmargin.num ?_, hmargin.num ?_⟩) h.secondary
    · simp only [List.mem_singleton, Key.sub.ENABLE, Key.st.MIN_MARGIN]; omega
    · simp only [List.mem_singleton, Key.sub.PAIR, Key.st.MIN_MARGIN]; omega
  have hyields (l : List Int) (n : Nat) : x.does (rivalYields i at' l n) = x := by
    simp [State.does, rivalYields, hnone]
  refine ((congrArg s.run (packetPlace_valid h)).trans (State.does_phases_cons s _ _)).trans ?_
  simp only [State.does_phases_cons, State.does_phases_nil, State.does_always, State.run_nil, ← hx, hyields]

/-- The jitter buffer and the count that such a packet leaves (R99, R100). -/
theorem packetPlace_valid_leaves (hi : i < 128) :
    (s.does (packetPlace at' i udp p)).num (Key.st.VALID i) = (s.num (Key.st.VALID i) + 1) % 2 ^ 32 ∧
      ((s.does (packetPlace at' i udp p)).stream i).frames = s.filled at' i udp p (s.stream i).frames := by
  obtain ⟨m, hm⟩ : ∃ m, m = s.cutoff (s.unwrap i (beAt udp 4 4)) - s.presented at' := ⟨_, rfl⟩
  have hevent : EventBlind (bufferOf i) := fun _ _ _ _ _ _ => rfl
  have hmargin := marginNote_within (i := i) (noteBlind_bufferOf i) (s.presented at') m
  have hssrc := packetSsrc_only (i := i) (x := 3) (noteBlind_bufferOf i) (beAt udp 8 4) (by decide)
  have hpath := pathTakes_only (i := i) (x := 3) (noteBlind_bufferOf i) (s.unwrap i (beAt udp 4 4)) at' (by decide)
  have hvalid : ¬ (Key.st.VALID i % 256 ≠ 3) := by simp [Key.st.VALID]
  rw [does_packetPlace_valid h, ← hm]
  obtain ⟨x, hx⟩ : ∃ x, x = s.does (marginNote i (s.presented at') m) := ⟨_, rfl⟩
  have hcount : x.num (Key.st.VALID i) = s.num (Key.st.VALID i) := by
    rw [hx]
    exact (hmargin.frame s).num (by simp only [List.mem_singleton, Key.st.VALID, Key.st.MIN_MARGIN]; omega)
  have hbuffer : bufferOf i x.units = (s.stream i).frames := by
    rw [hx]
    exact hmargin.units hevent s
  rw [← hx]
  refine ⟨?_, ?_⟩
  · rw [hpath.num _ hvalid, hssrc.num _ hvalid, num_valid_validEffects x hi, hcount]
  · refine (hpath.units hevent _).trans ((hssrc.units hevent _).trans ?_)
    rw [bufferOf_validEffects, hbuffer]

end Valid

end Sys2Proof.Machine
end

section
/-!
What a received packet leaves from the queue on, the clears of a subscription (R111, R112, R476), and the obligation on packets and
states of subscriptions.
-/

namespace Sys2Proof.Machine

variable {s : State} {i : Nat}

/-! ### A VALID packet from the queue on -/

theorem counted_mtb (udp : List Byte) : (s.counted i udp).mtb = s.mtb :=
  (State.apply_frame _ _).2.trans (s.does_mtb _)

theorem counted_stream (udp : List Byte) : (s.counted i udp).stream i = s.stream i := by
  have htake := engineTake_within (i := i) (udp := udp) (π := fun u => Tbl.at ({} : Stream) u.streams i) fun _ _ _ => rfl
  rw [State.counted, State.stream, State.apply_bump_units]
  exact htake.units (fun _ _ _ _ _ _ => rfl) s

/-- A retry finds nothing to end where the subscription is not fenced (R111). -/
theorem does_streamRetryAt_open (hf : s.stState i ≠ 4) (t : Nat) : s.does (streamRetryAt i t) = s := by
  have hnone : streamRetryAt i t s = [] := by simp [streamRetryAt, streamUnfence, hf]
  rw [State.does, hnone, State.run_nil]

theorem does_packetJudged {at' : Nat} {udp p : List Byte} {ok : Bool} (hf : s.stState i ≠ 4) (hm : s.malformed i udp ok = none)
    (hp : rtpPayload udp = some p) : s.does (packetJudged at' i udp ok) = s.does (packetPlace at' i udp p) := by
  have hphase : packetJudged at' i udp ok s = packetPlace at' i udp p s := by simp [packetJudged, hf, hm, hp]
  rw [State.does, hphase, ← State.does]

/-- A packet that is in order, lies in the window and brings a frame is VALID and fills the jitter buffer (R99, R100). -/
theorem streamPacket_valid_leaves {udp p : List Byte} {ok : Bool} (hi : i < 128) (hr : s.receives i = true) (hf : s.stState i ≠ 4)
    (hm : s.malformed i udp ok = none) (hp : rtpPayload udp = some p) (hb : s.BringsFrames (s.arrival i udp) i udp p) :
    let t := s.does (phases [engineTake i udp, streamPacket (s.arrival i udp) i udp ok])
    t.num (Key.st.VALID i) = (s.num (Key.st.VALID i) + 1) % 2 ^ 32 ∧
      (t.stream i).frames = s.filled (s.arrival i udp) i udp p (s.stream i).frames := by
  have halike : s.PacketAlike (s.counted i udp) i := .of_frame counted_frame (counted_mtb udp)
  have hf' : (s.counted i udp).stState i ≠ 4 := by rwa [halike.stState]
  have hfilled (l : List BufFrame) : (s.counted i udp).filled (s.arrival i udp) i udp p l = s.filled (s.arrival i udp) i udp p l := by
    simp only [State.filled, State.newFrames, halike.packetFrames, halike.presented, halike.mCut, halike.words, counted_stream]
  have hkey : Key.st.VALID i ∉ [Key.st.RX_PACKETS i] := by
    simp only [List.mem_singleton, Key.st.VALID, Key.st.RX_PACKETS]; omega
  obtain ⟨hvalid, hframes⟩ := packetPlace_valid_leaves (hb.of_alike halike (counted_stream udp)) hi
  rw [does_streamPacket hr, does_streamRetryAt_open hf', does_packetJudged hf' (by rwa [halike.malformed]) hp]
  exact ⟨by rw [hvalid, counted_frame.num hkey], by rw [hframes, hfilled, counted_stream]⟩

/-! ### Writes of the stream tables -/

section Writes
variable {k : Nat} (hi : i < 128) (hk : k / 256 = 0x2180 + i)
include hi hk

theorem reserved_stream (v : Value) : reserved k v = v := by
  have hfan : k ≠ Key.fan.FAN_PRESENT := by rintro rfl; simp only [Key.fan.FAN_PRESENT] at hk; omega
  have hmask : k ≠ Key.fence.FAULT_MASK := by rintro rfl; simp only [Key.fence.FAULT_MASK] at hk; omega
  have hclear : k ≠ Key.hs.HS_CLEAR := by rintro rfl; simp only [Key.hs.HS_CLEAR] at hk; omega
  simp only [reserved, hfan, hmask, hclear, if_false]

theorem changesAtCrossing_stream (s : State) : s.changesAtCrossing k = false := by
  have hzc : isZcEntry (k / 256) (k % 256) = false := by
    have hout : k / 256 ≠ 0x4022 := by omega
    rw [isZcEntry, if_neg (by omega), if_neg (by omega), beq_eq_false_iff_ne.2 hout, Bool.false_and]
  have hfallback : decide (0x6000 ≤ k / 256 ∧ k / 256 < 0x6010 ∧ 18 ≤ k % 256 ∧ k % 256 ≤ 20) = false :=
    decide_eq_false (by omega)
  rw [State.changesAtCrossing, hzc, hfallback, Bool.false_and, Bool.false_or]

end Writes

/-- The first index, count and subindex of each entry whose effect is more than the value it holds. -/
def specialKeys : List (Nat × Nat × Nat) :=
  (specialEffects ⟨0, 0⟩ 0 (.num 0)).map fun e => (e.1, e.2.1, e.2.2.1)

theorem map_specialEffects (w : Writer) (k : Nat) (v : Value) :
    (specialEffects w k v).map (fun e => (e.1, e.2.1, e.2.2.1)) = specialKeys := by
  simp only [specialKeys, specialEffects, List.map_cons, List.map_nil]

/-- Whether an entry of the table of such entries covers a key. -/
def coversKey (k : Nat) (e : Nat × Nat × Nat) : Bool := decide (e.1 ≤ k / 256 ∧ k / 256 < e.1 + e.2.1) && k % 256 == e.2.2

/-- The effect of an entry is that of the first line of the table that covers it. -/
theorem entryDoes_of_findIdx {w : Writer} {k n : Nat} {v : Value} {e : Nat × Nat × Nat × (Nat → Phase)}
    (hn : specialKeys.findIdx (coversKey k) = n) (he : (specialEffects w k v)[n]? = some e) :
    entryDoes w k v = e.2.2.2 (k / 256 - e.1) := by
  have hfind : (specialEffects w k v).find? (fun e => decide (e.1 ≤ k / 256 ∧ k / 256 < e.1 + e.2.1) && k % 256 == e.2.2.1) =
      some e := by
    rw [List.find?_eq_getElem?_findIdx, ← he, ← hn, ← map_specialEffects w k v, List.findIdx_map]
    rfl
  rw [entryDoes, hfind]

theorem findIdx_streamClears : ∀ i < 128, specialKeys.findIdx (coversKey (Key.st.CLEAR i)) = 21 ∧
    specialKeys.findIdx (coversKey (Key.st.FENCE_CLEAR i)) = 22 := by decide +kernel

theorem clear_index (i : Nat) : Key.st.CLEAR i / 256 = 0x2180 + i := by
  simp only [Key.st.CLEAR]; omega

theorem fenceClear_index (i : Nat) : Key.st.FENCE_CLEAR i / 256 = 0x2180 + i := by
  simp only [Key.st.FENCE_CLEAR]; omega

theorem entryDoes_streamClear (hi : i < 128) (w : Writer) : entryDoes w (Key.st.CLEAR i) (.num 1) = streamClear i := by
  refine (entryDoes_of_findIdx (findIdx_streamClears i hi).1 rfl).trans ?_
  rw [clear_index, Nat.add_sub_cancel_left]
  rfl

theorem entryDoes_streamFenceClear (hi : i < 128) (w : Writer) :
    entryDoes w (Key.st.FENCE_CLEAR i) (.num 1) = fenceClear 0 2 i := by
  refine (entryDoes_of_findIdx (findIdx_streamClears i hi).2 rfl).trans ?_
  rw [fenceClear_index, Nat.add_sub_cancel_left]
  rfl

theorem row_clear (hi : i < 128) : (Dict.row (Key.st.CLEAR i)).map (fun r => (r.eff, r.p)) = some (.acc, false) := by
  rw [Key.st.CLEAR, row_stream hi (by decide)]
  decide +kernel

theorem row_fenceClear (hi : i < 128) : (Dict.row (Key.st.FENCE_CLEAR i)).map (fun r => (r.eff, r.p)) = some (.acc, false) := by
  rw [Key.st.FENCE_CLEAR, row_stream hi (by decide)]
  decide +kernel

/-! ### The clear of the counters -/

/-- The subindices of the counters that CLEAR clears: RX_PACKETS to MIN_MARGIN, SSRC_CHANGES, FENCE_COUNT and FOREIGN_OBJ_PKTS
(Table 03-10). -/
def counterSubs : List Nat := (List.range 9).map (2 + ·) ++ [14, 16, 17]

/-- The counters that CLEAR clears. -/
def counterKeys (i : Nat) : List Nat := counterSubs.map ((0x2180 + i) * 256 + ·)

theorem streamClear_eq (i : Nat) : streamClear i = always ((counterKeys i).map (Effect.num · 0)) := by
  simp [streamClear, counterKeys, counterSubs, Function.comp_def, Key.st.RX_PACKETS, Key.st.SSRC_CHANGES, Key.st.FENCE_COUNT,
    Key.st.FOREIGN_OBJ_PKTS, add_assoc]

theorem width_counterKeys (hi : i < 128) : ∀ k ∈ counterKeys i, (Dict.width k).isSome = true := by
  have hsubs : ∀ x ∈ counterSubs, x < 256 ∧ (Dict.width (0x2180 * 256 + x)).isSome = true := by decide +kernel
  refine List.forall_mem_map.2 fun x hx => ?_
  obtain ⟨hlt, hwidth⟩ := hsubs x hx
  rwa [width_stream hi hlt]

/-- A 0 written to an entry of any width is held as 0 (R6). -/
theorem State.num_zero {k : Nat} (hw : (Dict.width k).isSome = true) (s : State) : (s.apply (.num k 0)).num k = 0 := by
  obtain ⟨⟨w, sg⟩, hw⟩ := Option.isSome_iff_exists.1 hw
  refine (s.num_set hw 0).trans ?_
  cases sg
  · simp
  · simp [signed]

/-- Entries that 0 is written to, one after the other, hold 0. -/
theorem State.num_run_zeros {ks : List Nat} (hw : ∀ k ∈ ks, (Dict.width k).isSome = true) (s : State) {k : Nat} (hk : k ∈ ks) :
    (s.run (ks.map (Effect.num · 0))).num k = 0 := by
  induction ks generalizing s with
  | nil => exact absurd hk List.not_mem_nil
  | cons j ks ih =>
    obtain ⟨hj, hks⟩ := List.forall_mem_cons.1 hw
    rw [List.map_cons, State.run_cons]
    by_cases hmem : k ∈ ks
    · exact ih hks _ hmem
    · obtain rfl : k = j := (List.mem_cons.1 hk).resolve_right hmem
      have hrest : Confined ks (fun _ => ()) (ks.map (Effect.num · 0)) := by simp
      rw [(hrest.frame _).num hmem, State.num_zero hj]

theorem quiet_streamClear (n : Nat) (s : State) : ∀ e ∈ streamClear i s, e.by n = e := by
  rw [streamClear_eq]
  exact List.forall_mem_map.2 fun _ _ => rfl

theorem streamClear_leaves (hi : i < 128) (s : State) :
    (∀ k ∈ counterKeys i, (s.does (streamClear i)).num k = 0) ∧ (s.does (streamClear i)).units.streams = s.units.streams := by
  have hkeep : Confined (counterKeys i) (fun u => u.streams) ((counterKeys i).map (Effect.num · 0)) := by simp
  rw [streamClear_eq, State.does_always]
  exact ⟨fun k hk => State.num_run_zeros (width_counterKeys hi) s hk, hkeep.units (fun _ _ _ _ _ _ => rfl) s⟩

/-! ### The clear of a fence -/

theorem clearNames_stream (hi : i < 128) (hf : s.stState i = 4) : s.clearNames 2 i = [i] := by
  have hne : i ≠ 0xFFFF := by omega
  rw [State.clearNames, if_neg hne, State.fencedOf, List.filter_comm, List.filter_beq,
    List.count_eq_one_of_mem List.nodup_range (List.mem_range.2 hi)]
  simp [hf]

/-- A fenced subscription is cleared, and the clear is counted and reported (R111, R476). -/
theorem fenceClear_stream (hi : i < 128) (hf : s.stState i = 4) : fenceClear 0 2 i s =
    streamUnfence i 1 s ++ [.bump Key.fence.CLEARS 1, .event Ev.FENCE_CLEARED (args16 [2, i, s.clearAnswer 2 i])] := by
  have hmay : [i].filter (fun j => s.clearStatus 2 j == St.ok) = [i] := by simp [State.clearStatus]
  have hone : clearOne 0 2 i = streamUnfence i 1 := by simp only [clearOne]
  unfold fenceClear
  rw [clearNames_stream hi hf]
  simp only [List.isEmpty_cons, Bool.false_eq_true, if_false, hmay, forAll, List.map_cons, List.map_nil, hone, phases, always,
    List.append_nil]

/-- What the clear of a subscription's fence writes. -/
def streamClearKeys (i : Nat) : List Nat := Key.fence.CLEARS :: Key.st.STREAM_STATE i :: feedKeys

theorem fenceClear_confined {α : Type} {π : Units → α} (hc : ∀ u c f, π (Units.onChan u c f) = π u)
    (hs : ∀ u f, π (Units.onStream u i f) = π u) (hi : i < 128) (hf : s.stState i = 4) :
    Confined (streamClearKeys i) π (fenceClear 0 2 i s) := by
  rw [fenceClear_stream hi hf]
  exact confined_append.2 ⟨((streamUnfence_within hc hs 1).mono (List.subset_cons_self ..)) s, by simp [streamClearKeys, feedKeys]⟩

/-- What the clear of a subscription's fence leaves, whichever session has caused it (R111, R476). -/
theorem fenceClear_stream_leaves (hi : i < 128) (hf : s.stState i = 4) (n : Nat) :
    (s.does (causedBy n (fenceClear 0 2 i))).stState i = 1 ∧
      (s.does (causedBy n (fenceClear 0 2 i))).num Key.fence.CLEARS = (s.num Key.fence.CLEARS + 1) % 2 ^ 32 ∧
      s.Frame (streamClearKeys i) (s.does (causedBy n (fenceClear 0 2 i))) := by
  have hanchor : Confined (streamClearKeys i) (fun u => u.anchor) (fenceClear 0 2 i s) :=
    fenceClear_confined (fun _ _ _ => rfl) (fun _ _ => rfl) hi hf
  have halike := alike_causedBy s n hanchor.anchorLocal
  have hevent : Key.st.STREAM_STATE i ≠ Key.evt.EVT_RAISED := by simp only [Key.st.STREAM_STATE, Key.evt.EVT_RAISED]; omega
  have hstate : Key.st.STREAM_STATE i ≠ Key.fence.CLEARS := by simp only [Key.st.STREAM_STATE, Key.fence.CLEARS]; omega
  have hcount : Key.fence.CLEARS ∉ Key.st.STREAM_STATE i :: feedKeys :=
    fun h => (List.mem_cons.1 h).elim hstate.symm (by decide)
  have hdoes : s.does (fenceClear 0 2 i) = (s.does (streamUnfence i 1)).run
      [.bump Key.fence.CLEARS 1, .event Ev.FENCE_CLEARED (args16 [2, i, s.clearAnswer 2 i])] := by
    rw [State.does, fenceClear_stream hi hf, State.run_append]
    rfl
  have hcounted : Confined [Key.fence.CLEARS, Key.evt.EVT_RAISED] (fun _ => ())
      [.bump Key.fence.CLEARS 1, .event Ev.FENCE_CLEARED (args16 [2, i, s.clearAnswer 2 i])] := by simp
  have hreport : Effect.Within [Key.evt.EVT_RAISED] (fun _ => ()) (.event Ev.FENCE_CLEARED (args16 [2, i, s.clearAnswer 2 i])) := by
    simp
  refine ⟨?_, ?_, (hanchor.by n).frame s⟩
  · rw [State.stState, State.nat, halike.get _ hevent, ← State.nat, hdoes, (hcounted.frame _).nat (by simp [hstate, hevent])]
    exact (streamUnfence_leaves hi hf (by decide)).1
  · rw [State.num, halike.get _ (by decide), ← State.num, hdoes, State.run_cons, State.run_cons, State.run_nil,
      (hreport.frame _).num (by decide), State.num_bump _ (by decide +kernel),
      ((streamUnfence_within (π := fun _ => ()) (fun _ _ _ => rfl) (fun _ _ => rfl) 1).frame s).num hcount]

/-! ### The obligation -/

/-- Settles O32: all that follows the count of a packet writes other subindices than that of RX_PACKETS; a packet of channels that
brings frames reaches the VALID branch, which fills the buffer; every change of state is `setStream`; the clears are their entries'
effects. -/
theorem packetsAndStreamStates : Obligations.PacketsAndStreamStates := by
  intro s i _
  have hi := i.isLt
  refine ⟨fun udp ok hr => ⟨_, rfl, streamPacket_leaves hi hr ok⟩, ?_, ?_, ?_, ?_, fun w => ?_, fun w => ?_⟩
  · intro udp p ok hr hf hm hp hkind hprimary hsecondary hnonempty hwindow hown hbrings
    have hb : s.BringsFrames (s.arrival i udp) i udp p := {
      kind := hkind
      primary := hprimary
      secondary := hsecondary
      nonempty := hnonempty
      window := fun x hx => by simpa using List.all_eq_true.1 hwindow x hx
      own := hown
      brings := fun h => by
        obtain ⟨x, hx, hnew⟩ := List.any_eq_true.1 hbrings
        exact List.filter_eq_nil_iff.1 h x hx hnew }
    obtain ⟨-, hmode, hstore⟩ := streamPacket_leaves (udp := udp) hi hr ok
    obtain ⟨hvalid, hframes⟩ := streamPacket_valid_leaves hi hr hf hm hp hb
    exact ⟨_, rfl, hvalid, hmode, hstore, hframes⟩
  · intro hstate hempty
    refine ⟨s.does (streamLost i), rfl, ?_⟩
    rw [does_streamLost hstate hempty]
    have hkeep := setStream_within_feedKeys (π := fun _ => ()) (fun _ _ _ => rfl) i 3
    exact ⟨stState_setStream hi (by decide) s, hkeep.frame s⟩
  · intro hf hretry hpassed
    refine ⟨s.does (streamRetry i), rfl, ?_⟩
    rw [does_streamRetry hretry hpassed]
    have hkeep := streamUnfence_within (i := i) (π := fun _ => ()) (fun _ _ _ => rfl) (fun _ _ => rfl) 0
    obtain ⟨hstate, hframes, hfence⟩ := streamUnfence_leaves (cause := 0) hi hf (by decide)
    exact ⟨hstate, hframes, hfence, hkeep.frame s⟩
  · exact fun hpair hr hup hlast => ⟨_, rfl, pathDown_leaves hi hpair hr hup hlast⟩
  · refine writes_of_effect (fun _ => rfl) (row_fenceClear hi) (.inl rfl) ?_ (reserved_stream hi (fenceClear_index i) _)
      (changesAtCrossing_stream hi (fenceClear_index i)) (entryDoes_streamFenceClear hi _) fun s _ _ hf a => ?_
    · simp only [Key.st.FENCE_CLEAR, Key.mode.MODE_REQUEST]; omega
    obtain ⟨hstate, hcount, hkeep⟩ := fenceClear_stream_leaves hi hf w.session
    exact ⟨hstate, hcount, (hkeep.trans ((answer_frame _ a).mono (List.nil_subset _))).mono (by simp [streamClearKeys, feedKeys])⟩
  · refine writes_of_effect (fun _ => rfl) (row_clear hi) (.inl rfl) ?_ (reserved_stream hi (clear_index i) _)
      (changesAtCrossing_stream hi (clear_index i)) (entryDoes_streamClear hi _) fun s _ _ _ a => ?_
    · simp only [Key.st.CLEAR, Key.mode.MODE_REQUEST]; omega
    rw [causedBy_of_quiet (quiet_streamClear w.session s)]
    obtain ⟨hzero, hstreams⟩ := streamClear_leaves hi s
    have hcleared {k : Nat} (hk : k ∈ counterKeys i) :
        ((s.does (streamClear i)).apply (.unit fun u => { u with answer := a })).num k = 0 :=
      ((answer_frame _ a).num List.not_mem_nil).trans (hzero k hk)
    refine ⟨fun j hj => hcleared ?_, hcleared ?_, hcleared ?_, hcleared ?_, hstreams⟩
    · exact List.mem_map.2 ⟨2 + j, List.mem_append_left _ (List.mem_map_of_mem (List.mem_range.2 hj)), (Nat.add_assoc ..).symm⟩
    all_goals exact List.mem_map_of_mem (by decide)

end Sys2Proof.Machine
end

section
/-!
Object slots (Table 04-5): the rows of their entries, a slot's state as it stands after a change, and what a record or a clear makes
of the slot (R117, R118, R148).
-/

namespace Sys2Proof.Machine

variable {α : Type}

/-! ### The rows of the slots -/

/-- The row of an entry of a slot is that of slot 0: the two areas of the slots hold the same rows (Table 04-5). -/
theorem row_object {o : Nat} (ho : o < 512) {sub : Nat} (hsub : sub < 256) :
    Dict.row ((0x5800 + o) * 256 + sub) = Dict.row (0x5800 * 256 + sub) := by
  have hrow (i : Nat) (hi : i < 512) : Dict.row ((0x5800 + i) * 256 + sub) =
      Dict.rows_58_04_5.find? fun r => r.hasIndex (0x5800 + i) && r.hasSub sub := by
    have hkey : ((0x5800 + i) * 256 + sub) / 256 = 0x5800 + i ∧ ((0x5800 + i) * 256 + sub) % 256 = sub := by omega
    have harea : Dict.area (((0x5800 + i) * 256 + sub) / 65536) = Dict.rows_58_04_5 := by
      rcases lt_or_ge i 256 with h | h
      · rw [show ((0x5800 + i) * 256 + sub) / 65536 = 0x58 by omega]; rfl
      · rw [show ((0x5800 + i) * 256 + sub) / 65536 = 0x59 by omega]; rfl
    rw [Dict.row, harea, hkey.1, hkey.2]
  have hall : ∀ r ∈ Dict.rows_58_04_5, r.base = 0x5800 ∧ r.n = 512 := by decide
  rw [hrow o ho, hrow 0 (by decide)]
  refine List.find?_congr fun r hr => ?_
  have hindex (i : Nat) (hi : i < 512) : r.hasIndex (0x5800 + i) = true := by
    obtain ⟨hbase, hn⟩ := hall r hr
    exact decide_eq_true (by omega)
  rw [hindex o ho, hindex 0 (by decide)]

theorem width_objState {o : Nat} (ho : o < 512) : Dict.width (Key.obj.OBJ_STATE o) = some (8, false) := by
  rw [Dict.width, Key.obj.OBJ_STATE, row_object ho (by decide)]
  decide +kernel

theorem row_objectFenceClear {o : Nat} (ho : o < 512) :
    (Dict.row (Key.obj.FENCE_CLEAR o)).map (fun r => (r.eff, r.p)) = some (.acc, false) := by
  rw [Key.obj.FENCE_CLEAR, row_object ho (by decide)]
  decide +kernel

theorem objState_key (o : Nat) : Key.obj.OBJ_STATE o / 256 = 0x5800 + o ∧ Key.obj.OBJ_STATE o % 256 = 2 := by
  simp only [Key.obj.OBJ_STATE]; omega

/-- An object slot that nothing has changed is UNUSED (Table 04-3). -/
theorem dflt_objState {o : Nat} (ho : o < 512) : Dict.dflt (Key.obj.OBJ_STATE o) = .num 0 := by
  have hrow : Dict.row (Key.obj.OBJ_STATE o) = some ⟨0x5800, 512, 2, 1, 1, .u8, .ro, false, .num 0, [], .none⟩ :=
    (row_object ho (by decide)).trans (by decide +kernel)
  obtain ⟨hindex, hsub⟩ := objState_key o
  have hne {k : Nat} (hk : k / 256 < 0x5800) : Key.obj.OBJ_STATE o ≠ k := by rintro rfl; omega
  have hunit : Dict.unitDflt (Key.obj.OBJ_STATE o) = none := by
    simp only [Dict.unitDflt, hindex, hsub]
    rw [if_neg (by omega), if_neg (hne (by decide)), if_neg (by omega), if_neg (by omega), if_neg (hne (by decide))]
  simp (disch := decide) [Dict.dflt, hrow, Dict.isFactory, hne, hunit]

/-! ### Effects on a slot -/

@[simp] theorem Effect.within_obj {ks : List Nat} {π : Units → α} {o : Nat} {f : Obj → Obj} :
    (Effect.obj o f).Within ks π ↔ ∀ u : Units, π (u.onObj o f) = π u := .rfl

@[simp] theorem Effect.within_eventOnce {ks : List Nat} {π : Units → α} {c sc : Nat} {a : List Byte} :
    (Effect.eventOnce c sc a).Within ks π ↔ Key.evt.EVT_RAISED ∈ ks := .rfl

theorem State.obj_apply_obj (s : State) (o i : Nat) (f : Obj → Obj) :
    (s.apply (.obj o f)).obj i = if o = i then f (s.obj o) else s.obj i := Tbl.at_upd ..

theorem obj_frame (s : State) (o : Nat) (f : Obj → Obj) : s.Frame [] (s.apply (.obj o f)) :=
  Effect.Within.frame (π := fun _ => ()) (by simp) s

section Slot
variable {ks : List Nat} {es : List Effect} {o : Nat}

/-- Effects that leave the units' objects leave every slot. -/
theorem Confined.obj (h : Confined ks (fun u => u.objs) es) (s : State) (i : Nat) : (s.run es).obj i = s.obj i :=
  congrArg (fun objs => Tbl.at ({} : Obj) objs i) (h.units (π := fun u => u.objs) (fun _ _ _ _ _ _ => rfl) s)

/-- The state that a slot is set to is the one that stands, once effects have run that do not reach it. -/
theorem Confined.objState_written {π : Units → α} (h : Confined ks π es) (ho : o < 512) (hk : Key.obj.OBJ_STATE o ∉ ks) {v : Nat}
    (hv : v < 256) (s : State) : ((s.apply (.nat (Key.obj.OBJ_STATE o) v)).run es).objState o = v :=
  ((h.frame _).nat hk).trans (s.nat_reg_of_lt (width_objState ho) hv)

theorem objState_ne_evtRaised (o : Nat) : Key.obj.OBJ_STATE o ≠ Key.evt.EVT_RAISED := by
  simp only [Key.obj.OBJ_STATE, Key.evt.EVT_RAISED]; omega

end Slot

/-! ### What a record or a clear makes of a slot -/

section Takes
variable (f : State) (o : Nat) (t : Took) (x : Obj)

theorem Obj.muteTo_pend (muted : Bool) (n : Nat) : (x.muteTo muted n).pend = x.pend := by
  unfold Obj.muteTo
  exact apply_ite Obj.pend .. |>.trans (ite_self _)

theorem takes_record : (f.takes o t x).record = t.record := by
  unfold State.takes
  cases t.record <;> rfl

theorem takes_lastApply : (f.takes o t x).lastApply = t.record.map fun _ => t.apply := by
  unfold State.takes
  cases t.record <;> rfl

theorem takes_pend : (f.takes o t x).pend = x.pend := by
  unfold State.takes
  cases t.record with
  | none => rfl
  | some m => exact Obj.muteTo_pend _ _ _

end Takes

/-- What a change of a slot within the play block in work leaves of it (R118, R148); `x` is the state at which it was found. -/
theorem objTakes_leaves (x s : State) (o : Nat) (t : Took) :
    let y := (s.run (objTakes o t x)).obj o
    y.record = t.record ∧ y.pend = (s.obj o).pend ∧ y.lastApply = t.record.map fun _ => t.apply := by
  have hobj : (s.run (objTakes o t x)).obj o = { x.foretold.takes o t (s.obj o) with took := (s.obj o).took ++ [t] } :=
    (s.obj_apply_obj o o _).trans (if_pos rfl)
  rw [hobj]
  exact ⟨takes_record .., takes_pend .., takes_lastApply ..⟩

end Sys2Proof.Machine
end

section
/-!
Records and the clear of an object (R118, R121, R147, R148): what METADATA_APPLY, META_TIMEOUT and FENCE_CLEAR leave of a slot.
-/

namespace Sys2Proof.Machine

variable {s : State} {o : Nat}

/-! ### A record applies -/

/-- What the application of a record writes besides the slot's state (R117, R118). -/
def recordKeys (o : Nat) : List Nat :=
  [Key.obj.OBJ_STATUS o, Key.obj.POSITION o, Key.obj.META_GAIN o, Key.obj.META_SPREAD o, Key.obj.META_FLAGS o, Key.obj.META_TIME o,
   Key.ren.OUT_OF_HULL_TOTAL, Key.evt.EVT_RAISED]

theorem objState_notMem_recordKeys (o : Nat) : Key.obj.OBJ_STATE o ∉ recordKeys o := by
  simp only [recordKeys, List.mem_cons, List.not_mem_nil, or_false, not_or, Key.obj.OBJ_STATE, Key.obj.OBJ_STATUS, Key.obj.POSITION,
    Key.obj.META_GAIN, Key.obj.META_SPREAD, Key.obj.META_FLAGS, Key.obj.META_TIME, Key.ren.OUT_OF_HULL_TOTAL, Key.evt.EVT_RAISED]
  omega

/-- The change of the slot that the application of a record at output sample `p` is (R118). -/
def State.recordTook (s : State) (o p : Nat) (m : MetaRec) : Took :=
  { sample := s.workNext, apply := p, record := some m, direct := s.nat (Key.obj.DIRECT_SPEAKER o), first := s.objState o == 1 }

/-- A record that applies is taken, makes the object ACTIVE, and then writes what it brings (R118). -/
theorem does_recordApply (s : State) (o p : Nat) (m : MetaRec) : ∃ es, Confined (recordKeys o) (fun u => u.objs) es ∧
    s.does (recordApply o p m) = ((s.does (objTakes o (s.recordTook o p m))).apply (.nat (Key.obj.OBJ_STATE o) 2)).run es := by
  rcases hpan : s.foretold.panning (s.nat (Key.obj.DIRECT_SPEAKER o)) (unit (s.foretold.dirAt (s.obj o) m)) m with ⟨pan, hull, invalid⟩
  have hdoes : s.does (recordApply o p m) = s.run (recordApply o p m s) := rfl
  rw [hdoes, recordApply, hpan]
  refine ⟨?es, ?within, (State.does_phases_cons s _ _).trans ?eq⟩
  case eq =>
    rw [State.does_phases_cons, State.does_phases_cons, State.does_phases_cons, State.does_phases_nil, State.does_always,
      State.does_always, State.does_always, State.run_cons, ← State.run_append, ← State.run_append]
    rfl
  case within => simp [recordKeys]

/-- What a record that applies leaves (R117, R118). -/
theorem recordApply_leaves (ho : o < 512) (s : State) (p : Nat) (m : MetaRec) :
    let t := s.does (recordApply o p m)
    t.objState o = 2 ∧ (t.obj o).pend = (s.obj o).pend ∧ (t.obj o).record = some m ∧ (t.obj o).lastApply = some p ∧ t.mode = s.mode := by
  obtain ⟨es, hes, hdoes⟩ := does_recordApply s o p m
  obtain ⟨hrecord, hpend, hlast⟩ := objTakes_leaves s s o (s.recordTook o p m)
  have hstate : Confined (Key.obj.OBJ_STATE o :: recordKeys o) (fun u => u.objs) (.nat (Key.obj.OBJ_STATE o) 2 :: es) :=
    confined_cons.2 ⟨by simp, hes.mono (List.subset_cons_self ..)⟩
  rw [hdoes]
  refine ⟨hes.objState_written ho (objState_notMem_recordKeys o) (by decide) _, ?_⟩
  rw [← State.run_cons, hstate.obj]
  exact ⟨hpend, hrecord, hlast, (hstate.frame _).mode⟩

/-- The state with the first pending record of a slot taken from its queue (R120). -/
def State.unqueued (s : State) (o : Nat) (rest : List (Nat × MetaRec)) : State := s.apply (.obj o fun x => { x with pend := rest })

section Due
variable {p : Nat} {m : MetaRec} {rest : List (Nat × MetaRec)}

theorem unqueued_pend : ((s.unqueued o rest).obj o).pend = rest :=
  congrArg Obj.pend ((s.obj_apply_obj o o _).trans (if_pos rfl))

/-- What a record that fails R147 brings: its object is fenced, unless it stands fenced already. -/
def State.fenceEffects (s : State) (o cause : Nat) : List Effect :=
  if s.objState o = 4 then [] else [.nat (Key.obj.OBJ_STATE o) 4, .event Ev.OBJECT_FENCED (args16 [o, cause])]

variable (hpend : (s.obj o).pend = (p, m) :: rest) (hdue : p ≤ s.workSample) (hused : s.objState o ≠ 0)
include hpend hdue hused

theorem does_metadataApply_pass (hpass : s.foretold.recordFault m = none) :
    s.does (metadataApply o) = (s.unqueued o rest).does (recordApply o p m) := by
  have hgo : ¬ (s.workSample < p ∨ s.objState o = 0) := by omega
  have hdoes : s.does (metadataApply o) = s.run (metadataApply o s) := rfl
  rw [hdoes, metadataApply, hpend]
  simp only [if_neg hgo, hpass]
  refine (State.does_phases_cons s _ _).trans ?_
  rw [State.does_phases_cons, State.does_phases_nil]
  rfl

theorem does_metadataApply_fail {cause : Nat} (hfail : s.foretold.recordFault m = some cause) :
    s.does (metadataApply o) = (s.unqueued o rest).run (s.fenceEffects o cause) := by
  have hgo : ¬ (s.workSample < p ∨ s.objState o = 0) := by omega
  have hdoes : s.does (metadataApply o) = s.run (metadataApply o s) := rfl
  rw [hdoes, metadataApply, hpend]
  simp only [if_neg hgo, hfail]
  refine (State.does_phases_cons s _ _).trans ?_
  rw [State.does_phases_cons, State.does_phases_nil, State.fenceEffects]
  split <;> rfl

/-- A due record that passes is in force, and its object is ACTIVE (R118, R147). -/
theorem metadataApply_pass_leaves (ho : o < 512) (hpass : s.foretold.recordFault m = none) :
    let t := s.does (metadataApply o)
    t.objState o = 2 ∧ (t.obj o).pend = rest ∧ (t.obj o).record = some m ∧ (t.obj o).lastApply = some p ∧ t.mode = s.mode := by
  obtain ⟨hstate, hqueue, hrecord, hlast, hmode⟩ := recordApply_leaves ho (s.unqueued o rest) p m
  rw [does_metadataApply_pass hpend hdue hused hpass]
  exact ⟨hstate, hqueue.trans unqueued_pend, hrecord, hlast, hmode⟩

/-- A due record that fails fences its object, and writes nothing else (R147). -/
theorem metadataApply_fail_leaves (ho : o < 512) {cause : Nat} (hfail : s.foretold.recordFault m = some cause) :
    let t := s.does (metadataApply o)
    t.objState o = 4 ∧ (t.obj o).pend = rest ∧ s.Frame [Key.obj.OBJ_STATE o, Key.evt.EVT_RAISED] t := by
  have hevent : Confined [Key.evt.EVT_RAISED] (fun _ => ()) [.event Ev.OBJECT_FENCED (args16 [o, cause])] := by simp
  have hfence : Confined [Key.obj.OBJ_STATE o, Key.evt.EVT_RAISED] (fun u => u.objs) (s.fenceEffects o cause) := by
    rw [State.fenceEffects]
    split <;> simp
  have hdrop : s.Frame [] (s.unqueued o rest) := obj_frame ..
  rw [does_metadataApply_fail hpend hdue hused hfail]
  refine ⟨?_, ?_, (hdrop.mono (List.nil_subset _)).trans (hfence.frame _)⟩
  · by_cases h : s.objState o = 4
    · rw [State.fenceEffects, if_pos h]
      exact (hdrop.nat List.not_mem_nil).trans h
    · rw [State.fenceEffects, if_neg h]
      exact hevent.objState_written ho (by simp [objState_ne_evtRaised]) (by decide) _
  · rw [hfence.obj, unqueued_pend]

end Due

/-- An object whose records stay away is TIMED_OUT (R121). -/
theorem metaTimeout_leaves {p : Nat} (ho : o < 512) (hlast : (s.obj o).lastApply = some p) (hms : s.nat Key.ren.META_TIMEOUT ≠ 0)
    (hstate : s.objState o = 2) (hpend : (s.obj o).pend = []) (hdue : p + s.nat Key.ren.META_TIMEOUT * s.fs / 1000 ≤ s.workSample) :
    let t := s.does (metaTimeout o)
    t.objState o = 3 ∧ s.Frame [Key.obj.OBJ_STATE o, Key.evt.EVT_RAISED] t := by
  have hphase : metaTimeout o s = [.nat (Key.obj.OBJ_STATE o) 3, .event Ev.META_TIMEOUT (args16 [o])] := by
    rw [metaTimeout, hlast]
    exact if_pos ⟨hms, hstate, decide_eq_true hdue, by rw [hpend]; rfl⟩
  have hevent : Confined [Key.evt.EVT_RAISED] (fun _ => ()) [.event Ev.META_TIMEOUT (args16 [o])] := by simp
  have hall : Confined [Key.obj.OBJ_STATE o, Key.evt.EVT_RAISED] (fun _ => ()) (metaTimeout o s) := by simp [hphase]
  refine ⟨?_, hall.frame s⟩
  rw [State.does, hphase]
  exact hevent.objState_written ho (by simp [objState_ne_evtRaised]) (by decide) _

/-! ### The clear of an object's fence -/

/-- What a table gives for a key is the key's default, or is listed under the key. -/
theorem Tbl.get_eq_or_mem {β : Type} (d : Nat → β) (t : Tbl β) (k : Nat) : Tbl.get d t k = d k ∨ (k, Tbl.get d t k) ∈ t := by
  induction t with
  | nil => exact .inl rfl
  | cons e t ih =>
    obtain ⟨j, v⟩ := e
    by_cases h : j = k
    · subst h
      simp [Tbl.get]
    · simpa [Tbl.get, h, Ne.symm h] using ih

/-- A value read as a number other than 0 is that number. -/
theorem Value.eq_num {v : Value} {n : Nat} (hn : n ≠ 0) (h : v.int.toNat = n) : v = .num n := by
  cases v with
  | num m => exact congrArg Value.num (show m = n by simp only [Value.int] at h; omega)
  | _ => exact absurd h.symm hn

/-- A fenced slot stands in the list of those that are. -/
theorem mem_fencedObjs (ho : o < 512) (hf : s.objState o = 4) : o ∈ s.fencedObjs := by
  have hget : s.get (Key.obj.OBJ_STATE o) = .num 4 := Value.eq_num (by decide) hf
  have hmem : (Key.obj.OBJ_STATE o, Value.num 4) ∈ s.dict := by
    have hor := Tbl.get_eq_or_mem Dict.dflt s.dict (Key.obj.OBJ_STATE o)
    rw [← State.get, hget, dflt_objState ho] at hor
    exact hor.resolve_left (by decide)
  refine List.mem_filterMap.2 ⟨_, hmem, ?_⟩
  obtain ⟨hindex, hsub⟩ := objState_key o
  rw [if_pos ⟨by omega, by omega, hsub, rfl⟩, hindex, Nat.add_sub_cancel_left]

/-- The clear names the slot alone, once for each time that the dictionary lists it. -/
theorem clearNames_object (ho : o < 512) (hf : s.objState o = 4) : ∃ n, s.clearNames 1 o = List.replicate (n + 1) o := by
  have hne : o ≠ 0xFFFF := by omega
  have hpos : 0 < s.fencedObjs.count o := List.count_pos_iff.2 (mem_fencedObjs ho hf)
  refine ⟨s.fencedObjs.count o - 1, ?_⟩
  rw [State.clearNames, if_neg hne, State.fencedOf, List.filter_beq, Nat.sub_add_cancel hpos]

/-- A phase that does nothing at a state does nothing there however often it runs. -/
theorem phases_replicate_idle {p : Phase} (h : p s = []) (n : Nat) : phases (List.replicate n p) s = [] := by
  induction n with
  | zero => rfl
  | succ n ih =>
    rw [List.replicate_succ, phases, h]
    exact ih

/-- What the clear of an object writes: NO_META and the event (R148). -/
def unfenceEffects (o cause : Nat) : List Effect :=
  [.nat (Key.obj.OBJ_STATE o) 1, .event Ev.OBJECT_UNFENCED (args16 [o, cause])]

/-- The clear of a fenced object writes, and discards the record (R148). -/
theorem objClear_of_fenced (cause : Nat) (hf : s.objState o = 4) : objClear o cause s =
    unfenceEffects o cause ++ objTakes o { sample := s.workNext } (s.run (unfenceEffects o cause)) := by
  rw [objClear, if_pos hf]
  simp only [phases, always, List.append_nil]
  rfl

/-- The clear leaves nothing fenced to clear. -/
theorem objClear_again (ho : o < 512) (cause : Nat) (hf : s.objState o = 4) : objClear o cause (s.does (objClear o cause)) = [] := by
  have hrest (t : Took) (x : State) : Confined [Key.evt.EVT_RAISED] (fun _ => ())
      ([.event Ev.OBJECT_UNFENCED (args16 [o, cause])] ++ objTakes o t x) := by simp [objTakes]
  have hstate : (s.does (objClear o cause)).objState o = 1 := by
    rw [State.does, objClear_of_fenced cause hf]
    exact (hrest _ _).objState_written ho (by simp [objState_ne_evtRaised]) (by decide) s
  rw [objClear, hstate]
  rfl

/-- The report of a clear that names one object (R476). -/
def State.clearReport (s : State) (o : Nat) : List Effect :=
  [.bump Key.fence.CLEARS 1, .event Ev.FENCE_CLEARED (args16 [1, o, s.clearAnswer 1 o])]

/-- A fenced object is cleared, and the clear is counted and reported (R148, R476). -/
theorem fenceClear_object (ho : o < 512) (hf : s.objState o = 4) : fenceClear 0 1 o s = unfenceEffects o 1 ++
    (objTakes o { sample := s.workNext } (s.run (unfenceEffects o 1)) ++ s.clearReport o) := by
  obtain ⟨n, hn⟩ := clearNames_object ho hf
  have hmay (l : List Nat) : l.filter (fun j => s.clearStatus 1 j == St.ok) = l := by simp [State.clearStatus]
  have hone : clearOne 0 1 o = objClear o 1 := by simp only [clearOne]
  have hagain : phases (List.replicate n (objClear o 1)) (s.run (objClear o 1 s)) = [] :=
    phases_replicate_idle (objClear_again ho 1 hf) n
  unfold fenceClear
  rw [hn, ← List.append_assoc, ← objClear_of_fenced 1 hf]
  simp only [List.replicate_succ, List.isEmpty_cons, Bool.false_eq_true, if_false, hmay, forAll, List.map_cons, List.map_replicate, hone,
    phases, hagain, always, List.append_nil, State.clearReport]

/-- What the clear of an object's fence leaves, whichever session has caused it (R148, R476). -/
theorem fenceClear_object_leaves (ho : o < 512) (hf : s.objState o = 4) (n : Nat) :
    let t := s.does (causedBy n (fenceClear 0 1 o))
    t.objState o = 1 ∧ (t.obj o).record = none ∧ s.Frame [Key.obj.OBJ_STATE o, Key.fence.CLEARS, Key.evt.EVT_RAISED] t := by
  have htakes (t : Took) (x : State) : Confined [] (fun _ => ()) (objTakes o t x) := by simp [objTakes]
  have hreport : Confined [Key.fence.CLEARS, Key.evt.EVT_RAISED] (fun u => u.objs) (s.clearReport o) := by simp [State.clearReport]
  have hunfence : Confined [Key.obj.OBJ_STATE o, Key.evt.EVT_RAISED] (fun _ => ()) (unfenceEffects o 1) := by simp [unfenceEffects]
  have hdoes : s.does (causedBy n (fenceClear 0 1 o)) = ((s.run ((unfenceEffects o 1).map (Effect.by n))).run
      (objTakes o { sample := s.workNext } (s.run (unfenceEffects o 1)))).run ((s.clearReport o).map (Effect.by n)) := by
    rw [State.does, causedBy, fenceClear_object ho hf, List.map_append, List.map_append, State.run_append, State.run_append]
    rfl
  have hclears : Key.obj.OBJ_STATE o ≠ Key.fence.CLEARS := by simp only [Key.obj.OBJ_STATE, Key.fence.CLEARS]; omega
  have hevent : Confined [Key.evt.EVT_RAISED] (fun _ => ()) [.event Ev.OBJECT_UNFENCED (args16 [o, 1])] := by simp
  rw [hdoes]
  refine ⟨?_, ?_, ?_⟩
  · rw [State.objState, ((hreport.by n).frame _).nat (by simp [hclears, objState_ne_evtRaised]),
      ((htakes _ _).frame _).nat List.not_mem_nil]
    exact (hevent.by n).objState_written ho (by simp [objState_ne_evtRaised]) (by decide) s
  · rw [(hreport.by n).obj]
    exact (objTakes_leaves ..).1
  · exact (((hunfence.by n).frame s).mono (by simp)).trans
      ((((htakes _ _).frame _).mono (List.nil_subset _)).trans (((hreport.by n).frame _).mono (by simp)))

/-! ### The write of FENCE_CLEAR -/

theorem findIdx_congr {β : Type} {p q : β → Bool} {l : List β} (h : ∀ e ∈ l, p e = q e) : l.findIdx p = l.findIdx q := by
  induction l with
  | nil => rfl
  | cons e l ih =>
    obtain ⟨he, hl⟩ := List.forall_mem_cons.1 h
    rw [List.findIdx_cons, List.findIdx_cons, he, ih hl]

/-- The line of `specialEffects` for an entry is that of the first index of its table, where every line covers all the table's indices,
or none. -/
theorem findIdx_of_table {base n : Nat} (hlines : ∀ e ∈ specialKeys,
      (e.1 ≤ base ∧ base + n ≤ e.1 + e.2.1) ∨ e.1 + e.2.1 ≤ base ∨ base + n ≤ e.1)
    {i : Nat} (hi : i < n) {sub : Nat} (hsub : sub < 256) :
    specialKeys.findIdx (coversKey ((base + i) * 256 + sub)) = specialKeys.findIdx (coversKey (base * 256 + sub)) := by
  have hkey (b : Nat) : (b * 256 + sub) / 256 = b ∧ (b * 256 + sub) % 256 = sub := by omega
  refine findIdx_congr fun e he => ?_
  have hline := hlines e he
  have hcovers : decide (e.1 ≤ base + i ∧ base + i < e.1 + e.2.1) = decide (e.1 ≤ base ∧ base < e.1 + e.2.1) :=
    decide_eq_decide.2 (by omega)
  simp only [coversKey, hkey, hcovers]

theorem entryDoes_objectFenceClear (ho : o < 512) (w : Writer) :
    entryDoes w (Key.obj.FENCE_CLEAR o) (.num 1) = fenceClear 0 1 o := by
  have hindex : Key.obj.FENCE_CLEAR o / 256 = 0x5800 + o := by simp only [Key.obj.FENCE_CLEAR]; omega
  have hline : specialKeys.findIdx (coversKey (Key.obj.FENCE_CLEAR o)) = 46 :=
    (findIdx_of_table (n := 512) (by decide) ho (by decide)).trans (by decide)
  refine (entryDoes_of_findIdx hline rfl).trans ?_
  rw [hindex, Nat.add_sub_cancel_left]
  rfl

theorem reserved_objectFenceClear (o : Nat) (v : Value) : reserved (Key.obj.FENCE_CLEAR o) v = v := by
  have hne {k : Nat} (hk : k < 0x580000) : Key.obj.FENCE_CLEAR o ≠ k := by simp only [Key.obj.FENCE_CLEAR]; omega
  simp (disch := decide) only [reserved, hne, if_false]

theorem changesAtCrossing_objectFenceClear (ho : o < 512) (s : State) : s.changesAtCrossing (Key.obj.FENCE_CLEAR o) = false := by
  have hindex : Key.obj.FENCE_CLEAR o / 256 < 0x6000 := by simp only [Key.obj.FENCE_CLEAR]; omega
  have hzc : isZcEntry (Key.obj.FENCE_CLEAR o / 256) (Key.obj.FENCE_CLEAR o % 256) = false := by
    have hout : Key.obj.FENCE_CLEAR o / 256 ≠ 0x4022 := by simp only [Key.obj.FENCE_CLEAR]; omega
    rw [isZcEntry, if_neg (by omega), if_neg (by omega), beq_eq_false_iff_ne.2 hout, Bool.false_and]
  rw [State.changesAtCrossing, hzc, decide_eq_false (by omega), Bool.false_and, Bool.false_or]

/-! ### The obligation -/

/-- Settles O33: a due record that passes is taken, sets ACTIVE and then writes other entries of the slot; one that fails, and the
timeout, set the state and raise an event; the clear is the effect of the entry, and what it does a second time, where the dictionary
lists the slot twice, is nothing. -/
theorem metadataAppliesToItsObject : Obligations.MetadataAppliesToItsObject := by
  intro s o _
  have ho := o.isLt
  refine ⟨fun p m rest hpend hdue hused => ⟨fun hpass => ⟨_, rfl, metadataApply_pass_leaves hpend hdue hused ho hpass⟩,
    fun cause hfail => ⟨_, rfl, metadataApply_fail_leaves hpend hdue hused ho hfail⟩⟩,
    fun p hlast hms hstate hpend hdue => ⟨_, rfl, metaTimeout_leaves ho hlast hms hstate hpend hdue⟩, fun w => ?_⟩
  refine writes_of_effect (fun _ => rfl) (row_objectFenceClear ho) (.inl rfl) ?_ (reserved_objectFenceClear ..)
    (changesAtCrossing_objectFenceClear ho) (entryDoes_objectFenceClear ho _) fun s _ _ hf a => ?_
  · simp only [Key.obj.FENCE_CLEAR, Key.mode.MODE_REQUEST]; omega
  obtain ⟨hstate, hrecord, hkeep⟩ := fenceClear_object_leaves ho hf w.session
  have hanswer := answer_frame (s.does (causedBy w.session (fenceClear 0 1 o))) a
  exact ⟨(hanswer.nat List.not_mem_nil).trans hstate, hrecord, hkeep.trans (hanswer.mono (List.nil_subset _))⟩

end Sys2Proof.Machine
end

section
/-!
Waits for a zero crossing (R154, R362): the sample at which a wait is judged, how the only wait ends, and what is counted with it.
-/

namespace Sys2Proof.Machine

variable {s : State} {c key : Nat} {w : ZcWait}

/-! ### The sample at which a wait is judged -/

/-- The parts of a gain's key by which the unit and the signal of its wait are found. -/
theorem gain_fields (hc : c < 16) : Key.gn.GAIN c / 4096 = 0x640 ∧ Key.gn.GAIN c / 256 = 0x6400 + c ∧
    Key.gn.GAIN c / 256 % 16 = c ∧ Key.gn.GAIN c / 65536 = 0x64 ∧ Key.gn.GAIN c < 2 ^ 24 := by
  simp only [Key.gn.GAIN]; omega

theorem start_fields (hc : c < 16) : Zc.start c / 4096 = 0x1000 ∧ Zc.start c - 2 ^ 24 = c ∧ ¬ Zc.start c < 2 ^ 24 := by
  simp only [Zc.start, Zc.fn]; omega

/-- A start waits for stage 8 of its channel, at the sample that plays (R280). -/
theorem zcSample_start (hc : c < 16) (s : State) : s.zcSample (Zc.start c) = s.sampleNow := by
  obtain ⟨harea, hunit, -⟩ := start_fields hc
  have hkind : ¬ (2 ^ 24 ≤ Zc.start c ∧ (Zc.start c - 2 ^ 24) / 65536 = 5) := by omega
  have hplace : s.watchPlace (Zc.start c) = none := by
    rw [State.watchPlace, harea, if_neg (by decide), if_neg (by decide), if_neg hkind]
  rw [State.zcSample, hplace]

/-- A gain waits for the input of stage 6 of its channel, at the sample that the chain takes next (R154, log 26). -/
theorem zcSample_gain (hc : c < 16) (s : State) : s.zcSample (Key.gn.GAIN c) = s.chainNext c := by
  obtain ⟨harea, -, hunit, -, -⟩ := gain_fields hc
  have hplace : s.watchPlace (Key.gn.GAIN c) = some (c, 7) := by simp [State.watchPlace, harea, hunit]
  rw [State.zcSample, hplace]

/-! ### The end of a wait -/

theorem does_zeroCrossing_of_absent (h : (s.units.zc.any fun w => w.key == key) = false) : s.does (zeroCrossing key) = s := by
  simp [State.does, zeroCrossing, h]

theorem does_zcTimeout_of_absent (h : (s.units.zc.any fun w => w.key == key) = false) : s.does (zcTimeout key) = s := by
  have hwait : s.zcWait key = none := by simpa [State.zcWait, List.find?_eq_none, List.any_eq_false] using h
  simp [State.does, zcTimeout, hwait]

/-- A wait whose signal crosses within its limit ends by the crossing (R362). -/
theorem does_zeroCrossing (hzc : s.units.zc = [w]) (hkey : w.key = key) (hfrom : w.start ≤ s.zcSample key)
    (hto : s.zcSample key ≤ w.start + w.limit) (hcross : s.crosses key = true) :
    s.does (zeroCrossing key) = s.does (zcEnd w false) := by
  subst hkey
  simp [State.does, zeroCrossing, hzc, hcross, hfrom, hto, forAll, phases]

/-- A wait ends by its timeout past its limit, and at its last sample where the signal does not cross there (R11, R362). -/
theorem does_zcTimeout (hzc : s.units.zc = [w]) (hkey : w.key = key) (hlate : w.start + w.limit < s.zcSample key ∨
      (w.start + w.limit = s.zcSample key ∧ s.crosses key = false)) : s.does (zcTimeout key) = s.does (zcEnd w true) := by
  subst hkey
  have hwait : s.zcWait w.key = some w := by simp [State.zcWait, hzc]
  have hpast : ¬ s.zcSample w.key < w.start + w.limit := by omega
  have hcross : ¬ (s.zcSample w.key = w.start + w.limit ∧ s.crosses w.key = true) := by
    rintro ⟨hlast, hx⟩
    obtain hlt | ⟨-, hno⟩ := hlate
    · omega
    · exact Bool.false_ne_true (hno.symm.trans hx)
  simp only [State.does, zcTimeout, hwait, if_neg hpast, if_neg hcross]

/-! ### What is counted with it -/

/-- The counter of waits that end by a crossing, or by their timeout (Table 11-11). -/
def zcCounter (timeout : Bool) : Nat := if timeout then Key.zc.ZC_TIMEOUTS else Key.zc.ZC_WAITS

/-- What the count of a wait writes (R364). -/
def zcKeys (timeout : Bool) : List Nat := [zcCounter timeout, Key.zc.ZC_LONGEST]

section Count
variable {timeout : Bool}

theorem zcCount_within {α : Type} {π : Units → α} (w : ZcWait) : Phase.Within (zcKeys timeout) π (zcCount w timeout) := by
  intro s
  simp [zcCount, zcKeys, zcCounter]

theorem num_zcCount (s : State) (w : ZcWait) :
    (s.does (zcCount w timeout)).num (zcCounter timeout) = (s.num (zcCounter timeout) + 1) % 2 ^ 32 := by
  have hkey : Dict.width (zcCounter timeout) = some (32, false) ∧ zcCounter timeout ≠ Key.zc.ZC_LONGEST := by
    cases timeout <;> decide +kernel
  obtain ⟨hwidth, hne⟩ := hkey
  have hlongest : Effect.Within [Key.zc.ZC_LONGEST] (fun _ => ())
      (.nat Key.zc.ZC_LONGEST (max (s.nat Key.zc.ZC_LONGEST) (s.zcSample w.key - w.start))) := by simp
  rw [State.does, zcCount, State.run_cons, State.run_cons, State.run_nil, ← zcCounter,
    (hlongest.frame _).num (by simpa using hne), State.num_bump _ hwidth]

theorem units_zcCount (s : State) (w : ZcWait) : (s.does (zcCount w timeout)).units = s.units := by
  simp [State.does, zcCount, Effect.nat]

/-- A wait that ends is counted, and then its change applies. -/
theorem does_zcEnd (s : State) (w : ZcWait) :
    s.does (zcEnd w timeout) = (s.does (zcCount w timeout)).does (zcApply w timeout) := by
  rw [zcEnd, State.does_phases_cons, State.does_phases_cons, State.does_phases_nil]

/-- The state in which a wait has been counted and is gone, and its change has yet to act. -/
def State.waitEnded (s : State) (w : ZcWait) (timeout : Bool) : State := (s.does (zcCount w timeout)).apply (zcDrop w.key)

theorem zcDrop_frame (s : State) (key : Nat) : s.Frame [] (s.apply (zcDrop key)) :=
  Effect.Within.frame (π := fun _ => ()) (by simp) s

theorem waitEnded_frame (s : State) (w : ZcWait) : s.Frame (zcKeys timeout) (s.waitEnded w timeout) :=
  ((zcCount_within (π := fun _ => ()) w).frame s).trans ((zcDrop_frame _ _).mono (List.nil_subset _))

theorem num_waitEnded (s : State) (w : ZcWait) :
    (s.waitEnded w timeout).num (zcCounter timeout) = (s.num (zcCounter timeout) + 1) % 2 ^ 32 := by
  rw [State.waitEnded, (zcDrop_frame _ _).num List.not_mem_nil, num_zcCount]

theorem units_waitEnded (s : State) (w : ZcWait) :
    (s.waitEnded w timeout).units = s.units.withZc (s.units.zc.filter fun x => x.key != w.key) := by
  rw [State.waitEnded, zcDrop, State.apply_unit_units, units_zcCount]
  rfl

theorem chan_waitEnded (s : State) (w : ZcWait) (c : Nat) : (s.waitEnded w timeout).chan c = s.chan c := by
  rw [State.chan, units_waitEnded]
  rfl

end Count

end Sys2Proof.Machine
end

section
/-!
A start and a gain whose wait ends (R154, R155, R280, R362): what the count and the change leave.
-/

namespace Sys2Proof.Machine

variable {s : State} {c : Nat} {w : ZcWait} {timeout : Bool}

/-- Where nothing waits, every entry's value plays. -/
theorem State.used_of_no_waits (h : s.units.zc = []) (k : Nat) : s.used k = s.get k := by
  simp [State.used, State.zcWait, h]

theorem chan_frame (s : State) (c : Nat) (f : Chan → Chan) : s.Frame [] (s.apply (.chan c f)) :=
  Effect.Within.frame (π := fun _ => ()) (by simp) s

/-- Whether the strobe of the present instant has run depends on the counter and three entries. -/
theorem State.Frame.strobed {ks : List Nat} {t : State} (h : s.Frame ks t) (hmtb : t.mtb = s.mtb)
    (hks : ∀ k ∈ [Key.mtb.FS_SELECT, Key.mtb.SAMPLE_INDEX, Key.mtb.EPOCH_OFFSET], k ∉ ks) : t.strobed = s.strobed := by
  simp only [List.forall_mem_cons] at hks
  obtain ⟨hfs, hindex, hoffset, -⟩ := hks
  simp only [State.strobed, State.sampleNow, State.now, State.mtbNs, State.fs, hmtb, h.num hfs, h.nat hindex, h.num hoffset]

/-! ### A start -/

/-- What a chain gate that begins to rise writes (Table 09-4). -/
def chainUpKeys (c : Nat) : List Nat := Key.pw.SEQ_PHASE c :: fadeKeys c

theorem chainUp_within {α : Type} {π : Units → α} (h : ∀ u f, π (Units.onChan u c f) = π u) :
    Phase.Within (chainUpKeys c) π (chainUp c) := fun s => by
  have hout : Phase.Within (chainUpKeys c) π (setOut c 2) := (setOut_within c 2).mono (List.subset_cons_self ..)
  exact Phase.within_phases (by simpa [h, chainUpKeys] using hout) s

theorem does_chainUp (s : State) (c : Nat) : s.does (chainUp c) = ((s.does (setOut c 2)).apply (.num (Key.pw.SEQ_PHASE c) 4)).apply
    (.chan c fun x => { x with gc := x.gc.start 1 32 s.strobed }) := by
  rw [State.does, chainUp]
  refine (State.does_phases_cons s _ _).trans ?_
  rw [State.does_phases_cons, State.does_phases_nil, State.does_always, State.run_cons, State.run_cons, State.run_nil]

theorem width_seqPhase : ∀ c < 16, Dict.width (Key.pw.SEQ_PHASE c) = some (8, false) := by decide +kernel

/-- The channel plays, in CHAIN_RAMP_UP, and its chain gate rises over 32 samples (Table 09-4). -/
theorem chainUp_leaves (hc : c < 16) (s : State) : (s.does (chainUp c)).phase c = 4 ∧ (s.does (chainUp c)).outState c = 2 ∧
    ((s.does (chainUp c)).chan c).gc = (s.chan c).gc.start 1 32 s.strobed := by
  have hout : Key.pw.OUT_STATE c ∉ [Key.pw.SEQ_PHASE c] := by
    simp only [List.mem_singleton, Key.pw.OUT_STATE, Key.pw.SEQ_PHASE]; omega
  have hphase : Effect.Within [Key.pw.SEQ_PHASE c] (fun u => Tbl.at ({} : Chan) u.chans c) (.num (Key.pw.SEQ_PHASE c) 4) := by simp
  rw [does_chainUp]
  refine ⟨?_, ?_, ?_⟩
  · rw [State.phase, (chan_frame _ c _).nat List.not_mem_nil]
    exact State.nat_reg_of_lt (n := 4) (width_seqPhase c hc) _ (by decide)
  · rw [State.outState, (chan_frame _ c _).nat List.not_mem_nil, (hphase.frame _).nat hout]
    exact outState_setOut hc (by decide) s
  · rw [State.chan_apply_chan, if_pos rfl]
    refine congrArg (fun x : Chan => x.gc.start 1 32 s.strobed) ?_
    exact (hphase.units (fun _ _ _ _ _ _ => rfl) _).trans (chan_setOut s c 2 c)

/-- A start whose wait has ended plays: its chain gate begins to rise (R280). -/
theorem does_zcEnd_start (hc : c < 16) (hkey : w.key = Zc.start c) (s : State) :
    s.does (zcEnd w timeout) = (s.waitEnded w timeout).does (chainUp c) := by
  obtain ⟨-, hunit, hfn⟩ := start_fields hc
  have hkind : c / 65536 = 0 ∧ c % 65536 = c := by omega
  have hphase : zcApply w timeout = phases [always [zcDrop w.key], chainUp c] := by
    simp only [zcApply, hkey, hunit, if_neg hfn, hkind]
  rw [does_zcEnd, hphase, State.does_phases_cons, State.does_phases_cons, State.does_phases_nil]
  rfl

theorem zcCounter_notMem_chainUpKeys (c : Nat) : zcCounter timeout ∉ chainUpKeys c := by
  have hlt : zcCounter timeout < 0x800000 ∧ zcCounter timeout ≠ Key.evt.EVT_RAISED := by cases timeout <;> decide
  simp only [chainUpKeys, fadeKeys, List.mem_cons, List.not_mem_nil, or_false, hlt, Key.pw.SEQ_PHASE, Key.pw.OUT_STATE]
  omega

/-- What the end of a start's wait leaves, by a crossing or by the timeout (R280, R362, R364). -/
theorem zcEnd_start_leaves (hc : c < 16) (hkey : w.key = Zc.start c) (s : State) :
    let t := s.does (zcEnd w timeout)
    t.zcWait (Zc.start c) = none ∧ t.num (zcCounter timeout) = (s.num (zcCounter timeout) + 1) % 2 ^ 32 ∧ t.phase c = 4 ∧
      t.outState c = 2 ∧ (t.chan c).gc = (s.chan c).gc.start 1 32 s.strobed ∧ t.mode = s.mode ∧ t.store = s.store := by
  have hkeep := waitEnded_frame (timeout := timeout) s w
  have hwait : (s.waitEnded w timeout).zcWait (Zc.start c) = none := by
    simp [State.zcWait, units_waitEnded, Units.withZc, hkey]
  have hstrobed : (s.waitEnded w timeout).strobed = s.strobed :=
    hkeep.strobed (by simp [State.waitEnded, zcDrop, State.apply]) (by cases timeout <;> decide)
  have hup := (chainUp_within (c := c) (π := fun u => u.zc) fun _ _ => rfl).frame (s.waitEnded w timeout)
  have hzc := (chainUp_within (c := c) (π := fun u => u.zc) fun _ _ => rfl).units (fun _ _ _ _ _ _ => rfl) (s.waitEnded w timeout)
  obtain ⟨hphase, hout, hgate⟩ := chainUp_leaves hc (s.waitEnded w timeout)
  rw [does_zcEnd_start hc hkey]
  refine ⟨?_, ?_, hphase, hout, ?_, hup.mode.trans hkeep.mode, hup.store.trans hkeep.store⟩
  · rw [State.zcWait, hzc]
    exact hwait
  · rw [hup.num (zcCounter_notMem_chainUpKeys c), num_waitEnded]
  · rw [hgate, chan_waitEnded, hstrobed]

/-! ### A gain -/

theorem gain_notMem_zcKeys (c : Nat) : Key.gn.GAIN c ∉ zcKeys timeout := by
  have hne {k : Nat} (hk : k < 0x640000) : Key.gn.GAIN c ≠ k := by simp only [Key.gn.GAIN]; omega
  cases timeout <;> simp (disch := decide) [zcKeys, zcCounter, hne]

/-- A gain whose wait has ended applies at once, or over a ramp from the value in use after a timeout (R362). -/
theorem does_zcEnd_gain (hc : c < 16) (hkey : w.key = Key.gn.GAIN c) (s : State) :
    s.does (zcEnd w timeout) = (s.waitEnded w timeout).apply (.chan c fun x => { x with
      ramps := x.ramps.filter (fun r => r.1 != Key.gn.GAIN c) ++
        if timeout then [(Key.gn.GAIN c, s.used (Key.gn.GAIN c), 0)] else [] }) := by
  obtain ⟨-, hindex, hchan, harea, hentry⟩ := gain_fields hc
  have hmap : 0x6400 + c ≠ 0x4022 := by omega
  have hphase : zcApply w timeout = chanZcApply (Key.gn.GAIN c) timeout := by
    simp only [zcApply, hkey, if_pos hentry, hindex, if_neg hmap, harea]
    rfl
  have hcount := (zcCount_within (timeout := timeout) (π := fun _ => ()) w).frame s
  have hused : (s.does (zcCount w timeout)).used (Key.gn.GAIN c) = s.used (Key.gn.GAIN c) := by
    rw [State.used, State.used, State.zcWait, units_zcCount, hcount.get (gain_notMem_zcKeys c), State.zcWait]
  rw [does_zcEnd, hphase, ← hused, State.waitEnded, hkey, State.does, chanZcApply]
  simp only [hchan, harea]
  rfl

/-- What the end of a gain's wait leaves, the only one, by a crossing or by the timeout (R362, R364). -/
theorem zcEnd_gain_leaves (hc : c < 16) (hzc : s.units.zc = [w]) (hkey : w.key = Key.gn.GAIN c) :
    let t := s.does (zcEnd w timeout)
    t.units.zc = [] ∧ (t.chan c).ramps = (s.chan c).ramps.filter (fun r => r.1 != Key.gn.GAIN c) ++
      (if timeout then [(Key.gn.GAIN c, s.used (Key.gn.GAIN c), 0)] else []) ∧ s.Frame (zcKeys timeout) t := by
  rw [does_zcEnd_gain hc hkey]
  refine ⟨?_, ?_, (waitEnded_frame s w).trans ((chan_frame _ c _).mono (List.nil_subset _))⟩
  · simp [Effect.chan, State.apply, units_waitEnded, Units.withZc, hzc]
  · rw [State.chan_apply_chan, if_pos rfl, chan_waitEnded]

/-! ### The obligation -/

/-- Settles O36: a wait ends by `zcEnd`, at a crossing or after its limit; the same lemma on it says what each way leaves, of a start
and of a gain. -/
theorem waitsEndAtCrossingsAndTimeouts : Obligations.WaitsEndAtCrossingsAndTimeouts := by
  refine ⟨fun s key habsent => ?_, fun s c w hzc hkey => ?_, fun s c w hzc hkey => ?_⟩
  · exact ⟨congrArg Host.Outcome.next (does_zeroCrossing_of_absent habsent),
      congrArg Host.Outcome.next (does_zcTimeout_of_absent habsent)⟩
  · have hsample := zcSample_start c.isLt s
    refine ⟨fun hfrom hto hcross => ⟨s.does (zeroCrossing (Zc.start c)), rfl, ?_⟩,
      fun hlate => ⟨s.does (zcTimeout (Zc.start c)), rfl, ?_⟩⟩
    · rw [does_zeroCrossing hzc hkey (by rwa [hsample]) (by rwa [hsample]) hcross]
      exact zcEnd_start_leaves c.isLt hkey s
    · rw [does_zcTimeout hzc hkey (by rwa [hsample])]
      exact zcEnd_start_leaves c.isLt hkey s
  · have hsample := zcSample_gain c.isLt s
    refine ⟨fun hfrom hto hcross => ⟨s.does (zeroCrossing (Key.gn.GAIN c)), rfl, ?_⟩,
      fun hlate => ⟨s.does (zcTimeout (Key.gn.GAIN c)), rfl, ?_⟩⟩
    · rw [does_zeroCrossing hzc hkey (by rwa [hsample]) (by rwa [hsample]) hcross]
      obtain ⟨hwaits, hramps, hkeep⟩ := zcEnd_gain_leaves (timeout := false) c.isLt hzc hkey
      refine ⟨hwaits, fun r hr => ?_, ?_, hkeep⟩
      · have hmem : r ∈ (s.chan c).ramps ∧ r.1 ≠ Key.gn.GAIN c := by simpa [hramps] using hr
        exact hmem.2
      · rw [State.used_of_no_waits hwaits, hkeep.get (gain_notMem_zcKeys c)]
    · rw [does_zcTimeout hzc hkey (.inl (by rwa [hsample]))]
      obtain ⟨hwaits, hramps, hkeep⟩ := zcEnd_gain_leaves (timeout := true) c.isLt hzc hkey
      exact ⟨hwaits, by simp [hramps], hkeep⟩

end Sys2Proof.Machine
end

section
/-!
The fallback source, the FIR banks and the pinned gain of a channel (R165, R171, R178-R180): what their transitions write and leave.
-/

namespace Sys2Proof.Machine

variable {α : Type} {π : Units → α} {s : State} {c : Nat}

/-! ### Entries of a channel -/

theorem width_fbState : ∀ c < 16, Dict.width (Key.cin.FB_STATE c) = some (8, false) := by decide +kernel
theorem width_fbSwitches : ∀ c < 16, Dict.width (Key.cin.FB_SWITCHES c) = some (32, false) := by decide +kernel
theorem width_firState : ∀ c < 16, Dict.width (Key.fir.FIR_STATE c) = some (8, false) := by decide +kernel

theorem firState_ne_evtRaised (c : Nat) : Key.fir.FIR_STATE c ≠ Key.evt.EVT_RAISED := by
  simp only [Key.fir.FIR_STATE, Key.evt.EVT_RAISED]; omega

@[simp] theorem State.chan_apply_event (s : State) (i code : Nat) (a : List Byte) : (s.apply (.event code a)).chan i = s.chan i :=
  (show Effect.Within [Key.evt.EVT_RAISED] (fun u => Tbl.at ({} : Chan) u.chans i) (.event code a) by simp).units
    (fun _ _ _ _ _ _ => rfl) s

/-! ### The beginning of a switch -/

/-- A wait that begins runs, whether it is new or takes the place of one (R155). -/
theorem zcWait_zcStartAt (s : State) (key : Nat) (v : Value) (start : Nat) :
    ((s.does (zcStartAt key v start)).zcWait key).isSome = true := by
  rw [State.zcWait, List.find?_isSome]
  simp only [State.does, zcStartAt, State.run_cons, State.run_nil, State.apply_unit_units]
  split
  case isTrue h =>
    obtain ⟨x, hx, hkey⟩ := List.any_eq_true.1 h
    have hkey : x.key = key := by simpa using hkey
    exact ⟨_, List.mem_map_of_mem hx, by simp [hkey]⟩
  case isFalse => exact ⟨_, List.mem_append_right _ (List.mem_singleton_self _), by simp⟩

/-- A switch to or from the fallback source begins: its state is shown, the crossfade is set back, and a wait runs (R178, R179). -/
def fallbackSwitch (c new : Nat) (f : Chan → Chan) (v : Value) (start : Nat) : Phase :=
  phases [always [.num (Key.cin.FB_STATE c) new, .chan c f], zcStartAt (Zc.fallback c) v start]

theorem fallbackSwitch_leaves (hc : c < 16) {new : Nat} (hn : new < 256) (f : Chan → Chan) (v : Value) (start : Nat) (s : State) :
    let t := s.does (fallbackSwitch c new f v start)
    t.fbState c = new ∧ (t.zcWait (Zc.fallback c)).isSome = true ∧ s.Frame [Key.cin.FB_STATE c] t := by
  have hstart : Phase.Within [] (fun _ => ()) (zcStartAt (Zc.fallback c) v start) := zcStartAt_within (fun _ _ => rfl) _ _ _
  have hbegin : Confined [Key.cin.FB_STATE c] (fun _ => ()) [.num (Key.cin.FB_STATE c) new, .chan c f] := by simp
  rw [fallbackSwitch, State.does_phases_cons, State.does_phases_cons, State.does_phases_nil, State.does_always]
  refine ⟨?_, zcWait_zcStartAt _ _ _ _, (hbegin.frame s).trans ((hstart.frame _).mono (List.nil_subset _))⟩
  rw [State.fbState, (hstart.frame _).nat List.not_mem_nil, State.run_cons, State.run_cons, State.run_nil,
    (chan_frame _ c f).nat List.not_mem_nil]
  exact State.nat_reg_of_lt (width_fbState c hc) s hn

/-- The switch to the fallback source begins where one is set, none is in use, and the network is lost or the mode
HOLDOVER (R178). -/
theorem does_fallbackEngage (hkind : s.num (Key.cin.FB_KIND c) ≠ 0) (hoff : s.fbState c = 0) (hchains : s.mode.chains = true)
    (hmeasure : s.mode ≠ .measure)
    (hcause : s.passed (s.chan c).lostSince (s.nat (Key.cin.FALLBACK_DELAY c) * 1000000) = true ∨ s.mode = .holdover) :
    s.does (fallbackEngage c) = s.does (fallbackSwitch c 1 (fun x => { x with
      fbCause := if s.passed (s.chan c).lostSince (s.nat (Key.cin.FALLBACK_DELAY c) * 1000000) then 0 else 1,
      fbLen := 0, fbLeft := 0 }) (.num 1) (s.chainNext c)) := by
  rw [State.does, fallbackEngage, if_pos ⟨hkind, hoff, hcause, hchains, hmeasure⟩]
  rfl

/-- The return begins after 2 s of reception outside HOLDOVER and MEASURE (R179, R305). -/
theorem does_fallbackRelease (hon : s.fbState c = 2) (hholdover : s.mode ≠ .holdover) (hmeasure : s.mode ≠ .measure)
    (hreceives : s.passed (s.chan c).recvSince 2000000000 = true) :
    s.does (fallbackRelease c) =
      s.does (fallbackSwitch c 3 (fun x => { x with fbLen := 0, fbLeft := 0 }) (.num 0) (s.chainNext c)) := by
  rw [State.does, fallbackRelease, if_pos ⟨hon, hholdover, hmeasure, hreceives⟩]
  rfl

/-! ### The end of a switch -/

/-- The network windows of a channel write NET_STATE alone (R177, R179). -/
theorem netUpdate_within_windows
    (h : ∀ u (l r : Option Nat), π (Units.onChan u c fun x => { x with lostSince := l, recvSince := r }) = π u) :
    Phase.Within [Key.cin.NET_STATE c] π (netUpdate c) := fun s => by simp [netUpdate, h]

/-- The event of a switch that has ended (R180). -/
def fallbackEvent (s : State) (c : Nat) : Effect :=
  if s.fbState c = 1 then .event Ev.FALLBACK_ENGAGED (args16 [c, (s.chan c).fbCause]) else .event Ev.FALLBACK_RELEASED (args16 [c])

theorem fallbackEvent_within (s : State) (c : Nat) : (fallbackEvent s c).Within [Key.evt.EVT_RAISED] π := by
  unfold fallbackEvent
  split <;> exact List.mem_singleton_self _

/-- A channel whose switch has ended: no crossfade, and the windows of the opposite switch start afresh (R180). -/
def Chan.switched (x : Chan) : Chan := { x with fbLen := 0, lostSince := none, recvSince := none }

/-- The state in which the end of a switch is shown and counted, and nothing else has changed (R178-R180). -/
def State.switchShown (s : State) (c : Nat) : State :=
  (s.apply (.nat (Key.cin.FB_STATE c) (if s.fbState c = 1 then 2 else 0))).apply (.bump (Key.cin.FB_SWITCHES c) 1)

theorem switchShown_leaves (hc : c < 16) (s : State) : (s.switchShown c).fbState c = (if s.fbState c = 1 then 2 else 0) ∧
    (s.switchShown c).num (Key.cin.FB_SWITCHES c) = (s.num (Key.cin.FB_SWITCHES c) + 1) % 2 ^ 32 ∧
    s.Frame [Key.cin.FB_STATE c, Key.cin.FB_SWITCHES c] (s.switchShown c) := by
  have hkeys : Key.cin.FB_STATE c ∉ [Key.cin.FB_SWITCHES c] ∧ Key.cin.FB_SWITCHES c ∉ [Key.cin.FB_STATE c] := by
    simp only [List.mem_singleton, Key.cin.FB_STATE, Key.cin.FB_SWITCHES]; omega
  obtain ⟨hstate, hcount⟩ := hkeys
  unfold State.switchShown
  obtain ⟨new, hnew⟩ : ∃ new, new = if s.fbState c = 1 then 2 else 0 := ⟨_, rfl⟩
  rw [← hnew]
  have hset : Effect.Within [Key.cin.FB_STATE c] (fun _ => ()) (.nat (Key.cin.FB_STATE c) new) := by simp
  have hbump : Effect.Within [Key.cin.FB_SWITCHES c] (fun _ => ()) (.bump (Key.cin.FB_SWITCHES c) 1) := by simp
  refine ⟨?_, ?_, ((hset.frame s).mono (by simp)).trans ((hbump.frame _).mono (by simp))⟩
  · rw [State.fbState, (hbump.frame _).nat hstate]
    exact State.nat_reg_of_lt (width_fbState c hc) s (by rw [hnew]; split <;> decide)
  · rw [State.num_bump _ (width_fbSwitches c hc), (hset.frame s).num hcount]

/-- A switch whose crossfade has run ends: it is shown and counted, the channel and the event follow, and then the windows. -/
theorem does_fallbackEnd (hbusy : s.fbState c = 1 ∨ s.fbState c = 3) (hlen : (s.chan c).fbLen ≠ 0)
    (hleft : (s.chan c).fbLeft = 0) : s.does (fallbackEnd c) =
      (((s.switchShown c).apply (.chan c Chan.switched)).apply (fallbackEvent s c)).does (netUpdate c) := by
  have hnat : (if s.fbState c = 1 then 2 else 0 : Int) = (if s.fbState c = 1 then 2 else 0 : Nat) := by split <;> rfl
  rw [State.does, fallbackEnd, if_pos ⟨hbusy, hlen, hleft⟩]
  refine (State.does_phases_cons s _ _).trans ?_
  rw [State.does_phases_cons, State.does_phases_nil, hnat]
  rfl

/-- What the end of a switch leaves (R178-R180). -/
theorem fallbackEnd_leaves (hc : c < 16) (hbusy : s.fbState c = 1 ∨ s.fbState c = 3) (hlen : (s.chan c).fbLen ≠ 0)
    (hleft : (s.chan c).fbLeft = 0) :
    let t := s.does (fallbackEnd c)
    t.fbState c = (if s.fbState c = 1 then 2 else 0) ∧ (t.chan c).fbLen = 0 ∧
      t.num (Key.cin.FB_SWITCHES c) = (s.num (Key.cin.FB_SWITCHES c) + 1) % 2 ^ 32 ∧
      s.Frame [Key.cin.FB_STATE c, Key.cin.FB_SWITCHES c, Key.cin.NET_STATE c, Key.evt.EVT_RAISED] t := by
  have hkeys : Key.cin.FB_STATE c ∉ [Key.cin.NET_STATE c, Key.evt.EVT_RAISED] ∧
      Key.cin.FB_SWITCHES c ∉ [Key.cin.NET_STATE c, Key.evt.EVT_RAISED] := by
    simp only [List.mem_cons, List.not_mem_nil, or_false, Key.cin.FB_STATE, Key.cin.FB_SWITCHES, Key.cin.NET_STATE,
      Key.evt.EVT_RAISED]
    omega
  obtain ⟨hstateRest, hcountRest⟩ := hkeys
  obtain ⟨hstate, hcount, hshown⟩ := switchShown_leaves hc s
  have hnet : Phase.Within [Key.cin.NET_STATE c] (fun u => (Tbl.at {} u.chans c).fbLen) (netUpdate c) :=
    netUpdate_within_windows fun u l r => by simp [Units.onChan, Tbl.at_upd]
  have hevent := fallbackEvent_within (π := fun u => (Tbl.at {} u.chans c).fbLen) s c
  have hrest : (s.switchShown c).Frame [Key.cin.NET_STATE c, Key.evt.EVT_RAISED] (s.does (fallbackEnd c)) := by
    rw [does_fallbackEnd hbusy hlen hleft]
    exact (((chan_frame _ c _).mono (List.nil_subset _)).trans ((hevent.frame _).mono (by simp))).trans
      ((hnet.frame _).mono (by simp))
  refine ⟨(hrest.nat hstateRest).trans hstate, ?_, (hrest.num hcountRest).trans hcount,
    (hshown.mono (by simp)).trans (hrest.mono (by simp))⟩
  rw [does_fallbackEnd hbusy hlen hleft]
  refine (hnet.units (fun _ _ _ _ _ _ => rfl) _).trans ((hevent.units (fun _ _ _ _ _ _ => rfl) _).trans ?_)
  exact congrArg Chan.fbLen ((State.chan_apply_chan _ c c Chan.switched).trans (if_pos rfl))

/-! ### The FIR banks -/

/-- What the end of a bank's crossfade leaves (R165). -/
theorem firEnd_leaves (hc : c < 16) (hbusy : s.nat (Key.fir.FIR_STATE c) = 2 ∨ s.nat (Key.fir.FIR_STATE c) = 3)
    (hleft : s.num (Key.fir.FIR_XFADE_LEFT c) = 0) :
    let t := s.does (firEnd c)
    t.nat (Key.fir.FIR_STATE c) = (if s.nat (Key.fir.FIR_STATE c) = 2 then 1 else 0) ∧ (t.chan c).firLen = 0 ∧
      s.Frame [Key.fir.FIR_STATE c, Key.evt.EVT_RAISED] t := by
  obtain ⟨bank, hbank⟩ : ∃ bank, bank = if s.nat (Key.fir.FIR_STATE c) = 2 then 1 else 0 := ⟨_, rfl⟩
  have hphase : firEnd c s = [.nat (Key.fir.FIR_STATE c) bank, .chan c fun x => { x with firLen := 0 },
      .event Ev.FIR_SWITCHED (args16 [c, bank])] := by
    rw [firEnd, if_pos ⟨by omega, hleft⟩, hbank]
  have hall : Confined [Key.fir.FIR_STATE c, Key.evt.EVT_RAISED] (fun _ => ()) (firEnd c s) := by simp [hphase]
  have hevent : Effect.Within [Key.evt.EVT_RAISED] (fun _ => ()) (.event Ev.FIR_SWITCHED (args16 [c, bank])) := by simp
  refine ⟨?_, ?_, hall.frame s⟩
  · rw [State.does, hphase, State.run_cons, State.run_cons, State.run_cons, State.run_nil,
      (hevent.frame _).nat (by simpa using firState_ne_evtRaised c), (chan_frame _ c _).nat List.not_mem_nil,
      State.nat_reg_of_lt (width_firState c hc) s (by rw [hbank]; split <;> decide), hbank]
  · rw [State.does, hphase, State.run_cons, State.run_cons, State.run_cons, State.run_nil, State.chan_apply_event,
      State.chan_apply_chan, if_pos rfl]

/-! ### The pinned gain -/

/-- An event raised while the management processor serves is counted (R426, R471). -/
theorem num_evtRaised_event (h : s.units.mgmt.absentAt = none) (code : Nat) (a : List Byte) :
    (s.apply (.event code a)).num Key.evt.EVT_RAISED = (s.num Key.evt.EVT_RAISED + 1) % 2 ^ 32 := by
  have hraise : s.apply (.event code a) = s.deliver (s.eventOf code a 0) := by
    simp [State.apply, Effect.event, State.raise, State.raiseNow, h]
  obtain ⟨u, hu⟩ := s.deliver_eq (s.eventOf code a 0)
  rw [hraise, hu]
  exact s.num_set (k := Key.evt.EVT_RAISED) (w := 32) (sg := false) (by decide +kernel) _

/-- What the report of a pinned gain leaves (R171). -/
theorem ceilingPinned_leaves (hpin : s.passed (s.chan c).pinSince 10000000000 = true) (htold : (s.chan c).pinTold = false) :
    let t := s.does (ceilingPinned c)
    (t.chan c).pinTold = true ∧
      (s.units.mgmt.absentAt = none → t.num Key.evt.EVT_RAISED = (s.num Key.evt.EVT_RAISED + 1) % 2 ^ 32) ∧
      s.Frame [Key.evt.EVT_RAISED] t := by
  obtain ⟨a, ha⟩ : ∃ a, ceilingPinned c s = [.chan c fun x => { x with pinTold := true }, .event Ev.CEILING_PINNED a] :=
    ⟨_, by rw [ceilingPinned, if_pos ⟨hpin, by simp [htold]⟩]⟩
  have hall : Confined [Key.evt.EVT_RAISED] (fun _ => ()) (ceilingPinned c s) := by simp [ha]
  refine ⟨?_, fun hserved => ?_, hall.frame s⟩
  · rw [State.does, ha, State.run_cons, State.run_cons, State.run_nil, State.chan_apply_event, State.chan_apply_chan, if_pos rfl]
  · rw [State.does, ha, State.run_cons, State.run_cons, State.run_nil, num_evtRaised_event,
      (chan_frame s c _).num List.not_mem_nil]
    exact hserved

/-! ### The obligation -/

/-- Settles O37: either beginning of a switch is `fallbackSwitch`; each end writes its own entries, and what follows it writes
others. -/
theorem fallbackAndFirTransitions : Obligations.FallbackAndFirTransitions := by
  intro s c
  have hc := c.isLt
  refine ⟨fun hkind hoff hmode => ?_, fun hon hholdover hmeasure hreceives => ?_,
    fun hbusy hlen hleft => ⟨_, rfl, fallbackEnd_leaves hc hbusy hlen hleft⟩,
    fun hbusy hleft => ⟨_, rfl, firEnd_leaves hc hbusy hleft⟩, fun hkind hoff hchains hmeasure hlost => ?_,
    fun hpin htold => ⟨_, rfl, ceilingPinned_leaves hpin htold⟩⟩
  · refine ⟨s.does (fallbackEngage c), rfl, ?_⟩
    rw [does_fallbackEngage hkind hoff (by rw [hmode]; rfl) (by rw [hmode]; decide) (.inr hmode)]
    exact fallbackSwitch_leaves hc (by decide) _ _ _ s
  · refine ⟨s.does (fallbackRelease c), rfl, ?_⟩
    rw [does_fallbackRelease hon hholdover hmeasure hreceives]
    exact fallbackSwitch_leaves hc (by decide) _ _ _ s
  · refine ⟨s.does (fallbackEngage c), rfl, ?_⟩
    rw [does_fallbackEngage hkind hoff hchains hmeasure (.inl hlost)]
    exact fallbackSwitch_leaves hc (by decide) _ _ _ s

end Sys2Proof.Machine
end

section
/-!
Resets (R204, R437, R442): what the beginning of the dawn sequence leaves, and the resets by power and by RESET_N.
-/

namespace Sys2Proof.Machine

/-! ### The beginning of the dawn sequence -/

theorem width_fanDuty : ∀ g < 4, Dict.width (Key.fan.FAN_DUTY g) = some (32, true) := by decide +kernel

/-- What the beginning of the dawn sequence writes (Table 14-2). -/
def dawnKeys : List Nat := [Key.mode.UNIT_ID, Key.can.CAN_NODE] ++ (List.range 4).map Key.fan.FAN_DUTY

theorem dawnBegin_within {α : Type} {π : Units → α} (hp : ∀ u f, π (Units.onPins u f) = π u) (unit : Nat) :
    Phase.Within dawnKeys π (dawnBegin unit) := by
  have hfans : ∀ g < 4, Key.fan.FAN_DUTY g ∈ dawnKeys := by decide
  have hstraps : Key.mode.UNIT_ID ∈ dawnKeys ∧ Key.can.CAN_NODE ∈ dawnKeys := by decide
  intro s
  simpa [dawnBegin, hp, hstraps] using hfans

/-- A number that entries hold as it is, written to each of them, is what each of them holds. -/
theorem State.num_run_const {ks : List Nat} {n : Int} (hheld : ∀ k ∈ ks, ∀ s : State, (s.apply (.num k n)).num k = n) (s : State)
    {k : Nat} (hk : k ∈ ks) : (s.run (ks.map (Effect.num · n))).num k = n := by
  induction ks generalizing s with
  | nil => exact absurd hk List.not_mem_nil
  | cons j ks ih =>
    obtain ⟨hj, hks⟩ := List.forall_mem_cons.1 hheld
    rw [List.map_cons, State.run_cons]
    by_cases hmem : k ∈ ks
    · exact ih hks _ hmem
    · obtain rfl : k = j := (List.mem_cons.1 hk).resolve_right hmem
      have hrest : Confined ks (fun _ => ()) (ks.map (Effect.num · n)) := by simp
      rw [(hrest.frame _).num hmem, hj]

/-- The dawn sequence begins now, with the fans at full duty (R437, Table 14-2). -/
theorem dawnBegin_leaves (unit : Nat) (s : State) :
    let t := s.does (dawnBegin unit)
    t.units.pins.dawnAt = some s.mtbNs ∧ ∀ g < 4, t.num (Key.fan.FAN_DUTY g) = 2147483647 := by
  have hfans : Confined dawnKeys (fun u => u.pins) ((List.range 4).map fun g => .num (Key.fan.FAN_DUTY g) 2147483647) := by
    have hmem : ∀ g < 4, Key.fan.FAN_DUTY g ∈ dawnKeys := by decide
    simpa using hmem
  rw [State.does, dawnBegin, State.run_append]
  refine ⟨?_, fun g hg => ?_⟩
  · rw [hfans.units (π := fun u => u.pins) fun _ _ _ _ _ _ => rfl]
    simp [Effect.pins, Effect.nat, State.mtbNs]
  · have hheld : ∀ k ∈ (List.range 4).map Key.fan.FAN_DUTY, ∀ s : State, (s.apply (.num k 2147483647)).num k = 2147483647 := by
      refine List.forall_mem_map.2 fun i hi s => ?_
      exact (s.num_set (width_fanDuty i (List.mem_range.1 hi)) _).trans (signed_eq_self (by decide) (by decide))
    have hall := State.num_run_const hheld
      (s.run [.nat Key.mode.UNIT_ID unit, .nat Key.can.CAN_NODE unit, .pins fun p => { p with
        dawnAt := some s.mtbNs, dawnWait := !p.xref, faultLow := true, resetDrive := none, resetUp := some s.mtbNs }])
      (List.mem_map_of_mem (List.mem_range.2 hg))
    rwa [List.map_map] at hall

/-! ### The two resets -/

theorem does_dawnBegin_log (unit : Nat) (s : State) : (s.does (dawnBegin unit)).units.log = s.units.log :=
  (dawnBegin_within (π := fun u => u.log) (fun _ _ => rfl) unit).units (fun _ _ _ _ _ _ => rfl) s

/-- A low of at most 1 µs is ignored, and so is one while RESET_N is low (R442, Table 16-14). -/
theorem State.resetLow_ignored {s : State} {ns : Nat} (h : s.units.pins.resetN = false ∨ ns ≤ 1000) : s.resetLow ns = s := by
  rw [State.resetLow, if_pos (by simpa using h)]

/-- A low of at least 10 µs resets the machine, RESET_N being low (R442). -/
theorem State.resetLow_taken {s : State} {ns : Nat} (hhigh : s.units.pins.resetN = true) (hlong : 10000 ≤ ns) :
    s.resetLow ns = ({ s with units := { s.units with pins := { s.units.pins with resetN := false } } } : State).afterReset 1 := by
  have htaken : ¬ ((!s.units.pins.resetN) = true ∨ ns ≤ 1000) := by simp [hhigh]; omega
  have hsure : ¬ (ns < 10000 ∧ s.free 0 ≤ 0) := by omega
  rw [State.resetLow, if_neg htaken, if_neg hsure]

/-- Settles O8: a reset keeps the entries of `get_afterReset`; at power-on with RESET_N high the dawn sequence begins after it. -/
theorem powerOnAndResetPinEnterBoot : Obligations.PowerOnAndResetPinEnterBoot := by
  refine ⟨fun s => ⟨s.powerOn, rfl, ?_⟩, fun s ns hhigh hlong => ⟨s.resetLow ns, rfl, ?_⟩,
    fun s ns h => congrArg Host.Outcome.next (State.resetLow_ignored h)⟩
  · rw [s.powerOn_eq]
    split
    case isTrue hhigh =>
      have hkeep := (dawnBegin_within (π := fun _ => ()) (fun _ _ => rfl) (s.nat Key.mode.UNIT_ID)).frame (s.afterReset 0)
      have hzero : (s.afterReset 0).mtbNs = 0 := by simp [State.mtbNs, State.afterReset]
      obtain ⟨hdawn, hfans⟩ := dawnBegin_leaves (s.nat Key.mode.UNIT_ID) (s.afterReset 0)
      exact ⟨hkeep.mode, State.does_mtb _ _, hkeep.store, State.does_pending _ _, does_dawnBegin_log _ _,
        fun hlow => absurd (hlow.symm.trans hhigh) Bool.false_ne_true, fun _ => ⟨hdawn.trans (congrArg some hzero), hfans⟩⟩
    case isFalse hlow =>
      exact ⟨rfl, rfl, rfl, rfl, rfl, fun _ => s.get_afterReset 0, fun hhigh => absurd hhigh hlow⟩
  · rw [State.resetLow_taken hhigh hlong]
    exact ⟨rfl, rfl, rfl, rfl, rfl, rfl, rfl, State.get_afterReset _ 1⟩

end Sys2Proof.Machine
end

section
/-!
The lanes and the dispatcher (Tables 06-9 to 06-11): the widths of their entries, and what effects leave of their units.
-/

namespace Sys2Proof.Machine

variable {α : Type}

/-! ### Widths of the entries -/

theorem width_laneState : ∀ l < 16, Dict.width (Key.lane.LANE_STATE l) = some (8, false) := by decide +kernel
theorem width_laneFenceCause : ∀ l < 16, Dict.width (Key.lane.FENCE_CAUSE l) = some (8, false) := by decide +kernel
theorem width_speedEst : ∀ l < 16, Dict.width (Key.lane.SPEED_EST l) = some (16, false) := by decide +kernel
theorem width_testsPassed : ∀ l < 16, Dict.width (Key.lane.TESTS_PASSED l) = some (32, false) := by decide +kernel
theorem width_microcodeVer : ∀ l < 16, Dict.width (Key.lane.MICROCODE_VER l) = some (32, false) := by decide +kernel
theorem width_lantern : Dict.width Key.disp.LANTERN = some (8, false) := by decide +kernel
theorem width_renderDrops : Dict.width Key.disp.RENDER_DROPS = some (32, false) := by decide +kernel
theorem width_throttleLevel : Dict.width Key.thr.THROTTLE_LEVEL = some (8, false) := by decide +kernel
theorem width_lowSensor : Dict.width Key.thr.LOW_SENSOR = some (8, false) := by decide +kernel

/-- An unsigned entry holds a number of its width (R6). -/
theorem State.Typed.num_lt {s : State} (h : s.Typed) {k w : Nat} (hw : Dict.width k = some (w, false)) : s.num k < 2 ^ w := by
  have hok := h.intOk hw
  simp only [Machine.intOk, Bool.false_eq_true, if_false, decide_eq_true_eq] at hok
  exact hok.2

theorem State.Typed.nat_lt {s : State} (h : s.Typed) {k w : Nat} (hw : Dict.width k = some (w, false)) : s.nat k < 2 ^ w := by
  have hlt := h.num_lt hw
  have hge := h.num_nonneg hw
  rw [State.nat_eq_num]
  zify
  rwa [Int.toNat_of_nonneg hge]

/-- A number written to an unsigned entry that can hold it is the one that stands, once effects have run that do not reach it. -/
theorem Confined.num_stands {ks : List Nat} {π : Units → α} {es : List Effect} (h : Confined ks π es) {k w : Nat}
    (hw : Dict.width k = some (w, false)) (hk : k ∉ ks) (s : State) {n : Int} (h0 : 0 ≤ n) (hn : n < 2 ^ w) :
    ((s.apply (.num k n)).run es).num k = n :=
  ((h.frame _).num hk).trans (s.num_reg_of_lt hw h0 hn)

theorem Confined.nat_stands {ks : List Nat} {π : Units → α} {es : List Effect} (h : Confined ks π es) {k w : Nat}
    (hw : Dict.width k = some (w, false)) (hk : k ∉ ks) (s : State) {n : Nat} (hn : n < 2 ^ w) :
    ((s.apply (.nat k n)).run es).nat k = n :=
  ((h.frame _).nat hk).trans (s.nat_reg_of_lt hw hn)

/-! ### Effects on a lane, a render group and the dispatcher -/

def Units.onLane (u : Units) (i : Nat) (f : Lane → Lane) : Units := { u with lanes := u.lanes.upd {} i f }
def Units.onRgroup (u : Units) (i : Nat) (f : RGroup → RGroup) : Units := { u with rgroups := u.rgroups.upd {} i f }
def Units.onDisp (u : Units) (f : Disp → Disp) : Units := { u with disp := f u.disp }

section Named
variable {ks : List Nat} {q : Nat → Prop} {π : Units → α} {i : Nat}

@[simp] theorem Effect.within_lane {f : Lane → Lane} :
    (Effect.lane i f).Within ks π ↔ ∀ u : Units, π (u.onLane i f) = π u := .rfl
@[simp] theorem Effect.within_rgroup {f : RGroup → RGroup} :
    (Effect.rgroup i f).Within ks π ↔ ∀ u : Units, π (u.onRgroup i f) = π u := .rfl
@[simp] theorem Effect.within_disp {f : Disp → Disp} :
    (Effect.disp f).Within ks π ↔ ∀ u : Units, π (u.onDisp f) = π u := .rfl
@[simp] theorem Effect.only_lane {f : Lane → Lane} : (Effect.lane i f).Only q π ↔ ∀ u : Units, π (u.onLane i f) = π u := .rfl
@[simp] theorem Effect.only_disp {f : Disp → Disp} : (Effect.disp f).Only q π ↔ ∀ u : Units, π (u.onDisp f) = π u := .rfl

end Named

/-- A lane of the units. -/
def Units.laneAt (l : Nat) (u : Units) : Lane := Tbl.at {} u.lanes l

theorem Units.laneAt_onLane (u : Units) (i j : Nat) (f : Lane → Lane) :
    (u.onLane i f).laneAt j = if i = j then f (u.laneAt i) else u.laneAt j := Tbl.at_upd ..

theorem Units.laneAt_onLane_of_ne {i j : Nat} (h : i ≠ j) (u : Units) (f : Lane → Lane) : (u.onLane i f).laneAt j = u.laneAt j :=
  (u.laneAt_onLane i j f).trans (if_neg h)

section Apply
variable (s : State) (i j k : Nat)

theorem State.lane_apply_lane (f : Lane → Lane) : (s.apply (.lane i f)).lane j = if i = j then f (s.lane i) else s.lane j :=
  Tbl.at_upd ..

theorem State.lane_apply_lane_same (f : Lane → Lane) : (s.apply (.lane i f)).lane i = f (s.lane i) :=
  (s.lane_apply_lane i i f).trans (if_pos rfl)

theorem State.rgroup_apply_rgroup (f : RGroup → RGroup) :
    (s.apply (.rgroup i f)).rgroup j = if i = j then f (s.rgroup i) else s.rgroup j := Tbl.at_upd ..

theorem State.disp_apply_disp (f : Disp → Disp) : (s.apply (.disp f)).units.disp = f s.units.disp := rfl

@[simp] theorem State.lane_apply_disp (f : Disp → Disp) : (s.apply (.disp f)).lane i = s.lane i := rfl
@[simp] theorem State.lane_apply_nat (n : Nat) : (s.apply (.nat k n)).lane i = s.lane i :=
  congrArg (Units.laneAt i) (s.apply_reg_units k (.num n))
@[simp] theorem State.lane_apply_bump (n : Int) : (s.apply (.bump k n)).lane i = s.lane i :=
  congrArg (Units.laneAt i) (s.apply_bump_units k n)
@[simp] theorem State.rgroup_apply_disp (f : Disp → Disp) : (s.apply (.disp f)).rgroup i = s.rgroup i := rfl

theorem lane_frame (f : Lane → Lane) : s.Frame [] (s.apply (.lane i f)) := Effect.Within.frame (π := fun _ => ()) (by simp) s

end Apply

section Run
variable {ks : List Nat} {es : List Effect}

/-- Effects that leave a lane of the units leave that lane. -/
theorem Confined.lane {l : Nat} (h : Confined ks (Units.laneAt l) es) (s : State) : (s.run es).lane l = s.lane l :=
  h.units (fun _ _ _ _ _ _ => rfl) s

end Run

end Sys2Proof.Machine
end

section
/-!
Tasks, the render cut, the self-tests and the fence of a lane (R185, R192, R193, R196, R200, R201, R204): what each leaves.
-/

namespace Sys2Proof.Machine

variable {s : State} {l k : Nat}

/-! ### A task finishes -/

/-- Where no model ends late, the end of a task is its finish alone (R192, R196). -/
theorem does_taskEnds (h : s.lateRun l k = none ∨ k < 48) : s.does (taskEnds l k) = s.does (taskFinish l k) := by
  refine (State.does_phases_cons s (taskFinish l k) _).trans ?_
  obtain hnone | hearly := h
  · rw [hnone]
    rfl
  · have hmodel : ¬ (s.finishes l k = true ∧ 48 ≤ k) := by omega
    cases s.lateRun l k with
    | none => rfl
    | some x =>
      simp only [if_neg hmodel]
      rfl

theorem taskFinish_frame (s : State) (l k : Nat) : s.Frame [] (s.does (taskFinish l k)) := by
  have hall : Confined [] (fun _ => ()) (taskFinish l k s) := by simp [taskFinish]
  exact hall.frame s

section Finish
variable (hfin : s.finishes l k = true)
include hfin

/-- A task of the present period is done, and its slack enters the minimum of its kind (R192). -/
theorem taskFinish_leaves (hlate : s.lateRun l k = none) :
    let t := s.does (taskFinish l k)
    t.units.disp.done = s.units.disp.done ++ [k] ∧ (t.lane l).finish = s.now - sampleTime s.fs s.periodStart ∧
      (k < 16 → t.units.disp.slackRender = least s.units.disp.slackRender ((s.renderCutTime : Int) - s.now)) ∧
      (16 ≤ k → k < 32 → t.units.disp.slackA = least s.units.disp.slackA ((s.periodEnd : Int) - s.now)) ∧
      (32 ≤ k → t.units.disp.slackB = least s.units.disp.slackB ((s.periodEnd : Int) - s.now)) := by
  simp only [State.does, taskFinish, hfin, hlate, Bool.not_true, Bool.false_eq_true, if_false, State.run_cons, State.run_nil,
    State.disp_apply_disp]
  refine ⟨rfl, ?_, fun hrender => ?_, fun hchan hlt => ?_, fun hrest => ?_⟩
  · rw [State.lane_apply_disp, State.lane_apply_lane_same]
  · simp only [if_pos hrender]
    rfl
  · simp only [if_neg (show ¬ k < 16 by omega), if_pos hlt]
    rfl
  · simp only [if_neg (show ¬ k < 16 by omega), if_neg (show ¬ k < 32 by omega)]
    rfl

/-- The oldest late run of a task on its lane ends (R194, R196). -/
theorem taskFinish_leaves_late {x : LateRun} (hlate : s.lateRun l k = some x) :
    let t := s.does (taskFinish l k)
    t.units.disp.done = s.units.disp.done ∧ t.units.disp.late = dropFirst l k s.units.disp.late := by
  simp only [State.does, taskFinish, hfin, hlate, Bool.not_true, Bool.false_eq_true, if_false, State.run_cons, State.run_nil,
    State.disp_apply_disp]
  exact ⟨rfl, rfl⟩

end Finish

/-! ### The render cut -/

/-- The render groups whose tasks the cut drops (R193). -/
def State.openGroups (s : State) : List Nat := (List.range 16).filter fun g =>
  (s.laneOf g).isSome && !s.units.disp.done.contains g && !s.units.disp.dropped.contains g

/-- What the drop of a render group does (R193). -/
def dropGroup (g : Nat) : List Effect :=
  [.bump Key.disp.RENDER_DROPS 1, .eventOnce Ev.RENDER_DROPPED 0 (args16 [g]),
   .rgroup g fun r => { r with dropNext := true }, .disp fun x => { x with dropped := x.dropped ++ [g] }]

theorem renderCut_of_due (hcut : s.renderCutTime ≤ s.now) (hissued : s.units.disp.issued = true) :
    renderCut s = s.openGroups.flatMap dropGroup := by
  have hdue : ¬ (s.now < s.renderCutTime ∨ (!s.units.disp.issued) = true) := by simp [hissued]; omega
  rw [renderCut, if_neg hdue]
  rfl

/-- What the drops of a list of groups write. -/
def dropKeys : List Nat := [Key.disp.RENDER_DROPS, Key.evt.EVT_RAISED]

theorem dropGroup_confined {α : Type} {π : Units → α} {g : Nat} (hg : ∀ u f, π (Units.onRgroup u g f) = π u)
    (hd : ∀ u (d : Disp → List Nat), π (Units.onDisp u fun x => { x with dropped := d x }) = π u) :
    Confined dropKeys π (dropGroup g) := by
  simp [dropGroup, dropKeys, hg, hd]

theorem drops_confined {α : Type} {π : Units → α} (hg : ∀ u g f, π (Units.onRgroup u g f) = π u)
    (hd : ∀ u (d : Disp → List Nat), π (Units.onDisp u fun x => { x with dropped := d x }) = π u) (l : List Nat) :
    Confined dropKeys π (l.flatMap dropGroup) := fun e he => by
  obtain ⟨g, -, hmem⟩ := List.mem_flatMap.1 he
  have hone : Confined dropKeys π (dropGroup g) := dropGroup_confined (fun u f => hg u g f) hd
  exact hone e hmem

/-- One drop, by what it counts, notes and conceals. -/
theorem dropGroup_leaves (g : Nat) (s : State) :
    let t := s.run (dropGroup g)
    t.units.disp.dropped = s.units.disp.dropped ++ [g] ∧
      (∀ i, (t.rgroup i).dropNext = ((s.rgroup i).dropNext || i == g)) ∧
      t.num Key.disp.RENDER_DROPS = (s.num Key.disp.RENDER_DROPS + 1) % 2 ^ 32 := by
  have hcount : Confined dropKeys (fun u => (u.disp, u.rgroups))
      [.bump Key.disp.RENDER_DROPS 1, .eventOnce Ev.RENDER_DROPPED 0 (args16 [g])] := by simp [dropKeys]
  have hunits := hcount.units (fun _ _ _ _ _ _ => rfl) s
  obtain ⟨hdisp, hgroups⟩ := Prod.mk.inj hunits
  have hrest : Confined [Key.evt.EVT_RAISED] (fun _ => ()) [.eventOnce Ev.RENDER_DROPPED 0 (args16 [g]),
      .rgroup g fun r => { r with dropNext := true }, .disp fun x => { x with dropped := x.dropped ++ [g] }] := by simp
  have hread (i : Nat) : (s.run (dropGroup g)).rgroup i = if g = i then { s.rgroup g with dropNext := true } else s.rgroup i := by
    simp only [State.run_cons, State.run_nil] at hgroups
    simp only [dropGroup, State.run_cons, State.run_nil, State.rgroup_apply_disp, State.rgroup_apply_rgroup]
    rw [State.rgroup, State.rgroup, hgroups]
    rfl
  refine ⟨congrArg (fun d : Disp => d.dropped ++ [g]) hdisp, fun i => ?_, ?_⟩
  · rw [hread]
    by_cases hi : g = i
    · simp [hi]
    · simp [hi, Ne.symm hi]
  · exact ((hrest.frame _).num (by decide)).trans (s.num_bump width_renderDrops)

/-- The drops of a list of groups: each is noted and conceals its group. -/
theorem drops_note (l : List Nat) (s : State) :
    let t := s.run (l.flatMap dropGroup)
    t.units.disp.dropped = s.units.disp.dropped ++ l ∧ ∀ i, (t.rgroup i).dropNext = ((s.rgroup i).dropNext || l.contains i) := by
  induction l generalizing s with
  | nil => simp
  | cons g l ih =>
    obtain ⟨hnoted, hnext, -⟩ := dropGroup_leaves g s
    obtain ⟨hnotedRest, hnextRest⟩ := ih (s.run (dropGroup g))
    rw [List.flatMap_cons, State.run_append]
    exact ⟨by rw [hnotedRest, hnoted, List.append_assoc]; rfl,
      fun i => by rw [hnextRest, hnext, Bool.or_assoc, List.contains_cons]⟩

/-- The drops of a list of groups are counted (Table 06-9). -/
theorem drops_count (l : List Nat) {s : State} (hs : s.num Key.disp.RENDER_DROPS % 2 ^ 32 = s.num Key.disp.RENDER_DROPS) :
    (s.run (l.flatMap dropGroup)).num Key.disp.RENDER_DROPS = (s.num Key.disp.RENDER_DROPS + l.length) % 2 ^ 32 := by
  induction l generalizing s with
  | nil => simpa using hs.symm
  | cons g l ih =>
    obtain ⟨-, -, hcount⟩ := dropGroup_leaves g s
    rw [List.flatMap_cons, State.run_append, ih (by rw [hcount, Int.emod_emod]), hcount, List.length_cons]
    push_cast
    omega

theorem renderCut_leaves (ht : s.Typed) (hcut : s.renderCutTime ≤ s.now) (hissued : s.units.disp.issued = true) :
    let t := s.does renderCut
    t.units.disp.dropped = s.units.disp.dropped ++ s.openGroups ∧ (∀ g ∈ s.openGroups, (t.rgroup g).dropNext = true) ∧
      t.units.disp.done = s.units.disp.done ∧
      t.num Key.disp.RENDER_DROPS = (s.num Key.disp.RENDER_DROPS + s.openGroups.length) % 2 ^ 32 ∧ s.Frame dropKeys t := by
  have hdone := drops_confined (π := fun u => u.disp.done) (fun _ _ _ => rfl) (fun _ _ => rfl) s.openGroups
  have hbounds := Int.emod_eq_of_lt (ht.num_nonneg width_renderDrops) (ht.num_lt width_renderDrops)
  obtain ⟨hnoted, hnext⟩ := drops_note s.openGroups s
  rw [State.does, renderCut_of_due hcut hissued]
  refine ⟨hnoted, fun g hg => ?_, hdone.units (π := fun u => u.disp.done) (fun _ _ _ _ _ _ => rfl) s,
    drops_count _ hbounds, hdone.frame s⟩
  rw [hnext, List.contains_iff_mem.2 hg, Bool.or_true]

/-! ### Self-tests -/

/-- A self-test of a healthy lane that passes reports the speed and is counted (R200). -/
theorem laneSelfTest_pass_leaves (hl : l < 16) {speed : Nat} (hspeed : speed < 65536) (hmay : s.mayTest l = true)
    (hh : s.healthy l = true) :
    let t := s.does (laneSelfTest l true speed)
    t.nat (Key.lane.SPEED_EST l) = speed ∧ t.num (Key.lane.TESTS_PASSED l) = (s.num (Key.lane.TESTS_PASSED l) + 1) % 2 ^ 32 ∧
      (t.lane l).lastTest = some s.mtbNs ∧ s.Frame [Key.lane.SPEED_EST l, Key.lane.TESTS_PASSED l] t := by
  obtain ⟨f, hphase, hf⟩ : ∃ f : Lane → Lane, laneSelfTest l true speed s =
      [.nat (Key.lane.SPEED_EST l) speed, .lane l f, .bump (Key.lane.TESTS_PASSED l) 1] ∧
      (f (s.lane l)).lastTest = some s.mtbNs := ⟨_, by simp [laneSelfTest, hmay, hh]; rfl, rfl⟩
  have hne : Key.lane.SPEED_EST l ∉ [Key.lane.TESTS_PASSED l] ∧ Key.lane.TESTS_PASSED l ∉ [Key.lane.SPEED_EST l] := by
    simp only [List.mem_singleton, Key.lane.SPEED_EST, Key.lane.TESTS_PASSED]; omega
  obtain ⟨hspeedOut, hcountOut⟩ := hne
  have hnote : Confined [Key.lane.SPEED_EST l] (fun _ => ()) [.nat (Key.lane.SPEED_EST l) speed, .lane l f] := by simp
  have hrest : Confined [Key.lane.TESTS_PASSED l] (fun _ => ()) [.lane l f, .bump (Key.lane.TESTS_PASSED l) 1] := by simp
  have hall : Confined [Key.lane.SPEED_EST l, Key.lane.TESTS_PASSED l] (fun _ => ()) (laneSelfTest l true speed s) := by
    simp [hphase]
  refine ⟨?_, ?_, ?_, hall.frame s⟩
  · rw [State.does, hphase, State.run_cons]
    exact hrest.nat_stands (width_speedEst l hl) hspeedOut s (by omega)
  · rw [State.does, hphase]
    exact (State.num_bump _ (width_testsPassed l hl)).trans
      (congrArg (fun n => (n + 1) % 2 ^ 32) ((hnote.frame s).num hcountOut))
  · rw [State.does, hphase, State.run_cons, State.run_cons, State.run_cons, State.run_nil, State.lane_apply_bump,
      State.lane_apply_lane_same, State.lane_apply_nat, hf]

/-! ### The fence of a lane -/

/-- What the fence of a lane writes besides that lane's own entries: the lantern lane loads, or is none (R202, R203). -/
def State.fenceRestKeys (s : State) (l : Nat) : List Nat :=
  [Key.evt.EVT_RAISED, Key.disp.LANTERN] ++ if s.nat Key.disp.LANTERN = l then [] else [Key.lane.LANE_STATE (s.nat Key.disp.LANTERN)]

/-- A fence shows its state and cause, and then writes other entries only (R201-R203). -/
theorem laneFence_of_healthy (hh : s.healthy l = true) (cause : Nat) : ∃ es, Confined (s.fenceRestKeys l) (fun _ => ()) es ∧
    laneFence l cause s = .num (Key.lane.LANE_STATE l) 2 :: .nat (Key.lane.FENCE_CAUSE l) cause :: es := by
  refine ⟨_, ?_, by
    simp only [laneFence, hh, Bool.not_true, Bool.false_eq_true, if_false, List.cons_append, List.nil_append]; rfl⟩
  simp only [confined_cons]
  refine ⟨by simp [State.fenceRestKeys], ?_⟩
  split
  case isTrue hlantern =>
    cases (s.lane l).migrateFrom <;> simp [State.fenceRestKeys]
  case isFalse hother =>
    split
    · simp [State.fenceRestKeys, hother]
    · simp

/-- What the fence of a lane leaves (R201). -/
theorem laneFence_leaves (hl : l < 16) (hh : s.healthy l = true) {cause : Nat} (hc : cause < 256) :
    let t := s.does (laneFence l cause)
    t.nat (Key.lane.FENCE_CAUSE l) = cause ∧ t.healthy l = false ∧ t.mode = s.mode := by
  obtain ⟨es, hes, hphase⟩ := laneFence_of_healthy hh cause
  have hout : Key.lane.FENCE_CAUSE l ∉ s.fenceRestKeys l ∧ Key.lane.LANE_STATE l ∉ s.fenceRestKeys l := by
    unfold State.fenceRestKeys
    generalize s.nat Key.disp.LANTERN = n
    split <;>
      simp only [List.mem_append, List.mem_cons, List.not_mem_nil, or_false, Key.lane.FENCE_CAUSE, Key.lane.LANE_STATE,
        Key.evt.EVT_RAISED, Key.disp.LANTERN] <;> omega
  obtain ⟨hcause, hstate⟩ := hout
  have hafter : Confined (Key.lane.FENCE_CAUSE l :: s.fenceRestKeys l) (fun _ => ()) (.nat (Key.lane.FENCE_CAUSE l) cause :: es) :=
    confined_cons.2 ⟨by simp, hes.mono (List.subset_cons_self ..)⟩
  have hstateOut : Key.lane.LANE_STATE l ∉ Key.lane.FENCE_CAUSE l :: s.fenceRestKeys l := by
    simpa [hstate] using show Key.lane.LANE_STATE l ≠ Key.lane.FENCE_CAUSE l by
      simp only [Key.lane.FENCE_CAUSE, Key.lane.LANE_STATE]; omega
  have hall : Confined (Key.lane.LANE_STATE l :: Key.lane.FENCE_CAUSE l :: s.fenceRestKeys l) (fun _ => ()) (laneFence l cause s) := by
    rw [hphase]
    exact confined_cons.2 ⟨by simp, hafter.mono (List.subset_cons_self ..)⟩
  refine ⟨?_, ?_, (hall.frame s).mode⟩
  · rw [State.does, hphase, State.run_cons, State.run_cons]
    exact hes.nat_stands (width_laneFenceCause l hl) hcause _ hc
  · have hfenced : (s.does (laneFence l cause)).nat (Key.lane.LANE_STATE l) = 2 := by
      rw [State.does, hphase, State.run_cons]
      exact hafter.nat_stands (n := 2) (width_laneState l hl) hstateOut _ (by decide)
    rw [State.healthy, hfenced]
    rfl

/-- Four idle blocks fence a lane for their cause (R201). -/
theorem does_laneStall (hidle : 4 ≤ (s.lane l).idleBlocks) : s.does (laneStall l) = s.does (laneFence l 3) := by
  rw [State.does, laneStall, if_pos hidle, ← State.does]

/-! ### The clear of a lane's fence -/

theorem clearNames_lane (hl : l < 16) (hf : s.healthy l = false) : s.clearNames 4 l = [l] := by
  have hstate : s.nat (Key.lane.LANE_STATE l) = 2 := by simpa [State.healthy] using hf
  have hne : l ≠ 0xFFFF := by omega
  rw [State.clearNames, if_neg hne, State.fencedOf, List.filter_comm, List.filter_beq,
    List.count_eq_one_of_mem List.nodup_range (List.mem_range.2 hl)]
  simp [hstate]

/-- A fenced lane begins its tests, and the clear is counted and reported (R204, R476). -/
theorem fenceClear_lane (hl : l < 16) (hf : s.healthy l = false) : fenceClear 0 4 l s =
    [.lane l fun x => { x with clearTests := some 0 }, .bump Key.fence.CLEARS 1,
     .event Ev.FENCE_CLEARED (args16 [4, l, s.clearAnswer 4 l])] := by
  have hmay : [l].filter (fun j => s.clearStatus 4 j == St.ok) = [l] := by simp [State.clearStatus]
  have hone : clearOne 0 4 l = laneClear l := by simp only [clearOne]
  have hclear : laneClear l s = [.lane l fun x => { x with clearTests := some 0 }] := by simp [laneClear, hf]
  unfold fenceClear
  rw [clearNames_lane hl hf]
  simp only [List.isEmpty_cons, Bool.false_eq_true, if_false, hmay, forAll, List.map_cons, List.map_nil, hone, phases, always, hclear,
    List.append_nil, List.cons_append, List.nil_append]

/-- What the clear of a lane's fence leaves, whichever session has caused it (R204, R476). -/
theorem fenceClear_lane_leaves (hl : l < 16) (hf : s.healthy l = false) (n : Nat) :
    let t := s.does (causedBy n (fenceClear 0 4 l))
    (t.lane l).clearTests = some 0 ∧ s.Frame [Key.fence.CLEARS, Key.evt.EVT_RAISED] t := by
  have hreport : Confined [Key.fence.CLEARS, Key.evt.EVT_RAISED] (Units.laneAt l)
      [.bump Key.fence.CLEARS 1, .event Ev.FENCE_CLEARED (args16 [4, l, s.clearAnswer 4 l])] := by simp
  have hall : Confined [Key.fence.CLEARS, Key.evt.EVT_RAISED] (fun _ => ()) (fenceClear 0 4 l s) := by
    simp [fenceClear_lane hl hf]
  refine ⟨?_, (hall.by n).frame s⟩
  rw [State.does, causedBy, fenceClear_lane hl hf, List.map_cons, State.run_cons, (hreport.by n).lane]
  exact congrArg Lane.clearTests (s.lane_apply_lane_same l _)

theorem row_laneFenceClear : ∀ l < 16, (Dict.row (Key.lane.FENCE_CLEAR l)).map (fun r => (r.eff, r.p)) = some (.acc, false) := by
  decide +kernel

theorem laneFenceClear_index (l : Nat) : Key.lane.FENCE_CLEAR l / 256 = 0xA010 + l := by
  simp only [Key.lane.FENCE_CLEAR]; omega

theorem findIdx_laneFenceClear : ∀ l < 16, specialKeys.findIdx (coversKey (Key.lane.FENCE_CLEAR l)) = 64 := by decide +kernel

theorem entryDoes_laneFenceClear (hl : l < 16) (w : Writer) : entryDoes w (Key.lane.FENCE_CLEAR l) (.num 1) = fenceClear 0 4 l := by
  refine (entryDoes_of_findIdx (findIdx_laneFenceClear l hl) rfl).trans ?_
  rw [laneFenceClear_index, Nat.add_sub_cancel_left]
  rfl

theorem reserved_laneFenceClear (l : Nat) (v : Value) : reserved (Key.lane.FENCE_CLEAR l) v = v := by
  have hne {k : Nat} (hk : k < 0xA01000) : Key.lane.FENCE_CLEAR l ≠ k := by simp only [Key.lane.FENCE_CLEAR]; omega
  simp (disch := decide) only [reserved, hne, if_false]

theorem changesAtCrossing_laneFenceClear (l : Nat) (s : State) : s.changesAtCrossing (Key.lane.FENCE_CLEAR l) = false := by
  have hindex : 0xA010 ≤ Key.lane.FENCE_CLEAR l / 256 := by rw [laneFenceClear_index]; omega
  have hout : Key.lane.FENCE_CLEAR l / 256 ≠ 0x4022 := by omega
  have hzc : isZcEntry (Key.lane.FENCE_CLEAR l / 256) (Key.lane.FENCE_CLEAR l % 256) = false := by
    rw [isZcEntry, if_neg (by omega), if_neg (by omega), beq_eq_false_iff_ne.2 hout, Bool.false_and]
  rw [State.changesAtCrossing, hzc, decide_eq_false (by omega), Bool.false_and, Bool.false_or]

/-! ### The obligation -/

/-- Settles O34: a finish changes the lane and the dispatcher alone; the cut is `dropGroup` of every open group; a test, a fence and
a clear write the entries that their lemmas name. -/
theorem laneTasksAndTests : Obligations.LaneTasksAndTests := by
  intro s l ht
  have hl := l.isLt
  refine ⟨fun k hfin hlate => ⟨s.does (taskEnds l k), rfl, ?_⟩, fun k x hk hfin hlate => ⟨s.does (taskEnds l k), rfl, ?_⟩,
    fun hcut hissued => ⟨s.does renderCut, rfl, ?_⟩,
    fun speed hspeed hmay hh => ⟨_, rfl, laneSelfTest_pass_leaves hl hspeed hmay hh⟩,
    fun hidle hh => ⟨s.does (laneStall l), rfl, ?_⟩, fun w => ?_⟩
  · obtain ⟨hdone, hfinish, hrender, hchan, hrest⟩ := taskFinish_leaves hfin hlate
    rw [does_taskEnds (.inl hlate)]
    exact ⟨hdone, hfinish, hrender, hchan, hrest, taskFinish_frame s l k⟩
  · obtain ⟨hdone, hdrop⟩ := taskFinish_leaves_late hfin hlate
    rw [does_taskEnds (.inr hk)]
    exact ⟨hdone, hdrop, taskFinish_frame s l k⟩
  · obtain ⟨hdropped, hnext, hdone, hcount, hkeep⟩ := renderCut_leaves ht hcut hissued
    refine ⟨fun g hg hplaced hopen hheld => ?_, hdone, hcount, hkeep⟩
    have hmem : g ∈ s.openGroups := List.mem_filter.2 ⟨List.mem_range.2 hg, by rw [hplaced, hopen, hheld]; rfl⟩
    exact ⟨by rw [hdropped, List.contains_iff_mem]; exact List.mem_append_right _ hmem, hnext g hmem⟩
  · rw [does_laneStall hidle]
    exact laneFence_leaves hl hh (by decide)
  · refine writes_of_effect (fun _ => rfl) (row_laneFenceClear l hl) (.inl rfl) ?_ (reserved_laneFenceClear ..)
      (changesAtCrossing_laneFenceClear l) (entryDoes_laneFenceClear hl _) fun s _ _ hf a => ?_
    · simp only [Key.lane.FENCE_CLEAR, Key.mode.MODE_REQUEST]; omega
    obtain ⟨htests, hkeep⟩ := fenceClear_lane_leaves hl hf w.session
    exact ⟨htests, hkeep.trans ((answer_frame _ a).mono (List.nil_subset _))⟩

end Sys2Proof.Machine
end

section
/-!
Migration, the lantern lane and the microcode rotation (R191, R202, R203, R205): what each leaves of the lanes and their entries.
-/

namespace Sys2Proof.Machine

variable {α : Type} {s : State}

theorem Lane.put_tasks (y : Lane) (tasks : List Nat) (issued : Bool) : (y.put tasks issued).tasks = tasks := rfl

theorem Lane.put_migrateFrom (y : Lane) (tasks : List Nat) (issued : Bool) : (y.put tasks issued).migrateFrom = y.migrateFrom := rfl

/-! ### A migration ends -/

/-- The lane whose migration ends first (R202). -/
def State.migrated (s : State) : Option Nat :=
  (List.range 16).find? fun l => (s.lane l).migrateFrom.isSome && decide (2 ≤ (s.lane l).migBlocks)

section Migration
variable {l f : Nat}

/-- The lanes that hold what a fenced lane was to get, without it (R191). -/
def State.handBack (s : State) (l f : Nat) : List Effect :=
  ((List.range 16).filter fun i => i != l && i != f && (s.lane i).tasks.any (s.lane f).incoming.contains).map fun i =>
    .lane i fun x => x.put (x.tasks.filter fun t => !(s.lane f).incoming.contains t) s.periodOpen

theorem handBack_confined {π : Units → α} (h : ∀ u i f', i ≠ l → i ≠ f → π (Units.onLane u i f') = π u) :
    Confined [] π (s.handBack l f) := by
  refine confined_map.2 fun i hi => ?_
  obtain ⟨hl, hf⟩ : i ≠ l ∧ i ≠ f := by
    have hmem := (List.mem_filter.1 hi).2
    simp only [Bool.and_eq_true, bne_iff_ne] at hmem
    exact hmem.1
  exact fun u => h u i _ hl hf

/-- What a lantern lane that has loaded another lane's tasks writes (R202). -/
def State.migrationEntries (s : State) (l f : Nat) : List Effect :=
  [.num (Key.lane.LANE_STATE l) 0, .num Key.disp.LANTERN 0xFF,
   .nat (Key.lane.PLACED_COST l) (s.nat (Key.lane.PLACED_COST f)), .nat (Key.lane.RENDER_COST l) (s.nat (Key.lane.RENDER_COST f)),
   .num (Key.lane.PLACED_COST f) 0, .num (Key.lane.RENDER_COST f) 0, .event Ev.LANE_MIGRATED (args16 [f, l])]

theorem does_laneMigrationDone (hne : f ≠ l) (hdue : s.migrated = some l) (hfrom : (s.lane l).migrateFrom = some f) :
    s.does laneMigrationDone = (((s.run (s.handBack l f)).apply (.lane l fun x =>
      { x.put (x.tasks ++ (s.lane f).tasks ++ (s.lane f).incoming) s.periodOpen with migrateFrom := none, migBlocks := 0 })).apply
      (.lane f fun x => x.put [] s.periodOpen)).run (s.migrationEntries l f) := by
  have hself : ¬ (f = l ∧ s.inService.isEmpty = true) := fun h => hne h.1
  rw [State.migrated] at hdue
  simp only [State.does, laneMigrationDone, hdue, hfrom, Option.getD_some, if_neg hself, if_neg hne, State.run_append, State.run_cons,
    State.run_nil, State.handBack, State.migrationEntries]

/-- The former lantern lane holds the tasks, and no lane is the lantern lane (R202). -/
theorem laneMigrationDone_leaves (hl : l < 16) (hne : f ≠ l) (hdue : s.migrated = some l)
    (hfrom : (s.lane l).migrateFrom = some f) :
    let t := s.does laneMigrationDone
    (t.lane l).tasks = (s.lane l).tasks ++ (s.lane f).tasks ++ (s.lane f).incoming ∧ (t.lane f).tasks = [] ∧
      t.num (Key.lane.LANE_STATE l) = 0 ∧ t.num Key.disp.LANTERN = 0xFF := by
  have hlanes (i : Nat) : Confined (Key.lane.LANE_STATE l :: Key.disp.LANTERN :: [Key.lane.PLACED_COST l, Key.lane.RENDER_COST l,
      Key.lane.PLACED_COST f, Key.lane.RENDER_COST f, Key.evt.EVT_RAISED]) (Units.laneAt i) (s.migrationEntries l f) := by
    simp [State.migrationEntries]
  have hback (i : Nat) (hi : i = l ∨ i = f) : (s.run (s.handBack l f)).lane i = s.lane i := by
    have hkeep : Confined [] (Units.laneAt i) (s.handBack l f) := handBack_confined fun u j g hjl hjf =>
      Units.laneAt_onLane_of_ne (by rcases hi with rfl | rfl <;> assumption) u g
    exact hkeep.lane s
  rw [does_laneMigrationDone hne hdue hfrom]
  refine ⟨?_, ?_, ?_, ?_⟩
  · rw [(hlanes l).lane, State.lane_apply_lane, if_neg hne, State.lane_apply_lane_same, hback l (.inl rfl)]
    rfl
  · rw [(hlanes f).lane, State.lane_apply_lane_same, Lane.put_tasks]
  · have hrest : Confined [Key.disp.LANTERN, Key.lane.PLACED_COST l, Key.lane.RENDER_COST l, Key.lane.PLACED_COST f,
        Key.lane.RENDER_COST f, Key.evt.EVT_RAISED] (fun _ => ()) (s.migrationEntries l f).tail := by simp [State.migrationEntries]
    have hsplit : s.migrationEntries l f = .num (Key.lane.LANE_STATE l) 0 :: (s.migrationEntries l f).tail := rfl
    rw [hsplit, State.run_cons]
    refine hrest.num_stands (n := 0) (width_laneState l hl) ?_ _ (by decide) (by decide)
    simp only [List.mem_cons, List.not_mem_nil, or_false, Key.lane.LANE_STATE, Key.disp.LANTERN, Key.lane.PLACED_COST,
      Key.lane.RENDER_COST, Key.evt.EVT_RAISED]
    omega
  · have hrest : Confined [Key.lane.PLACED_COST l, Key.lane.RENDER_COST l, Key.lane.PLACED_COST f,
        Key.lane.RENDER_COST f, Key.evt.EVT_RAISED] (fun _ => ()) (s.migrationEntries l f).tail.tail := by
      simp [State.migrationEntries]
    have hsplit : s.migrationEntries l f = .num (Key.lane.LANE_STATE l) 0 :: .num Key.disp.LANTERN 0xFF ::
        (s.migrationEntries l f).tail.tail := rfl
    rw [hsplit, State.run_cons, State.run_cons]
    refine hrest.num_stands (n := 0xFF) width_lantern ?_ _ (by decide) (by decide)
    simp only [List.mem_cons, List.not_mem_nil, or_false, Key.disp.LANTERN, Key.lane.PLACED_COST, Key.lane.RENDER_COST,
      Key.evt.EVT_RAISED]
    omega

/-! ### A migration without a lantern lane ends -/

/-- The placement of a fenced lane's tasks changes the lanes by `Lane.put` alone (R203). -/
theorem placeFenced_only {π : Units → α} (h : ∀ u i tasks issued, π (Units.onLane u i fun y => y.put tasks issued) = π u)
    (f : Nat) : (placeFenced f).Only (fun _ => True) π := by
  intro s e he
  simp only [placeFenced, List.mem_append, List.mem_flatMap, List.mem_cons, List.not_mem_nil, or_false] at he
  rcases he with ⟨x, -, rfl | rfl | rfl⟩ | rfl | rfl | rfl | rfl | rfl | rfl <;> simp [h]

/-- The fenced lane holds no task after it (R203). -/
theorem placeFenced_tasks (f : Nat) (s : State) : ((s.does (placeFenced f)).lane f).tasks = [] := by
  simp only [State.does, placeFenced, State.run_append, State.run_cons, State.run_nil, State.lane_apply_nat,
    State.lane_apply_lane_same, Lane.put_tasks]

/-- The lane gives the migration up. -/
def migrationOff (l : Nat) : Effect := .lane l fun x => { x with migrateFrom := none, migBlocks := 0 }

/-- A fenced lane's own migration ends; with lanes in service, they take its tasks (R203, log 114). -/
theorem does_laneMigrationDone_self (hdue : s.migrated = some l) (hfrom : (s.lane l).migrateFrom = some l) :
    s.does laneMigrationDone = if s.inService = [] then s.apply (migrationOff l) else
      ((s.apply (migrationOff l)).does (placeFenced l)).apply (.event Ev.LANE_MIGRATED (args16 [l, s.inService.headD 0xFF])) := by
  rw [State.migrated] at hdue
  simp only [State.does, laneMigrationDone, hdue, hfrom, Option.getD_some, true_and, if_true, List.isEmpty_iff, migrationOff]
  split
  · rfl
  · refine (State.does_phases_cons s _ _).trans ?_
    rw [State.does_phases_cons, State.does_phases_cons, State.does_phases_nil, State.does_always, State.does_always, State.run_cons,
      State.run_nil, State.run_cons, State.run_nil]
    rfl

theorem laneMigrationDone_self_leaves (hdue : s.migrated = some l) (hfrom : (s.lane l).migrateFrom = some l) :
    let t := s.does laneMigrationDone
    (t.lane l).migrateFrom = none ∧ (s.inService ≠ [] → (t.lane l).tasks = []) ∧ t.mode = s.mode ∧ t.store = s.store := by
  have hoff : ((s.apply (migrationOff l)).lane l).migrateFrom = none :=
    congrArg Lane.migrateFrom (s.lane_apply_lane_same l _)
  rw [does_laneMigrationDone_self hdue hfrom]
  split
  case isTrue hnone => exact ⟨hoff, fun h => absurd hnone h, rfl, rfl⟩
  case isFalse =>
    have hevent : Effect.Within [Key.evt.EVT_RAISED] (Units.laneAt l)
        (.event Ev.LANE_MIGRATED (args16 [l, s.inService.headD 0xFF])) := by simp
    have hlane := hevent.units (fun _ _ _ _ _ _ => rfl) ((s.apply (migrationOff l)).does (placeFenced l))
    have htold := hevent.frame ((s.apply (migrationOff l)).does (placeFenced l))
    have hplace : (placeFenced l).Only (fun _ => True) fun u => (u.laneAt l).migrateFrom := by
      refine placeFenced_only (fun u i tasks issued => ?_) l
      rw [Units.laneAt_onLane]
      split
      case isTrue hi => rw [hi, Lane.put_migrateFrom]
      case isFalse => rfl
    exact ⟨(congrArg Lane.migrateFrom hlane).trans ((hplace.units (fun _ _ _ _ _ _ => rfl) _).trans hoff),
      fun _ => (congrArg Lane.tasks hlane).trans (placeFenced_tasks l _), htold.mode.trans (hplace.mode _),
      htold.store.trans (hplace.store _)⟩

end Migration

/-! ### The lantern lane -/

/-- What a placement writes (R188). -/
def placeKeys : List Nat :=
  (List.range 16).flatMap (fun l => [Key.lane.PLACED_COST l, Key.lane.RENDER_COST l]) ++
    [Key.cost.COST_TOTAL, Key.cost.RENDER_PEAK, Key.cost.LANE_PEAK, Key.cost.LANES_IN_SERVICE]

theorem placeCosts_within {π : Units → α} (p : List Placed) : Phase.Within placeKeys π (placeCosts p) := by
  have hlane : ∀ l < 16, Key.lane.PLACED_COST l ∈ placeKeys ∧ Key.lane.RENDER_COST l ∈ placeKeys := by decide
  have htotal : Key.cost.COST_TOTAL ∈ placeKeys ∧ Key.cost.RENDER_PEAK ∈ placeKeys ∧ Key.cost.LANE_PEAK ∈ placeKeys ∧
      Key.cost.LANES_IN_SERVICE ∈ placeKeys := by decide
  refine Phase.within_always.2 (confined_append.2 ⟨fun e he => ?_, by simp [htotal]⟩)
  obtain ⟨l, hl, hmem⟩ := List.mem_flatMap.1 he
  obtain ⟨hplaced, hrender⟩ := hlane l (List.mem_range.1 hl)
  cases hfind : p.find? fun x => x.lane == l <;> rw [hfind] at hmem <;> rcases List.mem_pair.1 hmem with rfl | rfl
  exacts [hplaced, hrender, hplaced, hrender]

theorem placeNow_within (p : List Placed) : Phase.Within placeKeys (fun _ => ()) (placeNow p) := by
  refine Phase.within_phases ?_
  simp only [List.forall_mem_cons]
  exact ⟨placeCosts_within p, fun s => by simp, by simp⟩

theorem placeKeys_apart : Key.disp.LANTERN ∉ placeKeys ∧ ∀ l < 16, Key.lane.LANE_STATE l ∉ placeKeys := by decide

section Lantern
variable {l : Nat}

/-- A lane named as the lantern lane where there was none (R203). -/
theorem lanternSet_of_none (hnone : 16 ≤ s.nat Key.disp.LANTERN) :
    lanternSet (some l) s = [.nat Key.disp.LANTERN l, .num (Key.lane.LANE_STATE l) 1] := by
  have hold : ¬ (s.nat Key.disp.LANTERN < 16 ∧ s.healthy (s.nat Key.disp.LANTERN) = true) := by omega
  simp only [lanternSet, if_neg hold, List.nil_append]

/-- With the rest admitting the configuration the lane becomes the lantern lane, and the rest hold the tasks (R191, R203). -/
theorem does_lanternTake (hadmit : admitted (s.placement (s.healthyLanes.filter (· != l))) = true) : s.does (lanternTake l) =
    ((s.does (lanternSet (some l))).does (placeNow (s.placement (s.healthyLanes.filter (· != l))))).run
      [.disp fun d => { d with noLantern := false }, .event Ev.LANTERN_CHANGED (args16 [l])] := by
  rw [State.does, lanternTake, if_pos hadmit]
  refine (State.does_phases_cons s _ _).trans ?_
  rw [State.does_phases_cons, State.does_phases_cons, State.does_phases_nil, State.does_always]

theorem lanternTake_leaves (hl : l < 16) (hnone : 16 ≤ s.nat Key.disp.LANTERN)
    (hadmit : admitted (s.placement (s.healthyLanes.filter (· != l))) = true) :
    let t := s.does (lanternTake l)
    t.num Key.disp.LANTERN = l ∧ t.num (Key.lane.LANE_STATE l) = 1 := by
  obtain ⟨hlantern, hstate⟩ := placeKeys_apart
  have htold : Confined [Key.evt.EVT_RAISED] (fun _ => ())
      [.disp fun d => { d with noLantern := false }, .event Ev.LANTERN_CHANGED (args16 [l])] := by simp
  have hplace := (placeNow_within (s.placement (s.healthyLanes.filter (· != l)))).frame (s.does (lanternSet (some l)))
  have hset : s.does (lanternSet (some l)) = (s.apply (.nat Key.disp.LANTERN l)).run [.num (Key.lane.LANE_STATE l) 1] := by
    rw [State.does, lanternSet_of_none hnone, State.run_cons]
  have hrest : Confined [Key.lane.LANE_STATE l] (fun _ => ()) [.num (Key.lane.LANE_STATE l) 1] := by simp
  have hne : Key.disp.LANTERN ∉ [Key.lane.LANE_STATE l] ∧ Key.lane.LANE_STATE l ∉ [Key.evt.EVT_RAISED] := by
    simp only [List.mem_singleton, Key.disp.LANTERN, Key.lane.LANE_STATE, Key.evt.EVT_RAISED]; omega
  obtain ⟨hlanternState, hevent⟩ := hne
  rw [does_lanternTake hadmit]
  constructor
  · rw [(htold.frame _).num (by decide), hplace.num hlantern, hset]
    exact hrest.num_stands width_lantern hlanternState s (Int.natCast_nonneg l) (by omega)
  · rw [(htold.frame _).num hevent, hplace.num (hstate l hl), hset, State.run_cons, State.run_nil]
    exact State.num_reg_of_lt (width_laneState l hl) _ (by decide) (by decide)

/-- At a boundary with nothing under way the highest healthy lane is tried as the lantern lane (R203). -/
theorem does_lanternReplace (hnone : 16 ≤ s.nat Key.disp.LANTERN) (hidle : ∀ i < 16, (s.lane i).migrateFrom = none)
    (hopen : s.units.disp.noLantern = false) (hsame : s.units.disp.reassign = false) (hbound : s.atBoundary = true)
    (hserved : s.units.mgmt.served = true) (hlast : s.healthyLanes.getLast? = some l) :
    s.does lanternReplace = s.does (lanternTake l) := by
  have hbusy : ((List.range 16).any fun l => (s.lane l).migrateFrom.isSome) = false :=
    List.any_eq_false.2 fun i hi => by rw [hidle i (List.mem_range.1 hi)]; decide
  have hwas : ¬ s.nat Key.disp.LANTERN < 16 := by omega
  simp only [State.does, lanternReplace, hbusy, hbound, hserved, hsame, hopen, hlast, decide_eq_false hwas, Bool.not_true,
    Bool.or_self, Bool.false_eq_true, if_false]

end Lantern

/-! ### The microcode rotation -/

/-- After a step of the rotation the update takes up how it has ended (R485), and no entry, no lane and nothing of the dispatcher
changes. -/
theorem does_microcodeStep (ok : Bool) (s : State) : ∃ es, Confined [] (fun u => (u.lanes, u.disp)) es ∧
    s.does (microcodeStep ok) = (s.does (rotationStep ok)).run es := by
  refine ⟨_, ?_, (State.does_phases_cons s (rotationStep ok) _).trans ((State.does_phases_cons _ _ _).trans
    (State.does_phases_nil _))⟩
  cases hrotated : (s.does (rotationStep ok)).units.mgmt.rotated with
  | none => simp [hrotated]
  | some st =>
    simp only [hrotated, confined_cons, Effect.within_mgmt, Confined.nil, and_true]
    exact fun _ => rfl

section Rotation
variable {l i : Nat}

/-- A step that fails on the way forward is counted, and the rotation turns back (R205). -/
theorem rotationStep_of_failed (hfsm : s.units.disp.fsm = 1) (hl : s.nat Key.disp.LANTERN = l) (hlt : l < 16)
    (hidle : (s.lane l).migrateFrom = none) (hserved : s.units.mgmt.served = true) : rotationStep false s =
      [.bump (Key.lane.TEST_FAILS l) 1, .disp fun d => { d with fsm := 2, failLane := l }] := by
  have hwas : ¬ 16 ≤ l := by omega
  simp [rotationStep, hfsm, hl, hidle, hserved, hwas]

theorem microcodeStep_failed_leaves (hfsm : s.units.disp.fsm = 1) (hlt : s.nat Key.disp.LANTERN < 16)
    (hidle : (s.lane (s.nat Key.disp.LANTERN)).migrateFrom = none) (hserved : s.units.mgmt.served = true) :
    let t := s.does (microcodeStep false)
    t.units.disp.fsm = 2 ∧ t.units.disp.failLane = s.nat Key.disp.LANTERN ∧
      s.Frame [Key.lane.TEST_FAILS (s.nat Key.disp.LANTERN)] t := by
  obtain ⟨es, hes, hdoes⟩ := does_microcodeStep false s
  have hphase := rotationStep_of_failed hfsm rfl hlt hidle hserved
  have hall : Confined [Key.lane.TEST_FAILS (s.nat Key.disp.LANTERN)] (fun _ => ()) (rotationStep false s) := by simp [hphase]
  have hdisp := congrArg Prod.snd (hes.units (fun _ _ _ _ _ _ => rfl) (s.does (rotationStep false)))
  have hturned : (s.does (rotationStep false)).units.disp = { s.units.disp with fsm := 2, failLane := s.nat Key.disp.LANTERN } := by
    rw [State.does, hphase, State.run_cons, State.run_cons, State.run_nil, State.disp_apply_disp, State.apply_bump_units]
  rw [hdoes]
  exact ⟨congrArg Disp.fsm (hdisp.trans hturned), congrArg Disp.failLane (hdisp.trans hturned),
    (hall.frame s).trans ((hes.frame _).mono (List.nil_subset _))⟩

/-- What a swap writes of the entries of the two lanes (R205). -/
def swapKeys (l i : Nat) : List Nat :=
  [Key.lane.PLACED_COST l, Key.lane.RENDER_COST l, Key.lane.PLACED_COST i, Key.lane.RENDER_COST i, Key.lane.LANE_STATE l,
   Key.lane.LANE_STATE i, Key.disp.LANTERN]

/-- What a swap writes, once the lanes hold their tasks: their costs, and then their roles. -/
def State.swapCosts (s : State) (l i : Nat) : List Effect :=
  [.nat (Key.lane.PLACED_COST l) (s.nat (Key.lane.PLACED_COST i)), .nat (Key.lane.RENDER_COST l) (s.nat (Key.lane.RENDER_COST i)),
   .num (Key.lane.PLACED_COST i) 0, .num (Key.lane.RENDER_COST i) 0]

/-- The lantern lane `l` is one of those in service, and `i` the lantern lane; `moved` are the moves that wait (R191, R203). -/
def swapRoles (l i : Nat) (moved : Disp → Disp) : List Effect :=
  [.num (Key.lane.LANE_STATE l) 0, .num (Key.lane.LANE_STATE i) 1, .nat Key.disp.LANTERN i, .disp moved]

theorem rotationSwap_eq (l i : Nat) (s : State) : ∃ moved : Disp → Disp, rotationSwap l i s =
    .lane l (fun x => x.put (s.lane i).tasks s.periodOpen) :: .lane i (fun x => x.put [] s.periodOpen) ::
      (s.swapCosts l i ++ swapRoles l i moved) := ⟨_, rfl⟩

theorem swapRoles_num {moved : Disp → Disp} (hl : l < 16) (hi : i < 16) (hne : i ≠ l) (s : State) :
    let t := s.run (swapRoles l i moved)
    t.num Key.disp.LANTERN = i ∧ t.num (Key.lane.LANE_STATE i) = 1 ∧ t.num (Key.lane.LANE_STATE l) = 0 := by
  have hmoved : Confined [] (fun _ => ()) [.disp moved] := by simp
  have hlantern : Confined [Key.disp.LANTERN] (fun _ => ()) [.nat Key.disp.LANTERN i, .disp moved] := by simp
  have hstate : Confined [Key.lane.LANE_STATE i, Key.disp.LANTERN] (fun _ => ())
      [.num (Key.lane.LANE_STATE i) 1, .nat Key.disp.LANTERN i, .disp moved] := by simp
  have hkeys : Key.lane.LANE_STATE i ∉ [Key.disp.LANTERN] ∧
      Key.lane.LANE_STATE l ∉ [Key.lane.LANE_STATE i, Key.disp.LANTERN] := by
    simp only [List.mem_cons, List.not_mem_nil, or_false, Key.lane.LANE_STATE, Key.disp.LANTERN]; omega
  obtain ⟨hiOut, hlOut⟩ := hkeys
  refine ⟨?_, ?_, ?_⟩
  · rw [swapRoles, State.run_cons, State.run_cons, State.run_cons]
    exact hmoved.num_stands width_lantern List.not_mem_nil _ (Int.natCast_nonneg i) (by omega)
  · rw [swapRoles, State.run_cons, State.run_cons]
    exact hlantern.num_stands (width_laneState i hi) hiOut _ (by decide) (by decide)
  · rw [swapRoles, State.run_cons]
    exact hstate.num_stands (width_laneState l hl) hlOut _ (by decide) (by decide)

/-- The lantern lane takes over the tasks of a lane, which becomes the lantern lane (R205). -/
theorem rotationSwap_leaves (hl : l < 16) (hi : i < 16) (hne : i ≠ l) (s : State) :
    let t := s.does (rotationSwap l i)
    (t.lane l).tasks = (s.lane i).tasks ∧ (t.lane i).tasks = [] ∧ (t.num Key.disp.LANTERN = i ∧
      t.num (Key.lane.LANE_STATE i) = 1 ∧ t.num (Key.lane.LANE_STATE l) = 0) ∧ s.Frame (swapKeys l i) t := by
  obtain ⟨moved, hphase⟩ := rotationSwap_eq l i s
  have hrest (j : Nat) : Confined (swapKeys l i) (Units.laneAt j) (s.swapCosts l i ++ swapRoles l i moved) := by
    have hdisp : ∀ u : Units, (u.onDisp moved).laneAt j = u.laneAt j := fun _ => rfl
    simp [State.swapCosts, swapRoles, swapKeys, hdisp]
  have hall : Confined (swapKeys l i) (fun _ => ()) (rotationSwap l i s) := by
    simp [hphase, State.swapCosts, swapRoles, swapKeys]
  have hdoes : s.does (rotationSwap l i) = ((s.apply (.lane l fun x => x.put (s.lane i).tasks s.periodOpen)).apply
      (.lane i fun x => x.put [] s.periodOpen)).run (s.swapCosts l i ++ swapRoles l i moved) := by
    rw [State.does, hphase, State.run_cons, State.run_cons]
  refine ⟨?_, ?_, ?_, hall.frame s⟩
  · rw [hdoes, (hrest l).lane, State.lane_apply_lane, if_neg hne, State.lane_apply_lane_same, Lane.put_tasks]
  · rw [hdoes, (hrest i).lane, State.lane_apply_lane_same, Lane.put_tasks]
  · rw [hdoes, State.run_append]
    exact swapRoles_num hl hi hne _

/-- What the lantern lane has loaded and tested, before the tasks move (R205). -/
def loadedEffects (l ver : Nat) : List Effect :=
  [.nat (Key.lane.MICROCODE_VER l) ver, .bump (Key.lane.TESTS_PASSED l) 4, .lane l fun x => { x with newUcode := true }]

/-- A step that passes on the way forward, with a lane yet to be loaded (R205). -/
theorem does_rotationStep_passed (hfsm : s.units.disp.fsm = 1) (hlantern : s.nat Key.disp.LANTERN = l) (hlt : l < 16)
    (hidle : (s.lane l).migrateFrom = none) (hserved : s.units.mgmt.served = true) (hbound : s.atBoundary = true)
    (hnext : (s.inService.find? fun i => (s.lane i).newUcode != true) = some i) : s.does (rotationStep true) =
      (s.run (loadedEffects l s.units.disp.newVer)).does (rotationSwap l i) := by
  have hwas : ¬ 16 ≤ l := by omega
  have hphase : rotationStep true s = phases [always (loadedEffects l s.units.disp.newVer), rotationSwap l i] s := by
    have hfind : (s.inService.find? fun i => !(s.lane i).newUcode) = some i := by simpa using hnext
    simp [rotationStep, hfsm, hlantern, hidle, hserved, hwas, hbound, hfind]
    rfl
  rw [State.does, hphase, ← State.does, State.does_phases_cons, State.does_phases_cons, State.does_phases_nil, State.does_always]

theorem loadedEffects_leaves (hl : l < 16) {ver : Nat} (hver : ver < 2 ^ 32) (s : State) :
    let t := s.run (loadedEffects l ver)
    t.nat (Key.lane.MICROCODE_VER l) = ver ∧ t.num (Key.lane.TESTS_PASSED l) = (s.num (Key.lane.TESTS_PASSED l) + 4) % 2 ^ 32 := by
  have hrest : Confined [Key.lane.TESTS_PASSED l] (fun _ => ()) (loadedEffects l ver).tail := by simp [loadedEffects]
  have hload : Effect.Within [Key.lane.MICROCODE_VER l] (fun _ => ()) (.nat (Key.lane.MICROCODE_VER l) ver) := by simp
  have hkeys : Key.lane.MICROCODE_VER l ≠ Key.lane.TESTS_PASSED l := by
    simp only [Key.lane.MICROCODE_VER, Key.lane.TESTS_PASSED]; omega
  have hsplit : loadedEffects l ver = .nat (Key.lane.MICROCODE_VER l) ver :: (loadedEffects l ver).tail := rfl
  constructor
  · rw [hsplit, State.run_cons]
    exact hrest.nat_stands (width_microcodeVer l hl) (by simpa using hkeys) s hver
  · rw [loadedEffects, State.run_cons, State.run_cons, State.run_cons, State.run_nil, (lane_frame _ _ _).num List.not_mem_nil]
    exact (State.num_set (width_testsPassed l hl) _ _).trans
      (congrArg (fun n => (n + 4) % 2 ^ 32) ((hload.frame s).num (by simpa using hkeys.symm)))

/-- The next lane to be loaded is in service, so it is not the lantern lane, and the swap finds it as it was. -/
theorem mem_inService_of_find {p : Nat → Bool} (h : s.inService.find? p = some i) : i < 16 ∧ s.nat Key.disp.LANTERN ≠ i := by
  have hmem := List.mem_of_find?_eq_some h
  simp only [State.inService, State.healthyLanes, List.mem_filter, List.mem_range, bne_iff_ne] at hmem
  exact ⟨hmem.1.1, hmem.2⟩

/-- What a step that passes on the way forward leaves (R205). -/
theorem microcodeStep_passed_leaves (hfsm : s.units.disp.fsm = 1) (hlantern : s.nat Key.disp.LANTERN = l) (hlt : l < 16)
    (hidle : (s.lane l).migrateFrom = none) (hserved : s.units.mgmt.served = true) (hbound : s.atBoundary = true)
    (hnext : (s.inService.find? fun i => (s.lane i).newUcode != true) = some i) (hver : s.units.disp.newVer < 2 ^ 32) :
    let t := s.does (microcodeStep true)
    t.nat (Key.lane.MICROCODE_VER l) = s.units.disp.newVer ∧ (t.lane l).tasks = (s.lane i).tasks ∧ (t.lane i).tasks = [] ∧
      t.num Key.disp.LANTERN = i ∧ t.num (Key.lane.LANE_STATE i) = 1 ∧ t.num (Key.lane.LANE_STATE l) = 0 ∧
      t.num (Key.lane.TESTS_PASSED l) = (s.num (Key.lane.TESTS_PASSED l) + 4) % 2 ^ 32 ∧ t.mode = s.mode ∧ t.store = s.store := by
  obtain ⟨hi, hne⟩ := mem_inService_of_find hnext
  replace hne : i ≠ l := fun h => hne (hlantern.trans h.symm)
  obtain ⟨es, hes, hdoes⟩ := does_microcodeStep true s
  rw [does_rotationStep_passed hfsm hlantern hlt hidle hserved hbound hnext] at hdoes
  obtain ⟨x, hx⟩ : ∃ x, x = s.run (loadedEffects l s.units.disp.newVer) := ⟨_, rfl⟩
  obtain ⟨hloaded, htests⟩ := loadedEffects_leaves hlt hver s
  have hload : Confined [Key.lane.MICROCODE_VER l, Key.lane.TESTS_PASSED l] (Units.laneAt i)
      (loadedEffects l s.units.disp.newVer) := by
    have hother : ∀ u f, (Units.onLane u l f).laneAt i = u.laneAt i := Units.laneAt_onLane_of_ne (Ne.symm hne)
    simp [loadedEffects, hother]
  have htaken : x.lane i = s.lane i := hx ▸ hload.lane s
  have hloadFrame : s.Frame _ x := hx ▸ hload.frame s
  rw [← hx] at hdoes hloaded htests
  obtain ⟨hgot, hgave, ⟨hlant, hstateI, hstateL⟩, hswap⟩ := rotationSwap_leaves hlt hi hne x
  have hnote := hes.frame (x.does (rotationSwap l i))
  have hlanes (j : Nat) : ((x.does (rotationSwap l i)).run es).lane j = (x.does (rotationSwap l i)).lane j :=
    congrArg (fun y => Tbl.at ({} : Lane) y j) (congrArg Prod.fst (hes.units (fun _ _ _ _ _ _ => rfl) (x.does (rotationSwap l i))))
  have hkeys : Key.lane.MICROCODE_VER l ∉ swapKeys l i ∧ Key.lane.TESTS_PASSED l ∉ swapKeys l i := by
    simp only [swapKeys, List.mem_cons, List.not_mem_nil, or_false, Key.lane.MICROCODE_VER, Key.lane.TESTS_PASSED,
      Key.lane.PLACED_COST, Key.lane.RENDER_COST, Key.lane.LANE_STATE, Key.disp.LANTERN]
    omega
  obtain ⟨hverOut, htestsOut⟩ := hkeys
  rw [hdoes]
  exact ⟨((hnote.nat List.not_mem_nil).trans (hswap.nat hverOut)).trans hloaded,
    (congrArg Lane.tasks (hlanes l)).trans (hgot.trans (congrArg Lane.tasks htaken)), (congrArg Lane.tasks (hlanes i)).trans hgave,
    (hnote.num List.not_mem_nil).trans hlant, (hnote.num List.not_mem_nil).trans hstateI, (hnote.num List.not_mem_nil).trans hstateL,
    ((hnote.num List.not_mem_nil).trans (hswap.num htestsOut)).trans htests,
    (hnote.mode.trans hswap.mode).trans hloadFrame.mode, (hnote.store.trans hswap.store).trans hloadFrame.store⟩

end Rotation

end Sys2Proof.Machine
end

section
/-!
The throttle (R197, R198) and the slack window (R192): the level after a rise or a fall, and the minima that a window publishes.
-/

namespace Sys2Proof.Machine

variable {s : State}

/-! ### The throttle -/

/-- The count of the time at a level changes neither the mode nor the store (R198). -/
theorem thrTime_only : thrTime.Only (fun _ => True) fun _ => () := by
  intro s e he
  simp only [thrTime] at he
  split at he
  · exact absurd he List.not_mem_nil
  · rcases List.mem_pair.1 he with rfl | rfl <;> simp

/-- What a change of level writes besides the level (R198). -/
def thrKeys : List Nat := [Key.thr.LEVEL_MAX, Key.thr.THROTTLE_ENTRIES, Key.evt.EVT_RAISED]

/-- A change of level counts the time at the old one, sets the new one, and then writes other entries (R198). -/
theorem does_thrSet (new : Nat) (s : State) : ∃ es, Confined thrKeys (fun _ => ()) es ∧
    s.does (thrSet new) = ((s.does thrTime).apply (.nat Key.thr.THROTTLE_LEVEL new)).run es := by
  have hrun : s.does (thrSet new) = s.run (thrSet new s) := rfl
  rw [hrun, thrSet]
  refine ⟨?es, ?within, (State.does_phases_cons s thrTime _).trans ((State.does_phases_cons _ _ _).trans ?eq)⟩
  case eq => rw [State.does_phases_nil, State.does_always, List.append_assoc, List.cons_append, State.run_cons]
  case within => simp [thrKeys]

theorem thrSet_leaves {new : Nat} (hnew : new < 256) (s : State) :
    let t := s.does (thrSet new)
    t.nat Key.thr.THROTTLE_LEVEL = new ∧ t.mode = s.mode ∧ t.store = s.store := by
  obtain ⟨es, hes, hdoes⟩ := does_thrSet new s
  have hset : Confined (Key.thr.THROTTLE_LEVEL :: thrKeys) (fun _ => ()) (.nat Key.thr.THROTTLE_LEVEL new :: es) :=
    confined_cons.2 ⟨by simp, hes.mono (List.subset_cons_self ..)⟩
  have hkeep := hset.frame (s.does thrTime)
  rw [State.run_cons, ← hdoes] at hkeep
  refine ⟨?_, hkeep.mode.trans (thrTime_only.mode s), hkeep.store.trans (thrTime_only.store s)⟩
  rw [hdoes]
  exact hes.nat_stands width_throttleLevel (by decide) _ hnew

theorem thrCalls_le (s : State) (mv : Nat) : s.thrCalls mv ≤ 4 := by
  unfold State.thrCalls
  split_ifs <;> omega

/-- A reading that calls for more raises the level to what it calls for, and its sensor is noted (R197). -/
theorem throttleRise_leaves {sensor mv : Nat} (hsensor : sensor < 8) (hcalls : s.nat Key.thr.THROTTLE_LEVEL < s.thrCalls mv) :
    let t := s.does (throttleRise sensor mv)
    t.nat Key.thr.THROTTLE_LEVEL = s.thrCalls mv ∧ t.nat Key.thr.LOW_SENSOR = sensor ∧ t.mode = s.mode ∧ t.store = s.store := by
  obtain ⟨es, hes, hdoes⟩ : ∃ es, Confined [Key.thr.VCORE_MIN] (fun _ => ()) es ∧ s.does (throttleRise sensor mv) =
      ((s.run es).does (thrSet (s.thrCalls mv))).apply (.nat Key.thr.LOW_SENSOR sensor) := by
    refine ⟨?es, ?within, (State.does_phases_cons s (always _) _).trans ((State.does_phases_cons _ _ _).trans ?eq)⟩
    case eq =>
      rw [State.does_phases_nil, if_pos hcalls, State.does_phases_cons, State.does_phases_cons, State.does_phases_nil,
        State.does_always, State.does_always, State.run_cons, State.run_nil]
    case within => simp
  have hfour := thrCalls_le s mv
  have hkeep := hes.frame s
  have hsens : Effect.Within [Key.thr.LOW_SENSOR] (fun _ => ()) (.nat Key.thr.LOW_SENSOR sensor) := by simp
  have hnote := hsens.frame ((s.run es).does (thrSet (s.thrCalls mv)))
  obtain ⟨hlevel, hmode, hstore⟩ := thrSet_leaves (new := s.thrCalls mv) (by omega) (s.run es)
  rw [hdoes]
  exact ⟨(hnote.nat (by decide)).trans hlevel, State.nat_reg_of_lt width_lowSensor _ (by omega),
    hnote.mode.trans (hmode.trans hkeep.mode), hnote.store.trans (hstore.trans hkeep.store)⟩

/-- Ten quiet milliseconds lower the level by one (R198). -/
theorem throttleFall_leaves (ht : s.Typed) (hon : s.nat Key.thr.THROTTLE_LEVEL ≠ 0)
    (hquiet : s.passed s.units.disp.thrOk 10000000 = true) :
    let t := s.does throttleFall
    t.nat Key.thr.THROTTLE_LEVEL = s.nat Key.thr.THROTTLE_LEVEL - 1 ∧ t.mode = s.mode ∧ t.store = s.store := by
  have hdoes : s.does throttleFall = s.does (thrSet (s.nat Key.thr.THROTTLE_LEVEL - 1)) := by
    rw [State.does, throttleFall, if_pos ⟨hon, hquiet⟩, ← State.does]
  have hlt := ht.nat_lt width_throttleLevel
  rw [hdoes]
  exact thrSet_leaves (by omega) s

/-! ### The slack window -/

/-- The publication of a minimum, where something was measured (R192, log 113). -/
def published (k : Nat) (x : Option Int) : List Effect := match x with
  | some v => [.num k v]
  | none => []

theorem published_confined {α : Type} {π : Units → α} {ks : List Nat} {k : Nat} (hk : k ∈ ks) (x : Option Int) :
    Confined ks π (published k x) := by
  cases x <;> simp [published, hk]

/-- What the end of a window publishes of the lanes, and the longest interval of tests (R192, R200). -/
def windowKeys : List Nat :=
  Key.disp.TEST_INTERVAL :: (List.range 16).flatMap fun l => [Key.lane.LANE_MIN_SLACK_A l, Key.lane.LANE_MIN_SLACK_B l]

/-- The least slack of a lane's render and channel tasks (R192). -/
def Lane.leastA (x : Lane) : Option Int := match x.slackA, x.slackR with
  | some p, some q => some (min p q)
  | some p, none => some p
  | none, q => q

/-- The end of a window at a lane: its minima are published, and it begins anew (R192). -/
def Lane.windowEnds (x : Lane) (l : Nat) : List Effect :=
  published (Key.lane.LANE_MIN_SLACK_A l) x.leastA ++ (published (Key.lane.LANE_MIN_SLACK_B l) x.slackB ++
    [.lane l fun x => { x with slackA := none, slackR := none, slackB := none, longest := 0 }])

/-- The longest interval between two tests of a lane in the window (R200). -/
def State.longestInterval (s : State) : Nat := (List.range 16).foldl (fun a l => max a (s.lane l).longest) 0

/-- What the end of a window does for the lanes (R192, R200). -/
def State.lanesWindow (s : State) : List Effect := (List.range 16).flatMap (fun l => (s.lane l).windowEnds l) ++
  if s.longestInterval = 0 then [] else [.nat Key.disp.TEST_INTERVAL s.longestInterval]

/-- The dispatcher at the beginning of a window (R192). -/
def State.windowBegins (s : State) (d : Disp) : Disp :=
  { d with windowAt := s.mtbNs, window := s.nat Key.disp.SLACK_WINDOW, slackRender := none, slackA := none, slackB := none }

theorem lanesWindow_confined (s : State) : Confined windowKeys (fun _ => ()) s.lanesWindow := by
  have hkeys : ∀ l < 16, Key.lane.LANE_MIN_SLACK_A l ∈ windowKeys ∧ Key.lane.LANE_MIN_SLACK_B l ∈ windowKeys := by decide
  have hinterval : Key.disp.TEST_INTERVAL ∈ windowKeys := by decide
  refine confined_append.2 ⟨fun e he => ?_, by simp [hinterval]⟩
  obtain ⟨l, hl, hmem⟩ := List.mem_flatMap.1 he
  obtain ⟨ha, hb⟩ := hkeys l (List.mem_range.1 hl)
  have hlane : Confined windowKeys (fun _ => ()) ((s.lane l).windowEnds l) :=
    confined_append.2 ⟨published_confined ha _, confined_append.2 ⟨published_confined hb _, by simp⟩⟩
  exact hlane e hmem

/-- A window that ends publishes the device's minima, then those of the lanes, and a new one begins (R192). -/
theorem slackWindowEnd_of_due (hdue : s.units.disp.windowAt + s.units.disp.window * 1000000 ≤ s.mtbNs) : slackWindowEnd s =
    published Key.disp.MIN_SLACK_RENDER s.units.disp.slackRender ++ (published Key.disp.MIN_SLACK_A s.units.disp.slackA ++
      (published Key.disp.MIN_SLACK_B s.units.disp.slackB ++ (s.lanesWindow ++ [.disp s.windowBegins]))) := by
  have hpast : ¬ s.mtbNs < s.units.disp.windowAt + s.units.disp.window * 1000000 := by omega
  rw [slackWindowEnd, if_neg hpast, State.lanesWindow]
  simp only [List.append_assoc]
  rfl

theorem width_minSlack : ∀ k ∈ [Key.disp.MIN_SLACK_RENDER, Key.disp.MIN_SLACK_A, Key.disp.MIN_SLACK_B],
    Dict.width k = some (32, true) := by decide +kernel

/-- A minimum that is published stands, once effects have run that do not reach it. -/
theorem Confined.num_published {ks : List Nat} {es : List Effect} (h : Confined ks (fun _ => ()) es) {k : Nat}
    (hw : Dict.width k = some (32, true)) (hk : k ∉ ks) {v : Int} (hv : |v| < 2 ^ 31) (s : State) :
    (s.run (published k (some v) ++ es)).num k = v := by
  obtain ⟨hlow, hhigh⟩ := abs_lt.1 hv
  rw [State.run_append]
  exact (h.num_written hw hk s v).trans (signed_eq_self (by omega) (by omega))

/-- What the end of a window leaves (R192). -/
theorem slackWindowEnd_leaves (hdue : s.units.disp.windowAt + s.units.disp.window * 1000000 ≤ s.mtbNs) :
    let t := s.does slackWindowEnd
    (∃ d, t.units.disp = s.windowBegins d) ∧
      (∀ v : Int, s.units.disp.slackA = some v → |v| < 2 ^ 31 → t.num Key.disp.MIN_SLACK_A = v) ∧
      (∀ v : Int, s.units.disp.slackB = some v → |v| < 2 ^ 31 → t.num Key.disp.MIN_SLACK_B = v) ∧
      (∀ v : Int, s.units.disp.slackRender = some v → |v| < 2 ^ 31 → t.num Key.disp.MIN_SLACK_RENDER = v) ∧
      t.mode = s.mode ∧ t.store = s.store := by
  have hlanes : Confined windowKeys (fun _ => ()) (s.lanesWindow ++ [.disp s.windowBegins]) :=
    confined_append.2 ⟨lanesWindow_confined s, by simp⟩
  have hB : Confined (Key.disp.MIN_SLACK_B :: windowKeys) (fun _ => ())
      (published Key.disp.MIN_SLACK_B s.units.disp.slackB ++ (s.lanesWindow ++ [.disp s.windowBegins])) :=
    confined_append.2 ⟨published_confined (by simp) _, hlanes.mono (List.subset_cons_self ..)⟩
  have hA : Confined (Key.disp.MIN_SLACK_A :: Key.disp.MIN_SLACK_B :: windowKeys) (fun _ => ())
      (published Key.disp.MIN_SLACK_A s.units.disp.slackA ++ (published Key.disp.MIN_SLACK_B s.units.disp.slackB ++
        (s.lanesWindow ++ [.disp s.windowBegins]))) :=
    confined_append.2 ⟨published_confined (by simp) _, hB.mono (List.subset_cons_self ..)⟩
  have hall : Confined (Key.disp.MIN_SLACK_RENDER :: Key.disp.MIN_SLACK_A :: Key.disp.MIN_SLACK_B :: windowKeys) (fun _ => ())
      (slackWindowEnd s) := by
    rw [slackWindowEnd_of_due hdue]
    exact confined_append.2 ⟨published_confined (by simp) _, hA.mono (List.subset_cons_self ..)⟩
  refine ⟨?_, fun v hv hlt => ?_, fun v hv hlt => ?_, fun v hv hlt => ?_, (hall.frame s).mode, (hall.frame s).store⟩
  · simp only [State.does, slackWindowEnd_of_due hdue, State.run_append, State.run_cons, State.run_nil, State.disp_apply_disp]
    exact ⟨_, rfl⟩
  · rw [State.does, slackWindowEnd_of_due hdue, State.run_append, hv]
    exact hB.num_published (width_minSlack _ (by decide)) (by decide) hlt _
  · rw [State.does, slackWindowEnd_of_due hdue, State.run_append, State.run_append, hv]
    exact hlanes.num_published (width_minSlack _ (by decide)) (by decide) hlt _
  · rw [State.does, slackWindowEnd_of_due hdue, hv]
    exact hA.num_published (width_minSlack _ (by decide)) (by decide) hlt s

/-! ### The obligation -/

/-- Settles O35: under the hypotheses each command takes one branch, and a lemma says what that branch leaves; a rise and a fall of the
throttle are both `thrSet`, and the three minima are each followed only by writes of other entries. -/
theorem laneMigrationAndThrottle : Obligations.LaneMigrationAndThrottle := by
  intro s ht
  refine ⟨fun l f hne hdue hfrom => ?_, fun l hdue hfrom => ?_,
    fun l hnone hidle hopen hsame hbound hserved hlast hadmit => ⟨s.does lanternReplace, rfl, ?_⟩,
    fun hfsm hlt hidle hserved => ⟨_, rfl, microcodeStep_failed_leaves hfsm hlt hidle hserved⟩,
    fun l i hfsm hlantern hidle hserved hbound hnext hver =>
      ⟨_, rfl, microcodeStep_passed_leaves hfsm hlantern l.isLt hidle hserved hbound hnext hver⟩,
    fun sensor mv hsensor _ hcalls => ⟨_, rfl, throttleRise_leaves hsensor hcalls⟩,
    fun hon hquiet => ⟨_, rfl, throttleFall_leaves ht hon hquiet⟩, fun hdue => ⟨s.does slackWindowEnd, rfl, ?_⟩⟩
  · exact ⟨_, rfl, laneMigrationDone_leaves l.isLt (fun h => hne (Fin.ext h)) hdue hfrom⟩
  · exact ⟨_, rfl, laneMigrationDone_self_leaves hdue hfrom⟩
  · rw [does_lanternReplace hnone hidle hopen hsame hbound hserved hlast]
    exact lanternTake_leaves l.isLt hnone hadmit
  · obtain ⟨⟨d, hd⟩, hA, hB, hrender, hmode, hstore⟩ := slackWindowEnd_leaves hdue
    simp only [hd]
    exact ⟨rfl, rfl, hA, rfl, hB, rfl, hrender, rfl, hmode, hstore⟩

end Sys2Proof.Machine
end

section
/-!
A write of FE_ACTION 2 to a slot without a channel (R230): the test of R397 that refuses it.
-/

namespace Sys2Proof.Machine

variable {s : State} {n : Nat}

/-- The configuration with items holds at an entry that none of them writes what it held, but for the entry that shows the layout. -/
theorem State.get_withItems (s : State) {items : List (Nat × Value)} {k : Nat} (hk : ∀ p ∈ items, p.1 ≠ k)
    (hlayout : Key.lay.LAYOUT_STATE ≠ k) : (s.withItems items).get k = s.get k := by
  have hfold : (items.foldl (fun s p => s.set p.1 p.2) s).get k = s.get k := by
    induction items generalizing s with
    | nil => rfl
    | cons p items ih =>
      obtain ⟨hp, hitems⟩ := List.forall_mem_cons.1 hk
      exact (ih _ hitems).trans (s.get_set_ne _ _ _ hp)
  unfold State.withItems
  split
  · exact (State.get_set_ne _ _ _ _ hlayout).trans hfold
  · exact hfold

/-- Where no test before RANGE fails, and none after it but LOOP_CLOSED does, the status is RANGE (R397). -/
theorem firstFault_range {l : List Nat} (hmem : St.range ∈ l) (hall : ∀ st ∈ l, st = St.range ∨ st = St.loopClosed) :
    firstFault l = St.range := by
  have hout {st : Nat} (hr : st ≠ St.range) (hc : st ≠ St.loopClosed) : st ∉ l := fun h => (hall st h).elim hr hc
  have hfind : testOrder.find? (fun st => l.contains st) = some St.range := by
    refine List.find?_eq_some_iff_append.2 ⟨by simpa using hmem, testOrder.take 6, testOrder.drop 7, by decide, fun st hst => ?_⟩
    have hearly : ∀ st ∈ testOrder.take 6, st ≠ St.range ∧ st ≠ St.loopClosed := by decide
    obtain ⟨hr, hc⟩ := hearly st hst
    simpa using hout hr hc
  rw [firstFault, hfind]
  rfl

/-- The rows of a slot's entries are those of the first slot's (Table 07-8). -/
theorem row_slot (hn : n < 64) {sub : Nat} (hsub : sub < 256) : Dict.row ((0x7100 + n) * 256 + sub) = Dict.row (0x7100 * 256 + sub) :=
  Dict.row_of_table (n := 64) (by decide) hn (by omega) hsub

/-- The row of FE_ACTION (Table 07-8). -/
def feActionRow : Row := ⟨0x7100, 64, 29, 1, 1, .u8, .rwo, true, .num 0, [(0, 3)], .block true⟩

theorem row_feAction (hn : n < 64) : Dict.row (Key.ls.FE_ACTION n) = some feActionRow :=
  (row_slot hn (by decide)).trans (by decide +kernel)

theorem feAction_index (hn : n < 64) : Key.ls.FE_ACTION n / 256 = 0x7100 + n ∧ Key.ls.FE_ACTION n % 256 = 29 ∧
    Key.ls.FE_ACTION n / 65536 = 0x71 := by
  simp only [Key.ls.FE_ACTION]; omega

/-- The tests from NO_ENTRY to the row's range pass (R397). -/
theorem headFaults_feAction {w : Writer} (hn : n < 64) (hrole : w.role ∈ [2, 3])
    (harea : s.areaOwned w.session (Key.ls.FE_ACTION n) = false) :
    s.headFaults w (Key.ls.FE_ACTION n) (some .u8) (.num 2) = [] := by
  obtain ⟨hindex, hsub, -⟩ := feAction_index hn
  have hmay : roleMayWrite w.role (0x7100 + n) feActionRow.acc = true := by
    obtain hrole | hrole : w.role = 2 ∨ w.role = 3 := by simpa using hrole
    · simp [hrole, roleMayWrite]
    · simp [hrole, roleMayWrite]
      omega
  have hwritable : feActionRow.readOnly (Key.ls.FE_ACTION n) = false := by
    simp [Row.readOnly, feActionRow, hsub]
  simp only [State.headFaults, row_feAction hn, hindex, hmay, hwritable, harea]
  rfl

/-- The tests of the loop engine for FE_ACTION 2: RWO, and the slot has a channel (R230, R234). -/
theorem ownFaults_feAction {new : State} {touched : Nat → Bool} {w : Writer} {effect : Nat} (hn : n < 64) :
    s.ownFaults new touched w effect (Key.ls.FE_ACTION n) (.num 2) true =
      bad (!s.ownerOpen (Key.ls.FE_ACTION n)) St.loopClosed ++ bad (new.num (Key.ls.OWNER_CH n) == 0xFF) St.range := by
  obtain ⟨hindex, hsub, harea⟩ := feAction_index hn
  have hcone : s.coneFaults n 29 2 = [] := by simp [State.coneFaults]
  simp only [State.ownFaults, hindex, hsub, harea, row_feAction hn, Nat.add_sub_cancel_left, State.slotFaults, Value.int, hcone]
  simp [bad, feActionRow]

/-- Settles O19: the head of the tests passes; of those of the loop engine the one of R230 fails, and what may fail besides it,
LOOP_CLOSED, comes after RANGE. -/
theorem followingErrorActionNeedsAnOwner : Obligations.FollowingErrorActionNeedsAnOwner := by
  intro s n w hwaits howner hrole harea
  have hkeys : Key.ls.FE_ACTION n ≠ Key.ls.OWNER_CH n ∧ Key.lay.LAYOUT_STATE ≠ Key.ls.OWNER_CH n := by
    simp only [Key.ls.FE_ACTION, Key.ls.OWNER_CH, Key.lay.LAYOUT_STATE]; omega
  obtain ⟨hother, hlayout⟩ := hkeys
  have hnew : (s.withWaiting.set (Key.ls.FE_ACTION n) (.num 2)).num (Key.ls.OWNER_CH n) = 0xFF := by
    rw [State.num, State.get_set_ne _ _ _ _ hother, State.withWaiting, s.get_withItems (List.forall_mem_map.2 hwaits) hlayout]
    exact howner
  have hhead := headFaults_feAction n.isLt hrole harea
  simp only [State.writeStatus, hhead, row_feAction n.isLt, ownFaults_feAction n.isLt, hnew]
  refine firstFault_range (by simp [bad]) fun st hst => ?_
  simp only [bad, List.mem_append, List.mem_ite_nil_right, List.mem_singleton] at hst
  omega

end Sys2Proof.Machine
end

section
/-!
Effects that may also save values, as those of the loop slots do: what they leave of the entries, the mode and a property of the
units.
-/

namespace Sys2Proof.Machine

variable {α : Type}

/-- The effect writes no entry outside `ks`, and keeps the mode and the property `P` of the units; it may save a value. -/
def Effect.Spares (ks : List Nat) (P : Units → Prop) : Effect → Prop
  | .reg k _ => k ∈ ks
  | .bump k _ => k ∈ ks
  | .orBits k _ => k ∈ ks
  | .andNot k _ => k ∈ ks
  | .save _ _ => True
  | .mode _ => False
  | .unit f => ∀ u, P u → P (f u)
  | .raise _ _ _ _ => Key.evt.EVT_RAISED ∈ ks

/-- The units with a slot changed. -/
def Units.onSlot (u : Units) (i : Nat) (f : Slot → Slot) : Units := { u with slots := u.slots.upd {} i f }

section Named
variable {ks : List Nat} {P : Units → Prop} {k i : Nat}

@[simp] theorem Effect.spares_num {n : Int} : (Effect.num k n).Spares ks P ↔ k ∈ ks := .rfl
@[simp] theorem Effect.spares_nat {n : Nat} : (Effect.nat k n).Spares ks P ↔ k ∈ ks := .rfl
@[simp] theorem Effect.spares_bump {n : Int} : (Effect.bump k n).Spares ks P ↔ k ∈ ks := .rfl
@[simp] theorem Effect.spares_orBits {m : Nat} : (Effect.orBits k m).Spares ks P ↔ k ∈ ks := .rfl
@[simp] theorem Effect.spares_save {v : Option Value} : (Effect.save k v).Spares ks P := trivial
@[simp] theorem Effect.spares_event {c : Nat} {a : List Byte} : (Effect.event c a).Spares ks P ↔ Key.evt.EVT_RAISED ∈ ks := .rfl
@[simp] theorem Effect.spares_slot {f : Slot → Slot} : (Effect.slot i f).Spares ks P ↔ ∀ u : Units, P u → P (u.onSlot i f) := .rfl

end Named

/-- Every effect of the list keeps to `ks` and `P`, but for what it saves. -/
def Spared (ks : List Nat) (P : Units → Prop) (es : List Effect) : Prop := ∀ e ∈ es, e.Spares ks P

section Spared
variable {ks ls : List Nat} {P : Units → Prop} {es fs : List Effect}

@[simp] theorem Spared.nil : Spared ks P [] := fun _ h => absurd h List.not_mem_nil

@[simp] theorem spared_cons {e : Effect} : Spared ks P (e :: es) ↔ e.Spares ks P ∧ Spared ks P es := List.forall_mem_cons

@[simp] theorem spared_append : Spared ks P (es ++ fs) ↔ Spared ks P es ∧ Spared ks P fs := List.forall_mem_append

/-- Effects that leave a part of the units keep what holds of it. -/
theorem Confined.spared {π : Units → α} (h : Confined ks π es) (Q : α → Prop) : Spared ks (fun u => Q (π u)) es := by
  intro e he
  have hw := h e he
  cases e with
  | unit f => exact fun u hu => (congrArg Q (hw u)).mpr hu
  | save => trivial
  | _ => exact hw

theorem Spared.mono (h : ks ⊆ ls) (hes : Spared ks P es) : Spared ls P es := by
  intro e he
  have hs := hes e he
  cases e with
  | unit | save | mode => exact hs
  | _ => exact h hs

/-- What is asked of the units may be dropped. -/
theorem Spared.ofUnits (hes : Spared ks P es) : Spared ks (fun _ => True) es := by
  intro e he
  have hs := hes e he
  cases e with
  | unit => exact fun _ _ => trivial
  | _ => exact hs

/-- Which session has caused an event makes no difference. -/
theorem Spared.by (n : Nat) (h : Spared ks P es) : Spared ks P (es.map (Effect.by n)) := by
  intro e he
  obtain ⟨d, hd, rfl⟩ := List.mem_map.1 he
  have hs := h d hd
  unfold Effect.by
  split <;> exact hs

theorem Effect.Spares.get {e : Effect} (h : e.Spares ks P) (s : State) {k : Nat} (hk : k ∉ ks) : (s.apply e).get k = s.get k := by
  refine s.apply_get e k ?_
  cases e <;> simp only [Effect.writes, List.mem_singleton, List.not_mem_nil, not_false_eq_true]
  all_goals exact fun hj => hk (hj ▸ h)

theorem Effect.Spares.mode {e : Effect} (h : e.Spares ks P) (s : State) : (s.apply e).mode = s.mode := by
  cases e with
  | mode => exact h.elim
  | _ => simp [State.apply]

theorem Effect.Spares.units {e : Effect} (h : e.Spares ks P) (hP : EventBlind P) {s : State} (hs : P s.units) : P (s.apply e).units := by
  cases e with
  | unit f => exact h _ hs
  | raise c a n sc => exact (hP.raise s c a n sc).mpr hs
  | _ => simpa [State.apply] using hs

/-- What a list of effects leaves. -/
theorem Spared.run (h : Spared ks P es) (s : State) : (∀ k, k ∉ ks → (s.run es).get k = s.get k) ∧ (s.run es).mode = s.mode ∧
    (EventBlind P → P s.units → P (s.run es).units) := by
  induction es generalizing s with
  | nil => exact ⟨fun _ _ => rfl, rfl, fun _ => id⟩
  | cons e es ih =>
    obtain ⟨he, hes⟩ := spared_cons.1 h
    obtain ⟨hget, hmode, hunits⟩ := ih hes (s.apply e)
    exact ⟨fun k hk => (hget k hk).trans (he.get s hk), hmode.trans (he.mode s), fun hP hs => hunits hP (he.units hP hs)⟩

theorem Spared.mode (h : Spared ks P es) (s : State) : (s.run es).mode = s.mode := (h.run s).2.1

theorem Spared.units (h : Spared ks P es) (hP : EventBlind P) {s : State} (hs : P s.units) : P (s.run es).units :=
  (h.run s).2.2 hP hs

theorem Spared.num (h : Spared ks P es) (s : State) {k : Nat} (hk : k ∉ ks) : (s.run es).num k = s.num k :=
  congrArg Value.int ((h.run s).1 k hk)

theorem Spared.nat (h : Spared ks P es) (s : State) {k : Nat} (hk : k ∉ ks) : (s.run es).nat k = s.nat k :=
  congrArg Int.toNat (h.num s hk)

/-- A number written to an unsigned entry that can hold it is the one that stands, once effects have run that do not reach it. -/
theorem Spared.num_stands (h : Spared ks P es) {k w : Nat} (hw : Dict.width k = some (w, false)) (hk : k ∉ ks) (s : State) {n : Int}
    (h0 : 0 ≤ n) (hn : n < 2 ^ w) : (s.run (.num k n :: es)).num k = n :=
  (h.num _ hk).trans (s.num_reg_of_lt hw h0 hn)

theorem Spared.nat_stands (h : Spared ks P es) {k w : Nat} (hw : Dict.width k = some (w, false)) (hk : k ∉ ks) (s : State) {n : Nat}
    (hn : n < 2 ^ w) : (s.run (.nat k n :: es)).nat k = n :=
  (h.nat _ hk).trans (s.nat_reg_of_lt hw hn)

/-- So it stands for whoever has caused the effects, whatever came before. -/
theorem Spared.num_stands_by (h : Spared ks P es) {k w : Nat} (hw : Dict.width k = some (w, false)) (hk : k ∉ ks) (s : State)
    (before : List Effect) (m : Nat) {n : Int} (h0 : 0 ≤ n) (hn : n < 2 ^ w) :
    (s.run ((before ++ .num k n :: es).map (Effect.by m))).num k = n := by
  rw [List.map_append, State.run_append, List.map_cons]
  exact (h.by m).num_stands hw hk _ h0 hn

end Spared

/-- The phase keeps to `ks` and `P` from every state, but for what it saves. -/
def Phase.Spares (ks : List Nat) (P : Units → Prop) (p : Phase) : Prop := ∀ s, Spared ks P (p s)

section Phases
variable {ks : List Nat} {P : Units → Prop}

@[simp] theorem Phase.spares_always {es : List Effect} : Phase.Spares ks P (always es) ↔ Spared ks P es :=
  ⟨fun h => h State.reset, fun h _ => h⟩

theorem Phase.spares_phases {ps : List Phase} (h : ∀ p ∈ ps, Phase.Spares ks P p) : Phase.Spares ks P (phases ps) := by
  induction ps with
  | nil => exact fun _ => .nil
  | cons p ps ih =>
    obtain ⟨hp, hps⟩ := List.forall_mem_cons.1 h
    exact fun s => spared_append.2 ⟨hp s, ih hps _⟩

end Phases

/-- Bits set in an unsigned entry, read back (R4). -/
theorem State.nat_orBits {k w : Nat} (hw : Dict.width k = some (w, false)) (s : State) (m : Nat) :
    (s.apply (.orBits k m)).nat k = (s.nat k ||| m) % 2 ^ w := by
  have hset : (s.apply (.orBits k m)).num k = ((s.nat k ||| m : Nat) : Int) % 2 ^ w := s.num_set hw _
  rw [State.nat_eq_num, hset]
  exact_mod_cast Int.toNat_natCast _

end Sys2Proof.Machine
end

section
/-!
The following-error trip of a loop slot and the clear of its fence (R223, R229, R231, R233, R235): what each leaves of the slot's
entries.
-/

namespace Sys2Proof.Machine

variable {α : Type} {s : State} {n : Nat}

/-! ### The entries of a slot -/

theorem width_slot (hn : n < 64) {sub : Nat} (hsub : sub < 256) :
    Dict.width ((0x7100 + n) * 256 + sub) = Dict.width (0x7100 * 256 + sub) := by
  rw [Dict.width, row_slot hn hsub, Dict.width]

section Widths
variable (hn : n < 64)
include hn

theorem width_slotState : Dict.width (Key.ls.SLOT_STATE n) = some (8, false) := (width_slot hn (by decide)).trans (by decide +kernel)
theorem width_slotFenceCause : Dict.width (Key.ls.FENCE_CAUSE n) = some (8, false) :=
  (width_slot hn (by decide)).trans (by decide +kernel)
theorem width_stateReq : Dict.width (Key.ls.STATE_REQ n) = some (8, false) := (width_slot hn (by decide)).trans (by decide +kernel)
theorem width_slotFlags : Dict.width (Key.ls.FLAGS n) = some (16, false) := (width_slot hn (by decide)).trans (by decide +kernel)
theorem width_feTrips : Dict.width (Key.ls.FE_TRIPS n) = some (32, false) := (width_slot hn (by decide)).trans (by decide +kernel)
theorem width_man : Dict.width (Key.ls.MAN n) = some (32, true) := (width_slot hn (by decide)).trans (by decide +kernel)

end Widths

/-! ### A slot leaves its state -/

/-- The supervisor count of a slot is 0. -/
def Units.countZero (n : Nat) (u : Units) : Prop := (Tbl.at ({} : Slot) u.slots n).count = 0

theorem State.slot_apply_slot (s : State) (i j : Nat) (f : Slot → Slot) :
    (s.apply (.slot i f)).slot j = if i = j then f (s.slot i) else s.slot j := Tbl.at_upd ..

/-- A change of a slot that keeps its supervisor count at 0 keeps it there. -/
theorem Units.countZero_onSlot {f : Slot → Slot} (hf : ∀ x : Slot, x.count = 0 → (f x).count = 0) (u : Units) (h : u.countZero n) :
    (u.onSlot n f).countZero n := by
  have hat : Tbl.at ({} : Slot) (u.onSlot n f).slots n = f (Tbl.at {} u.slots n) := (Tbl.at_upd ..).trans (if_pos rfl)
  rw [Units.countZero, hat]
  exact hf _ h

theorem eventBlind_countZero (n : Nat) : EventBlind (Units.countZero n) := fun _ _ _ _ _ _ => rfl

/-- A change of state writes the state alone, and keeps the count (R220, R243). -/
theorem setSlot_spares (n new cause : Nat) : Phase.Spares [Key.ls.SLOT_STATE n, Key.evt.EVT_RAISED] (Units.countZero n)
    (setSlot n new cause) := by
  have hclosed := Units.countZero_onSlot (n := n) (f := fun x => { x with closedBefore := false }) fun _ h => h
  intro s
  unfold setSlot
  split
  · exact .nil
  · split
    · simpa using hclosed
    · simp

theorem dropReq_spared (n : Nat) : Spared [Key.ls.STATE_REQ n] (Units.countZero n) (dropReq n) := by
  simpa [dropReq] using Units.countZero_onSlot (n := n) (f := fun x => { x with reqWait := none }) fun _ h => h

/-- A change of state shows the new one, and then raises its event. -/
theorem setSlot_of_ne {new cause : Nat} (h : s.slotState n ≠ new) : ∃ es, Spared [Key.evt.EVT_RAISED] (Units.countZero n) es ∧
    setSlot n new cause s = .nat (Key.ls.SLOT_STATE n) new :: es := by
  have hclosed := Units.countZero_onSlot (n := n) (f := fun x => { x with closedBefore := false }) fun _ h => h
  refine ⟨_, ?_, by rw [setSlot, if_neg h, List.cons_append]⟩
  split
  · simpa using hclosed
  · simp

theorem slotState_ne (n : Nat) : Key.ls.SLOT_STATE n ≠ Key.evt.EVT_RAISED ∧ Key.ls.SLOT_STATE n ≠ Key.ls.STATE_REQ n := by
  simp only [Key.ls.SLOT_STATE, Key.evt.EVT_RAISED, Key.ls.STATE_REQ]; omega

/-- The state that a change sets is the one that stands afterwards. -/
theorem slotState_setSlot (hn : n < 64) {new cause : Nat} (hnew : new < 256) (s : State) :
    (s.does (setSlot n new cause)).slotState n = new := by
  by_cases h : s.slotState n = new
  · rw [State.does, setSlot, if_pos h]
    exact h
  · obtain ⟨es, hes, hset⟩ := setSlot_of_ne (cause := cause) h
    rw [State.does, hset]
    exact hes.nat_stands (width_slotState hn) (by simpa using (slotState_ne n).1) s hnew

/-- The request that is dropped with it leaves the state. -/
theorem slotState_dropReq (n : Nat) (s : State) : (s.run (dropReq n)).slotState n = s.slotState n :=
  (dropReq_spared n).nat s (by simpa using (slotState_ne n).2)

/-! ### The fence of a slot -/

/-- What the fence of a slot writes besides its state and its request (R231, R232). -/
def slotFenceKeys (n : Nat) : List Nat := [Key.ls.FENCE_CAUSE n, Key.ls.U_NOW n, Key.evt.EVT_RAISED]

/-- The slot drives the fenced value, and its fence is reported (R231, R232). -/
def slotFenced (n cause : Nat) : Phase := fun s =>
  let u := s.clampU n (s.fencedValue n)
  [.nat (Key.ls.FENCE_CAUSE n) cause, .num (Key.ls.U_NOW n) u, .slot n fun x =>
    { x with uBase := u, count := 0, uPrev := s.num (Key.ls.U_NOW n), tLast := s.tickNow, ran := true },
   .event Ev.SLOT_FENCED (args16 [n, cause])]

theorem slotFenced_spares (n cause : Nat) : Phase.Spares (slotFenceKeys n) (Units.countZero n) (slotFenced n cause) := fun s => by
  have hzero (u prior : Int) (t : Nat) := Units.countZero_onSlot (n := n)
    (f := fun x => { x with uBase := u, count := 0, uPrev := prior, tLast := t, ran := true }) fun _ _ => rfl
  simpa [slotFenced, slotFenceKeys] using hzero _ _ _

theorem slotFence_eq (h : s.slotState n ≠ 3) (cause : Nat) : slotFence n cause s =
    phases [setSlot n 3 2, always (dropReq n), slotFenced n cause] s := by
  rw [slotFence, if_neg h]
  rfl

/-- All that a trip and a fence write of the entries of a slot, and the events they raise. -/
def slotTripKeys (n : Nat) : List Nat :=
  [Key.evt.EVT_RAISED, Key.ls.SLOT_STATE n, Key.ls.STATE_REQ n, Key.ls.MAN n, Key.ls.FENCE_CAUSE n, Key.ls.U_NOW n]

theorem setSlot_spares_trip (n new cause : Nat) : Phase.Spares (slotTripKeys n) (Units.countZero n) (setSlot n new cause) :=
  fun s => (setSlot_spares n new cause s).mono (by simp [slotTripKeys])

theorem dropReq_spared_trip (n : Nat) : Spared (slotTripKeys n) (Units.countZero n) (dropReq n) :=
  (dropReq_spared n).mono (by simp [slotTripKeys])

theorem slotFence_spares (n cause : Nat) : Phase.Spares (slotTripKeys n) (Units.countZero n) (slotFence n cause) := fun s => by
  by_cases h : s.slotState n = 3
  · rw [slotFence, if_pos h]
    simp [slotTripKeys]
  · have hfenced : Phase.Spares (slotTripKeys n) (Units.countZero n) (slotFenced n cause) := fun s =>
      (slotFenced_spares n cause s).mono (by simp [slotTripKeys, slotFenceKeys])
    rw [slotFence_eq h]
    exact Phase.spares_phases (by simp [setSlot_spares_trip, dropReq_spared_trip, hfenced]) s

/-- What a fence leaves of a slot that was not fenced (R231). -/
theorem slotFence_leaves (hn : n < 64) (h : s.slotState n ≠ 3) {cause : Nat} (hc : cause < 256) :
    let t := s.does (slotFence n cause)
    t.slotState n = 3 ∧ t.num (Key.ls.FENCE_CAUSE n) = cause := by
  have hkeys : Key.ls.SLOT_STATE n ∉ slotFenceKeys n ∧ Key.ls.FENCE_CAUSE n ∉ [Key.ls.U_NOW n, Key.evt.EVT_RAISED] := by
    simp only [slotFenceKeys, List.mem_cons, List.not_mem_nil, or_false, Key.ls.SLOT_STATE, Key.ls.FENCE_CAUSE, Key.ls.U_NOW, Key.evt.EVT_RAISED]
    omega
  obtain ⟨hstate, hcause⟩ := hkeys
  have hdoes : s.does (slotFence n cause) = ((s.does (setSlot n 3 2)).run (dropReq n)).does (slotFenced n cause) := by
    rw [State.does, slotFence_eq h]
    refine (State.does_phases_cons s _ _).trans ?_
    rw [State.does_phases_cons, State.does_phases_cons, State.does_phases_nil, State.does_always]
  rw [hdoes]
  constructor
  · calc _ = _ := (slotFenced_spares n cause _).nat _ hstate
      _ = _ := slotState_dropReq n _
      _ = 3 := slotState_setSlot hn (by decide) s
  · have hrest (u : Int) (f : Slot → Slot) : Spared [Key.ls.U_NOW n, Key.evt.EVT_RAISED] (fun _ => True)
        [.num (Key.ls.U_NOW n) u, .slot n f, .event Ev.SLOT_FENCED (args16 [n, cause])] := by simp
    exact (hrest _ _).num_stands (width_slotFenceCause hn) hcause _ (Int.natCast_nonneg cause) (by exact_mod_cast hc)

/-! ### The fence of the slot's channel -/

/-- What a fence with a fast stop writes of a channel (R282, R297). -/
def fenceFastKeys (c : Nat) : List Nat := [Key.prot.FENCE_CAUSE c, Key.prot.FENCE_COUNT c, Key.prot.LAST_FENCE c, Key.life.LT_CH_FENCES,
  Key.prot.PROBE_NEXT c, Key.pw.SEQ_PHASE c, Key.pw.OUT_STATE c, Key.evt.EVT_RAISED]

section Channel
variable {π : Units → α} {c : Nat} (hc : ∀ u f, π (Units.onChan u c f) = π u) (hz : ∀ u l, π (Units.withZc u l) = π u)
include hc hz

theorem stopBegin_within (fast : Bool) : Phase.Within (fenceFastKeys c) π (stopBegin c fast) := by
  have hdown : Phase.Within (fenceFastKeys c) π (loopDown c) := by simp [loopDown, fenceFastKeys, hc]
  have hchain : Phase.Within (fenceFastKeys c) π (chainDown c false) := fun s => by simp [chainDown, fenceFastKeys, hc, hz]
  have hwait : Phase.Within (fenceFastKeys c) π (zcStart (Zc.stop c) (.num 0)) := fun s => zcStartAt_within hz _ _ _ s
  have hphase : Key.pw.SEQ_PHASE c ∈ fenceFastKeys c ∧ Key.prot.PROBE_NEXT c ∈ fenceFastKeys c := by simp [fenceFastKeys]
  obtain ⟨hseq, hprobe⟩ := hphase
  intro s
  unfold stopBegin
  split
  · exact Phase.within_phases (by simp [hdown, hprobe, hc]) s
  split
  · exact .nil
  · dsimp only
    split
    · simp [always, hc, hz]
    split
    · exact Phase.within_phases (by simp [hchain, hc, hz]) s
    split
    · exact Phase.within_phases (by simp [hdown, hc, hz]) s
    split
    · exact Phase.within_phases (by simp [hchain, hc, hz]) s
    · exact Phase.within_phases (by simp [hwait, hseq, hc, hz]) s

theorem fenceFast_within (bit : Nat) : Phase.Within (fenceFastKeys c) π (fenceFast c bit) := by
  have hmark : Phase.Within (fenceFastKeys c) π (fenceMark c bit) := fun s => by
    unfold fenceMark
    split
    · exact .nil
    · simp [fenceFastKeys]
  have hstop := stopBegin_within hc hz true
  have hout : Phase.Within (fenceFastKeys c) π (setOut c 4) := (setOut_within c 4).mono (by simp [fadeKeys, fenceFastKeys])
  intro s
  exact Phase.within_phases (by simp [hmark, hstop, hout]) s

end Channel

/-- The channel that a slot has is one of 16 (Table 07-8). -/
theorem lt_of_owner {c : Nat} (h : s.owner n = some c) : c < 16 := by
  simp only [State.owner] at h
  split at h
  · cases h; assumption
  · cases h

/-- What the fence of the slot's channel, if it has one, may write (R231). -/
def State.ownerKeys (s : State) (n : Nat) : List Nat := ((s.owner n).map fenceFastKeys).getD []

/-- They are no entries of the loop engine. -/
theorem notMem_ownerKeys {k : Nat} (hk : k / 65536 = 0x71) : k ∉ s.ownerKeys n := by
  unfold State.ownerKeys
  cases h : s.owner n with
  | none => simp
  | some c =>
    have hlt := lt_of_owner h
    simp only [Option.map_some, Option.getD_some, fenceFastKeys, List.mem_cons, List.not_mem_nil, or_false, Key.prot.FENCE_CAUSE,
      Key.prot.FENCE_COUNT, Key.prot.LAST_FENCE, Key.life.LT_CH_FENCES, Key.prot.PROBE_NEXT, Key.pw.SEQ_PHASE, Key.pw.OUT_STATE,
      Key.evt.EVT_RAISED]
    omega

/-- The fence of the slot's channel (R231, Table 09-8). -/
def State.ownerFence (s : State) (n : Nat) : Phase := match s.owner n with
  | some c => fenceFast c 3
  | none => always []

theorem ownerFence_spares (s : State) (n : Nat) : Phase.Spares (s.ownerKeys n) (Units.countZero n) (s.ownerFence n) := by
  unfold State.ownerKeys State.ownerFence
  cases s.owner n with
  | none => simp
  | some c =>
    exact fun t => (fenceFast_within (π := fun u => Tbl.at ({} : Slot) u.slots n) (fun _ _ => rfl) (fun _ _ => rfl) 3 t).spared
      fun x => x.count = 0

/-! ### The trip -/

/-- A trip is flagged, counted and reported, and the supervisor counts anew (R229). -/
def tripNotes (n a : Nat) : List Effect := [.orBits (Key.ls.FLAGS n) 256, .bump (Key.ls.FE_TRIPS n) 1,
  .event Ev.FOLLOWING_ERROR (args16 [n, a]), .slot n fun x => { x with count := 0 }]

/-- What FE_ACTION brings at a trip (Table 07-6). -/
def State.tripAction (s : State) (n : Nat) : Nat → Phase
  | 0 => phases [setSlot n 2 1, always (dropReq n)]
  | 1 => phases [always [.num (Key.ls.MAN n) (s.slot n).uBase], setSlot n 0 1, always (dropReq n)]
  | 2 => phases [slotFence n 1, s.ownerFence n]
  | _ => always []

theorem does_followingErrorTrip (hclosed : s.slotState n = 1) (htime : s.nat (Key.ls.FE_TIME n) ≠ 0)
    (hcount : s.nat (Key.ls.FE_TIME n) ≤ (s.slot n).count) : s.does (followingErrorTrip n) =
      (s.run (tripNotes n (s.nat (Key.ls.FE_ACTION n)))).does (s.tripAction n (s.nat (Key.ls.FE_ACTION n))) := by
  have hdue : ¬ (s.slotState n ≠ 1 ∨ s.nat (Key.ls.FE_TIME n) = 0 ∨ (s.slot n).count < s.nat (Key.ls.FE_TIME n)) := by omega
  have hphase : followingErrorTrip n s = phases [always (tripNotes n (s.nat (Key.ls.FE_ACTION n))),
      s.tripAction n (s.nat (Key.ls.FE_ACTION n))] s := by
    rw [followingErrorTrip]
    simp only [if_neg hdue]
    rfl
  rw [State.does, hphase]
  refine (State.does_phases_cons s _ _).trans ?_
  rw [State.does_phases_cons, State.does_phases_nil, State.does_always]

/-- The notes of a trip, read back. -/
theorem tripNotes_leave (hn : n < 64) (a : Nat) (s : State) :
    let t := s.run (tripNotes n a)
    t.num (Key.ls.FE_TRIPS n) = (s.num (Key.ls.FE_TRIPS n) + 1) % 2 ^ 32 ∧ (t.nat (Key.ls.FLAGS n)).testBit 8 = true ∧
      t.slotState n = s.slotState n ∧ (t.slot n).count = 0 ∧ t.mode = s.mode := by
  have hkeys : Key.ls.FE_TRIPS n ∉ [Key.ls.FLAGS n] ∧ Key.ls.FE_TRIPS n ∉ [Key.evt.EVT_RAISED] ∧
      Key.ls.FLAGS n ∉ [Key.ls.FE_TRIPS n, Key.evt.EVT_RAISED] ∧
      Key.ls.SLOT_STATE n ∉ [Key.ls.FLAGS n, Key.ls.FE_TRIPS n, Key.evt.EVT_RAISED] := by
    simp only [List.mem_cons, List.not_mem_nil, or_false, Key.ls.FE_TRIPS, Key.ls.FLAGS, Key.ls.SLOT_STATE, Key.evt.EVT_RAISED]; omega
  obtain ⟨htripsFlags, htripsEvent, hflags, hstate⟩ := hkeys
  have hflag : Confined [Key.ls.FLAGS n] (fun _ => ()) [.orBits (Key.ls.FLAGS n) 256] := by simp [Effect.Within]
  have hreport : Spared [Key.evt.EVT_RAISED] (fun _ => True)
      [.event Ev.FOLLOWING_ERROR (args16 [n, a]), .slot n fun x => { x with count := 0 }] := by simp
  have hrest : Spared [Key.ls.FE_TRIPS n, Key.evt.EVT_RAISED] (fun _ => True) (.bump (Key.ls.FE_TRIPS n) 1 ::
      [.event Ev.FOLLOWING_ERROR (args16 [n, a]), .slot n fun x => { x with count := 0 }]) := by simp
  have hall : Spared [Key.ls.FLAGS n, Key.ls.FE_TRIPS n, Key.evt.EVT_RAISED] (fun _ => True) (tripNotes n a) := by simp [tripNotes]
  refine ⟨?_, ?_, hall.nat s hstate, ?_, hall.mode s⟩
  · calc _ = _ := hreport.num _ htripsEvent
      _ = _ := State.num_bump _ (width_feTrips hn)
      _ = _ := congrArg (fun i => (i + 1) % 2 ^ 32) ((hflag.frame s).num htripsFlags)
  · rw [tripNotes, State.run_cons, hrest.nat _ hflags, State.nat_orBits (width_slotFlags hn)]
    have hbit : Nat.testBit 256 8 = true := by decide
    simp [Nat.testBit_mod_two_pow, -Nat.reducePow, hbit]
  · exact congrArg Slot.count ((State.slot_apply_slot _ n n _).trans (if_pos rfl))

/-- Whatever FE_ACTION brings writes what a trip or a fence may write of the slot, and of its channel (Table 07-6). -/
theorem tripAction_spares (s : State) (n a : Nat) : Phase.Spares (slotTripKeys n ++ s.ownerKeys n) (Units.countZero n)
    (s.tripAction n a) := by
  have hset (new cause : Nat) : Phase.Spares (slotTripKeys n ++ s.ownerKeys n) (Units.countZero n) (setSlot n new cause) := fun t =>
    (setSlot_spares_trip n new cause t).mono (List.subset_append_left ..)
  have hdrop : Spared (slotTripKeys n ++ s.ownerKeys n) (Units.countZero n) (dropReq n) :=
    (dropReq_spared_trip n).mono (List.subset_append_left ..)
  have hfence : Phase.Spares (slotTripKeys n ++ s.ownerKeys n) (Units.countZero n) (slotFence n 1) := fun t =>
    (slotFence_spares n 1 t).mono (List.subset_append_left ..)
  have howner : Phase.Spares (slotTripKeys n ++ s.ownerKeys n) (Units.countZero n) (s.ownerFence n) := fun t =>
    (ownerFence_spares s n t).mono (List.subset_append_right ..)
  have hman : Key.ls.MAN n ∈ slotTripKeys n := by simp [slotTripKeys]
  unfold State.tripAction
  split
  · exact Phase.spares_phases (by simp [hset, hdrop])
  · exact Phase.spares_phases (by simp [hset, hdrop, hman])
  · exact Phase.spares_phases (by simp [hfence, howner])
  · simp

section Actions
variable {x : State}

theorem tripAction_trips (hn : n < 64) : (x.does (s.tripAction n 0)).slotState n = 2 := by
  rw [State.tripAction, State.does_phases_cons, State.does_phases_cons, State.does_phases_nil, State.does_always, slotState_dropReq]
  exact slotState_setSlot hn (by decide) x

/-- With FE_ACTION 1 the slot opens at its output (Table 07-6). -/
theorem tripAction_opens (hn : n < 64) : (x.does (s.tripAction n 1)).slotState n = 0 ∧
    (-2 ^ 31 ≤ (s.slot n).uBase → (s.slot n).uBase < 2 ^ 31 → (x.does (s.tripAction n 1)).num (Key.ls.MAN n) = (s.slot n).uBase) := by
  have hkeys : Key.ls.MAN n ∉ [Key.ls.SLOT_STATE n, Key.evt.EVT_RAISED] ∧ Key.ls.MAN n ∉ [Key.ls.STATE_REQ n] := by
    simp only [List.mem_cons, List.not_mem_nil, or_false, Key.ls.MAN, Key.ls.SLOT_STATE, Key.ls.STATE_REQ, Key.evt.EVT_RAISED]; omega
  obtain ⟨hset, hdrop⟩ := hkeys
  simp only [State.tripAction, State.does_phases_cons, State.does_phases_nil, State.does_always, slotState_dropReq]
  refine ⟨slotState_setSlot hn (by decide) _, fun hlow hhigh => ?_⟩
  calc _ = _ := (dropReq_spared n).num _ hdrop
    _ = _ := (setSlot_spares n 0 1 _).num _ hset
    _ = signed 32 (s.slot n).uBase := x.num_set (width_man hn) _
    _ = _ := signed_eq_self (by omega) (by omega)

theorem tripAction_fences (hn : n < 64) (h : x.slotState n ≠ 3) : (x.does (s.tripAction n 2)).slotState n = 3 ∧
    (x.does (s.tripAction n 2)).num (Key.ls.FENCE_CAUSE n) = 1 := by
  have hout : Key.ls.SLOT_STATE n / 65536 = 0x71 ∧ Key.ls.FENCE_CAUSE n / 65536 = 0x71 := by
    simp only [Key.ls.SLOT_STATE, Key.ls.FENCE_CAUSE]; omega
  obtain ⟨hstateOut, hcauseOut⟩ := hout
  obtain ⟨hstate, hcause⟩ := slotFence_leaves hn h (cause := 1) (by decide)
  have howner := ownerFence_spares s n (x.does (slotFence n 1))
  rw [State.tripAction, State.does_phases_cons, State.does_phases_cons, State.does_phases_nil]
  exact ⟨(howner.nat _ (notMem_ownerKeys hstateOut)).trans hstate, (howner.num _ (notMem_ownerKeys hcauseOut)).trans hcause⟩

end Actions

/-! ### The clear of a fence by its unit's entry -/

/-- The clear names the unit alone where it is one of the fenced (Table 15-9). -/
theorem clearNames_of_fenced {cls i count : Nat} {p : Nat → Bool} (hcls : s.fencedOf cls = (List.range count).filter p)
    (hi : i < count) (hcount : count ≤ 0xFFFF) (hp : p i = true) : s.clearNames cls i = [i] := by
  have hne : i ≠ 0xFFFF := by omega
  rw [State.clearNames, if_neg hne, hcls, List.filter_comm, List.filter_beq,
    List.count_eq_one_of_mem List.nodup_range (List.mem_range.2 hi)]
  simp [hp]

/-- The one unit that a clear names is cleared, and the clear is counted and reported (R476). -/
theorem fenceClear_of_names {how cls i : Nat} (h : s.clearNames cls i = [i]) (hmay : s.clearStatus cls i = St.ok) :
    fenceClear how cls i s = clearOne how cls i s ++
      [.bump Key.fence.CLEARS 1, .event Ev.FENCE_CLEARED (args16 [cls, i, s.clearAnswer cls i])] := by
  have hfilter : [i].filter (fun j => s.clearStatus cls j == St.ok) = [i] := by simp [hmay]
  unfold fenceClear
  rw [h]
  simp only [List.isEmpty_cons, Bool.false_eq_true, if_false, hfilter, forAll, List.map_cons, List.map_nil, phases, always, List.append_nil]

/-! ### The clear of a slot's fence -/

/-- The clear of a fenced slot whose check code is sound (R233). -/
theorem slotClear_of_fenced (hf : s.slotState n = 3) (hgood : (s.slot n).checkBad = false) (cause : Nat) :
    ∃ es, Spared [Key.evt.EVT_RAISED] (fun _ => True) es ∧ slotClear n cause s = .nat (Key.ls.SLOT_STATE n) 0 ::
      (es ++ dropReq n ++ [.num (Key.ls.FENCE_CAUSE n) 0, .event Ev.SLOT_UNFENCED (args16 [n, cause])]) := by
  obtain ⟨es, hes, hset⟩ := setSlot_of_ne (s := s) (n := n) (new := 0) (cause := 3) (by omega)
  refine ⟨es, hes.ofUnits, ?_⟩
  simp [slotClear, hf, hgood, phases, hset, always]

/-- The dropped request is saved, and waits for no execution (R223). -/
def reqForgotten (n : Nat) : List Effect :=
  [.save (Key.ls.STATE_REQ n) (some (.num 0)), .slot n fun x => { x with reqWait := none }]

/-- What is reported of the clear of a slot's fence (R233, R476). -/
def State.slotClearReport (s : State) (n : Nat) : List Effect := [.event Ev.SLOT_UNFENCED (args16 [n, 0]), .bump Key.fence.CLEARS 1,
  .event Ev.FENCE_CLEARED (args16 [6, n, s.clearAnswer 6 n])]

/-- A fenced slot whose check code is sound opens, its request and its cause end, and the clear is counted and reported (R233, R476). -/
theorem fenceClear_slot (hn : n < 64) (hf : s.slotState n = 3) (hgood : (s.slot n).checkBad = false) :
    ∃ es, Spared [Key.evt.EVT_RAISED] (fun _ => True) es ∧ fenceClear 0 6 n s = .nat (Key.ls.SLOT_STATE n) 0 ::
      (es ++ .num (Key.ls.STATE_REQ n) 0 :: (reqForgotten n ++ .num (Key.ls.FENCE_CAUSE n) 0 :: s.slotClearReport n)) := by
  obtain ⟨es, hes, hclear⟩ := slotClear_of_fenced hf hgood 0
  have hnames : s.clearNames 6 n = [n] := clearNames_of_fenced (p := fun n => s.slotState n == 3) rfl hn (by decide) (by simp [hf])
  have hone : clearOne 0 6 n = slotClear n 0 := by simp only [clearOne]
  refine ⟨es, hes, ?_⟩
  rw [fenceClear_of_names hnames (by simp [State.clearStatus]), hone, hclear]
  simp [dropReq, reqForgotten, State.slotClearReport]

/-- What the clear of a slot's fence leaves, whichever session has caused it (R233, R476). -/
theorem fenceClear_slot_leaves (hn : n < 64) (hf : s.slotState n = 3) (hgood : (s.slot n).checkBad = false) (m : Nat) :
    let t := s.does (causedBy m (fenceClear 0 6 n))
    t.slotState n = 0 ∧ t.num (Key.ls.FENCE_CAUSE n) = 0 ∧ t.num (Key.ls.STATE_REQ n) = 0 ∧ t.mode = s.mode := by
  obtain ⟨es, hes, hclear⟩ := fenceClear_slot hn hf hgood
  have hkeys : Key.ls.SLOT_STATE n ∉ [Key.ls.STATE_REQ n, Key.ls.FENCE_CAUSE n, Key.fence.CLEARS, Key.evt.EVT_RAISED] ∧
      Key.ls.STATE_REQ n ∉ [Key.ls.FENCE_CAUSE n, Key.fence.CLEARS, Key.evt.EVT_RAISED] ∧
      Key.ls.FENCE_CAUSE n ∉ [Key.fence.CLEARS, Key.evt.EVT_RAISED] := by
    simp only [List.mem_cons, List.not_mem_nil, or_false, Key.ls.SLOT_STATE, Key.ls.STATE_REQ, Key.ls.FENCE_CAUSE, Key.fence.CLEARS,
      Key.evt.EVT_RAISED]
    omega
  obtain ⟨hstate, hreq, hcause⟩ := hkeys
  have hreport : Spared [Key.fence.CLEARS, Key.evt.EVT_RAISED] (fun _ => True) (s.slotClearReport n) := by simp [State.slotClearReport]
  have hafterReq : Spared [Key.ls.FENCE_CAUSE n, Key.fence.CLEARS, Key.evt.EVT_RAISED] (fun _ => True)
      (reqForgotten n ++ .num (Key.ls.FENCE_CAUSE n) 0 :: s.slotClearReport n) := by
    simp [reqForgotten, hreport.mono (List.subset_cons_self ..)]
  have hafterState : Spared [Key.ls.STATE_REQ n, Key.ls.FENCE_CAUSE n, Key.fence.CLEARS, Key.evt.EVT_RAISED] (fun _ => True)
      (es ++ .num (Key.ls.STATE_REQ n) 0 :: (reqForgotten n ++ .num (Key.ls.FENCE_CAUSE n) 0 :: s.slotClearReport n)) :=
    spared_append.2 ⟨hes.mono (by simp), spared_cons.2 ⟨by simp, hafterReq.mono (List.subset_cons_self ..)⟩⟩
  have hall : Spared (Key.ls.SLOT_STATE n :: [Key.ls.STATE_REQ n, Key.ls.FENCE_CAUSE n, Key.fence.CLEARS, Key.evt.EVT_RAISED])
      (fun _ => True) (fenceClear 0 6 n s) := by
    rw [hclear]
    exact spared_cons.2 ⟨by simp, hafterState.mono (List.subset_cons_self ..)⟩
  refine ⟨?_, ?_, ?_, (hall.by m).mode s⟩
  · rw [State.does, causedBy, hclear]
    exact (hafterState.by m).nat_stands (width_slotState hn) hstate s (by decide)
  · have hsplit : fenceClear 0 6 n s = (.nat (Key.ls.SLOT_STATE n) 0 :: (es ++ .num (Key.ls.STATE_REQ n) 0 :: reqForgotten n)) ++
        .num (Key.ls.FENCE_CAUSE n) 0 :: s.slotClearReport n := by
      simp only [hclear, List.cons_append, List.append_assoc]
    rw [State.does, causedBy, hsplit]
    exact hreport.num_stands_by (width_slotFenceCause hn) hcause s _ m le_rfl (by decide)
  · rw [State.does, causedBy, hclear]
    exact hafterReq.num_stands_by (width_stateReq hn) hreq s (.nat (Key.ls.SLOT_STATE n) 0 :: es) m le_rfl (by decide)

/-! ### The write of FENCE_CLEAR -/

theorem slotFenceClear_index (n : Nat) : Key.ls.FENCE_CLEAR n / 256 = 0x7100 + n := by
  simp only [Key.ls.FENCE_CLEAR]; omega

theorem row_slotFenceClear (hn : n < 64) : (Dict.row (Key.ls.FENCE_CLEAR n)).map (fun r => (r.eff, r.p)) = some (.acc, false) := by
  rw [Key.ls.FENCE_CLEAR, row_slot hn (by decide)]
  decide +kernel

theorem entryDoes_slotFenceClear (hn : n < 64) (w : Writer) : entryDoes w (Key.ls.FENCE_CLEAR n) (.num 1) = fenceClear 0 6 n := by
  have hline : specialKeys.findIdx (coversKey (Key.ls.FENCE_CLEAR n)) = 51 :=
    (findIdx_of_table (n := 64) (by decide) hn (by decide)).trans (by decide)
  refine (entryDoes_of_findIdx hline rfl).trans ?_
  rw [slotFenceClear_index, Nat.add_sub_cancel_left]
  rfl

/-- An index of the loop engine has no reserved bits and no wait for a crossing (R4, R154). -/
theorem reserved_loop {k : Nat} (hk : k / 65536 = 0x71 ∨ k / 65536 = 0x72) (v : Value) : reserved k v = v := by
  have hne {j : Nat} (hj : j < 0x710000) : k ≠ j := by omega
  simp (disch := decide) only [reserved, hne, if_false]

theorem changesAtCrossing_loop {k : Nat} (hk : k / 65536 = 0x71 ∨ k / 65536 = 0x72) (s : State) : s.changesAtCrossing k = false := by
  have hzc : isZcEntry (k / 256) (k % 256) = false := by
    have hout : k / 256 ≠ 0x4022 := by omega
    rw [isZcEntry, if_neg (by omega), if_neg (by omega), beq_eq_false_iff_ne.2 hout, Bool.false_and]
  rw [State.changesAtCrossing, hzc, decide_eq_false (by omega), Bool.false_and, Bool.false_or]

/-! ### The obligation -/

/-- Settles O38: a trip is its notes and then what FE_ACTION brings, which writes none of the entries of the notes; a fence and a clear
set the state and the cause, and then write other entries only. -/
theorem slotSupervisionAndClears : Obligations.SlotSupervisionAndClears := by
  intro s n _
  have hn := n.isLt
  refine ⟨fun hclosed htime hcount => ⟨s.does (followingErrorTrip n), rfl, ?_⟩, fun w => ?_⟩
  · generalize ha : s.nat (Key.ls.FE_ACTION n) = a
    have hout : Key.ls.FE_TRIPS n ∉ slotTripKeys n ∧ Key.ls.FLAGS n ∉ slotTripKeys n ∧
        Key.ls.FE_TRIPS n / 65536 = 0x71 ∧ Key.ls.FLAGS n / 65536 = 0x71 := by
      simp only [slotTripKeys, List.mem_cons, List.not_mem_nil, or_false, Key.ls.FE_TRIPS, Key.ls.FLAGS, Key.ls.SLOT_STATE,
        Key.ls.STATE_REQ, Key.ls.MAN, Key.ls.FENCE_CAUSE, Key.ls.U_NOW, Key.evt.EVT_RAISED]
      omega
    obtain ⟨htripsOut, hflagsOut, htripsArea, hflagsArea⟩ := hout
    have hnotes := tripNotes_leave hn a s
    rw [does_followingErrorTrip hclosed htime hcount, ha]
    generalize s.run (tripNotes n a) = x at hnotes
    obtain ⟨htrips, hflag, hstate, hzero, hmode⟩ := hnotes
    have haction := tripAction_spares s n a x
    refine ⟨?_, haction.units (eventBlind_countZero n) hzero, ?_, ?_, ?_, ?_, ?_, ?_, (haction.mode x).trans hmode⟩
    · exact (haction.num x (List.not_mem_append htripsOut (notMem_ownerKeys htripsArea))).trans htrips
    · rw [State.does, haction.nat x (List.not_mem_append hflagsOut (notMem_ownerKeys hflagsArea))]
      exact hflag
    · rintro rfl
      exact (tripAction_opens hn).2
    · rintro rfl
      exact tripAction_trips hn
    · rintro rfl
      exact (tripAction_opens hn).1
    · rintro rfl
      exact tripAction_fences hn (by omega)
    · rintro rfl
      exact hstate.trans hclosed
  · have hindex := slotFenceClear_index n
    have harea : Key.ls.FENCE_CLEAR n / 65536 = 0x71 ∨ Key.ls.FENCE_CLEAR n / 65536 = 0x72 := by omega
    refine writes_of_effect (fun _ => rfl) (row_slotFenceClear hn) (.inl rfl) ?_ (reserved_loop harea _) (changesAtCrossing_loop harea)
      (entryDoes_slotFenceClear hn _) fun s _ _ hf a => ?_
    · rw [Key.mode.MODE_REQUEST]
      omega
    obtain ⟨hfenced, hgood⟩ := hf
    exact fenceClear_slot_leaves hn hfenced hgood w.session

end Sys2Proof.Machine
end

section
/-!
The flowstone learners (R237-R242): what a change of state, the tracker's lock and loss, the end of a fade and the clears leave of a
learner and its entries.
-/

namespace Sys2Proof.Machine

variable {α : Type} {s : State} {g : Nat}

/-! ### The entries of a learner -/

theorem width_flState : ∀ g < 4, Dict.width (Key.fl.FL_STATE g) = some (8, false) := by decide +kernel
theorem width_flPeriodNow : ∀ g < 4, Dict.width (Key.fl.FL_PERIOD_NOW g) = some (32, false) := by decide +kernel
theorem width_flFreq : ∀ g < 4, Dict.width (Key.fl.FL_FREQ g) = some (32, false) := by decide +kernel
theorem width_corrPeak : ∀ g < 4, Dict.width (Key.fl.CORR_PEAK g) = some (32, false) := by decide +kernel

/-! ### Effects on a learner -/

/-- The units with a learner changed. -/
def Units.onLearner (u : Units) (i : Nat) (f : Learner → Learner) : Units := { u with learners := u.learners.upd {} i f }

/-- A learner of the units. -/
def Units.learnerAt (g : Nat) (u : Units) : Learner := Tbl.at {} u.learners g

/-- Its correction values (R237). -/
def Units.flPoints (g : Nat) (u : Units) : List (Nat × Int) := (u.learnerAt g).c

@[simp] theorem Effect.within_learner {ks : List Nat} {π : Units → α} {i : Nat} {f : Learner → Learner} :
    (Effect.learner i f).Within ks π ↔ ∀ u : Units, π (u.onLearner i f) = π u := .rfl

theorem State.learner_apply_learner (s : State) (i : Nat) (f : Learner → Learner) :
    (s.apply (.learner i f)).learner i = f (s.learner i) := (Tbl.at_upd ..).trans (if_pos rfl)

theorem Units.flPoints_onLearner {f : Learner → Learner} (hf : ∀ x, (f x).c = x.c) (u : Units) :
    (u.onLearner g f).flPoints g = u.flPoints g := by
  have hat : (u.onLearner g f).learnerAt g = f (u.learnerAt g) := (Tbl.at_upd ..).trans (if_pos rfl)
  rw [Units.flPoints, hat, hf]
  rfl

/-- Effects that leave a learner of the units leave that learner. -/
theorem Confined.learner {ks : List Nat} {es : List Effect} (h : Confined ks (Units.learnerAt g) es) (s : State) :
    (s.run es).learner g = s.learner g := h.units (fun _ _ _ _ _ _ => rfl) s

/-! ### A change of state -/

/-- The learner has changed its state at a tick (R239). -/
def Learner.changes (x : Learner) (t : Nat) : Learner := { x with due := none, changedAt := some t }

/-- The learner's correction fades, with no restart to follow (R240). -/
def Learner.fades (x : Learner) : Learner := { x.fadeOut with again := false }

/-- What a change to another state than HOLD does (R239, R240). -/
theorem setFl_of_ne {new : Nat} (h : s.flState g ≠ new) (hhold : new ≠ 3) : setFl g new s =
    [.nat (Key.fl.FL_STATE g) new, .event Ev.FL_STATE_CHANGED (args16 [g, s.flState g, new]), .learner g (Learner.changes · s.tickNow)] ++
      if new = 0 ∨ new = 1 ∨ new = 4 then [.learner g Learner.fades] else [] := by
  rw [setFl]
  simp only [if_neg h, if_neg hhold, List.append_nil]
  rfl

/-- After the state itself a change raises its event, and leaves the correction values. -/
theorem setFl_confined {new : Nat} (h : s.flState g ≠ new) (hhold : new ≠ 3) : ∃ es, Confined [Key.evt.EVT_RAISED] (Units.flPoints g) es ∧
    setFl g new s = .nat (Key.fl.FL_STATE g) new :: es := by
  have hchanges (t : Nat) := Units.flPoints_onLearner (g := g) (f := (Learner.changes · t)) fun _ => rfl
  have hfades := Units.flPoints_onLearner (g := g) (f := Learner.fades) fun _ => rfl
  refine ⟨_, ?_, setFl_of_ne h hhold⟩
  simp [hchanges, hfades]

theorem flState_ne_evtRaised (g : Nat) : Key.fl.FL_STATE g ≠ Key.evt.EVT_RAISED := by
  simp only [Key.fl.FL_STATE, Key.evt.EVT_RAISED]; omega

theorem setFl_leaves (hg : g < 4) {new : Nat} (h : s.flState g ≠ new) (hhold : new ≠ 3) (hnew : new < 256) :
    let t := s.does (setFl g new)
    t.flState g = new ∧ s.Frame [Key.fl.FL_STATE g, Key.evt.EVT_RAISED] t := by
  obtain ⟨es, hes, hset⟩ := setFl_confined h hhold
  have hall : Confined [Key.fl.FL_STATE g, Key.evt.EVT_RAISED] (Units.flPoints g) (setFl g new s) := by
    rw [hset]
    exact confined_cons.2 ⟨by simp, hes.mono (List.subset_cons_self ..)⟩
  refine ⟨?_, hall.frame s⟩
  rw [State.does, hset, State.run_cons]
  exact hes.nat_stands (width_flState g hg) (by simpa using flState_ne_evtRaised g) s hnew

/-- On entering SEARCH the correction fades from its value (R240). -/
theorem learner_setFl_search (h : s.flState g ≠ 1) :
    (s.does (setFl g 1)).learner g = ((s.learner g).changes s.tickNow).fades := by
  have hbefore : Confined [Key.fl.FL_STATE g, Key.evt.EVT_RAISED] (Units.learnerAt g)
      [.nat (Key.fl.FL_STATE g) 1, .event Ev.FL_STATE_CHANGED (args16 [g, s.flState g, 1])] := by simp
  have hlearner := hbefore.learner s
  simp only [State.run_cons, State.run_nil] at hlearner
  rw [State.does, setFl_of_ne h (by decide)]
  simp only [List.cons_append, List.nil_append, true_or, or_true, if_true, State.run_cons, State.run_nil, State.learner_apply_learner,
    hlearner]

theorem flChange_of_free (h : s.flFree g = true) (new : Nat) : flChange g new s = setFl g new s := if_pos h

/-- A change that may not be taken yet waits for the coming tick (R239). -/
theorem flChange_of_not_free (h : s.flFree g = false) (new : Nat) :
    flChange g new s = [.learner g fun x => { x with due := flHigher x.due (some new) }] :=
  if_neg (by simpa [State.flFree] using h)

theorem does_flChange (h : s.flFree g = true) (new : Nat) : s.does (flChange g new) = s.does (setFl g new) := by
  rw [State.does, flChange_of_free h, ← State.does]

/-! ### The tracker and the quiet window -/

/-- Showing the period does not move the ticks, nor the learner. -/
theorem flFree_flShow (period : Nat) (s : State) : (s.run (flShow g period)).flFree g = s.flFree g := by
  have hshow : Confined [Key.fl.FL_PERIOD_NOW g, Key.fl.FL_FREQ g] (Units.learnerAt g) (flShow g period) := by simp [flShow]
  have hout : Key.loop.TICK_INDEX ∉ [Key.fl.FL_PERIOD_NOW g, Key.fl.FL_FREQ g] ∧
      Key.mtb.EPOCH_OFFSET ∉ [Key.fl.FL_PERIOD_NOW g, Key.fl.FL_FREQ g] := by
    simp only [List.mem_cons, List.not_mem_nil, or_false, Key.fl.FL_PERIOD_NOW, Key.fl.FL_FREQ, Key.loop.TICK_INDEX, Key.mtb.EPOCH_OFFSET]
    omega
  obtain ⟨htick, hepoch⟩ := hout
  have hkeep := hshow.frame s
  simp only [State.flFree, State.ticked, State.tickNow, State.now, State.mtbNs, s.run_mtb, hkeep.nat htick, hkeep.num hepoch,
    hshow.learner s]

theorem flTrackerLock_leaves (hg : g < 4) {period : Nat} (hmode : s.num (Key.fl.FL_MODE g) ≠ 1) (hlow : 7692308 ≤ period)
    (hhigh : period ≤ 11111111) (hstate : s.flState g = 1) (hfree : s.flFree g = true) :
    let t := s.does (flTrackerLock g period)
    t.flState g = 2 ∧ t.nat (Key.fl.FL_PERIOD_NOW g) = period ∧ t.nat (Key.fl.FL_FREQ g) = 1000000000000 / period ∧
      s.Frame [Key.fl.FL_STATE g, Key.fl.FL_PERIOD_NOW g, Key.fl.FL_FREQ g, Key.evt.EVT_RAISED] t := by
  have hkeys : Key.fl.FL_STATE g ∉ [Key.fl.FL_PERIOD_NOW g, Key.fl.FL_FREQ g] ∧ Key.fl.FL_PERIOD_NOW g ∉ [Key.fl.FL_FREQ g] ∧
      Key.fl.FL_PERIOD_NOW g ∉ [Key.fl.FL_STATE g, Key.evt.EVT_RAISED] ∧ Key.fl.FL_FREQ g ∉ [Key.fl.FL_STATE g, Key.evt.EVT_RAISED] := by
    simp only [List.mem_cons, List.not_mem_nil, or_false, Key.fl.FL_STATE, Key.fl.FL_PERIOD_NOW, Key.fl.FL_FREQ, Key.evt.EVT_RAISED]
    omega
  obtain ⟨hstateOut, hperiodFreq, hperiodOut, hfreqOut⟩ := hkeys
  have hfreqLt : 1000000000000 / period < 2 ^ 32 :=
    lt_of_le_of_lt (Nat.div_le_div_left hlow (by norm_num)) (by norm_num)
  have hshow : Confined [Key.fl.FL_PERIOD_NOW g, Key.fl.FL_FREQ g] (fun _ => ()) (flShow g period) := by simp [flShow]
  have hphase : flTrackerLock g period s = phases [always (flShow g period), flChange g 2] s := by
    rw [flTrackerLock, if_neg (by omega), if_pos hstate]
  have hdoes : s.does (flTrackerLock g period) = (s.run (flShow g period)).does (setFl g 2) := by
    rw [State.does, hphase]
    refine (State.does_phases_cons s _ _).trans ?_
    rw [State.does_phases_cons, State.does_phases_nil, State.does_always, does_flChange ((flFree_flShow period s).trans hfree)]
  have hshown : (s.run (flShow g period)).nat (Key.fl.FL_PERIOD_NOW g) = period ∧
      (s.run (flShow g period)).nat (Key.fl.FL_FREQ g) = 1000000000000 / period := by
    have hfreq (n : Nat) : Confined [Key.fl.FL_FREQ g] (fun _ => ()) [.nat (Key.fl.FL_FREQ g) n] := by simp
    have hpos : period ≠ 0 := by omega
    rw [flShow, if_neg hpos, State.run_cons]
    exact ⟨(hfreq _).nat_stands (width_flPeriodNow g hg) hperiodFreq s (by omega), State.nat_reg_of_lt (width_flFreq g hg) _ hfreqLt⟩
  have hsearch : (s.run (flShow g period)).flState g ≠ 2 := by
    rw [State.flState, (hshow.frame s).nat hstateOut, ← State.flState, hstate]
    decide
  obtain ⟨hlearning, hkeep⟩ := setFl_leaves hg hsearch (by decide) (by decide)
  obtain ⟨hperiod, hfreq⟩ := hshown
  rw [hdoes]
  exact ⟨hlearning, (hkeep.nat hperiodOut).trans hperiod, (hkeep.nat hfreqOut).trans hfreq,
    ((hshow.frame s).mono (by simp)).trans (hkeep.mono (by simp))⟩

section Loss
variable (hmode : s.num (Key.fl.FL_MODE g) = 0) (hstate : s.flState g = 2 ∨ s.flState g = 3)
include hmode hstate

theorem does_flTrackerLoss : s.does (flTrackerLoss g) = s.does (flChange g 1) := by
  rw [State.does, flTrackerLoss, if_pos ⟨hmode, hstate⟩, ← State.does]

/-- The loss of lock enters SEARCH, and the correction fades from its value (R238, R240). -/
theorem flTrackerLoss_leaves (hg : g < 4) (hfree : s.flFree g = true) :
    let t := s.does (flTrackerLoss g)
    t.flState g = 1 ∧ (t.learner g).fading = true ∧ (t.learner g).fade = 1920 ∧ (t.learner g).fadeFrom = (s.learner g).factor ∧
      s.Frame [Key.fl.FL_STATE g, Key.evt.EVT_RAISED] t := by
  have hsearch : s.flState g ≠ 1 := by omega
  obtain ⟨hnew, hkeep⟩ := setFl_leaves hg hsearch (by decide) (by decide)
  have hlearner := learner_setFl_search hsearch
  rw [does_flTrackerLoss hmode hstate, does_flChange hfree]
  exact ⟨hnew, congrArg Learner.fading hlearner, congrArg Learner.fade hlearner, congrArg Learner.fadeFrom hlearner, hkeep⟩

theorem flTrackerLoss_waits (hbusy : s.flFree g = false) :
    let t := s.does (flTrackerLoss g)
    (t.learner g).due = flHigher (s.learner g).due (some 1) ∧ s.Frame [] t := by
  have hnote : Confined [] (fun _ => ()) [.learner g fun x => { x with due := flHigher x.due (some 1) }] := by simp
  rw [does_flTrackerLoss hmode hstate, State.does, flChange_of_not_free hbusy]
  exact ⟨congrArg Learner.due (s.learner_apply_learner g _), hnote.frame s⟩

end Loss

theorem flHoldWindowEnd_leaves (hg : g < 4) {q : Nat} (hquiet : (s.learner g).quiet = some q) (hstate : s.flState g = 3)
    (hpast : q + s.flWindow g ≤ s.tickNow) (hfree : s.flFree g = true) :
    let t := s.does (flHoldWindowEnd g)
    t.flState g = 2 ∧ s.Frame [Key.fl.FL_STATE g, Key.evt.EVT_RAISED] t := by
  have hphase : flHoldWindowEnd g s = flChange g 2 s := by
    rw [flHoldWindowEnd, hquiet]
    exact if_pos ⟨hstate, hpast⟩
  rw [State.does, hphase, ← State.does, does_flChange hfree]
  exact setFl_leaves hg (by omega) (by decide) (by decide)

/-! ### The fade -/

/-- The correction has reached 0: the buffer and its peak are cleared (R240). -/
theorem flFadeDone_leaves (hg : g < 4) (hfading : (s.learner g).fading = true) (hfade : (s.learner g).fade = 0)
    (hagain : (s.learner g).again = false) :
    let t := s.does (flFadeDone g)
    (t.learner g).c = [] ∧ (t.learner g).fading = false ∧ t.num (Key.fl.CORR_PEAK g) = 0 ∧ s.Frame [Key.fl.CORR_PEAK g] t := by
  obtain ⟨f, hphase, hcleared, hended⟩ : ∃ f : Learner → Learner, flFadeDone g s = [.learner g f, .num (Key.fl.CORR_PEAK g) 0] ∧
      (f (s.learner g)).c = [] ∧ (f (s.learner g)).fading = false :=
    ⟨_, by simp [flFadeDone, hfading, hfade, hagain, phases, always]; rfl, rfl, rfl⟩
  have hall : Confined [Key.fl.CORR_PEAK g] (fun _ => ()) (flFadeDone g s) := by simp [hphase]
  have hpeak : Confined [Key.fl.CORR_PEAK g] (Units.learnerAt g) [.num (Key.fl.CORR_PEAK g) 0] := by simp
  have hlearner : (s.does (flFadeDone g)).learner g = f (s.learner g) := by
    rw [State.does, hphase, State.run_cons, hpeak.learner, State.learner_apply_learner]
  refine ⟨(congrArg Learner.c hlearner).trans hcleared, (congrArg Learner.fading hlearner).trans hended, ?_, hall.frame s⟩
  rw [State.does, hphase]
  exact State.num_reg_of_lt (width_corrPeak g hg) _ le_rfl (by decide)

/-- A clear begins the fade that ends in a restart, whichever session has caused it (R240). -/
theorem flClear_leaves (hstate : s.flState g = 2) (m : Nat) :
    let t := s.does (causedBy m (flClear g))
    (t.learner g).fading = true ∧ (t.learner g).fade = 1920 ∧ (t.learner g).fadeFrom = (s.learner g).factor ∧
      (t.learner g).again = true ∧ s.Frame [] t := by
  have hphase : flClear g s = [.learner g fun x => { x.fadeOut with again := true }] := if_pos (.inr (.inl hstate))
  have hall : Confined [] (fun _ => ()) (flClear g s) := by simp [hphase]
  have hlearner : (s.does (causedBy m (flClear g))).learner g = { (s.learner g).fadeOut with again := true } := by
    rw [State.does, causedBy, hphase]
    exact s.learner_apply_learner g _
  exact ⟨congrArg Learner.fading hlearner, congrArg Learner.fade hlearner, congrArg Learner.fadeFrom hlearner,
    congrArg Learner.again hlearner, (hall.by m).frame s⟩

/-! ### The clear of a learner's fence -/

/-- What is reported of the clear of a learner's fence (R241, R476). -/
def State.flClearReport (s : State) (g : Nat) : List Effect := [.event Ev.FL_UNFENCED (args16 [g, 0]), .bump Key.fence.CLEARS 1,
  .event Ev.FENCE_CLEARED (args16 [7, g, s.clearAnswer 7 g])]

/-- A fenced learner starts, and the clear is counted and reported (R241, R476). -/
theorem fenceClear_learner (hg : g < 4) (hf : s.flState g = 4) : fenceClear 0 7 g s = setFl g (s.flStart g) s ++ s.flClearReport g := by
  have hnames : s.clearNames 7 g = [g] := clearNames_of_fenced (p := fun g => s.flState g == 4) rfl hg (by decide) (by simp [hf])
  have hone : clearOne 0 7 g = flUnfence g 0 := by simp only [clearOne]
  have hunfence : flUnfence g 0 s = setFl g (s.flStart g) s ++ [.event Ev.FL_UNFENCED (args16 [g, 0])] := if_pos hf
  rw [fenceClear_of_names hnames (by simp [State.clearStatus]), hone, hunfence]
  simp [State.flClearReport]

/-- What the clear of a learner's fence leaves, whichever session has caused it (R239, R241, R476). -/
theorem fenceClear_learner_leaves (hg : g < 4) (hf : s.flState g = 4) (m : Nat) :
    let t := s.does (causedBy m (fenceClear 0 7 g))
    t.flState g = s.flStart g ∧ (t.learner g).c = (s.learner g).c ∧
      s.Frame [Key.fl.FL_STATE g, Key.fence.CLEARS, Key.evt.EVT_RAISED] t := by
  obtain ⟨hne, hhold, hlt⟩ : s.flState g ≠ s.flStart g ∧ s.flStart g ≠ 3 ∧ s.flStart g < 256 := by
    rw [hf, State.flStart]
    split <;> decide
  have hout : Key.fl.FL_STATE g ∉ [Key.fence.CLEARS, Key.evt.EVT_RAISED] := by
    simp only [List.mem_cons, List.not_mem_nil, or_false, Key.fl.FL_STATE, Key.fence.CLEARS, Key.evt.EVT_RAISED]; omega
  obtain ⟨es, hes, hset⟩ := setFl_confined hne hhold
  have hclear : fenceClear 0 7 g s = .nat (Key.fl.FL_STATE g) (s.flStart g) :: (es ++ s.flClearReport g) := by
    rw [fenceClear_learner hg hf, hset, List.cons_append]
  have hafter : Confined [Key.fence.CLEARS, Key.evt.EVT_RAISED] (Units.flPoints g) (es ++ s.flClearReport g) :=
    confined_append.2 ⟨hes.mono (List.subset_cons_self ..), by simp [State.flClearReport]⟩
  have hall : Confined [Key.fl.FL_STATE g, Key.fence.CLEARS, Key.evt.EVT_RAISED] (Units.flPoints g) (fenceClear 0 7 g s) := by
    rw [hclear]
    exact confined_cons.2 ⟨by simp, hafter.mono (List.subset_cons_self ..)⟩
  refine ⟨?_, (hall.by m).units (fun _ _ _ _ _ _ => rfl) s, (hall.by m).frame s⟩
  rw [State.does, causedBy, hclear]
  exact (hafter.by m).nat_stands (width_flState g hg) hout s hlt

/-! ### The writes of FL_CLEAR and FENCE_CLEAR -/

theorem row_flClears : ∀ g < 4, (Dict.row (Key.fl.FL_CLEAR g)).map (fun r => (r.eff, r.p)) = some (.acc, false) ∧
    (Dict.row (Key.fl.FENCE_CLEAR g)).map (fun r => (r.eff, r.p)) = some (.acc, false) := by decide +kernel

theorem flClears_index (g : Nat) : Key.fl.FL_CLEAR g / 256 = 0x7200 + g ∧ Key.fl.FENCE_CLEAR g / 256 = 0x7200 + g := by
  simp only [Key.fl.FL_CLEAR, Key.fl.FENCE_CLEAR]; omega

theorem findIdx_flClears : ∀ g < 4, specialKeys.findIdx (coversKey (Key.fl.FL_CLEAR g)) = 53 ∧
    specialKeys.findIdx (coversKey (Key.fl.FENCE_CLEAR g)) = 54 := by decide +kernel

theorem entryDoes_flClear (hg : g < 4) (w : Writer) : entryDoes w (Key.fl.FL_CLEAR g) (.num 1) = flClear g := by
  obtain ⟨hindex, -⟩ := flClears_index g
  refine (entryDoes_of_findIdx (findIdx_flClears g hg).1 rfl).trans ?_
  rw [hindex, Nat.add_sub_cancel_left]
  rfl

theorem entryDoes_learnerFenceClear (hg : g < 4) (w : Writer) : entryDoes w (Key.fl.FENCE_CLEAR g) (.num 1) = fenceClear 0 7 g := by
  obtain ⟨-, hindex⟩ := flClears_index g
  refine (entryDoes_of_findIdx (findIdx_flClears g hg).2 rfl).trans ?_
  rw [hindex, Nat.add_sub_cancel_left]
  rfl

/-- An accepted write of an entry of a learner that acts at once does what the entry does (R395). -/
theorem writes_of_learner {c : Instr} {k : Nat} {w : EntryWrite} {p : Phase} {H : State → Prop} {P : State → State → Prop}
    (hexec : ∀ s, exec c s = s.goes (writeEntry k none w)) (hindex : k / 256 = 0x7200 + g) (hg : g < 4)
    (hrow : (Dict.row k).map (fun r => (r.eff, r.p)) = some (.acc, false)) (hp : entryDoes w.writer k (.num 1) = p)
    (h : ∀ s : State, H s → ∀ a, P s ((s.does (causedBy w.session p)).apply (.unit fun u => { u with answer := a }))) :
    Writes c k w 1 H P := by
  have harea : k / 65536 = 0x71 ∨ k / 65536 = 0x72 := by omega
  have hmode : k ≠ Key.mode.MODE_REQUEST := by simp only [Key.mode.MODE_REQUEST]; omega
  exact writes_of_effect hexec hrow (.inl rfl) hmode (reserved_loop harea _) (changesAtCrossing_loop harea) hp fun s _ _ => h s

/-! ### The obligation -/

/-- Settles O39: every transition is `setFl`, taken at once where the learner is free; a clear is one change of the learner; the clear
of a fence is `setFl` with its report. -/
theorem learnerTransitions : Obligations.LearnerTransitions := by
  intro s g _
  have hg := g.isLt
  obtain ⟨hclearIndex, hfenceIndex⟩ := flClears_index g
  obtain ⟨hclearRow, hfenceRow⟩ := row_flClears g hg
  refine ⟨fun period hmode hlow hhigh hstate hfree => ⟨_, rfl, flTrackerLock_leaves hg hmode hlow hhigh hstate hfree⟩,
    fun hmode hstate hfree => ⟨_, rfl, flTrackerLoss_leaves hmode hstate hg hfree⟩,
    fun hmode hstate hbusy => ⟨_, rfl, flTrackerLoss_waits hmode hstate hbusy⟩,
    fun q hquiet hstate hpast hfree => ⟨_, rfl, flHoldWindowEnd_leaves hg hquiet hstate hpast hfree⟩,
    fun hfading hfade hagain => ⟨_, rfl, flFadeDone_leaves hg hfading hfade hagain⟩, fun w => ?_, fun w => ?_⟩
  · refine writes_of_learner (fun _ => rfl) hclearIndex hg hclearRow (entryDoes_flClear hg _) fun s hstate a => ?_
    obtain ⟨hfading, hfade, hfrom, hagain, hkeep⟩ := flClear_leaves hstate w.session
    exact ⟨hfading, hfade, hfrom, hagain, hkeep.trans (answer_frame _ a)⟩
  · refine writes_of_learner (fun _ => rfl) hfenceIndex hg hfenceRow (entryDoes_learnerFenceClear hg _) fun s hf a => ?_
    obtain ⟨hstart, hpoints, hkeep⟩ := fenceClear_learner_leaves hg hf w.session
    exact ⟨hstart, hpoints, hkeep.trans ((answer_frame _ a).mono (List.nil_subset _))⟩

end Sys2Proof.Machine
end

section
/-!
The pilot and drift windows of a channel (R250, R251, R253, R268, R269, R197): what a window that is judged writes and leaves.
-/

namespace Sys2Proof.Machine

variable {s : State} {c : Nat}

/-! ### A channel and the effects about it -/

/-- What the units hold of a channel. -/
def Units.chanAt (c : Nat) (u : Units) : Chan := Tbl.at {} u.chans c

/-- Effects that leave a channel of the units leave it of the state. -/
theorem Confined.chan {ks : List Nat} {es : List Effect} (h : Confined ks (Units.chanAt c) es) (s : State) :
    (s.run es).chan c = s.chan c := h.units (fun _ _ _ _ _ _ => rfl) s

theorem Phase.Within.chan {ks : List Nat} {p : Phase} (h : Phase.Within ks (Units.chanAt c) p) (s : State) :
    (s.does p).chan c = s.chan c := Confined.chan (h s) s

section Reads
variable (s c)

@[simp] theorem State.chan_apply_num (k : Nat) (n : Int) : (s.apply (.num k n)).chan c = s.chan c :=
  (show Confined [k] (Units.chanAt c) [.num k n] by simp).chan s

@[simp] theorem State.chan_apply_bump (k : Nat) (n : Int) : (s.apply (.bump k n)).chan c = s.chan c :=
  (show Confined [k] (Units.chanAt c) [.bump k n] by simp).chan s

@[simp] theorem State.chan_apply_chan_self (f : Chan → Chan) : (s.apply (.chan c f)).chan c = f (s.chan c) :=
  (s.chan_apply_chan c c f).trans (if_pos rfl)

@[simp] theorem State.num_apply_chan (f : Chan → Chan) (k : Nat) : (s.apply (.chan c f)).num k = s.num k :=
  (chan_frame s c f).num List.not_mem_nil

end Reads

/-! ### The entries -/

theorem width_pilotRejects : ∀ c < 16, Dict.width (Key.thm.PILOT_REJECTS c) = some (32, false) := by decide +kernel
theorem width_pilotResults : ∀ c < 16, Dict.width (Key.thm.PILOT_RESULTS c) = some (32, false) := by decide +kernel
theorem width_tCoilMeas : ∀ c < 16, Dict.width (Key.thm.T_COIL_MEAS c) = some (32, true) := by decide +kernel
theorem width_fsTracked : ∀ c < 16, Dict.width (Key.drv.FS_TRACKED c) = some (32, false) := by decide +kernel

/-! ### The pilot window -/

/-- A channel whose ended pilot window has been judged. -/
def Chan.pilotJudged (x : Chan) : Chan := { x with pilotDone := none }

/-- A channel with `n` rejected windows in a row. -/
def Chan.withRejects (n : Nat) (x : Chan) : Chan := { x with rejects := n }

/-- What the tenth rejected window in a row shows (R251). -/
def State.pilotDisturbed (s : State) (c : Nat) : List Effect :=
  if 10 ≤ (s.chan c).rejects + 1 ∧ s.num (Key.thm.PILOT_STATE c) = 1 then
    [.num (Key.thm.PILOT_STATE c) 2, .event Ev.PILOT_DISTURBED (args16 [c])]
  else []

theorem pilotDisturbed_confined (s : State) (c : Nat) :
    Confined [Key.thm.PILOT_STATE c, Key.evt.EVT_RAISED] (Units.chanAt c) (s.pilotDisturbed c) := by
  simp [State.pilotDisturbed]

/-- The temperature in °C that a pilot window measures (R250). -/
def State.pilotTemp (s : State) (c : Nat) (w : PilotSum) : Rat :=
  s.ent (Key.drv.T_REF c) 100 + (w.re / s.ent (Key.drv.RE_REF c) 1000000 - 1) / (393 / 100000)

/-- What a used window adds to the coil's node (R253). -/
def State.pilotStep (s : State) (c : Nat) (w : PilotSum) : Rat :=
  s.ent (Key.thm.OBS_GAIN c) 65536 * (s.pilotTemp c w - (s.chan c).tCoil)

/-- A channel whose observer a used window has moved by `d`, its magnet node by the share of the resistances (R253). -/
def Chan.observed (d : Rat) (vc m : Int) (x : Chan) : Chan :=
  { x with rejects := 0, tCoil := x.tCoil + d, tMag := x.tMag + d * m / (vc + m : Int) }

/-- The end of a disturbance that a used window brings (R251). -/
def State.pilotSettled (s : State) (c : Nat) : List Effect :=
  if s.num (Key.thm.PILOT_STATE c) = 2 then [.num (Key.thm.PILOT_STATE c) 1] else []

theorem pilotSettled_confined (s : State) (c : Nat) :
    Confined [Key.thm.PILOT_STATE c] (Units.chanAt c) (s.pilotSettled c) := by
  simp [State.pilotSettled]

section Pilot
variable {w : PilotSum} (hdone : (s.chan c).pilotDone = some w) (hclass : s.classPaused (c + 48) = false) (hon : w.on = true)
include hdone hclass hon

theorem pilotWindowEnd_rejected (hrej : s.pilotRejects c w = true) : pilotWindowEnd c w.sec s =
    [.chan c Chan.pilotJudged, .bump (Key.thm.PILOT_REJECTS c) 1,
     .chan c (Chan.withRejects ((s.chan c).rejects + 1))] ++ s.pilotDisturbed c := by
  simp only [pilotWindowEnd, hdone]
  rw [if_neg (by simp [hclass]), if_neg (by simp [hon]), if_pos hrej]
  rfl

theorem pilotWindowEnd_used (hrej : s.pilotRejects c w = false) : pilotWindowEnd c w.sec s =
    [.chan c Chan.pilotJudged, .num (Key.thm.T_COIL_MEAS c) (rounded (Key.thm.T_COIL_MEAS c) (s.pilotTemp c w * 65536)),
     .bump (Key.thm.PILOT_RESULTS c) 1,
     .chan c (Chan.observed (s.pilotStep c w) (s.num (Key.thm.RTH_VC c)) (s.num (Key.thm.RTH_M c)))] ++ s.pilotSettled c := by
  simp only [pilotWindowEnd, hdone]
  rw [if_neg (by simp [hclass]), if_neg (by simp [hon]), if_neg (by simp [hrej])]
  rfl

/-- A rejected window is counted, in the entry and in the row of rejections (R250, R251). -/
theorem pilotWindowEnd_rejected_leaves (hc : c < 16) (hrej : s.pilotRejects c w = true) :
    let t := s.does (pilotWindowEnd c w.sec)
    t.num (Key.thm.PILOT_REJECTS c) = (s.num (Key.thm.PILOT_REJECTS c) + 1) % 2 ^ 32 ∧
      (t.chan c).rejects = (s.chan c).rejects + 1 ∧ (t.chan c).pilotDone = none ∧
      s.Frame [Key.thm.PILOT_REJECTS c, Key.thm.PILOT_STATE c, Key.evt.EVT_RAISED] t := by
  have hkey : Key.thm.PILOT_REJECTS c ∉ [Key.thm.PILOT_STATE c, Key.evt.EVT_RAISED] := by
    simp only [List.mem_cons, List.not_mem_nil, or_false, Key.thm.PILOT_REJECTS, Key.thm.PILOT_STATE, Key.evt.EVT_RAISED]; omega
  have hrest := pilotDisturbed_confined s c
  have hall : Confined [Key.thm.PILOT_REJECTS c, Key.thm.PILOT_STATE c, Key.evt.EVT_RAISED] (fun _ => ())
      (pilotWindowEnd c w.sec s) := by
    simp [pilotWindowEnd_rejected hdone hclass hon hrej, State.pilotDisturbed]
  have hchan : (s.does (pilotWindowEnd c w.sec)).chan c = (s.chan c).pilotJudged.withRejects ((s.chan c).rejects + 1) := by
    simp [State.does, pilotWindowEnd_rejected hdone hclass hon hrej, hrest.chan]
  refine ⟨?_, congrArg Chan.rejects hchan, congrArg Chan.pilotDone hchan, hall.frame s⟩
  simp [State.does, pilotWindowEnd_rejected hdone hclass hon hrej, (hrest.frame _).num hkey, State.num_bump _ (width_pilotRejects c hc)]

/-- A used window is shown, counted, and moves both nodes of the observer (R250, R253). -/
theorem pilotWindowEnd_used_leaves (hc : c < 16) (hrej : s.pilotRejects c w = false) :
    let t := s.does (pilotWindowEnd c w.sec)
    t.num (Key.thm.PILOT_RESULTS c) = (s.num (Key.thm.PILOT_RESULTS c) + 1) % 2 ^ 32 ∧
      t.chan c = (s.chan c).pilotJudged.observed (s.pilotStep c w) (s.num (Key.thm.RTH_VC c)) (s.num (Key.thm.RTH_M c)) ∧
      t.num (Key.thm.T_COIL_MEAS c) = signed 32 (rounded (Key.thm.T_COIL_MEAS c) (s.pilotTemp c w * 65536)) ∧
      s.Frame [Key.thm.PILOT_RESULTS c, Key.thm.T_COIL_MEAS c, Key.thm.PILOT_STATE c] t := by
  have hkeys : Key.thm.PILOT_RESULTS c ∉ [Key.thm.PILOT_STATE c] ∧ Key.thm.PILOT_RESULTS c ∉ [Key.thm.T_COIL_MEAS c] ∧
      Key.thm.T_COIL_MEAS c ∉ [Key.thm.PILOT_RESULTS c] ∧ Key.thm.T_COIL_MEAS c ∉ [Key.thm.PILOT_STATE c] := by
    simp only [List.mem_singleton, Key.thm.PILOT_RESULTS, Key.thm.PILOT_STATE, Key.thm.T_COIL_MEAS]; omega
  obtain ⟨hresultsState, hresultsMeas, hmeasResults, hmeasState⟩ := hkeys
  have hrest := pilotSettled_confined s c
  have hall : Confined [Key.thm.PILOT_RESULTS c, Key.thm.T_COIL_MEAS c, Key.thm.PILOT_STATE c] (fun _ => ())
      (pilotWindowEnd c w.sec s) := by
    simp [pilotWindowEnd_used hdone hclass hon hrej, State.pilotSettled]
  have hmeas (n : Int) : Effect.Within [Key.thm.T_COIL_MEAS c] (fun _ => ()) (.num (Key.thm.T_COIL_MEAS c) n) := by simp
  have hcount : Effect.Within [Key.thm.PILOT_RESULTS c] (fun _ => ()) (.bump (Key.thm.PILOT_RESULTS c) 1) := by simp
  refine ⟨?_, ?_, ?_, hall.frame s⟩
  · simp [State.does, pilotWindowEnd_used hdone hclass hon hrej, (hrest.frame _).num hresultsState,
      State.num_bump _ (width_pilotResults c hc), ((hmeas _).frame _).num hresultsMeas]
  · simp [State.does, pilotWindowEnd_used hdone hclass hon hrej, hrest.chan]
  · simp only [State.does, pilotWindowEnd_used hdone hclass hon hrej, State.run_append, State.run_cons, State.run_nil,
      (hrest.frame _).num hmeasState, State.num_apply_chan, (hcount.frame _).num hmeasResults]
    exact State.num_set (width_tCoilMeas c hc) _ _

end Pilot

/-- While the throttle pauses the class of the model task, no pilot window is judged (R197). -/
theorem pilotWindowEnd_paused (h : s.classPaused (c + 48) = true) (k : Nat) : pilotWindowEnd c k s = [] := by
  cases hdone : (s.chan c).pilotDone with
  | none => simp only [pilotWindowEnd, hdone]
  | some w => simp only [pilotWindowEnd, hdone]; exact if_pos (.inr h)

/-! ### The drift window -/

/-- The frequency that a drift window shows, in its entry's unit (R268). -/
def driftHz (c : Nat) (w : DriftSum) : Int := rounded (Key.drv.FS_TRACKED c) (sqrtQ (max w.b 0) / Config.twoPi * 1000)

/-- A channel whose ended drift window has counted: the run of its drift, and whether that has been told (R269). -/
def Chan.driftJudged (run : Int) (told : Bool) (x : Chan) : Chan :=
  { x with driftDone := none, driftRun := run, driftTold := if told then true else if run ≤ -3 then false else x.driftTold }

section Drift
variable {w : DriftSum} (hdone : (s.chan c).driftDone = some w)
variable (hclass : s.classPaused (c + 48) = false)
include hdone hclass

theorem driftWindowEnd_uncounted (hcounts : s.driftCounts c w = false) :
    driftWindowEnd c (10 * w.win) (10 * (w.win + 1)) s = [.chan c fun x => { x with driftDone := none }] := by
  simp only [driftWindowEnd, hdone]
  rw [if_neg (by simp [hclass]), if_pos (by simp [hcounts])]

/-- A window that does not count is dropped (R268). -/
theorem driftWindowEnd_uncounted_leaves (hcounts : s.driftCounts c w = false) :
    let t := s.does (driftWindowEnd c (10 * w.win) (10 * (w.win + 1)))
    (t.chan c).driftDone = none ∧ s.Frame [] t := by
  rw [State.does, driftWindowEnd_uncounted hdone hclass hcounts]
  exact ⟨congrArg Chan.driftDone (s.chan_apply_chan_self c _), chan_frame s c _⟩

theorem driftWindowEnd_counted (hcounts : s.driftCounts c w = true) : ∃ (drift run : Int) (told : Bool) (a : List Byte),
    driftWindowEnd c (10 * w.win) (10 * (w.win + 1)) s = .num (Key.drv.FS_TRACKED c) (driftHz c w) ::
      ([.num (Key.drv.FS_DRIFT c) drift, .chan c (Chan.driftJudged run told)] ++ if told then [.event Ev.SUSPENSION_CHANGE a] else []) := by
  simp only [driftWindowEnd, hdone]
  rw [if_neg (by simp [hclass]), if_neg (by simp [hcounts])]
  exact ⟨_, _, _, _, rfl⟩

/-- A window that counts shows its frequency (R268). -/
theorem driftWindowEnd_counted_leaves (hc : c < 16) (hcounts : s.driftCounts c w = true) :
    let t := s.does (driftWindowEnd c (10 * w.win) (10 * (w.win + 1)))
    (t.chan c).driftDone = none ∧ t.num (Key.drv.FS_TRACKED c) = driftHz c w % 2 ^ 32 ∧
      s.Frame [Key.drv.FS_TRACKED c, Key.drv.FS_DRIFT c, Key.evt.EVT_RAISED] t := by
  have hkey : Key.drv.FS_TRACKED c ∉ [Key.drv.FS_DRIFT c, Key.evt.EVT_RAISED] := by
    simp only [List.mem_cons, List.not_mem_nil, or_false, Key.drv.FS_TRACKED, Key.drv.FS_DRIFT, Key.evt.EVT_RAISED]; omega
  obtain ⟨drift, run, told, a, hphase⟩ := driftWindowEnd_counted hdone hclass hcounts
  have hevent : Confined [Key.evt.EVT_RAISED] (Units.chanAt c) (if told then [.event Ev.SUSPENSION_CHANGE a] else []) := by simp
  have hafter : Confined [Key.drv.FS_DRIFT c, Key.evt.EVT_RAISED] (fun _ => ()) ([.num (Key.drv.FS_DRIFT c) drift,
      .chan c (Chan.driftJudged run told)] ++ if told then [.event Ev.SUSPENSION_CHANGE a] else []) := by simp
  have hall : Confined [Key.drv.FS_TRACKED c, Key.drv.FS_DRIFT c, Key.evt.EVT_RAISED] (fun _ => ())
      (driftWindowEnd c (10 * w.win) (10 * (w.win + 1)) s) := by simp [hphase]
  refine ⟨?_, ?_, hall.frame s⟩
  · rw [State.does, hphase, State.run_cons, State.run_append, hevent.chan, State.run_cons, State.run_cons, State.run_nil,
      State.chan_apply_chan_self]
    rfl
  · rw [State.does, hphase, State.run_cons, hafter.num_written (width_fsTracked c hc) hkey, if_neg Bool.false_ne_true]

end Drift

/-- While the throttle pauses the class of the model task, no drift window is judged (R197). -/
theorem driftWindowEnd_paused (h : s.classPaused (c + 48) = true) (a b : Nat) : driftWindowEnd c a b s = [] := by
  cases hdone : (s.chan c).driftDone with
  | none => simp only [driftWindowEnd, hdone]
  | some w => simp only [driftWindowEnd, hdone]; exact if_pos (.inr (.inr h))

end Sys2Proof.Machine
end

section
/-!
The thermal fence of a channel and its end (R263, R264, R282, R283, R297).
-/

namespace Sys2Proof.Machine

variable {s : State} {c : Nat}

/-! ### The entries -/

theorem width_chanFenceCause : ∀ c < 16, Dict.width (Key.prot.FENCE_CAUSE c) = some (8, false) := by decide +kernel
theorem width_thermalFences : ∀ c < 16, Dict.width (Key.thm.THERMAL_FENCES c) = some (32, false) := by decide +kernel

/-- A natural number written to an unsigned entry, read back (R6). -/
theorem State.nat_reg {k w : Nat} (hw : Dict.width k = some (w, false)) (s : State) (n : Nat) :
    (s.apply (.nat k n)).nat k = n % 2 ^ w := by
  have hset : (s.apply (.nat k n)).num k = (n : Int) % 2 ^ w := s.num_set hw n
  rw [State.nat_eq_num, hset]
  exact_mod_cast Int.toNat_natCast _

/-! ### The fence -/

/-- What a stop, or the entry of FENCED, writes of a channel (R281, R282, R288, R297). -/
def fenceStopKeys (c : Nat) : List Nat := [Key.prot.PROBE_NEXT c, Key.pw.SEQ_PHASE c, Key.pw.OUT_STATE c, Key.evt.EVT_RAISED]

/-- A stop writes the phase of its sequence, and the instant at which a probe that it gives up falls due again. -/
theorem stopBegin_within_fenceStopKeys (c : Nat) (fast : Bool) :
    Phase.Within (fenceStopKeys c) (fun _ => ()) (stopBegin c fast) := by
  have hclear : Phase.Within (fenceStopKeys c) (fun _ => ()) (always [zcDrop (Zc.start c), .chan c fun x =>
      { x with startDue := false, starting := false, holding := false, fast := fast || x.fast }]) := by simp
  have hdown : Phase.Within (fenceStopKeys c) (fun _ => ()) (loopDown c) := by simp [loopDown, fenceStopKeys]
  have hchain : Phase.Within (fenceStopKeys c) (fun _ => ()) (chainDown c false) := fun s => by simp [chainDown, fenceStopKeys]
  have hwait : Phase.Within (fenceStopKeys c) (fun _ => ()) (zcStart (Zc.stop c) (.num 0)) :=
    fun s => zcStartAt_within (fun _ _ => rfl) _ _ _ s
  have hkeys : Key.pw.SEQ_PHASE c ∈ fenceStopKeys c ∧ Key.prot.PROBE_NEXT c ∈ fenceStopKeys c := by simp [fenceStopKeys]
  obtain ⟨hseq, hprobe⟩ := hkeys
  intro s
  unfold stopBegin
  dsimp only
  split_ifs
  · exact Phase.within_phases (by simp [hdown, hprobe]) s
  · exact .nil
  · exact hclear s
  · exact Phase.within_phases (by simp [hchain]) s
  · exact Phase.within_phases (by simp) s
  · exact Phase.within_phases (by simp [hdown]) s
  · exact Phase.within_phases (by simp [hchain]) s
  · exact Phase.within_phases (by simp [hwait, hseq]) s

/-- What a fence brings of a channel as it stood: a fast stop, or FENCED where it is released and not probed (R282, R297). -/
def State.fenceStop (s : State) (c : Nat) : Phase :=
  if s.phase c = 8 then stopBegin c true else if s.released c then setOut c 4 else stopBegin c true

theorem fenceStop_within (s : State) (c : Nat) : Phase.Within (fenceStopKeys c) (fun _ => ()) (s.fenceStop c) := by
  have hstop := stopBegin_within_fenceStopKeys c true
  have hout : Phase.Within (fenceStopKeys c) (fun _ => ()) (setOut c 4) := (setOut_within c 4).mono (by simp [fadeKeys, fenceStopKeys])
  simp [State.fenceStop, hstop, hout]

/-- How a cause that now stands is counted and reported (R297). -/
def State.fenceNotes (s : State) (c m : Nat) : List Effect :=
  [.bump (Key.prot.FENCE_COUNT c) 1, .nat (Key.prot.LAST_FENCE c) s.now, .bump Key.life.LT_CH_FENCES 1,
   .event Ev.CHANNEL_FENCED (args16 [c, m])]

theorem fenceMark_new {bit : Nat} (h : (s.nat (Key.prot.FENCE_CAUSE c)).testBit bit = false) : fenceMark c bit s =
    .nat (Key.prot.FENCE_CAUSE c) (s.nat (Key.prot.FENCE_CAUSE c) ||| 2 ^ bit) ::
      s.fenceNotes c (s.nat (Key.prot.FENCE_CAUSE c) ||| 2 ^ bit) := if_neg (by simp [h])

theorem does_fenceFast {bit : Nat} (h : (s.nat (Key.prot.FENCE_CAUSE c)).testBit bit = false) : s.does (fenceFast c bit) =
    ((s.apply (.nat (Key.prot.FENCE_CAUSE c) (s.nat (Key.prot.FENCE_CAUSE c) ||| 2 ^ bit))).run
      (s.fenceNotes c (s.nat (Key.prot.FENCE_CAUSE c) ||| 2 ^ bit))).does (s.fenceStop c) := by
  rw [State.does, fenceFast]
  refine (State.does_phases_cons s _ _).trans ?_
  rw [State.does_phases_cons, State.does_phases_nil, State.does.eq_def s, fenceMark_new h, State.run_cons, State.fenceStop]

/-- A cause that a fence marks stands in FENCE_CAUSE, whatever stop follows (R297). -/
theorem testBit_fenceFast (hc : c < 16) {bit : Nat} (hbit : bit < 8) (h : (s.nat (Key.prot.FENCE_CAUSE c)).testBit bit = false) :
    ((s.does (fenceFast c bit)).nat (Key.prot.FENCE_CAUSE c)).testBit bit = true := by
  have hkeys : Key.prot.FENCE_CAUSE c ∉ fenceStopKeys c ∧
      Key.prot.FENCE_CAUSE c ∉ [Key.prot.FENCE_COUNT c, Key.prot.LAST_FENCE c, Key.life.LT_CH_FENCES, Key.evt.EVT_RAISED] := by
    simp only [fenceStopKeys, List.mem_cons, List.not_mem_nil, or_false, Key.prot.FENCE_CAUSE, Key.prot.PROBE_NEXT, Key.pw.SEQ_PHASE,
      Key.pw.OUT_STATE, Key.evt.EVT_RAISED, Key.prot.FENCE_COUNT, Key.prot.LAST_FENCE, Key.life.LT_CH_FENCES]
    omega
  obtain ⟨hstop, hnotes⟩ := hkeys
  have hnoted (m : Nat) : Confined [Key.prot.FENCE_COUNT c, Key.prot.LAST_FENCE c, Key.life.LT_CH_FENCES, Key.evt.EVT_RAISED]
      (fun _ => ()) (s.fenceNotes c m) := by simp [State.fenceNotes]
  rw [does_fenceFast h, ((fenceStop_within s c).frame _).nat hstop, ((hnoted _).frame _).nat hnotes,
    State.nat_reg (width_chanFenceCause c hc), Nat.testBit_mod_two_pow, Nat.testBit_or, Nat.testBit_two_pow_self]
  simp [hbit]

/-- What the hard limit leaves of a channel whose cause THERMAL does not stand yet (R263). -/
theorem thermalHard_leaves (hc : c < 16) (hvalid : s.modelValid c = true) (hhot : s.passed (s.chan c).hotSince 2000000000 = true)
    (hcause : (s.nat (Key.prot.FENCE_CAUSE c)).testBit 2 = false) :
    let t := s.does (thermalHard c)
    (t.nat (Key.prot.FENCE_CAUSE c)).testBit 2 = true ∧
      t.num (Key.thm.THERMAL_FENCES c) = (s.num (Key.thm.THERMAL_FENCES c) + 1) % 2 ^ 32 ∧ t.mode = s.mode ∧ t.store = s.store := by
  have hkeys : Key.prot.FENCE_CAUSE c ∉ [Key.thm.THERMAL_FENCES c, Key.evt.EVT_RAISED] ∧
      Key.thm.THERMAL_FENCES c ∉ [Key.evt.EVT_RAISED] ∧ Key.thm.THERMAL_FENCES c ∉ fenceFastKeys c := by
    simp only [fenceFastKeys, List.mem_cons, List.not_mem_nil, or_false, Key.prot.FENCE_CAUSE, Key.prot.PROBE_NEXT, Key.pw.SEQ_PHASE,
      Key.pw.OUT_STATE, Key.evt.EVT_RAISED, Key.prot.FENCE_COUNT, Key.prot.LAST_FENCE, Key.life.LT_CH_FENCES, Key.thm.THERMAL_FENCES]
    omega
  obtain ⟨hcauseOut, hcountEvent, hcountOut⟩ := hkeys
  obtain ⟨a, ha⟩ : ∃ a, a = args16 [c] ++ le 4 (s.num (Key.thm.T_COIL_EST c)) := ⟨_, rfl⟩
  have hdoes : s.does (thermalHard c) =
      ((s.does (fenceFast c 2)).apply (.bump (Key.thm.THERMAL_FENCES c) 1)).run [.event Ev.THERMAL_HARD a] := by
    rw [State.does, thermalHard, if_pos (by simp [hvalid, hhot, hcause]), ← ha]
    refine (State.does_phases_cons s _ _).trans ?_
    rw [State.does_phases_cons, State.does_phases_nil, State.does_always, State.run_cons]
  have hfence : s.Frame (fenceFastKeys c) (s.does (fenceFast c 2)) :=
    (fenceFast_within (π := fun _ => ()) (fun _ _ => rfl) (fun _ _ => rfl) 2).frame s
  have hevent : Confined [Key.evt.EVT_RAISED] (fun _ => ()) [.event Ev.THERMAL_HARD a] := by simp
  have hnotes : Confined [Key.thm.THERMAL_FENCES c, Key.evt.EVT_RAISED] (fun _ => ())
      [.bump (Key.thm.THERMAL_FENCES c) 1, .event Ev.THERMAL_HARD a] := by simp
  have hnoted := hnotes.frame (s.does (fenceFast c 2))
  rw [hdoes]
  refine ⟨?_, ?_, hnoted.mode.trans hfence.mode, hnoted.store.trans hfence.store⟩
  · exact (congrArg (Nat.testBit · 2) (hnoted.nat hcauseOut)).trans (testBit_fenceFast hc (by decide) hcause)
  · rw [(hevent.frame _).num hcountEvent, State.num_bump _ (width_thermalFences c hc), hfence.num hcountOut]

/-! ### The end of the fence -/

/-- A channel whose start falls due (R283). -/
def Chan.dueToStart (x : Chan) : Chan := { x with startDue := true }

/-- A channel that is no longer above its hard limit (R263). -/
def Chan.notHot (x : Chan) : Chan := { x with hotSince := none }

/-- A channel that stood FENCED is released (R297). -/
def State.fenceOut (s : State) (c : Nat) : Phase := if s.outState c = 4 then setOut c 0 else always []

theorem does_fenceDrop_last {m how : Nat} (hold : s.nat (Key.prot.FENCE_CAUSE c) ≠ 0)
    (hnone : clearBits (s.nat (Key.prot.FENCE_CAUSE c)) m = 0) : s.does (fenceDrop c m how) =
      ((s.apply (.nat (Key.prot.FENCE_CAUSE c) 0)).does (s.fenceOut c)).run
        [.event Ev.CHANNEL_UNFENCED (args16 [c, how]), .chan c Chan.dueToStart] := by
  rw [State.does, fenceDrop]
  dsimp only
  rw [if_neg (by rwa [hnone]), if_neg (by simp [hnone])]
  refine (State.does_phases_cons s _ _).trans ?_
  rw [State.does_phases_cons, State.does_phases_cons, State.does_phases_nil, State.does_always, State.does_always]
  rfl

/-- Where no cause is left, FENCE_CAUSE reads 0, and the start of the channel falls due (R283, R297). -/
theorem fenceDrop_last_leaves (hc : c < 16) {m : Nat} (hold : s.nat (Key.prot.FENCE_CAUSE c) ≠ 0)
    (hnone : clearBits (s.nat (Key.prot.FENCE_CAUSE c)) m = 0) (how : Nat) :
    let t := s.does (fenceDrop c m how)
    t.nat (Key.prot.FENCE_CAUSE c) = 0 ∧ t.chan c = (s.chan c).dueToStart ∧
      s.Frame [Key.prot.FENCE_CAUSE c, Key.pw.OUT_STATE c, Key.evt.EVT_RAISED] t := by
  have hkey : Key.prot.FENCE_CAUSE c ∉ fadeKeys c ∧ Key.prot.FENCE_CAUSE c ∉ [Key.evt.EVT_RAISED] := by
    simp only [fadeKeys, List.mem_cons, List.not_mem_nil, or_false, Key.prot.FENCE_CAUSE, Key.pw.OUT_STATE, Key.evt.EVT_RAISED]; omega
  obtain ⟨houtKey, heventKey⟩ := hkey
  have hout : Phase.Within (fadeKeys c) (Units.chanAt c) (s.fenceOut c) := by simp [State.fenceOut, setOut_within]
  have hdue : Confined [Key.evt.EVT_RAISED] (fun _ => ())
      [.event Ev.CHANNEL_UNFENCED (args16 [c, how]), .chan c Chan.dueToStart] := by simp
  have hcause : Effect.Within [Key.prot.FENCE_CAUSE c] (Units.chanAt c) (.nat (Key.prot.FENCE_CAUSE c) 0) := by simp
  rw [does_fenceDrop_last hold hnone]
  refine ⟨?_, ?_, ((hcause.frame s).mono (by simp)).trans
    (((hout.frame _).mono (by simp [fadeKeys])).trans ((hdue.frame _).mono (by simp)))⟩
  · rw [(hdue.frame _).nat heventKey, (hout.frame _).nat houtKey]
    exact State.nat_reg (width_chanFenceCause c hc) s 0
  · rw [State.run_cons, State.run_cons, State.run_nil, State.chan_apply_chan_self, State.chan_apply_event, hout.chan]
    exact congrArg Chan.dueToStart (hcause.units (fun _ _ _ _ _ _ => rfl) s)

/-- What the resume margin leaves of a channel that the cause THERMAL alone fences (R264). -/
theorem thermalResumed_leaves (hc : c < 16) (hcause : s.nat (Key.prot.FENCE_CAUSE c) = 4)
    (hcool : 100 * s.num (Key.thm.T_COIL_EST c) < 65536 * (s.num (Key.thm.T_LIMIT c) - s.num (Key.thm.T_RESUME_MARGIN c))) :
    let t := s.does (thermalResumed c)
    t.nat (Key.prot.FENCE_CAUSE c) = 0 ∧ (t.chan c).hotSince = none ∧ (t.chan c).startDue = true ∧
      s.Frame [Key.prot.FENCE_CAUSE c, Key.pw.OUT_STATE c, Key.evt.EVT_RAISED] t := by
  have hkey : Key.prot.FENCE_CAUSE c ∉ [Key.evt.EVT_RAISED] := by
    simp only [List.mem_singleton, Key.prot.FENCE_CAUSE, Key.evt.EVT_RAISED]; omega
  have hbit : Nat.testBit 4 2 = true := by decide
  obtain ⟨a, ha⟩ : ∃ a, a = args16 [c] ++ le 4 (s.num (Key.thm.T_COIL_EST c)) := ⟨_, rfl⟩
  obtain ⟨u, hu⟩ : ∃ u, u = s.run [.event Ev.THERMAL_RESUMED a, .chan c Chan.notHot] := ⟨_, rfl⟩
  have hdoes : s.does (thermalResumed c) = u.does (fenceDrop c 4 2) := by
    rw [State.does, thermalResumed, if_pos (by simp [hcause, hcool, hbit]), ← ha, hu]
    refine (State.does_phases_cons s _ _).trans ?_
    rw [State.does_phases_cons, State.does_phases_nil, State.does_always]
    rfl
  have hkeep : s.Frame [Key.evt.EVT_RAISED] u := by
    have hall : Confined [Key.evt.EVT_RAISED] (fun _ => ()) [.event Ev.THERMAL_RESUMED a, .chan c Chan.notHot] := by simp
    exact hu ▸ hall.frame s
  have hchan : u.chan c = (s.chan c).notHot := by rw [hu]; simp
  have hstands : u.nat (Key.prot.FENCE_CAUSE c) = 4 := (hkeep.nat hkey).trans hcause
  obtain ⟨hzero, hstart, hdropped⟩ := fenceDrop_last_leaves (s := u) hc (m := 4) (by rw [hstands]; decide) (by rw [hstands]; decide) 2
  rw [hdoes]
  refine ⟨hzero, (congrArg Chan.hotSince hstart).trans (congrArg Chan.hotSince hchan), congrArg Chan.startDue hstart,
    (hkeep.mono (by simp)).trans hdropped⟩

end Sys2Proof.Machine
end

section
/-!
The thermal observer of the channels (R252, R254): its store, and its cooling at the first LOCKED after dawn.
-/

namespace Sys2Proof.Machine

variable {s t : State} {c : Nat}

/-! ### The store -/

/-- A table after the members of a list have been stored, each under its own key. -/
theorem Tbl.at_foldl_set {α : Type} [DecidableEq α] (f : Nat → α) (l : List Nat) (o : Tbl (Option α)) (c : Nat) :
    Tbl.at none (l.foldl (fun o i => Tbl.set (fun _ => none) o i (some (f i))) o) c = if c ∈ l then some (f c) else Tbl.at none o c := by
  induction l generalizing o with
  | nil => rfl
  | cons i l ih =>
    have hset : Tbl.at none (Tbl.set (fun _ => none) o i (some (f i))) c = if i = c then some (f i) else Tbl.at none o c := get_set ..
    rw [List.foldl_cons, ih, hset]
    by_cases hi : i = c
    · subst hi; simp
    · simp [hi, Ne.symm hi]

/-- What is stored of a channel's observer: its nodes, and the instant from which they are to cool (R254, log 165). -/
def State.obsState (s : State) (x : Chan) : Rat × Rat × Nat :=
  (x.tCoil, x.tMag, if s.units.anchor.anchored then s.now else if x.obsHeld then x.obsFrom else 0)

/-- The states of all channels in the store of the units (R254). -/
def State.storeObservers (s : State) (u : Units) : Units :=
  { u with obsStore := (List.range 16).foldl (fun o c =>
      Tbl.set (fun _ => none) o c (some (s.obsState (Tbl.at {} u.chans c)))) u.obsStore }

theorem storeObservers_at (s : State) (u : Units) (hc : c < 16) :
    Tbl.at none (s.storeObservers u).obsStore c = some (s.obsState (Tbl.at {} u.chans c)) := by
  rw [State.storeObservers, Tbl.at_foldl_set (fun i => s.obsState (Tbl.at {} u.chans i)), if_pos (List.mem_range.2 hc)]

/-- The instant of the store, shown of every channel (R254). -/
def State.showSaved (s : State) : List Effect := (List.range 16).map fun c => .nat (Key.thm.OBS_SAVED c) s.now

theorem observersSave_eq (s : State) :
    observersSave s = .unit s.storeObservers :: .mgmt (fun m => { m with obsAt := s.mtbNs }) :: s.showSaved := rfl

theorem showSaved_confined {α : Type} {π : Units → α} (s : State) :
    Confined ((List.range 16).map Key.thm.OBS_SAVED) π s.showSaved :=
  confined_map.2 fun _ hi => List.mem_map_of_mem hi

/-- What the store of the observers leaves (R254). -/
theorem observersSave_leaves (s : State) :
    let t := s.does observersSave
    t.units.mgmt.obsAt = s.mtbNs ∧ t.mode = s.mode ∧ t.store = s.store ∧
      ∀ c < 16, Tbl.at none t.units.obsStore c = some (s.obsState (s.chan c)) := by
  have hall : Confined ((List.range 16).map Key.thm.OBS_SAVED) (fun _ => ()) (observersSave s) := by
    simp only [observersSave_eq, confined_cons, showSaved_confined, Effect.within_unit, Effect.within_mgmt, implies_true, and_self]
  have hrest : Confined ((List.range 16).map Key.thm.OBS_SAVED) Units.obsStore
      (.mgmt (fun m => { m with obsAt := s.mtbNs }) :: s.showSaved) := confined_cons.2 ⟨fun _ => rfl, showSaved_confined s⟩
  have hkeep := hall.frame s
  have hat : (s.does observersSave).units.mgmt.obsAt = s.mtbNs := by
    rw [State.does, observersSave_eq, State.run_cons, State.run_cons]
    exact (showSaved_confined (π := fun u => u.mgmt.obsAt) s).units (fun _ _ _ _ _ _ => rfl) _
  have hstored : (s.does observersSave).units.obsStore = (s.storeObservers s.units).obsStore := by
    rw [State.does, observersSave_eq, State.run_cons]
    exact hrest.units (fun _ _ _ _ _ _ => rfl) _
  refine ⟨hat, hkeep.mode, hkeep.store, fun c hc => ?_⟩
  rw [hstored]
  exact storeObservers_at s s.units hc

theorem does_observerStore (hserved : s.units.mgmt.served = true) (hdue : s.units.mgmt.obsAt + 10000000000 ≤ s.mtbNs) :
    s.does observerStore = s.does observersSave := by
  rw [State.does, observerStore, if_neg (by simp [hserved, hdue]), ← State.does]

/-! ### The cooling -/

/-- What the publication of a channel's nodes writes (R252). -/
def nodeKeys (c : Nat) : List Nat := [Key.thm.T_COIL_EST c, Key.thm.T_MAG_EST c, Key.thm.T_COIL_PEAK c]

/-- What the publication of every channel's nodes writes. -/
def allNodeKeys : List Nat := (List.range 16).flatMap nodeKeys

/-- What an observer depends on: its time constants, its resistances, and the ambient temperature (R252). -/
def observerInputs (c : Nat) : List Nat := [Key.thm.T_AMB c, Key.thm.TAU_M c, Key.thm.TAU_VC c, Key.thm.RTH_M c, Key.thm.RTH_VC c]

theorem observerInputs_notMem_allNodeKeys (c : Nat) : ∀ k ∈ observerInputs c, k ∉ allNodeKeys := by
  intro k hk hmem
  obtain ⟨i, -, hi⟩ := List.mem_flatMap.1 hmem
  simp only [observerInputs, nodeKeys, List.mem_cons, List.not_mem_nil, or_false, Key.thm.T_AMB, Key.thm.TAU_M, Key.thm.TAU_VC,
    Key.thm.RTH_M, Key.thm.RTH_VC, Key.thm.T_COIL_EST, Key.thm.T_MAG_EST, Key.thm.T_COIL_PEAK] at hk hi
  omega

section Inputs
variable (h : ∀ k ∈ observerInputs c, t.num k = s.num k)
include h

/-- An observer steps alike where its inputs are alike. -/
theorem State.observe_congr (p : Rat) (n : Rat × Rat) : t.observe c p n = s.observe c p n := by
  simp only [observerInputs, List.forall_mem_cons] at h
  obtain ⟨hamb, htauM, htauVc, hrthM, hrthVc, -⟩ := h
  simp only [State.observe, State.ent, hamb, htauM, htauVc, hrthM, hrthVc]

theorem State.cool_congr (n : Nat) (x : Rat × Rat) : t.cool c n x = s.cool c n x := by
  induction n generalizing x with
  | zero => rfl
  | succ n ih => rw [State.cool, State.cool, ih, State.observe_congr h]

theorem State.observes_congr : t.observes c = s.observes c := by
  simp only [observerInputs, List.forall_mem_cons] at h
  obtain ⟨-, htauM, htauVc, -⟩ := h
  simp only [State.observes, State.flag, htauM, htauVc]

end Inputs

/-- The nodes of a channel that holds a stored state, cooled by the time since the store where its time constants are set (R254). -/
def State.cooledNodes (s : State) (c : Nat) : Rat × Rat :=
  if s.observes c then s.cool c ((s.now - (s.chan c).obsFrom) * 1500 / 1000000000) ((s.chan c).tCoil, (s.chan c).tMag)
  else ((s.chan c).tCoil, (s.chan c).tMag)

/-- A channel whose stored state has been taken over, with the nodes `n` (R254). -/
def Chan.takenOver (n : Rat × Rat) (x : Chan) : Chan := { x with obsHeld := false, tCoil := n.1, tMag := n.2 }

/-- The turn of a channel at the cooling (R254). -/
def coolTurn (c : Nat) : Phase := fun s =>
  if !(s.chan c).obsHeld then []
  else phases [always [.chan c (Chan.takenOver (s.cooledNodes c))], coilPublish c] s

theorem observerCool_locked (h : s.nat Key.lock.LOCK_STATE = 2) : observerCool s = forAll (List.range 16) coolTurn s :=
  if_neg (by simp [h])

theorem coilPublish_within {α : Type} {π : Units → α} (c : Nat) : Phase.Within (nodeKeys c) π (coilPublish c) := fun s => by
  simp [coilPublish, nodeKeys]

theorem coolTurn_within {α : Type} {π : Units → α} (hc : ∀ u f, π (Units.onChan u c f) = π u) :
    Phase.Within (nodeKeys c) π (coolTurn c) := by
  intro s
  refine confined_ite.2 ⟨fun _ => .nil, fun _ => Phase.within_phases ?_ s⟩
  simp [hc, coilPublish_within]

theorem nodeKeys_subset {c : Nat} (hc : c < 16) : nodeKeys c ⊆ allNodeKeys := fun _ hk =>
  List.mem_flatMap.2 ⟨c, List.mem_range.2 hc, hk⟩

/-- The turns of other channels leave a channel, and write nodes alone. -/
theorem coolTurns_within {l : List Nat} (hl : ∀ i ∈ l, i < 16) (hc : c ∉ l) :
    Phase.Within allNodeKeys (Units.chanAt c) (forAll l coolTurn) :=
  Phase.within_forAll fun i hi => by
    have hne : i ≠ c := fun h => hc (h ▸ hi)
    exact (coolTurn_within fun u f => (Tbl.at_upd ..).trans (if_neg hne)).mono (nodeKeys_subset (hl i hi))

/-- The turn of a channel: a stored state that it holds is taken over, cooled (R254). -/
theorem chan_coolTurn (s : State) (c : Nat) : (s.does (coolTurn c)).chan c =
    if (s.chan c).obsHeld then (s.chan c).takenOver (s.cooledNodes c) else s.chan c := by
  have hpublish : Phase.Within (nodeKeys c) (Units.chanAt c) (coilPublish c) := coilPublish_within c
  cases hheld : (s.chan c).obsHeld with
  | false => rw [State.does, coolTurn, if_pos (by simp [hheld])]; rfl
  | true =>
    rw [State.does, coolTurn, if_neg (by simp [hheld]), if_pos rfl]
    refine (congrArg (State.chan · c) (State.does_phases_cons s _ _)).trans ?_
    rw [State.does_phases_cons, State.does_phases_nil, State.does_always, hpublish.chan, State.run_cons, State.run_nil,
      State.chan_apply_chan_self]

/-- What the cooling leaves of each channel: its own turn alone concerns it, and finds its inputs as they were (R254). -/
theorem observerCool_leaves (hlocked : s.nat Key.lock.LOCK_STATE = 2) :
    let t := s.does observerCool
    (∀ c < 16, t.chan c = if (s.chan c).obsHeld then (s.chan c).takenOver (s.cooledNodes c) else s.chan c) ∧
      s.Frame allNodeKeys t := by
  have hdoes : s.does observerCool = s.does (forAll (List.range 16) coolTurn) := by
    rw [State.does, observerCool_locked hlocked, ← State.does]
  have hall : Phase.Within allNodeKeys (fun _ => ()) (forAll (List.range 16) coolTurn) :=
    Phase.within_forAll fun i hi => (coolTurn_within fun _ _ => rfl).mono (nodeKeys_subset (List.mem_range.1 hi))
  rw [hdoes]
  refine ⟨fun c hc => ?_, hall.frame s⟩
  obtain ⟨before, after, hlist, hbefore, hafter, hturns⟩ :=
    State.does_forAll_of_mem (List.mem_range.2 hc) List.nodup_range coolTurn s
  have hlt : ∀ i ∈ List.range 16, i < 16 := fun i => List.mem_range.1
  rw [hlist] at hlt
  have hprior := coolTurns_within (fun i hi => hlt i (List.mem_append_left _ hi)) hbefore
  have hlater := coolTurns_within (fun i hi => hlt i (List.mem_append_right _ (List.mem_cons_of_mem _ hi))) hafter
  have hinputs : ∀ k ∈ observerInputs c, (s.does (forAll before coolTurn)).num k = s.num k := fun k hk =>
    (hprior.frame s).num (observerInputs_notMem_allNodeKeys c k hk)
  have hchan := hprior.chan s
  have hnow : (s.does (forAll before coolTurn)).now = s.now := by
    simp only [State.now, State.mtbNs, State.does_mtb, (hprior.frame s).num (k := Key.mtb.EPOCH_OFFSET) (by decide)]
  have hnodes : (s.does (forAll before coolTurn)).cooledNodes c = s.cooledNodes c := by
    simp only [State.cooledNodes, State.observes_congr hinputs, State.cool_congr hinputs, hchan, hnow]
  rw [hturns, hlater.chan, chan_coolTurn, hchan, hnodes]

/-- The nodes of a channel that held a stored state are the cooled ones; none holds one any more (R254). -/
theorem observerCool_nodes (hlocked : s.nat Key.lock.LOCK_STATE = 2) (hc : c < 16) :
    let t := s.does observerCool
    (t.chan c).obsHeld = false ∧ ((s.chan c).obsHeld = true → s.observes c = true → ((t.chan c).tCoil, (t.chan c).tMag) =
      s.cool c ((s.now - (s.chan c).obsFrom) * 1500 / 1000000000) ((s.chan c).tCoil, (s.chan c).tMag)) := by
  obtain ⟨hturn, -⟩ := observerCool_leaves hlocked
  dsimp only
  rw [hturn c hc]
  cases hheld : (s.chan c).obsHeld with
  | false => exact ⟨hheld, fun h => absurd h Bool.false_ne_true⟩
  | true => exact ⟨rfl, fun _ hobserves => if_pos hobserves⟩

/-! ### The obligation -/

/-- Settles O40: a window that is judged is a short list of effects, one of which changes the channel; the thermal fence is
`fenceFast` with its count, its end `fenceDrop` of the last cause; the store writes each channel's state under its own key, and the
cooling is the turn of each channel, whose inputs the turns of the others leave. -/
theorem coneSupervision : Obligations.ConeSupervision := by
  refine ⟨fun s c w hdone hclass hon hrej => ⟨_, rfl, pilotWindowEnd_rejected_leaves hdone hclass hon c.isLt hrej⟩,
    fun s c w hdone hclass hon hrej => ?_,
    fun s c hvalid hhot hcause => ⟨_, rfl, thermalHard_leaves c.isLt hvalid hhot hcause⟩,
    fun s c hcause hcool => ⟨_, rfl, thermalResumed_leaves c.isLt hcause hcool⟩,
    fun s c w hdone hclass hcounts => ⟨_, rfl, driftWindowEnd_uncounted_leaves hdone hclass hcounts⟩,
    fun s c w hdone hclass hcounts => ⟨_, rfl, driftWindowEnd_counted_leaves hdone hclass c.isLt hcounts⟩,
    fun s c hpaused => ⟨fun k => ?_, fun a b => ?_⟩, fun s hserved hdue => ?_, fun s hlocked => ?_⟩
  · obtain ⟨hresults, hchan, hmeas, hkeep⟩ := pilotWindowEnd_used_leaves hdone hclass hon c.isLt hrej
    exact ⟨_, rfl, hresults, congrArg Chan.rejects hchan, congrArg Chan.tCoil hchan, congrArg Chan.pilotDone hchan,
      congrArg Chan.tMag hchan, hmeas, hkeep⟩
  · exact congrArg (fun es => Host.Outcome.next (s.run es)) (pilotWindowEnd_paused hpaused k)
  · exact congrArg (fun es => Host.Outcome.next (s.run es)) (driftWindowEnd_paused hpaused a b)
  · refine ⟨s.does observerStore, rfl, ?_⟩
    rw [does_observerStore hserved hdue]
    exact observersSave_leaves s
  · obtain ⟨-, hkeep⟩ := observerCool_leaves hlocked
    exact ⟨s.does observerCool, rfl, fun c hc => observerCool_nodes hlocked hc, hkeep.mode, hkeep.store⟩

end Sys2Proof.Machine
end

section
/-!
The starts and stops of a channel (R280-R284, Tables 09-4, 09-5): the first effects of each sequence, and what they leave.
-/

namespace Sys2Proof.Machine

variable {s : State} {c : Nat}

/-! ### The effects of a sequence, read back -/

section Reads
variable (s c)

@[simp] theorem State.num_apply_zcDrop (key k : Nat) : (s.apply (zcDrop key)).num k = s.num k := rfl

@[simp] theorem State.chan_apply_zcDrop (key : Nat) : (s.apply (zcDrop key)).chan c = s.chan c := rfl

@[simp] theorem State.zcWait_apply_chan (i key : Nat) (f : Chan → Chan) : (s.apply (.chan i f)).zcWait key = s.zcWait key := rfl

@[simp] theorem State.zcWait_apply_num (k key : Nat) (n : Int) : (s.apply (.num k n)).zcWait key = s.zcWait key :=
  congrArg (List.find? _) (congrArg Units.zc (s.set_units k _))

theorem State.zcWait_apply_zcDrop (key : Nat) : (s.apply (zcDrop key)).zcWait key = none := by
  simp [State.zcWait, zcDrop]

end Reads

/-- A phase of a sequence that is written is the one that stands (Table 09-10). -/
theorem State.num_seqPhase (hc : c < 16) (s : State) {n : Int} (h0 : 0 ≤ n) (hn : n < 256) :
    (s.apply (.num (Key.pw.SEQ_PHASE c) n)).num (Key.pw.SEQ_PHASE c) = n := State.num_reg_of_lt (width_seqPhase c hc) s h0 hn

/-- A ramp begins at the value of the gate (R279). -/
theorem Gate.value_to {x : Gate} {v : Rat} {n : Nat} (hn : 0 < n) : (x.to v n).value = x.value := by
  have hramp : ¬ n ≤ 0 := by omega
  simp [Gate.to, Gate.value, hramp]

/-! ### The start -/

/-- A channel in the first tick of its precharge (Table 09-4). -/
def Chan.precharged (ticked : Bool) (x : Chan) : Chan :=
  { x with gc := {}, gl := {}, seqPos := if ticked then 1 else 0, startDue := false, fast := false, releaseDue := false,
           settled := false, holding := false, starting := true }

/-- A start that may be made sets PRECHARGE and begins its sequence (R280). -/
theorem does_startBegin (hmay : s.canStart c = true) (hout : s.outState c = 0) (hphase : s.phase c = 0) : s.does (startBegin c) =
    (s.does (setOut c 1)).run [.num (Key.pw.SEQ_PHASE c) 1, .chan c (Chan.precharged s.ticked)] := by
  rw [State.does, startBegin, if_pos (by simp [hmay, hout, hphase])]
  refine (State.does_phases_cons s _ _).trans ?_
  rw [State.does_phases_cons, State.does_phases_nil, State.does_always]
  rfl

/-- What the beginning of a start leaves. -/
theorem startBegin_leaves (hc : c < 16) (hmay : s.canStart c = true) (hout : s.outState c = 0) (hphase : s.phase c = 0) :
    let t := s.does (startBegin c)
    t.outState c = 1 ∧ t.num (Key.pw.SEQ_PHASE c) = 1 ∧ t.chan c = (s.chan c).precharged s.ticked ∧ t.mode = s.mode := by
  have hkey : Key.pw.OUT_STATE c ∉ [Key.pw.SEQ_PHASE c] := by
    simp only [List.mem_singleton, Key.pw.OUT_STATE, Key.pw.SEQ_PHASE]; omega
  have hbegin : Confined [Key.pw.SEQ_PHASE c] (fun _ => ())
      [.num (Key.pw.SEQ_PHASE c) 1, .chan c (Chan.precharged s.ticked)] := by simp
  have hkeep := hbegin.frame (s.does (setOut c 1))
  rw [does_startBegin hmay hout hphase]
  refine ⟨(hkeep.nat hkey).trans (outState_setOut hc (by decide) s), ?_, ?_,
    hkeep.mode.trans ((setOut_within (π := fun _ => ()) c 1).frame s).mode⟩
  · simp [State.num_seqPhase hc]
  · simp [chan_setOut]

/-- A channel whose on-resistances have been measured (R470). -/
def Chan.ronMeasured (a b : Int) (x : Chan) : Chan := { x with ronDone := true, ron := (a, b) }

/-- The measurement of the on-resistances at a start, made once (R470): it leaves the sequence and the mode. -/
theorem ronMeasure_leaves (c : Nat) (a b : Int) (s : State) :
    let t := s.does (ronMeasure c a b)
    t.chan c = (if (s.chan c).ronDone then s.chan c else (s.chan c).ronMeasured a b) ∧
      s.Frame [Key.life.RON_DRIFT_MAX, Key.evt.EVT_RAISED] t := by
  cases hdone : (s.chan c).ronDone with
  | true =>
    rw [State.does, ronMeasure, if_pos hdone]
    exact ⟨rfl, .refl s _⟩
  | false =>
    obtain ⟨es, hes, hdrift⟩ : ∃ es, Confined [Key.life.RON_DRIFT_MAX, Key.evt.EVT_RAISED] (Units.chanAt c) es ∧
        ronMeasure c a b s = .chan c (Chan.ronMeasured a b) :: es := by
      refine ⟨_, ?_, by rw [ronMeasure]; exact if_neg (by simp [hdone])⟩
      refine confined_append.2 ⟨by simp, ?_⟩
      split
      · simp only [confined_cons, Effect.within_mgmt, Effect.within_event, Confined.nil]
        exact ⟨fun _ => rfl, by simp⟩
      · exact .nil
    rw [State.does, hdrift, State.run_cons]
    refine ⟨(hes.chan _).trans (s.chan_apply_chan_self c _), ((chan_frame s c _).mono (List.nil_subset _)).trans (hes.frame _)⟩

/-- What START_SEQUENCE leaves of a channel that may start (R280). -/
theorem startSequence_leaves (hc : c < 16) (hmay : s.canStart c = true) (hout : s.outState c = 0) (hphase : s.phase c = 0)
    (hat : s.atBoundary = true) (a b : Int) :
    let t := s.does (startSequence (ronMeasure c a b) c)
    t.outState c = 1 ∧ t.num (Key.pw.SEQ_PHASE c) = 1 ∧ (t.chan c).seqPos = (if s.ticked then 1 else 0) ∧
      (t.chan c).gc.value = 0 ∧ (t.chan c).ronDone = true ∧ t.mode = s.mode := by
  have hkeys : Key.pw.OUT_STATE c ∉ [Key.life.RON_DRIFT_MAX, Key.evt.EVT_RAISED] ∧
      Key.pw.SEQ_PHASE c ∉ [Key.life.RON_DRIFT_MAX, Key.evt.EVT_RAISED] := by
    simp only [List.mem_cons, List.not_mem_nil, or_false, Key.pw.OUT_STATE, Key.pw.SEQ_PHASE, Key.life.RON_DRIFT_MAX, Key.evt.EVT_RAISED]
    omega
  obtain ⟨houtKey, hphaseKey⟩ := hkeys
  obtain ⟨hstarted, hprecharge, hchan, hmode⟩ := startBegin_leaves hc hmay hout hphase
  obtain ⟨hmeasured, hkeep⟩ := ronMeasure_leaves c a b (s.does (startBegin c))
  have hdoes : s.does (startSequence (ronMeasure c a b) c) = (s.does (startBegin c)).does (ronMeasure c a b) := by
    rw [State.does, startSequence, if_pos (by simp [hmay, hout, hphase, hat])]
    refine (State.does_phases_cons s _ _).trans ?_
    rw [State.does_phases_cons, State.does_phases_nil]
  have hsame : ((s.does (startBegin c)).does (ronMeasure c a b)).chan c = (s.chan c).precharged s.ticked ∧ (s.chan c).ronDone = true ∨
      ((s.does (startBegin c)).does (ronMeasure c a b)).chan c = ((s.chan c).precharged s.ticked).ronMeasured a b := by
    rw [hmeasured, hchan]
    cases hdone : ((s.chan c).precharged s.ticked).ronDone with
    | true => exact .inl ⟨rfl, hdone⟩
    | false => exact .inr rfl
  rw [hdoes]
  refine ⟨(hkeep.nat houtKey).trans hstarted, (hkeep.num hphaseKey).trans hprecharge, ?_, ?_, ?_, hkeep.mode.trans hmode⟩
  · obtain ⟨h, -⟩ | h := hsame <;> rw [h] <;> rfl
  · obtain ⟨h, -⟩ | h := hsame <;> rw [h] <;> rfl
  · obtain ⟨h, hdone⟩ | h := hsame
    · rw [h]; exact hdone
    · rw [h]; rfl

/-! ### The stops -/

/-- A channel whose start or hold a stop takes over (R284). -/
def Chan.stopTaken (fast : Bool) (x : Chan) : Chan :=
  { x with startDue := false, starting := false, holding := false, fast := fast || x.fast }

/-- A stop takes over a start: the wait for its crossing ends (R284). -/
def stopTakes (c : Nat) (fast : Bool) : List Effect := [zcDrop (Zc.start c), .chan c (Chan.stopTaken fast)]

theorem stopTakes_confined (c : Nat) (fast : Bool) : Confined [] (fun _ => ()) (stopTakes c fast) := by simp [stopTakes]

/-- A released channel that is not probed has nothing to stop. -/
theorem stopBegin_of_released (hreleased : s.released c = true) (hphase : s.phase c ≠ 8) (fast : Bool) : stopBegin c fast s = [] := by
  rw [stopBegin, if_neg hphase, if_pos hreleased]

theorem does_zcStart (s : State) (key : Nat) (v : Value) : s.does (zcStart key v) = s.does (zcStartAt key v s.sampleNow) := by
  simp only [State.does, zcStart]

section Begin
variable (hreleased : s.released c = false) (hphase : s.phase c ≠ 8 ∧ s.phase c ≠ 7 ∧ s.phase c ≠ 6 ∧ s.phase c ≠ 5)
include hreleased hphase

/-- A stop skips the chain ramp of a gate that is still 0 (R284). -/
theorem does_stopBegin_silent (hgate : (s.chan c).gc.value = 0) (fast : Bool) :
    s.does (stopBegin c fast) = (s.run (stopTakes c fast)).does (loopDown c) := by
  obtain ⟨hprobe, hloop, hchain, hwait⟩ := hphase
  rw [State.does, stopBegin, if_neg hprobe, if_neg (by simp [hreleased])]
  dsimp only
  rw [if_neg (by simp [hloop, hchain]), if_neg hwait, if_pos hgate]
  refine (State.does_phases_cons s _ _).trans ?_
  rw [State.does_phases_cons, State.does_phases_nil, State.does_always]
  rfl

/-- A fast stop of a channel that sounds begins its chain ramp at once (R282). -/
theorem does_stopBegin_fast (hgate : (s.chan c).gc.value ≠ 0) :
    s.does (stopBegin c true) = (s.run (stopTakes c true)).does (chainDown c false) := by
  obtain ⟨hprobe, hloop, hchain, hwait⟩ := hphase
  rw [State.does, stopBegin, if_neg hprobe, if_neg (by simp [hreleased])]
  dsimp only
  rw [if_neg (by simp [hloop, hchain]), if_neg hwait, if_neg hgate, if_pos rfl]
  refine (State.does_phases_cons s _ _).trans ?_
  rw [State.does_phases_cons, State.does_phases_nil, State.does_always]
  rfl

/-- An orderly stop of a channel that sounds waits for a zero crossing (R281). -/
theorem does_stopBegin_orderly (hgate : (s.chan c).gc.value ≠ 0) : s.does (stopBegin c false) =
    ((s.run (stopTakes c false)).apply (.num (Key.pw.SEQ_PHASE c) 5)).does (zcStart (Zc.stop c) (.num 0)) := by
  obtain ⟨hprobe, hloop, hchain, hwait⟩ := hphase
  rw [State.does, stopBegin, if_neg hprobe, if_neg (by simp [hreleased])]
  dsimp only
  rw [if_neg (by simp [hloop, hchain]), if_neg hwait, if_neg hgate, if_neg Bool.false_ne_true]
  refine (State.does_phases_cons s _ _).trans ?_
  rw [State.does_phases_cons, State.does_phases_cons, State.does_phases_nil, State.does_always, State.does_always, State.run_cons,
    State.run_nil]
  rfl

end Begin

/-- What an orderly stop of a channel that plays leaves: it waits for a zero crossing (R281). -/
theorem stopBegin_orderly_leaves (hc : c < 16) (hplays : s.outState c = 2) (hphase : s.phase c = 0) (hgate : (s.chan c).gc.value ≠ 0) :
    let t := s.does (stopBegin c false)
    t.num (Key.pw.SEQ_PHASE c) = 5 ∧ (t.zcWait (Zc.stop c)).isSome = true ∧ s.Frame [Key.pw.SEQ_PHASE c] t := by
  have hwait (n : Nat) : Phase.Within [] (fun _ => ()) (zcStartAt (Zc.stop c) (.num 0) n) := zcStartAt_within (fun _ _ => rfl) _ _ _
  have hshow : Effect.Within [Key.pw.SEQ_PHASE c] (fun _ => ()) (.num (Key.pw.SEQ_PHASE c) 5) := by simp
  rw [does_stopBegin_orderly (by simp [State.released, hplays]) (by simp [hphase]) hgate, does_zcStart]
  refine ⟨?_, zcWait_zcStartAt .., (((stopTakes_confined c false).frame s).mono (List.nil_subset _)).trans
    ((hshow.frame _).trans (((hwait _).frame _).mono (List.nil_subset _)))⟩
  rw [((hwait _).frame _).num List.not_mem_nil, State.num_seqPhase hc _ (by decide) (by decide)]

/-- What a fast stop of a channel that sounds leaves: its chain gate ramps down over 32 samples (R282, Table 09-5). -/
theorem stopBegin_fast_leaves (hc : c < 16) (hplays : s.playing c = true) (hphase : s.phase c = 0 ∨ s.phase c = 4)
    (hgate : (s.chan c).gc.value ≠ 0) :
    let t := s.does (stopBegin c true)
    t.num (Key.pw.SEQ_PHASE c) = 6 ∧ (t.chan c).gc = (s.chan c).gc.to 0 32 ∧ (t.chan c).fast = true ∧
      s.Frame [Key.pw.SEQ_PHASE c] t := by
  have hreleased : s.released c = false := by
    simp only [State.playing, Bool.or_eq_true, beq_iff_eq] at hplays
    simp only [State.released, Bool.or_eq_false_iff, beq_eq_false_iff_ne]
    omega
  have hdown : Phase.Within [Key.pw.SEQ_PHASE c] (fun _ => ()) (chainDown c false) := fun x => by simp [chainDown]
  rw [does_stopBegin_fast hreleased (by omega) hgate]
  refine ⟨?_, ?_, ?_, (((stopTakes_confined c true).frame s).mono (List.nil_subset _)).trans (hdown.frame _)⟩
  · simp [State.does, chainDown, State.num_seqPhase hc]
  · simp [State.does, chainDown, stopTakes, Chan.stopTaken, Gate.start]
  · simp [State.does, chainDown, stopTakes, Chan.stopTaken]

/-- What a fast stop of a start leaves whose chain gate is still 0: its loop gate ramps down (R284, Table 09-5). -/
theorem stopBegin_start_leaves (hc : c < 16) (hstarts : s.outState c = 1) (hphase : s.phase c = 1 ∨ s.phase c = 2 ∨ s.phase c = 3)
    (hgate : (s.chan c).gc.value = 0) :
    let t := s.does (stopBegin c true)
    t.num (Key.pw.SEQ_PHASE c) = 7 ∧ (t.chan c).gl = (s.chan c).gl.to 0 32 ∧ t.zcWait (Zc.start c) = none ∧
      (t.chan c).fast = true ∧ s.Frame [Key.pw.SEQ_PHASE c] t := by
  have hdown : Phase.Within [Key.pw.SEQ_PHASE c] (fun _ => ()) (loopDown c) := by simp [loopDown]
  rw [does_stopBegin_silent (by simp [State.released, hstarts]) (by omega) hgate]
  refine ⟨?_, ?_, ?_, ?_, (((stopTakes_confined c true).frame s).mono (List.nil_subset _)).trans (hdown.frame _)⟩
  · simp [loopDown, State.num_seqPhase hc]
  · simp [loopDown, stopTakes, Chan.stopTaken]
  · simp [loopDown, stopTakes, State.zcWait_apply_zcDrop]
  · simp [loopDown, stopTakes, Chan.stopTaken]

/-- A channel whose probe a stop has given up: it is due again, at a block boundary (R288, log 168). -/
def Chan.probeDropped (now : Nat) (x : Chan) : Chan := { x with probing := false, probeAt := some now, probeWaits := true }

theorem does_stopBegin_probe (hphase : s.phase c = 8) (fast : Bool) : s.does (stopBegin c fast) =
    (s.does (loopDown c)).run [.nat (Key.prot.PROBE_NEXT c) s.now, .chan c (Chan.probeDropped s.mtbNs)] := by
  rw [State.does, stopBegin, if_pos hphase]
  refine (State.does_phases_cons s _ _).trans ?_
  rw [State.does_phases_cons, State.does_phases_nil, State.does_always]
  rfl

/-- What a stop leaves of a channel that is probed (R288, log 168). -/
theorem stopBegin_probe_leaves (hc : c < 16) (hphase : s.phase c = 8) (fast : Bool) :
    let t := s.does (stopBegin c fast)
    t.num (Key.pw.SEQ_PHASE c) = 7 ∧ (t.chan c).probing = false ∧ (t.chan c).probeAt = some s.mtbNs ∧
      (t.chan c).probeWaits = true ∧ s.Frame [Key.pw.SEQ_PHASE c, Key.prot.PROBE_NEXT c] t := by
  have hkey : Key.pw.SEQ_PHASE c ∉ [Key.prot.PROBE_NEXT c] := by
    simp only [List.mem_singleton, Key.pw.SEQ_PHASE, Key.prot.PROBE_NEXT]; omega
  have hdown : Phase.Within [Key.pw.SEQ_PHASE c, Key.prot.PROBE_NEXT c] (fun _ => ()) (loopDown c) := by simp [loopDown]
  have hdue : Confined [Key.prot.PROBE_NEXT c] (fun _ => ())
      [.nat (Key.prot.PROBE_NEXT c) s.now, .chan c (Chan.probeDropped s.mtbNs)] := by simp
  have hchan : ((s.does (stopBegin c fast)).chan c).probing = false ∧ ((s.does (stopBegin c fast)).chan c).probeAt = some s.mtbNs ∧
      ((s.does (stopBegin c fast)).chan c).probeWaits = true := by
    rw [does_stopBegin_probe hphase]
    simp [Chan.probeDropped]
  obtain ⟨hprobing, hprobe, hwaits⟩ := hchan
  refine ⟨?_, hprobing, hprobe, hwaits, ?_⟩
  · rw [does_stopBegin_probe hphase, (hdue.frame _).num hkey]
    simp [loopDown, State.num_seqPhase hc]
  · rw [does_stopBegin_probe hphase]
    exact (hdown.frame s).trans ((hdue.frame _).mono (by simp))

/-! ### The causes of a stop -/

/-- A stop that a cause of Table 09-6 asks for begins. -/
theorem does_orderlyStop (hoff : s.flag (Key.pw.CH_EN c) = false) (hat : s.atBoundary = true) :
    s.does (stopCaused c false) = s.does (stopBegin c false) := by
  have hcause : stopCaused c false s = stopBegin c false s := if_pos (by simp [hoff, hat])
  rw [State.does, hcause, State.does]

/-- The causes of a fast stop that O41 names: a fence of cause THERMAL or LOOP, or ENGAGE_N high (Table 09-6). -/
def State.StopsFast (s : State) (c : Nat) : Prop :=
  (s.nat (Key.prot.FENCE_CAUSE c)).testBit 2 = true ∨ (s.nat (Key.prot.FENCE_CAUSE c)).testBit 3 = true ∨ s.units.pins.engageN = true

theorem does_fastStop (hcause : s.StopsFast c) : s.does (stopCaused c true) = s.does (stopBegin c true) := by
  have hstop : stopCaused c true s = stopBegin c true s := if_pos (by
    obtain h | h | h := hcause <;> simp [h])
  rw [State.does, hstop, State.does]

/-- Between block boundaries no orderly stop begins (R281). -/
theorem stopCaused_between (hat : s.atBoundary = false) : stopCaused c false s = [] := if_neg (by simp [hat])

/-- A released channel that is not probed is not stopped, whatever the cause. -/
theorem stopCaused_of_released (hreleased : s.released c = true) (hphase : s.phase c ≠ 8) (fast : Bool) : stopCaused c fast s = [] := by
  have hnone := stopBegin_of_released hreleased hphase fast
  simp [stopCaused, hnone]

/-! ### The obligation -/

/-- Settles O41: a start and each kind of stop is a short list of effects, chosen by the state of the channel; where no stop begins the
list is empty. -/
theorem channelsStartAndStop : Obligations.ChannelsStartAndStop := by
  intro s c
  have hc := c.isLt
  refine ⟨fun a b hmay hout hphase hat => ⟨_, rfl, startSequence_leaves hc hmay hout hphase hat a b⟩,
    fun hoff hat hplays hseq hgate => ?_, fun hat => ?_, fun hcause => ⟨fun hplays hseq hgate => ?_, fun hstarts hseq hgate => ?_⟩,
    fun hreleased hphase => ?_, fun hphase hengage => ?_⟩
  · refine ⟨s.does (stopCaused c false), rfl, ?_⟩
    rw [does_orderlyStop hoff hat]
    exact stopBegin_orderly_leaves hc hplays (by rw [State.phase, State.nat_eq_num, hseq]; rfl) hgate
  · exact congrArg (fun es => Host.Outcome.next (s.run es)) (stopCaused_between hat)
  · have hphase : s.phase c = 0 ∨ s.phase c = 4 := by
      rw [State.phase, State.nat_eq_num]
      simp only [List.mem_cons, List.not_mem_nil, or_false] at hseq
      omega
    obtain ⟨hdown, hchain, hfast, hkeep⟩ := stopBegin_fast_leaves hc hplays hphase hgate
    refine ⟨s.does (stopCaused c true), rfl, ?_⟩
    rw [does_fastStop hcause]
    dsimp only
    rw [hchain]
    exact ⟨hdown, Gate.value_to (by decide), rfl, rfl, hfast, hkeep⟩
  · have hphase : s.phase c = 1 ∨ s.phase c = 2 ∨ s.phase c = 3 := by
      rw [State.phase, State.nat_eq_num]
      simp only [List.mem_cons, List.not_mem_nil, or_false] at hseq
      omega
    obtain ⟨hdown, hloop, hwait, hfast, hkeep⟩ := stopBegin_start_leaves hc hstarts hphase hgate
    refine ⟨s.does (stopCaused c true), rfl, ?_⟩
    rw [does_fastStop hcause]
    dsimp only
    rw [hloop]
    exact ⟨hdown, Gate.value_to (by decide), rfl, rfl, hwait, hfast, hkeep⟩
  · exact ⟨congrArg (fun es => Host.Outcome.next (s.run es)) (stopCaused_of_released hreleased hphase false),
      congrArg (fun es => Host.Outcome.next (s.run es)) (stopCaused_of_released hreleased hphase true)⟩
  · refine ⟨s.does (stopCaused c true), rfl, ?_⟩
    rw [does_fastStop (.inr (.inr hengage))]
    exact stopBegin_probe_leaves hc hphase true

end Sys2Proof.Machine
end

section
/-!
The clause of O42 on a declared short at its block boundary (R287), where the table of objects holds a number beyond its 512 slots: the
entries of such a slot are those of another unit.
-/

namespace Sys2Proof.Machine

/-- Phases in order, cut in two. -/
theorem State.does_phases_append (s : State) (ps qs : List Phase) :
    s.does (phases (ps ++ qs)) = (s.does (phases ps)).does (phases qs) := by
  induction ps generalizing s with
  | nil => rfl
  | cons p ps ih => rw [List.cons_append, State.does_phases_cons, State.does_phases_cons, ih]

/-- A block boundary up to the slots that objects take (R124, R184). -/
def boundaryHead : Phase := phases [lanesDeadline, forAll (List.range 16) probeDue, slotsTake]

/-- What a block boundary leaves depends only on what its head leaves. -/
theorem does_blockInstant_congr {s t : State} (x : BlockSense) (h : s.does boundaryHead = t.does boundaryHead) :
    s.does (blockInstant x) = t.does (blockInstant x) := by
  obtain ⟨rest, hrest⟩ : ∃ l, ∀ u : State, u.does (blockInstant x) = (u.does boundaryHead).does (phases l) :=
    ⟨_, fun u => u.does_phases_append [lanesDeadline, forAll (List.range 16) probeDue, slotsTake] _⟩
  rw [hrest, hrest, h]

/-- A block in RUN in which channel 15 has a declared short after `n` counted ones, and object 0x2C0F, beyond the 512 slots, is to lose
its slot at the next boundary: OBJ_STATUS of that number and SHORT_COUNT of channel 15 are one key. -/
def strayObject (n : Int) : State :=
  ({ State.reset with mode := .run, mtb := 1000000000000 * 4294967296 } : State).run
    [.num (Key.prot.SHORT_COUNT 15) n, .chan 15 fun x => { x with shortDue := true }, .obj 0x2C0F fun x => { x with next := some none }]

theorem strayObject_typed (n : Int) : (strayObject n).Typed := State.run_typed _ _ (State.typed_of_dict_nil rfl)

theorem num_shortCount_strayObject : (strayObject 1).num (Key.prot.SHORT_COUNT 15) = 1 ∧ (strayObject 2).num (Key.prot.SHORT_COUNT 15) = 2 := by
  decide +kernel

/-- The slot of the stray object is cleared, and the count with it: from then on nothing tells how many shorts there were. -/
theorem does_boundaryHead_strayObject : (strayObject 1).does boundaryHead = (strayObject 2).does boundaryHead := by decide +kernel

/-- A block boundary finds a declared short of a channel that is not probed, and nothing else takes effect there (R77, R287). -/
def State.ShortStands (s : State) (c : Nat) : Prop :=
  (s.chan c).shortDue = true ∧ (s.chan c).probing = false ∧ s.phase c ≠ 8 ∧ s.units.waiting = [] ∧ s.units.sessions = [] ∧
    (∀ a < 64, s.num (Key.act.ACT_STATE a) ≠ 1) ∧ s.units.mgmt.restoreDue = none

theorem shortStands_strayObject : (strayObject 1).ShortStands 15 ∧ (strayObject 2).ShortStands 15 := by
  unfold State.ShortStands
  decide +kernel

/-- What O42 says of the count of shorts at such a boundary. -/
theorem num_shortCount_of_channelProtectionActs (h : Obligations.ChannelProtectionActs) {s : State} {c : Nat} (hc : c < 16)
    (htyped : s.Typed) (hshort : s.ShortStands c) (x : BlockSense) :
    (s.does (blockInstant x)).num (Key.prot.SHORT_COUNT c) = (s.num (Key.prot.SHORT_COUNT c) + 1) % 2 ^ 32 := by
  obtain ⟨-, hboundary, -⟩ := h s ⟨c, hc⟩ htyped
  obtain ⟨hdue, hprobing, hphase, hwaiting, hsessions, hactions, hrestore⟩ := hshort
  obtain ⟨t, ht, -, -, -, hshorts, -⟩ := hboundary x hdue hprobing hphase hwaiting hsessions hactions hrestore
  obtain rfl : s.does (blockInstant x) = t := Host.Outcome.next.inj ht
  exact hshorts

/-- Refutes O42: its clause on BLOCK_BOUNDARY lets the table of objects hold a number beyond its 512 slots. Clearing the slot of object
0x2C0F, whose OBJ_STATUS is SHORT_COUNT of channel 15, forgets the count before the short is counted: `strayObject 1` and
`strayObject 2` end alike, though the clause asks for counts of 2 and of 3. None of its
premises shuts such an object out. -/
theorem not_channelProtectionActs : ¬ Obligations.ChannelProtectionActs := by
  intro h
  have x : BlockSense := ⟨[], 0⟩
  obtain ⟨hone, htwo⟩ := num_shortCount_strayObject
  obtain ⟨hshort, hshort'⟩ := shortStands_strayObject
  have hcount := num_shortCount_of_channelProtectionActs h (by decide) (strayObject_typed 1) hshort x
  have hcount' := num_shortCount_of_channelProtectionActs h (by decide) (strayObject_typed 2) hshort' x
  have hends := does_blockInstant_congr x does_boundaryHead_strayObject
  rw [hone, hends] at hcount
  rw [htwo] at hcount'
  exact absurd (hcount.symm.trans hcount') (by decide)

end Sys2Proof.Machine
end

section
/-!
The protection of a supply group (R291-R295): the release of its bridges, its mute, the starts that follow, and what each leaves of the
group's states, its counts and its channels.
-/

namespace Sys2Proof.Machine

variable {α : Type} {s : State} {g c : Nat}

/-! ### Effects on a group -/

def Units.onGroup (u : Units) (i : Nat) (f : Group → Group) : Units := { u with groups := u.groups.upd {} i f }

@[simp] theorem Effect.within_group {ks : List Nat} {π : Units → α} {i : Nat} {f : Group → Group} :
    (Effect.group i f).Within ks π ↔ ∀ u : Units, π (u.onGroup i f) = π u := .rfl

theorem State.group_apply_group_same (s : State) (g : Nat) (f : Group → Group) : (s.apply (.group g f)).group g = f (s.group g) :=
  (Tbl.at_upd ..).trans (if_pos rfl)

theorem group_frame (s : State) (g : Nat) (f : Group → Group) : s.Frame [] (s.apply (.group g f)) :=
  Effect.Within.frame (π := fun _ => ()) (by simp) s

/-- Effects that leave the groups of the units leave each of the state. -/
theorem Confined.group {ks : List Nat} {es : List Effect} (h : Confined ks Units.groups es) (s : State) (g : Nat) :
    (s.run es).group g = s.group g := congrArg (Tbl.at ({} : Group) · g) (h.units (fun _ _ _ _ _ _ => rfl) s)

theorem Phase.Within.group {ks : List Nat} {p : Phase} (h : Phase.Within ks Units.groups p) (s : State) (g : Nat) :
    (s.does p).group g = s.group g := Confined.group (h s) s g

/-- The channels of a group are four of the sixteen. -/
theorem lt_of_mem_groupChans (hg : g < 4) (hc : c ∈ groupChans g) : c < 16 := by
  simp only [groupChans, List.mem_cons, List.not_mem_nil, or_false] at hc
  omega

theorem nodup_groupChans (g : Nat) : (groupChans g).Nodup := by
  simp [groupChans]

/-- A change of one channel leaves every other. -/
theorem Units.chanAt_onChan_of_ne {i : Nat} (h : i ≠ c) (u : Units) (f : Chan → Chan) : (u.onChan i f).chanAt c = u.chanAt c :=
  (Tbl.at_upd ..).trans (if_neg h)

/-- The group shows its state, and nothing else changes (R295). -/
theorem groupShow_within {π : Units → α} (g : Nat) : Phase.Within [Key.pg.GROUP_STATE g] π (groupShow g) := fun s => by simp [groupShow]

/-! ### The release of a channel -/

/-- What the release of a channel writes (R284, R295, R297). -/
def releaseKeys (c : Nat) : List Nat :=
  [Key.prot.PROBE_NEXT c, Key.pw.SEQ_PHASE c, Key.pw.RESTART_GAIN c, Key.pw.OUT_STATE c, Key.evt.EVT_RAISED]

/-- A release enters RELEASED or FENCED, and then clears the sequence of the channel (R284, R299). -/
theorem releaseNow_eq (s : State) (c : Nat) : ∃ es, Confined [Key.pw.SEQ_PHASE c, Key.pw.RESTART_GAIN c] Units.groups es ∧
    releaseNow c s = phases [setOut c (if s.chanFenced c then 4 else 0), always es] s := by
  refine ⟨_, confined_append.2 ⟨?_, ?_⟩, rfl⟩
  · simp [Units.onChan, Units.withZc]
  · cases s.released c <;> simp

theorem releaseNow_within (c : Nat) : Phase.Within (releaseKeys c) Units.groups (releaseNow c) := fun s => by
  obtain ⟨es, hes, hnow⟩ := releaseNow_eq s c
  have hout := (setOut_within (π := Units.groups) c (if s.chanFenced c then 4 else 0)).mono (ls := releaseKeys c)
    (by simp [fadeKeys, releaseKeys])
  have hrest : Confined (releaseKeys c) Units.groups es := hes.mono (by simp [releaseKeys])
  rw [hnow]
  exact Phase.within_phases (by simp [hout, hrest]) s

theorem released_releaseNow (hc : c < 16) (s : State) : (s.does (releaseNow c)).released c = true := by
  obtain ⟨es, hes, hnow⟩ := releaseNow_eq s c
  have hkey : Key.pw.OUT_STATE c ∉ [Key.pw.SEQ_PHASE c, Key.pw.RESTART_GAIN c] := by
    simp only [List.mem_cons, List.not_mem_nil, or_false, Key.pw.OUT_STATE, Key.pw.SEQ_PHASE, Key.pw.RESTART_GAIN]; omega
  have hout : (s.does (releaseNow c)).outState c = if s.chanFenced c then 4 else 0 := by
    rw [State.does, hnow]
    refine (congrArg (State.outState · c) (State.does_phases_cons s _ _)).trans ?_
    rw [State.does_phases_cons, State.does_phases_nil, State.does_always]
    exact ((hes.frame _).nat hkey).trans (outState_setOut hc (by split <;> decide) s)
  rw [State.released, hout]
  split <;> rfl

/-! ### The release of a group -/

/-- The release of one channel of a group: a probe is given up, the bridge released, the counts of limited periods cleared (R295). -/
def releaseTurn (c : Nat) : Phase := phases [
  whenP (fun s => (s.chan c).probing) (fun s => [.nat (Key.prot.PROBE_NEXT c) s.now,
    .chan c fun x => { x with probing := false, probeAt := some s.mtbNs }]),
  releaseNow c,
  always [.chan c fun x => { x with limitRun := 0, limitTimes := [], freeRun := 0 }]]

theorem groupRelease_eq (g : Nat) : groupRelease g = forAll (groupChans g) releaseTurn := rfl

theorem releaseTurn_within (c : Nat) : Phase.Within (releaseKeys c) Units.groups (releaseTurn c) := by
  have hprobe : Phase.Within (releaseKeys c) Units.groups (whenP (fun s => (s.chan c).probing) fun s =>
      [.nat (Key.prot.PROBE_NEXT c) s.now, .chan c fun x => { x with probing := false, probeAt := some s.mtbNs }]) := fun s => by
    simp [whenP, releaseKeys, Units.onChan]
  exact Phase.within_phases (by simp [hprobe, releaseNow_within, Units.onChan])

theorem released_releaseTurn (hc : c < 16) (s : State) : (s.does (releaseTurn c)).released c = true := by
  rw [releaseTurn, State.does_phases_cons, State.does_phases_cons, State.does_phases_cons, State.does_phases_nil, State.does_always]
  exact released_releaseNow hc _

/-- What the release of a group writes. -/
def groupReleaseKeys (g : Nat) : List Nat := (groupChans g).flatMap releaseKeys

theorem groupRelease_within (g : Nat) : Phase.Within (groupReleaseKeys g) Units.groups (groupRelease g) :=
  Phase.within_forAll fun c hc => (releaseTurn_within c).mono fun _ hk => List.mem_flatMap.2 ⟨c, hc, hk⟩

/-- Channels of which none is `c` leave its output state as they are released. -/
theorem outState_releaseTurns {l : List Nat} (hl : c ∉ l) (s : State) : (s.does (forAll l releaseTurn)).outState c = s.outState c := by
  have hall : Phase.Within (l.flatMap releaseKeys) Units.groups (forAll l releaseTurn) :=
    Phase.within_forAll fun i hi => (releaseTurn_within i).mono fun _ hk => List.mem_flatMap.2 ⟨i, hi, hk⟩
  refine (hall.frame s).nat fun hk => ?_
  obtain ⟨i, hi, hki⟩ := List.mem_flatMap.1 hk
  have hne : i ≠ c := fun h => hl (h ▸ hi)
  simp only [releaseKeys, List.mem_cons, List.not_mem_nil, or_false, Key.pw.OUT_STATE, Key.prot.PROBE_NEXT, Key.pw.SEQ_PHASE,
    Key.pw.RESTART_GAIN, Key.evt.EVT_RAISED] at hki
  omega

/-- Every bridge of a group is released (R291, R293, R294). -/
theorem released_groupRelease (hg : g < 4) (hc : c ∈ groupChans g) (s : State) : (s.does (groupRelease g)).released c = true := by
  obtain ⟨before, after, -, -, hafter, hturns⟩ := State.does_forAll_of_mem hc (nodup_groupChans g) releaseTurn s
  rw [groupRelease_eq, hturns, State.released, outState_releaseTurns hafter]
  exact released_releaseTurn (lt_of_mem_groupChans hg hc) _

/-! ### A state that begins and releases the group -/

/-- What besides its count tells of a state that begins: the lifetime counters and the events (R291, R293, R294). -/
def tripNoteKeys : List Nat := [Key.life.LT_BUS_OV, Key.life.LT_UVLO, Key.evt.EVT_RAISED]

/-- A state of a group begins in hardware (R291, R293, R294): it is marked, the bridges are released, the state is shown, counted and
reported. -/
def groupTrip (g : Nat) (f : Group → Group) (count : Nat) (notes : List Effect) : Phase :=
  phases [always [.group g f], groupRelease g, groupShow g, always (.bump count 1 :: notes)]

theorem width_groupCounts : ∀ g < 4, ∀ k ∈ [Key.pg.OV_COUNT g, Key.pg.UV_COUNT g, Key.pg.STARVE_COUNT g, Key.pg.UVLO_COUNT g],
    Dict.width k = some (32, false) := by decide +kernel

theorem groupCounts_apart : ∀ g < 4, ∀ k ∈ [Key.pg.OV_COUNT g, Key.pg.UV_COUNT g, Key.pg.STARVE_COUNT g, Key.pg.UVLO_COUNT g],
    k ∉ Key.pg.GROUP_STATE g :: groupReleaseKeys g ∧ k ∉ tripNoteKeys ∧ ∀ c ∈ groupChans g, Key.pw.OUT_STATE c ≠ k := by
  decide +kernel

theorem outState_notMem_tripKeys (hg : g < 4) (hc : c ∈ groupChans g) :
    Key.pw.OUT_STATE c ∉ [Key.pg.GROUP_STATE g] ∧ Key.pw.OUT_STATE c ∉ tripNoteKeys := by
  have hlt := lt_of_mem_groupChans hg hc
  simp only [tripNoteKeys, List.mem_cons, List.not_mem_nil, or_false, Key.pw.OUT_STATE, Key.pg.GROUP_STATE, Key.life.LT_BUS_OV,
    Key.life.LT_UVLO, Key.evt.EVT_RAISED]
  omega

/-- What a state that begins leaves: itself, its count one higher, and every bridge of the group released. -/
theorem groupTrip_leaves (hg : g < 4) (f : Group → Group) {count : Nat} {notes : List Effect}
    (hcount : count ∈ [Key.pg.OV_COUNT g, Key.pg.UV_COUNT g, Key.pg.STARVE_COUNT g, Key.pg.UVLO_COUNT g])
    (hnotes : Confined tripNoteKeys Units.groups notes) (s : State) :
    let t := s.does (groupTrip g f count notes)
    t.group g = f (s.group g) ∧ t.num count = (s.num count + 1) % 2 ^ 32 ∧ (∀ c ∈ groupChans g, t.released c = true) ∧
      t.mode = s.mode ∧ t.store = s.store := by
  obtain ⟨hshut, hnoted, houts⟩ := groupCounts_apart g hg count hcount
  have hdoes : s.does (groupTrip g f count notes) = ((((s.apply (.group g f)).does (groupRelease g)).does (groupShow g)).apply
      (.bump count 1)).run notes := by
    rw [groupTrip, State.does_phases_cons, State.does_phases_cons, State.does_phases_cons, State.does_phases_cons,
      State.does_phases_nil, State.does_always, State.does_always, State.run_cons, State.run_cons, State.run_nil]
  have hshow := groupShow_within (π := Units.groups) g
  have hcounted : Confined (count :: tripNoteKeys) Units.groups (.bump count 1 :: notes) :=
    confined_cons.2 ⟨by simp, hnotes.mono (List.subset_cons_self ..)⟩
  have hrelease : (s.apply (.group g f)).Frame (Key.pg.GROUP_STATE g :: groupReleaseKeys g)
      (((s.apply (.group g f)).does (groupRelease g)).does (groupShow g)) :=
    (((groupRelease_within g).frame _).mono (List.subset_cons_self ..)).trans ((hshow.frame _).mono (by simp))
  have hmark := group_frame s g f
  have hkeep := hcounted.frame (((s.apply (.group g f)).does (groupRelease g)).does (groupShow g))
  rw [hdoes]
  refine ⟨?_, ?_, fun c hc => ?_, hkeep.mode.trans (hrelease.mode.trans hmark.mode),
    hkeep.store.trans (hrelease.store.trans hmark.store)⟩
  · have hcounts := hcounted.group (((s.apply (.group g f)).does (groupRelease g)).does (groupShow g)) g
    rw [State.run_cons] at hcounts
    rw [hcounts, hshow.group, (groupRelease_within g).group, s.group_apply_group_same]
  · rw [(hnotes.frame _).num hnoted, State.num_bump _ (width_groupCounts g hg count hcount), hrelease.num hshut,
      hmark.num List.not_mem_nil]
  · obtain ⟨houtShow, houtNotes⟩ := outState_notMem_tripKeys hg hc
    have hout : Key.pw.OUT_STATE c ∉ count :: tripNoteKeys := fun h => by
      obtain h | h := List.mem_cons.1 h
      · exact houts c hc h
      · exact houtNotes h
    have hstands := (hkeep.nat hout).trans ((hshow.frame _).nat houtShow)
    rw [State.run_cons] at hstands
    rw [State.released, State.outState, hstands]
    exact released_groupRelease hg hc _

/-- Bus overvoltage above 66 V is such a state, where it does not stand or its end has begun (R291). -/
theorem does_busOvervoltage {mv : Nat} (hmv : 66000 < mv) (hnew : (s.group g).ov = false ∨ (s.group g).back.testBit 0 = true) :
    s.does (busOvervoltage g mv) = s.does (groupTrip g (fun x => { x with ov := true, back := clearBits x.back 1 })
      (Key.pg.OV_COUNT g) [.bump Key.life.LT_BUS_OV 1, .event Ev.BUS_OV (args16 [g] ++ le 4 mv)]) := by
  have hstands : ¬ (mv ≤ 66000 ∨ ((s.group g).ov ∧ !(s.group g).back.testBit 0)) := by
    obtain h | h := hnew <;> simp [h, hmv]
  rw [State.does, busOvervoltage, if_neg hstands]
  rfl

/-- Starvation is one (R293). -/
theorem does_starve (hnew : (s.group g).starved = false ∨ (s.group g).back.testBit 1 = true) :
    s.does (starve g) = s.does (groupTrip g (fun x => { x with starved := true, back := clearBits x.back 2 })
      (Key.pg.STARVE_COUNT g) [.event Ev.STARVATION (args16 [g])]) := by
  have hstands : ¬ ((s.group g).starved ∧ !(s.group g).back.testBit 1) := by
    obtain h | h := hnew <;> simp [h]
  rw [State.does, starve, if_neg hstands]
  rfl

/-- VAUX below 9.8 V is one (R294). -/
theorem does_vauxLow {mv : Nat} (hmv : mv < 9800) (hnew : (s.group g).uvlo = false ∨ (s.group g).vauxOk.isSome = true) :
    s.does (vauxLow g mv) = s.does (groupTrip g (fun x => { x with uvlo := true, vauxOk := none, vauxUp := false })
      (Key.pg.UVLO_COUNT g) [.bump Key.life.LT_UVLO 1, .event Ev.VAUX_UVLO (args16 [g])]) := by
  have hstands : ¬ ((s.group g).uvlo ∧ (s.group g).vauxOk.isNone) := by
    obtain h | h := hnew
    · simp [h]
    · simp [Option.isSome_iff_ne_none.1 h]
  rw [State.does, vauxLow, if_neg (by omega), if_neg hstands]
  rfl

/-! ### The mute -/

/-- The mute of one channel (R292). -/
def muteTurn (c : Nat) : Phase := phases [holdDown c, always [.chan c fun x => { x with uvHeld := true }]]

/-- A hold changes the sequence of its channel alone (R292). -/
theorem holdDown_within {π : Units → α} (hc : ∀ u f, π (Units.onChan u c f) = π u) (hz : ∀ u l, π (Units.withZc u l) = π u) :
    Phase.Within [Key.pw.SEQ_PHASE c] π (holdDown c) := by
  intro s
  unfold holdDown chainDown
  split_ifs <;> simp [hc, hz]

theorem muteTurn_within {π : Units → α} (hc : ∀ u f, π (Units.onChan u c f) = π u) (hz : ∀ u l, π (Units.withZc u l) = π u) :
    Phase.Within [Key.pw.SEQ_PHASE c] π (muteTurn c) :=
  Phase.within_phases (by simp [holdDown_within hc hz, hc])

theorem uvHeld_muteTurn (s : State) (c : Nat) : ((s.does (muteTurn c)).chan c).uvHeld = true := by
  rw [muteTurn, State.does_phases_cons, State.does_phases_cons, State.does_phases_nil, State.does_always, State.run_cons,
    State.run_nil, State.chan_apply_chan_self]

/-- What the mute of a group writes. -/
def groupMuteKeys (g : Nat) : List Nat := (groupChans g).map Key.pw.SEQ_PHASE

theorem muteTurns_within {π : Units → α} {l : List Nat} (hc : ∀ i ∈ l, ∀ u f, π (Units.onChan u i f) = π u)
    (hz : ∀ u l, π (Units.withZc u l) = π u) : Phase.Within (l.map Key.pw.SEQ_PHASE) π (forAll l muteTurn) :=
  Phase.within_forAll fun i hi => (muteTurn_within (hc i hi) hz).mono (by simpa using ⟨i, hi, rfl⟩)

/-- Every channel of a group that mutes is held (R292). -/
theorem uvHeld_muteTurns (hc : c ∈ groupChans g) (s : State) : ((s.does (forAll (groupChans g) muteTurn)).chan c).uvHeld = true := by
  obtain ⟨before, after, -, -, hafter, hturns⟩ := State.does_forAll_of_mem hc (nodup_groupChans g) muteTurn s
  have hlater := muteTurns_within (π := Units.chanAt c) (fun i hi => Units.chanAt_onChan_of_ne fun h => hafter (h ▸ hi)) fun _ _ => rfl
  rw [hturns, hlater.chan]
  exact uvHeld_muteTurn _ c

/-- A group that undervoltage mutes, and one that it no longer mutes (R292). -/
def Group.uvMuted (x : Group) : Group := { x with uv := true, uvOk := none }
def Group.uvRestored (x : Group) : Group := { x with uv := false, uvOk := none }

/-- A mute marks the group, holds its channels, and is shown, counted and reported (R292). -/
theorem does_busUvMute (huv : (s.group g).uv = false) (hlow : (s.group g).vMean < 22) : ∃ a, s.does (busUvMute g) =
    ((((s.apply (.group g Group.uvMuted)).does (forAll (groupChans g) muteTurn)).does (groupShow g)).apply
      (.bump (Key.pg.UV_COUNT g) 1)).apply (.event Ev.BUS_UV_MUTE a) := by
  refine ⟨args16 [g] ++ le 4 (s.num (Key.pg.VBUS_NOW g)), ?_⟩
  rw [State.does, busUvMute, if_neg (by simp [huv, hlow])]
  refine (State.does_phases_cons s _ _).trans ?_
  rw [State.does_phases_cons, State.does_phases_cons, State.does_phases_cons, State.does_phases_nil, State.does_always,
    State.does_always]
  rfl

/-- What the mute leaves (R292). -/
theorem busUvMute_leaves (hg : g < 4) (huv : (s.group g).uv = false) (hlow : (s.group g).vMean < 22) :
    let t := s.does (busUvMute g)
    (t.group g).uv = true ∧ (∀ c ∈ groupChans g, (t.chan c).uvHeld = true) ∧
      t.num (Key.pg.UV_COUNT g) = (s.num (Key.pg.UV_COUNT g) + 1) % 2 ^ 32 ∧ t.mode = s.mode ∧ t.store = s.store := by
  obtain ⟨a, hdoes⟩ := does_busUvMute huv hlow
  have hcount : ∀ g < 4, Key.pg.UV_COUNT g ∉ [Key.evt.EVT_RAISED] ∧ Key.pg.UV_COUNT g ∉ Key.pg.GROUP_STATE g :: groupMuteKeys g := by
    decide
  obtain ⟨hevent, hmute⟩ := hcount g hg
  have hturns : Phase.Within (groupMuteKeys g) Units.groups (forAll (groupChans g) muteTurn) :=
    muteTurns_within (fun _ _ _ _ => rfl) fun _ _ => rfl
  have hshow {β : Type} (π : Units → β) := groupShow_within (π := π) g
  have hnotes {β : Type} (π : Units → β) : Confined [Key.pg.UV_COUNT g, Key.evt.EVT_RAISED] π
      [.bump (Key.pg.UV_COUNT g) 1, .event Ev.BUS_UV_MUTE a] := by simp
  have hraised : Effect.Within [Key.evt.EVT_RAISED] Units.groups (.event Ev.BUS_UV_MUTE a) := by simp
  obtain ⟨u, hu⟩ : ∃ u, u = s.apply (.group g Group.uvMuted) := ⟨_, rfl⟩
  have hmark : s.Frame [] u := hu ▸ group_frame s g _
  have hkeep : u.Frame (Key.pg.GROUP_STATE g :: groupMuteKeys g) ((u.does (forAll (groupChans g) muteTurn)).does (groupShow g)) :=
    ((hturns.frame u).mono (List.subset_cons_self ..)).trans (((hshow Units.groups).frame _).mono (by simp))
  have hnoted := (hnotes Units.groups).frame ((u.does (forAll (groupChans g) muteTurn)).does (groupShow g))
  have hgroup : (s.does (busUvMute g)).group g = (s.group g).uvMuted :=
    calc (s.does (busUvMute g)).group g
      _ = ((u.does (forAll (groupChans g) muteTurn)).does (groupShow g)).group g := by
        rw [hdoes, ← hu]; exact (hnotes Units.groups).group _ g
      _ = u.group g := ((hshow Units.groups).group _ g).trans (hturns.group u g)
      _ = _ := by rw [hu, s.group_apply_group_same]
  have hchan (c : Nat) : (s.does (busUvMute g)).chan c = (u.does (forAll (groupChans g) muteTurn)).chan c := by
    rw [hdoes, ← hu]
    exact ((hnotes (Units.chanAt c)).chan _).trans ((hshow (Units.chanAt c)).chan _)
  refine ⟨congrArg Group.uv hgroup, fun c hc => (congrArg Chan.uvHeld (hchan c)).trans (uvHeld_muteTurns hc u), ?_⟩
  rw [hdoes, ← hu]
  refine ⟨?_, hnoted.mode.trans (hkeep.mode.trans hmark.mode), hnoted.store.trans (hkeep.store.trans hmark.store)⟩
  rw [(hraised.frame _).num hevent, State.num_bump _ (width_groupCounts g hg _ (by simp)), hkeep.num hmute, hmark.num List.not_mem_nil]

/-! ### The starts of a group that is NORMAL again -/

/-- What the start of a channel writes (R280). -/
def startKeys (c : Nat) : List Nat := [Key.pw.SEQ_PHASE c, Key.pw.OUT_STATE c, Key.evt.EVT_RAISED]

/-- What the units hold of a channel's hold by undervoltage (R292). -/
def Units.uvHeldAt (c : Nat) (u : Units) : Bool := (u.chanAt c).uvHeld

/-- A part of the units that a start leaves: it sees no change of a channel that keeps the hold. -/
def StartBlind (π : Units → α) : Prop :=
  ∀ (u : Units) (i : Nat) (f : Chan → Chan), (∀ x, (f x).uvHeld = x.uvHeld) → π (u.onChan i f) = π u

theorem startBlind_uvHeldAt (c : Nat) : StartBlind (Units.uvHeldAt c) := fun u i f hf => by
  have hat : (u.onChan i f).chanAt c = if i = c then f (u.chanAt i) else u.chanAt c := Tbl.at_upd ..
  rw [Units.uvHeldAt, hat]
  split
  case isTrue h => rw [hf, h, Units.uvHeldAt]
  case isFalse => rfl

section Starts
variable {π : Units → α} (h : StartBlind π)
include h

theorem startBegin_within (c : Nat) : Phase.Within (startKeys c) π (startBegin c) := by
  have hout : Phase.Within (startKeys c) π (setOut c 1) := (setOut_within c 1).mono (by simp [fadeKeys, startKeys])
  intro s
  unfold startBegin
  split
  · refine Phase.within_phases ?_ s
    simp only [List.forall_mem_cons, Phase.within_always, confined_cons, Effect.within_num, Effect.within_chan]
    exact ⟨hout, ⟨by simp [startKeys], fun u => h u c _ fun _ => rfl, .nil⟩, by simp⟩
  · exact .nil

theorem startDue_within (c : Nat) : Phase.Within (startKeys c) π (startDue c) := by
  intro s
  unfold startDue
  split
  · exact startBegin_within h c s
  · simp only [confined_cons, Effect.within_chan]
    exact ⟨fun u => h u c _ fun _ => rfl, .nil⟩

/-- What the starts of a group write. -/
theorem groupStarts_within (g : Nat) : Phase.Within ((groupChans g).flatMap startKeys) π (groupStarts g) := by
  have hturn (c : Nat) : Phase.Within (startKeys c) π (phases [whenP (fun s => s.passed (s.chan c).probeAt 0)
      (always [.chan c fun x => { x with probeWaits := true }]), startDue c]) := by
    have hwait : Phase.Within (startKeys c) π (whenP (fun s => s.passed (s.chan c).probeAt 0)
        (always [.chan c fun x => { x with probeWaits := true }])) := fun s => by
      simp only [whenP, always, confined_ite, confined_cons, Effect.within_chan]
      exact ⟨fun _ => ⟨fun u => h u c _ fun _ => rfl, .nil⟩, fun _ => .nil⟩
    exact Phase.within_phases (by simp [hwait, startDue_within h])
  intro s
  unfold groupStarts whenP
  split
  · exact Phase.within_forAll (fun c hc => (hturn c).mono fun _ hk => List.mem_flatMap.2 ⟨c, hc, hk⟩) s
  · exact .nil

end Starts

/-- A channel that undervoltage no longer holds (R292). -/
def Chan.uvFree (x : Chan) : Chan := { x with uvHeld := false }

/-- The hold of every channel of a list ends. -/
theorem uvHeld_run_uvFree (l : List Nat) (s : State) (hc : c ∈ l ∨ (s.chan c).uvHeld = false) :
    ((s.run (l.map fun i => .chan i Chan.uvFree)).chan c).uvHeld = false := by
  induction l generalizing s with
  | nil => exact hc.resolve_left List.not_mem_nil
  | cons i l ih =>
    rw [List.map_cons, State.run_cons]
    refine ih _ ?_
    rw [State.chan_apply_chan]
    split
    case isTrue => exact .inr rfl
    case isFalse hne => exact hc.imp_left fun h => (List.mem_cons.1 h).resolve_left (Ne.symm hne)

/-- The end of the mute frees the channels, and starts them where the group is NORMAL (R283, R292). -/
theorem does_busUvRestore (huv : (s.group g).uv = true) (hok : s.passed (s.group g).uvOk 100000000 = true) : s.does (busUvRestore g) =
    (((((s.apply (.group g Group.uvRestored)).run ((groupChans g).map fun c => .chan c Chan.uvFree)).does
      (groupShow g)).apply (.event Ev.BUS_UV_CLEARED (args16 [g]))).does (groupStarts g)) := by
  rw [State.does, busUvRestore, if_pos (by simp [huv, hok])]
  refine (State.does_phases_cons s _ _).trans ?_
  rw [State.does_phases_cons, State.does_phases_cons, State.does_phases_cons, State.does_phases_cons, State.does_phases_nil,
    State.does_always, State.does_always, State.does_always]
  rfl

/-- What the end of the mute leaves (R292). -/
theorem busUvRestore_leaves (huv : (s.group g).uv = true) (hok : s.passed (s.group g).uvOk 100000000 = true) :
    let t := s.does (busUvRestore g)
    (t.group g).uv = false ∧ (∀ c ∈ groupChans g, (t.chan c).uvHeld = false) ∧ t.mode = s.mode ∧ t.store = s.store := by
  obtain ⟨u, hu⟩ : ∃ u, u = (s.apply (.group g Group.uvRestored)).run ((groupChans g).map fun c => .chan c Chan.uvFree) := ⟨_, rfl⟩
  have hfree : Confined [] Units.groups ((groupChans g).map fun c => .chan c Chan.uvFree) := by simp [Units.onChan]
  have hu_group : u.group g = (s.group g).uvRestored := by rw [hu, hfree.group, s.group_apply_group_same]
  have hu_frame : s.Frame [] u := hu ▸ (group_frame s g _).trans (hfree.frame _)
  have hshow {β : Type} (π : Units → β) := groupShow_within (π := π) g
  have hevent {β : Type} (π : Units → β) : Confined [Key.evt.EVT_RAISED] π [.event Ev.BUS_UV_CLEARED (args16 [g])] := by simp
  have hstarts : Phase.Within ((groupChans g).flatMap startKeys) Units.groups (groupStarts g) :=
    groupStarts_within (fun _ _ _ _ => rfl) g
  obtain ⟨v, hv⟩ : ∃ v, v = (u.does (groupShow g)).apply (.event Ev.BUS_UV_CLEARED (args16 [g])) := ⟨_, rfl⟩
  have hshown : u.Frame [Key.pg.GROUP_STATE g, Key.evt.EVT_RAISED] v := hv ▸
    (((hshow Units.groups).frame u).mono (by simp)).trans (((hevent Units.groups).frame _).mono (by simp))
  have hv_group : v.group g = u.group g := hv ▸ ((hevent Units.groups).group _ g).trans ((hshow Units.groups).group u g)
  have hv_chan (c : Nat) : v.chan c = u.chan c := hv ▸ ((hevent (Units.chanAt c)).chan _).trans ((hshow (Units.chanAt c)).chan u)
  have hfinal := hstarts.frame v
  rw [does_busUvRestore huv hok, ← hu, ← hv]
  refine ⟨?_, fun c hc => ?_, hfinal.mode.trans (hshown.mode.trans hu_frame.mode),
    hfinal.store.trans (hshown.store.trans hu_frame.store)⟩
  · rw [hstarts.group, hv_group, hu_group]
    rfl
  · refine ((groupStarts_within (startBlind_uvHeldAt c) g).units (fun _ _ _ _ _ _ => rfl) v).trans ?_
    refine (congrArg Chan.uvHeld (hv_chan c)).trans ?_
    rw [hu]
    exact uvHeld_run_uvFree _ _ (.inl hc)

/-! ### Returns that begin, and states that already stand -/

/-- The comparator re-arms below 62 V: the end of the overvoltage begins (R291). -/
theorem busOvRearm_leaves {mv : Nat} (hmv : mv < 62000) (hov : (s.group g).ov = true) (hback : (s.group g).back.testBit 0 = false) :
    let t := s.does (busOvRearm g mv)
    (t.group g).back.testBit 0 = true ∧ s.Frame [Key.evt.EVT_RAISED] t := by
  have hevent : Confined [Key.evt.EVT_RAISED] Units.groups [.event Ev.BUS_OV_CLEARED (args16 [g])] := by simp
  have hdoes : s.does (busOvRearm g mv) = (s.apply (.group g fun x => { x with back := x.back ||| 1 })).run
      [.event Ev.BUS_OV_CLEARED (args16 [g])] := by
    rw [State.does, busOvRearm, if_neg (by simp [hov, hback, hmv]), State.run_cons]
  rw [hdoes]
  refine ⟨?_, ((group_frame s g _).mono (List.nil_subset _)).trans (hevent.frame _)⟩
  rw [hevent.group, s.group_apply_group_same, Nat.testBit_or]
  simp

/-- 1 ms of edge commands begins the end of a starvation (R293). -/
theorem starveRecover_leaves (hstarved : (s.group g).starved = true) :
    let t := s.does (starveRecover g)
    (t.group g).back.testBit 1 = true ∧ s.Frame [] t := by
  rw [State.does, starveRecover, if_pos hstarved, State.run_cons, State.run_nil]
  refine ⟨?_, group_frame s g _⟩
  rw [s.group_apply_group_same, Nat.testBit_or]
  simp [Nat.testBit]

/-- VAUX above 10.5 V re-enables the gate drivers, and the 10 ms to NORMAL begin (R294). -/
theorem vauxOk_leaves {mv : Nat} (hmv : 10500 < mv) (huvlo : (s.group g).uvlo = true) (hlow : (s.group g).vauxOk = none) :
    let t := s.does (vauxOk g mv)
    (t.group g).vauxOk = some s.mtbNs ∧ s.Frame [] t := by
  rw [State.does, vauxOk, if_neg (by omega), State.run_cons, State.run_nil]
  refine ⟨?_, group_frame s g _⟩
  rw [s.group_apply_group_same]
  simp [huvlo, hlow]

/-- An overvoltage that stands is not counted again (R291). -/
theorem busOvervoltage_stands (hov : (s.group g).ov = true) (hback : (s.group g).back.testBit 0 = false) (mv : Nat) :
    busOvervoltage g mv s = [] := if_pos (.inr (by simp [hov, hback]))

/-- Nor is a mute (R292). -/
theorem busUvMute_stands (huv : (s.group g).uv = true) : busUvMute g s = [] := if_pos (by simp [huv])

/-- Nor a starvation (R293). -/
theorem starve_stands (hstarved : (s.group g).starved = true) (hback : (s.group g).back.testBit 1 = false) : starve g s = [] :=
  if_pos (by simp [hstarved, hback])

/-- Nor an undervoltage of VAUX (R294). -/
theorem vauxLow_stands (huvlo : (s.group g).uvlo = true) (hlow : (s.group g).vauxOk = none) (mv : Nat) : vauxLow g mv s = [] := by
  simp [vauxLow, huvlo, hlow]

/-! ### The obligation -/

/-- Settles O43: overvoltage, starvation and VAUX are one sequence, `groupTrip`, which releases the channels of the group in turn; the
mute holds each channel in turn; the starts that end it keep no channel held. -/
theorem supplyGroupsAreProtected : Obligations.SupplyGroupsAreProtected := by
  intro s g
  have hg := g.isLt
  have hidle {p : Phase} (h : p s = []) : s.goes p = .next s := congrArg (fun es => Host.Outcome.next (s.run es)) h
  refine ⟨fun mv hmv hnew => ?_, fun mv hmv hov hback => ⟨_, rfl, busOvRearm_leaves hmv hov hback⟩,
    fun huv hlow => ⟨_, rfl, busUvMute_leaves hg huv hlow⟩, fun huv hok => ⟨_, rfl, busUvRestore_leaves huv hok⟩, fun hnew => ?_,
    fun hstarved => ⟨_, rfl, starveRecover_leaves hstarved⟩, fun mv hmv hnew => ?_,
    fun mv hmv huvlo hlow => ⟨_, rfl, vauxOk_leaves hmv huvlo hlow⟩,
    fun mv hov hback => hidle (busOvervoltage_stands hov hback mv), fun huv => hidle (busUvMute_stands huv),
    fun hstarved hback => hidle (starve_stands hstarved hback), fun mv huvlo hlow => hidle (vauxLow_stands huvlo hlow mv)⟩
  · refine ⟨s.does (busOvervoltage g mv), rfl, ?_⟩
    rw [does_busOvervoltage hmv hnew]
    exact (groupTrip_leaves hg _ (by simp) (by simp [tripNoteKeys]) s).imp_left (congrArg Group.ov)
  · refine ⟨s.does (starve g), rfl, ?_⟩
    rw [does_starve hnew]
    exact (groupTrip_leaves hg _ (by simp) (by simp [tripNoteKeys]) s).imp_left (congrArg Group.starved)
  · refine ⟨s.does (vauxLow g mv), rfl, ?_⟩
    rw [does_vauxLow hmv hnew]
    exact (groupTrip_leaves hg _ (by simp) (by simp [tripNoteKeys]) s).imp_left (congrArg Group.uvlo)

end Sys2Proof.Machine
end

section
/-!
A write that a test of R397 refuses, and MEAS_P_MAX (R307), which only ENGINEER and SERVICE write.
-/

namespace Sys2Proof.Machine

/-! ### The first test that fails -/

/-- A status other than OK is that of a test that fails (R397). -/
theorem firstFault_mem {l : List Nat} (h : firstFault l ≠ St.ok) : firstFault l ∈ l := by
  unfold firstFault at h ⊢
  cases hf : testOrder.find? fun st => l.contains st with
  | none => exact absurd (congrArg (Option.getD · St.ok) hf) h
  | some st => simpa using List.find?_some hf

/-- Of the tests on an entry that exists, that of the role is the first (R397, R401). -/
theorem firstFault_accessRole {l : List Nat} (hrole : St.accessRole ∈ l) (hentry : St.noEntry ∉ l) (hsub : St.noSubindex ∉ l) :
    firstFault l = St.accessRole := by
  simp [firstFault, testOrder, hrole, hentry, hsub]

/-! ### A refused write -/

/-- A refused write of an entry that no transaction holds is answered, and does nothing else (R397, R430). -/
theorem does_writeEntry_of_refused {s : State} {w : EntryWrite} {k : Nat} {given : Option Ty} {r : Row} (hserves : s.serves = true)
    (hr : Dict.row k = some r) (hacc : r.acc ≠ .rws) (hst : s.writeStatus w.writer k given w.value ≠ St.ok) :
    s.does (writeEntry k given w) =
      s.apply (.unit fun u => { u with answer := (s.writeStatus w.writer k given w.value, 0) }) := by
  have hreply : s.writeReply w.writer k given w.value = (s.writeStatus w.writer k given w.value, 0) := by
    rw [State.writeReply]
    exact if_pos hst
  have hdo : s.does (writeDo w.writer k given w.value) = s := by
    rw [State.does, writeDo, if_neg hst, writeRefused, if_neg (by simp [hr, hacc])]
    rfl
  have hsteps : s.does (writeEntry k given w) = s.run (writeEntry k given w s) := rfl
  rw [hsteps, writeEntry, hserves, hreply]
  refine Eq.trans (State.does_phases_cons s _ _) ?_
  rw [hdo, State.does_phases_cons, State.does_phases_nil]
  rfl

/-! ### MEAS_P_MAX -/

/-- The row of MEAS_P_MAX (Table 10-8). -/
def measPMaxRow : Row := ⟨0x9000, 1, 2, 1, 1, .u32, .rw, true, .num 10000, [(100, 75000)], .block true⟩

theorem row_measPMax : Dict.row Key.meas.MEAS_P_MAX = some measPMaxRow := by decide +kernel

/-- MEAS_P_MAX lies outside the areas of an OPERATOR (R307, R401). -/
theorem roleMayWrite_measPMax (role : Nat) : roleMayWrite role (Key.meas.MEAS_P_MAX / 256) measPMaxRow.acc = decide (2 ≤ role) := by
  match role with
  | 0 | 1 | 2 => decide
  | n + 3 => exact (decide_eq_true (show 2 ≤ n + 3 by omega)).symm

section Tests
variable (s : State) (w : Writer) (v : Value)

theorem headFaults_measPMax : s.headFaults w Key.meas.MEAS_P_MAX (some .u32) v =
    bad (!decide (2 ≤ w.role)) St.accessRole ++ bad (s.areaOwned w.session Key.meas.MEAS_P_MAX) St.areaOwned ++
      bad (!measPMaxRow.inRange v) St.range := by
  have hwritable : measPMaxRow.readOnly Key.meas.MEAS_P_MAX = false := by decide
  simp only [State.headFaults, row_measPMax, roleMayWrite_measPMax, hwritable]
  simp [bad, typeMatches, measPMaxRow]

/-- No chapter tests a write of MEAS_P_MAX further. -/
theorem ownFaults_measPMax (new : State) (touched : Nat → Bool) (effect : Nat) :
    s.ownFaults new touched w effect Key.meas.MEAS_P_MAX v true = [] := by
  simp only [State.ownFaults, row_measPMax]
  simp [measPMaxRow, Key.meas.MEAS_P_MAX, bad]

/-- A role below ENGINEER is refused (R307). -/
theorem writeStatus_measPMax_of_low (hrole : w.role < 2) :
    s.writeStatus w Key.meas.MEAS_P_MAX (some .u32) v = St.accessRole := by
  have hfirst : firstFault (s.headFaults w Key.meas.MEAS_P_MAX (some .u32) v) = St.accessRole := by
    rw [headFaults_measPMax]
    refine firstFault_accessRole (by simp [bad, hrole]) ?_ ?_ <;> simp [bad, St.noEntry, St.noSubindex, St.accessRole, St.areaOwned, St.range]
  rw [State.writeStatus, hfirst]
  rfl

/-- ENGINEER and SERVICE pass the test of the role, the only one with its status. -/
theorem writeStatus_measPMax_of_high (hrole : 2 ≤ w.role) :
    s.writeStatus w Key.meas.MEAS_P_MAX (some .u32) v ≠ St.accessRole := by
  have hhead : St.accessRole ∉ s.headFaults w Key.meas.MEAS_P_MAX (some .u32) v := by
    rw [headFaults_measPMax]
    simp [bad, hrole, St.accessRole, St.areaOwned, St.range]
  have hne {l : List Nat} (hl : St.accessRole ∉ l) : firstFault l ≠ St.accessRole := fun h =>
    hl (h ▸ firstFault_mem (by rw [h]; decide))
  simp only [State.writeStatus, row_measPMax, ownFaults_measPMax]
  split
  · exact hne hhead
  · exact hne (by simp [bad, St.accessRole, St.loopClosed])

end Tests

/-- Settles O18: the test of the role comes before every other that a write of MEAS_P_MAX can fail, and no other has its status. -/
theorem measurementPowerNeedsARole : Obligations.MeasurementPowerNeedsARole := by
  intro s w hserves _
  refine ⟨fun hlow => ?_, writeStatus_measPMax_of_high s w.writer w.value⟩
  have hst := writeStatus_measPMax_of_low s w.writer w.value hlow
  have hdoes := does_writeEntry_of_refused (w := w) (given := some .u32) hserves row_measPMax (by decide) (by rw [hst]; decide)
  rw [hst] at hdoes
  exact ⟨s.does (writeEntry Key.meas.MEAS_P_MAX (some .u32) w), rfl, by rw [hdoes]; rfl, hdoes ▸ answer_frame s _⟩

end Sys2Proof.Machine
end

section
/-!
Requests of the dictionary protocol (R404-R407): what carrying out a request that is heard leaves beside the request's own
effects, and the response that the session keeps.
-/

namespace Sys2Proof.Machine

variable {α : Type}

/-! ### Units that messages and operations change -/

def Units.onSession (u : Units) (i : Nat) (f : Option Session → Option Session) : Units :=
  { u with sessions := u.sessions.upd none i f }
def Units.onHandle (u : Units) (i : Nat) (f : Option Handle → Option Handle) : Units :=
  { u with handles := u.handles.upd none i f }
def Units.onCan (u : Units) (f : Can → Can) : Units := { u with can := f u.can }

section Leaves
variable (u : Units) (i : Nat)

@[simp] theorem Units.onMgmt_sessions (f : Mgmt → Mgmt) : (u.onMgmt f).sessions = u.sessions := rfl
@[simp] theorem Units.onMgmt_handles (f : Mgmt → Mgmt) : (u.onMgmt f).handles = u.handles := rfl
@[simp] theorem Units.onMgmt_anchor (f : Mgmt → Mgmt) : (u.onMgmt f).anchor = u.anchor := rfl
@[simp] theorem Units.onGen_sessions (f : Gen → Gen) : (u.onGen i f).sessions = u.sessions := rfl
@[simp] theorem Units.onGen_handles (f : Gen → Gen) : (u.onGen i f).handles = u.handles := rfl
@[simp] theorem Units.onGen_anchor (f : Gen → Gen) : (u.onGen i f).anchor = u.anchor := rfl
@[simp] theorem Units.onChan_sessions (f : Chan → Chan) : (u.onChan i f).sessions = u.sessions := rfl
@[simp] theorem Units.onChan_handles (f : Chan → Chan) : (u.onChan i f).handles = u.handles := rfl
@[simp] theorem Units.onChan_anchor (f : Chan → Chan) : (u.onChan i f).anchor = u.anchor := rfl
@[simp] theorem Units.onSlot_handles (f : Slot → Slot) : (u.onSlot i f).handles = u.handles := rfl
@[simp] theorem Units.onHandle_sessions (f : Option Handle → Option Handle) : (u.onHandle i f).sessions = u.sessions := rfl
@[simp] theorem Units.onHandle_anchor (f : Option Handle → Option Handle) : (u.onHandle i f).anchor = u.anchor := rfl

end Leaves

section Named
variable {ks : List Nat} {π : Units → α} {i : Nat}

@[simp] theorem Effect.within_session {f : Option Session → Option Session} :
    (Effect.session i f).Within ks π ↔ ∀ u : Units, π (u.onSession i f) = π u := .rfl
@[simp] theorem Effect.within_handle {f : Option Handle → Option Handle} :
    (Effect.handle i f).Within ks π ↔ ∀ u : Units, π (u.onHandle i f) = π u := .rfl
@[simp] theorem Effect.within_can {f : Can → Can} :
    (Effect.can f).Within ks π ↔ ∀ u : Units, π (u.onCan f) = π u := .rfl

end Named

@[simp] theorem State.handle_apply_handle (s : State) (i j : Nat) (f : Option Handle → Option Handle) :
    (s.apply (.handle i f)).handle j = if i = j then f (s.handle i) else s.handle j := Tbl.at_upd ..

@[simp] theorem State.session_apply_session (s : State) (i j : Nat) (f : Option Session → Option Session) :
    (s.apply (.session i f)).session j = if i = j then f (s.session i) else s.session j := Tbl.at_upd ..

/-! ### Who has caused an event makes no difference to the units -/

/-- What the effect makes of a part of the units depends on that part alone. -/
def Effect.Local (π : Units → α) : Effect → Prop
  | .unit f => ∀ u v : Units, π u = π v → π (f u) = π (f v)
  | _ => True

theorem Effect.Within.local {ks : List Nat} {π : Units → α} {e : Effect} (h : e.Within ks π) : e.Local π := by
  cases e with
  | unit f => exact fun u v huv => (h u).trans (huv.trans (h v).symm)
  | _ => trivial

theorem Confined.local {ks : List Nat} {π : Units → α} {es : List Effect} (h : Confined ks π es) : ∀ e ∈ es, e.Local π :=
  fun e he => (h e he).local

theorem units_run_by {π : Units → α} (hπ : EventBlind π) (n : Nat) {es : List Effect} (hes : ∀ e ∈ es, e.Local π) {s t : State}
    (h : π t.units = π s.units) : π (t.run (es.map (Effect.by n))).units = π (s.run es).units := by
  induction es generalizing s t with
  | nil => exact h
  | cons e es ih =>
    obtain ⟨he, hes⟩ := List.forall_mem_cons.1 hes
    refine ih hes ?_
    cases e with
    | unit f => exact he _ _ h
    | raise c a m sc => cases m <;> exact (hπ.raise ..).trans (h.trans (hπ.raise ..).symm)
    | _ => simpa [Effect.by, State.apply] using h

theorem units_causedBy {π : Units → α} (hπ : EventBlind π) (n : Nat) {p : Phase} {s : State} (h : ∀ e ∈ p s, e.Local π) :
    π (s.does (causedBy n p)).units = π (s.does p).units := units_run_by hπ n h rfl

/-- What the phase makes of a part of the units depends, effect by effect, on that part alone. -/
def Phase.Local (π : Units → α) (p : Phase) : Prop := ∀ s, ∀ e ∈ p s, e.Local π

section Phases
variable {π : Units → α}

theorem Phase.Within.local {ks : List Nat} {p : Phase} (h : Phase.Within ks π p) : p.Local π := fun s => (h s).local

@[simp] theorem Phase.local_always {es : List Effect} : (always es).Local π ↔ ∀ e ∈ es, e.Local π :=
  ⟨fun h => h State.reset, fun h _ => h⟩

theorem Phase.local_phases {ps : List Phase} (h : ∀ p ∈ ps, p.Local π) : (phases ps).Local π := by
  induction ps with
  | nil => exact fun _ _ he => absurd he List.not_mem_nil
  | cons p ps ih =>
    obtain ⟨hp, hps⟩ := List.forall_mem_cons.1 h
    exact fun s e he => (List.mem_append.1 he).elim (hp s e) (ih hps _ e)

end Phases

/-- Where no event is raised, what every effect leaves of the units stays. -/
theorem Confined.units_of_quiet {ks : List Nat} {π : Units → α} {es : List Effect} (h : Confined ks π es)
    (hk : Key.evt.EVT_RAISED ∉ ks) (s : State) : π (s.run es).units = π s.units := by
  induction es generalizing s with
  | nil => rfl
  | cons e es ih =>
    obtain ⟨he, hes⟩ := confined_cons.1 h
    refine (ih hes _).trans ?_
    cases e with
    | save | mode => exact he.elim
    | unit f => exact he s.units
    | raise => exact absurd he hk
    | _ => simp [State.apply]

/-! ### The session of a request -/

/-- The session has noted the request that it is carrying out (R407). -/
def State.HasNoted (s : State) (op : Nat) (m : CdlMsg) : Prop :=
  ∃ y, s.session m.session = some y ∧ y.sLast = m.sequence ∧ y.lastOp = op + 256 * m.status ∧ y.lastReq = m.payload

theorem Tbl.at_recordAll (t : Tbl (Option Session)) (e : EventRec) (n : Nat) : Tbl.at none (recordAll t e) n =
    (Tbl.at none t n).map fun x => if x.wants n e then x.record e else x := by
  induction t with
  | nil => rfl
  | cons p t ih =>
    obtain ⟨j, v⟩ := p
    by_cases hj : j = n
    · subst hj
      simp [recordAll, Tbl.at, Tbl.get]
    · simpa [recordAll, Tbl.at, Tbl.get, hj] using ih

section Noted
variable {s : State} {op : Nat} {m : CdlMsg}

theorem State.HasNoted.of_session {t : State} (h : s.HasNoted op m) (ht : t.session m.session = s.session m.session) :
    t.HasNoted op m := by
  rwa [State.HasNoted, ht]

/-- A record in the ring leaves what the session has noted (R426). -/
theorem State.HasNoted.of_record {t : State} (h : s.HasNoted op m) (e : EventRec)
    (ht : t.units.sessions = recordAll s.units.sessions e) : t.HasNoted op m := by
  obtain ⟨y, hy, hnoted⟩ := h
  have hsession : t.session m.session = (s.session m.session).map fun x => if x.wants m.session e then x.record e else x := by
    rw [State.session, ht]
    exact Tbl.at_recordAll ..
  have hrecord : (y.record e).sLast = y.sLast ∧ (y.record e).lastOp = y.lastOp ∧ (y.record e).lastReq = y.lastReq := by
    simp [Session.record]
  obtain ⟨hlast, hop, hreq⟩ := hrecord
  refine ⟨if y.wants m.session e then y.record e else y, by rw [hsession, hy]; rfl, ?_⟩
  split
  · rwa [hlast, hop, hreq]
  · exact hnoted

theorem State.HasNoted.raiseNow (h : s.HasNoted op m) (c : Nat) (a : List Byte) (n : Nat) : (s.raiseNow c a n).HasNoted op m := by
  simp only [State.raiseNow]
  split
  · split
    · exact h.of_session rfl
    · exact h.of_session rfl
  · exact h.of_record (s.eventOf c a n) (by simp [State.deliver])

theorem State.HasNoted.apply {ks : List Nat} (h : s.HasNoted op m) {e : Effect} (he : e.Within ks fun u => u.sessions) :
    (s.apply e).HasNoted op m := by
  cases e with
  | save | mode => exact he.elim
  | unit f => exact h.of_session (congrArg (Tbl.at none · m.session) (he s.units))
  | raise c a n sc =>
    cases sc with
    | none => exact h.raiseNow c a n
    | some sc =>
      simp only [State.apply, State.raise]
      split
      · exact h
      · exact h.raiseNow c a n
  | _ => exact h.of_session (by simp [State.session, State.apply])

/-- Effects that touch no session but by events leave what it has noted. -/
theorem State.HasNoted.run {ks : List Nat} {es : List Effect} (h : s.HasNoted op m) (hes : Confined ks (fun u => u.sessions) es) :
    (s.run es).HasNoted op m := by
  induction es generalizing s with
  | nil => exact h
  | cons e es ih =>
    obtain ⟨he, hes⟩ := confined_cons.1 hes
    exact ih (h.apply he) hes

end Noted

/-! ### The response -/

/-- A part of the units that sending a message leaves. -/
structure SendBlind (π : Units → α) : Prop where
  mac : ∀ u i f, π (Units.onMac u i f) = π u
  can : ∀ u f, π (Units.onCan u f) = π u

theorem arpAsk_within {π : Units → α} (h : SendBlind π) (m hop : Nat) : Phase.Within [] π (arpAsk m hop) := by
  intro s
  refine confined_ite.2 ⟨fun _ => .nil, fun _ => Phase.within_phases ?_ s⟩
  have hsend : Phase.Within [] π (arpSend m 1 0xFFFFFFFF hop) := fun s => by simp [arpSend, queueFrame, h.mac]
  simp [hsend, h.mac]

/-- Sending a message writes no entry, and changes no units but the MACs and the CAN controller (R386, R427). -/
theorem cdlSend_within {π : Units → α} (h : SendBlind π) (p : Peer) (base n : Nat) (msg : List Byte) :
    Phase.Within [] π (cdlSend p base n msg) := by
  intro s
  refine confined_ite.2 ⟨fun _ => ?_, fun _ => Phase.within_phases ?_ s⟩
  · simp [canQueue, h.can]
  · simp [queueFrame, h.mac, arpAsk_within h]

/-! ### A request that is heard -/

/-- A part of the units that the messages of the dictionary protocol leave. -/
structure TalkBlind (π : Units → α) : Prop extends SendBlind π where
  event : EventBlind π
  session : ∀ u i f, π (Units.onSession u i f) = π u

/-- The session keeps the answer (R407). -/
def keepAnswer (m : CdlMsg) (a : Answer) : Effect :=
  .session m.session fun y => y.map fun y => { y with cacheStatus := a.status, cacheBody := a.body }

/-- The session notes a request (R407). -/
def noteRequest (op : Nat) (m : CdlMsg) (at' : Nat) : Effect :=
  .session m.session fun y => y.map fun y => { y with
    sLast := m.sequence, lastOp := op + 256 * m.status, lastReq := m.payload, lastAt := at' }

/-- What a noted request brings about: its effects, the answer that its session keeps, and the response (R407). -/
def carryOut (op : Nat) (m : CdlMsg) (x : Session) (a : Answer) : Phase := phases [
  causedBy m.session (always a.does), always [keepAnswer m a], respond m op m.session (some x.key) a.status a.body]

/-- The state once a request has been carried out, before it is answered. -/
def State.carried (s : State) (op : Nat) (m : CdlMsg) (a : Answer) : State :=
  (s.noted op m).run (a.does.map (Effect.by m.session))

section Heard
variable {s : State} {op : Nat} {m : CdlMsg} {x : Session} {a : Answer}

theorem noted_confined {π : Units → α} (h : TalkBlind π) (t : State) : Confined [] π [canTake m, noteRequest op m t.mtbNs] := by
  simp [canTake, noteRequest, h.can, h.session]

theorem noted_frame (s : State) (op : Nat) (m : CdlMsg) : s.Frame [] (s.noted op m) :=
  (noted_confined (π := fun _ => ()) ⟨⟨fun _ _ _ => rfl, fun _ _ => rfl⟩, fun _ _ _ _ _ _ => rfl, fun _ _ _ => rfl⟩ s).frame s

theorem noted_units {π : Units → α} (h : TalkBlind π) (s : State) (op : Nat) (m : CdlMsg) :
    π (s.noted op m).units = π s.units := (noted_confined h s).units h.event s

theorem State.Hears.hasNoted (h : s.Hears op m x) : (s.noted op m).HasNoted op m := by
  have hsession : (s.apply (canTake m)).session m.session = some x := h.session
  refine ⟨_, by rw [State.noted, State.run_cons, State.run_cons, State.run_nil, State.session_apply_session, if_pos rfl, hsession]; rfl,
    rfl, rfl, rfl⟩

/-- A request of a new sequence number is noted, carried out, kept with its answer, and answered (R407). -/
theorem does_gateSequence {o : Option Opcode} (h : x.sLast < m.sequence) :
    s.does (gateSequence op o m x) = (s.apply (noteRequest op m s.mtbNs)).does
      (carryOut op m x (Opcode.answer o (s.apply (noteRequest op m s.mtbNs)) x m)) := by
  rw [State.does, gateSequence, if_pos h]
  refine Eq.trans (State.does_phases_cons s _ _) ?_
  rw [State.does_phases_cons, State.does_phases_nil, State.does_always, State.run_cons, State.run_nil, ← noteRequest]
  simp only [State.does, carryOut, keepAnswer]

/-- A request that is heard is noted, carried out, kept with its answer, and answered (R406, R407). -/
theorem does_request {o : Opcode} (h : s.Hears op m x) (ha : Opcode.answer (some o) (s.noted op m) x m = a) :
    s.does (request op (some o) m) =
      ((s.carried op m a).apply (keepAnswer m a)).does (respond m op m.session (some x.key) a.status a.body) := by
  obtain ⟨hserves, hsound, hsession, ⟨hended, hopen⟩, hpeer, htag, hfresh⟩ := h
  have htaken : (s.apply (canTake m)).session m.session = some x := hsession
  have hlive : (some x).filter (fun x => !x.ended && samePeer x.peer m.peer && (x.isOpen || op == 2)) = some x := by
    simp [hended, hpeer, hopen]
  have hgood : (m.tag == cdlTag x.key (cdlHeader 0 m.session m.sequence op m.status m.payload.length) m.payload) = true := by
    simp [← htag]
  have hgate : (s.apply (canTake m)).does (gateSession op (some o) m) =
      (s.apply (canTake m)).does (gateSequence op (some o) m x) := by
    rw [State.does, gateSession, htaken, hlive]
    simp only [hopen, hgood, Bool.not_true, Bool.false_eq_true, if_false]
    rfl
  have hnoted : (s.apply (canTake m)).apply (noteRequest op m (s.apply (canTake m)).mtbNs) = s.noted op m := rfl
  have hsteps : s.does (request op (some o) m) = s.run (receive m (gateSession op (some o) m) s) := rfl
  rw [hsteps, receive, hserves, hsound]
  refine Eq.trans (State.does_phases_cons s _ _) ?_
  rw [State.does_phases_cons, State.does_phases_nil, State.does_always, State.run_cons, State.run_nil]
  refine Eq.trans hgate ?_
  rw [does_gateSequence hfresh, hnoted, ha, carryOut, State.does_phases_cons, State.does_phases_cons, State.does_phases_cons,
    State.does_phases_nil]
  rfl

/-- What the answer of a request leaves of the state that it has brought about. -/
theorem answered_frame (s : State) (op : Nat) (m : CdlMsg) (a : Answer) (key : Option (List Byte)) :
    s.Frame [] ((s.apply (keepAnswer m a)).does (respond m op m.session key a.status a.body)) := by
  have hkeep : (keepAnswer m a).Within [] fun _ => () := by simp [keepAnswer]
  have hsend : Phase.Within [] (fun _ => ()) (respond m op m.session key a.status a.body) :=
    cdlSend_within ⟨fun _ _ _ => rfl, fun _ _ => rfl⟩ _ _ _ _
  exact (hkeep.frame s).trans (hsend.frame _)

theorem answered_units {π : Units → α} (h : TalkBlind π) (s : State) (op : Nat) (m : CdlMsg) (a : Answer) (key : Option (List Byte)) :
    π ((s.apply (keepAnswer m a)).does (respond m op m.session key a.status a.body)).units = π s.units := by
  have hkeep : (keepAnswer m a).Within [] π := by simp [keepAnswer, h.session]
  have hsend : Phase.Within [] π (respond m op m.session key a.status a.body) := cdlSend_within h.toSendBlind _ _ _ _
  exact (hsend.units h.event _).trans (hkeep.units h.event s)

/-- A session that has noted the request has answered it (R407). -/
theorem answered_of_hasNoted (h : s.HasNoted op m) (a : Answer) (key : Option (List Byte)) :
    ((s.apply (keepAnswer m a)).does (respond m op m.session key a.status a.body)).Answered op m a.status a.body := by
  obtain ⟨y, hy, hlast, hop, hreq⟩ := h
  have hkept : (s.apply (keepAnswer m a)).session m.session = some { y with cacheStatus := a.status, cacheBody := a.body } := by
    rw [keepAnswer, State.session_apply_session, if_pos rfl, hy]
    rfl
  have hsend : Phase.Within [] (fun u => u.sessions) (respond m op m.session key a.status a.body) :=
    cdlSend_within ⟨fun _ _ _ => rfl, fun _ _ => rfl⟩ _ _ _ _
  have hsent := congrArg (Tbl.at none · m.session)
    ((hsend (s.apply (keepAnswer m a))).units_of_quiet (by simp) (s.apply (keepAnswer m a)))
  exact ⟨_, hsent.trans hkept, hlast, hop, hreq, rfl, rfl⟩

end Heard

end Sys2Proof.Machine
end

section
/-!
Long operations (R423): an EXEC that nothing refuses is given the next handle, its operation begins, and its session is answered.
-/

namespace Sys2Proof.Machine

variable {α : Type}

/-! ### Little-endian fields (R5) -/

@[simp] theorem length_le (n : Nat) (v : Int) : (le n v).length = n := by simp [le]

theorem le_succ (n : Nat) (v : Int) : le (n + 1) v = BitVec.ofNat 8 (v % 256).toNat :: le n (v / 256) := by
  simp [le, List.range_succ_eq_map, pow_succ', Int.ediv_ediv]

theorem ofLe_le (n v : Nat) : ofLe (le n v) = v % 256 ^ n := by
  induction n generalizing v with
  | zero => simp [le, ofLe, Nat.mod_one]
  | succ n ih =>
    have hbyte : (BitVec.ofNat 8 ((v : Int) % 256).toNat).toNat = v % 256 := by
      rw [BitVec.toNat_ofNat]; omega
    have hrest : (v : Int) / 256 = ((v / 256 : Nat) : Int) := by omega
    rw [le_succ, ofLe, hbyte, hrest, ih, pow_succ', Nat.mod_mul]

/-- A field at the head of the bytes. -/
theorem leAt_head {n v : Nat} (h : v < 256 ^ n) (b : List Byte) : leAt (le n v ++ b) 0 n = v := by
  have hslice : slice (le n v ++ b) 0 n = le n v := by simp [slice]
  rw [leAt, hslice, ofLe_le, Nat.mod_eq_of_lt h]

/-- A field behind a first one. -/
theorem leAt_after (n : Nat) (v : Int) (b : List Byte) (o k : Nat) : leAt (le n v ++ b) (n + o) k = leAt b o k := by
  have hslice : slice (le n v ++ b) (n + o) k = slice b o k := by
    have hdrop : (le n v).drop (n + o) = [] := List.drop_eq_nil_of_le (by simp)
    simp [slice, List.drop_append, hdrop]
  rw [leAt, hslice, leAt]

/-! ### Acceptance -/

/-- An operation is given the next handle (R423). -/
def State.givesHandle (s : State) (op n : Nat) : List Effect :=
  [.mgmt fun x => { x with handleCtr := s.nextHandle },
   .handle s.nextHandle fun _ => some { op := op, session := n, startAt := s.mtbNs }]

/-- The answer of an EXEC whose operation begins with `p` (R423). -/
def State.accepting (s : State) (op n : Nat) (p : Phase) : Answer where
  status := St.accepted
  body := le 2 s.nextHandle ++ le 2 0
  does := phases [always (s.givesHandle op n), p] s

/-- The state at which an accepted operation begins: its request is noted and its handle given. -/
def State.opened (s : State) (op : Nat) (m : CdlMsg) : State :=
  (s.noted 0x50 m).run ((s.noted 0x50 m).givesHandle op m.session)

section Accepted
variable {s : State} {op : Nat} {m : CdlMsg} {x : Session} {args : List Byte} {p : Phase}

theorem givesHandle_confined {π : Units → α} (hmgmt : ∀ u f, π (Units.onMgmt u f) = π u) (hhandle : ∀ u i f, π (Units.onHandle u i f) = π u)
    (s : State) (op n : Nat) : Confined [] π (s.givesHandle op n) := by
  simp [State.givesHandle, hmgmt, hhandle]

theorem opened_frame (s : State) (op : Nat) (m : CdlMsg) : s.Frame [] (s.opened op m) :=
  (noted_frame s 0x50 m).trans ((givesHandle_confined (π := fun _ => ()) (fun _ _ => rfl) (fun _ _ _ => rfl) _ op m.session).frame _)

theorem opened_handle (s : State) (op : Nat) (m : CdlMsg) :
    (s.opened op m).handle s.nextHandle = some { op := op, session := m.session, startAt := s.mtbNs } := by
  have hnext : (s.noted 0x50 m).nextHandle = s.nextHandle := rfl
  rw [State.opened, State.givesHandle, hnext, State.run_cons, State.run_cons, State.run_nil, State.handle_apply_handle, if_pos rfl]
  rfl

theorem State.Starts.payload_drop (h : s.Starts op m x args) : m.payload.drop 4 = args := by
  obtain ⟨-, hpayload, -⟩ := h
  rw [hpayload, List.append_assoc, List.drop_append]
  simp

theorem State.Starts.operation (h : s.Starts op m x args) (hop : op < 65536) : leAt m.payload 0 2 = op := by
  obtain ⟨-, hpayload, -⟩ := h
  rw [hpayload, List.append_assoc]
  exact leAt_head hop _

theorem State.Starts.length (h : s.Starts op m x args) : m.payload.length = 4 + args.length := by
  obtain ⟨-, hpayload, -⟩ := h
  simp [hpayload]
  omega

/-- An EXEC that passes the tests of its operation is accepted (R406, R423). -/
theorem answer_execOpcode {form : List Byte → Bool} {role : Nat → List Byte → Nat} {refused : State → List Byte → Option Nat}
    {begin : Nat → Nat → List Byte → Phase} (h : s.Starts op m x args) (hop : op < 65536) (hform : form args = true)
    (hrole : role x.role m.payload = St.ok) (hrefused : refused (s.noted 0x50 m) args = none) :
    Opcode.answer (some (execOpcode op form role refused begin)) (s.noted 0x50 m) x m =
      (s.noted 0x50 m).accepting op m.session (begin s.nextHandle m.session args) := by
  have hdrop := h.payload_drop
  have hop' := h.operation hop
  have hlen := h.length
  obtain ⟨-, -, hrunning⟩ := h
  have hrun : (execOpcode op form role refused begin).run (s.noted 0x50 m) m.session m =
      (s.noted 0x50 m).accepting op m.session (begin s.nextHandle m.session args) := by
    simp only [execOpcode, hdrop, hop', hrefused, ne_eq, not_true_eq_false, if_false, if_neg (Nat.not_le.2 hrunning)]
    rfl
  have hpasses : (execOpcode op form role refused begin).form m.payload = true := by
    simp [execOpcode, hdrop, hform, hlen]
  have hallowed : (execOpcode op form role refused begin).role x.role m.payload = St.ok := hrole
  have hlimit : 4 ≤ msgLimit m.peer := by
    unfold msgLimit
    split <;> decide
  have hfits : ¬ msgLimit m.peer < ((s.noted 0x50 m).accepting op m.session (begin s.nextHandle m.session args)).body.length := by
    simpa [State.accepting] using hlimit
  simp only [Opcode.answer, hpasses, hallowed, hrun, hfits]
  rfl

theorem carried_accepting (s : State) (op : Nat) (m : CdlMsg) (p : Phase) :
    s.carried 0x50 m ((s.noted 0x50 m).accepting op m.session p) = (s.opened op m).does (causedBy m.session p) := by
  have hsplit : ((s.noted 0x50 m).accepting op m.session p).does =
      (s.noted 0x50 m).givesHandle op m.session ++ (p (s.opened op m) ++ []) := rfl
  have hquiet : ((s.noted 0x50 m).givesHandle op m.session).map (Effect.by m.session) = (s.noted 0x50 m).givesHandle op m.session := rfl
  rw [State.carried, hsplit, List.append_nil, List.map_append, State.run_append, hquiet]
  rfl

/-- An EXEC has been accepted, and its operation has begun with `p` (R423). -/
structure State.Begun (s : State) (op : Nat) (m : CdlMsg) (p : Phase) (t : State) : Prop where
  answered : t.Answered 0x50 m St.accepted (le 2 s.nextHandle ++ le 2 0)
  frame : ((s.opened op m).does (causedBy m.session p)).Frame [] t
  units : ∀ {β : Type} {π : Units → β}, TalkBlind π → π t.units = π ((s.opened op m).does (causedBy m.session p)).units

theorem begun_of_answer {ks : List Nat} {o : Opcode} (h : s.Starts op m x args) (hop : op < 65536)
    (ha : Opcode.answer (some o) (s.noted 0x50 m) x m = (s.noted 0x50 m).accepting op m.session p)
    (hp : Confined ks (fun u => u.sessions) (p (s.opened op m))) : s.Begun op m p (s.does (execRequest op o m)) := by
  have hlen : 2 ≤ m.payload.length := by rw [h.length]; omega
  have hreq : execRequest op o m = request 0x50 (some o) m := if_pos ⟨hlen, h.operation hop⟩
  have hheard := h.1
  have hgiven := givesHandle_confined (π := fun u => u.sessions) (fun _ _ => rfl) (fun _ _ _ => rfl) (s.noted 0x50 m) op m.session
  have hnoted : ((s.opened op m).does (causedBy m.session p)).HasNoted 0x50 m :=
    (hheard.hasNoted.run hgiven).run (hp.by m.session)
  rw [hreq, does_request hheard ha, carried_accepting]
  exact ⟨answered_of_hasNoted hnoted _ _, answered_frame _ _ _ _ _, fun hπ => answered_units hπ _ _ _ _ _⟩

namespace State.Begun
variable {t : State} (h : s.Begun op m p t)
include h

/-- What the operation leaves, the request leaves. -/
theorem frame_of {ks : List Nat} (hp : Confined ks (fun _ => ()) (p (s.opened op m))) : s.Frame ks t :=
  (((opened_frame s op m).mono (List.nil_subset _)).trans ((hp.by m.session).frame _)).trans (h.frame.mono (List.nil_subset _))

theorem units_of {π : Units → α} (hπ : TalkBlind π) (hp : ∀ e ∈ p (s.opened op m), e.Local π) :
    π t.units = π ((s.opened op m).does p).units :=
  (h.units hπ).trans (units_causedBy hπ.event m.session hp)

/-- An operation that raises no event as it begins stands as if nobody had caused it. -/
theorem units_of_quiet {π : Units → α} (hπ : TalkBlind π) (hp : ∀ e ∈ p (s.opened op m), e.by m.session = e) :
    π t.units = π ((s.opened op m).does p).units := by
  rw [h.units hπ, causedBy_of_quiet hp]

theorem num_of {ks : List Nat} (hp : Confined ks (fun u => u.anchor) (p (s.opened op m))) {k : Nat} (hk : k ≠ Key.evt.EVT_RAISED) :
    t.num k = ((s.opened op m).does p).num k :=
  (h.frame.num List.not_mem_nil).trans (congrArg Value.int ((alike_causedBy _ m.session hp.anchorLocal).get k hk))

theorem nat_of {ks : List Nat} (hp : Confined ks (fun u => u.anchor) (p (s.opened op m))) {k : Nat} (hk : k ≠ Key.evt.EVT_RAISED) :
    t.nat k = ((s.opened op m).does p).nat k := congrArg Int.toNat (h.num_of hp hk)

theorem handle_of (hp : ∀ e ∈ p (s.opened op m), e.Local fun u => u.handles) (n : Nat) :
    t.handle n = ((s.opened op m).does p).handle n :=
  congrArg (Tbl.at none · n) (h.units_of ⟨⟨fun _ _ _ => rfl, fun _ _ => rfl⟩, fun _ _ _ _ _ _ => rfl, fun _ _ _ => rfl⟩ hp)

/-- The operation runs under the handle that it was given (R423). -/
theorem started (hp : ∀ e ∈ p (s.opened op m), e.Local fun u => u.handles) {y : Handle}
    (hy : ((s.opened op m).does p).handle s.nextHandle = some y) (hop : y.op = op) (hsession : y.session = m.session)
    (hruns : y.finished = false) : s.Started op m t :=
  ⟨h.answered, y, (h.handle_of hp _).trans hy, hop, hsession, hruns⟩

/-- An operation whose beginning leaves the handles runs under the one that it was given (R423). -/
theorem started_of_confined {ks : List Nat} (hp : Confined ks (fun u => u.handles) (p (s.opened op m))) : s.Started op m t := by
  have hhandle : ((s.opened op m).does p).handle s.nextHandle = (s.opened op m).handle s.nextHandle :=
    congrArg (Tbl.at none · s.nextHandle) (hp.units (fun _ _ _ _ _ _ => rfl) _)
  exact h.started hp.local (hhandle.trans (opened_handle s op m)) rfl rfl rfl

end State.Begun

end Accepted

end Sys2Proof.Machine
end

section
/-!
The operations that an EXEC begins beside the analyses (R400, R454, R467, R481, R482): what the beginning of each leaves.
-/

namespace Sys2Proof.Machine

variable {α : Type} {s : State} {m : CdlMsg} {x : Session}

@[simp] theorem Effect.local_num (π : Units → α) (k : Nat) (n : Int) : (Effect.num k n).Local π := trivial
@[simp] theorem Effect.local_nat (π : Units → α) (k n : Nat) : (Effect.nat k n).Local π := trivial
@[simp] theorem Effect.local_event (π : Units → α) (c : Nat) (a : List Byte) : (Effect.event c a).Local π := trivial

/-- ENGINEER and SERVICE may make the request (Table 13-4). -/
theorem engineers_ok {role : Nat} (h : 2 ≤ role) (b : List Byte) : engineers role b = St.ok := if_neg (Nat.not_lt.2 h)

/-- A part of the management processor's state that neither events nor handles reach is left by messages. -/
theorem talkBlind_mgmt {π : Mgmt → α} (h : ∀ x la ov, π { x with latched := la, overflow := ov } = π x) : TalkBlind fun u => π u.mgmt :=
  ⟨⟨fun _ _ _ => rfl, fun _ _ => rfl⟩, fun u _ _ _ la ov => h u.mgmt la ov, fun _ _ _ => rfl⟩

/-! ### RESTORE_DEFAULTS (R400) -/

theorem restoreDefaults_starts (hrole : x.role = 2) (h : s.Starts 0x0B30 m x []) (hmode : s.mode = .safe)
    (hnone : s.units.mgmt.restoreDue = none) : Completes (.restoreDefaults m) s fun t =>
      s.Started 0x0B30 m t ∧ t.units.mgmt.restoreDue = some s.nextHandle ∧ s.Frame [] t := by
  have hans : Opcode.answer (some opRestore) (s.noted 0x50 m) x m = (s.noted 0x50 m).accepting 0x0B30 m.session
      (always [.mgmt fun y => { y with restoreDue := some s.nextHandle }]) := by
    refine answer_execOpcode h (by decide) rfl (if_pos hrole) ?_
    have hmode' : (s.noted 0x50 m).mode = .safe := hmode
    have hnone' : (s.noted 0x50 m).units.mgmt.restoreDue = none := hnone
    simp [hmode', hnone']
  have hb := begun_of_answer (ks := []) h (by decide) hans (by simp [always])
  refine ⟨_, rfl, hb.started_of_confined (ks := []) (by simp [always]), ?_, hb.frame_of (by simp [always])⟩
  exact hb.units_of (talkBlind_mgmt (π := Mgmt.restoreDue) fun _ _ _ => rfl) (by simp [always, Effect.Local, Effect.mgmt])

/-! ### PREPARE_REMOVAL (R454) -/

theorem removalAccept_within {π : Units → α} (hmgmt : ∀ u f, π (Units.onMgmt u f) = π u)
    (hwaiting : ∀ (u : Units) w, π { u with waiting := w } = π u) (h : Nat) : Phase.Within [Key.mode.MODE_REQUEST] π (removalAccept h) := by
  have hrequest (u : Units) (w : List Waiting) (f : Mgmt → Mgmt) : π { u with waiting := w, mgmt := f u.mgmt } = π u :=
    (hwaiting (u.onMgmt f) w).trans (hmgmt u f)
  intro s
  refine confined_cons.2 ⟨Effect.within_mgmt.2 fun u => hmgmt u _, confined_ite.2 ⟨fun _ => .nil, fun _ => ?_⟩⟩
  simp only [confined_cons, Confined.nil, Effect.within_num, Effect.within_unit, List.mem_singleton, and_true, true_and]
  exact fun u => hrequest u _ fun x => { x with waitMode := some (1, 7) }

theorem quiet_removalAccept (h n : Nat) (s : State) : ∀ e ∈ removalAccept h s, e.by n = e := by
  intro e he
  simp only [removalAccept, List.mem_cons, List.mem_ite_nil_left, List.not_mem_nil, or_false] at he
  rcases he with rfl | ⟨-, rfl | rfl⟩ <;> rfl

/-- The removal runs under its handle, and SAFE is requested where the device is not in it (R454). -/
theorem removalAccept_leaves (s : State) (h : Nat) : (s.does (removalAccept h)).units.mgmt.removal = some h ∧
    (if s.mode = .safe ∧ s.units.mgmt.setupTo = none then (s.does (removalAccept h)).num Key.mode.MODE_REQUEST = s.num Key.mode.MODE_REQUEST
      else (s.does (removalAccept h)).num Key.mode.MODE_REQUEST = 1 ∧ (s.does (removalAccept h)).units.mgmt.waitMode = some (1, 7)) := by
  have hwidth : Dict.width Key.mode.MODE_REQUEST = some (8, false) := by decide +kernel
  by_cases hsafe : s.mode = .safe ∧ s.units.mgmt.setupTo = none
  · rw [if_pos hsafe, State.does, removalAccept, if_pos hsafe]
    exact ⟨rfl, rfl⟩
  · rw [if_neg hsafe, State.does, removalAccept, if_neg hsafe]
    rw [State.run_cons, State.run_cons, State.run_cons, State.run_nil]
    obtain ⟨t, ht⟩ : ∃ t, t = s.apply (.mgmt fun m => { m with removal := some h }) := ⟨_, rfl⟩
    have hremoval : t.units.mgmt.removal = some h := ht ▸ rfl
    have hasked : (t.apply (.num Key.mode.MODE_REQUEST 1)).num Key.mode.MODE_REQUEST = 1 :=
      State.num_reg_of_lt hwidth t (by decide) (by decide)
    rw [← ht]
    exact ⟨by simpa [Effect.num] using hremoval, hasked, rfl⟩

theorem prepareRemoval_starts (hrole : 2 ≤ x.role) (h : s.Starts 0x0110 m x []) (hnone : s.units.mgmt.removal = none) :
    Completes (.prepareRemoval m) s fun t => s.Started 0x0110 m t ∧ t.units.mgmt.removal = some s.nextHandle ∧
      s.Frame [Key.mode.MODE_REQUEST] t ∧
      (if s.mode = .safe ∧ s.units.mgmt.setupTo = none then t.num Key.mode.MODE_REQUEST = s.num Key.mode.MODE_REQUEST
        else t.num Key.mode.MODE_REQUEST = 1 ∧ t.units.mgmt.waitMode = some (1, 7)) := by
  have hans : Opcode.answer (some opRemoval) (s.noted 0x50 m) x m =
      (s.noted 0x50 m).accepting 0x0110 m.session (removalAccept s.nextHandle) := by
    refine answer_execOpcode h (by decide) rfl (engineers_ok hrole _) ?_
    have hnone' : (s.noted 0x50 m).units.mgmt.removal = none := hnone
    simp [hnone']
  have hb := begun_of_answer h (by decide) hans (removalAccept_within Units.onMgmt_sessions (fun _ _ => rfl) _ _)
  have hconf {β : Type} {π : Units → β} := removalAccept_within (π := π) (h := s.nextHandle)
  have hquiet := quiet_removalAccept s.nextHandle m.session (s.opened 0x0110 m)
  have hremoval := hb.units_of_quiet (talkBlind_mgmt (π := Mgmt.removal) fun _ _ _ => rfl) hquiet
  have hwait := hb.units_of_quiet (talkBlind_mgmt (π := Mgmt.waitMode) fun _ _ _ => rfl) hquiet
  obtain ⟨hruns, hasks⟩ := removalAccept_leaves (s.opened 0x0110 m) s.nextHandle
  have hmode : (s.opened 0x0110 m).mode = s.mode := rfl
  have hsetup : (s.opened 0x0110 m).units.mgmt.setupTo = s.units.mgmt.setupTo := rfl
  have hrequest : (s.opened 0x0110 m).num Key.mode.MODE_REQUEST = s.num Key.mode.MODE_REQUEST := rfl
  rw [hmode, hsetup, hrequest] at hasks
  have hnum := hb.num_of (hconf Units.onMgmt_anchor (fun _ _ => rfl) _) (k := Key.mode.MODE_REQUEST) (by decide)
  refine ⟨_, rfl, hb.started_of_confined (hconf Units.onMgmt_handles (fun _ _ => rfl) _), ?_,
    hb.frame_of (hconf (fun _ _ => rfl) (fun _ _ => rfl) _), ?_⟩
  · exact hremoval.trans hruns
  · rw [hwait, hnum]
    exact hasks

/-! ### CALIBRATE (R467) -/

theorem calibrate_starts {chans : Nat} (hrole : 2 ≤ x.role) (hlt : chans < 65536) (hne : chans ≠ 0)
    (h : s.Starts 0x0B31 m x (le 2 chans ++ le 2 0)) (hmay : s.calRefused chans = false) : Completes (.calibrate m) s fun t =>
      s.Started 0x0B31 m t ∧ s.Frame [] t ∧ ∃ y, t.handle s.nextHandle = some y ∧ y.chans = chans := by
  have hchans : leAt (le 2 (chans : Int) ++ le 2 0) 0 2 = chans := leAt_head hlt _
  obtain ⟨p, hp⟩ : ∃ p, p = always [Effect.handle s.nextHandle fun y => y.map fun y => { y with chans := chans }] := ⟨_, rfl⟩
  have hans : Opcode.answer (some opCalibrate) (s.noted 0x50 m) x m = (s.noted 0x50 m).accepting 0x0B31 m.session (phases [p, always []]) := by
    refine (answer_execOpcode h (by decide) rfl (engineers_ok hrole _) ?_).trans ?_
    · have hmay' : (s.noted 0x50 m).calRefused chans = false := hmay
      simp [hchans, hmay']
    · simp [hchans, hne, hp]
  have hb := begun_of_answer (ks := []) h (by decide) hans (by simp [hp, phases, always, Units.onHandle])
  have hlocal : ∀ e ∈ phases [p, always []] (s.opened 0x0B31 m), e.Local fun u => u.handles := by
    simp only [hp, phases, always, List.append_nil, List.mem_singleton, forall_eq]
    exact fun u v huv => congrArg (Tbl.upd none · s.nextHandle _) huv
  have hhandle : ((s.opened 0x0B31 m).does (phases [p, always []])).handle s.nextHandle =
      some { op := 0x0B31, session := m.session, startAt := s.mtbNs, chans := chans } := by
    rw [State.does_phases_cons, State.does_phases_cons, State.does_phases_nil, State.does_always, State.run_nil, hp, State.does_always,
      State.run_cons, State.run_nil, State.handle_apply_handle, if_pos rfl, opened_handle]
    rfl
  exact ⟨_, rfl, hb.started hlocal hhandle rfl rfl rfl, hb.frame_of (by simp [hp, phases, always]),
    _, (hb.handle_of hlocal _).trans hhandle, rfl⟩

/-! ### Updates (R481, R482) -/

/-- What a change of UPDATE_STATE writes (R485). -/
def updKeys : List Nat := [Key.upd.UPDATE_STATE, Key.upd.UPDATE_PROGRESS, Key.evt.EVT_RAISED]

theorem setUpd_within (π : Units → α) (v bank : Nat) : Phase.Within updKeys π (setUpd v bank) := by
  intro s
  refine confined_ite.2 ⟨fun _ => .nil, fun _ => ?_⟩
  simp [updKeys]

theorem updState_setUpd (s : State) {v : Nat} (hv : v < 256) (bank : Nat) : (s.does (setUpd v bank)).updState = v := by
  by_cases h : s.updState = v
  · rw [State.does, setUpd, if_pos h]
    exact h
  · have hwidth : Dict.width Key.upd.UPDATE_STATE = some (8, false) := by decide +kernel
    have hrest : Confined [Key.upd.UPDATE_PROGRESS, Key.evt.EVT_RAISED] (fun _ => ())
        [.num Key.upd.UPDATE_PROGRESS 0, .event Ev.UPDATE_STATE (args16 [v, bank])] := by simp
    rw [State.does, setUpd, if_neg h, State.run_cons]
    exact ((hrest.frame _).nat (by decide)).trans (State.nat_reg_of_lt hwidth s hv)

/-- What UPDATE_LOAD writes as it begins (R481). -/
def loadKeys : List Nat := Key.upd.BANK_A_VER :: Key.upd.BANK_B_VER :: updKeys

theorem updateLoad_within {π : Units → α} (hmgmt : ∀ u f, π (Units.onMgmt u f) = π u)
    (hbanks : ∀ (u : Units) b, π { u with banks := b } = π u) (h len : Nat) : Phase.Within loadKeys π (updateLoad h len) := by
  intro s
  refine Phase.within_phases (List.forall_mem_cons.2 ⟨Phase.within_always.2 ?_, ?_⟩) s
  · refine confined_cons.2 ⟨Effect.within_mgmt.2 fun u => hmgmt u _, confined_cons.2 ⟨fun u => hbanks u _, ?_⟩⟩
    simp only [confined_cons, Confined.nil, and_true, Effect.within_nat]
    split <;> decide
  · simpa using (setUpd_within π 1 _).mono (by decide)

/-- What UPDATE_LOAD keeps of its operation (R481). -/
def Mgmt.loading (m : Mgmt) : Nat × Bool × Option Nat := (m.loadLen, m.loadErased, m.loadHandle)

theorem updateLoad_local (h len : Nat) : (updateLoad h len).Local fun u => u.mgmt.loading := by
  intro s
  refine Phase.local_phases (List.forall_mem_cons.2 ⟨Phase.local_always.2 ?_, ?_⟩) s
  · simp only [setBank, List.forall_mem_cons, Effect.local_nat, List.not_mem_nil, false_imp_iff, implies_true, and_true]
    exact ⟨fun _ _ _ => rfl, fun _ _ huv => huv⟩
  · simpa using (setUpd_within _ 1 _).local

/-- The image of `len` bytes is awaited, the erase has begun (R481). -/
theorem updateLoad_leaves (s : State) (h len : Nat) : (s.does (updateLoad h len)).updState = 1 ∧
    (s.does (updateLoad h len)).units.mgmt.loading = (len, false, some h) := by
  have hdoes : s.does (updateLoad h len) = (s.run (.mgmt (fun m => { m with
      loadHandle := some h, loadLen := len, loadErased := false, loadGot := 0, loadAt := s.mtbNs, rolled := false,
      updBy := (s.handle h).elim 0 (·.session) }) :: setBank s.otherBank {})).does (setUpd 1 s.otherBank) :=
    (State.does_phases_cons s _ _).trans (State.does_phases_cons _ _ _)
  have hloading := (setUpd_within (fun u => u.mgmt.loading) 1 s.otherBank).units (fun _ _ _ _ _ _ => rfl)
  rw [hdoes]
  refine ⟨updState_setUpd _ (by decide) _, (hloading _).trans ?_⟩
  simp [setBank, Effect.mgmt, Effect.nat, Mgmt.loading]

theorem updateLoad_starts {len : Nat} (hrole : 2 ≤ x.role) (hne : len ≠ 0) (hle : len ≤ 12582912) (h : s.Starts 0x0B20 m x (le 4 len))
    (hfree : s.updState ∉ [1, 3, 4, 5]) : Completes (.updateLoad m) s fun t => s.Started 0x0B20 m t ∧ t.updState = 1 ∧
      t.units.mgmt.loadLen = len ∧ t.units.mgmt.loadErased = false ∧ t.units.mgmt.loadHandle = some s.nextHandle ∧ t.mode = s.mode ∧
      t.store = s.store := by
  have hlen : leAt (le 4 (len : Int)) 0 4 = len := by simpa using leAt_head (n := 4) (v := len) (by omega) []
  have hans : Opcode.answer (some opLoad) (s.noted 0x50 m) x m =
      (s.noted 0x50 m).accepting 0x0B20 m.session (updateLoad s.nextHandle len) := by
    refine (answer_execOpcode h (by decide) rfl (engineers_ok hrole _) ?_).trans (by rw [hlen])
    have hstate : (s.noted 0x50 m).updState = s.updState := rfl
    have hfree' : (s.noted 0x50 m).loadRefused = false := by simpa [State.loadRefused, hstate] using hfree
    simp [hlen, hne, Nat.not_lt.2 hle, hfree']
  have hconf {β : Type} {π : Units → β} := updateLoad_within (π := π) (h := s.nextHandle) (len := len)
  have hb := begun_of_answer h (by decide) hans (hconf Units.onMgmt_sessions (fun _ _ => rfl) _)
  have hframe := hb.frame_of (hconf (fun _ _ => rfl) (fun _ _ => rfl) _)
  obtain ⟨hstate, hloading⟩ := updateLoad_leaves (s.opened 0x0B20 m) s.nextHandle len
  have hkept := (hb.units_of (talkBlind_mgmt (π := Mgmt.loading) fun _ _ _ => rfl) (updateLoad_local _ _ _)).trans hloading
  simp only [Mgmt.loading, Prod.mk.injEq] at hkept
  obtain ⟨hloadLen, herased, hhandle⟩ := hkept
  exact ⟨_, rfl, hb.started_of_confined (hconf Units.onMgmt_handles (fun _ _ => rfl) _),
    (hb.nat_of (hconf Units.onMgmt_anchor (fun _ _ => rfl) _) (by decide)).trans hstate, hloadLen, herased, hhandle, hframe.mode, hframe.store⟩

/-- What UPDATE_ACTIVATE writes as it begins (R482). -/
def activateKeys : List Nat := Key.upd.UPDATE_AT :: updKeys

theorem updateActivate_within {π : Units → α} (hmgmt : ∀ u f, π (Units.onMgmt u f) = π u) (h boundary : Nat) (late : Bool) :
    Phase.Within activateKeys π (updateActivate h boundary late) := by
  intro s
  refine Phase.within_phases (List.forall_mem_cons.2 ⟨(setUpd_within π 3 _).mono (by decide), ?_⟩) s
  simp [hmgmt, activateKeys]

theorem updateActivate_local (h boundary : Nat) (late : Bool) : (updateActivate h boundary late).Local fun u => u.mgmt.actHandle := by
  intro s
  refine Phase.local_phases (List.forall_mem_cons.2 ⟨(setUpd_within _ 3 _).local, ?_⟩) s
  simp only [List.mem_singleton, forall_eq, Phase.local_always, List.forall_mem_cons, Effect.local_nat, true_and]
  exact fun _ _ _ => rfl

/-- The activation waits for its boundary (R482). -/
theorem updateActivate_leaves (s : State) (h boundary : Nat) (late : Bool) :
    (s.does (updateActivate h boundary late)).updState = 3 ∧
      (s.does (updateActivate h boundary late)).nat Key.upd.UPDATE_AT = boundary % 2 ^ 64 ∧
      (s.does (updateActivate h boundary late)).units.mgmt.actHandle = some h := by
  have hwidth : Dict.width Key.upd.UPDATE_AT = some (64, false) := by decide +kernel
  obtain ⟨t, ht⟩ : ∃ t, t = s.does (setUpd 3 s.otherBank) := ⟨_, rfl⟩
  have hdoes : s.does (updateActivate h boundary late) = (t.apply (.nat Key.upd.UPDATE_AT boundary)).apply (.mgmt fun m => { m with
      actHandle := some h, actLate := late, updBy := (s.handle h).elim 0 (·.session) }) :=
    ht ▸ (State.does_phases_cons s _ _).trans (State.does_phases_cons _ _ _)
  have hstate : t.updState = 3 := ht ▸ updState_setUpd s (by decide) s.otherBank
  have hat : (Effect.nat Key.upd.UPDATE_AT boundary).Within [Key.upd.UPDATE_AT] fun _ => () := by simp
  rw [hdoes]
  exact ⟨((hat.frame t).nat (by decide)).trans hstate, State.nat_reg hwidth t boundary, rfl⟩

/-- The next boundary is one of the time and of entries (R12). -/
theorem State.Frame.nextBoundary {t : State} (h : s.Frame [] t) (hmtb : t.mtb = s.mtb) : t.nextBoundary = s.nextBoundary := by
  simp only [State.nextBoundary, State.boundaryFrom, State.now, State.mtbNs, State.fs, State.B, hmtb, h.num List.not_mem_nil]

/-- UPDATE_ACTIVATE begins for the next boundary, as a request without a time asks (R416, R482). -/
def activateNext (h : Nat) : Phase := fun s => updateActivate h s.nextBoundary false s

theorem activateNext_within {π : Units → α} (hmgmt : ∀ u f, π (Units.onMgmt u f) = π u) (h : Nat) :
    Phase.Within activateKeys π (activateNext h) := fun s => updateActivate_within hmgmt h s.nextBoundary false s

theorem activateNext_local (h : Nat) : (activateNext h).Local fun u => u.mgmt.actHandle := fun s =>
  updateActivate_local h s.nextBoundary false s

theorem activateNext_leaves (s : State) (h : Nat) : (s.does (activateNext h)).updState = 3 ∧
    (s.does (activateNext h)).nat Key.upd.UPDATE_AT = s.nextBoundary % 2 ^ 64 ∧
      (s.does (activateNext h)).units.mgmt.actHandle = some h := by
  have hdoes : s.does (activateNext h) = s.does (updateActivate h s.nextBoundary false) := by
    simp only [State.does, activateNext]
  rw [hdoes]
  exact updateActivate_leaves s h s.nextBoundary false

theorem answer_congr {o o' : Opcode} (hform : o.form = o'.form) (hrole : o.role = o'.role)
    (hrun : o.run s m.session m = o'.run s m.session m) : Opcode.answer (some o) s x m = Opcode.answer (some o') s x m := by
  simp only [Opcode.answer, hform, hrole, hrun]

/-- A request without a time is accepted for the next boundary, and never late (R416, R482). -/
theorem answer_opActivateLate (hrole : 2 ≤ x.role) (h : s.Starts 0x0B21 m x (le 8 0 ++ le 4 0)) (hverified : s.updState = 2) :
    Opcode.answer (some opActivateLate) (s.noted 0x50 m) x m =
      (s.noted 0x50 m).accepting 0x0B21 m.session (activateNext s.nextHandle) := by
  have htimed (strict : Bool) (t : State) : t.timedBoundary 0 strict = .ok (t.nextBoundary, false) := if_pos rfl
  have hat : leAt (le 8 0 ++ le 4 0) 0 8 = 0 := by decide
  have hlate : (s.noted 0x50 m).activateLate m.payload = false := by
    have hpayload : leAt m.payload 4 8 = 0 := h.2.1 ▸ by decide
    simp [State.activateLate, hpayload, htimed]
  have hintime : Opcode.answer (some opActivateLate) (s.noted 0x50 m) x m = Opcode.answer (some opActivate) (s.noted 0x50 m) x m :=
    answer_congr rfl rfl (by simp [opActivateLate, hlate])
  have hstate : (s.noted 0x50 m).updState = 2 := hverified
  refine hintime.trans ((answer_execOpcode h (by decide) rfl (engineers_ok hrole _) ?_).trans ?_)
  · simp [hstate, hat, htimed]
  · simp only [hat, htimed]
    rfl

theorem updateActivate_starts (hrole : 2 ≤ x.role) (h : s.Starts 0x0B21 m x (le 8 0 ++ le 4 0)) (hverified : s.updState = 2) :
    Completes (.updateActivate m) s fun t => s.Started 0x0B21 m t ∧ t.updState = 3 ∧
      t.nat Key.upd.UPDATE_AT = s.nextBoundary % 2 ^ 64 ∧ t.units.mgmt.actHandle = some s.nextHandle ∧ t.mode = s.mode ∧
      t.store = s.store := by
  have hconf {β : Type} {π : Units → β} := activateNext_within (π := π) (h := s.nextHandle)
  have hb := begun_of_answer h (by decide) (answer_opActivateLate hrole h hverified) (hconf Units.onMgmt_sessions _)
  have hframe := hb.frame_of (hconf (fun _ _ => rfl) _)
  obtain ⟨hstate, hboundary, hhandle⟩ := activateNext_leaves (s.opened 0x0B21 m) s.nextHandle
  rw [(opened_frame s 0x0B21 m).nextBoundary (by simp [State.opened, State.noted])] at hboundary
  have hkept := hb.units_of (talkBlind_mgmt (π := Mgmt.actHandle) fun _ _ _ => rfl) (activateNext_local _ _)
  exact ⟨_, rfl, hb.started_of_confined (hconf Units.onMgmt_handles _), (hb.nat_of (hconf Units.onMgmt_anchor _) (by decide)).trans hstate,
    (hb.nat_of (hconf Units.onMgmt_anchor _) (by decide)).trans hboundary, hkept.trans hhandle, hframe.mode, hframe.store⟩

end Sys2Proof.Machine
end

section
/-!
The sweep of an analysis begins (R319, R322, R326-R329): the generator takes it up, and what was recorded before is discarded.
-/

namespace Sys2Proof.Machine

variable {α : Type} {s : State} {h g : Nat} {x : Handle}

/-! ### Effects on generators, channels and handles -/

@[simp] theorem Effect.only_gen {q : Nat → Prop} {π : Units → α} {i : Nat} {f : Gen → Gen} :
    (Effect.gen i f).Only q π ↔ ∀ u : Units, π (u.onGen i f) = π u := .rfl
@[simp] theorem Effect.only_handle {q : Nat → Prop} {π : Units → α} {i : Nat} {f : Option Handle → Option Handle} :
    (Effect.handle i f).Only q π ↔ ∀ u : Units, π (u.onHandle i f) = π u := .rfl
@[simp] theorem Effect.only_chan {q : Nat → Prop} {π : Units → α} {i : Nat} {f : Chan → Chan} :
    (Effect.chan i f).Only q π ↔ ∀ u : Units, π (u.onChan i f) = π u := .rfl
@[simp] theorem Effect.only_reg {q : Nat → Prop} {π : Units → α} {k : Nat} {v : Value} : (Effect.reg k v).Only q π ↔ q k := .rfl

@[simp] theorem Effect.local_gen (i : Nat) (f : Gen → Gen) : (Effect.gen i f).Local fun u => u.handles := fun _ _ h => h
@[simp] theorem Effect.local_chan (i : Nat) (f : Chan → Chan) : (Effect.chan i f).Local fun u => u.handles := fun _ _ h => h
@[simp] theorem Effect.local_handle (i : Nat) (f : Option Handle → Option Handle) : (Effect.handle i f).Local fun u => u.handles :=
  fun _ _ h => congrArg (Tbl.upd none · i f) h

@[simp] theorem Units.onChan_gens (u : Units) (i : Nat) (f : Chan → Chan) : (u.onChan i f).gens = u.gens := rfl
@[simp] theorem Units.onHandle_gens (u : Units) (i : Nat) (f : Option Handle → Option Handle) : (u.onHandle i f).gens = u.gens := rfl

/-! ### The beginning of a sweep -/

/-- The sweep that a generator is given (R322): its point, its target and its amplitude. -/
def Gen.Given (y : Gen) (point target : Nat) (amp : Rat) : Prop := y.point = point ∧ y.target = target ∧ y.amp = some amp

/-- What has been recorded of a channel before a sweep is discarded. -/
def untraced (c : Nat) : Effect := .chan c fun y => { y with trace := [] }

/-- What has been recorded of a handle's slot before a sweep is discarded. -/
def untracedHandle (h : Nat) : Effect := .handle h fun y => y.map fun y => { y with trace := [] }

/-- A generator takes up a sweep at an instant (R310, R322). -/
def sweepEffects (g : Nat) (f : Gen → Gen) (at' : Nat) : List Effect :=
  [.gen g f, .num (Key.gen.G_SAMPLES g) 0, .gen g fun y => { y with begun := true, first := some at' }]

/-- The sweep of an analysis: the generator takes it up, and the records begin anew; a LOADCHECK sweeps the live channels (R326,
R329). -/
theorem sweepBegin_eq (hx : s.handle h = some x) (hg : x.gen = some g) : ∃ (f : Gen → Gen) (l : List Nat),
    sweepBegin h s = sweepEffects g f s.mtbNs ++ (l.map untraced ++ [untracedHandle h]) ∧
      (x.op = 0x0912 → ∀ y, (f y).Given 1 x.live (if x.inRun then 1 / 100 else 1)) := by
  have hlatched {latch : Phase} {taken : List Nat} {Q : (Gen → Gen) → Prop} (hlatch : ∃ f, latch s = [.gen g f] ∧ Q f) :
      ∃ (f : Gen → Gen) (l : List Nat), phases [latch, genBegin g, always (taken.map untraced ++ [untracedHandle h])] s =
        sweepEffects g f s.mtbNs ++ (l.map untraced ++ [untracedHandle h]) ∧ Q f := by
    obtain ⟨f, hf, hq⟩ := hlatch
    refine ⟨f, taken, ?_, hq⟩
    simp only [phases, hf, always, List.append_nil]
    rfl
  rw [sweepBegin, hx]
  simp only [hg]
  refine hlatched ?_
  split_ifs
  · exact ⟨_, rfl, fun _ _ => ⟨rfl, rfl, rfl⟩⟩
  · exact ⟨_, rfl, fun _ _ => ⟨rfl, rfl, rfl⟩⟩
  all_goals exact ⟨_, rfl, fun hop => absurd hop ‹_›⟩

/-- From every state a sweep is taken up by a generator, or nothing begins. -/
theorem sweepBegin_cases (h : Nat) (s : State) : sweepBegin h s = [] ∨ ∃ (g : Nat) (f : Gen → Gen) (l : List Nat),
    sweepBegin h s = sweepEffects g f s.mtbNs ++ (l.map untraced ++ [untracedHandle h]) := by
  cases hx : s.handle h with
  | none => exact .inl (by rw [sweepBegin, hx])
  | some x =>
    cases hg : x.gen with
    | none =>
      left
      rw [sweepBegin, hx]
      simp only [hg]
    | some g =>
      obtain ⟨f, l, heq, -⟩ := sweepBegin_eq hx hg
      exact .inr ⟨g, f, l, heq⟩

/-- A sweep that begins writes G_SAMPLES, and reaches generators, channels and handles (R310). -/
theorem sweepBegin_only {π : Units → α} (hgen : ∀ u i f, π (Units.onGen u i f) = π u) (hchan : ∀ u i f, π (Units.onChan u i f) = π u)
    (hhandle : ∀ u i f, π (Units.onHandle u i f) = π u) (h : Nat) : (sweepBegin h).Only (· % 256 = 16) π := by
  intro s
  obtain heq | ⟨g, f, l, heq⟩ := sweepBegin_cases h s
  · simp [heq]
  · have hkey : Key.gen.G_SAMPLES g % 256 = 16 := by simp [Key.gen.G_SAMPLES]
    simp [heq, sweepEffects, untraced, untracedHandle, or_imp, forall_and, hgen, hchan, hhandle, hkey]

theorem sweepBegin_local (h : Nat) : (sweepBegin h).Local fun u => u.handles := by
  intro s
  obtain heq | ⟨g, f, l, heq⟩ := sweepBegin_cases h s
  · simp [heq]
  · simp [heq, sweepEffects, untraced, untracedHandle, or_imp, forall_and]

theorem width_gSamples : ∀ g < 4, Dict.width (Key.gen.G_SAMPLES g) = some (64, false) := by decide +kernel

/-- What the beginning of a sweep leaves of its generator and its handle. -/
theorem sweepBegin_leaves (hx : s.handle h = some x) (hg : x.gen = some g) : s.Frame [Key.gen.G_SAMPLES g] (s.does (sweepBegin h)) ∧
    (g < 4 → (s.does (sweepBegin h)).num (Key.gen.G_SAMPLES g) = 0) ∧
    (s.does (sweepBegin h)).handle h = some { x with trace := [] } ∧ ((s.does (sweepBegin h)).gen g).begun = true ∧
    (x.op = 0x0912 → ((s.does (sweepBegin h)).gen g).Given 1 x.live (if x.inRun then 1 / 100 else 1)) := by
  obtain ⟨f, l, heq, hload⟩ := sweepBegin_eq hx hg
  have hrest {β : Type} {π : Units → β} (hchan : ∀ u i f, π (Units.onChan u i f) = π u) : Confined [] π (l.map untraced) := by
    simp [untraced, hchan]
  obtain ⟨t, ht⟩ : ∃ t, t = s.run (sweepEffects g f s.mtbNs) := ⟨_, rfl⟩
  have hdoes : s.does (sweepBegin h) = (t.run (l.map untraced)).apply (untracedHandle h) := by
    rw [State.does, heq, State.run_append, State.run_append, ← ht]
    rfl
  have hlast : (untracedHandle h).Within [] fun u => u.gens := by simp [untracedHandle]
  have hgens : (s.does (sweepBegin h)).gen g = t.gen g := by
    have hkept := (hlast.units (fun _ _ _ _ _ _ => rfl) (t.run (l.map untraced))).trans
      ((hrest Units.onChan_gens).units (fun _ _ _ _ _ _ => rfl) t)
    rw [hdoes]
    exact congrArg (Tbl.at {} · g) hkept
  have htgen : t.gen g = { f (s.gen g) with begun := true, first := some s.mtbNs } := by
    rw [ht, sweepEffects, State.run_cons, State.run_cons, State.run_cons, State.run_nil, State.gen_apply_gen, if_pos rfl]
    have hsame (u : State) : (u.apply (.num (Key.gen.G_SAMPLES g) 0)).gen g = u.gen g := by simp [State.gen, Effect.num]
    rw [hsame, State.gen_apply_gen, if_pos rfl]
  have htaken : Confined [Key.gen.G_SAMPLES g] (fun u => u.handles) (sweepEffects g f s.mtbNs) := by simp [sweepEffects]
  have hthandle : (t.run (l.map untraced)).handle h = some x := by
    have hkept := ((hrest Units.onChan_handles).units (fun _ _ _ _ _ _ => rfl) t).trans
      (ht ▸ htaken.units (fun _ _ _ _ _ _ => rfl) s)
    exact (congrArg (Tbl.at none · h) hkept).trans hx
  have hframe : t.Frame [] (s.does (sweepBegin h)) := by
    rw [hdoes]
    exact ((hrest (π := fun _ => ()) fun _ _ _ => rfl).frame t).trans (hlast.frame _)
  refine ⟨(ht ▸ htaken.frame s).trans (hframe.mono (List.nil_subset _)), fun hg4 => ?_, ?_, ?_, fun hop => ?_⟩
  · rw [hframe.num List.not_mem_nil, ht]
    exact State.num_reg_of_lt (width_gSamples g hg4) (s.apply (.gen g f)) (by decide) (by decide)
  · rw [hdoes, untracedHandle, State.handle_apply_handle, if_pos rfl, hthandle]
    rfl
  · rw [hgens, htgen]
  · rw [hgens, htgen]
    exact hload hop (s.gen g)

end Sys2Proof.Machine
end

section
/-!
An analysis ends (R321, R326, R329, R424): what its end leaves of the result object, the generator and the handle; the sweep of a
LOADCHECK that begins.
-/

namespace Sys2Proof.Machine

variable {α : Type} {s : State} {h g r : Nat} {x : Handle}

/-! ### The end of a generator (R310) -/

/-- What a change of a generator's state writes. -/
def genKeys (g : Nat) : List Nat := [Key.gen.G_STATE g, Key.evt.EVT_RAISED]

theorem generatorEnd_within {π : Units → α} (hgen : ∀ u i f, π (Units.onGen u i f) = π u) (hslot : ∀ u i f, π (Units.onSlot u i f) = π u)
    (g : Nat) : Phase.Within (genKeys g) π (generatorEnd g) := by
  have hset : Phase.Within (genKeys g) π (setGen g 0) := fun s => by simp [setGen, genKeys]
  have hinj (i : Nat) (f : Slot → Slot) : (Effect.slot i f).Within (genKeys g) π := fun u => hslot u i f
  intro s
  unfold generatorEnd
  dsimp only
  split
  · exact .nil
  · refine confined_ite.2 ⟨fun _ => Phase.within_phases ?_ s, fun _ => .nil⟩
    simp only [List.forall_mem_cons, List.not_mem_nil, false_imp_iff, implies_true, and_true, Phase.within_always, confined_append,
      confined_cons, Confined.nil, Effect.within_gen]
    refine ⟨hset, ?_, fun u => hgen u _ _⟩
    split_ifs
    · exact confined_cons.2 ⟨hinj _ _, .nil⟩
    · exact confined_cons.2 ⟨hinj _ _, .nil⟩
    · exact .nil

/-! ### The end of a handle (R423, R424) -/

/-- The record of an operation that has ended. -/
def Handle.ended (x : Handle) (status result doneAt : Nat) : Handle :=
  { x with finished := true, status := status, result := result, progress := 100, doneAt := doneAt }

theorem does_handleEnd (hx : s.handle h = some x) (hruns : x.finished = false) (status result : Nat) :
    s.does (handleEnd h status result) = (s.apply (.handle h fun y => y.map fun y => y.ended status result s.mtbNs)).apply
      (.raise Ev.EVT_DONE (args16 [h, status, result]) x.session none) := by
  rw [State.does, handleEnd, hx]
  simp only [hruns]
  rfl

/-- An operation that ends has its record, and its session is told (R423). -/
theorem handleEnd_leaves (hx : s.handle h = some x) (hruns : x.finished = false) (status result : Nat) :
    s.Frame [Key.evt.EVT_RAISED] (s.does (handleEnd h status result)) ∧
      (s.does (handleEnd h status result)).handle h = some (x.ended status result s.mtbNs) := by
  obtain ⟨t, ht⟩ : ∃ t, t = s.apply (.handle h fun y => y.map fun y => y.ended status result s.mtbNs) := ⟨_, rfl⟩
  have hend : (Effect.handle h fun y => y.map fun y => y.ended status result s.mtbNs).Within [Key.evt.EVT_RAISED] fun _ => () := by simp
  have hevent : (Effect.raise Ev.EVT_DONE (args16 [h, status, result]) x.session none).Within [Key.evt.EVT_RAISED] fun u => u.handles := by
    simp
  have hkept := congrArg (Tbl.at none · h) (hevent.units (fun _ _ _ _ _ _ => rfl) t)
  rw [does_handleEnd hx hruns, ← ht]
  refine ⟨(ht ▸ hend.frame s).trans (hevent.frame t), hkept.trans ?_⟩
  have hended : t.handle h = some (x.ended status result s.mtbNs) := by
    rw [ht, State.handle_apply_handle, if_pos rfl, hx]
    rfl
  exact hended

/-! ### The end of an analysis (R321) -/

/-- What an analysis that ends leaves beside its state, its end and its status: points and data, and the classes of a LOADCHECK, which
are reported (R320, R326). -/
def endRest (r points : Nat) (blob : List Byte) (classes : List Effect) : List Effect :=
  [.nat (Key.res.RES_POINTS r) points, .reg (Key.res.RES_DATA r) (.bytes blob), .bump Key.meas.ANALYSES_ACTIVE (-1)] ++ classes

/-- The result object of an analysis that ends (R320, R321). -/
def endEffects (r status endAt points : Nat) (blob : List Byte) (classes : List Effect) : List Effect :=
  .num (Key.res.RES_STATE r) (if status = St.ok then 2 else 3) :: .nat (Key.res.RES_END r) endAt ::
    .nat (Key.res.RES_STATUS r) status :: endRest r points blob classes

/-- Events of one class, each where something is to report, reach the ring alone. -/
theorem confined_filterMap_event {β : Type} (π : Units → α) (c : Nat) (l : List β) (quiet : β → Prop) [DecidablePred quiet]
    (args : β → List Byte) :
    Confined [Key.evt.EVT_RAISED] π (l.filterMap fun p => if quiet p then none else some (Effect.event c (args p))) := by
  intro e he
  obtain ⟨p, -, hp⟩ := List.mem_filterMap.1 he
  obtain ⟨-, hevent⟩ := Option.ite_none_left_eq_some.1 hp
  exact Option.some.inj hevent ▸ List.mem_singleton_self _

theorem analysisFinish_eq (hx : s.handle h = some x) (hruns : x.finished = false) (hop : isAnalysis x.op = true) (hg : x.gen = some g)
    (status : Nat) (data : Option (List ChanResult)) : ∃ (points : Nat) (blob : List Byte) (classes : List Effect) (f : Gen → Gen),
    analysisFinish h status data s = phases [always (endEffects (x.result - 0x9100) status s.now points blob classes),
      handleEnd h status x.result, always [.gen g f], generatorEnd g] s ∧ Confined [Key.evt.EVT_RAISED] (fun u => u.handles) classes := by
  rw [analysisFinish, hx]
  simp only [hruns, hop, hg]
  refine ⟨_, _, _, _, rfl, ?_⟩
  split
  · exact .nil
  · exact confined_filterMap_event _ _ _ (fun p => _ = 0) _

/-- What the end of an analysis writes beside the state, the end and the status of its result object. -/
def restKeys (r : Nat) : List Nat := [Key.res.RES_POINTS r, Key.res.RES_DATA r, Key.meas.ANALYSES_ACTIVE, Key.evt.EVT_RAISED]

/-- What the end of an analysis writes of its result object, and reports. -/
def endKeys (r : Nat) : List Nat := Key.res.RES_STATE r :: Key.res.RES_END r :: Key.res.RES_STATUS r :: restKeys r

section Ends
variable {status endAt points : Nat} {blob : List Byte} {classes : List Effect}
  (hclasses : Confined [Key.evt.EVT_RAISED] (fun u => u.handles) classes)
include hclasses

theorem endRest_confined : Confined (restKeys r) (fun u => u.handles) (endRest r points blob classes) := by
  have hreported := hclasses.mono (ls := restKeys r) (by simp [restKeys])
  refine confined_append.2 ⟨?_, hreported⟩
  simp [restKeys]

theorem endEffects_confined : Confined (endKeys r) (fun u => u.handles) (endEffects r status endAt points blob classes) := by
  have hrest := (endRest_confined (points := points) (blob := blob) (r := r) hclasses).mono (ls := endKeys r) fun k hk => by
    simp [endKeys, hk]
  refine confined_cons.2 ⟨by simp [endKeys], confined_cons.2 ⟨by simp [endKeys], confined_cons.2 ⟨by simp [endKeys], hrest⟩⟩⟩

/-- The result object shows the state and the status of the end (R320, R321). -/
theorem endEffects_leaves (hr : r < 64) (hstatus : status < 256) (s : State) :
    (s.run (endEffects r status endAt points blob classes)).num (Key.res.RES_STATE r) = (if status = St.ok then 2 else 3) ∧
      (s.run (endEffects r status endAt points blob classes)).nat (Key.res.RES_STATUS r) = status := by
  have hkeys : ∀ r < 64, Dict.width (Key.res.RES_STATE r) = some (8, false) ∧ Dict.width (Key.res.RES_STATUS r) = some (8, false) ∧
      Key.res.RES_STATE r ∉ Key.res.RES_END r :: Key.res.RES_STATUS r :: restKeys r ∧ Key.res.RES_STATUS r ∉ restKeys r := by
    decide +kernel
  obtain ⟨hwidth, hwidth', hout, hout'⟩ := hkeys r hr
  have hrest := endRest_confined (points := points) (blob := blob) (r := r) hclasses
  have hafter : Confined (Key.res.RES_END r :: Key.res.RES_STATUS r :: restKeys r) (fun u => u.handles)
      (.nat (Key.res.RES_END r) endAt :: .nat (Key.res.RES_STATUS r) status :: endRest r points blob classes) :=
    confined_cons.2 ⟨by simp, confined_cons.2 ⟨by simp, hrest.mono fun k hk => by simp [hk]⟩⟩
  constructor
  · rw [endEffects, State.run_cons, (hafter.frame _).num hout]
    refine State.num_reg_of_lt hwidth s ?_ ?_ <;> split <;> decide
  · rw [endEffects, State.run_cons, State.run_cons, State.run_cons, (hrest.frame _).nat hout']
    exact State.nat_reg_of_lt hwidth' _ hstatus

end Ends

/-- An analysis has ended with a status: its result object shows it, and its handle (R321, R424). -/
structure State.AnalysisEnded (s : State) (h : Nat) (x : Handle) (r status : Nat) (t : State) : Prop where
  result : t.num (Key.res.RES_STATE r) = if status = St.ok then 2 else 3
  shown : t.nat (Key.res.RES_STATUS r) = status
  mode : t.mode = s.mode
  store : t.store = s.store
  handle : ∃ doneAt, t.handle h = some (x.ended status x.result doneAt)

theorem analysisFinish_ends (hx : s.handle h = some x) (hruns : x.finished = false) (hop : isAnalysis x.op = true)
    (hresult : x.result = 0x9100 + r) (hr : r < 64) (hg : x.gen = some g) (hg4 : g < 4) {status : Nat} (hstatus : status < 256)
    (data : Option (List ChanResult)) : s.AnalysisEnded h x r status (s.does (analysisFinish h status data)) := by
  obtain ⟨points, blob, classes, f, hfinish, hclasses⟩ := analysisFinish_eq hx hruns hop hg status data
  have hr' : x.result - 0x9100 = r := by omega
  rw [hr'] at hfinish
  have heffects := endEffects_confined (r := r) (status := status) (endAt := s.now) (points := points) (blob := blob) hclasses
  obtain ⟨hstate, hstat⟩ := endEffects_leaves (endAt := s.now) (points := points) (blob := blob) hclasses hr hstatus s
  obtain ⟨t, ht⟩ : ∃ t, t = s.run (endEffects r status s.now points blob classes) := ⟨_, rfl⟩
  have hframe := ht ▸ heffects.frame s
  have hhandle : t.handle h = some x := by
    have hkept := ht ▸ heffects.units (fun _ _ _ _ _ _ => rfl) s
    exact (congrArg (Tbl.at none · h) hkept).trans hx
  obtain ⟨hframe', hended⟩ := handleEnd_leaves hhandle hruns status x.result
  obtain ⟨v, hv⟩ : ∃ v, v = t.does (handleEnd h status x.result) := ⟨_, rfl⟩
  have hdoes : s.does (analysisFinish h status data) = v.does (phases [always [.gen g f], generatorEnd g]) := by
    rw [State.does, hfinish]
    refine (State.does_phases_cons s _ _).trans ?_
    rw [State.does_phases_cons, State.does_always, ← ht, ← hv]
  have hlast {β : Type} {π : Units → β} (hgen : ∀ u i f, π (Units.onGen u i f) = π u)
      (hslot : ∀ u i f, π (Units.onSlot u i f) = π u) : Phase.Within (genKeys g) π (phases [always [.gen g f], generatorEnd g]) :=
    Phase.within_phases (by simp [generatorEnd_within hgen hslot, hgen])
  have hout : ∀ r < 64, ∀ g < 4, Key.res.RES_STATE r ∉ Key.evt.EVT_RAISED :: genKeys g ∧
      Key.res.RES_STATUS r ∉ Key.evt.EVT_RAISED :: genKeys g := by decide +kernel
  obtain ⟨hstate', hstat'⟩ := hout r hr g hg4
  have hrest : t.Frame (Key.evt.EVT_RAISED :: genKeys g) (s.does (analysisFinish h status data)) := by
    rw [hdoes]
    have hlast' := (hlast (π := fun _ => ()) (fun _ _ _ => rfl) fun _ _ _ => rfl).frame v
    exact ((hv ▸ hframe').mono (by simp)).trans (hlast'.mono (List.subset_cons_self _ _))
  refine ⟨(hrest.num hstate').trans (ht ▸ hstate), (hrest.nat hstat').trans (ht ▸ hstat), hrest.mode.trans hframe.mode,
    hrest.store.trans hframe.store, t.mtbNs, ?_⟩
  have hkept := (hlast (π := fun u => u.handles) Units.onGen_handles Units.onSlot_handles).units (fun _ _ _ _ _ _ => rfl) v
  rw [hdoes]
  exact (congrArg (Tbl.at none · h) hkept).trans (hv ▸ hended)

/-! ### The sweep of a LOADCHECK (R326, R329) -/

/-- A sweep takes its live channels (R329). -/
def takeLive (h live : Nat) : Effect := .handle h fun y => y.map fun y => { y with sweeping := true, live := live }

/-- The sweep of a LOADCHECK has begun at generator `g` with the live channels and the amplitude (R326, R329). -/
structure State.SweepBegun (s : State) (h g live : Nat) (amp : Rat) (t : State) : Prop where
  begun : (t.gen g).begun = true
  given : (t.gen g).Given 1 live amp
  samples : t.num (Key.gen.G_SAMPLES g) = 0
  frame : s.Frame [Key.gen.G_SAMPLES g] t
  handle : ∃ y, t.handle h = some y ∧ y.sweeping = true ∧ y.live = live

/-- The generator's parts of a sweep that has begun, one by one, and its handle. -/
theorem State.SweepBegun.parts {t : State} {live : Nat} {amp : Rat} (hsweep : s.SweepBegun h g live amp t) :
    (t.gen g).begun = true ∧ (t.gen g).point = 1 ∧ (t.gen g).target = live ∧ (t.gen g).amp = some amp ∧
      t.num (Key.gen.G_SAMPLES g) = 0 ∧ s.Frame [Key.gen.G_SAMPLES g] t ∧
      ∃ y, t.handle h = some y ∧ y.sweeping = true ∧ y.live = (t.gen g).target := by
  obtain ⟨hbegun, ⟨hpoint, htarget, hamp⟩, hsamples, hframe, y, hy, hsweeping, hlive⟩ := hsweep
  exact ⟨hbegun, hpoint, htarget, hamp, hsamples, hframe, y, hy, hsweeping, hlive.trans htarget.symm⟩

theorem takeLive_sweepBegin (hx : s.handle h = some x) (hop : x.op = 0x0912) (hg : x.gen = some g) (hg4 : g < 4) (live : Nat)
    {amp : Rat} (hamp : (if x.inRun then 1 / 100 else 1) = amp) :
    s.SweepBegun h g live amp (s.does (phases [always [takeLive h live], sweepBegin h])) := by
  have hdoes : s.does (phases [always [takeLive h live], sweepBegin h]) = (s.apply (takeLive h live)).does (sweepBegin h) := by
    simp
  have htaken : (s.apply (takeLive h live)).handle h = some { x with sweeping := true, live := live } := by
    rw [takeLive, State.handle_apply_handle, if_pos rfl, hx]
    rfl
  have hframe : (takeLive h live).Within [Key.gen.G_SAMPLES g] fun _ => () := by simp [takeLive]
  obtain ⟨hsweep, hsamples, hhandle, hbegun, hgiven⟩ := sweepBegin_leaves htaken hg
  rw [hdoes]
  exact ⟨hbegun, hamp ▸ hgiven hop, hsamples hg4, (hframe.frame s).trans hsweep, _, hhandle, rfl, rfl⟩

/-- The channels that a sweep takes, as a mask. -/
def State.sweepMask (s : State) (x : Handle) : Nat := (s.sweepable x).foldl (fun a c => a ||| 2 ^ c) 0

/-- In MEASURE a LOADCHECK sweeps once its channels play again (R326). -/
theorem loadcheckSweepStart_measure (hx : s.handle h = some x) (hruns : x.finished = false) (hop : x.op = 0x0912)
    (hsweeping : x.sweeping = false) (hrun : x.inRun = false) (hpart : x.part = 3)
    (hplay : (ones 16 x.chans).all (fun c => s.playing c) = true) (hsome : s.sweepable x ≠ []) :
    s.does (loadcheckSweepStart h) = s.does (phases [always [takeLive h (s.sweepMask x)], sweepBegin h]) := by
  rw [State.does, loadcheckSweepStart, hx]
  simp only [hruns, hop, hsweeping, hrun, hpart, hplay]
  exact congrArg s.run (if_pos ⟨trivial, by decide, by decide, hsome, rfl⟩)

/-- In RUN a LOADCHECK sweeps at the block boundary at which the channels that play have been silent for LC_SILENCE (R329). -/
theorem loadcheckSweepStart_run (hx : s.handle h = some x) (hruns : x.finished = false) (hop : x.op = 0x0912)
    (hsweeping : x.sweeping = false) (hrun : x.inRun = true) (hboundary : s.atBoundary = true) (hsome : s.sweepable x ≠ [])
    (hsilent : ((s.sweepable x).all fun c => s.passed (s.chan c).quietSince ((x.params.getD 2 0).toNat * 1000000)) = true) :
    s.does (loadcheckSweepStart h) = s.does (phases [always [takeLive h (s.sweepMask x)], sweepBegin h]) := by
  rw [State.does, loadcheckSweepStart, hx]
  simp only [hruns, hop, hsweeping, hrun, hboundary, hsilent]
  exact congrArg s.run (if_pos ⟨trivial, by decide, by decide, hsome, rfl⟩)

/-! ### ANALYSIS_END and LOADCHECK_TIMEOUT (R321, R329) -/

theorem analysisEnd_of_stops (hx : s.handle h = some x) {status : Nat} (hstops : s.analysisStops x = some status)
    (data : List ChanResult) : s.does (analysisEnd h data) = s.does (analysisFinish h status none) := by
  rw [State.does, analysisEnd, hx]
  simp only [hstops]
  rfl

theorem analysisEnd_of_measured (hx : s.handle h = some x) (hstops : s.analysisStops x = none) (hmeasured : s.measured x = true)
    (hfails : s.analysisFails x = false) (data : List ChanResult) :
    s.does (analysisEnd h data) = s.does (analysisFinish h St.ok (some data)) := by
  rw [State.does, analysisEnd, hx]
  simp only [hstops, hmeasured, hfails]
  rfl

theorem analysisStops_of_fenced (hfenced : (ones 16 x.chans).any s.chanFenced = true) : s.analysisStops x = some St.fenced :=
  if_pos hfenced

theorem loadcheckTimeout_of_expired (hx : s.handle h = some x) (hruns : x.finished = false) (hrun : x.inRun = true)
    (hlimit : s.expired x.startAt ((x.params.getD 3 0).toNat * 1000000000) = true) (hswept : x.swept ≠ x.chans) :
    s.does (loadcheckTimeout h) = s.does (analysisFinish h St.timeout none) := by
  rw [State.does, loadcheckTimeout, hx]
  exact congrArg s.run (if_pos ⟨hrun, by simp [hruns], hlimit, hswept⟩)

/-- Settles O45: each of the three ends is the one end of an analysis with its status, and both begins are the one sweep. -/
theorem analysesRunAndEnd : Obligations.AnalysesRunAndEnd := by
  unfold Obligations.AnalysesRunAndEnd
  intro s h x r g hx hruns hresult hg
  have hends (hop : isAnalysis x.op = true) (status : Nat) (hstatus : status < 256) (data : Option (List ChanResult)) :=
    analysisFinish_ends hx hruns hop hresult r.isLt hg g.isLt hstatus data
  refine ⟨fun data hop hstops hmeasured hfails => ⟨s.does (analysisEnd h data), rfl, ?_⟩,
    fun data hop hfenced => ⟨s.does (analysisEnd h data), rfl, ?_⟩,
    fun hop hrun hlimit hswept => ⟨s.does (loadcheckTimeout h), rfl, ?_⟩,
    fun hop hsweeping hrun hpart hplay hsome => ⟨s.does (loadcheckSweepStart h), rfl, ?_⟩,
    fun hop hsweeping hrun hboundary hsome hsilent => ⟨s.does (loadcheckSweepStart h), rfl, ?_⟩⟩
  · obtain ⟨hstate, hshown, hmode, hstore, _, hended⟩ := hends hop St.ok (by decide) (some data)
    rw [analysisEnd_of_measured hx hstops hmeasured hfails]
    exact ⟨hstate, hshown, hmode, hstore, _, hended, rfl, rfl, rfl⟩
  · obtain ⟨hstate, hshown, hmode, hstore, _, hended⟩ := hends hop St.fenced (by decide) none
    rw [analysisEnd_of_stops hx (analysisStops_of_fenced hfenced) data]
    exact ⟨hstate, hshown, hmode, hstore, _, hended, rfl, rfl⟩
  · obtain ⟨hstate, hshown, hmode, -, _, hended⟩ := hends (by rw [hop]; rfl) St.timeout (by decide) none
    rw [loadcheckTimeout_of_expired hx hruns hrun hlimit hswept]
    exact ⟨hstate, hshown, hmode, _, hended, rfl, rfl⟩
  · rw [loadcheckSweepStart_measure hx hruns hop hsweeping hrun hpart hplay hsome]
    exact (takeLive_sweepBegin hx hop hg g.isLt (s.sweepMask x) (by simp [hrun])).parts
  · rw [loadcheckSweepStart_run hx hruns hop hsweeping hrun hboundary hsome hsilent]
    exact (takeLive_sweepBegin hx hop hg g.isLt (s.sweepMask x) (by simp [hrun])).parts

end Sys2Proof.Machine
end

section
/-!
An analysis is accepted (R319, R320): it takes an idle generator and a result object, and runs under its handle; with it every EXEC
that nothing refuses begins (R423).
-/

namespace Sys2Proof.Machine

variable {α : Type} {s t : State} {h n op chans slot g r : Nat} {reused : Bool} {m : CdlMsg} {x : Session}

/-! ### What an analysis takes (R319, R320) -/

theorem State.Frame.genState (h : s.Frame [] t) (g : Nat) : t.genState g = s.genState g := h.nat List.not_mem_nil

theorem State.Frame.resultFor (h : s.Frame [] t) : t.resultFor = s.resultFor := by
  simp only [State.resultFor, State.flag, h.num List.not_mem_nil]

/-- A fold that keeps what it holds or takes the next element ends with an element of the list, or with what it began with. -/
theorem mem_of_foldl_pick {β : Type} {f : Option β → β → Option β} (hf : ∀ o a b, f o a = some b → o = some b ∨ b = a) {l : List β}
    {o : Option β} {b : β} (h : l.foldl f o = some b) : o = some b ∨ b ∈ l := by
  induction l generalizing o with
  | nil => exact .inl h
  | cons a l ih =>
    obtain hmid | hmem := ih h
    · exact (hf o a b hmid).imp_right fun (hb : b = a) => hb ▸ List.mem_cons_self
    · exact .inr (List.mem_cons_of_mem a hmem)

theorem resultFor_lt (h : s.resultFor = some (r, reused)) : r < 64 := by
  unfold State.resultFor at h
  split at h
  next q hfree =>
    obtain ⟨rfl, -⟩ := Prod.mk.inj (Option.some.inj h)
    exact List.mem_range.1 (List.mem_of_find?_eq_some hfree)
  next =>
    obtain ⟨q, hq, hpair⟩ := Option.map_eq_some_iff.1 h
    obtain ⟨rfl, -⟩ := Prod.mk.inj hpair
    obtain hnone | hmem := mem_of_foldl_pick (by
      intro o a b hab
      cases o with
      | none => exact .inr (Option.some.inj hab).symm
      | some q' =>
        dsimp only at hab
        split at hab
        · exact .inr (Option.some.inj hab).symm
        · exact .inl hab) hq
    · cases hnone
    · exact List.mem_range.1 (List.mem_filter.1 hmem).1

/-- The idle generator and the result object that an analysis takes (R319, R320). -/
structure State.Offers (s : State) (g r : Nat) (reused : Bool) : Prop where
  gen : (List.range 4).find? (fun g => s.genState g == 0) = some g
  result : s.resultFor = some (r, reused)

theorem State.Offers.gen_lt (h : s.Offers g r reused) : g < 4 := List.mem_range.1 (List.mem_of_find?_eq_some h.gen)
theorem State.Offers.result_lt (h : s.Offers g r reused) : r < 64 := resultFor_lt h.result

theorem State.Offers.of_frame (h : s.Offers g r reused) (hframe : s.Frame [] t) : t.Offers g r reused :=
  ⟨by simpa only [hframe.genState] using h.gen, hframe.resultFor.trans h.result⟩

theorem eq_none_of_ite_some {c : Prop} [Decidable c] {n : Nat} {o : Option Nat} (h : (if c then some n else o) = none) : o = none := by
  split at h
  · exact absurd h (Option.some_ne_none n)
  · exact h

/-- An analysis that is not refused finds its generator and its result object (R319, R320). -/
theorem offers_of_not_refused (h : s.analysisRefused op chans slot = none) : ∃ g r reused, s.Offers g r reused := by
  have htaken := eq_none_of_ite_some (eq_none_of_ite_some h)
  cases hgen : (List.range 4).find? fun g => s.genState g == 0 with
  | none => simp [hgen] at htaken
  | some g =>
    cases hresult : s.resultFor with
    | none => simp [hresult] at htaken
    | some taken => exact ⟨g, taken.1, taken.2, hgen, hresult⟩

/-! ### The acceptance of an analysis -/

/-- The record of an analysis that is accepted (R319). -/
def State.analysisRecord (s : State) (n op chans slot g r : Nat) : Handle where
  op := op
  session := n
  chans := chans
  slot := slot
  gen := some g
  inRun := op == 0x0912 && s.mode == .run
  startAt := s.mtbNs
  params := s.measParams
  result := 0x9100 + r

/-- What an accepted analysis writes of its result object beside state, kind, handle and channels, and the analyses in progress. -/
def resultRest (r slot startAt : Nat) : List Effect :=
  [.nat (Key.res.RES_SLOT r) slot, .nat (Key.res.RES_START r) startAt, .num (Key.res.RES_END r) 0, .num (Key.res.RES_STATUS r) 0,
   .num (Key.res.RES_POINTS r) 0, .reg (Key.res.RES_DATA r) (.bytes []), .bump Key.meas.ANALYSES_ACTIVE 1]

/-- The generator, the result object and the handle of an accepted analysis (R319, R320). -/
def State.analysisEffects (s : State) (h n op chans slot g r : Nat) : List Effect :=
  .gen g (fun x => { line := x.line, owner := some h }) :: .num (Key.res.RES_STATE r) 1 :: .nat (Key.res.RES_KIND r) op ::
    .nat (Key.res.RES_HANDLE r) h :: .nat (Key.res.RES_CHANNELS r) chans ::
    (resultRest r (if op = 0x0914 then slot else 0xFF) s.now ++ [.handle h fun _ => some (s.analysisRecord n op chans slot g r)])

/-- How an accepted analysis begins; the sweep of a LOADCHECK waits (R319, R329). -/
def State.analysisBegin (s : State) (h n op chans slot g r : Nat) (reused : Bool) : Phase := phases [
  always (if reused then [.event Ev.RESULT_REUSED (args16 [0x9100 + r])] else []),
  setGen g 3, always (s.analysisEffects h n op chans slot g r),
  if op ≠ 0x0912 then sweepBegin h else always []]

theorem analysisAccept_eq (hoffers : s.Offers g r reused) (h n op chans slot : Nat) :
    analysisAccept h n op chans slot s = s.analysisBegin h n op chans slot g r reused s := by
  rw [analysisAccept, hoffers.gen, hoffers.result]
  rfl

theorem Phase.Only.imp {q q' : Nat → Prop} {π : Units → α} {p : Phase} (h : p.Only q π) (hq : ∀ k, q k → q' k) : p.Only q' π := by
  intro s e he
  have hw := h s e he
  cases e with
  | save | mode | unit => exact hw
  | _ => exact hq _ hw

theorem analysisBegin_only {π : Units → α} (hgen : ∀ u i f, π (Units.onGen u i f) = π u)
    (hchan : ∀ u i f, π (Units.onChan u i f) = π u) (hhandle : ∀ u i f, π (Units.onHandle u i f) = π u) (s : State)
    (h n op chans slot g r : Nat) (reused : Bool) :
    (s.analysisBegin h n op chans slot g r reused).Only (fun _ => True) π := by
  have hset : (setGen g 3).Only (fun _ => True) π := Phase.Within.only (ks := genKeys g) (fun s => by simp [setGen, genKeys]) (by simp)
  have hsweep : (sweepBegin h).Only (fun _ => True) π := (sweepBegin_only hgen hchan hhandle h).imp fun _ _ => trivial
  refine Phase.only_phases ?_
  simp only [List.forall_mem_cons, List.not_mem_nil, false_imp_iff, implies_true, and_true, Phase.only_always, Phase.only_ite]
  refine ⟨?_, hset, ?_, fun _ => hsweep⟩
  · cases reused <;> simp
  · simp [State.analysisEffects, resultRest, hgen, hhandle]

@[simp] theorem Effect.local_reg (π : Units → α) (k : Nat) (v : Value) : (Effect.reg k v).Local π := trivial
@[simp] theorem Effect.local_bump (π : Units → α) (k : Nat) (n : Int) : (Effect.bump k n).Local π := trivial

theorem analysisBegin_local (s : State) (h n op chans slot g r : Nat) (reused : Bool) :
    (s.analysisBegin h n op chans slot g r reused).Local fun u => u.handles := by
  have hset : (setGen g 3).Local fun u => u.handles :=
    Phase.Within.local (ks := genKeys g) fun s => by simp [setGen, genKeys]
  refine Phase.local_phases ?_
  simp only [List.forall_mem_cons, List.not_mem_nil, false_imp_iff, implies_true, and_true, Phase.local_always]
  refine ⟨?_, hset, ?_, ?_⟩
  · cases reused <;> simp
  · simp [State.analysisEffects, resultRest]
  · split
    · exact sweepBegin_local h
    · simp

/-- What an accepted analysis writes of its result object beside its state, kind, handle and channels. -/
def resultRestKeys (r : Nat) : List Nat :=
  [Key.res.RES_SLOT r, Key.res.RES_START r, Key.res.RES_END r, Key.res.RES_STATUS r, Key.res.RES_POINTS r, Key.res.RES_DATA r,
   Key.meas.ANALYSES_ACTIVE]

/-- The result object and the handle of an accepted analysis, which its generator plays (R319, R320). -/
structure State.AnalysisTakes (t : State) (h chans g r : Nat) (y : Handle) : Prop where
  running : t.num (Key.res.RES_STATE r) = 1
  underHandle : t.nat (Key.res.RES_HANDLE r) = h
  channels : t.nat (Key.res.RES_CHANNELS r) = chans
  record : t.handle h = some y

theorem analysisEffects_takes (s : State) (hh : h < 65536) (hchans : chans < 65536) (hr : r < 64) :
    (s.run (t.analysisEffects h n op chans slot g r)).AnalysisTakes h chans g r (t.analysisRecord n op chans slot g r) := by
  have hkeys : ∀ r < 64, Dict.width (Key.res.RES_STATE r) = some (8, false) ∧ Dict.width (Key.res.RES_HANDLE r) = some (16, false) ∧
      Dict.width (Key.res.RES_CHANNELS r) = some (16, false) ∧
      Key.res.RES_STATE r ∉ Key.res.RES_KIND r :: Key.res.RES_HANDLE r :: Key.res.RES_CHANNELS r :: resultRestKeys r ∧
      Key.res.RES_HANDLE r ∉ Key.res.RES_CHANNELS r :: resultRestKeys r ∧ Key.res.RES_CHANNELS r ∉ resultRestKeys r := by
    decide +kernel
  obtain ⟨hstate, hhandle, hchannels, hstate', hhandle', hchannels'⟩ := hkeys r hr
  obtain ⟨rest, hrest⟩ : ∃ l, l = resultRest r (if op = 0x0914 then slot else 0xFF) t.now ++
      [.handle h fun _ => some (t.analysisRecord n op chans slot g r)] := ⟨_, rfl⟩
  have hconf : Confined (resultRestKeys r) (fun _ => ()) rest := by simp [hrest, resultRest, resultRestKeys]
  have hconf' : Confined (Key.res.RES_CHANNELS r :: resultRestKeys r) (fun _ => ()) (.nat (Key.res.RES_CHANNELS r) chans :: rest) :=
    confined_cons.2 ⟨by simp, hconf.mono (List.subset_cons_self _ _)⟩
  have hconf'' : Confined (Key.res.RES_KIND r :: Key.res.RES_HANDLE r :: Key.res.RES_CHANNELS r :: resultRestKeys r) (fun _ => ())
      (.nat (Key.res.RES_KIND r) op :: .nat (Key.res.RES_HANDLE r) h :: .nat (Key.res.RES_CHANNELS r) chans :: rest) :=
    confined_cons.2 ⟨by simp, confined_cons.2 ⟨by simp, hconf'.mono fun k hk => by simp [List.mem_cons.1 hk]⟩⟩
  rw [State.analysisEffects, ← hrest, State.run_cons, State.run_cons]
  refine ⟨((hconf''.frame _).num hstate').trans (State.num_reg_of_lt hstate _ (by decide) (by decide)), ?_, ?_, ?_⟩
  · rw [State.run_cons, State.run_cons, (hconf'.frame _).nat hhandle']
    exact State.nat_reg_of_lt hhandle _ hh
  · rw [State.run_cons, State.run_cons, State.run_cons, (hconf.frame _).nat hchannels']
    exact State.nat_reg_of_lt hchannels _ hchans
  · rw [State.run_cons, State.run_cons, State.run_cons, hrest, State.run_append, State.run_cons, State.run_nil, State.handle_apply_handle,
      if_pos rfl]

/-- What an accepted analysis has begun (R319, R320). -/
theorem analysisBegin_takes (s : State) (hh : h < 65536) (hchans : chans < 65536) (hr : r < 64) :
    (s.does (s.analysisBegin h n op chans slot g r reused)).AnalysisTakes h chans g r (s.analysisRecord n op chans slot g r) := by
  obtain ⟨v, hv⟩ : ∃ v, v = ((s.run (if reused then [.event Ev.RESULT_REUSED (args16 [0x9100 + r])] else [])).does (setGen g 3)).run
      (s.analysisEffects h n op chans slot g r) := ⟨_, rfl⟩
  have hdoes : s.does (s.analysisBegin h n op chans slot g r reused) = v.does (if op ≠ 0x0912 then sweepBegin h else always []) := by
    rw [State.analysisBegin, State.does_phases_cons, State.does_phases_cons, State.does_phases_cons, State.does_phases_cons,
      State.does_phases_nil, State.does_always, State.does_always, ← hv]
  have htakes : v.AnalysisTakes h chans g r (s.analysisRecord n op chans slot g r) := hv ▸ analysisEffects_takes _ hh hchans hr
  rw [hdoes]
  split
  · obtain ⟨hrunning, hunder, hchannels, hrecord⟩ := htakes
    obtain ⟨hframe, -, hswept, -⟩ := sweepBegin_leaves hrecord rfl
    have hout : Key.res.RES_STATE r ∉ [Key.gen.G_SAMPLES g] ∧ Key.res.RES_HANDLE r ∉ [Key.gen.G_SAMPLES g] ∧
        Key.res.RES_CHANNELS r ∉ [Key.gen.G_SAMPLES g] := by
      simp only [List.mem_singleton, Key.res.RES_STATE, Key.res.RES_HANDLE, Key.res.RES_CHANNELS, Key.gen.G_SAMPLES]
      omega
    obtain ⟨hstate, hhandle, hchans'⟩ := hout
    exact ⟨(hframe.num hstate).trans hrunning, (hframe.nat hhandle).trans hunder, (hframe.nat hchans').trans hchannels, hswept⟩
  · exact htakes

/-! ### The EXEC of an analysis -/

/-- An analysis that is not refused is accepted (R319, R423). -/
theorem answer_analysisOpcode {role : Nat → List Byte → Nat} (hop : op < 65536) (hchans : chans < 65536) (hslot : slot < 256)
    (hrole : role x.role m.payload = St.ok) (h : s.Starts op m x (le 2 chans ++ le 1 slot ++ [0]))
    (hfree : (s.noted 0x50 m).analysisRefused op chans slot = none) :
    Opcode.answer (some (analysisOpcode op role)) (s.noted 0x50 m) x m =
      (s.noted 0x50 m).accepting op m.session (analysisAccept s.nextHandle m.session op chans slot) := by
  have hchans' : leAt (le 2 (chans : Int) ++ le 1 (slot : Int) ++ [0]) 0 2 = chans := by
    rw [List.append_assoc]
    exact leAt_head hchans _
  have hslot' : leAt (le 2 (chans : Int) ++ le 1 (slot : Int) ++ [0]) 2 1 = slot := by
    rw [List.append_assoc]
    exact (leAt_after 2 chans _ 0 1).trans (leAt_head hslot _)
  refine (answer_execOpcode h hop (by simp) hrole ?_).trans ?_
  · simpa only [hchans', hslot'] using hfree
  · simp only [hchans', hslot']

/-- An analysis that is not refused runs under its handle and fills a result object (R319, R320, R423). -/
theorem analysis_starts {role : Nat → List Byte → Nat} (hop : op < 65536) (hchans : chans < 65536) (hslot : slot < 256)
    (hrole : role x.role m.payload = St.ok) (h : s.Starts op m x (le 2 chans ++ le 1 slot ++ [0]))
    (hfree : (s.noted 0x50 m).analysisRefused op chans slot = none) :
    s.Started op m (s.does (execRequest op (analysisOpcode op role) m)) ∧
      (s.does (execRequest op (analysisOpcode op role) m)).Analysing chans slot s.nextHandle := by
  obtain ⟨g, r, reused, hoffers⟩ := offers_of_not_refused hfree
  have hopened : (s.opened op m).Offers g r reused :=
    hoffers.of_frame ((givesHandle_confined (π := fun _ => ()) (fun _ _ => rfl) (fun _ _ _ => rfl) (s.noted 0x50 m) op m.session).frame _)
  have hr := hoffers.result_lt
  obtain ⟨p, hp⟩ : ∃ p, p = analysisAccept s.nextHandle m.session op chans slot := ⟨_, rfl⟩
  have hbegin : p (s.opened op m) = (s.opened op m).analysisBegin s.nextHandle m.session op chans slot g r reused (s.opened op m) :=
    hp ▸ analysisAccept_eq hopened _ _ _ _ _
  have honly {β : Type} {π : Units → β} (hgen : ∀ u i f, π (Units.onGen u i f) = π u) (hchan : ∀ u i f, π (Units.onChan u i f) = π u)
      (hhandle : ∀ u i f, π (Units.onHandle u i f) = π u) :=
    hbegin ▸ (analysisBegin_only hgen hchan hhandle (s.opened op m) s.nextHandle m.session op chans slot g r reused).confined (s.opened op m)
  have hlocal : ∀ e ∈ p (s.opened op m), e.Local fun u => u.handles := hbegin ▸ analysisBegin_local _ _ _ _ _ _ _ _ _ _
  have hnext : s.nextHandle < 65536 := by
    simp only [State.nextHandle]
    omega
  have hb := begun_of_answer h hop (hp ▸ answer_analysisOpcode hop hchans hslot hrole h hfree)
    (honly Units.onGen_sessions Units.onChan_sessions Units.onHandle_sessions)
  have hanchor := honly Units.onGen_anchor Units.onChan_anchor Units.onHandle_anchor
  have hdoes : (s.opened op m).does p =
      (s.opened op m).does ((s.opened op m).analysisBegin s.nextHandle m.session op chans slot g r reused) :=
    congrArg (s.opened op m).run hbegin
  obtain ⟨hrunning, hunder, hchannels, hrecord⟩ := analysisBegin_takes (n := m.session) (op := op) (slot := slot) (g := g)
    (reused := reused) (s.opened op m) hnext hchans hr
  rw [← hdoes] at hrunning hunder hchannels hrecord
  have hkeys : Key.res.RES_STATE r ≠ Key.evt.EVT_RAISED ∧ Key.res.RES_HANDLE r ≠ Key.evt.EVT_RAISED ∧
      Key.res.RES_CHANNELS r ≠ Key.evt.EVT_RAISED := by
    simp only [Key.res.RES_STATE, Key.res.RES_HANDLE, Key.res.RES_CHANNELS, Key.evt.EVT_RAISED]
    omega
  obtain ⟨hstate, hhandle, hchans'⟩ := hkeys
  refine ⟨hb.started hlocal hrecord rfl rfl rfl, r, hr, (hb.num_of hanchor hstate).trans hrunning, (hb.nat_of hanchor hhandle).trans hunder,
    (hb.nat_of hanchor hchans').trans hchannels, _, (hb.handle_of hlocal _).trans hrecord, rfl, rfl, rfl⟩

/-- Settles O57: an analysis of each kind begins as the one that is not refused, and so do removal, restoring, calibration and update. -/
theorem operationsStart : Obligations.OperationsStart := by
  unfold Obligations.OperationsStart
  intro s m x
  refine ⟨fun chans slot hrole hchans hslot => ?_, fun hrole h hnone => prepareRemoval_starts hrole h hnone,
    fun hrole h hmode hnone => restoreDefaults_starts hrole h hmode hnone,
    fun chans hrole hlt hne h hmay => calibrate_starts hrole hlt hne h hmay,
    fun len hrole hne hle h hfree => updateLoad_starts hrole hne hle h hfree,
    fun hrole h hverified => updateActivate_starts hrole h hverified⟩
  have hengineers := engineers_ok hrole m.payload
  have hwriters : writers x.role m.payload = St.ok := if_neg (by omega)
  exact ⟨fun h hfree => ⟨_, rfl, analysis_starts (by decide) hchans hslot hengineers h hfree⟩,
    fun h hfree => ⟨_, rfl, analysis_starts (by decide) hchans hslot hengineers h hfree⟩,
    fun h hfree => ⟨_, rfl, analysis_starts (by decide) hchans hslot hwriters h hfree⟩,
    fun h hfree => ⟨_, rfl, analysis_starts (by decide) hchans hslot hengineers h hfree⟩,
    fun h hfree => ⟨_, rfl, analysis_starts (by decide) hchans hslot hengineers h hfree⟩⟩

end Sys2Proof.Machine
end

section
/-!
The states of ports and receivers (Tables 11-1, 11-4): what a change of state leaves of the entries and of the unit, and what each
transition with its own end leaves (R340, R341, R343, R360).
-/

namespace Sys2Proof.Machine

variable {α : Type} {s : State} {u : Nat}

/-! ### The entries of a unit -/

theorem width_pstKey : ∀ u < 6, Dict.width (pstKey u) = some (8, false) := by decide +kernel

theorem pstKey_ne_evtRaised (u : Nat) : pstKey u ≠ Key.evt.EVT_RAISED := by
  simp only [pstKey, Key.aes.RX_STATE, Key.tdm.PORT_STATE, Key.evt.EVT_RAISED]
  split <;> omega

/-- Whether a unit has the state: a receiver is never armed, paused or in FORMAT_ERROR (Table 11-4). -/
def PSt.fits (rx : Bool) (st : PSt) : Bool := !rx || (st != .armed && st != .paused && st != .formatError)

theorem PSt.ofCode_code {rx : Bool} {st : PSt} (h : st.fits rx = true) : PSt.ofCode rx (st.code rx) = st := by
  cases rx with
  | false => cases st <;> rfl
  | true =>
    cases st with
    | armed | paused | formatError => cases h
    | _ => rfl

theorem PSt.code_lt (rx : Bool) (st : PSt) : st.code rx < 256 := by
  cases rx <;> cases st <;> decide

theorem PSt.fits_port {p : Nat} (hp : p < 4) (st : PSt) : st.fits (isRx p) = true := by
  have hport : isRx p = false := decide_eq_false (by omega)
  simp [PSt.fits, hport]

theorem State.Frame.pst {t : State} {ks : List Nat} (hf : s.Frame ks t) (hk : pstKey u ∉ ks) : t.pst u = s.pst u := by
  rw [State.pst, hf.nat hk, ← State.pst]

/-! ### A part of a unit -/

/-- A part of a unit, read in the units. -/
def Units.ofPort (V : Port → α) (u : Nat) (x : Units) : α := V (Tbl.at {} x.ports u)

theorem Units.ofPort_onPort {V : Port → α} {f : Port → Port} (hf : ∀ x, V (f x) = V x) (i : Nat) (x : Units) :
    (x.onPort i f).ofPort V u = x.ofPort V u := by
  have hat : (x.onPort i f).ofPort V u = V (if i = u then f (Tbl.at {} x.ports i) else Tbl.at {} x.ports u) :=
    congrArg V (Tbl.at_upd ..)
  rw [hat]
  split
  · rename_i h
    rw [hf, h, Units.ofPort]
  · rfl

theorem State.port_apply_port (s : State) (i : Nat) (f : Port → Port) : (s.apply (.port i f)).port i = f (s.port i) :=
  (Tbl.at_upd ..).trans (if_pos rfl)

theorem port_frame (s : State) (i : Nat) (f : Port → Port) : s.Frame [] (s.apply (.port i f)) :=
  Effect.Within.frame (π := fun _ => ()) (by simp) s

/-- Effects that leave a part of a unit leave that part. -/
theorem Confined.port {V : Port → α} {ks : List Nat} {es : List Effect} (h : Confined ks (Units.ofPort V u) es) (s : State) :
    V ((s.run es).port u) = V (s.port u) := h.units (fun _ _ _ _ _ _ => rfl) s

/-! ### A change of state -/

/-- A part of a unit that a change of its state leaves: it sees neither the ramps nor the slot gains (R341). -/
def StateBlind (V : Port → α) : Prop :=
  ∀ x t h o i g, V { x with sinceAt := t, hold := h, rampOut := o, rampIn := i, slotGain := g } = V x

/-- After the state itself a change raises its event and touches the ramps of the unit, and its slots (R341, R353). -/
theorem setPort_confined {V : Port → α} (hV : StateBlind V) {new : PSt} (h : s.pst u ≠ new) :
    ∃ es, Confined [Key.evt.EVT_RAISED] (Units.ofPort V u) es ∧ setPort u new s = .nat (pstKey u) (new.code (isRx u)) :: es := by
  have hramps (t : Nat) (l : Port → List Int) (o i : Port → Nat) := Units.ofPort_onPort (u := u)
    (f := fun x => { x with sinceAt := t, hold := l x, rampOut := o x, rampIn := i x }) fun x => hV x t (l x) (o x) (i x) x.slotGain
  have hgains := Units.ofPort_onPort (u := u) (f := fun x => { x with slotGain := [] })
    fun x => hV x x.sinceAt x.hold x.rampOut x.rampIn []
  refine ⟨_, ?_, by rw [setPort, if_neg h]; rfl⟩
  refine confined_append.2 ⟨?_, confined_ite.2 ⟨fun _ => confined_append.2 ⟨?_, ?_⟩, fun _ => .nil⟩⟩
  · simpa using hramps _ _ _ _ u
  · simp [dropSlotWaits, Units.withZc, Units.ofPort]
  · simpa using hgains u

theorem setPort_same {new : PSt} (h : s.pst u = new) : setPort u new s = [] := if_pos h

/-- What a change of state leaves: the new state, the other entries, and every part of the unit that it does not touch. -/
theorem setPort_leaves {V : Port → α} (hV : StateBlind V) (hu : u < 6) {new : PSt} (hnew : new.fits (isRx u) = true) (s : State) :
    let t := s.does (setPort u new)
    t.pst u = new ∧ V (t.port u) = V (s.port u) ∧ s.Frame [pstKey u, Key.evt.EVT_RAISED] t := by
  by_cases h : s.pst u = new
  · rw [State.does, setPort_same h]
    exact ⟨h, rfl, .refl s _⟩
  · obtain ⟨es, hes, hset⟩ := setPort_confined hV h
    have hall : Confined [pstKey u, Key.evt.EVT_RAISED] (Units.ofPort V u) (setPort u new s) := by
      rw [hset]
      exact confined_cons.2 ⟨by simp, hes.mono (List.subset_cons_self ..)⟩
    refine ⟨?_, hall.port s, hall.frame s⟩
    have hcode : (s.does (setPort u new)).nat (pstKey u) = new.code (isRx u) := by
      rw [State.does, hset, State.run_cons]
      exact hes.nat_stands (width_pstKey u hu) (by simpa using pstKey_ne_evtRaised u) s (PSt.code_lt _ _)
    rw [State.pst, hcode, PSt.ofCode_code hnew]

/-- A change of state, and one of the unit with it. -/
theorem setPort_then {V : Port → α} (hV : StateBlind V) (hu : u < 6) {new : PSt} (hnew : new.fits (isRx u) = true) (f : Port → Port)
    (s : State) : let t := s.does (phases [setPort u new, always [.port u f]])
    t.pst u = new ∧ (∃ x, V x = V (s.port u) ∧ t.port u = f x) ∧ s.Frame [pstKey u, Key.evt.EVT_RAISED] t := by
  obtain ⟨hst, hport, hkeep⟩ := setPort_leaves hV hu hnew s
  have hdoes : s.does (phases [setPort u new, always [.port u f]]) = (s.does (setPort u new)).apply (.port u f) := by
    rw [State.does_phases_cons, State.does_phases_cons, State.does_phases_nil, State.does_always, State.run_cons, State.run_nil]
  rw [hdoes]
  exact ⟨hst, ⟨_, hport, State.port_apply_port _ u f⟩, hkeep.trans ((port_frame _ u f).mono (List.nil_subset _))⟩

/-! ### The loss of the clock -/

/-- The entries into fault states of the last 60 s, one at the present instant among them (R360). -/
def State.faultsNow (s : State) (u : Nat) : List Nat :=
  (s.mtbNs :: (s.port u).faultAt).filter fun t => decide (s.mtbNs < t + 60000000000)

/-- A unit has entered a fault state (R360). -/
def Port.faulted (l : List Nat) (x : Port) : Port :=
  { x with faultAt := l, fifo := [], outGo := false, goodSince := none, rateOk := none }

/-- One more fault does not fence the unit: fewer than 9 lie within the last 60 s (R360). -/
def State.FewFaults (s : State) (u : Nat) : Prop :=
  ((s.port u).faultAt.filter fun t => decide (s.mtbNs < t + 60000000000)).length < 9

theorem length_faultsNow (h : s.FewFaults u) : (s.faultsNow u).length < 10 := by
  rw [State.faultsNow, List.filter_cons_of_pos (by simp), List.length_cons]
  exact Nat.succ_lt_succ h

/-- A fault that is not the tenth within 60 s does not fence the unit (R360). -/
theorem portFault_of_few {new : PSt} (h : s.pst u ≠ new) (hfew : s.FewFaults u) :
    s.does (portFault u new) = s.does (phases [setPort u new, always [.port u (Port.faulted (s.faultsNow u))]]) := by
  have hphase : portFault u new s =
      phases [setPort u new, always [.port u (Port.faulted (s.faultsNow u))], always []] s := by
    rw [portFault, if_neg h]
    exact congrArg (fun q : Phase => phases [_, _, q] s) (if_neg (Nat.not_le.2 (length_faultsNow hfew)))
  have hdoes : s.does (portFault u new) =
      s.does (phases [setPort u new, always [.port u (Port.faulted (s.faultsNow u))], always []]) := congrArg s.run hphase
  simpa using hdoes

/-- The clock is lost, and `f` is what else the unit loses with it. -/
theorem clockLost_leaves (hu : u < 6) (h : s.pst u ≠ .noClock) (hfew : s.FewFaults u) (f : Port → Port) :
    let t := s.does (phases [portFault u .noClock, always [.port u f]])
    t.pst u = .noClock ∧ (∃ x, t.port u = f (Port.faulted (s.faultsNow u) x)) ∧ t.mode = s.mode ∧ t.store = s.store := by
  have hfits : PSt.fits (isRx u) .noClock = true := by cases isRx u <;> rfl
  obtain ⟨hst, ⟨x, -, hport⟩, hkeep⟩ := setPort_then (V := fun _ => ()) (fun _ _ _ _ _ _ => rfl) hu hfits
    (Port.faulted (s.faultsNow u)) s
  have hdoes : s.does (phases [portFault u .noClock, always [.port u f]]) =
      (s.does (phases [setPort u .noClock, always [.port u (Port.faulted (s.faultsNow u))]])).apply (.port u f) := by
    rw [State.does_phases_cons, portFault_of_few h hfew, State.does_phases_cons, State.does_phases_nil, State.does_always, State.run_cons,
      State.run_nil]
  rw [hdoes]
  exact ⟨hst, ⟨x, by rw [State.port_apply_port, hport]⟩, hkeep.mode, hkeep.store⟩

/-- A unit whose last edge lies more than 2 frame periods back is silent (Tables 11-1, 11-4). -/
theorem silent_of_edge {e : Nat} {l : List Nat} (hedge : (s.port u).edges = e :: l) (hlong : 2000000000 < (s.mtbNs - e) * s.fs) :
    s.silent u = true := by
  rw [State.silent, hedge]
  exact decide_eq_true hlong

theorem portNoClock_leaves {p e : Nat} {l : List Nat} (hp : p < 4) (hslave : s.isMaster p = false)
    (hst : s.pst p ∈ [PSt.acquire, .running, .paused]) (hedge : (s.port p).edges = e :: l)
    (hlong : 2000000000 < (s.mtbNs - e) * s.fs) (hfew : s.FewFaults p) :
    let t := s.does (portNoClock p)
    t.pst p = .noClock ∧ (t.port p).edges = [] ∧ (t.port p).fifo = [] ∧ t.mode = s.mode ∧ t.store = s.store := by
  have hne : s.pst p ≠ .noClock := by rintro h; rw [h] at hst; revert hst; decide
  have hphase : portNoClock p s =
      phases [portFault p .noClock, always [.port p fun x => { x with edges := [], clockAt := none }]] s := by
    have hsilent := silent_of_edge hedge hlong
    simp only [List.mem_cons, List.not_mem_nil, or_false] at hst
    rcases hst with h | h | h <;> simp [portNoClock, hslave, h, hsilent]
  obtain ⟨hnew, ⟨x, hport⟩, hmode, hstore⟩ := clockLost_leaves (by omega) hne hfew fun x => { x with edges := [], clockAt := none }
  rw [State.does, hphase]
  exact ⟨hnew, congrArg Port.edges hport, congrArg Port.fifo hport, hmode, hstore⟩

theorem aesNoSignal_leaves {a e : Nat} {l : List Nat} (ha : a < 2) (hst : s.pst (a + 4) ∈ [PSt.acquire, .running])
    (hedge : (s.port (a + 4)).edges = e :: l) (hlong : 2000000000 < (s.mtbNs - e) * s.fs) (hfew : s.FewFaults (a + 4)) :
    let t := s.does (aesNoSignal a)
    t.pst (a + 4) = .noClock ∧ (t.port (a + 4)).csBits = ([], []) ∧ t.mode = s.mode ∧ t.store = s.store := by
  have hout : ¬ (s.pst (a + 4) = .disabled ∨ s.pst (a + 4) = .fenced ∨ s.pst (a + 4) = .noClock) := by
    rintro (h | h | h) <;> rw [h] at hst <;> revert hst <;> decide
  have hphase : aesNoSignal a s = phases [portFault (a + 4) .noClock,
      always [.port (a + 4) fun x => { x with edges := [], clockAt := none, csBits := ([], []) }]] s := by
    rw [aesNoSignal, if_neg hout, if_pos (silent_of_edge hedge hlong)]
  obtain ⟨hnew, ⟨x, hport⟩, hmode, hstore⟩ := clockLost_leaves (by omega) (fun h => hout (.inr (.inr h))) hfew
    fun x => { x with edges := [], clockAt := none, csBits := ([], []) }
  rw [State.does, hphase]
  exact ⟨hnew, congrArg Port.csBits hport, hmode, hstore⟩

/-! ### The clock is acquired, and faults end -/

theorem portAcquired_leaves (hu : u < 6) (hst : s.pst u = .acquire) (hgood : s.passed (s.port u).goodSince 100000000 = true)
    (hrate : within 500 (s.rateErr u) = true) (hfill : 4 ≤ (s.port u).fifo.length) :
    let t := s.does (portAcquired u)
    t.pst u = .running ∧ (t.port u).fifo.length = 4 ∧ (t.port u).outGo = true ∧ s.Frame [pstKey u, Key.evt.EVT_RAISED] t := by
  have hphase : portAcquired u s = phases [setPort u .running,
      always [.port u fun x => { x with fifo := x.fifo.drop (x.fifo.length - 4), outGo := true }]] s :=
    if_pos ⟨hst, hgood, hrate, hfill⟩
  have hfits : PSt.fits (isRx u) .running = true := by cases isRx u <;> rfl
  obtain ⟨hnew, ⟨x, hfifo, hport⟩, hkeep⟩ := setPort_then (V := Port.fifo) (fun _ _ _ _ _ _ => rfl) hu hfits
    (fun x => { x with fifo := x.fifo.drop (x.fifo.length - 4), outGo := true }) s
  rw [State.does, hphase]
  refine ⟨hnew, ?_, congrArg Port.outGo hport, hkeep⟩
  have hlen : x.fifo.length = (s.port u).fifo.length := congrArg List.length hfifo
  refine (congrArg (fun y : Port => y.fifo.length) hport).trans ?_
  rw [List.length_drop]
  omega

/-- A unit returns to ACQUIRE: its FIFO and its count of faults start empty (R340, R343). -/
theorem acquiresAgain_leaves (hu : u < 6) (s : State) : let t := s.does (phases [setPort u .acquire,
      always [.port u fun x => { x with fifo := [], goodSince := some s.mtbNs, badRun := 0 }]])
    t.pst u = .acquire ∧ (t.port u).fifo = [] ∧ (t.port u).badRun = 0 ∧ s.Frame [pstKey u, Key.evt.EVT_RAISED] t := by
  have hfits : PSt.fits (isRx u) .acquire = true := by cases isRx u <;> rfl
  obtain ⟨hnew, ⟨x, -, hport⟩, hkeep⟩ := setPort_then (V := fun _ => ()) (fun _ _ _ _ _ _ => rfl) hu hfits
    (fun x => { x with fifo := [], goodSince := some s.mtbNs, badRun := 0 }) s
  exact ⟨hnew, congrArg Port.fifo hport, congrArg Port.badRun hport, hkeep⟩

theorem rateRecover_leaves (hu : u < 6) (hst : s.pst u = .rateMismatch) (hrate : s.passed (s.port u).rateOk 1000000000 = true) :
    let t := s.does (rateRecover u)
    t.pst u = .acquire ∧ (t.port u).fifo = [] ∧ s.Frame [pstKey u, Key.evt.EVT_RAISED] t := by
  obtain ⟨hnew, hfifo, -, hkeep⟩ := acquiresAgain_leaves hu s
  rw [State.does, rateRecover, if_pos ⟨hst, hrate⟩]
  exact ⟨hnew, hfifo, hkeep⟩

theorem formatRecover_leaves {p : Nat} (hp : p < 4) (hst : s.pst p = .formatError)
    (hgood : s.passed (s.port p).goodSince 100000000 = true) :
    let t := s.does (formatRecover p)
    t.pst p = .acquire ∧ (t.port p).badRun = 0 ∧ s.Frame [pstKey p, Key.evt.EVT_RAISED] t := by
  obtain ⟨hnew, -, hbad, hkeep⟩ := acquiresAgain_leaves (u := p) (by omega) s
  rw [State.does, formatRecover, if_pos ⟨hst, hgood⟩]
  exact ⟨hnew, hbad, hkeep⟩

end Sys2Proof.Machine
end

section
/-!
Pauses of a port (R346, R351, R352): a mask that waits takes effect first and touches neither the requests nor the frame edge; then the
request takes effect and the port changes its state.
-/

namespace Sys2Proof.Machine

variable {s : State} {p : Nat}

/-! ### The mask -/

/-- The edges of a port and its pending requests (R340, R351). -/
def Port.requests (x : Port) : List Nat × Option Nat × Option Nat := (x.edges, x.pauseAt, x.resumeAt)

/-- A wait for a crossing is none of a port's parts. -/
theorem zcStart_within_port {α : Type} {V : Port → α} {ks : List Nat} (key : Nat) (v : Value) :
    Phase.Within ks (Units.ofPort V p) (zcStart key v) := fun s => zcStartAt_within (fun _ _ => rfl) key v _ s

theorem requests_foldl_setGain (r : Ramp) (l : List Nat) (x : Port) :
    (l.foldl (fun x k => x.setGain k r) x).requests = x.requests := by
  induction l generalizing x with
  | nil => rfl
  | cons k l ih => exact ih _

/-- A frame that is formed again leaves the edges and the requests (R346). -/
theorem frameAgain_within_requests (p : Nat) : Phase.Within [] (Units.ofPort Port.requests p) (frameAgain p) := by
  have hport (f : Port → Port) (hf : ∀ x, (f x).requests = x.requests) :
      (Effect.port p f).Within [] (Units.ofPort Port.requests p) := Units.ofPort_onPort hf p
  intro s
  simp only [frameAgain]
  split
  · rename_i h
    subst h
    exact confined_ite.2 ⟨fun _ => .nil, fun _ => confined_cons.2 ⟨hport _ fun _ => rfl, by simp [Units.onPins, Units.ofPort]⟩⟩
  split
  · exact confined_ite.2 ⟨fun _ => .nil, fun _ => confined_cons.2 ⟨hport _ fun _ => rfl, .nil⟩⟩
  split
  · exact confined_ite.2 ⟨fun _ => .nil, fun _ => confined_cons.2 ⟨hport _ fun _ => rfl, .nil⟩⟩
  · exact confined_cons.2 ⟨hport _ fun _ => rfl, .nil⟩

theorem maskCarried_within_requests (p old new done : Nat) :
    Phase.Within [] (Units.ofPort Port.requests p) (maskCarried p old new done) := by
  intro s
  have hgains (gone : List Nat) (fresh : List Nat) (r : Ramp) := Units.ofPort_onPort (V := Port.requests) (u := p)
    (f := fun x => fresh.foldl (fun x k => x.setGain k r) { x with slotGain := x.slotGain.filter fun g => !gone.contains g.1 })
    fun x => requests_foldl_setGain r fresh _
  refine confined_cons.2 ⟨hgains _ _ _ p, confined_append.2 ⟨?_, confined_ite.2 ⟨fun _ => .nil, fun _ => ?_⟩⟩⟩
  · simp [Units.withZc, Units.ofPort]
  · split
    · exact Phase.within_forAll (fun k _ => zcStart_within_port _ _) s
    · exact .nil

/-- What a mask that takes effect may write (R346). -/
def maskKeys (p : Nat) : List Nat := [Key.tmap.MASK_ACTIVE p, Key.tmap.MASK_FRAME p]

theorem maskTake_within_requests (p edge done : Nat) :
    Phase.Within (maskKeys p) (Units.ofPort Port.requests p) (maskTake p edge done) := by
  intro s
  have hmask (o : Option (Nat × Nat)) := Units.ofPort_onPort (V := Port.requests) (u := p)
    (f := fun x => { x with maskWait := none, maskOld := o }) fun _ => rfl
  unfold maskTake
  split
  · exact .nil
  · refine confined_ite.2 ⟨fun _ => .nil, fun _ => Phase.within_phases ?_ s⟩
    simp [maskKeys, hmask, (maskCarried_within_requests p _ _ _).mono (List.nil_subset _)]

theorem maskDue_within_requests (p : Nat) : Phase.Within (maskKeys p) (Units.ofPort Port.requests p) (maskDue p) := by
  have htake (e done : Nat) := maskTake_within_requests p e done
  have hframe := (frameAgain_within_requests p).mono (List.nil_subset (maskKeys p))
  intro s
  unfold maskDue
  split
  · exact .nil
  · refine confined_ite.2 ⟨fun _ => .nil, fun _ => confined_ite.2 ⟨fun _ => htake _ _ s, fun _ => Phase.within_phases ?_ s⟩⟩
    simp [htake, hframe]

/-! ### The frame edge -/

/-- None of the entries that say where a port's frames begin, nor its state, is written with its mask. -/
theorem notMem_maskKeys (hp : p < 4) : Key.tdm.ROLE p ∉ maskKeys p ∧ Key.mtb.EPOCH_OFFSET ∉ maskKeys p ∧
    Key.mtb.FS_SELECT ∉ maskKeys p ∧ pstKey p ∉ maskKeys p := by
  have hport : isRx p = false := decide_eq_false (by omega)
  simp only [pstKey, hport, Bool.false_eq_true, if_false, maskKeys, List.mem_cons, List.not_mem_nil, or_false, Key.tdm.ROLE,
    Key.mtb.EPOCH_OFFSET, Key.mtb.FS_SELECT, Key.tdm.PORT_STATE, Key.tmap.MASK_ACTIVE, Key.tmap.MASK_FRAME]
  omega

/-- The mask that takes effect first moves neither the frame edge nor the state, and leaves the requests (R353). -/
theorem maskDue_leaves (hp : p < 4) (s : State) : let t := s.does (maskDue p)
    t.pst p = s.pst p ∧ t.frameEdge p = s.frameEdge p ∧ (t.port p).requests = (s.port p).requests ∧ t.mode = s.mode ∧
      t.store = s.store := by
  have hkeep := (maskDue_within_requests p).frame s
  have hrequests : ((s.does (maskDue p)).port p).requests = (s.port p).requests := (maskDue_within_requests p s).port s
  have hedges : ((s.does (maskDue p)).port p).edges = (s.port p).edges := congrArg Prod.fst hrequests
  obtain ⟨hrole, hepoch, hfs, hstate⟩ := notMem_maskKeys hp
  have hframe : (s.does (maskDue p)).frameEdge p = s.frameEdge p := by
    have hmaster : (s.does (maskDue p)).isMaster p = s.isMaster p := by simp only [State.isMaster, hkeep.num hrole]
    have hns : (s.does (maskDue p)).mtbNs = s.mtbNs := by simp only [State.mtbNs, State.does_mtb]
    have hnow : (s.does (maskDue p)).now = s.now := by simp only [State.now, hns, hkeep.num hepoch]
    have hrate : (s.does (maskDue p)).fs = s.fs := by simp only [State.fs, hkeep.num hfs]
    rw [State.frameEdge, State.sampleNow, hmaster, hns, hnow, hrate, hedges, ← State.sampleNow, ← State.frameEdge]
  exact ⟨hkeep.pst hstate, hframe, hrequests, hkeep.mode, hkeep.store⟩

/-! ### A pause or resume takes effect -/

/-- The state that a pause (or resume) ends, and the one that it begins (R352). -/
def pauseFrom (pause : Bool) : PSt := if pause then .running else .paused
def pauseTo (pause : Bool) : PSt := if pause then .paused else .running

theorem stateBlind_requests : StateBlind Port.requests := fun _ _ _ _ _ _ => rfl

/-- The mutes or unmutes of a pause or resume leave what is requested (R352). -/
theorem slotWaits_within_requests (p : Nat) (v : Int) : Phase.Within [] (Units.ofPort Port.requests p) (slotWaits p v) :=
  fun s => Phase.within_forAll (fun _ _ => zcStart_within_port _ _) s

/-- What follows the change of state: the turn is noted, and the waits of the slots begin, an input's with its frame (R352, R353). -/
def State.turn (s : State) (p edge : Nat) (v : Int) : Phase := phases [
  always [.port p fun x => { x with turned := some (s.mtbNs, v) }],
  if s.isInput p then always [.port p fun x => { x with muteDue := some (edge, v) }] else slotWaits p v]

theorem turn_within_requests (s : State) (p edge : Nat) (v : Int) :
    Phase.Within [] (Units.ofPort Port.requests p) (s.turn p edge v) := by
  have hturned := Units.ofPort_onPort (V := Port.requests) (u := p) (f := fun x => { x with turned := some (s.mtbNs, v) })
    (fun _ => rfl) p
  have hmute := Units.ofPort_onPort (V := Port.requests) (u := p) (f := fun x => { x with muteDue := some (edge, v) })
    (fun _ => rfl) p
  exact Phase.within_phases (by simp [hturned, hmute, slotWaits_within_requests])

theorem does_pauseTakes {pause : Bool} (hst : s.pst p = pauseFrom pause) (edge : Nat) : s.does (pauseTakes p edge pause) =
    (s.does (setPort p (pauseTo pause))).does (s.turn p edge (if pause then 0 else 32)) := by
  rw [State.does, pauseTakes]
  exact (congrArg s.run (if_pos hst)).trans (State.does_phases_cons s _ _)

/-- A pause or resume changes the state, and leaves what is requested (R352). -/
theorem pauseTakes_leaves (hp : p < 4) (edge : Nat) {pause : Bool} (hst : s.pst p = pauseFrom pause) :
    let t := s.does (pauseTakes p edge pause)
    t.pst p = pauseTo pause ∧ (t.port p).requests = (s.port p).requests ∧ t.mode = s.mode ∧ t.store = s.store := by
  obtain ⟨hnew, hrequests, hkeep⟩ := setPort_leaves stateBlind_requests (u := p) (by omega) (PSt.fits_port hp (pauseTo pause)) s
  have hturn := turn_within_requests s p edge (if pause then 0 else 32)
  have hturned := hturn.frame (s.does (setPort p (pauseTo pause)))
  rw [does_pauseTakes hst]
  exact ⟨(hturned.pst List.not_mem_nil).trans hnew, ((hturn _).port _).trans hrequests, hturned.mode.trans hkeep.mode,
    hturned.store.trans hkeep.store⟩

/-- A port in the state that a pause or resume ends delivers data (R341). -/
theorem portLive_of_pauseFrom {pause : Bool} (hst : s.pst p = pauseFrom pause) : s.portLive p = true := by
  cases pause <;> simp [State.portLive, hst, pauseFrom]

/-- The request to pause (or resume) that is pending (R351), and a port whose request has been met. -/
def Port.request (pause : Bool) (x : Port) : Option Nat := match pause with
  | true => x.pauseAt
  | false => x.resumeAt
def Port.met (pause : Bool) (x : Port) : Port := match pause with
  | true => { x with pauseAt := none }
  | false => { x with resumeAt := none }

/-- PAUSE_EFFECTIVE and RESUME_EFFECTIVE in one (R351-R353). -/
def turnEffective (pause : Bool) (p : Nat) : Phase := match pause with
  | true => pauseEffective p
  | false => resumeEffective p

theorem Port.request_met (pause : Bool) (x : Port) : (x.met pause).request pause = none := by cases pause <;> rfl

theorem Port.request_of_requests {pause : Bool} {x y : Port} (h : x.requests = y.requests) : x.request pause = y.request pause := by
  obtain ⟨-, hpause, hresume⟩ : x.edges = y.edges ∧ x.pauseAt = y.pauseAt ∧ x.resumeAt = y.resumeAt := by
    simpa [Port.requests] using h
  cases pause
  · exact hresume
  · exact hpause

section Effective
variable {n e : Nat} {pause : Bool} (hp : p < 4) (hat : (s.port p).request pause = some n) (hedge : s.frameEdge p = some e)
  (hdue : n ≤ e) (hst : s.pst p = pauseFrom pause)
include hat hedge hdue hst

/-- A request whose time has come is met (R351, R352). -/
theorem does_turnEffective :
    s.does (turnEffective pause p) = (s.apply (.port p (Port.met pause))).does (pauseTakes p e pause) := by
  have hgoes : ¬ (e < n ∨ (!s.portLive p) = true) := by simp [portLive_of_pauseFrom hst, hdue]
  have hphase : turnEffective pause p s = phases [always [.port p (Port.met pause)], pauseTakes p e pause] s := by
    cases pause with
    | true =>
      have hpause : (s.port p).pauseAt = some n := hat
      rw [turnEffective, pauseEffective, hpause, hedge]
      exact if_neg hgoes
    | false =>
      have hresume : (s.port p).resumeAt = some n := hat
      rw [turnEffective, resumeEffective, hresume, hedge]
      exact if_neg hgoes
  rw [State.does, hphase]
  exact (State.does_phases_cons s _ _).trans (State.does_phases_cons _ _ _)

include hp

theorem turnEffective_leaves : let t := s.does (turnEffective pause p)
    t.pst p = pauseTo pause ∧ (t.port p).request pause = none ∧ t.mode = s.mode ∧ t.store = s.store := by
  obtain ⟨hnew, hrequests, hmode, hstore⟩ := pauseTakes_leaves (s := s.apply (.port p (Port.met pause))) hp e hst
  rw [does_turnEffective hat hedge hdue hst]
  refine ⟨hnew, (Port.request_of_requests hrequests).trans ?_, hmode, hstore⟩
  rw [State.port_apply_port, Port.request_met]

/-- A mask that waits goes first, and the pause or resume follows at the same frame (R353). -/
theorem maskThenTurn_leaves : let t := s.does (phases [maskDue p, turnEffective pause p])
    t.pst p = pauseTo pause ∧ (t.port p).request pause = none ∧ t.mode = s.mode ∧ t.store = s.store := by
  obtain ⟨hstate, hframe, hrequests, hmode, hstore⟩ := maskDue_leaves hp s
  obtain ⟨hnew, hnone, hmode', hstore'⟩ := turnEffective_leaves hp ((Port.request_of_requests hrequests).trans hat)
    (hframe.trans hedge) hdue (hstate.trans hst)
  rw [State.does_phases_cons, State.does_phases_cons, State.does_phases_nil]
  exact ⟨hnew, hnone, hmode'.trans hmode, hstore'.trans hstore⟩

end Effective

end Sys2Proof.Machine
end

section
/-!
The writes of a port (R351, R361): a request to pause or resume, and the clear of a fence, which waits for the next block boundary; and
the obligation on the states of ports.
-/

namespace Sys2Proof.Machine

variable {s : State} {p u : Nat}

/-! ### Entries of the ports -/

/-- An index of the ports has no reserved bits (R4), and none but AOUT's waits for a crossing (R154). -/
theorem reserved_port {k : Nat} (hk : k / 65536 = 0x40) (v : Value) : reserved k v = v := by
  have hne {j : Nat} (hj : j < 0x400000) : k ≠ j := by omega
  simp (disch := decide) only [reserved, hne, if_false]

theorem changesAtCrossing_port {k : Nat} (hk : k / 65536 = 0x40) (hout : k / 256 ≠ 0x4022) (s : State) :
    s.changesAtCrossing k = false := by
  have hzc : isZcEntry (k / 256) (k % 256) = false := by
    rw [isZcEntry, if_neg (by omega), if_neg (by omega), beq_eq_false_iff_ne.2 hout, Bool.false_and]
  rw [State.changesAtCrossing, hzc, decide_eq_false (by omega), Bool.false_and, Bool.false_or]

/-- An accepted write of an entry of a port that acts at once does what the entry does (R395). -/
theorem writes_of_port {c : Instr} {k : Nat} {w : EntryWrite} {n : Int} {P : Phase} {H : State → Prop} {Q : State → State → Prop}
    (hexec : ∀ s, exec c s = s.goes (writeEntry k none w)) (hk : k / 65536 = 0x40) (hout : k / 256 ≠ 0x4022)
    (hrow : (Dict.row k).map (fun r => (r.eff, r.p)) = some (.acc, false)) (hdoes : entryDoes w.writer k (.num n) = P)
    (h : ∀ s : State, H s → ∀ a, Q s ((s.does (causedBy w.session P)).apply (.unit fun u => { u with answer := a }))) :
    Writes c k w n H Q := by
  have hmode : k ≠ Key.mode.MODE_REQUEST := by simp only [Key.mode.MODE_REQUEST]; omega
  exact writes_of_effect hexec hrow (.inl rfl) hmode (reserved_port hk _) (changesAtCrossing_port hk hout) hdoes fun s _ _ => h s

/-! ### Requests to pause and resume -/

/-- PAUSE_AT and RESUME_AT in one (Table 11-6). -/
def pauseKey (pause : Bool) (p : Nat) : Nat := match pause with
  | true => Key.tdm.PAUSE_AT p
  | false => Key.tdm.RESUME_AT p

theorem row_pauseKey : ∀ pause, ∀ p < 4, (Dict.row (pauseKey pause p)).map (fun r => (r.eff, r.p)) = some (.acc, false) := by
  decide +kernel

theorem pauseKey_index (pause : Bool) (p : Nat) : pauseKey pause p / 256 = 0x4000 + p := by
  cases pause <;> simp only [pauseKey, Key.tdm.PAUSE_AT, Key.tdm.RESUME_AT] <;> omega

theorem findIdx_pauseKey : ∀ pause, ∀ p < 4, specialKeys.findIdx (coversKey (pauseKey pause p)) = if pause then 35 else 36 := by
  decide +kernel

theorem entryDoes_pauseKey (pause : Bool) (hp : p < 4) (w : Writer) (n : Nat) :
    entryDoes w (pauseKey pause p) (.num n) = pauseRequest p pause n := by
  have hline := findIdx_pauseKey pause p hp
  have hindex := pauseKey_index pause p
  cases pause
  all_goals
    refine (entryDoes_of_findIdx hline rfl).trans ?_
    rw [hindex, Nat.add_sub_cancel_left]
    rfl

/-- A request is the only one of its port, whichever session has made it (R351). -/
theorem pauseRequest_leaves (s : State) (p : Nat) (pause : Bool) (n m : Nat) :
    let t := s.does (causedBy m (pauseRequest p pause n))
    (t.port p).request pause = some (max n s.now) ∧ (t.port p).request (!pause) = none ∧ s.Frame [] t := by
  obtain ⟨f, hf, hasked, hother⟩ : ∃ f : Port → Port, s.does (causedBy m (pauseRequest p pause n)) = s.apply (.port p f) ∧
      (∀ x, (f x).request pause = some (max n s.now)) ∧ ∀ x, (f x).request (!pause) = none := by
    refine ⟨_, rfl, fun x => ?_, fun x => ?_⟩ <;> cases pause <;> rfl
  rw [hf]
  exact ⟨(congrArg (Port.request pause) (s.port_apply_port p f)).trans (hasked _),
    (congrArg (Port.request (!pause)) (s.port_apply_port p f)).trans (hother _), port_frame s p f⟩

/-- An accepted write of PAUSE_AT or RESUME_AT leaves one pending request (R351). -/
theorem writes_pauseKey {c : Instr} {w : EntryWrite} {pause : Bool}
    (hexec : ∀ s, exec c s = s.goes (writeEntry (pauseKey pause p) none w)) (hp : p < 4) (n : Nat) :
    Writes c (pauseKey pause p) w n (fun _ => True) fun s t =>
      (t.port p).request pause = some (max n s.now) ∧ (t.port p).request (!pause) = none ∧ s.Frame [] t := by
  have hindex := pauseKey_index pause p
  refine writes_of_port hexec (by omega) (by omega) (row_pauseKey pause p hp) (entryDoes_pauseKey pause hp _ n) fun s _ a => ?_
  obtain ⟨hasked, hother, hkeep⟩ := pauseRequest_leaves s p pause n w.session
  exact ⟨hasked, hother, hkeep.trans (answer_frame _ a)⟩

/-! ### The clear of a fence -/

/-- The entry that clears the fence of a port or receiver (Tables 11-7, 11-8). -/
def pclearKey (u : Nat) : Nat := if u < 4 then Key.tmap.FENCE_CLEAR u else Key.aes.FENCE_CLEAR (u - 4)

theorem row_pclearKey : ∀ u < 6, (Dict.row (pclearKey u)).map (fun r => (r.eff, r.p)) = some (.acc, false) := by decide +kernel

theorem pclearKey_index : ∀ u < 6, pclearKey u / 65536 = 0x40 ∧ pclearKey u / 256 ≠ 0x4022 := by decide

theorem entryDoes_pclearKey (hu : u < 6) (w : Writer) : entryDoes w (pclearKey u) (.num 1) = fenceClear 0 3 u := by
  have hlines : ∀ u < 6, specialKeys.findIdx (coversKey (pclearKey u)) = if u < 4 then 37 else 39 := by decide +kernel
  have hline := hlines u hu
  by_cases hport : u < 4
  · have hindex : pclearKey u / 256 = 0x4010 + u := by simp only [pclearKey, if_pos hport, Key.tmap.FENCE_CLEAR]; omega
    rw [if_pos hport] at hline
    refine (entryDoes_of_findIdx hline rfl).trans ?_
    rw [hindex, Nat.add_sub_cancel_left]
    rfl
  · have hindex : pclearKey u / 256 = 0x4020 + (u - 4) := by simp only [pclearKey, if_neg hport, Key.aes.FENCE_CLEAR]; omega
    have hunit : 4 + (u - 4) = u := by omega
    rw [if_neg hport] at hline
    refine (entryDoes_of_findIdx hline rfl).trans ?_
    rw [hindex, Nat.add_sub_cancel_left]
    exact congrArg (fenceClear 0 3) hunit

/-- The clear of a unit's fence is kept, counted and reported (R361, R476). -/
theorem fenceClear_port (hu : u < 6) (hf : s.pst u = .fenced) : fenceClear 0 3 u s = .port u (fun x => { x with clearDue := some 0 }) ::
    [.bump Key.fence.CLEARS 1, .event Ev.FENCE_CLEARED (args16 [3, u, s.clearAnswer 3 u])] := by
  have hnames : s.clearNames 3 u = [u] := clearNames_of_fenced (p := fun u => s.pst u == .fenced) rfl hu (by decide) (by simp [hf])
  have hone : clearOne 0 3 u = always [.port u fun x => { x with clearDue := some 0 }] := by simp only [clearOne]
  rw [fenceClear_of_names hnames (by simp [State.clearStatus]), hone]
  rfl

/-- The clear waits for the next block boundary, and the fence stands until then, whichever session has caused it (R361). -/
theorem fenceClear_port_leaves (hu : u < 6) (hf : s.pst u = .fenced) (m : Nat) :
    let t := s.does (causedBy m (fenceClear 0 3 u))
    (t.port u).clearDue = some 0 ∧ t.pst u = .fenced ∧ s.Frame [Key.fence.CLEARS, Key.evt.EVT_RAISED] t := by
  have hclear := fenceClear_port hu hf
  have hreport : Confined [Key.fence.CLEARS, Key.evt.EVT_RAISED] (Units.ofPort Port.clearDue u)
      [.bump Key.fence.CLEARS 1, .event Ev.FENCE_CLEARED (args16 [3, u, s.clearAnswer 3 u])] := by simp
  have hall : Confined [Key.fence.CLEARS, Key.evt.EVT_RAISED] (fun _ => ()) (fenceClear 0 3 u s) := by simp [hclear]
  have hkeep := (hall.by m).frame s
  have hkey : pstKey u ∉ [Key.fence.CLEARS, Key.evt.EVT_RAISED] := by
    simp only [pstKey, Key.aes.RX_STATE, Key.tdm.PORT_STATE, Key.fence.CLEARS, Key.evt.EVT_RAISED, List.mem_cons, List.not_mem_nil,
      or_false]
    split <;> omega
  refine ⟨?_, (hkeep.pst hkey).trans hf, hkeep⟩
  rw [State.does, causedBy, hclear]
  exact ((hreport.by m).port _).trans (congrArg Port.clearDue (s.port_apply_port u _))

/-! ### The obligation -/

/-- Settles O49: each transition is one change of state and one of the unit with it; a mask that waits moves neither the frame edge nor
the request of the pause that follows it; a request is one change of its port, and so is a clear, which is counted. -/
theorem portsChangeState : Obligations.PortsChangeState := by
  unfold Obligations.PortsChangeState
  refine ⟨fun s p e l hslave hst hedge hlong hfew => ⟨_, rfl, portNoClock_leaves p.isLt hslave hst hedge hlong hfew⟩,
    fun s a e l hst hedge hlong hfew => ⟨_, rfl, aesNoSignal_leaves a.isLt hst hedge hlong hfew⟩,
    fun s u hst hgood hrate hfill => ⟨_, rfl, portAcquired_leaves u.isLt hst hgood hrate hfill⟩,
    fun s u hst hrate => ⟨_, rfl, rateRecover_leaves u.isLt hst hrate⟩,
    fun s p hst hgood => ⟨_, rfl, formatRecover_leaves p.isLt hst hgood⟩, fun u w => ?_,
    fun p w n => writes_pauseKey (pause := true) (fun _ => rfl) p.isLt n,
    fun p w n => writes_pauseKey (pause := false) (fun _ => rfl) p.isLt n,
    fun s p n e hat hedge hdue hst => ⟨_, rfl, maskThenTurn_leaves (pause := true) p.isLt hat hedge hdue hst⟩,
    fun s p n e hat hedge hdue hst => ⟨_, rfl, maskThenTurn_leaves (pause := false) p.isLt hat hedge hdue hst⟩⟩
  obtain ⟨harea, hout⟩ := pclearKey_index u u.isLt
  refine writes_of_port (fun _ => rfl) harea hout (row_pclearKey u u.isLt) (entryDoes_pclearKey u.isLt _) fun s hf a => ?_
  obtain ⟨hdue, hst, hkeep⟩ := fenceClear_port_leaves u.isLt hf w.session
  exact ⟨hdue, hst, hkeep.trans ((answer_frame _ a).mono (List.nil_subset _))⟩

end Sys2Proof.Machine
end

section
/-!
What every command does with the queue and with the outcome of a step, and the state after reset (R437, R441).
-/

namespace Sys2Proof.Machine

/-- Settles O1: it is the definition of a step, with a command in front and without one. -/
theorem stepRunsFrontCommand : Obligations.StepRunsFrontCommand :=
  ⟨fun _ _ _ => rfl, fun s h => by rw [step, h]⟩

/-! ### The queue -/

theorem State.powerOn_pending (s : State) : s.powerOn.pending = s.pending := by
  rw [s.powerOn_eq]
  split
  · exact State.does_pending ..
  · rfl

theorem State.resetLow_pending (s : State) (ns : Nat) : (s.resetLow ns).pending = s.pending := by
  obtain hsame | ⟨es, hrun⟩ | ⟨u, hreset⟩ := s.resetLow_cases ns
  · rw [hsame]
  · rw [hrun, State.run_pending]
  · rw [hreset]
    rfl

/-- Settles O2: a phase leaves the queue, since no effect touches it, and so do the reference tick and the resets. -/
theorem commandsKeepTheQueue : Obligations.CommandsKeepTheQueue := by
  intro c s t h
  obtain ⟨p, rfl⟩ | ⟨-, rfl⟩ | ⟨-, rfl⟩ | ⟨ns, -, rfl⟩ := exec_cases h
  · exact s.does_pending p
  · exact State.does_pending ..
  · exact s.powerOn_pending
  · exact s.resetLow_pending ns

/-! ### Commands that stop -/

/-- A return from a stall goes on from 380 mV up, and is a fault below (R441, log 86). -/
theorem exec_vcoreStallResume (mv : Nat) (s : State) :
    exec (.vcoreStallResume mv) s = if mv < 380 then .fault .stateUndefined else .next s := rfl

/-- Every command but a return from a stall goes on. -/
theorem exec_goes_on {c : Instr} (hc : ∀ mv, c ≠ .vcoreStallResume mv) (s : State) : ∃ t, exec c s = .next t := by
  cases c with
  | vcoreStallResume mv => exact absurd rfl (hc mv)
  | _ => exact ⟨_, rfl⟩

/-- Settles O4: every command goes on, but for the return from a stall, which goes on or faults by its voltage. -/
theorem onlyDeepStallStops : Obligations.OnlyDeepStallStops := by
  intro c s
  have hresume (mv : Nat) (hmv : 380 ≤ mv) : exec (.vcoreStallResume mv) s = .next s := by
    rw [exec_vcoreStallResume, if_neg (by omega)]
  by_cases hc : ∃ mv, c = .vcoreStallResume mv
  · obtain ⟨mv, rfl⟩ := hc
    by_cases hmv : mv < 380
    · have hexec : exec (.vcoreStallResume mv) s = .fault .stateUndefined := by rw [exec_vcoreStallResume, if_pos hmv]
      rw [hexec]
      exact ⟨by simp, fun f => ⟨fun hf => ⟨(Host.Outcome.fault.inj hf).symm, mv, rfl, hmv⟩, fun hf => by rw [hf.1]⟩, hresume⟩
    · rw [hresume mv (by omega)]
      exact ⟨by simp, fun f => ⟨by simp, fun ⟨_, mv', hmv', hlt⟩ => absurd hlt (by cases hmv'; exact hmv)⟩, hresume⟩
  · obtain ⟨t, ht⟩ := exec_goes_on (fun mv h => hc ⟨mv, h⟩) s
    rw [ht]
    exact ⟨by simp, fun f => ⟨by simp, fun ⟨_, mv, hmv, _⟩ => absurd ⟨mv, hmv⟩ hc⟩, hresume⟩

/-! ### The state after reset -/

theorem State.reset_inv : State.reset.Inv :=
  ⟨⟨rfl, rfl⟩, State.typed_of_dict_nil rfl, fun _ _ _ _ => rfl, fun _ hr => Dict.dflt_of_row_none hr⟩

/-- Settles O6: with an empty dictionary every entry is at its default, which is of its type. -/
theorem resetMeetsTheInvariant : Obligations.ResetMeetsTheInvariant :=
  ⟨State.reset_inv, rfl, rfl, rfl, fun _ => rfl, rfl⟩

end Sys2Proof.Machine
end

section
/-!
Effects that change the mode: `setMode` alone has one. Every other phase is a list of effects without.
-/

namespace Sys2Proof.Machine

/-- The effect is no change of the mode. -/
def Effect.Modeless : Effect → Prop
  | .mode _ => False
  | _ => True

/-- No effect of the list changes the mode. -/
def Modeless (es : List Effect) : Prop := ∀ e ∈ es, e.Modeless

section Lists
variable {es fs : List Effect} {e : Effect}

@[simp] theorem Modeless.nil : Modeless [] := fun _ h => absurd h List.not_mem_nil
@[simp] theorem modeless_cons : Modeless (e :: es) ↔ e.Modeless ∧ Modeless es := List.forall_mem_cons
@[simp] theorem modeless_append : Modeless (es ++ fs) ↔ Modeless es ∧ Modeless fs := List.forall_mem_append
@[simp] theorem modeless_map {ι : Type} {l : List ι} {f : ι → Effect} : Modeless (l.map f) ↔ ∀ i ∈ l, (f i).Modeless :=
  List.forall_mem_map
@[simp] theorem modeless_flatMap {ι : Type} {l : List ι} {f : ι → List Effect} :
    Modeless (l.flatMap f) ↔ ∀ i ∈ l, Modeless (f i) := by
  simp only [Modeless, List.mem_flatMap]
  exact ⟨fun h i hi e he => h e ⟨i, hi, he⟩, fun h e ⟨i, hi, he⟩ => h i hi e he⟩
@[simp] theorem modeless_filterMap {ι : Type} {l : List ι} {f : ι → Option Effect} :
    Modeless (l.filterMap f) ↔ ∀ i ∈ l, ∀ e, f i = some e → e.Modeless := by
  simp only [Modeless, List.mem_filterMap]
  exact ⟨fun h i hi e he => h e ⟨i, hi, he⟩, fun h e ⟨i, hi, he⟩ => h i hi e he⟩
@[simp] theorem modeless_ite {c : Prop} [Decidable c] :
    Modeless (if c then es else fs) ↔ (c → Modeless es) ∧ (¬ c → Modeless fs) := by
  split <;> simp_all

@[simp] theorem Effect.modeless_ite {c : Prop} [Decidable c] {d : Effect} :
    (if c then d else e).Modeless ↔ (c → d.Modeless) ∧ (¬ c → e.Modeless) := by
  split <;> simp_all

/-- Whoever has caused them, effects that leave the mode leave it. -/
@[simp] theorem modeless_by {n : Nat} : Modeless (es.map (Effect.by n)) ↔ Modeless es := by
  simp only [modeless_map]
  refine forall₂_congr fun e _ => ?_
  unfold Effect.by
  split <;> rfl

theorem State.apply_mode_of_modeless (h : e.Modeless) (s : State) : (s.apply e).mode = s.mode := by
  cases e with
  | mode m => exact h.elim
  | _ => simp [State.apply]

/-- A list without a change of the mode leaves the mode. -/
theorem Modeless.run_mode (h : Modeless es) (s : State) : (s.run es).mode = s.mode := by
  induction es generalizing s with
  | nil => rfl
  | cons e es ih =>
    obtain ⟨he, hes⟩ := modeless_cons.1 h
    exact (ih hes _).trans (State.apply_mode_of_modeless he s)

end Lists

section Named
variable {k i n : Nat}

@[simp] theorem Effect.modeless_reg {v : Value} : (Effect.reg k v).Modeless := trivial
@[simp] theorem Effect.modeless_bump {n : Int} : (Effect.bump k n).Modeless := trivial
@[simp] theorem Effect.modeless_orBits : (Effect.orBits k n).Modeless := trivial
@[simp] theorem Effect.modeless_andNot : (Effect.andNot k n).Modeless := trivial
@[simp] theorem Effect.modeless_save {v : Option Value} : (Effect.save k v).Modeless := trivial
@[simp] theorem Effect.modeless_unit {f : Units → Units} : (Effect.unit f).Modeless := trivial
@[simp] theorem Effect.modeless_raise {a : List Byte} {sc : Option Nat} : (Effect.raise k a n sc).Modeless := trivial
@[simp] theorem Effect.modeless_num {n : Int} : (Effect.num k n).Modeless := trivial
@[simp] theorem Effect.modeless_nat : (Effect.nat k n).Modeless := trivial
@[simp] theorem Effect.modeless_event {a : List Byte} : (Effect.event k a).Modeless := trivial
@[simp] theorem Effect.modeless_eventOnce {a : List Byte} : (Effect.eventOnce k n a).Modeless := trivial
@[simp] theorem Effect.modeless_tbase {f : TimeBase → TimeBase} : (Effect.tbase i f).Modeless := trivial
@[simp] theorem Effect.modeless_stream {f : Stream → Stream} : (Effect.stream i f).Modeless := trivial
@[simp] theorem Effect.modeless_obj {f : Obj → Obj} : (Effect.obj i f).Modeless := trivial
@[simp] theorem Effect.modeless_rgroup {f : RGroup → RGroup} : (Effect.rgroup i f).Modeless := trivial
@[simp] theorem Effect.modeless_chan {f : Chan → Chan} : (Effect.chan i f).Modeless := trivial
@[simp] theorem Effect.modeless_group {f : Group → Group} : (Effect.group i f).Modeless := trivial
@[simp] theorem Effect.modeless_slot {f : Slot → Slot} : (Effect.slot i f).Modeless := trivial
@[simp] theorem Effect.modeless_learner {f : Learner → Learner} : (Effect.learner i f).Modeless := trivial
@[simp] theorem Effect.modeless_lane {f : Lane → Lane} : (Effect.lane i f).Modeless := trivial
@[simp] theorem Effect.modeless_session {f : Option Session → Option Session} : (Effect.session i f).Modeless := trivial
@[simp] theorem Effect.modeless_handle {f : Option Handle → Option Handle} : (Effect.handle i f).Modeless := trivial
@[simp] theorem Effect.modeless_gen {f : Gen → Gen} : (Effect.gen i f).Modeless := trivial
@[simp] theorem Effect.modeless_cap {f : Cap → Cap} : (Effect.cap i f).Modeless := trivial
@[simp] theorem Effect.modeless_port {f : Port → Port} : (Effect.port i f).Modeless := trivial
@[simp] theorem Effect.modeless_mac {f : Mac → Mac} : (Effect.mac i f).Modeless := trivial
@[simp] theorem Effect.modeless_act {f : ActExt → ActExt} : (Effect.act i f).Modeless := trivial
@[simp] theorem Effect.modeless_sg {f : SgExt → SgExt} : (Effect.sg i f).Modeless := trivial
@[simp] theorem Effect.modeless_can {f : Can → Can} : (Effect.can f).Modeless := trivial
@[simp] theorem Effect.modeless_anchor {f : Anchor → Anchor} : (Effect.anchor f).Modeless := trivial
@[simp] theorem Effect.modeless_disp {f : Disp → Disp} : (Effect.disp f).Modeless := trivial
@[simp] theorem Effect.modeless_mgmt {f : Mgmt → Mgmt} : (Effect.mgmt f).Modeless := trivial
@[simp] theorem Effect.modeless_pins {f : Pins → Pins} : (Effect.pins f).Modeless := trivial
@[simp] theorem Effect.modeless_draws : (Effect.draws n).Modeless := trivial

end Named

section Phases
variable {p q : Phase} {s : State}

@[simp] theorem modeless_always {es : List Effect} : Modeless (always es s) ↔ Modeless es := .rfl

@[simp] theorem modeless_phases {ps : List Phase} (h : ∀ p ∈ ps, ∀ t, Modeless (p t)) : Modeless (phases ps s) := by
  induction ps generalizing s with
  | nil => exact .nil
  | cons p ps ih =>
    obtain ⟨hp, hps⟩ := List.forall_mem_cons.1 h
    exact modeless_append.2 ⟨hp s, ih hps⟩

@[simp] theorem modeless_forAll {ι : Type} {l : List ι} {f : ι → Phase} (h : ∀ i t, Modeless (f i t)) :
    Modeless (forAll l f s) :=
  modeless_phases fun _ hp => by obtain ⟨i, -, rfl⟩ := List.mem_map.1 hp; exact h i

@[simp] theorem modeless_causedBy {n : Nat} : Modeless (causedBy n p s) ↔ Modeless (p s) := modeless_by

@[simp] theorem modeless_whenP {c : State → Bool} (h : Modeless (p s)) : Modeless (whenP c p s) := by
  unfold whenP
  split
  · exact h
  · exact .nil

@[simp] theorem modeless_readP {ι : Type} {f : State → ι} {g : ι → Phase} : Modeless (readP f g s) ↔ Modeless (g (f s) s) := .rfl

@[simp] theorem modeless_ite_apply {c : Prop} [Decidable c] :
    Modeless ((if c then p else q) s) ↔ (c → Modeless (p s)) ∧ (¬ c → Modeless (q s)) := by
  split <;> simp_all

end Phases

end Sys2Proof.Machine
end

section
/-!
The phases without a change of the mode, in the order of the model: each is made of effects, and of phases above it, that have none.
-/

namespace Sys2Proof.Machine

@[simp] theorem modeless_zcStartAt (key : Nat) (v : Value) (start : Nat) (s : State) : Modeless (zcStartAt key v start s) := by
  simp [zcStartAt]

@[simp] theorem modeless_zcStart (key : Nat) (v : Value) (s : State) : Modeless (zcStart key v s) := by simp [zcStart]

@[simp] theorem Effect.modeless_zcShorten (key n : Nat) : (zcShorten key n).Modeless := trivial

@[simp] theorem modeless_zcRenew (s : State) : Modeless (zcRenew s) := by simp [zcRenew]

@[simp] theorem modeless_zcEntry (key : Nat) (s : State) : Modeless (zcEntry key s) := by simp [zcEntry]

@[simp] theorem Effect.modeless_zcDrop (key : Nat) : (zcDrop key).Modeless := trivial

@[simp] theorem modeless_setOut (c v : Nat) (s : State) : Modeless (setOut c v s) := by simp [setOut]

@[simp] theorem modeless_groupShow (g : Nat) (s : State) : Modeless (groupShow g s) := by simp [groupShow]

@[simp] theorem modeless_startBegin (c : Nat) (s : State) : Modeless (startBegin c s) := by simp [startBegin]

@[simp] theorem modeless_startDue (c : Nat) (s : State) : Modeless (startDue c s) := by simp [startDue]

@[simp] theorem modeless_releaseNow (c : Nat) (s : State) : Modeless (releaseNow c s) := by simp [releaseNow]

@[simp] theorem modeless_loopDown (c : Nat) (s : State) : Modeless (loopDown c s) := by simp [loopDown]

@[simp] theorem modeless_chainDown (c : Nat) (crossing : Bool) (s : State) : Modeless (chainDown c crossing s) := by
  simp [chainDown]

@[simp] theorem modeless_stopBegin (c : Nat) (fast : Bool) (s : State) : Modeless (stopBegin c fast s) := by simp [stopBegin]

@[simp] theorem modeless_chainUp (c : Nat) (s : State) : Modeless (chainUp c s) := by simp [chainUp]

@[simp] theorem modeless_gateTick (c : Nat) (s : State) : Modeless (gateTick c s) := by
  unfold gateTick
  split <;> simp

@[simp] theorem modeless_gateSample (c : Nat) (s : State) : Modeless (gateSample c s) := by
  refine modeless_phases ?_
  simp
  cases (s.chan c).restart <;> simp

@[simp] theorem modeless_holdDown (c : Nat) (s : State) : Modeless (holdDown c s) := by simp [holdDown]

@[simp] theorem modeless_fenceMark (c bit : Nat) (s : State) : Modeless (fenceMark c bit s) := by simp [fenceMark]

@[simp] theorem modeless_fenceFast (c bit : Nat) (s : State) : Modeless (fenceFast c bit s) := by simp [fenceFast]

@[simp] theorem modeless_fenceDrop (c m how : Nat) (s : State) : Modeless (fenceDrop c m how s) := by simp [fenceDrop]

@[simp] theorem modeless_chEnEffect (c : Nat) (v : Int) (s : State) : Modeless (chEnEffect c v s) := by simp [chEnEffect]

@[simp] theorem modeless_startSequence {ron : Phase} (h : ∀ t, Modeless (ron t)) (c : Nat) (s : State) :
    Modeless (startSequence ron c s) := by simp [startSequence, h]

@[simp] theorem modeless_shortDeclared (c : Nat) (s : State) : Modeless (shortDeclared c s) := by simp [shortDeclared]

@[simp] theorem modeless_probeBegin (c : Nat) (s : State) : Modeless (probeBegin c s) := by simp [probeBegin]

@[simp] theorem modeless_probeEnd (c n : Nat) (s : State) : Modeless (probeEnd c n s) := by simp [probeEnd]

@[simp] theorem modeless_dcFault (c : Nat) (s : State) : Modeless (dcFault c s) := by simp [dcFault]

@[simp] theorem modeless_channelClear (c : Nat) (s : State) : Modeless (channelClear c s) := by simp [channelClear]

@[simp] theorem modeless_groupRelease (g : Nat) (s : State) : Modeless (groupRelease g s) :=
  modeless_forAll fun c t => by simp

@[simp] theorem modeless_groupStarts (g : Nat) (s : State) : Modeless (groupStarts g s) :=
  modeless_whenP (modeless_forAll fun c t => by simp)

@[simp] theorem modeless_busOvervoltage (g mv : Nat) (s : State) : Modeless (busOvervoltage g mv s) := by simp [busOvervoltage]

@[simp] theorem modeless_busOvRearm (g mv : Nat) (s : State) : Modeless (busOvRearm g mv s) := by simp [busOvRearm]

@[simp] theorem modeless_busUvMute (g : Nat) (s : State) : Modeless (busUvMute g s) := by
  unfold busUvMute
  split
  · simp
  · exact modeless_phases (by simp)

@[simp] theorem modeless_busUvRestore (g : Nat) (s : State) : Modeless (busUvRestore g s) := by simp [busUvRestore]

@[simp] theorem modeless_starve (g : Nat) (s : State) : Modeless (starve g s) := by simp [starve]

@[simp] theorem modeless_starveRecover (g : Nat) (s : State) : Modeless (starveRecover g s) := by simp [starveRecover]

@[simp] theorem modeless_vauxLow (g mv : Nat) (s : State) : Modeless (vauxLow g mv s) := by simp [vauxLow]

@[simp] theorem modeless_vauxOk (g mv : Nat) (s : State) : Modeless (vauxOk g mv s) := by simp [vauxOk]

@[simp] theorem modeless_clip (c bit : Nat) (s : State) : Modeless (clip c bit s) := by simp [clip]

@[simp] theorem modeless_carrierChan (g c : Nat) (vk : Int) (peak : Int × Int) (s : State) :
    Modeless (carrierChan g c vk peak s) := by
  simp [carrierChan]

@[simp] theorem modeless_carrierGroup (g : Nat) (vk : Int) (peaks : List (Int × Int)) (s : State) :
    Modeless (carrierGroup g vk peaks s) := by
  simp [carrierGroup]

@[simp] theorem modeless_tickRest (s : State) : Modeless (tickRest s) := by simp [tickRest]

@[simp] theorem modeless_snapshot (s : State) : Modeless (snapshot s) := by simp [snapshot]

@[simp] theorem modeless_setLock (tb new : Nat) (s : State) : Modeless (setLock tb new s) := by simp [setLock]

@[simp] theorem modeless_reportOffset (tb : Nat) (o : Int) (s : State) : Modeless (reportOffset tb o s) := by simp [reportOffset]

@[simp] theorem modeless_slewStop (s : State) : Modeless (slewStop s) := by simp [slewStop]

@[simp] theorem modeless_writeInc (tb : Nat) (aboveNominal : Int) (s : State) : Modeless (writeInc tb aboveNominal s) := by
  simp [writeInc]

@[simp] theorem modeless_slewStart (o : Int) (s : State) : Modeless (slewStart o s) := by simp [slewStart]

@[simp] theorem modeless_anchorMute (c : Nat) (s : State) : Modeless (anchorMute c s) := by simp [anchorMute]

@[simp] theorem modeless_reanchorBegin (o : Int) (s : State) : Modeless (reanchorBegin o s) := by simp [reanchorBegin]

@[simp] theorem modeless_mtbStep (o : Int) (s : State) : Modeless (mtbStep o s) := by simp [mtbStep]

@[simp] theorem modeless_mtbOffset (o : Int) (s : State) : Modeless (mtbOffset o s) := by simp [mtbOffset]

@[simp] theorem Effect.modeless_dtbShift (tb : Nat) (o : Int) : (dtbShift tb o).Modeless := trivial

@[simp] theorem modeless_applyStep (tb : Nat) (o : Int) (s : State) : Modeless (applyStep tb o s) := by simp [applyStep]

@[simp] theorem modeless_applyOffset (tb : Nat) (o : Int) (s : State) : Modeless (applyOffset tb o s) := by simp [applyOffset]

@[simp] theorem modeless_servoP {p : Phase} {s : State} (h : Modeless (p s)) : Modeless (servoP p s) := modeless_whenP h

@[simp] theorem modeless_servoUse (tb : Nat) (o : Int) (s : State) : Modeless (servoUse tb o s) := by simp [servoUse]

@[simp] theorem modeless_servoTest (tb : Nat) (o : Int) (s : State) : Modeless (servoTest tb o s) := by simp [servoTest]

@[simp] theorem modeless_sourceBack (o : Int) (s : State) : Modeless (sourceBack o s) := by simp [sourceBack]

@[simp] theorem Effect.modeless_estimateOpen (tb : Nat) : (estimateOpen tb).Modeless := trivial

@[simp] theorem modeless_sourcePresent (tb : Nat) (o : Int) (s : State) : Modeless (sourcePresent tb o s) :=
  modeless_phases (by simp)

@[simp] theorem modeless_measure (tb : Nat) (o : Int) (s : State) : Modeless (measure tb o s) := by simp [measure]

@[simp] theorem modeless_portMove (d : Nat) (s : State) : Modeless (portMove d s) := by simp [portMove]

@[simp] theorem modeless_syncMeasure (d mac : Nat) (t1 logInterval : Int) (s : State) :
    Modeless (syncMeasure d mac t1 logInterval s) := by
  refine modeless_servoP ?_
  dsimp only
  split
  · simp
  · refine modeless_phases ?_
    simp

@[simp] theorem modeless_estimateDone (tb : Nat) (s : State) : Modeless (estimateDone tb s) := by simp [estimateDone]

@[simp] theorem modeless_lockWindow (tb : Nat) (s : State) : Modeless (lockWindow tb s) := by simp [lockWindow]

@[simp] theorem modeless_sourceLost (s : State) : Modeless (sourceLost s) := by simp [sourceLost]

@[simp] theorem modeless_lockAnchored (s : State) : Modeless (lockAnchored s) := by simp [lockAnchored]

@[simp] theorem modeless_syncTimeout (d : Nat) (s : State) : Modeless (syncTimeout d s) := by simp [syncTimeout]

@[simp] theorem modeless_refEdgeMissing (s : State) : Modeless (refEdgeMissing s) := by simp [refEdgeMissing]

@[simp] theorem modeless_wclkEdge (ppm : Int) (s : State) : Modeless (wclkEdge ppm s) := by simp [wclkEdge]

@[simp] theorem modeless_ppsEdge (s : State) : Modeless (ppsEdge s) := by simp [ppsEdge]

@[simp] theorem modeless_slewDone (s : State) : Modeless (slewDone s) := by simp [slewDone]

@[simp] theorem modeless_timesPassed (action : Nat → Nat → Bool) (commit : Nat → Bool) (t1 : Nat) (s : State) :
    Modeless (timesPassed action commit t1 s) := by
  unfold timesPassed
  refine modeless_append.2 ⟨by simp, modeless_flatMap.2 fun p _ => ?_⟩
  dsimp only
  split <;> simp

@[simp] theorem modeless_anchorPassed (t0 t1 : Nat) (s : State) : Modeless (anchorPassed t0 t1 s) := by simp [anchorPassed]

@[simp] theorem modeless_absencePassed (t0 t1 : Nat) (s : State) : Modeless (absencePassed t0 t1 s) := by simp [absencePassed]

@[simp] theorem modeless_anchorApply (change known : Int) (s : State) : Modeless (anchorApply change known s) := by
  simp [anchorApply]

@[simp] theorem modeless_anchorBoundary (s : State) : Modeless (anchorBoundary s) := by simp [anchorBoundary]

@[simp] theorem modeless_anchorPeriodEnd (s : State) : Modeless (anchorPeriodEnd s) := by
  unfold anchorPeriodEnd
  dsimp only
  split
  · simp
  · refine modeless_phases ?_
    simp
    cases s.units.anchor.second <;> simp

@[simp] theorem modeless_reanchorFadeIn (s : State) : Modeless (reanchorFadeIn s) := by
  unfold reanchorFadeIn
  dsimp only
  split
  · refine modeless_phases (List.forall_mem_cons.2 ⟨fun t => modeless_forAll fun c u => ?_, by simp⟩)
    split
    · exact modeless_phases (by simp)
    · simp
  · simp

@[simp] theorem modeless_firstAnchoring (s : State) : Modeless (firstAnchoring s) := by simp [firstAnchoring]

@[simp] theorem modeless_refSourceEffect (v : Int) (s : State) : Modeless (refSourceEffect v s) := by simp [refSourceEffect]

@[simp] theorem modeless_handoverTo (d : Nat) (s : State) : Modeless (handoverTo d s) := by simp [handoverTo]

@[simp] theorem modeless_dtbUnfence (d : Nat) (s : State) : Modeless (dtbUnfence d s) := by simp [dtbUnfence]

@[simp] theorem modeless_domainNumberEffect (d : Nat) (v : Int) (s : State) : Modeless (domainNumberEffect d v s) := by
  simp [domainNumberEffect]

@[simp] theorem modeless_dtbFence (d : Nat) (s : State) : Modeless (dtbFence d s) := by simp [dtbFence]

@[simp] theorem modeless_dtbFailover (d : Nat) (n0Delivers : Bool) (s : State) : Modeless (dtbFailover d n0Delivers s) := by
  simp [dtbFailover]

@[simp] theorem modeless_requestSent (m : Nat) (s : State) : Modeless (requestSent m s) := by
  unfold requestSent
  split <;> simp

@[simp] theorem modeless_delayResp (d ns : Nat) (s : State) : Modeless (delayResp d ns s) := by
  refine modeless_servoP ?_
  dsimp only
  repeat' split
  all_goals simp

@[simp] theorem modeless_clockPins (s : State) : Modeless (clockPins s) := by simp [clockPins]

@[simp] theorem modeless_clocksOff (s : State) : Modeless (clocksOff s) := by simp [clocksOff]

@[simp] theorem modeless_announce (d gm : Nat) (s : State) : Modeless (announce d gm s) := by simp [announce]

@[simp] theorem modeless_dropSlotWaits (u : Nat) : Modeless (dropSlotWaits u) := by simp [dropSlotWaits]

@[simp] theorem modeless_setPort (u : Nat) (new : PSt) (s : State) : Modeless (setPort u new s) := by simp [setPort]

@[simp] theorem modeless_portFence (u cause : Nat) (s : State) : Modeless (portFence u cause s) := by simp [portFence]

@[simp] theorem modeless_portFault (u : Nat) (new : PSt) (s : State) : Modeless (portFault u new s) := by simp [portFault]

@[simp] theorem modeless_portAcquire (u : Nat) (s : State) : Modeless (portAcquire u s) := by simp [portAcquire]

@[simp] theorem modeless_portBegin (u : Nat) (s : State) : Modeless (portBegin u s) := by simp [portBegin]

@[simp] theorem modeless_portEnable (p : Nat) (s : State) : Modeless (portEnable p s) := by simp [portEnable]

@[simp] theorem modeless_rxEnable (a : Nat) (s : State) : Modeless (rxEnable a s) := by simp [rxEnable]

@[simp] theorem modeless_portsRestart (s : State) : Modeless (portsRestart s) := by simp [portsRestart]

@[simp] theorem modeless_maskCarried (p old new done : Nat) (s : State) : Modeless (maskCarried p old new done s) := by
  unfold maskCarried
  dsimp only
  split <;> simp

@[simp] theorem modeless_maskTake (p edge done : Nat) (s : State) : Modeless (maskTake p edge done s) := by
  unfold maskTake
  split <;> simp

@[simp] theorem modeless_slotWaits (p : Nat) (v : Int) (s : State) : Modeless (slotWaits p v s) := by simp [slotWaits]

@[simp] theorem modeless_frameHeard (u edge : Nat) (s : State) : Modeless (frameHeard u edge s) := by
  refine modeless_phases ?_
  simp
  constructor <;> intro t <;> split <;> simp

@[simp] theorem modeless_pauseTakes (p edge : Nat) (pause : Bool) (s : State) : Modeless (pauseTakes p edge pause s) := by
  simp [pauseTakes]

@[simp] theorem modeless_pauseEffective (p : Nat) (s : State) : Modeless (pauseEffective p s) := by
  unfold pauseEffective
  split <;> simp

@[simp] theorem modeless_resumeEffective (p : Nat) (s : State) : Modeless (resumeEffective p s) := by
  unfold resumeEffective
  split <;> simp

@[simp] theorem modeless_frameBegins (p : Nat) (s : State) : Modeless (frameBegins p s) := by
  simp only [frameBegins, modeless_readP]
  cases s.frameEdge p <;> simp

@[simp] theorem modeless_portEdge (u : Nat) (s : State) : Modeless (portEdge u s) := by simp [portEdge]

@[simp] theorem modeless_rateRecover (u : Nat) (s : State) : Modeless (rateRecover u s) := by simp [rateRecover]

@[simp] theorem modeless_formatRecover (p : Nat) (s : State) : Modeless (formatRecover p s) := by simp [formatRecover]

@[simp] theorem modeless_outputPut (u : Nat) (f : List Int) (s : State) : Modeless (outputPut u f s) := by simp [outputPut]

@[simp] theorem modeless_slip (u : Nat) (rep : Bool) (s : State) : Modeless (slip u rep s) := by simp [slip]

@[simp] theorem modeless_sendFrame (p : Nat) (f : List Int) (s : State) : Modeless (sendFrame p f s) := by simp [sendFrame]

@[simp] theorem modeless_tdmFrame (p count bclkHz : Nat) (bits : List Bool) (s : State) :
    Modeless (tdmFrame p count bclkHz bits s) := by
  unfold tdmFrame
  dsimp only
  split
  · simp
  · refine modeless_phases ?_
    simp
    intro t
    refine modeless_whenP ?_
    split
    · split <;> simp
    · simp

@[simp] theorem modeless_portNoClock (p : Nat) (s : State) : Modeless (portNoClock p s) := by simp [portNoClock]

@[simp] theorem modeless_portAcquired (u : Nat) (s : State) : Modeless (portAcquired u s) := by simp [portAcquired]

@[simp] theorem modeless_csBlockEnd (a : Nat) (s : State) : Modeless (csBlockEnd a s) := by simp [csBlockEnd]

@[simp] theorem modeless_aes3Frame (a : Nat) (f : AesFrame) (s : State) : Modeless (aes3Frame a f s) := by simp [aes3Frame]

@[simp] theorem modeless_aesNoSignal (a : Nat) (s : State) : Modeless (aesNoSignal a s) := by simp [aesNoSignal]

@[simp] theorem modeless_deliver (u : Nat) (raw : List Int) (s : State) : Modeless (deliver u raw s) := by simp [deliver]

@[simp] theorem modeless_deliverMuted (u : Nat) (s : State) : Modeless (deliverMuted u s) := by simp [deliverMuted]

@[simp] theorem modeless_takeFrame (u : Nat) (sdi : List Bool) (s : State) : Modeless (takeFrame u sdi s) := by
  unfold takeFrame
  dsimp only
  split
  · simp
  · split
    · simp
    · split
      · simp
      · split <;> simp

@[simp] theorem modeless_outputSlip (p : Nat) (f : List Int) (s : State) : Modeless (outputSlip p f s) := by simp [outputSlip]

@[simp] theorem modeless_putFrame (p : Nat) (s : State) : Modeless (putFrame p s) := by simp [putFrame]

@[simp] theorem modeless_aoutFrame (s : State) : Modeless (aoutFrame s) := by simp [aoutFrame]

@[simp] theorem modeless_frameAgain (u : Nat) (s : State) : Modeless (frameAgain u s) := by simp [frameAgain]

@[simp] theorem modeless_portStart (p t : Nat) (s : State) : Modeless (portStart p t s) := by simp [portStart]

@[simp] theorem modeless_maskDue (p : Nat) (s : State) : Modeless (maskDue p s) := by
  unfold maskDue
  split <;> simp

@[simp] theorem modeless_senseHistory (s : State) : Modeless (senseHistory s) := by simp [senseHistory]

@[simp] theorem modeless_portInputs (sdi : List (List Bool)) (s : State) : Modeless (portInputs sdi s) :=
  modeless_phases (by simp)

@[simp] theorem modeless_portOutputs (s : State) : Modeless (portOutputs s) := by simp [portOutputs]

@[simp] theorem modeless_pauseRequest (p : Nat) (pause : Bool) (t : Nat) (s : State) : Modeless (pauseRequest p pause t s) := by
  simp [pauseRequest]

@[simp] theorem modeless_slotApply (u k : Nat) (v : Int) (timeout : Bool) (s : State) : Modeless (slotApply u k v timeout s) := by
  simp [slotApply]

@[simp] theorem modeless_mapApply (u k key : Nat) (timeout : Bool) (s : State) : Modeless (mapApply u k key timeout s) := by
  simp [mapApply]

@[simp] theorem modeless_slipClear (s : State) : Modeless (slipClear s) := by simp [slipClear]

@[simp] theorem modeless_zcClear (s : State) : Modeless (zcClear s) := by simp [zcClear]

@[simp] theorem modeless_layoutRefused (code place : Nat) (s : State) : Modeless (layoutRefused code place s) := by
  simp [layoutRefused]

@[simp] theorem modeless_objTakes (o : Nat) (t : Took) (s : State) : Modeless (objTakes o t s) := by simp [objTakes]

@[simp] theorem modeless_recordApply (o p : Nat) (m : MetaRec) (s : State) : Modeless (recordApply o p m s) := by simp [recordApply]

@[simp] theorem modeless_metadataApply (o : Nat) (s : State) : Modeless (metadataApply o s) := by
  unfold metadataApply
  split
  · simp
  · split
    · simp
    · dsimp only
      split <;> simp

@[simp] theorem modeless_metaTimeout (o : Nat) (s : State) : Modeless (metaTimeout o s) := by
  unfold metaTimeout
  split <;> simp

@[simp] theorem modeless_objClear (o cause : Nat) (s : State) : Modeless (objClear o cause s) := by simp [objClear]

@[simp] theorem modeless_metaLate (o n : Nat) : Modeless (metaLate o n) := by simp [metaLate]

@[simp] theorem modeless_metaDeliver (t o p : Nat) (m : MetaRec) (s : State) : Modeless (metaDeliver t o p m s) := by
  simp [metaDeliver]

@[simp] theorem modeless_objsRetarget (f : State) (w : Nat) (s : State) : Modeless (objsRetarget f w s) := by simp [objsRetarget]

@[simp] theorem modeless_renderReanchor (s : State) : Modeless (renderReanchor s) := by simp [renderReanchor]

@[simp] theorem modeless_renderWork (f : State) (s : State) : Modeless (renderWork f s) := by simp [renderWork]

@[simp] theorem modeless_busStrobe (s : State) : Modeless (busStrobe s) := by simp [busStrobe]

@[simp] theorem modeless_tookAt (f : State) (w : Nat) (s : State) : Modeless (tookAt f w s) := by simp [tookAt]

@[simp] theorem modeless_renderAnew (s : State) : Modeless (renderAnew s) := by simp [renderAnew]

@[simp] theorem modeless_renderStrobe (s : State) : Modeless (renderStrobe s) := by simp [renderStrobe]

@[simp] theorem modeless_netUpdate (c : Nat) (s : State) : Modeless (netUpdate c s) := by simp [netUpdate]

@[simp] theorem modeless_setStream (i new : Nat) (s : State) : Modeless (setStream i new s) := by simp [setStream]

@[simp] theorem modeless_marginRoll (i : Nat) (s : State) : Modeless (marginRoll i s) := by simp [marginRoll]

@[simp] theorem modeless_marginNote (i t : Nat) (exact : Int) (s : State) : Modeless (marginNote i t exact s) := by
  simp [marginNote]

@[simp] theorem modeless_pathDiff (a : Nat) (s : State) : Modeless (pathDiff a s) := by
  unfold pathDiff
  split <;> simp

@[simp] theorem modeless_pathArrives (i : Nat) (m : Int) (now : Nat) (s : State) : Modeless (pathArrives i m now s) := by
  simp [pathArrives]

@[simp] theorem modeless_pathDelivers (i now : Nat) (s : State) : Modeless (pathDelivers i now s) := by simp [pathDelivers]

@[simp] theorem modeless_pathDown (i : Nat) (s : State) : Modeless (pathDown i s) := by simp [pathDown]

@[simp] theorem modeless_streamFence (i code t : Nat) (s : State) : Modeless (streamFence i code t s) := by simp [streamFence]

@[simp] theorem modeless_streamUnfence (i cause : Nat) (s : State) : Modeless (streamUnfence i cause s) := by simp [streamUnfence]

@[simp] theorem modeless_streamRetryAt (i t : Nat) (s : State) : Modeless (streamRetryAt i t s) := by simp [streamRetryAt]

@[simp] theorem modeless_streamRetry (i : Nat) (s : State) : Modeless (streamRetry i s) := by simp [streamRetry]

@[simp] theorem modeless_streamMalformed (i code t : Nat) (s : State) : Modeless (streamMalformed i code t s) := by
  simp [streamMalformed]

@[simp] theorem modeless_layoutNote (t i layout first p : Nat) (s : State) : Modeless (layoutNote t i layout first p s) := by
  simp [layoutNote]

@[simp] theorem modeless_strictSet (i : Nat) (on : Bool) (s : State) : Modeless (strictSet i on s) := by simp [strictSet]

@[simp] theorem modeless_packetMeta (t i : Nat) (u : Uop) (p : List Byte) (m : Int) (s : State) :
    Modeless (packetMeta t i u p m s) := by
  refine modeless_phases ?_
  simp
  intro t _
  refine modeless_forAll fun j u => ?_
  split <;> simp

@[simp] theorem modeless_packetSsrc (i ssrc : Nat) (s : State) : Modeless (packetSsrc i ssrc s) := by simp [packetSsrc]

@[simp] theorem modeless_undoNote (at' a b : Nat) (s : State) : Modeless (undoNote at' a b s) := by simp [undoNote]

@[simp] theorem modeless_undoTake (a b : Nat) (u : Undo) (s : State) : Modeless (undoTake a b u s) := by simp [undoTake]

@[simp] theorem modeless_rivalYields (a at' : Nat) (taken : List Int) (late : Nat) (s : State) :
    Modeless (rivalYields a at' taken late s) := by
  unfold rivalYields
  split
  · simp
  · split <;> simp

@[simp] theorem modeless_packetPlace (at' i : Nat) (b p : List Byte) (s : State) : Modeless (packetPlace at' i b p s) := by
  unfold packetPlace
  dsimp only
  refine modeless_phases ?_
  simp
  intro t _
  refine modeless_phases ?_
  simp

@[simp] theorem modeless_streamPacket (at' i : Nat) (b : List Byte) (udpOk : Bool) (s : State) :
    Modeless (streamPacket at' i b udpOk s) := by
  unfold streamPacket
  split
  · simp
  · refine modeless_phases ?_
    simp
    intro t _
    split <;> simp

@[simp] theorem modeless_streamLost (i : Nat) (s : State) : Modeless (streamLost i s) := by simp [streamLost]

@[simp] theorem modeless_streamEnable (i : Nat) (on : Bool) (s : State) : Modeless (streamEnable i on s) := by simp [streamEnable]

@[simp] theorem modeless_streamFollows (i : Nat) (s : State) : Modeless (streamFollows i s) := by simp [streamFollows]

@[simp] theorem modeless_streamsMode (on : Bool) (s : State) : Modeless (streamsMode on s) := by simp [streamsMode]

@[simp] theorem modeless_streamsMeasure (s : State) : Modeless (streamsMeasure s) := by simp [streamsMeasure]

@[simp] theorem modeless_streamsReanchor (s : State) : Modeless (streamsReanchor s) :=
  modeless_forAll fun i t => modeless_phases (by simp)

@[simp] theorem modeless_streamClear (i : Nat) (s : State) : Modeless (streamClear i s) := by simp [streamClear]

@[simp] theorem modeless_strictEnds (s : State) : Modeless (strictEnds s) := by simp [strictEnds]

@[simp] theorem modeless_chainStep (c back : Nat) (s : State) : Modeless (chainStep c back s) := by simp [chainStep]

@[simp] theorem modeless_chainStrobe (s : State) : Modeless (chainStrobe s) := by simp [chainStrobe]

@[simp] theorem modeless_ceilingPinned (c : Nat) (s : State) : Modeless (ceilingPinned c s) := by simp [ceilingPinned]

@[simp] theorem modeless_firEnd (c : Nat) (s : State) : Modeless (firEnd c s) := by simp [firEnd]

@[simp] theorem modeless_chanZcApply (key : Nat) (timeout : Bool) (s : State) : Modeless (chanZcApply key timeout s) := by
  unfold chanZcApply
  split <;> simp

@[simp] theorem modeless_fallbackApply (c : Nat) (timeout : Bool) (s : State) : Modeless (fallbackApply c timeout s) := by
  simp [fallbackApply]

@[simp] theorem modeless_fallbackEngage (c : Nat) (s : State) : Modeless (fallbackEngage c s) := by simp [fallbackEngage]

@[simp] theorem modeless_fallbackRelease (c : Nat) (s : State) : Modeless (fallbackRelease c s) := by simp [fallbackRelease]

@[simp] theorem modeless_fallbackEnd (c : Nat) (s : State) : Modeless (fallbackEnd c s) := by simp [fallbackEnd]

@[simp] theorem modeless_admissionRefused (session : Nat) (p : List Placed) (s : State) :
    Modeless (admissionRefused session p s) := by
  simp [admissionRefused]

@[simp] theorem modeless_placeCosts (p : List Placed) (s : State) : Modeless (placeCosts p s) := by
  refine modeless_always.2 (modeless_append.2 ⟨modeless_flatMap.2 fun l _ => ?_, by simp⟩)
  split <;> simp

@[simp] theorem modeless_placeNow (p : List Placed) (s : State) : Modeless (placeNow p s) := by simp [placeNow]

@[simp] theorem modeless_taskFinish (l t : Nat) (s : State) : Modeless (taskFinish l t s) := by simp [taskFinish]

@[simp] theorem modeless_renderCut (s : State) : Modeless (renderCut s) := by simp [renderCut]

@[simp] theorem modeless_slackWindowEnd (s : State) : Modeless (slackWindowEnd s) := by
  unfold slackWindowEnd
  dsimp only
  split
  · simp
  · simp
    refine ⟨?_, ?_, ?_, fun l _ => ⟨?_, ?_⟩⟩
    all_goals
      repeat' split
      all_goals simp

@[simp] theorem modeless_thrTime (s : State) : Modeless (thrTime s) := by simp [thrTime]

@[simp] theorem modeless_thrSet (new : Nat) (s : State) : Modeless (thrSet new s) := by simp [thrSet]

@[simp] theorem modeless_throttleRise (sensor mv : Nat) (s : State) : Modeless (throttleRise sensor mv s) := by simp [throttleRise]

@[simp] theorem modeless_throttleFall (s : State) : Modeless (throttleFall s) := by simp [throttleFall]

@[simp] theorem modeless_lanternSet (l : Option Nat) (s : State) : Modeless (lanternSet l s) := by
  unfold lanternSet
  split <;> simp

@[simp] theorem modeless_lanternTake (l : Nat) (s : State) : Modeless (lanternTake l s) := by simp [lanternTake]

@[simp] theorem modeless_laneFence (l cause : Nat) (s : State) : Modeless (laneFence l cause s) := by
  unfold laneFence
  split
  · simp
  · split <;> simp

@[simp] theorem modeless_placeFenced (f : Nat) (s : State) : Modeless (placeFenced f s) := by simp [placeFenced]

@[simp] theorem modeless_laneMigrationDone (s : State) : Modeless (laneMigrationDone s) := by
  unfold laneMigrationDone
  split <;> simp

@[simp] theorem modeless_lanternReplace (s : State) : Modeless (lanternReplace s) := by
  unfold lanternReplace
  dsimp only
  split
  · simp
  · split
    · refine modeless_phases ?_
      simp
      intro t
      cases List.find? (fun i => (s.lane i).tasks.isEmpty) s.healthyLanes.reverse <;> simp
    · split
      · simp
      · split <;> simp

@[simp] theorem modeless_laneClear (l : Nat) (s : State) : Modeless (laneClear l s) := by simp [laneClear]

@[simp] theorem modeless_laneHealthy (l : Nat) (s : State) : Modeless (laneHealthy l s) := by simp [laneHealthy]

@[simp] theorem modeless_laneSelfTest (l : Nat) (pass : Bool) (speed : Nat) (s : State) :
    Modeless (laneSelfTest l pass speed s) := by
  unfold laneSelfTest
  dsimp only
  split
  · simp
  · split
    · simp
    · split
      · simp
      · simp

@[simp] theorem modeless_laneStall (l : Nat) (s : State) : Modeless (laneStall l s) := by simp [laneStall]

@[simp] theorem modeless_rotationBegin (new old : Nat) (s : State) : Modeless (rotationBegin new old s) := by simp [rotationBegin]

@[simp] theorem modeless_rotationSwap (lantern l : Nat) (s : State) : Modeless (rotationSwap lantern l s) := by simp [rotationSwap]

@[simp] theorem modeless_rotationDone (status lane : Nat) (s : State) : Modeless (rotationDone status lane s) := by
  refine modeless_phases ?_
  simp
  intro t
  split <;> simp

@[simp] theorem modeless_rotationStep (ok : Bool) (s : State) : Modeless (rotationStep ok s) := by
  unfold rotationStep
  dsimp only
  split
  · simp
  · split
    · simp
    · refine modeless_phases ?_
      simp
      cases s.inService.find? fun i => (s.lane i).newUcode != (s.units.disp.fsm == 1) <;> simp

@[simp] theorem modeless_setSlot (n new cause : Nat) (s : State) : Modeless (setSlot n new cause s) := by simp [setSlot]

@[simp] theorem modeless_dropReq (n : Nat) : Modeless (dropReq n) := by simp [dropReq]

@[simp] theorem modeless_slotFence (n cause : Nat) (s : State) : Modeless (slotFence n cause s) := by simp [slotFence]

@[simp] theorem modeless_slotClear (n cause : Nat) (s : State) : Modeless (slotClear n cause s) := by simp [slotClear]

@[simp] theorem modeless_slotRequests (n : Nat) (s : State) : Modeless (slotRequests n s) := by
  refine modeless_phases ?_
  simp
  cases (s.slot n).reqWait <;> cases (s.slot n).manWait <;> simp

@[simp] theorem modeless_slotCompute (n t : Nat) (prior : Int) (s : State) : Modeless (slotCompute n t prior s) := by
  simp [slotCompute]

@[simp] theorem modeless_slotExec (n t : Nat) (s : State) : Modeless (slotExec n t s) := by simp [slotExec]

@[simp] theorem modeless_engineTick (t capacity : Nat) (bad : List Nat) (s : State) : Modeless (engineTick t capacity bad s) := by
  simp [engineTick]

@[simp] theorem modeless_followingErrorTrip (n : Nat) (s : State) : Modeless (followingErrorTrip n s) := by
  unfold followingErrorTrip
  dsimp only
  split
  · simp
  · refine modeless_phases ?_
    simp
    generalize s.nat (Key.ls.FE_ACTION n) = a
    match a with
    | 0 => simp
    | 1 => simp
    | 2 => cases s.owner n <;> simp
    | _ + 3 => simp

@[simp] theorem modeless_setFl (g new : Nat) (s : State) : Modeless (setFl g new s) := by simp [setFl]

@[simp] theorem modeless_flChange (g new : Nat) (s : State) : Modeless (flChange g new s) := by simp [flChange]

@[simp] theorem modeless_flBegin (g : Nat) (s : State) : Modeless (flBegin g s) := by simp [flBegin]

@[simp] theorem modeless_flEnable (g : Nat) (on : Bool) (s : State) : Modeless (flEnable g on s) := by simp [flEnable]

@[simp] theorem modeless_flClear (g : Nat) (s : State) : Modeless (flClear g s) := by simp [flClear]

@[simp] theorem modeless_flFadeDone (g : Nat) (s : State) : Modeless (flFadeDone g s) := by simp [flFadeDone]

@[simp] theorem modeless_flUnfence (g cause : Nat) (s : State) : Modeless (flUnfence g cause s) := by simp [flUnfence]

@[simp] theorem modeless_flShow (g period : Nat) : Modeless (flShow g period) := by simp [flShow]

@[simp] theorem modeless_flTrackerLock (g period : Nat) (s : State) : Modeless (flTrackerLock g period s) := by simp [flTrackerLock]

@[simp] theorem modeless_flTrackerLoss (g : Nat) (s : State) : Modeless (flTrackerLoss g s) := by simp [flTrackerLoss]

@[simp] theorem modeless_flHoldWindowEnd (g : Nat) (s : State) : Modeless (flHoldWindowEnd g s) := by
  unfold flHoldWindowEnd
  split <;> simp

@[simp] theorem modeless_learnerTick (g t : Nat) (s : State) : Modeless (learnerTick g t s) := by
  unfold learnerTick
  split
  · simp
  · refine modeless_phases ?_
    simp only [List.forall_mem_cons]
    refine ⟨by simp, by simp, by simp, by simp, by simp, fun u => ?_, by simp⟩
    generalize flHigher _ _ = due
    cases due <;> simp

@[simp] theorem modeless_pilotWindowEnd (c k : Nat) (s : State) : Modeless (pilotWindowEnd c k s) := by
  unfold pilotWindowEnd
  split <;> simp

@[simp] theorem modeless_coilPublish (c : Nat) (s : State) : Modeless (coilPublish c s) := by simp [coilPublish]

@[simp] theorem modeless_observersSave (s : State) : Modeless (observersSave s) := by simp [observersSave]

@[simp] theorem modeless_observerStore (s : State) : Modeless (observerStore s) := by simp [observerStore]

@[simp] theorem modeless_observerCool (s : State) : Modeless (observerCool s) := by simp [observerCool]

@[simp] theorem modeless_senseTick (c : Nat) (v i vl il : Int) (s : State) : Modeless (senseTick c v i vl il s) := by
  simp [senseTick]

@[simp] theorem modeless_ceilingTick (c t : Nat) (s : State) : Modeless (ceilingTick c t s) := by simp [ceilingTick]

@[simp] theorem modeless_modulatorTick (c t : Nat) (s : State) : Modeless (modulatorTick c t s) := by simp [modulatorTick]

@[simp] theorem modeless_fanTick (s : State) : Modeless (fanTick s) := by simp [fanTick]

@[simp] theorem modeless_loopTick (x : LoopSense) (s : State) : Modeless (loopTick x s) := by simp [loopTick]

@[simp] theorem modeless_excursionPublish (c : Nat) (r : ModelRun) (s : State) : Modeless (excursionPublish c r s) := by
  simp [excursionPublish]

@[simp] theorem modeless_modelStep (c : Nat) (r : ModelRun) (s : State) : Modeless (modelStep c r s) := by simp [modelStep]

@[simp] theorem modeless_modelEnds (c d : Nat) (s : State) : Modeless (modelEnds c d s) := by
  unfold modelEnds
  split <;> simp

@[simp] theorem modeless_thermalHard (c : Nat) (s : State) : Modeless (thermalHard c s) := by simp [thermalHard]

@[simp] theorem modeless_thermalResumed (c : Nat) (s : State) : Modeless (thermalResumed c s) := by simp [thermalResumed]

@[simp] theorem modeless_driftWindowEnd (c a b : Nat) (s : State) : Modeless (driftWindowEnd c a b s) := by
  unfold driftWindowEnd
  split <;> simp

@[simp] theorem modeless_setGen (g new : Nat) (s : State) : Modeless (setGen g new s) := by simp [setGen]

@[simp] theorem modeless_genLatch (g : Nat) (s : State) : Modeless (genLatch g s) := by simp [genLatch]

@[simp] theorem modeless_genBegin (g : Nat) (s : State) : Modeless (genBegin g s) := by simp [genBegin]

@[simp] theorem modeless_genFall (g len : Nat) (s : State) : Modeless (genFall g len s) := by simp [genFall]

@[simp] theorem modeless_genCut (g : Nat) (s : State) : Modeless (genCut g s) := by
  unfold genCut
  dsimp only
  split <;> simp

@[simp] theorem modeless_gStateEffect (g v : Nat) (s : State) : Modeless (gStateEffect g v s) := by
  unfold gStateEffect
  split <;> simp

@[simp] theorem modeless_generatorStart (g : Nat) (s : State) : Modeless (generatorStart g s) := by simp [generatorStart]

@[simp] theorem modeless_gLevelEffect (g : Nat) (v : Int) (s : State) : Modeless (gLevelEffect g v s) := by simp [gLevelEffect]

@[simp] theorem modeless_genSample (g : Nat) (s : State) : Modeless (genSample g s) := by
  unfold genSample
  dsimp only
  split
  · simp
  · split <;> simp

@[simp] theorem modeless_generatorEnd (g : Nat) (s : State) : Modeless (generatorEnd g s) := by
  unfold generatorEnd
  dsimp only
  split <;> simp

@[simp] theorem modeless_genInstant (g : Nat) (s : State) : Modeless (genInstant g s) := by simp [genInstant]

@[simp] theorem modeless_genStrobe (s : State) : Modeless (genStrobe s) := by simp [genStrobe]

@[simp] theorem modeless_genTick (s : State) : Modeless (genTick s) := by simp [genTick]

@[simp] theorem modeless_cStateEffect (k v : Nat) (s : State) : Modeless (cStateEffect k v s) := by simp [cStateEffect]

@[simp] theorem modeless_captureTrigger (k : Nat) (s : State) : Modeless (captureTrigger k s) := by simp [captureTrigger]

@[simp] theorem modeless_captureDone (k : Nat) (s : State) : Modeless (captureDone k s) := by simp [captureDone]

@[simp] theorem modeless_capRecord (k at' : Nat) (s : State) : Modeless (capRecord k at' s) := by simp [capRecord]

@[simp] theorem modeless_capSample (k at' : Nat) (s : State) : Modeless (capSample k at' s) := by simp [capSample]

@[simp] theorem modeless_capStrobe (s : State) : Modeless (capStrobe s) := by simp [capStrobe]

@[simp] theorem modeless_capTick (t : Nat) (s : State) : Modeless (capTick t s) := by simp [capTick]

@[simp] theorem modeless_handleEnd (h status result : Nat) (s : State) : Modeless (handleEnd h status result s) := by
  unfold handleEnd
  split <;> simp

@[simp] theorem modeless_sweepLatch (g point target ms : Nat) (amp : Rat) (mv : Nat) (s : State) :
    Modeless (sweepLatch g point target ms amp mv s) := by
  simp [sweepLatch]

@[simp] theorem modeless_sweepBegin (h : Nat) (s : State) : Modeless (sweepBegin h s) := by
  unfold sweepBegin
  split
  · simp
  · split <;> simp

@[simp] theorem modeless_analysisTick (s : State) : Modeless (analysisTick s) := by
  refine modeless_flatMap.2 fun p _ => ?_
  dsimp only
  split
  · simp
  · split <;> simp

@[simp] theorem modeless_analysisStrobe (s : State) : Modeless (analysisStrobe s) := by
  refine modeless_flatMap.2 fun p _ => ?_
  dsimp only
  split
  · simp
  · split <;> simp

@[simp] theorem modeless_analysisAccept (h session op chans slot : Nat) (s : State) :
    Modeless (analysisAccept h session op chans slot s) := by
  unfold analysisAccept
  split <;> simp

@[simp] theorem modeless_analysisFinish (h status : Nat) (data : Option (List ChanResult)) (s : State) :
    Modeless (analysisFinish h status data s) := by
  unfold analysisFinish
  split
  · simp
  · split
    · simp
    · exact modeless_phases (by simp)

@[simp] theorem modeless_analysisEnd (h : Nat) (data : List ChanResult) (s : State) : Modeless (analysisEnd h data s) := by
  unfold analysisEnd
  split
  · simp
  · split <;> simp

@[simp] theorem modeless_loadcheckSweepStart (h : Nat) (s : State) : Modeless (loadcheckSweepStart h s) := by
  unfold loadcheckSweepStart
  split <;> simp

@[simp] theorem modeless_loadcheckTimeout (h : Nat) (s : State) : Modeless (loadcheckTimeout h s) := by
  unfold loadcheckTimeout
  split <;> simp

@[simp] theorem modeless_loadcheckLoses (h : Nat) (x : Handle) (s : State) : Modeless (loadcheckLoses h x s) := by
  simp [loadcheckLoses]

@[simp] theorem modeless_measureStrobe (s : State) : Modeless (measureStrobe s) := by
  refine modeless_phases ?_
  simp only [List.forall_mem_cons]
  exact ⟨by simp, by simp, fun t => modeless_forAll (by simp), by simp⟩

@[simp] theorem modeless_measChannelsEffect (old new : Nat) (s : State) : Modeless (measChannelsEffect old new s) := by
  simp [measChannelsEffect]

@[simp] theorem modeless_measureLeave (old new : Mode) (s : State) : Modeless (measureLeave old new s) := by
  refine modeless_phases ?_
  simp only [List.forall_mem_cons]
  exact ⟨by simp, fun t => modeless_forAll (by simp), by simp⟩

@[simp] theorem modeless_resFree (r : Nat) (s : State) : Modeless (resFree r s) := by simp [resFree]

@[simp] theorem Effect.modeless_queueFrame (m : Nat) (f : Frame) : (queueFrame m f).Modeless := trivial

@[simp] theorem modeless_arpSend (m op dest target : Nat) (s : State) : Modeless (arpSend m op dest target s) := by simp [arpSend]

@[simp] theorem modeless_arpAsk (m hop : Nat) (s : State) : Modeless (arpAsk m hop s) := by simp [arpAsk]

@[simp] theorem modeless_sendIp (m : Nat) (f : Frame) (s : State) : Modeless (sendIp m f s) := by simp [sendIp]

@[simp] theorem modeless_ipMessage (m kind dest : Nat) (body : List Byte) (s : State) :
    Modeless (ipMessage m kind dest body s) := by
  simp [ipMessage]

@[simp] theorem modeless_dhcpSend (m type : Nat) (s : State) : Modeless (dhcpSend m type s) := by simp [dhcpSend]

@[simp] theorem modeless_txDrain (m : Nat) (s : State) : Modeless (txDrain m s) := by simp [txDrain]

@[simp] theorem modeless_linkSet (m v : Nat) (s : State) : Modeless (linkSet m v s) := by simp [linkSet]

@[simp] theorem modeless_linkChange (m speed : Nat) (full : Bool) (s : State) : Modeless (linkChange m speed full s) := by
  simp [linkChange]

@[simp] theorem modeless_macEffect (m : Nat) (restart : Bool) (s : State) : Modeless (macEffect m restart s) := by simp [macEffect]

@[simp] theorem modeless_txFifoEnter (m : Nat) (s : State) : Modeless (txFifoEnter m s) := by
  refine modeless_phases ?_
  simp
  intro t
  split <;> simp

@[simp] theorem modeless_monStrobe (k : Nat) (s : State) : Modeless (monStrobe k s) := by simp [monStrobe]

@[simp] theorem modeless_monitorDrop (k : Nat) (s : State) : Modeless (monitorDrop k s) := by simp [monitorDrop]

@[simp] theorem modeless_igmpOlder (m g : Nat) (s : State) : Modeless (igmpOlder m g s) := by simp [igmpOlder]

@[simp] theorem modeless_igmpV3 (m : Nat) (records : List Byte) (s : State) : Modeless (igmpV3 m records s) := by simp [igmpV3]

@[simp] theorem modeless_igmpChanges (m : Nat) (l : List (Nat × Nat)) (s : State) : Modeless (igmpChanges m l s) := by
  simp [igmpChanges]

@[simp] theorem modeless_igmpAnswer (m : Nat) (groups : List Nat) (s : State) : Modeless (igmpAnswer m groups s) := by
  simp [igmpAnswer]

@[simp] theorem modeless_netMembers (m : Nat) (s : State) : Modeless (netMembers m s) := by simp [netMembers]

@[simp] theorem modeless_netShow (s : State) : Modeless (netShow s) := by simp [netShow]

@[simp] theorem modeless_membersUpdate (s : State) : Modeless (membersUpdate s) := by simp [membersUpdate]

@[simp] theorem modeless_igmpVersion (m : Nat) (s : State) : Modeless (igmpVersion m s) := by simp [igmpVersion]

@[simp] theorem modeless_igmpQuery (m version group : Nat) (s : State) : Modeless (igmpQuery m version group s) := by
  simp [igmpQuery]

@[simp] theorem modeless_igmpReportRepeat (m : Nat) (s : State) : Modeless (igmpReportRepeat m s) := by simp [igmpReportRepeat]

@[simp] theorem Effect.modeless_ringReturn (m : Nat) : (ringReturn m).Modeless := trivial

@[simp] theorem modeless_ringStore (m : Nat) (x : RxInfo) (svc : Bool) (b : List Byte) (s : State) :
    Modeless (ringStore m x svc b s) := by
  simp [ringStore]

@[simp] theorem modeless_ptpQueue (m d kind port : Nat) (s : State) : Modeless (ptpQueue m d kind port s) := by simp [ptpQueue]

@[simp] theorem modeless_ptpSeen (m : Nat) (x : RxInfo) (s : State) : Modeless (ptpSeen m x s) := by simp [ptpSeen]

@[simp] theorem modeless_frameRoute (m : Nat) (x : RxInfo) (svc : Bool) (b : List Byte) (s : State) :
    Modeless (frameRoute m x svc b s) := by
  unfold frameRoute
  split
  · simp
  · refine modeless_phases ?_
    simp
    intro t
    split <;> simp

@[simp] theorem modeless_frameFilter (m : Nat) (x : RxInfo) (svc : Bool) (b : List Byte) (s : State) :
    Modeless (frameFilter m x svc b s) := by
  simp [frameFilter]

@[simp] theorem modeless_frameReceive (m : Nat) (b : List Byte) (fcsOk : Bool) (s : State) :
    Modeless (frameReceive m b fcsOk s) := by
  simp [frameReceive]

@[simp] theorem modeless_engineTake (i : Nat) (udp : List Byte) (s : State) : Modeless (engineTake i udp s) := by
  unfold engineTake
  split <;> simp

@[simp] theorem modeless_netClear (m : Nat) (s : State) : Modeless (netClear m s) := by simp [netClear]

@[simp] theorem modeless_setAddr (m addr prefixLen source : Nat) (s : State) : Modeless (setAddr m addr prefixLen source s) := by
  simp [setAddr]

@[simp] theorem modeless_linkLocal (m : Nat) (s : State) : Modeless (linkLocal m s) := by simp [linkLocal]

@[simp] theorem modeless_ipApply (m : Nat) (s : State) : Modeless (ipApply m s) := by simp [ipApply]

@[simp] theorem modeless_dhcpMessage (m type addr prefixLen leaseS : Nat) (s : State) :
    Modeless (dhcpMessage m type addr prefixLen leaseS s) := by
  simp [dhcpMessage]

@[simp] theorem modeless_dhcpFallback (m : Nat) (s : State) : Modeless (dhcpFallback m s) := by simp [dhcpFallback]

@[simp] theorem modeless_dhcpRetry (m : Nat) (s : State) : Modeless (dhcpRetry m s) := by
  unfold dhcpRetry
  split <;> simp

@[simp] theorem modeless_defend (m addr : Nat) (s : State) : Modeless (addressConflict.defend m addr s) := by
  simp [addressConflict.defend]

@[simp] theorem modeless_addressConflict (m addr : Nat) (s : State) : Modeless (addressConflict m addr s) := by
  unfold addressConflict
  split
  · simp
  · refine modeless_phases ?_
    simp
    intro t _
    split <;> simp

@[simp] theorem modeless_arpPacket (m op sip smac tip : Nat) (s : State) : Modeless (arpPacket m op sip smac tip s) := by
  simp [arpPacket]

@[simp] theorem modeless_arpCacheExpiry (m : Nat) (s : State) : Modeless (arpCacheExpiry m s) := by simp [arpCacheExpiry]

@[simp] theorem modeless_icmpEcho (m src : Nat) (body : List Byte) (s : State) : Modeless (icmpEcho m src body s) := by
  simp [icmpEcho]

@[simp] theorem modeless_ptpStrobe (m : Nat) (rx : Bool) (s : State) : Modeless (ptpStrobe m rx s) := by
  unfold ptpStrobe
  dsimp only
  split
  · simp
  · refine modeless_phases ?_
    simp
    cases (s.mac m).passing <;> simp

@[simp] theorem modeless_delayReqSend (d : Nat) (s : State) : Modeless (delayReqSend d s) := by simp [delayReqSend]

@[simp] theorem modeless_canSet (new : Nat) (s : State) : Modeless (canSet new s) := by simp [canSet]

@[simp] theorem Effect.modeless_canDiscard  : (canDiscard).Modeless := trivial

@[simp] theorem modeless_canOperate (restart : Bool) (s : State) : Modeless (canOperate restart s) := by simp [canOperate]

@[simp] theorem modeless_canQueue (id : Nat) (msg : List Byte) (s : State) : Modeless (canQueue id msg s) := by simp [canQueue]

@[simp] theorem modeless_canFrameSend (s : State) : Modeless (canFrameSend s) := by
  unfold canFrameSend
  split
  · simp
  · split <;> simp

@[simp] theorem modeless_reasmDrop  : Modeless (reasmDrop) := by simp [reasmDrop]

@[simp] theorem modeless_reasmAdd (b : List Byte) (n : Nat) (fin : Bool) (s : State) : Modeless (reasmAdd b n fin s) := by
  unfold reasmAdd
  split
  · simp
  · split <;> simp

@[simp] theorem modeless_canFrameReceive (id : Nat) (fd ext : Bool) (data : List Byte) (s : State) :
    Modeless (canFrameReceive id fd ext data s) := by
  unfold canFrameReceive
  dsimp only
  split
  · simp
  · split
    · simp
    · split <;> simp

@[simp] theorem modeless_canReasmTimeout (s : State) : Modeless (canReasmTimeout s) := by simp [canReasmTimeout]

@[simp] theorem modeless_canStateChange (new tec rec : Nat) (s : State) : Modeless (canStateChange new tec rec s) := by
  simp [canStateChange]

@[simp] theorem modeless_modeChannels (s : State) : Modeless (modeChannels s) := by simp [modeChannels]

@[simp] theorem modeless_modeStreams (old new : Mode) (s : State) : Modeless (modeStreams old new s) := by simp [modeStreams]

@[simp] theorem modeless_removalEnd (s : State) : Modeless (removalEnd s) := by simp [removalEnd]

@[simp] theorem modeless_runAwait (reason : Nat) (s : State) : Modeless (runAwait reason s) := by simp [runAwait]

@[simp] theorem modeless_mutePin (high : Bool) (s : State) : Modeless (mutePin high s) := by
  unfold mutePin
  split
  · simp
  · exact modeless_phases (by simp)

@[simp] theorem modeless_hsIdle (s : State) : Modeless (hsIdle s) := by simp [hsIdle]

@[simp] theorem modeless_engageBack (s : State) : Modeless (engageBack s) := by simp [engageBack]

@[simp] theorem modeless_hsRamp (g : Nat) (s : State) : Modeless (hsRamp g s) := by simp [hsRamp]

@[simp] theorem modeless_hsRampStart (g : Nat) (s : State) : Modeless (hsRampStart g s) := by simp [hsRampStart]

@[simp] theorem modeless_groupNotReady (g : Nat) (s : State) : Modeless (groupNotReady g s) := by simp [groupNotReady]

@[simp] theorem modeless_hsPowerGood (g mv : Nat) (s : State) : Modeless (hsPowerGood g mv s) := by simp [hsPowerGood]

@[simp] theorem modeless_powerGoodLost (g : Nat) (s : State) : Modeless (powerGoodLost g s) := by simp [powerGoodLost]

@[simp] theorem modeless_hsFault (g : Nat) (s : State) : Modeless (hsFault g s) := by simp [hsFault]

@[simp] theorem modeless_hsRetry (g : Nat) (s : State) : Modeless (hsRetry g s) := by
  unfold hsRetry
  split <;> simp

@[simp] theorem modeless_hsClear (m : Nat) (s : State) : Modeless (hsClear m s) := by simp [hsClear]

@[simp] theorem modeless_engageHigh (s : State) : Modeless (engageHigh s) := by
  unfold engageHigh
  split
  · simp
  · exact modeless_phases (by simp)

@[simp] theorem modeless_withdrawalGates (s : State) : Modeless (withdrawalGates s) := by
  unfold withdrawalGates
  split
  · exact modeless_phases (by simp)
  · simp

@[simp] theorem modeless_engageLow (s : State) : Modeless (engageLow s) := by simp [engageLow]

@[simp] theorem modeless_logWrite (s : State) : Modeless (logWrite s) := by
  unfold logWrite
  split
  · exact .nil
  · exact .nil
  · simp only [modeless_cons, Modeless.nil, Effect.modeless_unit, Effect.modeless_nat, Effect.modeless_save, Effect.modeless_pins,
      and_self]

@[simp] theorem modeless_logFlush (s : State) : Modeless (logFlush s) := by simp [logFlush]

@[simp] theorem modeless_removalAccept (h : Nat) (s : State) : Modeless (removalAccept h s) := by simp [removalAccept]

@[simp] theorem modeless_lifetimeSave (s : State) : Modeless (lifetimeSave s) := by simp [lifetimeSave]

@[simp] theorem modeless_removalComplete (s : State) : Modeless (removalComplete s) := by
  unfold removalComplete
  split
  · simp
  · split
    · simp
    · exact modeless_phases (by simp)

@[simp] theorem modeless_sessionEnd (n cause : Nat) (s : State) : Modeless (sessionEnd n cause s) := by
  unfold sessionEnd
  split <;> simp

@[simp] theorem modeless_sessionsEnd (cause : Nat) (s : State) : Modeless (sessionsEnd cause s) := by simp [sessionsEnd]

@[simp] theorem modeless_absenceBegin (cause : Nat) (s : State) : Modeless (absenceBegin cause s) := by simp [absenceBegin]

@[simp] theorem modeless_deliverLatched (e : EventRec) : Modeless (deliverLatched e) := by simp [deliverLatched]

@[simp] theorem modeless_absenceGuard (s : State) : Modeless (absenceGuard s) := by
  unfold absenceGuard
  split
  · simp
  · exact modeless_phases (by simp)

@[simp] theorem modeless_rewrite (k : Nat) (s : State) : Modeless (rewrite k s) := by
  unfold rewrite
  repeat' split
  all_goals simp

@[simp] theorem modeless_stateDiverge (k : Nat) (s : State) : Modeless (stateDiverge k s) := by simp [stateDiverge]

@[simp] theorem modeless_divergeWritten (k : Nat) (s : State) : Modeless (divergeWritten k s) := by simp [divergeWritten]

@[simp] theorem modeless_divergeRecheck (k : Nat) (still : Bool) (s : State) : Modeless (divergeRecheck k still s) := by
  unfold divergeRecheck
  split <;> simp

@[simp] theorem modeless_sensorOne (k : Nat) (t : Int) (s : State) : Modeless (sensorOne k t s) := by
  unfold sensorOne
  dsimp only
  refine modeless_cons.2 ⟨trivial, ?_⟩
  split
  · simp
  · split
    · simp
    · split
      · simp
      · split <;> simp

@[simp] theorem modeless_sensorPair (g : Nat) (s : State) : Modeless (sensorPair g s) := by
  unfold sensorPair
  dsimp only
  split
  · split <;> simp
  · split
    · simp
    · split <;> simp

@[simp] theorem modeless_thermalCycle (g : Nat) (s : State) : Modeless (thermalCycle g s) := by
  unfold thermalCycle
  dsimp only
  repeat' split
  all_goals simp only [Modeless.nil, modeless_cons, Effect.modeless_group, Effect.modeless_bump, and_self]

theorem modeless_minute (ns : Nat) (on : Bool) (k : Nat) : Modeless (minute ns on k).2 := by
  rw [minute]
  generalize (if on then ns + 1000000 else ns) = n
  by_cases hn : 60000000000 ≤ n
  · rw [if_pos hn]
    exact modeless_cons.2 ⟨trivial, .nil⟩
  · rw [if_neg hn]
    exact .nil

theorem modeless_of_eq {p q : Phase} (h : p = q) (hq : ∀ s, Modeless (q s)) (s : State) : Modeless (p s) := h ▸ hq s

/-- Whatever function counts a minute: `minute` is generalized before anything is reduced, since the kernel would count its bound down. -/
theorem modeless_lifetimeMs (s : State) : Modeless (lifetimeMs s) := by
  have h := modeless_minute
  refine modeless_of_eq (p := lifetimeMs) (q := ?body) ?unfolds ?_ s
  case unfolds => delta lifetimeMs; exact rfl
  generalize minute = f at h ⊢
  as_aux_lemma =>
    intro s
    simp [h]

@[simp] theorem modeless_tjMean (s : State) : Modeless (tjMean s) := by
  unfold tjMean
  split <;> simp

@[simp] theorem modeless_diePeak (s : State) : Modeless (diePeak s) := by simp [diePeak]

@[simp] theorem modeless_sensorRead (t : List Int) (mv : List Nat) (s : State) : Modeless (sensorRead t mv s) := by
  refine modeless_phases ?_
  simp only [List.forall_mem_cons]
  exact ⟨fun t => modeless_forAll (by simp), by simp, by simp, fun t => modeless_forAll (by simp), fun t => modeless_forAll (by simp),
    by simp, modeless_lifetimeMs, by simp, by simp⟩

@[simp] theorem modeless_calBegin (c : Nat) (s : State) : Modeless (calBegin c s) := by simp [calBegin]

@[simp] theorem modeless_calibrationStart (c : Nat) (s : State) : Modeless (calibrationStart c s) := by simp [calibrationStart]

@[simp] theorem modeless_calPart (c : Nat) (s : State) : Modeless (calPart c s) := by
  unfold calPart
  split
  · exact .nil
  · split
    · exact .nil
    · split
      · simp
      · simp

@[simp] theorem modeless_calEnd (c : Nat) (s : State) : Modeless (calEnd c s) := by simp [calEnd]

@[simp] theorem modeless_calLeave (c : Nat) (s : State) : Modeless (calLeave c s) := by simp [calLeave]

@[simp] theorem modeless_calBack (c : Nat) (s : State) : Modeless (calBack c s) := by simp [calBack]

@[simp] theorem modeless_calTick (c : Nat) (s : State) : Modeless (calTick c s) := by simp [calTick]

@[simp] theorem modeless_calibrationDone (c : Nat) (v : Int × Int × Int × Int) (s : State) : Modeless (calibrationDone c v s) := by
  unfold calibrationDone
  dsimp only
  split
  · exact .nil
  · split
    · refine modeless_phases ?_
      simp only [List.forall_mem_cons]
      refine ⟨by simp, fun t => ?_, by simp, by simp⟩
      cases t.calHandle c <;> simp
    · simp

@[simp] theorem modeless_calZc (c : Nat) (crossing : Bool) (s : State) : Modeless (calZc c crossing s) := by simp [calZc]

@[simp] theorem modeless_fanOne (g pulses : Nat) (s : State) : Modeless (fanOne g pulses s) := by simp [fanOne]

@[simp] theorem modeless_fanWindow (pulses : List Nat) (s : State) : Modeless (fanWindow pulses s) := by simp [fanWindow]

@[simp] theorem modeless_lifetimeStore (s : State) : Modeless (lifetimeStore s) := by simp [lifetimeStore]

@[simp] theorem modeless_ronMeasure (c : Nat) (a b : Int) (s : State) : Modeless (ronMeasure c a b s) := by simp [ronMeasure]

@[simp] theorem modeless_norWrite (bytes : Nat) (s : State) : Modeless (norWrite bytes s) := by simp [norWrite]

@[simp] theorem modeless_setBank (b : Nat) (i : Image) : Modeless (setBank b i) := by simp [setBank]

@[simp] theorem modeless_setUpd (v bank : Nat) (s : State) : Modeless (setUpd v bank s) := by simp [setUpd]

@[simp] theorem modeless_updateLoad (h len : Nat) (s : State) : Modeless (updateLoad h len s) := by simp [updateLoad]

@[simp] theorem modeless_updateEraseDone (s : State) : Modeless (updateEraseDone s) := by simp [updateEraseDone]

@[simp] theorem modeless_byUpdater {p : Phase} {s : State} : Modeless (byUpdater p s) ↔ Modeless (p s) := modeless_causedBy

@[simp] theorem modeless_loadEnd (v status : Nat) (s : State) : Modeless (loadEnd v status s) := by
  unfold loadEnd
  refine modeless_phases ?_
  simp only [List.forall_mem_cons]
  exact ⟨by simp, by simp, by cases s.units.mgmt.loadHandle <;> simp, by simp⟩

@[simp] theorem modeless_updateVerify (x : ImageInfo) (s : State) : Modeless (updateVerify x s) := by simp [updateVerify]

@[simp] theorem modeless_updateLoadTimeout (s : State) : Modeless (updateLoadTimeout s) := by simp [updateLoadTimeout]

@[simp] theorem modeless_updateActivate (h boundary : Nat) (late : Bool) (s : State) :
    Modeless (updateActivate h boundary late s) := by
  simp [updateActivate]

@[simp] theorem modeless_updateBoundary (s : State) : Modeless (updateBoundary s) := by
  unfold updateBoundary
  split
  · exact .nil
  · refine modeless_phases ?_
    simp only [List.forall_mem_cons, modeless_byUpdater, modeless_setUpd]
    exact ⟨fun _ => trivial, by cases s.units.mgmt.actHandle <;> simp, by simp⟩

@[simp] theorem modeless_trimsTake (v : Nat) (s : State) : Modeless (trimsTake v s) := by simp [trimsTake]

@[simp] theorem modeless_imageTake (i : Image) (s : State) : Modeless (imageTake i s) := by simp [imageTake]

@[simp] theorem modeless_updateRestart (s : State) : Modeless (updateRestart s) := by simp [updateRestart]

@[simp] theorem modeless_trimApply (g : Nat) (s : State) : Modeless (trimApply g s) := by
  unfold trimApply
  split <;> simp

@[simp] theorem modeless_probationEnd (s : State) : Modeless (probationEnd s) := by simp [probationEnd]

@[simp] theorem modeless_updateRollback (s : State) : Modeless (updateRollback s) := by simp [updateRollback]

@[simp] theorem modeless_updateReturn (cause : Nat) (s : State) : Modeless (updateReturn cause s) := by
  unfold updateReturn
  dsimp only
  split
  · simp
  · split <;> simp

@[simp] theorem modeless_watchdogExpiry (s : State) : Modeless (watchdogExpiry s) := by simp [watchdogExpiry]

@[simp] theorem modeless_mgmtReturn (s : State) : Modeless (mgmtReturn s) := by
  unfold mgmtReturn
  dsimp only
  split
  · simp
  · exact modeless_phases (by simp)

@[simp] theorem modeless_microcodeStep (ok : Bool) (s : State) : Modeless (microcodeStep ok s) := by
  refine modeless_phases ?_
  simp only [List.forall_mem_cons]
  refine ⟨by simp, fun t => ?_, by simp⟩
  split <;> simp

@[simp] theorem modeless_updateAbort (s : State) : Modeless (updateAbort s) := by
  unfold updateAbort
  split
  · simp
  · split
    · refine modeless_phases ?_
      simp only [List.forall_mem_cons]
      exact ⟨by simp, by simp, by cases s.units.mgmt.actHandle <;> simp, by simp⟩
    · simp

@[simp] theorem modeless_recoveryImage (x : ImageInfo) (s : State) : Modeless (recoveryImage x s) := by simp [recoveryImage]

@[simp] theorem modeless_clearOne (how cls i : Nat) (s : State) : Modeless (clearOne how cls i s) := by
  unfold clearOne
  split <;> simp

@[simp] theorem modeless_fenceClear (how cls i : Nat) (s : State) : Modeless (fenceClear how cls i s) := by simp [fenceClear]

@[simp] theorem modeless_commitRefused (session : Nat) (items : List (Nat × Value)) (st : Nat) (atBoundary : Bool) (s : State) :
    Modeless (commitRefused session items st atBoundary s) := by
  rw [commitRefused, modeless_causedBy]
  dsimp only
  refine modeless_append.2 ⟨?_, by simp⟩
  split
  · cases (s.withItems items).layoutFault <;> simp
  · exact .nil

@[simp] theorem modeless_persist (k : Nat) (s : State) : Modeless (persist k s) := by
  unfold persist
  split <;> simp

@[simp] theorem modeless_armEffect (a : Nat) (w : Writer) (v : Int) (s : State) : Modeless (armEffect a w v s) := by
  simp [armEffect]

@[simp] theorem modeless_areaRelease (n a : Nat) (s : State) : Modeless (areaRelease n a s) := by
  unfold areaRelease
  split <;> simp

@[simp] theorem modeless_areaFree (a : Nat) (s : State) : Modeless (areaFree a s) := by
  unfold areaFree
  split <;> simp

@[simp] theorem modeless_keyRemove (r : Nat) (s : State) : Modeless (keyRemove r s) := by simp [keyRemove]

@[simp] theorem modeless_crossingWait (k : Nat) (v : Value) (s : State) : Modeless (crossingWait k v s) := by simp [crossingWait]

/-- Of all entries that a chapter ties an effect to, only the request for a mode is tied to a change of the mode. -/
theorem modeless_specialEffects_tail (w : Writer) (k : Nat) (v : Value) :
    ∀ e ∈ (specialEffects w k v).tail, ∀ i s, Modeless (e.2.2.2 i s) := by
  simp only [specialEffects, List.tail_cons, List.forall_mem_cons, List.not_mem_nil, false_implies, implies_true,
    and_true]
  and_intros
  all_goals intro i s; simp

theorem modeless_entryDoes {w : Writer} {k : Nat} {v : Value} (hk : k ≠ Key.mode.MODE_REQUEST) (s : State) :
    Modeless (entryDoes w k v s) := by
  unfold entryDoes
  cases he : (specialEffects w k v).find? fun e => decide (e.1 ≤ k / 256 ∧ k / 256 < e.1 + e.2.1) && k % 256 == e.2.2.1 with
  | none => exact modeless_cons.2 ⟨trivial, .nil⟩
  | some e =>
    obtain ⟨hkey, hmem⟩ := And.intro (List.find?_some he) (List.mem_of_find?_eq_some he)
    obtain hhead | htail : e = ((0x1001, 1, 0, fun _ => phases [always [.reg k v],
        always [.mgmt fun m => { m with modeBy := w.session }], modeTake v.int.toNat 1, divergeWritten Key.mode.MODE_CURRENT]) :
          Nat × Nat × Nat × (Nat → Phase)) ∨ e ∈ (specialEffects w k v).tail :=
      List.mem_cons.1 hmem
    · subst hhead
      simp at hkey
      exact absurd (show k = Key.mode.MODE_REQUEST by rw [Key.mode.MODE_REQUEST]; omega) hk
    · exact modeless_specialEffects_tail w k v e htail _ s

theorem modeless_entryTakes {w : Writer} {k : Nat} {v : Value} (hk : k ≠ Key.mode.MODE_REQUEST) (s : State) :
    Modeless (entryTakes w k v s) := by
  rw [entryTakes, modeless_causedBy]
  refine modeless_phases ?_
  simp only [List.forall_mem_cons]
  exact ⟨fun t => modeless_crossingWait _ _ t, fun t => modeless_entryDoes (w := w) (v := reserved k v) hk t,
    fun t => modeless_persist _ t, by simp⟩

/-- A write that is accepted changes no mode: a request for a mode waits for its boundary (R431). -/
@[simp] theorem modeless_writeAccept (w : Writer) (k : Nat) (v : Value) (s : State) : Modeless (writeAccept w k v s) := by
  unfold writeAccept
  split
  · exact .nil
  next r hr =>
    split
    · exact modeless_cons.2 ⟨trivial, .nil⟩
    · split <;> exact modeless_cons.2 ⟨trivial, .nil⟩
    next hblock _ =>
      refine modeless_entryTakes (fun hk => ?_) s
      subst hk
      obtain rfl : r = _ := Option.some.inj (hr.symm.trans (show Dict.row Key.mode.MODE_REQUEST = _ from rfl))
      exact hblock true rfl

@[simp] theorem modeless_writeRefused (w : Writer) (k : Nat) (given : Option Ty) (v : Value) (st : Nat) (s : State) :
    Modeless (writeRefused w k given v st s) := by
  unfold writeRefused
  split
  · simp
  · exact .nil

@[simp] theorem modeless_writeDo (w : Writer) (k : Nat) (given : Option Ty) (v : Value) (s : State) :
    Modeless (writeDo w k given v s) := by
  simp [writeDo]

@[simp] theorem modeless_writeEntry (k : Nat) (given : Option Ty) (w : EntryWrite) (s : State) :
    Modeless (writeEntry k given w s) := by
  simp [writeEntry]

@[simp] theorem modeless_anchorMuted (c : Nat) (timeout : Bool) (s : State) : Modeless (anchorMuted c timeout s) := by
  simp [anchorMuted]

@[simp] theorem modeless_zcApply (w : ZcWait) (timeout : Bool) (s : State) : Modeless (zcApply w timeout s) := by
  unfold zcApply
  split
  · simp
  · split <;> simp

@[simp] theorem modeless_zcCount (w : ZcWait) (timeout : Bool) (s : State) : Modeless (zcCount w timeout s) := by simp [zcCount]

@[simp] theorem modeless_zcEnd (w : ZcWait) (timeout : Bool) (s : State) : Modeless (zcEnd w timeout s) := by simp [zcEnd]

@[simp] theorem modeless_zeroCrossing (key : Nat) (s : State) : Modeless (zeroCrossing key s) := by simp [zeroCrossing]

@[simp] theorem modeless_zcTimeout (key : Nat) (s : State) : Modeless (zcTimeout key s) := by
  unfold zcTimeout
  split <;> simp

@[simp] theorem modeless_actDone (a st : Nat) (s : State) : Modeless (actDone a st s) := by simp [actDone]

@[simp] theorem modeless_sgFix (g n : Nat) (s : State) : Modeless (sgFix g n s) := by simp [sgFix]

@[simp] theorem modeless_startSample (g : Nat) (s : State) : Modeless (startSample g s) := by
  unfold startSample
  split
  · exact .nil
  · dsimp only
    split
    · exact .nil
    · refine modeless_phases ?_
      simp only [List.forall_mem_cons]
      exact ⟨by simp, by simp, fun t => modeless_forAll fun h u => by split <;> simp, by simp⟩

@[simp] theorem modeless_actStart (a : Nat) (s : State) : Modeless (actStart a s) := by simp [actStart]

@[simp] theorem modeless_gpioFix (pin : Nat) (rising : Bool) (first : Nat) (s : State) : Modeless (gpioFix pin rising first s) := by
  simp [gpioFix]

@[simp] theorem modeless_actGpio (a : Nat) (s : State) : Modeless (actGpio a s) := by simp [actGpio]

theorem modeless_actRun {kind a : Nat} {p : Nat → Phase} (h : ∀ a t, Modeless (p a t)) (s : State) :
    Modeless (actRun kind a p s) := by
  unfold actRun
  split
  · exact h a s
  · exact .nil

@[simp] theorem modeless_actionStart (a : Nat) (s : State) : Modeless (actionStart a s) := modeless_actRun modeless_actStart s

@[simp] theorem modeless_actionGpio (a : Nat) (s : State) : Modeless (actionGpio a s) := modeless_actRun modeless_actGpio s

@[simp] theorem modeless_gpioEdge (pin : Nat) (rising : Bool) (s : State) : Modeless (gpioEdge pin rising s) := by simp [gpioEdge]

@[simp] theorem modeless_cdlSend (p : Peer) (base session : Nat) (msg : List Byte) (s : State) :
    Modeless (cdlSend p base session msg s) := by
  simp [cdlSend]

@[simp] theorem modeless_respond (m : CdlMsg) (op session : Nat) (key : Option (List Byte)) (status : Nat) (body : List Byte)
    (s : State) : Modeless (respond m op session key status body s) := by
  simp [respond]

@[simp] theorem modeless_hello (m : CdlMsg) (s : State) : Modeless (hello m s) := by
  unfold hello
  dsimp only
  split
  · simp
  · split
    · simp
    · split
      · simp
      · split
        · simp
        · refine modeless_phases ?_
          simp only [List.forall_mem_cons]
          exact ⟨by simp, by simp, by simp⟩

@[simp] theorem modeless_authFailed (n : Nat) (p : Peer) (s : State) : Modeless (authFailed n p s) := by simp [authFailed]

@[simp] theorem modeless_authPending (m : CdlMsg) (x : Session) (good : Bool) (s : State) : Modeless (authPending m x good s) := by
  simp [authPending]

@[simp] theorem modeless_cancelRun (h : Nat) (x : Handle) (s : State) : Modeless (cancelRun h x s) := by
  unfold cancelRun
  split
  · exact modeless_cons.2 ⟨trivial, .nil⟩
  · split <;> simp

@[simp] theorem modeless_malformed (transport : Nat) (b : List Byte) (s : State) : Modeless (malformed transport b s) := by
  simp [malformed]

@[simp] theorem modeless_eventSend (n : Nat) (s : State) : Modeless (eventSend n s) := by
  unfold eventSend
  split
  · exact .nil
  · dsimp only
    split
    · exact .nil
    · split
      · exact .nil
      · simp

@[simp] theorem modeless_sessionTimeout (n : Nat) (s : State) : Modeless (sessionTimeout n s) := by
  unfold sessionTimeout
  split <;> simp

@[simp] theorem modeless_pendingExpiry (n : Nat) (s : State) : Modeless (pendingExpiry n s) := by
  unfold pendingExpiry
  split <;> simp

@[simp] theorem modeless_lockoutExpiry (s : State) : Modeless (lockoutExpiry s) := by simp [lockoutExpiry]

@[simp] theorem modeless_transferTimeout (n : Nat) (s : State) : Modeless (transferTimeout n s) := by
  unfold transferTimeout
  split <;> simp

@[simp] theorem modeless_handleExpiry (h : Nat) (s : State) : Modeless (handleExpiry h s) := by
  unfold handleExpiry
  split <;> simp

@[simp] theorem modeless_anyWrite (index sub ty : Nat) (w : EntryWrite) (s : State) : Modeless (anyWrite index sub ty w s) := by
  unfold anyWrite
  split <;> simp

@[simp] theorem modeless_sampleStrobe (x : StrobeSense) (s : State) : Modeless (sampleStrobe x s) := by
  refine modeless_phases ?_
  simp

@[simp] theorem modeless_peakSeen (c : Nat) (s : State) : Modeless (peakSeen c s) := by simp [peakSeen]

@[simp] theorem modeless_loopInstant (x : LoopSense) (s : State) : Modeless (loopInstant x s) := by
  refine modeless_phases ?_
  simp

@[simp] theorem modeless_taskEnds (l t : Nat) (s : State) : Modeless (taskEnds l t s) := by
  refine modeless_phases ?_
  simp only [List.forall_mem_cons]
  exact ⟨by simp, fun u => by cases s.lateRun l t <;> simp, by simp⟩

@[simp] theorem modeless_anchorStep {p : Phase} (h : ∀ t, Modeless (p t)) (s : State) : Modeless (anchorStep p s) := by
  refine modeless_phases ?_
  simp [h]

@[simp] theorem modeless_stopCaused (c : Nat) (fast : Bool) (s : State) : Modeless (stopCaused c fast s) := by simp [stopCaused]

@[simp] theorem modeless_dawnBegin (unit : Nat) (s : State) : Modeless (dawnBegin unit s) := by simp [dawnBegin]

@[simp] theorem modeless_resetRise (unit : Nat) (bootsel xref : Bool) (s : State) : Modeless (resetRise unit bootsel xref s) := by
  simp [resetRise]

@[simp] theorem modeless_xrefArrival (s : State) : Modeless (xrefArrival s) := by simp [xrefArrival]

end Sys2Proof.Machine
end

section
/-!
Requests of sessions, and the one theorem over all commands: only the mode machine changes the mode (R431).
-/

namespace Sys2Proof.Machine

/-! ### Requests -/

section Answers
variable {s : State} {n k : Nat}

@[simp] theorem modeless_refuse (st : Nat) : Modeless (refuse st).does := .nil

@[simp] theorem modeless_blockConflict (got : Nat) : Modeless (blockConflict got).does := .nil

@[simp] theorem modeless_blockOn {x : Transfer} {got : Nat} {es : List Effect} : Modeless (blockOn n x got es).does ↔ Modeless es := by
  simp [blockOn]

@[simp] theorem modeless_blockDone (w : Writer) (total : Nat) (v : List Byte) : Modeless (s.blockDone w k total v).does := by
  unfold State.blockDone
  dsimp only
  split <;> simp

@[simp] theorem modeless_imageSegment (offset total len : Nat) : Modeless (s.imageSegment n offset total len).does := by
  unfold State.imageSegment
  dsimp only
  repeat' split
  all_goals simp

@[simp] theorem modeless_keySegment (m : CdlMsg) (offset total : Nat) (data : List Byte) :
    Modeless (s.keySegment n k m offset total data).does := by
  unfold State.keySegment
  dsimp only
  split <;> simp

@[simp] theorem modeless_commitAnswer (t : Nat) (strict : Bool) : Modeless (s.commitAnswer n t strict).does := by
  unfold State.commitAnswer
  dsimp only
  repeat' split
  all_goals simp

@[simp] theorem modeless_rangesAnswer (b : List Byte) (f : List (Nat × Nat) → List (Nat × Nat) → List (Nat × Nat))
    (body : Session → List Byte) : Modeless (s.rangesAnswer n b f body).does := by
  unfold State.rangesAnswer
  split
  · exact .nil
  · dsimp only
    split <;> simp

end Answers

/-- Whatever an opcode carries out leaves the mode. -/
def Opcode.Modeless (o : Opcode) : Prop := ∀ s n m, Machine.Modeless (o.run s n m).does

/-- Items one after the other leave the mode, each of which does. -/
theorem modeless_eachItem {ι : Type} {one : ι → State → Nat × Nat × List Effect} (h : ∀ i s, Modeless (one i s).2.2)
    (l : List ι) (s : State) :
    Modeless (eachItem one l s).2 := by
  induction l generalizing s with
  | nil => exact .nil
  | cons i l ih => exact modeless_append.2 ⟨h i s, ih _⟩

theorem modeless_stageOne (w : Writer) (i : Nat × Ty × Value) (s : State) : Modeless (stageOne w i s).2.2 := by
  unfold stageOne
  dsimp only
  repeat' split
  all_goals simp

namespace Opcode

theorem modeless_exec {op : Nat} {form : List Byte → Bool} {role : Nat → List Byte → Nat}
    {refused : State → List Byte → Option Nat} {begin : Nat → Nat → List Byte → Phase} (h : ∀ i n b s, Machine.Modeless (begin i n b s)) :
    (execOpcode op form role refused begin).Modeless := by
  intro s n m
  simp only [execOpcode]
  split
  · exact .nil
  · split
    · exact .nil
    · split
      · exact .nil
      · simp [h]

@[simp] theorem modeless_opRead : opRead.Modeless := by
  intro s n m
  simp only [opRead]
  split <;> exact .nil

@[simp] theorem modeless_opReadm : opReadm.Modeless := fun _ _ _ => .nil

@[simp] theorem modeless_opBlockRead : opBlockRead.Modeless := by
  intro s n m
  simp only [opBlockRead]
  repeat' split
  all_goals exact .nil

@[simp] theorem modeless_opWrite : opWrite.Modeless := by
  intro s n m
  simp only [opWrite]
  split <;> simp

@[simp] theorem modeless_opWritem : opWritem.Modeless := fun _ _ _ =>
  modeless_eachItem (fun _ _ => modeless_writeDo _ _ _ _ _) _ _

@[simp] theorem modeless_opBlockWrite : opBlockWrite.Modeless := by
  intro s n m
  simp only [opBlockWrite]
  repeat' split
  all_goals simp

@[simp] theorem modeless_opStage : opStage.Modeless := fun _ _ _ => modeless_eachItem (modeless_stageOne _) _ _

@[simp] theorem modeless_opCommit : opCommit.Modeless := fun _ _ _ => modeless_commitAnswer _ _

@[simp] theorem modeless_opAbort : opAbort.Modeless := by
  intro s n m
  unfold opAbort
  dsimp only
  split
  · exact .nil
  · split <;> split <;> simp

@[simp] theorem modeless_opClaim : opClaim.Modeless := by
  intro s n m
  simp only [opClaim]
  repeat' split
  all_goals simp

@[simp] theorem modeless_opRelease : opRelease.Modeless := fun _ _ _ => by simp [opRelease]

@[simp] theorem modeless_opSubscribe : opSubscribe.Modeless := fun _ _ _ => modeless_rangesAnswer _ _ _

@[simp] theorem modeless_opUnsubscribe : opUnsubscribe.Modeless := fun _ _ _ => modeless_rangesAnswer _ _ _

@[simp] theorem modeless_analysisOpcode (op : Nat) (role : Nat → List Byte → Nat) : (analysisOpcode op role).Modeless :=
  modeless_exec fun _ _ _ _ => modeless_analysisAccept _ _ _ _ _ _

@[simp] theorem modeless_opRemoval : opRemoval.Modeless := modeless_exec fun _ _ _ _ => modeless_removalAccept _ _

@[simp] theorem modeless_opRestore : opRestore.Modeless := modeless_exec fun _ _ _ _ => by simp

@[simp] theorem modeless_opCalibrate : opCalibrate.Modeless := modeless_exec fun _ _ _ _ => by simp

@[simp] theorem modeless_opLoad : opLoad.Modeless := modeless_exec fun _ _ _ _ => modeless_updateLoad _ _ _

@[simp] theorem modeless_opActivate : opActivate.Modeless := modeless_exec fun _ _ _ _ => by
  split <;> simp

@[simp] theorem modeless_opActivateLate : opActivateLate.Modeless := by
  intro s n m
  simp only [opActivateLate]
  split <;> exact modeless_opActivate s n m

@[simp] theorem modeless_opAbsent : opAbsent.Modeless := fun _ _ _ => .nil

@[simp] theorem modeless_opPoll : opPoll.Modeless := by
  intro s n m
  simp only [opPoll]
  repeat' split
  all_goals exact .nil

@[simp] theorem modeless_opCancel : opCancel.Modeless := by
  intro s n m
  simp only [opCancel]
  repeat' split
  all_goals simp

@[simp] theorem modeless_opAuth : opAuth.Modeless := fun _ _ _ => .nil

theorem modeless_answer {o : Option Opcode} (h : ∀ q ∈ o, q.Modeless) (s : State) (x : Session) (m : CdlMsg) :
    Machine.Modeless (answer o s x m).does := by
  unfold answer
  cases o with
  | none => exact .nil
  | some q =>
    dsimp only
    split
    · exact .nil
    · split
      · exact .nil
      · split
        · exact .nil
        · exact h q rfl _ _ _

end Opcode

section Gate
variable {o : Option Opcode}

theorem modeless_gateSequence (h : ∀ q ∈ o, q.Modeless) (op : Nat) (m : CdlMsg) (x : Session) (s : State) :
    Modeless (gateSequence op o m x s) := by
  have hanswer (t : State) : Modeless (Opcode.answer o t x m).does := Opcode.modeless_answer h t x m
  unfold gateSequence
  split
  · refine modeless_phases ?_
    simp [hanswer]
  · split <;> simp

theorem modeless_gateSession (h : ∀ q ∈ o, q.Modeless) (op : Nat) (m : CdlMsg) (s : State) : Modeless (gateSession op o m s) := by
  unfold gateSession
  split
  · simp
  · dsimp only
    split
    · simp
    · split
      · simp
      · exact modeless_gateSequence h _ _ _ _

@[simp] theorem modeless_receive {p : Phase} (h : ∀ t, Modeless (p t)) (m : CdlMsg) (s : State) : Modeless (receive m p s) := by
  unfold receive
  split
  · exact .nil
  · refine modeless_phases ?_
    simp only [List.forall_mem_cons]
    exact ⟨by simp [canTake], by simp [h], by simp⟩

theorem modeless_request (h : ∀ q ∈ o, q.Modeless) (op : Nat) (m : CdlMsg) (s : State) : Modeless (request op o m s) :=
  modeless_receive (modeless_gateSession h op m) m s

@[simp] theorem modeless_requestOf {q : Opcode} (h : q.Modeless) (op : Nat) (m : CdlMsg) (s : State) :
    Modeless (request op (some q) m s) :=
  modeless_request (fun _ hq => Option.some.inj hq ▸ h) op m s

@[simp] theorem modeless_execRequest {q : Opcode} (h : q.Modeless) (op : Nat) (m : CdlMsg) (s : State) :
    Modeless (execRequest op q m s) := by
  unfold execRequest
  split
  · exact modeless_requestOf h _ _ _
  · exact .nil

@[simp] theorem modeless_keyRequest (m : CdlMsg) (s : State) : Modeless (keyRequest m s) := by
  unfold keyRequest
  split
  · exact modeless_requestOf Opcode.modeless_opBlockWrite _ _ _
  · exact .nil

@[simp] theorem modeless_unknownRequest (op : Nat) (m : CdlMsg) (s : State) : Modeless (unknownRequest op m s) := by
  unfold unknownRequest
  split
  · exact modeless_requestOf Opcode.modeless_opAbsent _ _ _
  · split
    · exact .nil
    · exact modeless_request (o := none) (by simp) _ _ _

end Gate

/-! ### The obligation -/

/-- A command that runs a phase without a change of the mode leaves the mode. -/
theorem goes_mode {p : Phase} {s t : State} (h : s.goes p = .next t) (hp : ∀ s, Modeless (p s)) : t.mode = s.mode :=
  Host.Outcome.next.inj h ▸ (hp s).run_mode s

/-- Settles O7: every phase but those of the commands named is a list of effects without a change of the mode; a request for a mode
that is accepted only waits (R431), so that the requests of sessions are among them. -/
theorem onlyTheModeMachineChangesTheMode : Obligations.OnlyTheModeMachineChangesTheMode := by
  intro c s t h hmoved
  cases c with
  | powerOnReset | resetNLow | dawnDone | setupComplete | runEntryOnLock | holdoverEntry | holdoverReturn | holdoverExpired
  | modeChangeApply | startModeApply | blockBoundary | deferredWriteApply | commitApply | actionWrite | actionCommit | actionMode
  | handover | restoreDefaultsApply => trivial
  | referenceTick =>
    exact hmoved (Host.Outcome.next.inj h ▸ (modeless_tickRest _).run_mode _)
  | vcoreStallResume mv =>
    rw [exec_vcoreStallResume] at h
    split at h
    · cases h
    · exact hmoved (Host.Outcome.next.inj h ▸ rfl)
  | _ =>
    refine hmoved (goes_mode h fun s => ?_)
    simp

end Sys2Proof.Machine
end

section
/-!
The beginning of the dawn sequence by RESET_N, by XREF and by the recovery loader (R437, R486).
-/

namespace Sys2Proof.Machine

theorem width_unitId : Dict.width Key.mode.UNIT_ID = some (8, false) := by decide +kernel
theorem width_canNode : Dict.width Key.can.CAN_NODE = some (8, false) := by decide +kernel

/-- The pins as the dawn sequence begins (Table 14-2, R437). -/
def Pins.dawning (ns : Nat) (p : Pins) : Pins :=
  { p with dawnAt := some ns, dawnWait := !p.xref, faultLow := true, resetDrive := none, resetUp := some ns }

/-- The fans at full duty (Table 14-2). -/
def fansFull : List Effect := (List.range 4).map fun g => .num (Key.fan.FAN_DUTY g) 2147483647

theorem dawnBegin_eq (unit : Nat) (s : State) : dawnBegin unit s =
    .nat Key.mode.UNIT_ID unit :: .nat Key.can.CAN_NODE unit :: .pins (Pins.dawning s.mtbNs) :: fansFull := rfl

theorem fansFull_confined {α : Type} (π : Units → α) : Confined ((List.range 4).map Key.fan.FAN_DUTY) π fansFull := by
  have hmem : ∀ g < 4, Key.fan.FAN_DUTY g ∈ (List.range 4).map Key.fan.FAN_DUTY := by decide
  simpa [fansFull] using hmem

/-- The number of the unit is latched in both its entries, and the pins show that the sequence runs. -/
theorem dawnBegin_latches {unit : Nat} (hunit : unit < 64) (s : State) :
    let t := s.does (dawnBegin unit)
    t.nat Key.mode.UNIT_ID = unit ∧ t.nat Key.can.CAN_NODE = unit ∧ t.units.pins = s.units.pins.dawning s.mtbNs := by
  have hpins : Confined ((List.range 4).map Key.fan.FAN_DUTY) (fun _ => ()) (.pins (Pins.dawning s.mtbNs) :: fansFull) :=
    confined_cons.2 ⟨fun _ => rfl, fansFull_confined _⟩
  have hnode : Confined (Key.can.CAN_NODE :: (List.range 4).map Key.fan.FAN_DUTY) (fun _ => ())
      (.nat Key.can.CAN_NODE unit :: .pins (Pins.dawning s.mtbNs) :: fansFull) :=
    confined_cons.2 ⟨List.mem_cons_self .., hpins.mono (List.subset_cons_self ..)⟩
  have hunits : (s.does (dawnBegin unit)).units.pins = s.units.pins.dawning s.mtbNs := by
    rw [State.does, dawnBegin_eq, State.run_cons, State.run_cons, State.run_cons,
      (fansFull_confined (fun u => u.pins)).units fun _ _ _ _ _ _ => rfl]
    simp [Effect.pins, Effect.nat]
  refine ⟨?_, ?_, hunits⟩
  all_goals rw [State.does, dawnBegin_eq, State.run_cons]
  · exact hnode.nat_stands width_unitId (by decide) s (by omega)
  · rw [State.run_cons]
    exact hpins.nat_stands width_canNode (by decide) _ (by omega)

/-- The rise of RESET_N takes the levels of the straps, and the dawn sequence begins (R437). -/
theorem does_resetRise {s : State} (hboot : s.mode = .boot) (hlow : s.units.pins.resetN = false) (unit : Nat) (b x : Bool) :
    s.does (resetRise unit b x) =
      (s.apply (.pins fun p => { p with resetN := true, bootsel := b, xref := x })).does (dawnBegin unit) := by
  have hphase : s.does (resetRise unit b x) = s.run (resetRise unit b x s) := rfl
  rw [hphase, resetRise, if_neg (by simp [hboot, hlow])]
  exact State.does_phases_cons s _ _

/-- A bank takes a content, and its version shows; nothing else changes (R481). -/
theorem setBank_leaves (b : Nat) (i : Image) (s : State) :
    let t := s.run (setBank b i)
    t.bankImage b = i ∧ t.units.pins = s.units.pins ∧ s.Frame [if b = 0 then Key.upd.BANK_A_VER else Key.upd.BANK_B_VER] t := by
  have hall : Confined [if b = 0 then Key.upd.BANK_A_VER else Key.upd.BANK_B_VER] (fun u => u.pins) (setBank b i) := by
    simp [setBank]
  refine ⟨?_, hall.units (fun _ _ _ _ _ _ => rfl) s, hall.frame s⟩
  by_cases hb : b = 0 <;> simp [setBank, State.bankImage, Effect.nat, hb]

/-- Settles O9: the straps and the pins are the first effects of each beginning, and what follows them writes other entries. -/
theorem dawnSequenceBegins : Obligations.DawnSequenceBegins := by
  refine ⟨fun s u b x hboot hlow => ⟨_, rfl, ?_⟩, fun s hx hw => ⟨_, rfl, ?_⟩, fun s x hboot hrec hok hsec => ⟨_, rfl, ?_⟩⟩
  · rw [does_resetRise hboot hlow]
    obtain ⟨hid, hnode, hpins⟩ := dawnBegin_latches u.isLt (s.apply (.pins fun p => { p with resetN := true, bootsel := b, xref := x }))
    obtain ⟨-, hfans⟩ := dawnBegin_leaves u (s.apply (.pins fun p => { p with resetN := true, bootsel := b, xref := x }))
    have hkeep := (dawnBegin_within (π := fun _ => ()) (fun _ _ => rfl) u).frame
      (s.apply (.pins fun p => { p with resetN := true, bootsel := b, xref := x }))
    refine ⟨hid, hnode, hfans, ?_, ?_, ?_, ?_, ?_, hkeep⟩
    all_goals rw [hpins]; rfl
  · have hphase : s.does xrefArrival = s.apply (.pins fun p => { p with
        xref := true, dawnWait := false, dawnAt := if p.dawnWait then some s.mtbNs else p.dawnAt }) := by
      rw [State.does, xrefArrival, if_neg (by simp [hx])]
      rfl
    rw [hphase]
    refine ⟨rfl, rfl, ?_, fun _ _ => rfl, rfl, rfl⟩
    exact if_pos hw
  · have hphase : s.does (recoveryImage x) = (s.run (setBank 0
        { version := x.version, security := x.security, lane := x.lane, loop := x.loop, trim := x.trim })).apply
          (.pins fun p => { p with recovery := false, fromA := true, dawnAt := some s.mtbNs, dawnWait := !p.xref }) := by
      rw [State.does, recoveryImage, if_neg (by simp [hboot, hrec]), if_pos ⟨hok, hsec⟩, State.run_append]
      rfl
    obtain ⟨himage, -, hkeep⟩ := setBank_leaves 0
      { version := x.version, security := x.security, lane := x.lane, loop := x.loop, trim := x.trim } s
    have hbank : (s.does (recoveryImage x)).bankImage 0 =
        { version := x.version, security := x.security, lane := x.lane, loop := x.loop, trim := x.trim } := by
      rw [hphase]
      exact himage
    refine ⟨congrArg Image.version hbank, congrArg Image.security hbank, ?_⟩
    rw [hphase]
    exact ⟨rfl, rfl, rfl, hkeep.mode.trans hboot, hkeep.store⟩

end Sys2Proof.Machine
end

section
/-!
Effects on streams, channels, generators, analyses and memberships, as a change of mode and a stop bring them about: they write no
entry of the device's own areas but the count of events, and leave what the management processor, the pins, the hot-swap controller
and the waiting writes hold.
-/

namespace Sys2Proof.Machine

/-- An entry of the streams, the channels, the measurements or the network, or the count of events. -/
def UnitKey (k : Nat) : Prop := 0x130000 ≤ k ∨ k = Key.evt.EVT_RAISED

/-- What the management processor holds but for latched events, and the pins, the groups, the waiting writes and the store's banks. -/
def Units.control (u : Units) : Mgmt × Pins × Tbl Group × List Waiting × (Image × Image) :=
  ({ u.mgmt with latched := [], overflow := 0 }, u.pins, u.groups, u.waiting, u.banks)

theorem eventBlind_control : EventBlind Units.control := fun _ _ _ _ _ _ => rfl

/-- The effect writes an entry of a unit only, and leaves the mode, the store and the control of the device. -/
def Effect.Calm (e : Effect) : Prop := e.Only UnitKey Units.control

/-- Every effect of the list is calm. -/
def Calm (es : List Effect) : Prop := ∀ e ∈ es, e.Calm

@[simp] theorem unitKey_raised : UnitKey Key.evt.EVT_RAISED := .inr rfl

section Lists
variable {es fs : List Effect} {e : Effect}

@[simp] theorem Calm.nil : Calm [] := fun _ h => absurd h List.not_mem_nil
@[simp] theorem calm_cons : Calm (e :: es) ↔ e.Calm ∧ Calm es := List.forall_mem_cons
@[simp] theorem calm_append : Calm (es ++ fs) ↔ Calm es ∧ Calm fs := List.forall_mem_append
@[simp] theorem calm_map {ι : Type} {l : List ι} {f : ι → Effect} :
    Calm (l.map f) ↔ ∀ i ∈ l, (f i).Calm := List.forall_mem_map
@[simp] theorem calm_filterMap {ι : Type} {l : List ι} {f : ι → Option Effect} :
    Calm (l.filterMap f) ↔ ∀ i ∈ l, ∀ e, f i = some e → e.Calm := by
  simp only [Calm, List.mem_filterMap]
  exact ⟨fun h i hi e he => h e ⟨i, hi, he⟩, fun h e ⟨i, hi, he⟩ => h i hi e he⟩
@[simp] theorem calm_ite {c : Prop} [Decidable c] :
    Calm (if c then es else fs) ↔ (c → Calm es) ∧ (¬ c → Calm fs) := by
  split <;> simp_all

/-- What calm effects leave. -/
theorem Calm.num (h : Calm es) (s : State) {k : Nat} (hk : ¬ UnitKey k) : (s.run es).num k = s.num k :=
  Phase.Only.num (p := always es) (Phase.only_always.2 h) s hk

theorem Calm.mode (h : Calm es) (s : State) : (s.run es).mode = s.mode :=
  Phase.Only.mode (p := always es) (Phase.only_always.2 h) s

theorem Calm.store (h : Calm es) (s : State) : (s.run es).store = s.store :=
  Phase.Only.store (p := always es) (Phase.only_always.2 h) s

theorem Calm.control (h : Calm es) (s : State) : (s.run es).units.control = s.units.control :=
  Phase.Only.units (p := always es) (Phase.only_always.2 h) eventBlind_control s

end Lists

section Named
variable {k i n : Nat}

@[simp] theorem Effect.calm_reg {v : Value} : (Effect.reg k v).Calm ↔ UnitKey k := .rfl
@[simp] theorem Effect.calm_bump {n : Int} : (Effect.bump k n).Calm ↔ UnitKey k := .rfl
@[simp] theorem Effect.calm_num {n : Int} : (Effect.num k n).Calm ↔ UnitKey k := .rfl
@[simp] theorem Effect.calm_nat : (Effect.nat k n).Calm ↔ UnitKey k := .rfl
@[simp] theorem Effect.calm_raise {a : List Byte} {sc : Option Nat} : (Effect.raise k a n sc).Calm :=
  unitKey_raised
@[simp] theorem Effect.calm_event {a : List Byte} : (Effect.event k a).Calm := unitKey_raised
@[simp] theorem Effect.calm_stream {f : Stream → Stream} : (Effect.stream i f).Calm := fun _ => rfl
@[simp] theorem Effect.calm_obj {f : Obj → Obj} : (Effect.obj i f).Calm := fun _ => rfl
@[simp] theorem Effect.calm_chan {f : Chan → Chan} : (Effect.chan i f).Calm := fun _ => rfl
@[simp] theorem Effect.calm_slot {f : Slot → Slot} : (Effect.slot i f).Calm := fun _ => rfl
@[simp] theorem Effect.calm_handle {f : Option Handle → Option Handle} : (Effect.handle i f).Calm := fun _ => rfl
@[simp] theorem Effect.calm_gen {f : Gen → Gen} : (Effect.gen i f).Calm := fun _ => rfl
@[simp] theorem Effect.calm_mac {f : Mac → Mac} : (Effect.mac i f).Calm := fun _ => rfl
@[simp] theorem Effect.calm_zcDrop : (zcDrop k).Calm := fun _ => rfl
@[simp] theorem Effect.calm_queueFrame {f : Frame} : (queueFrame i f).Calm := fun _ => rfl

end Named

section Phases
variable {p q : Phase} {s : State}

@[simp] theorem calm_always {es : List Effect} : Calm (always es s) ↔ Calm es := .rfl

@[simp] theorem calm_phases {ps : List Phase} (h : ∀ p ∈ ps, ∀ t, Calm (p t)) : Calm (phases ps s) :=
  Phase.only_phases (fun p hp t => h p hp t) s

@[simp] theorem calm_forAll {ι : Type} {l : List ι} {f : ι → Phase} (h : ∀ i t, Calm (f i t)) : Calm (forAll l f s) :=
  Phase.only_forAll (fun i _ t => h i t) s

@[simp] theorem calm_ite_apply {c : Prop} [Decidable c] :
    Calm ((if c then p else q) s) ↔ (c → Calm (p s)) ∧ (¬ c → Calm (q s)) := by
  split <;> simp_all

end Phases

/-! ### Keys -/

section Keys
variable (i : Nat)

@[simp] theorem unitKey_outState : UnitKey (Key.pw.OUT_STATE i) := .inl (by simp only [Key.pw.OUT_STATE]; omega)
@[simp] theorem unitKey_seqPhase : UnitKey (Key.pw.SEQ_PHASE i) := .inl (by simp only [Key.pw.SEQ_PHASE]; omega)
@[simp] theorem unitKey_probeNext : UnitKey (Key.prot.PROBE_NEXT i) := .inl (by simp only [Key.prot.PROBE_NEXT]; omega)
@[simp] theorem unitKey_netState : UnitKey (Key.cin.NET_STATE i) := .inl (by simp only [Key.cin.NET_STATE]; omega)
@[simp] theorem unitKey_fbState : UnitKey (Key.cin.FB_STATE i) := .inl (by simp only [Key.cin.FB_STATE]; omega)
@[simp] theorem unitKey_streamState : UnitKey (Key.st.STREAM_STATE i) := .inl (by simp only [Key.st.STREAM_STATE]; omega)
@[simp] theorem unitKey_gState : UnitKey (Key.gen.G_STATE i) := .inl (by simp only [Key.gen.G_STATE]; omega)
@[simp] theorem unitKey_resState : UnitKey (Key.res.RES_STATE i) := .inl (by simp only [Key.res.RES_STATE]; omega)
@[simp] theorem unitKey_resEnd : UnitKey (Key.res.RES_END i) := .inl (by simp only [Key.res.RES_END]; omega)
@[simp] theorem unitKey_resStatus : UnitKey (Key.res.RES_STATUS i) := .inl (by simp only [Key.res.RES_STATUS]; omega)
@[simp] theorem unitKey_resPoints : UnitKey (Key.res.RES_POINTS i) := .inl (by simp only [Key.res.RES_POINTS]; omega)
@[simp] theorem unitKey_resData : UnitKey (Key.res.RES_DATA i) := .inl (by simp only [Key.res.RES_DATA]; omega)
@[simp] theorem unitKey_analysesActive : UnitKey Key.meas.ANALYSES_ACTIVE := .inl (by decide)
@[simp] theorem unitKey_exactUsed : UnitKey Key.mc.EXACT_USED := .inl (by decide)
@[simp] theorem unitKey_hashBinsUsed : UnitKey Key.mc.HASH_BINS_USED := .inl (by decide)
@[simp] theorem unitKey_mcGroups : UnitKey Key.mc.GROUPS := .inl (by decide)

end Keys

/-! ### Stops and starts of channels -/

section Channels
variable (c : Nat) (s : State)

@[simp] theorem calm_zcStartAt (key : Nat) (v : Value) (start : Nat) : Calm (zcStartAt key v start s) :=
  calm_cons.2 ⟨fun _ => rfl, .nil⟩
@[simp] theorem calm_zcStart (key : Nat) (v : Value) : Calm (zcStart key v s) := calm_zcStartAt _ _ _ _
@[simp] theorem calm_setOut (v : Nat) : Calm (setOut c v s) := by simp [setOut]
@[simp] theorem calm_startBegin : Calm (startBegin c s) := by simp [startBegin]
@[simp] theorem calm_startDue : Calm (startDue c s) := by simp [startDue]
@[simp] theorem calm_loopDown : Calm (loopDown c s) := by simp [loopDown]
@[simp] theorem calm_chainDown (crossing : Bool) : Calm (chainDown c crossing s) := by simp [chainDown]
@[simp] theorem calm_stopBegin (fast : Bool) : Calm (stopBegin c fast s) := by
  unfold stopBegin
  dsimp only
  repeat' split
  all_goals simp
@[simp] theorem calm_netUpdate : Calm (netUpdate c s) := by simp [netUpdate]
@[simp] theorem calm_fallbackEngage : Calm (fallbackEngage c s) := by simp [fallbackEngage]

end Channels

/-! ### Streams -/

section Streams
variable (i : Nat) (s : State)

@[simp] theorem calm_setStream (new : Nat) : Calm (setStream i new s) := by simp [setStream]
@[simp] theorem calm_streamUnfence (cause : Nat) : Calm (streamUnfence i cause s) := by simp [streamUnfence]
@[simp] theorem calm_strictSet (on : Bool) : Calm (strictSet i on s) := by simp [strictSet]
@[simp] theorem calm_streamEnable (on : Bool) : Calm (streamEnable i on s) := by
  unfold streamEnable
  repeat' split
  all_goals simp
@[simp] theorem calm_streamsMode (on : Bool) : Calm (streamsMode on s) := by
  refine calm_forAll fun i t => ?_
  repeat' split
  all_goals simp
@[simp] theorem calm_streamsMeasure : Calm (streamsMeasure s) := by simp [streamsMeasure]
@[simp] theorem calm_modeStreams (old new : Mode) : Calm (modeStreams old new s) := by simp [modeStreams]

end Streams

/-! ### Generators and analyses -/

section Analyses
variable (g h : Nat) (s : State)

@[simp] theorem calm_setGen (new : Nat) : Calm (setGen g new s) := by simp [setGen]
@[simp] theorem calm_genFall (len : Nat) : Calm (genFall g len s) := by simp [genFall]
@[simp] theorem calm_genCut : Calm (genCut g s) := by
  unfold genCut
  dsimp only
  split <;> simp
@[simp] theorem calm_generatorEnd : Calm (generatorEnd g s) := by
  unfold generatorEnd
  dsimp only
  split <;> simp
@[simp] theorem calm_handleEnd (status result : Nat) : Calm (handleEnd h status result s) := by
  unfold handleEnd
  split <;> simp
@[simp] theorem calm_analysisFinish (status : Nat) (data : Option (List ChanResult)) : Calm (analysisFinish h status data s) := by
  unfold analysisFinish
  split
  · exact .nil
  · split
    · exact .nil
    · exact calm_phases (by simp)
@[simp] theorem calm_measureLeave (old new : Mode) : Calm (measureLeave old new s) := by
  refine calm_phases ?_
  simp only [List.forall_mem_cons]
  refine ⟨by simp, fun t => calm_phases fun p hp u => ?_, by simp⟩
  obtain ⟨q, -, rfl⟩ := List.mem_map.1 hp
  exact calm_analysisFinish _ _ _ _

end Analyses

/-! ### Memberships -/

section Members
variable (m : Nat) (s : State)

@[simp] theorem calm_arpSend (op dest target : Nat) : Calm (arpSend m op dest target s) := by simp [arpSend]
@[simp] theorem calm_arpAsk (hop : Nat) : Calm (arpAsk m hop s) := by simp [arpAsk]
@[simp] theorem calm_sendIp (f : Frame) : Calm (sendIp m f s) := by simp [sendIp]
@[simp] theorem calm_ipMessage (kind dest : Nat) (body : List Byte) : Calm (ipMessage m kind dest body s) := by simp [ipMessage]
@[simp] theorem calm_igmpOlder (g : Nat) : Calm (igmpOlder m g s) := by simp [igmpOlder]
@[simp] theorem calm_igmpV3 (records : List Byte) : Calm (igmpV3 m records s) := by simp [igmpV3]
@[simp] theorem calm_igmpChanges (l : List (Nat × Nat)) : Calm (igmpChanges m l s) := by simp [igmpChanges]
@[simp] theorem calm_netMembers : Calm (netMembers m s) := by simp [netMembers]
@[simp] theorem calm_netShow : Calm (netShow s) := by simp [netShow]
@[simp] theorem calm_membersUpdate : Calm (membersUpdate s) := by simp [membersUpdate]

end Members

end Sys2Proof.Machine
end

section
/-!
Changes of mode (R432, R433-R435, R445-R448): what `setMode` leaves, whoever has caused it, and what it brings about beside.
-/

namespace Sys2Proof.Machine

theorem width_reason : Dict.width Key.rsn.REASON = some (8, false) := by decide +kernel
theorem width_prevMode : Dict.width Key.rsn.PREV_MODE = some (8, false) := by decide +kernel
theorem width_waitState : Dict.width Key.rsn.WAIT_STATE = some (8, false) := by decide +kernel

/-! ### What calm effects leave, whoever has caused them -/

/-- Which session has caused calm effects makes no difference to what they leave. -/
theorem Calm.by {es : List Effect} (h : Calm es) (n : Nat) : Calm (es.map (Effect.by n)) := by
  refine calm_map.2 fun e he => ?_
  have hw := h e he
  unfold Effect.by
  split <;> exact hw

/-- An entry that is no unit's, by its key. -/
theorem not_unitKey {k : Nat} (hk : k < 0x113000) : ¬ UnitKey k := by
  simp only [UnitKey, Key.evt.EVT_RAISED]
  omega

@[simp] theorem calm_modeChannels (s : State) : Calm (modeChannels s) := by
  refine calm_forAll fun c t => ?_
  split <;> simp

/-! ### The change of mode itself -/

/-- The management processor with nothing requested any more. -/
def Mgmt.settled (m : Mgmt) : Mgmt := { m with runWait := none, setupTo := none, setupAt := none }

/-- The device has entered the mode `new` for a reason (Table 14-8): what shows it, and what a change of mode leaves. -/
structure State.Enters (s : State) (new : Mode) (reason : Nat) (t : State) : Prop where
  mode : t.mode = new
  reason : reason < 256 → t.nat Key.rsn.REASON = reason
  prev : t.num Key.rsn.PREV_MODE = s.mode.code
  wait : t.num Key.rsn.WAIT_STATE = 0
  control : t.units.control = (s.units.onMgmt Mgmt.settled).control
  other : ∀ k < 0x113000, k / 256 ≠ 0x1003 → t.num k = s.num k

/-- The first effects of a change of mode, which session `n` has caused (R432). -/
def modeNow (new : Mode) (reason n : Nat) (s : State) : List Effect :=
  [.mode new, .nat Key.rsn.REASON reason, .nat Key.rsn.PREV_MODE s.mode.code, .nat Key.rsn.CHANGED_AT s.now,
    .bump Key.rsn.MODE_CHANGES 1, .num Key.rsn.WAIT_STATE 0, .mgmt Mgmt.settled,
    .raise Ev.MODE_CHANGED (args16 [s.mode.code, new.code, reason]) n none]

theorem modeNow_by (new : Mode) (reason n : Nat) (s : State) :
    (modeNow new reason 0 s).map (Effect.by n) = modeNow new reason n s := rfl

/-- What follows those effects is calm. -/
theorem setMode_of_ne {s : State} {new : Mode} (hne : s.mode ≠ new) (reason : Nat) :
    ∃ es, Calm es ∧ setMode new reason s = modeNow new reason 0 s ++ es := by
  refine ⟨phases [modeStreams s.mode new, measureLeave s.mode new, modeChannels,
    forAll (List.range 16) (fun c => netUpdate c), membersUpdate] (s.run (modeNow new reason 0 s)), calm_phases ?_, ?_⟩
  · simp
  · rw [setMode, if_neg hne]
    rfl

theorem Mode.code_lt (m : Mode) : m.code < 256 := by cases m <;> decide

theorem modeNow_enters (new : Mode) (reason n : Nat) (s : State) :
    s.Enters new reason (s.run (modeNow new reason n s)) := by
  let x := s.apply (.mode new)
  have hraise (ks : List Nat) (h : Key.evt.EVT_RAISED ∈ ks) : Confined ks (fun _ => ()) [.mgmt Mgmt.settled,
      .raise Ev.MODE_CHANGED (args16 [s.mode.code, new.code, reason]) n none] := by simpa using h
  have hwait : Confined [Key.evt.EVT_RAISED] (fun _ => ()) [.mgmt Mgmt.settled,
      .raise Ev.MODE_CHANGED (args16 [s.mode.code, new.code, reason]) n none] := hraise _ (by decide)
  have hprev : Confined [Key.rsn.CHANGED_AT, Key.rsn.MODE_CHANGES, Key.rsn.WAIT_STATE, Key.evt.EVT_RAISED] (fun _ => ())
      (.nat Key.rsn.CHANGED_AT s.now :: .bump Key.rsn.MODE_CHANGES 1 :: .num Key.rsn.WAIT_STATE 0 :: .mgmt Mgmt.settled ::
        [.raise Ev.MODE_CHANGED (args16 [s.mode.code, new.code, reason]) n none]) := by simp
  have hreg : Confined [Key.rsn.PREV_MODE, Key.rsn.CHANGED_AT, Key.rsn.MODE_CHANGES, Key.rsn.WAIT_STATE, Key.evt.EVT_RAISED] (fun _ => ())
      (.nat Key.rsn.PREV_MODE s.mode.code :: .nat Key.rsn.CHANGED_AT s.now :: .bump Key.rsn.MODE_CHANGES 1 ::
        .num Key.rsn.WAIT_STATE 0 :: .mgmt Mgmt.settled ::
        [.raise Ev.MODE_CHANGED (args16 [s.mode.code, new.code, reason]) n none]) := by simp
  have hall : Confined [Key.rsn.REASON, Key.rsn.PREV_MODE, Key.rsn.CHANGED_AT, Key.rsn.MODE_CHANGES, Key.rsn.WAIT_STATE,
      Key.evt.EVT_RAISED] (fun _ => ()) (modeNow new reason n s).tail := by
    simp [modeNow]
  have hkeep := hall.frame x
  have hunits : (s.run (modeNow new reason n s)).units.control = (s.units.onMgmt Mgmt.settled).control := by
    have hblind := eventBlind_control.raise ((s.run ((modeNow new reason n s).take 6)).apply (.mgmt Mgmt.settled)) Ev.MODE_CHANGED
      (args16 [s.mode.code, new.code, reason]) n none
    have hregs : (s.run ((modeNow new reason n s).take 6)).units = s.units := by
      simp [modeNow, Effect.nat, Effect.num]
    refine hblind.trans ?_
    exact congrArg (fun u => (Units.onMgmt u Mgmt.settled).control) hregs
  refine ⟨hkeep.mode, fun hreason => ?_, ?_, ?_, hunits, fun k hk hrsn => ?_⟩
  · rw [modeNow, State.run_cons, State.run_cons]
    exact hreg.nat_stands width_reason (by decide) x hreason
  · rw [modeNow, State.run_cons, State.run_cons, State.run_cons]
    exact hprev.num_stands width_prevMode (by decide) _ (Int.natCast_nonneg _) (by exact_mod_cast s.mode.code_lt)
  · rw [modeNow, State.run_cons, State.run_cons, State.run_cons, State.run_cons, State.run_cons, State.run_cons]
    exact hwait.num_stands width_waitState (by decide) _ (by decide) (by decide)
  · refine hkeep.num ?_
    simp only [List.mem_cons, List.not_mem_nil, or_false, Key.rsn.REASON, Key.rsn.PREV_MODE, Key.rsn.CHANGED_AT, Key.rsn.MODE_CHANGES,
      Key.rsn.WAIT_STATE, Key.evt.EVT_RAISED]
    omega

section Enters
variable {s t : State} {new : Mode}

/-- Calm effects leave a mode entered. -/
theorem State.Enters.calm {reason : Nat} (h : s.Enters new reason t) {es : List Effect} (hes : Calm es) : s.Enters new reason (t.run es) := by
  have hnum {k : Nat} (hk : k < 0x113000) : (t.run es).num k = t.num k := hes.num t (not_unitKey hk)
  exact {
    mode := (hes.mode t).trans h.mode
    reason := fun hr => (congrArg Int.toNat (hnum (by decide))).trans (h.reason hr)
    prev := (hnum (by decide)).trans h.prev
    wait := (hnum (by decide)).trans h.wait
    control := (hes.control t).trans h.control
    other := fun k hk hrsn => (hnum hk).trans (h.other k hk hrsn) }

/-- A change of mode enters the mode. -/
theorem setMode_enters (hne : s.mode ≠ new) (reason : Nat) : s.Enters new reason (s.does (setMode new reason)) := by
  obtain ⟨es, hes, heq⟩ := setMode_of_ne hne reason
  rw [State.does, heq, State.run_append]
  exact (modeNow_enters new reason 0 s).calm hes

/-- So does one that a session has caused. -/
theorem setMode_by_enters (hne : s.mode ≠ new) (reason n : Nat) :
    s.Enters new reason (s.does (causedBy n (setMode new reason))) := by
  obtain ⟨es, hes, heq⟩ := setMode_of_ne hne reason
  rw [State.does, causedBy, heq, List.map_append, State.run_append, modeNow_by]
  exact (modeNow_enters new reason n s).calm (hes.by n)

theorem State.Enters.nat_prev {reason : Nat} (h : s.Enters new reason t) : t.nat Key.rsn.PREV_MODE = s.mode.code := by
  rw [State.nat_eq_num, h.prev, Int.toNat_natCast]

theorem State.Enters.runWait {reason : Nat} (h : s.Enters new reason t) : t.units.mgmt.runWait = none :=
  congrArg (fun c => c.1.runWait) h.control

theorem State.Enters.setupTo {reason : Nat} (h : s.Enters new reason t) : t.units.mgmt.setupTo = none :=
  congrArg (fun c => c.1.setupTo) h.control

theorem State.Enters.waiting {reason : Nat} (h : s.Enters new reason t) : t.units.waiting = s.units.waiting :=
  congrArg (fun c => c.2.2.2.1) h.control

end Enters

end Sys2Proof.Machine
end

section
/-!
Twilight (R445-R448): the mode follows the time base into HOLDOVER, back to RUN, and to STANDBY.
-/

namespace Sys2Proof.Machine

section Twilight
variable {s : State}

/-- A request for RUN waits for lock, and shows so (R435); nothing else changes. -/
theorem runAwait_leaves (reason : Nat) (s : State) :
    let t := s.does (runAwait reason)
    t.units.mgmt.runWait = some reason ∧ t.num Key.rsn.WAIT_STATE = 2 ∧ s.Frame [Key.rsn.WAIT_STATE] t := by
  have hall : Confined [Key.rsn.WAIT_STATE] (fun _ => ())
      [.mgmt fun m => { m with runWait := some reason }, .num Key.rsn.WAIT_STATE 2] := by simp
  refine ⟨?_, ?_, hall.frame s⟩
  · simp [State.does, runAwait, always, Effect.mgmt, Effect.num]
  · rw [State.does, runAwait, always, State.run_cons]
    exact (Confined.nil (ks := []) (π := fun _ => ())).num_stands width_waitState (by decide) _ (by decide) (by decide)

/-- HOLDOVER ends in STANDBY, where the request for RUN waits for lock (R447). -/
theorem holdoverLeave_leaves (hne : s.mode ≠ .standby) :
    let t := s.does holdoverLeave
    t.mode = .standby ∧ t.nat Key.rsn.PREV_MODE = s.mode.code ∧ t.nat Key.rsn.REASON = 6 ∧
      t.units.mgmt.runWait = some 1 ∧ t.num Key.rsn.WAIT_STATE = 2 := by
  let x := s.run [.event Ev.HOLDOVER_EXPIRED (le 4 s.holdoverElapsed), .mgmt fun m => { m with modeBy := 0 }]
  have hmode : x.mode = s.mode := by
    have hall : Confined [Key.evt.EVT_RAISED] (fun _ => ())
      [.event Ev.HOLDOVER_EXPIRED (le 4 s.holdoverElapsed), .mgmt fun m => { m with modeBy := 0 }] := by simp
    exact (hall.frame s).mode
  have hdoes : s.does holdoverLeave = ((x.does (setMode .standby 6)).does (runAwait 1)) := by
    have hphase : s.does holdoverLeave = s.run (holdoverLeave s) := rfl
    rw [hphase, holdoverLeave]
    refine Eq.trans (State.does_phases_cons s _ _) ?_
    rw [State.does_phases_cons, State.does_phases_cons, State.does_phases_nil, State.does_always]
  have henter : x.Enters .standby 6 (x.does (setMode .standby 6)) := setMode_enters (by rwa [hmode]) 6
  obtain ⟨hwait, hstate, hkeep⟩ := runAwait_leaves 1 (x.does (setMode .standby 6))
  rw [hdoes]
  exact ⟨hkeep.mode.trans henter.mode, (hkeep.nat (by decide)).trans (henter.nat_prev.trans (by rw [hmode])),
    (hkeep.nat (by decide)).trans (henter.reason (by decide)), hwait, hstate⟩

end Twilight

/-- Settles O20: each of the three is one change of mode under its conditions, with the fallbacks or the wait for RUN after it. -/
theorem holdoverFollowsTheLock : Obligations.HoldoverFollowsTheLock := by
  refine ⟨fun s hrun hlock hserved hb hpassed => ⟨_, rfl, ?_⟩, fun s hhold hlock hserved hb => ⟨_, rfl, ?_⟩,
    fun s hhold hlock hserved hb hover => ⟨_, rfl, ?_⟩, fun s h => ?_, fun s h => ⟨?_, ?_⟩⟩
  · have hphase : s.does holdoverEntry = if s.nat Key.hold.HOLDOVER_MAX ≤ 3 then s.does holdoverLeave
        else s.does (phases [setMode .holdover 4, forAll (List.range 16) fallbackEngage]) := by
      rw [State.does, holdoverEntry, if_pos ⟨hrun, hlock, hserved, hb, hpassed⟩]
      split <;> rfl
    rw [hphase]
    by_cases hmax : s.nat Key.hold.HOLDOVER_MAX ≤ 3
    · simp only [if_pos hmax]
      obtain ⟨hmode, hprev, hreason, -, -⟩ := holdoverLeave_leaves (s := s) (by rw [hrun]; decide)
      exact ⟨hmode, hprev, hreason⟩
    · simp only [if_neg hmax]
      rw [State.does_phases_cons, State.does_phases_cons, State.does_phases_nil]
      have henter : s.Enters .holdover 4 ((s.does (setMode .holdover 4)).does (forAll (List.range 16) fallbackEngage)) :=
        (setMode_enters (by rw [hrun]; decide) 4).calm (calm_forAll (by simp))
      exact ⟨henter.mode, henter.nat_prev, henter.reason (by decide)⟩
  · have hphase : s.does holdoverReturn = s.does (setMode .run 5) := by
      rw [State.does, holdoverReturn, if_pos ⟨hhold, hlock, hserved, hb⟩]
      rfl
    rw [hphase]
    have henter : s.Enters .run 5 (s.does (setMode .run 5)) := setMode_enters (by rw [hhold]; decide) 5
    refine ⟨henter.mode, ?_⟩
    have hreason := henter.reason (by decide)
    rw [State.nat_eq_num] at hreason
    omega
  · have hphase : s.does holdoverExpired = s.does holdoverLeave := by
      rw [State.does, holdoverExpired, if_pos ⟨hhold, hlock, by simpa [State.holdoverOver] using hover, hserved, hb⟩]
      rfl
    rw [hphase]
    obtain ⟨hmode, -, -, hwait, hstate⟩ := holdoverLeave_leaves (s := s) (by rw [hhold]; decide)
    exact ⟨hmode, hwait, hstate⟩
  · have hphase : holdoverEntry s = [] := by
      rw [holdoverEntry, if_neg]
      rintro ⟨hrun, -, -, hb, -⟩
      simp_all
    exact congrArg (fun es => Host.Outcome.next (s.run es)) hphase
  · have hphase : holdoverReturn s = [] := by
      rw [holdoverReturn, if_neg]
      rintro ⟨hhold, -, -, hb⟩
      simp_all
    exact congrArg (fun es => Host.Outcome.next (s.run es)) hphase
  · have hphase : holdoverExpired s = [] := by
      rw [holdoverExpired, if_neg]
      rintro ⟨hhold, -, -, -, hb⟩
      simp_all
    exact congrArg (fun es => Host.Outcome.next (s.run es)) hphase

end Sys2Proof.Machine
end

section
/-!
Requested modes (R431-R435, Table 14-1): what a request leaves when it takes effect, in each of the states that it can find.
-/

namespace Sys2Proof.Machine

theorem width_modeRequest : Dict.width Key.mode.MODE_REQUEST = some (8, false) := by decide +kernel

/-! ### Phases one after the other that a session has caused -/

theorem does_causedBy_cons (n : Nat) (p : Phase) (ps : List Phase) (s : State) :
    s.does (causedBy n (phases (p :: ps))) = (s.does (causedBy n p)).run ((phases ps (s.does p)).map (Effect.by n)) := by
  have hsplit : phases (p :: ps) s = p s ++ phases ps (s.does p) := rfl
  rw [State.does, causedBy, hsplit, List.map_append, State.run_append]
  rfl

/-- A first phase that raises no event stands as it is. -/
theorem does_causedBy_quiet_cons {n : Nat} {p : Phase} {s : State} (h : ∀ e ∈ p s, e.by n = e) (ps : List Phase) :
    s.does (causedBy n (phases (p :: ps))) = (s.does p).does (causedBy n (phases ps)) := by
  rw [does_causedBy_cons, causedBy_of_quiet h]
  rfl

/-! ### What a request leaves that changes no mode -/

/-- The request and all that waits for a boundary stay. -/
structure State.Keeps (s t : State) : Prop where
  request : t.num Key.mode.MODE_REQUEST = s.num Key.mode.MODE_REQUEST
  waiting : t.units.waiting = s.units.waiting
  pending : t.units.mgmt.waitMode = s.units.mgmt.waitMode

/-- So does the mode. -/
structure State.Stays (s t : State) : Prop extends s.Keeps t where
  mode : t.mode = s.mode

theorem State.Keeps.trans {s t u : State} (h1 : s.Keeps t) (h2 : t.Keeps u) : s.Keeps u :=
  ⟨h2.request.trans h1.request, h2.waiting.trans h1.waiting, h2.pending.trans h1.pending⟩

theorem State.Stays.trans {s t u : State} (h1 : s.Stays t) (h2 : t.Stays u) : s.Stays u :=
  ⟨h1.toKeeps.trans h2.toKeeps, h2.mode.trans h1.mode⟩

theorem State.Stays.refl (s : State) : s.Stays s := ⟨⟨rfl, rfl, rfl⟩, rfl⟩

/-- The writes and the request of a planned removal that wait for a boundary (R395, R454). -/
def Units.waits (u : Units) : List Waiting × Option (Nat × Nat) := (u.waiting, u.mgmt.waitMode)

theorem Confined.stays {ks : List Nat} {es : List Effect} (h : Confined ks Units.waits es)
    (hk : Key.mode.MODE_REQUEST ∉ ks) (s : State) : s.Stays (s.run es) := by
  have hwaits := h.units (fun _ _ _ _ _ _ => rfl) s
  exact ⟨⟨(h.frame s).num hk, congrArg Prod.fst hwaits, congrArg Prod.snd hwaits⟩, (h.frame s).mode⟩

theorem Calm.stays {es : List Effect} (h : Calm es) (s : State) : s.Stays (s.run es) :=
  ⟨⟨h.num s (not_unitKey (by decide)), congrArg (fun c => c.2.2.2.1) (h.control s), congrArg (fun c => c.1.waitMode) (h.control s)⟩,
    h.mode s⟩

theorem State.Enters.keeps {s t : State} {new : Mode} {reason : Nat} (h : s.Enters new reason t) : s.Keeps t :=
  ⟨h.other _ (by decide) (by decide), h.waiting, congrArg (fun c => c.1.waitMode) h.control⟩

theorem Calm.setupTo {es : List Effect} (h : Calm es) (s : State) : (s.run es).units.mgmt.setupTo = s.units.mgmt.setupTo :=
  congrArg (fun c => c.1.setupTo) (h.control s)

/-- The states of the hot-swap controllers. -/
def hsKeys : List Nat := [Key.hs.HS_STATE_PG 0, Key.hs.HS_STATE_PG 1, Key.hs.HS_STATE_PG 2, Key.hs.HS_STATE_PG 3]

theorem hsState_mem_hsKeys : ∀ g < 4, Key.hs.HS_STATE_PG g ∈ hsKeys := by decide

/-- The end of the hold of a planned removal shows in the groups' states alone (R455). -/
theorem removalEnd_within {α : Type} {π : Units → α}
    (hm : ∀ u n, π (Units.onMgmt u fun m => { m with removed := false, hsFreeAt := n }) = π u) :
    Phase.Within hsKeys π removalEnd := by
  intro s
  unfold removalEnd
  split
  · exact .nil
  · refine confined_cons.2 ⟨fun u => hm u s.mtbNs, fun e he => ?_⟩
    obtain ⟨g, hg, hge⟩ := List.mem_flatMap.1 he
    split at hge
    · rw [List.mem_singleton.1 hge]
      exact hsState_mem_hsKeys g (List.mem_range.1 hg)
    · exact absurd hge List.not_mem_nil

theorem removalEnd_quiet (n : Nat) (s : State) : ∀ e ∈ removalEnd s, e.by n = e := by
  unfold removalEnd
  split
  · simp
  · refine List.forall_mem_cons.2 ⟨rfl, fun e he => ?_⟩
    obtain ⟨g, -, hge⟩ := List.mem_flatMap.1 he
    split at hge
    · rw [List.mem_singleton.1 hge]
      rfl
    · exact absurd hge List.not_mem_nil

section Setup
variable {s : State} {v reason : Nat}

theorem members_stay (n : Nat) (s : State) :
    s.Stays (s.does (causedBy n (phases [membersUpdate]))) ∧
      (s.does (causedBy n (phases [membersUpdate]))).units.mgmt.setupTo = s.units.mgmt.setupTo ∧
      (s.does (causedBy n (phases [membersUpdate]))).num Key.rsn.WAIT_STATE = s.num Key.rsn.WAIT_STATE := by
  have hcalm : Calm ((phases [membersUpdate] s).map (Effect.by n)) := (calm_phases (by simp)).by n
  exact ⟨hcalm.stays s, hcalm.setupTo s, hcalm.num s (not_unitKey (by decide))⟩

/-- A request for SAFE ends a setup (R433). -/
theorem modeTake_ends_setup (hm : s.mode ≠ .boot) (hsetup : s.units.mgmt.setupTo.isSome = true) (n : Nat) :
    let t := s.does (causedBy n (modeTake 1 reason))
    s.Stays t ∧ t.units.mgmt.setupTo = none := by
  have hphase : s.does (causedBy n (modeTake 1 reason)) = s.does (causedBy n (phases [
      always [.mgmt fun m => { m with setupTo := none, setupAt := none }, .num Key.rsn.WAIT_STATE 0], membersUpdate])) := by
    rw [State.does, causedBy, modeTake, if_neg (by simpa using hm), if_pos hsetup, if_pos rfl]
    rfl
  have hfirst : Confined [Key.rsn.WAIT_STATE] Units.waits
      [.mgmt fun m => { m with setupTo := none, setupAt := none }, .num Key.rsn.WAIT_STATE 0] := by simp [Units.onMgmt, Units.waits]
  rw [hphase, does_causedBy_quiet_cons (by simp [always, Effect.by, Effect.mgmt, Effect.num]), State.does_always]
  obtain ⟨hstay, hto, -⟩ := members_stay n
    (s.run [.mgmt fun m => { m with setupTo := none, setupAt := none }, .num Key.rsn.WAIT_STATE 0])
  refine ⟨(hfirst.stays (by decide) s).trans hstay, hto.trans ?_⟩
  simp [Effect.mgmt, Effect.num]

/-- Another request takes the place of the one that is set up (R433). -/
theorem modeTake_replaces_setup (hm : s.mode ≠ .boot) (hv : v ≠ 0 ∧ v ≤ 4) (hne : v ≠ 1)
    (hsetup : s.units.mgmt.setupTo.isSome = true) (n : Nat) :
    let t := s.does (causedBy n (modeTake v reason))
    s.Stays t ∧ t.units.mgmt.setupTo = some (v, reason) := by
  have hphase : s.does (causedBy n (modeTake v reason)) = s.does (causedBy n (phases [
      always [.mgmt fun m => { m with setupTo := some (v, reason) }], removalEnd, membersUpdate])) := by
    rw [State.does, causedBy, modeTake, if_neg (by simp [hm]; omega), if_pos hsetup, if_neg hne]
    rfl
  have hfirst : Confined [] Units.waits [.mgmt fun m => { m with setupTo := some (v, reason) }] := by simp [Units.onMgmt, Units.waits]
  let x := s.run [.mgmt fun m => { m with setupTo := some (v, reason) }]
  have hremoval := removalEnd_within (π := Units.waits) (fun _ _ => rfl)
  have hkeepTo := (removalEnd_within (π := fun u => u.mgmt.setupTo) (fun _ _ => rfl)).units (fun _ _ _ _ _ _ => rfl) x
  obtain ⟨hstay, hto, -⟩ := members_stay n (x.does removalEnd)
  rw [hphase, does_causedBy_quiet_cons (by simp [always, Effect.by, Effect.mgmt]), State.does_always,
    does_causedBy_quiet_cons (removalEnd_quiet n _)]
  refine ⟨((hfirst.stays (by simp) s).trans ((hremoval x).stays (by decide) x)).trans hstay, hto.trans (hkeepTo.trans ?_)⟩
  simp [x, Effect.mgmt]

/-- In SAFE a request for another mode begins its setup (R433). -/
theorem modeTake_begins_setup (hm : s.mode = .safe) (hv : v ≠ 0 ∧ v ≤ 4) (hne : v ≠ 1)
    (hsetup : s.units.mgmt.setupTo = none) (n : Nat) :
    let t := s.does (causedBy n (modeTake v reason))
    s.Stays t ∧ t.units.mgmt.setupTo = some (v, reason) ∧ t.num Key.rsn.WAIT_STATE = 1 := by
  have hphase : s.does (causedBy n (modeTake v reason)) = s.does (causedBy n (phases [removalEnd,
      always [.mgmt fun m => { m with setupTo := some (v, reason), setupAt := some s.mtbNs }, .num Key.rsn.WAIT_STATE 1],
      membersUpdate])) := by
    rw [State.does, causedBy, modeTake, if_neg (by simp [hm]; omega), if_neg (by simp [hsetup]), if_pos hm, if_neg hne]
    rfl
  have hnext : Confined [Key.rsn.WAIT_STATE] Units.waits
      [.mgmt fun m => { m with setupTo := some (v, reason), setupAt := some s.mtbNs }, .num Key.rsn.WAIT_STATE 1] := by
    simp [Units.onMgmt, Units.waits]
  have hremoval := removalEnd_within (π := Units.waits) (fun _ _ => rfl)
  let x := (s.does removalEnd).run
    [.mgmt fun m => { m with setupTo := some (v, reason), setupAt := some s.mtbNs }, .num Key.rsn.WAIT_STATE 1]
  obtain ⟨hstay, hto, hwait⟩ := members_stay n x
  rw [hphase, does_causedBy_quiet_cons (removalEnd_quiet n s),
    does_causedBy_quiet_cons (by simp [always, Effect.by, Effect.mgmt, Effect.num]), State.does_always]
  refine ⟨(((hremoval s).stays (by decide) s).trans (hnext.stays (by decide) _)).trans hstay, hto.trans ?_, hwait.trans ?_⟩
  · simp [x, Effect.mgmt, Effect.num]
  · exact (Confined.nil (ks := []) (π := fun _ => ())).num_stands width_waitState (by decide) _ (by decide) (by decide)

/-- Outside a setup, and outside SAFE: RUN is entered where the lock condition holds and waits where it does not; a request for the mode
in force ends a wait for RUN; any other mode is entered (R434, R435, log 60). -/
theorem modeTake_of_running (hm : s.mode ≠ .boot) (hsafe : s.mode ≠ .safe) (hv : v ≠ 0 ∧ v ≤ 4)
    (hsetup : s.units.mgmt.setupTo = none) : modeTake v reason s =
      if v = 3 then
        if s.mode = .run ∨ s.mode = .holdover then [] else if s.lockOk then setMode .run reason s else runAwait reason s
      else if s.mode.code = v then [.mgmt fun m => { m with runWait := none }, .num Key.rsn.WAIT_STATE 0]
      else setMode (Mode.ofCode v) reason s := by
  rw [modeTake, if_neg (by simp [hm]; omega), if_neg (by simp [hsetup]), if_neg hsafe]

end Setup

/-! ### The waiting request at its boundary -/

theorem code_ofCode : ∀ v ≤ 4, (Mode.ofCode v).code = v := by decide

theorem ofCode_code (m : Mode) : Mode.ofCode m.code = m := by cases m <;> rfl

/-- What is written of a divergence leaves all but the record of those that are open (R461). -/
theorem divergeWritten_within {α : Type} {π : Units → α}
    (hm : ∀ u (d : Mgmt → List Nat), π (Units.onMgmt u fun m => { m with divergedOpen := d m }) = π u) (k : Nat) :
    Phase.Within [Key.fence.DIVERGE_OPEN] π (divergeWritten k) := by
  intro s
  unfold divergeWritten
  split
  · exact confined_cons.2 ⟨fun u => hm u fun m => m.divergedOpen.filter fun d => d != k, by simp⟩
  · exact .nil

section Request
variable {s : State} {v role n : Nat}

theorem entryDoes_modeRequest (w : Writer) (v : Nat) : entryDoes w Key.mode.MODE_REQUEST (.num v) =
    phases [always [.reg Key.mode.MODE_REQUEST (.num v)], always [.mgmt fun m => { m with modeBy := w.session }], modeTake v 1,
      divergeWritten Key.mode.MODE_CURRENT] := by
  simp [entryDoes, specialEffects, Key.mode.MODE_REQUEST, Value.int]

/-- The state in which a request for a mode is taken: the probes have been passed over, nothing waits, the request stands. -/
def State.requested (s : State) (c : Tbl Chan) (v n : Nat) : State :=
  (s.taken c).run [.reg Key.mode.MODE_REQUEST (.num v), .mgmt fun m => { m with modeBy := n }]

theorem runAwait_stays (reason n : Nat) (s : State) : s.Stays (s.does (causedBy n (runAwait reason))) := by
  have hall : Confined [Key.rsn.WAIT_STATE] Units.waits
      [.mgmt fun m => { m with runWait := some reason }, .num Key.rsn.WAIT_STATE 2] := by simp [Units.onMgmt, Units.waits]
  exact (hall.by n).stays (by decide) s

/-- Whatever a request does when it takes effect, the request and what waits stay. -/
theorem modeTake_keeps {reason : Nat} (hm : s.mode ≠ .boot) (hv : v ≠ 0 ∧ v ≤ 4) (n : Nat) :
    s.Keeps (s.does (causedBy n (modeTake v reason))) := by
  cases hsetup : s.units.mgmt.setupTo with
  | some setup =>
    by_cases hne : v = 1
    · subst hne
      exact (modeTake_ends_setup hm (by simp [hsetup]) n).1.toKeeps
    · exact (modeTake_replaces_setup hm hv hne (by simp [hsetup]) n).1.toKeeps
  | none =>
    by_cases hsafe : s.mode = .safe
    · by_cases hne : v = 1
      · have hphase : modeTake v reason s = [] := by
          rw [modeTake, if_neg (by simp [hm]; omega), if_neg (by simp [hsetup]), if_pos hsafe, if_pos hne]
        rw [State.does, causedBy, hphase]
        exact (State.Stays.refl s).toKeeps
      · exact (modeTake_begins_setup hsafe hv hne hsetup n).1.toKeeps
    · have hphase := modeTake_of_running (reason := reason) hm hsafe hv hsetup
      rw [State.does, causedBy, hphase]
      split
      · split
        · exact (State.Stays.refl s).toKeeps
        · next hrun =>
          split
          · exact (setMode_by_enters (fun h => hrun (.inl h)) reason n).keeps
          · exact (runAwait_stays reason n s).toKeeps
      · split
        · have hall : Confined [Key.rsn.WAIT_STATE] Units.waits
              [.mgmt fun m => { m with runWait := none }, .num Key.rsn.WAIT_STATE 0] := by simp [Units.onMgmt, Units.waits]
          exact ((hall.by n).stays (by decide) s).toKeeps
        · next hcode =>
          refine (setMode_by_enters (fun h => hcode ?_) reason n).keeps
          rw [h]
          exact code_ofCode v hv.2

/-- MODE_CHANGE_APPLY with one request that waits takes it, as its session has caused it (R431). -/
theorem does_modeChange (hserved : s.units.mgmt.served = true) (hmode : s.mode ≠ .boot) (hb : s.atBoundary = true)
    (hnone : s.units.mgmt.waitMode = none) (hv : v ≠ 0 ∧ v ≤ 4)
    (hw : s.units.waiting = [⟨Key.mode.MODE_REQUEST, .num v, role, n⟩]) :
    ∃ c es, Confined [Key.fence.DIVERGE_OPEN] (fun u => (u.mgmt.setupTo, u.mgmt.runWait, u.waits)) es ∧
      s.does modeChange = ((s.requested c v n).does (causedBy n (modeTake v 1))).run es := by
  obtain ⟨c, hc⟩ := does_probes s (List.range 16)
  let x := s.requested c v n
  let es := (phases [divergeWritten Key.mode.MODE_CURRENT] (x.does (modeTake v 1))).map (Effect.by n)
  have hes : Confined [Key.fence.DIVERGE_OPEN] (fun u => (u.mgmt.setupTo, u.mgmt.runWait, u.waits)) es :=
    (Phase.within_phases (by simpa using divergeWritten_within (fun _ _ => rfl) _) _).by n
  have hentry : (s.taken c).does (entryTakes ⟨n, role⟩ Key.mode.MODE_REQUEST (.num v)) =
      (x.does (causedBy n (modeTake v 1))).run es := by
    have hpersist : ∀ t, persist Key.mode.MODE_REQUEST t = [] := fun _ => rfl
    rw [entryTakes_of_plain rfl (fun _ => rfl), does_causedBy_pair, hpersist, entryDoes_modeRequest,
      does_causedBy_quiet_cons (by simp [always, Effect.by]), State.does_always,
      does_causedBy_quiet_cons (by simp [always, Effect.by, Effect.mgmt]), State.does_always, does_causedBy_cons]
    rfl
  have hdoes : s.does modeChange = ((x.does (causedBy n (modeTake v 1))).run es).does modePending := by
    rw [modeChange, does_atBlock hserved hmode hb, hc, State.does_phases_cons, State.does_phases_cons, State.does_phases_nil,
      does_takeWaiting (s := { s with units := { s.units with chans := c } }) hw, ← hentry]
    rfl
  have hwait : ((x.does (causedBy n (modeTake v 1))).run es).units.mgmt.waitMode = none := by
    have hkeep := hes.units (fun _ _ _ _ _ _ => rfl) (x.does (causedBy n (modeTake v 1)))
    have hx : x.mode ≠ .boot := by simpa [x, State.requested, State.taken, Effect.mgmt] using hmode
    refine (congrArg (fun p => p.2.2.2) hkeep).trans ((modeTake_keeps hx hv n).pending.trans ?_)
    simpa [x, State.requested, State.taken, Effect.mgmt] using hnone
  refine ⟨c, es, hes, hdoes.trans ?_⟩
  rw [State.does, modePending, hwait]
  rfl

end Request

/-! ### The obligation -/

/-- The setup that leaves SAFE has ended (R433, R434). -/
theorem setupComplete_leaves {s : State} {v reason : Nat} (hsafe : s.mode = .safe) (hto : s.units.mgmt.setupTo = some (v, reason))
    (hserved : s.units.mgmt.served = true) (hb : s.atBoundary = true) :
    let t := s.does setupComplete
    t.mode = (if v = 4 then .measure else .standby) ∧ t.num Key.rsn.PREV_MODE = 1 ∧
      t.units.mgmt.setupTo = none ∧ (v = 3 → t.units.mgmt.runWait = some reason) := by
  let x := s.does (byRequester (setMode (if v = 4 then .measure else .standby) reason))
  have henter : s.Enters (if v = 4 then .measure else .standby) reason x :=
    setMode_by_enters (by rw [hsafe]; split <;> decide) reason s.units.mgmt.modeBy
  have hdoes : s.does setupComplete = x.does (if v ≠ 3 then always []
      else if s.lockOk then always [.mgmt fun m => { m with runWait := some reason }] else runAwait reason) := by
    rw [State.does, setupComplete, hto]
    dsimp only
    rw [if_neg (by simp [hserved, hb])]
    exact (State.does_phases_cons s _ _).trans (by rw [State.does_phases_cons, State.does_phases_nil])
  rw [hdoes]
  by_cases hv : v = 3
  · have hwait : ∀ {es : List Effect}, Confined [Key.rsn.WAIT_STATE] (fun u => u.mgmt.setupTo) es → (x.run es).mode = x.mode ∧
        (x.run es).num Key.rsn.PREV_MODE = 1 ∧ (x.run es).units.mgmt.setupTo = none := fun hes =>
      ⟨(hes.frame x).mode, ((hes.frame x).num (by decide)).trans (henter.prev.trans (by rw [hsafe]; rfl)),
        (hes.units (fun _ _ _ _ _ _ => rfl) x).trans henter.setupTo⟩
    rw [if_neg (by simpa using hv)]
    by_cases hlock : s.lockOk = true
    · rw [if_pos hlock]
      obtain ⟨hmode, hprev, hnone⟩ := hwait (es := [.mgmt fun m => { m with runWait := some reason }]) (by simp [Units.onMgmt])
      exact ⟨hmode.trans henter.mode, hprev, hnone, fun _ => rfl⟩
    · rw [if_neg hlock]
      obtain ⟨hmode, hprev, hnone⟩ := hwait (es := runAwait reason x) (by simp [runAwait, always, Units.onMgmt])
      exact ⟨hmode.trans henter.mode, hprev, hnone, fun _ => (runAwait_leaves reason x).1⟩
  · rw [if_pos hv]
    exact ⟨henter.mode, henter.prev.trans (by rw [hsafe]; rfl), henter.setupTo, fun h => absurd h hv⟩

/-- A request for RUN enters RUN once the lock condition holds, and waits until then (R435, Table 14-8). -/
theorem does_runEntry {s : State} {reason : Nat} (hm : s.mode = .standby ∨ s.mode = .measure)
    (hrun : s.units.mgmt.runWait = some reason) (hserved : s.units.mgmt.served = true) (hb : s.atBoundary = true) :
    s.does runEntry = if s.lockOk then
        s.does (byRequester (setMode .run (if s.num Key.rsn.WAIT_STATE = 2 then 3 else reason)))
      else s.run [.num Key.rsn.WAIT_STATE 2] := by
  have hgo : ¬ ((!s.units.mgmt.served) = true ∨ (!s.atBoundary) = true ∨ s.mode ≠ .standby ∧ s.mode ≠ .measure) := by
    rcases hm with hm | hm <;> simp [hserved, hb, hm]
  rw [State.does, runEntry, hrun]
  dsimp only
  rw [if_neg hgo]
  split <;> rfl

/-- What the request holds when it takes effect, and that nothing waits any more. -/
theorem requested_leaves {s : State} {c : Tbl Chan} {v n : Nat} (hv : v ≤ 4) :
    let x := s.requested c v n
    x.num Key.mode.MODE_REQUEST = v ∧ x.units.waiting = [] ∧ x.mode = s.mode ∧ x.units.mgmt.setupTo = s.units.mgmt.setupTo ∧
      x.lockOk = s.lockOk := by
  have hlast : Confined [] (fun _ => ()) [.mgmt fun m => { m with modeBy := n }] := by simp
  have hall : Confined [Key.mode.MODE_REQUEST] (fun u => (u.waiting, u.mgmt.setupTo))
      [.reg Key.mode.MODE_REQUEST (.num v), .mgmt fun m => { m with modeBy := n }] := by simp [Units.onMgmt]
  have hkeep := hall.frame (s.taken c)
  have hunits := hall.units (fun _ _ _ _ _ _ => rfl) (s.taken c)
  refine ⟨?_, congrArg Prod.fst hunits, hkeep.mode, congrArg Prod.snd hunits, ?_⟩
  · rw [State.requested, State.run_cons]
    exact hlast.num_stands width_modeRequest (by decide) _ (Int.natCast_nonneg v) (by omega)
  · have hlock : (s.requested c v n).num Key.lock.LOCK_STATE = s.num Key.lock.LOCK_STATE := hkeep.num (by decide)
    have hsource : (s.requested c v n).num Key.ref.REF_SOURCE = s.num Key.ref.REF_SOURCE := hkeep.num (by decide)
    rw [State.lockOk, State.lockOk, hlock, hsource]

/-- What a request for a mode that takes effect leaves, whatever setup, mode and lock it finds (Table 14-1). -/
theorem modeTake_leaves {x : State} {v : Nat} (hm : x.mode ≠ .boot) (hv : v ≠ 0 ∧ v ≤ 4) (n : Nat) :
    let t := x.does (causedBy n (modeTake v 1))
    (∀ w r, x.units.mgmt.setupTo = some (w, r) →
      t.mode = x.mode ∧ t.units.mgmt.setupTo = if v = 1 then none else some (v, 1)) ∧
    (x.units.mgmt.setupTo = none → x.mode = .safe →
      t.mode = .safe ∧ (v ≠ 1 → t.units.mgmt.setupTo = some (v, 1) ∧ t.num Key.rsn.WAIT_STATE = 1)) ∧
    (x.units.mgmt.setupTo = none → x.mode ≠ .safe → v ≠ 3 → t.mode = Mode.ofCode v ∧
      (x.mode.code ≠ v → t.nat Key.rsn.PREV_MODE = x.mode.code ∧ t.num Key.rsn.REASON = 1)) ∧
    (x.units.mgmt.setupTo = none → x.mode ≠ .safe → v = 3 →
      t.mode = (if x.mode = .run ∨ x.mode = .holdover ∨ x.lockOk = false then x.mode else .run) ∧
      (x.mode = .standby ∨ x.mode = .measure → x.lockOk = false →
        t.units.mgmt.runWait = some 1 ∧ t.num Key.rsn.WAIT_STATE = 2)) := by
  refine ⟨fun w r hto => ?_, fun hto hsafe => ?_, fun hto hsafe hne => ?_, fun hto hsafe h3 => ?_⟩
  · by_cases hne : v = 1
    · subst hne
      obtain ⟨hstay, hnone⟩ := modeTake_ends_setup (reason := 1) hm (by simp [hto]) n
      exact ⟨hstay.mode, hnone⟩
    · obtain ⟨hstay, hsome⟩ := modeTake_replaces_setup (reason := 1) hm hv hne (by simp [hto]) n
      exact ⟨hstay.mode, by rw [hsome, if_neg hne]⟩
  · by_cases hne : v = 1
    · have hphase : modeTake v 1 x = [] := by
        rw [modeTake, if_neg (by simp [hm]; omega), if_neg (by simp [hto]), if_pos hsafe, if_pos hne]
      rw [State.does, causedBy, hphase]
      exact ⟨hsafe, fun h => absurd hne h⟩
    · obtain ⟨hstay, hsome, hwait⟩ := modeTake_begins_setup (reason := 1) hsafe hv hne hto n
      exact ⟨hstay.mode.trans hsafe, fun _ => ⟨hsome, hwait⟩⟩
  · have hphase := modeTake_of_running (reason := 1) hm hsafe hv hto
    rw [if_neg hne] at hphase
    by_cases hcode : x.mode.code = v
    · rw [if_pos hcode] at hphase
      have hall : Confined [Key.rsn.WAIT_STATE] (fun _ => ())
          [.mgmt fun m => { m with runWait := none }, .num Key.rsn.WAIT_STATE 0] := by simp
      rw [State.does, causedBy, hphase]
      exact ⟨((hall.by n).frame x).mode.trans (by rw [← hcode, ofCode_code]), fun h => absurd hcode h⟩
    · rw [if_neg hcode] at hphase
      have henter : x.Enters (Mode.ofCode v) 1 (x.does (causedBy n (modeTake v 1))) := by
        have hset := setMode_by_enters (s := x) (new := Mode.ofCode v)
          (fun h => hcode (by rw [h]; exact code_ofCode v hv.2)) 1 n
        rwa [State.does, causedBy, ← hphase] at hset
      have hreason := henter.reason (by decide)
      rw [State.nat_eq_num] at hreason
      exact ⟨henter.mode, fun _ => ⟨henter.nat_prev, by omega⟩⟩
  · have hphase := modeTake_of_running (reason := 1) hm hsafe hv hto
    rw [if_pos h3] at hphase
    by_cases hrun : x.mode = .run ∨ x.mode = .holdover
    · rw [if_pos hrun] at hphase
      rw [State.does, causedBy, hphase, if_pos (by tauto)]
      refine ⟨rfl, fun hother => ?_⟩
      rcases hrun with hrun | hrun <;> simp [hrun] at hother
    · rw [if_neg hrun] at hphase
      by_cases hlock : x.lockOk = true
      · rw [if_pos hlock] at hphase
        have henter : x.Enters .run 1 (x.does (causedBy n (modeTake v 1))) := by
          have hset := setMode_by_enters (s := x) (new := .run) (fun h => hrun (.inl h)) 1 n
          rwa [State.does, causedBy, ← hphase] at hset
        rw [if_neg (by simpa [hlock] using hrun)]
        exact ⟨henter.mode, fun _ h => absurd hlock (by simp [h])⟩
      · rw [if_neg hlock] at hphase
        have hdoes : x.does (causedBy n (modeTake v 1)) = x.does (runAwait 1) := by
          rw [State.does, causedBy, hphase]
          rfl
        obtain ⟨hwait, hstate, hkeep⟩ := runAwait_leaves 1 x
        rw [hdoes, if_pos (by simp [hlock])]
        exact ⟨hkeep.mode, fun _ _ => ⟨hwait, hstate⟩⟩

/-- Settles O21: a setup ends and a wait for lock ends in a change of mode; the waiting request is taken as `modeTake` says of the state
that it finds, and what follows it writes neither the mode nor the request. -/
theorem requestedModesAreEntered : Obligations.RequestedModesAreEntered := by
  refine ⟨fun s v reason hsafe hto _ hserved hb => ⟨_, rfl, setupComplete_leaves hsafe hto hserved hb⟩,
    fun s reason hm hrun hreason hserved hb => ⟨fun hlock => ⟨_, rfl, ?_⟩, fun hlock => ⟨_, rfl, ?_⟩⟩,
    fun s v role n hmode hserved hb hnone hw hv => ⟨_, rfl, ?_⟩⟩
  · rw [does_runEntry hm hrun hserved hb, if_pos hlock]
    have henter : s.Enters .run (if s.num Key.rsn.WAIT_STATE = 2 then 3 else reason) (s.does (byRequester
        (setMode .run (if s.num Key.rsn.WAIT_STATE = 2 then 3 else reason)))) :=
      setMode_by_enters (by rcases hm with hm | hm <;> simp [hm]) _ s.units.mgmt.modeBy
    exact ⟨henter.mode, henter.nat_prev, henter.reason (by split <;> omega), henter.runWait⟩
  · rw [does_runEntry hm hrun hserved hb, if_neg (by simp [hlock])]
    have hall : Confined [Key.rsn.WAIT_STATE] (fun _ => ()) [.num Key.rsn.WAIT_STATE 2] := by simp
    exact ⟨s.num_reg_of_lt width_waitState (by decide) (by decide), hall.frame s⟩
  · have hrange : v ≠ 0 ∧ v ≤ 4 := by
      simp only [List.mem_cons, List.not_mem_nil, or_false] at hv
      omega
    obtain ⟨c, es, hes, hdoes⟩ := does_modeChange hserved hmode hb hnone hrange hw
    obtain ⟨hreq, hwaits, hxmode, hxto, hxlock⟩ := requested_leaves (s := s) (c := c) (n := n) hrange.2
    rw [hdoes]
    generalize s.requested c v n = x at *
    have hkeep := hes.frame (x.does (causedBy n (modeTake v 1)))
    have hunits := hes.units (fun _ _ _ _ _ _ => rfl) (x.does (causedBy n (modeTake v 1)))
    have hsetup := congrArg Prod.fst hunits
    have hrun := congrArg (fun p => p.2.1) hunits
    have hwait := congrArg (fun p => p.2.2.1) hunits
    have htake := modeTake_keeps (reason := 1) (by rwa [hxmode]) hrange n
    have hleaves := modeTake_leaves (by rwa [hxmode]) hrange n
    have hstate := hkeep.num (k := Key.rsn.WAIT_STATE) (by decide)
    have hprev := hkeep.nat (k := Key.rsn.PREV_MODE) (by decide)
    have hreason := hkeep.num (k := Key.rsn.REASON) (by decide)
    dsimp only at hsetup hrun hleaves
    rw [← hkeep.mode, ← hsetup, ← hrun, ← hstate, ← hprev, ← hreason, hxmode, hxto, hxlock] at hleaves
    refine ⟨hwait.trans (htake.waiting.trans hwaits), ?_, hleaves⟩
    rw [State.nat_eq_num, hkeep.num (by decide), htake.request, hreq, Int.toNat_natCast]

end Sys2Proof.Machine
end

section
/-!
What a request that is heard and changes nothing is answered (R406, R407), and the reads of the dictionary protocol (R398,
R413, R424, R427, R428).
-/

namespace Sys2Proof.Machine

/-! ### Requests that are heard -/

theorem le_msgLimit (p : Peer) : 1440 ≤ msgLimit p := by
  unfold msgLimit
  split <;> decide

section Heard
variable {s : State} {op : Nat} {m : CdlMsg} {x : Session}

/-- The session of a request that is heard, as the request finds it (R407). -/
theorem State.Hears.session_noted (h : s.Hears op m x) : (s.noted op m).session m.session = some { x with
    sLast := m.sequence, lastOp := op + 256 * m.status, lastReq := m.payload, lastAt := s.mtbNs } := by
  have hsession : (s.apply (canTake m)).session m.session = some x := h.session
  rw [State.noted, State.run_cons, State.run_cons, State.run_nil, State.session_apply_session, if_pos rfl, hsession]
  rfl

theorem State.Hears.writerOf (h : s.Hears op m x) : (s.noted op m).writerOf m.session = ⟨m.session, x.role⟩ := by
  rw [State.writerOf, h.session_noted]
  rfl

/-- A request in its form, from a role that may make it, is answered what it runs to, where that fits a message (R406). -/
theorem answer_of_passes {o : Opcode} {a : Answer} (hform : o.form m.payload = true) (hrole : o.role x.role m.payload = St.ok)
    (hrun : o.run s m.session m = a) (hlen : a.body.length ≤ 1440) : Opcode.answer (some o) s x m = a := by
  simp only [Opcode.answer, hform, hrole, hrun, Bool.not_true, Bool.false_eq_true, ne_eq, not_true_eq_false, if_false,
    if_neg (Nat.not_lt.2 (hlen.trans (le_msgLimit m.peer)))]

/-- A request that does nothing is answered, and changes no entry (R407). -/
theorem State.Hears.replied {o : Opcode} {st : Nat} {body : List Byte} (h : s.Hears op m x)
    (ha : Opcode.answer (some o) (s.noted op m) x m = { status := st, body := body }) :
    (s.does (request op (some o) m)).Answered op m st body ∧ s.Frame [] (s.does (request op (some o) m)) := by
  rw [does_request h ha]
  exact ⟨answered_of_hasNoted h.hasNoted _ _, (noted_frame s op m).trans (answered_frame (s.noted op m) op m _ _)⟩

end Heard

/-! ### Reads -/

theorem length_slice_le (b : List Byte) (o n : Nat) : (slice b o n).length ≤ n := by
  rw [slice, List.length_take]
  exact Nat.min_le_left ..

theorem length_blobSlice_le (s : State) (n k o l : Nat) : (s.blobSlice n k o l).length ≤ l := by
  unfold State.blobSlice
  split <;> exact length_slice_le ..

theorem readItems_one {b : List Byte} (h : leAt b 0 1 = 1) : readItems b = [keyAt b 4] := by simp [readItems, h]

/-- The head of a list of one item (Table 13-9). -/
theorem le_one_three : le 1 1 ++ le 3 0 = [1, 0, 0, 0] := by decide

theorem le_zero_three : le 1 0 ++ le 3 0 = [0, 0, 0, 0] := by decide

/-- An entry that has a row and can be read is read (R391). -/
theorem readStatus_of_row {k : Nat} {r : Row} (hr : Dict.row k = some r) (hacc : r.acc ≠ .wo) : readStatus k = St.ok := by
  simp [readStatus, hr, hacc]

/-- EVENT of the one record not yet sent moves the session past it (R427). -/
def eventSent (n q : Nat) : Effect := .session n fun y => y.map fun y => { y with sentSeq := q + 1, lost := 0 }

/-- A session whose one record is not yet sent moves past it, and sends it (R427). -/
theorem does_eventSend {s : State} {n q : Nat} {x : Session} {e : EventRec} (hx : s.session n = some x) (hserves : s.serves = true)
    (hopen : x.isOpen = true) (hring : x.ring = [(q, e)]) (hsent : x.sentSeq ≤ q) :
    ∃ msg, s.does (eventSend n) = (s.apply (eventSent n q)).does (cdlSend x.peer 0x480 n msg) := by
  have hroom : 1 ≤ recordsOf x.peer - (if x.lost = 0 then 0 else 1) := by
    have hrecords : 2 ≤ recordsOf x.peer := by
      have := le_msgLimit x.peer
      unfold recordsOf
      omega
    split <;> omega
  have hdue : (x.ring.filter fun r => decide (x.sentSeq ≤ r.1)).take (recordsOf x.peer - (if x.lost = 0 then 0 else 1)) = [(q, e)] := by
    rw [hring, List.filter_cons_of_pos (by simpa using hsent), List.filter_nil]
    exact List.take_of_length_le hroom
  have hsteps : s.does (eventSend n) = s.run (eventSend n s) := rfl
  rw [hsteps, eventSend, hx]
  simp only [hdue, hserves, hopen, Bool.not_true, Bool.false_eq_true, or_self, if_false, List.length_singleton]
  exact ⟨_, (State.does_phases_cons s _ _).trans (by rw [State.does_phases_cons, State.does_phases_nil]; rfl)⟩

/-- Events are sent from the ring and change nothing but the session's place in it (R427). -/
theorem eventSend_leaves {s : State} {n q : Nat} {x : Session} {e : EventRec} (hx : s.session n = some x) (hserves : s.serves = true)
    (hopen : x.isOpen = true) (hring : x.ring = [(q, e)]) (hsent : x.sentSeq ≤ q) :
    s.Frame [] (s.does (eventSend n)) ∧
      ∃ y, (s.does (eventSend n)).session n = some y ∧ y.sentSeq = q + 1 ∧ y.lost = 0 ∧ y.ring = x.ring := by
  obtain ⟨msg, hdoes⟩ := does_eventSend hx hserves hopen hring hsent
  have hmoves : (eventSent n q).Within [] fun _ => () := by simp [eventSent]
  have hmoved : (s.apply (eventSent n q)).session n = some { x with sentSeq := q + 1, lost := 0 } := by
    rw [eventSent, State.session_apply_session, if_pos rfl, hx]
    rfl
  have hsend := cdlSend_within (π := fun u => u.sessions) ⟨fun _ _ _ => rfl, fun _ _ => rfl⟩ x.peer 0x480 n msg (s.apply (eventSent n q))
  rw [hdoes]
  refine ⟨(hmoves.frame s).trans (hsend.frame _), { x with sentSeq := q + 1, lost := 0 }, ?_, rfl, rfl, rfl⟩
  exact (congrArg (Tbl.at none · n) (hsend.units_of_quiet (by simp) _)).trans hmoved

/-- Settles O54: each read does nothing, so that what remains is the form of its payload, and that its answer fits a message. -/
theorem readsAreAnswered : Obligations.ReadsAreAnswered := by
  refine ⟨fun s m x k hears hlen hk => ?_, fun s m x k hears hlen hone hk hst hfits => ?_,
    fun s m x k r hears hlen hk hr hacc hty hoff hfits => ?_, fun s m x hears hlen => ?_,
    fun s n q x e hx hserves hopen hring hsent => ⟨_, rfl, eventSend_leaves hx hserves hopen hring hsent⟩⟩
  · refine ⟨fun hst hfits => ⟨_, rfl, hears.replied (answer_of_passes (by simp [opRead, hlen]) rfl ?_ ?_)⟩,
      fun hst => ⟨_, rfl, hears.replied (answer_of_passes (by simp [opRead, hlen]) rfl ?_ (by simp))⟩⟩
    · simp only [opRead, ← hk]
      exact if_neg (not_not.2 hst)
    · simp
      omega
    · simp only [opRead, ← hk]
      exact if_pos hst
  · refine ⟨_, rfl, (hears.replied (answer_of_passes (by simp [opReadm, hlen, hone]) rfl ?_ ?_)).symm⟩
    · simp only [opReadm, readItems_one hone, ← hk, hst, List.length_singleton, Nat.cast_one, le_one_three, List.flatMap_singleton,
        ← List.append_assoc]
      rfl
    · simp
      omega
  · have hread := readStatus_of_row hr hacc
    refine ⟨_, rfl, (hears.replied (answer_of_passes (by simp [opBlockRead, hlen]) rfl ?_ ?_)).symm⟩
    · simp only [opBlockRead, ← hk]
      rw [if_neg (not_not.2 hread), if_neg (by simp [hr, hty]), if_neg (Nat.not_le.2 hoff)]
    · have := length_blobSlice_le (s.noted 0x14 m) m.session k (leAt m.payload 4 4) (leAt m.payload 8 2)
      simp
      omega
  · refine ⟨fun y hne hy => ⟨_, rfl, (hears.replied (answer_of_passes (by simp [opPoll, hlen]) rfl ?_ (by simp))).symm⟩,
      fun hzero hring => ⟨_, rfl, hears.replied (answer_of_passes (by simp [opPoll, hlen]) rfl ?_ (by simp))⟩⟩
    · have hkept : (s.noted 0x51 m).kept (leAt m.payload 0 2) = some y := hy
      simp only [opPoll, if_neg hne, hkept]
    · simp only [opPoll, if_pos hzero, hears.session_noted, hring, List.filter_nil, List.take_nil, List.flatMap_nil, List.append_nil]
      exact congrArg (fun b => { status := St.ok, body := b : Answer }) le_zero_three

end Sys2Proof.Machine
end

section
/-!
What a request that is heard makes of its session, beside the events that the session's ring takes (R407, R426).
-/

namespace Sys2Proof.Machine

/-! ### A session without its ring -/

/-- A session without its ring of events and the ring's counts (R426, R428). -/
def Session.core (x : Session) : Session := { x with ring := [], nextSeq := 0, sentSeq := 0, lost := 0, lostTotal := 0 }

/-- What stands in session `n` beside its ring. -/
def State.core (s : State) (n : Nat) : Option Session := (s.session n).map Session.core

@[simp] theorem Session.core_record (x : Session) (e : EventRec) : (x.record e).core = x.core := by
  simp [Session.record, Session.core]

section Core
variable {s t : State} {n : Nat}

theorem State.core_of_session {x : Session} (h : s.session n = some x) : s.core n = some x.core := congrArg (Option.map Session.core) h

theorem State.core_congr (h : t.session n = s.session n) : t.core n = s.core n := congrArg (Option.map Session.core) h

/-- A record in the rings leaves what else stands in a session (R426). -/
theorem State.core_of_record {e : EventRec} (h : t.units.sessions = recordAll s.units.sessions e) : t.core n = s.core n := by
  have hsession : t.session n = (s.session n).map fun x => if x.wants n e then x.record e else x := by
    rw [State.session, h]
    exact Tbl.at_recordAll ..
  rw [State.core, hsession, Option.map_map, State.core]
  congr 1
  funext x
  simp only [Function.comp_apply]
  split
  · exact x.core_record e
  · rfl

theorem State.core_raiseNow (s : State) (c : Nat) (a : List Byte) (j n : Nat) : (s.raiseNow c a j).core n = s.core n := by
  simp only [State.raiseNow]
  split
  · split
    · exact State.core_congr rfl
    · exact State.core_congr rfl
  · exact State.core_of_record (e := s.eventOf c a j) (by simp [State.deliver])

/-- The effect touches no session but by an event. -/
def Effect.SparesSessions : Effect → Prop
  | .unit f => ∀ u, (f u).sessions = u.sessions
  | _ => True

theorem Effect.Within.sparesSessions {ks : List Nat} {e : Effect} (h : e.Within ks fun u => u.sessions) : e.SparesSessions := by
  cases e with
  | unit f => exact h
  | _ => trivial

theorem Effect.SparesSessions.by {e : Effect} (h : e.SparesSessions) (n : Nat) : (e.by n).SparesSessions := by
  unfold Effect.by
  split
  · trivial
  · exact h

theorem State.core_apply {e : Effect} (he : e.SparesSessions) (s : State) (n : Nat) : (s.apply e).core n = s.core n := by
  cases e with
  | unit f => exact State.core_congr (congrArg (Tbl.at none · n) (he s.units))
  | raise c a j sc =>
    cases sc with
    | none => exact s.core_raiseNow c a j n
    | some sc =>
      simp only [State.apply, State.raise]
      split
      · rfl
      · exact s.core_raiseNow c a j n
  | _ => exact State.core_congr (by simp [State.session, State.apply])

/-- Effects that touch no session but by events leave what stands in it beside its ring. -/
theorem State.core_run_of_spares {es : List Effect} (hes : ∀ e ∈ es, e.SparesSessions) (s : State) (n : Nat) :
    (s.run es).core n = s.core n := by
  induction es generalizing s with
  | nil => rfl
  | cons e es ih =>
    obtain ⟨he, hes⟩ := List.forall_mem_cons.1 hes
    exact (ih hes _).trans (State.core_apply he s n)

theorem State.core_run {ks : List Nat} {es : List Effect} (hes : Confined ks (fun u => u.sessions) es) (s : State) (n : Nat) :
    (s.run es).core n = s.core n := State.core_run_of_spares (fun e he => (hes e he).sparesSessions) s n

end Core

/-- The entries that effects write, whatever they leave of the units. -/
theorem Confined.entries {α : Type} {π : Units → α} {ks : List Nat} {es : List Effect} (h : Confined ks π es) :
    Confined ks (fun _ => ()) es := by
  intro e he
  have hwithin := h e he
  cases e with
  | unit f => exact fun _ => rfl
  | _ => exact hwithin

/-! ### What a request makes of its session -/

section Heard
variable {s : State} {op : Nat} {m : CdlMsg} {x y : Session} {o : Opcode} {a : Answer}

/-- The session as a request that is heard finds it (R407). -/
def Session.notes (x : Session) (op : Nat) (m : CdlMsg) (at' : Nat) : Session :=
  { x with sLast := m.sequence, lastOp := op + 256 * m.status, lastReq := m.payload, lastAt := at' }

theorem State.Hears.notes (h : s.Hears op m x) : (s.noted op m).session m.session = some (x.notes op m s.mtbNs) := h.session_noted

/-- A request that changes entries `ks` and its session is answered, and its session stands as the request has made it. -/
theorem State.Hears.acted {ks : List Nat} (h : s.Hears op m x) (ha : Opcode.answer (some o) (s.noted op m) x m = a)
    (hdoes : Confined ks (fun _ => ()) a.does) (hy : (s.carried op m a).core m.session = some y)
    (hnotes : y.notes op m y.lastAt = y) :
    (s.does (request op (some o) m)).Answered op m a.status a.body ∧ s.Frame ks (s.does (request op (some o) m)) ∧
      ∃ z, (s.does (request op (some o) m)).session m.session = some z ∧
        z.core = { y with cacheStatus := a.status, cacheBody := a.body } := by
  obtain ⟨c, hc, rfl⟩ := Option.map_eq_some_iff.1 hy
  have hnoted : (s.carried op m a).HasNoted op m :=
    ⟨c, hc, (congrArg Session.sLast hnotes).symm, (congrArg Session.lastOp hnotes).symm, (congrArg Session.lastReq hnotes).symm⟩
  have hframe : s.Frame ks (s.carried op m a) :=
    ((noted_frame s op m).mono (List.nil_subset _)).trans ((hdoes.by m.session).frame _)
  have hkept : ((s.carried op m a).apply (keepAnswer m a)).session m.session =
      some { c with cacheStatus := a.status, cacheBody := a.body } := by
    rw [keepAnswer, State.session_apply_session, if_pos rfl, hc]
    rfl
  have hsend : Phase.Within [] (fun u => u.sessions) (respond m op m.session (some x.key) a.status a.body) :=
    cdlSend_within ⟨fun _ _ _ => rfl, fun _ _ => rfl⟩ _ _ _ _
  rw [does_request h ha]
  refine ⟨answered_of_hasNoted hnoted _ _, hframe.trans ((answered_frame _ _ _ _ _).mono (List.nil_subset _)),
    { c with cacheStatus := a.status, cacheBody := a.body }, ?_, rfl⟩
  exact (congrArg (Tbl.at none · m.session) ((hsend _).units_of_quiet (by simp) _)).trans hkept

/-- The session once a request has changed it, and what else it does has been done. -/
theorem State.Hears.core_carried {ks : List Nat} {f : Session → Session} {rest : List Effect} (h : s.Hears op m x)
    (hdoes : a.does = .session m.session (Option.map f) :: rest) (hrest : Confined ks (fun u => u.sessions) rest) :
    (s.carried op m a).core m.session = some (f (x.notes op m s.mtbNs)).core := by
  have hchanged : ((s.noted op m).apply (.session m.session (Option.map f))).session m.session = some (f (x.notes op m s.mtbNs)) := by
    rw [State.session_apply_session, if_pos rfl, h.notes]
    rfl
  rw [State.carried, hdoes, List.map_cons, State.run_cons]
  exact (State.core_run (hrest.by m.session) _ _).trans (State.core_of_session hchanged)

/-- A request that changes its session and raises events is answered, and changes no other entry. -/
theorem State.Hears.changes {ks : List Nat} {f : Session → Session} {rest : List Effect} {st : Nat} {body : List Byte}
    (h : s.Hears op m x)
    (ha : Opcode.answer (some o) (s.noted op m) x m =
      { status := st, body := body, does := .session m.session (Option.map f) :: rest })
    (hrest : Confined ks (fun u => u.sessions) rest)
    (hf : (f (x.notes op m s.mtbNs)).notes op m (f (x.notes op m s.mtbNs)).lastAt = f (x.notes op m s.mtbNs)) :
    (s.does (request op (some o) m)).Answered op m st body ∧ s.Frame ks (s.does (request op (some o) m)) ∧
      ∃ z, (s.does (request op (some o) m)).session m.session = some z ∧
        z.core = { (f (x.notes op m s.mtbNs)).core with cacheStatus := st, cacheBody := body } := by
  have hdoes : Confined ks (fun _ => ()) (.session m.session (Option.map f) :: rest) :=
    confined_cons.2 ⟨by simp, hrest.entries⟩
  exact h.acted ha hdoes (h.core_carried rfl hrest) (congrArg Session.core hf)

end Heard

/-! ### Claims -/

theorem Tbl.mem_upd {α : Type} [DecidableEq α] {d : α} {t : Tbl α} {k : Nat} {f : α → α} {p : Nat × α} (h : p ∈ Tbl.upd d t k f) :
    p.1 = k ∨ p ∈ t := by
  have hput (l : Tbl α) (v : α) : p ∈ l.put k v → p = (k, v) ∨ p ∈ l := by
    induction l with
    | nil => simp [Tbl.put]
    | cons q l ih =>
      rw [Tbl.put]
      split
      · simp
      · intro hp
        rcases List.mem_cons.1 hp with hq | hl
        · exact .inr (hq ▸ List.mem_cons_self ..)
        · exact (ih hl).imp_right (List.mem_cons_of_mem _)
  have hdrop : p ∈ t.drop k → p ∈ t := fun hp => (List.mem_filter.1 hp).1
  unfold Tbl.upd Tbl.set at h
  split at h
  · exact .inr (hdrop h)
  · exact (hput _ _ h).imp (congrArg Prod.fst) hdrop

/-- An area is free where no session that lives claims it (R421). -/
theorem areaHolder_eq_none {s : State} {a : Nat} :
    s.areaHolder a = none ↔ ∀ n ∈ s.liveSessions, ∀ x, s.session n = some x → a ∉ x.claims := by
  simp only [State.areaHolder, List.find?_eq_none]
  refine forall₂_congr fun n _ => ?_
  cases s.session n with
  | none => simp
  | some x => simp

/-- Noting a request frees no area and takes none. -/
theorem areaHolder_noted {s : State} {op a : Nat} {m : CdlMsg} {x : Session} (h : s.Hears op m x) (hclaims : x.claims = [])
    (ha : s.areaHolder a = none) : (s.noted op m).areaHolder a = none := by
  refine areaHolder_eq_none.2 fun n hn y hy => ?_
  by_cases heq : n = m.session
  · rw [heq, h.notes] at hy
    cases hy
    simp [Session.notes, hclaims]
  · have hsession : (s.noted op m).session n = s.session n :=
      (State.session_apply_session (s.apply (canTake m)) m.session n _).trans (if_neg (Ne.symm heq))
    obtain ⟨p, hp, rfl⟩ := List.mem_map.1 hn
    obtain ⟨hmem, hlive⟩ := List.mem_filter.1 hp
    refine areaHolder_eq_none.1 ha p.1 (List.mem_map.2 ⟨p, List.mem_filter.2 ⟨?_, hlive⟩, rfl⟩) y (hsession ▸ hy)
    exact (Tbl.mem_upd hmem).resolve_left heq

/-! ### The requests -/

section Requests
variable {s : State} {m : CdlMsg} {x : Session}

theorem writers_of_pos {role : Nat} (h : 1 ≤ role) (b : List Byte) : writers role b = St.ok := if_neg (by omega)

/-- STAGE of one item that passes opens a transaction (R415). -/
theorem stage_changes {k : Nat} {t' : Ty} {v : Value} (h : s.Hears 0x20 m x) (hrole : 1 ≤ x.role) (htxn : x.txn = none)
    (hitems : writeItems m.payload = some [(k, t', v)])
    (hhead : firstFault ((s.noted 0x20 m).headFaults ⟨m.session, x.role⟩ k (some t') v) = St.ok)
    (hacc : (Dict.row k).map (·.acc) ≠ some .wo) (hbytes : stageBytes [(k, v)] ≤ 65536) :
    Opcode.answer (some opStage) (s.noted 0x20 m) x m = {
      status := St.ok, body := [1, 0, 0, 0] ++ le 4 (stageBytes [(k, v)]) ++ le 1 St.ok,
      does := [.session m.session (Option.map fun x => { x with txn := some [(k, v)] })] } := by
  have hopen : (s.noted 0x20 m).txn m.session = none := by
    rw [State.txn, h.notes]
    exact htxn
  have hone : stageOne ⟨m.session, x.role⟩ (k, t', v) (s.noted 0x20 m) =
      (St.ok, 0, [.session m.session (Option.map fun x => { x with txn := some [(k, v)] })]) := by
    simp only [stageOne, hhead, hopen, Option.getD_none, stageItem, List.any_nil, Bool.false_eq_true, if_false, List.nil_append,
      if_neg hacc, if_neg (Nat.not_lt.2 hbytes), ne_eq, not_true_eq_false]
  have hstaged : ((s.noted 0x20 m).run [.session m.session (Option.map fun x => { x with txn := some [(k, v)] })]).txn m.session =
      some [(k, v)] := by
    rw [State.run_cons, State.run_nil, State.txn, State.session_apply_session, if_pos rfl, h.notes]
    rfl
  refine answer_of_passes (by simp [opStage, hitems]) (if_pos (Nat.one_le_iff_ne_zero.1 hrole)) ?_ (by simp)
  simp only [opStage, h.writerOf, hitems, Option.getD_some, eachItem, hone, List.append_nil, hstaged, List.length_singleton, Nat.cast_one,
    le_one_three, List.flatMap_singleton]
  rfl

/-- COMMIT of a transaction that passes makes it pending for the next boundary (R416). -/
theorem commit_changes {items : List (Nat × Value)} (h : s.Hears 0x21 m x) (hrole : 1 ≤ x.role) (hlen : m.payload.length = 12)
    (htime : leAt m.payload 0 8 = 0) (htxn : x.txn = some items) (hcommit : x.commit = none) (hxfer : x.xfer = none)
    (hpasses : (s.noted 0x21 m).commitFault ⟨m.session, x.role⟩ items s.nextBoundary false = none) :
    Opcode.answer (some opCommit) (s.noted 0x21 m) x m = {
      status := St.ok, body := commitBody s.nextBoundary 0,
      does := [.session m.session (Option.map fun y => { y with
        txn := none,
        commit := some {
          time := s.nextBoundary, untimed := true, strict := (leAt m.payload 8 1).testBit 0, late := false, items := items,
          role := x.role } })] } := by
  have hboundary : (s.noted 0x21 m).nextBoundary = s.nextBoundary := rfl
  refine answer_of_passes (by simp [opCommit, hlen]) (writers_of_pos hrole m.payload) ?_ (by simp [commitBody])
  simp only [opCommit, State.commitAnswer, h.notes, Session.notes, htxn, hcommit, Session.rwsTransfer, hxfer, htime,
    State.timedBoundary, hboundary, h.writerOf, hpasses, Option.isSome_none, Bool.false_eq_true, if_false, if_true]
  rfl

/-- ABORT of a transaction that is open discards it (R418). -/
theorem abort_changes (h : s.Hears 0x22 m x) (hrole : 1 ≤ x.role) (hpayload : m.payload = []) (htxn : x.txn.isSome = true)
    (hcommit : x.commit = none) :
    Opcode.answer (some opAbort) (s.noted 0x22 m) x m = {
      status := St.ok, body := [], does := [.session m.session (Option.map fun y => { y with txn := none, commit := y.commit })] } := by
  have hopen : x.txn.isNone = false := by simpa using htxn
  refine answer_of_passes (by simp [opAbort, hpayload]) (writers_of_pos hrole m.payload) ?_ (by simp)
  simp only [opAbort, h.notes, Session.notes, hcommit, hopen, Bool.false_eq_true, false_and, if_false]

/-- CLAIM of a free area (R421). -/
theorem claim_changes {a : Nat} (h : s.Hears 0x30 m x) (hrole : 2 ≤ x.role) (hlen : m.payload.length = 4) (ha : a = leAt m.payload 0 1)
    (hclaimable : claimable a = true) (hfree : s.areaHolder a = none) (hclaims : x.claims = []) :
    Opcode.answer (some opClaim) (s.noted 0x30 m) x m = {
      status := St.ok, body := [],
      does := .session m.session (Option.map fun y => { y with claims := y.claims ++ [a] }) ::
        [.raise Ev.AREA_CLAIMED (args16 [a, m.session]) m.session none] } := by
  have hheld := areaHolder_noted h hclaims hfree
  refine answer_of_passes (by simp [opClaim, hlen]) (if_neg (by omega)) ?_ (by simp)
  simp only [opClaim, ← ha, h.notes, Session.notes, hclaims, hclaimable, hheld, Bool.not_true, Bool.false_eq_true, if_false,
    List.contains_nil, List.length_nil, Option.isSome_none]
  rfl

/-- SUBSCRIBE of a session's first range (R426). -/
theorem subscribe_changes {lo hi : Nat} (h : s.Hears 0x40 m x) (hlen : m.payload.length = 8) (hone : leAt m.payload 0 1 = 1)
    (hlo : lo = leAt m.payload 4 2) (hhi : hi = leAt m.payload 6 2) (hle : lo ≤ hi) (hranges : x.ranges = []) :
    Opcode.answer (some opSubscribe) (s.noted 0x40 m) x m = {
      status := St.ok, body := le 4 x.nextSeq, does := [.session m.session (Option.map fun y => { y with ranges := [(lo, hi)] })] } := by
  have hasked : rangesOf m.payload = [(lo, hi)] := by simp [rangesOf, hone, hlo, hhi]
  refine answer_of_passes (by simp [opSubscribe, rangeForm, hlen, hone]) rfl ?_ (by simp)
  simp only [opSubscribe, State.rangesAnswer, h.notes, Session.notes, hasked, hranges]
  exact if_neg (by simp [rangesAdd, hle])

/-- UNSUBSCRIBE of no range is one of every range (R426). -/
theorem unsubscribe_changes (h : s.Hears 0x41 m x) (hlen : m.payload.length = 4) (hzero : leAt m.payload 0 1 = 0) :
    Opcode.answer (some opUnsubscribe) (s.noted 0x41 m) x m = {
      status := St.ok, body := [], does := [.session m.session (Option.map fun y => { y with ranges := [] })] } := by
  have hasked : rangesOf m.payload = [] := by simp [rangesOf, hzero]
  refine answer_of_passes (by simp [opUnsubscribe, rangeForm, hlen, hzero]) rfl ?_ (by simp)
  simp only [opUnsubscribe, State.rangesAnswer, h.notes, hasked]
  exact if_neg (by simp [rangesLess])

/-- RELEASE ends a claim, where the session holds it (R422). -/
theorem State.Hears.released {a : Nat} (h : s.Hears 0x31 m x) (hlen : m.payload.length = 4) (ha : a = leAt m.payload 0 1) (hne : a ≠ 0) :
    (s.does (request 0x31 (some opRelease) m)).Answered 0x31 m St.ok [] ∧
      s.Frame [Key.evt.EVT_RAISED] (s.does (request 0x31 (some opRelease) m)) ∧
      ∃ y, (s.does (request 0x31 (some opRelease) m)).session m.session = some y ∧ y.claims = x.claims.filter fun b => b != a := by
  have hrun {es : List Effect} (hes : areaRelease m.session a (s.noted 0x31 m) = es) :
      Opcode.answer (some opRelease) (s.noted 0x31 m) x m = { status := St.ok, body := [], does := es } :=
    answer_of_passes (by simp [opRelease, hlen]) rfl (by simp only [opRelease, ← ha, if_neg hne, hes]) (by simp)
  by_cases hclaims : a ∈ x.claims
  · have hes : areaRelease m.session a (s.noted 0x31 m) =
        .session m.session (Option.map fun y => { y with claims := y.claims.filter fun b => b != a }) ::
          [.event Ev.AREA_RELEASED (args16 [a, m.session])] := by
      simp [areaRelease, h.notes, Session.notes, hclaims]
    obtain ⟨hanswered, hframe, z, hz, hcore⟩ := h.changes (ks := [Key.evt.EVT_RAISED]) (hrun hes) (by simp) rfl
    exact ⟨hanswered, hframe, z, hz, congrArg Session.claims hcore⟩
  · have hes : areaRelease m.session a (s.noted 0x31 m) = [] := by simp [areaRelease, h.notes, Session.notes, hclaims]
    obtain ⟨hanswered, hframe, z, hz, hcore⟩ := h.acted (ks := [Key.evt.EVT_RAISED]) (hrun hes) .nil (State.core_of_session h.notes) rfl
    refine ⟨hanswered, hframe, z, hz, (congrArg Session.claims hcore).trans (List.filter_eq_self.2 fun b hb => ?_).symm⟩
    have hother : b ≠ a := fun heq => hclaims (heq ▸ hb)
    simpa using hother

/-- CANCEL marks an analysis, which ends at its safe point (R424, log 72). -/
theorem State.Hears.cancelled {h : Nat} {y : Handle} (hears : s.Hears 0x52 m x) (hrole : 2 ≤ x.role) (hlen : m.payload.length = 4)
    (hh : h = leAt m.payload 0 2) (hkept : s.kept h = some y) (hy : s.handle h = some y) (hruns : y.finished = false)
    (hop : isAnalysis y.op = true) :
    (s.does (request 0x52 (some opCancel) m)).Answered 0x52 m St.ok [] ∧ s.Frame [] (s.does (request 0x52 (some opCancel) m)) ∧
      ∃ z, (s.does (request 0x52 (some opCancel) m)).handle h = some z ∧ z.ending = some St.cancelled ∧ z.finished = false := by
  have hfound : (s.noted 0x52 m).kept h = some y := hkept
  have hcompletes : (s.noted 0x52 m).completesNow y = false := by
    have hcode : 0x0910 ≤ y.op ∧ y.op ≤ 0x0914 := by simpa [isAnalysis] using hop
    have hrestore : (y.op == 0x0B30) = false := beq_false_of_ne (by omega)
    have hactivate : (y.op == 0x0B21) = false := beq_false_of_ne (by omega)
    simp [State.completesNow, hrestore, hactivate]
  have hmark : cancelRun h y (s.noted 0x52 m) =
      [.handle h (Option.map fun y => { y with ending := some St.cancelled, endingAt := s.mtbNs })] := if_pos hop
  have ha : Opcode.answer (some opCancel) (s.noted 0x52 m) x m = {
      status := St.ok, body := [],
      does := [.handle h (Option.map fun y => { y with ending := some St.cancelled, endingAt := s.mtbNs })] } := by
    refine answer_of_passes (by simp [opCancel, hlen]) (writers_of_pos (by omega) m.payload) ?_ (by simp)
    have hoperator : ¬ (x.role = 1 ∧ y.session ≠ m.session) := by omega
    simp only [opCancel, ← hh, hfound, hears.writerOf, if_neg hoperator, hruns, hcompletes, Bool.or_self, Bool.false_eq_true, if_false,
      hmark]
  have hdoes : Confined [] (fun u : Units => u.sessions)
      [.handle h (Option.map fun y : Handle => { y with ending := some St.cancelled, endingAt := s.mtbNs })] := by simp
  obtain ⟨hanswered, hframe, -⟩ := hears.acted ha hdoes.entries
    ((State.core_run (hdoes.by m.session) _ _).trans (State.core_of_session hears.notes)) rfl
  refine ⟨hanswered, hframe, { y with ending := some St.cancelled, endingAt := s.mtbNs }, ?_, rfl, hruns⟩
  have hsent := answered_units (π := fun u => u.handles)
    ⟨⟨fun _ _ _ => rfl, fun _ _ => rfl⟩, fun _ _ _ _ _ _ => rfl, fun _ _ _ => rfl⟩ (s.carried 0x52 m {
      status := St.ok, body := [],
      does := [.handle h (Option.map fun y => { y with ending := some St.cancelled, endingAt := s.mtbNs })] }) 0x52 m {
      status := St.ok, body := [],
      does := [.handle h (Option.map fun y => { y with ending := some St.cancelled, endingAt := s.mtbNs })] } (some x.key)
  rw [does_request hears ha]
  refine (congrArg (Tbl.at none · h) hsent).trans ?_
  refine (State.handle_apply_handle (s.noted 0x52 m) h h _).trans ?_
  have hnoted : (s.noted 0x52 m).handle h = some y := hy
  rw [if_pos rfl, hnoted]
  rfl

end Requests

/-- Settles O56: each request changes only its own session or the record of a handle, before it is answered. -/
theorem transactionsClaimsAndSubscriptions : Obligations.TransactionsClaimsAndSubscriptions := by
  refine ⟨fun s m x k t' v h hrole htxn hitems hhead hacc hbytes => ?_,
    fun s m x items h hrole hlen htime htxn hcommit hxfer hpasses => ?_, fun s m x h hrole hpayload htxn hcommit => ?_,
    fun s m x a h hrole hlen ha hclaimable hfree hclaims => ?_, fun s m x a h hlen ha hne => ⟨_, rfl, h.released hlen ha hne⟩,
    fun s m x lo hi h hlen hone hlo hhi hle hranges => ?_, fun s m x h hlen hzero => ?_,
    fun s m x h y hears hrole hlen hh hkept hy hruns hop => ⟨_, rfl, hears.cancelled hrole hlen hh hkept hy hruns hop⟩⟩
  · obtain ⟨hanswered, hframe, z, hz, hcore⟩ := h.changes (stage_changes h hrole htxn hitems hhead hacc hbytes) .nil rfl
    exact ⟨_, rfl, hanswered, hframe, z, hz, (congrArg Session.txn hcore :)⟩
  · obtain ⟨hanswered, hframe, z, hz, hcore⟩ := h.changes (commit_changes h hrole hlen htime htxn hcommit hxfer hpasses) .nil rfl
    exact ⟨_, rfl, hanswered, hframe, z, _, hz, (congrArg Session.txn hcore :), (congrArg Session.commit hcore :), rfl, rfl, rfl⟩
  · obtain ⟨hanswered, hframe, z, hz, hcore⟩ := h.changes (abort_changes h hrole hpayload htxn hcommit) .nil rfl
    exact ⟨_, rfl, hanswered, hframe, z, hz, (congrArg Session.txn hcore :)⟩
  · obtain ⟨hanswered, hframe, z, hz, hcore⟩ := h.changes (ks := [Key.evt.EVT_RAISED])
      (claim_changes h hrole hlen ha hclaimable hfree hclaims) (by simp) rfl
    refine ⟨_, rfl, hanswered, hframe, z, hz, ?_⟩
    have hadded : z.claims = x.claims ++ [a] := congrArg Session.claims hcore
    rw [hadded, hclaims, List.nil_append]
  · obtain ⟨hanswered, hframe, z, hz, hcore⟩ := h.changes (subscribe_changes h hlen hone hlo hhi hle hranges) .nil rfl
    exact ⟨_, rfl, hanswered, hframe, z, hz, (congrArg Session.ranges hcore :)⟩
  · obtain ⟨hanswered, hframe, z, hz, hcore⟩ := h.changes (unsubscribe_changes h hlen hzero) .nil rfl
    exact ⟨_, rfl, hanswered, hframe, z, hz, (congrArg Session.ranges hcore :)⟩

end Sys2Proof.Machine
end

section
/-!
How sessions open (R403, R405, R408, R409), and messages that no request is (R406).
-/

namespace Sys2Proof.Machine

/-! ### Messages that the device receives -/

section Received
variable {s : State} {m : CdlMsg} {x : Session}

/-- A sound message is taken from its controller and handled (R406). -/
theorem does_receive {p : Phase} (hserves : s.serves = true) (hsound : soundMsg m = true) :
    s.does (receive m p) = (s.apply (canTake m)).does p := by
  have hsteps : s.does (receive m p) = s.run (receive m p s) := rfl
  rw [hsteps, receive, hserves, hsound]
  refine Eq.trans (State.does_phases_cons s _ _) ?_
  rw [State.does_phases_cons, State.does_phases_nil]
  rfl

theorem canTake_frame (s : State) (m : CdlMsg) : s.Frame [] (s.apply (canTake m)) := by
  have htake : (canTake m).Within [] fun _ => () := by simp [canTake]
  exact htake.frame s

theorem respond_frame (s : State) (op n : Nat) (key : Option (List Byte)) (st : Nat) (body : List Byte) :
    s.Frame [] (s.does (respond m op n key st body)) :=
  (cdlSend_within (π := fun _ => ()) ⟨fun _ _ _ => rfl, fun _ _ => rfl⟩ _ _ _ _).frame s

theorem respond_units {α : Type} {π : Units → α} (h : SendBlind π) (s : State) (op n : Nat) (key : Option (List Byte)) (st : Nat)
    (body : List Byte) : π (s.does (respond m op n key st body)).units = π s.units :=
  (cdlSend_within h _ _ _ _ s).units_of_quiet (by simp) s

theorem respond_session (s : State) (op n : Nat) (key : Option (List Byte)) (st : Nat) (body : List Byte) (j : Nat) :
    (s.does (respond m op n key st body)).session j = s.session j :=
  congrArg (Tbl.at none · j) (respond_units (π := fun u => u.sessions) ⟨fun _ _ _ => rfl, fun _ _ => rfl⟩ s op n key st body)

/-! ### HELLO -/

/-- The pending session that HELLO makes under a role's key (R405, R408). -/
def State.pendingSession (s : State) (m : CdlMsg) (k : List Byte) : Session :=
  let d := (List.range 16).map (Config.freeByte s.units.free)
  { role := leAt m.payload 0 1, peer := m.peer, nonceC := slice m.payload 4 16, nonceD := d,
    key := sessionKey k (slice m.payload 4 16) d s.nextSession (leAt m.payload 0 1), lastAt := s.mtbNs }

/-- What HELLO makes (R408). -/
def State.helloEffects (s : State) (m : CdlMsg) (k : List Byte) : List Effect :=
  [.draws 1, .mgmt fun x => { x with sessCtr := s.nextSession }, .session s.nextSession fun _ => some (s.pendingSession m k)]

theorem does_hello {k : List Byte} (hlen : m.payload.length = 20) (hrole : leAt m.payload 0 1 ≤ 3)
    (hkey : s.roleKey (leAt m.payload 0 1) m.peer = some k) (hlocked : s.lockedOut m.peer = false) (hroom : s.liveSessions.length < 32) :
    ∃ body, s.does (hello m) = (s.run (s.helloEffects m k)).does (respond m 0x01 s.nextSession none St.ok body) := by
  have hsteps : s.does (hello m) = s.run (hello m s) := rfl
  rw [hsteps, hello]
  simp only [if_neg (show ¬ (m.payload.length ≠ 20 ∨ 3 < leAt m.payload 0 1) by omega), hkey, hlocked, Bool.false_eq_true, if_false,
    if_neg (Nat.not_le.2 hroom)]
  exact ⟨_, (State.does_phases_cons s _ _).trans (by rw [State.does_phases_cons, State.does_phases_nil]; rfl)⟩

/-- HELLO makes a pending session, and changes no entry (R405, R408). -/
theorem hello_leaves {k : List Byte} (hlen : m.payload.length = 20) (hrole : leAt m.payload 0 1 ≤ 3)
    (hkey : s.roleKey (leAt m.payload 0 1) m.peer = some k) (hlocked : s.lockedOut m.peer = false) (hroom : s.liveSessions.length < 32) :
    (s.does (hello m)).units.mgmt.sessCtr = s.nextSession ∧ s.Frame [] (s.does (hello m)) ∧
      (s.does (hello m)).session s.nextSession = some (s.pendingSession m k) := by
  obtain ⟨body, hdoes⟩ := does_hello hlen hrole hkey hlocked hroom
  have hmade : Confined [] (fun _ => ()) (s.helloEffects m k) := by simp [State.helloEffects, Effect.draws]
  have hcounted : (s.run (s.helloEffects m k)).units.mgmt.sessCtr = s.nextSession := rfl
  rw [hdoes]
  refine ⟨?_, (hmade.frame s).trans (respond_frame _ _ _ _ _ _), ?_⟩
  · exact (respond_units (π := fun u => u.mgmt.sessCtr) ⟨fun _ _ _ => rfl, fun _ _ => rfl⟩ _ _ _ _ _ _).trans hcounted
  · rw [respond_session]
    exact (State.session_apply_session ..).trans (if_pos rfl)

/-! ### AUTH -/

/-- What AUTH to a pending session does (R408). -/
theorem does_auth (hserves : s.serves = true) (hsound : soundMsg m = true) (hx : s.session m.session = some x) (hended : x.ended = false)
    (hpending : x.isOpen = false) (hpeer : samePeer x.peer m.peer = true) :
    s.does (request 0x02 (some opAuth) m) = (s.apply (canTake m)).does (authPending m x
      (m.tag == cdlTag x.key (cdlHeader 0 m.session m.sequence 2 m.status m.payload.length) m.payload)) := by
  have htaken : (s.apply (canTake m)).session m.session = some x := hx
  have hlive : (some x).filter (fun x => !x.ended && samePeer x.peer m.peer && (x.isOpen || (0x02 : Nat) == 2)) = some x := by
    simp [hended, hpeer]
  rw [request, does_receive hserves hsound, State.does, gateSession, htaken, hlive]
  simp only [hpending, Bool.not_false, if_true]
  rfl

/-- The session that a sound AUTH opens (R408). -/
def Session.opened (x : Session) (m : CdlMsg) (at' : Nat) : Session :=
  { x with
    isOpen := true, sLast := m.sequence, lastOp := 2 + 256 * m.status, lastReq := [], cacheStatus := St.ok, cacheBody := [], lastAt := at' }

theorem authPending_opens (hx : s.session m.session = some x) (hpayload : m.payload = []) (hseq : 1 ≤ m.sequence) :
    s.Frame [Key.evt.EVT_RAISED] (s.does (authPending m x true)) ∧
      (s.does (authPending m x true)).core m.session = some (x.opened m s.mtbNs).core := by
  have hsteps : s.does (authPending m x true) = s.run (authPending m x true s) := rfl
  have hquiet : Confined [Key.evt.EVT_RAISED] (fun u : Units => u.sessions)
      [.raise Ev.SESSION_OPENED (args16 [m.session, x.role]) m.session none] := by simp
  have hchange : (Effect.session m.session fun y => y.map fun y => y.opened m s.mtbNs).Within [Key.evt.EVT_RAISED] fun _ => () := by simp
  have hopened : (s.apply (.session m.session fun y => y.map fun y => y.opened m s.mtbNs)).session m.session =
      some (x.opened m s.mtbNs) := by
    rw [State.session_apply_session, if_pos rfl, hx]
    rfl
  have hdoes : s.does (authPending m x true) = ((s.apply (.session m.session fun y => y.map fun y => y.opened m s.mtbNs)).run
      [.raise Ev.SESSION_OPENED (args16 [m.session, x.role]) m.session none]).does
        (respond m 0x02 m.session (some x.key) St.ok []) := by
    rw [hsteps, authPending, if_pos ⟨rfl, hpayload, hseq⟩]
    exact (State.does_phases_cons s _ _).trans (by rw [State.does_phases_cons, State.does_phases_nil]; rfl)
  rw [hdoes]
  refine ⟨((hchange.frame s).trans (hquiet.entries.frame _)).trans ((respond_frame _ _ _ _ _ _).mono (List.nil_subset _)), ?_⟩
  exact (State.core_congr (respond_session _ _ _ _ _ _ _)).trans ((State.core_run hquiet _ _).trans (State.core_of_session hopened))

/-- A failed AUTH frees the session and is counted (R408, R409). -/
theorem authPending_fails :
    s.Frame [Key.ses.AUTH_FAILURES, Key.evt.EVT_RAISED] (s.does (authPending m x false)) ∧
      (s.does (authPending m x false)).core m.session = none ∧
      (s.does (authPending m x false)).num Key.ses.AUTH_FAILURES = (s.num Key.ses.AUTH_FAILURES + 1) % 2 ^ 32 := by
  have hsteps : s.does (authPending m x false) = s.run (authPending m x false s) := rfl
  obtain ⟨rest, hfailed, hrest⟩ : ∃ rest, authFailed m.session x.peer s =
      .session m.session (fun _ => none) :: .bump Key.ses.AUTH_FAILURES 1 :: rest ∧
        Confined [Key.evt.EVT_RAISED] (fun u : Units => u.sessions) rest := ⟨_, rfl, by simp⟩
  have hdoes : s.does (authPending m x false) =
      (((s.apply (.session m.session fun _ => none)).apply (.bump Key.ses.AUTH_FAILURES 1)).run rest).does
        (respond m 0x02 m.session none St.auth []) := by
    rw [hsteps, authPending, if_neg (by simp)]
    refine (State.does_phases_cons s _ _).trans ?_
    rw [State.does_phases_cons, State.does_phases_nil]
    exact congrArg (fun es => (s.run es).does (respond m 0x02 m.session none St.auth [])) hfailed
  have hfreed : Confined [Key.ses.AUTH_FAILURES, Key.evt.EVT_RAISED] (fun _ => ())
      [.session m.session (fun _ => none), .bump Key.ses.AUTH_FAILURES 1] := by simp
  have hnone : ((s.apply (.session m.session fun _ => none)).apply (.bump Key.ses.AUTH_FAILURES 1)).core m.session = none :=
    (State.core_apply (e := .bump Key.ses.AUTH_FAILURES 1) trivial _ _).trans
      (congrArg (Option.map Session.core) ((State.session_apply_session ..).trans (if_pos rfl)))
  rw [hdoes]
  refine ⟨((hfreed.frame s).trans ((hrest.entries.mono (by simp)).frame _)).trans ((respond_frame _ _ _ _ _ _).mono (List.nil_subset _)),
    (State.core_congr (respond_session _ _ _ _ _ _ _)).trans ((State.core_run hrest _ _).trans hnone), ?_⟩
  rw [(respond_frame _ _ _ _ _ _).num (by simp), (hrest.entries.frame _).num (by decide)]
  exact State.num_bump _ (by decide +kernel)

end Received

/-! ### A request whose opcode is unknown -/

/-- An opcode that no payload is in the form of: it is answered as an unknown one. -/
def opNone : Opcode where
  form := fun _ => false
  role := anyRole
  run := fun _ _ _ => refuse St.range

theorem request_none (op : Nat) (m : CdlMsg) : request op none m = request op (some opNone) m := rfl

/-- Settles O53: what HELLO and AUTH do is one list of effects and a response; an unknown opcode is answered like one whose payload
no form fits. -/
theorem sessionsOpen : Obligations.SessionsOpen := by
  refine ⟨fun s m k hserves hsound hlen hrole hkey hlocked hroom => ?_, fun s m x hserves hsound hx hended hpending hpeer hpayload hseq => ?_,
    fun s transport b hserves hbad => ?_, fun s m x op hlt hop h => ?_⟩
  · obtain ⟨hctr, hframe, hmade⟩ := hello_leaves (s := s.apply (canTake m)) hlen hrole hkey hlocked hroom
    refine ⟨_, congrArg Host.Outcome.next (does_receive hserves hsound), hctr, (canTake_frame s m).trans hframe, _, hmade, ?_⟩
    exact ⟨rfl, rfl, rfl, rfl, rfl, by simp [State.pendingSession], rfl, rfl⟩
  · have hdoes := does_auth hserves hsound hx hended hpending hpeer
    rw [hpayload, List.length_nil] at hdoes
    refine ⟨fun htag => ?_, fun htag => ?_⟩
    · obtain ⟨hframe, hcore⟩ := authPending_opens (s := s.apply (canTake m)) hx hpayload hseq
      rw [beq_iff_eq.2 htag] at hdoes
      obtain ⟨y, hy, hopened⟩ := Option.map_eq_some_iff.1 hcore
      exact ⟨_, congrArg Host.Outcome.next hdoes, ((canTake_frame s m).mono (List.nil_subset _)).trans hframe, y, hy,
        (congrArg Session.isOpen hopened :), (congrArg Session.role hopened :), (congrArg Session.sLast hopened :),
        (congrArg Session.cacheStatus hopened :)⟩
    · obtain ⟨hframe, hcore, hcount⟩ := authPending_fails (s := s.apply (canTake m)) (m := m) (x := x)
      rw [beq_false_of_ne htag] at hdoes
      exact ⟨_, congrArg Host.Outcome.next hdoes, Option.map_eq_none_iff.1 hcore, hcount,
        ((canTake_frame s m).mono (List.nil_subset _)).trans hframe⟩
  · have hsteps : s.does (malformed transport b) = (s.apply (.can fun x =>
        if transport = 2 then { x with assembled := x.assembled.tail } else x)).apply (.bump Key.ses.MALFORMED_MSGS 1) := by
      have hphase : s.does (malformed transport b) = s.run (malformed transport b s) := rfl
      rw [hphase, malformed, if_neg (by simp [hserves, hbad])]
      rfl
    refine ⟨_, congrArg Host.Outcome.next hsteps, State.num_bump _ (by decide +kernel), ?_⟩
    have hcount : Confined [Key.ses.MALFORMED_MSGS] (fun _ => ()) [.can fun x =>
        if transport = 2 then { x with assembled := x.assembled.tail } else x, .bump Key.ses.MALFORMED_MSGS 1] := by simp
    exact hcount.frame s
  · have hexec : unknownRequest op m = request op (some opNone) m := by
      have hexec : op ≠ 0x50 := fun heq => hop (heq ▸ by decide)
      rw [unknownRequest, if_neg (fun h => hexec h.1), if_neg (by simpa using ⟨hop, hlt⟩), request_none]
    have hreply : Opcode.answer (some opNone) (s.noted op m) x m = { status := St.range, body := [] } := rfl
    exact ⟨_, congrArg (fun p => s.goes p) hexec, h.replied hreply⟩

end Sys2Proof.Machine
end

section
/-!
What times out or is cleared: sessions, transfers, lockouts, handle records, role keys and claims (R402, R408-R410, R414, R422,
R423, R477).
-/

namespace Sys2Proof.Machine

section Timeouts
variable {s : State} {n : Nat} {x : Session}

/-- A session that nothing holds ends (R410). -/
theorem sessionEnd_leaves (cause : Nat) (hx : s.session n = some x) (hended : x.ended = false) (hcommit : x.commit = none)
    (hown : x.ownCommits = []) :
    s.Frame [Key.evt.EVT_RAISED] (s.does (sessionEnd n cause)) ∧ (s.does (sessionEnd n cause)).session n = none := by
  have hends : sessionEnd n cause s = .session n (fun _ => none) ::
      ((x.claims.map fun a => .event Ev.AREA_RELEASED (args16 [a, n])) ++ [.event Ev.SESSION_CLOSED (args16 [n, cause])]) := by
    rw [sessionEnd, hx]
    simp only [hended, hcommit, hown, Bool.false_eq_true, if_false, Option.isSome_none, List.isEmpty_nil, Bool.not_true,
      Bool.or_self, List.cons_append]
  have hrest : Confined [Key.evt.EVT_RAISED] (fun u : Units => u.sessions)
      ((x.claims.map fun a => .event Ev.AREA_RELEASED (args16 [a, n])) ++ [.event Ev.SESSION_CLOSED (args16 [n, cause])]) := by simp
  have hfree : (Effect.session n fun _ => none).Within [Key.evt.EVT_RAISED] fun _ => () := by simp
  have hfreed : (s.apply (.session n fun _ => none)).session n = none := (State.session_apply_session ..).trans (if_pos rfl)
  rw [State.does, hends, State.run_cons]
  exact ⟨(hfree.frame s).trans (hrest.entries.frame _),
    Option.map_eq_none_iff.1 ((State.core_run hrest _ n).trans (congrArg (Option.map Session.core) hfreed))⟩

theorem does_sessionTimeout (hx : s.session n = some x) (hserves : s.serves = true) (hopen : x.isOpen = true)
    (hidle : s.expired x.lastAt (s.nat Key.ses.SESSION_TIMEOUT * 1000000000) = true) :
    s.does (sessionTimeout n) = s.does (sessionEnd n 0) := by
  have hphase : sessionTimeout n s = sessionEnd n 0 s := by
    rw [sessionTimeout, hx]
    exact if_pos ⟨hserves, hopen, hidle⟩
  rw [State.does, hphase, State.does]

theorem does_pendingExpiry (hx : s.session n = some x) (hserves : s.serves = true) (hpending : x.isOpen = false)
    (hended : x.ended = false) (hold : s.expired x.lastAt 5000000000 = true) :
    s.does (pendingExpiry n) = s.apply (.session n fun _ => none) := by
  have hphase : pendingExpiry n s = [.session n fun _ => none] := by
    rw [pendingExpiry, hx]
    exact if_pos ⟨hserves, by rw [hpending]; rfl, by rw [hended]; rfl, hold⟩
  rw [State.does, hphase]
  rfl

theorem does_transferTimeout {y : Transfer} (hx : s.session n = some x) (hserves : s.serves = true) (hy : x.xfer = some y)
    (hold : s.expired y.lastAt 10000000000 = true) :
    s.does (transferTimeout n) = s.apply (.session n fun z => z.map fun z => { z with xfer := none }) := by
  have hopen : (s.session n).bind (·.xfer) = some y := by rw [hx, Option.bind_some, hy]
  have hphase : transferTimeout n s = [.session n fun z => z.map fun z => { z with xfer := none }] := by
    rw [transferTimeout, hopen]
    exact if_pos ⟨hserves, hold⟩
  rw [State.does, hphase]
  rfl

theorem session_effect_frame (s : State) (n : Nat) (f : Option Session → Option Session) : s.Frame [] (s.apply (.session n f)) :=
  Effect.Within.frame (π := fun _ => ()) (by simp) s

end Timeouts

/-! ### Clears -/

/-- Lockouts stand, and their class is cleared: every lockout goes, counted once (R477). -/
theorem fenceClear_lockouts {s : State} (h : s.units.mgmt.lockouts ≠ []) (n : Nat) :
    (s.does (causedBy n (fenceClear 1 9 0xFFFF))).units.mgmt.lockouts = [] ∧
      (s.does (causedBy n (fenceClear 1 9 0xFFFF))).num Key.fence.CLEARS = (s.num Key.fence.CLEARS + 1) % 2 ^ 32 ∧
      s.Frame [Key.fence.CLEARS, Key.evt.EVT_RAISED] (s.does (causedBy n (fenceClear 1 9 0xFFFF))) := by
  have hnames : s.clearNames 9 0xFFFF = [0xFFFF] := by
    rw [State.clearNames, if_pos rfl, State.fencedOf, if_neg (by simpa using h)]
  obtain ⟨a, ha⟩ : ∃ a, fenceClear 1 9 0xFFFF s =
      [.mgmt fun m => { m with lockouts := [], fails := [] }, .bump Key.fence.CLEARS 1, .event Ev.FENCE_CLEARED a] := by
    unfold fenceClear
    rw [hnames]
    exact ⟨_, rfl⟩
  have hevent : Confined [Key.evt.EVT_RAISED] (fun u : Units => u.mgmt.lockouts) [.event Ev.FENCE_CLEARED a] := by simp
  have hall : Confined [Key.fence.CLEARS, Key.evt.EVT_RAISED] (fun _ => ()) (fenceClear 1 9 0xFFFF s) := by simp [ha]
  have hdoes : s.does (causedBy n (fenceClear 1 9 0xFFFF)) =
      ((s.apply (.mgmt fun m => { m with lockouts := [], fails := [] })).apply (.bump Key.fence.CLEARS 1)).run
        ([.event Ev.FENCE_CLEARED a].map (Effect.by n)) := by
    rw [State.does, causedBy, ha]
    rfl
  refine ⟨?_, ?_, (hall.by n).frame s⟩
  · rw [hdoes]
    exact ((hevent.by n).units (fun _ _ _ _ _ _ => rfl) _).trans (congrArg (fun u => u.mgmt.lockouts) (State.apply_bump_units ..))
  · rw [hdoes, ((hevent.by n).entries.frame _).num (by decide), State.num_bump _ (by decide +kernel)]
    rfl

/-- The row of a role's key (Table 13-5). -/
theorem row_key (r : Fin 4) : ∃ row, Dict.row (Key.key.KEY_MONITOR + r) = some row ∧ row.acc ≠ .const ∧ row.ty = .blob ∧ row.p = true := by
  have hrow : ∀ r : Fin 4, (Dict.row (Key.key.KEY_MONITOR + r)).map (fun row => (row.acc, row.ty, row.p)) = some (.wo, .blob, true) := by
    decide +kernel
  obtain ⟨row, hr, hfields⟩ := Option.map_eq_some_iff.1 (hrow r)
  obtain ⟨hacc, hrest⟩ := Prod.mk.inj hfields
  obtain ⟨hty, hp⟩ := Prod.mk.inj hrest
  exact ⟨row, hr, by rw [hacc]; decide, hty, hp⟩

/-- What is stored under an entry once a value, or none, is saved there. -/
theorem State.stored_apply_save (s : State) (k j : Nat) (o : Option Value) : Tbl.get (fun _ => none) (s.apply (.save k o)).store j =
    if k = j then o else Tbl.get (fun _ => none) s.store j := Tbl.get_set (fun _ => none) s.store k o j

/-- A role's key is removed from the dictionary and from the store (R402). -/
theorem keyRemove_leaves (s : State) (r : Fin 4) (n : Nat) :
    (s.does (causedBy n (keyRemove r))).blob (Key.key.KEY_MONITOR + r) = [] ∧
      Tbl.get (fun _ => none) (s.does (causedBy n (keyRemove r))).store (Key.key.KEY_MONITOR + r) = none ∧
      (∀ k, k ≠ Key.key.KEY_MONITOR + r → (s.does (causedBy n (keyRemove r))).get k = s.get k) ∧
      (s.does (causedBy n (keyRemove r))).mode = s.mode := by
  obtain ⟨row, hr, hacc, hty, -⟩ := row_key r
  have hdoes : s.does (causedBy n (keyRemove r)) =
      (s.set (Key.key.KEY_MONITOR + r) (.bytes [])).apply (.save (Key.key.KEY_MONITOR + r) none) := rfl
  rw [hdoes]
  refine ⟨?_, (State.stored_apply_save ..).trans (if_pos rfl), fun k hk => s.get_set_ne _ _ _ (Ne.symm hk), s.set_mode _ _⟩
  rw [State.blob, State.apply_save_get, s.get_set _ _ _ hr hacc, if_pos rfl, hty]
  rfl

theorem entryDoes_keyClear (w : Writer) (r : Nat) : entryDoes w Key.key.KEY_CLEAR (.num r) = keyRemove r := by
  simp [entryDoes, specialEffects, Key.key.KEY_CLEAR, Value.int]

theorem entryDoes_releaseArea (w : Writer) (a : Nat) : entryDoes w Key.area.RELEASE_AREA (.num a) = areaFree a := by
  simp [entryDoes, specialEffects, Key.area.RELEASE_AREA, Value.int]

/-- A claim of an area is ended, whoever writes (R422). -/
theorem areaFree_leaves {s : State} {a n : Nat} {x : Session} (hholder : s.areaHolder a = some n) (hx : s.session n = some x) (j : Nat) :
    s.Frame [Key.evt.EVT_RAISED] (s.does (causedBy j (areaFree a))) ∧
      ∃ y, (s.does (causedBy j (areaFree a))).session n = some y ∧ y.claims = x.claims.filter fun b => b != a := by
  have hclaims : x.claims.contains a = true := by
    have hfound := List.find?_some hholder
    simpa [hx] using hfound
  have hfree : areaFree a s = [.session n fun y => y.map fun y => { y with claims := y.claims.filter fun b => b != a },
      .event Ev.AREA_RELEASED (args16 [a, n])] := by
    rw [areaFree, hholder]
    simp only [areaRelease, hx, hclaims, Bool.not_true, Bool.false_eq_true, if_false]
  have hevent : Confined [Key.evt.EVT_RAISED] (fun u : Units => u.sessions) [.event Ev.AREA_RELEASED (args16 [a, n])] := by simp
  have hchanged : (s.apply (.session n fun y => y.map fun y => { y with claims := y.claims.filter fun b => b != a })).session n =
      some { x with claims := x.claims.filter fun b => b != a } := by
    rw [State.session_apply_session, if_pos rfl, hx]
    rfl
  rw [State.does, causedBy, hfree, List.map_cons, State.run_cons]
  obtain ⟨y, hy, hcore⟩ := Option.map_eq_some_iff.1 ((State.core_run (hevent.by j) _ n).trans (State.core_of_session hchanged))
  exact ⟨((session_effect_frame _ _ _).mono (List.nil_subset _)).trans ((hevent.by j).entries.frame _), y, hy,
    (congrArg Session.claims hcore :)⟩

/-- Settles O58: each timeout is one effect at its time; each clear is its entry's own effect. -/
theorem sessionsAndKeysExpire : Obligations.SessionsAndKeysExpire := by
  refine ⟨fun s n x hx hserves => ⟨fun hopen hended hcommit hown hidle => ?_, fun hpending hended hold => ?_, fun y hy hold => ?_⟩,
    fun s => ?_, fun n role => ?_, fun s h x hx hdone hold => ?_, fun w r => ?_, fun w a n x => ?_⟩
  · obtain ⟨hframe, hfree⟩ := sessionEnd_leaves 0 hx hended hcommit hown
    exact ⟨_, congrArg Host.Outcome.next (does_sessionTimeout hx hserves hopen hidle), hfree, hframe⟩
  · exact ⟨_, congrArg Host.Outcome.next (does_pendingExpiry hx hserves hpending hended hold),
      (State.session_apply_session ..).trans (if_pos rfl), session_effect_frame _ _ _⟩
  · refine ⟨_, congrArg Host.Outcome.next (does_transferTimeout hx hserves hy hold), session_effect_frame _ _ _,
      { x with xfer := none }, ?_, rfl, rfl⟩
    rw [State.session_apply_session, if_pos rfl, hx]
    rfl
  · refine ⟨_, rfl, rfl, ?_⟩
    have hexpire : Phase.Within [] (fun _ => ()) lockoutExpiry := fun s => by simp [lockoutExpiry]
    exact hexpire.frame s
  · refine writes_of_effect (fun _ => rfl) (by decide +kernel) (.inl rfl) (by decide) rfl (fun _ => rfl)
      (entryDoes_fenceClear _ 0x0900FFFF) fun s _ _ hlocked a => ?_
    obtain ⟨hlifted, hcount, hframe⟩ := fenceClear_lockouts hlocked n
    exact ⟨hlifted, hcount, hframe.trans ((answer_frame _ a).mono (List.nil_subset _))⟩
  · have hphase : s.does (handleExpiry h) = s.apply (.handle h fun _ => none) := by
      have hexpired : handleExpiry h s = [.handle h fun _ => none] := by
        rw [handleExpiry, hx]
        exact if_pos ⟨hdone, hold⟩
      rw [State.does, hexpired]
      rfl
    exact ⟨_, congrArg Host.Outcome.next hphase, (State.handle_apply_handle ..).trans (if_pos rfl),
      Effect.Within.frame (π := fun _ => ()) (by simp) s⟩
  · refine writes_of_effect (fun _ => rfl) (by decide +kernel) (.inl rfl) (by decide) rfl (fun _ => rfl)
      (entryDoes_keyClear _ _) fun s _ _ _ a => ?_
    obtain ⟨hblob, hstored, hget, hmode⟩ := keyRemove_leaves s r w.session
    exact ⟨hblob, hstored, hget, hmode⟩
  · refine writes_of_effect (fun _ => rfl) (by decide +kernel) (.inl rfl) (by decide) rfl (fun _ => rfl)
      (entryDoes_releaseArea _ _) fun s _ _ hH a' => ?_
    obtain ⟨hframe, hclaims⟩ := areaFree_leaves hH.1 hH.2 w.session
    exact ⟨hframe.trans ((answer_frame _ a').mono (List.nil_subset _)), hclaims⟩

end Sys2Proof.Machine
end

section
/-!
Writes of entries to which no chapter ties an effect of its own: what one leaves as it takes effect (R395, R399), and what a write of
any entry is answered (R397).
-/

namespace Sys2Proof.Machine

/-! ### A value of its type -/

/-- A value of the type is not narrowed (R6). -/
theorem Ty.norm_eq_self {t : Ty} {v : Value} (h : t.ok v = true) (old : Value) : t.norm old v = v := by
  have hint {w : Nat} {sg : Bool} {n : Int} (hw : 1 ≤ w) (hn : intOk w sg n = true) :
      (if sg then signed w n else n % 2 ^ w) = n := by
    cases sg
    · obtain ⟨h1, h2⟩ := of_decide_eq_true hn
      exact Int.emod_eq_of_lt h1 h2
    · obtain ⟨h1, h2⟩ := of_decide_eq_true hn
      have hpow : (2 : Int) ^ w = 2 * 2 ^ (w - 1) := by rw [← pow_succ', Nat.sub_add_cancel hw]
      exact signed_eq_self (by omega) (by omega)
  cases v with
  | num n =>
    cases t
    case bool =>
      have hn : n = 0 ∨ n = 1 := by simpa [Ty.ok] using h
      rcases hn with rfl | rfl <;> rfl
    case coef | pos | str | blob => cases h
    all_goals exact congrArg Value.num (hint (by decide) h)
  | coef m e =>
    cases t
    case coef =>
      simp only [Ty.ok, Bool.and_eq_true, decide_eq_true_eq] at h
      have hm : signed 32 m = m := hint (w := 32) (sg := true) (by decide) h.1
      simp [Ty.norm, hm, h.2]
    all_goals cases h
  | pos x y z =>
    cases t
    case pos =>
      simp only [Ty.ok, Bool.and_eq_true] at h
      obtain ⟨⟨hx, hy⟩, hz⟩ := h
      have hself {n : Int} (hn : intOk 32 true n = true) : signed 32 n = n := hint (w := 32) (sg := true) (by decide) hn
      simp [Ty.norm, hself hx, hself hy, hself hz]
    all_goals cases h
  | bytes b =>
    cases t
    case str | blob => exact congrArg Value.bytes (List.take_of_length_le (by simpa [Ty.ok] using h))
    all_goals cases h

/-! ### A plain entry takes a value -/

/-- The entry has taken the value, and no other entry, the mode or a unit has changed. -/
structure State.Takes (s : State) (k : Nat) (v : Value) (t : State) : Prop where
  get : t.get k = v
  other : ∀ j, j ≠ k → t.get j = s.get j
  mode : t.mode = s.mode
  units : t.units = s.units

namespace PlainEntry
variable {k : Nat} (hk : PlainEntry k)
include hk

theorem reserved_eq (v : Value) : reserved k v = v := hk.1 v

theorem changesAtCrossing (s : State) : s.changesAtCrossing k = false := by
  obtain ⟨-, hzc, hfallback, -⟩ := hk
  rw [State.changesAtCrossing, hzc, decide_eq_false hfallback]
  rfl

theorem entryDoes_eq (w : Writer) (v : Value) : entryDoes w k v = always [.reg k v] := by
  obtain ⟨-, -, -, hspecial⟩ := hk
  rw [entryDoes, Option.isNone_iff_eq_none.1 (hspecial w v)]

/-- An entry with an effect of its own is not plain. -/
theorem not_special {e : Nat × Nat × Nat × (Nat → Phase)} (w : Writer) (v : Value) (he : e ∈ specialEffects w k v) :
    ¬ (e.1 ≤ k / 256 ∧ k / 256 < e.1 + e.2.1 ∧ k % 256 = e.2.2.1) := by
  obtain ⟨-, -, -, hspecial⟩ := hk
  have hnone := List.find?_eq_none.1 (Option.isNone_iff_eq_none.1 (hspecial w v)) e he
  simpa [and_assoc] using hnone

theorem ne_modeRequest : k ≠ Key.mode.MODE_REQUEST := by
  rintro rfl
  exact hk.not_special ⟨0, 0⟩ (.num 0) (List.getElem_mem (show 0 < _ by decide)) (by decide)

theorem ne_fenceClear : k ≠ Key.fence.FENCE_CLEAR_CMD := by
  rintro rfl
  exact hk.not_special ⟨0, 0⟩ (.num 0) (List.getElem_mem (show 5 < _ by decide)) (by decide)

/-- Every clear is answered OK but those of entries that are not plain (R298, R476). -/
theorem clearReply_eq (s : State) (v : Value) : s.clearReply k v = St.ok := by
  rw [State.clearReply, if_neg hk.ne_fenceClear]
  refine if_neg fun h => ?_
  obtain ⟨hlo, hhi, hsub, -⟩ := h
  have hclear : (0x8400, 16, 2, fun c => if (0 : Int) == 1 then fenceClear 0 5 c else always []) ∈ specialEffects ⟨0, 0⟩ k (.num 0) := by
    simp [specialEffects, Value.int]
  exact hk.not_special _ _ hclear ⟨hlo, hhi, hsub⟩

/-- A plain entry takes a value of its type, and stores it where it persists (R395, R399). -/
theorem takes {r : Row} {v : Value} (hr : Dict.row k = some r) (hacc : r.acc ≠ .const) (hok : r.ty.ok v = true) (hty : r.ty ≠ .blob)
    (w : Writer) (s : State) : s.Takes k v (s.does (entryTakes w k v)) ∧
      (r.p = true → Tbl.get (fun _ => none) (s.does (entryTakes w k v)).store k = some v) := by
  have hset : (s.set k v).get k = v := by
    rw [s.get_set _ _ _ hr hacc, if_pos rfl, Ty.norm_eq_self hok]
  have hdoes : s.does (entryTakes w k v) = (s.set k v).run (if r.p then [.save k (some v)] else []) := by
    have hsaved (t : State) : persist k t = if r.p then [.save k (some (t.get k))] else [] := by
      rw [persist, hr]
      cases hp : r.p <;> simp [hp, hty]
    have hreg : s.does (always [.reg k v]) = s.set k v := rfl
    rw [entryTakes_of_plain (hk.reserved_eq v) hk.changesAtCrossing, hk.entryDoes_eq, does_causedBy_pair, hreg, hsaved, hset]
    cases r.p <;> rfl
  rw [hdoes]
  cases r.p with
  | false => exact ⟨⟨hset, fun j hj => s.get_set_ne _ _ _ (Ne.symm hj), s.set_mode _ _, s.set_units _ _⟩, nofun⟩
  | true =>
    exact ⟨⟨hset, fun j hj => s.get_set_ne _ _ _ (Ne.symm hj), s.set_mode _ _, s.set_units _ _⟩,
      fun _ => (State.stored_apply_save ..).trans (if_pos rfl)⟩

end PlainEntry

/-! ### What a write does, and its answer -/

section Write
variable {s : State} {w : EntryWrite} {k : Nat} {given : Option Ty} {r : Row} {v : Value}

/-- A write that the device serves does what it does, and is answered (R397). -/
theorem does_writeEntry_served (hserves : s.serves = true) : s.does (writeEntry k given w) =
    (s.does (writeDo w.writer k given w.value)).apply (.unit fun u => { u with answer := s.writeReply w.writer k given w.value }) := by
  have hsteps : s.does (writeEntry k given w) = s.run (writeEntry k given w s) := rfl
  rw [hsteps, writeEntry, hserves]
  refine Eq.trans (State.does_phases_cons s _ _) ?_
  rw [State.does_phases_cons, State.does_phases_nil]
  rfl

/-- An accepted write of an entry but MODE_REQUEST (R395, R397). -/
theorem does_writeDo_of_ok {w : Writer} (hst : s.writeStatus w k given v = St.ok) (hk : k ≠ Key.mode.MODE_REQUEST) :
    s.does (writeDo w k given v) = s.does (writeAccept w k v) := by
  have hsteps : s.does (writeDo w k given v) = s.run (writeDo w k given v s) := rfl
  rw [hsteps, writeDo, if_pos hst]
  refine Eq.trans (State.does_phases_cons s _ _) ?_
  rw [State.does_phases_cons, State.does_phases_nil, if_neg (by simp [hk]), State.does_always, State.run_nil]

/-- An accepted write of an entry that takes effect as it is accepted (R395). -/
theorem does_writeAccept_now (hr : Dict.row k = some r) (heff : r.eff = .acc) (w : Writer) (s : State) :
    s.does (writeAccept w k v) = s.does (entryTakes w k v) := by
  have hphase : writeAccept w k v s = entryTakes w k v s := by
    rw [writeAccept, hr]
    simp only [heff]
  rw [State.does, hphase, State.does]

/-- An accepted write of an entry that waits for its boundary (R395). -/
theorem does_writeAccept_block {b : Bool} (hr : Dict.row k = some r) (heff : r.eff = .block b) (w : Writer) (s : State) :
    s.does (writeAccept w k v) = s.apply (.unit fun u => { u with
      waiting := u.waiting.filter (fun x => x.key != k) ++ [⟨k, v, w.role, w.session⟩],
      mgmt := if k = Key.mode.MODE_REQUEST then { u.mgmt with waitMode := none } else u.mgmt }) := by
  have hphase : writeAccept w k v s = [.unit fun u => { u with
      waiting := u.waiting.filter (fun x => x.key != k) ++ [⟨k, v, w.role, w.session⟩],
      mgmt := if k = Key.mode.MODE_REQUEST then { u.mgmt with waitMode := none } else u.mgmt }] := by
    rw [writeAccept, hr]
    simp only [heff]
  rw [State.does, hphase, State.run_cons, State.run_nil]

/-- An accepted write is answered OK with its time, but for a clear that the owning rule refuses (R397, R476). -/
theorem writeReply_of_ok {w : Writer} (hst : s.writeStatus w k given v = St.ok) (hclear : s.clearReply k v = St.ok) :
    s.writeReply w k given v = (St.ok, s.effectTime w k) := by
  simp only [State.writeReply, hst, hclear, ne_eq, not_true_eq_false, if_false, if_true]

/-- The time of an entry that takes effect as it is accepted (R412). -/
theorem effectTime_of_now (hr : Dict.row k = some r) (heff : r.eff = .acc) (w : Writer) (s : State) : s.effectTime w k = s.now := by
  rw [State.effectTime, hr]
  simp only [heff]

end Write

/-- Settles O15: a plain entry takes the value or waits, and the answer is that of an accepted write. -/
theorem acceptedRegisterWriteTakesOrWaits : Obligations.AcceptedRegisterWriteTakesOrWaits := by
  intro s index sub ty t' w r hty hr hacc hok hblob hk hserves hst
  have hexec : exec (.registerWrite index sub ty w) s = s.goes (writeEntry (index * 256 + sub) (some t') w) := by
    have hphase : anyWrite index sub ty w = writeEntry (index * 256 + sub) (some t') w := by
      funext t
      rw [anyWrite, hty]
    exact congrArg s.goes hphase
  have hreply := writeReply_of_ok (given := some t') hst (hk.clearReply_eq s w.value)
  have hdoes := (does_writeEntry_served (w := w) (k := index * 256 + sub) (given := some t') hserves).trans
    (by rw [does_writeDo_of_ok hst hk.ne_modeRequest])
  refine ⟨fun heff => ⟨_, hexec, ?_⟩, fun b heff => ⟨_, hexec, ?_⟩⟩
  · rw [does_writeAccept_now hr heff] at hdoes
    obtain ⟨⟨hget, hother, hmode, -⟩, hstored⟩ := hk.takes hr hacc hok hblob w.writer s
    rw [hdoes]
    exact ⟨hget, hother, hmode, hstored, rfl, (congrArg Prod.snd hreply).trans (effectTime_of_now hr heff _ s)⟩
  · rw [does_writeAccept_block hr heff] at hdoes
    rw [hdoes]
    exact ⟨⟨_, rfl, fun x hx => by simpa using (List.mem_filter.1 hx).2⟩, hreply, fun _ _ => rfl, rfl, rfl⟩

end Sys2Proof.Machine
end

section
/-!
Accepted writes of entries that take effect at a block boundary (R395, R412), and what else the request for a mode does (R455).
-/

namespace Sys2Proof.Machine

/-- The entry takes effect at the next block boundary, and no chapter answers its write otherwise (R395, R412). -/
structure WaitsForBlock (k : Nat) : Prop where
  block : ∃ b, (Dict.row k).map (·.eff) = some (.block b)
  fence : k ≠ Key.fence.FENCE_CLEAR_CMD
  channel : ¬ (0x8400 ≤ k / 256 ∧ k / 256 < 0x8410)

section Waits
variable {s : State} {w : EntryWrite} {k : Nat}

/-- An accepted write waits for its boundary (R395). -/
def State.waitFor (s : State) (k : Nat) (w : EntryWrite) : State := s.apply (.unit fun u => { u with
  waiting := u.waiting.filter (fun x => x.key != k) ++ [⟨k, w.value, w.role, w.session⟩],
  mgmt := if k = Key.mode.MODE_REQUEST then { u.mgmt with waitMode := none } else u.mgmt })

theorem WaitsForBlock.does_writeAccept (h : WaitsForBlock k) : s.does (writeAccept w.writer k w.value) = s.waitFor k w := by
  obtain ⟨b, hb⟩ := h.block
  obtain ⟨r, hr, heff⟩ := Option.map_eq_some_iff.1 hb
  exact does_writeAccept_block hr heff w.writer s

theorem WaitsForBlock.writeReply (h : WaitsForBlock k) (ha : s.Accepts w k) :
    s.writeReply w.writer k none w.value = (St.ok, s.effectTime w.writer k) := by
  have hclear : s.clearReply k w.value = St.ok := by
    rw [State.clearReply, if_neg h.fence]
    exact if_neg fun ⟨hlo, hhi, _⟩ => h.channel ⟨hlo, hhi⟩
  exact writeReply_of_ok ha.2 hclear

/-- An accepted write of an entry but MODE_REQUEST waits, and changes nothing else. -/
theorem WaitsForBlock.waits {c : Instr} (h : WaitsForBlock k) (hne : k ≠ Key.mode.MODE_REQUEST)
    (hexec : ∀ s, exec c s = s.goes (writeEntry k none w)) : Waits c k w := by
  intro s ha
  have hdoes : s.does (writeEntry k none w) =
      (s.waitFor k w).apply (.unit fun u => { u with answer := (St.ok, s.effectTime w.writer k) }) := by
    rw [does_writeEntry_served ha.1, does_writeDo_of_ok ha.2 hne, h.does_writeAccept, h.writeReply ha]
  refine ⟨_, (hexec s).trans (congrArg Host.Outcome.next hdoes), ?_⟩
  exact ⟨rfl, rfl, fun _ _ => rfl, rfl, rfl⟩

end Waits

/-! ### The request for a mode -/

/-- A request for a mode other than SAFE ends the hold of a planned removal as it is accepted (R455). -/
theorem does_writeDo_modeRequest {s : State} {w : Writer} {v : Value} (hst : s.writeStatus w Key.mode.MODE_REQUEST none v = St.ok) :
    s.does (writeDo w Key.mode.MODE_REQUEST none v) =
      (s.does (writeAccept w Key.mode.MODE_REQUEST v)).does (if v.int = 1 then always [] else removalEnd) := by
  have hsteps : s.does (writeDo w Key.mode.MODE_REQUEST none v) = s.run (writeDo w Key.mode.MODE_REQUEST none v s) := rfl
  rw [hsteps, writeDo, if_pos hst]
  refine Eq.trans (State.does_phases_cons s _ _) ?_
  rw [State.does_phases_cons, State.does_phases_nil]
  by_cases hv : v.int = 1
  · rw [if_neg (by simp [hv]), if_pos hv]
  · rw [if_pos ⟨rfl, hv⟩, if_neg hv]

/-- Where no planned removal holds the groups, its end changes nothing. -/
theorem removalEnd_idle {s : State} (h : s.units.mgmt.removed = false) : removalEnd s = [] := by
  rw [removalEnd, h]
  rfl

/-- The hold of a planned removal has ended (R455). -/
theorem removed_removalEnd (s : State) : (s.does removalEnd).units.mgmt.removed = false := by
  rw [State.does]
  by_cases h : s.units.mgmt.removed = false
  · rw [removalEnd_idle h]
    exact h
  · have hheld : s.units.mgmt.removed = true := by simpa using h
    obtain ⟨rest, hrun, hrest⟩ : ∃ rest, removalEnd s = .mgmt (fun m => { m with removed := false, hsFreeAt := s.mtbNs }) :: rest ∧
        Confined hsKeys (fun u : Units => u.mgmt.removed) rest := by
      refine ⟨_, by rw [removalEnd, hheld]; rfl, fun e he => ?_⟩
      obtain ⟨g, hg, hge⟩ := List.mem_flatMap.1 he
      split at hge
      · rw [List.mem_singleton.1 hge]
        exact hsState_mem_hsKeys g (List.mem_range.1 hg)
      · exact absurd hge List.not_mem_nil
    rw [hrun, State.run_cons]
    exact hrest.units (fun _ _ _ _ _ _ => rfl) _

/-- An accepted request for a mode waits, and ends the hold of a planned removal (R431, R455). -/
theorem modeRequest_waits (hrow : WaitsForBlock Key.mode.MODE_REQUEST) {s : State} {w : EntryWrite}
    (ha : s.Accepts w Key.mode.MODE_REQUEST) :
    Completes (.modeRequest w) s fun t =>
      t.units.waiting = s.units.waiting.filter (fun x => x.key != Key.mode.MODE_REQUEST) ++
        [⟨Key.mode.MODE_REQUEST, w.value, w.role, w.session⟩] ∧
      t.units.answer = (St.ok, s.effectTime w.writer Key.mode.MODE_REQUEST) ∧ s.Frame hsKeys t ∧
      (if w.value.int = 1 ∨ s.units.mgmt.removed = false then s.Frame [] t else t.units.mgmt.removed = false) := by
  have hdoes : s.does (writeEntry Key.mode.MODE_REQUEST none w) =
      ((s.waitFor Key.mode.MODE_REQUEST w).does (if w.value.int = 1 then always [] else removalEnd)).apply
        (.unit fun u => { u with answer := (St.ok, s.effectTime w.writer Key.mode.MODE_REQUEST) }) := by
    rw [does_writeEntry_served ha.1, does_writeDo_modeRequest ha.2, hrow.does_writeAccept, hrow.writeReply ha]
  have hwaits : s.Frame [] (s.waitFor Key.mode.MODE_REQUEST w) := ⟨fun _ _ => rfl, rfl, rfl⟩
  refine ⟨_, congrArg Host.Outcome.next hdoes, ?_⟩
  beta_reduce
  by_cases hv : w.value.int = 1
  · rw [if_pos hv, if_pos (.inl hv)]
    exact ⟨rfl, rfl, ⟨fun _ _ => rfl, rfl, rfl⟩, ⟨fun _ _ => rfl, rfl, rfl⟩⟩
  · have hend := removalEnd_within (π := fun u : Units => u.waiting) (fun _ _ => rfl) (s.waitFor Key.mode.MODE_REQUEST w)
    have hframe := (((hwaits.mono (List.nil_subset _)).trans (hend.frame _)).trans
      ((answer_frame _ (St.ok, s.effectTime w.writer Key.mode.MODE_REQUEST)).mono (List.nil_subset _)))
    rw [if_neg hv]
    refine ⟨hend.units (fun _ _ _ _ _ _ => rfl) _, rfl, hframe, ?_⟩
    by_cases hremoved : s.units.mgmt.removed = false
    · rw [if_pos (.inr hremoved), State.does, removalEnd_idle (s := s.waitFor Key.mode.MODE_REQUEST w) hremoved]
      exact ⟨fun _ _ => rfl, rfl, rfl⟩
    · rw [if_neg (not_or.2 ⟨hv, hremoved⟩)]
      exact removed_removalEnd _

/-- What `WaitsForBlock` says, for the kernel to evaluate. -/
def waitsTest (b : Bool) (k : Nat) : Bool :=
  (Dict.row k).map (·.eff) == some (.block b) && k != Key.fence.FENCE_CLEAR_CMD && !decide (0x8400 ≤ k / 256 ∧ k / 256 < 0x8410)

/-- That, of an entry whose write does nothing else. -/
def waitsAlone (b : Bool) (k : Nat) : Bool := waitsTest b k && k != Key.mode.MODE_REQUEST

theorem waitsForBlock_of_test {b : Bool} {k : Nat} (h : waitsTest b k = true) : WaitsForBlock k := by
  simp only [waitsTest, Bool.and_eq_true, beq_iff_eq, bne_iff_ne, Bool.not_eq_true', decide_eq_false_iff_not] at h
  obtain ⟨⟨hblock, hfence⟩, hchannel⟩ := h
  exact ⟨⟨b, hblock⟩, hfence, hchannel⟩

/-- Settles O13: each of these entries takes effect at the block boundary, and only a request for a mode does more as it is
accepted. -/
theorem waitingWritesAreAccepted : Obligations.WaitingWritesAreAccepted := by
  intro w
  have hdomain : ∀ i : Fin 4, waitsAlone true (Key.dtb.DOMAIN_NUMBER i) = true := by decide +kernel
  have haction : ∀ i : Fin 64, waitsAlone true (Key.act.ACT_STATE i) = true := by decide +kernel
  have hgroup : ∀ i : Fin 8, waitsAlone true (Key.sg.SG_STATE i) = true := by decide +kernel
  have hgo : ∀ i : Fin 8, waitsAlone true (Key.sg.SG_GO i) = true := by decide +kernel
  have hrequest : ∀ i : Fin 64, waitsAlone false (Key.ls.STATE_REQ i) = true := by decide +kernel
  have hmanual : ∀ i : Fin 64, waitsAlone false (Key.ls.MAN i) = true := by decide +kernel
  have hlearner : ∀ i : Fin 4, waitsAlone true (Key.fl.FL_ENABLE i) = true := by decide +kernel
  have hchannel : ∀ i : Fin 16, waitsAlone true (Key.pw.CH_EN i) = true := by decide +kernel
  have hgenerator : ∀ i : Fin 4, waitsAlone true (Key.gen.G_STATE i) = true := by decide +kernel
  have hcapture : ∀ i : Fin 8, waitsAlone true (Key.cap.C_STATE i) = true := by decide +kernel
  have hone {b : Bool} {k : Nat} {c : Instr} (h : waitsAlone b k = true)
      (hexec : ∀ s, exec c s = s.goes (writeEntry k none w)) : Waits c k w := by
    obtain ⟨htest, hne⟩ := (Bool.and_eq_true ..).mp h
    exact (waitsForBlock_of_test htest).waits (bne_iff_ne.1 hne) hexec
  have hmode : waitsTest true Key.mode.MODE_REQUEST = true := by decide +kernel
  have hdomainRef : waitsAlone true Key.ref.REF_DOMAIN = true := by decide +kernel
  have hmeasured : waitsAlone true Key.meas.MEAS_CHANNELS = true := by decide +kernel
  exact ⟨fun s ha => modeRequest_waits (waitsForBlock_of_test hmode) ha, hone hdomainRef fun _ => rfl, hone hmeasured fun _ => rfl,
    fun i => hone (hdomain i) fun _ => rfl, fun i => hone (haction i) fun _ => rfl, fun i => hone (hgroup i) fun _ => rfl,
    fun i => hone (hgo i) fun _ => rfl, fun i => hone (hrequest i) fun _ => rfl, fun i => hone (hmanual i) fun _ => rfl,
    fun i => hone (hlearner i) fun _ => rfl, fun i => hone (hchannel i) fun _ => rfl, fun i => hone (hgenerator i) fun _ => rfl,
    fun i => hone (hcapture i) fun _ => rfl⟩

end Sys2Proof.Machine
end

section
/-!
A refused write (R397, R430): it is answered, and only the refusal of a transaction of its own leaves a report (R189, R396, R516).
-/

namespace Sys2Proof.Machine

/-- The entries that report why a commit was refused, with the count of events (R189, R516). -/
def refusalKeys : List Nat :=
  [Key.lay.LAYOUT_ERROR, Key.lay.LAYOUT_ERROR_REC, Key.cost.LAST_REFUSED, Key.cost.REFUSALS, Key.evt.EVT_RAISED]

section Refused
variable {α : Type} {π : Units → α} {s : State} {w : EntryWrite} {k : Nat} {given : Option Ty}

/-- The refusal of a commit writes its report alone. -/
theorem commitRefused_within (n : Nat) (items : List (Nat × Value)) (st : Nat) (b : Bool) :
    Phase.Within refusalKeys π (commitRefused n items st b) := by
  have hlayout (code place : Nat) (s : State) : Confined refusalKeys π (layoutRefused code place s) := by
    simp [layoutRefused, always, refusalKeys]
  refine Phase.within_causedBy n fun s => confined_append.2 ⟨?_, ?_⟩
  · split
    · cases (s.withItems items).layoutFault with
      | none => exact confined_ite.2 ⟨fun _ => hlayout 0 0 s, fun _ => .nil⟩
      | some f => exact hlayout f.1 f.2 s
    · exact .nil
  · exact confined_ite.2 ⟨fun _ => by simp [admissionRefused, always, refusalKeys], fun _ => .nil⟩

theorem writeRefused_within (w : Writer) (v : Value) (st : Nat) : Phase.Within refusalKeys π (writeRefused w k given v st) := by
  intro s
  exact confined_ite.2 ⟨fun _ => commitRefused_within _ _ _ _ s, fun _ => .nil⟩

theorem does_writeDo_of_refused {w : Writer} {v : Value} (hst : s.writeStatus w k given v ≠ St.ok) :
    s.does (writeDo w k given v) = s.does (writeRefused w k given v (s.writeStatus w k given v)) := by
  have hphase : writeDo w k given v s = writeRefused w k given v (s.writeStatus w k given v) s := if_neg hst
  rw [State.does, hphase, State.does]

theorem writeReply_of_refused {w : Writer} {v : Value} (hst : s.writeStatus w k given v ≠ St.ok) :
    s.writeReply w k given v = (s.writeStatus w k given v, 0) := if_pos hst

/-- A refused write is answered with its status, after its report (R397, R430). -/
theorem does_writeEntry_refused (hserves : s.serves = true) (hst : s.writeStatus w.writer k given w.value ≠ St.ok) :
    s.does (writeEntry k given w) =
      (s.does (writeRefused w.writer k given w.value (s.writeStatus w.writer k given w.value))).apply
        (.unit fun u => { u with answer := (s.writeStatus w.writer k given w.value, 0) }) := by
  rw [does_writeEntry_served hserves, does_writeDo_of_refused hst, writeReply_of_refused hst]

/-- A refusal that no commit of its own has caused reports nothing. -/
theorem writeRefused_eq_nil {r : Row} {w : Writer} {v : Value} (hr : Dict.row k = some r)
    (h : r.acc ≠ .rws ∨ firstFault (s.headFaults w k given v) ≠ St.ok ∨ (s.txn w.session).isSome = true) (st : Nat) :
    writeRefused w k given v st s = [] := by
  refine if_neg fun ⟨hacc, htxn, hhead⟩ => ?_
  rcases h with h | h | h
  · exact h (by simpa [hr] using hacc)
  · exact h hhead
  · rw [Option.isNone_iff_eq_none.1 htxn] at h
    cases h

end Refused

/-- Settles O14: a refused write does what `writeRefused` reports, which is nothing but for a commit of its own. -/
theorem refusedWritesChangeNothing : Obligations.RefusedWritesChangeNothing := by
  intro s index sub ty t' w r hty hr
  have hphase : anyWrite index sub ty w = writeEntry (index * 256 + sub) (some t') w := by
    funext t
    rw [anyWrite, hty]
  have hexec : exec (.registerWrite index sub ty w) s = s.goes (writeEntry (index * 256 + sub) (some t') w) := congrArg s.goes hphase
  refine ⟨fun hserves hst => ⟨fun hplain => ?_, fun _ => ?_⟩, fun hserves => ?_⟩
  · have hdoes := does_writeEntry_refused (w := w) hserves hst
    have hquiet : s.does (writeRefused w.writer (index * 256 + sub) (some t') w.value
        (s.writeStatus w.writer (index * 256 + sub) (some t') w.value)) = s := congrArg s.run (writeRefused_eq_nil hr hplain _)
    rw [hquiet] at hdoes
    exact ⟨_, hexec.trans (congrArg Host.Outcome.next hdoes), ⟨fun _ _ => rfl, rfl, rfl⟩, rfl⟩
  · have hdoes := does_writeEntry_refused (w := w) hserves hst
    have hreport := writeRefused_within (π := fun u : Units => u.sessions) (k := index * 256 + sub) (given := some t') w.writer w.value
      (s.writeStatus w.writer (index * 256 + sub) (some t') w.value) s
    have hwaiting := (writeRefused_within (π := fun u : Units => u.waiting) (k := index * 256 + sub) (given := some t') w.writer w.value
      (s.writeStatus w.writer (index * 256 + sub) (some t') w.value) s).units (fun _ _ _ _ _ _ => rfl) s
    refine ⟨_, hexec.trans (congrArg Host.Outcome.next hdoes), (hreport.frame s).trans ((answer_frame _ _).mono (List.nil_subset _)),
      rfl, hwaiting, fun n => ?_⟩
    have hcore := State.core_run hreport s n
    have hfield {β : Type} (f : Session → β) (hf : ∀ x : Session, f x.core = f x) :
        ((s.run (writeRefused w.writer (index * 256 + sub) (some t') w.value
          (s.writeStatus w.writer (index * 256 + sub) (some t') w.value) s)).session n).map f = (s.session n).map f := by
      have hmap := congrArg (Option.map f) hcore
      simpa only [State.core, Option.map_map, Function.comp_def, hf] using hmap
    exact ⟨hfield _ fun _ => rfl, hfield _ fun _ => rfl, hfield _ fun _ => rfl⟩
  · have hnone : writeEntry (index * 256 + sub) (some t') w s = [] := by
      rw [writeEntry, hserves]
      rfl
    exact hexec.trans (congrArg (fun es => Host.Outcome.next (s.run es)) hnone)

end Sys2Proof.Machine
end

section
/-!
Writes of the dictionary protocol (R396, R397, R402, R412, R414): WRITE, WRITEM, BLOCK_WRITE, and the write of a role's key.
-/

namespace Sys2Proof.Machine

/-! ### What a written entry's session has caused -/

theorem Effect.by_by (n : Nat) (e : Effect) : (e.by n).by n = e.by n := by
  cases e with
  | raise c a m sc =>
    cases m with
    | zero => cases n <;> rfl
    | succ m => rfl
  | _ => rfl

/-- What a written entry brings about names its session already (R471). -/
theorem entryTakes_quiet (w : Writer) (k : Nat) (v : Value) (s : State) : ∀ e ∈ entryTakes w k v s, e.by w.session = e := by
  intro e he
  obtain ⟨d, -, rfl⟩ := List.mem_map.1 he
  exact Effect.by_by _ _

/-- A plain entry's write sets it and saves it (R395, R399). -/
theorem PlainEntry.entryTakes_eq {k : Nat} (hk : PlainEntry k) (w : Writer) (v : Value) (s : State) :
    entryTakes w k v s = .reg k v :: (persist k (s.set k v)).map (Effect.by w.session) := by
  have hcross : crossingWait k v s = [] := by simp [crossingWait, hk.changesAtCrossing]
  have hsplit : entryTakes w k v s = (crossingWait k v s ++ phases [entryDoes w k v, persist k] (s.run (crossingWait k v s))).map
      (Effect.by w.session) := by
    rw [entryTakes, hk.reserved_eq]
    rfl
  have hpair : phases [always [.reg k v], persist k] s = .reg k v :: (persist k (s.set k v) ++ []) := rfl
  rw [hsplit, hcross, hk.entryDoes_eq, List.nil_append, State.run_nil, hpair, List.append_nil]
  rfl

section Accepted
variable {s : State} {w : Writer} {k : Nat} {given : Option Ty} {r : Row} {v : Value}

/-- An accepted write of a plain entry that takes effect as it is accepted (R395). -/
theorem PlainEntry.writeDo_now (hk : PlainEntry k) (hr : Dict.row k = some r) (heff : r.eff = .acc)
    (hst : s.writeStatus w k given v = St.ok) : writeDo w k given v s = entryTakes w k v s := by
  have hsplit : writeDo w k given v s = writeAccept w k v s ++ (always [] (s.does (writeAccept w k v)) ++ []) := by
    have hne : ¬ (k = Key.mode.MODE_REQUEST ∧ v.int ≠ 1) := fun h => hk.ne_modeRequest h.1
    rw [writeDo, if_pos hst, if_neg hne]
    rfl
  have hphase : writeAccept w k v s = entryTakes w k v s := by
    rw [writeAccept, hr]
    simp only [heff]
  rw [hsplit, hphase]
  exact List.append_nil _

/-- It is answered OK, with the present time (R397, R412). -/
theorem PlainEntry.writeReply_now (hk : PlainEntry k) (hr : Dict.row k = some r) (heff : r.eff = .acc)
    (hst : s.writeStatus w k given v = St.ok) : s.writeReply w k given v = (St.ok, s.now) := by
  rw [writeReply_of_ok hst (hk.clearReply_eq s v), effectTime_of_now hr heff]

end Accepted

/-! ### WRITE and WRITEM -/

section Requests
variable {s : State} {op : Nat} {m : CdlMsg} {x : Session} {o : Opcode} {k : Nat} {t' : Ty} {v : Value} {r : Row}

/-- A request that writes a plain entry is answered, and changes that entry alone. -/
theorem State.Hears.wrote {st : Nat} {body : List Byte} (h : s.Hears op m x) (hk : PlainEntry k) (hr : Dict.row k = some r)
    (hacc : r.acc ≠ .const) (hok : r.ty.ok v = true) (hty : r.ty ≠ .blob)
    (ha : Opcode.answer (some o) (s.noted op m) x m =
      { status := st, body := body, does := entryTakes ⟨m.session, x.role⟩ k v (s.noted op m) }) :
    (s.does (request op (some o) m)).Answered op m st body ∧ (s.does (request op (some o) m)).get k = v ∧
      (∀ j, j ≠ k → (s.does (request op (some o) m)).get j = s.get j) ∧ (s.does (request op (some o) m)).mode = s.mode := by
  obtain ⟨a, hanswer⟩ : ∃ a : Answer,
    a = { status := st, body := body, does := entryTakes ⟨m.session, x.role⟩ k v (s.noted op m) } := ⟨_, rfl⟩
  have hcarried : s.carried op m a = (s.noted op m).does (entryTakes ⟨m.session, x.role⟩ k v) := by
    rw [hanswer]
    exact causedBy_of_quiet (entryTakes_quiet ⟨m.session, x.role⟩ k v (s.noted op m))
  obtain ⟨⟨hget, hother, hmode, hunits⟩, -⟩ := hk.takes hr hacc hok hty ⟨m.session, x.role⟩ (s.noted op m)
  rw [← hcarried] at hget hother hmode hunits
  have hnoted : (s.carried op m a).HasNoted op m :=
    h.hasNoted.of_session (congrArg (fun u : Units => Tbl.at none u.sessions m.session) hunits)
  have hframe := answered_frame (s.carried op m a) op m a (some x.key)
  have hbefore := noted_frame s op m
  rw [does_request h (ha.trans hanswer.symm)]
  refine ⟨?_, (hframe.get List.not_mem_nil).trans hget,
    fun j hj => (hframe.get List.not_mem_nil).trans ((hother j hj).trans (hbefore.get List.not_mem_nil)),
    hframe.mode.trans (hmode.trans hbefore.mode)⟩
  have hanswered := answered_of_hasNoted hnoted a (some x.key)
  subst hanswer
  exact hanswered

theorem now_noted (s : State) (op : Nat) (m : CdlMsg) : (s.noted op m).now = s.now := rfl

/-- A write that fails a test of an entry that is not RWS does nothing (R397). -/
theorem writeDo_eq_nil {w : Writer} {given : Option Ty} (hr : Dict.row k = some r) (hacc : r.acc ≠ .rws)
    (hst : s.writeStatus w k given v ≠ St.ok) : writeDo w k given v s = [] :=
  (if_neg hst).trans (writeRefused_eq_nil hr (.inl hacc) _)

theorem write_answer_ok (h : s.Hears 0x11 m x) (hrole : 1 ≤ x.role) (hitem : writeItem m.payload = some (k, t', v)) (hk : PlainEntry k)
    (hr : Dict.row k = some r) (heff : r.eff = .acc) (hst : (s.noted 0x11 m).writeStatus ⟨m.session, x.role⟩ k (some t') v = St.ok) :
    Opcode.answer (some opWrite) (s.noted 0x11 m) x m =
      { status := St.ok, body := le 8 s.now, does := entryTakes ⟨m.session, x.role⟩ k v (s.noted 0x11 m) } := by
  refine answer_of_passes (by simp [opWrite, hitem]) (if_pos (Nat.one_le_iff_ne_zero.1 hrole)) ?_ (by simp)
  simp only [opWrite, hitem, h.writerOf, hk.writeReply_now hr heff hst, hk.writeDo_now hr heff hst, now_noted, if_true]

theorem write_answer_refused {st : Nat} (h : s.Hears 0x11 m x) (hrole : 1 ≤ x.role) (hitem : writeItem m.payload = some (k, t', v))
    (hr : Dict.row k = some r) (hacc : r.acc ≠ .rws) (hne : st ≠ St.ok)
    (hst : (s.noted 0x11 m).writeStatus ⟨m.session, x.role⟩ k (some t') v = st) :
    Opcode.answer (some opWrite) (s.noted 0x11 m) x m = { status := st, body := [] } := by
  subst hst
  refine answer_of_passes (by simp [opWrite, hitem]) (if_pos (Nat.one_le_iff_ne_zero.1 hrole)) ?_ (by simp)
  simp only [opWrite, hitem, h.writerOf, writeReply_of_refused hne, writeDo_eq_nil hr hacc hne, if_neg hne]

theorem writem_answer (h : s.Hears 0x13 m x) (hrole : 1 ≤ x.role) (hitems : writeItems m.payload = some [(k, t', v)]) (hk : PlainEntry k)
    (hr : Dict.row k = some r) (heff : r.eff = .acc) (hst : (s.noted 0x13 m).writeStatus ⟨m.session, x.role⟩ k (some t') v = St.ok) :
    Opcode.answer (some opWritem) (s.noted 0x13 m) x m = {
      status := St.ok, body := [1, 0, 0, 0] ++ le 8 s.now ++ le 1 St.ok,
      does := entryTakes ⟨m.session, x.role⟩ k v (s.noted 0x13 m) } := by
  refine answer_of_passes (by simp [opWritem, hitems]) (if_pos (Nat.one_le_iff_ne_zero.1 hrole)) ?_ (by simp)
  simp only [opWritem, hitems, h.writerOf, Option.getD_some, eachItem, hk.writeReply_now hr heff hst, hk.writeDo_now hr heff hst,
    now_noted, List.append_nil, List.length_singleton, Nat.cast_one, le_one_three, List.flatMap_singleton, List.map_cons, List.map_nil,
    List.foldl_cons, List.foldl_nil]
  rfl

/-! ### BLOCK_WRITE -/

/-- The first segment of a block write opens a transfer (R414). -/
theorem blockWrite_answer {data : List Byte} (h : s.Hears 0x15 m x) (hrole : 1 ≤ x.role) (hdata : data = m.payload.drop 12)
    (hlen : 12 ≤ m.payload.length) (hk : k = keyAt m.payload 0) (hr : Dict.row k = some r) (hkey : isKey k = false)
    (himage : k ≠ Key.upd.UPDATE_IMAGE) (hoffset : leAt m.payload 4 4 = 0) (hmore : data.length < leAt m.payload 8 4)
    (hrange : inRanges r.rng (leAt m.payload 8 4) = true)
    (hhead : firstFault (((s.noted 0x15 m).headFaults ⟨m.session, x.role⟩ k (some .blob) (.bytes [])).filter
      fun st => st != St.range) = St.ok) :
    Opcode.answer (some opBlockWrite) (s.noted 0x15 m) x m = {
      status := St.ok, body := le 4 data.length ++ le 8 0,
      does := [.session m.session (Option.map fun y => { y with
        xfer := some { key := k, total := leAt m.payload 8 4, data := data, lastAt := s.mtbNs } })] } := by
  refine answer_of_passes (by simp [opBlockWrite, hlen]) (if_pos (Nat.one_le_iff_ne_zero.1 hrole)) ?_ (by simp)
  simp only [opBlockWrite, ← hk, ← hdata, h.writerOf, hhead, hr, hkey, hrange, hoffset, himage, ne_eq, not_true_eq_false, if_false,
    if_true, Bool.false_eq_true, Bool.not_true, Nat.not_lt.2 hmore.le, hmore.ne]
  rfl

/-! ### KEY_WRITE -/

/-- The effect does not change what is stored under `k`. -/
def Effect.SparesStored (k : Nat) : Effect → Prop
  | .save j _ => j ≠ k
  | _ => True

theorem Effect.SparesStored.by {e : Effect} {k : Nat} (h : e.SparesStored k) (n : Nat) : (e.by n).SparesStored k := by
  unfold Effect.by
  split
  · trivial
  · exact h

theorem State.stored_run {es : List Effect} {k : Nat} (hes : ∀ e ∈ es, e.SparesStored k) (s : State) :
    Tbl.get (fun _ => none) (s.run es).store k = Tbl.get (fun _ => none) s.store k := by
  induction es generalizing s with
  | nil => rfl
  | cons e es ih =>
    obtain ⟨he, hes⟩ := List.forall_mem_cons.1 hes
    refine (ih hes _).trans ?_
    cases e with
    | save j o => exact (s.stored_apply_save j k o).trans (if_neg he)
    | raise => exact congrArg (Tbl.get _ · k) (s.raise_store ..)
    | _ => simp [State.apply]

/-- The entries that the wear of the coefficient store shows in (R478, R479). -/
def wearKeys : List Nat := [Key.stor.NOR_ERASES, Key.stor.NOR_WEAR, Key.evt.EVT_RAISED]

/-- Storing a blob shows in the store's wear alone. -/
theorem norWrite_spares (n : Nat) (s : State) : Spared wearKeys (fun _ => True) (norWrite n s) ∧
    (∀ e ∈ norWrite n s, e.SparesSessions) ∧ ∀ k, k ∉ wearKeys → ∀ e ∈ norWrite n s, e.SparesStored k := by
  have hunit (f : Mgmt → Mgmt) : (Effect.mgmt f).Spares wearKeys fun _ => True := fun _ _ => trivial
  have hsessions (f : Mgmt → Mgmt) : (Effect.mgmt f).SparesSessions := fun _ => rfl
  refine ⟨?_, ?_, fun k hk => ?_⟩
  · simp only [norWrite, spared_append]
    refine ⟨⟨by simp [hunit], ?_⟩, ?_⟩
    · split
      · exact .nil
      · simp [wearKeys]
    · split
      · exact spared_cons.2 ⟨hunit _, by simp [wearKeys]⟩
      · exact .nil
  · simp only [norWrite, List.forall_mem_append]
    refine ⟨⟨by simp [hsessions], ?_⟩, ?_⟩
    · split
      · simp
      · simp [Effect.SparesSessions, Effect.nat]
    · split
      · simp only [List.forall_mem_cons]
        exact ⟨hsessions _, trivial, by simp⟩
      · simp
  · obtain ⟨herases, hwear, -⟩ : k ≠ Key.stor.NOR_ERASES ∧ k ≠ Key.stor.NOR_WEAR ∧ k ≠ Key.evt.EVT_RAISED := by
      simpa [wearKeys] using hk
    simp only [norWrite, List.forall_mem_append]
    refine ⟨⟨by simp [Effect.SparesStored, Effect.mgmt], ?_⟩, ?_⟩
    · split
      · simp
      · simp [Effect.SparesStored, Effect.nat, Ne.symm herases, Ne.symm hwear]
    · split
      · simp [Effect.SparesStored, Effect.mgmt, Effect.event]
      · simp

/-- A role's key is a plain entry (Table 13-5). -/
theorem plainEntry_key (r : Fin 4) : PlainEntry (Key.key.KEY_MONITOR + r) := by
  match r with
  | 0 | 1 | 2 | 3 => exact ⟨fun _ => rfl, rfl, by decide, fun _ _ => rfl⟩

theorem eff_key : ∀ r : Fin 4, (Dict.row (Key.key.KEY_MONITOR + r)).map (·.eff) = some .acc := by decide +kernel

theorem exists_of_isKey {k : Nat} (h : isKey k = true) : ∃ r : Fin 4, k = Key.key.KEY_MONITOR + r := by
  have hbounds : Key.key.KEY_MONITOR ≤ k ∧ k ≤ Key.key.KEY_SERVICE := of_decide_eq_true h
  have hlast : Key.key.KEY_SERVICE = Key.key.KEY_MONITOR + 3 := rfl
  exact ⟨⟨k - Key.key.KEY_MONITOR, by omega⟩, by simp only; omega⟩

/-- The masked segment of a role's key completes its transfer, and writes the key (R402, R414). -/
theorem keyWrite_answer {v : List Byte} (h : s.Hears 0x15 m x) (hrole : 1 ≤ x.role) (hk : k = keyAt m.payload 0) (hkey : isKey k = true)
    (hlen : m.payload.length = 44) (hoffset : leAt m.payload 4 4 = 0) (htotal : leAt m.payload 8 4 = 32)
    (hv : v = List.zipWith (fun a b => a ^^^ b) (m.payload.drop 12) (keyMask x.key m.sequence)) (hzero : v ≠ List.replicate 32 0)
    (hhead : firstFault (((s.noted 0x15 m).headFaults ⟨m.session, x.role⟩ k (some .blob) (.bytes [])).filter
      fun st => st != St.range) = St.ok)
    (hst : (s.noted 0x15 m).writeStatus ⟨m.session, x.role⟩ k (some .blob) (.bytes v) = St.ok) :
    Opcode.answer (some opBlockWrite) (s.noted 0x15 m) x m = {
      status := St.ok, body := le 4 32 ++ le 8 s.now,
      does := .session m.session (Option.map fun y => { y with xfer := none }) ::
        entryTakes ⟨m.session, x.role⟩ k (.bytes v) (s.noted 0x15 m) } := by
  obtain ⟨r, hkr⟩ := exists_of_isKey hkey
  obtain ⟨row, hr, heff⟩ := Option.map_eq_some_iff.1 (eff_key r)
  rw [← hkr] at hr
  have hplain : PlainEntry k := hkr ▸ plainEntry_key r
  have hmask : ((s.noted 0x15 m).session m.session).map (·.key) = some x.key := by rw [h.notes]; rfl
  refine answer_of_passes (by simp [opBlockWrite, hlen]) (if_pos (Nat.one_le_iff_ne_zero.1 hrole)) ?_ (by simp)
  have hdrop : (m.payload.drop 12).length = 32 := by simp [hlen]
  simp only [opBlockWrite, ← hk, h.writerOf, hhead, hr, hkey, ne_eq, not_true_eq_false, if_false, if_true, State.keySegment, hmask,
    Option.getD_some, ← hv, hoffset, htotal, hdrop, hzero, or_self, State.blockDone, hplain.writeReply_now hr heff hst,
    hplain.writeDo_now hr heff hst, now_noted]
  rfl

/-- What a write of a key does: it is set, and saved; the rest is the wear of the store (R399, R402, R478). -/
theorem entryTakes_key {v : List Byte} (r : Fin 4) (hv : v.length = 32) (w : Writer) (s : State) :
    ∃ n u, entryTakes w (Key.key.KEY_MONITOR + r) (.bytes v) s =
      .reg (Key.key.KEY_MONITOR + r) (.bytes v) :: .save (Key.key.KEY_MONITOR + r) (some (.bytes v)) ::
        (norWrite n u).map (Effect.by w.session) := by
  obtain ⟨row, hr, hacc, hty, hp⟩ := row_key r
  have hset : (s.set (Key.key.KEY_MONITOR + r) (.bytes v)).get (Key.key.KEY_MONITOR + r) = .bytes v := by
    rw [s.get_set _ _ _ hr hacc, if_pos rfl, Ty.norm_eq_self (by simp [hty, Ty.ok, hv])]
  rw [(plainEntry_key r).entryTakes_eq, persist, hr]
  simp only [hp, hty, hset, Bool.not_true, Bool.false_eq_true, if_false, if_true, List.map_cons]
  exact ⟨_, _, rfl⟩

/-- A key that is written stands and is stored, and beside it only the store's wear shows (R402, R478). -/
theorem run_entryTakes_key {v : List Byte} (r : Fin 4) (hv : v.length = 32) (w : Writer) (s u : State) :
    let t := u.run (entryTakes w (Key.key.KEY_MONITOR + r) (.bytes v) s)
    t.blob (Key.key.KEY_MONITOR + r) = v ∧
      Tbl.get (fun _ => none) t.store (Key.key.KEY_MONITOR + r) = some (.bytes v) ∧
      (∀ j, j ≠ Key.key.KEY_MONITOR + r → j ∉ wearKeys → t.get j = u.get j) ∧ t.mode = u.mode := by
  obtain ⟨row, hr, hacc, hty, -⟩ := row_key r
  obtain ⟨n, x, htakes⟩ := entryTakes_key r hv w s
  obtain ⟨hspared, -, hstored⟩ := norWrite_spares n x
  have hkey : Key.key.KEY_MONITOR + r ∉ wearKeys := (by decide : ∀ r : Fin 4, Key.key.KEY_MONITOR + r ∉ wearKeys) r
  have hby : ∀ e ∈ (norWrite n x).map (Effect.by w.session), e.SparesStored (Key.key.KEY_MONITOR + r) := fun e he => by
    obtain ⟨d, hd, rfl⟩ := List.mem_map.1 he
    exact (hstored _ hkey d hd).by _
  obtain ⟨hget, hmode, -⟩ := (hspared.by w.session).run
    ((u.set (Key.key.KEY_MONITOR + r) (.bytes v)).apply (.save (Key.key.KEY_MONITOR + r) (some (.bytes v))))
  intro t
  have ht : t = ((u.set (Key.key.KEY_MONITOR + r) (.bytes v)).apply (.save (Key.key.KEY_MONITOR + r) (some (.bytes v)))).run
      ((norWrite n x).map (Effect.by w.session)) := congrArg u.run htakes
  rw [ht]
  refine ⟨?_, (State.stored_run hby _).trans ((State.stored_apply_save ..).trans (if_pos rfl)),
    fun j hj hwear => (hget j hwear).trans (u.get_set_ne _ _ _ (Ne.symm hj)), hmode.trans (u.set_mode _ _)⟩
  rw [State.blob, hget _ hkey, State.apply_save_get, u.get_set _ _ _ hr hacc, if_pos rfl,
    Ty.norm_eq_self (by simp [hty, Ty.ok, hv])]
  rfl

/-- Nothing that a write of a key does beside its transfer touches a session. -/
theorem entryTakes_key_sparesSessions {v : List Byte} (r : Fin 4) (hv : v.length = 32) (w : Writer) (s : State) :
    ∀ e ∈ entryTakes w (Key.key.KEY_MONITOR + r) (.bytes v) s, e.SparesSessions := by
  obtain ⟨n, x, htakes⟩ := entryTakes_key r hv w s
  obtain ⟨-, hspares, -⟩ := norWrite_spares n x
  rw [htakes]
  refine List.forall_mem_cons.2 ⟨trivial, List.forall_mem_cons.2 ⟨trivial, fun e he => ?_⟩⟩
  obtain ⟨d, hd, rfl⟩ := List.mem_map.1 he
  exact (hspares d hd).by _

/-- KEY_WRITE sets and stores the key, and its session is answered (R402). -/
theorem State.Hears.wroteKey {v : List Byte} {st : Nat} {body : List Byte} (h : s.Hears 0x15 m x) (r : Fin 4) (hv : v.length = 32)
    (ha : Opcode.answer (some opBlockWrite) (s.noted 0x15 m) x m = {
      status := st, body := body,
      does := .session m.session (Option.map fun y => { y with xfer := none }) ::
        entryTakes ⟨m.session, x.role⟩ (Key.key.KEY_MONITOR + r) (.bytes v) (s.noted 0x15 m) }) :
    let t := s.does (request 0x15 (some opBlockWrite) m)
    t.Answered 0x15 m st body ∧ t.blob (Key.key.KEY_MONITOR + r) = v ∧
      Tbl.get (fun _ => none) t.store (Key.key.KEY_MONITOR + r) = some (.bytes v) ∧
      (∀ j, j ≠ Key.key.KEY_MONITOR + r → j ∉ wearKeys → t.get j = s.get j) ∧ t.mode = s.mode := by
  obtain ⟨a, hanswer⟩ : ∃ a : Answer, a = {
    status := st, body := body,
    does := .session m.session (Option.map fun y => { y with xfer := none }) ::
      entryTakes ⟨m.session, x.role⟩ (Key.key.KEY_MONITOR + r) (.bytes v) (s.noted 0x15 m) } := ⟨_, rfl⟩
  let u := (s.noted 0x15 m).apply (.session m.session (Option.map fun y => { y with xfer := none }))
  have hcarried : s.carried 0x15 m a =
      u.run (entryTakes ⟨m.session, x.role⟩ (Key.key.KEY_MONITOR + r) (.bytes v) (s.noted 0x15 m)) := by
    have hmap := (List.map_congr_left
      (entryTakes_quiet ⟨m.session, x.role⟩ (Key.key.KEY_MONITOR + r) (.bytes v) (s.noted 0x15 m))).trans (List.map_id _)
    rw [State.carried, hanswer, List.map_cons, State.run_cons, hmap]
    rfl
  obtain ⟨hblob, hstored, hget, hmode⟩ := run_entryTakes_key r hv ⟨m.session, x.role⟩ (s.noted 0x15 m) u
  rw [← hcarried] at hblob hstored hget hmode
  have hopen : u.session m.session = some { x.notes 0x15 m s.mtbNs with xfer := none } := by
    rw [State.session_apply_session, if_pos rfl, h.notes]
    rfl
  have hcore : (s.carried 0x15 m a).core m.session = some ({ x.notes 0x15 m s.mtbNs with xfer := none } : Session).core := by
    rw [hcarried, State.core_run_of_spares (entryTakes_key_sparesSessions r hv _ _)]
    exact State.core_of_session hopen
  obtain ⟨y, hy, hyc⟩ := Option.map_eq_some_iff.1 hcore
  have hnoted : (s.carried 0x15 m a).HasNoted 0x15 m :=
    ⟨y, hy, (congrArg Session.sLast hyc :), (congrArg Session.lastOp hyc :), (congrArg Session.lastReq hyc :)⟩
  have hframe := answered_frame (s.carried 0x15 m a) 0x15 m a (some x.key)
  have hbefore := noted_frame s 0x15 m
  have hanswered := answered_of_hasNoted hnoted a (some x.key)
  intro t
  have ht : t = ((s.carried 0x15 m a).apply (keepAnswer m a)).does (respond m 0x15 m.session (some x.key) a.status a.body) :=
    does_request h (ha.trans hanswer.symm)
  rw [ht]
  refine ⟨?_, (congrArg Value.octets (hframe.get List.not_mem_nil)).trans hblob, (congrArg (Tbl.get _ · _) hframe.store).trans hstored,
    fun j hj hwear => (hframe.get List.not_mem_nil).trans ((hget j hj hwear).trans (hbefore.get List.not_mem_nil)),
    hframe.mode.trans (hmode.trans hbefore.mode)⟩
  subst hanswer
  exact hanswered

end Requests

/-- Settles O55: each write is the accepted write of its entry and an answer, or a refusal that does nothing. -/
theorem writesTakeEffectAndAreAnswered : Obligations.WritesTakeEffectAndAreAnswered := by
  refine ⟨fun s m x k t' v r h hrole hitem hr hacc => ⟨fun hst heff hok hty hk _ => ?_, fun st hne hst => ?_⟩,
    fun s m x k t' v r h hrole hitems hr hacc heff hok hty hk hst _ => ?_,
    fun s m x k r data h hrole hdata hlen hk hr hkey himage hoffset hmore hrange hhead => ?_,
    fun s m x k v h hrole hk hkey hlen hoffset htotal hv hvlen hzero hhead hst => ?_⟩
  · have hconst : r.acc ≠ .const := by rw [hacc]; decide
    obtain ⟨hanswered, hget, hother, hmode⟩ := h.wrote hk hr hconst hok hty (write_answer_ok h hrole hitem hk hr heff hst)
    exact ⟨_, rfl, hanswered, hget, hother, hmode⟩
  · exact ⟨_, rfl, h.replied (write_answer_refused h hrole hitem hr (by rw [hacc]; decide) hne hst)⟩
  · have hconst : r.acc ≠ .const := by rw [hacc]; decide
    obtain ⟨hanswered, hget, hother, hmode⟩ := h.wrote hk hr hconst hok hty (writem_answer h hrole hitems hk hr heff hst)
    exact ⟨_, rfl, hget, hother, hmode, hanswered⟩
  · obtain ⟨hanswered, hframe, z, hz, hcore⟩ :=
      h.changes (blockWrite_answer h hrole hdata hlen hk hr hkey himage hoffset hmore hrange hhead) .nil rfl
    exact ⟨_, rfl, hanswered, hframe, z, hz, (congrArg Session.xfer hcore :)⟩
  · have ha := keyWrite_answer h hrole hk hkey hlen hoffset htotal hv hzero hhead hst
    have hrequest : keyRequest m = request 0x15 (some opBlockWrite) m := if_pos ⟨by omega, hk ▸ hkey⟩
    obtain ⟨r, rfl⟩ := exists_of_isKey hkey
    obtain ⟨hanswered, hblob, hstored, hget, hmode⟩ := h.wroteKey r hvlen ha
    refine ⟨_, congrArg (fun p => s.goes p) hrequest, hanswered, hblob, hstored,
      fun j hj hevent hwear => hget j hj fun hmem => ?_, hmode⟩
    simp only [wearKeys, List.mem_cons, List.not_mem_nil, or_false] at hmem
    rcases hmem with rfl | rfl | rfl
    · exact hwear rfl
    · exact hwear rfl
    · exact hevent rfl

end Sys2Proof.Machine
end

section
/-!
Waiting writes at their boundary (R395, R399, R457): the entry takes its value, and what it controls follows.
-/

namespace Sys2Proof.Machine

/-! ### An entry whose write takes effect at once, with no crossing to wait for -/

/-- Whether the entry has no reserved bits and never waits for a crossing, and is no blob, for the kernel to evaluate. -/
def promptTest (k : Nat) : Bool :=
  k != Key.fan.FAN_PRESENT && k != Key.fence.FAULT_MASK && k != Key.hs.HS_CLEAR && !isZcEntry (k / 256) (k % 256)
    && !decide (0x6000 ≤ k / 256 ∧ k / 256 < 0x6010 ∧ 18 ≤ k % 256 ∧ k % 256 ≤ 20) && (Dict.row k).all fun r => r.ty != .blob

/-- What `promptTest` tests. -/
structure Prompt (k : Nat) : Prop where
  reserved : ∀ v, reserved k v = v
  crossing : ∀ s : State, s.changesAtCrossing k = false
  plain : ∀ r, Dict.row k = some r → r.ty ≠ .blob

theorem prompt_of_test {k : Nat} (h : promptTest k = true) : Prompt k := by
  simp only [promptTest, Bool.and_eq_true, bne_iff_ne, Bool.not_eq_true', decide_eq_false_iff_not] at h
  obtain ⟨⟨⟨⟨⟨hfan, hmask⟩, hclear⟩, hzc⟩, hfallback⟩, hrow⟩ := h
  refine ⟨fun v => ?_, fun s => ?_, fun r hr => ?_⟩
  · rw [reserved, if_neg hfan, if_neg hmask, if_neg hclear]
  · rw [State.changesAtCrossing, hzc, decide_eq_false hfallback]
    rfl
  · rw [hr] at hrow
    simpa using hrow

/-! ### At the boundary -/

/-- Entries, mode and units stand alike. -/
structure State.Same (s t : State) : Prop where
  get : ∀ k, t.get k = s.get k
  mode : t.mode = s.mode
  units : t.units = s.units

theorem State.Same.num {s t : State} (h : s.Same t) (k : Nat) : t.num k = s.num k := congrArg Value.int (h.get k)

section Boundary
variable {s : State} {k role n : Nat} {v : Value}

/-- What is not served, or stands between boundaries, does nothing (R395, R457). -/
theorem atBlock_idle (h : s.units.mgmt.served = false ∨ s.atBoundary = false) (p : Phase) : s.does (atBlock p) = s := by
  rw [State.does, atBlock, whenP]
  split
  · next hb =>
    rcases h with h | h
    · rw [changesServed, if_neg (by simp [h])]
      rfl
    · rw [hb] at h
      cases h
  · rfl

/-- The one write that waits takes effect at the boundary (R395). -/
theorem does_deferredWrites (hserved : s.units.mgmt.served = true) (hmode : s.mode ≠ .boot) (hb : s.atBoundary = true)
    (hw : s.units.waiting = [⟨k, v, role, n⟩]) :
    ∃ c, s.does deferredWrites = (s.taken c).does (entryTakes ⟨n, role⟩ k v) := by
  obtain ⟨c, hc⟩ := does_probes s (List.range 16)
  have hone : armingsLast (fun x : Waiting => x.key) [⟨k, v, role, n⟩] = [⟨k, v, role, n⟩] := by
    cases h : isArming k <;> simp [armingsLast, h]
  have hsteps : ({ s with units := { s.units with chans := c } } : State).does waitingApply =
      ({ s with units := { s.units with chans := c } } : State).run (waitingApply { s with units := { s.units with chans := c } }) := rfl
  refine ⟨c, ?_⟩
  rw [deferredWrites, does_atBlock hserved hmode hb, hc, hsteps, waitingApply]
  simp only [hw, hone, forAll, List.map_cons, List.map_nil]
  refine Eq.trans (State.does_phases_cons _ _ _) ?_
  rw [State.does_phases_cons, State.does_phases_nil, State.does_always, State.does_phases_cons, State.does_phases_nil]
  rfl

/-- An entry that does not persist is not stored (R399). -/
theorem persist_of_not_p (h : (Dict.row k).map (·.p) = some false) (s : State) : persist k s = [] := by
  obtain ⟨r, hr, hp⟩ := Option.map_eq_some_iff.1 h
  rw [persist, hr]
  simp [hp]

/-- Saving a value that is no blob changes the store alone. -/
theorem persist_same (hplain : ∀ r, Dict.row k = some r → r.ty ≠ .blob) (s t : State) (n : Nat) :
    s.Same (s.run ((persist k t).map (Effect.by n))) := by
  rw [persist]
  split
  · exact ⟨fun _ => rfl, rfl, rfl⟩
  · next r hr =>
    split
    · exact ⟨fun _ => rfl, rfl, rfl⟩
    · rw [if_neg (hplain r hr)]
      exact ⟨fun _ => rfl, rfl, rfl⟩

/-- The waiting write of a prompt entry does what the entry does, for the session that has written it. -/
theorem deferredWrites_same (hserved : s.units.mgmt.served = true) (hmode : s.mode ≠ .boot) (hb : s.atBoundary = true)
    (hk : Prompt k) (hw : s.units.waiting = [⟨k, v, role, n⟩]) :
    ∃ c, ((s.taken c).does (causedBy n (entryDoes ⟨n, role⟩ k v))).Same (s.does deferredWrites) := by
  obtain ⟨c, hc⟩ := does_deferredWrites hserved hmode hb hw
  refine ⟨c, ?_⟩
  rw [hc, entryTakes_of_plain (hk.reserved v) hk.crossing, does_causedBy_pair]
  exact persist_same hk.plain _ _ _

end Boundary

/-! ### An entry that keeps its value while its effect runs -/

/-- Whether the entry can hold the number, for the kernel to evaluate. -/
def holdsTest (k : Nat) (v : Int) : Bool := (Dict.row k).any fun r => r.acc != .const && r.ty.ok (.num v)

/-- An entry of an integer type can hold what lies in the type. -/
theorem holdsTest_of_width {k b : Nat} {sg : Bool} {v : Int} (hw : Dict.width k = some (b, sg)) (hv : intOk b sg v = true) :
    holdsTest k v = true := by
  obtain ⟨r, hr, hint⟩ := Option.bind_eq_some_iff.1 hw
  split at hint
  · cases hint
  · next hacc =>
    refine (Option.any_eq_true _ _).2 ⟨r, hr, ?_⟩
    have hok : r.ty.ok (.num v) = true := by cases hty : r.ty <;> simp_all [Ty.ok, Ty.int]
    simp [hacc, hok]

section Holds
variable {α : Type} {π : Units → α} {ks : List Nat} {k n : Nat} {v : Int} {rest : List Phase}

theorem State.num_set_of_holds (h : holdsTest k v = true) (s : State) : (s.set k (.num v)).num k = v := by
  obtain ⟨r, hr, hok⟩ := (Option.any_eq_true _ _).1 h
  simp only [Bool.and_eq_true, bne_iff_ne] at hok
  rw [State.num, s.get_set _ _ _ hr hok.1, if_pos rfl, Ty.norm_eq_self hok.2]
  rfl

/-- A number that is written stands, where nothing that follows writes its entry. -/
theorem Confined.num_holds {es : List Effect} (hes : Confined ks π es) (h : holdsTest k v = true) (hk : k ∉ ks) (s : State) :
    (s.run (.num k v :: es)).num k = v :=
  ((hes.frame _).num hk).trans (State.num_set_of_holds h s)

theorem does_causedBy_congr {p q : Phase} {s : State} (h : p s = q s) : s.does (causedBy n p) = s.does (causedBy n q) :=
  congrArg (fun es : List Effect => s.run (es.map (Effect.by n))) h

/-- An entry that keeps its value and then does the rest for a session. -/
theorem does_causedBy_keep (n : Nat) (k : Nat) (v : Value) (rest : List Phase) (s : State) :
    s.does (causedBy n (phases (always [.reg k v] :: rest))) = (s.apply (.reg k v)).does (causedBy n (phases rest)) := by
  rw [does_causedBy_quiet_cons (by simp [always, Effect.by]), State.does_always, State.run_cons, State.run_nil]

/-- It holds its value, and what the rest leaves of the units stays. -/
theorem keep_leaves (h : holdsTest k v = true) (hrest : ∀ p ∈ rest, Phase.Within ks π p) (hk : k ∉ ks) (hπ : EventBlind π)
    (s : State) :
    (s.does (causedBy n (phases (always [.reg k (.num v)] :: rest)))).num k = v ∧
      π (s.does (causedBy n (phases (always [.reg k (.num v)] :: rest)))).units = π s.units := by
  have hall := (Phase.within_phases hrest (s.apply (.reg k (.num v)))).by n
  rw [does_causedBy_keep]
  exact ⟨((hall.frame _).num hk).trans (State.num_set_of_holds h s),
    (hall.units hπ _).trans (congrArg π (State.apply_reg_units ..))⟩

end Holds

/-! ### The entries -/

/-- What a chapter ties to the entry of a table of `count` indices from `base`. -/
theorem entryDoes_of_line {base count sub line i : Nat} {w : Writer} {v : Value} {f : Nat → Phase}
    (hindex : ∀ i < count, specialKeys.findIdx (coversKey ((base + i) * 256 + sub)) = line) (hsub : sub < 256) (hi : i < count)
    (hline : (specialEffects w ((base + i) * 256 + sub) v)[line]? = some (base, count, sub, f)) :
    entryDoes w ((base + i) * 256 + sub) v = f i := by
  refine (entryDoes_of_findIdx (hindex i hi) hline).trans ?_
  have hquot : ((base + i) * 256 + sub) / 256 - base = i := by omega
  rw [hquot]

section Entries
variable (w : Writer) (v : Int)

theorem entryDoes_stateReq (i : Fin 64) : entryDoes w (Key.ls.STATE_REQ i) (.num v) = phases [always [.reg (Key.ls.STATE_REQ i) (.num v)],
    always [.slot i fun x => { x with reqWait := some v.toNat }], divergeWritten (Key.ls.STATE_REQ i)] :=
  entryDoes_of_line (line := 48) (by decide +kernel) (by decide) i.isLt rfl

theorem entryDoes_man (i : Fin 64) : entryDoes w (Key.ls.MAN i) (.num v) = phases [always [.reg (Key.ls.MAN i) (.num v)],
    always [.slot i fun x => { x with manWait := some v }]] :=
  entryDoes_of_line (line := 49) (by decide +kernel) (by decide) i.isLt rfl

theorem entryDoes_chEn (c : Fin 16) : entryDoes w (Key.pw.CH_EN c) (.num v) = phases [always [.reg (Key.pw.CH_EN c) (.num v)],
    chEnEffect c v, divergeWritten (Key.pw.CH_EN c)] :=
  entryDoes_of_line (line := 55) (by decide +kernel) (by decide) c.isLt rfl

theorem entryDoes_flEnable (g : Fin 4) : entryDoes w (Key.fl.FL_ENABLE g) (.num v) = phases [always [.reg (Key.fl.FL_ENABLE g) (.num v)],
    flEnable g (v == 1), divergeWritten (Key.fl.FL_ENABLE g)] :=
  entryDoes_of_line (line := 52) (by decide +kernel) (by decide) g.isLt rfl

theorem entryDoes_domainNumber (d : Fin 4) : entryDoes w (Key.dtb.DOMAIN_NUMBER d) (.num v) = fun s =>
    if s.num (Key.dtb.DOMAIN_NUMBER d) = v then (if (s.tbase d).fenced then dtbUnfence d s else [])
    else phases [always [.reg (Key.dtb.DOMAIN_NUMBER d) (.num v)], domainNumberEffect d v] s :=
  entryDoes_of_line (line := 23) (by decide +kernel) (by decide) d.isLt rfl

theorem entryDoes_actState (a : Fin 64) : entryDoes w (Key.act.ACT_STATE a) (.num v) = armEffect a w v :=
  entryDoes_of_line (line := 32) (by decide +kernel) (by decide) a.isLt rfl

theorem entryDoes_sgState (g : Fin 8) :
    entryDoes w (Key.sg.SG_STATE g) (.num v) = always [.num (Key.sg.SG_STATE g) v, .sg g fun _ => {}] :=
  entryDoes_of_line (line := 33) (by decide +kernel) (by decide) g.isLt rfl

theorem entryDoes_sgGo (g : Fin 8) : entryDoes w (Key.sg.SG_GO g) (.num v) = fun s =>
    if s.num (Key.sg.SG_STATE g) = 1 ∧ s.num (Key.sg.SG_TRIGGER g) = 0 then [.sg g fun x => { x with go := some v.toNat }] else [] :=
  entryDoes_of_line (line := 34) (by decide +kernel) (by decide) g.isLt rfl

theorem entryDoes_measChannels : entryDoes w Key.meas.MEAS_CHANNELS (.num v) = fun s =>
    phases [always [.reg Key.meas.MEAS_CHANNELS (.num v)], measChannelsEffect (s.nat Key.meas.MEAS_CHANNELS) v.toNat] s :=
  entryDoes_of_findIdx (n := 58) (by decide +kernel) rfl

theorem entryDoes_gState (g : Fin 4) : entryDoes w (Key.gen.G_STATE g) (.num v) = gStateEffect g v.toNat :=
  entryDoes_of_line (line := 59) (by decide +kernel) (by decide) g.isLt rfl

theorem entryDoes_cState (k : Fin 8) : entryDoes w (Key.cap.C_STATE k) (.num v) = cStateEffect k v.toNat :=
  entryDoes_of_line (line := 61) (by decide +kernel) (by decide) k.isLt rfl

end Entries

/-! ### What each leaves -/

section Leaves
variable {s : State} {n : Nat} {w : Writer} {v : Int}

theorem divergeWritten_waiting (k : Nat) : Phase.Within [Key.fence.DIVERGE_OPEN] (fun u : Units => u.waiting) (divergeWritten k) :=
  divergeWritten_within (fun _ _ => rfl) k

theorem slot_waiting (i : Nat) (f : Slot → Slot) (ks : List Nat) :
    Phase.Within ks (fun u : Units => u.waiting) (always [.slot i f]) := fun _ => confined_cons.2 ⟨fun _ => rfl, .nil⟩

/-- The slot's request waits for its tick (R222, R395). -/
theorem stateReq_leaves (i : Fin 64) (hv : v ∈ [0, 1]) :
    let t := s.does (causedBy n (entryDoes w (Key.ls.STATE_REQ i) (.num v)))
    t.num (Key.ls.STATE_REQ i) = v ∧ (t.slot i).reqWait = some v.toNat ∧ t.units.waiting = s.units.waiting := by
  have hholds : ∀ i : Fin 64, ∀ v ∈ [0, 1], holdsTest (Key.ls.STATE_REQ i) v = true := by decide +kernel
  have hout : ∀ i : Fin 64, Key.ls.STATE_REQ i ∉ [Key.fence.DIVERGE_OPEN] := by decide
  have hslots := (Phase.within_causedBy n (Phase.within_phases (ks := [Key.fence.DIVERGE_OPEN]) (π := fun u : Units => u.slots)
    (List.forall_mem_singleton.2 (divergeWritten_within (fun _ _ => rfl) (Key.ls.STATE_REQ i))))).units fun _ _ _ _ _ _ => rfl
  simp only [entryDoes_stateReq]
  have hrest : ∀ p ∈ [always [.slot i fun x => { x with reqWait := some v.toNat }], divergeWritten (Key.ls.STATE_REQ i)],
      Phase.Within [Key.fence.DIVERGE_OPEN] (fun u : Units => u.waiting) p :=
    List.forall_mem_cons.2 ⟨slot_waiting _ _ _, List.forall_mem_singleton.2 (divergeWritten_waiting _)⟩
  obtain ⟨hnum, hwaiting⟩ := keep_leaves (n := n) (hholds i v hv) hrest (hout i) (fun _ _ _ _ _ _ => rfl) s
  refine ⟨hnum, ?_, hwaiting⟩
  rw [does_causedBy_keep, does_causedBy_quiet_cons (by simp [always, Effect.by, Effect.slot])]
  refine (congrArg (fun l => (Tbl.at ({} : Slot) l i).reqWait) (hslots _)).trans ?_
  exact congrArg Slot.reqWait ((State.slot_apply_slot ..).trans (if_pos rfl))

/-- The slot's manual value waits for its tick (R224, R395). -/
theorem man_leaves (i : Fin 64) (hlo : -2 ^ 31 ≤ v) (hhi : v < 2 ^ 31) :
    let t := s.does (causedBy n (entryDoes w (Key.ls.MAN i) (.num v)))
    t.num (Key.ls.MAN i) = v ∧ (t.slot i).manWait = some v ∧ t.units.waiting = s.units.waiting := by
  have hholds : holdsTest (Key.ls.MAN i) v = true :=
    holdsTest_of_width (width_man i.isLt) (decide_eq_true ⟨hlo, hhi⟩)
  simp only [entryDoes_man]
  obtain ⟨hnum, hwaiting⟩ := keep_leaves (n := n) hholds (rest := [always [.slot i fun x => { x with manWait := some v }]])
    (List.forall_mem_singleton.2 (slot_waiting _ _ [])) List.not_mem_nil (fun _ _ _ _ _ _ => rfl) s
  refine ⟨hnum, ?_, hwaiting⟩
  rw [does_causedBy_keep, does_causedBy_quiet_cons (by simp [always, Effect.by, Effect.slot])]
  exact congrArg Slot.manWait ((State.slot_apply_slot ..).trans (if_pos rfl))

/-- What a start or a stop of a channel writes. -/
def startStopKeys (c : Nat) : List Nat := startKeys c ++ fenceFastKeys c

theorem startDue_waiting (c : Nat) : Phase.Within (startStopKeys c) (fun u : Units => u.waiting) (startDue c) :=
  (startDue_within (fun _ _ _ _ => rfl) c).mono (List.subset_append_left ..)

theorem stopBegin_waiting (c : Nat) (fast : Bool) : Phase.Within (startStopKeys c) (fun u : Units => u.waiting) (stopBegin c fast) :=
  (stopBegin_within (fun _ _ => rfl) (fun _ _ => rfl) fast).mono (List.subset_append_right ..)

/-- The channel starts or stops (R280, R281). -/
theorem chEn_leaves (c : Fin 16) (hv : v ∈ [0, 1]) :
    let t := s.does (causedBy n (entryDoes w (Key.pw.CH_EN c) (.num v)))
    t.num (Key.pw.CH_EN c) = v ∧ t.units.waiting = s.units.waiting := by
  have hholds : ∀ c : Fin 16, ∀ v ∈ [0, 1], holdsTest (Key.pw.CH_EN c) v = true := by decide +kernel
  have hout : ∀ c : Fin 16, Key.pw.CH_EN c ∉ startStopKeys c ++ [Key.fence.DIVERGE_OPEN] := by decide
  have heffect : Phase.Within (startStopKeys c ++ [Key.fence.DIVERGE_OPEN]) (fun u : Units => u.waiting) (chEnEffect c v) := by
    unfold chEnEffect
    split
    · exact (startDue_waiting c).mono (List.subset_append_left ..)
    · exact (stopBegin_waiting c false).mono (List.subset_append_left ..)
  simp only [entryDoes_chEn]
  exact keep_leaves (hholds c v hv) (List.forall_mem_cons.2 ⟨heffect, List.forall_mem_singleton.2
    ((divergeWritten_waiting _).mono (List.subset_append_right ..))⟩) (hout c) (fun _ _ _ _ _ _ => rfl) s

/-- The channels under measurement start, and those that leave it stop (R306). -/
theorem measChannels_leaves (hlo : 0 ≤ v) (hhi : v < 65536) :
    let t := s.does (causedBy n (entryDoes w Key.meas.MEAS_CHANNELS (.num v)))
    t.num Key.meas.MEAS_CHANNELS = v ∧ t.units.waiting = s.units.waiting := by
  have hholds : holdsTest Key.meas.MEAS_CHANNELS v = true :=
    holdsTest_of_width (b := 16) (sg := false) (by decide +kernel) (decide_eq_true ⟨hlo, hhi⟩)
  have hout : Key.meas.MEAS_CHANNELS ∉ (List.range 16).flatMap startStopKeys := by decide
  have heffect (old new : Nat) : Phase.Within ((List.range 16).flatMap startStopKeys) (fun u : Units => u.waiting)
      (measChannelsEffect old new) := by
    intro x
    refine confined_ite.2 ⟨fun _ => .nil, fun _ => Phase.within_forAll (fun c hc => ?_) x⟩
    have hsub : startStopKeys c ⊆ (List.range 16).flatMap startStopKeys := fun k hk => List.mem_flatMap.2 ⟨c, hc, hk⟩
    split
    · exact (startDue_waiting c).mono hsub
    · split
      · exact (stopBegin_waiting c false).mono hsub
      · exact fun _ => .nil
  have hdoes (x : State) : x.does (causedBy n (entryDoes w Key.meas.MEAS_CHANNELS (.num v))) = x.does (causedBy n (phases
      [always [.reg Key.meas.MEAS_CHANNELS (.num v)], measChannelsEffect (x.nat Key.meas.MEAS_CHANNELS) v.toNat])) := by
    rw [entryDoes_measChannels]
    rfl
  simp only [hdoes]
  exact keep_leaves hholds (List.forall_mem_singleton.2 (heffect _ _)) hout (fun _ _ _ _ _ _ => rfl) s

/-! #### The learner -/

/-- What a change of the learner's state writes (R239, R240). -/
def flKeys (g : Nat) : List Nat := [Key.fl.FL_STATE g, Key.evt.EVT_RAISED, Key.fl.FL_HOLDS g]

theorem setFl_waiting (g new : Nat) : Phase.Within (flKeys g) (fun u : Units => u.waiting) (setFl g new) := by
  have hlearner (f : Learner → Learner) : (Effect.learner g f).Within (flKeys g) (fun u : Units => u.waiting) := fun _ => rfl
  intro s
  simp only [setFl]
  refine confined_ite.2 ⟨fun _ => .nil, fun _ => confined_append.2 ⟨confined_append.2 ⟨?_, ?_⟩, ?_⟩⟩
  · exact confined_cons.2 ⟨by simp [flKeys], confined_cons.2 ⟨by simp [flKeys], confined_cons.2 ⟨hlearner _, .nil⟩⟩⟩
  · exact confined_ite.2 ⟨fun _ => confined_cons.2 ⟨by simp [flKeys], confined_cons.2 ⟨hlearner _, .nil⟩⟩, fun _ => .nil⟩
  · exact confined_ite.2 ⟨fun _ => confined_cons.2 ⟨hlearner _, .nil⟩, fun _ => .nil⟩

theorem flEnable_waiting (g : Nat) (on : Bool) : Phase.Within (flKeys g) (fun u : Units => u.waiting) (flEnable g on) := by
  intro s
  simp only [flEnable]
  refine confined_ite.2 ⟨fun _ => confined_ite.2 ⟨fun _ => setFl_waiting g _ s, fun _ => .nil⟩,
    fun _ => confined_ite.2 ⟨fun _ => .nil, fun _ => ?_⟩⟩
  exact confined_ite.2 ⟨fun _ => setFl_waiting g 0 s, fun _ => confined_cons.2 ⟨fun _ => rfl, .nil⟩⟩

/-- A write of another entry leaves whether the learner may change its state now (R239). -/
theorem State.flFree_set (s : State) {k : Nat} (v : Value) (g : Nat)
    (htick : k ≠ Key.loop.TICK_INDEX) (hepoch : k ≠ Key.mtb.EPOCH_OFFSET) :
    (s.set k v).flFree g = s.flFree g := by
  have hindex : (s.set k v).nat Key.loop.TICK_INDEX = s.nat Key.loop.TICK_INDEX := by
    rw [State.nat, s.get_set_ne _ _ _ htick, State.nat]
  have hoffset : (s.set k v).num Key.mtb.EPOCH_OFFSET = s.num Key.mtb.EPOCH_OFFSET := by
    rw [State.num, s.get_set_ne _ _ _ hepoch, State.num]
  simp only [State.flFree, State.ticked, State.tickNow, State.now, State.mtbNs, State.learner, s.set_mtb, s.set_units, hindex, hoffset]

/-- A learner that is switched off returns to its first state at once, or at the coming tick (R239, R241). -/
theorem flEnable_off_leaves {g : Nat} (hg : g < 4) (x : State) (hstate : x.flState g ∉ [0, 4]) (n k : Nat) :
    let t := x.does (causedBy n (phases [flEnable g false, divergeWritten k]))
    (x.flFree g = true → t.flState g = 0) ∧ (x.flFree g = false → (t.learner g).due = flHigher (x.learner g).due (some 0)) := by
  obtain ⟨hzero, hfour⟩ : x.flState g ≠ 0 ∧ x.flState g ≠ 4 := by simpa using hstate
  have hoff : flEnable g false x = flChange g 0 x := if_neg (not_or.2 ⟨hzero, hfour⟩)
  have hopen : Key.fl.FL_STATE g ∉ [Key.fence.DIVERGE_OPEN] := by
    simp only [Key.fl.FL_STATE, Key.fence.DIVERGE_OPEN, List.mem_singleton]
    omega
  intro t
  have ht : t = (x.does (causedBy n (flEnable g false))).run
      ((phases [divergeWritten k] (x.does (flEnable g false))).map (Effect.by n)) := does_causedBy_cons ..
  have hwritten {α : Type} {π : Units → α}
      (hm : ∀ u (d : Mgmt → List Nat), π (Units.onMgmt u fun m => { m with divergedOpen := d m }) = π u) :
      Confined [Key.fence.DIVERGE_OPEN] π ((phases [divergeWritten k] (x.does (flEnable g false))).map (Effect.by n)) :=
    (Phase.within_phases (List.forall_mem_singleton.2 (divergeWritten_within hm k)) _).by n
  rw [ht]
  refine ⟨fun hfree => ?_, fun hbusy => ?_⟩
  · obtain ⟨es, hes, hset⟩ := setFl_confined hzero (by decide)
    have hdoes : x.does (causedBy n (flEnable g false)) = x.run (.nat (Key.fl.FL_STATE g) 0 :: es.map (Effect.by n)) := by
      rw [State.does, causedBy, hoff, flChange_of_free hfree, hset]
      rfl
    refine (((hwritten (π := fun _ => ()) fun _ _ => rfl).frame _).nat hopen).trans ?_
    rw [hdoes, State.run_cons]
    exact (hes.by n).nat_stands (width_flState g hg) (by simpa using flState_ne_evtRaised g) x (by decide)
  · have hdoes : x.does (causedBy n (flEnable g false)) = x.apply (.learner g fun y => { y with due := flHigher y.due (some 0) }) := by
      rw [State.does, causedBy, hoff, flChange_of_not_free hbusy]
      rfl
    refine congrArg Learner.due ((hwritten (π := Units.learnerAt g) fun _ _ => rfl).learner _) |>.trans ?_
    rw [hdoes, State.learner_apply_learner]

/-- An enabled learner begins, and one that is switched off returns to its first state (R239, R241). -/
theorem flEnableWrite_leaves (g : Fin 4) (hv : v ∈ [0, 1]) :
    let t := s.does (causedBy n (entryDoes w (Key.fl.FL_ENABLE g) (.num v)))
    t.num (Key.fl.FL_ENABLE g) = v ∧ (v = 0 → s.flState g ∉ [0, 4] → (s.flFree g = true → t.flState g = 0) ∧
      (s.flFree g = false → (t.learner g).due = flHigher (s.learner g).due (some 0))) ∧ t.units.waiting = s.units.waiting := by
  have hholds : ∀ g : Fin 4, ∀ v ∈ [0, 1], holdsTest (Key.fl.FL_ENABLE g) v = true := by decide +kernel
  have hout : ∀ g : Fin 4, Key.fl.FL_ENABLE g ∉ flKeys g ++ [Key.fence.DIVERGE_OPEN] := by decide
  have hkeys : ∀ g : Fin 4, Key.fl.FL_ENABLE g ≠ Key.fl.FL_STATE g ∧ Key.fl.FL_ENABLE g ≠ Key.loop.TICK_INDEX ∧
      Key.fl.FL_ENABLE g ≠ Key.mtb.EPOCH_OFFSET := by decide
  obtain ⟨hne, htick, hepoch⟩ := hkeys g
  simp only [entryDoes_flEnable]
  obtain ⟨hnum, hwaiting⟩ := keep_leaves (n := n) (hholds g v hv) (rest := [flEnable g (v == 1), divergeWritten (Key.fl.FL_ENABLE g)])
    (List.forall_mem_cons.2 ⟨(flEnable_waiting g _).mono (List.subset_append_left ..), List.forall_mem_singleton.2
      ((divergeWritten_waiting _).mono (List.subset_append_right ..))⟩) (hout g) (fun _ _ _ _ _ _ => rfl) s
  refine ⟨hnum, fun hoff hstate => ?_, hwaiting⟩
  subst hoff
  have hkept : (s.set (Key.fl.FL_ENABLE g) (.num 0)).flState g = s.flState g := by
    rw [State.flState, State.nat, s.get_set_ne _ _ _ hne, ← State.nat, ← State.flState]
  have hfree : (s.set (Key.fl.FL_ENABLE g) (.num 0)).flFree g = s.flFree g := s.flFree_set _ g htick hepoch
  have hlearner : (s.set (Key.fl.FL_ENABLE g) (.num 0)).learner g = s.learner g := by rw [State.learner, s.set_units, ← State.learner]
  obtain ⟨hnow, hlater⟩ := flEnable_off_leaves g.isLt (s.set (Key.fl.FL_ENABLE g) (.num 0)) (hkept ▸ hstate) n (Key.fl.FL_ENABLE g)
  rw [hfree] at hnow hlater
  rw [hlearner] at hlater
  rw [does_causedBy_keep]
  exact ⟨hnow, hlater⟩

/-! #### The domain of a time base -/

/-- What a new domain number writes (R59, R61). -/
def domainKeys (d : Nat) : List Nat :=
  lockKeys d ++ [Key.dtb.DTB_INC d, Key.dtb.DTB_OFFSET d, Key.dtb.GM_IDENTITY d, Key.snap.SNAP_DTB d]

/-- What a new domain number does once the lock state has fallen: the time base starts anew (R57). -/
theorem domainNumberEffect_eq (d : Nat) (v : Int) (x : State) : ∃ (f : TimeBase → TimeBase) (es : List Effect),
    (∀ y, (f y).count = 0) ∧ Confined (domainKeys d) (fun u : Units => (u.waiting, Tbl.at ({} : TimeBase) u.tbases d)) es ∧
      domainNumberEffect d v x = setLock d 0 x ++ .tbase d f :: es := by
  obtain ⟨f, hf, hsplit⟩ : ∃ f : TimeBase → TimeBase, (∀ y, (f y).count = 0) ∧ domainNumberEffect d v x =
      setLock d 0 x ++ .tbase d f :: (.num (Key.dtb.DTB_INC d) incNom :: .num (Key.dtb.DTB_OFFSET d) 0 ::
        ((if v = 0xFF then always [.num (Key.dtb.GM_IDENTITY d) 0, .num (Key.snap.SNAP_DTB d) 0] else always []) (_ : State) ++ [])) :=
    ⟨_, fun _ => rfl, rfl⟩
  refine ⟨f, _, hf, ?_, hsplit⟩
  split <;> simp [always, domainKeys]

theorem domainNumberEffect_waiting (d : Fin 4) (v : Int) :
    Phase.Within (domainKeys d) (fun u : Units => u.waiting) (domainNumberEffect d v) := by
  have hblind : LockBlind d fun u : Units => u.waiting := ⟨fun _ _ _ _ _ _ => rfl, fun _ _ => rfl, fun h => absurd h (by omega)⟩
  intro x
  obtain ⟨f, es, -, hes, hdoes⟩ := domainNumberEffect_eq d v x
  have hrest : Confined (domainKeys d) (fun u : Units => u.waiting) es := fun e he => by
    have hwithin := hes e he
    cases e with
    | unit f => exact fun u => congrArg Prod.fst (hwithin u)
    | _ => exact hwithin
  rw [hdoes]
  exact confined_append.2 ⟨((setLock_within hblind 0).mono (List.subset_append_left ..)) x, confined_cons.2 ⟨fun _ => rfl, hrest⟩⟩

/-- A time base whose domain is written starts anew, where the number is another (R57, log 158). -/
theorem domainNumber_leaves (d : Fin 4) (hlo : 0 ≤ v) (hhi : v < 256) :
    let t := s.does (causedBy n (entryDoes w (Key.dtb.DOMAIN_NUMBER d) (.num v)))
    t.num (Key.dtb.DOMAIN_NUMBER d) = v ∧ (v ≠ s.num (Key.dtb.DOMAIN_NUMBER d) → (t.tbase d).count = 0) ∧
      t.units.waiting = s.units.waiting := by
  have hwidth : ∀ d : Fin 4, Dict.width (Key.dtb.DOMAIN_NUMBER d) = some (8, false) := by decide +kernel
  have hout : ∀ d : Fin 4, Key.dtb.DOMAIN_NUMBER d ∉ domainKeys d := by decide
  intro t
  by_cases hsame : s.num (Key.dtb.DOMAIN_NUMBER d) = v
  · have hkeep : Confined [] (fun u : Units => u.waiting) (entryDoes w (Key.dtb.DOMAIN_NUMBER d) (.num v) s) := by
      rw [entryDoes_domainNumber]
      simp only [if_pos hsame]
      exact confined_ite.2 ⟨fun _ => confined_cons.2 ⟨fun _ => rfl, .nil⟩, fun _ => .nil⟩
    exact ⟨(((hkeep.by n).frame s).num List.not_mem_nil).trans hsame, fun hne => absurd hsame.symm hne,
      (hkeep.by n).units (fun _ _ _ _ _ _ => rfl) s⟩
  · have hphase : entryDoes w (Key.dtb.DOMAIN_NUMBER d) (.num v) s =
        phases [always [.reg (Key.dtb.DOMAIN_NUMBER d) (.num v)], domainNumberEffect d v] s := by
      rw [entryDoes_domainNumber]
      exact if_neg hsame
    have ht : t = s.does (causedBy n (phases [always [.reg (Key.dtb.DOMAIN_NUMBER d) (.num v)], domainNumberEffect d v])) :=
      does_causedBy_congr hphase
    obtain ⟨hnum, hwaiting⟩ := keep_leaves (n := n) (holdsTest_of_width (hwidth d) (decide_eq_true ⟨hlo, hhi⟩))
      (List.forall_mem_singleton.2 (domainNumberEffect_waiting d v)) (hout d) (fun _ _ _ _ _ _ => rfl) s
    rw [ht]
    refine ⟨hnum, fun _ => ?_, hwaiting⟩
    obtain ⟨f, es, hf, hes, hdoes⟩ := domainNumberEffect_eq d v (s.set (Key.dtb.DOMAIN_NUMBER d) (.num v))
    have hlist : phases [domainNumberEffect d v] (s.set (Key.dtb.DOMAIN_NUMBER d) (.num v)) =
        setLock d 0 (s.set (Key.dtb.DOMAIN_NUMBER d) (.num v)) ++ .tbase d f :: es := (List.append_nil _).trans hdoes
    have hafter := congrArg (fun p => p.2.count) ((hes.by n).units (fun _ _ _ _ _ _ => rfl)
      (((s.set (Key.dtb.DOMAIN_NUMBER d) (.num v)).run ((setLock d 0 (s.set (Key.dtb.DOMAIN_NUMBER d) (.num v))).map
        (Effect.by n))).apply (.tbase d f)))
    have hsplit : (s.set (Key.dtb.DOMAIN_NUMBER d) (.num v)).does (causedBy n (phases [domainNumberEffect d v])) =
        (((s.set (Key.dtb.DOMAIN_NUMBER d) (.num v)).run ((setLock d 0 (s.set (Key.dtb.DOMAIN_NUMBER d) (.num v))).map
          (Effect.by n))).apply (.tbase d f)).run (es.map (Effect.by n)) := by
      rw [State.does, causedBy, hlist, List.map_append, State.run_append]
      rfl
    rw [does_causedBy_keep]
    refine (congrArg (fun y : State => (y.tbase d).count) hsplit).trans (hafter.trans ?_)
    exact (congrArg TimeBase.count ((State.tbase_apply_tbase ..).trans (if_pos rfl))).trans (hf _)

/-! #### Actions, start groups, generators, captures -/

theorem State.waiting_set (s : State) (k : Nat) (v : Value) : (s.set k v).units.waiting = s.units.waiting := by rw [s.set_units]

theorem State.act_apply_act (s : State) (i j : Nat) (f : ActExt → ActExt) :
    (s.apply (.act i f)).act j = if i = j then f (s.act i) else s.act j := Tbl.at_upd ..

/-- An action is armed for the session and role that have written it, or idle (R74, R77). -/
theorem actState_leaves (a : Fin 64) (hv : v ∈ [0, 1]) :
    let t := s.does (causedBy n (entryDoes w (Key.act.ACT_STATE a) (.num v)))
    t.num (Key.act.ACT_STATE a) = v ∧ (v = 1 → (t.act a).role = w.role ∧ (t.act a).session = w.session) ∧
      t.units.waiting = s.units.waiting := by
  have hholds : ∀ a : Fin 64, ∀ v ∈ [0, 1], holdsTest (Key.act.ACT_STATE a) v = true := by decide +kernel
  have hheld := hholds a v hv
  simp only [entryDoes_actState]
  rcases List.mem_cons.1 hv with rfl | hone
  · have hdoes : s.does (causedBy n (armEffect a w 0)) = (s.set (Key.act.ACT_STATE a) (.num 0)).apply (.act a fun _ => {}) := rfl
    rw [hdoes]
    exact ⟨State.num_set_of_holds hheld s, nofun, s.waiting_set _ _⟩
  · obtain rfl := List.mem_singleton.1 hone
    obtain ⟨p, hdoes⟩ : ∃ p, s.does (causedBy n (armEffect a w 1)) =
        (s.set (Key.act.ACT_STATE a) (.num 1)).apply (.act a fun _ => { role := w.role, session := w.session, past := p }) := ⟨_, rfl⟩
    rw [hdoes, State.act_apply_act, if_pos rfl]
    exact ⟨State.num_set_of_holds hheld s, fun _ => ⟨rfl, rfl⟩, s.waiting_set _ _⟩

/-- A start group that is armed or idle has no start sample (R78). -/
theorem sgState_leaves (g : Fin 8) (hv : v ∈ [0, 1]) :
    let t := s.does (causedBy n (entryDoes w (Key.sg.SG_STATE g) (.num v)))
    t.num (Key.sg.SG_STATE g) = v ∧ (t.sg g).fixed = none ∧ t.units.waiting = s.units.waiting := by
  have hholds : ∀ g : Fin 8, ∀ v ∈ [0, 1], holdsTest (Key.sg.SG_STATE g) v = true := by decide +kernel
  have hdoes : s.does (causedBy n (always [.num (Key.sg.SG_STATE g) v, .sg g fun _ => {}])) =
      (s.set (Key.sg.SG_STATE g) (.num v)).apply (.sg g fun _ => {}) := rfl
  simp only [entryDoes_sgState]
  rw [hdoes]
  exact ⟨State.num_set_of_holds (hholds g v hv) s, congrArg SgExt.fixed ((State.sg_apply_sg ..).trans (if_pos rfl)), s.waiting_set _ _⟩

/-- A generator that changes its state shows it (R309). -/
theorem setGen_leaves (g : Fin 4) {new : Nat} (hnew : new ∈ [1, 2]) {x : State} (hidle : x.genState g = 0) :
    let t := x.does (causedBy n (phases [setGen g new]))
    t.num (Key.gen.G_STATE g) = new ∧ t.units.waiting = x.units.waiting := by
  have hholds : ∀ g : Fin 4, ∀ new ∈ [1, 2], holdsTest (Key.gen.G_STATE g) ((new : Nat) : Int) = true := by decide +kernel
  have hne : x.genState g ≠ new := by
    rw [hidle]
    exact fun h => absurd (h ▸ hnew) (by decide)
  have hset : phases [setGen g new] x = [.num (Key.gen.G_STATE g) new, .event Ev.GENERATOR_STATE (args16 [g, new])] := by
    refine (List.append_nil _).trans ?_
    simp only [setGen, if_neg hne]
    rfl
  have hevent : Confined [Key.evt.EVT_RAISED] (fun u : Units => u.waiting)
      ([.event Ev.GENERATOR_STATE (args16 [g, new])].map (Effect.by n)) := by
    have hone : Confined [Key.evt.EVT_RAISED] (fun u : Units => u.waiting)
      [.event Ev.GENERATOR_STATE (args16 [g, new])] := by simp
    exact hone.by n
  have hout : ∀ g : Fin 4, Key.gen.G_STATE g ∉ [Key.evt.EVT_RAISED] := by decide
  have hdoes : x.does (causedBy n (phases [setGen g new])) = x.run (.num (Key.gen.G_STATE g) new ::
      [.event Ev.GENERATOR_STATE (args16 [g, new])].map (Effect.by n)) := by
    rw [State.does, causedBy, hset]
    rfl
  simp only [hdoes]
  exact ⟨hevent.num_holds (hholds g new hnew) (hout g) x, (hevent.units (fun _ _ _ _ _ _ => rfl) _).trans (x.waiting_set _ _)⟩

/-- A generator begins, latched from its entries (R309, R310). -/
theorem gState_leaves (g : Fin 4) (hv : v ∈ [1, 2]) (hidle : s.genState g = 0) (hallowed : s.genRefused g = none) :
    let t := s.does (causedBy n (entryDoes w (Key.gen.G_STATE g) (.num v)))
    t.num (Key.gen.G_STATE g) = v ∧ t.units.waiting = s.units.waiting := by
  simp only [entryDoes_gState]
  have hlatch : ∀ e ∈ genLatch g s, e.by n = e := by simp [genLatch, Effect.by, Effect.gen]
  rcases List.mem_cons.1 hv with rfl | htwo
  · have hphase : gStateEffect g (1 : Int).toNat s =
        phases [genLatch g, always [.gen g fun x => { x with sg := true }], setGen g 1] s :=
      if_pos ⟨hidle, by rw [hallowed]; rfl⟩
    have hdoes : s.does (causedBy n (gStateEffect g (1 : Int).toNat)) =
        s.does (causedBy n (phases [genLatch g, always [.gen g fun x => { x with sg := true }], setGen g 1])) :=
      does_causedBy_congr hphase
    rw [hdoes, does_causedBy_quiet_cons hlatch, does_causedBy_quiet_cons (by simp [always, Effect.by, Effect.gen])]
    exact setGen_leaves (new := 1) g (by decide) hidle
  · obtain rfl := List.mem_singleton.1 htwo
    have hphase : gStateEffect g (2 : Int).toNat s = phases [genLatch g, setGen g 2] s :=
      if_pos ⟨.inl hidle, by rw [hallowed]; rfl⟩
    have hdoes : s.does (causedBy n (gStateEffect g (2 : Int).toNat)) = s.does (causedBy n (phases [genLatch g, setGen g 2])) :=
      does_causedBy_congr hphase
    rw [hdoes, does_causedBy_quiet_cons hlatch]
    exact setGen_leaves (new := 2) g (by decide) hidle

/-- A run that begins with the run of another phase goes on from the state which that one leaves. -/
theorem does_of_append {p q : Phase} {s : State} {es : List Effect} (h : p s = q s ++ es) : s.does p = (s.does q).run es := by
  rw [State.does, State.does, h, State.run_append]

/-- What the clear of a capture writes beside its state (R313). -/
def captureKeys (k : Nat) : List Nat :=
  [Key.meas.CAP_FREE, Key.cap.C_BYTES k, Key.cap.C_DATA k, Key.cap.C_PRE_VALID k, Key.cap.C_TRIG_AT k]

/-- The clear of a capture (R313). -/
def captureIdle (k : Nat) : Phase := fun s =>
  [.num (Key.cap.C_STATE k) 0, .bump Key.meas.CAP_FREE (s.num (Key.cap.C_BYTES k)), .num (Key.cap.C_BYTES k) 0,
    .reg (Key.cap.C_DATA k) (.bytes []), .cap k fun _ => {}]

theorem does_cStateEffect_idle (k : Nat) (s : State) : s.does (cStateEffect k 0) = s.does (captureIdle k) := rfl

/-- A capture that may be armed is armed (R313, R314). -/
theorem cStateEffect_armed {k : Nat} {s : State} (hallowed : (s.does (captureIdle k)).capRefused k = none) :
    ∃ es, (∀ n, ∀ e ∈ es, e.by n = e) ∧ Confined (captureKeys k) (fun u : Units => u.waiting) es ∧
      cStateEffect k 1 s = captureIdle k s ++ .num (Key.cap.C_STATE k) 1 :: es := by
  have hfree : ¬ ((1 : Nat) ≠ 1 ∨ ((s.does (captureIdle k)).capRefused k).isSome = true) := by simp [hallowed]
  have hsplit : cStateEffect k 1 s = captureIdle k s ++ ((if (1 : Nat) ≠ 1 ∨ ((s.does (captureIdle k)).capRefused k).isSome = true
      then [] else .num (Key.cap.C_STATE k) 1 :: _) ++ []) := rfl
  rw [if_neg hfree, List.append_nil] at hsplit
  refine ⟨_, fun n => ?_, ?_, hsplit⟩
  · simp [Effect.by, Effect.num, Effect.nat, Effect.cap]
  · simp only [confined_cons, Effect.within_bump, Effect.within_nat, Effect.within_num]
    exact ⟨by simp [captureKeys], by simp [captureKeys], by simp [captureKeys], by simp [captureKeys], fun _ => rfl, .nil⟩

/-- A capture is armed or idle (R313, R314). -/
theorem cState_leaves (k : Fin 8) (hv : v ∈ [0, 1]) (hallowed : (s.does (cStateEffect k 0)).capRefused k = none) :
    let t := s.does (causedBy n (entryDoes w (Key.cap.C_STATE k) (.num v)))
    t.num (Key.cap.C_STATE k) = v ∧ t.units.waiting = s.units.waiting := by
  have hholds : ∀ k : Fin 8, ∀ v ∈ [0, 1], holdsTest (Key.cap.C_STATE k) v = true := by decide +kernel
  have hout : ∀ k : Fin 8, Key.cap.C_STATE k ∉ captureKeys k := by decide
  have hidle : captureIdle k s = .num (Key.cap.C_STATE k) 0 :: [.bump Key.meas.CAP_FREE (s.num (Key.cap.C_BYTES k)),
      .num (Key.cap.C_BYTES k) 0, .reg (Key.cap.C_DATA k) (.bytes []), .cap k fun _ => {}] := rfl
  have hrest : Confined (captureKeys k) (fun u : Units => u.waiting) [.bump Key.meas.CAP_FREE (s.num (Key.cap.C_BYTES k)),
      .num (Key.cap.C_BYTES k) 0, .reg (Key.cap.C_DATA k) (.bytes []), .cap k fun _ => {}] := by
    simp only [confined_cons, Effect.within_bump, Effect.within_num, Effect.within_reg]
    exact ⟨by simp [captureKeys], by simp [captureKeys], by simp [captureKeys], fun _ => rfl, .nil⟩
  have hquiet : ∀ e ∈ captureIdle k s, e.by n = e := by simp [captureIdle, Effect.by, Effect.num, Effect.cap]
  have hwaiting : (s.does (captureIdle k)).units.waiting = s.units.waiting := by
    rw [State.does, hidle, State.run_cons]
    exact (hrest.units (fun _ _ _ _ _ _ => rfl) _).trans (s.waiting_set _ _)
  simp only [entryDoes_cState]
  rcases List.mem_cons.1 hv with rfl | hone
  · have hdoes : s.does (causedBy n (cStateEffect k (0 : Int).toNat)) = s.does (captureIdle k) :=
      (causedBy_of_quiet (p := cStateEffect k 0) hquiet).trans (does_cStateEffect_idle k s)
    rw [hdoes]
    refine ⟨?_, hwaiting⟩
    rw [State.does, hidle]
    exact hrest.num_holds (hholds k 0 hv) (hout k) s
  · obtain rfl := List.mem_singleton.1 hone
    obtain ⟨es, hes, hconf, hlist⟩ := cStateEffect_armed hallowed
    have hone : (1 : Int).toNat = 1 := rfl
    have hdoes : s.does (causedBy n (cStateEffect k 1)) = (s.does (captureIdle k)).run (.num (Key.cap.C_STATE k) 1 :: es) := by
      have hall : ∀ e ∈ cStateEffect k 1 s, e.by n = e := by
        rw [hlist]
        exact List.forall_mem_append.2 ⟨hquiet, List.forall_mem_cons.2 ⟨rfl, hes n⟩⟩
      exact (causedBy_of_quiet hall).trans (does_of_append hlist)
    have hnum := hconf.num_holds (hholds k 1 hv) (hout k) (s.does (captureIdle k))
    have hunits := hconf.units (fun _ _ _ _ _ _ => rfl) ((s.does (captureIdle k)).set (Key.cap.C_STATE k) (.num 1))
    generalize s.does (captureIdle k) = x at *
    rw [hone, hdoes]
    exact ⟨hnum, hunits.trans ((x.waiting_set _ _).trans hwaiting)⟩

end Leaves

/-! ### The obligation -/

/-- A capture is tested by its entries alone (R313). -/
theorem capRefused_congr {s t : State} (h : ∀ j, j ≠ Key.evt.EVT_RAISED → t.get j = s.get j) (k : Fin 8) :
    t.capRefused k = s.capRefused k := by
  have hkeys : ∀ k : Fin 8, ∀ j ∈ [Key.cap.C_SOURCE k, Key.cap.C_RATE k, Key.cap.C_LENGTH k, Key.cap.C_PRE k, Key.meas.CAP_FREE,
      Key.cap.C_BYTES k, Key.cap.C_FORMAT k], j ≠ Key.evt.EVT_RAISED := by decide
  have hall : ∀ j ∈ [Key.cap.C_SOURCE k, Key.cap.C_RATE k, Key.cap.C_LENGTH k, Key.cap.C_PRE k, Key.meas.CAP_FREE,
      Key.cap.C_BYTES k, Key.cap.C_FORMAT k], t.num j = s.num j ∧ t.nat j = s.nat j := fun j hj => by
    rw [State.num, State.nat, h j (hkeys k j hj), State.num, State.nat]
    exact ⟨rfl, rfl⟩
  simp only [List.forall_mem_cons] at hall
  obtain ⟨⟨-, hsource⟩, ⟨-, hrate⟩, ⟨-, hlength⟩, ⟨-, hpre⟩, ⟨-, hfree⟩, hrest⟩ := hall
  obtain ⟨⟨-, hbytes⟩, ⟨hformat, -⟩, -⟩ := hrest
  rw [State.capRefused, State.capBytes, hsource, hrate, hlength, hpre, hfree, hbytes, hformat, State.capRefused, State.capBytes]

/-- The probes that a boundary passes over are no part of what a capture is tested by. -/
theorem capRefused_taken (s : State) (c : Tbl Chan) (k : Fin 8) :
    ((s.taken c).does (cStateEffect k 0)).capRefused k = (s.does (cStateEffect k 0)).capRefused k := by
  have hidle : captureIdle k (s.taken c) = captureIdle k s := rfl
  have halike : (s.does (captureIdle k)).Alike ((s.taken c).run ((captureIdle k s).map (Effect.by 0))) :=
    State.Alike.run (s := s) (t := s.taken c) ⟨fun _ _ => rfl, rfl, rfl, rfl⟩ 0 (es := captureIdle k s)
      (by simp only [captureIdle, List.forall_mem_cons]; exact ⟨trivial, trivial, trivial, trivial, fun _ _ h => h, by simp⟩)
  exact capRefused_congr halike.get k

/-- Settles O16: a plain entry takes its value alone; each of the others keeps its value while what it controls follows. -/
theorem waitingWriteTakesEffectAtBoundary : Obligations.WaitingWriteTakesEffectAtBoundary := by
  refine ⟨fun s k v n role r hserved hmode hb hw hk hr hacc hok hty => ?_, fun s hidle => ?_, fun s n role v hserved hmode hb => ?_⟩
  · obtain ⟨c, hdoes⟩ := does_deferredWrites hserved hmode hb hw
    obtain ⟨⟨hget, hother, hmode', hunits⟩, hstored⟩ := hk.takes hr hacc hok hty ⟨n, role⟩ (s.taken c)
    exact ⟨_, congrArg Host.Outcome.next hdoes, hget, hother, hmode', congrArg Units.waiting hunits, hstored⟩
  · exact congrArg Host.Outcome.next (atBlock_idle hidle _)
  · have htake {k : Nat} {P : State → Prop} (hprompt : promptTest k = true) (hw : s.units.waiting = [⟨k, .num v, role, n⟩])
        (hP : ∀ t t' : State, t.Same t' → P t → P t')
        (h : ∀ c, P ((s.taken c).does (causedBy n (entryDoes ⟨n, role⟩ k (.num v))))) : Completes .deferredWriteApply s P := by
      obtain ⟨c, hsame⟩ := deferredWrites_same hserved hmode hb (prompt_of_test hprompt) hw
      exact ⟨_, rfl, hP _ _ hsame (h c)⟩
    have hreq : ∀ i : Fin 64, promptTest (Key.ls.STATE_REQ i) = true := by decide +kernel
    have hman : ∀ i : Fin 64, promptTest (Key.ls.MAN i) = true := by decide +kernel
    have hen : ∀ c : Fin 16, promptTest (Key.pw.CH_EN c) = true := by decide +kernel
    have hfl : ∀ g : Fin 4, promptTest (Key.fl.FL_ENABLE g) = true := by decide +kernel
    have hdomain : ∀ d : Fin 4, promptTest (Key.dtb.DOMAIN_NUMBER d) = true := by decide +kernel
    have hact : ∀ a : Fin 64, promptTest (Key.act.ACT_STATE a) = true := by decide +kernel
    have hsg : ∀ g : Fin 8, promptTest (Key.sg.SG_STATE g) = true := by decide +kernel
    have hgo : ∀ g : Fin 8, promptTest (Key.sg.SG_GO g) = true ∧ (Dict.row (Key.sg.SG_GO g)).map (·.p) = some false := by decide +kernel
    have hmeas : promptTest Key.meas.MEAS_CHANNELS = true := by decide +kernel
    have hgen : ∀ g : Fin 4, promptTest (Key.gen.G_STATE g) = true := by decide +kernel
    have hcap : ∀ k : Fin 8, promptTest (Key.cap.C_STATE k) = true := by decide +kernel
    refine ⟨fun i hw hv => htake (hreq i) hw ?_ fun c => stateReq_leaves i hv,
      fun i hw hlo hhi => htake (hman i) hw ?_ fun c => man_leaves i hlo hhi, fun c hw hv => htake (hen c) hw ?_ fun _ => chEn_leaves c hv,
      fun g hw hv => htake (hfl g) hw ?_ fun c => flEnableWrite_leaves g hv,
      fun d hw hlo hhi => htake (hdomain d) hw ?_ fun c => domainNumber_leaves d hlo hhi,
      fun a hw hv => htake (hact a) hw ?_ fun c => actState_leaves a hv, fun g hw hv => htake (hsg g) hw ?_ fun c => sgState_leaves g hv,
      fun g hw hv harmed htrigger => ?_, fun hw hlo hhi => htake hmeas hw ?_ fun c => measChannels_leaves hlo hhi,
      fun g hw hv hidle hallowed => htake (hgen g) hw ?_ fun c => gState_leaves g hv hidle hallowed,
      fun k hw hv hallowed => htake (hcap k) hw ?_ fun c => cState_leaves k hv ((capRefused_taken s c k).trans hallowed)⟩
    case refine_8 =>
      obtain ⟨hsure, hrow⟩ := hgo g
      obtain ⟨c, hc⟩ := does_deferredWrites hserved hmode hb hw
      have hplain := prompt_of_test hsure
      have hkeep (t : State) : persist (Key.sg.SG_GO g) t = [] := persist_of_not_p hrow t
      have hdo : s.does deferredWrites = (s.taken c).apply (.sg g fun x => { x with go := some v.toNat }) := by
        rw [hc, entryTakes_of_plain (hplain.reserved _) hplain.crossing, does_causedBy_pair, hkeep, List.map_nil, State.run_nil,
          entryDoes_sgGo]
        have hgoes : (if (s.taken c).num (Key.sg.SG_STATE g) = 1 ∧ (s.taken c).num (Key.sg.SG_TRIGGER g) = 0 then
            [Effect.sg g fun x => { x with go := some v.toNat }] else []) = [.sg g fun x => { x with go := some v.toNat }] :=
          if_pos ⟨harmed, htrigger⟩
        rw [State.does, causedBy, hgoes]
        rfl
      refine ⟨_, congrArg Host.Outcome.next hdo, ?_, rfl, ⟨fun _ _ => rfl, rfl, rfl⟩⟩
      rw [State.sg_apply_sg, if_pos rfl]
    all_goals
      intro t t' hsame h
      simpa only [State.slot, State.flState, State.nat, State.learner, State.tbase, State.act, State.sg, hsame.get, hsame.num, hsame.units]
        using h

end Sys2Proof.Machine
end

section
/-!
The commits that fall due at a boundary (R417, R419): a commit that asked for no time waits for its boundary like any other.
-/

namespace Sys2Proof.Machine

section Due
variable {s : State} {n : Nat} {x : Session} {c : Commit}

/-- A session none of whose commits is due is left as it is (R417). -/
theorem sessionCommits_eq_nil (hx : s.session n = some x) (hown : x.ownCommits = []) (hc : x.commit = some c)
    (hdue : s.commitDue c = false) : sessionCommits n s = [] := by
  rw [sessionCommits, hx]
  simp [hown, hc, hdue]

/-- Where the one session's commit is not due, no session changes at the boundary (R417). -/
theorem dueCommits_keeps_sessions (hserved : s.units.mgmt.served = true) (hmode : s.mode ≠ .boot) (hb : s.atBoundary = true)
    (hs : s.units.sessions = [(n, some x)]) (hown : x.ownCommits = []) (hc : x.commit = some c) (hdue : s.commitDue c = false) :
    (s.does dueCommits).units.sessions = s.units.sessions := by
  obtain ⟨chans, hprobes⟩ := does_probes s (List.range 16)
  obtain ⟨t, ht⟩ : ∃ t : State, t = { s with units := { s.units with chans := chans } } := ⟨_, rfl⟩
  have hsessions : t.units.sessions = [(n, some x)] := by rw [ht, ← hs]
  have hx : t.session n = some x := by
    rw [State.session, hsessions]
    exact if_pos rfl
  have hnone : sessionCommits n t = [] := sessionCommits_eq_nil hx hown hc (by rw [ht]; exact hdue)
  have hidle : t.does commitsDue = t := by
    rw [State.does, commitsDue, hsessions]
    simp only [List.map_cons, List.map_nil, forAll, phases, hnone, State.run_nil, List.append_nil]
  rw [dueCommits, does_atBlock hserved hmode hb, hprobes, ← ht, hidle, ht]

end Due

/-! ### A commit of one entry without a time -/

/-- A commit that asked for no time, accepted for the boundary after the one that runs 1000 s after the MTB began. -/
def aheadCommit : Commit := { time := 1000000666667, untimed := true, role := 2, items := [(Key.mon.MON_SSRC 0, .num 9)] }

/-- The session of an engineer that has made it. -/
def aheadSession : Session := { role := 2, isOpen := true, commit := some aheadCommit }

/-- A block in SAFE at a block boundary, its management processor serving, with this session alone. -/
def aheadState : State :=
  { State.reset with mode := .safe, mtb := 1000000000000 * 4294967296 }.run
    [.mgmt fun m => { m with served := true }, .session 1 fun _ => some aheadSession]

/-- No chapter ties an effect to MON_SSRC (R359). -/
theorem plainEntry_monSsrc : PlainEntry (Key.mon.MON_SSRC 0) :=
  ⟨fun v => by cases v <;> rfl, by decide, by decide, fun _ _ => rfl⟩

/-- MON_SSRC 0 is an entry of number type that a session may write. -/
theorem row_monSsrc :
    ∃ r, Dict.row (Key.mon.MON_SSRC 0) = some r ∧ r.acc ≠ .const ∧ r.ty.ok (.num 9) = true ∧ r.ty ≠ .blob := by
  decide +kernel

/-- Refutes O17: the statement takes every commit without a time for due, but one whose boundary lies ahead stays pending, as R416
and R417 have it. -/
theorem not_dueCommitIsApplied : ¬ Obligations.DueCommitIsApplied := by
  unfold Obligations.DueCommitIsApplied
  rintro ⟨h, -⟩
  obtain ⟨r, hr, hacc, hok, hblob⟩ := row_monSsrc
  have hserved : aheadState.units.mgmt.served = true := by decide +kernel
  have hmode : aheadState.mode ≠ .boot := by decide +kernel
  have hboundary : aheadState.atBoundary = true := by decide +kernel
  have hsessions : aheadState.units.sessions = [(1, some aheadSession)] := by decide +kernel
  obtain ⟨t, ht, -, -, y, hy, hnone, -⟩ := h aheadState 1 aheadSession aheadCommit (Key.mon.MON_SSRC 0) (.num 9) r
    hserved hmode hboundary hsessions rfl rfl rfl rfl (.inl rfl) rfl plainEntry_monSsrc (by unfold PlainCommit; decide +kernel)
    hr hacc hok hblob (by decide +kernel)
  have hkept := dueCommits_keeps_sessions hserved hmode hboundary hsessions rfl rfl (c := aheadCommit) (by decide +kernel)
  obtain rfl : aheadState.does dueCommits = t := Host.Outcome.next.inj ht
  have hpending : some aheadSession = some y := by
    rw [← hy, State.session, hkept, hsessions]
    rfl
  cases hpending
  cases hnone

end Sys2Proof.Machine
end

section
/-!
The control pins (R443, R444, R452, R455): MUTE_N and ENGAGE_N take each channel in its turn, and a turn leaves the other channels.
-/

namespace Sys2Proof.Machine

variable {α : Type} {s : State} {c i : Nat}

/-! ### A channel in its turn -/

/-- What the units hold of a channel's sequence: the channel, and the wait of its start for a crossing. -/
def Units.sequence (c : Nat) (u : Units) : Chan × Option ZcWait := (u.chanAt c, u.zc.find? fun x => x.key == Zc.start c)

theorem eventBlind_sequence (c : Nat) : EventBlind (Units.sequence c) := fun _ _ _ _ _ _ => rfl

/-- The channel, its shown states and its wait stand alike. -/
structure State.SameChan (c : Nat) (s t : State) : Prop where
  out : t.outState c = s.outState c
  phase : t.phase c = s.phase c
  chan : t.chan c = s.chan c
  wait : t.zcWait (Zc.start c) = s.zcWait (Zc.start c)

theorem State.SameChan.trans {s t u : State} (h : s.SameChan c t) (h' : t.SameChan c u) : s.SameChan c u :=
  ⟨h'.out.trans h.out, h'.phase.trans h.phase, h'.chan.trans h.chan, h'.wait.trans h.wait⟩

theorem State.SameChan.released {s t : State} (h : s.SameChan c t) : t.released c = s.released c := by
  rw [State.released, h.out, State.released]

theorem State.SameChan.playing {s t : State} (h : s.SameChan c t) : t.playing c = s.playing c := by
  rw [State.playing, h.out, State.playing]

/-- Effects that write none of a channel's shown states and leave its sequence. -/
theorem Confined.sameChan {ks : List Nat} {es : List Effect} (h : Confined ks (Units.sequence c) es)
    (hout : Key.pw.OUT_STATE c ∉ ks) (hphase : Key.pw.SEQ_PHASE c ∉ ks) (s : State) : s.SameChan c (s.run es) := by
  have hunits := h.units (eventBlind_sequence c) s
  exact ⟨(h.frame s).nat hout, (h.frame s).nat hphase, congrArg Prod.fst hunits, congrArg Prod.snd hunits⟩

/-- A change of another channel. -/
theorem sequence_onChan (h : i ≠ c) (u : Units) (f : Chan → Chan) : (u.onChan i f).sequence c = u.sequence c :=
  Prod.ext (Units.chanAt_onChan_of_ne h u f) rfl

/-- The end of another wait. -/
theorem sequence_drop {k : Nat} (h : k ≠ Zc.start c) (u : Units) :
    (u.withZc (u.zc.filter fun x => x.key != k)).sequence c = u.sequence c := by
  refine Prod.ext rfl ?_
  simp only [Units.sequence, Units.withZc, List.find?_filter]
  refine congrArg (u.zc.find? ·) (funext fun x => ?_)
  cases hx : x.key == Zc.start c
  · simp
  · have hne : x.key ≠ k := fun hk => h (hk.symm.trans (beq_iff_eq.1 hx))
    simp [hne]

/-- The waits of another channel are not those of this one's start. -/
theorem zc_ne_start (hi : i < 16) (hc : c < 16) (h : i ≠ c) : Zc.start i ≠ Zc.start c ∧ Zc.stop i ≠ Zc.start c := by
  simp only [Zc.start, Zc.stop, Zc.fn]
  omega

/-- What a stop or a hold of a channel writes. -/
def sequenceKeys (i : Nat) : List Nat := [Key.pw.SEQ_PHASE i, Key.prot.PROBE_NEXT i]

/-- They are not those of another channel. -/
theorem notMem_sequenceKeys (h : i ≠ c) : Key.pw.OUT_STATE c ∉ sequenceKeys i ∧ Key.pw.SEQ_PHASE c ∉ sequenceKeys i := by
  simp only [sequenceKeys, List.mem_cons, List.not_mem_nil, or_false, Key.pw.OUT_STATE, Key.pw.SEQ_PHASE, Key.prot.PROBE_NEXT]
  omega

section Others
variable (hi : i < 16) (hc : c < 16) (h : i ≠ c)
include hi hc h

theorem chainDown_spares : Phase.Within (sequenceKeys i) (Units.sequence c) (chainDown i false) := fun s => by
  obtain ⟨-, hstop⟩ := zc_ne_start hi hc h
  simp only [chainDown, confined_cons, Effect.within_num, Effect.within_chan]
  exact ⟨by simp [sequenceKeys], sequence_drop hstop, fun u => sequence_onChan h u _, .nil⟩

/-- A hold leaves the sequences of the other channels (R444). -/
theorem holdDown_spares : Phase.Within (sequenceKeys i) (Units.sequence c) (holdDown i) := fun s => by
  obtain ⟨hstart, -⟩ := zc_ne_start hi hc h
  unfold holdDown
  split
  · split_ifs
    · exact .nil
    · simp [sequenceKeys]
    · simp [sequenceKeys, sequence_onChan h]
  split
  · exact confined_cons.2 ⟨sequence_drop hstart, .nil⟩
  split
  · exact chainDown_spares hi hc h s
  · exact .nil

/-- So does a fast stop (R282). -/
theorem stopBegin_spares : Phase.Within (sequenceKeys i) (Units.sequence c) (stopBegin i true) := fun s => by
  obtain ⟨hstart, -⟩ := zc_ne_start hi hc h
  have htakes : Confined (sequenceKeys i) (Units.sequence c) (stopTakes i true) := by
    simp only [stopTakes, confined_cons, Effect.within_chan]
    exact ⟨sequence_drop hstart, fun u => sequence_onChan h u _, .nil⟩
  have hdown : Phase.Within (sequenceKeys i) (Units.sequence c) (loopDown i) := by simp [loopDown, sequenceKeys, sequence_onChan h]
  have hchain := chainDown_spares hi hc h
  have hclear : Phase.Within (sequenceKeys i) (Units.sequence c) (always (stopTakes i true)) := fun _ => htakes
  have hprobe : Key.prot.PROBE_NEXT i ∈ sequenceKeys i := by simp [sequenceKeys]
  unfold stopBegin
  split
  · exact Phase.within_phases (by simp [hdown, hprobe, sequence_onChan h]) s
  split
  · exact .nil
  dsimp only
  split
  · exact htakes
  split
  · refine Phase.within_phases ?_ s
    simp only [List.forall_mem_cons]
    exact ⟨hclear, hchain, by simp⟩
  split
  · refine Phase.within_phases ?_ s
    simp only [List.forall_mem_cons]
    exact ⟨hclear, hdown, by simp⟩
  · refine Phase.within_phases ?_ s
    simp only [List.forall_mem_cons]
    exact ⟨hclear, hchain, by simp⟩

end Others

/-- Where each channel's turn leaves the sequences of the others, a channel meets its own turn as the round finds it, and keeps what
that turn leaves. -/
theorem own_turn {f : Nat → Phase} (hc : c < 16)
    (hf : ∀ i < 16, i ≠ c → Phase.Within (sequenceKeys i) (Units.sequence c) (f i)) (s : State) :
    ∃ x, s.SameChan c x ∧ (x.does (f c)).SameChan c (s.does (forAll (List.range 16) f)) := by
  have hround {l : List Nat} (hl : ∀ i ∈ l, i < 16) (hnot : c ∉ l) (s : State) : s.SameChan c (s.does (forAll l f)) := by
    have hall : Phase.Within (l.flatMap sequenceKeys) (Units.sequence c) (forAll l f) :=
      Phase.within_forAll fun i hi => (hf i (hl i hi) fun h => hnot (h ▸ hi)).mono fun _ hk => List.mem_flatMap.2 ⟨i, hi, hk⟩
    have hapart : ∀ k, (∃ i ∈ l, k ∈ sequenceKeys i) → k ≠ Key.pw.OUT_STATE c ∧ k ≠ Key.pw.SEQ_PHASE c := by
      rintro k ⟨i, hi, hk⟩
      obtain ⟨hout, hphase⟩ := notMem_sequenceKeys (i := i) (c := c) fun h => hnot (h ▸ hi)
      exact ⟨fun h => hout (h ▸ hk), fun h => hphase (h ▸ hk)⟩
    exact Confined.sameChan (hall s) (fun h => (hapart _ (List.mem_flatMap.1 h)).1 rfl) (fun h => (hapart _ (List.mem_flatMap.1 h)).2 rfl) s
  obtain ⟨before, after, hlist, hbefore, hafter, hdoes⟩ :=
    State.does_forAll_of_mem (List.mem_range.2 hc) (List.nodup_range (n := 16)) f s
  have hlt : ∀ i, i ∈ before ∨ i ∈ after → i < 16 := fun i hi => by
    refine List.mem_range.1 (hlist ▸ ?_)
    simp only [List.mem_append, List.mem_cons]
    tauto
  exact ⟨_, hround (fun i hi => hlt i (.inl hi)) hbefore s, hdoes ▸ hround (fun i hi => hlt i (.inr hi)) hafter _⟩

/-! ### MUTE_N -/

/-- What a hold leaves of a channel (R444, Table 09-5). -/
structure State.Held (c : Nat) (s t : State) : Prop where
  out : t.outState c = s.outState c
  pin : (t.chan c).pinHeld = (s.chan c).pinHeld
  sounding : s.playing c = true → s.phase c ∈ [0, 4, 5] → (s.chan c).gc.value ≠ 0 →
    t.phase c = 6 ∧ (t.chan c).gc = (s.chan c).gc.to 0 32
  going : s.phase c ∈ [6, 7, 1, 2, 3] → t.phase c = s.phase c ∧ (t.chan c).gc = (s.chan c).gc
  waiting : s.phase c = 3 → t.zcWait (Zc.start c) = none

theorem released_of_playing (h : s.playing c = true) : s.released c = false := by
  simp only [State.playing, Bool.or_eq_true, beq_iff_eq] at h
  simp only [State.released, Bool.or_eq_false_iff, beq_eq_false_iff_ne]
  omega

theorem nat_seqPhase (hc : c < 16) (s : State) {n : Nat} (hn : n < 256) : (s.apply (.num (Key.pw.SEQ_PHASE c) n)).phase c = n := by
  rw [State.phase, State.nat_eq_num, State.num_seqPhase hc s (by omega) (by omega)]
  rfl

theorem phase_apply_chan (f : Chan → Chan) (s : State) : (s.apply (.chan i f)).phase c = s.phase c := rfl

/-- The chain gate ramps down at once (Table 09-5). -/
theorem chainDown_leaves (hc : c < 16) (s : State) :
    (s.does (chainDown c false)).phase c = 6 ∧ (s.does (chainDown c false)).chan c = { s.chan c with gc := (s.chan c).gc.to 0 32 } ∧
      (s.does (chainDown c false)).outState c = s.outState c := by
  have hkeys : Key.pw.OUT_STATE c ∉ [Key.pw.SEQ_PHASE c] := by
    simp only [List.mem_singleton, Key.pw.OUT_STATE, Key.pw.SEQ_PHASE]; omega
  have hdown : Phase.Within [Key.pw.SEQ_PHASE c] (fun _ => ()) (chainDown c false) := fun x => by simp [chainDown]
  refine ⟨?_, ?_, (hdown.frame s).nat hkeys⟩
  · exact nat_seqPhase hc s (n := 6) (by decide)
  · simp [State.does, chainDown, Gate.start]

theorem holdDown_leaves (hc : c < 16) (s : State) : s.Held c (s.does (holdDown c)) := by
  have hout : (s.does (holdDown c)).outState c = s.outState c := by
    refine ((holdDown_within (π := fun _ => ()) (fun _ _ => rfl) fun _ _ => rfl).frame s).nat ?_
    simp only [List.mem_singleton, Key.pw.OUT_STATE, Key.pw.SEQ_PHASE]
    omega
  have hsteps : s.does (holdDown c) = s.run (holdDown c s) := rfl
  by_cases hidle : s.phase c = 0 ∨ s.phase c = 4
  · have hnever : s.phase c ∉ [6, 7, 1, 2, 3] := by rcases hidle with h | h <;> simp [h]
    have hthree : s.phase c ≠ 3 := by omega
    refine ⟨hout, ?_, fun hplays _ hgate => ?_, fun h => absurd h hnever, fun h => absurd h hthree⟩
    · rw [hsteps, holdDown, if_pos hidle]
      split_ifs <;> simp
    · rw [hsteps, holdDown, if_pos hidle, if_neg (by simp [released_of_playing hplays]), if_neg (by simp [hgate])]
      refine ⟨nat_seqPhase hc s (n := 6) (by decide), ?_⟩
      simp
  by_cases hthree : s.phase c = 3
  · have hdoes : s.does (holdDown c) = s.apply (zcDrop (Zc.start c)) := by
      rw [hsteps, holdDown, if_neg hidle, if_pos hthree]
      rfl
    rw [hdoes] at hout ⊢
    exact ⟨hout, rfl, fun _ h => absurd h (by simp [hthree]), fun _ => ⟨rfl, rfl⟩, fun _ => State.zcWait_apply_zcDrop ..⟩
  by_cases hfive : s.phase c = 5
  · have hdoes : s.does (holdDown c) = s.does (chainDown c false) := by
      rw [hsteps, holdDown, if_neg hidle, if_neg hthree, if_pos hfive]
      rfl
    obtain ⟨hphase, hchan, -⟩ := chainDown_leaves hc s
    rw [hdoes] at hout ⊢
    exact ⟨hout, by rw [hchan], fun _ _ _ => ⟨hphase, by rw [hchan]⟩, fun h => absurd h (by simp [hfive]), fun h => absurd h hthree⟩
  · have hdoes : s.does (holdDown c) = s := by
      rw [hsteps, holdDown, if_neg hidle, if_neg hthree, if_neg hfive]
      rfl
    rw [hdoes] at hout ⊢
    exact ⟨hout, rfl, fun _ h => absurd h (by simp only [List.mem_cons, List.not_mem_nil, or_false]; omega), fun _ => ⟨rfl, rfl⟩,
      fun h => absurd h hthree⟩

/-- The turn of one channel as MUTE_N changes (R443, R444). -/
def pinTurn (high : Bool) (c : Nat) : Phase := phases [
  always [.chan c fun x => { x with pinHeld := !high }], if high then always [] else holdDown c]

theorem does_mutePin {high : Bool} (h : s.units.pins.muteN = !high) : s.does (mutePin high) =
    (s.apply (.pins fun p => { p with muteN := high })).does (forAll (List.range 16) (pinTurn high)) := by
  rw [State.does, mutePin, if_neg (by simp [h])]
  refine (State.does_phases_cons s _ _).trans ?_
  rw [State.does_phases_cons, State.does_phases_nil, State.does_always, State.run_cons, State.run_nil]
  rfl

theorem mutePin_idle {high : Bool} (h : s.units.pins.muteN = high) : s.does (mutePin high) = s := by
  rw [State.does, mutePin, if_pos h]
  rfl

/-- The turns of MUTE_N are those of the channels alone. -/
theorem pinTurns_within {π : Units → α} (high : Bool) (hc : ∀ u i f, π (Units.onChan u i f) = π u)
    (hz : ∀ u l, π (Units.withZc u l) = π u) (l : List Nat) :
    Phase.Within (if high then [] else l.map Key.pw.SEQ_PHASE) π (forAll l (pinTurn high)) := by
  cases high with
  | true => exact Phase.within_forAll fun i _ => Phase.within_phases (by simp [hc])
  | false =>
    refine Phase.within_forAll fun i hi => Phase.within_phases ?_
    have hhold := (holdDown_within (c := i) (fun u f => hc u i f) hz).mono (ls := l.map Key.pw.SEQ_PHASE)
      (by simpa using ⟨i, hi, rfl⟩)
    simp [hc, hhold]

theorem pinTurn_spares (high : Bool) (hi : i < 16) (hc : c < 16) (h : i ≠ c) :
    Phase.Within (sequenceKeys i) (Units.sequence c) (pinTurn high i) := by
  refine Phase.within_phases ?_
  have hhold := holdDown_spares hi hc h
  cases high <;> simp [sequence_onChan h, hhold]

/-- A MUTE_N that falls holds each channel, and one that rises frees it (R443, R444). -/
theorem mutePin_low_leaves (hmute : s.units.pins.muteN = true) (hc : c < 16) :
    ∃ x t, s.SameChan c x ∧ (x.apply (.chan c fun y => { y with pinHeld := true })).Held c t ∧
      t.SameChan c (s.does (mutePin false)) := by
  obtain ⟨x, hx, ht⟩ := own_turn hc (fun i hi h => pinTurn_spares false hi hc h) (s.apply (.pins fun p => { p with muteN := false }))
  rw [pinTurn, State.does_phases_cons, State.does_phases_cons, State.does_phases_nil, State.does_always, State.run_cons,
    State.run_nil, if_neg Bool.false_ne_true] at ht
  refine ⟨x, _, State.SameChan.trans (t := s.apply (.pins fun p => { p with muteN := false })) ⟨rfl, rfl, rfl, rfl⟩ hx,
    holdDown_leaves hc _, ?_⟩
  rw [does_mutePin (high := false) hmute]
  exact ht

theorem pinHeld_mutePin_high (hmute : s.units.pins.muteN = false) (hc : c < 16) :
    ((s.does (mutePin true)).chan c).pinHeld = false := by
  obtain ⟨x, -, ht⟩ := own_turn hc (fun i hi h => pinTurn_spares true hi hc h) (s.apply (.pins fun p => { p with muteN := true }))
  rw [does_mutePin (high := true) hmute, ht.chan]
  exact congrArg Chan.pinHeld (x.chan_apply_chan_self c _)

theorem muteN_mutePin {high : Bool} (h : s.units.pins.muteN = !high) : (s.does (mutePin high)).units.pins.muteN = high := by
  rw [does_mutePin h]
  have hturns := pinTurns_within (π := fun u : Units => u.pins.muteN) high (fun _ _ _ => rfl) (fun _ _ => rfl) (List.range 16)
  exact hturns.units (fun _ _ _ _ _ _ => rfl) _

/-! ### ENGAGE_N -/

/-- What a fast stop leaves of a channel that is not released and not probed (R282, R284, R452). -/
structure State.StoppedFast (c : Nat) (s t : State) : Prop where
  fast : (t.chan c).fast = true
  waiting : t.zcWait (Zc.start c) = none
  sounding : s.phase c ≤ 5 → (s.chan c).gc.value ≠ 0 ∨ s.phase c = 5 → t.phase c = 6 ∧ (t.chan c).gc = (s.chan c).gc.to 0 32
  silent : s.phase c ≤ 4 → (s.chan c).gc.value = 0 → t.phase c = 7 ∧ (t.chan c).gl = (s.chan c).gl.to 0 32
  going : s.phase c ∈ [6, 7] → t.phase c = s.phase c ∧ (t.chan c).gc = (s.chan c).gc ∧ (t.chan c).gl = (s.chan c).gl

/-- What a stop that takes over leaves of the channel. -/
theorem stopTakes_leaves (c : Nat) (s : State) : (s.run (stopTakes c true)).chan c = (s.chan c).stopTaken true ∧
    (s.run (stopTakes c true)).zcWait (Zc.start c) = none ∧ (s.run (stopTakes c true)).phase c = s.phase c := by
  refine ⟨by simp [stopTakes], ?_, rfl⟩
  rw [stopTakes, State.run_cons, State.run_cons, State.run_nil, State.zcWait_apply_chan]
  exact State.zcWait_apply_zcDrop ..

/-- A stop under way already is taken over as it runs (R452). -/
theorem does_stopBegin_under_way (hreleased : s.released c = false) (h : s.phase c = 7 ∨ s.phase c = 6) :
    s.does (stopBegin c true) = s.run (stopTakes c true) := by
  have hprobe : s.phase c ≠ 8 := by omega
  rw [State.does, stopBegin, if_neg hprobe, if_neg (by simp [hreleased])]
  dsimp only
  rw [if_pos h]
  rfl

/-- A stop that waits for its crossing ramps at once (R282). -/
theorem does_stopBegin_waiting (hreleased : s.released c = false) (h : s.phase c = 5) :
    s.does (stopBegin c true) = (s.run (stopTakes c true)).does (chainDown c false) := by
  have hprobe : s.phase c ≠ 8 := by omega
  rw [State.does, stopBegin, if_neg hprobe, if_neg (by simp [hreleased])]
  dsimp only
  rw [if_neg (by omega), if_pos h, if_pos rfl]
  refine (State.does_phases_cons s _ _).trans ?_
  rw [State.does_phases_cons, State.does_phases_nil, State.does_always]
  rfl

/-- The ramp of the chain gate leaves a channel stopped fast. -/
theorem stoppedFast_chainDown (hc : c < 16) (hle : s.phase c ≤ 5) (hsounds : (s.chan c).gc.value ≠ 0 ∨ s.phase c = 5) :
    s.StoppedFast c ((s.run (stopTakes c true)).does (chainDown c false)) := by
  obtain ⟨htaken, hwait, -⟩ := stopTakes_leaves c s
  obtain ⟨hphase, hchan, -⟩ := chainDown_leaves hc (s.run (stopTakes c true))
  rw [htaken] at hchan
  refine ⟨by rw [hchan]; rfl, ?_, fun _ _ => ⟨hphase, by rw [hchan]; rfl⟩, fun h h0 => ?_, fun h => ?_⟩
  · have hstop : Zc.stop c ≠ Zc.start c := by simp only [Zc.start, Zc.stop, Zc.fn]; omega
    have hdown : Phase.Within [Key.pw.SEQ_PHASE c] (fun u : Units => u.zc.find? fun x => x.key == Zc.start c) (chainDown c false) :=
      fun x => by
        simp only [chainDown, confined_cons, Effect.within_num, Effect.within_chan]
        exact ⟨by simp, fun u => (congrArg Prod.snd (sequence_drop hstop u) :), fun _ => rfl, .nil⟩
    exact (hdown.units (fun _ _ _ _ _ _ => rfl) (s.run (stopTakes c true))).trans hwait
  · exact absurd h0 (hsounds.resolve_right (by omega))
  · simp only [List.mem_cons, List.not_mem_nil, or_false] at h
    omega

theorem stopBegin_stoppedFast (hc : c < 16) (hreleased : s.released c = false) (hle : s.phase c ≤ 7) :
    s.StoppedFast c (s.does (stopBegin c true)) := by
  obtain ⟨htaken, hwait, hsame⟩ := stopTakes_leaves c s
  by_cases hgoing : s.phase c = 7 ∨ s.phase c = 6
  · rw [does_stopBegin_under_way hreleased hgoing]
    refine ⟨by rw [htaken]; rfl, hwait, fun h => absurd h (by omega), fun h => absurd h (by omega), fun _ => ⟨hsame, ?_⟩⟩
    rw [htaken]
    exact ⟨rfl, rfl⟩
  by_cases hfive : s.phase c = 5
  · rw [does_stopBegin_waiting hreleased hfive]
    exact stoppedFast_chainDown hc (by omega) (.inr hfive)
  by_cases hgate : (s.chan c).gc.value = 0
  · rw [does_stopBegin_silent hreleased (by omega) hgate]
    have hchan : ((s.run (stopTakes c true)).does (loopDown c)).chan c =
        { (s.chan c).stopTaken true with gl := (s.chan c).gl.to 0 32, settled := false } := by
      simp [loopDown, htaken, Chan.stopTaken]
    refine ⟨by rw [hchan]; rfl, ?_, fun _ h => absurd hgate (h.resolve_right hfive),
      fun _ _ => ⟨nat_seqPhase hc (s.run (stopTakes c true)) (n := 7) (by decide), by rw [hchan]⟩, fun h => ?_⟩
    · rw [loopDown, State.does_always, State.run_cons, State.run_cons, State.run_nil, State.zcWait_apply_chan, State.zcWait_apply_num]
      exact hwait
    · simp only [List.mem_cons, List.not_mem_nil, or_false] at h
      omega
  · rw [does_stopBegin_fast hreleased (by omega) hgate]
    exact stoppedFast_chainDown hc (by omega) (.inl hgate)

/-- The pins as ENGAGE_N has risen (R452). -/
def Pins.engaged (now : Nat) (p : Pins) : Pins :=
  { p with engageN := true, engageLow := none, engageHigh := if p.withdrawing then p.engageHigh else some now }

/-- The pins as the withdrawal begins. -/
def Pins.withdrawn (p : Pins) : Pins := { p with withdrawing := true, wasLost := true }

/-- The state in which the channels stop. -/
def State.engageLost (s : State) : State :=
  (s.apply (.pins (Pins.engaged s.mtbNs))).run [.pins Pins.withdrawn, .event Ev.ENGAGE_LOST []]

theorem engageHigh_eq (h : s.units.pins.engageN = false) : s.does engageHigh =
    (s.apply (.pins (Pins.engaged s.mtbNs))).does (fun s => if s.mode = .boot then [] else phases [
      always [.pins Pins.withdrawn, .event Ev.ENGAGE_LOST []], forAll (List.range 16) (fun c => stopBegin c true)] s) := by
  rw [State.does, engageHigh, if_neg (by simp [h])]
  refine (State.does_phases_cons s _ _).trans ?_
  rw [State.does_phases_cons, State.does_phases_nil, State.does_always, State.run_cons, State.run_nil]
  rfl

theorem does_engageHigh_boot (h : s.units.pins.engageN = false) (hmode : s.mode = .boot) :
    s.does engageHigh = s.apply (.pins (Pins.engaged s.mtbNs)) := by
  rw [engageHigh_eq h, State.does]
  exact congrArg (State.run _) (if_pos hmode)

theorem does_engageHigh (h : s.units.pins.engageN = false) (hmode : s.mode ≠ .boot) :
    s.does engageHigh = s.engageLost.does (forAll (List.range 16) fun c => stopBegin c true) := by
  rw [engageHigh_eq h, State.does]
  refine (congrArg (State.run _) (if_neg hmode)).trans ?_
  refine (State.does_phases_cons _ _ _).trans ?_
  rw [State.does_phases_cons, State.does_phases_nil, State.does_always]
  rfl

theorem sameChan_engageLost (c : Nat) (s : State) : s.SameChan c s.engageLost := by
  have hes : Confined [Key.evt.EVT_RAISED] (Units.sequence c)
      [.pins (Pins.engaged s.mtbNs), .pins Pins.withdrawn, .event Ev.ENGAGE_LOST []] := by
    simp only [confined_cons, Effect.within_pins, Effect.within_event]
    exact ⟨fun _ => rfl, fun _ => rfl, by simp, .nil⟩
  refine hes.sameChan ?_ ?_ s
  all_goals
    simp only [List.mem_singleton, Key.pw.OUT_STATE, Key.pw.SEQ_PHASE, Key.evt.EVT_RAISED]
    omega

/-- What the rise of ENGAGE_N leaves of the pins (R452). -/
theorem pins_engageHigh (h : s.units.pins.engageN = false) :
    (s.does engageHigh).units.pins = if s.mode = .boot then s.units.pins.engaged s.mtbNs else (s.units.pins.engaged s.mtbNs).withdrawn := by
  split
  case isTrue hmode =>
    rw [does_engageHigh_boot h hmode]
    rfl
  case isFalse hmode =>
    have hcalm : Calm (forAll (List.range 16) (fun c => stopBegin c true) s.engageLost) := calm_forAll fun c t => calm_stopBegin c t true
    have hstops : (s.does engageHigh).units.pins = s.engageLost.units.pins := by
      rw [does_engageHigh h hmode]
      exact (congrArg (fun p => p.2.1) (hcalm.control s.engageLost) :)
    have hevent : Confined [Key.evt.EVT_RAISED] (fun u : Units => u.pins) [.event Ev.ENGAGE_LOST []] := by simp
    exact hstops.trans (hevent.units (fun _ _ _ _ _ _ => rfl)
      ((s.apply (.pins (Pins.engaged s.mtbNs))).apply (.pins Pins.withdrawn)))

/-- Every channel that is not released stops fast as ENGAGE_N rises (R452). -/
theorem engageHigh_stops (h : s.units.pins.engageN = false) (hmode : s.mode ≠ .boot) (hc : c < 16) (hreleased : s.released c = false)
    (hle : s.phase c ≤ 7) : ∃ x t, s.SameChan c x ∧ x.StoppedFast c t ∧ t.SameChan c (s.does engageHigh) := by
  obtain ⟨x, hx, ht⟩ := own_turn hc (fun i hi hne => stopBegin_spares hi hc hne) s.engageLost
  have hsame := (sameChan_engageLost c s).trans hx
  refine ⟨x, _, hsame, stopBegin_stoppedFast hc (by rw [hsame.released, hreleased]) (by rw [hsame.phase]; exact hle), ?_⟩
  rw [does_engageHigh h hmode]
  exact ht

/-! ### The fall of ENGAGE_N -/

/-- The states shown of idle groups are written, and nothing else (Table 15-11). -/
theorem hsIdle_within {π : Units → α} : Phase.Within hsKeys π hsIdle := fun s e he => by
  obtain ⟨g, hg, hge⟩ := List.mem_flatMap.1 he
  split at hge
  · rw [List.mem_singleton.1 hge]
    exact hsState_mem_hsKeys g (List.mem_range.1 hg)
  · exact absurd hge List.not_mem_nil

/-- The fall takes the level, and ends the hold of a planned removal (R452, R455). -/
theorem engageLow_leaves (h : s.units.pins.engageN = true) :
    let t := s.does engageLow
    t.units.pins.engageN = false ∧ t.units.mgmt.removed = false ∧ s.Frame hsKeys t := by
  obtain ⟨x, hx⟩ : ∃ x, x = s.apply (.pins fun p => { p with
      engageN := false, engageLow := if p.withdrawing then none else some s.mtbNs }) := ⟨_, rfl⟩
  have hdoes : s.does engageLow = (x.does removalEnd).does hsIdle := by
    rw [State.does, engageLow, if_neg (by simp [h])]
    refine (State.does_phases_cons s _ _).trans ?_
    rw [State.does_phases_cons, State.does_phases_cons, State.does_phases_nil, hx]
    rfl
  have hpin : x.units.pins.engageN = false := by rw [hx]; rfl
  have hframe : s.Frame hsKeys x := by rw [hx]; exact ⟨fun _ _ => rfl, rfl, rfl⟩
  have hremoval := removalEnd_within (π := fun u : Units => u.pins.engageN) (fun _ _ => rfl)
  have hidle := hsIdle_within (π := fun u : Units => (u.pins.engageN, u.mgmt.removed))
  have hunits := hidle.units (fun _ _ _ _ _ _ => rfl) (x.does removalEnd)
  rw [hdoes]
  refine ⟨(congrArg Prod.fst hunits).trans ((hremoval.units (fun _ _ _ _ _ _ => rfl) x).trans hpin),
    (congrArg Prod.snd hunits).trans (removed_removalEnd x), hframe.trans ((hremoval.frame x).trans (hidle.frame _))⟩

/-! ### The groups lose their gates -/

section Release
variable {π : Units → α} (hc : ∀ u i f, π (Units.onChan u i f) = π u) (hz : ∀ u l, π (Units.withZc u l) = π u)
include hc hz

/-- The release of a group's bridges changes its channels and their waits alone (R295). -/
theorem groupRelease_spares (g : Nat) : Phase.Within (groupReleaseKeys g) π (groupRelease g) := by
  rw [groupRelease_eq]
  refine Phase.within_forAll fun c hmem => ?_
  have hkeys : Key.prot.PROBE_NEXT c ∈ releaseKeys c ∧ Key.pw.SEQ_PHASE c ∈ releaseKeys c ∧
      Key.pw.RESTART_GAIN c ∈ releaseKeys c := by simp [releaseKeys]
  obtain ⟨hprobeKey, hphase, hgain⟩ := hkeys
  have hprobe : Phase.Within (releaseKeys c) π (whenP (fun s => (s.chan c).probing) fun s =>
      [.nat (Key.prot.PROBE_NEXT c) s.now, .chan c fun x => { x with probing := false, probeAt := some s.mtbNs }]) := fun s => by
    simp [whenP, hprobeKey, hc]
  have hnow : Phase.Within (releaseKeys c) π (releaseNow c) := fun s => by
    have hout (v : Nat) := (setOut_within (π := π) c v).mono (ls := releaseKeys c) (by simp [fadeKeys, releaseKeys])
    refine Phase.within_phases ?_ s
    simp only [List.forall_mem_cons, Phase.within_always, confined_append, confined_cons, Effect.within_num, Effect.within_chan]
    refine ⟨hout _, ⟨⟨hphase, fun u => hz u _, fun u => hz u _, fun u => hc u c _, .nil⟩, ?_⟩, by simp⟩
    split
    · exact .nil
    · simp [hgain]
  have hturn : Phase.Within (releaseKeys c) π (releaseTurn c) := Phase.within_phases (by simp [hprobe, hnow, hc])
  exact hturn.mono fun _ hk => List.mem_flatMap.2 ⟨c, hmem, hk⟩

end Release

/-- What a group writes that loses its gate (R452, R454). -/
def gateKeys (g : Nat) : List Nat := Key.hs.HS_STATE_PG g :: Key.pg.GROUP_STATE g :: groupReleaseKeys g

/-- One group's gate drops, and its bridges are released; one whose controller has latched shows so still (R451, R452, R454). -/
def gateTurn (idle : Int) (g : Nat) : Phase := phases [
  fun s => [.group g fun x => { x with gate := false, hsRetryAt := none },
    .num (Key.hs.HS_STATE_PG g) (if s.hsState g = 5 then 5 else idle)],
  groupNotReady g]

theorem gateTurn_within {π : Units → α} {g : Nat} (hc : ∀ u i f, π (Units.onChan u i f) = π u)
    (hz : ∀ u l, π (Units.withZc u l) = π u) (hg : ∀ u f, π (Units.onGroup u g f) = π u) (idle : Int) :
    Phase.Within (gateKeys g) π (gateTurn idle g) := by
  have hrelease := (groupRelease_spares hc hz g).mono (ls := gateKeys g) fun _ hk =>
    List.mem_cons_of_mem _ (List.mem_cons_of_mem _ hk)
  have hshow := (groupShow_within (π := π) g).mono (ls := gateKeys g) (by simp [gateKeys])
  have hready : Phase.Within (gateKeys g) π (groupNotReady g) := Phase.within_phases (by simp [hrelease, hshow, hg])
  have hdrop : Phase.Within (gateKeys g) π fun s => [.group g fun x => { x with gate := false, hsRetryAt := none },
      .num (Key.hs.HS_STATE_PG g) (if s.hsState g = 5 then 5 else idle)] := fun s => by simp [gateKeys, hg]
  exact Phase.within_phases (by simp [hdrop, hready])

/-- What the units hold of one group. -/
def Units.groupAt (g : Nat) (u : Units) : Group := Tbl.at {} u.groups g

theorem groupAt_onGroup_of_ne {g i : Nat} (h : i ≠ g) (u : Units) (f : Group → Group) : (u.onGroup i f).groupAt g = u.groupAt g :=
  (Tbl.at_upd ..).trans (if_neg h)

theorem gateKeys_apart : ∀ g < 4, ∀ i < 4, i ≠ g → Key.hs.HS_STATE_PG g ∉ gateKeys i := by decide +kernel

theorem hsState_apart : ∀ g < 4, Key.hs.HS_STATE_PG g ∉ Key.pg.GROUP_STATE g :: groupReleaseKeys g := by decide +kernel

theorem width_hsState : ∀ g < 4, Dict.width (Key.hs.HS_STATE_PG g) = some (8, false) := by decide +kernel

/-- A group that is not ready is marked, and keeps its controller's state (R451, R452). -/
theorem groupNotReady_leaves {g : Nat} (s : State) :
    (s.does (groupNotReady g)).group g = { s.group g with notReady := true } ∧
      s.Frame (Key.pg.GROUP_STATE g :: groupReleaseKeys g) (s.does (groupNotReady g)) := by
  have hshow := groupShow_within (π := Units.groups) g
  rw [groupNotReady, State.does_phases_cons, State.does_phases_cons, State.does_phases_cons, State.does_phases_nil, State.does_always,
    State.run_cons, State.run_nil]
  have hrelease (x : State) := ((groupRelease_within g).frame x).mono (List.subset_cons_self (Key.pg.GROUP_STATE g) _)
  refine ⟨?_, ((group_frame s g _).mono (List.nil_subset _)).trans ((hrelease _).trans ((hshow.frame _).mono (by simp)))⟩
  rw [hshow.group, (groupRelease_within g).group, s.group_apply_group_same]

/-- What the turn of a group leaves of it. -/
theorem gateTurn_leaves {g idle : Nat} (hg : g < 4) (hidle : idle < 256) (s : State) :
    let t := s.does (gateTurn idle g)
    (t.group g).gate = false ∧ (t.group g).notReady = true ∧ t.hsState g = if s.hsState g = 5 then 5 else idle := by
  obtain ⟨v, hv, hlt⟩ : ∃ v : Nat, v = (if s.hsState g = 5 then 5 else idle) ∧ v < 256 := ⟨_, rfl, by split <;> omega⟩
  obtain ⟨x, hx⟩ : ∃ x, x = (s.apply (.group g fun x => { x with gate := false, hsRetryAt := none })).apply
      (.num (Key.hs.HS_STATE_PG g) v) := ⟨_, rfl⟩
  have hdoes : s.does (gateTurn idle g) = x.does (groupNotReady g) := by
    rw [gateTurn, State.does_phases_cons, State.does_phases_cons, State.does_phases_nil, hx, hv]
    push_cast
    rfl
  have hgroup : x.group g = { s.group g with gate := false, hsRetryAt := none } := by
    rw [hx]
    exact (congrArg (fun u : Units => u.groupAt g) (State.set_units ..)).trans (s.group_apply_group_same g _)
  have hstate : x.hsState g = v := by
    rw [hx]
    exact State.nat_reg_of_lt (width_hsState g hg) _ hlt
  obtain ⟨hready, hframe⟩ := groupNotReady_leaves (g := g) x
  have hkept := ((hframe.nat (hsState_apart g hg)).trans hstate).trans hv
  rw [hdoes]
  dsimp only
  rw [hready, hgroup]
  exact ⟨rfl, rfl, hkept⟩

/-- Every group has lost its gate once each has had its turn (R452, R454). -/
theorem gateTurns_leaves {g idle : Nat} (hg : g < 4) (hidle : idle < 256) (s : State) :
    let t := s.does (forAll (List.range 4) (gateTurn idle))
    (t.group g).gate = false ∧ (t.group g).notReady = true ∧ t.hsState g = if s.hsState g = 5 then 5 else idle := by
  obtain ⟨before, after, hlist, hbefore, hafter, hdoes⟩ :=
    State.does_forAll_of_mem (List.mem_range.2 hg) (List.nodup_range (n := 4)) (gateTurn idle) s
  have hlt : ∀ i, i ∈ before ∨ i ∈ after → i < 4 := fun i hi => by
    refine List.mem_range.1 (hlist ▸ ?_)
    simp only [List.mem_append, List.mem_cons]
    tauto
  have hround {l : List Nat} (hl : ∀ i ∈ l, i < 4 ∧ i ≠ g) (s : State) :
      (s.does (forAll l (gateTurn idle))).group g = s.group g ∧ (s.does (forAll l (gateTurn idle))).hsState g = s.hsState g := by
    have hall : Phase.Within (l.flatMap gateKeys) (Units.groupAt g) (forAll l (gateTurn idle)) :=
      Phase.within_forAll fun i hi => (gateTurn_within (fun _ _ _ => rfl) (fun _ _ => rfl)
        (fun u f => groupAt_onGroup_of_ne (hl i hi).2 u f) idle).mono fun _ hk => List.mem_flatMap.2 ⟨i, hi, hk⟩
    refine ⟨hall.units (fun _ _ _ _ _ _ => rfl) s, (hall.frame s).nat fun hk => ?_⟩
    obtain ⟨i, hi, hki⟩ := List.mem_flatMap.1 hk
    exact gateKeys_apart g hg i (hl i hi).1 (hl i hi).2 hki
  obtain ⟨-, hstateBefore⟩ := hround (fun i hi => ⟨hlt i (.inl hi), fun h => hbefore (h ▸ hi)⟩) s
  obtain ⟨hgate, hready, hstate⟩ := gateTurn_leaves hg hidle (s.does (forAll before (gateTurn idle)))
  obtain ⟨hgroupAfter, hstateAfter⟩ := hround (fun i hi => ⟨hlt i (.inr hi), fun h => hafter (h ▸ hi)⟩)
    ((s.does (forAll before (gateTurn idle))).does (gateTurn idle g))
  rw [hdoes]
  dsimp only
  rw [hgroupAfter, hstateAfter]
  exact ⟨hgate, hready, hstate.trans (by rw [hstateBefore])⟩

/-- The end of a withdrawal (R452). -/
theorem withdrawalGates_leaves (hwithdraws : s.units.pins.withdrawing = true) (hreleased : s.allReleased = true) :
    let t := s.does withdrawalGates
    t.units.pins.withdrawing = false ∧ ∀ g < 4, (t.group g).gate = false ∧ (t.group g).notReady = true := by
  obtain ⟨x, hx⟩ : ∃ x, x = s.does (forAll (List.range 4) (gateTurn (0 : Nat))) := ⟨_, rfl⟩
  have hdoes : s.does withdrawalGates = (x.apply (.pins fun p => { p with
      withdrawing := false, engageLow := if p.engageN then none else some x.mtbNs })).does hsIdle := by
    rw [State.does, withdrawalGates, if_pos ⟨hwithdraws, .inl hreleased⟩]
    refine (State.does_phases_cons s _ _).trans ?_
    rw [State.does_phases_cons, State.does_phases_cons, State.does_phases_nil, hx]
    rfl
  have hpins := (hsIdle_within (π := fun u : Units => u.pins.withdrawing)).units (fun _ _ _ _ _ _ => rfl)
  have hgroup (y : State) (g : Nat) : (y.does hsIdle).group g = y.group g := hsIdle_within.group y g
  rw [hdoes]
  refine ⟨hpins _, fun g hg => ?_⟩
  obtain ⟨hgate, hready, -⟩ := gateTurns_leaves (idle := 0) hg (by decide) s
  rw [← hx] at hgate hready
  rw [hgroup]
  exact ⟨hgate, hready⟩

/-! ### The obligation -/

/-- Settles O22: each pin's phase is a round of the channels or of the groups, and each meets its own turn undisturbed. -/
theorem controlPinsAct : Obligations.ControlPinsAct := by
  refine ⟨fun s hmute => ⟨_, rfl, muteN_mutePin (high := false) hmute, fun c hc => ?_⟩,
    fun s hmute => ⟨congrArg Host.Outcome.next (mutePin_idle hmute), _, rfl, muteN_mutePin (high := true) hmute,
      fun c hc => pinHeld_mutePin_high hmute hc, ?_⟩,
    fun s hengage => ⟨?_, _, rfl, ?_⟩, fun s hengage => ⟨_, rfl, engageLow_leaves hengage⟩,
    fun s hwithdraws hreleased => ⟨_, rfl, withdrawalGates_leaves hwithdraws hreleased⟩,
    fun s hmute => congrArg Host.Outcome.next (mutePin_idle hmute), fun s hengage => ?_⟩
  · obtain ⟨x, t, hx, hheld, ht⟩ := mutePin_low_leaves hmute hc
    obtain ⟨hout, hpin, hsounds, hgoing, hwaits⟩ := hheld
    have hgc : ((x.apply (.chan c fun y => { y with pinHeld := true })).chan c).gc = (s.chan c).gc := by
      rw [State.chan_apply_chan_self, ← hx.chan]
    have hheld : ((x.apply (.chan c fun y => { y with pinHeld := true })).chan c).pinHeld = true := by
      rw [State.chan_apply_chan_self]
    simp only [phase_apply_chan, hx.phase, hgc] at hsounds hgoing hwaits
    rw [ht.chan, ht.phase, ht.wait, ht.out]
    refine ⟨hpin.trans hheld, fun hplays hphase hgate => ?_, fun h => hgoing ?_, fun h => ?_, hout.trans hx.out⟩
    · obtain ⟨hdown, hgate'⟩ := hsounds (hx.playing.trans hplays) hphase hgate
      rw [hgate']
      exact ⟨hdown, Gate.value_to (by decide), rfl, rfl⟩
    · exact List.mem_of_mem_take (i := 2) h
    · obtain ⟨hphase, hgate⟩ := hgoing (List.mem_of_mem_drop (i := 2) h)
      exact ⟨hphase, hgate, hwaits⟩
  · rw [does_mutePin (high := true) hmute]
    exact State.Frame.trans (t := s.apply (.pins fun p => { p with muteN := true })) ⟨fun _ _ => rfl, rfl, rfl⟩
      ((pinTurns_within (π := fun _ => ()) true (fun _ _ _ => rfl) (fun _ _ => rfl) _).frame _)
  · refine congrArg Host.Outcome.next ?_
    rw [State.does, engageLow, if_pos (by simp [hengage])]
    rfl
  · beta_reduce
    rw [pins_engageHigh hengage]
    refine ⟨by split <;> rfl, by split <;> rfl, fun hmode => ?_⟩
    rw [if_neg hmode]
    refine ⟨rfl, rfl, fun c hc hreleased hle => ?_⟩
    obtain ⟨x, t, hx, hstopped, ht⟩ := engageHigh_stops hengage hmode hc hreleased hle
    obtain ⟨hfast, hwait, hsounds, hsilent, hgoing⟩ := hstopped
    rw [hx.phase, hx.chan] at hsounds hsilent hgoing
    rw [ht.chan, ht.phase, ht.wait]
    refine ⟨hfast, hwait, fun h hgate => ?_, fun h hgate => ?_, hgoing⟩
    · obtain ⟨hdown, hgate'⟩ := hsounds h hgate
      rw [hgate']
      exact ⟨hdown, Gate.value_to (by decide), rfl, rfl⟩
    · obtain ⟨hdown, hgate'⟩ := hsilent h hgate
      rw [hgate']
      exact ⟨hdown, Gate.value_to (by decide), rfl, rfl⟩
  · refine congrArg Host.Outcome.next ?_
    rw [State.does, engageHigh, if_pos hengage]
    rfl

end Sys2Proof.Machine
end

section
/-!
The hot-swap controller of a group (R449-R451): its states, and the clear of its faults (R477).
-/

namespace Sys2Proof.Machine

variable {s : State} {g : Nat}

/-! ### The ramp -/

/-- A withdrawal is over: nothing but the pins changes, and an event tells of it (R452). -/
theorem engageBack_within {π : Units → Group} (hp : ∀ u f, π (Units.onPins u f) = π u) :
    Phase.Within [Key.evt.EVT_RAISED] π engageBack := fun s => by
  unfold engageBack
  split <;> simp [hp]

/-- A group's ramp begins: its state, its gate, and the instant (R449, R450). -/
theorem hsRamp_leaves (hg : g < 4) (s : State) :
    let t := s.does (hsRamp g)
    t.hsState g = 2 ∧ (t.group g).gate = true ∧ (t.group g).hsAt = some s.mtbNs ∧ (t.group g).hsRetryAt = none ∧
      s.Frame [Key.hs.HS_STATE_PG g, Key.evt.EVT_RAISED] t := by
  have hback := engageBack_within (π := Units.groupAt g) fun _ _ => rfl
  obtain ⟨x, hx⟩ : ∃ x, x = s.does engageBack := ⟨_, rfl⟩
  have hdoes : s.does (hsRamp g) = (x.apply (.num (Key.hs.HS_STATE_PG g) 2)).apply
      (.group g fun y => { y with gate := true, hsAt := some x.mtbNs, hsRetryAt := none }) := by
    rw [hsRamp, State.does_phases_cons, State.does_phases_cons, State.does_phases_nil, ← hx]
    rfl
  have htime : x.mtbNs = s.mtbNs := by rw [hx, State.mtbNs, State.does_mtb, State.mtbNs]
  have hstate : (s.does (hsRamp g)).hsState g = 2 := by
    rw [hdoes]
    exact State.nat_reg_of_lt (n := 2) (width_hsState g hg) x (by decide)
  have hgroup : (s.does (hsRamp g)).group g =
      { (x.apply (.num (Key.hs.HS_STATE_PG g) 2)).group g with gate := true, hsAt := some s.mtbNs, hsRetryAt := none } := by
    rw [hdoes, State.group_apply_group_same, htime]
  have hframe : s.Frame [Key.hs.HS_STATE_PG g, Key.evt.EVT_RAISED] (s.does (hsRamp g)) := by
    have hramp : Confined [Key.hs.HS_STATE_PG g, Key.evt.EVT_RAISED] (fun _ => ()) [.num (Key.hs.HS_STATE_PG g) 2,
        .group g fun y => { y with gate := true, hsAt := some x.mtbNs, hsRetryAt := none }] := by simp
    have hback' : s.Frame [Key.hs.HS_STATE_PG g, Key.evt.EVT_RAISED] x := by
      rw [hx]
      exact (hback.frame s).mono (List.subset_cons_self ..)
    rw [hdoes]
    exact hback'.trans (hramp.frame x)
  exact ⟨hstate, by rw [hgroup], by rw [hgroup], by rw [hgroup], hframe⟩

theorem does_hsRampStart (hstate : s.hsState g = 1) (hmet : s.passed s.hsMet (32000000 * g) = true) (hdie : s.dieReady g = true) :
    s.does (hsRampStart g) = s.does (hsRamp g) := by
  have hphase : hsRampStart g s = hsRamp g s := if_pos ⟨hstate, hmet, hdie⟩
  rw [State.does, hphase, State.does]

theorem does_hsRetry {t0 : Nat} (hstate : s.hsState g = 4) (hretry : (s.group g).hsRetryAt = some t0) (htime : t0 ≤ s.mtbNs)
    (hmet : s.passed s.hsMet 0 = true) (hdie : s.dieReady g = true) : s.does (hsRetry g) = s.does (hsRamp g) := by
  have hphase : hsRetry g s = hsRamp g s := by
    rw [hsRetry, hretry]
    exact if_pos ⟨hstate, htime, hmet, hdie⟩
  rw [State.does, hphase, State.does]

/-! ### Power-good and faults -/

theorem width_hsFaults : ∀ g < 4, Dict.width (Key.hs.HS_FAULTS_PG g) = some (8, false) := by decide +kernel

/-- What else the steps of the controller write is not its state or its count of faults. -/
theorem hsKeys_apart : ∀ g < 4, ∀ k ∈ [Key.hs.HS_STATE_PG g, Key.hs.HS_FAULTS_PG g],
    k ∉ [Key.hs.HS_RAMP_PG g, Key.hs.HS_FAULT_TOTAL, Key.evt.EVT_RAISED] ∧ k ∉ Key.pg.GROUP_STATE g :: groupReleaseKeys g ∧
      k ∉ (groupChans g).flatMap startKeys := by decide +kernel

theorem hsState_ne_hsFaults (g : Nat) :
    Key.hs.HS_STATE_PG g ∉ [Key.hs.HS_FAULTS_PG g] ∧ Key.hs.HS_FAULTS_PG g ∉ [Key.hs.HS_STATE_PG g] := by
  simp only [List.mem_singleton, Key.hs.HS_STATE_PG, Key.hs.HS_FAULTS_PG]
  omega

/-- A ramp that ends within 1.0 V of the supply makes the group ready (R450). -/
theorem hsPowerGood_leaves (hg : g < 4) {mv : Nat} (hstate : s.hsState g = 2) (hmv : 23000 ≤ mv) :
    let t := s.does (hsPowerGood g mv)
    t.hsState g = 3 ∧ t.num (Key.hs.HS_FAULTS_PG g) = 0 ∧ (t.group g).notReady = false := by
  obtain ⟨ms, hms⟩ : ∃ ms, ms = (s.mtbNs - ((s.group g).hsAt.getD s.mtbNs)) / 1000000 := ⟨_, rfl⟩
  obtain ⟨x, hx⟩ : ∃ x, x = s.run [.num (Key.hs.HS_STATE_PG g) 3, .num (Key.hs.HS_FAULTS_PG g) 0, .nat (Key.hs.HS_RAMP_PG g) ms,
      .group g fun x => { x with notReady := false }, .event Ev.HOTSWAP_POWER_GOOD (le 2 g ++ le 4 mv)] := ⟨_, rfl⟩
  have hdoes : s.does (hsPowerGood g mv) = (x.does (groupShow g)).does (groupStarts g) := by
    rw [State.does, hsPowerGood, if_neg (by omega)]
    refine (State.does_phases_cons s _ _).trans ?_
    rw [State.does_phases_cons, State.does_phases_cons, State.does_phases_nil, State.does_always, hx, hms]
  have hmem := hsKeys_apart g hg
  simp only [List.forall_mem_cons] at hmem
  obtain ⟨⟨hstateNote, hstateShow, hstateStart⟩, ⟨hfaultNote, hfaultShow, hfaultStart⟩, -⟩ := hmem
  obtain ⟨hne, -⟩ := hsState_ne_hsFaults g
  have hrest {β : Type} (π : Units → β) (hπ : ∀ u f, π (Units.onGroup u g f) = π u) :
      Confined [Key.hs.HS_RAMP_PG g, Key.hs.HS_FAULT_TOTAL, Key.evt.EVT_RAISED] π [.nat (Key.hs.HS_RAMP_PG g) ms,
        .group g fun x => { x with notReady := false }, .event Ev.HOTSWAP_POWER_GOOD (le 2 g ++ le 4 mv)] := by
    simp [hπ]
  have hshown : x.hsState g = 3 := by
    have hall : Confined (Key.hs.HS_FAULTS_PG g :: [Key.hs.HS_RAMP_PG g, Key.hs.HS_FAULT_TOTAL, Key.evt.EVT_RAISED]) (fun _ => ())
        (.num (Key.hs.HS_FAULTS_PG g) 0 :: [.nat (Key.hs.HS_RAMP_PG g) ms, .group g fun x => { x with notReady := false },
          .event Ev.HOTSWAP_POWER_GOOD (le 2 g ++ le 4 mv)]) :=
      confined_cons.2 ⟨by simp, (hrest _ fun _ _ => rfl).mono (List.subset_cons_self ..)⟩
    rw [hx]
    exact hall.nat_stands (n := 3) (width_hsState g hg) (List.not_mem_cons_of_ne_of_not_mem (by simpa using hne) hstateNote) s (by decide)
  have hcount : x.num (Key.hs.HS_FAULTS_PG g) = 0 := by
    rw [hx, State.run_cons]
    exact (hrest _ fun _ _ => rfl).num_stands (π := fun _ => ()) (width_hsFaults g hg) hfaultNote _ (by decide) (by decide)
  have hready : (x.group g).notReady = false := by
    have hnote : Effect.Within [Key.evt.EVT_RAISED] (Units.groupAt g) (.event Ev.HOTSWAP_POWER_GOOD (le 2 g ++ le 4 mv)) := by simp
    rw [hx, State.run_cons, State.run_cons, State.run_cons, State.run_cons, State.run_cons, State.run_nil]
    refine (congrArg Group.notReady (hnote.units (fun _ _ _ _ _ _ => rfl) _)).trans ?_
    exact congrArg Group.notReady (State.group_apply_group_same ..)
  have hshow := groupShow_within (π := Units.groups) g
  have hstarts := groupStarts_within (π := Units.groups) (fun _ _ _ _ => rfl) g
  have hkeep (k : Nat) (hk : k ∉ Key.pg.GROUP_STATE g :: groupReleaseKeys g) (hk' : k ∉ (groupChans g).flatMap startKeys) :
      ((x.does (groupShow g)).does (groupStarts g)).num k = x.num k :=
    ((hstarts.frame _).num hk').trans ((hshow.frame _).num fun h => hk (List.mem_cons.2 (.inl (List.mem_singleton.1 h))))
  rw [hdoes]
  refine ⟨?_, (hkeep _ hfaultShow hfaultStart).trans hcount, ?_⟩
  · rw [State.hsState, State.nat_eq_num, hkeep _ hstateShow hstateStart, ← State.nat_eq_num]
    exact hshown
  · rw [hstarts.group, hshow.group]
    exact hready

/-- A group that reports power-good no more ramps again (R450, log 96). -/
theorem powerGoodLost_leaves (hg : g < 4) (hstate : s.hsState g = 3) :
    let t := s.does (powerGoodLost g)
    t.hsState g = 2 ∧ (t.group g).notReady = true := by
  obtain ⟨x, hx⟩ : ∃ x, x = (s.apply (.num (Key.hs.HS_STATE_PG g) 2)).apply (.group g fun x => { x with hsAt := some s.mtbNs }) :=
    ⟨_, rfl⟩
  have hdoes : s.does (powerGoodLost g) = x.does (groupNotReady g) := by
    rw [State.does, powerGoodLost, if_neg (by simp [hstate])]
    refine (State.does_phases_cons s _ _).trans ?_
    rw [State.does_phases_cons, State.does_phases_nil, State.does_always, hx]
    rfl
  have hshown : x.hsState g = 2 := by
    rw [hx]
    exact State.nat_reg_of_lt (n := 2) (width_hsState g hg) s (by decide)
  obtain ⟨hready, hframe⟩ := groupNotReady_leaves (g := g) x
  rw [hdoes]
  exact ⟨(hframe.nat (hsState_apart g hg)).trans hshown, by rw [hready]⟩

/-- A group whose current limit has acted: its gate is off, and its retry is due in 2 s (R451). -/
def Group.hsFaulted (now : Nat) (x : Group) : Group := { x with gate := false, hsRetryAt := some (now + 2000000000) }

/-- The report of its `n`-th fault. -/
def hsFaultNote (g n : Nat) : Effect := .event Ev.HOTSWAP_FAULT (args16 [g] ++ le 1 n)

/-- A fault of the current limit is counted; the group waits for its retry, or latches at the third (R451). -/
theorem hsFault_leaves (hg : g < 4) (hstate : s.hsState g = 2 ∨ s.hsState g = 3) (hcount : s.nat (Key.hs.HS_FAULTS_PG g) < 3) :
    let t := s.does (hsFault g)
    t.nat (Key.hs.HS_FAULTS_PG g) = s.nat (Key.hs.HS_FAULTS_PG g) + 1 ∧
      t.hsState g = (if s.nat (Key.hs.HS_FAULTS_PG g) = 2 then 5 else 4) ∧ (t.group g).gate = false ∧ (t.group g).notReady = true := by
  obtain ⟨n, hn⟩ : ∃ n, n = s.nat (Key.hs.HS_FAULTS_PG g) + 1 := ⟨_, rfl⟩
  obtain ⟨v, hv, hlt⟩ : ∃ v : Nat, v = (if s.nat (Key.hs.HS_FAULTS_PG g) = 2 then 5 else 4) ∧ v < 256 :=
    ⟨_, rfl, by split <;> decide⟩
  have hvInt : (if 3 ≤ n then 5 else 4 : Int) = v := by
    rw [hv]
    split <;> split <;> omega
  obtain ⟨x, hx⟩ : ∃ x, x = s.run [.nat (Key.hs.HS_FAULTS_PG g) n, .bump Key.hs.HS_FAULT_TOTAL 1, .num (Key.hs.HS_STATE_PG g) v,
      .group g (Group.hsFaulted s.mtbNs), hsFaultNote g n] := ⟨_, rfl⟩
  have hdoes : s.does (hsFault g) = x.does (groupNotReady g) := by
    rw [State.does, hsFault, if_neg (by omega)]
    refine (State.does_phases_cons s _ _).trans ?_
    rw [State.does_phases_cons, State.does_phases_nil, State.does_always, ← hn, hvInt, hx]
    rfl
  have hmem := hsKeys_apart g hg
  simp only [List.forall_mem_cons] at hmem
  obtain ⟨⟨hstateNote, hstateShow, -⟩, ⟨hfaultNote, hfaultShow, -⟩, -⟩ := hmem
  obtain ⟨-, hne⟩ := hsState_ne_hsFaults g
  have hnote {β : Type} (π : Units → β) (hπ : ∀ u f, π (Units.onGroup u g f) = π u) :
      Confined [Key.hs.HS_RAMP_PG g, Key.hs.HS_FAULT_TOTAL, Key.evt.EVT_RAISED] π
        [.group g (Group.hsFaulted s.mtbNs), hsFaultNote g n] := by
    simp [hsFaultNote, hπ]
  have hfaults : x.nat (Key.hs.HS_FAULTS_PG g) = n := by
    have hall : Confined (Key.hs.HS_STATE_PG g :: [Key.hs.HS_RAMP_PG g, Key.hs.HS_FAULT_TOTAL, Key.evt.EVT_RAISED]) (fun _ => ())
        [.bump Key.hs.HS_FAULT_TOTAL 1, .num (Key.hs.HS_STATE_PG g) v, .group g (Group.hsFaulted s.mtbNs), hsFaultNote g n] := by
      refine confined_cons.2 ⟨by simp, confined_cons.2 ⟨by simp, (hnote _ fun _ _ => rfl).mono (List.subset_cons_self ..)⟩⟩
    rw [hx]
    exact hall.nat_stands (width_hsFaults g hg) (List.not_mem_cons_of_ne_of_not_mem (by simpa using hne) hfaultNote) s
      (n := n) (show n < 2 ^ 8 by omega)
  have hshown : x.hsState g = v := by
    rw [hx, State.run_cons, State.run_cons]
    exact (hnote _ fun _ _ => rfl).nat_stands (π := fun _ => ()) (width_hsState g hg) hstateNote _ hlt
  have hgate : (x.group g).gate = false := by
    have hevent : Effect.Within [Key.evt.EVT_RAISED] (Units.groupAt g) (hsFaultNote g n) := by simp [hsFaultNote]
    rw [hx, State.run_cons, State.run_cons, State.run_cons, State.run_cons, State.run_cons, State.run_nil]
    refine (congrArg Group.gate (hevent.units (fun _ _ _ _ _ _ => rfl) _)).trans ?_
    exact congrArg Group.gate (State.group_apply_group_same ..)
  obtain ⟨hready, hframe⟩ := groupNotReady_leaves (g := g) x
  rw [hdoes]
  exact ⟨((hframe.nat hfaultShow).trans hfaults).trans hn, ((hframe.nat hstateShow).trans hshown).trans hv,
    by rw [hready]; exact hgate, by rw [hready]⟩

/-! ### The clear -/

/-- The clear of one group's faults (R477). -/
def clearTurn (g : Nat) : Phase := fun s =>
  .num (Key.hs.HS_FAULTS_PG g) 0 ::
    (if s.hsState g = 4 ∨ s.hsState g = 5 then
      [.num (Key.hs.HS_STATE_PG g) 1, .group g fun x => { x with hsRetryAt := none }] else [])

theorem hsClear_eq (m : Nat) : hsClear m = phases [forAll (ones 4 m) clearTurn, hsIdle] := rfl

theorem clearTurn_within (g : Nat) :
    Phase.Within [Key.hs.HS_FAULTS_PG g, Key.hs.HS_STATE_PG g] (fun _ => ()) (clearTurn g) := fun s => by
  unfold clearTurn
  split <;> simp

/-- It raises no event. -/
theorem clearTurn_quiet (n g : Nat) (s : State) : ∀ e ∈ clearTurn g s, e.by n = e := by
  unfold clearTurn
  split <;> simp [Effect.by, Effect.num, Effect.group]

theorem phases_quiet {n : Nat} {ps : List Phase} (h : ∀ p ∈ ps, ∀ s, ∀ e ∈ p s, e.by n = e) (s : State) :
    ∀ e ∈ phases ps s, e.by n = e := by
  induction ps generalizing s with
  | nil => simp [phases]
  | cons p ps ih =>
    obtain ⟨hp, hps⟩ := List.forall_mem_cons.1 h
    exact List.forall_mem_append.2 ⟨hp s, ih hps _⟩

theorem hsClear_quiet (n m : Nat) (s : State) : ∀ e ∈ hsClear m s, e.by n = e := by
  rw [hsClear_eq]
  refine phases_quiet (fun p hp => ?_) s
  rcases List.mem_cons.1 hp with rfl | hp
  · exact phases_quiet fun p hp => by
      obtain ⟨g, -, rfl⟩ := List.mem_map.1 hp
      exact clearTurn_quiet n g
  · obtain rfl := List.mem_singleton.1 hp
    intro s e he
    obtain ⟨g, -, hge⟩ := List.mem_flatMap.1 he
    split at hge
    · rw [List.mem_singleton.1 hge]
      rfl
    · exact absurd hge List.not_mem_nil

/-- What the clear of a mask leaves (R477). -/
theorem hsClear_leaves (hg : g < 4) {m : Nat} (hm : m.testBit g = true) (s : State) :
    let t := s.does (hsClear m)
    t.num (Key.hs.HS_FAULTS_PG g) = 0 ∧ t.mode = s.mode ∧ t.store = s.store := by
  have hmem : g ∈ ones 4 m := List.mem_filter.2 ⟨List.mem_range.2 hg, hm⟩
  have hnodup : (ones 4 m).Nodup := List.nodup_range.filter _
  have hturns (l : List Nat) : Phase.Within (l.flatMap fun i => [Key.hs.HS_FAULTS_PG i, Key.hs.HS_STATE_PG i]) (fun _ => ())
      (forAll l clearTurn) :=
    Phase.within_forAll fun i hi => (clearTurn_within i).mono fun _ hk => List.mem_flatMap.2 ⟨i, hi, hk⟩
  obtain ⟨before, after, hlist, -, hafter, hdoes⟩ := State.does_forAll_of_mem hmem hnodup clearTurn s
  have hother : Key.hs.HS_FAULTS_PG g ∉ after.flatMap fun i => [Key.hs.HS_FAULTS_PG i, Key.hs.HS_STATE_PG i] := fun hk => by
    obtain ⟨i, hi, hk⟩ := List.mem_flatMap.1 hk
    have hne : i ≠ g := fun h => hafter (h ▸ hi)
    have hlt : i < 4 := by
      have hin : i ∈ ones 4 m := by
        rw [hlist]
        simp [hi]
      exact List.mem_range.1 (List.mem_filter.1 hin).1
    simp only [List.mem_cons, List.not_mem_nil, or_false, Key.hs.HS_FAULTS_PG, Key.hs.HS_STATE_PG] at hk
    omega
  have hown (x : State) : (x.does (clearTurn g)).num (Key.hs.HS_FAULTS_PG g) = 0 := by
    have hrest : Confined [Key.hs.HS_STATE_PG g] (fun _ => ()) (if x.hsState g = 4 ∨ x.hsState g = 5 then
        [.num (Key.hs.HS_STATE_PG g) 1, .group g fun y => { y with hsRetryAt := none }] else []) := by
      split <;> simp
    exact hrest.num_stands (width_hsFaults g hg) (hsState_ne_hsFaults g).2 x (by decide) (by decide)
  have hidle := hsIdle_within (π := fun _ : Units => ())
  have hidleKey : ∀ g < 4, Key.hs.HS_FAULTS_PG g ∉ hsKeys := by decide
  rw [hsClear_eq, State.does_phases_cons, State.does_phases_cons, State.does_phases_nil]
  refine ⟨?_, ((hidle.frame _).mode).trans ((hturns _).frame s).mode, ((hidle.frame _).store).trans ((hturns _).frame s).store⟩
  rw [(hidle.frame _).num (hidleKey g hg), hdoes, ((hturns after).frame _).num hother]
  exact hown _

theorem entryDoes_hsClear (w : Writer) (n : Int) : entryDoes w Key.hs.HS_CLEAR (.num n) = hsClear n.toNat := by
  simp [entryDoes, specialEffects, Key.hs.HS_CLEAR, Value.int]

/-- An accepted write of HS_CLEAR clears the groups of its low four bits (R4, R477). -/
theorem does_hsClear {w : EntryWrite} {m : Nat} (ha : s.Accepts w Key.hs.HS_CLEAR) (hv : w.value = .num m) :
    s.does (writeEntry Key.hs.HS_CLEAR none w) = (s.does (hsClear (m &&& 0xF))).apply
      (.unit fun u => { u with answer := s.writeReply w.writer Key.hs.HS_CLEAR none w.value }) := by
  have hrow : (Dict.row Key.hs.HS_CLEAR).map (fun r => (r.eff, r.p)) = some (.acc, false) := by decide +kernel
  obtain ⟨r, hr, hfields⟩ := Option.map_eq_some_iff.1 hrow
  obtain ⟨heff, hp⟩ := Prod.mk.inj hfields
  obtain ⟨hserves, hst⟩ := ha
  have hmasked : reserved Key.hs.HS_CLEAR (.num ((m &&& 0xF : Nat) : Int)) = .num ((m &&& 0xF : Nat) : Int) := by
    have hagain : m &&& 0xF &&& 0xF = m &&& 0xF := by rw [Nat.and_assoc, Nat.and_self]
    exact congrArg (fun n : Nat => Value.num n) hagain
  have htakes : entryTakes w.writer Key.hs.HS_CLEAR w.value = entryTakes w.writer Key.hs.HS_CLEAR (.num ((m &&& 0xF : Nat) : Int)) := by
    rw [hv, entryTakes, entryTakes, hmasked]
    rfl
  have hpersist (x : State) : persist Key.hs.HS_CLEAR x = [] := by
    rw [persist, hr]
    simp [hp]
  rw [does_writeEntry_served hserves, does_writeDo_of_ok hst (by decide), does_writeAccept_now hr heff, htakes,
    entryTakes_of_plain hmasked (fun _ => rfl), does_causedBy_pair, hpersist, List.map_nil, State.run_nil, entryDoes_hsClear,
    causedBy_of_quiet (hsClear_quiet _ _ s)]
  rfl

/-! ### The obligation -/

/-- Settles O23: each step is a short list of effects on the group, followed by its release where it is no more ready. -/
theorem hotSwapControllerSteps : Obligations.HotSwapControllerSteps := by
  intro s g _
  have hg := g.isLt
  refine ⟨fun hstate hmet hdie => ⟨_, rfl, ?_⟩, fun t0 hstate hretry htime hmet hdie => ⟨_, rfl, ?_⟩,
    fun mv hstate hmv => ⟨_, rfl, hsPowerGood_leaves hg hstate hmv⟩, fun hstate => ⟨_, rfl, powerGoodLost_leaves hg hstate⟩,
    fun hstate hcount => ⟨_, rfl, hsFault_leaves hg hstate hcount⟩, fun w m ha hv hbit => ⟨_, rfl, ?_⟩⟩
  · obtain ⟨hshown, hgate, hat, -, hframe⟩ := hsRamp_leaves hg s
    rw [does_hsRampStart hstate hmet hdie]
    exact ⟨hshown, hgate, hat, hframe⟩
  · obtain ⟨hshown, hgate, -, hnone, -⟩ := hsRamp_leaves hg s
    rw [does_hsRetry hstate hretry htime hmet hdie]
    exact ⟨hshown, hgate, hnone⟩
  · have hmask : (m &&& 0xF).testBit g = true := by
      have hlow : ∀ g : Fin 4, Nat.testBit 0xF g = true := by decide
      rw [Nat.testBit_and, hbit, hlow g]
      rfl
    rw [does_hsClear ha hv]
    exact hsClear_leaves hg hmask s

end Sys2Proof.Machine
end

section
/-!
Sense calibration (R465-R468) and the end of a planned removal (R454).
-/

namespace Sys2Proof.Machine

variable {α : Type} {s : State} {c : Nat}

/-! ### The beginning of a calibration -/

/-- A channel whose calibration begins (R466): a released bridge skips the first step. -/
def Chan.calBegun (released : Bool) (now : Nat) (x : Chan) : Chan :=
  if released then { x with calDue := true, calPhase := 2, calStart := some now }
  else { x with calDue := true, calPhase := 1, gl := x.gl.to 0 32 }

/-- Its calibration begins at the boundary of its turn, and nothing but the channel changes (R465). -/
theorem calibrationStart_leaves (hmay : s.calMay c = true) (hat : s.atBoundary = true) (hserved : s.units.mgmt.served = true)
    (hidle : ∀ d ∈ groupChans (c / 4), (s.chan d).calPhase = 0) (hfirst : ∀ d ∈ groupChans (c / 4), d < c → s.calMay d = false) :
    let t := s.does (calibrationStart c)
    t.chan c = (s.chan c).calBegun (s.released c) s.mtbNs ∧ s.Frame [] t := by
  obtain ⟨x, hx⟩ : ∃ x, x = s.apply (.chan c fun x => { x with calDue := true }) := ⟨_, rfl⟩
  have hgroup : ((groupChans (c / 4)).all fun d => (s.chan d).calPhase == 0) = true :=
    List.all_eq_true.2 fun d hd => beq_iff_eq.2 (hidle d hd)
  have hturn : ((groupChans (c / 4)).all fun d => decide (c ≤ d) || !s.calMay d) = true := by
    refine List.all_eq_true.2 fun d hd => ?_
    by_cases hlt : d < c
    · simp [hfirst d hd hlt]
    · simp [Nat.le_of_not_lt hlt]
  have hdoes : s.does (calibrationStart c) = x.does (calBegin c) := by
    rw [State.does, calibrationStart, if_pos ⟨hmay, hat, hserved, hgroup, hturn⟩]
    refine (State.does_phases_cons s _ _).trans ?_
    rw [State.does_phases_cons, State.does_phases_nil, hx]
    rfl
  have hchan : x.chan c = { s.chan c with calDue := true } := by rw [hx, s.chan_apply_chan_self]
  have hsame : x.released c = s.released c ∧ x.mtbNs = s.mtbNs := by rw [hx]; exact ⟨rfl, rfl⟩
  have hframe : s.Frame [] x := by rw [hx]; exact chan_frame s c _
  have hsteps : x.does (calBegin c) = x.run (calBegin c x) := rfl
  rw [hdoes, hsteps, calBegin, hsame.1, hsame.2]
  cases s.released c with
  | true =>
    rw [if_pos rfl]
    exact ⟨by rw [State.run_cons, State.run_nil, x.chan_apply_chan_self, hchan]; rfl, hframe.trans (chan_frame x c _)⟩
  | false =>
    rw [if_neg Bool.false_ne_true]
    exact ⟨by rw [State.run_cons, State.run_nil, x.chan_apply_chan_self, hchan]; rfl, hframe.trans (chan_frame x c _)⟩

/-! ### Its result -/

/-- What the return of a channel from its calibration leaves: the record of the result (R466, R467). -/
def Chan.calRecord (x : Chan) : (Int × Int × Int × Int) × Option Nat × Option (Nat × Int) × Bool :=
  (x.calVals, x.calAt, x.calTried, x.calDue)

def Units.calRecord (c : Nat) (u : Units) := (u.chanAt c).calRecord

theorem calRecord_onChan (f : Chan → Chan) (hf : ∀ x, (f x).calRecord = x.calRecord) (u : Units) :
    (u.onChan c f).calRecord c = u.calRecord c := by
  have hat : (u.onChan c f).chanAt c = f (u.chanAt c) := (Tbl.at_upd ..).trans (if_pos rfl)
  rw [Units.calRecord, hat, hf, Units.calRecord]

/-- The end of an operation is its record's, and an event (R423). -/
theorem handleEnd_spares {π : Units → α} (hπ : ∀ (u : Units) t, π { u with handles := t } = π u) (h st result : Nat) :
    Phase.Within [Key.evt.EVT_RAISED] π (handleEnd h st result) := fun s => by
  unfold handleEnd
  split
  · exact .nil
  · split
    · exact .nil
    · exact confined_cons.2 ⟨fun u => hπ u _, by simp⟩

/-- So is the end of a channel's part of CALIBRATE (R467). -/
theorem calPart_spares {π : Units → α} (hπ : ∀ (u : Units) t, π { u with handles := t } = π u) :
    Phase.Within [Key.evt.EVT_RAISED] π (calPart c) := fun s => by
  unfold calPart
  split
  · exact .nil
  split
  · exact .nil
  dsimp only
  split
  · refine Phase.within_phases ?_ s
    simp only [List.forall_mem_cons, Phase.within_always, confined_cons]
    exact ⟨⟨fun u => hπ u _, .nil⟩, handleEnd_spares hπ _ _ _, by simp⟩
  · exact confined_cons.2 ⟨fun u => hπ u _, .nil⟩

theorem calLeave_spares : Phase.Within [Key.evt.EVT_RAISED] (Units.calRecord c) (calLeave c) := fun s => by
  unfold calLeave
  split
  · refine Phase.within_phases ?_ s
    simp only [List.forall_mem_cons, Phase.within_always, confined_cons, Effect.within_chan]
    exact ⟨⟨calRecord_onChan _ fun _ => rfl, .nil⟩, calPart_spares fun _ _ => rfl, by simp⟩
  · exact .nil

/-- A channel that is released returns without a ramp (R466). -/
theorem calEnd_spares (hreleased : s.released c = true) : Confined [Key.evt.EVT_RAISED] (Units.calRecord c) (calEnd c s) := by
  have hnever : s.outState c ≠ 1 := by
    simp only [State.released, Bool.or_eq_true, beq_iff_eq] at hreleased
    omega
  unfold calEnd
  split
  · exact confined_cons.2 ⟨calRecord_onChan _ fun _ => rfl, .nil⟩
  · refine confined_append.2 ⟨confined_cons.2 ⟨calRecord_onChan _ fun _ => rfl, .nil⟩, confined_append.2 ⟨?_, .nil⟩⟩
    exact confined_ite.2 ⟨fun h => absurd h.2.1 hnever, fun _ => .nil⟩

/-- The return from a calibration leaves its record (R466). -/
theorem calBack_spares (c : Nat) : Phase.Within [Key.evt.EVT_RAISED] (Units.calRecord c) (calBack c) := fun s => by
  unfold calBack
  split
  case isTrue hreleased => exact confined_append.2 ⟨calEnd_spares hreleased, confined_append.2 ⟨calLeave_spares _, .nil⟩⟩
  case isFalse => exact confined_cons.2 ⟨calRecord_onChan _ fun _ => rfl, .nil⟩

/-- A result is counted and reported, and the channel records it, whatever follows of the channel's return (R466, R468). -/
theorem calResult_leaves {count : Nat} (hcount : count ∈ [Key.cal.CAL_COUNT, Key.cal.CAL_REJECTED]) {a : List Byte} {f : Chan → Chan}
    {ps : List Phase} (hps : ∀ p ∈ ps, Phase.Within [Key.evt.EVT_RAISED] (Units.calRecord c) p) (s : State) :
    let t := s.does (phases (always [.bump count 1, .event Ev.CALIBRATED a, .chan c f] :: ps))
    (t.chan c).calRecord = (f (s.chan c)).calRecord ∧ t.num count = (s.num count + 1) % 2 ^ 32 ∧
      s.Frame [count, Key.evt.EVT_RAISED] t := by
  obtain ⟨hwidth, hraised⟩ : Dict.width count = some (32, false) ∧ count ∉ [Key.evt.EVT_RAISED] := by
    simp only [List.mem_cons, List.not_mem_nil, or_false] at hcount
    rcases hcount with rfl | rfl <;> decide +kernel
  obtain ⟨x, hx⟩ : ∃ x, x = s.run [.bump count 1, .event Ev.CALIBRATED a, .chan c f] := ⟨_, rfl⟩
  have hrest := Phase.within_phases hps
  have hall : Confined [count, Key.evt.EVT_RAISED] (fun _ => ()) [.bump count 1, .event Ev.CALIBRATED a, .chan c f] := by simp
  have hchan : x.chan c = f (s.chan c) := by
    rw [hx, State.run_cons, State.run_cons, State.run_cons, State.run_nil, State.chan_apply_chan_self]
    simp
  have hnum : x.num count = (s.num count + 1) % 2 ^ 32 := by
    have htell : Confined [Key.evt.EVT_RAISED] (fun _ => ()) [.event Ev.CALIBRATED a, .chan c f] := by simp
    rw [hx, State.run_cons, (htell.frame _).num hraised, State.num_bump _ hwidth]
  have hrecord : ((x.does (phases ps)).chan c).calRecord = (x.chan c).calRecord := hrest.units (fun _ _ _ _ _ _ => rfl) x
  have hframe : s.Frame [count, Key.evt.EVT_RAISED] x := hx ▸ hall.frame s
  rw [State.does_phases_cons, State.does_always, ← hx]
  refine ⟨hrecord.trans (by rw [hchan]), ((hrest.frame x).num hraised).trans hnum, hframe.trans ((hrest.frame x).mono ?_)⟩
  exact List.subset_cons_self ..

/-- A channel whose result is used, and one whose result is rejected (R466, R468, log 175). -/
def Chan.calKept (v : Int × Int × Int × Int) (now : Nat) (stage : Int) (x : Chan) : Chan :=
  { x with calVals := v, calAt := some now, calTemp := stage, calDue := false, calTried := none }
def Chan.calRejected (now : Nat) (stage : Int) (x : Chan) : Chan := { x with calDue := false, calTried := some (now, stage) }

/-- A channel that CALIBRATE has named makes the operation fail (R467). -/
def calFails (c : Nat) (forced : Bool) : Phase := fun s =>
  if !forced then [] else match s.calHandle c with
    | some h => [.handle h fun y => y.map fun y => { y with failed := true }]
    | none => []

theorem calFails_spares (c : Nat) (forced : Bool) : Phase.Within [Key.evt.EVT_RAISED] (Units.calRecord c) (calFails c forced) :=
  fun s => by
    unfold calFails
    split
    · exact .nil
    split
    · exact confined_cons.2 ⟨fun _ => rfl, .nil⟩
    · exact .nil

section Done
variable {vo vg io ig : Int} (hphase : (s.chan c).calPhase = 2) (hdue : s.passed (s.chan c).calStart 20000000 = true)
  (hserved : s.units.mgmt.served = true)
include hphase hdue hserved

/-- A result within the limits is kept and used (R466, R468). -/
theorem calibrationDone_kept (hvo : |vo| ≤ 100000) (hio : |io| ≤ 20000) (hvg : |vg| ≤ 10000) (hig : |ig| ≤ 10000) :
    let t := s.does (calibrationDone c (vo, vg, io, ig))
    (t.chan c).calVals = (vo, vg, io, ig) ∧ (t.chan c).calAt = some s.now ∧
      t.num Key.cal.CAL_COUNT = (s.num Key.cal.CAL_COUNT + 1) % 2 ^ 32 ∧ s.Frame [Key.cal.CAL_COUNT, Key.evt.EVT_RAISED] t := by
  have hdoes : s.does (calibrationDone c (vo, vg, io, ig)) = s.does (phases (always [.bump Key.cal.CAL_COUNT 1,
      .event Ev.CALIBRATED (args16 [c, 0]), .chan c (Chan.calKept (vo, vg, io, ig) s.now (s.tStage (c / 4)))] :: [calBack c])) := by
    rw [State.does, calibrationDone, if_neg (by simp [hphase, hdue, hserved]), if_neg (by dsimp only; omega)]
    rfl
  obtain ⟨hrecord, hnum, hframe⟩ := calResult_leaves (a := args16 [c, 0]) (f := Chan.calKept (vo, vg, io, ig) s.now (s.tStage (c / 4)))
    (List.mem_cons_self ..) (ps := [calBack c]) (by simpa using calBack_spares c) s
  simp only [Chan.calRecord, Prod.mk.injEq] at hrecord
  obtain ⟨hvals, hat, -, -⟩ := hrecord
  rw [hdoes]
  exact ⟨hvals, hat, hnum, hframe⟩

/-- One outside them is counted, and stands as the last attempt (R468, log 175). -/
theorem calibrationDone_rejected (hout : 100000 < |vo| ∨ 20000 < |io| ∨ 10000 < |vg| ∨ 10000 < |ig|) :
    let t := s.does (calibrationDone c (vo, vg, io, ig))
    (t.chan c).calVals = (s.chan c).calVals ∧ (t.chan c).calTried = some (s.now, s.tStage (c / 4)) ∧ (t.chan c).calDue = false ∧
      t.num Key.cal.CAL_REJECTED = (s.num Key.cal.CAL_REJECTED + 1) % 2 ^ 32 ∧ s.Frame [Key.cal.CAL_REJECTED, Key.evt.EVT_RAISED] t := by
  have hdoes : s.does (calibrationDone c (vo, vg, io, ig)) = s.does (phases (always [.bump Key.cal.CAL_REJECTED 1,
      .event Ev.CALIBRATED (args16 [c, 2]), .chan c (Chan.calRejected s.now (s.tStage (c / 4)))]  ::
        [calFails c (s.chan c).calForced, calBack c])) := by
    rw [State.does, calibrationDone, if_neg (by simp [hphase, hdue, hserved]), if_pos hout]
    rfl
  obtain ⟨hrecord, hnum, hframe⟩ := calResult_leaves (a := args16 [c, 2]) (f := Chan.calRejected s.now (s.tStage (c / 4)))
    (List.mem_cons_of_mem _ (List.mem_cons_self ..)) (ps := [calFails c (s.chan c).calForced, calBack c])
    (by simpa using ⟨calFails_spares c _, calBack_spares c⟩) s
  simp only [Chan.calRecord, Prod.mk.injEq] at hrecord
  obtain ⟨hvals, -, htried, hdue⟩ := hrecord
  rw [hdoes]
  exact ⟨hvals, htried, hdue, hnum, hframe⟩

end Done

/-! ### The end of a planned removal -/

/-- What the record of the log writes (R471, R472). -/
def logKeys : List Nat := [Key.log.LOG_NEXT_SEQ, Key.log.LOG_FLUSHED, Key.log.LOG_OLDEST_SEQ]

/-- What the units hold of the groups, the operations and the removal. -/
def Units.removal (u : Units) : Tbl Group × Tbl (Option Handle) × Bool × Option Nat :=
  (u.groups, u.handles, u.mgmt.removed, u.mgmt.removal)

/-- A record of the log is the management processor's alone (R471). -/
theorem logWrite_spares (v : Tbl Group × Tbl (Option Handle) × Bool × Option Nat) :
    Phase.Spares logKeys (fun u => u.removal = v) logWrite := fun s => by
  unfold logWrite
  split
  · exact .nil
  · exact .nil
  · simp only [spared_cons, Effect.spares_nat, Effect.spares_save]
    exact ⟨fun _ h => h, by simp [logKeys], by simp [logKeys], by simp [logKeys], trivial, trivial, trivial, fun _ h => h, .nil⟩

/-- What the upkeep before the end of a removal writes: the observers' instants and the records (R254, R454). -/
def upkeepKeys : List Nat := (List.range 16).map Key.thm.OBS_SAVED ++ logKeys

theorem removal_storeObservers (s : State) (u : Units) : (s.storeObservers u).removal = u.removal := by
  simp only [Units.removal, State.storeObservers]

theorem removalUpkeep_spares (v : Tbl Group × Tbl (Option Handle) × Bool × Option Nat) :
    Phase.Spares upkeepKeys (fun u => u.removal = v) (phases [observersSave, logFlush, lifetimeSave]) := by
  have hobservers : Phase.Spares upkeepKeys (fun u => u.removal = v) observersSave := fun s => by
    rw [observersSave_eq]
    refine spared_cons.2 ⟨fun u h => (removal_storeObservers s u).trans h, spared_cons.2 ⟨fun _ h => h, ?_⟩⟩
    exact ((showSaved_confined (π := Units.removal) s).spared (· = v)).mono (List.subset_append_left ..)
  have hflush : Phase.Spares upkeepKeys (fun u => u.removal = v) logFlush := fun s => by
    refine Phase.spares_phases (fun p hp => ?_) s
    obtain ⟨_, -, rfl⟩ := List.mem_map.1 hp
    exact fun s => (logWrite_spares v s).mono (List.subset_append_right ..)
  have hsave : Phase.Spares upkeepKeys (fun u => u.removal = v) lifetimeSave := fun s => by
    simp only [lifetimeSave, spared_cons]
    refine ⟨fun _ h => h, fun e he => ?_⟩
    obtain ⟨_, -, rfl⟩ := List.mem_map.1 he
    trivial
  refine Phase.spares_phases ?_
  simp only [List.forall_mem_cons]
  exact ⟨hobservers, hflush, hsave, by simp⟩

/-- The controllers' states are no part of what the upkeep or the end of an operation writes. -/
theorem hsState_notMem_upkeep : ∀ g < 4, Key.hs.HS_STATE_PG g ∉ upkeepKeys ∧ Key.hs.HS_STATE_PG g ∉ [Key.evt.EVT_RAISED] := by
  decide +kernel

/-- The groups' turns leave the mode, the operations and what the management processor holds. -/
theorem gateTurns_spare (idle : Int) (s : State) : (s.does (forAll (List.range 4) (gateTurn idle))).mode = s.mode ∧
    (s.does (forAll (List.range 4) (gateTurn idle))).units.handles = s.units.handles := by
  have hall : Phase.Within ((List.range 4).flatMap gateKeys) (fun u : Units => u.handles) (forAll (List.range 4) (gateTurn idle)) :=
    Phase.within_forAll fun i hi => (gateTurn_within (fun _ _ _ => rfl) (fun _ _ => rfl) (fun _ _ => rfl) idle).mono
      fun _ hk => List.mem_flatMap.2 ⟨i, hi, hk⟩
  exact ⟨(hall.frame s).mode, hall.units (fun _ _ _ _ _ _ => rfl) s⟩

section Removal
variable {h : Nat} {x : Handle} (hremoval : s.units.mgmt.removal = some h) (hmode : s.mode = .safe)
  (hwait : s.units.mgmt.waitMode = none) (hreleased : s.allReleased = true) (hserved : s.units.mgmt.served = true)
include hremoval hmode hwait hreleased hserved

theorem does_removalComplete : s.does removalComplete =
    (((s.does (forAll (List.range 4) (gateTurn (6 : Nat)))).apply (.mgmt fun m => { m with removed := true, removal := none })).does
      (phases [observersSave, logFlush, lifetimeSave])).does (handleEnd h St.ok 0) := by
  have hready : ¬ (s.mode ≠ .safe ∨ s.units.mgmt.waitMode.isSome = true ∨ (!s.allReleased) = true ∨
      (!s.units.mgmt.served) = true) := by simp [hmode, hwait, hreleased, hserved]
  rw [State.does, removalComplete, hremoval]
  simp only [if_neg hready]
  refine (State.does_phases_cons s _ _).trans ?_
  simp only [State.does_phases_cons, State.does_phases_nil, State.does_always, State.run_cons, State.run_nil]
  rfl

/-- A planned removal completes (R454). -/
theorem removalComplete_leaves (hx : s.handle h = some x) (hruns : x.finished = false) :
    let t := s.does removalComplete
    t.units.mgmt.removed = true ∧ t.units.mgmt.removal = none ∧ t.mode = .safe ∧
      (∀ g < 4, (t.group g).gate = false ∧ (t.group g).notReady = true ∧ t.hsState g = if s.hsState g = 5 then 5 else 6) ∧
      ∃ y, t.handle h = some y ∧ y.finished = true ∧ y.status = St.ok := by
  obtain ⟨a, ha⟩ : ∃ a, a = s.does (forAll (List.range 4) (gateTurn (6 : Nat))) := ⟨_, rfl⟩
  obtain ⟨b, hb⟩ : ∃ b, b = a.apply (.mgmt fun m => { m with removed := true, removal := none }) := ⟨_, rfl⟩
  obtain ⟨d, hd⟩ : ∃ d, d = b.does (phases [observersSave, logFlush, lifetimeSave]) := ⟨_, rfl⟩
  have hdoes : s.does removalComplete = d.does (handleEnd h St.ok 0) := by
    rw [does_removalComplete hremoval hmode hwait hreleased hserved, hd, hb, ha]
  obtain ⟨hmodeA, hhandlesA⟩ := gateTurns_spare (6 : Nat) s
  rw [← ha] at hmodeA hhandlesA
  have hb' : b.units.removal = (a.units.groups, a.units.handles, true, none) := by rw [hb]; rfl
  have hupkeep := removalUpkeep_spares b.units.removal b
  have hd' : d.units.removal = (a.units.groups, a.units.handles, true, none) := by
    rw [← hb', hd]
    exact hupkeep.units (fun _ _ _ _ _ _ => rfl) rfl
  simp only [Units.removal, Prod.mk.injEq] at hd'
  obtain ⟨hgroups, hhandles, hremoved, hnone⟩ := hd'
  have hdx : d.handle h = some x := by
    rw [State.handle, hhandles, hhandlesA]
    exact hx
  have hend := handleEnd_spares (π := fun u => (u.groups, u.mgmt.removed, u.mgmt.removal)) (fun _ _ => rfl) h St.ok 0
  have hkept := hend.units (fun _ _ _ _ _ _ => rfl) d
  simp only [Prod.mk.injEq] at hkept
  obtain ⟨hgroups', hremoved', hnone'⟩ := hkept
  obtain ⟨hframe, hhandle⟩ := handleEnd_leaves hdx hruns St.ok 0
  have hmodeD : d.mode = .safe := by
    rw [hd]
    refine (hupkeep.mode b).trans ?_
    rw [hb]
    exact hmodeA.trans hmode
  rw [hdoes]
  refine ⟨hremoved'.trans hremoved, hnone'.trans hnone, hframe.mode.trans hmodeD, fun g hg => ?_, _, hhandle, rfl, rfl⟩
  obtain ⟨hgate, hready, hstate⟩ := gateTurns_leaves (idle := 6) hg (by decide) s
  rw [← ha] at hgate hready hstate
  have hgroup : (d.does (handleEnd h St.ok 0)).group g = a.group g := by
    rw [State.group, hgroups', hgroups, State.group]
  obtain ⟨hupkeepKey, hendKey⟩ := hsState_notMem_upkeep g hg
  have hstateD : d.hsState g = a.hsState g := by
    rw [hd]
    refine (hupkeep.nat b hupkeepKey).trans ?_
    rw [hb]
    rfl
  rw [hgroup]
  exact ⟨hgate, hready, ((hframe.nat hendKey).trans hstateD).trans hstate⟩

end Removal

/-! ### The obligation -/

/-- Settles O46: a calibration is its channel's own, and a removal is the groups' turns, the upkeep and the end of its operation. -/
theorem calibrationAndRemovalComplete : Obligations.CalibrationAndRemovalComplete := by
  refine ⟨fun s c hmay hat hserved hidle hfirst => ⟨_, rfl, ?_⟩,
    fun s c vo vg io ig hphase hdue hserved hvo hio hvg hig => ⟨_, rfl, calibrationDone_kept hphase hdue hserved hvo hio hvg hig⟩,
    fun s c vo vg io ig hphase hdue hserved hout => ⟨_, rfl, calibrationDone_rejected hphase hdue hserved hout⟩,
    fun s h x hremoval hmode hwait hreleased hserved hx hruns =>
      ⟨_, rfl, removalComplete_leaves hremoval hmode hwait hreleased hserved hx hruns⟩⟩
  obtain ⟨hchan, hframe⟩ := calibrationStart_leaves hmay hat hserved hidle hfirst
  rw [hchan, Chan.calBegun]
  refine ⟨?_, ?_, hframe⟩ <;> split <;> rfl

end Sys2Proof.Machine
end

section
/-!
Absences of the management processor and divergences (R457-R462): what a commanded value does as it is written once more, and what a
return from an absence leaves.
-/

namespace Sys2Proof.Machine

/-! ### The commanded value is written once more -/

section Rewrite
variable (i n : Nat) (s : State)

@[simp] theorem Effect.calm_port {f : Port → Port} : (Effect.port i f).Calm := fun _ => rfl
@[simp] theorem Effect.calm_learner {f : Learner → Learner} : (Effect.learner i f).Calm := fun _ => rfl
@[simp] theorem Effect.calm_lane {f : Lane → Lane} : (Effect.lane i f).Calm := fun _ => rfl

@[simp] theorem unitKey_pst : UnitKey (pstKey i) := .inl (by
  simp only [pstKey, Key.tdm.PORT_STATE, Key.aes.RX_STATE]
  split <;> omega)
@[simp] theorem unitKey_pfence : UnitKey (pfenceKey i) := .inl (by
  simp only [pfenceKey, Key.tdm.FENCE_CAUSE, Key.aes.FENCE_CAUSE]
  split <;> omega)

@[simp] theorem unitKey_flState : UnitKey (Key.fl.FL_STATE i) := .inl (by simp only [Key.fl.FL_STATE]; omega)
@[simp] theorem unitKey_flHolds : UnitKey (Key.fl.FL_HOLDS i) := .inl (by simp only [Key.fl.FL_HOLDS]; omega)
@[simp] theorem unitKey_aoutState : UnitKey Key.aout.AOUT_STATE := .inl (by decide)

@[simp] theorem calm_dropSlotWaits : Calm (dropSlotWaits i) := by simp [dropSlotWaits]
@[simp] theorem calm_setPort (new : PSt) : Calm (setPort i new s) := by simp [setPort]
@[simp] theorem calm_portFence (cause : Nat) : Calm (portFence i cause s) := by simp [portFence]
@[simp] theorem calm_portFault (new : PSt) : Calm (portFault i new s) := by simp [portFault]
@[simp] theorem calm_portAcquire : Calm (portAcquire i s) := by simp [portAcquire, readP]
@[simp] theorem calm_portBegin : Calm (portBegin i s) := by simp [portBegin]
@[simp] theorem calm_portEnable : Calm (portEnable i s) := by
  unfold portEnable
  split_ifs <;> simp
@[simp] theorem calm_rxEnable : Calm (rxEnable i s) := by
  unfold rxEnable
  dsimp only
  split_ifs <;> simp
@[simp] theorem calm_setFl : Calm (setFl i n s) := by simp [setFl]
@[simp] theorem calm_flEnable (on : Bool) : Calm (flEnable i on s) := by
  simp [flEnable, flBegin, flChange]
@[simp] theorem calm_chEnEffect (v : Int) : Calm (chEnEffect i v s) := by simp [chEnEffect]
@[simp] theorem calm_streamFollows : Calm (streamFollows i s) := by simp [streamFollows]

end Rewrite

/-- A commanded entry of none of the kinds that control a unit of their own is a committed coefficient (Table 15-2). -/
theorem unitKey_of_commanded {k : Nat} (h : isCommanded k = true)
    (hen : (List.range 16).find? (fun c => k == Key.pw.CH_EN c) = none)
    (hreq : (List.range 64).find? (fun n => k == Key.ls.STATE_REQ n) = none)
    (hsub : (List.range 128).find? (fun i => k == Key.sub.ENABLE i) = none)
    (hport : (List.range 4).find? (fun p => k == Key.tdm.PORT_EN p) = none)
    (hfl : (List.range 4).find? (fun g => k == Key.fl.FL_ENABLE g) = none)
    (haes : (List.range 2).find? (fun a => k == Key.aes.AES_EN a) = none)
    (haout : k ≠ Key.aout.AOUT_EN) (hmode : k ≠ Key.mode.MODE_CURRENT)
    (hlane : (List.range 16).find? (fun l => k == Key.lane.PLACED_COST l) = none) : UnitKey k := by
  have hany {p : Nat → Bool} {l : List Nat} (hnone : l.find? p = none) : l.any p = false := by
    rw [List.any_eq_false]
    exact fun x hx => by simpa using List.find?_eq_none.1 hnone x hx
  simp only [isCommanded, hany hen, hany hreq, hany hsub, hany hport, hany hfl, hany haes, hany hlane, beq_eq_false_iff_ne.2 haout,
    beq_eq_false_iff_ne.2 hmode, Bool.false_or, Bool.and_eq_true, decide_eq_true_eq] at h
  obtain ⟨⟨hlow, -⟩, -⟩ := h
  exact .inl (by omega)

/-- The rewrite of a commanded value leaves what the management processor holds (R461). -/
theorem calm_rewrite {k : Nat} (h : isCommanded k = true) (s : State) : Calm (rewrite k s) := by
  unfold rewrite
  split
  · simp
  next hen =>
  split
  · simp
  next hreq =>
  split
  · simp
  next hsub =>
  split
  · simp
  next hport =>
  split
  · simp
  next hfl =>
  split
  · simp
  next haes =>
  split
  · simp
  next haout =>
  split
  · exact calm_phases (by simp)
  next hmode =>
  split
  · simp
  next hlane =>
    have hkey := unitKey_of_commanded h hen hreq hsub hport hfl haes haout hmode hlane
    split <;> simp [hkey]

/-! ### A divergence -/

/-- What Calm effects leave of the divergences. -/
theorem Calm.diverge {es : List Effect} (h : Calm es) (s : State) : (s.run es).units.mgmt.diverge = s.units.mgmt.diverge :=
  (congrArg (fun p => p.1.diverge) (h.control s) :)

/-- What is recorded, reported and counted of a divergence that has lasted 100 ms (R461). -/
def divergeNotes (k now : Nat) : List Effect :=
  [.mgmt fun m => { m with diverge := m.diverge ++ [(k, now, true)] },
   .event Ev.STATE_DIVERGE (args16 [k / 256, k % 256, 0]), .bump Key.fence.DIVERGENCES 1]

section Diverge
variable {s : State} {k : Nat} (hk : isCommanded k = true) (hserved : s.units.mgmt.served = true)
  (hnone : s.units.mgmt.diverge = []) (hopen : s.units.mgmt.divergedOpen = [])
  (hback : ∀ t0, s.units.mgmt.returnedAt = some t0 → t0 + 100000000 ≤ s.mtbNs)
include hnone

/-- They are recorded and counted. -/
theorem divergeNotes_leaves :
    let t := s.run (divergeNotes k s.mtbNs)
    t.units.mgmt.diverge = [(k, s.mtbNs, true)] ∧ t.num Key.fence.DIVERGENCES = (s.num Key.fence.DIVERGENCES + 1) % 2 ^ 32 ∧
      s.Frame [Key.evt.EVT_RAISED, Key.fence.DIVERGENCES] t := by
  have hall : Confined [Key.evt.EVT_RAISED, Key.fence.DIVERGENCES] (fun _ => ()) (divergeNotes k s.mtbNs) := by simp [divergeNotes]
  obtain ⟨x, hx⟩ : ∃ x, x = s.apply (.mgmt fun m => { m with diverge := m.diverge ++ [(k, s.mtbNs, true)] }) := ⟨_, rfl⟩
  have hrun : s.run (divergeNotes k s.mtbNs) =
      (x.apply (.event Ev.STATE_DIVERGE (args16 [k / 256, k % 256, 0]))).apply (.bump Key.fence.DIVERGENCES 1) := by
    rw [divergeNotes, State.run_cons, State.run_cons, State.run_cons, State.run_nil, hx]
  have hevent {β : Type} (π : Units → β) : Effect.Within [Key.evt.EVT_RAISED] π
      (.event Ev.STATE_DIVERGE (args16 [k / 256, k % 256, 0])) := by simp
  have hbump : Effect.Within [Key.fence.DIVERGENCES] (fun u : Units => u.mgmt.diverge) (.bump Key.fence.DIVERGENCES 1) := by simp
  have hwidth : Dict.width Key.fence.DIVERGENCES = some (32, false) := by decide +kernel
  refine ⟨?_, ?_, hall.frame s⟩
  · rw [hrun]
    refine (hbump.units (fun _ _ _ _ _ _ => rfl) _).trans
      (((hevent fun u => u.mgmt.diverge).units (fun _ _ _ _ _ _ => rfl) _).trans ?_)
    rw [hx]
    exact congrArg (· ++ [(k, s.mtbNs, true)]) hnone
  · rw [hrun, State.num_bump _ hwidth, ((hevent fun _ => ()).frame x).num (by decide), hx]
    rfl

include hk hserved hopen hback

theorem stateDiverge_eq : stateDiverge k s = phases [always (divergeNotes k s.mtbNs), rewrite k] s := by
  have hlate : s.units.mgmt.returnedAt.any (fun t => decide (s.mtbNs < t + 100000000)) = false := by
    rw [Option.any_eq_false]
    exact fun t ht => by simpa using hback t ht
  refine if_neg ?_
  simp [hk, hserved, hlate, hnone, hopen]

theorem does_stateDiverge : s.does (stateDiverge k) = (s.run (divergeNotes k s.mtbNs)).does (rewrite k) := by
  rw [State.does, stateDiverge_eq hk hserved hnone hopen hback]
  refine (State.does_phases_cons s _ _).trans ?_
  rw [State.does_phases_cons, State.does_phases_nil, State.does_always]

/-- A divergence is recorded, reported and counted, and its value written again (R461). -/
theorem stateDiverge_leaves :
    let t := s.does (stateDiverge k)
    (k, s.mtbNs, true) ∈ t.units.mgmt.diverge ∧ t.num Key.fence.DIVERGENCES = (s.num Key.fence.DIVERGENCES + 1) % 2 ^ 32 ∧
      t.mode = s.mode ∧ t.store = s.store := by
  obtain ⟨hdiverge, hcount, hframe⟩ := divergeNotes_leaves (k := k) hnone
  have hcalm := calm_rewrite hk (s.run (divergeNotes k s.mtbNs))
  have hkey : ¬ UnitKey Key.fence.DIVERGENCES := not_or.2 ⟨by decide, by decide⟩
  rw [does_stateDiverge hk hserved hnone hopen hback]
  refine ⟨?_, (hcalm.num _ hkey).trans hcount, (hcalm.mode _).trans hframe.mode, (hcalm.store _).trans hframe.store⟩
  rw [State.does, hcalm.diverge, hdiverge]
  exact List.mem_singleton_self _

end Diverge

/-- 100 ms later it is found to stand still, or to be over (R461). -/
theorem divergeRecheck_eq {s : State} {k t0 : Nat} {b : Bool} (hone : s.units.mgmt.diverge = [(k, t0, b)])
    (htime : t0 + 100000000 ≤ s.mtbNs) (hserved : s.units.mgmt.served = true) (still : Bool) : divergeRecheck k still s =
      if still then
        [.mgmt fun m => { m with diverge := m.diverge.filter fun d => d.1 != k, divergedOpen := m.divergedOpen ++ [k] },
         .event Ev.STATE_DIVERGE (args16 [k / 256, k % 256, 1]), .bump Key.fence.DIVERGE_OPEN 1]
      else [.mgmt fun m => { m with diverge := m.diverge.filter fun d => d.1 != k }] := by
  have hfind : (s.units.mgmt.diverge.find? fun d => d.1 == k) = some (k, t0, b) := by simp [hone]
  have hdue : ¬ (s.mtbNs < t0 + 100000000 ∨ (!s.units.mgmt.served) = true) := by
    simp only [hserved, Bool.not_true, Bool.false_eq_true, or_false]
    omega
  rw [divergeRecheck, hfind]
  exact if_neg hdue

theorem divergeRecheck_leaves {s : State} {k t0 : Nat} {b : Bool} (hone : s.units.mgmt.diverge = [(k, t0, b)])
    (htime : t0 + 100000000 ≤ s.mtbNs) (hserved : s.units.mgmt.served = true) :
    ((s.does (divergeRecheck k true)).units.mgmt.diverge = [] ∧ k ∈ (s.does (divergeRecheck k true)).units.mgmt.divergedOpen ∧
      (s.does (divergeRecheck k true)).num Key.fence.DIVERGE_OPEN = (s.num Key.fence.DIVERGE_OPEN + 1) % 2 ^ 16 ∧
      s.Frame [Key.fence.DIVERGE_OPEN, Key.evt.EVT_RAISED] (s.does (divergeRecheck k true))) ∧
    (s.does (divergeRecheck k false)).units.mgmt.diverge = [] ∧ s.Frame [] (s.does (divergeRecheck k false)) := by
  have hover : (s.units.mgmt.diverge.filter fun d => d.1 != k) = [] := by simp [hone]
  refine ⟨?_, ?_⟩
  · have hrest : Confined [Key.fence.DIVERGE_OPEN, Key.evt.EVT_RAISED] (fun u : Units => (u.mgmt.diverge, u.mgmt.divergedOpen))
        [.event Ev.STATE_DIVERGE (args16 [k / 256, k % 256, 1]), .bump Key.fence.DIVERGE_OPEN 1] := by simp
    obtain ⟨x, hx⟩ : ∃ x, x = s.apply (.mgmt fun m => { m with
      diverge := m.diverge.filter fun d => d.1 != k, divergedOpen := m.divergedOpen ++ [k] }) := ⟨_, rfl⟩
    have hdoes : s.does (divergeRecheck k true) =
        x.run [.event Ev.STATE_DIVERGE (args16 [k / 256, k % 256, 1]), .bump Key.fence.DIVERGE_OPEN 1] := by
      rw [State.does, divergeRecheck_eq hone htime hserved, if_pos rfl, State.run_cons, hx]
    have hunits := hrest.units (fun _ _ _ _ _ _ => rfl) x
    simp only [Prod.mk.injEq] at hunits
    obtain ⟨hdiverge, hopen⟩ := hunits
    have hevent : Effect.Within [Key.evt.EVT_RAISED] (fun _ => ()) (.event Ev.STATE_DIVERGE (args16 [k / 256, k % 256, 1])) := by simp
    have hwidth : Dict.width Key.fence.DIVERGE_OPEN = some (16, false) := by decide +kernel
    have hframe : s.Frame [Key.fence.DIVERGE_OPEN, Key.evt.EVT_RAISED] x := by
      rw [hx]
      exact ⟨fun _ _ => rfl, rfl, rfl⟩
    rw [hdoes]
    refine ⟨hdiverge.trans (by rw [hx]; exact hover), ?_, ?_, hframe.trans (hrest.frame x)⟩
    · rw [hopen, hx]
      exact List.mem_append_right _ (List.mem_singleton_self _)
    · rw [State.run_cons, State.run_cons, State.run_nil,
        State.apply, State.num_set hwidth, (hevent.frame _).num (by decide), hx]
      rfl
  · have hdoes : s.does (divergeRecheck k false) = s.apply (.mgmt fun m => { m with diverge := m.diverge.filter fun d => d.1 != k }) := by
      rw [State.does, divergeRecheck_eq hone htime hserved, if_neg Bool.false_ne_true, State.run_cons, State.run_nil]
    rw [hdoes]
    exact ⟨hover, fun _ _ => rfl, rfl, rfl⟩

/-! ### An absence begins -/

@[simp] theorem Effect.calm_session {i : Nat} {f : Option Session → Option Session} : (Effect.session i f).Calm := fun _ => rfl

@[simp] theorem calm_sessionEnd (n cause : Nat) (s : State) : Calm (sessionEnd n cause s) := by
  unfold sessionEnd
  split
  · exact .nil
  · split
    · exact .nil
    · simp

@[simp] theorem calm_sessionsEnd (cause : Nat) (s : State) : Calm (sessionsEnd cause s) := calm_forAll fun n t => calm_sessionEnd n cause t

/-- The management processor as its absence begins (R457, R458). -/
def Mgmt.absent (now cause : Nat) (m : Mgmt) : Mgmt := { m with absentAt := some (m.absentAt.getD now), cause := cause, served := false }

/-- The processor serves no more, and every session ends (R457, R458). -/
theorem absenceBegin_leaves {s : State} (cause : Nat) (hpresent : s.units.mgmt.absentAt = none) :
    let t := s.does (absenceBegin cause)
    t.units.mgmt.served = false ∧ t.units.mgmt.absentAt = some s.mtbNs ∧ t.units.mgmt.cause = cause ∧ t.mode = s.mode ∧
      t.store = s.store := by
  have hdoes : s.does (absenceBegin cause) = (s.apply (.mgmt (Mgmt.absent s.mtbNs cause))).does (sessionsEnd 2) := by
    have hsteps : s.does (absenceBegin cause) = s.run (absenceBegin cause s) := rfl
    rw [hsteps, absenceBegin]
    refine (State.does_phases_cons s _ _).trans ?_
    rw [State.does_phases_cons, State.does_phases_nil, State.does_always, State.run_cons, State.run_nil]
    rfl
  obtain ⟨x, hx⟩ : ∃ x, x = s.apply (.mgmt (Mgmt.absent s.mtbNs cause)) := ⟨_, rfl⟩
  have hcalm := calm_sessionsEnd 2 x
  have hcontrol := congrArg (fun p => (p.1.served, p.1.absentAt, p.1.cause)) (hcalm.control x)
  have hx' : (x.units.mgmt.served, x.units.mgmt.absentAt, x.units.mgmt.cause) = (false, some s.mtbNs, cause) := by
    have hfirst : s.units.mgmt.absentAt.getD s.mtbNs = s.mtbNs := by rw [hpresent]; rfl
    rw [hx]
    exact congrArg (fun o => (false, some o, cause)) hfirst
  have hall := Eq.trans (b := (x.units.mgmt.served, x.units.mgmt.absentAt, x.units.mgmt.cause)) hcontrol hx'
  simp only [Prod.mk.injEq] at hall
  obtain ⟨hserved, hat, hcause⟩ := hall
  rw [hdoes, ← hx]
  refine ⟨hserved, hat, hcause, (hcalm.mode x).trans ?_, (hcalm.store x).trans ?_⟩
  all_goals
    rw [hx]
    rfl

/-- A watchdog that expires outside a probation (R458). -/
theorem does_watchdogExpiry {s : State} (hserved : s.units.mgmt.served = true) (hstate : s.updState ≠ 5) :
    s.does watchdogExpiry = s.does (absenceBegin 0) := by
  have hphase : watchdogExpiry s = absenceBegin 0 s := by
    rw [watchdogExpiry, if_neg (by simp [hserved]), if_neg hstate]
  rw [State.does, hphase, State.does]

/-- One in a probation begins the roll-back (R485). -/
theorem does_watchdogExpiry_probation {s : State} (hserved : s.units.mgmt.served = true) (hstate : s.updState = 5) :
    s.does watchdogExpiry = ((s.apply (.mgmt fun m => { m with rollDue := true })).does (absenceBegin 2)).run
      [.nat Key.upd.ACTIVE_BANK s.otherBank, .mgmt fun m => { m with rollDue := false, rotated := none }] := by
  have hphase : watchdogExpiry s = phases [always [.mgmt fun m => { m with rollDue := true }], updateRollback] s := by
    rw [watchdogExpiry, if_neg (by simp [hserved]), if_pos hstate]
  obtain ⟨x, hx⟩ : ∃ x, x = s.apply (.mgmt fun m => { m with rollDue := true }) := ⟨_, rfl⟩
  have hroll : updateRollback x = phases [absenceBegin 2,
      always [.nat Key.upd.ACTIVE_BANK x.otherBank, .mgmt fun m => { m with rollDue := false, rotated := none }]] x := by
    refine if_neg ?_
    rw [hx]
    simp only [Bool.not_eq_true', not_or, not_not, Bool.not_eq_false]
    exact ⟨hstate, rfl, hserved⟩
  have hbank : x.otherBank = s.otherBank := by rw [hx]; rfl
  rw [State.does, hphase]
  refine (State.does_phases_cons s _ _).trans ?_
  rw [State.does_phases_cons, State.does_phases_nil, State.does_always, State.run_cons, State.run_nil, ← hx, State.does, hroll]
  refine (State.does_phases_cons x _ _).trans ?_
  rw [State.does_phases_cons, State.does_phases_nil, State.does_always, hbank]

/-! ### The guard of an absence -/

/-- What the guard does as it acts (R460). -/
def guardActs : List Effect :=
  [.mgmt fun m => { m with guarded := true, stopAll := true }, .pins fun p => { p with faultLow := true }]

/-- Its second step: RESET_N is driven low once every bridge is released (R460). -/
def guardResets : Phase := fun s =>
  if s.allReleased ∧ s.units.pins.resetDrive = none then [.pins fun p => { p with resetDrive := some s.mtbNs }] else []

/-- What the units hold of a guard that has acted. -/
def Units.guard (u : Units) : Bool × Bool × Bool := (u.mgmt.guarded, u.mgmt.stopAll, u.pins.faultLow)

theorem guardResets_within : Phase.Within [] Units.guard guardResets := fun s => by
  unfold guardResets
  split
  · exact confined_cons.2 ⟨fun _ => rfl, .nil⟩
  · exact .nil

/-- An absence of more than 10 s stops every channel, and FAULT_N goes low (R460). -/
theorem absenceGuard_leaves {s : State} (hlong : (s.units.mgmt.absentAt.any fun t0 => s.expired t0 10000000000) = true)
    (hfirst : s.units.mgmt.guarded = false) :
    let t := s.does absenceGuard
    t.units.mgmt.guarded = true ∧ t.units.mgmt.stopAll = true ∧ t.units.pins.faultLow = true ∧ t.mode = s.mode ∧
      t.store = s.store := by
  obtain ⟨x, hx⟩ : ∃ x, x = s.run guardActs := ⟨_, rfl⟩
  have hphase : absenceGuard s = phases [phases [always guardActs, forAll (List.range 16) (fun c => stopBegin c true)], guardResets] s := by
    rw [absenceGuard, if_neg (by simp [hlong]), if_neg (by simp [hfirst])]
    rfl
  have hdoes : s.does absenceGuard = (x.does (forAll (List.range 16) fun c => stopBegin c true)).does guardResets := by
    rw [State.does, hphase]
    refine (State.does_phases_cons s _ _).trans ?_
    rw [State.does_phases_cons, State.does_phases_cons, State.does_phases_cons, State.does_phases_nil, State.does_phases_nil,
      State.does_always, ← hx]
  have hcalm : Calm (forAll (List.range 16) (fun c => stopBegin c true) x) := calm_forAll fun c t => calm_stopBegin c t true
  have hstops : (x.does (forAll (List.range 16) fun c => stopBegin c true)).units.guard = x.units.guard :=
    (congrArg (fun p => (p.1.guarded, p.1.stopAll, p.2.1.faultLow)) (hcalm.control x) :)
  have hguard := (guardResets_within.units (fun _ _ _ _ _ _ => rfl) _).trans hstops
  have hacts : x.units.guard = (true, true, true) := by rw [hx]; rfl
  rw [← hdoes, hacts] at hguard
  simp only [Units.guard, Prod.mk.injEq] at hguard
  obtain ⟨hguarded, hstop, hfault⟩ := hguard
  have hframe := guardResets_within.frame (x.does (forAll (List.range 16) fun c => stopBegin c true))
  rw [← hdoes] at hframe
  refine ⟨hguarded, hstop, hfault, hframe.mode.trans ((hcalm.mode x).trans ?_), hframe.store.trans ((hcalm.store x).trans ?_)⟩
  all_goals
    rw [hx]
    rfl

/-! ### The return -/

/-- What the management processor holds of its absence, of what it has latched and of the divergences. -/
def Mgmt.presence (m : Mgmt) : Option Nat × List EventRec × Bool × List (Nat × Nat × Bool) × Option Nat :=
  (m.absentAt, m.latched, m.served, m.diverge, m.returnedAt)

/-- The effect keeps the mode, the store and the presence of the management processor. -/
def Effect.Attends : Effect → Prop
  | .unit f => ∀ u, (f u).mgmt.presence = u.mgmt.presence
  | .save _ _ => False
  | .mode _ => False
  | _ => True

def Attends (es : List Effect) : Prop := ∀ e ∈ es, e.Attends

section Attends
variable {es fs : List Effect} {e : Effect} {s : State}

@[simp] theorem Attends.nil : Attends [] := fun _ h => absurd h List.not_mem_nil
@[simp] theorem attends_cons : Attends (e :: es) ↔ e.Attends ∧ Attends es := List.forall_mem_cons
@[simp] theorem attends_append : Attends (es ++ fs) ↔ Attends es ∧ Attends fs := List.forall_mem_append

/-- While the processor serves, a raised event is delivered, not latched (R459). -/
theorem Effect.Attends.apply (h : e.Attends) (hserves : s.units.mgmt.absentAt = none) :
    (s.apply e).units.mgmt.presence = s.units.mgmt.presence ∧ (s.apply e).mode = s.mode ∧ (s.apply e).store = s.store := by
  cases e with
  | unit f => exact ⟨h s.units, rfl, rfl⟩
  | save => exact h.elim
  | mode => exact h.elim
  | raise c a n sc =>
    have hnow : (s.raiseNow c a n).units.mgmt = s.units.mgmt := by
      rw [State.raiseNow, hserves]
      simp [State.deliver]
    refine ⟨congrArg Mgmt.presence ?_, by simp [State.apply], by simp [State.apply]⟩
    cases sc with
    | none => exact hnow
    | some sc =>
      rw [State.apply, State.raise]
      split
      · rfl
      · exact hnow
  | _ => simp [State.apply]

theorem Attends.run (h : Attends es) (hserves : s.units.mgmt.absentAt = none) :
    (s.run es).units.mgmt.presence = s.units.mgmt.presence ∧ (s.run es).mode = s.mode ∧ (s.run es).store = s.store := by
  induction es generalizing s with
  | nil => exact ⟨rfl, rfl, rfl⟩
  | cons e es ih =>
    obtain ⟨he, hes⟩ := attends_cons.1 h
    obtain ⟨hpresence, hmode, hstore⟩ := he.apply hserves
    obtain ⟨hpresence', hmode', hstore'⟩ := ih hes ((congrArg Prod.fst hpresence).trans hserves)
    exact ⟨hpresence'.trans hpresence, hmode'.trans hmode, hstore'.trans hstore⟩

/-- Whose effect it is makes no difference. -/
theorem Attends.by (h : Attends es) (n : Nat) : Attends (es.map (Effect.by n)) := fun e he => by
  obtain ⟨d, hd, rfl⟩ := List.mem_map.1 he
  have hs := h d hd
  unfold Effect.by
  split <;> exact hs

theorem attends_phases {ps : List Phase} (h : ∀ p ∈ ps, ∀ t, Attends (p t)) (s : State) : Attends (phases ps s) := by
  induction ps generalizing s with
  | nil => exact .nil
  | cons p ps ih =>
    obtain ⟨hp, hps⟩ := List.forall_mem_cons.1 h
    exact attends_append.2 ⟨hp s, ih hps _⟩

end Attends

theorem attends_setUpd (v bank : Nat) (s : State) : Attends (setUpd v bank s) := by
  unfold setUpd
  split
  · exact .nil
  · simp only [attends_cons]
    exact ⟨trivial, trivial, trivial, .nil⟩

/-- The parts of an image come into use beside the presence of the processor (R482). -/
theorem attends_imageTake (i : Image) (s : State) : Attends (imageTake i s) := by
  refine attends_phases ?_ s
  simp only [List.forall_mem_cons]
  refine ⟨fun t => ?_, fun t => ?_, fun t => ?_, by simp⟩
  · simp only [always, attends_cons]
    exact ⟨trivial, trivial, .nil⟩
  · split
    · exact .nil
    · refine attends_cons.2 ⟨fun _ => rfl, fun e he => ?_⟩
      obtain ⟨l, -, rfl⟩ := List.mem_map.1 he
      exact fun _ => rfl
  · refine attends_cons.2 ⟨trivial, fun e he => ?_⟩
    obtain ⟨l, -, rfl⟩ := List.mem_map.1 he
    exact fun _ => rfl

theorem attends_updateReturn (cause : Nat) (s : State) : Attends (updateReturn cause s) := by
  unfold updateReturn
  dsimp only
  split
  · refine attends_phases ?_ s
    simp only [List.forall_mem_cons]
    exact ⟨fun t => attends_cons.2 ⟨fun _ => rfl, .nil⟩, fun t => (attends_setUpd _ _ t).by _, attends_imageTake _, by simp⟩
  split
  · refine attends_phases ?_ s
    simp only [List.forall_mem_cons]
    exact ⟨attends_imageTake _, fun t => attends_cons.2 ⟨fun _ => rfl, .nil⟩, attends_setUpd _ _, by simp⟩
  · exact .nil

/-- What fell due in the absence is marked as passed (R69, R419). -/
theorem attends_absencePassed (t0 t1 : Nat) (s : State) : Attends (absencePassed t0 t1 s) := by
  have hsession (i : Nat) (f : Option Session → Option Session) : (Effect.session i f).Attends := fun _ => rfl
  have hact (i : Nat) (f : ActExt → ActExt) : (Effect.act i f).Attends := fun _ => rfl
  have hraise (c n : Nat) (a : List Byte) : (Effect.raise c a n none).Attends := trivial
  have hevent (c : Nat) (a : List Byte) : (Effect.event c a).Attends := trivial
  have hnat (k n : Nat) : (Effect.nat k n).Attends := trivial
  have hnum (k : Nat) (n : Int) : (Effect.num k n).Attends := trivial
  refine attends_append.2 ⟨fun e he => ?_, fun e he => ?_⟩
  · obtain ⟨a, -, ha⟩ := List.mem_flatMap.1 he
    dsimp only at ha
    split at ha
    · split at ha
      · exact (attends_cons.2 ⟨hnat _ _, attends_cons.2 ⟨hnum _ _, attends_cons.2 ⟨hevent _ _, .nil⟩⟩⟩) e ha
      · exact (attends_cons.2 ⟨hact _ _, .nil⟩) e ha
    · exact absurd ha List.not_mem_nil
  · obtain ⟨p, -, hp⟩ := List.mem_flatMap.1 he
    dsimp only at hp
    split at hp
    · exact (attends_cons.2 ⟨hsession _ _, .nil⟩) e hp
    split at hp
    · exact (attends_cons.2 ⟨hsession _ _, .nil⟩) e hp
    split at hp
    · exact (attends_cons.2 ⟨hsession _ _, attends_cons.2 ⟨hsession _ _, attends_cons.2 ⟨hraise _ _ _, .nil⟩⟩⟩) e hp
    · exact (attends_cons.2 ⟨hsession _ _, attends_cons.2 ⟨hsession _ _, .nil⟩⟩) e hp

theorem attends_deliverLatched (r : EventRec) : Attends (deliverLatched r) := by
  rw [deliverLatched]
  exact attends_cons.2 ⟨trivial, attends_cons.2 ⟨fun _ => rfl, .nil⟩⟩

/-- The management processor as it returns (R457, R459, R462). -/
def Mgmt.returned (now absence : Nat) (m : Mgmt) : Mgmt :=
  { m with absentAt := none, latched := [], overflow := 0, served := true, diverge := [], returnedAt := some now, absentMs := absence }

/-- A return delivers what was latched, and keeps the rest (R457, R459, R462). -/
theorem mgmtReturn_leaves {s : State} {t0 : Nat} (habsent : s.units.mgmt.absentAt = some t0) :
    let t := s.does mgmtReturn
    t.units.mgmt.served = true ∧ t.units.mgmt.absentAt = none ∧ t.units.mgmt.latched = [] ∧ t.units.mgmt.diverge = [] ∧
      t.units.mgmt.returnedAt = some s.mtbNs ∧ t.mode = s.mode ∧ t.store = s.store := by
  obtain ⟨x, hx⟩ : ∃ x, x = s.apply (.mgmt (Mgmt.returned s.mtbNs ((s.mtbNs - t0) / 1000000))) := ⟨_, rfl⟩
  obtain ⟨ps, hps, hdoes⟩ : ∃ ps : List Phase, (∀ p ∈ ps, ∀ t, Attends (p t)) ∧ s.does mgmtReturn = x.does (phases ps) := by
    refine ⟨[always (s.units.mgmt.latched.flatMap deliverLatched),
      if s.units.mgmt.overflow = 0 then always [] else always [.event Ev.ABSENCE_OVERFLOW (le 4 s.units.mgmt.overflow)],
      always [.event Ev.MGMT_RESTARTED (le 2 s.units.mgmt.cause ++ le 4 ((s.mtbNs - t0) / 1000000 : Nat))],
      updateReturn s.units.mgmt.cause, absencePassed (s.now - (s.mtbNs - t0)) s.now], ?_, ?_⟩
    · simp only [List.forall_mem_cons]
      refine ⟨fun t e he => ?_, fun t => ?_, fun t => attends_cons.2 ⟨trivial, .nil⟩, attends_updateReturn _,
        attends_absencePassed _ _, by simp⟩
      · obtain ⟨r, -, hr⟩ := List.mem_flatMap.1 he
        exact attends_deliverLatched r e hr
      · split
        · exact .nil
        · exact attends_cons.2 ⟨trivial, .nil⟩
    · have hsteps : s.does mgmtReturn = s.run (mgmtReturn s) := rfl
      rw [hsteps, mgmtReturn, habsent]
      refine (State.does_phases_cons s _ _).trans ?_
      rw [State.does_always, State.run_cons, State.run_nil, hx]
      rfl
  have hnone : x.units.mgmt.absentAt = none := by rw [hx]; rfl
  obtain ⟨hpresence, hmode, hstore⟩ := (attends_phases hps x).run hnone
  have hreturned : x.units.mgmt.presence = (none, [], true, [], some s.mtbNs) := by rw [hx]; rfl
  rw [hreturned] at hpresence
  simp only [Mgmt.presence, Prod.mk.injEq] at hpresence
  obtain ⟨habsent', hlatched, hserved, hdiverge, hat⟩ := hpresence
  rw [hdoes]
  refine ⟨hserved, habsent', hlatched, hdiverge, hat, hmode.trans ?_, hstore.trans ?_⟩
  all_goals
    rw [hx]
    rfl

/-! ### The obligation -/

/-- Settles O59: what begins an absence, guards it or reports a divergence is calm beside the record of the management processor, and
nothing that follows a return is latched. -/
theorem absencesAndDivergences : Obligations.AbsencesAndDivergences := by
  intro s
  refine ⟨fun hserved hnone hstate => ⟨_, rfl, ?_⟩, fun hserved hnone hstate => ⟨_, rfl, ?_⟩,
    fun t0 habsent => ⟨_, rfl, mgmtReturn_leaves habsent⟩, fun hlong hfirst => ⟨_, rfl, absenceGuard_leaves hlong hfirst⟩,
    fun k hk hserved hnone hopen hback => ⟨_, rfl, stateDiverge_leaves hk hserved hnone hopen hback⟩,
    fun k t0 b hone htime hserved => ?_⟩
  · have hupd : s.updState ≠ 5 := by
      rw [State.updState, State.nat_eq_num]
      omega
    rw [does_watchdogExpiry hserved hupd]
    exact absenceBegin_leaves 0 hnone
  · have hupd : s.updState = 5 := by
      rw [State.updState, State.nat_eq_num, hstate]
      rfl
    have hrest : Confined [Key.upd.ACTIVE_BANK] (fun u : Units => (u.mgmt.served, u.mgmt.absentAt, u.mgmt.cause))
        [.nat Key.upd.ACTIVE_BANK s.otherBank, .mgmt fun m => { m with rollDue := false, rotated := none }] := by
      simp only [confined_cons, Effect.within_nat, Effect.within_mgmt]
      exact ⟨by simp, fun _ => rfl, .nil⟩
    obtain ⟨x, hx⟩ : ∃ x, x = s.apply (.mgmt fun m => { m with rollDue := true }) := ⟨_, rfl⟩
    obtain ⟨hserved', hat, hcause, hmode, hstore⟩ := absenceBegin_leaves (s := x) 2 (by rw [hx]; exact hnone)
    have hunits := hrest.units (fun _ _ _ _ _ _ => rfl) (x.does (absenceBegin 2))
    simp only [Prod.mk.injEq] at hunits
    obtain ⟨hservedEnd, hatEnd, hcauseEnd⟩ := hunits
    have hframe := hrest.frame (x.does (absenceBegin 2))
    have htime : x.mtbNs = s.mtbNs := by rw [hx]; rfl
    have hsame : x.mode = s.mode ∧ x.store = s.store := by rw [hx]; exact ⟨rfl, rfl⟩
    rw [does_watchdogExpiry_probation hserved hupd, ← hx]
    exact ⟨hservedEnd.trans hserved', hatEnd.trans (htime ▸ hat), hcauseEnd.trans hcause, hframe.mode.trans (hmode.trans hsame.1),
      hframe.store.trans (hstore.trans hsame.2)⟩
  · obtain ⟨hstill, hover⟩ := divergeRecheck_leaves hone htime hserved
    exact ⟨⟨_, rfl, hstill⟩, _, rfl, hover⟩

end Sys2Proof.Machine
end

section
/-!
The sensors, the fans, the log and the lifetime store (R463, R464, R469, R471-R473).
-/

namespace Sys2Proof.Machine

variable {s : State}

/-! ### Bits that are set and cleared -/

section Bits
variable {α : Type} {ks : List Nat} {π : Units → α} {k m : Nat}

@[simp] theorem Effect.within_orBits : (Effect.orBits k m).Within ks π ↔ k ∈ ks := .rfl
@[simp] theorem Effect.within_andNot : (Effect.andNot k m).Within ks π ↔ k ∈ ks := .rfl

end Bits

/-! ### Sensors -/

/-- What the reading of one sensor writes (R464). -/
def sensorKeys (k : Nat) : List Nat := [Key.sens.T_DIE k, Key.sens.SENSOR_FAULTS, Key.evt.EVT_RAISED]

/-- A sensor shows its temperature, and may begin or end a fault (R464). -/
theorem sensorOne_eq (k : Nat) (t : Int) (s : State) : ∃ es, Confined [Key.sens.SENSOR_FAULTS, Key.evt.EVT_RAISED] (fun _ => ()) es ∧
    sensorOne k t s = .num (Key.sens.T_DIE k) t :: es := by
  refine ⟨_, ?_, rfl⟩
  split
  · split <;> simp
  · split
    · exact .nil
    · split
      · simp
      · split <;> simp

theorem sensorOne_within (k : Nat) (t : Int) : Phase.Within (sensorKeys k) (fun _ => ()) (sensorOne k t) := fun s => by
  obtain ⟨es, hes, heq⟩ := sensorOne_eq k t s
  rw [heq]
  exact confined_cons.2 ⟨by simp [sensorKeys], hes.mono (by simp [sensorKeys])⟩

theorem width_tDie : ∀ k < 12, Dict.width (Key.sens.T_DIE k) = some (32, true) := by decide +kernel

theorem tDie_apart : ∀ k < 12, Key.sens.T_DIE k ∉ [Key.sens.SENSOR_FAULTS, Key.evt.EVT_RAISED] ∧
    ∀ i < 12, i ≠ k → Key.sens.T_DIE k ∉ sensorKeys i := by decide +kernel

/-- Every die temperature shows as it was read (R464). -/
theorem num_tDie_sensors {k : Nat} (hk : k < 12) (l : Nat → Int) (hlo : -3604480 ≤ l k) (hhi : l k ≤ 11468800) (s : State) :
    (s.does (forAll (List.range 12) fun k => sensorOne k (l k))).num (Key.sens.T_DIE k) = l k := by
  obtain ⟨hown, hother⟩ := tDie_apart k hk
  obtain ⟨before, after, hlist, -, hafter, hdoes⟩ :=
    State.does_forAll_of_mem (List.mem_range.2 hk) (List.nodup_range (n := 12)) (fun k => sensorOne k (l k)) s
  have hrest : Phase.Within (after.flatMap sensorKeys) (fun _ => ()) (forAll after fun k => sensorOne k (l k)) :=
    Phase.within_forAll fun i hi => (sensorOne_within i (l i)).mono fun _ hj => List.mem_flatMap.2 ⟨i, hi, hj⟩
  have hnot : Key.sens.T_DIE k ∉ after.flatMap sensorKeys := fun hmem => by
    obtain ⟨i, hi, hki⟩ := List.mem_flatMap.1 hmem
    have hlt : i < 12 := List.mem_range.1 (by rw [hlist]; simp [hi])
    exact hother i hlt (fun h => hafter (h ▸ hi)) hki
  obtain ⟨es, hes, heq⟩ := sensorOne_eq k (l k) (s.does (forAll before fun k => sensorOne k (l k)))
  have hholds : holdsTest (Key.sens.T_DIE k) (l k) = true := by
    refine holdsTest_of_width (width_tDie k hk) ?_
    simp only [intOk, if_true, decide_eq_true_eq]
    omega
  rw [hdoes, (hrest.frame _).num hnot, State.does, heq]
  exact hes.num_holds hholds hown _

/-- Numbers written to entries of their own all stand. -/
theorem nat_run_writes {ι : Type} {key v : ι → Nat} {l : List ι} {w : Nat} (hnodup : (l.map key).Nodup)
    (hwidth : ∀ i ∈ l, Dict.width (key i) = some (w, false)) (hv : ∀ i ∈ l, v i < 2 ^ w) {i : ι} (hi : i ∈ l) (s : State) :
    (s.run (l.map fun i => .nat (key i) (v i))).nat (key i) = v i := by
  induction l generalizing s with
  | nil => exact absurd hi List.not_mem_nil
  | cons j l ih =>
    rw [List.map_cons] at hnodup
    obtain ⟨hfirst, hrest⟩ := List.nodup_cons.1 hnodup
    obtain ⟨hwidthJ, hwidthL⟩ := List.forall_mem_cons.1 hwidth
    obtain ⟨hvJ, hvL⟩ := List.forall_mem_cons.1 hv
    rw [List.map_cons, State.run_cons]
    rcases List.mem_cons.1 hi with rfl | hmem
    · have hall : Confined (l.map key) (fun _ => ()) (l.map fun i => Effect.nat (key i) (v i)) :=
        confined_map.2 fun j hj => List.mem_map_of_mem hj
      exact hall.nat_stands hwidthJ hfirst s hvJ
    · exact ih hrest hwidthL hvL hmem _

theorem supplies_apart : ((List.range 5).map fun i => Key.sens.VAUX_NOW + i).Nodup ∧
    (∀ i ∈ List.range 5, Dict.width (Key.sens.VAUX_NOW + i) = some (16, false)) ∧
    ∀ k < 12, Key.sens.T_DIE k ∉ (List.range 5).map fun i => Key.sens.VAUX_NOW + i := by decide +kernel

/-! ### What follows a reading -/

/-- What the cycles, the peak and the lifetime counters write (R464, R473). -/
def followKeys : List Nat := [Key.sens.T_DIE_PEAK, Key.life.LT_ON_MIN, Key.life.LT_RUN_MIN, Key.life.LT_TJ_HOT_MIN, Key.life.LT_TJ_MEAN,
  Key.evt.EVT_RAISED] ++ (List.range 4).map Key.life.LT_TCYCLES_PG

theorem minute_confined (ns : Nat) (on : Bool) {k : Nat} (hk : k ∈ followKeys) :
    Confined followKeys (fun _ => ()) (minute ns on k).2 := by
  rw [minute]
  generalize (if on then ns + 1000000 else ns) = n
  by_cases hn : 60000000000 ≤ n
  · rw [if_pos hn]
    exact confined_cons.2 ⟨hk, .nil⟩
  · rw [if_neg hn]
    exact .nil

theorem Phase.within_of_eq {α : Type} {ks : List Nat} {π : Units → α} {p q : Phase} (h : p = q) (hq : Phase.Within ks π q) :
    Phase.Within ks π p := h ▸ hq

/-- The lifetime counters of one reading (R473). -/
theorem lifetimeMs_within : Phase.Within followKeys (fun _ => ()) lifetimeMs := by
  have h := @minute_confined
  have hkeys : Key.life.LT_ON_MIN ∈ followKeys ∧ Key.life.LT_RUN_MIN ∈ followKeys ∧ Key.life.LT_TJ_HOT_MIN ∈ followKeys := by
    simp [followKeys]
  refine Phase.within_of_eq (p := lifetimeMs) (q := ?body) ?unfolds ?_
  case unfolds => delta lifetimeMs; exact rfl
  generalize minute = f at h ⊢
  as_aux_lemma =>
    intro s
    simp [h, hkeys]

/-- The phases that follow a reading. -/
def sensorFollows : List Phase :=
  [forAll (List.range 4) sensorPair, forAll (List.range 4) thermalCycle, diePeak, lifetimeMs, tjMean]

theorem sensorFollows_within : ∀ p ∈ sensorFollows, Phase.Within followKeys (fun _ => ()) p := by
  have hraised : Key.evt.EVT_RAISED ∈ followKeys := by simp [followKeys]
  simp only [sensorFollows, List.forall_mem_cons]
  refine ⟨Phase.within_forAll fun g _ s => ?_, Phase.within_forAll fun g hg s => ?_, fun s => ?_, fun s => ?_, fun s => ?_, by simp⟩
  · unfold sensorPair
    dsimp only
    split
    · split <;> simp
    · split
      · simp
      · split <;> simp [hraised]
  · have hkey : Key.life.LT_TCYCLES_PG g ∈ followKeys := List.mem_append_right _ (List.mem_map_of_mem hg)
    unfold thermalCycle
    dsimp only
    split_ifs <;> simp [hkey]
  · unfold diePeak
    dsimp only
    split <;> simp [followKeys]
  · exact lifetimeMs_within s
  · unfold tjMean
    dsimp only
    split
    · exact .nil
    · split <;> simp [followKeys]

theorem sensors_apart : (∀ k < 12, Key.sens.T_DIE k ∉ followKeys) ∧ ∀ i < 5, Key.sens.VAUX_NOW + i ∉ followKeys := by
  decide +kernel

/-- What a reading of the sensors leaves (R463, R464). -/
theorem sensorRead_leaves {l : List Int} {mv : List Nat} (hl : ∀ x ∈ l, -3604480 ≤ x ∧ x ≤ 11468800)
    (hmv : ∀ x ∈ mv, x < 65536) (s : State) :
    let t := s.does (sensorRead l mv)
    (∀ k < 12, t.num (Key.sens.T_DIE k) = l.getD k 0) ∧ (∀ i < 5, t.nat (Key.sens.VAUX_NOW + i) = mv.getD i 0) ∧
      t.mode = s.mode ∧ t.store = s.store := by
  obtain ⟨hnodup, hwidth, hsupplies⟩ := supplies_apart
  obtain ⟨hdies, hvolts⟩ := sensors_apart
  obtain ⟨a, ha⟩ : ∃ a, a = s.does (forAll (List.range 12) fun k => sensorOne k (l.getD k 0)) := ⟨_, rfl⟩
  obtain ⟨es, hes⟩ : ∃ es, es = (List.range 5).map fun i => Effect.nat (Key.sens.VAUX_NOW + i) (mv.getD i 0) := ⟨_, rfl⟩
  obtain ⟨b, hb⟩ : ∃ b, b = (a.run es).apply (.pins fun p => { p with
      vio33 := mv.getD 1 0 != 0, vio18 := mv.getD 2 0 != 0 }) := ⟨_, rfl⟩
  have hdoes : s.does (sensorRead l mv) = b.does (phases sensorFollows) := by
    rw [sensorRead, State.does_phases_cons, State.does_phases_cons, State.does_phases_cons, State.does_always, State.does_always,
      State.run_cons, State.run_nil, ← ha, ← hes, ← hb, sensorFollows]
  have hfollow := (Phase.within_phases sensorFollows_within).frame b
  have hreads : s.Frame ((List.range 12).flatMap sensorKeys) a := by
    rw [ha]
    exact (Phase.within_forAll fun i hi => (sensorOne_within i _).mono fun _ hj => List.mem_flatMap.2 ⟨i, hi, hj⟩).frame s
  have hwrites : a.Frame ((List.range 5).map fun i => Key.sens.VAUX_NOW + i) (a.run es) := by
    rw [hes]
    exact (confined_map (π := fun _ => ()).2 fun i hi => List.mem_map_of_mem hi).frame a
  have hpins : (a.run es).Frame [] b := by
    rw [hb]
    exact ⟨fun _ _ => rfl, rfl, rfl⟩
  rw [hdoes]
  refine ⟨fun k hk => ?_, fun i hi => ?_, hfollow.mode.trans (hpins.mode.trans (hwrites.mode.trans hreads.mode)),
    hfollow.store.trans (hpins.store.trans (hwrites.store.trans hreads.store))⟩
  · have hbounds : -3604480 ≤ l.getD k 0 ∧ l.getD k 0 ≤ 11468800 := by
      rw [List.getD_eq_getElem?_getD]
      cases hget : l[k]? with
      | none => decide
      | some x => exact hl x (List.mem_of_getElem? hget)
    obtain ⟨hlo, hhi⟩ := hbounds
    rw [hfollow.num (hdies k hk), hpins.num List.not_mem_nil, hwrites.num (hsupplies k hk), ha]
    exact num_tDie_sensors hk (fun k => l.getD k 0) hlo hhi s
  · have hbound (j : Nat) : mv.getD j 0 < 2 ^ 16 := by
      rw [List.getD_eq_getElem?_getD]
      cases hget : mv[j]? with
      | none => decide
      | some x => exact hmv x (List.mem_of_getElem? hget)
    rw [hfollow.nat (hvolts i hi), hpins.nat List.not_mem_nil, hes]
    exact nat_run_writes hnodup hwidth (fun j _ => hbound j) (List.mem_range.2 hi) a

/-! ### Fans -/

/-- What the bookkeeping of one fan writes beside its speed (R469). -/
def fanNotes : List Nat := [Key.fan.FAN_STALLED, Key.fan.FAN_STALLS, Key.evt.EVT_RAISED]

/-- The speed that a window shows (R469). -/
def State.fanSpeed (s : State) (g pulses : Nat) : Int :=
  rounded (Key.fan.FAN_RPM g) ((60 * pulses : Nat) / (max 1 (s.nat Key.fan.FAN_PULSES) : Nat) : Rat)

theorem fanOne_eq (g pulses : Nat) (s : State) : ∃ es,
    Confined fanNotes (fun _ => ()) es ∧ fanOne g pulses s = .num (Key.fan.FAN_RPM g) (s.fanSpeed g pulses) :: es := by
  refine ⟨_, ?_, rfl⟩
  refine confined_append.2 ⟨confined_append.2 ⟨by simp, ?_⟩, ?_⟩
  · split <;> simp [fanNotes]
  · split <;> simp [fanNotes]

theorem fanOne_within (g pulses : Nat) : Phase.Within (Key.fan.FAN_RPM g :: fanNotes) (fun _ => ()) (fanOne g pulses) := fun s => by
  obtain ⟨es, hes, heq⟩ := fanOne_eq g pulses s
  rw [heq]
  exact confined_cons.2 ⟨by simp, hes.mono (List.subset_cons_self ..)⟩

theorem rounded_div_bounds (k n d : Nat) : 0 ≤ rounded k ((n : Rat) / d) ∧ rounded k ((n : Rat) / d) ≤ n + 1 := by
  obtain ⟨hlo, hhi⟩ := floor_le_rounded k ((n : Rat) / d)
  obtain ⟨q, hq⟩ : ∃ q, q = n / d := ⟨_, rfl⟩
  have hfloor : ((n : Rat) / d).floor = (q : Int) := by
    rw [hq]
    exact (Rat.floor_natCast_div_natCast n d).trans (Int.natCast_div n d).symm
  have hle : q ≤ n := hq ▸ Nat.div_le_self n d
  omega

/-- At most 1000 pulses of a fan in a window of 1 s are a speed that FAN_RPM can hold. -/
theorem fanSpeed_bounds (s : State) (g : Nat) {pulses : Nat} (h : pulses ≤ 1000) :
    0 ≤ s.fanSpeed g pulses ∧ s.fanSpeed g pulses < 2 ^ 16 := by
  obtain ⟨hlo, hhi⟩ := rounded_div_bounds (Key.fan.FAN_RPM g) (60 * pulses) (max 1 (s.nat Key.fan.FAN_PULSES))
  rw [State.fanSpeed]
  omega

theorem fans_apart : ∀ g < 4, Dict.width (Key.fan.FAN_RPM g) = some (16, false) ∧ Key.fan.FAN_RPM g ∉ fanNotes ∧
    Key.fan.FAN_PULSES ∉ Key.fan.FAN_RPM g :: fanNotes ∧
    ∀ i < 4, i ≠ g → Key.fan.FAN_RPM g ∉ Key.fan.FAN_RPM i :: fanNotes := by
  decide +kernel

/-- The fans' windows in turn. -/
def fanTurns (l : List Nat) (m : List Nat) : Phase := forAll m fun g => fanOne g (l.getD g 0)

theorem fanTurns_within (l m : List Nat) :
    Phase.Within (m.flatMap fun g => Key.fan.FAN_RPM g :: fanNotes) (fun _ => ()) (fanTurns l m) :=
  Phase.within_forAll fun i hi => (fanOne_within i _).mono fun _ hj => List.mem_flatMap.2 ⟨i, hi, hj⟩

/-- Each fan's speed shows after the turns of all (R469). -/
theorem num_fanTurns {l : List Nat} (hl : ∀ x ∈ l, x ≤ 1000) {g : Nat} (hg : g < 4) (s : State) :
    (s.does (fanTurns l (List.range 4))).num (Key.fan.FAN_RPM g) = s.fanSpeed g (l.getD g 0) := by
  obtain ⟨hwidth, hown, -, hother⟩ := fans_apart g hg
  obtain ⟨before, after, hlist, -, hafter, hround⟩ :=
    State.does_forAll_of_mem (List.mem_range.2 hg) (List.nodup_range (n := 4)) (fun g => fanOne g (l.getD g 0)) s
  have hlt : ∀ i, i ∈ before ∨ i ∈ after → i < 4 := fun i hi => by
    refine List.mem_range.1 (hlist ▸ ?_)
    simp only [List.mem_append, List.mem_cons]
    tauto
  have hnot : Key.fan.FAN_RPM g ∉ after.flatMap fun g => Key.fan.FAN_RPM g :: fanNotes := fun hmem => by
    obtain ⟨i, hi, hki⟩ := List.mem_flatMap.1 hmem
    exact hother i (hlt i (.inr hi)) (fun h => hafter (h ▸ hi)) hki
  obtain ⟨x, hx⟩ : ∃ x, x = s.does (fanTurns l before) := ⟨_, rfl⟩
  have hpulses : x.fanSpeed g (l.getD g 0) = s.fanSpeed g (l.getD g 0) := by
    have hkeep : x.nat Key.fan.FAN_PULSES = s.nat Key.fan.FAN_PULSES := by
      rw [hx]
      refine ((fanTurns_within l before).frame s).nat fun hmem => ?_
      obtain ⟨i, hi, hki⟩ := List.mem_flatMap.1 hmem
      exact (fans_apart i (hlt i (.inl hi))).2.2.1 hki
    rw [State.fanSpeed, hkeep, State.fanSpeed]
  have hbound : l.getD g 0 ≤ 1000 := by
    rw [List.getD_eq_getElem?_getD]
    cases hget : l[g]? with
    | none => decide
    | some y => exact hl y (List.mem_of_getElem? hget)
  obtain ⟨es, hes, heq⟩ := fanOne_eq g (l.getD g 0) x
  obtain ⟨h0, h16⟩ := fanSpeed_bounds x g hbound
  rw [fanTurns, hround]
  refine (((fanTurns_within l after).frame _).num hnot).trans ?_
  refine Eq.trans (b := (x.run (.num (Key.fan.FAN_RPM g) (x.fanSpeed g (l.getD g 0)) :: es)).num (Key.fan.FAN_RPM g)) ?_ ?_
  · rw [← heq, hx]
    rfl
  · rw [State.run_cons, hes.num_stands hwidth hown x h0 h16, hpulses]

/-- What a window of the fans leaves (R469). -/
theorem fanWindow_leaves {l : List Nat} (hl : ∀ x ∈ l, x ≤ 1000) (s : State) :
    let t := s.does (fanWindow l)
    (∀ g < 4, t.num (Key.fan.FAN_RPM g) = s.fanSpeed g (l.getD g 0)) ∧ t.mode = s.mode ∧ t.store = s.store := by
  obtain ⟨y, hy⟩ : ∃ y, y = s.does (fanTurns l (List.range 4)) := ⟨_, rfl⟩
  have hdoes : s.does (fanWindow l) = y.apply (.mgmt fun m => { m with fanSlow := 0 }) := by
    rw [fanWindow, State.does_phases_cons, State.does_phases_cons, State.does_phases_nil, State.does_always, State.run_cons,
      State.run_nil, hy, fanTurns]
  have hall := (fanTurns_within l (List.range 4)).frame s
  rw [← hy] at hall
  rw [hdoes]
  refine ⟨fun g hg => ?_, hall.mode, hall.store⟩
  have hshown : y.num (Key.fan.FAN_RPM g) = s.fanSpeed g (l.getD g 0) := hy ▸ num_fanTurns hl hg s
  exact hshown

/-! ### The log -/

/-- The record that an event becomes (R471). -/
def EventRec.logged (e : EventRec) (seq : Nat) : LogRec :=
  { time := e.time, seq := seq, code := e.code, args := e.args.take 16, source := e.source % 32768 + if e.anchored then 0 else 32768 }

/-- The oldest record of the ring and the stored copies of its counts (R471, R472). -/
def logSaves (seq : Nat) : List Effect :=
  [.nat Key.log.LOG_OLDEST_SEQ (max 1 (seq - 32767)),
   .save Key.log.LOG_NEXT_SEQ (some (.num (seq + 1 : Nat))), .save Key.log.LOG_FLUSHED (some (.num seq)),
   .save Key.log.LOG_OLDEST_SEQ (some (.num (max 1 (seq - 32767) : Nat)))]

/-- The counts of the ring and their stored copies (R471, R472). -/
def logCounts (seq : Nat) : List Effect :=
  .nat Key.log.LOG_NEXT_SEQ (seq + 1) :: .nat Key.log.LOG_FLUSHED seq :: logSaves seq

/-- What is written of a record: its place in the ring, the counts and the UART line (R471, R472). -/
def logEffects (q : List EventRec) (r : LogRec) : List Effect :=
  .unit (fun u => { u with logQueue := q, log := Tbl.set (fun _ => none) u.log ((r.seq - 1) % 32768) (some r) }) ::
    (logCounts r.seq ++ [.pins fun p => { p with uart := if p.recovery then p.uart else r.line }])

/-- The effect writes an entry or the store, and no unit. -/
def Effect.Shows : Effect → Prop
  | .reg _ _ => True
  | .save _ _ => True
  | _ => False

theorem units_run_shows {es : List Effect} (h : ∀ e ∈ es, e.Shows) (s : State) : (s.run es).units = s.units := by
  induction es generalizing s with
  | nil => rfl
  | cons e es ih =>
    obtain ⟨he, hes⟩ := List.forall_mem_cons.1 h
    refine (ih hes _).trans ?_
    cases e with
    | reg k v => exact s.set_units k v
    | save => rfl
    | bump | orBits | andNot | mode | unit | raise => exact he.elim

theorem logCounts_shows (seq : Nat) : ∀ e ∈ logCounts seq, e.Shows := by
  simp only [logCounts, logSaves, List.forall_mem_cons]
  exact ⟨trivial, trivial, trivial, trivial, trivial, trivial, by simp⟩

theorem logWrite_eq {e : EventRec} {q : List EventRec} (hqueue : s.units.logQueue = e :: q) (hserved : s.units.mgmt.served = true)
    (hseq : 1 ≤ s.nat Key.log.LOG_NEXT_SEQ) : logWrite s = logEffects q (e.logged (s.nat Key.log.LOG_NEXT_SEQ)) := by
  have hmax : max 1 (s.nat Key.log.LOG_NEXT_SEQ) = s.nat Key.log.LOG_NEXT_SEQ := max_eq_right hseq
  rw [logWrite, hserved, hqueue, ← hmax]
  simp only [hmax]
  rfl

theorem logKeys_apart : Dict.width Key.log.LOG_NEXT_SEQ = some (32, false) ∧ Dict.width Key.log.LOG_FLUSHED = some (32, false) ∧
    Key.log.LOG_NEXT_SEQ ∉ [Key.log.LOG_FLUSHED, Key.log.LOG_OLDEST_SEQ] ∧ Key.log.LOG_FLUSHED ∉ [Key.log.LOG_OLDEST_SEQ] ∧
    ∀ k ∈ logKeys, k / 65536 = Key.log.LOG_FLUSHED / 65536 := by decide +kernel

/-- A record of the log is counted, stored and found at its place in the ring (R471, R472). -/
theorem logEffects_leaves {r : LogRec} (hr : r.seq < 2 ^ 32 - 1) (q : List EventRec) (s : State) :
    let t := s.run (logEffects q r)
    t.units.logQueue = q ∧ t.nat Key.log.LOG_NEXT_SEQ = r.seq + 1 ∧ t.nat Key.log.LOG_FLUSHED = r.seq ∧ t.mode = s.mode ∧
      Tbl.get (fun _ => none) t.units.log ((r.seq - 1) % 32768) = some r ∧
      Tbl.get (fun _ => none) t.store Key.log.LOG_FLUSHED = some (.num r.seq) ∧
      ∀ k, k / 65536 ≠ Key.log.LOG_FLUSHED / 65536 → t.get k = s.get k := by
  obtain ⟨hnextWidth, hflushedWidth, hnext, hflushed, hareas⟩ := logKeys_apart
  obtain ⟨x, hx⟩ : ∃ x, x = s.apply (.unit fun u => { u with
      logQueue := q, log := Tbl.set (fun _ => none) u.log ((r.seq - 1) % 32768) (some r) }) := ⟨_, rfl⟩
  obtain ⟨line, hline⟩ : ∃ f : Pins → Pins, f = fun p => { p with uart := if p.recovery then p.uart else r.line } := ⟨_, rfl⟩
  have hrun : s.run (logEffects q r) = (x.run (logCounts r.seq)).apply (.pins line) := by
    rw [logEffects, State.run_cons, State.run_append, State.run_cons, State.run_nil, hx, hline]
  have hunits := units_run_shows (logCounts_shows r.seq) x
  have hrest : Spared [Key.log.LOG_OLDEST_SEQ] (fun _ => True) (logSaves r.seq) := by
    simp only [logSaves, spared_cons, Effect.spares_nat, Effect.spares_save]
    exact ⟨by simp, trivial, trivial, trivial, .nil⟩
  have hcounts : Spared [Key.log.LOG_FLUSHED, Key.log.LOG_OLDEST_SEQ] (fun _ => True) (.nat Key.log.LOG_FLUSHED r.seq :: logSaves r.seq) :=
    spared_cons.2 ⟨by simp, hrest.mono (by simp)⟩
  have hall : Spared logKeys (fun _ => True) (logCounts r.seq) :=
    spared_cons.2 ⟨by simp [logKeys], hcounts.mono (by simp [logKeys])⟩
  obtain ⟨hget, hmode, -⟩ := hall.run x
  have holdest (v : Option Value) : ∀ e ∈ [Effect.save Key.log.LOG_OLDEST_SEQ v], e.SparesStored Key.log.LOG_FLUSHED := by
    have hne : Key.log.LOG_OLDEST_SEQ ≠ Key.log.LOG_FLUSHED := by decide
    simpa [Effect.SparesStored] using hne
  have hnow : (x.run (logCounts r.seq)).nat Key.log.LOG_NEXT_SEQ = r.seq + 1 := hcounts.nat_stands hnextWidth hnext x (by omega)
  have hsplit : x.run (logCounts r.seq) =
      (x.apply (.nat Key.log.LOG_NEXT_SEQ (r.seq + 1))).run (.nat Key.log.LOG_FLUSHED r.seq :: logSaves r.seq) := by
    rw [logCounts, State.run_cons]
  have hgone : (x.run (logCounts r.seq)).nat Key.log.LOG_FLUSHED = r.seq := by
    rw [hsplit]
    exact hrest.nat_stands hflushedWidth hflushed _ (by omega)
  have hstored : Tbl.get (fun _ => none) (x.run (logCounts r.seq)).store Key.log.LOG_FLUSHED = some (.num r.seq) := by
    rw [hsplit, State.run_cons, logSaves, State.run_cons, State.run_cons, State.run_cons]
    exact (State.stored_run (holdest _) _).trans ((State.stored_apply_save ..).trans (if_pos rfl))
  obtain ⟨y, hy⟩ : ∃ y, y = x.run (logCounts r.seq) := ⟨_, rfl⟩
  rw [← hy] at hunits hget hmode hnow hgone hstored hrun
  rw [hrun]
  refine ⟨?_, hnow, hgone, hmode.trans (by rw [hx]; rfl), ?_, hstored, fun k hk => ?_⟩
  · refine (congrArg Units.logQueue hunits).trans ?_
    rw [hx]
    rfl
  · have hlog : x.units.log = Tbl.set (fun _ => none) s.units.log ((r.seq - 1) % 32768) (some r) := by
      rw [hx]
      rfl
    have hkept : (y.apply (.pins line)).units.log = y.units.log := rfl
    rw [hkept, hunits, hlog, Tbl.get_set, if_pos rfl]
  · exact (hget k fun hmem => hk (hareas k hmem)).trans (by rw [hx]; rfl)

/-! ### The lifetime store -/

/-- The stored copies of the lifetime counters (R473). -/
def lifetimeSaves (s : State) : List Effect :=
  (List.range 0x1F).map fun i => .save (0x1220 * 256 + 1 + i) (some (s.get (0x1220 * 256 + 1 + i)))

theorem lifetimeSaves_spared (s : State) (P : Units → Prop) : Spared [] P (lifetimeSaves s) := fun e he => by
  obtain ⟨_, -, rfl⟩ := List.mem_map.1 he
  trivial

/-- Values saved under keys of their own are all found in the store. -/
theorem stored_run_saves {ι : Type} {key : ι → Nat} {v : ι → Value} {l : List ι} (hnodup : (l.map key).Nodup) {i : ι}
    (hi : i ∈ l) (s : State) :
    Tbl.get (fun _ => none) (s.run (l.map fun i => .save (key i) (some (v i)))).store (key i) = some (v i) := by
  induction l generalizing s with
  | nil => exact absurd hi List.not_mem_nil
  | cons j l ih =>
    rw [List.map_cons] at hnodup
    obtain ⟨hfirst, hrest⟩ := List.nodup_cons.1 hnodup
    rw [List.map_cons, State.run_cons]
    rcases List.mem_cons.1 hi with rfl | hmem
    · have hspares : ∀ e ∈ l.map fun j => Effect.save (key j) (some (v j)), e.SparesStored (key i) := fun e he => by
        obtain ⟨j, hj, rfl⟩ := List.mem_map.1 he
        exact fun h => hfirst (h ▸ List.mem_map_of_mem hj)
      exact (State.stored_run hspares _).trans ((State.stored_apply_save ..).trans (if_pos rfl))
    · exact ih hrest hmem _

/-- Every lifetime counter is stored, and no entry changes (R473). -/
theorem lifetimeSave_leaves (s : State) :
    let t := s.does lifetimeSave
    t.units.mgmt.lifeAt = s.mtbNs ∧ t.mode = s.mode ∧ (∀ k, t.get k = s.get k) ∧
      ∀ i < 31, Tbl.get (fun _ => none) t.store (0x122001 + i) = some (s.get (0x122001 + i)) := by
  obtain ⟨x, hx⟩ : ∃ x, x = s.apply (.mgmt fun m => { m with lifeAt := s.mtbNs }) := ⟨_, rfl⟩
  have hdoes : s.does lifetimeSave = x.run (lifetimeSaves s) := by rw [State.does, lifetimeSave, State.run_cons, hx, lifetimeSaves]
  obtain ⟨hget, hmode, hunits⟩ := (lifetimeSaves_spared s (fun u => u.mgmt.lifeAt = s.mtbNs)).run x
  rw [hdoes]
  refine ⟨hunits (fun _ _ _ _ _ _ => rfl) (by rw [hx]; rfl), hmode.trans (by rw [hx]; rfl),
    fun k => (hget k List.not_mem_nil).trans (by rw [hx]; rfl), fun i hi => ?_⟩
  have hkey : 0x122001 + i = 0x1220 * 256 + 1 + i := by omega
  have hnodup : ((List.range 0x1F).map fun i => 0x1220 * 256 + 1 + i).Nodup := List.nodup_range.map fun a b h => by simpa using h
  rw [hkey, lifetimeSaves]
  exact stored_run_saves (key := fun i => 0x1220 * 256 + 1 + i) (v := fun i => s.get (0x1220 * 256 + 1 + i)) hnodup (List.mem_range.2 hi) x

/-! ### The obligation -/

/-- Settles O60: a reading, a window, a record and a store are each a list of effects whose entries are apart. -/
theorem sensorsFansAndLog : Obligations.SensorsFansAndLog := by
  refine ⟨fun s l mv _ _ hl hmv => ⟨_, rfl, sensorRead_leaves hl hmv s⟩, fun s l hl => ⟨_, rfl, fanWindow_leaves hl s⟩,
    fun s e q n hqueue hserved hnext hlo hhi => ⟨_, rfl, ?_⟩, fun s hmode hdue => ⟨_, rfl, ?_⟩⟩
  · subst hnext
    obtain ⟨hleft, hnext, hflushed, hmode, hring, hstored, hother⟩ :=
      logEffects_leaves (r := e.logged (s.nat Key.log.LOG_NEXT_SEQ)) hhi q s
    rw [State.does, logWrite_eq hqueue hserved hlo]
    exact ⟨hleft, hnext, hflushed, hmode, ⟨_, hring, rfl, rfl, rfl⟩, hstored, hother⟩
  · have hphase : lifetimeStore s = lifetimeSave s := if_neg (by simpa [hmode] using hdue)
    rw [State.does, hphase]
    exact lifetimeSave_leaves s

end Sys2Proof.Machine
end

section
/-!
CAN FD (R385-R389): a frame joins the request being assembled or discards it, a segment is sent, and the controller follows the bus.
-/

namespace Sys2Proof.Machine

variable {s : State} {b : List Byte}

/-- The entries of the controller that the bus moves (Table 12-9). -/
theorem width_can : Dict.width Key.can.CAN_STATE = some (8, false) ∧ Dict.width Key.can.CAN_TEC = some (8, false) ∧
    Dict.width Key.can.CAN_REC = some (8, false) ∧ Dict.width Key.can.BUS_OFF_COUNT = some (32, false) ∧
    Dict.width Key.can.REASM_DISCARDS = some (32, false) ∧ Dict.width Key.can.CAN_TX_MSGS = some (32, false) := by decide +kernel

/-- A change of the controller's queues and a count of 1. -/
theorem run_can_bump {k : Nat} (hk : Dict.width k = some (32, false)) (f : Can → Can) (s : State) :
    let t := s.run [.can f, .bump k 1]
    t.units.can = f s.units.can ∧ t.num k = (s.num k + 1) % 2 ^ 32 ∧ s.Frame [k] t := by
  have hwithin : Confined [k] (fun _ => ()) [.can f, .bump k 1] := by simp
  exact ⟨congrArg Units.can ((s.apply (.can f)).set_units k _), State.num_bump _ hk, hwithin.frame s⟩

/-! ### Assembling a request -/

/-- A first segment begins an assembly (R388). -/
theorem canFrameReceive_of_first (hon : s.canOn = true) (hbus : s.num Key.can.CAN_STATE ≠ 3) (hnone : s.units.can.reasm = none) :
    canFrameReceive (0x400 + s.nat Key.can.CAN_NODE) true false (128 :: b) s =
      [.can fun x => { x with reasm := some b, nextSeg := 1, reasmAt := s.mtbNs }] := by
  have hbits : Nat.testBit 128 7 = true ∧ Nat.testBit 128 6 = false := by decide
  simp [canFrameReceive, reasmAdd, phases, always, hon, hbus, hnone, hbits]

/-- A segment that is not the next discards the assembly (R388). -/
theorem canFrameReceive_of_gap {a : List Byte} (hon : s.canOn = true) (hbus : s.num Key.can.CAN_STATE ≠ 3)
    (hsome : s.units.can.reasm = some a) (hnext : s.units.can.nextSeg = 1) :
    canFrameReceive (0x400 + s.nat Key.can.CAN_NODE) true false (2 :: b) s = reasmDrop := by
  have hbit : Nat.testBit 2 7 = false := by decide
  simp [canFrameReceive, hon, hbus, hsome, hnext, hbit]

/-- A discarded assembly is counted (R388). -/
theorem run_reasmDrop (s : State) :
    let t := s.run reasmDrop
    t.units.can.reasm = none ∧ t.num Key.can.REASM_DISCARDS = (s.num Key.can.REASM_DISCARDS + 1) % 2 ^ 32 ∧
      s.Frame [Key.can.REASM_DISCARDS] t := by
  obtain ⟨-, -, -, -, hwidth, -⟩ := width_can
  obtain ⟨hcan, hcount, hframe⟩ := run_can_bump hwidth (fun x => { x with reasm := none, nextSeg := 0 }) s
  exact ⟨congrArg Can.reasm hcan, hcount, hframe⟩

/-! ### Sending a segment -/

/-- A message of at most 63 octets goes in one segment, filled to a length that a frame may have (R385, R387). -/
theorem canFrameSend_of_short {id : Nat} {q : List (Nat × Nat × List Byte)} (hon : s.canOn = true) (hbus : s.num Key.can.CAN_STATE ≠ 3)
    (hq : s.units.can.txq = (id, 0, b) :: q) (hlen : b.length ≤ 63) : ∃ pad : List Byte, canFrameSend s =
      [.can fun x => { x with sent := ⟨id, s.canBrs, s.canTdc, 192 :: b ++ pad⟩ :: x.sent, txq := q },
        .bump Key.can.CAN_TX_MSGS 1] := by
  have hleft : b.drop 63 = [] := List.drop_eq_nil_of_le hlen
  have hhead : le 1 (128 + 64 + 0 : Nat) = [192] := by decide
  refine ⟨List.replicate (canLen (192 :: b).length - (192 :: b).length) 0, ?_⟩
  simp only [canFrameSend, hon, hbus, hq, hleft, List.take_of_length_le hlen, List.isEmpty_nil, if_true, Bool.not_true,
    Bool.false_eq_true, or_self, if_false, Nat.zero_mod, hhead, List.cons_append, List.nil_append]

/-! ### The bus state -/

/-- The state that the bus gives the controller stands (R389). -/
theorem nat_canState_canSet {new : Nat} (hnew : new < 256) (s : State) : (s.does (canSet new)).nat Key.can.CAN_STATE = new := by
  obtain ⟨hwidth, -⟩ := width_can
  by_cases h : s.nat Key.can.CAN_STATE = new
  · have hnone : canSet new s = [] := if_pos h
    rw [State.does, hnone, State.run_nil, h]
  · have hset : canSet new s =
        [.nat Key.can.CAN_STATE new, .event Ev.CAN_STATE_CHANGED (args16 [s.nat Key.can.CAN_STATE, new])] := if_neg h
    have hevent : Confined [Key.evt.EVT_RAISED] (fun _ => ())
        [.event Ev.CAN_STATE_CHANGED (args16 [s.nat Key.can.CAN_STATE, new])] := by simp
    rw [State.does, hset, State.run_cons]
    exact ((hevent.frame _).nat (by decide)).trans (s.nat_reg_of_lt hwidth hnew)

theorem canSet_within {α : Type} (π : Units → α) (new : Nat) : Phase.Within [Key.can.CAN_STATE, Key.evt.EVT_RAISED] π (canSet new) :=
  fun s => confined_ite.2 ⟨fun _ => .nil, fun _ => by simp⟩

/-- Bus-off empties the queue and is counted (R389). -/
def busOff (new : Nat) (s : State) : Phase :=
  if new = 3 ∧ s.num Key.can.CAN_STATE ≠ 3 then always [.bump Key.can.BUS_OFF_COUNT 1, .can fun x => { x with txq := [] }]
  else always []

/-- The counts are shown, bus-off counted, and the state taken (R389). -/
theorem does_canStateChange {new tec rcv : Nat} (hon : s.canOn = true) (hmoves : canMoves (s.nat Key.can.CAN_STATE) new tec rcv = true) :
    s.does (canStateChange new tec rcv) =
      ((s.run [.nat Key.can.CAN_TEC (min tec 255), .nat Key.can.CAN_REC (min rcv 255)]).does (busOff new s)).does (canSet new) := by
  have hmove : canStateChange new tec rcv s = phases [
      always [.nat Key.can.CAN_TEC (min tec 255), .nat Key.can.CAN_REC (min rcv 255)], busOff new s, canSet new] s := by
    simp [canStateChange, hon, hmoves, busOff]
  rw [State.does, hmove]
  refine (State.does_phases_cons ..).trans ?_
  rw [State.does_phases_cons, State.does_phases_cons, State.does_phases_nil, State.does_always]

theorem canStateOf_lt (tec rcv : Nat) : canStateOf tec rcv < 256 := by
  unfold canStateOf
  split_ifs <;> decide

/-- The controller shows what the bus gives it (R389). -/
theorem canStateChange_leaves {new tec rcv : Nat} (hon : s.canOn = true)
    (hmoves : canMoves (s.nat Key.can.CAN_STATE) new tec rcv = true) :
    let t := s.does (canStateChange new tec rcv)
    t.nat Key.can.CAN_STATE = new ∧ t.nat Key.can.CAN_TEC = min tec 255 ∧ t.nat Key.can.CAN_REC = min rcv 255 ∧
      (new = 3 → s.num Key.can.CAN_STATE ≠ 3 → t.units.can.txq = [] ∧
        t.num Key.can.BUS_OFF_COUNT = (s.num Key.can.BUS_OFF_COUNT + 1) % 2 ^ 32) ∧ t.mode = s.mode ∧ t.store = s.store := by
  obtain ⟨-, htecWidth, hrecWidth, hcountWidth, -, -⟩ := width_can
  have hnew : new < 256 := by
    have hof : new = canStateOf tec rcv := by simp_all [canMoves]
    exact hof ▸ canStateOf_lt tec rcv
  obtain ⟨x, hx⟩ : ∃ x, x = s.run [.nat Key.can.CAN_TEC (min tec 255), .nat Key.can.CAN_REC (min rcv 255)] := ⟨_, rfl⟩
  have hshown : Confined [Key.can.CAN_TEC, Key.can.CAN_REC] (fun _ => ())
      [.nat Key.can.CAN_TEC (min tec 255), .nat Key.can.CAN_REC (min rcv 255)] := by simp
  have hrec : Confined [Key.can.CAN_REC] (fun _ => ()) [.nat Key.can.CAN_REC (min rcv 255)] := by simp
  have hoff : Phase.Within [Key.can.BUS_OFF_COUNT] (fun _ => ()) (busOff new s) := by
    unfold busOff
    split <;> simp
  have hset := canSet_within (fun _ => ()) new
  have hxFrame : s.Frame [Key.can.CAN_TEC, Key.can.CAN_REC] x := hx ▸ hshown.frame s
  have hxTec : x.nat Key.can.CAN_TEC = min tec 255 := by
    rw [hx, State.run_cons]
    exact ((hrec.frame _).nat (by decide)).trans (s.nat_reg_of_lt htecWidth (by omega))
  have hxRec : x.nat Key.can.CAN_REC = min rcv 255 := by
    rw [hx, State.run_cons, State.run_cons, State.run_nil]
    exact State.nat_reg_of_lt hrecWidth _ (by omega)
  rw [does_canStateChange hon hmoves, ← hx]
  have hlast := hset.frame (x.does (busOff new s))
  have hmid := hoff.frame x
  refine ⟨nat_canState_canSet hnew _, ?_, ?_, fun h3 hbus => ?_, ?_, ?_⟩
  · exact (hlast.nat (by decide)).trans ((hmid.nat (by decide)).trans hxTec)
  · exact (hlast.nat (by decide)).trans ((hmid.nat (by decide)).trans hxRec)
  · have hfalls : busOff new s = always [.bump Key.can.BUS_OFF_COUNT 1, .can fun x => { x with txq := [] }] := if_pos ⟨h3, hbus⟩
    refine ⟨?_, ?_⟩
    · refine (congrArg Can.txq ((canSet_within (fun u => u.can) new).units (fun _ _ _ _ _ _ => rfl) _)).trans ?_
      rw [hfalls]
      rfl
    · refine (hlast.num (by decide)).trans ?_
      rw [hfalls, State.does_always, State.run_cons]
      exact (State.num_bump _ hcountWidth).trans (by rw [hxFrame.num (by decide)])
  · exact hlast.mode.trans (hmid.mode.trans hxFrame.mode)
  · exact hlast.store.trans (hmid.store.trans hxFrame.store)

/-! ### O52 -/

/-- Settles O52: each command of the controller is its one effect, with its count. -/
theorem canCarriesSegments : Obligations.CanCarriesSegments := by
  unfold Obligations.CanCarriesSegments
  intro s
  obtain ⟨-, -, -, -, -, hsentWidth⟩ := width_can
  refine ⟨fun hon hbus => ⟨fun b hnone => ?_, fun b a hsome hnext => ?_, fun id b q hq hlen => ?_⟩, fun a hsome hexpired => ?_,
    fun new tec rcv hon hmoves => ⟨_, rfl, canStateChange_leaves hon hmoves⟩, fun hoff => ⟨?_, fun new tec rcv => ?_⟩⟩
  · have hbegun : Confined [] (fun _ => ()) (canFrameReceive (0x400 + s.nat Key.can.CAN_NODE) true false (128 :: b) s) := by
      rw [canFrameReceive_of_first hon hbus hnone]
      simp
    have hcan : (s.does (canFrameReceive (0x400 + s.nat Key.can.CAN_NODE) true false (128 :: b))).units.can =
        { s.units.can with reasm := some b, nextSeg := 1, reasmAt := s.mtbNs } := by
      rw [State.does, canFrameReceive_of_first hon hbus hnone]
      rfl
    exact ⟨_, rfl, congrArg Can.reasm hcan, congrArg Can.nextSeg hcan, congrArg Can.reasmAt hcan, hbegun.frame s⟩
  · have hdrop : s.does (canFrameReceive (0x400 + s.nat Key.can.CAN_NODE) true false (2 :: b)) = s.run reasmDrop :=
      congrArg s.run (canFrameReceive_of_gap hon hbus hsome hnext)
    exact ⟨_, rfl, hdrop ▸ run_reasmDrop s⟩
  · obtain ⟨pad, hsend⟩ := canFrameSend_of_short hon hbus hq hlen
    obtain ⟨hcan, hcount, hframe⟩ := run_can_bump hsentWidth
      (fun x => { x with sent := ⟨id, s.canBrs, s.canTdc, 192 :: b ++ pad⟩ :: x.sent, txq := q }) s
    rw [← hsend] at hcan hcount hframe
    refine ⟨s.does canFrameSend, rfl, ?_⟩
    beta_reduce
    rw [State.does, hcan]
    exact ⟨rfl, rfl, by simp, hcount, hframe⟩
  · have hdrop : s.does canReasmTimeout = s.run reasmDrop := by
      have hdue : canReasmTimeout s = reasmDrop := if_pos ⟨by rw [hsome]; rfl, hexpired⟩
      rw [State.does, hdue]
    exact ⟨_, rfl, hdrop ▸ run_reasmDrop s⟩
  · have hnone : canFrameSend s = [] := by simp [canFrameSend, hoff]
    exact congrArg (fun es => Host.Outcome.next (s.run es)) hnone
  · have hnone : canStateChange new tec rcv s = [] := by simp [canStateChange, hoff]
    exact congrArg (fun es => Host.Outcome.next (s.run es)) hnone

end Sys2Proof.Machine
end

section
/-!
The MACs: what a queued message, an address and a change of a MAC leave (R372, R381, R382).
-/

namespace Sys2Proof.Machine

variable {s : State} {m : Nat}

/-! ### The state of a MAC -/

theorem State.mac_apply_self (s : State) (m : Nat) (f : Mac → Mac) : (s.apply (.mac m f)).mac m = f (s.mac m) :=
  (s.mac_apply_mac m m f).trans (if_pos rfl)

/-- A change of a MAC touches no entry. -/
theorem mac_frame (s : State) (m : Nat) (f : Mac → Mac) : s.Frame [] (s.apply (.mac m f)) := ⟨fun _ _ => rfl, rfl, rfl⟩

/-- Effects that leave the MACs. -/
theorem Confined.mac {ks : List Nat} {es : List Effect} (h : Confined ks (fun u => u.macs) es) (s : State) (m : Nat) :
    (s.run es).mac m = s.mac m :=
  congrArg (fun t => Tbl.at ({} : Mac) t m) (h.units (fun _ _ _ _ _ _ => rfl) s)

/-! ### Messages that need no resolution -/

/-- A frame that is queued waits behind those that wait (R372). -/
theorem mac_queueFrame (s : State) (m : Nat) (f : Frame) :
    (s.apply (queueFrame m f)).mac m = { s.mac m with waiting := (s.mac m).waiting ++ [f] } := s.mac_apply_self m _

/-- A group or the broadcast address is no station to resolve (Table 12-7). -/
theorem nextHop_of_group {dest : Nat} (h : isMulticast dest = true ∨ dest = 0xFFFFFFFF) (s : State) (m : Nat) : s.nextHop m dest = 0 :=
  if_pos h

/-- A datagram waits, and the station that it is sent to is asked for where it is not known (R381). -/
theorem does_sendIp (s : State) (m : Nat) (f : Frame) :
    s.does (sendIp m f) = (s.apply (queueFrame m { f with hop := s.nextHop m f.dest })).does (arpAsk m (s.nextHop m f.dest)) := by
  have hsteps : s.does (sendIp m f) = s.run (sendIp m f s) := rfl
  rw [hsteps, sendIp]
  refine (State.does_phases_cons s _ _).trans ?_
  rw [State.does_phases_cons, State.does_phases_nil, State.does_always, State.run_cons, State.run_nil]

/-- A message to a group or to all is queued, and nothing else (R381). -/
theorem does_ipMessage_of_group {dest : Nat} (h : isMulticast dest = true ∨ dest = 0xFFFFFFFF) (kind : Nat) (body : List Byte) (s : State)
    (m : Nat) : ∃ f : Frame, s.does (ipMessage m kind dest body) = s.apply (queueFrame m f) ∧ f.kind = kind ∧ f.dest = dest ∧
      f.body = body := by
  have hhop := nextHop_of_group h s m
  have hask (t : State) : t.does (arpAsk m 0) = t := by simp [State.does, arpAsk]
  refine ⟨{ kind := kind, prio := 2, len := udpLen body.length, dest := dest, queuedAt := s.mtbNs, body := body, hop := 0 },
    (does_sendIp s m _).trans ?_, rfl, rfl, rfl⟩
  rw [hhop, hask]

/-- An ARP packet is queued (RFC 826). -/
theorem does_arpSend (s : State) (m op dest target : Nat) :
    ∃ f : Frame, s.does (arpSend m op dest target) = s.apply (queueFrame m f) ∧ f.kind = 3 ∧ f.dest = dest :=
  ⟨{ kind := 3, prio := 2, dest := dest, queuedAt := s.mtbNs, body := le 1 op ++ be 4 (s.nat (Key.ip.ADDR_NOW_N m)) ++ be 4 target },
    rfl, rfl, rfl⟩

/-- Asking for a station adds frames behind those that wait (R381). -/
theorem waiting_arpAsk (s : State) (m hop : Nat) : ∃ l, ((s.does (arpAsk m hop)).mac m).waiting = (s.mac m).waiting ++ l := by
  by_cases h : hop = 0 ∨ (s.mac m).arp.any (fun a => a.1 == hop) ∨ (s.mac m).asked.any (fun a => a.1 == hop)
  · have hnone : arpAsk m hop s = [] := if_pos h
    exact ⟨[], by rw [State.does, hnone, State.run_nil, List.append_nil]⟩
  · have hask : arpAsk m hop s = phases [arpSend m 1 0xFFFFFFFF hop,
        always [.mac m fun x => { x with asked := x.asked ++ [(hop, s.mtbNs)] }]] s := if_neg h
    obtain ⟨f, hsend, -⟩ := does_arpSend s m 1 0xFFFFFFFF hop
    refine ⟨[f], ?_⟩
    rw [State.does, hask]
    refine (congrArg (fun t : State => (t.mac m).waiting) (State.does_phases_cons ..)).trans ?_
    simp only [State.does_phases_cons, State.does_phases_nil, State.does_always, State.run_cons, State.run_nil, hsend,
      State.mac_apply_self, mac_queueFrame]

end Sys2Proof.Machine
end

section
/-!
The MACs receive and send (R366, R369, R371, R372, R374, R375).
-/

namespace Sys2Proof.Machine

variable {s : State} {b : List Byte}

/-- The entries of the links and their counters. -/
theorem width_mac : (∀ m < 2, Dict.width (Key.mac.LINK_STATE m) = some (8, false)) ∧
    (∀ m < 2, Dict.width (Key.mac.LINK_CHANGES m) = some (32, false)) ∧
    (∀ m < 2, Dict.width (Key.mac.LINK_SINCE m) = some (64, false)) ∧
    (∀ m < 2, Dict.width (Key.net.RX_FCS_ERR m) = some (32, false)) ∧
    (∀ m < 2, Dict.width (Key.net.RX_FRAMES m) = some (32, false)) ∧
    ∀ k < 8, Dict.width (Key.mon.MON_DROPS k) = some (32, false) := by decide +kernel

/-! ### Links -/

/-- With nothing in its FIFO a MAC has nothing to drain. -/
theorem does_txDrain_of_empty {m : Nat} (h : (s.mac m).fifo = []) : s.does (txDrain m) = s := by simp [State.does, txDrain, h]

/-- What a new link state shows and does at its MAC (R366, Table 12-1). -/
def linkTaken (s : State) (m v : Nat) : List Effect :=
  [.nat (Key.mac.LINK_STATE m) v, .bump (Key.mac.LINK_CHANGES m) 1, .nat (Key.mac.LINK_SINCE m) s.now,
    .event Ev.LINK_CHANGED (args16 [m, v]),
    .mac m fun x => if v = 1 then { x.rewire s.mtbNs with upAt := some s.mtbNs } else { x with upAt := none }]

/-- A link that comes up under DHCP asks for a lease (R382). -/
def linkAsks (m v : Nat) : Phase := fun s =>
  if v = 1 ∧ s.num (Key.ip.IP_MODE_N m) = 1 ∧ s.units.mgmt.served then dhcpSend m 1 s else []

/-- The link of an enabled MAC takes the state of Table 12-1. -/
theorem does_linkChange {m v : Nat} (hen : s.flag (Key.mac.MAC_EN m) = true) (hne : s.nat (Key.mac.LINK_STATE m) ≠ v) (hv : v < 3)
    (hempty : (s.mac m).fifo = []) :
    s.does (linkChange m (if v = 0 then 0 else 1000) (v == 1)) = (s.run (linkTaken s m v)).does (linkAsks m v) := by
  have hstate : (if !s.flag (Key.mac.MAC_EN m) || (if v = 0 then 0 else 1000) == 0 then 0
      else if (if v = 0 then 0 else 1000) == 1000 && (v == 1) then 1 else 2) = v := by
    obtain rfl | rfl | rfl : v = 0 ∨ v = 1 ∨ v = 2 := by omega
    · simp
    · simp [hen]
    · simp [hen]
  have hset : linkChange m (if v = 0 then 0 else 1000) (v == 1) s = linkSet m v s := congrArg (linkSet m · s) hstate
  have hphases : linkSet m v s = phases [txDrain m, always (linkTaken s m v), linkAsks m v] s := if_neg hne
  rw [State.does, hset, hphases]
  refine (State.does_phases_cons ..).trans ?_
  rw [State.does_phases_cons, State.does_phases_cons, State.does_phases_nil, State.does_always,
    does_txDrain_of_empty hempty]

theorem linkAsks_frame (m v : Nat) (s : State) : s.Frame [] (s.does (linkAsks m v)) := by
  by_cases h : v = 1 ∧ s.num (Key.ip.IP_MODE_N m) = 1 ∧ s.units.mgmt.served
  · obtain ⟨f, hsend, -⟩ := does_ipMessage_of_group (.inr rfl) 6 (le 1 1) s m
    have hasks : s.does (linkAsks m v) = s.apply (queueFrame m f) := (congrArg s.run (if_pos h)).trans hsend
    exact hasks ▸ mac_frame s m _
  · have hnone : s.does (linkAsks m v) = s := congrArg s.run (if_neg h)
    rw [hnone]
    exact .refl s _

/-- The new state is shown, counted and dated (Table 12-1). -/
theorem linkTaken_leaves {m v : Nat} (hm : m < 2) (hv : v < 3) (s : State) :
    let t := s.run (linkTaken s m v)
    t.nat (Key.mac.LINK_STATE m) = v ∧ t.num (Key.mac.LINK_CHANGES m) = (s.num (Key.mac.LINK_CHANGES m) + 1) % 2 ^ 32 ∧
      t.nat (Key.mac.LINK_SINCE m) = s.now ∧
      s.Frame [Key.mac.LINK_STATE m, Key.mac.LINK_CHANGES m, Key.mac.LINK_SINCE m, Key.evt.EVT_RAISED] t := by
  obtain ⟨hstate, hchanges, hsince, -⟩ := width_mac
  have hapart : Key.mac.LINK_STATE m ≠ Key.mac.LINK_CHANGES m ∧ Key.mac.LINK_STATE m ≠ Key.mac.LINK_SINCE m ∧
      Key.mac.LINK_CHANGES m ≠ Key.mac.LINK_SINCE m ∧ Key.mac.LINK_STATE m ≠ Key.evt.EVT_RAISED ∧
      Key.mac.LINK_CHANGES m ≠ Key.evt.EVT_RAISED ∧ Key.mac.LINK_SINCE m ≠ Key.evt.EVT_RAISED := by
    simp only [Key.mac.LINK_STATE, Key.mac.LINK_CHANGES, Key.mac.LINK_SINCE, Key.evt.EVT_RAISED]
    omega
  obtain ⟨hsc, hss, hcs, hse, hce, hte⟩ := hapart
  obtain ⟨last, hlast⟩ : ∃ l, l = [Effect.event Ev.LINK_CHANGED (args16 [m, v]),
    .mac m fun x => if v = 1 then { x.rewire s.mtbNs with upAt := some s.mtbNs } else { x with upAt := none }] := ⟨_, rfl⟩
  have hevent : Confined [Key.evt.EVT_RAISED] (fun _ => ()) last := by simp [hlast]
  have hdated : Confined [Key.mac.LINK_SINCE m, Key.evt.EVT_RAISED] (fun _ => ()) (.nat (Key.mac.LINK_SINCE m) s.now :: last) :=
    confined_cons.2 ⟨by simp, hevent.mono (by simp)⟩
  have hcounted : Confined [Key.mac.LINK_CHANGES m, Key.mac.LINK_SINCE m, Key.evt.EVT_RAISED] (fun _ => ())
      (.bump (Key.mac.LINK_CHANGES m) 1 :: .nat (Key.mac.LINK_SINCE m) s.now :: last) :=
    confined_cons.2 ⟨by simp, hdated.mono (by simp)⟩
  have hall : linkTaken s m v = .nat (Key.mac.LINK_STATE m) v :: .bump (Key.mac.LINK_CHANGES m) 1 ::
      .nat (Key.mac.LINK_SINCE m) s.now :: last := by rw [hlast, linkTaken]
  have htaken : Confined [Key.mac.LINK_STATE m, Key.mac.LINK_CHANGES m, Key.mac.LINK_SINCE m, Key.evt.EVT_RAISED] (fun _ => ())
      (linkTaken s m v) := hall ▸ confined_cons.2 ⟨by simp, hcounted.mono (by simp)⟩
  refine ⟨?_, ?_, ?_, htaken.frame s⟩
  · rw [hall, State.run_cons]
    exact hcounted.nat_stands (hstate m hm) (by simp [hsc, hss, hse]) s (by omega)
  · rw [hall, State.run_cons, State.run_cons]
    refine ((hdated.frame _).num (by simp [hcs, hce])).trans ((State.num_bump _ (hchanges m hm)).trans ?_)
    have hfirst : s.Frame [Key.mac.LINK_STATE m] (s.apply (.nat (Key.mac.LINK_STATE m) v)) :=
      Effect.Within.frame (π := fun _ => ()) (by simp) s
    rw [hfirst.num (by simp [hsc.symm])]
  · rw [hall, State.run_cons, State.run_cons, State.run_cons]
    exact hevent.nat_stands (hsince m hm) (by simp [hte]) _ s.now_lt

/-! ### Received frames -/

/-- A count of 1 in a counter of 32 bits. -/
theorem apply_bump_leaves {k : Nat} (hk : Dict.width k = some (32, false)) (s : State) :
    (s.apply (.bump k 1)).num k = (s.num k + 1) % 2 ^ 32 ∧ (s.apply (.bump k 1)).units = s.units ∧ s.Frame [k] (s.apply (.bump k 1)) :=
  ⟨State.num_bump s hk, s.set_units k _, Effect.Within.frame (π := fun _ => ()) (by simp) s⟩

/-- A frame for this MAC or for all, sound and untagged, is counted and routed (R369, R376). -/
theorem frameReceive_of_sound {m : Nat} (hup : s.linkUp m = true) (hmin : 60 ≤ b.length) (hmax : b.length ≤ 2044)
    (hkind : (rxInfo b).etherType ≠ 0x8808) (htags : (rxInfo b).vids = [])
    (hdest : (rxInfo b).dest = 0xFFFFFFFFFFFF ∨ (rxInfo b).dest = s.nat (Key.mac.MAC_ADDR m)) :
    frameReceive m b true s = .bump (Key.net.RX_FRAMES m) 1 :: frameRoute m (rxInfo b) false b s := by
  have hlong : ¬b.length + 4 < 64 := by omega
  have hshort : ¬2048 < b.length + 4 := by omega
  have hfilter : frameFilter m (rxInfo b) false b s = frameRoute m (rxInfo b) false b s := if_pos hdest.symm
  have hsvc : (([] : List Nat) == [s.nat Key.svc.SVC_VID]) = false := rfl
  rw [frameReceive]
  simp only [hup, Bool.not_true, Bool.false_eq_true, if_false, hlong, hshort, hkind, htags, hsvc, Bool.and_false, List.length_nil,
    ne_eq, not_true_eq_false, false_and, and_false, or_false, hfilter, Nat.not_lt_zero]

/-- Of a frame without a PTP message the MAC reads none (R383). -/
theorem ptpSeen_of_not_ptp {x : RxInfo} (h : x.ptp = false) (c : Prop) [Decidable c] (m : Nat) (s : State) :
    (if c then ptpSeen m x else always []) s = [] := by
  split
  · simp [ptpSeen, h]
  · rfl

/-- A packet of a subscription is handed to the stream engine with the instant of its check (R82, R97). -/
theorem frameRoute_of_sub {m i : Nat} {x : RxInfo} (hwhole : x.fragment = false) (hsub : s.subFor m x = some i)
    (hmode : s.mode.places = true) (hptp : x.ptp = false) :
    frameRoute m x false b s = [.mac m fun y => { y with engine := y.engine ++ [(i, s.mtbNs, x.payload)] }] := by
  rw [frameRoute, hwhole]
  simp only [Bool.false_eq_true, if_false, phases, ptpSeen_of_not_ptp hptp, State.run_nil, List.nil_append, List.append_nil, hsub, hmode,
    if_true]

/-- A frame takes the units of the ring that it needs (R377, log 52). -/
theorem ringStore_of_room {m need : Nat} {x : RxInfo} (hneed : need = max 1 ((b.length + 511) / 512)) (hptp : x.ptp = false)
    (hudp : x.udp = false) (hbetween : s.atBoundary = false) (hroom : 16 + need ≤ (s.mac m).free) :
    ringStore m x false b s = [.mac m fun y => { y with free := y.free - need, ring := y.ring ++ [(need, false, b)], cdl := y.cdl }] := by
  have hsome : (s.mac m).free - 16 ≠ 0 := by omega
  have hfits : ¬(s.mac m).free - 16 < need := by omega
  have hcdl : s.isCdl x = false := by simp [State.isCdl, hudp]
  have hplain : ¬x.ptp = true := by simp [hptp]
  rw [ringStore]
  simp only [phases, hbetween, Bool.false_and, Bool.false_eq_true, if_false, State.run_nil, List.nil_append, List.append_nil, ← hneed]
  rw [if_neg hplain, if_neg hsome, if_neg hfits, hcdl]
  simp only [Bool.false_eq_true, if_false]

/-- A frame of another receiver is stored in the ring while the processor serves (R376, R377). -/
theorem frameRoute_of_ring {m : Nat} {x : RxInfo} (hwhole : x.fragment = false) (hsub : s.subFor m x = none)
    (hserved : s.units.mgmt.served = true) (hudp : x.udp = false) (hptp : x.ptp = false) :
    frameRoute m x false b s = ringStore m x false b s := by
  have hsound : s.units.mgmt.served = true ∧ ((!x.udp) = true ∨ x.sumOk = true) := ⟨hserved, .inl (by simp [hudp])⟩
  rw [frameRoute, hwhole]
  simp only [Bool.false_eq_true, if_false, phases, ptpSeen_of_not_ptp hptp, State.run_nil, List.nil_append, List.append_nil, hsub]
  exact if_pos hsound

/-- A frame that is counted, and then handed on at its MAC. -/
theorem received_leaves {m : Nat} (hm : m < 2) {f : Mac → Mac} (h : frameReceive m b true s = [.bump (Key.net.RX_FRAMES m) 1, .mac m f]) :
    let t := s.does (frameReceive m b true)
    t.mac m = f (s.mac m) ∧ t.num (Key.net.RX_FRAMES m) = (s.num (Key.net.RX_FRAMES m) + 1) % 2 ^ 32 ∧
      s.Frame [Key.net.RX_FRAMES m] t := by
  obtain ⟨-, -, -, -, hwidth, -⟩ := width_mac
  obtain ⟨hcount, -, hframe⟩ := apply_bump_leaves (hwidth m hm) s
  rw [State.does, h, State.run_cons, State.run_cons, State.run_nil]
  refine ⟨?_, hcount, hframe.trans ((mac_frame _ m f).mono (List.nil_subset _))⟩
  rw [State.mac_apply_self, State.mac_apply_bump]

/-! ### The transmit FIFO -/

/-- The frame whose turn it is enters an empty FIFO (R371, R372). -/
theorem does_txFifoEnter {m : Nat} {f : Frame} (hup : s.linkUp m = true) (hempty : (s.mac m).fifo = []) (hturn : (s.mac m).turn = some f)
    (hfits : f.len ≤ 2048) : ∃ (x : Frame) (free : Nat), x.kind = f.kind ∧ x.body = f.body ∧ s.mtbNs + 8 * f.len ≤ x.doneAt ∧
      s.does (txFifoEnter m) =
        s.apply (.mac m fun y => { y with waiting := y.waiting.erase f, wireFree := free, fifo := y.fifo ++ [x] }) := by
  obtain ⟨len, hlen⟩ : ∃ n, n = f.len + if s.txTag.isSome then 4 else 0 := ⟨_, rfl⟩
  have hleast : f.len ≤ len := by omega
  have hmost : len ≤ f.len + 4 := by
    rw [hlen]
    split <;> omega
  obtain ⟨done, hdone⟩ : ∃ n, n = max s.mtbNs (s.mac m).wireFree + 8 * len := ⟨_, rfl⟩
  refine ⟨{ f with len := len, tagged := s.txTag.isSome, vlan := s.txTag, doneAt := done }, done, rfl, rfl,
    show s.mtbNs + 8 * f.len ≤ done by omega, ?_⟩
  have hroom : ¬16384 < 0 + len := by omega
  refine (State.does_phases_cons s _ _).trans ?_
  rw [does_txDrain_of_empty hempty, State.does_phases_cons, State.does_phases_nil, State.does]
  simp only [hturn, hup, hempty, ← hlen, ← hdone, hroom, List.foldl_nil, Bool.not_true, Bool.false_eq_true, or_self, if_false,
    State.run_cons, State.run_nil]

/-! ### Monitor packets -/

/-- A packet that has waited a block period is discarded and counted (R375). -/
theorem monitorDrop_of_old {k : Nat} {f : Frame} (hwaiting : (s.mac 0).waiting = [f]) (hnone : (s.mac 1).waiting = [])
    (hkind : f.kind = 2) (hunit : f.unit = k) (hold : s.expired f.queuedAt s.blockNs = true) : ∃ keep : Frame → Bool, keep f = false ∧
      monitorDrop k s = [.mac 0 fun x => { x with waiting := x.waiting.filter keep },
        .mac 1 fun x => { x with waiting := x.waiting.filter keep },
        .bump (Key.mon.MON_DROPS k) 1, .eventOnce Ev.MONITOR_DROPPED k (args16 [k])] := by
  have hdrop : (f.kind == 2 && f.unit == k && s.expired f.queuedAt s.blockNs) = true := by simp [hkind, hunit, hold]
  refine ⟨fun f => !(f.kind == 2 && f.unit == k && s.expired f.queuedAt s.blockNs), by simp [hdrop], ?_⟩
  simp [monitorDrop, hwaiting, hnone, hdrop]

/-! ### O50 -/

/-- Settles O50: each command of a MAC is one change of it with its count, or nothing. -/
theorem macsReceiveAndSend : Obligations.MacsReceiveAndSend := by
  unfold Obligations.MacsReceiveAndSend
  obtain ⟨-, -, -, hfcs, -, hdrops⟩ := width_mac
  refine ⟨fun s m v hen hne hv hempty => ⟨_, rfl, ?_⟩, fun s m b hup => ⟨s.does (frameReceive m b false), rfl, ?_⟩,
    fun s m b hup hmin hmax hkind htags hdest hwhole => ⟨fun i hsub hmode hptp => ?_, fun hsub hserved hudp hptp hbetween hroom => ?_⟩,
    fun s m b ok hdown => ?_, fun s m f hup hempty hturn hfits => ?_, fun s k f hwaiting hnone hkind hunit hold => ?_⟩
  · beta_reduce
    obtain ⟨hstate, hchanges, hsince, hframe⟩ := linkTaken_leaves m.isLt hv s
    have hasks := linkAsks_frame m v (s.run (linkTaken s m v))
    rw [does_linkChange hen hne hv hempty]
    exact ⟨(hasks.nat List.not_mem_nil).trans hstate, (hasks.num List.not_mem_nil).trans hchanges,
      (hasks.nat List.not_mem_nil).trans hsince, hframe.trans (hasks.mono (List.nil_subset _))⟩
  · have hfault : frameReceive m b false s = [.bump (Key.net.RX_FCS_ERR m) 1] := by simp [frameReceive, hup]
    rw [State.does, hfault]
    exact apply_bump_leaves (hfcs m m.isLt) s
  · have hhanded := frameReceive_of_sound hup hmin hmax hkind htags hdest
    rw [frameRoute_of_sub hwhole hsub hmode hptp] at hhanded
    obtain ⟨hmac, hcount, hframe⟩ := received_leaves m.isLt hhanded
    refine ⟨s.does (frameReceive m b true), rfl, ?_⟩
    beta_reduce
    rw [hmac]
    exact ⟨rfl, rfl, hcount, hframe⟩
  · have hstored := frameReceive_of_sound hup hmin hmax hkind htags hdest
    rw [frameRoute_of_ring hwhole hsub hserved hudp hptp, ringStore_of_room rfl hptp hudp hbetween hroom] at hstored
    obtain ⟨hmac, hcount, hframe⟩ := received_leaves m.isLt hstored
    refine ⟨s.does (frameReceive m b true), rfl, ?_⟩
    beta_reduce
    rw [hmac]
    exact ⟨rfl, rfl, hcount, hframe⟩
  · have hnothing : frameReceive m b ok s = [] := by simp [frameReceive, hdown]
    exact congrArg (fun es => Host.Outcome.next (s.run es)) hnothing
  · obtain ⟨x, free, hkind, hbody, hdone, hdoes⟩ := does_txFifoEnter hup hempty hturn hfits
    refine ⟨s.does (txFifoEnter m), rfl, ?_⟩
    beta_reduce
    rw [hdoes, State.mac_apply_self, hempty]
    exact ⟨rfl, ⟨x, rfl, hkind, hbody, hdone⟩, mac_frame s m _⟩
  · obtain ⟨keep, hgone, hdrop⟩ := monitorDrop_of_old hwaiting hnone hkind hunit hold
    have hevent : Confined [Key.evt.EVT_RAISED] (fun u => u.macs) [.eventOnce Ev.MONITOR_DROPPED k (args16 [k])] := by simp
    obtain ⟨x, hx⟩ : ∃ x, x = (s.apply (.mac 0 fun x => { x with waiting := x.waiting.filter keep })).apply
      (.mac 1 fun x => { x with waiting := x.waiting.filter keep }) := ⟨_, rfl⟩
    obtain ⟨hcount, hunits, hframe⟩ := apply_bump_leaves (hdrops k k.isLt) x
    have hshown : Key.mon.MON_DROPS k ≠ Key.evt.EVT_RAISED := by
      simp only [Key.mon.MON_DROPS, Key.evt.EVT_RAISED]
      omega
    have hlast := hevent.frame (x.apply (.bump (Key.mon.MON_DROPS k) 1))
    have hxFrame : s.Frame [] x := hx ▸ (mac_frame s 0 _).trans (mac_frame _ 1 _)
    refine ⟨s.does (monitorDrop k), rfl, ?_⟩
    beta_reduce
    rw [State.does, hdrop, State.run_cons, State.run_cons, ← hx, State.run_cons, hevent.mac, State.mac_apply_bump]
    refine ⟨?_, ?_, ?_⟩
    · rw [hx, State.mac_apply_mac, if_neg (by decide), State.mac_apply_self, hwaiting]
      simp [hgone]
    · exact (hlast.num (by simpa using hshown)).trans (hcount.trans (by rw [hxFrame.num List.not_mem_nil]))
    · exact (hxFrame.mono (List.nil_subset _)).trans ((hframe.mono (by simp)).trans (hlast.mono (by simp)))

end Sys2Proof.Machine
end

section
/-!
Addresses and groups of a MAC (R380-R382): ARP, ICMP, IGMP, DHCP and the link-local addresses.
-/

namespace Sys2Proof.Machine

variable {s : State} {m : Nat}

/-- The entries of the addresses and of the multicast versions. -/
theorem width_ip : (∀ m < 2, Dict.width (Key.ip.ADDR_NOW_N m) = some (32, false)) ∧
    (∀ m < 2, Dict.width (Key.ip.ADDR_SOURCE_N m) = some (8, false)) ∧ Dict.width Key.ip.ADDR_CONFLICTS = some (32, false) ∧
    ∀ m < 2, Dict.width (if m = 0 then Key.mc.IGMP_MODE_N0 else Key.mc.IGMP_MODE_N1) = some (8, false) := by decide +kernel

/-! ### ARP and ICMP -/

theorem queueFrame_frame (s : State) (m : Nat) (f : Frame) : s.Frame [] (s.apply (queueFrame m f)) := mac_frame s m _

/-- What a MAC keeps of a station that it has heard (R381). -/
def arpLearn (sip smac now : Nat) (x : Mac) : Mac :=
  { x with arp := ((sip, smac, now) :: x.arp.filter fun a => a.1 != sip).take 64, asked := x.asked.filter fun a => a.1 != sip }

/-- A request for the address in force is answered, and its sender kept (R381). -/
theorem does_arpPacket_of_request {sip smac : Nat} (hserved : s.units.mgmt.served = true) (hup : s.linkUp m = true) (hsip : sip ≠ 0)
    (hother : sip ≠ s.nat (Key.ip.ADDR_NOW_N m)) (hmine : s.nat (Key.ip.ADDR_NOW_N m) ≠ 0) :
    s.does (arpPacket m 1 sip smac (s.nat (Key.ip.ADDR_NOW_N m))) =
      (s.apply (.mac m (arpLearn sip smac s.mtbNs))).does (arpSend m 2 sip sip) := by
  have hphases : arpPacket m 1 sip smac (s.nat (Key.ip.ADDR_NOW_N m)) s =
      phases [always [.mac m (arpLearn sip smac s.mtbNs)], arpSend m 2 sip sip] s := by
    unfold arpLearn
    simp [arpPacket, hserved, hup, hsip, hother, hmine, -List.take_succ_cons]
  rw [State.does, hphases]
  refine (State.does_phases_cons ..).trans ?_
  rw [State.does_phases_cons, State.does_phases_nil, State.does_always, State.run_cons, State.run_nil]

/-- Stations that were heard 300 s ago are forgotten (Table 12-6). -/
theorem arpCacheExpiry_leaves (m : Nat) (s : State) :
    let t := s.does (arpCacheExpiry m)
    (t.mac m).arp = (s.mac m).arp.filter (fun a => decide (s.mtbNs < a.2.2 + 300000000000)) ∧ s.Frame [] t := by
  by_cases h : ((s.mac m).arp.any fun a => decide (a.2.2 + 300000000000 ≤ s.mtbNs)) = true
  · have hold : arpCacheExpiry m s =
        [.mac m fun x => { x with arp := x.arp.filter fun a => decide (s.mtbNs < a.2.2 + 300000000000) }] := if_pos h
    dsimp only
    rw [State.does, hold, State.run_cons, State.run_nil, State.mac_apply_self]
    exact ⟨rfl, mac_frame s m _⟩
  · have hnone : arpCacheExpiry m s = [] := if_neg h
    rw [State.does, hnone, State.run_nil]
    refine ⟨(List.filter_eq_self.2 fun a ha => ?_).symm, .refl s _⟩
    have hyoung := mt List.any_eq_true.2 h
    push Not at hyoung
    simpa using hyoung a ha

/-- A message is queued, and its station asked for where it is not known (R381). -/
theorem does_ipMessage (s : State) (m kind dest : Nat) (body : List Byte) :
    ∃ f : Frame, f.kind = kind ∧ f.dest = dest ∧ f.body = body ∧
    s.does (ipMessage m kind dest body) = (s.apply (queueFrame m f)).does (arpAsk m (s.nextHop m dest)) :=
  ⟨{ kind := kind, prio := 2, len := udpLen body.length, dest := dest, queuedAt := s.mtbNs, body := body, hop := s.nextHop m dest },
    rfl, rfl, rfl, does_sendIp s m _⟩

/-- An echo request is answered (Table 12-6). -/
theorem icmpEcho_leaves (hserved : s.units.mgmt.served = true) (hup : s.linkUp m = true) (hmine : s.nat (Key.ip.ADDR_NOW_N m) ≠ 0)
    (hquiet : (s.mac m).icmp = []) (src : Nat) (b : List Byte) :
    let t := s.does (icmpEcho m src b)
    (∃ f, (t.mac m).waiting.take ((s.mac m).waiting.length + 1) = (s.mac m).waiting ++ [f] ∧ f.kind = 4 ∧ f.dest = src ∧
      f.body = b) ∧ s.Frame [] t := by
  have hset : s.num (Key.ip.ADDR_NOW_N m) ≠ 0 := fun h => hmine (by rw [State.nat_eq_num, h]; rfl)
  have hphases : icmpEcho m src b s = phases [ipMessage m 4 src b, always [.mac m fun x => { x with icmp := [s.mtbNs] }]] s := by
    simp [icmpEcho, hserved, hup, hset, hquiet]
  obtain ⟨f, hkind, hdest, hbody, hsend⟩ := does_ipMessage s m 4 src b
  obtain ⟨l, hl⟩ := waiting_arpAsk (s.apply (queueFrame m f)) m (s.nextHop m src)
  have hask := (arpAsk_within (π := fun _ => ()) ⟨fun _ _ _ => rfl, fun _ _ => rfl⟩ m (s.nextHop m src)).frame
    (s.apply (queueFrame m f))
  have hdoes : s.does (icmpEcho m src b) = ((s.apply (queueFrame m f)).does (arpAsk m (s.nextHop m src))).apply
      (.mac m fun x => { x with icmp := [s.mtbNs] }) := by
    rw [State.does, hphases]
    refine (State.does_phases_cons ..).trans ?_
    rw [State.does_phases_cons, State.does_phases_nil, State.does_always, State.run_cons, State.run_nil, hsend]
  dsimp only
  rw [hdoes, State.mac_apply_self, hl, mac_queueFrame]
  refine ⟨⟨f, ?_, hkind, hdest, hbody⟩, (mac_frame s m _).trans (hask.trans (mac_frame _ m _))⟩
  exact List.take_left' (by simp)

/-! ### IGMP -/

/-- The key of the IGMP version of a MAC (Table 12-5). -/
def igmpKey (m : Nat) : Nat := if m = 0 then Key.mc.IGMP_MODE_N0 else Key.mc.IGMP_MODE_N1

/-- With no older querier heard the version is 3 (RFC 3376, 7.2.1). -/
theorem igmpVersion_leaves (hm : m < 2) (h1 : (s.mac m).querier1 = none) (h2 : (s.mac m).querier2 = none) :
    let t := s.does (igmpVersion m)
    t.igmpMode m = 3 ∧ (t.mac m).groups = (s.mac m).groups ∧ (t.mac m).memb = (s.mac m).memb ∧
      (t.mac m).waiting = (s.mac m).waiting ∧ s.Frame [igmpKey m] t := by
  obtain ⟨-, -, -, hwidth⟩ := width_ip
  obtain ⟨es, hes, hcases⟩ : ∃ es, s.does (igmpVersion m) = (s.apply (.nat (igmpKey m) 3)).run es ∧
      (es = [] ∨ es = [.mac m fun x => { x with reports := [] }]) := by
    refine ⟨if 3 = s.igmpMode m then [] else [.mac m fun x => { x with reports := [] }], ?_, ?_⟩
    · rw [State.does, igmpVersion]
      simp only [h1, h2, Option.any_none, Bool.false_eq_true, if_false, State.run_cons, igmpKey]
    · split
      · exact .inl rfl
      · exact .inr rfl
  have hconf : Confined [] (fun _ => ()) es := by
    obtain rfl | rfl := hcases
    · exact .nil
    · simp
  have hmac : (s.apply (.nat (igmpKey m) 3)).mac m = s.mac m := congrArg (fun u : Units => Tbl.at ({} : Mac) u.macs m) (s.set_units _ _)
  have hleft : ((s.does (igmpVersion m)).mac m).groups = (s.mac m).groups ∧ ((s.does (igmpVersion m)).mac m).memb = (s.mac m).memb ∧
      ((s.does (igmpVersion m)).mac m).waiting = (s.mac m).waiting := by
    rw [hes]
    obtain rfl | rfl := hcases
    · rw [State.run_nil, hmac]
      exact ⟨rfl, rfl, rfl⟩
    · rw [State.run_cons, State.run_nil, State.mac_apply_self, hmac]
      exact ⟨rfl, rfl, rfl⟩
  obtain ⟨hgroups, hmemb, hwaiting⟩ := hleft
  refine ⟨?_, hgroups, hmemb, hwaiting, ?_⟩
  · exact (congrArg (fun t : State => t.nat (igmpKey m)) hes).trans (hconf.nat_stands (hwidth m hm) List.not_mem_nil s (by decide))
  · rw [hes]
    exact (Effect.Within.frame (π := fun _ => ()) (by simp) s).trans ((hconf.frame _).mono (List.nil_subset _))

/-- A report of records is one message to all that listen to reports (RFC 3376). -/
theorem does_igmpV3 {records : List Byte} (h : records ≠ []) (s : State) (m : Nat) : ∃ f : Frame,
    s.does (igmpV3 m records) = s.apply (queueFrame m f) ∧ f.kind = 5 ∧ f.dest = 0xE0000016 ∧ f.body = le 1 0x22 ++ records := by
  have hsome : igmpV3 m records = ipMessage m 5 0xE0000016 (le 1 0x22 ++ records) := if_neg (by simpa using h)
  rw [hsome]
  exact does_ipMessage_of_group (.inl (by decide)) ..

/-- A record is never empty. -/
theorem igmpRecord_ne_nil (type g : Nat) (src : List Nat) : igmpRecord type g src ≠ [] := by
  simp [igmpRecord, le]

/-- The answer to a query of version 3 for every group (R380). -/
theorem igmpQuery_leaves (hm : m < 2) (hserved : s.units.mgmt.served = true) (hup : s.linkUp m = true) (hgroups : (s.mac m).groups ≠ [])
    (h1 : (s.mac m).querier1 = none) (h2 : (s.mac m).querier2 = none) :
    let t := s.does (igmpQuery m 3 0)
    (∃ f, (t.mac m).waiting = (s.mac m).waiting ++ [f] ∧ f.kind = 5 ∧ f.dest = 0xE0000016 ∧
      f.body = le 1 0x22 ++ (s.mac m).groups.flatMap (stateRecord (s.mac m).memb)) ∧ t.nat (igmpKey m) = 3 ∧ s.Frame [igmpKey m] t := by
  obtain ⟨answer, hanswer⟩ : ∃ p : Phase, p = fun s => igmpAnswer m ((s.mac m).groups.filter fun g => (0 : Nat) == 0 || g == 0) s :=
    ⟨_, rfl⟩
  have hphases : igmpQuery m 3 0 s = phases [always [], igmpVersion m, answer] s := by
    simp [igmpQuery, hserved, hup, hanswer]
  obtain ⟨x, hx⟩ : ∃ x, x = s.does (igmpVersion m) := ⟨_, rfl⟩
  obtain ⟨hversion, hgroupsStay, hmemb, hwaiting, hframe⟩ := hx ▸ igmpVersion_leaves hm h1 h2
  have hdoes : s.does (igmpQuery m 3 0) = x.does answer := by
    rw [State.does, hphases]
    refine (State.does_phases_cons ..).trans ?_
    rw [State.does_phases_cons, State.does_phases_cons, State.does_phases_nil, State.does_always, State.run_nil, hx]
  have hrecords : (s.mac m).groups.flatMap (stateRecord (s.mac m).memb) ≠ [] := by
    obtain ⟨g, gs, hg⟩ := List.exists_cons_of_ne_nil hgroups
    have hrecord : stateRecord (s.mac m).memb g ≠ [] := by
      unfold stateRecord
      dsimp only
      split <;> exact igmpRecord_ne_nil _ _ _
    simp [hg, hrecord]
  have hreport : x.does answer = x.does (igmpV3 m ((s.mac m).groups.flatMap (stateRecord (s.mac m).memb))) := by
    refine congrArg x.run ?_
    rw [hanswer]
    dsimp only
    rw [igmpAnswer, if_pos hversion, hgroupsStay, hmemb]
    simp
  obtain ⟨f, hsend, hkind, hdest, hbody⟩ := does_igmpV3 hrecords x m
  dsimp only
  rw [hdoes, hreport, hsend, mac_queueFrame, hwaiting]
  exact ⟨⟨f, rfl, hkind, hdest, hbody⟩, hversion, hframe.trans ((mac_frame x m _).mono (List.nil_subset _))⟩

/-- A change of one source of a group is one record (RFC 3376). -/
theorem changeRecords_of_one (g a : Nat) :
    changeRecords [(g, a)] g [a] = igmpRecord (if a = 0 then 4 else 5) g (if a = 0 then [] else [a]) := by
  by_cases ha : a = 0
  · simp [changeRecords, sourcesOf, ha]
  · simp [changeRecords, sourcesOf, ha, Ne.symm ha]

/-- The second report of a join (R380). -/
theorem igmpReportRepeat_leaves {x : Nat × Nat} {at' : Nat} (hserved : s.units.mgmt.served = true)
    (hreports : (s.mac m).reports = [(x, at')]) (hdue : at' ≤ s.mtbNs) (hmemb : (s.mac m).memb = [x]) (hversion : s.igmpMode m = 3) :
    let t := s.does (igmpReportRepeat m)
    (t.mac m).reports = [] ∧ (∃ f, (t.mac m).waiting = (s.mac m).waiting ++ [f] ∧ f.kind = 5 ∧ f.dest = 0xE0000016 ∧
      f.body = le 1 0x22 ++ igmpRecord (if x.2 = 0 then 4 else 5) x.1 (if x.2 = 0 then [] else [x.2])) ∧ s.Frame [] t := by
  obtain ⟨g, a⟩ := x
  have hnot : ¬s.mtbNs < at' := by omega
  have hphases : igmpReportRepeat m s = phases [igmpChanges m [(g, a)],
      always [.mac m fun x => { x with reports := x.reports.filter fun r => decide (s.mtbNs < r.2) }]] s := by
    simp [igmpReportRepeat, hreports, hdue, hserved]
  have hreport : s.does (igmpChanges m [(g, a)]) =
      s.does (igmpV3 m (igmpRecord (if a = 0 then 4 else 5) g (if a = 0 then [] else [a]))) := by
    refine congrArg s.run ?_
    rw [igmpChanges]
    have hone : ([(g, a)].map fun x => x.1).eraseDups = [g] := rfl
    have hsources : sourcesOf [(g, a)] g = [a] := by simp [sourcesOf]
    simp only [hversion, if_true, hone, hsources, hmemb, List.flatMap_cons, List.flatMap_nil, List.append_nil, changeRecords_of_one]
  obtain ⟨f, hsend, hkind, hdest, hbody⟩ := does_igmpV3 (igmpRecord_ne_nil (if a = 0 then 4 else 5) g (if a = 0 then [] else [a])) s m
  have hdoes : s.does (igmpReportRepeat m) = (s.apply (queueFrame m f)).apply
      (.mac m fun x => { x with reports := x.reports.filter fun r => decide (s.mtbNs < r.2) }) := by
    rw [State.does, hphases]
    refine (State.does_phases_cons ..).trans ?_
    rw [State.does_phases_cons, State.does_phases_nil, State.does_always, State.run_cons, State.run_nil, hreport, hsend]
  dsimp only
  rw [hdoes, State.mac_apply_self, mac_queueFrame, hreports]
  exact ⟨by simp [hnot], ⟨f, rfl, hkind, hdest, hbody⟩, (mac_frame s m _).trans (mac_frame _ m _)⟩

/-! ### DHCP -/

/-- A request for a lease is one message to all (RFC 2131). -/
theorem does_dhcpSend (s : State) (m type : Nat) : ∃ f : Frame, s.does (dhcpSend m type) = s.apply (queueFrame m f) ∧ f.kind = 6 := by
  obtain ⟨f, hsend, hkind, -⟩ := does_ipMessage_of_group (.inr rfl) 6 (le 1 type) s m
  exact ⟨f, hsend, hkind⟩

/-- A lease that is given waits for the boundary (R382). -/
theorem dhcpMessage_of_ack (hserved : s.units.mgmt.served = true) (hup : s.linkUp m = true) (hmode : s.num (Key.ip.IP_MODE_N m) = 1)
    (addr p lease : Nat) : dhcpMessage m 5 addr p lease s =
      [.mac m fun x => { x with lease := some (addr, p), leaseT := some (s.mtbNs, lease, false) }] := by
  simp [dhcpMessage, hserved, hup, hmode]

/-- The lease is asked for again (R382). -/
theorem dhcpRetry_leaves {at' : Nat} (hserved : s.units.mgmt.served = true) (hretry : (s.mac m).retryAt = some at')
    (hdue : at' ≤ s.mtbNs) :
    let t := s.does (dhcpRetry m)
    (t.mac m).retryAt = some (at' + 60000000000) ∧ (∃ f, (t.mac m).waiting = (s.mac m).waiting ++ [f] ∧ f.kind = 6) ∧
      s.Frame [] t := by
  have hnot : ¬(s.mtbNs < at' ∨ (!s.units.mgmt.served) = true) := by simp [hserved, hdue]
  have hphases : dhcpRetry m s = phases [dhcpSend m 1, always [.mac m fun x => { x with retryAt := some (at' + 60000000000) }]] s := by
    rw [dhcpRetry, hretry]
    exact if_neg hnot
  obtain ⟨f, hsend, hkind⟩ := does_dhcpSend s m 1
  have hdoes : s.does (dhcpRetry m) = (s.apply (queueFrame m f)).apply
      (.mac m fun x => { x with retryAt := some (at' + 60000000000) }) := by
    rw [State.does, hphases]
    refine (State.does_phases_cons ..).trans ?_
    rw [State.does_phases_cons, State.does_phases_nil, State.does_always, State.run_cons, State.run_nil, hsend]
  dsimp only
  rw [hdoes, State.mac_apply_self, mac_queueFrame]
  exact ⟨rfl, ⟨f, rfl, hkind⟩, (mac_frame s m _).trans (mac_frame _ m _)⟩

/-! ### Link-local addresses -/

/-- The entries that a change of the address writes (R382). -/
def addrKeys (m : Nat) : List Nat := [Key.ip.ADDR_NOW_N m, Key.ip.PREFIX_NOW_N m, Key.ip.ADDR_SOURCE_N m, Key.evt.EVT_RAISED]

/-- The entries are apart. -/
theorem addrKeys_apart (hm : m < 2) :
    Key.ip.ADDR_NOW_N m ∉ [Key.ip.PREFIX_NOW_N m, Key.ip.ADDR_SOURCE_N m, Key.evt.EVT_RAISED] ∧
    Key.ip.ADDR_SOURCE_N m ≠ Key.evt.EVT_RAISED ∧ Key.ip.ADDR_CONFLICTS ∉ addrKeys m ∧
    Key.ip.ADDR_NOW_N m ≠ Key.ip.ADDR_CONFLICTS ∧ Key.ip.ADDR_SOURCE_N m ≠ Key.ip.ADDR_CONFLICTS := by
  simp only [addrKeys, List.mem_cons, List.not_mem_nil, or_false, Key.ip.ADDR_NOW_N, Key.ip.PREFIX_NOW_N, Key.ip.ADDR_SOURCE_N,
    Key.ip.ADDR_CONFLICTS, Key.evt.EVT_RAISED]
  omega

/-- What the change of an address shows, and notes at its MAC (R382, RFC 5227). -/
def addrShown (m addr prefixLen source now : Nat) : List Effect :=
  [.nat (Key.ip.ADDR_NOW_N m) addr, .nat (Key.ip.PREFIX_NOW_N m) prefixLen, .nat (Key.ip.ADDR_SOURCE_N m) source,
    .event Ev.ADDRESS_CHANGED (le 2 m ++ le 4 addr ++ le 2 source), .mac m fun x => { x with
      defended := none, announceAt := if addr = 0 then none else some (now + 2000000000) }]

/-- A new address is shown, and announced (R382). -/
theorem does_setAddr {addr : Nat} (hnew : addr ≠ s.nat (Key.ip.ADDR_NOW_N m)) (hset : addr ≠ 0) (prefixLen source : Nat) :
    ∃ f, s.does (setAddr m addr prefixLen source) = (s.run (addrShown m addr prefixLen source s.mtbNs)).apply (queueFrame m f) := by
  have hphases : setAddr m addr prefixLen source s =
      phases [always (addrShown m addr prefixLen source s.mtbNs), if addr = 0 then always [] else arpSend m 1 0xFFFFFFFF addr] s :=
    if_neg fun h => hnew h.1.symm
  obtain ⟨f, hsend, -⟩ := does_arpSend (s.run (addrShown m addr prefixLen source s.mtbNs)) m 1 0xFFFFFFFF addr
  refine ⟨f, ?_⟩
  rw [State.does, hphases]
  refine (State.does_phases_cons ..).trans ?_
  rw [State.does_phases_cons, State.does_phases_nil, State.does_always, if_neg hset, hsend]

theorem addrShown_leaves {addr prefixLen source : Nat} (hm : m < 2) (haddr : addr < 2 ^ 32) (hsource : source < 256) (now : Nat)
    (s : State) :
    let t := s.run (addrShown m addr prefixLen source now)
    t.nat (Key.ip.ADDR_NOW_N m) = addr ∧ t.num (Key.ip.ADDR_SOURCE_N m) = source ∧ s.Frame (addrKeys m) t := by
  obtain ⟨haddrWidth, hsourceWidth, -⟩ := width_ip
  obtain ⟨haddrApart, hsourceApart, -⟩ := addrKeys_apart hm
  obtain ⟨last, hlast⟩ : ∃ l, l = [Effect.event Ev.ADDRESS_CHANGED (le 2 m ++ le 4 addr ++ le 2 source), .mac m fun x => { x with
    defended := none, announceAt := if addr = 0 then none else some (now + 2000000000) }] := ⟨_, rfl⟩
  have hall : addrShown m addr prefixLen source now = .nat (Key.ip.ADDR_NOW_N m) addr :: .nat (Key.ip.PREFIX_NOW_N m) prefixLen ::
      .nat (Key.ip.ADDR_SOURCE_N m) source :: last := by rw [hlast, addrShown]
  have hevent : Confined [Key.evt.EVT_RAISED] (fun _ => ()) last := by simp [hlast]
  have hrest : Confined [Key.ip.PREFIX_NOW_N m, Key.ip.ADDR_SOURCE_N m, Key.evt.EVT_RAISED] (fun _ => ())
      (.nat (Key.ip.PREFIX_NOW_N m) prefixLen :: .nat (Key.ip.ADDR_SOURCE_N m) source :: last) :=
    confined_cons.2 ⟨by simp, confined_cons.2 ⟨by simp, hevent.mono (by simp)⟩⟩
  have hshown : Confined (addrKeys m) (fun _ => ()) (addrShown m addr prefixLen source now) :=
    hall ▸ confined_cons.2 ⟨by simp [addrKeys], hrest.mono (by simp [addrKeys])⟩
  refine ⟨?_, ?_, hshown.frame s⟩
  · rw [hall, State.run_cons]
    exact hrest.nat_stands (haddrWidth m hm) haddrApart s haddr
  · rw [hall, State.run_cons, State.run_cons, State.run_cons]
    refine hevent.num_stands (hsourceWidth m hm) (by simpa using hsourceApart) _ (Int.natCast_nonneg _) ?_
    omega

/-- The numbered addresses lie in the range of RFC 3927. -/
theorem linkLocalAddr_bounds (r : Nat) : 0xA9FE0100 ≤ linkLocalAddr r ∧ linkLocalAddr r ≤ 0xA9FEFEFF := by
  unfold linkLocalAddr
  omega

/-- Neighbours in the numbering differ. -/
theorem linkLocalAddr_succ_ne (r : Nat) : linkLocalAddr (r + 1) ≠ linkLocalAddr r := by
  unfold linkLocalAddr
  omega

/-- A link-local address of the device's own choosing is another than the one in force (RFC 3927). -/
theorem linkLocal_leaves (hm : m < 2) (s : State) :
    let t := s.does (linkLocal m)
    t.nat (Key.ip.ADDR_NOW_N m) ≠ s.nat (Key.ip.ADDR_NOW_N m) ∧ 0xA9FE0100 ≤ t.nat (Key.ip.ADDR_NOW_N m) ∧
      t.nat (Key.ip.ADDR_NOW_N m) ≤ 0xA9FEFEFF ∧ t.num (Key.ip.ADDR_SOURCE_N m) = 3 ∧ s.Frame (addrKeys m) t := by
  obtain ⟨a, hchoice, ha⟩ : ∃ a, linkLocal m s = phases [setAddr m a 16 3, always [.draws 1]] s ∧
      a ≠ s.nat (Key.ip.ADDR_NOW_N m) ∧ 0xA9FE0100 ≤ a ∧ a ≤ 0xA9FEFEFF := by
    refine ⟨_, rfl, ?_⟩
    split
    · next h => exact ⟨h ▸ linkLocalAddr_succ_ne _, linkLocalAddr_bounds _⟩
    · next h => exact ⟨h, linkLocalAddr_bounds _⟩
  obtain ⟨hother, hleast, hmost⟩ := ha
  obtain ⟨f, hset⟩ := does_setAddr hother (by omega) 16 3
  obtain ⟨haddr, hsource, hframe⟩ := addrShown_leaves (prefixLen := 16) hm (show a < 2 ^ 32 by omega) (show 3 < 256 by omega) s.mtbNs s
  have hdoes : s.does (linkLocal m) = ((s.run (addrShown m a 16 3 s.mtbNs)).apply (queueFrame m f)).apply (.draws 1) := by
    rw [State.does, hchoice]
    refine (State.does_phases_cons ..).trans ?_
    rw [State.does_phases_cons, State.does_phases_nil, State.does_always, State.run_cons, State.run_nil, hset]
  have hlast : (s.run (addrShown m a 16 3 s.mtbNs)).Frame [] (s.does (linkLocal m)) :=
    hdoes ▸ (queueFrame_frame _ m f).trans ⟨fun _ _ => rfl, rfl, rfl⟩
  have hnow := (hlast.nat (k := Key.ip.ADDR_NOW_N m) List.not_mem_nil).trans haddr
  dsimp only
  rw [hnow]
  exact ⟨hother, hleast, hmost, (hlast.num List.not_mem_nil).trans hsource, hframe.trans (hlast.mono (List.nil_subset _))⟩

/-- Without a lease a MAC takes a link-local address, and asks on (R382). -/
theorem does_dhcpFallback (hserved : s.units.mgmt.served = true) (hmode : s.num (Key.ip.IP_MODE_N m) = 1)
    (hnone : s.num (Key.ip.ADDR_SOURCE_N m) = 0) (hlease : (s.mac m).lease = none)
    (hdue : (s.mac m).upAt.any (fun t0 => s.expired t0 (s.nat Key.ip.DHCP_FALLBACK * 1000000000)) = true) :
    s.does (dhcpFallback m) =
      (s.does (linkLocal m)).apply (.mac m fun x => { x with retryAt := some (s.mtbNs + 60000000000) }) := by
  have hphases : dhcpFallback m s =
      phases [linkLocal m, always [.mac m fun x => { x with retryAt := some (s.mtbNs + 60000000000) }]] s :=
    if_pos ⟨hmode, hnone, hlease, hserved, hdue⟩
  rw [State.does, hphases]
  refine (State.does_phases_cons ..).trans ?_
  rw [State.does_phases_cons, State.does_phases_nil, State.does_always, State.run_cons, State.run_nil]

/-- A conflict over a link-local address is counted, and another one taken (R382, RFC 5227). -/
theorem addressConflict_leaves (hm : m < 2) (hserved : s.units.mgmt.served = true) (hmine : s.nat (Key.ip.ADDR_NOW_N m) ≠ 0)
    (hlocal : s.num (Key.ip.ADDR_SOURCE_N m) = 3) :
    let t := s.does (addressConflict m (s.nat (Key.ip.ADDR_NOW_N m)))
    t.nat (Key.ip.ADDR_NOW_N m) ≠ s.nat (Key.ip.ADDR_NOW_N m) ∧ 0xA9FE0100 ≤ t.nat (Key.ip.ADDR_NOW_N m) ∧
      t.nat (Key.ip.ADDR_NOW_N m) ≤ 0xA9FEFEFF ∧ t.num Key.ip.ADDR_CONFLICTS = (s.num Key.ip.ADDR_CONFLICTS + 1) % 2 ^ 32 ∧
      s.Frame (Key.ip.ADDR_CONFLICTS :: addrKeys m) t := by
  obtain ⟨-, -, hwidth, -⟩ := width_ip
  obtain ⟨haddrApart, hsourceApart, hcountApart, hnowApart, hsourceCount⟩ := addrKeys_apart hm
  obtain ⟨told, htold⟩ : ∃ e, e = Effect.event Ev.ADDRESS_CONFLICT (le 2 m ++ le 4 (s.nat (Key.ip.ADDR_NOW_N m))) := ⟨_, rfl⟩
  obtain ⟨x, hx⟩ : ∃ x, x = s.run [.bump Key.ip.ADDR_CONFLICTS 1, told] := ⟨_, rfl⟩
  have hcounted : Confined [Key.ip.ADDR_CONFLICTS, Key.evt.EVT_RAISED] (fun _ => ()) [.bump Key.ip.ADDR_CONFLICTS 1, told] := by
    simp [htold]
  have hevent : Confined [Key.evt.EVT_RAISED] (fun _ => ()) [told] := by simp [htold]
  have hxFrame : s.Frame [Key.ip.ADDR_CONFLICTS, Key.evt.EVT_RAISED] x := hx ▸ hcounted.frame s
  have hxNow : x.nat (Key.ip.ADDR_NOW_N m) = s.nat (Key.ip.ADDR_NOW_N m) := hxFrame.nat (by simp_all)
  have hxSource : x.num (Key.ip.ADDR_SOURCE_N m) = 3 := (hxFrame.num (by simp [hsourceApart, hsourceCount])).trans hlocal
  have hxCount : x.num Key.ip.ADDR_CONFLICTS = (s.num Key.ip.ADDR_CONFLICTS + 1) % 2 ^ 32 := by
    rw [hx, State.run_cons]
    exact ((hevent.frame _).num (by decide)).trans (State.num_bump s hwidth)
  have hdoes : s.does (addressConflict m (s.nat (Key.ip.ADDR_NOW_N m))) = x.does (linkLocal m) := by
    have hnot : ¬(s.nat (Key.ip.ADDR_NOW_N m) = 0 ∨ s.nat (Key.ip.ADDR_NOW_N m) ≠ s.nat (Key.ip.ADDR_NOW_N m) ∨
        (!s.units.mgmt.served) = true) := by simp [hmine, hserved]
    rw [State.does, addressConflict, if_neg hnot]
    refine (State.does_phases_cons ..).trans ?_
    rw [State.does_phases_cons, State.does_phases_nil, State.does_always, ← htold, ← hx, State.does, if_pos hxSource, State.does]
  obtain ⟨hother, hleast, hmost, -, hframe⟩ := linkLocal_leaves hm x
  dsimp only
  rw [hdoes]
  refine ⟨hxNow ▸ hother, hleast, hmost, (hframe.num hcountApart).trans hxCount, ?_⟩
  exact (hxFrame.mono (by simp [addrKeys])).trans (hframe.mono (by simp))

/-! ### O51 -/

/-- Settles O51: each message is answered by one frame, or changes what the MAC keeps, or brings another address. -/
theorem addressesAndGroupsAreKept : Obligations.AddressesAndGroupsAreKept := by
  unfold Obligations.AddressesAndGroupsAreKept
  intro s m hserved hup
  have hkey : (if m.val = 0 then Key.mc.IGMP_MODE_N0 else Key.mc.IGMP_MODE_N1) = igmpKey m := rfl
  refine ⟨fun sip smac hsip hother hmine => ⟨s.does (arpPacket m 1 sip smac (s.nat (Key.ip.ADDR_NOW_N m))), rfl, ?_⟩,
    ⟨_, rfl, arpCacheExpiry_leaves m s⟩,
    fun src b hmine hquiet => ⟨_, rfl, icmpEcho_leaves hserved hup hmine hquiet src b⟩,
    fun hgroups h1 h2 => ⟨_, rfl, hkey ▸ igmpQuery_leaves m.isLt hserved hup hgroups h1 h2⟩,
    fun x at' hreports hdue hmemb hversion => ⟨_, rfl, igmpReportRepeat_leaves hserved hreports hdue hmemb hversion⟩,
    fun addr p lease hmode => ⟨s.does (dhcpMessage m 5 addr p lease), rfl, ?_⟩,
    fun at' hretry hdue => ⟨_, rfl, dhcpRetry_leaves hserved hretry hdue⟩,
    fun hmode hnone hlease hdue => ⟨s.does (dhcpFallback m), rfl, ?_⟩,
    fun hmine hlocal => ⟨s.does (addressConflict m (s.nat (Key.ip.ADDR_NOW_N m))), rfl, ?_⟩⟩
  · obtain ⟨f, hsend, hkind, hdest⟩ := does_arpSend (s.apply (.mac m (arpLearn sip smac s.mtbNs))) m 2 sip sip
    rw [does_arpPacket_of_request hserved hup hsip hother hmine, hsend, mac_queueFrame, State.mac_apply_self]
    exact ⟨by simp [arpLearn], ⟨f, rfl, hkind, hdest⟩, (mac_frame s m _).trans (mac_frame _ m _)⟩
  · beta_reduce
    rw [State.does, dhcpMessage_of_ack hserved hup hmode, State.run_cons, State.run_nil, State.mac_apply_self]
    exact ⟨rfl, rfl, mac_frame s m _⟩
  · obtain ⟨-, hleast, hmost, hsource, hframe⟩ := linkLocal_leaves m.isLt s
    have hlast := mac_frame (s.does (linkLocal m)) m fun x => { x with retryAt := some (s.mtbNs + 60000000000) }
    rw [does_dhcpFallback hserved hmode hnone hlease hdue, State.mac_apply_self, hlast.nat List.not_mem_nil, hlast.num List.not_mem_nil]
    exact ⟨hleast, hmost, hsource, rfl, hframe.trans (hlast.mono (List.nil_subset _))⟩
  · obtain ⟨hother, hleast, hmost, hcount, hframe⟩ := addressConflict_leaves m.isLt hserved hmine hlocal
    exact ⟨hother, hleast, hmost, hcount, hframe.mono (by simp [addrKeys])⟩

end Sys2Proof.Machine
end
